-- ==== Sys2Proof/Word.lean ====
section
/-! DEFINITION. The word types of the NM48: 8-bit memory bytes, 24-bit engine words (07 R213), 32-bit system
words (00 R2). -/

namespace Sys2Proof

/-- One byte of the address space. -/
abbrev Byte := BitVec 8

/-- One engine word (07 R213). -/
abbrev Word24 := BitVec 24

/-- One system word (00 R2). -/
abbrev Word := BitVec 32

end Sys2Proof
end

