-- ==== Sys2Proof/Syntax.lean ====
section
/-! DEFINITION. The commands of the NM48 block model: one constructor of `Instr` per row of spec/opcode_table.json,
and the types of their operands. -/

namespace Sys2Proof

/-- A requester code (01 R19): engines 0 to 63, host SPI CS_S 64 and CS_N 65, management port 66, ETH0 67, ETH1 68,
Siphon 69, any other block that moves data 70. -/
abbrev Req := Fin 71
/-- A lane (02 R41). -/
abbrev LaneIx := Fin 96
/-- An engine (08). -/
abbrev EngIx := Fin 64
/-- An interrupt source (12 R376). -/
abbrev SrcIx := Fin 512
/-- A timer (12 R386). -/
abbrev TmrIx := Fin 16
/-- A peripheral block (01 R17). -/
abbrev BlockIx := Fin 24

/-- One of the two receive chains (02 R41). -/
inductive Chain where
  | a
  | b
deriving DecidableEq, Repr

/-- The 32 most recent demodulated bits of each of a lane's searchers S0 to S3, the newest in bit 0 (R59). -/
structure Hits where
  h0 : Word
  h1 : Word
  h2 : Word
  h3 : Word
deriving DecidableEq, Repr

/-- What the lane's tracking holds at the last bit of a matched sync word: the offset of that bit in the slot, or after the last slot
while slots do not run, in 0.125 us units (R75), the RSSI in dBm (R76), the frequency error in 10 Hz units and the digital gain (R55). -/
structure SyncInfo where
  off : Nat
  rssi : BitVec 8
  ferr : BitVec 16
  dgain : BitVec 8
deriving DecidableEq, Repr

/-- The width of a memory write (R163, R241). -/
inductive Width where
  | byte
  | half
  | three
  | word
deriving DecidableEq, Repr

/-- The six descriptor words of a cipher job, as written to CIP_JD0 to CIP_JD5 (05 R175). -/
structure JobDesc where
  w0 : Word
  w1 : Word
  w2 : Word
  w3 : Word
  w4 : Word
  w5 : Word
deriving DecidableEq, Repr

/-- A write of TMR_CTLk.CAP (12 R390): the timer, and the timers that have captured in that cycle already for another cause. -/
structure CapWrite where
  timer : TmrIx
  same : List TmrIx
deriving DecidableEq, Repr

/-- A debounced level of a CFB ball (11 R368), and whether it falls in the cycle of a write of CTR_FCLR just before it (R371). -/
structure Feedback where
  level : Bool
  atClear : Bool
deriving DecidableEq, Repr

/-- The band-select headroom, in codes, that a calibration of the transmit synthesiser leaves at each end (14 R455). -/
structure Headroom where
  lo : Byte
  hi : Byte
deriving DecidableEq, Repr

/-- The engine units that deliver a result after a latency (07 R217). -/
inductive EUnit where
  | alu0
  | alu1
  | shu
  | mul
  | lsu
deriving DecidableEq, Repr

/-- What R269 arbitrates: the port of a well, or a target (0-23 a block, 24 the flash window, 25 the Cistern, 26 the lane
buffers, 27 the queues, 28 the engine memories, 29 the scratch, 30 the key store, 31 any other address). -/
inductive Arbiter where
  | port (w : Fin 8)
  | target (t : Fin 32)
deriving DecidableEq, Repr

/-- The header of a received Siphon frame (09 R291). -/
structure SphHdr where
  seq : BitVec 16
  ack : BitVec 16
  nak : Bool
  sync : Bool
  ackv : Bool
deriving DecidableEq, Repr

/-- A HELLO payload (09 R291), with the receiver's own Siphon clock at its arrival. -/
structure HelloBody where
  pairid : BitVec 16
  role : Bool
  uid : BitVec 64
  term : BitVec 16
  stamp : BitVec 16
  echo : BitVec 16
  hold : BitVec 16
  now : BitVec 16
deriving DecidableEq, Repr

/-- A BEAT payload (09 R291), with the receiver's own slot offset at its arrival. -/
structure BeatBody where
  state : Fin 6
  sumv : Bool
  auto : Bool
  term : BitVec 16
  asn : BitVec 40
  off : BitVec 24
  epoch : Word
  sfn : Word
  img : Word
  sum : Word
  sumseq : BitVec 16
  here : BitVec 17
deriving DecidableEq, Repr

/-- A record of an ENTRY frame (09 R291). -/
structure EntryRec where
  index : BitVec 18
  w0 : Word
  w1 : Word
  w2 : Word
  w3 : Word
deriving DecidableEq, Repr

/-- One REQ fragment (09 R299). -/
structure ReqBody where
  desc : BitVec 12
  mode : BitVec 2
  frag : Fin 5
  last : Bool
  index : BitVec 18
  d0 : Word
  d1 : Word
  d2 : Word
  d3 : Word
  payload : List Byte
deriving DecidableEq, Repr

/-- A LAUNCH record, words 0 to 5 (09 R301). -/
structure LaunchBody where
  w0 : Word
  w1 : Word
  w2 : Word
  w3 : Word
  w4 : Word
  w5 : Word
deriving DecidableEq, Repr

/-- A DONE record (09 R291). -/
structure DoneRec where
  desc : BitVec 12
  outcome : BitVec 4
deriving DecidableEq, Repr

/-- An ACCT record, two words (09 R291). -/
structure AcctRec where
  w0 : Word
  w1 : Word
deriving DecidableEq, Repr

/-- One of the two host SPI selects (10 R316). -/
inductive Select where
  | s
  | n
deriving DecidableEq, Repr

/-- The host's words of an SPI write transaction (10 R317): the command word, the address, the DATA words sent whole,
the HCRC word if it was sent, and how many of the writes their targets had accepted when STATUS was sent (R322). -/
structure SpiWrite where
  cs : Select
  cmd : Word
  addr : Word
  data : List Word
  hcrc : Option Word
  accepted : Nat
deriving DecidableEq, Repr

/-- The host's words of an SPI read transaction (10 R317), with the words whose access completed too late (R323). -/
structure SpiRead where
  cs : Select
  cmd : Word
  addr : Word
  hcrc : Option Word
  late : List Bool
deriving DecidableEq, Repr

/-- How an attempt to send an attention message ends (10 R338 to R340). -/
inductive AttemptOutcome where
  | sent
  | nack
  | arbLost
  | busNotFree
deriving DecidableEq, Repr

/-- An Ethernet frame from the wire, without its FCS: its bytes, whether its FCS or the RGMII was in error (10 R344), and the in-band status
that the PHY showed before it, laid out as ETH_STAT bits 3:0 (R342, R353). -/
structure EthFrame where
  bytes : List Byte
  bad : Bool
  status : BitVec 4
deriving DecidableEq, Repr

/-- The wake sources of 13 R433. -/
inductive WakeSrc where
  | mgb
  | wkr
  | rtc
  | aonIrq
  | vmain
  | rstin
deriving DecidableEq, Repr


/-- The commands of the block: one constructor per row of spec/opcode_table.json, in the table's order. The operands
are the model's (log entry 7): what the spec says the outside supplies at that step. -/
inductive Instr where
  /-- REGISTER_WRITE (R3). A whole-word write to a register that has no row of its own; all of its fields apply in the same cycle. -/
  | registerWrite (r : Req) (a : Word) (v : Word)
  /-- RC_READ (R9). A read of an RC counter returns the count and clears it; increments from the same cycle remain. -/
  | rcRead (r : Req) (a : Word)
  /-- SNAPSHOT_READ (R32). A read of the low word of a multi-register value captures the upper words into a snapshot for that requester. -/
  | snapshotRead (r : Req) (a : Word)
  /-- BLOCK_LOCK (R11). A write of 1 to a bit of SYS_BLKLOCK freezes that block's RWL fields until the block is reset. -/
  | blockLock (r : Req) (bits : BitVec 24)
  /-- WLD_LOCK (R25). A write of 1 to WLD_LOCK freezes the world assignments until a main-domain reset. -/
  | wldLock (r : Req)
  /-- STAGED_WRITE (R34). A write to a staged field goes to its shadow. -/
  | stagedWrite (r : Req) (a : Word) (v : Word)
  /-- ARM (R36). A write of ARM asks for the world's staged set to be committed at the next superframe boundary. -/
  | arm (r : Req)
  /-- GAP (R37). A write of GAP arms a commit with a quiet superframe. -/
  | gap (r : Req)
  /-- ABANDON (R39). A write of ABANDON clears ARM and reloads the world's shadows from the active values. -/
  | abandon (r : Req)
  /-- STOPPED_COMMIT (R36). While the superframe machine is stopped, the armed set is committed at most 1 µs after ARM is set or after the machine stops. -/
  | stoppedCommit (sec : Bool) (ns : Bool)
  /-- AON_WRITE_COMPLETE (R31). A posted write to an always-on register completes and its SYS_AON_BUSY bit clears. -/
  | aonWriteComplete (a : Word)
  /-- SYNC_MATCH (R67). A searcher matches a sync word; a lane in SEARCH locks and enters HEADER with gain and frequency frozen. -/
  | syncMatch (n : LaneIx) (h : Hits) (info : SyncInfo)
  /-- SECOND_CORRELATOR_MATCH (R63). The second correlator finds a match in the header window and records it. -/
  | secondCorrelatorMatch (n : LaneIx) (bits : List Bool)
  /-- HEADER_WINDOW_COMPLETE (R95). The header window ends; the header is decoded and checked, and the lane enters PAYLOAD on success. -/
  | headerWindowComplete (n : LaneIx) (bits : List Bool) (mags : List Nat)
  /-- LAST_ON_AIR_BIT (R67). A lane in PAYLOAD receives the frame's last bit and enters DRAIN. -/
  | lastOnAirBit (n : LaneIx) (air : List Int)
  /-- CODEWORD_RECEIVED (R104). The last bit of a Deep codeword arrives and the codeword joins the decoder queue. -/
  | codewordReceived (n : LaneIx) (llrs : List Int) (same : Bool)
  /-- DECODING_JOB_START (R104). A free decoder takes the oldest queued codeword. -/
  | decodingJobStart
  /-- DECODING_JOB_END (R108). A decoding job ends; its information bytes are written to the lane buffer. -/
  | decodingJobEnd (d : Fin 8)
  /-- RELEASE (R69). A write of LAN_CTL.RELEASE returns the buffer of a lane in READY. -/
  | release (r : Req) (n : LaneIx)
  /-- RESTART (R70). A write of LAN_CTL.RESTART discards the lane's frame and returns it to SEARCH. -/
  | restart (r : Req) (n : LaneIx)
  /-- DECISION_WINDOW_END (R50). A chain's 10 µs gain decision window ends and the controller decides on the gain index. -/
  | decisionWindowEnd (c : Chain) (peak : Int)
  /-- GAIN_SETTLED (R52). A gain change settles and lanes in SEARCH restart acquisition. -/
  | gainSettled (c : Chain)
  /-- ADC_CLIP (R53). A chain's ADC clips; the clip is counted, the interrupt pulses and overlapping frames carry CLIP. -/
  | adcClip (c : Chain)
  /-- NOISE_MEASUREMENT_COMPLETE (R76). A 1 ms noise period completes in SEARCH and updates LAN_RSSI.NOISE. -/
  | noiseMeasurementComplete (n : LaneIx) (power : Nat)
  /-- FREQUENCY_CORRECTION (R56). Every 8 symbols with TRACK = 1, the frozen frequency estimate is corrected. -/
  | frequencyCorrection (n : LaneIx) (err : Int)
  /-- RECALA (R79). A write of RECALA recalibrates chain A's synthesiser. -/
  | recalA (r : Req)
  /-- RECALB (R79). A write of RECALB recalibrates chain B's synthesiser. -/
  | recalB (r : Req)
  /-- SYNTH_CALIBRATION_COMPLETE (R79). A receive synthesiser calibration completes, RXA or RXB sets and the lanes leave BLANK. -/
  | synthCalibrationComplete (c : Chain)
  /-- DC_LOOP_LIMIT (R47). A DC loop reaches its correction limit and sets DCSAT. -/
  | dcLoopLimit (c : Chain) (ii : BitVec 16) (qq : BitVec 16)
  /-- WAKE_CODE_MATCH (R81). The wake receiver matches a wake code, sets MATCH, counts it and signals the wake source. -/
  | wakeCodeMatch (code : BitVec 16)
  /-- SLOT_BOUNDARY (R114). A slot ends after 400,000 REFCLK cycles and ASN increments. -/
  | slotBoundary (dt : Nat)
  /-- SFM_RUN_START (R115). A write of RUN = 1 asks the stopped superframe machine to start at slot ASNSET. -/
  | sfmRunStart (r : Req)
  /-- SFM_RUN_STOP (R115). A write of RUN = 0 asks the machine to stop at the next slot boundary. -/
  | sfmRunStop (r : Req)
  /-- FIRST_SLOT_START (R115). Slot ASNSET starts at most 1 µs after RUN = 1, or after a pending commit; RUNNING sets. -/
  | firstSlotStart (dt : Nat) (gap : Nat)
  /-- SFM_ADJ (R116). A write of SFM_ADJ sets the shift to slew into later slot boundaries. -/
  | sfmAdj (r : Req) (shift : BitVec 24)
  /-- SFM_SUBMIT (R126). A write of SFM_SUBMIT adds a pending transmit request or posts FULL or DUPLICATE. -/
  | sfmSubmit (r : Req) (mode : BitVec 2) (index : BitVec 18) (desc : BitVec 12)
  /-- SFM_CANCEL (R127). A write of SFM_CANCEL removes a pending request and posts CANCELLED. -/
  | sfmCancel (r : Req) (desc : BitVec 12)
  /-- SFM_RESULT (R127). A read of SFM_RESULT removes the oldest result from the queue. -/
  | sfmResult (r : Req)
  /-- SFM_HEARD (R134). A write of SFM_HEARD updates the entry's last-heard time and drift and clears MISS and LOST_SYNC. -/
  | sfmHeard (r : Req) (err : BitVec 14) (index : BitVec 18)
  /-- SFM_MISS (R134). A write of SFM_MISS increments the entry's MISS count. -/
  | sfmMiss (r : Req) (index : BitVec 18)
  /-- CST_UGO (R153). A write of CST_UGO performs the requester's atomic entry update. -/
  | cstUgo (r : Req)
  /-- CST_RQ (R159). A write of CST_RQ walks an entry's route and gives the first hop and depth in CST_RA. -/
  | cstRq (r : Req) (index : BitVec 18)
  /-- CLEAR (R160). A write of CST_CTL.CLEAR starts clearing the Cistern. -/
  | clear (r : Req)
  /-- CISTERN_CLEAR_COMPLETE (R160). The Cistern clear completes after 11 ms and SYS_READY bit 13 sets. -/
  | cisternClearComplete
  /-- CISTERN_DIRECT_WRITE (R156). A direct word write to Cistern SRAM takes effect between atomic updates. -/
  | cisternDirectWrite (r : Req) (a : Word) (v : Word)
  /-- KEY_STORE_WRITE (R164). A write to a key store slot word changes the slot's valid bit; the fourth word flushes derived keys. -/
  | keyStoreWrite (r : Req) (a : Word) (v : Word) (w : Width)
  /-- DEEP_ENC (R176). A DEEP_ENC cipher job is submitted and goes through the submission checks. -/
  | deepEnc (r : Req) (j : JobDesc)
  /-- DEEP_DEC (R176). A DEEP_DEC cipher job is submitted and goes through the submission checks. -/
  | deepDec (r : Req) (j : JobDesc)
  /-- SUN_ENC (R176). A SUN_ENC cipher job is submitted and goes through the submission checks. -/
  | sunEnc (r : Req) (j : JobDesc)
  /-- SUN_DEC (R176). A SUN_DEC cipher job is submitted and goes through the submission checks. -/
  | sunDec (r : Req) (j : JobDesc)
  /-- CMAC_GEN (R176). A CMAC_GEN cipher job is submitted. -/
  | cmacGen (r : Req) (j : JobDesc)
  /-- CMAC_VER (R176). A CMAC_VER cipher job is submitted. -/
  | cmacVer (r : Req) (j : JobDesc)
  /-- PRIME (R176). A PRIME job is submitted to derive an entry's key into the cache. -/
  | prime (r : Req) (j : JobDesc)
  /-- JOB_START (R174). A free AES core takes the oldest queued job and runs the core checks. -/
  | jobStart
  /-- JOB_COMPLETE (R186). A cipher job ends and its record is written, then its event channel fires. -/
  | jobComplete (c : Fin 8)
  /-- FLUSH (R170). A write of CIP_CTL.FLUSH empties the derived-key cache. -/
  | flush (r : Req)
  /-- HOP_START (R205). At T − 40 µs − RAMP the transmit synthesiser starts its hop and looks up the channel. -/
  | hopStart (head : Headroom)
  /-- FEM_SWITCH (R206). The FEM balls switch to the launch pattern at T − RAMP − FEMLEAD. -/
  | femSwitch
  /-- PAYLOAD_READ_COMPLETE (R198). The transmitter completes the payload read into its frame store. -/
  | payloadReadComplete
  /-- RAMP_UP (R205). At T − RAMP the transmitter ramps power up. -/
  | rampUp (locked : Bool)
  /-- LAST_SYMBOL (R205). The last symbol ends, ramp-down begins and the result SENT is posted. -/
  | lastSymbol (power : Byte)
  /-- RAMP_DOWN_END (R205). The ramp-down ends and the chain's blanking ends. -/
  | rampDownEnd (off : Nat)
  /-- FEM_RETURN (R206). The FEM balls return to the idle pattern FEMLAG after the ramp-down. -/
  | femReturn
  /-- SYN_CALIBRATE (R209). A SYN_CMD calibrate command is queued. -/
  | synCalibrate (r : Req) (khz : BitVec 20)
  /-- SYN_INVALIDATE (R209). A SYN_CMD invalidate command for one channel is queued. -/
  | synInvalidate (r : Req) (khz : BitVec 20)
  /-- SYN_INVALIDATE_ALL (R209). A SYN_CMD invalidate-all command is queued. -/
  | synInvalidateAll (r : Req)
  /-- QUEUED_COMMAND_START (R209). The synthesiser starts a queued command when it has room before the next launch. -/
  | queuedCommandStart
  /-- QUEUED_CALIBRATION_END (R209). A queued calibration ends after 40 µs and stores its entry. -/
  | queuedCalibrationEnd (head : Headroom)
  /-- MOVE (R214). An engine instruction issues and performs its moves into registers and operand ports. -/
  | move (e : EngIx)
  /-- RESULT_DELIVERY (R217). A unit delivers a triggered operation's result to its result ports after its latency. -/
  | resultDelivery (e : EngIx) (u : EUnit)
  /-- SHARED_ACCESS_COMPLETE (R242). A stalled shared access completes and the stalled instruction's writes take effect. -/
  | sharedAccessComplete (e : EngIx) (cycles : Nat)
  /-- ADD (R229). ALU trigger ADD. -/
  | add (e : EngIx) (u : Fin 2) (t : Word24)
  /-- SUB (R229). ALU trigger SUB. -/
  | sub (e : EngIx) (u : Fin 2) (t : Word24)
  /-- AND (R229). ALU trigger AND. -/
  | and (e : EngIx) (u : Fin 2) (t : Word24)
  /-- OR (R229). ALU trigger OR. -/
  | or (e : EngIx) (u : Fin 2) (t : Word24)
  /-- XOR (R229). ALU trigger XOR. -/
  | xor (e : EngIx) (u : Fin 2) (t : Word24)
  /-- ANDN (R229). ALU trigger ANDN. -/
  | andn (e : EngIx) (u : Fin 2) (t : Word24)
  /-- MIN (R229). ALU trigger MIN, signed minimum. -/
  | min (e : EngIx) (u : Fin 2) (t : Word24)
  /-- MAX (R229). ALU trigger MAX, signed maximum. -/
  | max (e : EngIx) (u : Fin 2) (t : Word24)
  /-- MINU (R229). ALU trigger MINU, unsigned minimum. -/
  | minu (e : EngIx) (u : Fin 2) (t : Word24)
  /-- MAXU (R229). ALU trigger MAXU, unsigned maximum. -/
  | maxu (e : EngIx) (u : Fin 2) (t : Word24)
  /-- ADDS (R229). ALU trigger ADDS, saturating add. -/
  | adds (e : EngIx) (u : Fin 2) (t : Word24)
  /-- SUBS (R229). ALU trigger SUBS, saturating subtract. -/
  | subs (e : EngIx) (u : Fin 2) (t : Word24)
  /-- SEXT8 (R229). ALU trigger SEXT8. -/
  | sext8 (e : EngIx) (u : Fin 2) (t : Word24)
  /-- SEXT16 (R229). ALU trigger SEXT16. -/
  | sext16 (e : EngIx) (u : Fin 2) (t : Word24)
  /-- ABS (R229). ALU trigger ABS. -/
  | abs (e : EngIx) (u : Fin 2) (t : Word24)
  /-- PASS (R229). ALU trigger PASS. -/
  | pass (e : EngIx) (u : Fin 2) (t : Word24)
  /-- SHL (R230). Shifter trigger SHL. -/
  | shl (e : EngIx) (t : Word24)
  /-- SHR (R230). Shifter trigger SHR. -/
  | shr (e : EngIx) (t : Word24)
  /-- SAR (R230). Shifter trigger SAR. -/
  | sar (e : EngIx) (t : Word24)
  /-- ROL (R230). Shifter trigger ROL. -/
  | rol (e : EngIx) (t : Word24)
  /-- FSHL (R230). Shifter trigger FSHL. -/
  | fshl (e : EngIx) (t : Word24)
  /-- FSHR (R230). Shifter trigger FSHR. -/
  | fshr (e : EngIx) (t : Word24)
  /-- CLZ (R230). Shifter trigger CLZ. -/
  | clz (e : EngIx) (t : Word24)
  /-- MULS (R231). Multiplier trigger MULS. -/
  | muls (e : EngIx) (t : Word24)
  /-- MULU (R231). Multiplier trigger MULU. -/
  | mulu (e : EngIx) (t : Word24)
  /-- MULSU (R231). Multiplier trigger MULSU. -/
  | mulsu (e : EngIx) (t : Word24)
  /-- MACS (R232). Multiplier trigger MACS, signed accumulate. -/
  | macs (e : EngIx) (t : Word24)
  /-- MACU (R232). Multiplier trigger MACU, unsigned accumulate. -/
  | macu (e : EngIx) (t : Word24)
  /-- CMP_EQ (R233). Comparator trigger EQ writes a guard. -/
  | cmpEq (e : EngIx) (g : Fin 3) (t : Word24)
  /-- CMP_NE (R233). Comparator trigger NE writes a guard. -/
  | cmpNe (e : EngIx) (g : Fin 3) (t : Word24)
  /-- CMP_LT (R233). Comparator trigger LT writes a guard. -/
  | cmpLt (e : EngIx) (g : Fin 3) (t : Word24)
  /-- CMP_GE (R233). Comparator trigger GE writes a guard. -/
  | cmpGe (e : EngIx) (g : Fin 3) (t : Word24)
  /-- CMP_LTU (R233). Comparator trigger LTU writes a guard. -/
  | cmpLtu (e : EngIx) (g : Fin 3) (t : Word24)
  /-- CMP_GEU (R233). Comparator trigger GEU writes a guard. -/
  | cmpGeu (e : EngIx) (g : Fin 3) (t : Word24)
  /-- CMP_ANY (R233). Comparator trigger ANY writes a guard. -/
  | cmpAny (e : EngIx) (g : Fin 3) (t : Word24)
  /-- CMP_NONE (R233). Comparator trigger NONE writes a guard. -/
  | cmpNone (e : EngIx) (g : Fin 3) (t : Word24)
  /-- JUMP (R235). Branch trigger JUMP to an absolute target after two delay slots. -/
  | jump (e : EngIx) (t : Word24)
  /-- JREL (R235). Branch trigger JREL to a relative target. -/
  | jrel (e : EngIx) (t : Word24)
  /-- CALL (R235). Branch trigger CALL pushes the return index and jumps. -/
  | call (e : EngIx) (t : Word24)
  /-- CREL (R235). Branch trigger CREL pushes the return index and branches relatively. -/
  | crel (e : EngIx) (t : Word24)
  /-- RET (R238). Branch trigger RET pops the return stack and branches to the entry. -/
  | ret (e : EngIx)
  /-- TRET (R260). Branch trigger TRET resumes from the trap bank. -/
  | tret (e : EngIx)
  /-- LDL (R239). Local load from the engine's data memory. -/
  | ldl (e : EngIx) (t : Word24)
  /-- STL (R239). Local store of LSU.LV into the engine's data memory. -/
  | stl (e : EngIx) (t : Word24)
  /-- LDB (R241). Shared byte load, zero-extended. -/
  | ldb (e : EngIx) (t : Word24)
  /-- LDBS (R241). Shared byte load, sign-extended. -/
  | ldbs (e : EngIx) (t : Word24)
  /-- LDH (R241). Shared halfword load, zero-extended. -/
  | ldh (e : EngIx) (t : Word24)
  /-- LDHS (R241). Shared halfword load, sign-extended. -/
  | ldhs (e : EngIx) (t : Word24)
  /-- LDT (R241). Shared 24-bit load. -/
  | ldt (e : EngIx) (t : Word24)
  /-- LDW (R241). Shared 32-bit load into LSU.SD and LSU.SDH. -/
  | ldw (e : EngIx) (t : Word24)
  /-- STB (R241). Shared byte store. -/
  | stb (e : EngIx) (t : Word24)
  /-- STH (R241). Shared halfword store. -/
  | sth (e : EngIx) (t : Word24)
  /-- STT (R241). Shared 24-bit store. -/
  | stt (e : EngIx) (t : Word24)
  /-- STW (R241). Shared 32-bit store. -/
  | stw (e : EngIx) (t : Word24)
  /-- BLKLD (R243). Block load of n containers into local words. -/
  | blkld (e : EngIx) (t : Word24)
  /-- BLKST (R243). Block store of n local words into containers. -/
  | blkst (e : EngIx) (t : Word24)
  /-- LIO_SEL (R245). A move into LIO.SEL selects the lane, mode and offset of the lane I/O port. -/
  | lioSel (e : EngIx) (t : Word24)
  /-- LIO_A (R246). A read of LIO.A returns three buffer bytes or takes the oldest sample. -/
  | lioA (e : EngIx) (d : Fin 32)
  /-- LIO_B (R246). A read of LIO.B returns one buffer byte or the Q of the last sample taken. -/
  | lioB (e : EngIx) (d : Fin 32)
  /-- CJ_W (R248). A move into CJ.W writes the next descriptor word; the sixth submits the job. -/
  | cjW (e : EngIx) (t : Word24)
  /-- CJ_RST (R249). A move into CJ.RST resets the cipher job port count. -/
  | cjRst (e : EngIx)
  /-- EV_FIRE (R250). A move into EV.FIRE fires an event channel. -/
  | evFire (e : EngIx) (t : Word24)
  /-- EV_POP (R250). A read of EV.POP returns and clears the lowest pending channel. -/
  | evPop (e : EngIx) (d : Fin 32)
  /-- LK_ACQ (R251). A move into LK.ACQ attempts to acquire a lock and sets LK.R. -/
  | lkAcq (e : EngIx) (t : Word24)
  /-- LK_REL (R251). A move into LK.REL releases a lock held by the engine. -/
  | lkRel (e : EngIx) (t : Word24)
  /-- TM_WDK (R252). A move into TM.WDK restarts the engine's watchdog. -/
  | tmWdk (e : EngIx)
  /-- TM_CYC (R252). A read of TM.CYC returns the low cycle count and captures the high part. -/
  | tmCyc (e : EngIx) (d : Fin 32)
  /-- TM_OFF (R252). A read of TM.OFF returns the slot offset and captures the ASN. -/
  | tmOff (e : EngIx) (d : Fin 32)
  /-- TB_CLR (R260). A move into TB.CLR clears the trap bank VALID bit without resuming. -/
  | tbClr (e : EngIx)
  /-- LOAD (R261). A write of ENG_CTL.LOAD resets a halted engine's state and marks it loaded. -/
  | load (r : Req) (e : EngIx)
  /-- START (R264). A write of ENG_CTL.START resumes a loaded halted engine at ENG_PC. -/
  | start (r : Req) (e : EngIx)
  /-- HALT (R263). A write of ENG_CTL.HALT orders an ordinary halt. -/
  | halt (r : Req) (e : EngIx)
  /-- FORCE (R267). A write of ENG_CTL.FORCE orders a forced halt. -/
  | force (r : Req) (e : EngIx)
  /-- HALT_COMPLETE (R263). In-flight operations of a halting engine complete and it enters HALTED. -/
  | haltComplete (e : EngIx)
  /-- STALL_LIMIT (R266). With a halt pending, a shared access stalled over 4,096 cycles is forced off. -/
  | stallLimit (e : EngIx)
  /-- ENG_PC_WRITE (R264). A write of ENG_PC in HALTED sets the resumption sequence. -/
  | engPcWrite (r : Req) (e : EngIx) (x : BitVec 11)
  /-- INSTRUCTION_STORE_WRITE (R262). A write to an engine's instruction store is refused when it runs, and otherwise clears LOADED. -/
  | instructionStoreWrite (r : Req) (a : Word) (v : Word)
  /-- GRANT (R269). A well port or target grants the next waiting access round-robin. -/
  | grant (a : Arbiter)
  /-- GRANT_REVOKE (R270). An access holding its grant for 256 fabric cycles is revoked and queued again. -/
  | grantRevoke (e : EngIx)
  /-- WATCHDOG_EXPIRY (R271). An engine watchdog reaches LIMIT and raises the exception or orders a forced halt. -/
  | watchdogExpiry (e : EngIx)
  /-- ENG_WDT_WRITE (R271). A write of ENG_WDT restarts the watchdog and clears WDX. -/
  | engWdtWrite (r : Req) (e : EngIx) (v : BitVec 16)
  /-- EVC_FIRE (R272). A write of EVC_FIRE fires a channel by software. -/
  | evcFire (r : Req) (ch : Byte)
  /-- EVENT_ARRIVAL (R273). An event reaches its channel and sets the consumer's pending bit. -/
  | eventArrival
  /-- EVC_HPEND_CLEAR (R277). A write of 1 to EVC_HPENDw clears host pending bits. -/
  | evcHpendClear (r : Req) (w : Fin 8) (v : Word)
  /-- CHANNEL_LOCK (R276). A write of EVC_CHc.LOCK = 1 freezes the channel's configuration. -/
  | channelLock (r : Req) (c : Byte) (v : Word)
  /-- LCK_ACQ (R279). A write of LCK_ACQ attempts to acquire a lock and sets LCK_RES. -/
  | lckAcq (r : Req) (k : BitVec 6)
  /-- LCK_REL (R280). A write of LCK_REL releases a lock held by the writer. -/
  | lckRel (r : Req) (k : BitVec 6)
  /-- LCK_CLR (R281). A write of LCK_CLR by the holder clears the lock's orphan flag. -/
  | lckClr (r : Req) (k : BitVec 6)
  /-- PAIRING_ENABLE (R283). A write of SPH_CTL.EN = 1 makes a SOLO part PRIMARY or LINKING. -/
  | pairingEnable (r : Req) (v : Word)
  /-- PAIRING_DISABLE (R283). A write of SPH_CTL.EN = 0 returns the part to SOLO. -/
  | pairingDisable (r : Req)
  /-- HELLO_SEND (R289). Every 1 µs during training the part sends a HELLO frame. -/
  | helloSend
  /-- HELLO (R289). A HELLO frame is received; after 16 good ones the link is up. -/
  | hello (h : SphHdr) (b : HelloBody)
  /-- LINK_DOWN (R290). Loss of character alignment or of good frames drops the link and training restarts. -/
  | linkDown
  /-- BEAT_SEND (R293). Every 250 µs the part sends a BEAT frame. -/
  | beatSend
  /-- BEAT (R305). A BEAT from the primary is received and checked by the standby. -/
  | beat (h : SphHdr) (b : BeatBody)
  /-- HEARTBEAT_MISSED (R293). A 250 µs period passes without a good BEAT and SPH_MISSBEAT increments. -/
  | heartbeatMissed
  /-- PRIMARY_LOST (R309). A standby gets no BEAT for 1,000 µs and declares the primary lost. -/
  | primaryLost
  /-- TAKEOVER (R309). The standby completes takeover and enters PRIMARY with TERM incremented. -/
  | takeover (off : BitVec 17)
  /-- PEER_LOST (R312). A primary declares its peer lost, sets PEER_LOST and runs alone. -/
  | peerLost
  /-- ENTRY (R297). An ENTRY frame is received and its records are applied as atomic updates. -/
  | entry (h : SphHdr) (rs : List EntryRec)
  /-- REQ (R299). A REQ fragment is received; the last fragment makes the request pending. -/
  | req (h : SphHdr) (b : ReqBody)
  /-- LAUNCH (R301). A LAUNCH record is received and its charge and credit are applied. -/
  | launch (h : SphHdr) (b : LaunchBody)
  /-- DONE (R301). A DONE record is received; the request is removed and its result posted. -/
  | done (h : SphHdr) (rs : List DoneRec)
  /-- HANDOFF (R313). A HANDOFF frame is received and the standby takes over. -/
  | handoff (h : SphHdr) (asn : BitVec 40)
  /-- ACCT (R304). ACCT records are received and overwrite granules and credits. -/
  | acct (h : SphHdr) (rs : List AcctRec)
  /-- ACKF (R292). An acknowledgement or NAK is received. -/
  | ackf (h : SphHdr)
  /-- RESEND (R292). After 20 µs without an acknowledgement, outstanding sequenced frames are resent. -/
  | resend
  /-- DIRTY_ENTRY_SWEEP (R295). The primary sweeps dirty entries and sends them in ENTRY frames. -/
  | dirtyEntrySweep
  /-- COUNTER_LIFT (R311). After takeover, TC of every entry is lifted by SPH_LIFT. -/
  | counterLift
  /-- REJOIN (R308). A write of SPH_CMD.REJOIN clears SPH_ESTR and begins an alignment. -/
  | rejoin (r : Req)
  /-- PROMOTE (R314). A write of SPH_CMD.PROMOTE makes a part take over at once. -/
  | promote (r : Req)
  /-- HANDOVER (R313). A write of SPH_CMD.HANDOVER starts a planned handover. -/
  | handover (r : Req)
  /-- PLANNED_HANDOVER_COMPLETE (R313). The old primary completes its decided launches and enters STANDBY. -/
  | plannedHandoverComplete
  /-- WRITE (R322). A host SPI WRITE transaction writes n words at consecutive addresses. -/
  | write (t : SpiWrite)
  /-- WRITE_FIX (R318). A host SPI WRITE_FIX transaction writes n words to one address. -/
  | writeFix (t : SpiWrite)
  /-- READ (R323). A host SPI READ transaction reads n words at consecutive addresses. -/
  | read (t : SpiRead)
  /-- READ_FIX (R318). A host SPI READ_FIX transaction reads n words from one address. -/
  | readFix (t : SpiRead)
  /-- SELECT_ASSERT (R327). A chip select is asserted; a simultaneous pair collides. -/
  | selectAssert (cs : Select) (both : Bool)
  /-- SELECT_RELEASE (R325). A chip select is released; a wrong length sets FRAMING, and a very short one resets HSP_CFG. -/
  | selectRelease (cs : Select) (clocks : Nat)
  /-- SELECT_TIMEOUT (R326). A select held 1 ms without a clock edge ends its transaction. -/
  | selectTimeout (clocks : Nat)
  /-- ASSIGN (R332). An ASSIGN write at 0x58 gives the NM48 its management address at the STOP. -/
  | assign (adrIn : Bool) (b : Byte)
  /-- IDENTIFY (R332). An IDENTIFY read at 0x58 returns the incarnation number and SYS_UID. -/
  | identify (adrIn : Bool)
  /-- POINTER (R333). A POINTER command sets the management port's pointer. -/
  | pointer (bytes : List Byte)
  /-- MGB_WRITE (R333). A management WRITE command writes words at the pointer. -/
  | mgbWrite (cmd : Byte) (bytes : List Byte)
  /-- ATTN_ACK (R339). An ATTN_ACK with the pending SEQ acknowledges the attention message. -/
  | attnAck (seq : Byte)
  /-- MGB_READ (R334). A management read returns STATUS and words from the pointer. -/
  | mgbRead (late : List Bool)
  /-- MANAGEMENT_ADDRESS_MATCH (R336). The always-on matcher matches an address in sleep and signals the wake source. -/
  | managementAddressMatch (a : BitVec 7) (adrIn : Bool)
  /-- MATCHER_RELEASE (R336). After 25 ms without bit 3 ready, the matcher releases SCL and NACKs. -/
  | matcherRelease
  /-- SCL_HANG (R337). SCL held low by another device for over 25 ms makes the target abandon the transaction. -/
  | sclHang
  /-- MGB_ATTNREQ (R339). A write of MGB_ATTNREQ adds causes and may make a new attention pending. -/
  | mgbAttnreq (r : Req) (cause : BitVec 7)
  /-- ATTENTION_ATTEMPT (R340). The controller sends a pending attention message once the bus is free, at each retry time. -/
  | attentionAttempt (o : AttemptOutcome)
  /-- BUS_CLEAR (R340). SDA held low for 25 ms makes the controller clock the bus clear. -/
  | busClear
  /-- RX_FRAME (R344). An Ethernet frame is received into the descriptor at RXIDX. -/
  | rxFrame (m : Fin 2) (f : EthFrame) (dt : Nat)
  /-- ETH_TXPOLL (R345). A write of ETH_TXPOLL makes the MAC check the transmit descriptor. -/
  | ethTxpoll (r : Req) (m : Fin 2)
  /-- TX_FRAME_END (R345). A transmitted frame ends; the descriptor completes and the next is checked. -/
  | txFrameEnd (m : Fin 2) (dt : Nat)
  /-- ETH_ENABLE (R346). A write of RXEN or TXEN from 0 to 1 clears the halt and restarts the index. -/
  | ethEnable (r : Req) (m : Fin 2) (rx : Bool) (tx : Bool)
  /-- MDIO_GO (R342). A write of ETH_MDIO.GO starts a Clause 22 frame. -/
  | mdioGo (r : Req) (m : Fin 2) (v : Word)
  /-- MDIO_FRAME_END (R342). The MDIO frame ends and GO clears. -/
  | mdioFrameEnd (m : Fin 2) (data : BitVec 16)
  /-- ETH_PTP_SETS_HI (R348). A write of ETH_PTP_SETS_HI loads the PTP clock. -/
  | ethPtpSetsHi (r : Req) (v : BitVec 16)
  /-- ETH_PTP_ADJ (R348). A write of ETH_PTP_ADJ adds an offset to the PTP clock once. -/
  | ethPtpAdj (r : Req) (v : Word)
  /-- FRAME_INSTANT (R354). All eight feeder channels sample at once and a frame is formed. -/
  | frameInstant (xs : List Int) (off : BitVec 17)
  /-- FRAME_WRITE (R359). A feeder frame is written to the ring and WIDX advances. -/
  | frameWrite
  /-- FDR_ENABLE (R362). A write of FDR_CTL.EN from 0 to 1 starts sampling and restarts the ring and sequence. -/
  | fdrEnable (r : Req)
  /-- FDR_ALIGN_CHANGE (R363). A change of ALIGN moves the frame clock to the next slot boundary. -/
  | fdrAlignChange (r : Req) (align : Bool)
  /-- CTR_OUT (R366). A write of CTR_OUT changes the commanded contactor states. -/
  | ctrOut (r : Req) (v : Byte)
  /-- CTR_SET (R366). A write of CTR_SET commands channels on. -/
  | ctrSet (r : Req) (v : Byte)
  /-- CTR_CLR (R366). A write of CTR_CLR commands channels off. -/
  | ctrClr (r : Req) (v : Byte)
  /-- DWELL_END (R367). The dwell time passes and a held command is driven. -/
  | dwellEnd (k : Fin 8)
  /-- FEEDBACK_CHANGE (R368). A debounced CFB level changes FB. -/
  | feedbackChange (k : Fin 8) (fb : Feedback)
  /-- MATCH_WINDOW_END (R369). A contactor match window ends and the feedback is checked. -/
  | matchWindowEnd (k : Fin 8)
  /-- CTR_FCLR (R371). A write of CTR_FCLR clears fault codes and starts new windows. -/
  | ctrFclr (r : Req) (v : Byte)
  /-- GPIO_SET (R372). A write of GPIO_SET sets GPIO_OUT bits. -/
  | gpioSet (r : Req) (v : BitVec 24)
  /-- GPIO_CLR (R372). A write of GPIO_CLR clears GPIO_OUT bits. -/
  | gpioClr (r : Req) (v : BitVec 24)
  /-- GPIO_TGL (R372). A write of GPIO_TGL inverts GPIO_OUT bits. -/
  | gpioTgl (r : Req) (v : BitVec 24)
  /-- GPIO_EDGE (R373). A selected edge on a pin sets GPIO_EDGE and may fire an event. -/
  | gpioEdge (p : Fin 24) (level : Bool)
  /-- SOURCE_EVENT (R377). An interrupt request rises or pulses at the controller and the source's counter counts. -/
  | sourceEvent (n : SrcIx)
  /-- IRQ_CLAIM (R380). A read of IRQ_CLAIM claims the highest deliverable source of the reader's context. -/
  | irqClaim (r : Req)
  /-- IRQ_COMPLETE (R381). A write of IRQ_COMPLETE clears the active bit of a claimed source. -/
  | irqComplete (r : Req) (n : SrcIx)
  /-- IRQ_SRC_WRITE (R384). A write of IRQ_SRCs sets enable, priority and context; EN = 0 withdraws the source. -/
  | irqSrcWrite (r : Req) (n : SrcIx) (v : Word)
  /-- HOLD_OFF_EXPIRY (R383). A group's hold-off timer ends and its sources become deliverable again. -/
  | holdOffExpiry (g : Fin 16)
  /-- AON_SLICE_EVENT (R385). While the controller is off, a watched source's request sets its always-on slot bit. -/
  | aonSliceEvent (k : Fin 32)
  /-- TMR_START (R387). A write of TMR_CTLk.START starts the timer. -/
  | tmrStart (r : Req) (k : TmrIx)
  /-- TMR_STOP (R387). A write of TMR_CTLk.STOP stops the timer. -/
  | tmrStop (r : Req) (k : TmrIx)
  /-- CAP (R390). A write of TMR_CTLk.CAP captures the count. -/
  | cap (r : Req) (k : CapWrite)
  /-- CLRQ (R390). A write of TMR_CTLk.CLRQ empties the capture queue. -/
  | clrq (r : Req) (k : TmrIx)
  /-- TIMER_TICK (R386). A running timer advances its count by one tick. -/
  | timerTick (k : TmrIx)
  /-- TMR_CMP_HI_WRITE (R389). A write of TMR_CMPk_HI makes the 48-bit match value active. -/
  | tmrCmpHiWrite (r : Req) (k : TmrIx) (v : BitVec 16)
  /-- TMR_CAP_LO_READ (R390). A read of TMR_CAPk_LO removes the oldest capture. -/
  | tmrCapLoRead (r : Req) (k : TmrIx)
  /-- TMR_CFG_WRITE (R388). A write of TMR_CFGk sets the configuration and drives PINIV when PINOUT = 1. -/
  | tmrCfgWrite (r : Req) (k : TmrIx) (v : Word)
  /-- CAPTURE_EVENT (R390). A TIO edge or superframe boundary selected by CAPSRC captures the count. -/
  | captureEvent (k : TmrIx) (level : Bool) (same : List TmrIx)
  /-- SECOND_TICK (R394). The RTC sub-second count wraps and the second of the day advances. -/
  | secondTick (cycles : Nat)
  /-- DSTADD (R398). A write of DSTADD moves the clock one hour forward at the next second tick. -/
  | dstadd (r : Req)
  /-- DSTSUB (R398). A write of DSTSUB moves the clock one hour back at the next second tick. -/
  | dstsub (r : Req)
  /-- RTC_TIME_WRITE (R395). A write of RTC_TIME or RTC_DATE sets the time under HALT or is refused with WRREF. -/
  | rtcTimeWrite (r : Req) (date : Bool) (v : Word)
  /-- OSCILLATOR_FAIL (R400). No crystal cycle arrives within 1 ms and OSCFAIL sets. -/
  | oscillatorFail
  /-- AON_POWER_UP (R406). The always-on domain powers up and resets everything. -/
  | aonPowerUp (vmain : Nat) (vbat : Nat)
  /-- SWITCH_TO_VBAT (R401). The supply selector switches to VBAT. -/
  | switchToVbat (vmain : Nat) (vbat : Nat) (held : Bool)
  /-- SWITCH_TO_VMAIN (R401). The supply selector switches to VMAIN. -/
  | switchToVmain (vmain : Nat) (vbat : Nat) (incarn : BitVec 16)
  /-- RSTIN (R407). An assertion of RSTIN for at least 1 µs resets the device. -/
  | rstin
  /-- PWR_RST (R408). A write of PWR_RST with KEY 0xA5 resets the device. -/
  | pwrRst (r : Req) (key : Byte)
  /-- BLOCK_RESET (R409). A write of PWR_BLKRST resets the selected blocks. -/
  | blockReset (r : Req) (bits : BitVec 24)
  /-- BROWNOUT (R410). A core supply under 90 % for over 2 µs resets the device. -/
  | brownout
  /-- REFCLK_LOCK (R412). REFCLK is detected, the synthesisers lock, and the Cistern and key store clears start. -/
  | refclkLock
  /-- NO_REFCLK (R414). REFCLK is not detected within 1 ms and priming stops with NOREF. -/
  | noRefclk
  /-- CALIBRATION_SET_LOAD (R450). The calibration set is read and accepted, or CAL_ABSENT is reported. -/
  | calibrationSetLoad
  /-- BAND_CALIBRATION_COMPLETE (R211). The transmit synthesiser's band calibration completes and SYS_READY bit 11 sets. -/
  | bandCalibrationComplete (head : Headroom)
  /-- BLOCK_READY (R28). A block's priming completes and its ready bit sets. -/
  | blockReady (b : BlockIx) (cycles : Nat)
  /-- RUN_REQUEST (R418). A PWR_REQ for RUN at a point and policy starts a transition. -/
  | runRequest (r : Req) (op : Fin 4) (pol : Bool)
  /-- DOZE_REQUEST (R419). A PWR_REQ for DOZE stops the engines at instruction boundaries. -/
  | dozeRequest (r : Req) (pol : Bool)
  /-- STANDBY_REQUEST (R420). A PWR_REQ for STANDBY stops slots and waits to enter STANDBY. -/
  | standbyRequest (r : Req) (pol : Bool)
  /-- TRICKLE_REQUEST (R422). A PWR_REQ for TRICKLE switches off the main domains with the chosen retention. -/
  | trickleRequest (r : Req) (pol : Bool)
  /-- OFF_REQUEST (R426). A PWR_REQ for OFF switches off every main domain, all SRAM and the wake receiver. -/
  | offRequest (r : Req) (pol : Bool)
  /-- STANDBY_ENTRY (R420). After the slot boundary, launch and flash operation end, the NM48 enters STANDBY. -/
  | standbyEntry
  /-- ENTRY_ABANDONED (R419). A shared access stalled over 4,096 cycles abandons a DOZE or STANDBY entry. -/
  | entryAbandoned
  /-- TRANSITION_COMPLETE (R429). A power transition ends, any held request starts, and source 5 pulses. -/
  | transitionComplete
  /-- DOZE_END (R421). DOZE ends on a request or an engine event and the engines resume. -/
  | dozeEnd
  /-- WAKE (R433). An enabled wake source ends STANDBY or TRICKLE. -/
  | wake (w : WakeSrc) (incarn : BitVec 16)
  /-- STANDBY_RELOCK (R421). Clocks relock after a STANDBY wake and the device returns to RUN. -/
  | standbyRelock (cycles : Nat)
  /-- PAD_RELEASE (R430). A write of PAD_RELEASE releases every held ball. -/
  | padRelease (r : Req)
  /-- PWR_OP_WRITE (R417). A write of the entry of the point in use acts as a request for that point. -/
  | pwrOpWrite (r : Req) (n : Fin 4) (v : Word)
  /-- THERMAL_WARNING (R434). The junction reaches 115 °C or falls to 110 °C and WARN changes. -/
  | thermalWarning (temp : Int)
  /-- THERMAL_SHUTDOWN (R435). The junction reaches 135 °C and every main domain and all SRAM switch off. -/
  | thermalShutdown
  /-- THERMAL_RESTART (R435). The junction falls below 110 °C and the NM48 primes again. -/
  | thermalRestart (incarn : BitVec 16)
  /-- PROG (R440). FLC_CMD PROG programs units from SRAM into flash. -/
  | prog (r : Req)
  /-- ERASE (R441). FLC_CMD ERASE erases a sector. -/
  | erase (r : Req)
  /-- SETPROT (R447). FLC_CMD SETPROT sets a region's protection bit. -/
  | setprot (r : Req)
  /-- CLRPROT (R447). FLC_CMD CLRPROT clears a region's protection bit while unlocked. -/
  | clrprot (r : Req)
  /-- PWDSET (R449). FLC_CMD PWDSET stores a new password. -/
  | pwdset (r : Req)
  /-- LOCK (R448). FLC_CMD LOCK clears UNLOCKED. -/
  | lock (r : Req)
  /-- LOGCLR (R453). FLC_CMD LOGCLR erases the logbook sectors. -/
  | logclr (r : Req)
  /-- FLASH_OPERATION_END (R443). A flash operation reaches its result, BUSY clears and source 7 pulses. -/
  | flashOperationEnd (pulses : List Nat)
  /-- FLC_PWDIN (R448). A write of FLC_PWDIN enters a password word; the fourth compares or fills the new password. -/
  | flcPwdin (r : Req) (w : BitVec 16)
  /-- FLC_LOGADD (R452). A write of FLC_LOGADD queues a host logbook record. -/
  | flcLogadd (r : Req) (v : Word)
  /-- LOGBOOK_APPEND (R453). The logbook writer appends a queued record, erasing a sector first when needed. -/
  | logbookAppend
  /-- FLASH_READ (R438). A read of the flash read window corrects one bit error or fails on more. -/
  | flashRead (r : Req) (a : Word) (bad : Nat)
  /-- PLAN_DUE (R455). INTERVAL hours pass and the margin planner makes a plan. -/
  | planDue
  /-- PLAN (R455). A write of AGE_CMD.PLAN makes a plan now. -/
  | plan (r : Req)
  /-- APPROVE (R456). A write of AGE_CMD.APPROVE approves the proposal. -/
  | approve (r : Req)
  /-- REJECT (R456). A write of AGE_CMD.REJECT discards the proposal. -/
  | reject (r : Req)
  /-- SOUNDING_MEASUREMENT (R454). Once a second the soundings are measured and DEG updates. -/
  | soundingMeasurement (temp : Byte) (raws : List Int)
  /-- FIRST_PREAMBLE_SYMBOL (R205). At T the power ramp-up ends and the first preamble symbol goes on air; TXP_STAT.PHASE moves from ramp-up to on air. -/
  | firstPreambleSymbol
  /-- BAD_FRAME (R291). A Siphon frame with a bad CRC or an unknown TYPE is received, discarded and counted in SPH_CRCERR. -/
  | badFrame (seqd : Bool)
  /-- SAMPLE_ARRIVAL (R247). In sample mode a lane sample enters the 64-sample FIFO at 400 kS/s, dropping the oldest and setting OVF when the FIFO is full. -/
  | sampleArrival (e : EngIx) (ii : BitVec 16) (qq : BitVec 16)
  /-- RSTIN_RELEASE (R407). RSTIN is released after a reset and priming starts, with the HSP ready time counted from the release. -/
  | rstinRelease (incarn : BitVec 16)
  /-- ALWAYS_ON_POWER_LOSS (R400). VMAIN and VBAT are both lost, the always-on domain loses power, and every state of the device is lost until the next power-up. -/
  | alwaysOnPowerLoss
  /-- REQUEST_WITHDRAWN (R378). A level interrupt request falls at the controller after its crossing, and a pending source is withdrawn with its CNT set to 0. -/
  | requestWithdrawn (n : SrcIx)
deriving DecidableEq, Repr

end Sys2Proof
end

