-- ==== Sys2Proof/Decode.lean ====
section
/-! DEFINITION. The command that a word spells. The block has no instruction words: its table gives no row any bits. -/

namespace Sys2Proof

/-- The command that a table word of `nbits` bits spells: none, since no row of the table has bits (log entry 7). -/
def decodeTableWord (_nbits _w : Nat) : Option Instr := none

end Sys2Proof
end

