-- ==== Sys2Proof/Config.lean ====
section
/-! DEFINITION. The constants of the model that have no body: values the spec leaves open. Nothing in Lean can
evaluate them, so a theorem about the machine holds whatever they are (log entry 9). -/

namespace Sys2Proof

/-- The n-th value the machine takes where the spec leaves a value open. The step reads it at `State.free` and
advances that counter; the place that draws it cuts it to the width the spec gives the value. Log entry 9. -/
opaque Config.freeNat : Nat → Nat

/-- Where the pole of the feeder's high-pass filter of an HPF code lies within the bounds that its corner gives (11 R355). The spec gives no
coefficients. Log entry 40. -/
opaque Config.highPassPole : Nat → Nat

/-- Where the gain of that filter lies between its pole and 1. Log entry 40. -/
opaque Config.highPassGain : Nat → Nat

/-- A tap of the feeder's phase trim (11 R355) for a PTRIM and the age of the sample that it weighs. The spec gives no kernel. Log entry
40. -/
opaque Config.phaseTap : Int → Nat → Int

end Sys2Proof
end

