-- ==== Sys2Proof/Machine/Bits.lean ====
section
/-! DEFINITION. Bit fields, sign extension, byte lists and saturation over natural numbers: the helpers every
register, instruction and frame layout of the manual is read with. -/

namespace Sys2Proof.Machine

/-- Bits `lo + w - 1 : lo` of `v` (00, Numbers and units). -/
def bitsOf (v lo w : Nat) : Nat := (v >>> lo) % 2 ^ w

/-- `v` with bits `lo + w - 1 : lo` replaced by the low `w` bits of `n`. -/
def setBits (v lo w n : Nat) : Nat :=
  v - (bitsOf v lo w) <<< lo + (n % 2 ^ w) <<< lo

/-- Bit `i` of `v`. -/
def bitAt (v i : Nat) : Bool := bitsOf v i 1 == 1

/-- One bit as a number. -/
def bit01 (b : Bool) : Nat := if b then 1 else 0

/-- The two's complement value of the low `w` bits of `v`. -/
def toSigned (w v : Nat) : Int :=
  if bitAt v (w - 1) then (v % 2 ^ w : Nat) - (2 ^ w : Nat) else (v % 2 ^ w : Nat)

/-- The low `w` bits of the two's complement form of `i`. -/
def ofSigned (w : Nat) (i : Int) : Nat := (i % (2 ^ w : Nat)).toNat

/-- `i` limited to `lo .. hi`. -/
def clampInt (lo hi i : Int) : Int := max lo (min hi i)

/-- The number of 1 bits among the low `w` bits of `v`. -/
def popCount : Nat → Nat → Nat
  | 0, _ => 0
  | w + 1, v => v % 2 + popCount w (v / 2)

/-- The lowest index below `n` at which `p` holds. -/
def firstIdx (n : Nat) (p : Nat → Bool) : Option Nat := (List.range n).find? p

/-- The bits of `v`, most significant first, `w` of them. -/
def bitsMsb (w v : Nat) : List Bool := (List.range w).map (fun i => bitAt v (w - 1 - i))

/-- The number whose bits, most significant first, are `bs`. -/
def ofBitsMsb (bs : List Bool) : Nat := bs.foldl (fun a b => 2 * a + bit01 b) 0

/-- How many positions of two bit lists differ. -/
def bitDiff (a b : List Bool) : Nat := ((a.zip b).filter (fun p => p.1 != p.2)).length

/-- The last `n` elements of a list. -/
def lastN {α : Type} (n : Nat) (l : List α) : List α := l.drop (l.length - n)

/-- `n` bytes of `v`, least significant first (00 R2: little-endian). -/
def bytesLe : Nat → Nat → List Byte
  | 0, _ => []
  | n + 1, v => BitVec.ofNat 8 v :: bytesLe n (v / 256)

/-- The number a little-endian byte list spells. -/
def ofBytesLe : List Byte → Nat
  | [] => 0
  | b :: bs => b.toNat + 256 * ofBytesLe bs

/-- The bits of a byte list, each byte most significant bit first (03 R98). -/
def bitsOfBytes (bs : List Byte) : List Bool := bs.flatMap (fun b => bitsMsb 8 b.toNat)

/-- Bytes from bits, most significant bit of each byte first; a last incomplete group is dropped. -/
def bytesOfBits : List Bool → List Byte
  | a :: b :: c :: d :: e :: f :: g :: h :: t =>
    BitVec.ofNat 8 (ofBitsMsb [a, b, c, d, e, f, g, h]) :: bytesOfBits t
  | _ => []

/-- A counter of `w` bits that holds at its highest value. -/
def satCount (w n k : Nat) : Nat := min (n + k) (2 ^ w - 1)

/-- The word made of values placed at their lowest bits: pairs (lowest bit, value). -/
def pack (fs : List (Nat × Nat)) : Nat := fs.foldl (fun v f => v + f.2 <<< f.1) 0

/-- Division rounded up. -/
def ceilDiv (a b : Nat) : Nat := (a + b - 1) / b

end Sys2Proof.Machine
end

