-- ==== Sys2Proof/Machine/Crc.lean ====
section
/-! DEFINITION. The check codes of the manual: CRC-32 (03 R96), CRC-16 of the SPI port (10 R321), CRC-8 of the attention
message (10 R338), CRC-4 of the Deep header (03 R93), and the SUN FCS of 16 bits. -/

namespace Sys2Proof.Machine

/-- One bit of the reflected CRC-32 with generator 0x04C1_1DB7 (R96). -/
def crc32Bit (c : Nat) : Nat := if c % 2 = 1 then (c / 2) ^^^ 0xEDB88320 else c / 2

/-- One byte of the reflected CRC-32. -/
def crc32Byte (c : Nat) (b : Byte) : Nat :=
  crc32Bit (crc32Bit (crc32Bit (crc32Bit (crc32Bit (crc32Bit (crc32Bit (crc32Bit (c ^^^ b.toNat))))))))

/-- CRC-32 over a byte list (R96). -/
def crc32 (bs : List Byte) : Nat := (bs.foldl crc32Byte 0xFFFFFFFF) ^^^ 0xFFFFFFFF

/-- One step of a CRC that takes bits most significant first: width `w`, generator `g` without its top term. -/
def crcMsbBit (w g c : Nat) (b : Bool) : Nat :=
  let top := bitAt c (w - 1) != b
  let c' := (c * 2) % 2 ^ w
  if top then c' ^^^ g else c'

/-- A CRC that takes a bit list most significant bit first. -/
def crcMsb (w g init : Nat) (bs : List Bool) : Nat := bs.foldl (crcMsbBit w g) init

/-- CRC-16 of the host SPI port, over bytes (R321). -/
def crc16Spi (bs : List Byte) : Nat := crcMsb 16 0x1021 0xFFFF (bitsOfBytes bs)

/-- CRC-8 of the attention message (R338). -/
def crc8Attn (bs : List Byte) : Nat := crcMsb 8 0x07 0 (bitsOfBytes bs)

/-- CRC-4 of the Deep header bits 23:4 (R93). -/
def crc4Hdr (h : Nat) : Nat := crcMsb 4 0x3 0 (bitsMsb 20 (h / 16))

/-- One byte of the 16-bit FCS of IEEE 802.15.4, bits least significant first (PRESUMED, log entry 21). -/
def fcs16Byte (c : Nat) (b : Byte) : Nat :=
  (List.range 8).foldl
    (fun c i => if (bitAt c 0) != (bitAt b.toNat i) then (c / 2) ^^^ 0x8408 else c / 2) c

/-- The 16-bit FCS over a byte list (PRESUMED, log entry 21). -/
def fcs16 (bs : List Byte) : Nat := bs.foldl fcs16Byte 0

/-- The 32-bit FCS over a byte list: CRC-32, short data padded with zero bytes to 4 (PRESUMED, log entry 21). -/
def fcs32 (bs : List Byte) : Nat := crc32 (bs ++ List.replicate (4 - bs.length) 0)

end Sys2Proof.Machine
end

