-- ==== Sys2Proof/Machine/AMap.lean ====
section
/-! DEFINITION. A sparse map in one canonical form: a list of (key, value) pairs with keys strictly rising and no
value equal to what an unlisted key reads as (the function `d`). Memory and the register file are such maps, so equal
contents are equal lists. -/

namespace Sys2Proof.Machine

/-- What key `k` reads as. -/
def AMap.look {α : Type} (d : Nat → α) : List (Nat × α) → Nat → α
  | [], k => d k
  | (j, v) :: t, k => if k = j then v else AMap.look d t k

/-- The map with key `k` reading as `v`. -/
def AMap.put {α : Type} [DecidableEq α] (d : Nat → α) : List (Nat × α) → Nat → α → List (Nat × α)
  | [], k, v => if v = d k then [] else [(k, v)]
  | (j, u) :: t, k, v =>
    if k < j then (if v = d k then (j, u) :: t else (k, v) :: (j, u) :: t)
    else if k = j then (if v = d k then t else (k, v) :: t)
    else (j, u) :: AMap.put d t k v

/-- The map with every key for which `p` holds back at what unlisted keys read as. -/
def AMap.clear {α : Type} (p : Nat → Bool) (m : List (Nat × α)) : List (Nat × α) :=
  m.filter (fun e => !p e.1)

/-- Every key is above `lo`, keys rise strictly, and no value is the unlisted one. -/
def AMap.wfFrom {α : Type} [DecidableEq α] (d : Nat → α) : Nat → List (Nat × α) → Bool
  | _, [] => true
  | lo, (j, v) :: t => decide (lo ≤ j) && decide (v ≠ d j) && AMap.wfFrom d (j + 1) t

/-- The canonical form. -/
def AMap.wf {α : Type} [DecidableEq α] (d : Nat → α) (m : List (Nat × α)) : Bool := AMap.wfFrom d 0 m

end Sys2Proof.Machine
end

