-- ==== Sys2Proof/Machine/Regs.lean ====
section
/-! DEFINITION. The register map (00 R2, R7, R12 and the register tables of every chapter): the address of each
register under the manual's own name (namespace `Reg`), each field as a `Fld` (namespace `F`), one `RegRow` per
register with the bits of each access kind, and the reset value of every register word.
A register whose reset the manual leaves undefined (U) or does not state resets to 0: DESIGN CHOICE, log entry 1. -/

namespace Sys2Proof.Machine

/-- One field of one register word: the register's key, its lowest bit, its width in bits. -/
structure Fld where
  key : Nat
  lo : Nat
  width : Nat
deriving DecidableEq, Repr

/-- Which copies of a register exist: one; one per world (R35); one per host select (R320); one per requester (R153, R279). -/
inductive Bank where
  | single
  | world
  | select
  | requester
deriving DecidableEq, Repr

/-- One register of the manual's tables. Masks say which bits have which access code (R7); `wr` sets
(RW), `wrl` sets until the block lock (RWL), `w1c`, `w1s`, `rc` (clears on read), `wo` (reads 0), `st` staged,
`cal` loaded from the calibration set; a bit in none of them is read-only. -/
structure RegRow where
  base : Nat
  stride1 : Nat
  count1 : Nat
  stride2 : Nat
  count2 : Nat
  bank : Bank
  wr : Nat
  wrl : Nat
  w1c : Nat
  w1s : Nat
  rc : Nat
  wo : Nat
  st : Nat
  cal : Nat
  reset : Nat
deriving DecidableEq, Repr

/-- Bank `b` of the register at `a`: the key under which that copy is held. -/
def bankKey (b a : Nat) : Nat := b * 0x100000000 + a

/-! ## Addresses -/

/-- SYS_ID, 01 R18. -/
def Reg.SYS_ID : Nat := 0x20000000
/-- SYS_REV, 01 R18. -/
def Reg.SYS_REV : Nat := 0x20000004
/-- SYS_UID_LO, 01 R18. -/
def Reg.SYS_UID_LO : Nat := 0x20000008
/-- SYS_UID_HI, 01 R18. -/
def Reg.SYS_UID_HI : Nat := 0x2000000C
/-- SYS_READY, 01 R28. -/
def Reg.SYS_READY : Nat := 0x20000010
/-- SYS_READY_ENG_LO, 01 R28. -/
def Reg.SYS_READY_ENG_LO : Nat := 0x20000014
/-- SYS_READY_ENG_HI, 01 R28. -/
def Reg.SYS_READY_ENG_HI : Nat := 0x20000018
/-- SYS_BLKLOCK, 01 R11. -/
def Reg.SYS_BLKLOCK : Nat := 0x20000020
/-- SYS_AON_BUSY, 01 R31. -/
def Reg.SYS_AON_BUSY : Nat := 0x20000024
/-- SYS_STAGE_CTL, 01 R35. -/
def Reg.SYS_STAGE_CTL (b : Nat) : Nat := bankKey b (0x20000030)
/-- SYS_STAGE_STAT, 01 R35. -/
def Reg.SYS_STAGE_STAT (b : Nat) : Nat := bankKey b (0x20000034)
/-- SYS_EPOCH, 01 R36. -/
def Reg.SYS_EPOCH : Nat := 0x20000038
/-- SYS_WLD_CTL, 01 R25. -/
def Reg.SYS_WLD_CTL : Nat := 0x20000040
/-- SYS_WLD_BLK, 01 R21. -/
def Reg.SYS_WLD_BLK : Nat := 0x20000044
/-- SYS_WLD_ENG_LO, 01 R21. -/
def Reg.SYS_WLD_ENG_LO : Nat := 0x20000048
/-- SYS_WLD_ENG_HI, 01 R21. -/
def Reg.SYS_WLD_ENG_HI : Nat := 0x2000004C
/-- SYS_WVIOL_ADDR, 01 R23. -/
def Reg.SYS_WVIOL_ADDR : Nat := 0x20000050
/-- SYS_WVIOL_INFO, 01 R23. -/
def Reg.SYS_WVIOL_INFO : Nat := 0x20000054
/-- SYS_RGN_BASE, 01 R24. -/
def Reg.SYS_RGN_BASE (n : Nat) : Nat := 0x20000100 + 0x10 * n
/-- SYS_RGN_LIM, 01 R24. -/
def Reg.SYS_RGN_LIM (n : Nat) : Nat := 0x20000104 + 0x10 * n
/-- SYS_RGN_ATTR, 01 R24. -/
def Reg.SYS_RGN_ATTR (n : Nat) : Nat := 0x20000108 + 0x10 * n
/-- PWR_REQ, 13 R416. -/
def Reg.PWR_REQ : Nat := 0x20010000
/-- PWR_STAT, 13 R427. -/
def Reg.PWR_STAT : Nat := 0x20010004
/-- PWR_CFG, 13 R421. -/
def Reg.PWR_CFG : Nat := 0x20010008
/-- PWR_OP, 13 R417. -/
def Reg.PWR_OP (n : Nat) : Nat := 0x20010010 + 4 * n
/-- PWR_BIAS, 13 R418. -/
def Reg.PWR_BIAS (n : Nat) : Nat := 0x20010020 + 4 * n
/-- PWR_BLKRST, 13 R409. -/
def Reg.PWR_BLKRST : Nat := 0x20010040
/-- PWR_RST, 13 R408. -/
def Reg.PWR_RST : Nat := 0x20010044
/-- PWR_PAD, 13 R430. -/
def Reg.PWR_PAD : Nat := 0x20010048
/-- PWR_THERM, 13 R434. -/
def Reg.PWR_THERM : Nat := 0x2001004C
/-- PWR_SUPPLY, 13 R401. -/
def Reg.PWR_SUPPLY : Nat := 0x20010100
/-- PWR_RET, 13 R422. -/
def Reg.PWR_RET : Nat := 0x20010104
/-- PWR_WAKEEN, 13 R433. -/
def Reg.PWR_WAKEEN : Nat := 0x20010108
/-- PWR_WAKECAUSE, 13 R433. -/
def Reg.PWR_WAKECAUSE : Nat := 0x2001010C
/-- PWR_RSTCAUSE, 13 R406. -/
def Reg.PWR_RSTCAUSE : Nat := 0x20010110
/-- CLK_STAT, 13 R414. -/
def Reg.CLK_STAT : Nat := 0x20010800
/-- HSP_CFG, 10 R320. -/
def Reg.HSP_CFG (b : Nat) : Nat := bankKey b (0x20020000)
/-- HSP_STATUS, 10 R320. -/
def Reg.HSP_STATUS (b : Nat) : Nat := bankKey b (0x20020004)
/-- HSP_ERRADDR, 10 R324. -/
def Reg.HSP_ERRADDR (b : Nat) : Nat := bankKey b (0x20020008)
/-- MGB_CFG, 10 R336. -/
def Reg.MGB_CFG : Nat := 0x20030000
/-- MGB_ADDR, 10 R330. -/
def Reg.MGB_ADDR : Nat := 0x20030004
/-- MGB_INCARN, 10 R341. -/
def Reg.MGB_INCARN : Nat := 0x20030008
/-- MGB_ATTN, 10 R339. -/
def Reg.MGB_ATTN : Nat := 0x20030010
/-- MGB_ATTNREQ, 10 R339. -/
def Reg.MGB_ATTNREQ : Nat := 0x20030014
/-- MGB_ATTNSTAT, 10 R339. -/
def Reg.MGB_ATTNSTAT : Nat := 0x20030018
/-- MGB_HANG, 10 R337. -/
def Reg.MGB_HANG : Nat := 0x20030020
/-- MGB_ARBLOST, 10 R340. -/
def Reg.MGB_ARBLOST : Nat := 0x20030024
/-- ETH_CTL, 10 R342. -/
def Reg.ETH_CTL (n : Nat) : Nat := 0x20040000 + 0x10000 * n
/-- ETH_STAT, 10 R346. -/
def Reg.ETH_STAT (n : Nat) : Nat := 0x20040004 + 0x10000 * n
/-- ETH_MAC_LO, 10 R347. -/
def Reg.ETH_MAC_LO (n : Nat) : Nat := 0x20040008 + 0x10000 * n
/-- ETH_MAC_HI, 10 R347. -/
def Reg.ETH_MAC_HI (n : Nat) : Nat := 0x2004000C + 0x10000 * n
/-- ETH_TXBASE, 10 R343. -/
def Reg.ETH_TXBASE (n : Nat) : Nat := 0x20040010 + 0x10000 * n
/-- ETH_TXCNT, 10 R343. -/
def Reg.ETH_TXCNT (n : Nat) : Nat := 0x20040014 + 0x10000 * n
/-- ETH_TXPOLL, 10 R345. -/
def Reg.ETH_TXPOLL (n : Nat) : Nat := 0x20040018 + 0x10000 * n
/-- ETH_TXIDX, 10 R345. -/
def Reg.ETH_TXIDX (n : Nat) : Nat := 0x2004001C + 0x10000 * n
/-- ETH_RXBASE, 10 R343. -/
def Reg.ETH_RXBASE (n : Nat) : Nat := 0x20040020 + 0x10000 * n
/-- ETH_RXCNT, 10 R343. -/
def Reg.ETH_RXCNT (n : Nat) : Nat := 0x20040024 + 0x10000 * n
/-- ETH_RXIDX, 10 R344. -/
def Reg.ETH_RXIDX (n : Nat) : Nat := 0x2004002C + 0x10000 * n
/-- ETH_EVT, 10 R344. -/
def Reg.ETH_EVT (n : Nat) : Nat := 0x20040030 + 0x10000 * n
/-- ETH_RXFRAMES, 10 R344. -/
def Reg.ETH_RXFRAMES (n : Nat) : Nat := 0x20040040 + 0x10000 * n
/-- ETH_TXFRAMES, 10 R345. -/
def Reg.ETH_TXFRAMES (n : Nat) : Nat := 0x20040044 + 0x10000 * n
/-- ETH_RXERR, 10 R344. -/
def Reg.ETH_RXERR (n : Nat) : Nat := 0x20040048 + 0x10000 * n
/-- ETH_RXDROP, 10 R344. -/
def Reg.ETH_RXDROP (n : Nat) : Nat := 0x2004004C + 0x10000 * n
/-- ETH_MDIO, 10 R342. -/
def Reg.ETH_MDIO (n : Nat) : Nat := 0x20040050 + 0x10000 * n
/-- ETH_PTP_NS, 10 R348. -/
def Reg.ETH_PTP_NS : Nat := 0x20040100
/-- ETH_PTP_SLO, 10 R348. -/
def Reg.ETH_PTP_SLO : Nat := 0x20040104
/-- ETH_PTP_SHI, 10 R348. -/
def Reg.ETH_PTP_SHI : Nat := 0x20040108
/-- ETH_PTP_INC, 10 R348. -/
def Reg.ETH_PTP_INC : Nat := 0x2004010C
/-- ETH_PTP_SETNS, 10 R348. -/
def Reg.ETH_PTP_SETNS : Nat := 0x20040110
/-- ETH_PTP_SETS_LO, 10 R348. -/
def Reg.ETH_PTP_SETS_LO : Nat := 0x20040114
/-- ETH_PTP_SETS_HI, 10 R348. -/
def Reg.ETH_PTP_SETS_HI : Nat := 0x20040118
/-- ETH_PTP_ADJ, 10 R348. -/
def Reg.ETH_PTP_ADJ : Nat := 0x2004011C
/-- ETH_PTP_SF_NS, 10 R350. -/
def Reg.ETH_PTP_SF_NS : Nat := 0x20040120
/-- ETH_PTP_SF_SLO, 10 R350. -/
def Reg.ETH_PTP_SF_SLO : Nat := 0x20040124
/-- ETH_PTP_SF_SHI, 10 R350. -/
def Reg.ETH_PTP_SF_SHI : Nat := 0x20040128
/-- ETH_PTP_SF_SFN, 10 R350. -/
def Reg.ETH_PTP_SF_SFN : Nat := 0x2004012C
/-- ENG_CTL, 08 R261. -/
def Reg.ENG_CTL (n : Nat) : Nat := 0x20060000 + 0x400 * n
/-- ENG_CFG, 08 R258. -/
def Reg.ENG_CFG (n : Nat) : Nat := 0x20060004 + 0x400 * n
/-- ENG_STAT, 08 R261. -/
def Reg.ENG_STAT (n : Nat) : Nat := 0x20060008 + 0x400 * n
/-- ENG_PC, 08 R264. -/
def Reg.ENG_PC (n : Nat) : Nat := 0x2006000C + 0x400 * n
/-- ENG_NX, 08 R264. -/
def Reg.ENG_NX (n : Nat) : Nat := 0x20060010 + 0x400 * n
/-- ENG_WDT, 08 R271. -/
def Reg.ENG_WDT (n : Nat) : Nat := 0x20060014 + 0x400 * n
/-- ENG_TB, 08 R257. -/
def Reg.ENG_TB (n k : Nat) : Nat := 0x20060020 + 0x400 * n + 4 * k
/-- ENG_REVOKE, 08 R270. -/
def Reg.ENG_REVOKE (n : Nat) : Nat := 0x20060040 + 0x400 * n
/-- EVC_CH, 08 R272. -/
def Reg.EVC_CH (n : Nat) : Nat := 0x20070000 + 4 * n
/-- EVC_DROP, 08 R273. -/
def Reg.EVC_DROP (n : Nat) : Nat := 0x20070400 + 4 * n
/-- EVC_FIRE, 08 R272. -/
def Reg.EVC_FIRE : Nat := 0x20070800
/-- EVC_STRAY, 08 R272. -/
def Reg.EVC_STRAY : Nat := 0x20070804
/-- EVC_HPEND, 08 R277. -/
def Reg.EVC_HPEND (n : Nat) : Nat := 0x20070810 + 4 * n
/-- LCK_ACQ, 08 R279. -/
def Reg.LCK_ACQ : Nat := 0x20078000
/-- LCK_RES, 08 R279. -/
def Reg.LCK_RES (b : Nat) : Nat := bankKey b (0x20078004)
/-- LCK_REL, 08 R280. -/
def Reg.LCK_REL : Nat := 0x20078008
/-- LCK_CLR, 08 R281. -/
def Reg.LCK_CLR : Nat := 0x2007800C
/-- LCK_S, 08 R281. -/
def Reg.LCK_S (n : Nat) : Nat := 0x20078100 + 4 * n
/-- RXC_CTL, 02 R82. -/
def Reg.RXC_CTL : Nat := 0x20080000
/-- RXC_CMD, 02 R79. -/
def Reg.RXC_CMD : Nat := 0x20080004
/-- RXC_ACTIVE, 02 R82. -/
def Reg.RXC_ACTIVE : Nat := 0x20080008
/-- RXC_FREQ, 02 R42. -/
def Reg.RXC_FREQ (n : Nat) : Nat := 0x20080010 + 4 * n
/-- RXC_AFREQ, 02 R41. -/
def Reg.RXC_AFREQ (n : Nat) : Nat := 0x20080018 + 4 * n
/-- RXC_GAIN, 02 R50. -/
def Reg.RXC_GAIN (n : Nat) : Nat := 0x20080020 + 4 * n
/-- RXC_STAT, 02 R48. -/
def Reg.RXC_STAT (n : Nat) : Nat := 0x20080030 + 4 * n
/-- RXC_CLIP, 02 R53. -/
def Reg.RXC_CLIP (n : Nat) : Nat := 0x20080040 + 4 * n
/-- RXC_ERR, 02 R42. -/
def Reg.RXC_ERR : Nat := 0x20080050
/-- RXC_DC, 02 R47. -/
def Reg.RXC_DC (n : Nat) : Nat := 0x20080060 + 4 * n
/-- RXC_TRIM, 02 R47. -/
def Reg.RXC_TRIM (n : Nat) : Nat := 0x20080070 + 4 * n
/-- LAN_CFG, 02 R71. -/
def Reg.LAN_CFG (n : Nat) : Nat := 0x20090000 + 0x200 * n
/-- LAN_SRCH, 02 R58. -/
def Reg.LAN_SRCH (n k : Nat) : Nat := 0x20090010 + 0x200 * n + 4 * k
/-- LAN_SYNC, 02 R59. -/
def Reg.LAN_SYNC (n k : Nat) : Nat := 0x20090020 + 0x200 * n + 4 * k
/-- LAN_STAT, 02 R67. -/
def Reg.LAN_STAT (n : Nat) : Nat := 0x20090040 + 0x200 * n
/-- LAN_RSSI, 02 R76. -/
def Reg.LAN_RSSI (n : Nat) : Nat := 0x20090044 + 0x200 * n
/-- LAN_AFC, 02 R56. -/
def Reg.LAN_AFC (n : Nat) : Nat := 0x20090048 + 0x200 * n
/-- LAN_FD0, 02 R74. -/
def Reg.LAN_FD0 (n : Nat) : Nat := 0x20090060 + 0x200 * n
/-- LAN_FD1, 02 R74. -/
def Reg.LAN_FD1 (n : Nat) : Nat := 0x20090064 + 0x200 * n
/-- LAN_TS_LO, 02 R75. -/
def Reg.LAN_TS_LO (n : Nat) : Nat := 0x20090070 + 0x200 * n
/-- LAN_TS_HI, 02 R75. -/
def Reg.LAN_TS_HI (n : Nat) : Nat := 0x20090074 + 0x200 * n
/-- LAN_CTL, 02 R69. -/
def Reg.LAN_CTL (n : Nat) : Nat := 0x20090080 + 0x200 * n
/-- LAN_HDRERR, 02 R65. -/
def Reg.LAN_HDRERR (n : Nat) : Nat := 0x200900A0 + 0x200 * n
/-- LAN_FRAMES, 02 R74. -/
def Reg.LAN_FRAMES (n : Nat) : Nat := 0x200900A4 + 0x200 * n
/-- LAN_FCSERR, 02 R88. -/
def Reg.LAN_FCSERR (n : Nat) : Nat := 0x200900A8 + 0x200 * n
/-- LAN_DECERR, 02 R108. -/
def Reg.LAN_DECERR (n : Nat) : Nat := 0x200900AC + 0x200 * n
/-- LAN_MISSED, 02 R68. -/
def Reg.LAN_MISSED (n : Nat) : Nat := 0x200900B0 + 0x200 * n
/-- LAN_PREEMPT, 02 R62. -/
def Reg.LAN_PREEMPT (n : Nat) : Nat := 0x200900B4 + 0x200 * n
/-- LAN_DIVDROP, 02 R45. -/
def Reg.LAN_DIVDROP (n : Nat) : Nat := 0x200900B8 + 0x200 * n
/-- LAN_ABORT, 02 R67. -/
def Reg.LAN_ABORT (n : Nat) : Nat := 0x200900BC + 0x200 * n
/-- LAN_RDY, 02 R74. -/
def Reg.LAN_RDY (n : Nat) : Nat := 0x2009C000 + 4 * n
/-- LDP_CFG, 03 R105. -/
def Reg.LDP_CFG : Nat := 0x200A0000
/-- LDP_SUNCFG, 03 R85. -/
def Reg.LDP_SUNCFG : Nat := 0x200A0004
/-- LDP_STAT, 03 R104. -/
def Reg.LDP_STAT : Nat := 0x200A0010
/-- LDP_CWOK, 03 R108. -/
def Reg.LDP_CWOK : Nat := 0x200A0020
/-- LDP_CWFAIL, 03 R108. -/
def Reg.LDP_CWFAIL : Nat := 0x200A0024
/-- LDP_LCTL, 03 R111. -/
def Reg.LDP_LCTL : Nat := 0x200A0040
/-- LDP_LSTAT, 03 R112. -/
def Reg.LDP_LSTAT : Nat := 0x200A0044
/-- LDP_CEIL, 03 R111. -/
def Reg.LDP_CEIL (n : Nat) : Nat := 0x200A0080 + 4 * n
/-- LDP_CHP, 03 R110. -/
def Reg.LDP_CHP (n : Nat) : Nat := 0x200A0400 + 4 * n
/-- LDP_HDR, 03 R113. -/
def Reg.LDP_HDR (n : Nat) : Nat := 0x200A0800 + 4 * n
/-- LDP_LST, 03 R113. -/
def Reg.LDP_LST (n : Nat) : Nat := 0x200A0A00 + 4 * n
/-- TXP_RAMP, 06 R205. -/
def Reg.TXP_RAMP : Nat := 0x200B0004
/-- TXP_PWRLIM, 06 R203. -/
def Reg.TXP_PWRLIM (n : Nat) : Nat := 0x200B0008 + 4 * n
/-- TXP_BACKOFF, 06 R203. -/
def Reg.TXP_BACKOFF : Nat := 0x200B0010
/-- TXP_FEMIDLE, 06 R206. -/
def Reg.TXP_FEMIDLE : Nat := 0x200B0020
/-- TXP_FEMTX, 06 R206. -/
def Reg.TXP_FEMTX (n : Nat) : Nat := 0x200B0024 + 4 * n
/-- TXP_SYNC, 06 R199. -/
def Reg.TXP_SYNC (n : Nat) : Nat := 0x200B0040 + 4 * n
/-- TXP_STAT, 06 R205. -/
def Reg.TXP_STAT : Nat := 0x200B0050
/-- TXP_BADDESC, 06 R197. -/
def Reg.TXP_BADDESC : Nat := 0x200B0054
/-- TXP_DET, 06 R204. -/
def Reg.TXP_DET : Nat := 0x200B0058
/-- TXP_LAUNCHES, 06 R205. -/
def Reg.TXP_LAUNCHES : Nat := 0x200B005C
/-- TXP_PTAB, 06 R203. -/
def Reg.TXP_PTAB (n k : Nat) : Nat := 0x200B1000 + 0x100 * n + 4 * k
/-- SYN_CTL, 06 R208. -/
def Reg.SYN_CTL : Nat := 0x200B8000
/-- SYN_CMD, 06 R209. -/
def Reg.SYN_CMD : Nat := 0x200B8004
/-- SYN_STAT, 06 R207. -/
def Reg.SYN_STAT : Nat := 0x200B8008
/-- SYN_ERR, 06 R210. -/
def Reg.SYN_ERR : Nat := 0x200B800C
/-- SYN_ERRKHZ, 06 R210. -/
def Reg.SYN_ERRKHZ : Nat := 0x200B8010
/-- SYN_VCOLIM, 06 R197. -/
def Reg.SYN_VCOLIM : Nat := 0x200B8014
/-- SYN_HITS, 06 R207. -/
def Reg.SYN_HITS : Nat := 0x200B8020
/-- SYN_MISSES, 06 R207. -/
def Reg.SYN_MISSES : Nat := 0x200B8024
/-- SYN_ENT, 06 R207. -/
def Reg.SYN_ENT (n : Nat) : Nat := 0x200B9000 + 4 * n
/-- SFM_CTL, 04 R115. -/
def Reg.SFM_CTL : Nat := 0x200C0000
/-- SFM_STAT, 04 R115. -/
def Reg.SFM_STAT : Nat := 0x200C0004
/-- SFM_ASN_LO, 04 R114. -/
def Reg.SFM_ASN_LO : Nat := 0x200C0008
/-- SFM_ASN_HI, 04 R114. -/
def Reg.SFM_ASN_HI : Nat := 0x200C000C
/-- SFM_ASNSET_LO, 04 R115. -/
def Reg.SFM_ASNSET_LO : Nat := 0x200C0010
/-- SFM_ASNSET_HI, 04 R115. -/
def Reg.SFM_ASNSET_HI : Nat := 0x200C0014
/-- SFM_ADJ, 04 R116. -/
def Reg.SFM_ADJ : Nat := 0x200C0018
/-- SFM_TIMING, 04 R117. -/
def Reg.SFM_TIMING : Nat := 0x200C0020
/-- SFM_CHBASE, 04 R119. -/
def Reg.SFM_CHBASE : Nat := 0x200C0024
/-- SFM_HOPCFG, 04 R119. -/
def Reg.SFM_HOPCFG : Nat := 0x200C0028
/-- SFM_BCN, 04 R121. -/
def Reg.SFM_BCN : Nat := 0x200C0030
/-- SFM_BCNSKIP, 04 R125. -/
def Reg.SFM_BCNSKIP : Nat := 0x200C0034
/-- SFM_SUBMIT, 04 R126. -/
def Reg.SFM_SUBMIT : Nat := 0x200C0040
/-- SFM_RESULT, 04 R127. -/
def Reg.SFM_RESULT : Nat := 0x200C0044
/-- SFM_RESCFG, 04 R127. -/
def Reg.SFM_RESCFG : Nat := 0x200C0048
/-- SFM_CANCEL, 04 R127. -/
def Reg.SFM_CANCEL : Nat := 0x200C004C
/-- SFM_LOST, 04 R133. -/
def Reg.SFM_LOST : Nat := 0x200C0050
/-- SFM_HEARD, 04 R134. -/
def Reg.SFM_HEARD : Nat := 0x200C0060
/-- SFM_MISS, 04 R134. -/
def Reg.SFM_MISS : Nat := 0x200C0064
/-- SFM_HOP, 04 R119. -/
def Reg.SFM_HOP (n : Nat) : Nat := 0x200C0100 + 4 * n
/-- SFM_QRATE, 04 R144. -/
def Reg.SFM_QRATE (n : Nat) : Nat := 0x200C4000 + 4 * n
/-- SFM_QCR, 04 R144. -/
def Reg.SFM_QCR (n : Nat) : Nat := 0x200C5000 + 4 * n
/-- BKT_LO, 04 R136. -/
def Reg.BKT_LO (n : Nat) : Nat := 0x200C8000 + 0x20 * n
/-- BKT_HI, 04 R136. -/
def Reg.BKT_HI (n : Nat) : Nat := 0x200C8004 + 0x20 * n
/-- BKT_LIM, 04 R139. -/
def Reg.BKT_LIM (n : Nat) : Nat := 0x200C8008 + 0x20 * n
/-- BKT_USED, 04 R138. -/
def Reg.BKT_USED (n : Nat) : Nat := 0x200C800C + 0x20 * n
/-- BKT_DEF, 04 R139. -/
def Reg.BKT_DEF (n : Nat) : Nat := 0x200C8010 + 0x20 * n
/-- CST_CTL, 05 R160. -/
def Reg.CST_CTL : Nat := 0x200D0000
/-- CST_STAT, 05 R160. -/
def Reg.CST_STAT : Nat := 0x200D0004
/-- CST_NRIDX, 05 R158. -/
def Reg.CST_NRIDX : Nat := 0x200D0008
/-- CST_SUM, 05 R161. -/
def Reg.CST_SUM : Nat := 0x200D0010
/-- CST_UIDX, 05 R153. -/
def Reg.CST_UIDX (b : Nat) : Nat := bankKey b (0x200D0040)
/-- CST_UMASK, 05 R153. -/
def Reg.CST_UMASK (b n : Nat) : Nat := bankKey b (0x200D0050 + 4 * n)
/-- CST_UVAL, 05 R153. -/
def Reg.CST_UVAL (b n : Nat) : Nat := bankKey b (0x200D0060 + 4 * n)
/-- CST_UEXP, 05 R153. -/
def Reg.CST_UEXP (b n : Nat) : Nat := bankKey b (0x200D0070 + 4 * n)
/-- CST_UGO, 05 R154. -/
def Reg.CST_UGO (b : Nat) : Nat := bankKey b (0x200D0080)
/-- CST_USTAT, 05 R155. -/
def Reg.CST_USTAT (b : Nat) : Nat := bankKey b (0x200D0084)
/-- CST_UOLD, 05 R153. -/
def Reg.CST_UOLD (b n : Nat) : Nat := bankKey b (0x200D0090 + 4 * n)
/-- CST_RQ, 05 R159. -/
def Reg.CST_RQ (b : Nat) : Nat := bankKey b (0x200D00A0)
/-- CST_RA, 05 R159. -/
def Reg.CST_RA (b : Nat) : Nat := bankKey b (0x200D00A4)
/-- CIP_CTL, 05 R170. -/
def Reg.CIP_CTL : Nat := 0x200E0000
/-- CIP_STAT, 05 R190. -/
def Reg.CIP_STAT : Nat := 0x200E0004
/-- CIP_SELF_LO, 05 R181. -/
def Reg.CIP_SELF_LO : Nat := 0x200E0008
/-- CIP_SELF_HI, 05 R181. -/
def Reg.CIP_SELF_HI : Nat := 0x200E000C
/-- CIP_REPLAY, 05 R184. -/
def Reg.CIP_REPLAY : Nat := 0x200E0010
/-- CIP_AUTHF, 05 R184. -/
def Reg.CIP_AUTHF : Nat := 0x200E0014
/-- CIP_KSV, 05 R164. -/
def Reg.CIP_KSV (n : Nat) : Nat := 0x200E0100 + 4 * n
/-- CIP_JD, 05 R173. -/
def Reg.CIP_JD (b n : Nat) : Nat := bankKey b (0x200E0200 + 4 * n)
/-- CIP_JSTAT, 05 R173. -/
def Reg.CIP_JSTAT (b : Nat) : Nat := bankKey b (0x200E0220)
/-- CIP_TEN, 05 R166. -/
def Reg.CIP_TEN (n : Nat) : Nat := 0x200E1000 + 4 * n
/-- SPH_CTL, 09 R283. -/
def Reg.SPH_CTL : Nat := 0x200F0000
/-- SPH_CMD, 09 R313. -/
def Reg.SPH_CMD : Nat := 0x200F0004
/-- SPH_STAT, 09 R283. -/
def Reg.SPH_STAT : Nat := 0x200F0008
/-- SPH_ESTR, 09 R305. -/
def Reg.SPH_ESTR : Nat := 0x200F000C
/-- SPH_LIFT, 09 R311. -/
def Reg.SPH_LIFT : Nat := 0x200F0010
/-- SPH_IMGSUM, 09 R307. -/
def Reg.SPH_IMGSUM : Nat := 0x200F0014
/-- SPH_PEERUID_LO, 09 R289. -/
def Reg.SPH_PEERUID_LO : Nat := 0x200F0018
/-- SPH_PEERUID_HI, 09 R289. -/
def Reg.SPH_PEERUID_HI : Nat := 0x200F001C
/-- SPH_OFFSET, 09 R302. -/
def Reg.SPH_OFFSET : Nat := 0x200F0020
/-- SPH_LATENCY, 09 R290. -/
def Reg.SPH_LATENCY : Nat := 0x200F0024
/-- SPH_ALIGN, 09 R303. -/
def Reg.SPH_ALIGN : Nat := 0x200F0028
/-- SPH_IRQ, 09 R315. -/
def Reg.SPH_IRQ : Nat := 0x200F0030
/-- SPH_IRQEN, 09 R315. -/
def Reg.SPH_IRQEN : Nat := 0x200F0034
/-- SPH_CRCERR, 09 R291. -/
def Reg.SPH_CRCERR : Nat := 0x200F0040
/-- SPH_RETRY, 09 R292. -/
def Reg.SPH_RETRY : Nat := 0x200F0044
/-- SPH_MISSBEAT, 09 R293. -/
def Reg.SPH_MISSBEAT : Nat := 0x200F0048
/-- FDR_CTL, 11 R358. -/
def Reg.FDR_CTL : Nat := 0x20100000
/-- FDR_RBASE, 11 R359. -/
def Reg.FDR_RBASE : Nat := 0x20100010
/-- FDR_RSIZE, 11 R359. -/
def Reg.FDR_RSIZE : Nat := 0x20100014
/-- FDR_WIDX, 11 R359. -/
def Reg.FDR_WIDX : Nat := 0x20100018
/-- FDR_RIDX, 11 R360. -/
def Reg.FDR_RIDX : Nat := 0x2010001C
/-- FDR_STAT, 11 R362. -/
def Reg.FDR_STAT : Nat := 0x20100020
/-- FDR_DROP, 11 R360. -/
def Reg.FDR_DROP : Nat := 0x20100024
/-- FDR_TSEQ, 11 R364. -/
def Reg.FDR_TSEQ : Nat := 0x20100028
/-- FDR_TS_LO, 11 R364. -/
def Reg.FDR_TS_LO : Nat := 0x2010002C
/-- FDR_TS_HI, 11 R364. -/
def Reg.FDR_TS_HI : Nat := 0x20100030
/-- FDR_OVR, 11 R354. -/
def Reg.FDR_OVR : Nat := 0x20100034
/-- FDR_CHCFG, 11 R356. -/
def Reg.FDR_CHCFG (n : Nat) : Nat := 0x20100040 + 4 * n
/-- FDR_TRIM, 11 R356. -/
def Reg.FDR_TRIM (n : Nat) : Nat := 0x20100060 + 4 * n
/-- CTR_OE, 11 R365. -/
def Reg.CTR_OE : Nat := 0x20110000
/-- CTR_OUT, 11 R366. -/
def Reg.CTR_OUT : Nat := 0x20110004
/-- CTR_SET, 11 R366. -/
def Reg.CTR_SET : Nat := 0x20110008
/-- CTR_CLR, 11 R366. -/
def Reg.CTR_CLR : Nat := 0x2011000C
/-- CTR_CFG, 11 R370. -/
def Reg.CTR_CFG : Nat := 0x20110010
/-- CTR_FBPOL, 11 R368. -/
def Reg.CTR_FBPOL : Nat := 0x20110014
/-- CTR_STAT, 11 R370. -/
def Reg.CTR_STAT : Nat := 0x20110018
/-- CTR_FAULT, 11 R369. -/
def Reg.CTR_FAULT : Nat := 0x2011001C
/-- CTR_FCLR, 11 R371. -/
def Reg.CTR_FCLR : Nat := 0x20110020
/-- GPIO_DIR, 11 R372. -/
def Reg.GPIO_DIR : Nat := 0x20110100
/-- GPIO_OUT, 11 R372. -/
def Reg.GPIO_OUT : Nat := 0x20110104
/-- GPIO_SET, 11 R372. -/
def Reg.GPIO_SET : Nat := 0x20110108
/-- GPIO_CLR, 11 R372. -/
def Reg.GPIO_CLR : Nat := 0x2011010C
/-- GPIO_TGL, 11 R372. -/
def Reg.GPIO_TGL : Nat := 0x20110110
/-- GPIO_IN, 11 R372. -/
def Reg.GPIO_IN : Nat := 0x20110114
/-- GPIO_PUP, 11 R372. -/
def Reg.GPIO_PUP : Nat := 0x20110118
/-- GPIO_PDN, 11 R372. -/
def Reg.GPIO_PDN : Nat := 0x2011011C
/-- GPIO_RISE, 11 R373. -/
def Reg.GPIO_RISE : Nat := 0x20110120
/-- GPIO_FALL, 11 R373. -/
def Reg.GPIO_FALL : Nat := 0x20110124
/-- GPIO_EDGE, 11 R373. -/
def Reg.GPIO_EDGE : Nat := 0x20110128
/-- GPIO_EVT, 11 R373. -/
def Reg.GPIO_EVT : Nat := 0x2011012C
/-- TMR_CTL, 12 R387. -/
def Reg.TMR_CTL (n : Nat) : Nat := 0x20120000 + 0x40 * n
/-- TMR_CFG, 12 R388. -/
def Reg.TMR_CFG (n : Nat) : Nat := 0x20120004 + 0x40 * n
/-- TMR_CNT_LO, 12 R387. -/
def Reg.TMR_CNT_LO (n : Nat) : Nat := 0x20120008 + 0x40 * n
/-- TMR_CNT_HI, 12 R387. -/
def Reg.TMR_CNT_HI (n : Nat) : Nat := 0x2012000C + 0x40 * n
/-- TMR_CMP_LO, 12 R389. -/
def Reg.TMR_CMP_LO (n : Nat) : Nat := 0x20120010 + 0x40 * n
/-- TMR_CMP_HI, 12 R389. -/
def Reg.TMR_CMP_HI (n : Nat) : Nat := 0x20120014 + 0x40 * n
/-- TMR_CAP_LO, 12 R390. -/
def Reg.TMR_CAP_LO (n : Nat) : Nat := 0x20120018 + 0x40 * n
/-- TMR_CAP_HI, 12 R390. -/
def Reg.TMR_CAP_HI (n : Nat) : Nat := 0x2012001C + 0x40 * n
/-- TMR_STAT, 12 R390. -/
def Reg.TMR_STAT (n : Nat) : Nat := 0x20120020 + 0x40 * n
/-- RTC_CTL, 12 R395. -/
def Reg.RTC_CTL : Nat := 0x20130000
/-- RTC_TIME, 12 R395. -/
def Reg.RTC_TIME : Nat := 0x20130004
/-- RTC_DATE, 12 R395. -/
def Reg.RTC_DATE : Nat := 0x20130008
/-- RTC_TRIM, 12 R394. -/
def Reg.RTC_TRIM : Nat := 0x2013000C
/-- RTC_ALARM, 12 R399. -/
def Reg.RTC_ALARM : Nat := 0x20130010
/-- RTC_STAT, 12 R399. -/
def Reg.RTC_STAT : Nat := 0x20130014
/-- IRQ_SRC, 12 R384. -/
def Reg.IRQ_SRC (n : Nat) : Nat := 0x20140000 + 4 * n
/-- IRQ_CLAIM, 12 R380. -/
def Reg.IRQ_CLAIM (b : Nat) : Nat := bankKey b (0x20140800)
/-- IRQ_COMPLETE, 12 R381. -/
def Reg.IRQ_COMPLETE (b : Nat) : Nat := bankKey b (0x20140804)
/-- IRQ_CTL, 12 R379. -/
def Reg.IRQ_CTL (b : Nat) : Nat := bankKey b (0x20140808)
/-- IRQ_STAT, 12 R379. -/
def Reg.IRQ_STAT (b : Nat) : Nat := bankKey b (0x2014080C)
/-- IRQ_HOLD, 12 R383. -/
def Reg.IRQ_HOLD (n : Nat) : Nat := 0x20140840 + 4 * n
/-- IRQ_AONSEL, 12 R385. -/
def Reg.IRQ_AONSEL (n : Nat) : Nat := 0x20140900 + 4 * n
/-- IRQ_AONPEND, 12 R385. -/
def Reg.IRQ_AONPEND : Nat := 0x20140980
/-- IRQ_PEND, 12 R384. -/
def Reg.IRQ_PEND (n : Nat) : Nat := 0x20140A00 + 4 * n
/-- FLC_CMD, 14 R439. -/
def Reg.FLC_CMD : Nat := 0x20150000
/-- FLC_ADDR, 14 R439. -/
def Reg.FLC_ADDR : Nat := 0x20150004
/-- FLC_SRC, 14 R439. -/
def Reg.FLC_SRC : Nat := 0x20150008
/-- FLC_LEN, 14 R439. -/
def Reg.FLC_LEN : Nat := 0x2015000C
/-- FLC_STAT, 14 R443. -/
def Reg.FLC_STAT : Nat := 0x20150010
/-- FLC_PWDIN, 14 R448. -/
def Reg.FLC_PWDIN : Nat := 0x20150014
/-- FLC_PROT, 14 R447. -/
def Reg.FLC_PROT (n : Nat) : Nat := 0x20150020 + 4 * n
/-- FLC_TIMING, 14 R440. -/
def Reg.FLC_TIMING : Nat := 0x20150030
/-- FLC_ECCCOR, 14 R438. -/
def Reg.FLC_ECCCOR : Nat := 0x20150040
/-- FLC_ECCADDR, 14 R438. -/
def Reg.FLC_ECCADDR : Nat := 0x20150044
/-- FLC_LOGADD, 14 R452. -/
def Reg.FLC_LOGADD : Nat := 0x20150050
/-- FLC_LOGSTAT, 14 R452. -/
def Reg.FLC_LOGSTAT : Nat := 0x20150054
/-- FLC_ABORT, 14 R446. -/
def Reg.FLC_ABORT : Nat := 0x20150100
/-- CAL_STAT, 14 R450. -/
def Reg.CAL_STAT : Nat := 0x20150800
/-- AGE_CFG, 14 R459. -/
def Reg.AGE_CFG : Nat := 0x20160000
/-- AGE_CMD, 14 R459. -/
def Reg.AGE_CMD : Nat := 0x20160004
/-- AGE_STAT, 14 R457. -/
def Reg.AGE_STAT : Nat := 0x20160008
/-- AGE_PROP_OP, 14 R456. -/
def Reg.AGE_PROP_OP (n : Nat) : Nat := 0x20160010 + 4 * n
/-- AGE_PROP_TX, 14 R456. -/
def Reg.AGE_PROP_TX : Nat := 0x20160020
/-- AGE_PROP_VCO, 14 R456. -/
def Reg.AGE_PROP_VCO : Nat := 0x20160024
/-- AGE_PROP_PW, 14 R456. -/
def Reg.AGE_PROP_PW : Nat := 0x20160028
/-- AGE_PADET, 14 R455. -/
def Reg.AGE_PADET : Nat := 0x20160030
/-- AGE_VCO, 14 R455. -/
def Reg.AGE_VCO : Nat := 0x20160034
/-- AGE_FPULSE, 14 R455. -/
def Reg.AGE_FPULSE : Nat := 0x20160038
/-- AGE_SND, 14 R454. -/
def Reg.AGE_SND (n : Nat) : Nat := 0x20160100 + 4 * n
/-- TMP_DIE, 14 R480. -/
def Reg.TMP_DIE : Nat := 0x20160800
/-- WKR_CTL, 02 R80. -/
def Reg.WKR_CTL : Nat := 0x20170000
/-- WKR_CODE, 02 R80. -/
def Reg.WKR_CODE : Nat := 0x20170004
/-- WKR_STAT, 02 R81. -/
def Reg.WKR_STAT : Nat := 0x20170008
/-- WKR_COUNT, 02 R81. -/
def Reg.WKR_COUNT : Nat := 0x2017000C

/-! ## Fields, as each register table gives its bits -/

def F.SYS_ID_FAMILY : Fld := ⟨Reg.SYS_ID, 16, 16⟩
def F.SYS_ID_PART : Fld := ⟨Reg.SYS_ID, 0, 16⟩
def F.SYS_REV_MAJOR : Fld := ⟨Reg.SYS_REV, 8, 8⟩
def F.SYS_REV_MINOR : Fld := ⟨Reg.SYS_REV, 0, 8⟩
def F.SYS_UID_LO_UID : Fld := ⟨Reg.SYS_UID_LO, 0, 32⟩
def F.SYS_UID_HI_UID : Fld := ⟨Reg.SYS_UID_HI, 0, 32⟩
def F.SYS_READY_RXB : Fld := ⟨Reg.SYS_READY, 25, 1⟩
def F.SYS_READY_RXA : Fld := ⟨Reg.SYS_READY, 24, 1⟩
def F.SYS_READY_BLK : Fld := ⟨Reg.SYS_READY, 0, 24⟩
def F.SYS_READY_ENG_LO_LOADED : Fld := ⟨Reg.SYS_READY_ENG_LO, 0, 32⟩
def F.SYS_READY_ENG_HI_LOADED : Fld := ⟨Reg.SYS_READY_ENG_HI, 0, 32⟩
def F.SYS_BLKLOCK_LOCK : Fld := ⟨Reg.SYS_BLKLOCK, 0, 24⟩
def F.SYS_AON_BUSY_WKR : Fld := ⟨Reg.SYS_AON_BUSY, 3, 1⟩
def F.SYS_AON_BUSY_MGB : Fld := ⟨Reg.SYS_AON_BUSY, 2, 1⟩
def F.SYS_AON_BUSY_IRQ : Fld := ⟨Reg.SYS_AON_BUSY, 1, 1⟩
def F.SYS_AON_BUSY_RTC : Fld := ⟨Reg.SYS_AON_BUSY, 0, 1⟩
def F.SYS_STAGE_CTL_ABANDON (b : Nat) : Fld := ⟨Reg.SYS_STAGE_CTL b, 2, 1⟩
def F.SYS_STAGE_CTL_GAP (b : Nat) : Fld := ⟨Reg.SYS_STAGE_CTL b, 1, 1⟩
def F.SYS_STAGE_CTL_ARM (b : Nat) : Fld := ⟨Reg.SYS_STAGE_CTL b, 0, 1⟩
def F.SYS_STAGE_STAT_LATE (b : Nat) : Fld := ⟨Reg.SYS_STAGE_STAT b, 8, 1⟩
def F.SYS_STAGE_STAT_RESULT (b : Nat) : Fld := ⟨Reg.SYS_STAGE_STAT b, 4, 3⟩
def F.SYS_STAGE_STAT_QUIET (b : Nat) : Fld := ⟨Reg.SYS_STAGE_STAT b, 1, 1⟩
def F.SYS_STAGE_STAT_ARMED (b : Nat) : Fld := ⟨Reg.SYS_STAGE_STAT b, 0, 1⟩
def F.SYS_EPOCH_EPOCH : Fld := ⟨Reg.SYS_EPOCH, 0, 32⟩
def F.SYS_WLD_CTL_WLD_LOCK : Fld := ⟨Reg.SYS_WLD_CTL, 0, 1⟩
def F.SYS_WLD_BLK_NS : Fld := ⟨Reg.SYS_WLD_BLK, 0, 24⟩
def F.SYS_WLD_ENG_LO_NS : Fld := ⟨Reg.SYS_WLD_ENG_LO, 0, 32⟩
def F.SYS_WLD_ENG_HI_NS : Fld := ⟨Reg.SYS_WLD_ENG_HI, 0, 32⟩
def F.SYS_WVIOL_ADDR_ADDR : Fld := ⟨Reg.SYS_WVIOL_ADDR, 0, 32⟩
def F.SYS_WVIOL_INFO_VALID : Fld := ⟨Reg.SYS_WVIOL_INFO, 31, 1⟩
def F.SYS_WVIOL_INFO_OVF : Fld := ⟨Reg.SYS_WVIOL_INFO, 30, 1⟩
def F.SYS_WVIOL_INFO_WR : Fld := ⟨Reg.SYS_WVIOL_INFO, 8, 1⟩
def F.SYS_WVIOL_INFO_REQ : Fld := ⟨Reg.SYS_WVIOL_INFO, 0, 8⟩
def F.SYS_RGN_BASE_PAGE (n : Nat) : Fld := ⟨Reg.SYS_RGN_BASE n, 12, 20⟩
def F.SYS_RGN_LIM_PAGE (n : Nat) : Fld := ⟨Reg.SYS_RGN_LIM n, 12, 20⟩
def F.SYS_RGN_ATTR_NS (n : Nat) : Fld := ⟨Reg.SYS_RGN_ATTR n, 1, 1⟩
def F.SYS_RGN_ATTR_EN (n : Nat) : Fld := ⟨Reg.SYS_RGN_ATTR n, 0, 1⟩
def F.PWR_REQ_OP : Fld := ⟨Reg.PWR_REQ, 8, 2⟩
def F.PWR_REQ_POLICY : Fld := ⟨Reg.PWR_REQ, 4, 1⟩
def F.PWR_REQ_STATE : Fld := ⟨Reg.PWR_REQ, 0, 3⟩
def F.PWR_STAT_BADREQ : Fld := ⟨Reg.PWR_STAT, 12, 1⟩
def F.PWR_STAT_BLOCKED : Fld := ⟨Reg.PWR_STAT, 11, 1⟩
def F.PWR_STAT_TRANSITION_MERGED : Fld := ⟨Reg.PWR_STAT, 10, 1⟩
def F.PWR_STAT_HELD : Fld := ⟨Reg.PWR_STAT, 9, 1⟩
def F.PWR_STAT_BUSY : Fld := ⟨Reg.PWR_STAT, 8, 1⟩
def F.PWR_STAT_OP : Fld := ⟨Reg.PWR_STAT, 4, 2⟩
def F.PWR_STAT_POLICY : Fld := ⟨Reg.PWR_STAT, 3, 1⟩
def F.PWR_STAT_STATE : Fld := ⟨Reg.PWR_STAT, 0, 3⟩
def F.PWR_CFG_EVWAKE : Fld := ⟨Reg.PWR_CFG, 0, 1⟩
def F.PWR_OP_MHZ (n : Nat) : Fld := ⟨Reg.PWR_OP n, 16, 9⟩
def F.PWR_OP_MV (n : Nat) : Fld := ⟨Reg.PWR_OP n, 0, 10⟩
def F.PWR_BIAS_FBB (n : Nat) : Fld := ⟨Reg.PWR_BIAS n, 8, 8⟩
def F.PWR_BIAS_ASSIST (n : Nat) : Fld := ⟨Reg.PWR_BIAS n, 0, 1⟩
def F.PWR_BLKRST_BLK : Fld := ⟨Reg.PWR_BLKRST, 0, 24⟩
def F.PWR_RST_KEY : Fld := ⟨Reg.PWR_RST, 0, 8⟩
def F.PWR_PAD_HELD : Fld := ⟨Reg.PWR_PAD, 1, 1⟩
def F.PWR_PAD_PAD_RELEASE : Fld := ⟨Reg.PWR_PAD, 0, 1⟩
def F.PWR_THERM_WARN : Fld := ⟨Reg.PWR_THERM, 0, 1⟩
def F.PWR_SUPPLY_COLDBAND : Fld := ⟨Reg.PWR_SUPPLY, 4, 1⟩
def F.PWR_SUPPLY_SWITCHED : Fld := ⟨Reg.PWR_SUPPLY, 3, 1⟩
def F.PWR_SUPPLY_VBATOK : Fld := ⟨Reg.PWR_SUPPLY, 2, 1⟩
def F.PWR_SUPPLY_VMAINOK : Fld := ⟨Reg.PWR_SUPPLY, 1, 1⟩
def F.PWR_SUPPLY_SRC : Fld := ⟨Reg.PWR_SUPPLY, 0, 1⟩
def F.PWR_RET_SCR : Fld := ⟨Reg.PWR_RET, 3, 1⟩
def F.PWR_RET_ENG : Fld := ⟨Reg.PWR_RET, 2, 1⟩
def F.PWR_RET_PKT : Fld := ⟨Reg.PWR_RET, 1, 1⟩
def F.PWR_RET_CST : Fld := ⟨Reg.PWR_RET, 0, 1⟩
def F.PWR_WAKEEN_VMAIN : Fld := ⟨Reg.PWR_WAKEEN, 5, 1⟩
def F.PWR_WAKEEN_RSTIN : Fld := ⟨Reg.PWR_WAKEEN, 4, 1⟩
def F.PWR_WAKEEN_AONIRQ : Fld := ⟨Reg.PWR_WAKEEN, 3, 1⟩
def F.PWR_WAKEEN_RTC : Fld := ⟨Reg.PWR_WAKEEN, 2, 1⟩
def F.PWR_WAKEEN_WKR : Fld := ⟨Reg.PWR_WAKEEN, 1, 1⟩
def F.PWR_WAKEEN_MGB : Fld := ⟨Reg.PWR_WAKEEN, 0, 1⟩
def F.PWR_WAKECAUSE_VMAIN : Fld := ⟨Reg.PWR_WAKECAUSE, 5, 1⟩
def F.PWR_WAKECAUSE_RSTIN : Fld := ⟨Reg.PWR_WAKECAUSE, 4, 1⟩
def F.PWR_WAKECAUSE_AONIRQ : Fld := ⟨Reg.PWR_WAKECAUSE, 3, 1⟩
def F.PWR_WAKECAUSE_RTC : Fld := ⟨Reg.PWR_WAKECAUSE, 2, 1⟩
def F.PWR_WAKECAUSE_WKR : Fld := ⟨Reg.PWR_WAKECAUSE, 1, 1⟩
def F.PWR_WAKECAUSE_MGB : Fld := ⟨Reg.PWR_WAKECAUSE, 0, 1⟩
def F.PWR_RSTCAUSE_ENTRYOK : Fld := ⟨Reg.PWR_RSTCAUSE, 8, 1⟩
def F.PWR_RSTCAUSE_OFF : Fld := ⟨Reg.PWR_RSTCAUSE, 7, 1⟩
def F.PWR_RSTCAUSE_TRICKLE : Fld := ⟨Reg.PWR_RSTCAUSE, 6, 1⟩
def F.PWR_RSTCAUSE_THERMAL : Fld := ⟨Reg.PWR_RSTCAUSE, 5, 1⟩
def F.PWR_RSTCAUSE_BROWNOUT : Fld := ⟨Reg.PWR_RSTCAUSE, 4, 1⟩
def F.PWR_RSTCAUSE_DEVICE : Fld := ⟨Reg.PWR_RSTCAUSE, 3, 1⟩
def F.PWR_RSTCAUSE_RSTIN : Fld := ⟨Reg.PWR_RSTCAUSE, 2, 1⟩
def F.PWR_RSTCAUSE_AONPOR : Fld := ⟨Reg.PWR_RSTCAUSE, 0, 1⟩
def F.CLK_STAT_NOREF : Fld := ⟨Reg.CLK_STAT, 8, 1⟩
def F.CLK_STAT_XTALOK : Fld := ⟨Reg.CLK_STAT, 7, 1⟩
def F.CLK_STAT_REFOK : Fld := ⟨Reg.CLK_STAT, 6, 1⟩
def F.CLK_STAT_LOCK : Fld := ⟨Reg.CLK_STAT, 0, 5⟩
def F.HSP_CFG_WAIT (b : Nat) : Fld := ⟨Reg.HSP_CFG b, 8, 4⟩
def F.HSP_CFG_CRC (b : Nat) : Fld := ⟨Reg.HSP_CFG b, 1, 1⟩
def F.HSP_CFG_QUAD (b : Nat) : Fld := ⟨Reg.HSP_CFG b, 0, 1⟩
def F.HSP_STATUS_TIMEOUT (b : Nat) : Fld := ⟨Reg.HSP_STATUS b, 7, 1⟩
def F.HSP_STATUS_CFGRST (b : Nat) : Fld := ⟨Reg.HSP_STATUS b, 6, 1⟩
def F.HSP_STATUS_COLLIDE (b : Nat) : Fld := ⟨Reg.HSP_STATUS b, 5, 1⟩
def F.HSP_STATUS_BADCMD (b : Nat) : Fld := ⟨Reg.HSP_STATUS b, 4, 1⟩
def F.HSP_STATUS_LATE (b : Nat) : Fld := ⟨Reg.HSP_STATUS b, 3, 1⟩
def F.HSP_STATUS_ERR (b : Nat) : Fld := ⟨Reg.HSP_STATUS b, 2, 1⟩
def F.HSP_STATUS_CRC (b : Nat) : Fld := ⟨Reg.HSP_STATUS b, 1, 1⟩
def F.HSP_STATUS_FRAMING (b : Nat) : Fld := ⟨Reg.HSP_STATUS b, 0, 1⟩
def F.HSP_ERRADDR_ADDR (b : Nat) : Fld := ⟨Reg.HSP_ERRADDR b, 0, 32⟩
def F.MGB_CFG_COMPAT : Fld := ⟨Reg.MGB_CFG, 0, 1⟩
def F.MGB_ADDR_ADRIN : Fld := ⟨Reg.MGB_ADDR, 8, 1⟩
def F.MGB_ADDR_ASSIGNED : Fld := ⟨Reg.MGB_ADDR, 7, 1⟩
def F.MGB_ADDR_ADDR : Fld := ⟨Reg.MGB_ADDR, 0, 7⟩
def F.MGB_INCARN_INCARN : Fld := ⟨Reg.MGB_INCARN, 0, 16⟩
def F.MGB_ATTN_EN : Fld := ⟨Reg.MGB_ATTN, 31, 1⟩
def F.MGB_ATTN_RETRY : Fld := ⟨Reg.MGB_ATTN, 16, 8⟩
def F.MGB_ATTN_SPEED : Fld := ⟨Reg.MGB_ATTN, 8, 2⟩
def F.MGB_ATTN_HOST : Fld := ⟨Reg.MGB_ATTN, 0, 7⟩
def F.MGB_ATTNREQ_CAUSE : Fld := ⟨Reg.MGB_ATTNREQ, 0, 7⟩
def F.MGB_ATTNSTAT_CAUSE : Fld := ⟨Reg.MGB_ATTNSTAT, 16, 7⟩
def F.MGB_ATTNSTAT_SEQ : Fld := ⟨Reg.MGB_ATTNSTAT, 8, 8⟩
def F.MGB_ATTNSTAT_NEWLIFE : Fld := ⟨Reg.MGB_ATTNSTAT, 1, 1⟩
def F.MGB_ATTNSTAT_PENDING : Fld := ⟨Reg.MGB_ATTNSTAT, 0, 1⟩
def F.MGB_HANG_COUNT : Fld := ⟨Reg.MGB_HANG, 0, 16⟩
def F.MGB_ARBLOST_COUNT : Fld := ⟨Reg.MGB_ARBLOST, 0, 16⟩
def F.ETH_CTL_RXDLY (n : Nat) : Fld := ⟨Reg.ETH_CTL n, 9, 1⟩
def F.ETH_CTL_TXDLY (n : Nat) : Fld := ⟨Reg.ETH_CTL n, 8, 1⟩
def F.ETH_CTL_PAUSE (n : Nat) : Fld := ⟨Reg.ETH_CTL n, 7, 1⟩
def F.ETH_CTL_PTP (n : Nat) : Fld := ⟨Reg.ETH_CTL n, 6, 1⟩
def F.ETH_CTL_MCAST (n : Nat) : Fld := ⟨Reg.ETH_CTL n, 5, 1⟩
def F.ETH_CTL_PROMISC (n : Nat) : Fld := ⟨Reg.ETH_CTL n, 4, 1⟩
def F.ETH_CTL_SPEED (n : Nat) : Fld := ⟨Reg.ETH_CTL n, 2, 2⟩
def F.ETH_CTL_RXEN (n : Nat) : Fld := ⟨Reg.ETH_CTL n, 1, 1⟩
def F.ETH_CTL_TXEN (n : Nat) : Fld := ⟨Reg.ETH_CTL n, 0, 1⟩
def F.ETH_STAT_RXHALT (n : Nat) : Fld := ⟨Reg.ETH_STAT n, 5, 1⟩
def F.ETH_STAT_TXHALT (n : Nat) : Fld := ⟨Reg.ETH_STAT n, 4, 1⟩
def F.ETH_STAT_DUPLEX (n : Nat) : Fld := ⟨Reg.ETH_STAT n, 3, 1⟩
def F.ETH_STAT_LSPEED (n : Nat) : Fld := ⟨Reg.ETH_STAT n, 1, 2⟩
def F.ETH_STAT_LINK (n : Nat) : Fld := ⟨Reg.ETH_STAT n, 0, 1⟩
def F.ETH_MAC_LO_ADDR_L (n : Nat) : Fld := ⟨Reg.ETH_MAC_LO n, 0, 32⟩
def F.ETH_MAC_HI_ADDR_H (n : Nat) : Fld := ⟨Reg.ETH_MAC_HI n, 0, 16⟩
def F.ETH_TXBASE_BASE (n : Nat) : Fld := ⟨Reg.ETH_TXBASE n, 0, 32⟩
def F.ETH_TXCNT_COUNT (n : Nat) : Fld := ⟨Reg.ETH_TXCNT n, 0, 10⟩
def F.ETH_TXPOLL_IDX (n : Nat) : Fld := ⟨Reg.ETH_TXPOLL n, 0, 10⟩
def F.ETH_TXIDX_IDX (n : Nat) : Fld := ⟨Reg.ETH_TXIDX n, 0, 10⟩
def F.ETH_RXBASE_BASE (n : Nat) : Fld := ⟨Reg.ETH_RXBASE n, 0, 32⟩
def F.ETH_RXCNT_COUNT (n : Nat) : Fld := ⟨Reg.ETH_RXCNT n, 0, 10⟩
def F.ETH_RXIDX_IDX (n : Nat) : Fld := ⟨Reg.ETH_RXIDX n, 0, 10⟩
def F.ETH_EVT_RXE (n : Nat) : Fld := ⟨Reg.ETH_EVT n, 17, 1⟩
def F.ETH_EVT_TXE (n : Nat) : Fld := ⟨Reg.ETH_EVT n, 16, 1⟩
def F.ETH_EVT_RXCH (n : Nat) : Fld := ⟨Reg.ETH_EVT n, 8, 8⟩
def F.ETH_EVT_TXCH (n : Nat) : Fld := ⟨Reg.ETH_EVT n, 0, 8⟩
def F.ETH_RXFRAMES_COUNT (n : Nat) : Fld := ⟨Reg.ETH_RXFRAMES n, 0, 16⟩
def F.ETH_TXFRAMES_COUNT (n : Nat) : Fld := ⟨Reg.ETH_TXFRAMES n, 0, 16⟩
def F.ETH_RXERR_COUNT (n : Nat) : Fld := ⟨Reg.ETH_RXERR n, 0, 16⟩
def F.ETH_RXDROP_COUNT (n : Nat) : Fld := ⟨Reg.ETH_RXDROP n, 0, 16⟩
def F.ETH_MDIO_GO (n : Nat) : Fld := ⟨Reg.ETH_MDIO n, 31, 1⟩
def F.ETH_MDIO_READ (n : Nat) : Fld := ⟨Reg.ETH_MDIO n, 30, 1⟩
def F.ETH_MDIO_PHY (n : Nat) : Fld := ⟨Reg.ETH_MDIO n, 21, 5⟩
def F.ETH_MDIO_REG (n : Nat) : Fld := ⟨Reg.ETH_MDIO n, 16, 5⟩
def F.ETH_MDIO_DATA (n : Nat) : Fld := ⟨Reg.ETH_MDIO n, 0, 16⟩
def F.ETH_PTP_NS_NS : Fld := ⟨Reg.ETH_PTP_NS, 0, 30⟩
def F.ETH_PTP_SLO_S_L : Fld := ⟨Reg.ETH_PTP_SLO, 0, 32⟩
def F.ETH_PTP_SHI_S_H : Fld := ⟨Reg.ETH_PTP_SHI, 0, 16⟩
def F.ETH_PTP_INC_INC : Fld := ⟨Reg.ETH_PTP_INC, 0, 32⟩
def F.ETH_PTP_SETNS_NS : Fld := ⟨Reg.ETH_PTP_SETNS, 0, 30⟩
def F.ETH_PTP_SETS_LO_S_L : Fld := ⟨Reg.ETH_PTP_SETS_LO, 0, 32⟩
def F.ETH_PTP_SETS_HI_S_H : Fld := ⟨Reg.ETH_PTP_SETS_HI, 0, 16⟩
def F.ETH_PTP_ADJ_ADJ : Fld := ⟨Reg.ETH_PTP_ADJ, 0, 32⟩
def F.ETH_PTP_SF_NS_NS : Fld := ⟨Reg.ETH_PTP_SF_NS, 0, 30⟩
def F.ETH_PTP_SF_SLO_S_L : Fld := ⟨Reg.ETH_PTP_SF_SLO, 0, 32⟩
def F.ETH_PTP_SF_SHI_S_H : Fld := ⟨Reg.ETH_PTP_SF_SHI, 0, 16⟩
def F.ETH_PTP_SF_SFN_SFN : Fld := ⟨Reg.ETH_PTP_SF_SFN, 0, 32⟩
def F.ENG_CTL_LOAD (n : Nat) : Fld := ⟨Reg.ENG_CTL n, 3, 1⟩
def F.ENG_CTL_FORCE (n : Nat) : Fld := ⟨Reg.ENG_CTL n, 2, 1⟩
def F.ENG_CTL_HALT (n : Nat) : Fld := ⟨Reg.ENG_CTL n, 1, 1⟩
def F.ENG_CTL_START (n : Nat) : Fld := ⟨Reg.ENG_CTL n, 0, 1⟩
def F.ENG_CFG_RSTK_TRAP (n : Nat) : Fld := ⟨Reg.ENG_CFG n, 17, 1⟩
def F.ENG_CFG_TRAP_HALT (n : Nat) : Fld := ⟨Reg.ENG_CFG n, 16, 1⟩
def F.ENG_CFG_TVEC (n : Nat) : Fld := ⟨Reg.ENG_CFG n, 0, 11⟩
def F.ENG_STAT_REFUSED (n : Nat) : Fld := ⟨Reg.ENG_STAT n, 13, 1⟩
def F.ENG_STAT_HALT_FORCED (n : Nat) : Fld := ⟨Reg.ENG_STAT n, 12, 1⟩
def F.ENG_STAT_WHY (n : Nat) : Fld := ⟨Reg.ENG_STAT n, 8, 4⟩
def F.ENG_STAT_WDX (n : Nat) : Fld := ⟨Reg.ENG_STAT n, 6, 1⟩
def F.ENG_STAT_TBVALID (n : Nat) : Fld := ⟨Reg.ENG_STAT n, 5, 1⟩
def F.ENG_STAT_STALL (n : Nat) : Fld := ⟨Reg.ENG_STAT n, 4, 1⟩
def F.ENG_STAT_LOADED (n : Nat) : Fld := ⟨Reg.ENG_STAT n, 3, 1⟩
def F.ENG_STAT_STATE (n : Nat) : Fld := ⟨Reg.ENG_STAT n, 0, 3⟩
def F.ENG_PC_X (n : Nat) : Fld := ⟨Reg.ENG_PC n, 0, 11⟩
def F.ENG_NX_NEXT2 (n : Nat) : Fld := ⟨Reg.ENG_NX n, 12, 11⟩
def F.ENG_NX_NEXT1 (n : Nat) : Fld := ⟨Reg.ENG_NX n, 0, 11⟩
def F.ENG_WDT_LIMIT (n : Nat) : Fld := ⟨Reg.ENG_WDT n, 0, 16⟩
def F.ENG_TB_TB (n k : Nat) : Fld := ⟨Reg.ENG_TB n k, 0, 24⟩
def F.ENG_REVOKE_COUNT (n : Nat) : Fld := ⟨Reg.ENG_REVOKE n, 0, 16⟩
def F.EVC_CH_LOCK (n : Nat) : Fld := ⟨Reg.EVC_CH n, 31, 1⟩
def F.EVC_CH_NS (n : Nat) : Fld := ⟨Reg.EVC_CH n, 30, 1⟩
def F.EVC_CH_SWF (n : Nat) : Fld := ⟨Reg.EVC_CH n, 29, 1⟩
def F.EVC_CH_EN (n : Nat) : Fld := ⟨Reg.EVC_CH n, 28, 1⟩
def F.EVC_CH_PROD (n : Nat) : Fld := ⟨Reg.EVC_CH n, 14, 10⟩
def F.EVC_CH_CONS (n : Nat) : Fld := ⟨Reg.EVC_CH n, 0, 7⟩
def F.EVC_DROP_COUNT (n : Nat) : Fld := ⟨Reg.EVC_DROP n, 0, 16⟩
def F.EVC_FIRE_CH : Fld := ⟨Reg.EVC_FIRE, 0, 8⟩
def F.EVC_STRAY_VALID : Fld := ⟨Reg.EVC_STRAY, 31, 1⟩
def F.EVC_STRAY_OVF : Fld := ⟨Reg.EVC_STRAY, 30, 1⟩
def F.EVC_STRAY_SOURCE : Fld := ⟨Reg.EVC_STRAY, 8, 10⟩
def F.EVC_STRAY_CH : Fld := ⟨Reg.EVC_STRAY, 0, 8⟩
def F.EVC_HPEND_PEND (n : Nat) : Fld := ⟨Reg.EVC_HPEND n, 0, 32⟩
def F.LCK_ACQ_LOCK : Fld := ⟨Reg.LCK_ACQ, 0, 6⟩
def F.LCK_RES_LOCK (b : Nat) : Fld := ⟨Reg.LCK_RES b, 8, 6⟩
def F.LCK_RES_ORPHAN (b : Nat) : Fld := ⟨Reg.LCK_RES b, 1, 1⟩
def F.LCK_RES_HELD (b : Nat) : Fld := ⟨Reg.LCK_RES b, 0, 1⟩
def F.LCK_REL_LOCK : Fld := ⟨Reg.LCK_REL, 0, 6⟩
def F.LCK_CLR_LOCK : Fld := ⟨Reg.LCK_CLR, 0, 6⟩
def F.LCK_S_HELD (n : Nat) : Fld := ⟨Reg.LCK_S n, 31, 1⟩
def F.LCK_S_ORPHAN (n : Nat) : Fld := ⟨Reg.LCK_S n, 30, 1⟩
def F.LCK_S_NS (n : Nat) : Fld := ⟨Reg.LCK_S n, 7, 1⟩
def F.LCK_S_HOLDER (n : Nat) : Fld := ⟨Reg.LCK_S n, 0, 7⟩
def F.RXC_CTL_ENB : Fld := ⟨Reg.RXC_CTL, 9, 1⟩
def F.RXC_CTL_ENA : Fld := ⟨Reg.RXC_CTL, 8, 1⟩
def F.RXC_CTL_MODE : Fld := ⟨Reg.RXC_CTL, 0, 1⟩
def F.RXC_CMD_RECALB : Fld := ⟨Reg.RXC_CMD, 1, 1⟩
def F.RXC_CMD_RECALA : Fld := ⟨Reg.RXC_CMD, 0, 1⟩
def F.RXC_ACTIVE_ENB : Fld := ⟨Reg.RXC_ACTIVE, 9, 1⟩
def F.RXC_ACTIVE_ENA : Fld := ⟨Reg.RXC_ACTIVE, 8, 1⟩
def F.RXC_ACTIVE_MODE : Fld := ⟨Reg.RXC_ACTIVE, 0, 1⟩
def F.RXC_FREQ_KHZ (n : Nat) : Fld := ⟨Reg.RXC_FREQ n, 0, 20⟩
def F.RXC_AFREQ_KHZ (n : Nat) : Fld := ⟨Reg.RXC_AFREQ n, 0, 20⟩
def F.RXC_GAIN_LO (n : Nat) : Fld := ⟨Reg.RXC_GAIN n, 24, 5⟩
def F.RXC_GAIN_HI (n : Nat) : Fld := ⟨Reg.RXC_GAIN n, 16, 5⟩
def F.RXC_GAIN_FIXED (n : Nat) : Fld := ⟨Reg.RXC_GAIN n, 8, 1⟩
def F.RXC_GAIN_MAX_IDX (n : Nat) : Fld := ⟨Reg.RXC_GAIN n, 4, 4⟩
def F.RXC_GAIN_FIXED_IDX (n : Nat) : Fld := ⟨Reg.RXC_GAIN n, 0, 4⟩
def F.RXC_STAT_PEAK (n : Nat) : Fld := ⟨Reg.RXC_STAT n, 8, 8⟩
def F.RXC_STAT_BLANK (n : Nat) : Fld := ⟨Reg.RXC_STAT n, 6, 1⟩
def F.RXC_STAT_CAL (n : Nat) : Fld := ⟨Reg.RXC_STAT n, 5, 1⟩
def F.RXC_STAT_HOLD (n : Nat) : Fld := ⟨Reg.RXC_STAT n, 4, 1⟩
def F.RXC_STAT_IDX (n : Nat) : Fld := ⟨Reg.RXC_STAT n, 0, 4⟩
def F.RXC_CLIP_COUNT (n : Nat) : Fld := ⟨Reg.RXC_CLIP n, 0, 16⟩
def F.RXC_ERR_DCSAT : Fld := ⟨Reg.RXC_ERR, 1, 1⟩
def F.RXC_ERR_RANGE : Fld := ⟨Reg.RXC_ERR, 0, 1⟩
def F.RXC_DC_Q (n : Nat) : Fld := ⟨Reg.RXC_DC n, 16, 16⟩
def F.RXC_DC_I (n : Nat) : Fld := ⟨Reg.RXC_DC n, 0, 16⟩
def F.RXC_TRIM_RSSIOFF (n : Nat) : Fld := ⟨Reg.RXC_TRIM n, 16, 8⟩
def F.RXC_TRIM_GAIN (n : Nat) : Fld := ⟨Reg.RXC_TRIM n, 8, 8⟩
def F.RXC_TRIM_PHASE (n : Nat) : Fld := ⟨Reg.RXC_TRIM n, 0, 8⟩
def F.LAN_CFG_EVCH (n : Nat) : Fld := ⟨Reg.LAN_CFG n, 8, 8⟩
def F.LAN_CFG_EVT (n : Nat) : Fld := ⟨Reg.LAN_CFG n, 2, 1⟩
def F.LAN_CFG_TRACK (n : Nat) : Fld := ⟨Reg.LAN_CFG n, 1, 1⟩
def F.LAN_CFG_EN (n : Nat) : Fld := ⟨Reg.LAN_CFG n, 0, 1⟩
def F.LAN_SRCH_DELTA (n k : Nat) : Fld := ⟨Reg.LAN_SRCH n k, 16, 3⟩
def F.LAN_SRCH_SFD (n k : Nat) : Fld := ⟨Reg.LAN_SRCH n k, 12, 2⟩
def F.LAN_SRCH_HIDX (n k : Nat) : Fld := ⟨Reg.LAN_SRCH n k, 11, 1⟩
def F.LAN_SRCH_TOL (n k : Nat) : Fld := ⟨Reg.LAN_SRCH n k, 8, 3⟩
def F.LAN_SRCH_FOLLOW (n k : Nat) : Fld := ⟨Reg.LAN_SRCH n k, 6, 1⟩
def F.LAN_SRCH_RATE (n k : Nat) : Fld := ⟨Reg.LAN_SRCH n k, 4, 2⟩
def F.LAN_SRCH_MOD (n k : Nat) : Fld := ⟨Reg.LAN_SRCH n k, 2, 2⟩
def F.LAN_SRCH_FAM (n k : Nat) : Fld := ⟨Reg.LAN_SRCH n k, 1, 1⟩
def F.LAN_SRCH_EN (n k : Nat) : Fld := ⟨Reg.LAN_SRCH n k, 0, 1⟩
def F.LAN_SYNC_SYNC (n k : Nat) : Fld := ⟨Reg.LAN_SYNC n k, 0, 32⟩
def F.LAN_STAT_DGAIN (n : Nat) : Fld := ⟨Reg.LAN_STAT n, 8, 8⟩
def F.LAN_STAT_SRCH (n : Nat) : Fld := ⟨Reg.LAN_STAT n, 4, 2⟩
def F.LAN_STAT_STATE (n : Nat) : Fld := ⟨Reg.LAN_STAT n, 0, 3⟩
def F.LAN_RSSI_NOISE (n : Nat) : Fld := ⟨Reg.LAN_RSSI n, 8, 8⟩
def F.LAN_RSSI_NOW (n : Nat) : Fld := ⟨Reg.LAN_RSSI n, 0, 8⟩
def F.LAN_AFC_FERR (n : Nat) : Fld := ⟨Reg.LAN_AFC n, 0, 16⟩
def F.LAN_FD0_DIV (n : Nat) : Fld := ⟨Reg.LAN_FD0 n, 29, 1⟩
def F.LAN_FD0_ERRS (n : Nat) : Fld := ⟨Reg.LAN_FD0 n, 26, 3⟩
def F.LAN_FD0_SRCH (n : Nat) : Fld := ⟨Reg.LAN_FD0 n, 24, 2⟩
def F.LAN_FD0_RESUMED (n : Nat) : Fld := ⟨Reg.LAN_FD0 n, 23, 1⟩
def F.LAN_FD0_PREEMPT (n : Nat) : Fld := ⟨Reg.LAN_FD0 n, 22, 1⟩
def F.LAN_FD0_CLIP (n : Nat) : Fld := ⟨Reg.LAN_FD0 n, 21, 1⟩
def F.LAN_FD0_DESENSE (n : Nat) : Fld := ⟨Reg.LAN_FD0 n, 20, 1⟩
def F.LAN_FD0_STATUS (n : Nat) : Fld := ⟨Reg.LAN_FD0 n, 16, 4⟩
def F.LAN_FD0_PROF (n : Nat) : Fld := ⟨Reg.LAN_FD0 n, 13, 3⟩
def F.LAN_FD0_FAM (n : Nat) : Fld := ⟨Reg.LAN_FD0 n, 12, 1⟩
def F.LAN_FD0_LEN (n : Nat) : Fld := ⟨Reg.LAN_FD0 n, 0, 12⟩
def F.LAN_FD1_FERR (n : Nat) : Fld := ⟨Reg.LAN_FD1 n, 16, 16⟩
def F.LAN_FD1_GIDX (n : Nat) : Fld := ⟨Reg.LAN_FD1 n, 8, 4⟩
def F.LAN_FD1_RSSI (n : Nat) : Fld := ⟨Reg.LAN_FD1 n, 0, 8⟩
def F.LAN_TS_LO_SLOT_L (n : Nat) : Fld := ⟨Reg.LAN_TS_LO n, 17, 15⟩
def F.LAN_TS_LO_OFF (n : Nat) : Fld := ⟨Reg.LAN_TS_LO n, 0, 17⟩
def F.LAN_TS_HI_SLOT_H (n : Nat) : Fld := ⟨Reg.LAN_TS_HI n, 0, 25⟩
def F.LAN_CTL_RESTART (n : Nat) : Fld := ⟨Reg.LAN_CTL n, 1, 1⟩
def F.LAN_CTL_RELEASE (n : Nat) : Fld := ⟨Reg.LAN_CTL n, 0, 1⟩
def F.LAN_HDRERR_COUNT (n : Nat) : Fld := ⟨Reg.LAN_HDRERR n, 0, 16⟩
def F.LAN_FRAMES_COUNT (n : Nat) : Fld := ⟨Reg.LAN_FRAMES n, 0, 16⟩
def F.LAN_FCSERR_COUNT (n : Nat) : Fld := ⟨Reg.LAN_FCSERR n, 0, 16⟩
def F.LAN_DECERR_COUNT (n : Nat) : Fld := ⟨Reg.LAN_DECERR n, 0, 16⟩
def F.LAN_MISSED_COUNT (n : Nat) : Fld := ⟨Reg.LAN_MISSED n, 0, 16⟩
def F.LAN_PREEMPT_COUNT (n : Nat) : Fld := ⟨Reg.LAN_PREEMPT n, 0, 16⟩
def F.LAN_DIVDROP_COUNT (n : Nat) : Fld := ⟨Reg.LAN_DIVDROP n, 0, 16⟩
def F.LAN_ABORT_COUNT (n : Nat) : Fld := ⟨Reg.LAN_ABORT n, 0, 16⟩
def F.LAN_RDY_READY (n : Nat) : Fld := ⟨Reg.LAN_RDY n, 0, 32⟩
def F.LDP_CFG_NORM : Fld := ⟨Reg.LDP_CFG, 8, 2⟩
def F.LDP_CFG_ITER : Fld := ⟨Reg.LDP_CFG, 0, 5⟩
def F.LDP_SUNCFG_INTLV : Fld := ⟨Reg.LDP_SUNCFG, 1, 1⟩
def F.LDP_SUNCFG_RSC : Fld := ⟨Reg.LDP_SUNCFG, 0, 1⟩
def F.LDP_STAT_QUEUE : Fld := ⟨Reg.LDP_STAT, 8, 8⟩
def F.LDP_STAT_BUSY : Fld := ⟨Reg.LDP_STAT, 0, 8⟩
def F.LDP_CWOK_COUNT : Fld := ⟨Reg.LDP_CWOK, 0, 16⟩
def F.LDP_CWFAIL_COUNT : Fld := ⟨Reg.LDP_CWFAIL, 0, 16⟩
def F.LDP_LCTL_UPCNT : Fld := ⟨Reg.LDP_LCTL, 8, 4⟩
def F.LDP_LCTL_HYST : Fld := ⟨Reg.LDP_LCTL, 4, 4⟩
def F.LDP_LCTL_EN : Fld := ⟨Reg.LDP_LCTL, 0, 1⟩
def F.LDP_LSTAT_RAISED : Fld := ⟨Reg.LDP_LSTAT, 1, 1⟩
def F.LDP_LSTAT_LOWERED : Fld := ⟨Reg.LDP_LSTAT, 0, 1⟩
def F.LDP_CEIL_CEIL (n : Nat) : Fld := ⟨Reg.LDP_CEIL n, 0, 8⟩
def F.LDP_CHP_FLOOR (n : Nat) : Fld := ⟨Reg.LDP_CHP n, 24, 8⟩
def F.LDP_CHP_UPRUN (n : Nat) : Fld := ⟨Reg.LDP_CHP n, 16, 4⟩
def F.LDP_CHP_CUR (n : Nat) : Fld := ⟨Reg.LDP_CHP n, 8, 3⟩
def F.LDP_CHP_PINP (n : Nat) : Fld := ⟨Reg.LDP_CHP n, 4, 3⟩
def F.LDP_CHP_PIN (n : Nat) : Fld := ⟨Reg.LDP_CHP n, 0, 1⟩
def F.LDP_HDR_HDR (n : Nat) : Fld := ⟨Reg.LDP_HDR n, 0, 24⟩
def F.LDP_LST_Z48 (n : Nat) : Fld := ⟨Reg.LDP_LST n, 24, 1⟩
def F.LDP_LST_ITMAX (n : Nat) : Fld := ⟨Reg.LDP_LST n, 16, 5⟩
def F.LDP_LST_CW (n : Nat) : Fld := ⟨Reg.LDP_LST n, 8, 5⟩
def F.LDP_LST_FAILED (n : Nat) : Fld := ⟨Reg.LDP_LST n, 0, 5⟩
def F.TXP_RAMP_FEMLAG : Fld := ⟨Reg.TXP_RAMP, 16, 6⟩
def F.TXP_RAMP_FEMLEAD : Fld := ⟨Reg.TXP_RAMP, 8, 6⟩
def F.TXP_RAMP_RAMP : Fld := ⟨Reg.TXP_RAMP, 0, 5⟩
def F.TXP_PWRLIM_LIMIT (n : Nat) : Fld := ⟨Reg.TXP_PWRLIM n, 0, 6⟩
def F.TXP_BACKOFF_STEPS : Fld := ⟨Reg.TXP_BACKOFF, 0, 4⟩
def F.TXP_FEMIDLE_B : Fld := ⟨Reg.TXP_FEMIDLE, 4, 4⟩
def F.TXP_FEMIDLE_A : Fld := ⟨Reg.TXP_FEMIDLE, 0, 4⟩
def F.TXP_FEMTX_B (n : Nat) : Fld := ⟨Reg.TXP_FEMTX n, 4, 4⟩
def F.TXP_FEMTX_A (n : Nat) : Fld := ⟨Reg.TXP_FEMTX n, 0, 4⟩
def F.TXP_SYNC_SYNC (n : Nat) : Fld := ⟨Reg.TXP_SYNC n, 0, 32⟩
def F.TXP_STAT_PHASE : Fld := ⟨Reg.TXP_STAT, 0, 3⟩
def F.TXP_BADDESC_VALID : Fld := ⟨Reg.TXP_BADDESC, 31, 1⟩
def F.TXP_BADDESC_OVF : Fld := ⟨Reg.TXP_BADDESC, 30, 1⟩
def F.TXP_BADDESC_CAUSE : Fld := ⟨Reg.TXP_BADDESC, 12, 3⟩
def F.TXP_BADDESC_DESC : Fld := ⟨Reg.TXP_BADDESC, 0, 12⟩
def F.TXP_DET_INDEX : Fld := ⟨Reg.TXP_DET, 8, 8⟩
def F.TXP_DET_POWER : Fld := ⟨Reg.TXP_DET, 0, 8⟩
def F.TXP_LAUNCHES_COUNT : Fld := ⟨Reg.TXP_LAUNCHES, 0, 16⟩
def F.TXP_PTAB_EXT (n k : Nat) : Fld := ⟨Reg.TXP_PTAB n k, 31, 1⟩
def F.TXP_PTAB_FEM (n k : Nat) : Fld := ⟨Reg.TXP_PTAB n k, 29, 2⟩
def F.TXP_PTAB_DRV (n k : Nat) : Fld := ⟨Reg.TXP_PTAB n k, 8, 8⟩
def F.TXP_PTAB_BIAS (n k : Nat) : Fld := ⟨Reg.TXP_PTAB n k, 0, 8⟩
def F.SYN_CTL_AUTO : Fld := ⟨Reg.SYN_CTL, 0, 1⟩
def F.SYN_CMD_OP : Fld := ⟨Reg.SYN_CMD, 30, 2⟩
def F.SYN_CMD_KHZ : Fld := ⟨Reg.SYN_CMD, 0, 20⟩
def F.SYN_STAT_ENTRIES : Fld := ⟨Reg.SYN_STAT, 16, 9⟩
def F.SYN_STAT_QUEUED : Fld := ⟨Reg.SYN_STAT, 8, 5⟩
def F.SYN_STAT_CALBUSY : Fld := ⟨Reg.SYN_STAT, 1, 1⟩
def F.SYN_STAT_LOCKED : Fld := ⟨Reg.SYN_STAT, 0, 1⟩
def F.SYN_ERR_RANGE : Fld := ⟨Reg.SYN_ERR, 2, 1⟩
def F.SYN_ERR_QFULL : Fld := ⟨Reg.SYN_ERR, 1, 1⟩
def F.SYN_ERR_LOCKFAIL : Fld := ⟨Reg.SYN_ERR, 0, 1⟩
def F.SYN_ERRKHZ_KHZ : Fld := ⟨Reg.SYN_ERRKHZ, 0, 20⟩
def F.SYN_VCOLIM_HI : Fld := ⟨Reg.SYN_VCOLIM, 16, 16⟩
def F.SYN_VCOLIM_LO : Fld := ⟨Reg.SYN_VCOLIM, 0, 16⟩
def F.SYN_HITS_COUNT : Fld := ⟨Reg.SYN_HITS, 0, 16⟩
def F.SYN_MISSES_COUNT : Fld := ⟨Reg.SYN_MISSES, 0, 16⟩
def F.SYN_ENT_VALID (n : Nat) : Fld := ⟨Reg.SYN_ENT n, 31, 1⟩
def F.SYN_ENT_TCAL (n : Nat) : Fld := ⟨Reg.SYN_ENT n, 20, 8⟩
def F.SYN_ENT_KHZ (n : Nat) : Fld := ⟨Reg.SYN_ENT n, 0, 20⟩
def F.SFM_CTL_QEN : Fld := ⟨Reg.SFM_CTL, 1, 1⟩
def F.SFM_CTL_RUN : Fld := ⟨Reg.SFM_CTL, 0, 1⟩
def F.SFM_STAT_PEND : Fld := ⟨Reg.SFM_STAT, 16, 11⟩
def F.SFM_STAT_RES : Fld := ⟨Reg.SFM_STAT, 4, 9⟩
def F.SFM_STAT_NOSB : Fld := ⟨Reg.SFM_STAT, 3, 1⟩
def F.SFM_STAT_RESOVF : Fld := ⟨Reg.SFM_STAT, 2, 1⟩
def F.SFM_STAT_ADJBUSY : Fld := ⟨Reg.SFM_STAT, 1, 1⟩
def F.SFM_STAT_RUNNING : Fld := ⟨Reg.SFM_STAT, 0, 1⟩
def F.SFM_ASN_LO_ASN_L : Fld := ⟨Reg.SFM_ASN_LO, 0, 32⟩
def F.SFM_ASN_HI_ASN_H : Fld := ⟨Reg.SFM_ASN_HI, 0, 8⟩
def F.SFM_ASNSET_LO_SET_L : Fld := ⟨Reg.SFM_ASNSET_LO, 0, 32⟩
def F.SFM_ASNSET_HI_SET_H : Fld := ⟨Reg.SFM_ASNSET_HI, 0, 8⟩
def F.SFM_ADJ_SHIFT : Fld := ⟨Reg.SFM_ADJ, 0, 24⟩
def F.SFM_TIMING_ACKWIN : Fld := ⟨Reg.SFM_TIMING, 16, 8⟩
def F.SFM_TIMING_GUARD : Fld := ⟨Reg.SFM_TIMING, 0, 9⟩
def F.SFM_CHBASE_KHZ : Fld := ⟨Reg.SFM_CHBASE, 0, 20⟩
def F.SFM_HOPCFG_SPACE : Fld := ⟨Reg.SFM_HOPCFG, 16, 10⟩
def F.SFM_HOPCFG_LEN : Fld := ⟨Reg.SFM_HOPCFG, 0, 8⟩
def F.SFM_BCN_EN : Fld := ⟨Reg.SFM_BCN, 31, 1⟩
def F.SFM_BCN_PROF : Fld := ⟨Reg.SFM_BCN, 28, 3⟩
def F.SFM_BCN_DESC : Fld := ⟨Reg.SFM_BCN, 12, 12⟩
def F.SFM_BCN_ASNOFF : Fld := ⟨Reg.SFM_BCN, 0, 11⟩
def F.SFM_BCNSKIP_COUNT : Fld := ⟨Reg.SFM_BCNSKIP, 0, 16⟩
def F.SFM_SUBMIT_MODE : Fld := ⟨Reg.SFM_SUBMIT, 30, 2⟩
def F.SFM_SUBMIT_INDEX : Fld := ⟨Reg.SFM_SUBMIT, 12, 18⟩
def F.SFM_SUBMIT_DESC : Fld := ⟨Reg.SFM_SUBMIT, 0, 12⟩
def F.SFM_RESULT_VALID : Fld := ⟨Reg.SFM_RESULT, 31, 1⟩
def F.SFM_RESULT_OUTCOME : Fld := ⟨Reg.SFM_RESULT, 27, 4⟩
def F.SFM_RESULT_SLOT : Fld := ⟨Reg.SFM_RESULT, 12, 12⟩
def F.SFM_RESULT_DESC : Fld := ⟨Reg.SFM_RESULT, 0, 12⟩
def F.SFM_RESCFG_EVT : Fld := ⟨Reg.SFM_RESCFG, 8, 1⟩
def F.SFM_RESCFG_EVCH : Fld := ⟨Reg.SFM_RESCFG, 0, 8⟩
def F.SFM_CANCEL_DESC : Fld := ⟨Reg.SFM_CANCEL, 0, 12⟩
def F.SFM_LOST_VALID : Fld := ⟨Reg.SFM_LOST, 31, 1⟩
def F.SFM_LOST_OVF : Fld := ⟨Reg.SFM_LOST, 30, 1⟩
def F.SFM_LOST_INDEX : Fld := ⟨Reg.SFM_LOST, 0, 18⟩
def F.SFM_HEARD_ERR : Fld := ⟨Reg.SFM_HEARD, 18, 14⟩
def F.SFM_HEARD_INDEX : Fld := ⟨Reg.SFM_HEARD, 0, 18⟩
def F.SFM_MISS_INDEX : Fld := ⟨Reg.SFM_MISS, 0, 18⟩
def F.SFM_HOP_CH (n : Nat) : Fld := ⟨Reg.SFM_HOP n, 0, 8⟩
def F.SFM_QRATE_BURST (n : Nat) : Fld := ⟨Reg.SFM_QRATE n, 16, 8⟩
def F.SFM_QRATE_RATE (n : Nat) : Fld := ⟨Reg.SFM_QRATE n, 0, 12⟩
def F.SFM_QCR_CREDIT (n : Nat) : Fld := ⟨Reg.SFM_QCR n, 0, 12⟩
def F.BKT_LO_KHZ (n : Nat) : Fld := ⟨Reg.BKT_LO n, 0, 20⟩
def F.BKT_HI_KHZ (n : Nat) : Fld := ⟨Reg.BKT_HI n, 0, 20⟩
def F.BKT_LIM_EN (n : Nat) : Fld := ⟨Reg.BKT_LIM n, 31, 1⟩
def F.BKT_LIM_LIMIT (n : Nat) : Fld := ⟨Reg.BKT_LIM n, 0, 22⟩
def F.BKT_USED_USED (n : Nat) : Fld := ⟨Reg.BKT_USED n, 0, 32⟩
def F.BKT_DEF_COUNT (n : Nat) : Fld := ⟨Reg.BKT_DEF n, 0, 16⟩
def F.CST_CTL_CLEAR : Fld := ⟨Reg.CST_CTL, 0, 1⟩
def F.CST_STAT_CLEARING : Fld := ⟨Reg.CST_STAT, 0, 1⟩
def F.CST_NRIDX_VALID : Fld := ⟨Reg.CST_NRIDX, 31, 1⟩
def F.CST_NRIDX_OVF : Fld := ⟨Reg.CST_NRIDX, 30, 1⟩
def F.CST_NRIDX_INDEX : Fld := ⟨Reg.CST_NRIDX, 0, 18⟩
def F.CST_SUM_SUM : Fld := ⟨Reg.CST_SUM, 0, 32⟩
def F.CST_UIDX_CMP (b : Nat) : Fld := ⟨Reg.CST_UIDX b, 31, 1⟩
def F.CST_UIDX_INDEX (b : Nat) : Fld := ⟨Reg.CST_UIDX b, 0, 18⟩
def F.CST_UMASK_VALUE (b n : Nat) : Fld := ⟨Reg.CST_UMASK b n, 0, 32⟩
def F.CST_UVAL_VALUE (b n : Nat) : Fld := ⟨Reg.CST_UVAL b n, 0, 32⟩
def F.CST_UEXP_VALUE (b n : Nat) : Fld := ⟨Reg.CST_UEXP b n, 0, 32⟩
def F.CST_UGO_GO (b : Nat) : Fld := ⟨Reg.CST_UGO b, 0, 1⟩
def F.CST_USTAT_RESULT (b : Nat) : Fld := ⟨Reg.CST_USTAT b, 0, 2⟩
def F.CST_UOLD_OLD (b n : Nat) : Fld := ⟨Reg.CST_UOLD b n, 0, 32⟩
def F.CST_RQ_INDEX (b : Nat) : Fld := ⟨Reg.CST_RQ b, 0, 18⟩
def F.CST_RA_OK (b : Nat) : Fld := ⟨Reg.CST_RA b, 31, 1⟩
def F.CST_RA_DEPTH (b : Nat) : Fld := ⟨Reg.CST_RA b, 24, 6⟩
def F.CST_RA_FIRST (b : Nat) : Fld := ⟨Reg.CST_RA b, 0, 18⟩
def F.CIP_CTL_FLUSH : Fld := ⟨Reg.CIP_CTL, 0, 1⟩
def F.CIP_STAT_QUEUE : Fld := ⟨Reg.CIP_STAT, 16, 7⟩
def F.CIP_STAT_LOSTREC : Fld := ⟨Reg.CIP_STAT, 8, 1⟩
def F.CIP_STAT_BUSY : Fld := ⟨Reg.CIP_STAT, 0, 8⟩
def F.CIP_SELF_LO_ADDR : Fld := ⟨Reg.CIP_SELF_LO, 0, 32⟩
def F.CIP_SELF_HI_ADDR : Fld := ⟨Reg.CIP_SELF_HI, 0, 32⟩
def F.CIP_REPLAY_COUNT : Fld := ⟨Reg.CIP_REPLAY, 0, 16⟩
def F.CIP_AUTHF_COUNT : Fld := ⟨Reg.CIP_AUTHF, 0, 16⟩
def F.CIP_KSV_VALID (n : Nat) : Fld := ⟨Reg.CIP_KSV n, 0, 32⟩
def F.CIP_JD_WORD (b n : Nat) : Fld := ⟨Reg.CIP_JD b n, 0, 32⟩
def F.CIP_JSTAT_REFUSED (b : Nat) : Fld := ⟨Reg.CIP_JSTAT b, 0, 1⟩
def F.CIP_TEN_EN (n : Nat) : Fld := ⟨Reg.CIP_TEN n, 31, 1⟩
def F.CIP_TEN_K256 (n : Nat) : Fld := ⟨Reg.CIP_TEN n, 30, 1⟩
def F.CIP_TEN_NS (n : Nat) : Fld := ⟨Reg.CIP_TEN n, 29, 1⟩
def F.CIP_TEN_SLOT (n : Nat) : Fld := ⟨Reg.CIP_TEN n, 16, 10⟩
def F.CIP_TEN_EPOCH (n : Nat) : Fld := ⟨Reg.CIP_TEN n, 0, 16⟩
def F.SPH_CTL_PAIRID : Fld := ⟨Reg.SPH_CTL, 16, 16⟩
def F.SPH_CTL_AUTO : Fld := ⟨Reg.SPH_CTL, 3, 1⟩
def F.SPH_CTL_ROLE : Fld := ⟨Reg.SPH_CTL, 1, 1⟩
def F.SPH_CTL_EN : Fld := ⟨Reg.SPH_CTL, 0, 1⟩
def F.SPH_CMD_HANDOVER : Fld := ⟨Reg.SPH_CMD, 3, 1⟩
def F.SPH_CMD_REJOIN : Fld := ⟨Reg.SPH_CMD, 2, 1⟩
def F.SPH_CMD_PROMOTE : Fld := ⟨Reg.SPH_CMD, 1, 1⟩
def F.SPH_STAT_TERM : Fld := ⟨Reg.SPH_STAT, 16, 16⟩
def F.SPH_STAT_IDMISMATCH : Fld := ⟨Reg.SPH_STAT, 11, 1⟩
def F.SPH_STAT_SUMSTALE : Fld := ⟨Reg.SPH_STAT, 10, 1⟩
def F.SPH_STAT_PEER_ESTR : Fld := ⟨Reg.SPH_STAT, 9, 1⟩
def F.SPH_STAT_PEER_LOST : Fld := ⟨Reg.SPH_STAT, 8, 1⟩
def F.SPH_STAT_LINK : Fld := ⟨Reg.SPH_STAT, 3, 1⟩
def F.SPH_STAT_STATE : Fld := ⟨Reg.SPH_STAT, 0, 3⟩
def F.SPH_ESTR_CAUSE : Fld := ⟨Reg.SPH_ESTR, 0, 5⟩
def F.SPH_LIFT_LIFT : Fld := ⟨Reg.SPH_LIFT, 0, 16⟩
def F.SPH_IMGSUM_SUM : Fld := ⟨Reg.SPH_IMGSUM, 0, 32⟩
def F.SPH_PEERUID_LO_UID : Fld := ⟨Reg.SPH_PEERUID_LO, 0, 32⟩
def F.SPH_PEERUID_HI_UID : Fld := ⟨Reg.SPH_PEERUID_HI, 0, 32⟩
def F.SPH_OFFSET_OFF : Fld := ⟨Reg.SPH_OFFSET, 0, 24⟩
def F.SPH_LATENCY_NS : Fld := ⟨Reg.SPH_LATENCY, 0, 16⟩
def F.SPH_ALIGN_COUNT : Fld := ⟨Reg.SPH_ALIGN, 0, 19⟩
def F.SPH_IRQ_ALIGNED : Fld := ⟨Reg.SPH_IRQ, 7, 1⟩
def F.SPH_IRQ_SUMSTALE : Fld := ⟨Reg.SPH_IRQ, 6, 1⟩
def F.SPH_IRQ_ESTRANGED : Fld := ⟨Reg.SPH_IRQ, 5, 1⟩
def F.SPH_IRQ_PRIMARY_LOST : Fld := ⟨Reg.SPH_IRQ, 4, 1⟩
def F.SPH_IRQ_PEER_LOST : Fld := ⟨Reg.SPH_IRQ, 3, 1⟩
def F.SPH_IRQ_TAKEOVER : Fld := ⟨Reg.SPH_IRQ, 2, 1⟩
def F.SPH_IRQ_LINKDOWN : Fld := ⟨Reg.SPH_IRQ, 1, 1⟩
def F.SPH_IRQ_LINKUP : Fld := ⟨Reg.SPH_IRQ, 0, 1⟩
def F.SPH_IRQEN_ALIGNED : Fld := ⟨Reg.SPH_IRQEN, 7, 1⟩
def F.SPH_IRQEN_SUMSTALE : Fld := ⟨Reg.SPH_IRQEN, 6, 1⟩
def F.SPH_IRQEN_ESTRANGED : Fld := ⟨Reg.SPH_IRQEN, 5, 1⟩
def F.SPH_IRQEN_PRIMARY_LOST : Fld := ⟨Reg.SPH_IRQEN, 4, 1⟩
def F.SPH_IRQEN_PEER_LOST : Fld := ⟨Reg.SPH_IRQEN, 3, 1⟩
def F.SPH_IRQEN_TAKEOVER : Fld := ⟨Reg.SPH_IRQEN, 2, 1⟩
def F.SPH_IRQEN_LINKDOWN : Fld := ⟨Reg.SPH_IRQEN, 1, 1⟩
def F.SPH_IRQEN_LINKUP : Fld := ⟨Reg.SPH_IRQEN, 0, 1⟩
def F.SPH_CRCERR_COUNT : Fld := ⟨Reg.SPH_CRCERR, 0, 16⟩
def F.SPH_RETRY_COUNT : Fld := ⟨Reg.SPH_RETRY, 0, 16⟩
def F.SPH_MISSBEAT_COUNT : Fld := ⟨Reg.SPH_MISSBEAT, 0, 16⟩
def F.FDR_CTL_EVCH : Fld := ⟨Reg.FDR_CTL, 8, 8⟩
def F.FDR_CTL_EVDIV : Fld := ⟨Reg.FDR_CTL, 4, 3⟩
def F.FDR_CTL_EVT : Fld := ⟨Reg.FDR_CTL, 2, 1⟩
def F.FDR_CTL_ALIGN : Fld := ⟨Reg.FDR_CTL, 1, 1⟩
def F.FDR_CTL_EN : Fld := ⟨Reg.FDR_CTL, 0, 1⟩
def F.FDR_RBASE_BASE : Fld := ⟨Reg.FDR_RBASE, 0, 32⟩
def F.FDR_RSIZE_FRAMES : Fld := ⟨Reg.FDR_RSIZE, 0, 13⟩
def F.FDR_WIDX_IDX : Fld := ⟨Reg.FDR_WIDX, 0, 12⟩
def F.FDR_RIDX_IDX : Fld := ⟨Reg.FDR_RIDX, 0, 12⟩
def F.FDR_STAT_HALT : Fld := ⟨Reg.FDR_STAT, 2, 1⟩
def F.FDR_STAT_OVF : Fld := ⟨Reg.FDR_STAT, 1, 1⟩
def F.FDR_STAT_RUNNING : Fld := ⟨Reg.FDR_STAT, 0, 1⟩
def F.FDR_DROP_COUNT : Fld := ⟨Reg.FDR_DROP, 0, 16⟩
def F.FDR_TSEQ_SEQ : Fld := ⟨Reg.FDR_TSEQ, 0, 16⟩
def F.FDR_TS_LO_SLOT_L : Fld := ⟨Reg.FDR_TS_LO, 17, 15⟩
def F.FDR_TS_LO_OFF : Fld := ⟨Reg.FDR_TS_LO, 0, 17⟩
def F.FDR_TS_HI_SLOT_H : Fld := ⟨Reg.FDR_TS_HI, 0, 25⟩
def F.FDR_OVR_CLAMP : Fld := ⟨Reg.FDR_OVR, 0, 8⟩
def F.FDR_CHCFG_HPF (n : Nat) : Fld := ⟨Reg.FDR_CHCFG n, 4, 2⟩
def F.FDR_CHCFG_GAIN (n : Nat) : Fld := ⟨Reg.FDR_CHCFG n, 0, 3⟩
def F.FDR_TRIM_PTRIM (n : Nat) : Fld := ⟨Reg.FDR_TRIM n, 24, 8⟩
def F.FDR_TRIM_GTRIM (n : Nat) : Fld := ⟨Reg.FDR_TRIM n, 0, 16⟩
def F.CTR_OE_OE : Fld := ⟨Reg.CTR_OE, 0, 8⟩
def F.CTR_OUT_OUT : Fld := ⟨Reg.CTR_OUT, 0, 8⟩
def F.CTR_SET_SET : Fld := ⟨Reg.CTR_SET, 0, 8⟩
def F.CTR_CLR_CLR : Fld := ⟨Reg.CTR_CLR, 0, 8⟩
def F.CTR_CFG_FAULTOFF : Fld := ⟨Reg.CTR_CFG, 24, 1⟩
def F.CTR_CFG_DWELL : Fld := ⟨Reg.CTR_CFG, 16, 8⟩
def F.CTR_CFG_DEB : Fld := ⟨Reg.CTR_CFG, 8, 4⟩
def F.CTR_CFG_TMATCH : Fld := ⟨Reg.CTR_CFG, 0, 8⟩
def F.CTR_FBPOL_POL : Fld := ⟨Reg.CTR_FBPOL, 0, 8⟩
def F.CTR_STAT_REFUSED : Fld := ⟨Reg.CTR_STAT, 24, 1⟩
def F.CTR_STAT_HELD : Fld := ⟨Reg.CTR_STAT, 16, 8⟩
def F.CTR_STAT_FB : Fld := ⟨Reg.CTR_STAT, 8, 8⟩
def F.CTR_STAT_DRIVE : Fld := ⟨Reg.CTR_STAT, 0, 8⟩
def F.CTR_FAULT_CODE : Fld := ⟨Reg.CTR_FAULT, 0, 24⟩
def F.CTR_FCLR_CLR : Fld := ⟨Reg.CTR_FCLR, 0, 8⟩
def F.GPIO_DIR_DIR : Fld := ⟨Reg.GPIO_DIR, 0, 24⟩
def F.GPIO_OUT_OUT : Fld := ⟨Reg.GPIO_OUT, 0, 24⟩
def F.GPIO_SET_SET : Fld := ⟨Reg.GPIO_SET, 0, 24⟩
def F.GPIO_CLR_CLR : Fld := ⟨Reg.GPIO_CLR, 0, 24⟩
def F.GPIO_TGL_TGL : Fld := ⟨Reg.GPIO_TGL, 0, 24⟩
def F.GPIO_IN_IN : Fld := ⟨Reg.GPIO_IN, 0, 24⟩
def F.GPIO_PUP_PUP : Fld := ⟨Reg.GPIO_PUP, 0, 24⟩
def F.GPIO_PDN_PDN : Fld := ⟨Reg.GPIO_PDN, 0, 24⟩
def F.GPIO_RISE_RISE : Fld := ⟨Reg.GPIO_RISE, 0, 24⟩
def F.GPIO_FALL_FALL : Fld := ⟨Reg.GPIO_FALL, 0, 24⟩
def F.GPIO_EDGE_EDGE : Fld := ⟨Reg.GPIO_EDGE, 0, 24⟩
def F.GPIO_EVT_EN : Fld := ⟨Reg.GPIO_EVT, 8, 1⟩
def F.GPIO_EVT_EVCH : Fld := ⟨Reg.GPIO_EVT, 0, 8⟩
def F.TMR_CTL_CLRQ (n : Nat) : Fld := ⟨Reg.TMR_CTL n, 3, 1⟩
def F.TMR_CTL_CAP (n : Nat) : Fld := ⟨Reg.TMR_CTL n, 2, 1⟩
def F.TMR_CTL_STOP (n : Nat) : Fld := ⟨Reg.TMR_CTL n, 1, 1⟩
def F.TMR_CTL_START (n : Nat) : Fld := ⟨Reg.TMR_CTL n, 0, 1⟩
def F.TMR_CFG_IENC (n : Nat) : Fld := ⟨Reg.TMR_CFG n, 31, 1⟩
def F.TMR_CFG_IENO (n : Nat) : Fld := ⟨Reg.TMR_CFG n, 30, 1⟩
def F.TMR_CFG_IENM (n : Nat) : Fld := ⟨Reg.TMR_CFG n, 29, 1⟩
def F.TMR_CFG_CAPSRC (n : Nat) : Fld := ⟨Reg.TMR_CFG n, 24, 3⟩
def F.TMR_CFG_PINIV (n : Nat) : Fld := ⟨Reg.TMR_CFG n, 23, 1⟩
def F.TMR_CFG_PINOUT (n : Nat) : Fld := ⟨Reg.TMR_CFG n, 22, 1⟩
def F.TMR_CFG_OACT (n : Nat) : Fld := ⟨Reg.TMR_CFG n, 20, 2⟩
def F.TMR_CFG_MACT (n : Nat) : Fld := ⟨Reg.TMR_CFG n, 18, 2⟩
def F.TMR_CFG_ONESHOT (n : Nat) : Fld := ⟨Reg.TMR_CFG n, 17, 1⟩
def F.TMR_CFG_PERIOD (n : Nat) : Fld := ⟨Reg.TMR_CFG n, 16, 1⟩
def F.TMR_CFG_PRE (n : Nat) : Fld := ⟨Reg.TMR_CFG n, 8, 8⟩
def F.TMR_CFG_SRC (n : Nat) : Fld := ⟨Reg.TMR_CFG n, 0, 3⟩
def F.TMR_CNT_LO_CNT_L (n : Nat) : Fld := ⟨Reg.TMR_CNT_LO n, 0, 32⟩
def F.TMR_CNT_HI_CNT_H (n : Nat) : Fld := ⟨Reg.TMR_CNT_HI n, 0, 16⟩
def F.TMR_CMP_LO_CMP_L (n : Nat) : Fld := ⟨Reg.TMR_CMP_LO n, 0, 32⟩
def F.TMR_CMP_HI_CMP_H (n : Nat) : Fld := ⟨Reg.TMR_CMP_HI n, 0, 16⟩
def F.TMR_CAP_LO_CAP_L (n : Nat) : Fld := ⟨Reg.TMR_CAP_LO n, 0, 32⟩
def F.TMR_CAP_HI_VALID (n : Nat) : Fld := ⟨Reg.TMR_CAP_HI n, 31, 1⟩
def F.TMR_CAP_HI_CAP_H (n : Nat) : Fld := ⟨Reg.TMR_CAP_HI n, 0, 16⟩
def F.TMR_STAT_PIN (n : Nat) : Fld := ⟨Reg.TMR_STAT n, 12, 1⟩
def F.TMR_STAT_QCNT (n : Nat) : Fld := ⟨Reg.TMR_STAT n, 8, 3⟩
def F.TMR_STAT_CAPOVF (n : Nat) : Fld := ⟨Reg.TMR_STAT n, 4, 1⟩
def F.TMR_STAT_CAPT (n : Nat) : Fld := ⟨Reg.TMR_STAT n, 3, 1⟩
def F.TMR_STAT_OVF (n : Nat) : Fld := ⟨Reg.TMR_STAT n, 2, 1⟩
def F.TMR_STAT_MATCH (n : Nat) : Fld := ⟨Reg.TMR_STAT n, 1, 1⟩
def F.TMR_STAT_RUNNING (n : Nat) : Fld := ⟨Reg.TMR_STAT n, 0, 1⟩
def F.RTC_CTL_DSTSUB : Fld := ⟨Reg.RTC_CTL, 4, 1⟩
def F.RTC_CTL_DSTADD : Fld := ⟨Reg.RTC_CTL, 3, 1⟩
def F.RTC_CTL_ALMEN : Fld := ⟨Reg.RTC_CTL, 1, 1⟩
def F.RTC_CTL_HALT : Fld := ⟨Reg.RTC_CTL, 0, 1⟩
def F.RTC_TIME_SUB : Fld := ⟨Reg.RTC_TIME, 17, 15⟩
def F.RTC_TIME_SOD : Fld := ⟨Reg.RTC_TIME, 0, 17⟩
def F.RTC_DATE_YEAR : Fld := ⟨Reg.RTC_DATE, 16, 14⟩
def F.RTC_DATE_MONTH : Fld := ⟨Reg.RTC_DATE, 8, 4⟩
def F.RTC_DATE_DAY : Fld := ⟨Reg.RTC_DATE, 3, 5⟩
def F.RTC_DATE_WDAY : Fld := ⟨Reg.RTC_DATE, 0, 3⟩
def F.RTC_TRIM_TRIM : Fld := ⟨Reg.RTC_TRIM, 0, 8⟩
def F.RTC_ALARM_DAYEN : Fld := ⟨Reg.RTC_ALARM, 31, 1⟩
def F.RTC_ALARM_DAY : Fld := ⟨Reg.RTC_ALARM, 24, 5⟩
def F.RTC_ALARM_SOD : Fld := ⟨Reg.RTC_ALARM, 0, 17⟩
def F.RTC_STAT_HALTED : Fld := ⟨Reg.RTC_STAT, 6, 1⟩
def F.RTC_STAT_WRREF : Fld := ⟨Reg.RTC_STAT, 5, 1⟩
def F.RTC_STAT_DST : Fld := ⟨Reg.RTC_STAT, 4, 1⟩
def F.RTC_STAT_DSTREF : Fld := ⟨Reg.RTC_STAT, 3, 1⟩
def F.RTC_STAT_LOSTPWR : Fld := ⟨Reg.RTC_STAT, 2, 1⟩
def F.RTC_STAT_OSCFAIL : Fld := ⟨Reg.RTC_STAT, 1, 1⟩
def F.RTC_STAT_ALARM : Fld := ⟨Reg.RTC_STAT, 0, 1⟩
def F.IRQ_SRC_REQ (n : Nat) : Fld := ⟨Reg.IRQ_SRC n, 31, 1⟩
def F.IRQ_SRC_PEND (n : Nat) : Fld := ⟨Reg.IRQ_SRC n, 30, 1⟩
def F.IRQ_SRC_ACT (n : Nat) : Fld := ⟨Reg.IRQ_SRC n, 29, 1⟩
def F.IRQ_SRC_KIND (n : Nat) : Fld := ⟨Reg.IRQ_SRC n, 28, 1⟩
def F.IRQ_SRC_CNT (n : Nat) : Fld := ⟨Reg.IRQ_SRC n, 24, 4⟩
def F.IRQ_SRC_CTX (n : Nat) : Fld := ⟨Reg.IRQ_SRC n, 8, 1⟩
def F.IRQ_SRC_EN (n : Nat) : Fld := ⟨Reg.IRQ_SRC n, 3, 1⟩
def F.IRQ_SRC_PRIO (n : Nat) : Fld := ⟨Reg.IRQ_SRC n, 0, 3⟩
def F.IRQ_CLAIM_CNT (b : Nat) : Fld := ⟨Reg.IRQ_CLAIM b, 12, 4⟩
def F.IRQ_CLAIM_ID (b : Nat) : Fld := ⟨Reg.IRQ_CLAIM b, 0, 9⟩
def F.IRQ_COMPLETE_ID (b : Nat) : Fld := ⟨Reg.IRQ_COMPLETE b, 0, 9⟩
def F.IRQ_CTL_GDIS (b : Nat) : Fld := ⟨Reg.IRQ_CTL b, 0, 1⟩
def F.IRQ_STAT_SEEN (b : Nat) : Fld := ⟨Reg.IRQ_STAT b, 1, 1⟩
def F.IRQ_STAT_BALL (b : Nat) : Fld := ⟨Reg.IRQ_STAT b, 0, 1⟩
def F.IRQ_HOLD_RUN (n : Nat) : Fld := ⟨Reg.IRQ_HOLD n, 31, 1⟩
def F.IRQ_HOLD_US (n : Nat) : Fld := ⟨Reg.IRQ_HOLD n, 0, 16⟩
def F.IRQ_AONSEL_WAKE (n : Nat) : Fld := ⟨Reg.IRQ_AONSEL n, 17, 1⟩
def F.IRQ_AONSEL_CTX (n : Nat) : Fld := ⟨Reg.IRQ_AONSEL n, 16, 1⟩
def F.IRQ_AONSEL_SRC (n : Nat) : Fld := ⟨Reg.IRQ_AONSEL n, 0, 9⟩
def F.IRQ_AONPEND_PEND : Fld := ⟨Reg.IRQ_AONPEND, 0, 32⟩
def F.IRQ_PEND_PEND (n : Nat) : Fld := ⟨Reg.IRQ_PEND n, 0, 32⟩
def F.FLC_CMD_OP : Fld := ⟨Reg.FLC_CMD, 0, 4⟩
def F.FLC_ADDR_OFFSET : Fld := ⟨Reg.FLC_ADDR, 0, 23⟩
def F.FLC_SRC_SRC : Fld := ⟨Reg.FLC_SRC, 0, 32⟩
def F.FLC_LEN_UNITS : Fld := ⟨Reg.FLC_LEN, 0, 9⟩
def F.FLC_STAT_LOCKOUT : Fld := ⟨Reg.FLC_STAT, 12, 1⟩
def F.FLC_STAT_UNLOCKED : Fld := ⟨Reg.FLC_STAT, 11, 1⟩
def F.FLC_STAT_REFUSED : Fld := ⟨Reg.FLC_STAT, 10, 1⟩
def F.FLC_STAT_ERR : Fld := ⟨Reg.FLC_STAT, 9, 1⟩
def F.FLC_STAT_LOGBUSY : Fld := ⟨Reg.FLC_STAT, 8, 1⟩
def F.FLC_STAT_BUSY : Fld := ⟨Reg.FLC_STAT, 4, 1⟩
def F.FLC_STAT_RESULT : Fld := ⟨Reg.FLC_STAT, 0, 4⟩
def F.FLC_PWDIN_WORD : Fld := ⟨Reg.FLC_PWDIN, 0, 16⟩
def F.FLC_PROT_PROT (n : Nat) : Fld := ⟨Reg.FLC_PROT n, 0, 32⟩
def F.FLC_TIMING_PW : Fld := ⟨Reg.FLC_TIMING, 0, 5⟩
def F.FLC_ECCCOR_COUNT : Fld := ⟨Reg.FLC_ECCCOR, 0, 16⟩
def F.FLC_ECCADDR_ADDR : Fld := ⟨Reg.FLC_ECCADDR, 0, 23⟩
def F.FLC_LOGADD_DETAIL : Fld := ⟨Reg.FLC_LOGADD, 0, 32⟩
def F.FLC_LOGSTAT_DROP : Fld := ⟨Reg.FLC_LOGSTAT, 24, 8⟩
def F.FLC_LOGSTAT_SEQ : Fld := ⟨Reg.FLC_LOGSTAT, 0, 24⟩
def F.FLC_ABORT_VALID : Fld := ⟨Reg.FLC_ABORT, 31, 1⟩
def F.FLC_ABORT_OVF : Fld := ⟨Reg.FLC_ABORT, 30, 1⟩
def F.FLC_ABORT_CAUSE : Fld := ⟨Reg.FLC_ABORT, 28, 2⟩
def F.FLC_ABORT_OP : Fld := ⟨Reg.FLC_ABORT, 24, 4⟩
def F.FLC_ABORT_SECTOR : Fld := ⟨Reg.FLC_ABORT, 8, 11⟩
def F.FLC_ABORT_UNIT : Fld := ⟨Reg.FLC_ABORT, 0, 8⟩
def F.CAL_STAT_FLAG : Fld := ⟨Reg.CAL_STAT, 8, 1⟩
def F.CAL_STAT_CAUSE : Fld := ⟨Reg.CAL_STAT, 0, 3⟩
def F.AGE_CFG_EN : Fld := ⟨Reg.AGE_CFG, 16, 4⟩
def F.AGE_CFG_INTERVAL : Fld := ⟨Reg.AGE_CFG, 8, 8⟩
def F.AGE_CFG_MODE : Fld := ⟨Reg.AGE_CFG, 0, 2⟩
def F.AGE_CMD_REJECT : Fld := ⟨Reg.AGE_CMD, 2, 1⟩
def F.AGE_CMD_APPROVE : Fld := ⟨Reg.AGE_CMD, 1, 1⟩
def F.AGE_CMD_PLAN : Fld := ⟨Reg.AGE_CMD, 0, 1⟩
def F.AGE_STAT_SKIPPED : Fld := ⟨Reg.AGE_STAT, 8, 1⟩
def F.AGE_STAT_RESULT : Fld := ⟨Reg.AGE_STAT, 4, 3⟩
def F.AGE_STAT_STATE : Fld := ⟨Reg.AGE_STAT, 0, 2⟩
def F.AGE_PROP_OP_PROP (n : Nat) : Fld := ⟨Reg.AGE_PROP_OP n, 0, 25⟩
def F.AGE_PROP_TX_STEPS : Fld := ⟨Reg.AGE_PROP_TX, 0, 4⟩
def F.AGE_PROP_VCO_PROP : Fld := ⟨Reg.AGE_PROP_VCO, 0, 32⟩
def F.AGE_PROP_PW_PW : Fld := ⟨Reg.AGE_PROP_PW, 0, 5⟩
def F.AGE_PADET_LAUNCHES : Fld := ⟨Reg.AGE_PADET, 16, 16⟩
def F.AGE_PADET_EXCESS : Fld := ⟨Reg.AGE_PADET, 0, 8⟩
def F.AGE_VCO_HIHEAD : Fld := ⟨Reg.AGE_VCO, 8, 8⟩
def F.AGE_VCO_LOHEAD : Fld := ⟨Reg.AGE_VCO, 0, 8⟩
def F.AGE_FPULSE_UNITS : Fld := ⟨Reg.AGE_FPULSE, 8, 24⟩
def F.AGE_FPULSE_MEAN : Fld := ⟨Reg.AGE_FPULSE, 0, 8⟩
def F.AGE_SND_VALID (n : Nat) : Fld := ⟨Reg.AGE_SND n, 31, 1⟩
def F.AGE_SND_DEG (n : Nat) : Fld := ⟨Reg.AGE_SND n, 0, 16⟩
def F.TMP_DIE_TEMP : Fld := ⟨Reg.TMP_DIE, 0, 8⟩
def F.WKR_CTL_TOL : Fld := ⟨Reg.WKR_CTL, 1, 2⟩
def F.WKR_CTL_EN : Fld := ⟨Reg.WKR_CTL, 0, 1⟩
def F.WKR_CODE_CODE : Fld := ⟨Reg.WKR_CODE, 0, 16⟩
def F.WKR_STAT_MATCH : Fld := ⟨Reg.WKR_STAT, 0, 1⟩
def F.WKR_COUNT_COUNT : Fld := ⟨Reg.WKR_COUNT, 0, 8⟩

/-! ## Rows, one list per block (R17) -/

/-- The registers of block 0. -/
def blockRows0 : List RegRow := [
  ⟨Reg.SYS_ID, 4, 1, 4, 1, .single, 0, 0, 0, 0, 0, 0, 0, 0, 0xF1A00048⟩,
  ⟨Reg.SYS_REV, 4, 1, 4, 1, .single, 0, 0, 0, 0, 0, 0, 0, 0, 0x100⟩,
  ⟨Reg.SYS_UID_LO, 4, 1, 4, 1, .single, 0, 0, 0, 0, 0, 0, 0, 0, 0⟩,
  ⟨Reg.SYS_UID_HI, 4, 1, 4, 1, .single, 0, 0, 0, 0, 0, 0, 0, 0, 0⟩,
  ⟨Reg.SYS_READY, 4, 1, 4, 1, .single, 0, 0, 0, 0, 0, 0, 0, 0, 0x880001⟩,
  ⟨Reg.SYS_READY_ENG_LO, 4, 1, 4, 1, .single, 0, 0, 0, 0, 0, 0, 0, 0, 0⟩,
  ⟨Reg.SYS_READY_ENG_HI, 4, 1, 4, 1, .single, 0, 0, 0, 0, 0, 0, 0, 0, 0⟩,
  ⟨Reg.SYS_BLKLOCK, 4, 1, 4, 1, .single, 0, 0, 0, 0xFFFFFF, 0, 0, 0, 0, 0⟩,
  ⟨Reg.SYS_AON_BUSY, 4, 1, 4, 1, .single, 0, 0, 0, 0, 0, 0, 0, 0, 0⟩,
  ⟨Reg.SYS_STAGE_CTL 0, 4, 1, 4, 1, .world, 0, 0, 0, 3, 0, 4, 0, 0, 0⟩,
  ⟨Reg.SYS_STAGE_STAT 0, 4, 1, 4, 1, .world, 0, 0, 0x100, 0, 0, 0, 0, 0, 0⟩,
  ⟨Reg.SYS_EPOCH, 4, 1, 4, 1, .single, 0, 0, 0, 0, 0, 0, 0, 0, 0⟩,
  ⟨Reg.SYS_WLD_CTL, 4, 1, 4, 1, .single, 0, 0, 0, 1, 0, 0, 0, 0, 0⟩,
  ⟨Reg.SYS_WLD_BLK, 4, 1, 4, 1, .single, 0xFFFFFF, 0, 0, 0, 0, 0, 0, 0, 0⟩,
  ⟨Reg.SYS_WLD_ENG_LO, 4, 1, 4, 1, .single, 0xFFFFFFFF, 0, 0, 0, 0, 0, 0, 0, 0⟩,
  ⟨Reg.SYS_WLD_ENG_HI, 4, 1, 4, 1, .single, 0xFFFFFFFF, 0, 0, 0, 0, 0, 0, 0, 0⟩,
  ⟨Reg.SYS_WVIOL_ADDR, 4, 1, 4, 1, .single, 0, 0, 0, 0, 0, 0, 0, 0, 0⟩,
  ⟨Reg.SYS_WVIOL_INFO, 4, 1, 4, 1, .single, 0, 0, 0xC0000000, 0, 0, 0, 0, 0, 0⟩,
  ⟨Reg.SYS_RGN_BASE 0, 0x10, 32, 4, 1, .single, 0xFFFFF000, 0, 0, 0, 0, 0, 0, 0, 0⟩,
  ⟨Reg.SYS_RGN_LIM 0, 0x10, 32, 4, 1, .single, 0xFFFFF000, 0, 0, 0, 0, 0, 0, 0, 0⟩,
  ⟨Reg.SYS_RGN_ATTR 0, 0x10, 32, 4, 1, .single, 3, 0, 0, 0, 0, 0, 0, 0, 0⟩]

/-- The registers of block 1. -/
def blockRows1 : List RegRow := [
  ⟨Reg.PWR_REQ, 4, 1, 4, 1, .single, 0, 0, 0, 0, 0, 0x317, 0, 0, 0⟩,
  ⟨Reg.PWR_STAT, 4, 1, 4, 1, .single, 0, 0, 0x1C00, 0, 0, 0, 0, 0, 0⟩,
  ⟨Reg.PWR_CFG, 4, 1, 4, 1, .single, 1, 0, 0, 0, 0, 0, 0, 0, 0⟩,
  ⟨Reg.PWR_OP 0, 4, 4, 4, 1, .single, 0x1FF03FF, 0, 0, 0, 0, 0, 0, 0x1FF03FF, 0x1900384⟩,
  ⟨Reg.PWR_BIAS 0, 4, 5, 4, 1, .single, 0xFF01, 0, 0, 0, 0, 0, 0, 0xFF01, 0⟩,
  ⟨Reg.PWR_BLKRST, 4, 1, 4, 1, .single, 0, 0, 0, 0, 0, 0xFFFFFF, 0, 0, 0⟩,
  ⟨Reg.PWR_RST, 4, 1, 4, 1, .single, 0, 0, 0, 0, 0, 0xFF, 0, 0, 0⟩,
  ⟨Reg.PWR_PAD, 4, 1, 4, 1, .single, 0, 0, 0, 0, 0, 1, 0, 0, 0⟩,
  ⟨Reg.PWR_THERM, 4, 1, 4, 1, .single, 0, 0, 0, 0, 0, 0, 0, 0, 0⟩,
  ⟨Reg.PWR_SUPPLY, 4, 1, 4, 1, .single, 0, 0, 8, 0, 0, 0, 0, 0, 0⟩,
  ⟨Reg.PWR_RET, 4, 1, 4, 1, .single, 0xF, 0, 0, 0, 0, 0, 0, 0, 0xF⟩,
  ⟨Reg.PWR_WAKEEN, 4, 1, 4, 1, .single, 0xF, 0, 0, 0, 0, 0, 0, 0, 0⟩,
  ⟨Reg.PWR_WAKECAUSE, 4, 1, 4, 1, .single, 0, 0, 0x3F, 0, 0, 0, 0, 0, 0⟩,
  ⟨Reg.PWR_RSTCAUSE, 4, 1, 4, 1, .single, 0, 0, 0x1FD, 0, 0, 0, 0, 0, 1⟩,
  ⟨Reg.CLK_STAT, 4, 1, 4, 1, .single, 0, 0, 0, 0, 0, 0, 0, 0, 0⟩]

/-- The registers of block 2. -/
def blockRows2 : List RegRow := [
  ⟨Reg.HSP_CFG 0, 4, 1, 4, 1, .select, 0xF03, 0, 0, 0, 0, 0, 0, 0, 0x400⟩,
  ⟨Reg.HSP_STATUS 0, 4, 1, 4, 1, .select, 0, 0, 0xFF, 0, 0, 0, 0, 0, 0⟩,
  ⟨Reg.HSP_ERRADDR 0, 4, 1, 4, 1, .select, 0, 0, 0, 0, 0, 0, 0, 0, 0⟩]

/-- The registers of block 3. -/
def blockRows3 : List RegRow := [
  ⟨Reg.MGB_CFG, 4, 1, 4, 1, .single, 1, 0, 0, 0, 0, 0, 0, 0, 0⟩,
  ⟨Reg.MGB_ADDR, 4, 1, 4, 1, .single, 0, 0, 0, 0, 0, 0, 0, 0, 0⟩,
  ⟨Reg.MGB_INCARN, 4, 1, 4, 1, .single, 0, 0, 0, 0, 0, 0, 0, 0, 0⟩,
  ⟨Reg.MGB_ATTN, 4, 1, 4, 1, .single, 0x80FF037F, 0, 0, 0, 0, 0, 0, 0, 0xA0000⟩,
  ⟨Reg.MGB_ATTNREQ, 4, 1, 4, 1, .single, 0, 0, 0, 0, 0, 0x7F, 0, 0, 0⟩,
  ⟨Reg.MGB_ATTNSTAT, 4, 1, 4, 1, .single, 0, 0, 0, 0, 0, 0, 0, 0, 2⟩,
  ⟨Reg.MGB_HANG, 4, 1, 4, 1, .single, 0, 0, 0, 0, 0xFFFF, 0, 0, 0, 0⟩,
  ⟨Reg.MGB_ARBLOST, 4, 1, 4, 1, .single, 0, 0, 0, 0, 0xFFFF, 0, 0, 0, 0⟩]

/-- The registers of block 4. -/
def blockRows4 : List RegRow := [
  ⟨Reg.ETH_CTL 0, 0x10000, 2, 4, 1, .single, 0x3FF, 0, 0, 0, 0, 0, 0, 0, 8⟩,
  ⟨Reg.ETH_STAT 0, 0x10000, 2, 4, 1, .single, 0, 0, 0, 0, 0, 0, 0, 0, 0⟩,
  ⟨Reg.ETH_MAC_LO 0, 0x10000, 2, 4, 1, .single, 0xFFFFFFFF, 0, 0, 0, 0, 0, 0, 0, 0⟩,
  ⟨Reg.ETH_MAC_HI 0, 0x10000, 2, 4, 1, .single, 0xFFFF, 0, 0, 0, 0, 0, 0, 0, 0⟩,
  ⟨Reg.ETH_TXBASE 0, 0x10000, 2, 4, 1, .single, 0xFFFFFFFF, 0, 0, 0, 0, 0, 0, 0, 0⟩,
  ⟨Reg.ETH_TXCNT 0, 0x10000, 2, 4, 1, .single, 0x3FF, 0, 0, 0, 0, 0, 0, 0, 0⟩,
  ⟨Reg.ETH_TXPOLL 0, 0x10000, 2, 4, 1, .single, 0, 0, 0, 0, 0, 0x3FF, 0, 0, 0⟩,
  ⟨Reg.ETH_TXIDX 0, 0x10000, 2, 4, 1, .single, 0, 0, 0, 0, 0, 0, 0, 0, 0⟩,
  ⟨Reg.ETH_RXBASE 0, 0x10000, 2, 4, 1, .single, 0xFFFFFFFF, 0, 0, 0, 0, 0, 0, 0, 0⟩,
  ⟨Reg.ETH_RXCNT 0, 0x10000, 2, 4, 1, .single, 0x3FF, 0, 0, 0, 0, 0, 0, 0, 0⟩,
  ⟨Reg.ETH_RXIDX 0, 0x10000, 2, 4, 1, .single, 0, 0, 0, 0, 0, 0, 0, 0, 0⟩,
  ⟨Reg.ETH_EVT 0, 0x10000, 2, 4, 1, .single, 0x3FFFF, 0, 0, 0, 0, 0, 0, 0, 0⟩,
  ⟨Reg.ETH_RXFRAMES 0, 0x10000, 2, 4, 1, .single, 0, 0, 0, 0, 0xFFFF, 0, 0, 0, 0⟩,
  ⟨Reg.ETH_TXFRAMES 0, 0x10000, 2, 4, 1, .single, 0, 0, 0, 0, 0xFFFF, 0, 0, 0, 0⟩,
  ⟨Reg.ETH_RXERR 0, 0x10000, 2, 4, 1, .single, 0, 0, 0, 0, 0xFFFF, 0, 0, 0, 0⟩,
  ⟨Reg.ETH_RXDROP 0, 0x10000, 2, 4, 1, .single, 0, 0, 0, 0, 0xFFFF, 0, 0, 0, 0⟩,
  ⟨Reg.ETH_MDIO 0, 0x10000, 2, 4, 1, .single, 0x43FFFFFF, 0, 0, 0x80000000, 0, 0, 0, 0, 0⟩,
  ⟨Reg.ETH_PTP_NS, 4, 1, 4, 1, .single, 0, 0, 0, 0, 0, 0, 0, 0, 0⟩,
  ⟨Reg.ETH_PTP_SLO, 4, 1, 4, 1, .single, 0, 0, 0, 0, 0, 0, 0, 0, 0⟩,
  ⟨Reg.ETH_PTP_SHI, 4, 1, 4, 1, .single, 0, 0, 0, 0, 0, 0, 0, 0, 0⟩,
  ⟨Reg.ETH_PTP_INC, 4, 1, 4, 1, .single, 0xFFFFFFFF, 0, 0, 0, 0, 0, 0, 0, 0x8000000⟩,
  ⟨Reg.ETH_PTP_SETNS, 4, 1, 4, 1, .single, 0x3FFFFFFF, 0, 0, 0, 0, 0, 0, 0, 0⟩,
  ⟨Reg.ETH_PTP_SETS_LO, 4, 1, 4, 1, .single, 0xFFFFFFFF, 0, 0, 0, 0, 0, 0, 0, 0⟩,
  ⟨Reg.ETH_PTP_SETS_HI, 4, 1, 4, 1, .single, 0xFFFF, 0, 0, 0, 0, 0, 0, 0, 0⟩,
  ⟨Reg.ETH_PTP_ADJ, 4, 1, 4, 1, .single, 0, 0, 0, 0, 0, 0xFFFFFFFF, 0, 0, 0⟩,
  ⟨Reg.ETH_PTP_SF_NS, 4, 1, 4, 1, .single, 0, 0, 0, 0, 0, 0, 0, 0, 0⟩,
  ⟨Reg.ETH_PTP_SF_SLO, 4, 1, 4, 1, .single, 0, 0, 0, 0, 0, 0, 0, 0, 0⟩,
  ⟨Reg.ETH_PTP_SF_SHI, 4, 1, 4, 1, .single, 0, 0, 0, 0, 0, 0, 0, 0, 0⟩,
  ⟨Reg.ETH_PTP_SF_SFN, 4, 1, 4, 1, .single, 0, 0, 0, 0, 0, 0, 0, 0, 0⟩]

/-- The registers of block 6. -/
def blockRows6 : List RegRow := [
  ⟨Reg.ENG_CTL 0, 0x400, 64, 4, 1, .single, 0, 0, 0, 0, 0, 0xF, 0, 0, 0⟩,
  ⟨Reg.ENG_CFG 0, 0x400, 64, 4, 1, .single, 0x307FF, 0, 0, 0, 0, 0, 0, 0, 0x10000⟩,
  ⟨Reg.ENG_STAT 0, 0x400, 64, 4, 1, .single, 0, 0, 0x3000, 0, 0, 0, 0, 0, 0⟩,
  ⟨Reg.ENG_PC 0, 0x400, 64, 4, 1, .single, 0, 0, 0, 0, 0, 0, 0, 0, 0⟩,
  ⟨Reg.ENG_NX 0, 0x400, 64, 4, 1, .single, 0, 0, 0, 0, 0, 0, 0, 0, 0x2001⟩,
  ⟨Reg.ENG_WDT 0, 0x400, 64, 4, 1, .single, 0xFFFF, 0, 0, 0, 0, 0, 0, 0, 0⟩,
  ⟨Reg.ENG_TB 0 0, 0x400, 64, 4, 8, .single, 0, 0, 0, 0, 0, 0, 0, 0, 0⟩,
  ⟨Reg.ENG_REVOKE 0, 0x400, 64, 4, 1, .single, 0, 0, 0, 0, 0xFFFF, 0, 0, 0, 0⟩]

/-- The registers of block 7. -/
def blockRows7 : List RegRow := [
  ⟨Reg.EVC_CH 0, 4, 256, 4, 1, .single, 0x70FFC07F, 0, 0, 0x80000000, 0, 0, 0, 0, 0x20FFC07F⟩,
  ⟨Reg.EVC_DROP 0, 4, 256, 4, 1, .single, 0, 0, 0, 0, 0xFFFF, 0, 0, 0, 0⟩,
  ⟨Reg.EVC_FIRE, 4, 1, 4, 1, .single, 0, 0, 0, 0, 0, 0xFF, 0, 0, 0⟩,
  ⟨Reg.EVC_STRAY, 4, 1, 4, 1, .single, 0, 0, 0xC0000000, 0, 0, 0, 0, 0, 0⟩,
  ⟨Reg.EVC_HPEND 0, 4, 8, 4, 1, .single, 0, 0, 0xFFFFFFFF, 0, 0, 0, 0, 0, 0⟩,
  ⟨Reg.LCK_ACQ, 4, 1, 4, 1, .single, 0, 0, 0, 0, 0, 0x3F, 0, 0, 0⟩,
  ⟨Reg.LCK_RES 0, 4, 1, 4, 1, .requester, 0, 0, 0, 0, 0, 0, 0, 0, 0⟩,
  ⟨Reg.LCK_REL, 4, 1, 4, 1, .single, 0, 0, 0, 0, 0, 0x3F, 0, 0, 0⟩,
  ⟨Reg.LCK_CLR, 4, 1, 4, 1, .single, 0, 0, 0, 0, 0, 0x3F, 0, 0, 0⟩,
  ⟨Reg.LCK_S 0, 4, 64, 4, 1, .single, 0x80, 0, 0, 0, 0, 0, 0, 0, 0⟩]

/-- The registers of block 8. -/
def blockRows8 : List RegRow := [
  ⟨Reg.RXC_CTL, 4, 1, 4, 1, .single, 0x301, 0, 0, 0, 0, 0, 0x301, 0, 0⟩,
  ⟨Reg.RXC_CMD, 4, 1, 4, 1, .single, 0, 0, 0, 0, 0, 3, 0, 0, 0⟩,
  ⟨Reg.RXC_ACTIVE, 4, 1, 4, 1, .single, 0, 0, 0, 0, 0, 0, 0, 0, 0⟩,
  ⟨Reg.RXC_FREQ 0, 4, 2, 4, 1, .single, 0xFFFFF, 0, 0, 0, 0, 0, 0xFFFFF, 0, 0⟩,
  ⟨Reg.RXC_AFREQ 0, 4, 2, 4, 1, .single, 0, 0, 0, 0, 0, 0, 0, 0, 0⟩,
  ⟨Reg.RXC_GAIN 0, 4, 2, 4, 1, .single, 0x1F1F01FF, 0, 0, 0, 0, 0, 0x1F1F01FF, 0, 0x180C00BB⟩,
  ⟨Reg.RXC_STAT 0, 4, 2, 4, 1, .single, 0, 0, 0, 0, 0, 0, 0, 0, 0xA60B⟩,
  ⟨Reg.RXC_CLIP 0, 4, 2, 4, 1, .single, 0, 0, 0, 0, 0xFFFF, 0, 0, 0, 0⟩,
  ⟨Reg.RXC_ERR, 4, 1, 4, 1, .single, 0, 0, 3, 0, 0, 0, 0, 0, 0⟩,
  ⟨Reg.RXC_DC 0, 4, 2, 4, 1, .single, 0, 0, 0, 0, 0, 0, 0, 0, 0⟩,
  ⟨Reg.RXC_TRIM 0, 4, 2, 4, 1, .single, 0xFFFFFF, 0, 0, 0, 0, 0, 0, 0xFFFFFF, 0⟩]

/-- The registers of block 9. -/
def blockRows9 : List RegRow := [
  ⟨Reg.LAN_CFG 0, 0x200, 96, 4, 1, .single, 0xFF07, 0, 0, 0, 0, 0, 0xFF07, 0, 0⟩,
  ⟨Reg.LAN_SRCH 0 0, 0x200, 96, 4, 4, .single, 0x73F7F, 0, 0, 0, 0, 0, 0x73F7F, 0, 0⟩,
  ⟨Reg.LAN_SYNC 0 0, 0x200, 96, 4, 4, .single, 0xFFFFFFFF, 0, 0, 0, 0, 0, 0xFFFFFFFF, 0, 0⟩,
  ⟨Reg.LAN_STAT 0, 0x200, 96, 4, 1, .single, 0, 0, 0, 0, 0, 0, 0, 0, 0⟩,
  ⟨Reg.LAN_RSSI 0, 0x200, 96, 4, 1, .single, 0, 0, 0, 0, 0, 0, 0, 0, 0x8080⟩,
  ⟨Reg.LAN_AFC 0, 0x200, 96, 4, 1, .single, 0, 0, 0, 0, 0, 0, 0, 0, 0⟩,
  ⟨Reg.LAN_FD0 0, 0x200, 96, 4, 1, .single, 0, 0, 0, 0, 0, 0, 0, 0, 0⟩,
  ⟨Reg.LAN_FD1 0, 0x200, 96, 4, 1, .single, 0, 0, 0, 0, 0, 0, 0, 0, 0⟩,
  ⟨Reg.LAN_TS_LO 0, 0x200, 96, 4, 1, .single, 0, 0, 0, 0, 0, 0, 0, 0, 0⟩,
  ⟨Reg.LAN_TS_HI 0, 0x200, 96, 4, 1, .single, 0, 0, 0, 0, 0, 0, 0, 0, 0⟩,
  ⟨Reg.LAN_CTL 0, 0x200, 96, 4, 1, .single, 0, 0, 0, 0, 0, 3, 0, 0, 0⟩,
  ⟨Reg.LAN_HDRERR 0, 0x200, 96, 4, 1, .single, 0, 0, 0, 0, 0xFFFF, 0, 0, 0, 0⟩,
  ⟨Reg.LAN_FRAMES 0, 0x200, 96, 4, 1, .single, 0, 0, 0, 0, 0xFFFF, 0, 0, 0, 0⟩,
  ⟨Reg.LAN_FCSERR 0, 0x200, 96, 4, 1, .single, 0, 0, 0, 0, 0xFFFF, 0, 0, 0, 0⟩,
  ⟨Reg.LAN_DECERR 0, 0x200, 96, 4, 1, .single, 0, 0, 0, 0, 0xFFFF, 0, 0, 0, 0⟩,
  ⟨Reg.LAN_MISSED 0, 0x200, 96, 4, 1, .single, 0, 0, 0, 0, 0xFFFF, 0, 0, 0, 0⟩,
  ⟨Reg.LAN_PREEMPT 0, 0x200, 96, 4, 1, .single, 0, 0, 0, 0, 0xFFFF, 0, 0, 0, 0⟩,
  ⟨Reg.LAN_DIVDROP 0, 0x200, 96, 4, 1, .single, 0, 0, 0, 0, 0xFFFF, 0, 0, 0, 0⟩,
  ⟨Reg.LAN_ABORT 0, 0x200, 96, 4, 1, .single, 0, 0, 0, 0, 0xFFFF, 0, 0, 0, 0⟩,
  ⟨Reg.LAN_RDY 0, 4, 3, 4, 1, .single, 0, 0, 0, 0, 0, 0, 0, 0, 0⟩]

/-- The registers of block 10. -/
def blockRows10 : List RegRow := [
  ⟨Reg.LDP_CFG, 4, 1, 4, 1, .single, 0x31F, 0, 0, 0, 0, 0, 0, 0, 0x14⟩,
  ⟨Reg.LDP_SUNCFG, 4, 1, 4, 1, .single, 3, 0, 0, 0, 0, 0, 3, 0, 0⟩,
  ⟨Reg.LDP_STAT, 4, 1, 4, 1, .single, 0, 0, 0, 0, 0, 0, 0, 0, 0⟩,
  ⟨Reg.LDP_CWOK, 4, 1, 4, 1, .single, 0, 0, 0, 0, 0xFFFF, 0, 0, 0, 0⟩,
  ⟨Reg.LDP_CWFAIL, 4, 1, 4, 1, .single, 0, 0, 0, 0, 0xFFFF, 0, 0, 0, 0⟩,
  ⟨Reg.LDP_LCTL, 4, 1, 4, 1, .single, 0xFF1, 0, 0, 0, 0, 0, 0xFF1, 0, 0x430⟩,
  ⟨Reg.LDP_LSTAT, 4, 1, 4, 1, .single, 0, 0, 3, 0, 0, 0, 0, 0, 0⟩,
  ⟨Reg.LDP_CEIL 0, 4, 8, 4, 1, .single, 0xFF, 0, 0, 0, 0, 0, 0xFF, 0, 0⟩,
  ⟨Reg.LDP_CHP 0, 4, 96, 4, 1, .single, 0x71, 0, 0, 0, 0, 0, 0x71, 0, 0x80000000⟩,
  ⟨Reg.LDP_HDR 0, 4, 96, 4, 1, .single, 0, 0, 0, 0, 0, 0, 0, 0, 0⟩,
  ⟨Reg.LDP_LST 0, 4, 96, 4, 1, .single, 0, 0, 0, 0, 0, 0, 0, 0, 0⟩]

/-- The registers of block 11. -/
def blockRows11 : List RegRow := [
  ⟨Reg.TXP_RAMP, 4, 1, 4, 1, .single, 0x3F3F1F, 0, 0, 0, 0, 0, 0x3F3F1F, 0, 0x20A08⟩,
  ⟨Reg.TXP_PWRLIM 0, 4, 2, 4, 1, .single, 0, 0x3F, 0, 0, 0, 0, 0, 0, 0x3F⟩,
  ⟨Reg.TXP_BACKOFF, 4, 1, 4, 1, .single, 0xF, 0, 0, 0, 0, 0, 0, 0, 0⟩,
  ⟨Reg.TXP_FEMIDLE, 4, 1, 4, 1, .single, 0, 0xFF, 0, 0, 0, 0, 0, 0, 0⟩,
  ⟨Reg.TXP_FEMTX 0, 4, 4, 4, 1, .single, 0, 0xFF, 0, 0, 0, 0, 0, 0, 0⟩,
  ⟨Reg.TXP_SYNC 0, 4, 4, 4, 1, .single, 0xFFFFFFFF, 0, 0, 0, 0, 0, 0, 0, 0⟩,
  ⟨Reg.TXP_STAT, 4, 1, 4, 1, .single, 0, 0, 0, 0, 0, 0, 0, 0, 0⟩,
  ⟨Reg.TXP_BADDESC, 4, 1, 4, 1, .single, 0, 0, 0xC0000000, 0, 0, 0, 0, 0, 0⟩,
  ⟨Reg.TXP_DET, 4, 1, 4, 1, .single, 0, 0, 0, 0, 0, 0, 0, 0, 0x80⟩,
  ⟨Reg.TXP_LAUNCHES, 4, 1, 4, 1, .single, 0, 0, 0, 0, 0xFFFF, 0, 0, 0, 0⟩,
  ⟨Reg.TXP_PTAB 0 0, 0x100, 2, 4, 64, .single, 0, 0xE000FFFF, 0, 0, 0, 0, 0, 0xFFFF, 0⟩,
  ⟨Reg.SYN_CTL, 4, 1, 4, 1, .single, 1, 0, 0, 0, 0, 0, 0, 0, 1⟩,
  ⟨Reg.SYN_CMD, 4, 1, 4, 1, .single, 0, 0, 0, 0, 0, 0xC00FFFFF, 0, 0, 0⟩,
  ⟨Reg.SYN_STAT, 4, 1, 4, 1, .single, 0, 0, 0, 0, 0, 0, 0, 0, 0⟩,
  ⟨Reg.SYN_ERR, 4, 1, 4, 1, .single, 0, 0, 7, 0, 0, 0, 0, 0, 0⟩,
  ⟨Reg.SYN_ERRKHZ, 4, 1, 4, 1, .single, 0, 0, 0, 0, 0, 0, 0, 0, 0⟩,
  ⟨Reg.SYN_VCOLIM, 4, 1, 4, 1, .single, 0xFFFFFFFF, 0, 0, 0, 0, 0, 0, 0xFFFFFFFF, 0x8340000⟩,
  ⟨Reg.SYN_HITS, 4, 1, 4, 1, .single, 0, 0, 0, 0, 0xFFFF, 0, 0, 0, 0⟩,
  ⟨Reg.SYN_MISSES, 4, 1, 4, 1, .single, 0, 0, 0, 0, 0xFFFF, 0, 0, 0, 0⟩,
  ⟨Reg.SYN_ENT 0, 4, 256, 4, 1, .single, 0, 0, 0, 0, 0, 0, 0, 0, 0⟩]

/-- The registers of block 12. -/
def blockRows12 : List RegRow := [
  ⟨Reg.SFM_CTL, 4, 1, 4, 1, .single, 3, 0, 0, 0, 0, 0, 2, 0, 0⟩,
  ⟨Reg.SFM_STAT, 4, 1, 4, 1, .single, 0, 0, 0xC, 0, 0, 0, 0, 0, 0⟩,
  ⟨Reg.SFM_ASN_LO, 4, 1, 4, 1, .single, 0, 0, 0, 0, 0, 0, 0, 0, 0⟩,
  ⟨Reg.SFM_ASN_HI, 4, 1, 4, 1, .single, 0, 0, 0, 0, 0, 0, 0, 0, 0⟩,
  ⟨Reg.SFM_ASNSET_LO, 4, 1, 4, 1, .single, 0xFFFFFFFF, 0, 0, 0, 0, 0, 0, 0, 0⟩,
  ⟨Reg.SFM_ASNSET_HI, 4, 1, 4, 1, .single, 0xFF, 0, 0, 0, 0, 0, 0, 0, 0⟩,
  ⟨Reg.SFM_ADJ, 4, 1, 4, 1, .single, 0, 0, 0, 0, 0, 0xFFFFFF, 0, 0, 0⟩,
  ⟨Reg.SFM_TIMING, 4, 1, 4, 1, .single, 0xFF01FF, 0, 0, 0, 0, 0, 0xFF01FF, 0, 0x140064⟩,
  ⟨Reg.SFM_CHBASE, 4, 1, 4, 1, .single, 0xFFFFF, 0, 0, 0, 0, 0, 0xFFFFF, 0, 0⟩,
  ⟨Reg.SFM_HOPCFG, 4, 1, 4, 1, .single, 0x3FF00FF, 0, 0, 0, 0, 0, 0x3FF00FF, 0, 0xC80000⟩,
  ⟨Reg.SFM_BCN, 4, 1, 4, 1, .single, 0xF0FFF7FF, 0, 0, 0, 0, 0, 0xF0FFF7FF, 0, 0⟩,
  ⟨Reg.SFM_BCNSKIP, 4, 1, 4, 1, .single, 0, 0, 0, 0, 0xFFFF, 0, 0, 0, 0⟩,
  ⟨Reg.SFM_SUBMIT, 4, 1, 4, 1, .single, 0, 0, 0, 0, 0, 0xFFFFFFFF, 0, 0, 0⟩,
  ⟨Reg.SFM_RESULT, 4, 1, 4, 1, .single, 0, 0, 0, 0, 0, 0, 0, 0, 0⟩,
  ⟨Reg.SFM_RESCFG, 4, 1, 4, 1, .single, 0x1FF, 0, 0, 0, 0, 0, 0, 0, 0⟩,
  ⟨Reg.SFM_CANCEL, 4, 1, 4, 1, .single, 0, 0, 0, 0, 0, 0xFFF, 0, 0, 0⟩,
  ⟨Reg.SFM_LOST, 4, 1, 4, 1, .single, 0, 0, 0xC0000000, 0, 0, 0, 0, 0, 0⟩,
  ⟨Reg.SFM_HEARD, 4, 1, 4, 1, .single, 0, 0, 0, 0, 0, 0xFFFFFFFF, 0, 0, 0⟩,
  ⟨Reg.SFM_MISS, 4, 1, 4, 1, .single, 0, 0, 0, 0, 0, 0x3FFFF, 0, 0, 0⟩,
  ⟨Reg.SFM_HOP 0, 4, 128, 4, 1, .single, 0xFF, 0, 0, 0, 0, 0, 0xFF, 0, 0⟩,
  ⟨Reg.SFM_QRATE 0, 4, 1024, 4, 1, .single, 0xFF0FFF, 0, 0, 0, 0, 0, 0xFF0FFF, 0, 0⟩,
  ⟨Reg.SFM_QCR 0, 4, 1024, 4, 1, .single, 0, 0, 0, 0, 0, 0, 0, 0, 0⟩,
  ⟨Reg.BKT_LO 0, 0x20, 16, 4, 1, .single, 0xFFFFF, 0, 0, 0, 0, 0, 0xFFFFF, 0, 0⟩,
  ⟨Reg.BKT_HI 0, 0x20, 16, 4, 1, .single, 0xFFFFF, 0, 0, 0, 0, 0, 0xFFFFF, 0, 0⟩,
  ⟨Reg.BKT_LIM 0, 0x20, 16, 4, 1, .single, 0x803FFFFF, 0, 0, 0, 0, 0, 0x803FFFFF, 0, 0⟩,
  ⟨Reg.BKT_USED 0, 0x20, 16, 4, 1, .single, 0, 0, 0, 0, 0, 0, 0, 0, 0⟩,
  ⟨Reg.BKT_DEF 0, 0x20, 16, 4, 1, .single, 0, 0, 0, 0, 0xFFFF, 0, 0, 0, 0⟩]

/-- The registers of block 13. -/
def blockRows13 : List RegRow := [
  ⟨Reg.CST_CTL, 4, 1, 4, 1, .single, 0, 0, 0, 0, 0, 1, 0, 0, 0⟩,
  ⟨Reg.CST_STAT, 4, 1, 4, 1, .single, 0, 0, 0, 0, 0, 0, 0, 0, 0⟩,
  ⟨Reg.CST_NRIDX, 4, 1, 4, 1, .single, 0, 0, 0xC0000000, 0, 0, 0, 0, 0, 0⟩,
  ⟨Reg.CST_SUM, 4, 1, 4, 1, .single, 0, 0, 0, 0, 0, 0, 0, 0, 0⟩,
  ⟨Reg.CST_UIDX 0, 4, 1, 4, 1, .requester, 0x8003FFFF, 0, 0, 0, 0, 0, 0, 0, 0⟩,
  ⟨Reg.CST_UMASK 0 0, 4, 4, 4, 1, .requester, 0xFFFFFFFF, 0, 0, 0, 0, 0, 0, 0, 0⟩,
  ⟨Reg.CST_UVAL 0 0, 4, 4, 4, 1, .requester, 0xFFFFFFFF, 0, 0, 0, 0, 0, 0, 0, 0⟩,
  ⟨Reg.CST_UEXP 0 0, 4, 4, 4, 1, .requester, 0xFFFFFFFF, 0, 0, 0, 0, 0, 0, 0, 0⟩,
  ⟨Reg.CST_UGO 0, 4, 1, 4, 1, .requester, 0, 0, 0, 0, 0, 1, 0, 0, 0⟩,
  ⟨Reg.CST_USTAT 0, 4, 1, 4, 1, .requester, 0, 0, 0, 0, 0, 0, 0, 0, 0⟩,
  ⟨Reg.CST_UOLD 0 0, 4, 4, 4, 1, .requester, 0, 0, 0, 0, 0, 0, 0, 0, 0⟩,
  ⟨Reg.CST_RQ 0, 4, 1, 4, 1, .requester, 0, 0, 0, 0, 0, 0x3FFFF, 0, 0, 0⟩,
  ⟨Reg.CST_RA 0, 4, 1, 4, 1, .requester, 0, 0, 0, 0, 0, 0, 0, 0, 0⟩]

/-- The registers of block 14. -/
def blockRows14 : List RegRow := [
  ⟨Reg.CIP_CTL, 4, 1, 4, 1, .single, 0, 0, 0, 0, 0, 1, 0, 0, 0⟩,
  ⟨Reg.CIP_STAT, 4, 1, 4, 1, .single, 0, 0, 0x100, 0, 0, 0, 0, 0, 0⟩,
  ⟨Reg.CIP_SELF_LO, 4, 1, 4, 1, .single, 0, 0xFFFFFFFF, 0, 0, 0, 0, 0, 0, 0⟩,
  ⟨Reg.CIP_SELF_HI, 4, 1, 4, 1, .single, 0, 0xFFFFFFFF, 0, 0, 0, 0, 0, 0, 0⟩,
  ⟨Reg.CIP_REPLAY, 4, 1, 4, 1, .single, 0, 0, 0, 0, 0xFFFF, 0, 0, 0, 0⟩,
  ⟨Reg.CIP_AUTHF, 4, 1, 4, 1, .single, 0, 0, 0, 0, 0xFFFF, 0, 0, 0, 0⟩,
  ⟨Reg.CIP_KSV 0, 4, 32, 4, 1, .single, 0, 0, 0, 0, 0, 0, 0, 0, 0⟩,
  ⟨Reg.CIP_JD 0 0, 4, 6, 4, 1, .requester, 0xFFFFFFFF, 0, 0, 0, 0, 0, 0, 0, 0⟩,
  ⟨Reg.CIP_JSTAT 0, 4, 1, 4, 1, .requester, 0, 0, 0, 0, 0, 0, 0, 0, 0⟩,
  ⟨Reg.CIP_TEN 0, 4, 1024, 4, 1, .single, 0xE3FFFFFF, 0, 0, 0, 0, 0, 0xE3FFFFFF, 0, 0⟩]

/-- The registers of block 15. -/
def blockRows15 : List RegRow := [
  ⟨Reg.SPH_CTL, 4, 1, 4, 1, .single, 0xFFFF000B, 0, 0, 0, 0, 0, 0, 0, 8⟩,
  ⟨Reg.SPH_CMD, 4, 1, 4, 1, .single, 0, 0, 0, 0, 0, 0xE, 0, 0, 0⟩,
  ⟨Reg.SPH_STAT, 4, 1, 4, 1, .single, 0, 0, 0, 0, 0, 0, 0, 0, 0⟩,
  ⟨Reg.SPH_ESTR, 4, 1, 4, 1, .single, 0, 0, 0, 0, 0, 0, 0, 0, 0⟩,
  ⟨Reg.SPH_LIFT, 4, 1, 4, 1, .single, 0xFFFF, 0, 0, 0, 0, 0, 0, 0, 0x1000⟩,
  ⟨Reg.SPH_IMGSUM, 4, 1, 4, 1, .single, 0, 0, 0, 0, 0, 0, 0, 0, 0⟩,
  ⟨Reg.SPH_PEERUID_LO, 4, 1, 4, 1, .single, 0, 0, 0, 0, 0, 0, 0, 0, 0⟩,
  ⟨Reg.SPH_PEERUID_HI, 4, 1, 4, 1, .single, 0, 0, 0, 0, 0, 0, 0, 0, 0⟩,
  ⟨Reg.SPH_OFFSET, 4, 1, 4, 1, .single, 0, 0, 0, 0, 0, 0, 0, 0, 0⟩,
  ⟨Reg.SPH_LATENCY, 4, 1, 4, 1, .single, 0, 0, 0, 0, 0, 0, 0, 0, 0⟩,
  ⟨Reg.SPH_ALIGN, 4, 1, 4, 1, .single, 0, 0, 0, 0, 0, 0, 0, 0, 0⟩,
  ⟨Reg.SPH_IRQ, 4, 1, 4, 1, .single, 0, 0, 0xFF, 0, 0, 0, 0, 0, 0⟩,
  ⟨Reg.SPH_IRQEN, 4, 1, 4, 1, .single, 0xFF, 0, 0, 0, 0, 0, 0, 0, 0⟩,
  ⟨Reg.SPH_CRCERR, 4, 1, 4, 1, .single, 0, 0, 0, 0, 0xFFFF, 0, 0, 0, 0⟩,
  ⟨Reg.SPH_RETRY, 4, 1, 4, 1, .single, 0, 0, 0, 0, 0xFFFF, 0, 0, 0, 0⟩,
  ⟨Reg.SPH_MISSBEAT, 4, 1, 4, 1, .single, 0, 0, 0, 0, 0xFFFF, 0, 0, 0, 0⟩]

/-- The registers of block 16. -/
def blockRows16 : List RegRow := [
  ⟨Reg.FDR_CTL, 4, 1, 4, 1, .single, 0xFF77, 0, 0, 0, 0, 0, 0, 0, 2⟩,
  ⟨Reg.FDR_RBASE, 4, 1, 4, 1, .single, 0xFFFFFFFF, 0, 0, 0, 0, 0, 0, 0, 0⟩,
  ⟨Reg.FDR_RSIZE, 4, 1, 4, 1, .single, 0x1FFF, 0, 0, 0, 0, 0, 0, 0, 0x100⟩,
  ⟨Reg.FDR_WIDX, 4, 1, 4, 1, .single, 0, 0, 0, 0, 0, 0, 0, 0, 0⟩,
  ⟨Reg.FDR_RIDX, 4, 1, 4, 1, .single, 0xFFF, 0, 0, 0, 0, 0, 0, 0, 0⟩,
  ⟨Reg.FDR_STAT, 4, 1, 4, 1, .single, 0, 0, 2, 0, 0, 0, 0, 0, 0⟩,
  ⟨Reg.FDR_DROP, 4, 1, 4, 1, .single, 0, 0, 0, 0, 0xFFFF, 0, 0, 0, 0⟩,
  ⟨Reg.FDR_TSEQ, 4, 1, 4, 1, .single, 0, 0, 0, 0, 0, 0, 0, 0, 0⟩,
  ⟨Reg.FDR_TS_LO, 4, 1, 4, 1, .single, 0, 0, 0, 0, 0, 0, 0, 0, 0⟩,
  ⟨Reg.FDR_TS_HI, 4, 1, 4, 1, .single, 0, 0, 0, 0, 0, 0, 0, 0, 0⟩,
  ⟨Reg.FDR_OVR, 4, 1, 4, 1, .single, 0, 0, 0xFF, 0, 0, 0, 0, 0, 0⟩,
  ⟨Reg.FDR_CHCFG 0, 4, 8, 4, 1, .single, 0x37, 0, 0, 0, 0, 0, 0, 0, 0x10⟩,
  ⟨Reg.FDR_TRIM 0, 4, 8, 4, 1, .single, 0xFF00FFFF, 0, 0, 0, 0, 0, 0, 0xFF00FFFF, 0⟩]

/-- The registers of block 17. -/
def blockRows17 : List RegRow := [
  ⟨Reg.CTR_OE, 4, 1, 4, 1, .single, 0, 0xFF, 0, 0, 0, 0, 0, 0, 0⟩,
  ⟨Reg.CTR_OUT, 4, 1, 4, 1, .single, 0xFF, 0, 0, 0, 0, 0, 0, 0, 0⟩,
  ⟨Reg.CTR_SET, 4, 1, 4, 1, .single, 0, 0, 0, 0, 0, 0xFF, 0, 0, 0⟩,
  ⟨Reg.CTR_CLR, 4, 1, 4, 1, .single, 0, 0, 0, 0, 0, 0xFF, 0, 0, 0⟩,
  ⟨Reg.CTR_CFG, 4, 1, 4, 1, .single, 0xFFF, 0x1FF0000, 0, 0, 0, 0, 0, 0, 0x419⟩,
  ⟨Reg.CTR_FBPOL, 4, 1, 4, 1, .single, 0, 0xFF, 0, 0, 0, 0, 0, 0, 0⟩,
  ⟨Reg.CTR_STAT, 4, 1, 4, 1, .single, 0, 0, 0x1000000, 0, 0, 0, 0, 0, 0⟩,
  ⟨Reg.CTR_FAULT, 4, 1, 4, 1, .single, 0, 0, 0, 0, 0, 0, 0, 0, 0⟩,
  ⟨Reg.CTR_FCLR, 4, 1, 4, 1, .single, 0, 0, 0, 0, 0, 0xFF, 0, 0, 0⟩,
  ⟨Reg.GPIO_DIR, 4, 1, 4, 1, .single, 0xFFFFFF, 0, 0, 0, 0, 0, 0, 0, 0⟩,
  ⟨Reg.GPIO_OUT, 4, 1, 4, 1, .single, 0xFFFFFF, 0, 0, 0, 0, 0, 0, 0, 0⟩,
  ⟨Reg.GPIO_SET, 4, 1, 4, 1, .single, 0, 0, 0, 0, 0, 0xFFFFFF, 0, 0, 0⟩,
  ⟨Reg.GPIO_CLR, 4, 1, 4, 1, .single, 0, 0, 0, 0, 0, 0xFFFFFF, 0, 0, 0⟩,
  ⟨Reg.GPIO_TGL, 4, 1, 4, 1, .single, 0, 0, 0, 0, 0, 0xFFFFFF, 0, 0, 0⟩,
  ⟨Reg.GPIO_IN, 4, 1, 4, 1, .single, 0, 0, 0, 0, 0, 0, 0, 0, 0⟩,
  ⟨Reg.GPIO_PUP, 4, 1, 4, 1, .single, 0xFFFFFF, 0, 0, 0, 0, 0, 0, 0, 0⟩,
  ⟨Reg.GPIO_PDN, 4, 1, 4, 1, .single, 0xFFFFFF, 0, 0, 0, 0, 0, 0, 0, 0⟩,
  ⟨Reg.GPIO_RISE, 4, 1, 4, 1, .single, 0xFFFFFF, 0, 0, 0, 0, 0, 0, 0, 0⟩,
  ⟨Reg.GPIO_FALL, 4, 1, 4, 1, .single, 0xFFFFFF, 0, 0, 0, 0, 0, 0, 0, 0⟩,
  ⟨Reg.GPIO_EDGE, 4, 1, 4, 1, .single, 0, 0, 0xFFFFFF, 0, 0, 0, 0, 0, 0⟩,
  ⟨Reg.GPIO_EVT, 4, 1, 4, 1, .single, 0x1FF, 0, 0, 0, 0, 0, 0, 0, 0⟩]

/-- The registers of block 18. -/
def blockRows18 : List RegRow := [
  ⟨Reg.TMR_CTL 0, 0x40, 16, 4, 1, .single, 0, 0, 0, 0, 0, 0xF, 0, 0, 0⟩,
  ⟨Reg.TMR_CFG 0, 0x40, 16, 4, 1, .single, 0xE7FFFF07, 0, 0, 0, 0, 0, 0, 0, 0⟩,
  ⟨Reg.TMR_CNT_LO 0, 0x40, 16, 4, 1, .single, 0xFFFFFFFF, 0, 0, 0, 0, 0, 0, 0, 0⟩,
  ⟨Reg.TMR_CNT_HI 0, 0x40, 16, 4, 1, .single, 0xFFFF, 0, 0, 0, 0, 0, 0, 0, 0⟩,
  ⟨Reg.TMR_CMP_LO 0, 0x40, 16, 4, 1, .single, 0xFFFFFFFF, 0, 0, 0, 0, 0, 0, 0, 0xFFFFFFFF⟩,
  ⟨Reg.TMR_CMP_HI 0, 0x40, 16, 4, 1, .single, 0xFFFF, 0, 0, 0, 0, 0, 0, 0, 0xFFFF⟩,
  ⟨Reg.TMR_CAP_LO 0, 0x40, 16, 4, 1, .single, 0, 0, 0, 0, 0, 0, 0, 0, 0⟩,
  ⟨Reg.TMR_CAP_HI 0, 0x40, 16, 4, 1, .single, 0, 0, 0, 0, 0, 0, 0, 0, 0⟩,
  ⟨Reg.TMR_STAT 0, 0x40, 16, 4, 1, .single, 0, 0, 0x1E, 0, 0, 0, 0, 0, 0⟩]

/-- The registers of block 19. -/
def blockRows19 : List RegRow := [
  ⟨Reg.RTC_CTL, 4, 1, 4, 1, .single, 3, 0, 0, 0, 0, 0x18, 0, 0, 1⟩,
  ⟨Reg.RTC_TIME, 4, 1, 4, 1, .single, 0xFFFFFFFF, 0, 0, 0, 0, 0, 0, 0, 0⟩,
  ⟨Reg.RTC_DATE, 4, 1, 4, 1, .single, 0x3FFF0FFF, 0, 0, 0, 0, 0, 0, 0, 0x7D0010E⟩,
  ⟨Reg.RTC_TRIM, 4, 1, 4, 1, .single, 0xFF, 0, 0, 0, 0, 0, 0, 0, 0⟩,
  ⟨Reg.RTC_ALARM, 4, 1, 4, 1, .single, 0x9F01FFFF, 0, 0, 0, 0, 0, 0, 0, 0⟩,
  ⟨Reg.RTC_STAT, 4, 1, 4, 1, .single, 0, 0, 0x2F, 0, 0, 0, 0, 0, 0x44⟩]

/-- The registers of block 20. -/
def blockRows20 : List RegRow := [
  ⟨Reg.IRQ_SRC 0, 4, 512, 4, 1, .single, 0x10F, 0, 0, 0, 0, 0, 0, 0, 0⟩,
  ⟨Reg.IRQ_CLAIM 0, 4, 1, 4, 1, .world, 0, 0, 0, 0, 0, 0, 0, 0, 0⟩,
  ⟨Reg.IRQ_COMPLETE 0, 4, 1, 4, 1, .world, 0, 0, 0, 0, 0, 0x1FF, 0, 0, 0⟩,
  ⟨Reg.IRQ_CTL 0, 4, 1, 4, 1, .world, 1, 0, 0, 0, 0, 0, 0, 0, 0⟩,
  ⟨Reg.IRQ_STAT 0, 4, 1, 4, 1, .world, 0, 0, 0, 0, 0, 0, 0, 0, 0⟩,
  ⟨Reg.IRQ_HOLD 0, 4, 16, 4, 1, .single, 0xFFFF, 0, 0, 0, 0, 0, 0, 0, 0⟩,
  ⟨Reg.IRQ_AONSEL 0, 4, 32, 4, 1, .single, 0x301FF, 0, 0, 0, 0, 0, 0, 0, 0⟩,
  ⟨Reg.IRQ_AONPEND, 4, 1, 4, 1, .single, 0, 0, 0xFFFFFFFF, 0, 0, 0, 0, 0, 0⟩,
  ⟨Reg.IRQ_PEND 0, 4, 16, 4, 1, .single, 0, 0, 0, 0, 0, 0, 0, 0, 0⟩]

/-- The registers of block 21. -/
def blockRows21 : List RegRow := [
  ⟨Reg.FLC_CMD, 4, 1, 4, 1, .single, 0, 0, 0, 0, 0, 0xF, 0, 0, 0⟩,
  ⟨Reg.FLC_ADDR, 4, 1, 4, 1, .single, 0x7FFFFF, 0, 0, 0, 0, 0, 0, 0, 0⟩,
  ⟨Reg.FLC_SRC, 4, 1, 4, 1, .single, 0xFFFFFFFF, 0, 0, 0, 0, 0, 0, 0, 0⟩,
  ⟨Reg.FLC_LEN, 4, 1, 4, 1, .single, 0x1FF, 0, 0, 0, 0, 0, 0, 0, 0⟩,
  ⟨Reg.FLC_STAT, 4, 1, 4, 1, .single, 0, 0, 0x600, 0, 0, 0, 0, 0, 0⟩,
  ⟨Reg.FLC_PWDIN, 4, 1, 4, 1, .single, 0, 0, 0, 0, 0, 0xFFFF, 0, 0, 0⟩,
  ⟨Reg.FLC_PROT 0, 4, 2, 4, 1, .single, 0, 0, 0, 0, 0, 0, 0, 0, 0⟩,
  ⟨Reg.FLC_TIMING, 4, 1, 4, 1, .single, 0x1F, 0, 0, 0, 0, 0, 0, 0x1F, 0xA⟩,
  ⟨Reg.FLC_ECCCOR, 4, 1, 4, 1, .single, 0, 0, 0, 0, 0xFFFF, 0, 0, 0, 0⟩,
  ⟨Reg.FLC_ECCADDR, 4, 1, 4, 1, .single, 0, 0, 0, 0, 0, 0, 0, 0, 0⟩,
  ⟨Reg.FLC_LOGADD, 4, 1, 4, 1, .single, 0, 0, 0, 0, 0, 0xFFFFFFFF, 0, 0, 0⟩,
  ⟨Reg.FLC_LOGSTAT, 4, 1, 4, 1, .single, 0, 0, 0, 0, 0xFF000000, 0, 0, 0, 0⟩,
  ⟨Reg.FLC_ABORT, 4, 1, 4, 1, .single, 0, 0, 0xC0000000, 0, 0, 0, 0, 0, 0⟩,
  ⟨Reg.CAL_STAT, 4, 1, 4, 1, .single, 0, 0, 0x100, 0, 0, 0, 0, 0, 0⟩]

/-- The registers of block 22. -/
def blockRows22 : List RegRow := [
  ⟨Reg.AGE_CFG, 4, 1, 4, 1, .single, 0xFFF03, 0, 0, 0, 0, 0, 0, 0, 0xF1800⟩,
  ⟨Reg.AGE_CMD, 4, 1, 4, 1, .single, 0, 0, 0, 0, 0, 7, 0, 0, 0⟩,
  ⟨Reg.AGE_STAT, 4, 1, 4, 1, .single, 0, 0, 0x100, 0, 0, 0, 0, 0, 0⟩,
  ⟨Reg.AGE_PROP_OP 0, 4, 4, 4, 1, .single, 0, 0, 0, 0, 0, 0, 0, 0, 0⟩,
  ⟨Reg.AGE_PROP_TX, 4, 1, 4, 1, .single, 0, 0, 0, 0, 0, 0, 0, 0, 0⟩,
  ⟨Reg.AGE_PROP_VCO, 4, 1, 4, 1, .single, 0, 0, 0, 0, 0, 0, 0, 0, 0⟩,
  ⟨Reg.AGE_PROP_PW, 4, 1, 4, 1, .single, 0, 0, 0, 0, 0, 0, 0, 0, 0⟩,
  ⟨Reg.AGE_PADET, 4, 1, 4, 1, .single, 0, 0, 0, 0, 0, 0, 0, 0, 0⟩,
  ⟨Reg.AGE_VCO, 4, 1, 4, 1, .single, 0, 0, 0, 0, 0, 0, 0, 0, 0xFFFF⟩,
  ⟨Reg.AGE_FPULSE, 4, 1, 4, 1, .single, 0, 0, 0, 0, 0, 0, 0, 0, 0⟩,
  ⟨Reg.AGE_SND 0, 4, 24, 4, 1, .single, 0, 0, 0, 0, 0, 0, 0, 0, 0⟩,
  ⟨Reg.TMP_DIE, 4, 1, 4, 1, .single, 0, 0, 0, 0, 0, 0, 0, 0, 0⟩]

/-- The registers of block 23. -/
def blockRows23 : List RegRow := [
  ⟨Reg.WKR_CTL, 4, 1, 4, 1, .single, 7, 0, 0, 0, 0, 0, 0, 0, 0⟩,
  ⟨Reg.WKR_CODE, 4, 1, 4, 1, .single, 0xFFFF, 0, 0, 0, 0, 0, 0, 0, 0⟩,
  ⟨Reg.WKR_STAT, 4, 1, 4, 1, .single, 0, 0, 1, 0, 0, 0, 0, 0, 0⟩,
  ⟨Reg.WKR_COUNT, 4, 1, 4, 1, .single, 0, 0, 0, 0, 0xFF, 0, 0, 0, 0⟩]

/-- The register rows that lie in block `i` (R17). ETH1 repeats the rows of ETH0 at its own base. -/
def blockRows (i : Nat) : List RegRow :=
  match i with
  | 0 => blockRows0
  | 1 => blockRows1
  | 2 => blockRows2
  | 3 => blockRows3
  | 4 => blockRows4
  | 6 => blockRows6
  | 7 => blockRows7
  | 8 => blockRows8
  | 9 => blockRows9
  | 10 => blockRows10
  | 11 => blockRows11
  | 12 => blockRows12
  | 13 => blockRows13
  | 14 => blockRows14
  | 15 => blockRows15
  | 16 => blockRows16
  | 17 => blockRows17
  | 18 => blockRows18
  | 19 => blockRows19
  | 20 => blockRows20
  | 21 => blockRows21
  | 22 => blockRows22
  | 23 => blockRows23
  | 5 => blockRows4
  | _ => []

/-- Whether the register row `r` has a register at byte address `a`. -/
def RegRow.covers (r : RegRow) (a : Nat) : Bool :=
  r.base ≤ a &&
    (let d := a - r.base
     let j := d % r.stride1
     d / r.stride1 < r.count1 && j % r.stride2 == 0 && j / r.stride2 < r.count2)

/-- The register row at byte address `a`, if a register is assigned there. -/
def rowAt (a : Nat) : Option RegRow :=
  (blockRows (a / 0x10000 % 0x2000)).find? (fun r => r.covers a)

/-- Reset values that differ from one register of a family to the next: PWR_OPn (R417), PWR_BIASk (R418), LDP_CEILp (R111),
FLC_PROT1 (R447, region 63 starts protected). -/
def resetSpecial (a : Nat) : Option Nat :=
  if a = Reg.PWR_OP 0 then some (400 <<< 16 ||| 900) else
  if a = Reg.PWR_OP 1 then some (320 <<< 16 ||| 800) else
  if a = Reg.PWR_OP 2 then some (240 <<< 16 ||| 700) else
  if a = Reg.PWR_OP 3 then some (160 <<< 16 ||| 600) else
  if a = Reg.PWR_BIAS 0 then some 0x0000 else
  if a = Reg.PWR_BIAS 1 then some 0x0000 else
  if a = Reg.PWR_BIAS 2 then some 0x0A01 else
  if a = Reg.PWR_BIAS 3 then some 0x1401 else
  if a = Reg.PWR_BIAS 4 then some 0xE201 else
  if a = Reg.LDP_CEIL 0 then some 0x7F else
  if a = Reg.LDP_CEIL 1 then some 0xA0 else
  if a = Reg.LDP_CEIL 2 then some 0x9D else
  if a = Reg.LDP_CEIL 3 then some 0x9A else
  if a = Reg.LDP_CEIL 4 then some 0x98 else
  if a = Reg.LDP_CEIL 5 then some 0x96 else
  if a = Reg.LDP_CEIL 6 then some 0x93 else
  if a = Reg.LDP_CEIL 7 then some 0x90 else
  if a = Reg.FLC_PROT 1 then some 0x80000000 else
  none

/-- The reset value of the register word held under `key`; 0 where no register is assigned. The design value of TXP_PTAB's DRV and BIAS,
of which the manual gives no number, is 0 (DESIGN CHOICE, log entry 132). -/
def resetVal (key : Nat) : Word :=
  let a := key % 0x100000000
  match resetSpecial a with
  | some v => BitVec.ofNat 32 v
  | none =>
    match rowAt a with
    | some r => BitVec.ofNat 32 r.reset
    | none => 0

end Sys2Proof.Machine
end

