-- ==== Sys2Proof/Machine/State.lean ====
section
/-! DEFINITION. The state of the NM48 as plain data: the register file and the active and calibration copies of it, memory, and
the parts of the manual's state that no register holds; the waiting commands; the state at reset. -/

namespace Sys2Proof.Machine

/-- Why the machine stops with a fault. The part stops at nothing the commands can express, so there is one reason. -/
inductive Fault where
  /-- A command whose effect 15 R464 (TEST_EN high) leaves undefined; no command of the table reaches it. Safe. -/
  | undefinedBehaviour
deriving DecidableEq, Repr

/-- Why a command is turned away. -/
inductive Refusal where
  /-- The dispatch raises it for a command that has no meaning yet. Safe. -/
  | notModelled (mnemonic : String)
deriving DecidableEq, Repr

/-! ## Receive chains, lanes and the decoder pool (02, 03) -/

/-- The lane states of R67. -/
inductive LaneState where
  | off
  | search
  | header
  | payload
  | drain
  | ready
  | blank
deriving DecidableEq, Repr

/-- A match the second correlator recorded (R63): the bit at which it begins, counted from the first bit of the
locked sync, its bit errors, and whether it was a coded SFD value (R84). -/
structure SyncRecord where
  first : Nat
  errs : Nat
  coded : Bool
deriving DecidableEq, Repr

/-- One codeword of a frame, once its decoding job has ended (R108). -/
structure CwResult where
  index : Nat
  bytes : List Byte
deriving DecidableEq, Repr

/-- The settings a lane locked with (R60, R71): the searcher, its demodulator setting, the sync patterns it matches
(each with whether it is a coded SFD value, R84) and the errors it tolerates. -/
structure LockSet where
  srch : Nat := 0
  deep : Bool := false
  fourLevel : Bool := false
  rate : Nat := 0
  pats : List (List Bool × Bool) := []
  tol : Nat := 0
deriving DecidableEq, Repr

/-- The marks a frame carries to its descriptor (R74). -/
structure Marks where
  preempt : Bool := false
  resumed : Bool := false
  clip : Bool := false
  desense : Bool := false
  div : Bool := false
deriving DecidableEq, Repr

/-- The frame a lane is receiving or holds: what the lock fixed (R60, R75; `lockAt` is the model's clock at the last bit of the sync
word), what the header gave (R67) and what
decoding has delivered (R108). -/
structure RxFrame where
  errs : Nat := 0
  coded : Bool := false
  tsAsn : Nat := 0
  tsOff : Nat := 0
  lockAt : Nat := 0
  ferr0 : Int := 0
  gidx : Nat := 0
  rssi : Nat := 0
  marks : Marks := {}
  hdr : Nat := 0
  len : Nat := 0
  prof : Nat := 0
  codewords : Nat := 0
  nextCw : Nat := 0
  results : List CwResult := []
  failed : Nat := 0
  itMax : Nat := 0
  z48 : Bool := false
  worldViol : Bool := false
deriving DecidableEq, Repr

/-- One demodulation lane (R67). `lock` is the searcher it locked with; `sets`, `track` and `evt` are the other settings it
locked under (R71); `hist` is the 64-bit history, oldest bit first; `count` the bits since the first bit of
the locked sync; `window` the header-window bits received, and `soft` their soft values once the window is whole; `ferr64` the
frequency estimate in 1/64 of 10 Hz (R56); `ran` whether the lane has left OFF since its block was reset. -/
structure Lane where
  state : LaneState := .off
  lock : LockSet := {}
  sets : List LockSet := []
  track : Bool := false
  evt : Option Nat := none
  frame : RxFrame := {}
  hist : List Bool := []
  count : Nat := 0
  window : List Bool := []
  soft : List Int := []
  recs : List SyncRecord := []
  ferr64 : Int := 0
  dgain : Nat := 0
  endedWindow : Bool := false
  noise : List Nat := []
  firstFloor : Bool := true
  ran : Bool := false
deriving DecidableEq, Repr

/-- One receive chain: the state of its decision window (R48 to R53) and the end of its last blanking (R78) by the model's
clock. -/
structure ChainSt where
  clipWindow : Bool := false
  busyWindow : Bool := false
  sinceClip : Option Nat := none
  settling : Bool := false
  unblankAt : Option Nat := none
deriving DecidableEq, Repr

/-- A codeword queued or being decoded (R104); `cyc` numbers the DSP cycle it arrived in, among those queued; `dead` when its frame is
gone and its result is dropped on arrival. -/
structure CwJob where
  lane : LaneIx
  index : Nat
  rows : Nat
  z48 : Bool
  bytes : Nat
  llr : List Int
  dead : Bool := false
  cyc : Nat := 0
deriving DecidableEq, Repr

/-- A codeword in a decoder, with the ITER and NORM it started under (R105). -/
structure DecJob where
  job : CwJob
  iter : Nat
  norm : Nat
deriving DecidableEq, Repr

/-! ## Superframe machine, transmitter and synthesiser (04, 06) -/

/-- A pending transmit request (04 R126); `ord` is its place in submission order. -/
structure TxReq where
  ord : Nat
  desc : Nat
  index : Nat
  mode : Nat
deriving DecidableEq, Repr

/-- An entry of the result queue (04 R127). -/
structure SfmResult where
  outcome : Nat
  slot : Nat
  desc : Nat
deriving DecidableEq, Repr

/-- A decided launch (04 R122, 06 R198). `req` is none for a beacon. Times are in 0.125 us units from the start of the
current slot. `frame` is the transmitter's frame store, in on-air order, once the payload is read, and `levels` its symbols as
deviation levels (03 R90) and `deviations` their nominal deviations in units of 10 Hz (06 R202). -/
structure Launch where
  req : Option TxReq
  desc : Nat
  slot : Nat
  first : Int
  occStart : Int
  occEnd : Int
  khz : Nat
  prof : Nat
  d0 : Word
  d1 : Word
  d2 : Word
  preamble : Nat
  copies : Nat
  charge : Nat
  bucket : Nat
  tenant : Option Nat := none
  entry : Nat
  sync : Word
  asnBytes : Option (Nat × Nat) := none
  loaded : Bool := false
  frame : List Bool := []
  levels : List Int := []
  deviations : List Int := []
deriving DecidableEq, Repr

/-- The superframe machine (04). `asn` is the absolute slot number; `adopt` the slot number taken over from a primary, with which
slots start (09 R302); `slew` the rest of an SFM_ADJ shift, `slotLen` the length of the current slot (R116); `clock` the model's own
clock, in units of 0.125 µs, at the start of the current slot or, while slots do not run, at the end of the last; `prevAsn` and
`prevLen` the number and the length of the slot before (length 0: there was none) and `pause` the time without slots between (02 R75);
`offSeen` the offset that an
engine last read in this slot (07 R252); `occ` the occupancies already
decided (R122), relative to the current slot start; `withheld` a beacon not decided because a GAP was pending (R125). -/
structure Sfm where
  asn : BitVec 40 := 0
  startPend : Bool := false
  adopt : Option Nat := none
  stopPend : Bool := false
  slew : Int := 0
  slotLen : Nat := 80000
  offSeen : Nat := 0
  clock : Nat := 160000
  prevAsn : Nat := 0
  prevLen : Nat := 0
  pause : Nat := 0
  pend : List TxReq := []
  nextOrd : Nat := 0
  results : List SfmResult := []
  launches : List Launch := []
  occ : List (Int × Int) := []
  quiet : Bool := false
  withheld : Bool := false
deriving DecidableEq, Repr

/-- The transmitter (06 R205, R206): the launch that radiates (from RAMP_UP to the end of the ramp-down), the launch whose hop
has started, whether the FEM balls have switched for it, and the die temperature when the hop calibrates its channel afresh
(R207, R208); the FEM pattern number in use; the levels kept through the
ramp-down of a launch that a reset stopped (R211). -/
structure Tx where
  cur : Option Launch := none
  hop : Option Launch := none
  hopSwitched : Bool := false
  hopCal : Option Nat := none
  femUse : Option Nat := none
  femHeld : Option (BitVec 4 × BitVec 4) := none
deriving DecidableEq, Repr

/-- A queued SYN_CMD (06 R209). -/
structure SynCmd where
  op : Nat
  khz : Nat
deriving DecidableEq, Repr

/-- The transmit synthesiser (06 R207, R209): the cache entries most recently used first, and the commands. -/
structure Syn where
  lru : List Nat := []
  queue : List SynCmd := []
  running : Option SynCmd := none
deriving DecidableEq, Repr

/-! ## Cipher jobs (05) -/

/-- A submitted cipher job (05 R173, R191): its descriptor, the world and the code of its submitter. -/
structure CipJob where
  d : JobDesc
  ns : Bool
  req : Nat
deriving DecidableEq, Repr

/-- A job a core has taken (05 R174): the index and level it works with, its counter and nonce once taken, the key, the
worlds of its read of SRC for its checks while that waits for the flash (14 R442, 01 R26), the
status it has already met (R187), the status and output length it has ended with when its record waits, and the Siphon
sequence number it waits for (09 R296). -/
structure CoreRun where
  job : CipJob
  index : Nat := 0
  level : Nat := 0
  counter : Nat := 0
  nonce : List Byte := []
  key : List Byte := []
  unread : Option (List (Nat × Word)) := none
  ended : Option Nat := none
  result : Option (Nat × Nat) := none
  waitSeq : Option Nat := none
deriving DecidableEq, Repr

/-- A key of the derived-key cache with its tag (05 R170). -/
structure CacheKey where
  index : Nat
  epoch : Nat
  slot : Nat
  k256 : Bool
  key : List Byte
deriving DecidableEq, Repr

/-- The cipher block (05): queue, cores and derived-key cache (most recently used first). -/
structure Cip where
  queue : List CipJob := []
  core : Vector (Option CoreRun) 8 := Vector.replicate 8 none
  cache : List CacheKey := []
deriving DecidableEq, Repr

/-! ## The engines (07, 08) -/

/-- The engine states of R261. -/
inductive EngState where
  | halted
  | running
  | halting
deriving DecidableEq, Repr

/-- The exception causes of R253. -/
inductive EngCause where
  | returnStack
  | illegalPort
  | memory
  | world
  | watchdog
deriving DecidableEq, Repr

/-- One entry of the fetch sequence: an instruction index, and whether it is the TB.PC of a TRET (R260). -/
structure Fetch where
  idx : Nat
  resume : Bool := false
deriving DecidableEq, Repr

/-- A result on its way to its result ports: delivered to the instruction at position `due` (R217). `hi` is used by the
multiplier only. -/
structure Flight where
  unit : EUnit
  due : Nat
  lo : Word24
  hi : Word24 := 0
deriving DecidableEq, Repr

/-- The kinds of shared load (R241). -/
inductive LoadKind where
  | b
  | bs
  | h
  | hs
  | t
  | w
deriving DecidableEq, Repr

/-- The kinds of shared store (R241). -/
inductive StoreKind where
  | b
  | h
  | t
  | w
deriving DecidableEq, Repr

/-- One shared access of a stalled instruction (R242): a load, a store, a block with its next word (R244), a lock access
(R251), the sixth descriptor word (R248), or the lane buffer bytes that a lane I/O read waits for (R246). -/
inductive Access where
  | load (k : LoadKind) (a : Nat)
  | store (k : StoreKind) (a : Nat) (v : Word)
  | block (toLocal : Bool) (n : Nat) (next : Nat) (la : Nat) (base : Nat)
  | lockAcq (k : Nat)
  | lockRel (k : Nat)
  | job (v : Word)
  | lane
deriving DecidableEq, Repr

/-- A move that executes, with the value it read: the slot (true = B), the destination port and the value. -/
structure Moved where
  slotB : Bool
  dst : Nat
  val : Word24
deriving DecidableEq, Repr

/-- How far a waiting shared access has come (R269). -/
inductive GrantStage where
  | waiting
  | atTarget
  | granted
deriving DecidableEq, Repr

/-- The result ports of the units (R219). -/
structure ResPorts where
  alu0 : Word24 := 0
  alu1 : Word24 := 0
  shu : Word24 := 0
  mulLo : Word24 := 0
  mulHi : Word24 := 0
  lr : Word24 := 0
  sd : Word24 := 0
  sdh : Word24 := 0
  brem : Word24 := 0
  lk : Word24 := 0
  cych : Word24 := 0
  asn : Word24 := 0
deriving DecidableEq, Repr

/-- What a stalled instruction has changed, to be put back when it does not retire (R255): the channel it popped, the lane I/O port
before its reads (`lioFifo` the samples it took), the result ports. -/
structure ReadUndo where
  popped : Option Nat := none
  lioOff : Nat := 0
  lioFifo : List (BitVec 16 × BitVec 16) := []
  lioLastQ : Option (BitVec 16) := none
  lioHeld : Nat := 0
  res : ResPorts := {}
deriving DecidableEq, Repr

/-- A shared access that its target has accepted and that takes effect with its instruction (R242, R255; log entry 36): its slot, the
access, and the registers that assign worlds as they stood when it was issued (01 R26). -/
structure Accepted where
  slotB : Bool
  acc : Access
  worlds : List (Nat × Word)
deriving DecidableEq, Repr

/-- An instruction stalled on shared accesses (R242): its bits, the moves it makes, the accesses still to perform (each with its slot) and
those that have been accepted and take effect with the last one, how far the first has come, its place
among the waiting ones and whether its grant was revoked (R269, R270), whether it has been stalled beyond 4,096 cycles (R266),
what its reads changed, ENG_CFG at its boundary, and the registers that assign worlds as they stood when the first was issued (01 R26),
those that do not hold their reset value. -/
structure Stall where
  word : BitVec 48
  moves : List Moved
  accs : List (Bool × Access)
  passed : List Accepted := []
  stage : GrantStage := .waiting
  since : Nat := 0
  revoked : Bool := false
  beyond : Bool := false
  undo : ReadUndo := {}
  cfg : Word := 0
  worlds : List (Nat × Word) := []
deriving DecidableEq, Repr

/-- The operand ports of the units (R219). -/
structure OpPorts where
  alu0O : Word24 := 0
  alu1O : Word24 := 0
  shuO : Word24 := 0
  shuF : Word24 := 0
  mulO : Word24 := 0
  cmpO : Word24 := 0
  lv : Word24 := 0
  seg : Word24 := 0
  sv : Word24 := 0
  svh : Word24 := 0
  la : Word24 := 0
  bsa : Word24 := 0
  cjHi : Word24 := 0
deriving DecidableEq, Repr

/-- The lane I/O port (R245 to R247); `held` counts the bytes from `off` on that stand in its prefetch buffer. -/
structure Lio where
  sample : Bool := false
  lane : Nat := 0
  off : Nat := 0
  held : Nat := 0
  fifo : List (BitVec 16 × BitVec 16) := []
  lastQ : Option (BitVec 16) := none
  ovf : Bool := false
deriving DecidableEq, Repr

/-- The trap bank TB.CAUSE to TB.FAH (R257). -/
structure TrapBank where
  cause : Word24 := 0
  pc : Word24 := 0
  grd : Word24 := 0
  nx : Word24 := 0
  ihi : Word24 := 0
  ilo : Word24 := 0
  fal : Word24 := 0
  fah : Word24 := 0
deriving DecidableEq, Repr

/-- One Borry-24 engine (R213, R261). `seq` holds at least X, NEXT1 and NEXT2; `pos` counts issued instructions (R217). -/
structure Eng where
  state : EngState := .halted
  loaded : Bool := false
  why : Nat := 0
  forced : Bool := false
  wdx : Bool := false
  wdPending : Bool := false
  refused : Bool := false
  haltForced : Bool := false
  w : Vector Word24 32 := Vector.replicate 32 0
  grd : BitVec 3 := 0
  seq : List Fetch := [⟨0, false⟩, ⟨1, false⟩, ⟨2, false⟩]
  pos : Nat := 0
  op : OpPorts := {}
  res : ResPorts := {}
  acc : BitVec 48 := 0
  flight : List Flight := []
  rstack : Vector (BitVec 11) 8 := Vector.replicate 8 0
  rtop : Fin 8 := 0
  rdepth : Nat := 0
  tb : TrapBank := {}
  stall : Option Stall := none
  lio : Lio := {}
  cjCount : Nat := 0
  cyc : BitVec 48 := 0
  evPend : BitVec 256 := 0
deriving DecidableEq, Repr

/-- An event on its way to its channel (R274): from a hardware producer, still to be judged, or from EVC_FIRE,
accepted when it was fired. -/
inductive EvFlight where
  | hw (prod : Nat) (ch : Nat)
  | sw (ch : Nat)
deriving DecidableEq, Repr

/-! ## The Siphon, the host ports, cabinet I/O (09, 10, 11) -/

/-- A sequenced frame kept until it is acknowledged (09 R292): sequence number, TYPE, SYNC flag and payload bytes. -/
structure OutFrame where
  seq : Nat
  type : Nat
  sync : Bool
  payload : List Byte
deriving DecidableEq, Repr

/-- A character on a lane of the Siphon (09 R287): a data byte, or a control character: the idle K28.5, the lane marker K28.1, the
start of frame K27.7, the end of frame K29.7, the abort K30.7. -/
inductive SphChar where
  | data (b : Byte)
  | k285
  | k281
  | k277
  | k297
  | k307
deriving DecidableEq, Repr

/-- A LAUNCH record that a standby holds (09 R301), with the target slot of a wake transmission. -/
structure MirrorRec where
  body : LaunchBody
  target : Option Nat
deriving DecidableEq, Repr

/-- What waits in its order for the Siphon behind a request whose payload waits for the flash (14 R442): a frame of the given TYPE, or a
request with its descriptor's bytes and the numbers of the fragments still to go (09 R299). -/
inductive SphLater where
  | frame (type : Nat) (payload : List Byte)
  | request (words : List Byte) (desc index mode : Nat) (left : List Nat)
deriving DecidableEq, Repr

/-- The Siphon (09). `pairid` and `role` are those in force (R315); `helloRun` counts good HELLOs in a row (R289); `lastStamp` is
the peer's last STAMP; `txSeq`, `rxSeq`, `nakOwed`, `out` and the frames `waiting` for room are R292's; `later` is what waits for
the flash, its head a request; `fresh` says that no heartbeat has come since the link came up (R284); `dirty` lists the ranges of
entries marked dirty, first and last, and `sweep` is where the sweep stands (R295); `aligning` (a primary serves an alignment),
`acctSeen`, `passOpen`, `passDone` and `passAt` (the entry after the last one applied) follow the pass of the sweep at the standby
(R303); `lift` and `lifted` the counter lift (R311); `mirror` the LAUNCH records held (R301); `peer` the peer's pair state from its
last BEAT; `acct` the ACCT records held (R304); `handover` and `handoff` R313's slots; `heir` (the old primary, still PRIMARY,
completes what it had decided); `due` a takeover that is still to complete (R309); `bnd…`, `bad…` the values at the last superframe
boundary and the superframes that disagreed (R305); `firstBeat`, `sumRun`, `timed` (R302, R305, R307); `beatAt` the slot and offset
of the primary's last BEAT, and `stood` (its slots stand still, R302); `sent` the characters sent on lanes 0 and 1 since pairing
went on or the block was reset, idles between frames left to their least number (R287, R288). -/
structure Sph where
  pairid : Nat := 0
  role : Nat := 0
  helloRun : Nat := 0
  lastStamp : Nat := 0
  txSeq : Nat := 0
  rxSeq : Nat := 0
  nakOwed : Bool := false
  out : List OutFrame := []
  waiting : List OutFrame := []
  later : List SphLater := []
  fresh : Bool := false
  sent : List (SphChar × SphChar) := []
  dirty : List (Nat × Nat) := []
  sweep : Nat := 0
  aligning : Bool := false
  acctSeen : Bool := false
  passOpen : Bool := false
  passDone : Bool := false
  passAt : Nat := 0
  lift : Option Nat := none
  lifted : List Nat := []
  mirror : List MirrorRec := []
  peer : Nat := 0
  heir : Bool := false
  acct : List AcctRec := []
  handover : Option Nat := none
  handoff : Option Nat := none
  due : Bool := false
  bndEpoch : Nat := 0
  bndSfn : Nat := 0
  bndImg : Nat := 0
  badEpoch : Option Nat := none
  badImg : Option Nat := none
  firstBeat : Bool := false
  sumRun : Nat := 0
  timed : Bool := false
  beatAt : Option (Nat × Nat) := none
  stood : Bool := false
deriving DecidableEq, Repr

/-- The host SPI target (10): the select being served, HSP_CFG as its transaction began (R320), and a select that was asserted meanwhile
(R327); both asserted at once; a refused command; the length in clocks of the transaction under way (R325); the words the NM48 has sent
in it (R317). -/
structure Spi where
  sel : Option Select := none
  cfg : Word := 0
  ignored : Option Select := none
  collided : Bool := false
  bad : Bool := false
  clocks : Option Nat := none
  out : List Word := []
deriving DecidableEq, Repr

/-- An attention message as sent (10 R338): the 7-bit address it went to, the speed in kHz and the bytes. -/
structure AttnMsg where
  host : Nat
  khz : Nat
  bytes : List Byte
deriving DecidableEq, Repr

/-- The management port (10): the pointer (R333), STATUS bits 3:0 (R335), whether the matcher holds SCL (R336), the bytes it
sent last (R334), and the attention messages it has sent (R338). -/
structure Mgb where
  ptr : Word := 0
  status : BitVec 4 := 0
  matcherHold : Bool := false
  out : List Byte := []
  msgs : List AttnMsg := []
deriving DecidableEq, Repr

/-- The PTP clock (10 R348): seconds, nanoseconds, and 2^-24 ns. -/
structure Ptp where
  sec : Nat := 0
  ns : Nat := 0
  frac : Nat := 0
deriving DecidableEq, Repr

/-- A frame that a MAC sends (10 R345): its descriptor's address and word 1, the frame as on the wire after the start-of-frame
delimiter, and the timestamp taken as that passed (R349). -/
structure TxFrame where
  desc : Nat
  w1 : Word
  bytes : List Byte
  stamp : Option Ptp
deriving DecidableEq, Repr

/-- One MAC (10): the frame it is sending (R345), the Ethernet cycles for which a PAUSE frame still holds off the next one, and
whether a check of the ring waits for that (R342). -/
structure EthMac where
  sending : Option TxFrame := none
  pause : Nat := 0
  due : Bool := false
deriving DecidableEq, Repr

/-- A feeder frame that waits to be written (11 R357): its sequence number, its samples and its clamp bits. -/
structure FdrFrame where
  seq : Nat
  samples : List Nat
  clamp : BitVec 8
deriving DecidableEq, Repr

/-- One feeder channel's filters (11 R355): its latest samples after the gain trim, newest first, and the high-pass filter's last input
and its last output in 2^-16 of a code; the instants that it still settles after a change of GAIN or HPF, and the lowest and highest
input of the last 16 of them (R356). -/
structure FdrChan where
  past : List Int := []
  hpIn : Int := 0
  hpOut : Int := 0
  settle : Nat := 0
  span : Option (Int × Int) := none
deriving DecidableEq, Repr

/-- The feeder (11): the next sequence number, the ring read when EN rose, the frames still to be written, whether the frame
clock waits for the next slot boundary (R363), and the channels' filters. -/
structure Fdr where
  seq : Nat := 0
  base : Nat := 0
  size : Nat := 256
  frames : List FdrFrame := []
  realign : Bool := false
  chan : Vector FdrChan 8 := Vector.replicate 8 {}
deriving DecidableEq, Repr

/-- The contactors (11), one bit a channel: the dwells (R367) and the match windows (R369) that run, and those of them that a write of
CTR_FCLR started and no feedback has followed yet (R371). -/
structure Ctr where
  dwell : BitVec 8 := 0
  window : BitVec 8 := 0
  cleared : BitVec 8 := 0
deriving DecidableEq, Repr

/-- One timer (12 R386 to R391); `edges` counts the rising edges of its pin since its last tick. -/
structure Tmr where
  run : Bool := false
  edges : Nat := 0
  count : BitVec 48 := 0
  cmp : BitVec 48 := BitVec.allOnes 48
  atMatch : Bool := false
  queue : List (BitVec 48) := []
  pin : Bool := false
deriving DecidableEq, Repr

/-- Where the clock stands in its trim (12 R394): the crystal cycles since the last 2^20 were complete, and how many of them have been
trimmed. -/
structure RtcTrim where
  cycles : Nat := 0
  done : Nat := 0
deriving DecidableEq, Repr

/-- A power request (13 R416). -/
structure PwrReq where
  state : Nat
  op : Nat
  pol : Bool
deriving DecidableEq, Repr

/-- A ball of the main domains (15 R462): driven to a level, driven by signals that change with its block's traffic, or high-impedance with
or without a pull-up and a pull-down. -/
inductive Ball where
  | drive (b : Bool)
  | moving
  | float (up dn : Bool)
deriving DecidableEq, Repr

/-- What pad hold keeps of each ball: level, direction and pull, and the levels that the blocks' inputs stay at (13 R430). `ethTx` holds
TXC, TXCTL and TXD0 to TXD3 of each MAC, `sphTx` the P ball of each pair, whose N ball is its inverse. -/
structure PadLatch where
  ctrOe : BitVec 8
  ctr : BitVec 8
  gpioDir : BitVec 24
  gpioOut : BitVec 24
  gpioUp : BitVec 24
  gpioDn : BitVec 24
  femA : BitVec 4
  femB : BitVec 4
  tioDir : BitVec 16
  tio : BitVec 16
  gpioIn : BitVec 24
  cfb : BitVec 8
  ethTx : Vector Ball 12
  ethMdc : Vector Ball 2
  ethMdio : Vector Ball 2
  mdioIn : BitVec 2
  sphTx : Vector Ball 2
deriving DecidableEq, Repr

/-- How far priming has come (13 R412): the synthesisers locked, the calibration set read; whether the Cistern and the key store
kept their contents (R412, R422). -/
structure Priming where
  refLocked : Bool := false
  calLoaded : Bool := false
  keepCst : Bool := false
  keepScr : Bool := false
deriving DecidableEq, Repr

/-- The engine core (13 R418): supply in mV, clock in MHz before the gating of DOZE, body bias in mV, and SRAM assist. -/
structure CorePoint where
  mv : Nat := 0
  mhz : Nat := 0
  bias : Int := 0
  assist : Bool := false
deriving DecidableEq, Repr

/-- The power controller (13): the transition in progress and the held request (R427); `wakes` the wake sources, by their bits
of PWR_WAKECAUSE, that have yet to end the sleep (R433); RSTIN asserted (R407); the main domains powered; off after a
thermal shutdown (R435); `lost` when VMAIN did not hold through an emergency entry (R405); priming (R412); the pad latch (R430);
the ready bits that a return from STANDBY sets again (R415); VMAIN below 2.70 V (R401, 15 R467); timers that slept and are yet to
catch up (12 R393); the engine core's supply, clock, body bias and SRAM assist (R418). -/
structure Pwr where
  vmainLow : Bool := true
  slept : Bool := false
  trans : Option PwrReq := none
  held : Option PwrReq := none
  wakes : List Nat := []
  inReset : Bool := false
  mainOn : Bool := false
  thermOff : Bool := false
  lost : Bool := false
  priming : Option Priming := none
  latch : Option PadLatch := none
  readies : Word := 0
  core : CorePoint := {}
deriving DecidableEq, Repr

/-- A flash operation in progress (14 R439): operation, sector, first unit and the PROG data. -/
structure FlcOp where
  op : Nat
  addr : Nat
  data : List Byte
deriving DecidableEq, Repr

/-- A logbook record that waits (14 R452): CODE and DETAIL. -/
structure LogRec where
  code : Nat
  detail : Word
deriving DecidableEq, Repr

/-- What fixes a transaction: bank, wait words, CRC on, clocks a word (R317, R319, R323). -/
structure SpiMode where
  bank : Nat
  waits : Nat
  crc : Bool
  clocks : Nat
deriving DecidableEq, Repr

/-- An SPI read transaction with a word that waits for the flash: its mode, the host's words, whether one address is read throughout,
whether it is still to send anything, what the words before gave (10 R323), and the worlds that the word was issued under (01 R26). -/
structure SpiWait where
  m : SpiMode
  t : SpiRead
  fixed : Bool
  live : Bool
  words : List Word
  failed : List Bool
  worlds : List (Nat × Word)
deriving DecidableEq, Repr

/-- A read of the flash window that waits for the flash (14 R442), with the worlds it was issued under (01 R26): of one word; an SPI
transaction; the words of a management-port read, one for each element of `late`, with the bytes before them; the payload of the request
at the head of `Sph.later` (09 R299). -/
inductive FlashWait where
  | word (r : Req) (a : Word) (worlds : List (Nat × Word))
  | spi (w : SpiWait)
  | mgb (late : List Bool) (out : List Byte) (worlds : List (Nat × Word))
  | request
deriving DecidableEq, Repr

/-- A wait of select `cs` whose transaction has ended; others as they were. -/
def FlashWait.unsent (cs : Select) (w : FlashWait) : FlashWait :=
  match w with
  | .spi x => .spi (if x.t.cs = cs then { x with live := false } else x)
  | x => x

/-- The flash controller (14). An append to the logbook is operation 15 (R458); `queued` is the command that waits for one to end
(R443), `waits` the reads that wait (R442). `ecc` lists the units with bits in error and how many. -/
structure Flc where
  op : Option FlcOp := none
  queued : Option Nat := none
  waits : List FlashWait := []
  pwd : BitVec 64 := BitVec.allOnes 64
  words : List (BitVec 16) := []
  newWords : List (BitVec 16) := []
  mismatches : Nat := 0
  ecc : List (Nat × Nat) := []
  log : List LogRec := []
  head : Nat := 0
deriving DecidableEq, Repr

/-- The margin planner (14 R455): the sums its inputs are means of, and whether the host wrote a target (R457). -/
structure Age where
  detSum : Int := 0
  detCount : Nat := 0
  pulses : Nat := 0
  units : Nat := 0
  stale : Bool := false
  mask : Nat := 0
deriving DecidableEq, Repr

/-- The digital balls as levels (15 R462). -/
structure Pins where
  gpio : BitVec 24 := 0
  cfb : BitVec 8 := 0
  tio : BitVec 16 := 0
  adrIn : Bool := false
  adrOut : Bool := false
deriving DecidableEq, Repr

/-- The words a read of a low word captured for a requester (01 R32). -/
structure Snap where
  req : Nat
  key : Nat
  val : Word
deriving DecidableEq, Repr

/-! ## The whole state -/

/-- What an unlisted byte of memory reads as: erased flash, and zero in SRAM (log entry 2). -/
def memDefault (a : Nat) : Byte := if a < 0x800000 then 0xFF else 0

/-- Memory is in its canonical form. -/
def Memory.wf (m : List Host.Cell) : Bool := AMap.wf memDefault m

/-- The state of the NM48. `regs` holds every register word not at its reset value, `act` the active copies of staged
registers (R34), `cal` the calibration copies (R12), `mem` the bytes of flash and SRAM. `data` and `err` answer the last
access (log entry 10), `part` lists the engine-memory groups that a load has left incomplete, with the bytes written (R16), `arb`
numbers shared accesses as they come to wait (08 R269, R270), `inForce` the worlds that the access being performed was issued under where
they have changed since (01 R26; none between commands), `xtal` says whether the crystal was last seen to run (log entry 90),
`free` counts the free values drawn (log entry 9). -/
structure State where
  pending : List Instr
  regs : List (Nat × Word)
  act : List (Nat × Word)
  cal : List (Nat × Word)
  mem : List Host.Cell
  snaps : List Snap
  aonBuf : List (Nat × Word)
  data : Word
  err : Bool
  free : Nat
  lane : Vector Lane 96
  chain : Vector ChainSt 2
  ldpQueue : List CwJob
  ldp : Vector (Option DecJob) 8
  eng : Vector Eng 64
  wellLast : Vector (Fin 8) 8
  targetLast : Vector (Fin 15) 32
  arb : Nat
  inForce : Option (List (Nat × Word))
  events : List EvFlight
  sfm : Sfm
  granules : Vector (List (Nat × Nat)) 16
  tx : Tx
  syn : Syn
  cip : Cip
  sph : Sph
  spi : Spi
  mgb : Mgb
  mac : Vector EthMac 2
  ptp : Ptp
  fdr : Fdr
  ctr : Ctr
  pulses : List Nat
  aonHigh : List Nat
  tmr : Vector Tmr 16
  rtcDst : Option Bool
  xtal : Option Bool
  trim : RtcTrim
  part : List (Nat × Nat)
  pwr : Pwr
  flc : Flc
  age : Age
  pins : Pins
deriving DecidableEq, Repr

/-- The machine right after power-up of the always-on domain, before VMAIN power-good (13 R402, log entry 3). Every register is
at its reset value (the maps list nothing), every memory byte unlisted. -/
def State.reset : State where
  pending := []
  regs := []
  act := []
  cal := []
  mem := []
  snaps := []
  aonBuf := []
  data := 0
  err := false
  free := 0
  lane := Vector.replicate 96 {}
  chain := Vector.replicate 2 {}
  ldpQueue := []
  ldp := Vector.replicate 8 none
  eng := Vector.replicate 64 {}
  wellLast := Vector.replicate 8 7
  targetLast := Vector.replicate 32 14
  arb := 0
  inForce := none
  events := []
  sfm := {}
  granules := Vector.replicate 16 []
  tx := {}
  syn := {}
  cip := {}
  sph := {}
  spi := {}
  mgb := {}
  mac := Vector.replicate 2 {}
  ptp := {}
  fdr := {}
  ctr := {}
  pulses := []
  aonHigh := []
  tmr := Vector.replicate 16 {}
  rtcDst := none
  xtal := none
  trim := {}
  part := []
  pwr := {}
  flc := {}
  age := {}
  pins := {}

end Sys2Proof.Machine
end

