-- ==== Sys2Proof/Machine/Ops.lean ====
section
/-! DEFINITION. The named operations over registers and memory that every meaning is built from: reading and writing a register
word or field, counters, record registers (R483), events and interrupt pulses on their way, memory bytes with the
Cistern checksum (R161), worlds (R19 to R24), readiness (R29). -/

namespace Sys2Proof.Machine

/-- What a command answers. -/
abbrev Out := Host.Outcome State Fault Refusal

/-! ## Registers -/

/-- The register word held under `k`. -/
def State.reg (s : State) (k : Nat) : Word := AMap.look resetVal s.regs k

/-- The register word under `k` becomes `v`. -/
def State.setReg (s : State) (k : Nat) (v : Word) : State := { s with regs := AMap.put resetVal s.regs k v }

/-- The value of a field. -/
def State.get (s : State) (f : Fld) : Nat := bitsOf (s.reg f.key).toNat f.lo f.width

/-- A field becomes `n` (its low bits), the register's other bits unchanged. -/
def State.put (s : State) (f : Fld) (n : Nat) : State :=
  s.setReg f.key (BitVec.ofNat 32 (setBits (s.reg f.key).toNat f.lo f.width n))

/-- Whether a one-bit field is 1. -/
def State.flag (s : State) (f : Fld) : Bool := s.get f == 1

/-- A one-bit field becomes `b`. -/
def State.putB (s : State) (f : Fld) (b : Bool) : State := s.put f (bit01 b)

/-- A one-bit field becomes 1. -/
def State.raise (s : State) (f : Fld) : State := s.put f 1

/-- A one-bit field becomes 0. -/
def State.lower (s : State) (f : Fld) : State := s.put f 0

/-- A signed field's value. -/
def State.getS (s : State) (f : Fld) : Int := toSigned f.width (s.get f)

/-- Bit `i` of the register under `k` becomes `b`. -/
def State.setBit (s : State) (k i : Nat) (b : Bool) : State :=
  s.setReg k (BitVec.ofNat 32 (setBits (s.reg k).toNat i 1 (bit01 b)))

/-- Bit `i` of the register under `k`. -/
def State.bit (s : State) (k i : Nat) : Bool := bitAt (s.reg k).toNat i

/-- A counter field goes up by `n`, holding at its highest value. -/
def State.bumpBy (s : State) (f : Fld) (n : Nat) : State := s.put f (satCount f.width (s.get f) n)

/-- A counter field goes up by one, holding at its highest value. -/
def State.bump (s : State) (f : Fld) : State := s.bumpBy f 1

/-- The active copy of the staged register under `k` (R34). -/
def State.activeReg (s : State) (k : Nat) : Word := AMap.look resetVal s.act k

/-- The active value of a staged field (R34). -/
def State.getA (s : State) (f : Fld) : Nat := bitsOf (s.activeReg f.key).toNat f.lo f.width

/-- Whether a one-bit staged field is 1 in the active settings. -/
def State.flagA (s : State) (f : Fld) : Bool := s.getA f == 1

/-- The active copy under `k` becomes `v`. -/
def State.setActive (s : State) (k : Nat) (v : Word) : State := { s with act := AMap.put resetVal s.act k v }

/-- An event at a record register (R483): VALID clear, it sets VALID and `fill` writes the fields; else OVF sets. -/
def State.record (s : State) (valid ovf : Fld) (fill : State → State) : State :=
  if s.flag valid then s.raise ovf else (fill s).raise valid

/-- A free value below `2 ^ w` (log entry 9), and the state with the counter advanced. -/
def State.draw (s : State) (w : Nat) : Nat × State :=
  (Config.freeNat s.free % 2 ^ w, { s with free := s.free + 1 })

/-! ## Interrupt pulses and events on their way -/

/-- A pulse of interrupt source `n` sets out for the controller (12 R377). -/
def State.pulse (s : State) (n : Nat) : State := { s with pulses := s.pulses ++ [n] }

/-- Hardware producer `prod` fires channel `ch` (08 R272). -/
def State.fire (s : State) (prod ch : Nat) : State := { s with events := s.events ++ [.hw prod ch] }

/-! ## Typed parts -/

def State.laneAt (s : State) (n : LaneIx) : Lane := s.lane[n.val]
def State.setLane (s : State) (n : LaneIx) (l : Lane) : State := { s with lane := s.lane.set n.val l }
def State.engAt (s : State) (e : EngIx) : Eng := s.eng[e.val]
def State.setEng (s : State) (e : EngIx) (g : Eng) : State := { s with eng := s.eng.set e.val g }
def State.tmrAt (s : State) (k : TmrIx) : Tmr := s.tmr[k.val]
def State.setTmr (s : State) (k : TmrIx) (t : Tmr) : State := { s with tmr := s.tmr.set k.val t }
def State.macAt (s : State) (m : Fin 2) : EthMac := s.mac[m.val]
def State.setMac (s : State) (m : Fin 2) (x : EthMac) : State := { s with mac := s.mac.set m.val x }

/-- The engine with number `k`, when there is one. -/
def engNo (k : Nat) : Option EngIx := (List.finRange 64).find? (fun e => e.val == k)

/-- The number of a chain: A 0, B 1. -/
def chainNo : Chain → Nat
  | .a => 0
  | .b => 1

/-- The state of chain `c`. -/
def State.chainAt (s : State) (c : Chain) : ChainSt :=
  match c with
  | .a => s.chain[0]
  | .b => s.chain[1]

def State.setChain (s : State) (c : Chain) (x : ChainSt) : State :=
  match c with
  | .a => { s with chain := s.chain.set 0 x }
  | .b => { s with chain := s.chain.set 1 x }

/-- The state changed by each element of a list in turn. -/
def State.each {α : Type} (s : State) (l : List α) (f : State → α → State) : State := l.foldl f s

/-! ## Power state and logbook queue -/

/-- The power state of PWR_STAT.STATE (13): 0 RUN, 1 DOZE, 2 STANDBY, 3 TRICKLE, 4 OFF. -/
def State.pwrState (s : State) : Nat := s.get F.PWR_STAT_STATE

/-- A logbook record joins the queue of the logbook writer (14 R452), in RUN and DOZE; a full queue counts it in DROP. -/
def State.log (s : State) (code : Nat) (detail : Nat) : State :=
  if s.pwrState ≤ 1 then
    if s.flc.log.length < 16 then
      { s with flc := { s.flc with log := s.flc.log ++ [⟨code, BitVec.ofNat 32 detail⟩] } }
    else s.bump F.FLC_LOGSTAT_DROP
  else s

/-! ## Memory -/

/-- The byte at address `a`. -/
def State.byte (s : State) (a : Nat) : Byte := AMap.look memDefault s.mem a

/-- `n` bytes from address `a`. -/
def State.bytes (s : State) (a n : Nat) : List Byte := (List.range n).map (fun i => s.byte (a + i))

/-- The little-endian 32-bit word at `a` (R2, R15). -/
def State.word (s : State) (a : Nat) : Word := BitVec.ofNat 32 (ofBytesLe (s.bytes a 4))

/-- One byte written, nothing else changed. -/
def State.putByte (s : State) (a : Nat) (b : Byte) : State := { s with mem := AMap.put memDefault s.mem a b }

/-- Bytes written from address `a` on, nothing else changed. -/
def State.putBytes (s : State) : Nat → List Byte → State
  | _, [] => s
  | a, b :: bs => (s.putByte a b).putBytes (a + 1) bs

/-- The address of Cistern entry `i` (05 R148). -/
def entryAddr (i : Nat) : Nat := 0x10000000 + 16 * i

/-- h(i) of R161: the CRC-32 over the index, most significant byte first, and the entry's 16 bytes. -/
def State.entryHash (s : State) (i : Nat) : Nat :=
  crc32 ((bytesLe 3 i).reverse ++ s.bytes (entryAddr i) 16)

/-- A range list with entry `i` added. -/
def addMark (l : List (Nat × Nat)) (i : Nat) : List (Nat × Nat) :=
  match l with
  | [] => [(i, i)]
  | (a, b) :: t =>
    if i + 1 < a then (i, i) :: (a, b) :: t
    else if i + 1 = a then (i, b) :: t
    else if i ≤ b then (a, b) :: t
    else if i = b + 1 then
      (match t with
       | (c, d) :: t' => if c = i + 1 then (a, d) :: t' else (a, i) :: t
       | [] => [(a, i)])
    else (a, b) :: addMark t i

/-- The pair state of SPH_STAT.STATE (09 R283): 0 SOLO, 1 LINKING, 2 ALIGNING, 3 PRIMARY, 4 STANDBY, 5 ESTRANGED. -/
def State.pairState (s : State) : Nat := s.get F.SPH_STAT_STATE

/-- SOLO or PRIMARY: the part owns the air and its Cistern (09 R283, R294). -/
def State.ownsCistern (s : State) : Bool := s.pairState == 0 || s.pairState == 3

/-- Bytes written inside Cistern entry `i`, with the checksum kept current (R161). -/
def State.pokeEntry (s : State) (i a : Nat) (bs : List Byte) : State :=
  let s1 := s.putBytes a bs
  s1.setReg Reg.CST_SUM
    (BitVec.ofNat 32 ((s.reg Reg.CST_SUM).toNat ^^^ s.entryHash i ^^^ s1.entryHash i))

/-- A primary marks a changed entry dirty (09 R295). -/
def State.markDirty (s : State) (i : Nat) : State :=
  if s.pairState = 3 then { s with sph := { s.sph with dirty := addMark s.sph.dirty i } } else s

/-- The bytes of its group of 12 that have been written since a load stopped inside the group that holds engine-memory address
`a` (R16). -/
def State.groupMask (s : State) (a : Nat) : Nat := AMap.look (fun _ => 0) s.part ((a - 0x10600000) / 12)

/-- A load has stopped inside the group that holds engine-memory address `a` (R16). -/
def State.halfLoaded (s : State) (a : Nat) : Bool := s.groupMask a != 0

/-- The byte at `a` of the engine memories has been written. A load by the host (`load`) opens its group; a group stays open until all
twelve bytes have been written, by whomever (R16). -/
def State.markGroup (s : State) (load : Bool) (a : Nat) : State :=
  let m := setBits (s.groupMask a) ((a - 0x10600000) % 12) 1 1
  if load || s.halfLoaded a then
    { s with part := AMap.put (fun _ => 0) s.part ((a - 0x10600000) / 12) (if m = 0xFFF then 0 else m) }
  else s

/-- An address of the engine memories (R13). -/
def inEngMem (a : Nat) : Bool := decide (0x10600000 ≤ a ∧ a < 0x10780000)

/-- One byte stored to SRAM or flash; in the Cistern the checksum and the dirty mark follow. `load` says that the host loads with it
(R16). -/
def State.storeByte (s : State) (load : Bool) (a : Nat) (b : Byte) : State :=
  if 0x10000000 ≤ a ∧ a < 0x10400000 then
    (s.pokeEntry ((a - 0x10000000) / 16) a [b]).markDirty ((a - 0x10000000) / 16)
  else if inEngMem a then (s.putByte a b).markGroup load a
  else s.putByte a b

/-- Bytes stored from address `a` on. -/
def State.storeBytes (s : State) (load : Bool) : Nat → List Byte → State
  | _, [] => s
  | a, b :: bs => (s.storeByte load a b).storeBytes load (a + 1) bs

/-- The requester is one of the host's ports, whose stores load the engine memories (R16, R19). -/
def isHost (r : Nat) : Bool := r == 64 || r == 65 || r == 66

/-- Every byte of `lo .. hi - 1` back at what unlisted memory reads as. -/
def State.wipe (s : State) (lo hi : Nat) : State :=
  { s with mem := AMap.clear (fun a => decide (lo ≤ a ∧ a < hi)) s.mem }

/-- `n` bytes from `a` become free values: contents the manual calls undefined (log entry 9). -/
def State.scramble (s : State) (a n : Nat) : State :=
  let s1 := s.putBytes a ((List.range n).map (fun i => BitVec.ofNat 8 (Config.freeNat (s.free + i))))
  { s1 with free := s.free + n }

/-! ## Worlds and readiness (R19 to R29) -/

/-- A register that assigns worlds: SYS_WLD_BLK, SYS_WLD_ENG_LO, SYS_WLD_ENG_HI, or one of the region table (R25). -/
def worldReg (a : Nat) : Bool :=
  a == Reg.SYS_WLD_BLK || a == Reg.SYS_WLD_ENG_LO || a == Reg.SYS_WLD_ENG_HI ||
    decide (Reg.SYS_RGN_BASE 0 ≤ a ∧ a < 0x20000300)

/-- The registers that assign worlds, those that do not hold their reset value (R21). -/
def State.worldMap (s : State) : List (Nat × Word) := s.regs.filter (fun x => worldReg x.1)

/-- The world register under `k` as it holds for the access being performed: as it stood when that was issued (R26). -/
def State.worldWord (s : State) (k : Nat) : Word :=
  match s.inForce with
  | some m => AMap.look resetVal m k
  | none => s.reg k

/-- A field of a world register as it holds for the access being performed. -/
def State.worldField (s : State) (f : Fld) : Nat := bitsOf (s.worldWord f.key).toNat f.lo f.width

/-- `f` for an access that was issued under the worlds `m` (R26): they decide what it may do, whatever they are by now, and nothing else
of the registers that assign worlds is touched. -/
def State.underWorlds {α : Type} (s : State) (m : List (Nat × Word)) (f : State → State × α) : State × α :=
  if m = s.worldMap then f s
  else ({ (f { s with inForce := some m }).1 with inForce := s.inForce }, (f { s with inForce := some m }).2)

/-- `f` for what a block does of its own accord when another's access takes effect: the accesses it issues then meet the worlds as they
are now, whatever those were when that access was issued (R26). -/
def State.ownAccess (s : State) (f : State → State) : State :=
  match s.inForce with
  | none => f s
  | some m => { f { s with inForce := none } with inForce := some m }

/-- The world of block `i`: true when it is non-secure (R21). SYS itself follows R18. -/
def State.blockNS (s : State) (i : Nat) : Bool := i != 0 && bitAt (s.worldWord Reg.SYS_WLD_BLK).toNat i

/-- The world of engine `k`: true when it is non-secure. -/
def State.engNS (s : State) (k : Nat) : Bool :=
  if k < 32 then bitAt (s.worldWord Reg.SYS_WLD_ENG_LO).toNat k else bitAt (s.worldWord Reg.SYS_WLD_ENG_HI).toNat (k - 32)

/-- The world of a requester (R19): true when it is non-secure. Code 70 has the world of the block that moves the data,
which its own rules pass on; named in an access from outside it is taken as secure (log entry 13). -/
def State.reqNS (s : State) (r : Nat) : Bool :=
  if r < 64 then s.engNS r
  else if r = 65 ∨ r = 66 then true
  else if r = 67 then s.blockNS 4
  else if r = 68 then s.blockNS 5
  else false

/-- The bank a requester's world selects: 0 secure, 1 non-secure (R35). -/
def State.world (s : State) (r : Nat) : Nat := bit01 (s.reqNS r)

/-- The ranges of the address map (R13, R17). -/
inductive Place where
  | flash
  | cistern
  | laneBuf
  | queues
  | engMem (n : Nat)
  | scratch
  | keyStore
  | block (i : Nat)
  | unassigned
deriving DecidableEq, Repr

/-- Which range an address lies in (R13, R17). -/
def placeOf (a : Nat) : Place :=
  if a < 0x800000 then .flash
  else if a < 0x10000000 then .unassigned
  else if a < 0x10400000 then .cistern
  else if a < 0x10430000 then .laneBuf
  else if a < 0x10600000 then .queues
  else if a < 0x10780000 then .engMem ((a - 0x10600000) / 0x6000)
  else if a < 0x107FC000 then .scratch
  else if a < 0x10800000 then .keyStore
  else if a < 0x20000000 then .unassigned
  else if a < 0x20180000 then .block (a / 0x10000 % 0x2000)
  else .unassigned

/-- Whether region-table entry `n` is enabled and contains `a` (R24). -/
def State.regionHas (s : State) (a n : Nat) : Bool :=
  s.worldField (F.SYS_RGN_ATTR_EN n) == 1 &&
    decide (s.worldField (F.SYS_RGN_BASE_PAGE n) ≤ a / 4096 ∧ a / 4096 ≤ s.worldField (F.SYS_RGN_LIM_PAGE n))

/-- The world of a memory address outside the engine memories and the key store (R21): the lowest-numbered enabled
entry that contains it, or secure. -/
def State.regionNS (s : State) (a : Nat) : Bool :=
  match firstIdx 32 (s.regionHas a) with
  | some n => s.worldField (F.SYS_RGN_ATTR_NS n) == 1
  | none => false

/-- The world of a memory address or of a block's window (R21): true when it is non-secure. -/
def State.memNS (s : State) (a : Nat) : Bool :=
  match placeOf a with
  | .engMem n => s.engNS n
  | .keyStore => false
  | .block i => s.blockNS i
  | _ => s.regionNS a

/-- Whether any of `n` bytes from `a` lies in a secure resource. Worlds change at 4 KiB pages and at range ends, so
the first byte, the last byte and each page start between them decide. -/
def State.anySecure (s : State) (a n : Nat) : Bool :=
  n != 0 &&
    (!s.memNS a || !s.memNS (a + n - 1) ||
      (List.range (n / 4096 + 1)).any (fun j =>
        let p := (a / 4096 + 1 + j) * 4096
        decide (p < a + n) && !s.memNS p))

/-- SYS_READY bit `i` (R28). -/
def State.ready (s : State) (i : Nat) : Bool := s.bit Reg.SYS_READY i

/-- Whether the block that R13 ties to an address is ready (R29). The queues and the scratch are tied to none. -/
def State.placeReady (s : State) (p : Place) : Bool :=
  match p with
  | .flash => s.ready 21
  | .cistern => s.ready 13
  | .laneBuf => s.ready 9
  | .engMem _ => s.ready 6
  | .keyStore => s.ready 14
  | .block i => s.ready i
  | _ => true

/-- A world violation (R22, R23): recorded with the address, the direction and the requester. Source 1 requests while
VALID is set. -/
def State.violation (s : State) (a : Nat) (wr : Bool) (r : Nat) : State :=
  s.record F.SYS_WVIOL_INFO_VALID F.SYS_WVIOL_INFO_OVF (fun s =>
    ((s.put F.SYS_WVIOL_ADDR_ADDR a).putB F.SYS_WVIOL_INFO_WR wr).put F.SYS_WVIOL_INFO_REQ r)

/-- Why an access fails. -/
inductive AccErr where
  | world
  | other
deriving DecidableEq, Repr

/-- A write to the instruction store of engine `e` (08 R262): the flag says that it is performed, which clears LOADED; on an engine that
is not HALTED it is refused. -/
def State.storeAllowed (s : State) (e : EngIx) : State × Bool :=
  let g := s.engAt e
  if g.state == .halted then (s.setEng e { g with loaded := false }, true)
  else (s.setEng e { g with refused := true }, false)

/-- The engine whose instruction store holds address `a` (R15). -/
def storeOwner (a : Nat) : Option EngIx :=
  match placeOf a with
  | .engMem k => if (a - 0x10600000) % 0x6000 < 0x3000 then engNo k else none
  | _ => none

/-- What a write of requester `r` to memory of its world that is ready meets beyond that: the flash window takes none (R14), a part
that does not own its Cistern takes the Siphon's alone (09 R294), an instruction store those of a HALTED engine (08 R262). -/
def State.writeMet (s : State) (r a : Nat) : State × Option AccErr :=
  match placeOf a with
  | .flash => (s, some .other)
  | .cistern => if r = 69 ∨ s.ownsCistern then (s, none) else (s, some .other)
  | .block _ => (s, some .other)
  | .unassigned => (s, some .other)
  | _ =>
    match storeOwner a with
    | some e => if (s.storeAllowed e).2 then ((s.storeAllowed e).1, none) else ((s.storeAllowed e).1, some .other)
    | none => (s, none)

/-- A memory access made by the part itself (a lane writer, a cipher core, a MAC, the feeder) in world `ns` with
requester code `r`: what fails under R3, R6, R14, R22 or R29 (data movement has no access
narrower than a word to a register), and the state with any violation recorded. -/
def State.moveCheck (s : State) (ns : Bool) (r a : Nat) (wr : Bool) : State × Option AccErr :=
  match placeOf a with
  | .unassigned => (s, some .other)
  | .keyStore =>
    if wr then (if ns then (s.violation a wr r, some .world) else if s.ready 14 then (s, none) else (s, some .other))
    else (s, none)
  | p =>
    if ns && !s.memNS a then (s.violation a wr r, some .world)
    else if !s.placeReady p then (s, some .other)
    else if wr then s.writeMet r a
    else
      match p with
      | .block _ => (s, some .other)
      | _ => (s, none)

/-! ## Turns at a target (08 R269) -/

/-- The target of an address, numbered as the command GRANT numbers them. -/
def targetOf (a : Nat) : Nat :=
  match placeOf a with
  | .block i => i
  | .flash => 24
  | .cistern => 25
  | .laneBuf => 26
  | .queues => 27
  | .engMem _ => 28
  | .scratch => 29
  | .keyStore => 30
  | .unassigned => 31

/-- The target of a shared access. -/
def Access.target (x : Access) : Nat :=
  match x with
  | .load _ a => targetOf a
  | .store _ a _ => targetOf a
  | .block _ _ next _ base => targetOf (base + 4 * next)
  | .lockAcq _ => 7
  | .lockRel _ => 7
  | .job _ => 14
  | .lane => 26

/-- The target that engine `e` waits for, if its access has come to stage `st`. -/
def State.waitsAt (s : State) (e : EngIx) (st : GrantStage) : Option Nat :=
  match (s.engAt e).stall with
  | some x => if x.stage = st then x.accs.head?.map (fun a => a.2.target) else none
  | none => none

/-- Engine `j` of well `w`. -/
def wellEngine (w j : Fin 8) : EngIx := ⟨8 * w.val + j.val, by omega⟩

/-- The place of requester `r` in a target's round (R269): the eight well ports, then the requesters 64 to 70; none for an engine, whose
port takes its turn by GRANT. -/
def turnOf (r : Nat) : Option (Fin 15) := if r < 64 then none else (List.finRange 15).find? (fun p => p.val == 8 + (r - 64))

/-- A well port has an access waiting at target `t`. -/
def State.portWaits (s : State) (t : Nat) (w : Fin 8) : Bool :=
  (List.finRange 8).any (fun j => s.waitsAt (wellEngine w j) .atTarget == some t)

/-- Requester `r`, one of 64 to 70, takes its turn at target `t`: the round has come to it, unless a well port that stands before it in the
round waits there and still has its turn (R269; log entry 122). -/
def State.takeTurn (s : State) (r t : Nat) : State :=
  match turnOf r with
  | none => s
  | some p =>
    if h : t < 32 then
      let l := s.targetLast[t]
      let away (q : Nat) : Nat := (q + 14 - l.val) % 15
      if (List.finRange 8).any (fun w => decide (away w.val < away p.val) && s.portWaits t w) then s
      else { s with targetLast := s.targetLast.set t p }
    else s

/-- The bits in error of the flash unit that holds `a`. -/
def State.eccBits (s : State) (a : Nat) : Nat :=
  match s.flc.ecc.find? (fun u => u.1 == a / 16) with
  | some u => u.2
  | none => 0

/-- A read of flash at `a` meets its unit's ECC (14 R438): one bit is corrected and counted; more fail. The flag says that the
data is good. -/
def State.eccRead (s : State) (a : Nat) : State × Bool :=
  match s.eccBits a with
  | 0 => (s, true)
  | 1 => ((s.bump F.FLC_ECCCOR_COUNT).put F.FLC_ECCADDR_ADDR a, true)
  | _ => ((s.put F.FLC_ECCADDR_ADDR a).log 4 (bitsOf a 4 19), false)

/-- `eccRead` for each unit of `n` bytes from `a` that lies in flash. -/
def State.eccReads (s : State) (a n : Nat) : State × Bool :=
  ((List.range (n / 16 + 2)).map (fun j => max a ((a / 16 + j) * 16))).foldl
    (fun (acc : State × Bool) x =>
      if acc.2 && decide (x < a + n ∧ x < 0x800000) then acc.1.eccRead x else acc) (s, true)

/-- The byte at `a` as memory shows it: the key store reads 0 (05 R163), a group of engine memory that a load left incomplete a
free value, the `i`-th of those drawn (R16). -/
def State.seenByte (s : State) (a i : Nat) : Byte :=
  if placeOf a == .keyStore then 0
  else if inEngMem a && s.halfLoaded a then BitVec.ofNat 8 (Config.freeNat (s.free + i))
  else s.byte a

/-- `n` bytes from `a` as memory shows them, and the state with the free values among them drawn. -/
def State.seenBytes (s : State) (a n : Nat) : State × List Byte :=
  ((if (List.range n).any (fun i => inEngMem (a + i) && s.halfLoaded (a + i)) then { s with free := s.free + n } else s),
   (List.range n).map (fun i => s.seenByte (a + i) i))

/-- The bytes the part itself reads at `a`, or how the read fails. -/
def State.moveRead (s : State) (ns : Bool) (r a n : Nat) : State × Except AccErr (List Byte) :=
  let bad := (List.range n).foldl
    (fun (acc : State × Option AccErr) i =>
      match acc.2 with
      | some _ => acc
      | none => acc.1.moveCheck ns r (a + i) false) (s, none)
  match bad with
  | (s1, some e) => (s1, .error e)
  | (s1, none) =>
    match (if n = 0 then s1 else s1.takeTurn r (targetOf a)).eccReads a n with
    | (s2, false) => (s2, .error .other)
    | (s2, true) => ((s2.seenBytes a n).1, .ok (s2.seenBytes a n).2)

/-- The bytes the part itself reads at `a`; a read that fails returns zeros (R6, R22, R29). -/
def State.moveReadOr0 (s : State) (ns : Bool) (r a n : Nat) : State × List Byte :=
  match s.moveRead ns r a n with
  | (s1, .ok bs) => (s1, bs)
  | (s1, .error _) => (s1, List.replicate n 0)

/-- The key store slot of a word is no longer whole (05 R163, R164). -/
def State.spoilSlot (s : State) (a : Nat) : State :=
  let slot := (a - 0x107FC000) / 16
  s.setBit (Reg.CIP_KSV (slot / 32)) (slot % 32) false

/-- Every key derived from slot `k` leaves the cache (05 R164). -/
def State.dropSlotKeys (s : State) (k : Nat) : State :=
  { s with cip := { s.cip with cache := s.cip.cache.filter (fun c => !(c.slot == k || (c.k256 && c.slot + 1 == k))) } }

/-- A write to a word of the key store (05 R163, R164): a slot is whole once its fourth word is written. -/
def State.writeKeyWord (s : State) (a : Nat) (v : Word) : State :=
  let slot := (a - 0x107FC000) / 16
  let s1 := s.putBytes a (bytesLe 4 v.toNat)
  let s2 := s1.setBit (Reg.CIP_KSV (slot / 32)) (slot % 32) (a % 16 == 12)
  if a % 16 = 12 then s2.dropSlotKeys slot else s2

/-- One byte the part itself writes at `a`. The key store takes no narrow write: it is ignored and spoils the slot (05 R163). -/
def State.moveByte (s : State) (ns : Bool) (r a : Nat) (b : Byte) : State × Option AccErr :=
  match s.moveCheck ns r a true with
  | (s1, some e) => (s1, some e)
  | (s1, none) => (if placeOf a == .keyStore then s1.spoilSlot a else s1.storeByte false a b, none)

/-- An aligned word the part itself writes to the key store. -/
def State.moveKeyWord (s : State) (ns : Bool) (r a : Nat) (bs : List Byte) : State × Option AccErr :=
  match s.moveCheck ns r a true with
  | (s1, some e) => (s1, some e)
  | (s1, none) => (s1.writeKeyWord a (BitVec.ofNat 32 (ofBytesLe bs)), none)

/-- Bytes the part itself writes from `a` on, stopping at the first that fails: one by one, and to the key store by aligned words where
they fill one (log entry 61). A write that is refused so records one violation, whatever it still had to write (DESIGN CHOICE, log entry
136). -/
def State.moveBytes (s : State) (ns : Bool) (r : Nat) : Nat → List Byte → State × Option AccErr
  | a, b0 :: b1 :: b2 :: b3 :: bs =>
    if placeOf a == .keyStore && a % 4 == 0 then
      match s.moveKeyWord ns r a [b0, b1, b2, b3] with
      | (s1, some e) => (s1, some e)
      | (s1, none) => s1.moveBytes ns r (a + 4) bs
    else
      match s.moveByte ns r a b0 with
      | (s1, some e) => (s1, some e)
      | (s1, none) => s1.moveBytes ns r (a + 1) (b1 :: b2 :: b3 :: bs)
  | a, b :: bs =>
    match s.moveByte ns r a b with
    | (s1, some e) => (s1, some e)
    | (s1, none) => s1.moveBytes ns r (a + 1) bs
  | _, [] => (s, none)

/-- A write by the part itself, whose requester takes its turn at the target that performs it (08 R269). -/
def State.moveWrite (s : State) (ns : Bool) (r a : Nat) (bs : List Byte) : State × Option AccErr :=
  match s.moveBytes ns r a bs with
  | (s1, some e) => (s1, some e)
  | (s1, none) => (if bs.isEmpty then s1 else s1.takeTurn r (targetOf a), none)

/-- A write of `n` bytes at `a` by requester `r` to memory that it may reach and that is ready (R14, 05 R163, 08 R262, 09 R294). -/
def State.storePlace (s : State) (r a n v : Nat) : State × Option AccErr :=
  match placeOf a with
  | .keyStore => if n = 4 ∧ a % 4 = 0 then (s.writeKeyWord a (BitVec.ofNat 32 v), none) else (s.spoilSlot a, none)
  | _ =>
    match s.writeMet r a with
    | (s1, some e) => (s1, some e)
    | (s1, none) => (s1.storeBytes (isHost r) a (bytesLe n v), none)

/-- The number in `n` bytes at `a`, its place readable: flash through its ECC (14 R438); an engine-memory group left incomplete is a
free value (R16). -/
def State.loadPlace (s : State) (a n : Nat) : State × Except AccErr Nat :=
  match placeOf a with
  | .flash =>
    let x := s.eccRead a
    if x.2 then (x.1, .ok (ofBytesLe (x.1.bytes a n))) else (x.1, .error .other)
  | .engMem _ => ((s.seenBytes a n).1, .ok (ofBytesLe (s.seenBytes a n).2))
  | _ => (s, .ok (ofBytesLe (s.bytes a n)))

/-! ## The flash window while the flash works (14 R442) -/

/-- A read of `n` bytes at `a` must wait: it begins in the flash window and an operation or a logbook append is in progress. -/
def State.flashHolds (s : State) (a n : Nat) : Bool := s.flc.op.isSome && decide (0 < n ∧ a < 0x800000)

/-- A read of the word at `a` must wait. -/
def State.flashWaits (s : State) (a : Nat) : Bool := s.flashHolds a 4

/-! ## Common questions -/

/-- The error status of the port of requester `r` for a failed access at `a` (R6, R22, R29, 10 R324, R335). An engine's exception comes
with its stalled instruction. -/
def State.portError (s : State) (r a : Nat) : State :=
  if r = 64 ∨ r = 65 then
    let b := if r = 65 then 1 else 0
    let s1 := if s.flag (F.HSP_STATUS_ERR b) then s else s.put (F.HSP_ERRADDR_ADDR b) a
    s1.raise (F.HSP_STATUS_ERR b)
  else if r = 66 then { s with mgb := { s.mgb with status := s.mgb.status ||| 1 } }
  else s

/-- Slots run (04 R115). -/
def State.running (s : State) : Bool := s.flag F.SFM_STAT_RUNNING

/-- SFM_CTL.RUN becomes `b`. While slots do not run, FDR_CTL.ALIGN = 1 makes the feeder's frame clock wait for the slot that RUN = 1
starts, and RUN = 0 ends the wait; while they run, a write of RUN leaves the frame clock as it is until they stop (11 R363, 04 R115). -/
def State.setRun (s : State) (b : Bool) : State :=
  let wait := if s.running then s.fdr.realign else b && (s.fdr.realign || s.flag F.FDR_CTL_ALIGN)
  { s.putB F.SFM_CTL_RUN b with fdr := { s.fdr with realign := wait } }

/-- The main domains run: RUN or DOZE, powered and out of reset. -/
def State.awake (s : State) : Bool := s.pwr.mainOn && decide (s.pwrState ≤ 1)

/-- Wake source `k` of PWR_WAKECAUSE occurs (13 R433). It is recorded. When it is enabled, it is to end STANDBY or TRICKLE, or
OFF for an RTC alarm; during an entry to STANDBY or TRICKLE it acts as a held request for RUN at the point held (R428). -/
def State.signalWake (s : State) (k : Nat) : State :=
  let s1 := s.setBit Reg.PWR_WAKECAUSE k true
  if s.pwr.thermOff || (decide (k < 4) && !s.bit Reg.PWR_WAKEEN k) then s1
  else
    match s.pwr.trans with
    | some t =>
      if t.state = 2 ∨ t.state = 3 then
        let r : PwrReq := ⟨0, s.get F.PWR_STAT_OP, s.flag F.PWR_STAT_POLICY⟩
        ({ s1 with pwr := { s1.pwr with held := some r } }.raise F.PWR_STAT_HELD).raise F.PWR_STAT_TRANSITION_MERGED
      else s1
    | none =>
      if s.pwrState = 2 ∨ s.pwrState = 3 ∨ (s.pwrState = 4 ∧ k = 2) then
        { s1 with pwr := { s1.pwr with wakes := s1.pwr.wakes ++ [k] } }
      else s1

/-- The model's clock `off` units of 0.125 µs after the start of the slot in progress, no later than its last unit (02 R75); while slots
do not run, after the end of the last one. -/
def State.clockAt (s : State) (off : Nat) : Nat := s.sfm.clock + (if s.running then min off (s.sfm.slotLen - 1) else off)

/-- The absolute slot number and the offset of moment `t` of the model's clock, in the slot in progress, the one that follows it, the one
before it or the pause between them. While slots do not run it is the held number and 0 (02 R75; log entry 25). -/
def State.stampAt (s : State) (t : Nat) : Nat × Nat :=
  if s.sfm.clock ≤ t then
    if !s.running then (s.sfm.asn.toNat, 0)
    else if t < s.sfm.clock + s.sfm.slotLen then (s.sfm.asn.toNat, t - s.sfm.clock)
    else ((s.sfm.asn.toNat + 1) % 2 ^ 40, t - s.sfm.clock - s.sfm.slotLen)
  else if s.sfm.clock ≤ t + s.sfm.pause then (s.sfm.prevAsn, 0)
  else (s.sfm.prevAsn, t + s.sfm.pause + s.sfm.prevLen - s.sfm.clock)

end Sys2Proof.Machine
end

