-- ==== Sys2Proof/Machine/Ageing.lean ====
section
/-! DEFINITION. The soundings and the margin planner's inputs and proposals (14 R454 to R457). -/

namespace Sys2Proof.Machine

/-- The value of a register's C fields that the last priming loaded (R12, R451). -/
def State.calReg (s : State) (k : Nat) : Word := AMap.look resetVal s.cal k

/-- `sum / n` cut to a whole number: exact when it divides, else the number below or the one above, which the manual leaves
open (log entry 9). -/
def State.mean (s : State) (sum : Int) (n : Nat) : Int × State :=
  if n = 0 then (0, s)
  else if sum % n = 0 then (sum / n, s)
  else
    let x := s.draw 1
    (sum / n + x.1, x.2)

/-! ## Inputs (R455) -/

/-- The nominal output of power entry `k` relative to +22 dBm in 0.25 dB units (06, Output power). -/
def nominalPower (k : Nat) : Int := -2 * (63 - (k : Int))

/-- A launch at power entry `k` measured `power` (0.25 dB units); entries 24 to 63 count (R455). -/
def State.noteLaunch (s : State) (k : Nat) (power : Int) : State :=
  if 24 ≤ k then
    let s1 := s.bump F.AGE_PADET_LAUNCHES
    let s2 := { s1 with age := { s1.age with detSum := s1.age.detSum + (power - nominalPower k)
                                             detCount := s1.age.detCount + 1 } }
    let m := s2.mean s2.age.detSum s2.age.detCount
    m.2.put F.AGE_PADET_EXCESS (ofSigned 8 (clampInt (-128) 127 m.1))
  else s

/-- A calibration of the transmit synthesiser left this headroom at the ends of its band (R455). -/
def State.noteHeadroom (s : State) (h : Headroom) : State :=
  (s.put F.AGE_VCO_LOHEAD (min (s.get F.AGE_VCO_LOHEAD) h.lo.toNat)).put F.AGE_VCO_HIHEAD
    (min (s.get F.AGE_VCO_HIHEAD) h.hi.toNat)

/-- `units` units took `pulses` program pulses (R440, R455). -/
def State.notePulses (s : State) (units pulses : Nat) : State :=
  let s1 := { s with age := { s.age with units := s.age.units + units, pulses := s.age.pulses + pulses } }
  let m := s1.mean (16 * s1.age.pulses) s1.age.units
  (m.2.put F.AGE_FPULSE_UNITS (min s1.age.units (2 ^ 24 - 1))).put F.AGE_FPULSE_MEAN (min m.1.toNat 255)

/-- The factory baseline of sounding `k`: what the last priming took from the calibration set, 0 with CAL_ABSENT (R450, R454). -/
def State.baseline (s : State) (k : Nat) : Nat := bitsOf (s.calReg (Reg.AGE_SND k)).toNat 0 16

/-- DEG of sounding `k` from (f_rested − f_stressed) / f_rested in 0.01 % (R454). -/
def State.degOf (s : State) (k : Nat) (raw : Int) : Nat := min (raw - s.baseline k).toNat 0xFFFF

/-- SOUNDING_MEASUREMENT (R454, R480): the die temperature and, for each sounding from 0 on, (f_rested − f_stressed) / f_rested in
0.01 %, measured in RUN and DOZE. -/
def execSoundingMeasurement (temp : Byte) (raws : List Int) (s : State) : Out :=
  .next (if s.awake then
    (s.put F.TMP_DIE_TEMP temp.toNat).each ((List.range 24).zip raws) (fun t x =>
      (t.put (F.AGE_SND_DEG x.1) (s.degOf x.1 x.2)).raise (F.AGE_SND_VALID x.1))
  else s)

/-! ## A plan (R455) -/

/-- The four proposed operating points, the power backoff, the band limits and the pulse width. -/
structure Margins where
  op : List Word
  steps : Nat
  vco : Word
  pw : Nat
deriving DecidableEq, Repr

/-- The margins in use. -/
def State.margins (s : State) : Margins :=
  ⟨(List.range 4).map (fun n => s.reg (Reg.PWR_OP n)), s.get F.TXP_BACKOFF_STEPS, s.reg Reg.SYN_VCOLIM,
    s.get F.FLC_TIMING_PW⟩

/-- The entry that rule VF proposes for calibrated entry `cal` with degradation `deg` in 0.01 %. -/
def plannedPoint (cal : Word) (deg : Nat) : Word :=
  let mv := bitsOf cal.toNat 0 10
  let mhz := bitsOf cal.toNat 16 9
  let want := mv + 10 * ceilDiv deg 100
  if 950 < want then
    BitVec.ofNat 32 (pack [(0, max mv 950), (16, min mhz (max 50 (mhz - 10 * ceilDiv (want - 950) 10)))])
  else BitVec.ofNat 32 (pack [(0, want), (16, mhz)])

/-- PW held to 4 to 20 µs (R458). -/
def clampPw (pw : Nat) : Nat := max 4 (min 20 pw)

/-- What a plan proposes from the present inputs (R455); an output whose enable bit is 0 is proposed unchanged. -/
def State.proposal (s : State) : Margins :=
  let now := s.margins
  let deg := (List.range 8).foldl (fun m k => max m (s.get (F.AGE_SND_DEG k))) 0
  let en (i : Nat) : Bool := bitAt (s.get F.AGE_CFG_EN) i
  let lo := bitsOf now.vco.toNat 0 16
  let hi := bitsOf now.vco.toNat 16 16
  let pw := clampPw now.pw
  let pw0 := clampPw (bitsOf (s.calReg Reg.FLC_TIMING).toNat 0 5)
  { op := if en 0 then (List.range 4).map (fun n => plannedPoint (s.calReg (Reg.PWR_OP n)) deg) else now.op
    steps := if en 1 && s.age.detCount != 0 then
        (min 15 (max 0 (-((-s.age.detSum) / (2 * s.age.detCount : Nat))))).toNat
      else now.steps
    vco := if en 2 then
        BitVec.ofNat 32 (pack [(0, if s.get F.AGE_VCO_LOHEAD < 2 then min 0xFFFF (lo + 20) else lo),
          (16, if s.get F.AGE_VCO_HIHEAD < 2 then hi - 20 else hi)])
      else now.vco
    pw := if en 3 && s.age.units != 0 then
        (if 3 * s.age.units < s.age.pulses then min 20 (pw + 2)
         else if 2 * s.age.pulses < 3 * s.age.units then max (min pw pw0) (pw - 2)
         else now.pw)
      else now.pw }

/-- A plan is made (R455, R456), or skipped while a proposal stands (R457). -/
def State.makePlan (s : State) : State :=
  if s.get F.AGE_CFG_MODE = 0 then s
  else if s.get F.AGE_STAT_STATE ≠ 0 then s.raise F.AGE_STAT_SKIPPED
  else
    let p := s.proposal
    let s1 := s.each ((List.range 4).zip p.op) (fun s x => s.setReg (Reg.AGE_PROP_OP x.1) x.2)
    let s2 := ((s1.put F.AGE_PROP_TX_STEPS p.steps).setReg Reg.AGE_PROP_VCO p.vco).put F.AGE_PROP_PW_PW p.pw
    let s3 := ((s2.setReg Reg.AGE_PADET 0).setReg Reg.AGE_VCO 0xFFFF).setReg Reg.AGE_FPULSE 0
    let s4 := { s3 with age := { mask := s.get F.AGE_CFG_EN } }
    (s4.put F.AGE_STAT_STATE 1).pulse 9

/-- A write of AGE_CMD.APPROVE (R456). -/
def State.approvePlan (s : State) : State :=
  if s.get F.AGE_STAT_STATE = 1 then s.put F.AGE_STAT_STATE 2 else s

/-- A write of AGE_CMD.REJECT in ADVISE mode (R456). -/
def State.rejectPlan (s : State) : State :=
  if s.get F.AGE_STAT_STATE = 1 ∧ s.get F.AGE_CFG_MODE ≠ 2 then
    (s.put F.AGE_STAT_STATE 0).put F.AGE_STAT_RESULT 2
  else s

/-- The proposal is to be committed: approved, or made in APPLY mode (R456). -/
def State.planDecided (s : State) : Bool :=
  s.get F.AGE_STAT_STATE == 2 || (s.get F.AGE_STAT_STATE == 1 && s.get F.AGE_CFG_MODE == 2)

/-- The proposal as the AGE_PROP registers hold it. -/
def State.proposed (s : State) : Margins :=
  ⟨(List.range 4).map (fun n => s.reg (Reg.AGE_PROP_OP n)), s.get F.AGE_PROP_TX_STEPS, s.reg Reg.AGE_PROP_VCO,
    s.get F.AGE_PROP_PW_PW⟩

/-- A commit of the proposal (R457): STALE when a target of an enabled output was written since; else every field is
written and the logbook notes which outputs changed. -/
def State.writeMargins (s : State) : State :=
  let s0 := s.put F.AGE_STAT_STATE 0
  if s.age.stale then s0.put F.AGE_STAT_RESULT 3
  else
    let p := s.proposed
    let old := s.margins
    let s1 := s0.each ((List.range 4).zip p.op) (fun s x => s.setReg (Reg.PWR_OP x.1) x.2)
    let s2 := ((s1.put F.TXP_BACKOFF_STEPS p.steps).setReg Reg.SYN_VCOLIM p.vco).put F.FLC_TIMING_PW p.pw
    (s2.put F.AGE_STAT_RESULT 1).log 8 (pack [(0, bit01 (p.op != old.op)), (1, bit01 (p.steps != old.steps)),
      (2, bit01 (p.vco != old.vco)), (3, bit01 (p.pw != old.pw))])

end Sys2Proof.Machine
end

