-- ==== Sys2Proof/Machine/Ethernet.lean ====
section
/-! DEFINITION. The Ethernet MACs and the PTP clock (10 R342 to R350). Commands that carry `dt` bring the PTP clock forward by
that many Ethernet cycles; elsewhere the cycles since are a free number (log entry 9). -/

namespace Sys2Proof.Machine

/-! ## The PTP clock (R348) -/

/-- The clock's time in 2⁻²⁴ ns within the second. -/
def Ptp.fine (p : Ptp) : Nat := p.ns * 2 ^ 24 + p.frac

/-- The clock with `n` units of 2⁻²⁴ ns added; nanoseconds wrap into the 48-bit seconds. -/
def Ptp.add (p : Ptp) (n : Int) : Ptp :=
  let sec : Int := 1000000000 * 2 ^ 24
  let t := (p.fine : Int) + n
  let rest := (t % sec).toNat
  ⟨((p.sec + t / sec) % 2 ^ 48).toNat, rest / 2 ^ 24, rest % 2 ^ 24⟩

/-- `n` Ethernet cycles pass: pauses run down (R342); while block 4 is not ready the clock stands. -/
def State.ptpRun (s : State) (n : Nat) : State :=
  let s1 := { s with mac := s.mac.map (fun x => { x with pause := x.pause - n }) }
  if s.ready 4 then { s1 with ptp := s.ptp.add (n * s.get F.ETH_PTP_INC_INC : Nat) } else s1

/-- A free number of cycles passes. -/
def State.ptpNow (s : State) : State :=
  let d := s.draw 64
  d.2.ptpRun d.1

/-- A write of ETH_PTP_SETS_HI loads the clock. -/
def State.ptpLoad (s : State) : State :=
  { s with ptp := ⟨s.get F.ETH_PTP_SETS_LO_S_L + s.get F.ETH_PTP_SETS_HI_S_H * 2 ^ 32,
                   min (s.get F.ETH_PTP_SETNS_NS) 999999999, 0⟩ }

/-- A write of `v` to ETH_PTP_ADJ. -/
def State.ptpAdjust (s : State) (v : Word) : State :=
  let s1 := s.ptpNow
  { s1 with ptp := s1.ptp.add (v.toInt * 2 ^ 24) }

/-- The capture at a superframe boundary `dt` cycles on (R350). -/
def State.ptpCapture (s : State) (dt : Nat) : State :=
  let s1 := s.ptpRun dt
  (((s1.put F.ETH_PTP_SF_NS_NS s1.ptp.ns).put F.ETH_PTP_SF_SLO_S_L s1.ptp.sec).put F.ETH_PTP_SF_SHI_S_H
    (s1.ptp.sec / 2 ^ 32)).put F.ETH_PTP_SF_SFN_SFN (s1.sfm.asn.toNat / 128)

/-- The registers ETH_PTP_NS, SLO and SHI take the clock's time, for a read. -/
def State.ptpShow (s : State) : State :=
  let s1 := s.ptpNow
  ((s1.put F.ETH_PTP_NS_NS s1.ptp.ns).put F.ETH_PTP_SLO_S_L s1.ptp.sec).put F.ETH_PTP_SHI_S_H (s1.ptp.sec / 2 ^ 32)

/-! ## Rings (R343) -/

/-- COUNT: 0 acts as 1,024. -/
def ringCount (n : Nat) : Nat := if n = 0 then 1024 else n

/-- The address of descriptor `i` of a ring; bits 4:0 of the base are ignored. -/
def ringAddr (base i : Nat) : Nat := base / 32 * 32 + 32 * i

/-- Words 2 to 7 of a completed descriptor: word 2's flags and length, and the timestamp when there is one. -/
def doneWords (w2 : Nat) (stamp : Option Ptp) : List Byte :=
  let p := stamp.getD {}
  bytesLe 4 (w2 + bit01 stamp.isSome * 2 ^ 12) ++ bytesLe 4 0 ++ bytesLe 4 p.ns ++ bytesLe 4 p.sec ++
    bytesLe 4 (p.sec / 2 ^ 32) ++ bytesLe 4 0

/-- A MAC's access to memory, in its block's world (R346). -/
def State.macRead (s : State) (m : Fin 2) (a n : Nat) : State × Except AccErr (List Byte) :=
  s.moveRead (s.blockNS (4 + m.val)) (67 + m.val) a n

/-- A MAC's write to memory. -/
def State.macWrite (s : State) (m : Fin 2) (a : Nat) (bs : List Byte) : State × Option AccErr :=
  s.moveWrite (s.blockNS (4 + m.val)) (67 + m.val) a bs

/-- A descriptor is completed: words 2 to 7, then OWN of word 1 cleared last. -/
def State.closeDesc (s : State) (m : Fin 2) (d : Nat) (w1 : Word) (rest : List Byte) : State × Option AccErr :=
  match s.macWrite m (d + 8) rest with
  | (s1, some e) => (s1, some e)
  | (s1, none) => s1.macWrite m (d + 4) (bytesLe 4 (bitsOf w1.toNat 0 31))

/-- The timestamp of a frame whose start-of-frame delimiter passes now (R348, R349). -/
def State.stamp (s : State) : Option Ptp := if s.ready 4 then some s.ptp else none

/-! ## Receive (R344, R346, R347) -/

/-- The station address's six bytes, the first on the wire first. -/
def State.station (s : State) (m : Fin 2) : List Byte :=
  bytesLe 4 (s.reg (Reg.ETH_MAC_LO m.val)).toNat ++ bytesLe 2 (s.get (F.ETH_MAC_HI_ADDR_H m.val))

/-- The broadcast address. -/
def broadcast : List Byte := List.replicate 6 0xFF

/-- A group address. -/
def isGroup (a : List Byte) : Bool := bitAt (a.headD 0).toNat 0

/-- The MAC accepts a frame to address `a` (R347). -/
def State.accepts (s : State) (m : Fin 2) (a : List Byte) : Bool :=
  s.flag (F.ETH_CTL_PROMISC m.val) || a == s.station m && !isGroup a || a == broadcast ||
    (s.flag (F.ETH_CTL_MCAST m.val) && isGroup a) ||
    (s.flag (F.ETH_CTL_PTP m.val) && (a == [0x01, 0x1B, 0x19, 0, 0, 0] || a == [0x01, 0x80, 0xC2, 0, 0, 0x0E]))

/-- SIZE of a receive descriptor: 0 acts as 2,048. -/
def rxSize (w1 : Word) : Nat := if bitsOf w1.toNat 0 12 = 0 then 2048 else bitsOf w1.toNat 0 12

/-- A good frame goes to the descriptor at `d` with words `w0` and `w1`; a failed access halts the direction (R346). -/
def State.deliverFrame (s : State) (m : Fin 2) (d : Nat) (w0 w1 : Word) (bytes : List Byte) (stamp : Option Ptp) : State :=
  let part := bytes.take (rxSize w1)
  let dst := bytes.take 6
  match s.macWrite m w0.toNat part with
  | (s1, some _) => s1.raise (F.ETH_STAT_RXHALT m.val)
  | (s1, none) =>
    let w2 := pack [(0, part.length), (13, bit01 (decide (part.length < bytes.length))),
      (14, bit01 (isGroup dst && dst != broadcast)), (15, bit01 (dst == broadcast))]
    match s1.closeDesc m d w1 (doneWords w2 stamp) with
    | (s2, some _) => s2.raise (F.ETH_STAT_RXHALT m.val)
    | (s2, none) =>
      let n := ringCount (s2.get (F.ETH_RXCNT_COUNT m.val))
      let i := s2.get (F.ETH_RXIDX_IDX m.val) + 1
      let s3 := (s2.put (F.ETH_RXIDX_IDX m.val) (if n ≤ i then 0 else i)).bump (F.ETH_RXFRAMES_COUNT m.val)
      if s3.flag (F.ETH_EVT_RXE m.val) then s3.fire (0x104 + m.val) (s3.get (F.ETH_EVT_RXCH m.val)) else s3

/-- A frame meets the descriptor at RXIDX (R344). -/
def State.takeFrame (s : State) (m : Fin 2) (f : EthFrame) (stamp : Option Ptp) : State :=
  let d := ringAddr (s.get (F.ETH_RXBASE_BASE m.val)) (s.get (F.ETH_RXIDX_IDX m.val))
  match s.macRead m d 8 with
  | (s1, .error _) => s1.raise (F.ETH_STAT_RXHALT m.val)
  | (s1, .ok bs) =>
    let w0 := BitVec.ofNat 32 (ofBytesLe (bs.take 4))
    let w1 := BitVec.ofNat 32 (ofBytesLe (bs.drop 4))
    if !bitAt w1.toNat 31 then s1.bump (F.ETH_RXDROP_COUNT m.val)
    else if f.bad || decide (2044 < f.bytes.length) then s1.bump (F.ETH_RXERR_COUNT m.val)
    else s1.deliverFrame m d w0 w1 f.bytes stamp

/-! ## Transmit (R345, R346, R349) -/

/-- TXIDX moves on and TXCH fires when enabled. -/
def State.txAdvance (s : State) (m : Fin 2) : State :=
  let n := ringCount (s.get (F.ETH_TXCNT_COUNT m.val))
  let i := s.get (F.ETH_TXIDX_IDX m.val) + 1
  let s1 := s.put (F.ETH_TXIDX_IDX m.val) (if n ≤ i then 0 else i)
  if s1.flag (F.ETH_EVT_TXE m.val) then s1.fire (0x104 + m.val) (s1.get (F.ETH_EVT_TXCH m.val)) else s1

/-- The descriptor at TXIDX: its address. -/
def State.txDesc (s : State) (m : Fin 2) : Nat :=
  ringAddr (s.get (F.ETH_TXBASE_BASE m.val)) (s.get (F.ETH_TXIDX_IDX m.val))

/-- A frame padded to 60 bytes with its FCS. -/
def wireFrame (bytes : List Byte) : List Byte :=
  let p := bytes ++ List.replicate (60 - bytes.length) 0
  p ++ bytesLe 4 (crc32 p)

/-- A frame begins: its start-of-frame delimiter passes a free number of Ethernet cycles later (log entry 9), and with TSREQ = 1 that
instant is its timestamp (R349). -/
def State.txStart (s : State) (m : Fin 2) (d : Nat) (w1 : Word) (frame : List Byte) : State :=
  let s1 := s.ptpNow
  s1.setMac m { s1.macAt m with
    sending := some ⟨d, w1, wireFrame frame, if bitAt w1.toNat 30 then s1.stamp else none⟩, due := false }

/-- The check of the descriptor at TXIDX by the transmit MAC. -/
def State.txLook (s : State) (m : Fin 2) : State :=
  if !s.ready (4 + m.val) || !s.flag (F.ETH_CTL_TXEN m.val) || s.flag (F.ETH_STAT_TXHALT m.val) ||
      (s.macAt m).sending.isSome then s
  else if (s.macAt m).pause ≠ 0 then s.setMac m { s.macAt m with due := true }
  else
    let d := s.txDesc m
    match s.macRead m d 8 with
    | (s1, .error _) => s1.raise (F.ETH_STAT_TXHALT m.val)
    | (s1, .ok bs) =>
      let w1 := BitVec.ofNat 32 (ofBytesLe (bs.drop 4))
      let len := bitsOf w1.toNat 0 12
      if !bitAt w1.toNat 31 then s1
      else if len < 14 ∨ 2044 < len then
        match s1.closeDesc m d w1 (doneWords (2 ^ 13) none) with
        | (s2, some _) => s2.raise (F.ETH_STAT_TXHALT m.val)
        | (s2, none) => s2.txAdvance m
      else
        match s1.macRead m (ofBytesLe (bs.take 4)) len with
        | (s2, .error _) => s2.raise (F.ETH_STAT_TXHALT m.val)
        | (s2, .ok frame) => s2.txStart m d w1 frame

/-- The transmit MAC checks the descriptor at TXIDX (R345): one whose LEN is wrong is completed with ERR and nothing is sent; while a
PAUSE holds frames off the check waits (R342). Its accesses are its own (01 R26). -/
def State.txPoll (s : State) (m : Fin 2) : State := s.ownAccess (fun u => u.txLook m)

/-- A write of ETH_TXPOLL (R345): how far a pause has run down is a free value. -/
def State.txPolled (s : State) (m : Fin 2) : State := (if (s.macAt m).pause = 0 then s else s.ptpNow).txPoll m

/-- A check that waited for a pause is made once the pause is over (R342). -/
def State.resumeTx (s : State) (m : Fin 2) : State :=
  if (s.macAt m).due && (s.macAt m).pause == 0 then (s.setMac m { s.macAt m with due := false }).txPoll m else s

/-- The frame that MAC `m` was sending has ended: its descriptor is completed (R345), and the MAC checks the next one. -/
def State.txDone (s : State) (m : Fin 2) (f : TxFrame) : State :=
  match (s.setMac m { s.macAt m with sending := none }).closeDesc m f.desc f.w1 (doneWords 0 (if s.ready 4 then f.stamp else none)) with
  | (s1, some _) => s1.raise (F.ETH_STAT_TXHALT m.val)
  | (s1, none) => ((s1.bump (F.ETH_TXFRAMES_COUNT m.val)).txAdvance m).txPoll m

/-- TX_FRAME_END (R345, R349): the frame that MAC `m` sends ends `dt` Ethernet cycles after time was last brought forward. -/
def execTxFrameEnd (m : Fin 2) (dt : Nat) (s : State) : Out :=
  .next (let s1 := (s.ptpRun dt).resumeTx m
    match (s1.macAt m).sending with
    | some f => s1.txDone m f
    | none => s)

/-! ## PAUSE (R342) -/

/-- The PAUSE time of a frame, in quanta, when it is a PAUSE frame of IEEE 802.3 Annex 31B to MAC `m`. -/
def State.pauseQuanta (s : State) (m : Fin 2) (f : EthFrame) : Option Nat :=
  let dst := f.bytes.take 6
  if !f.bad && (dst == [0x01, 0x80, 0xC2, 0, 0, 0x01] || dst == s.station m) &&
      (f.bytes.drop 12).take 4 == [0x88, 0x08, 0x00, 0x01] then
    some (ofBytesLe ((f.bytes.drop 16).take 2).reverse)
  else none

/-- A quantum of 512 bit times, in Ethernet cycles of 8 ns. -/
def State.quantum (s : State) (m : Fin 2) : Nat :=
  match s.get (F.ETH_CTL_SPEED m.val) with
  | 0 => 6400
  | 1 => 640
  | _ => 64

/-- A frame has come: with PAUSE = 1 a PAUSE frame holds off later frames for its time, from now. -/
def State.honourPause (s : State) (m : Fin 2) (f : EthFrame) : State :=
  match s.pauseQuanta m f with
  | some q => if s.flag (F.ETH_CTL_PAUSE m.val) then s.setMac m { s.macAt m with pause := q * s.quantum m } else s
  | none => s

/-- The in-band status that came before a frame (R342). -/
def State.inBand (s : State) (m : Fin 2) (v : BitVec 4) : State :=
  s.setReg (Reg.ETH_STAT m.val) (BitVec.ofNat 32 (setBits (s.reg (Reg.ETH_STAT m.val)).toNat 0 4 v.toNat))

/-- RX_FRAME (R342, R344, R347): a frame arrives; its start-of-frame delimiter passes `dt` cycles after time was last brought
forward. Held balls bring none (13 R430). -/
def execRxFrame (m : Fin 2) (f : EthFrame) (dt : Nat) (s : State) : Out :=
  let s0 := s.ptpRun dt
  .next (if !s.ready (4 + m.val) || s.pwr.latch.isSome then s0
    else
      let s1 := (s0.resumeTx m).inBand m f.status
      if !s1.flag (F.ETH_CTL_RXEN m.val) || s1.flag (F.ETH_STAT_RXHALT m.val) then s1
      else
        let s2 := if s1.accepts m (f.bytes.take 6) then s1.takeFrame m f s0.stamp else s1
        (s2.honourPause m f).resumeTx m)

/-! ## Enables and MDIO (R342, R346) -/

/-- ETH_CTL has been written; its old value was `old`. An enable that rises clears its halt and restarts its index. -/
def State.ethCtlWritten (s : State) (m : Fin 2) (old : Word) : State :=
  let s1 := if s.flag (F.ETH_CTL_RXEN m.val) && !bitAt old.toNat 1 then
      (s.lower (F.ETH_STAT_RXHALT m.val)).put (F.ETH_RXIDX_IDX m.val) 0
    else s
  if s1.flag (F.ETH_CTL_TXEN m.val) && !bitAt old.toNat 0 then
    (s1.lower (F.ETH_STAT_TXHALT m.val)).put (F.ETH_TXIDX_IDX m.val) 0
  else s1

/-- A write of `v` to ETH_MDIO: ignored while GO = 1. -/
def State.mdioWrite (s : State) (m : Fin 2) (v : Word) : State :=
  if s.flag (F.ETH_MDIO_GO m.val) then s
  else s.setReg (Reg.ETH_MDIO m.val) (BitVec.ofNat 32 (pack [(0, bitsOf v.toNat 0 26), (30, bitsOf v.toNat 30 2)]))

/-- What a read of the PHY takes: its data, or while balls are held sixteen times the level latched on MDIO (13 R430). -/
def State.mdioData (s : State) (m : Fin 2) (data : BitVec 16) : Nat :=
  match s.pwr.latch with
  | some p => if p.mdioIn.getLsbD m.val then 0xFFFF else 0
  | none => data.toNat

/-- MDIO_FRAME_END: a Clause 22 frame ends; a read takes the PHY's data. -/
def execMdioFrameEnd (m : Fin 2) (data : BitVec 16) (s : State) : Out :=
  .next (if s.flag (F.ETH_MDIO_GO m.val) then
    let s1 := if s.flag (F.ETH_MDIO_READ m.val) then s.put (F.ETH_MDIO_DATA m.val) (s.mdioData m data) else s
    s1.lower (F.ETH_MDIO_GO m.val)
  else s)

end Sys2Proof.Machine
end

