-- ==== Sys2Proof/Machine/Supply.lean ====
section
/-! DEFINITION. The engine core's supply, clock, body bias and SRAM assist at the operating points (13 R412, R417, R418; log entry 151). -/

namespace Sys2Proof.Machine

/-- The body bias of entry `k` of PWR_BIAS, in mV (R436). -/
def State.biasOf (s : State) (k : Nat) : Int := (BitVec.ofNat 8 (s.get (F.PWR_BIAS_FBB k))).toInt * 10

/-- What the engine core has at point `op` under a policy (R417, R418): ORDER keeps the body bias at 0 and SRAM assist on at P2 and P3. -/
def State.coreTarget (s : State) (op : Nat) (pol : Bool) : CorePoint :=
  { mv := s.get (F.PWR_OP_MV op), mhz := s.get (F.PWR_OP_MHZ op)
    bias := if pol then s.biasOf op else 0
    assist := if pol then s.flag (F.PWR_BIAS_ASSIST op) else decide (2 ≤ op) }

/-- The first part of a change to `t` (R418), with the supply still to slew: under ORDER going down the clock has switched, going up it
waits for the supply; under BIAS body bias, SRAM assist and the clock have changed. -/
def CorePoint.towards (c t : CorePoint) (pol : Bool) : CorePoint :=
  if pol then { t with mv := c.mv }
  else { c with bias := 0, assist := c.assist || t.assist, mhz := if t.mv ≤ c.mv then t.mhz else c.mhz }

/-- What STANDBY leaves on the engine core (R418, R421): no clock, and under BIAS the values of PWR_BIAS4. -/
def State.coreAsleep (s : State) (pol : Bool) : CorePoint :=
  { mv := s.pwr.core.mv, mhz := 0
    bias := if pol then s.biasOf 4 else 0
    assist := if pol then s.flag (F.PWR_BIAS_ASSIST 4) else s.pwr.core.assist }

/-- The engine core is under the operating points: priming has set its supply (R412). -/
def State.coreUp (s : State) : Bool :=
  match s.pwr.priming with
  | some p => p.calLoaded
  | none => false

/-- The engine core has this supply, clock, body bias and SRAM assist. -/
def State.setPoint (s : State) (c : CorePoint) : State := { s with pwr := { s.pwr with core := c } }

/-- The point that a request runs at: a request for DOZE keeps the point in use (R421). -/
def State.requestedPoint (s : State) (r : PwrReq) : Nat := if r.state = 0 then r.op else s.get F.PWR_STAT_OP

/-- The engine core begins its change for a request in RUN or DOZE; engines go on issuing (R418). -/
def State.beginPoint (s : State) (r : PwrReq) : State :=
  if s.coreUp && decide (r.state ≤ 1 ∧ s.pwrState ≤ 1) then
    s.setPoint (s.pwr.core.towards (s.coreTarget (s.requestedPoint r) r.pol) r.pol)
  else s

/-- The engine core has reached a request's point. -/
def State.reachPoint (s : State) (r : PwrReq) : State :=
  if s.coreUp then s.setPoint (s.coreTarget (s.requestedPoint r) r.pol) else s

/-- Priming has read the calibration set: the engine core goes to the point in use, and on to that of a request that waits for it (R412,
R428). -/
def State.primePoint (s : State) : State :=
  let s1 := s.setPoint (s.coreTarget (s.get F.PWR_STAT_OP) (s.flag F.PWR_STAT_POLICY))
  match s.pwr.trans with
  | some r => s1.beginPoint r
  | none => s1

end Sys2Proof.Machine
end

