-- ==== Sys2Proof/Machine/Requests.lean ====
section
/-! DEFINITION. Power requests and how they merge (13 R416 to R418, R427, R429), the start and stop of slots by SFM_CTL.RUN
(04 R115), and the commit of a margin plan (14 R456, R457). -/

namespace Sys2Proof.Machine

/-- A write of SFM_CTL.RUN (R115): 1 starts slots or cancels a stop that has not come; 0 stops them at the next boundary. -/
def State.runBit (s : State) (b : Bool) : State :=
  let s1 := s.setRun b
  if b then (if s.running then { s1 with sfm := { s1.sfm with stopPend := false } }
             else { s1 with sfm := { s1.sfm with startPend := true } })
  else (if s.running then { s1 with sfm := { s1.sfm with stopPend := true } }
        else { s1 with sfm := { s1.sfm with startPend := false, adopt := none } })

/-! ## Requests -/

/-- A transition to `r` begins (R427): the engine core begins its change (R418), and an entry to STANDBY stops slots (R420). -/
def State.beginTransition (s : State) (r : PwrReq) : State :=
  let s1 := { s with pwr := { s.pwr with trans := some r } }.beginPoint r
  let s2 := (s1.raise F.PWR_STAT_BUSY).putB F.PWR_STAT_POLICY r.pol
  if r.state = 2 then s2.runBit false else s2

/-- The transitions R416 allows from the present state; from STANDBY the only ones left are those that act as a wake (R428). -/
def State.mayEnter (s : State) (target : Nat) : Bool := decide (s.pwrState ≤ 1 ∨ (s.pwrState = 2 ∧ target = 0))

/-- A request that finds no transition in progress (R416, R427): nothing to do at the state and point already reached. -/
def State.startRequest (s : State) (r : PwrReq) : State :=
  if r.state = s.pwrState ∧ (r.state ≠ 0 ∨ r.op = s.get F.PWR_STAT_OP) then s
  else if s.mayEnter r.state then s.beginTransition r
  else s.raise F.PWR_STAT_BADREQ

/-- A request waits for the transition in progress to end (R427). -/
def State.holdRequest (s : State) (r : PwrReq) : State :=
  ({ s with pwr := { s.pwr with held := some r } }.raise F.PWR_STAT_HELD).raise F.PWR_STAT_TRANSITION_MERGED

/-- A write of PWR_REQ (R416, R427): out of STANDBY, TRICKLE and OFF only a wake leads. -/
def State.requestPower (s : State) (r : PwrReq) : State :=
  if 4 < r.state ∨ (s.pwr.trans = none ∧ 2 ≤ s.pwrState ∧ r.state ≠ s.pwrState) then s.raise F.PWR_STAT_BADREQ
  else if s.pwr.trans.isSome then s.holdRequest r
  else s.startRequest r

/-- A transition has ended: a held request starts at once; source 5 pulses when none is left (R427, R429). -/
def State.endTransition (s : State) : State :=
  let s1 := { s with pwr := { s.pwr with trans := none, held := none } }
  let s2 := (s1.lower F.PWR_STAT_BUSY).lower F.PWR_STAT_HELD
  match s.pwr.held with
  | some r =>
    let s3 := s2.startRequest r
    if s3.pwr.trans.isSome then s3 else s3.pulse 5
  | none => s2.pulse 5

/-- The entry of operating point `n` has been written: at the point in use it acts as a request for that point (R417). -/
def State.pointWritten (s : State) (n : Nat) : State :=
  if s.pwrState ≤ 1 ∧ n = s.get F.PWR_STAT_OP then
    let r : PwrReq := ⟨s.pwrState, n, s.flag F.PWR_STAT_POLICY⟩
    if s.pwr.trans.isSome then s.holdRequest r else s.beginTransition r
  else s

/-! ## The commit of a plan -/

/-- A decided plan commits (R456, R457); a change of the entry in use acts as R417 gives. -/
def State.commitPlan (s : State) : State :=
  if s.planDecided then
    let n := s.get F.PWR_STAT_OP
    let s1 := s.writeMargins
    if s1.reg (Reg.PWR_OP n) = s.reg (Reg.PWR_OP n) then s1 else s1.pointWritten n
  else s

/-- A plan may have been made or approved: while slots do not run (04 R115) it commits without waiting for a boundary (R456). -/
def State.planSettled (s : State) : State := if s.running then s else s.commitPlan

/-- PLAN_DUE (R455 to R457): the interval has passed in RUN or DOZE. -/
def execPlanDue (s : State) : Out := .next (if s.awake then s.makePlan.planSettled else s)

end Sys2Proof.Machine
end

