-- ==== Sys2Proof/Machine/Aes.lean ====
section
/-! DEFINITION. AES (FIPS 197) with 128-bit and 256-bit keys, AES-CMAC, and CCM* with a 13-byte nonce: the algorithms that
05 R168, R172 and R176 to R181 name. -/

namespace Sys2Proof.Machine

/-- The substitution box of FIPS 197. -/
def aesSbox : List Nat :=
  [0x63, 0x7C, 0x77, 0x7B, 0xF2, 0x6B, 0x6F, 0xC5, 0x30, 0x01, 0x67, 0x2B, 0xFE, 0xD7, 0xAB, 0x76] ++
  [0xCA, 0x82, 0xC9, 0x7D, 0xFA, 0x59, 0x47, 0xF0, 0xAD, 0xD4, 0xA2, 0xAF, 0x9C, 0xA4, 0x72, 0xC0] ++
  [0xB7, 0xFD, 0x93, 0x26, 0x36, 0x3F, 0xF7, 0xCC, 0x34, 0xA5, 0xE5, 0xF1, 0x71, 0xD8, 0x31, 0x15] ++
  [0x04, 0xC7, 0x23, 0xC3, 0x18, 0x96, 0x05, 0x9A, 0x07, 0x12, 0x80, 0xE2, 0xEB, 0x27, 0xB2, 0x75] ++
  [0x09, 0x83, 0x2C, 0x1A, 0x1B, 0x6E, 0x5A, 0xA0, 0x52, 0x3B, 0xD6, 0xB3, 0x29, 0xE3, 0x2F, 0x84] ++
  [0x53, 0xD1, 0x00, 0xED, 0x20, 0xFC, 0xB1, 0x5B, 0x6A, 0xCB, 0xBE, 0x39, 0x4A, 0x4C, 0x58, 0xCF] ++
  [0xD0, 0xEF, 0xAA, 0xFB, 0x43, 0x4D, 0x33, 0x85, 0x45, 0xF9, 0x02, 0x7F, 0x50, 0x3C, 0x9F, 0xA8] ++
  [0x51, 0xA3, 0x40, 0x8F, 0x92, 0x9D, 0x38, 0xF5, 0xBC, 0xB6, 0xDA, 0x21, 0x10, 0xFF, 0xF3, 0xD2] ++
  [0xCD, 0x0C, 0x13, 0xEC, 0x5F, 0x97, 0x44, 0x17, 0xC4, 0xA7, 0x7E, 0x3D, 0x64, 0x5D, 0x19, 0x73] ++
  [0x60, 0x81, 0x4F, 0xDC, 0x22, 0x2A, 0x90, 0x88, 0x46, 0xEE, 0xB8, 0x14, 0xDE, 0x5E, 0x0B, 0xDB] ++
  [0xE0, 0x32, 0x3A, 0x0A, 0x49, 0x06, 0x24, 0x5C, 0xC2, 0xD3, 0xAC, 0x62, 0x91, 0x95, 0xE4, 0x79] ++
  [0xE7, 0xC8, 0x37, 0x6D, 0x8D, 0xD5, 0x4E, 0xA9, 0x6C, 0x56, 0xF4, 0xEA, 0x65, 0x7A, 0xAE, 0x08] ++
  [0xBA, 0x78, 0x25, 0x2E, 0x1C, 0xA6, 0xB4, 0xC6, 0xE8, 0xDD, 0x74, 0x1F, 0x4B, 0xBD, 0x8B, 0x8A] ++
  [0x70, 0x3E, 0xB5, 0x66, 0x48, 0x03, 0xF6, 0x0E, 0x61, 0x35, 0x57, 0xB9, 0x86, 0xC1, 0x1D, 0x9E] ++
  [0xE1, 0xF8, 0x98, 0x11, 0x69, 0xD9, 0x8E, 0x94, 0x9B, 0x1E, 0x87, 0xE9, 0xCE, 0x55, 0x28, 0xDF] ++
  [0x8C, 0xA1, 0x89, 0x0D, 0xBF, 0xE6, 0x42, 0x68, 0x41, 0x99, 0x2D, 0x0F, 0xB0, 0x54, 0xBB, 0x16]

/-- The substitution of one byte. -/
def aesSub (b : Byte) : Byte := BitVec.ofNat 8 (aesSbox.getD b.toNat 0)

/-- Multiplication by x in the field of FIPS 197. -/
def xtime (b : Byte) : Byte := if b.msb then (b <<< 1) ^^^ 0x1B else b <<< 1

/-- Byte-wise exclusive or of two byte lists; the shorter decides the length. -/
def xorBytes (a b : List Byte) : List Byte := List.zipWith (· ^^^ ·) a b

/-- The next four-byte word of the key schedule: `i` is its index, `nk` the words of the key. -/
def keyWord (nk i : Nat) (rcon : Byte) (prev back : List Byte) : List Byte :=
  let t :=
    if i % nk = 0 then
      (match prev.map aesSub with
       | [a, b, c, d] => [b ^^^ rcon, c, d, a]
       | l => l)
    else if nk > 6 ∧ i % nk = 4 then prev.map aesSub
    else prev
  xorBytes back t

/-- `n` more words of the key schedule; `ws` holds the words so far, the newest first. -/
def keyWords (nk : Nat) : Nat → Nat → Byte → List (List Byte) → List (List Byte)
  | 0, _, _, ws => ws
  | n + 1, i, rcon, ws =>
    let w := keyWord nk i rcon (ws.getD 0 []) (ws.getD (nk - 1) [])
    keyWords nk n (i + 1) (if i % nk = 0 then xtime rcon else rcon) (w :: ws)

/-- The round keys, 16 bytes each, of a 16-byte or 32-byte key. -/
def aesSchedule (key : List Byte) : List (List Byte) :=
  let nk := key.length / 4
  let first := (List.range nk).map (fun i => (key.drop (4 * i)).take 4)
  let total := 4 * (nk + 7)
  let ws := (keyWords nk (total - nk) nk 1 first.reverse).reverse
  (List.range (nk + 7)).map (fun r => ((ws.drop (4 * r)).take 4).flatten)

/-- ShiftRows on a state held column by column. -/
def shiftRows (st : List Byte) : List Byte :=
  (List.range 16).map (fun i => st.getD ((i + 4 * (i % 4)) % 16) 0)

/-- MixColumns of one column. -/
def mixColumn (c : List Byte) : List Byte :=
  match c with
  | [a, b, d, e] =>
    let t := a ^^^ b ^^^ d ^^^ e
    [a ^^^ t ^^^ xtime (a ^^^ b), b ^^^ t ^^^ xtime (b ^^^ d), d ^^^ t ^^^ xtime (d ^^^ e), e ^^^ t ^^^ xtime (e ^^^ a)]
  | l => l

/-- MixColumns. -/
def mixColumns (st : List Byte) : List Byte :=
  (List.range 4).flatMap (fun i => mixColumn ((st.drop (4 * i)).take 4))

/-- The rounds after the first key addition. -/
def aesRounds : List (List Byte) → List Byte → List Byte
  | [], st => st
  | [k], st => xorBytes (shiftRows (st.map aesSub)) k
  | k :: ks, st => aesRounds ks (xorBytes (mixColumns (shiftRows (st.map aesSub))) k)

/-- One block enciphered under a schedule. -/
def aesBlock (sched : List (List Byte)) (blk : List Byte) : List Byte :=
  match sched with
  | [] => blk
  | k :: ks => aesRounds ks (xorBytes blk k)

/-- A byte list filled with zeros to a multiple of 16. -/
def padTo16 (bs : List Byte) : List Byte := bs ++ List.replicate ((16 - bs.length % 16) % 16) 0

/-- CBC-MAC over `n` blocks of `bs`, from the chaining value `x`. -/
def cbcMac (sched : List (List Byte)) : Nat → List Byte → List Byte → List Byte
  | 0, x, _ => x
  | n + 1, x, bs => cbcMac sched n (aesBlock sched (xorBytes x (bs.take 16))) (bs.drop 16)

/-- Sixteen zero bytes. -/
def zero16 : List Byte := List.replicate 16 0

/-- Doubling of a 128-bit string in the field of AES-CMAC. -/
def cmacDouble (bs : List Byte) : List Byte :=
  let n := ofBytesLe bs.reverse
  let d := (2 * n) % 2 ^ 128 ^^^ (if n / 2 ^ 127 = 1 then 0x87 else 0)
  (bytesLe 16 d).reverse

/-- AES-CMAC of a message (16 bytes). -/
def cmac (key msg : List Byte) : List Byte :=
  let sched := aesSchedule key
  let k1 := cmacDouble (aesBlock sched zero16)
  let n := max 1 (ceilDiv msg.length 16)
  let last := msg.drop (16 * (n - 1))
  let m :=
    if last.length = 16 then xorBytes last k1
    else xorBytes (last ++ 0x80 :: List.replicate (15 - last.length) 0) (cmacDouble k1)
  aesBlock sched (xorBytes (cbcMac sched (n - 1) zero16 msg) m)

/-- The CCM* authentication value: nonce of 13 bytes, MIC length, a-data and m-data. -/
def ccmTag (sched : List (List Byte)) (nonce : List Byte) (mic : Nat) (a m : List Byte) : List Byte :=
  let flags := (if a = [] then 0 else 64) + 8 * ((mic - 2) / 2) + 1
  let b0 := BitVec.ofNat 8 flags :: nonce ++ (bytesLe 2 m.length).reverse
  let ad := if a = [] then [] else padTo16 ((bytesLe 2 a.length).reverse ++ a)
  let body := b0 ++ ad ++ padTo16 m
  cbcMac sched (body.length / 16) zero16 body

/-- Key stream block `i` of CCM*. -/
def ccmStream (sched : List (List Byte)) (nonce : List Byte) (i : Nat) : List Byte :=
  aesBlock sched (1 :: nonce ++ (bytesLe 2 i).reverse)

/-- m-data enciphered or deciphered by the key stream from block 1 on. -/
def ccmCrypt (sched : List (List Byte)) (nonce m : List Byte) : List Byte :=
  xorBytes m ((List.range (ceilDiv m.length 16)).flatMap (fun i => ccmStream sched nonce (i + 1)))

/-- The MIC as sent: the authentication value under key stream block 0, cut to its length. -/
def ccmMic (sched : List (List Byte)) (nonce : List Byte) (mic : Nat) (a m : List Byte) : List Byte :=
  (xorBytes (ccmTag sched nonce mic a m) (ccmStream sched nonce 0)).take mic

end Sys2Proof.Machine
end

