-- ==== Sys2Proof/Machine/Coding.lean ====
section
/-! DEFINITION. Frames and codes (03): the profile table, the Golay-coded header, segmentation, whitening, the LDPC
codes with their encoder and decoder, and the SUN header. -/

namespace Sys2Proof.Machine

/-! ## Profiles (R109) -/

/-- One row of the profile table: 4-GFSK or 2-GFSK, the RATE code (0 = 25, 1 = 50, 2 = 100 ksym/s), and the number of
block rows m of its code (12 at rate 1/2, 8 at 2/3, 4 at 5/6; R97). -/
structure Profile where
  fourLevel : Bool
  rate : Nat
  rows : Nat
deriving DecidableEq, Repr

/-- The profile table of R109. -/
def profileOf (p : Nat) : Profile :=
  match p with
  | 0 => ⟨false, 0, 12⟩
  | 1 => ⟨false, 1, 12⟩
  | 2 => ⟨false, 1, 8⟩
  | 3 => ⟨false, 2, 12⟩
  | 4 => ⟨false, 2, 8⟩
  | 5 => ⟨false, 2, 4⟩
  | 6 => ⟨true, 2, 8⟩
  | _ => ⟨true, 2, 4⟩

/-- One symbol at a RATE code, in units of 0.125 µs: 40, 20 and 10 µs. -/
def symbolTime (rate : Nat) : Nat :=
  match rate with
  | 0 => 320
  | 1 => 160
  | _ => 80

/-- The time of `n` bits in units of 0.125 µs (two bits a symbol in 4-GFSK, R90). -/
def bitsTime (fourLevel : Bool) (rate n : Nat) : Nat :=
  n * symbolTime rate / (if fourLevel then 2 else 1)

/-! ## The Deep header (R92 to R95) -/

/-- Row `i` of the parity table of R94. -/
def golayRow (i : Nat) : Nat :=
  match i with
  | 11 => 0xDC5
  | 10 => 0xB8B
  | 9 => 0x717
  | 8 => 0xE2D
  | 7 => 0xC5B
  | 6 => 0x8B7
  | 5 => 0x16F
  | 4 => 0x2DD
  | 3 => 0x5B9
  | 2 => 0xB71
  | 1 => 0x6E3
  | _ => 0xFFE

/-- The 12 parity bits of a 12-bit message (R94). -/
def golayParity (m : Nat) : Nat :=
  (List.range 12).foldl (fun p i => if bitAt m i then p ^^^ golayRow i else p) 0

/-- The 24-bit codeword of a 12-bit message (R94). -/
def golayWord (m : Nat) : Nat := m * 4096 + golayParity m

/-- Every message error of weight 3 or less. -/
def messageErrors : List Nat :=
  let ones := (List.range 12).map (fun i => 2 ^ i)
  let twos := (List.range 12).flatMap (fun i => (List.range i).map (fun j => 2 ^ i + 2 ^ j))
  let threes := (List.range 12).flatMap (fun i => (List.range i).flatMap (fun j =>
    (List.range j).map (fun k => 2 ^ i + 2 ^ j + 2 ^ k)))
  0 :: ones ++ twos ++ threes

/-- The message of a received 24-bit word within 3 bit errors of a codeword, if any (R95). -/
def golayDecode (w : Nat) : Option Nat :=
  let m := w / 4096 % 4096
  let s := golayParity m ^^^ (w % 4096)
  (messageErrors.find? (fun e => popCount 12 e + popCount 12 (s ^^^ golayParity e) ≤ 3)).map (fun e => m ^^^ e)

/-- The 48 on-air bits of a 24-bit header: H0 then H1 (R89, R94). -/
def headerBits (h : Nat) : List Bool :=
  bitsMsb 24 (golayWord (h / 4096 % 4096)) ++ bitsMsb 24 (golayWord (h % 4096))

/-- The corrected 24-bit header of 48 received bits, if both codewords decode and HCHK matches (R93, R95). -/
def headerDecode (bs : List Bool) : Option Nat :=
  match golayDecode (ofBitsMsb (bs.take 24)), golayDecode (ofBitsMsb ((bs.drop 24).take 24)) with
  | some a, some b =>
    let h := a * 4096 + b
    if crc4Hdr h = h % 16 then some h else none
  | _, _ => none

/-- LEN of a header (R92). -/
def hdrLen (h : Nat) : Nat := bitsOf h 12 12
/-- PROF of a header (R92). -/
def hdrProf (h : Nat) : Nat := bitsOf h 9 3

/-- The length and profile checks of R95 against the modulation and rate of the locked searcher. -/
def headerFits (fourLevel : Bool) (rate h : Nat) : Bool :=
  decide (1 ≤ hdrLen h ∧ hdrLen h ≤ 1536) && (profileOf (hdrProf h)).fourLevel == fourLevel &&
    (profileOf (hdrProf h)).rate == rate

/-- A header from its fields, with HCHK (R92, R93). -/
def mkHeader (len prof sec ackreq train up : Nat) : Nat :=
  let h := len % 4096 * 4096 + prof % 8 * 512 + sec % 2 * 256 + ackreq % 2 * 128 + train % 2 * 64 + up % 2 * 32
  h + crc4Hdr h

/-! ## The SUN header (R83 to R88; the bit places are PRESUMED, log entry 21) -/

/-- Mode switch of a PHR whose first bit on air is bit 15. -/
def phrModeSwitch (p : Nat) : Bool := bitAt p 15
/-- The FCS length the PHR selects, in bytes: 4 when its FCS type bit is 0, 2 when it is 1. -/
def phrFcsLen (p : Nat) : Nat := if bitAt p 12 then 2 else 4
/-- Data whitening in use. -/
def phrWhitened (p : Nat) : Bool := bitAt p 11
/-- The PSDU length in bytes. -/
def phrLen (p : Nat) : Nat := bitsOf p 0 11

/-- The checks of R87. -/
def sunHeaderFits (p : Nat) : Bool := !phrModeSwitch p && decide (phrFcsLen p ≤ phrLen p)

/-- The bits of the SUN header window (R86). -/
def sunWindow (coded : Bool) : Nat := if coded then 64 else 16

/-- Whether a PSDU ends in the FCS the PHR selects (R88). -/
def fcsGood (phr : Nat) (psdu : List Byte) : Bool :=
  let n := phrFcsLen phr
  let body := psdu.take (psdu.length - n)
  let tail := ofBytesLe (lastN n psdu)
  if n = 2 then tail == fcs16 body else tail == fcs32 body

/-- The SFD values (each with whether it is the coded one) of the set SFD selects (R84; values PRESUMED, log entry 21). In
4-FSK each SFD bit is sent as one outer symbol: 0 as 01, 1 as 11. -/
def sfdPatterns (sfd : Nat) (fourLevel : Bool) : List (List Bool × Bool) :=
  let spread (w : Nat) : List Bool :=
    if fourLevel then (bitsMsb 16 w).flatMap (fun b => [b, true]) else bitsMsb 16 w
  let set0 := [(spread 0x6F4E, true), (spread 0x904E, false)]
  let set1 := [(spread 0x632D, true), (spread 0x7A0E, false)]
  match sfd with
  | 0 => set0
  | 1 => set1
  | _ => set0 ++ set1

/-! ## The convolutional code of SUN frames (R83, R85, R86; PRESUMED, log entry 21) -/

/-- One step of the encoder from the last three bits `m` (the newest in bit 0): the two code bits of `b`, and the bits then held.
NRNSC sends the inverse of the sums by 1 + x + x² + x³ and 1 + x² + x³; RSC sends the bit itself and the parity of the fed-back
bit. -/
def sunStep (rsc : Bool) (m : Nat) (b : Bool) : (Bool × Bool) × Nat :=
  let sum3 := bitAt m 0 != (bitAt m 1 != bitAt m 2)
  let sum2 := bitAt m 1 != bitAt m 2
  let held (w : Bool) : Nat := bit01 w + 2 * (m % 4)
  if rsc then ((b, (b != sum3) != sum2), held (b != sum3)) else ((!(b != sum3), !(b != sum2)), held b)

/-- The code symbols of a bit list from the bits held, and the bits held after it. -/
def sunRun (rsc : Bool) : Nat → List Bool → List (Bool × Bool) × Nat
  | m, [] => ([], m)
  | m, b :: bs => ((sunStep rsc m b).1 :: (sunRun rsc (sunStep rsc m b).2 bs).1, (sunRun rsc (sunStep rsc m b).2 bs).2)

/-- The `n` tail bits that bring the encoder back to zero. -/
def sunTail (rsc : Bool) : Nat → Nat → List Bool
  | _, 0 => []
  | m, n + 1 =>
    let b := rsc && (bitAt m 0 != (bitAt m 1 != bitAt m 2))
    b :: sunTail rsc (sunStep rsc m b).2 n

/-- The pad bits after the tail of a PSDU of `n` bytes: the code symbols then fill blocks of 16. -/
def sunPad (n : Nat) : List Bool := if n % 2 = 1 then bitsMsb 5 0x0B else bitsMsb 13 0x0B0B

/-- The interleaver exchanges the symbols of each block of 16: row by row in, column by column out, from the last. It undoes itself. -/
def interleave {α : Type} (l : List α) : List α :=
  (List.range l.length).filterMap (fun i => l[16 * (i / 16) + (15 - 4 * (i % 4) - i % 16 / 4)]?)

/-- A list taken two by two. -/
def pairUp {α : Type} : List α → List (α × α)
  | a :: b :: t => (a, b) :: pairUp t
  | _ => []

/-- The on-air code bits of a coded frame's PHR and PSDU. -/
def sunEncode (rsc intlv : Bool) (bits : List Bool) : List Bool :=
  let a := sunRun rsc 0 bits
  let tail := sunTail rsc a.2 3
  let b := sunRun rsc a.2 (tail ++ sunPad ((bits.length - 16) / 8))
  (if intlv then interleave (a.1 ++ b.1) else a.1 ++ b.1).flatMap (fun p => [p.1, p.2])

/-- A path of the Viterbi decoder: how well it fits, and its bits, the newest first. -/
structure Path where
  metric : Int
  bits : List Bool
deriving DecidableEq, Repr

/-- How well a code symbol fits two soft values, of which a positive one means 0 (R103). -/
def symbolFit (c : Bool × Bool) (v : Int × Int) : Int := (if c.1 then -v.1 else v.1) + (if c.2 then -v.2 else v.2)

/-- The better of two paths; `second` decides between equal ones (the manual does not say which). -/
def betterPath (second : Bool) (a b : Option Path) : Option Path :=
  match a, b with
  | some x, some y => if x.metric < y.metric ∨ (x.metric = y.metric ∧ second = true) then b else a
  | some _, none => a
  | none, _ => b

/-- The best path into each of the eight states after one more symbol; `tie` decides between equal ones. -/
def viterbiStep (rsc : Bool) (tie : Nat → Bool) (paths : List (Option Path)) (v : Int × Int) : List (Option Path) :=
  (List.range 8).map (fun n =>
    let from' (m : Nat) (b : Bool) : Option Path :=
      if (sunStep rsc m b).2 = n then
        match paths.getD m none with
        | some x => some ⟨x.metric + symbolFit (sunStep rsc m b).1 v, b :: x.bits⟩
        | none => none
      else none
    (List.range 8).foldl (fun best m => betterPath (tie n) (betterPath (tie n) best (from' m false)) (from' m true)) none)

/-- The best paths after the soft values of a run of code symbols; `tie` is numbered by step and state. -/
def viterbi (rsc : Bool) (tie : Nat → Bool) : Nat → List (Option Path) → List (Int × Int) → List (Option Path)
  | _, paths, [] => paths
  | k, paths, v :: vs => viterbi rsc tie (k + 8) (viterbiStep rsc (fun n => tie (k + n)) paths v) vs

/-- The paths before the first symbol: the encoder starts from zero. -/
def viterbiStart : List (Option Path) := some ⟨0, []⟩ :: List.replicate 7 none

/-- The bits of the best path that the soft decision decoder finds (R86); with `tail` the one that ends at zero. -/
def viterbiBits (rsc tail : Bool) (tie : Nat → Bool) (vs : List (Int × Int)) : List Bool :=
  let paths := viterbi rsc tie 8 viterbiStart vs
  match (if tail then paths.getD 0 none else (List.range 8).foldl (fun best m => betterPath (tie m) best (paths.getD m none)) none) with
  | some x => x.bits.reverse
  | none => []

/-- A hard decision (R103): 0 decides 0. -/
def hardBit (v : Int) : Bool := decide (v < 0)

/-! ## Symbols (R90) -/

/-- The deviation level of a pair of bits in 4-GFSK. -/
def pairLevel (a b : Bool) : Int :=
  match a, b with
  | false, false => -1
  | false, true => -3
  | true, false => 1
  | true, true => 3

/-- The deviation levels of a frame's symbols from its bits in on-air order: by pairs in 4-GFSK, +1 for a 1 in 2-GFSK (R90, 06
R202). -/
def symbolLevels (fourLevel : Bool) (bits : List Bool) : List Int :=
  if fourLevel then (pairUp bits).map (fun p => pairLevel p.1 p.2) else bits.map (fun b => if b then 1 else -1)

/-- The deviation table (06 R202), in units of 10 Hz by the RATE code: of level 1 in 2-GFSK with index 0.5 (1.0 where `wide`), of levels
1 and 3 in 4-GFSK. What is radiated lies within 2 % of it. -/
def deviationOf (fourLevel wide : Bool) (rate level : Nat) : Nat :=
  match fourLevel, level with
  | true, 3 => if rate = 0 then 1250 else if rate = 1 then 2500 else 5000
  | true, _ => if rate = 0 then 417 else if rate = 1 then 833 else 1667
  | false, _ => (if rate = 0 then 625 else if rate = 1 then 1250 else 2500) * (if wide then 2 else 1)

/-- The signed deviation of a level; a positive level lies above the carrier. -/
def deviation (fourLevel wide : Bool) (rate : Nat) (level : Int) : Int :=
  if level < 0 then -(deviationOf fourLevel wide rate level.natAbs : Int) else deviationOf fourLevel wide rate level.natAbs

/-! ## Segmentation and whitening (R96 to R99) -/

/-- T of R96. -/
def codedBytes (len : Nat) : Nat := len + 4
/-- Z of R97. -/
def liftZ (prof len : Nat) : Nat :=
  if 8 * codedBytes len ≤ (24 - (profileOf prof).rows) * 24 then 24 else 48
/-- K of R97. -/
def infoBits (prof len : Nat) : Nat := (24 - (profileOf prof).rows) * liftZ prof len
/-- N − K, the parity bits of a codeword. -/
def parityBits (prof len : Nat) : Nat := (profileOf prof).rows * liftZ prof len
/-- C of R97. -/
def codewordCount (prof len : Nat) : Nat := ceilDiv (8 * codedBytes len) (infoBits prof len)
/-- bᵢ of R97. -/
def cwBytes (prof len i : Nat) : Nat :=
  let c := codewordCount prof len
  codedBytes len / c + (if i < codedBytes len % c then 1 else 0)
/-- The first coded byte that codeword `i` carries. -/
def cwStart (prof len i : Nat) : Nat :=
  let c := codewordCount prof len
  codedBytes len / c * i + min i (codedBytes len % c)
/-- The on-air bits of codeword `i` (R98). -/
def cwAir (prof len i : Nat) : Nat := 8 * cwBytes prof len i + parityBits prof len
/-- The on-air bits before codeword `i`. -/
def cwAirStart (prof len i : Nat) : Nat := 8 * cwStart prof len i + i * parityBits prof len
/-- The on-air bits of the payload. -/
def payloadAir (prof len : Nat) : Nat := cwAirStart prof len (codewordCount prof len)

/-- `n` bits of the PN9 sequence from a register state: the sum of the stages nine and four bits back is the next bit and goes in
(generator x⁹ + x⁵ + 1). -/
def pn9From : Nat → Nat → List Bool
  | _, 0 => []
  | r, n + 1 =>
    let b := bitAt r 0 != bitAt r 5
    b :: pn9From (r / 2 + 256 * bit01 b) n

/-- The first `n` bits of the PN9 sequence of R99: the register holds the seed 0x1FF before the first bit, as the standard's sequence
0000 1111 0111 ... starts (PRESUMED, log entry 22). -/
def pn9 (n : Nat) : List Bool := pn9From 0x1FF n

/-- Bits XORed with the PN9 sequence. -/
def whiten (bs : List Bool) : List Bool := (bs.zip (pn9 bs.length)).map (fun p => p.1 != p.2)

/-! ## The LDPC codes (R101, R102) -/

/-- The information entries (column, shift) of block row `r` of the code with `m` block rows. -/
def ldpcInfo (m r : Nat) : List (Nat × Nat) :=
  if m = 12 then
    match r with
    | 0 => [(0, 17), (2, 40), (5, 3), (8, 29)]
    | 1 => [(1, 22), (3, 9), (6, 45), (9, 14)]
    | 2 => [(0, 31), (4, 6), (7, 19), (10, 38)]
    | 3 => [(1, 2), (2, 27), (5, 36), (11, 11)]
    | 4 => [(0, 44), (3, 25), (6, 8), (11, 33)]
    | 5 => [(1, 39), (4, 16), (7, 1), (8, 42)]
    | 6 => [(0, 5), (2, 13), (6, 30), (9, 46)]
    | 7 => [(1, 28), (3, 43), (7, 20), (10, 7)]
    | 8 => [(0, 12), (4, 36), (5, 24), (11, 46)]
    | 9 => [(1, 41), (2, 0), (6, 18), (8, 26)]
    | 10 => [(0, 37), (3, 15), (7, 34), (9, 4)]
    | 11 => [(1, 10), (4, 23), (5, 47), (10, 21)]
    | _ => []
  else if m = 8 then
    match r with
    | 0 => [(0, 7), (1, 30), (3, 19), (7, 42), (8, 11), (10, 36), (13, 2)]
    | 1 => [(0, 25), (1, 14), (2, 47), (4, 5), (9, 33), (11, 20), (14, 40)]
    | 2 => [(1, 38), (2, 9), (3, 28), (5, 16), (10, 40), (12, 3), (15, 23)]
    | 3 => [(2, 21), (3, 0), (4, 35), (6, 12), (8, 27), (11, 6), (13, 45)]
    | 4 => [(3, 41), (4, 18), (5, 31), (7, 4), (9, 15), (12, 37), (14, 26)]
    | 5 => [(0, 13), (4, 46), (5, 8), (6, 29), (10, 1), (13, 34), (15, 17)]
    | 6 => [(1, 24), (5, 43), (6, 10), (7, 32), (8, 39), (11, 22), (14, 9)]
    | 7 => [(0, 36), (2, 17), (6, 3), (7, 26), (9, 44), (12, 12), (15, 31)]
    | _ => []
  else
    match r with
    | 0 => [(1, 9), (2, 33), (3, 20), (4, 45), (5, 2), (6, 27), (7, 14), (8, 39), (9, 6), (10, 31), (11, 18)]
    | 1 => [(0, 40), (2, 11), (3, 47), (4, 22), (5, 35), (6, 8), (12, 26), (13, 43), (14, 5), (15, 30), (16, 17)]
    | 2 => [(0, 3), (1, 28), (3, 15), (7, 41), (8, 10), (9, 36), (12, 19), (13, 0), (17, 24), (18, 46), (19, 13)]
    | 3 => [(0, 21), (1, 44), (2, 7), (10, 38), (11, 25), (14, 12), (15, 37), (16, 1), (17, 32), (18, 4), (19, 29)]
    | _ => []

/-- The parity entries of block row `r` (R102), lowest column first. -/
def ldpcParity (m r : Nat) : List (Nat × Nat) :=
  (if r = 0 ∨ r + 1 = m then [(24 - m, 1)] else if r = m / 2 then [(24 - m, 0)] else []) ++
    (if r = 0 then [] else [(24 - m + r, 0)]) ++
    (if r + 1 < m then [(24 - m + r + 1, 0)] else [])

/-- All entries of block row `r`, lowest column first. -/
def ldpcRow (m r : Nat) : List (Nat × Nat) := ldpcInfo m r ++ ldpcParity m r

/-- Bitwise exclusive or of two bit lists. -/
def xorBits (a b : List Bool) : List Bool := List.zipWith (· != ·) a b

/-- rot(x, s) of the manual: bit i of the result is bit (i + s) % z of x. -/
def rotBits (x : List Bool) (s : Nat) : List Bool := x.drop s ++ x.take s

/-- The parity blocks p[1] to p[m − 1] of the manual's fragment, given p[0], from p[j] on. -/
def ldpcStairs (m : Nat) (lam : List (List Bool)) (p0 : List Bool) : Nat → Nat → List Bool → List (List Bool)
  | 0, _, _ => []
  | fuel + 1, j, p =>
    if j + 1 < m then
      let q := xorBits (xorBits (lam.getD j []) p) (if j = m / 2 then p0 else p0.map (fun _ => false))
      q :: ldpcStairs m lam p0 fuel (j + 1) q
    else []

/-- The N − K parity bits of K information bits (the manual's encoding fragment). -/
def ldpcEncode (m z : Nat) (info : List Bool) : List Bool :=
  let u (c : Nat) : List Bool := (info.drop (c * z)).take z
  let lam := (List.range m).map (fun r =>
    (ldpcInfo m r).foldl (fun acc e => xorBits acc (rotBits (u e.1) (e.2 % z))) (List.replicate z false))
  let p0 := lam.foldl xorBits (List.replicate z false)
  let p1 := xorBits (lam.getD 0 []) (rotBits p0 1)
  (p0 :: p1 :: ldpcStairs m lam p0 m 1 p1).flatten

/-! ## The decoder (R105, R484) -/

/-- Entries of all block rows with a running number each, row by row: (number, column, shift). -/
def ldpcNumbered (m : Nat) : List (List (Nat × Nat × Nat)) :=
  ((List.range m).foldl
    (fun (acc : Nat × List (List (Nat × Nat × Nat))) r =>
      let row := ldpcRow m r
      (acc.1 + row.length, acc.2 ++ [(row.zipIdx.map (fun e => (acc.1 + e.2, e.1.1, e.1.2)))]))
    (0, [])).2

/-- The codeword bit that entry (c, s) joins to check `i` (R101). -/
def ldpcBit (z i c s : Nat) : Nat := c * z + (i + s % z) % z

/-- One check of a layer: the posteriors and messages after it (R484). `f` is the normalisation factor in eighths. -/
def ldpcCheck (z f i : Nat) (row : List (Nat × Nat × Nat)) (st : Array Int × Array Int) : Array Int × Array Int :=
  let qs := row.map (fun e =>
    clampInt (-31) 31 (st.1.getD (ldpcBit z i e.2.1 e.2.2) 0 - st.2.getD (e.1 * z + i) 0))
  let mags := qs.map Int.natAbs
  let min1 := mags.foldl min 255
  let at1 := mags.findIdx (fun x => x == min1)
  let min2 := (mags.eraseIdx at1).foldl min 255
  let neg := (qs.filter (fun q => decide (q < 0))).length
  ((row.zip qs).zipIdx).foldl (fun (st : Array Int × Array Int) x =>
    let e := x.1.1
    let q := x.1.2
    let mag : Int := (((if x.2 = at1 then min2 else min1) * f / 8 : Nat) : Int)
    let odd := (neg - bit01 (decide (q < 0))) % 2 == 1
    let c := if odd then -mag else mag
    (st.1.setIfInBounds (ldpcBit z i e.2.1 e.2.2) (clampInt (-127) 127 (q + c)),
     st.2.setIfInBounds (e.1 * z + i) c)) st

/-- One iteration: every layer in order, every check of it. -/
def ldpcPass (z f : Nat) (rows : List (List (Nat × Nat × Nat))) (st : Array Int × Array Int) :
    Array Int × Array Int :=
  rows.foldl (fun st row => (List.range z).foldl (fun st i => ldpcCheck z f i row st) st) st

/-- Whether the syndrome of the hard decisions is zero. -/
def ldpcGood (z : Nat) (rows : List (List (Nat × Nat × Nat))) (post : Array Int) : Bool :=
  rows.all (fun row => (List.range z).all (fun i =>
    (row.filter (fun e => decide (post.getD (ldpcBit z i e.2.1 e.2.2) 0 < 0))).length % 2 == 0))

/-- Iterations until a zero syndrome or the limit: the posteriors, whether it converged, and the iterations run. -/
def ldpcRun (z f : Nat) (rows : List (List (Nat × Nat × Nat))) :
    Nat → Nat → Array Int × Array Int → Array Int × Bool × Nat
  | 0, n, st => (st.1, false, n)
  | fuel + 1, n, st =>
    let st' := ldpcPass z f rows st
    if ldpcGood z rows st'.1 then (st'.1, true, n + 1) else ldpcRun z f rows fuel (n + 1) st'

/-- What a decoding job yields. -/
structure Decoded where
  bits : List Bool
  good : Bool
  iters : Nat
deriving DecidableEq, Repr

/-- The normalisation factor of NORM in eighths (R113). -/
def normEighths (norm : Nat) : Nat :=
  match norm with
  | 0 => 6
  | 1 => 5
  | 2 => 7
  | _ => 4

/-- The iteration limit of ITER (R113: 0 and 21 to 31 act as 20). -/
def iterLimit (iter : Nat) : Nat := if iter = 0 ∨ iter > 20 then 20 else iter

/-- A codeword's channel LLRs decoded (R105, R484). -/
def ldpcDecode (m z iter norm : Nat) (llr : List Int) : Decoded :=
  let rows := ldpcNumbered m
  let count := rows.foldl (fun n r => n + r.length) 0
  let r := ldpcRun z (normEighths norm) rows iter 0 (llr.toArray, Array.replicate (count * z) (0 : Int))
  ⟨r.1.toList.map (fun p => decide (p < 0)), r.2.1, r.2.2⟩

/-- The N channel LLRs of codeword `i` from the LLRs of its on-air bits: limited to −31 to +31, whitening removed by
inverting signs, shortening bits at +31 (R98, R99, R103). -/
def cwLlrs (prof len i : Nat) (air : List Int) : List Int :=
  let k := 8 * cwBytes prof len i
  let n := cwAir prof len i
  let pn := (pn9 (cwAirStart prof len i + n)).drop (cwAirStart prof len i)
  let air' := (air ++ List.replicate (n - air.length) 0).take n
  let x := (air'.zip pn).map (fun p => let v := clampInt (-31) 31 p.1; if p.2 then -v else v)
  x.take k ++ List.replicate (infoBits prof len - k) 31 ++ x.drop k

/-! ## Building a Deep frame (R89 to R100) -/

/-- A Deep preamble of `n` symbols (R89). -/
def deepPreamble (fourLevel : Bool) (n : Nat) : List Bool :=
  (List.range n).flatMap (fun i =>
    let last := (n - 1 - i) % 2 == 0
    if fourLevel then [!last, true] else [last])

/-- The on-air payload bits of a Deep frame, whitened. -/
def deepPayload (prof : Nat) (payload : List Byte) : List Bool :=
  let len := payload.length
  let data := payload ++ bytesLe 4 (crc32 payload)
  whiten ((List.range (codewordCount prof len)).flatMap (fun i =>
    let info := bitsOfBytes ((data.drop (cwStart prof len i)).take (cwBytes prof len i))
    info ++ ldpcEncode (profileOf prof).rows (liftZ prof len)
      (info ++ List.replicate (infoBits prof len - info.length) false)))

/-- A whole Deep frame in on-air order (R89). -/
def deepFrame (prof preamble sync header : Nat) (payload : List Byte) : List Bool :=
  deepPreamble (profileOf prof).fourLevel preamble ++ bitsMsb 32 sync ++ headerBits header ++ deepPayload prof payload

end Sys2Proof.Machine
end

