-- ==== Sys2Proof/Machine/Frames.lean ====
section
/-! DEFINITION. Transmit descriptors (06 R196), their checks (R197), the length of a frame on air, and the frame the
transmitter builds (R199 to R201). -/

namespace Sys2Proof.Machine

/-- The four words of descriptor `d` lie at this address (R196). -/
def descAddr (d : Nat) : Nat := 0x10430000 + 16 * d

/-- FAM of word 0: 1 = Deep. -/
def txDeep (d0 : Word) : Bool := bitAt d0.toNat 31
/-- ACKREQ. -/
def txAck (d0 : Word) : Bool := bitAt d0.toNat 30
/-- SEC. -/
def txSec (d0 : Word) : Nat := bitsOf d0.toNat 29 1
/-- PORT: chain B when 1. -/
def txPort (d0 : Word) : Nat := bitsOf d0.toNat 28 1
/-- PWR. -/
def txPwr (d0 : Word) : Nat := bitsOf d0.toNat 22 6
/-- FEC. -/
def txFec (d0 : Word) : Bool := bitAt d0.toNat 21
/-- FCS bytes of a SUN frame by FCS32. -/
def txFcsLen (d0 : Word) : Nat := if bitAt d0.toNat 20 then 4 else 2
/-- WHITEN. -/
def txWhiten (d0 : Word) : Bool := bitAt d0.toNat 19
/-- RATE of a SUN descriptor. -/
def txRate (d0 : Word) : Nat := bitsOf d0.toNat 17 2
/-- MOD of a SUN descriptor: 1 = 4-FSK. -/
def txFour (d0 : Word) : Bool := bitAt d0.toNat 16
/-- HIDX. -/
def txHidx (d0 : Word) : Bool := bitAt d0.toNat 15
/-- SFDSEL. -/
def txSfd (d0 : Word) : Nat := bitsOf d0.toNat 14 1
/-- LEN. -/
def txLen (d0 : Word) : Nat := bitsOf d0.toNat 0 11
/-- PRE of word 2, at least 16. -/
def txPre (d2 : Word) : Nat := max 16 (bitsOf d2.toNat 24 8)
/-- SYNC of word 2. -/
def txSyncNo (d2 : Word) : Nat := bitsOf d2.toNat 22 2

/-- A preamble of a SUN frame is rounded up to whole octets of the standard's pattern, eight symbols each (R201). -/
def preambleSyms (d0 : Word) (n : Nat) : Nat := if txDeep d0 then n else 8 * ceilDiv n 8

/-- The RATE code of a launch. -/
def txSymRate (d0 : Word) (prof : Nat) : Nat := if txDeep d0 then (profileOf prof).rate else txRate d0

/-- The symbol time of a launch in units of 0.125 µs. -/
def txSymbol (d0 : Word) (prof : Nat) : Nat := symbolTime (txSymRate d0 prof)

/-- A launch is sent in four levels. -/
def txFourLevel (d0 : Word) (prof : Nat) : Bool := if txDeep d0 then (profileOf prof).fourLevel else txFour d0

/-- The information bits of a coded SUN frame with PSDU length `n`: PHR, PSDU, tail and pad (PRESUMED, log entry 21). -/
def sunCodedBits (n : Nat) : Nat := 16 + 8 * n + (if n % 2 = 1 then 8 else 16)

/-- The symbols of a frame after its preamble (R89, R200). -/
def bodySyms (d0 : Word) (prof : Nat) : Nat :=
  if txDeep d0 then
    (80 + payloadAir prof (txLen d0)) / (if (profileOf prof).fourLevel then 2 else 1)
  else
    let n := txLen d0 + txFcsLen d0
    let bits := if txFec d0 then 2 * sunCodedBits n else 16 + 8 * n
    16 + bits / (if txFour d0 then 2 else 1)

/-- The time on air of one frame with a preamble of `pre` symbols, in units of 0.125 µs. -/
def airTime (d0 : Word) (prof pre : Nat) : Nat := (pre + bodySyms d0 prof) * txSymbol d0 prof

/-- The payload lies whole in one of the two areas that R197 allows. -/
def payloadPlaced (a n : Nat) : Bool :=
  n == 0 || decide (0x10400000 ≤ a ∧ a + n ≤ 0x10600000) || decide (0x10780000 ≤ a ∧ a + n ≤ 0x107FC000)

/-- The checks of R197 on a candidate's descriptor and channel: 0, or the code of the first cause. -/
def State.txCheck (s : State) (desc : Nat) (d0 d1 : Word) (khz : Nat) : Nat :=
  let lo := 750000 + 100 * s.get F.SYN_VCOLIM_LO
  let hi := 750000 + 100 * s.get F.SYN_VCOLIM_HI
  let n := txLen d0
  if !s.ready 11 then 1
  else if khz < 750000 ∨ 960000 < khz ∨ khz < lo ∨ hi < khz then 2
  else if !txDeep d0 && (txRate d0 == 3 || (!txFour d0 && txHidx d0 && txRate d0 == 2)) then 3
  else if txDeep d0 ∧ (n = 0 ∨ 1536 < n) then 4
  else if !txDeep d0 ∧ 2047 < n + txFcsLen d0 then 4
  else if !payloadPlaced d1.toNat n then 5
  else if s.blockNS 11 && (s.anySecure (descAddr desc) 16 || s.anySecure d1.toNat n) then 6
  else 0

/-- A failed check or read is recorded (R197, R491). -/
def State.badDesc (s : State) (desc cause : Nat) : State :=
  s.record F.TXP_BADDESC_VALID F.TXP_BADDESC_OVF (fun s =>
    (s.put F.TXP_BADDESC_CAUSE cause).put F.TXP_BADDESC_DESC desc)

/-- The power entry of a launch (R203). -/
def State.powerEntry (s : State) (d0 : Word) : Nat :=
  min (txPwr d0) (s.get (F.TXP_PWRLIM_LIMIT (txPort d0))) - s.get F.TXP_BACKOFF_STEPS

/-- The power band of a channel (R203). -/
def powerBand (khz : Nat) : Nat := if khz < 870000 then 0 else 1

/-- RAMP in µs (R212). -/
def State.rampUs (s : State) : Nat := max 2 (min 20 (s.getA F.TXP_RAMP_RAMP))

/-- The transmitter's lead in units of 0.125 µs: 40 µs + RAMP (R205). -/
def State.lead (s : State) : Nat := 8 * (40 + s.rampUs)

/-! ## The frame store (R198 to R201) -/

/-- Bits of a byte list, each byte least significant bit first, as the SUN standard sends them (PRESUMED, log entry 21). -/
def bitsLsb (bs : List Byte) : List Bool := bs.flatMap (fun b => (bitsMsb 8 b.toNat).reverse)

/-- A SUN preamble of `n` symbols: alternating 0 and 1, as outer symbols in 4-FSK (PRESUMED, log entry 21). -/
def sunPreamble (four : Bool) (n : Nat) : List Bool :=
  (List.range n).flatMap (fun i => let b := i % 2 == 1; if four then [b, true] else [b])

/-- The PHR of R200, first bit on air in bit 15. -/
def sunPhr (d0 : Word) : Nat :=
  pack [(12, if txFcsLen d0 = 2 then 1 else 0), (11, bit01 (txWhiten d0)), (0, txLen d0 + txFcsLen d0)]

/-- A SUN frame in on-air order (R200). The PSDU is whitened before it is encoded (DESIGN CHOICE, log entry 21). -/
def State.sunFrame (s : State) (d0 : Word) (pre : Nat) (payload : List Byte) : List Bool :=
  let fcs := if txFcsLen d0 = 2 then bytesLe 2 (fcs16 payload) else bytesLe 4 (fcs32 payload)
  let body := bitsLsb (payload ++ fcs)
  let psdu := if txWhiten d0 then whiten body else body
  let phr := bitsMsb 16 (sunPhr d0)
  let sfd := match (sfdPatterns (txSfd d0) (txFour d0)).find? (fun p => p.2 == txFec d0) with
    | some p => p.1
    | none => []
  sunPreamble (txFour d0) pre ++ sfd ++
    (if txFec d0 then sunEncode (s.flagA F.LDP_SUNCFG_RSC) (s.flagA F.LDP_SUNCFG_INTLV) (phr ++ psdu)
     else phr ++ psdu)

/-- Payload bytes with a beacon's ASN written at its offset (R121). -/
def withAsn (x : Option (Nat × Nat)) (payload : List Byte) : List Byte :=
  match x with
  | some (off, asn) =>
    if off + 5 ≤ payload.length then payload.take off ++ bytesLe 5 asn ++ payload.drop (off + 5) else payload
  | none => payload

/-- The frame the transmitter builds for a launch from its payload (R199 to R201); a train's copies follow one another. -/
def State.buildFrame (s : State) (l : Launch) (payload : List Byte) : List Bool :=
  let p := withAsn l.asnBytes payload
  let one :=
    if txDeep l.d0 then
      deepFrame l.prof l.preamble l.sync.toNat
        (mkHeader (txLen l.d0) l.prof (txSec l.d0) (bit01 (txAck l.d0)) (if l.copies = 0 then 0 else 1) 0) p
    else s.sunFrame l.d0 l.preamble p
  (List.replicate (max 1 l.copies) one).flatten

end Sys2Proof.Machine
end

