-- ==== Sys2Proof/Machine/Mirror.lean ====
section
/-! DEFINITION. The sending side of the Siphon's sequenced frames (09 R291, R292): what the Cistern, the ciphers and the
superframe machine hand to it. -/

namespace Sys2Proof.Machine

/-! ## Characters and frames (R287, R288, R291) -/

/-- A frame's bytes on the lanes: byte 2j on lane 0 and byte 2j + 1 on lane 1 in one character time (R288). -/
def onLanes : List Byte → List (SphChar × SphChar)
  | a :: b :: t => (.data a, .data b) :: onLanes t
  | _ => []

/-- Character time `i` of the idles on both lanes: every sixteenth is the lane marker (R287). -/
def idleAt (i : Nat) : SphChar × SphChar := if i % 16 = 15 then (.k281, .k281) else (.k285, .k285)

/-- A frame on the lanes: K27.7, header, payload, CRC, K29.7 (R291). -/
def frameChars (body : List Byte) : List (SphChar × SphChar) :=
  [(.k277, .k277)] ++ onLanes (body ++ bytesLe 4 (crc32 body)) ++ [(.k297, .k297)]

/-- Characters go out on the lanes; while the balls are held none does (13 R430). -/
def State.putLanes (s : State) (chars : List (SphChar × SphChar)) : State :=
  if s.pwr.latch.isSome then s else { s with sph := { s.sph with sent := s.sph.sent ++ chars } }

/-- `n` character times of idles go out; how many have gone since the last marker is a free value (log entry 9). -/
def State.sendIdles (s : State) (n : Nat) : State :=
  let d := s.draw 4
  d.2.putLanes ((List.range n).map (fun i => idleAt (d.1 + i)))

/-- The header of a frame that goes now (R291): ACK is valid once the link is up. -/
def State.header (s : State) (type len seq : Nat) (sync : Bool) : List Byte :=
  [BitVec.ofNat 8 type, BitVec.ofNat 8 len] ++ bytesLe 2 seq ++ bytesLe 2 s.sph.rxSeq ++
    [BitVec.ofNat 8 (bit01 s.sph.nakOwed + 2 * bit01 sync + 4 * bit01 (s.flag F.SPH_STAT_LINK)), 0]

/-- A frame goes out, with the two idle character times that follow it at least; a NAK owed has then gone (R288, R291, R292). -/
def State.transmit (s : State) (type seq : Nat) (sync : Bool) (payload : List Byte) : State :=
  let chars := frameChars (s.header type (payload.length / 4) seq sync ++ payload)
  (({ s with sph := { s.sph with nakOwed := false } }).putLanes chars).sendIdles 2

/-- The peer takes the primary's changes: this part is PRIMARY and the peer is ALIGNING, STANDBY or ESTRANGED (R295, R296), or the old
primary that a planned handover leaves its last launches (R313, log entry 126); a peer declared lost is none of these (R312). -/
def State.peerFollows (s : State) : Bool :=
  s.pairState == 3 && (s.sph.peer == 2 || s.sph.peer == 4 || s.sph.peer == 5 || (s.sph.peer == 3 && s.sph.heir))

/-- Requests and results are shared with the peer: it follows, or this part is handing over to it (R313). -/
def State.shares (s : State) : Bool := s.peerFollows || s.sph.handover.isSome

/-- This part takes a primary's mirror frames: it follows one, or hands over to one (R313, log entry 126). -/
def State.takesMirror (s : State) : Bool :=
  s.pairState == 2 || s.pairState == 4 || s.pairState == 5 || (s.pairState == 3 && s.sph.handover.isSome)

/-! ## Sequenced frames (R292) -/

/-- The bytes of a frame: header, payload and CRC. -/
def OutFrame.size (f : OutFrame) : Nat := f.payload.length + 12

/-- Another frame may join those unacknowledged: at most 256 frames and 32 KiB. -/
def hasRoom (out : List OutFrame) (f : OutFrame) : Bool :=
  decide (out.length < 256 ∧ (out.map OutFrame.size).sum + f.size ≤ 32768)

/-- A kept frame goes out, for the first time or again; while the link is down nothing reaches the lanes. -/
def State.emit (s : State) (f : OutFrame) : State :=
  if s.flag F.SPH_STAT_LINK then s.transmit f.type f.seq f.sync f.payload else s

/-- The frames that wait go out, oldest first, as far as there is room. -/
def State.sendWaiting (s : State) : List OutFrame → State
  | [] => { s with sph := { s.sph with waiting := [] } }
  | f :: l =>
    if hasRoom s.sph.out f then
      ({ s with sph := { s.sph with out := s.sph.out ++ [f] } }.emit f).sendWaiting l
    else { s with sph := { s.sph with waiting := f :: l } }

/-- A sequenced frame of the given TYPE: it takes the next number and goes, or waits for room. -/
def State.sendSeq (s : State) (type : Nat) (sync : Bool) (payload : List Byte) : State :=
  let q := (s.sph.txSeq + 1) % 65536
  { s with sph := { s.sph with txSeq := q } }.sendWaiting (s.sph.waiting ++ [({ seq := q, type := type, sync := sync, payload := payload } : OutFrame)])

/-! ## Mirror frames in the order of their events (R299, R301) -/

/-- LEN and PADDR of a descriptor's bytes. -/
def reqPayload (words : List Byte) : Nat × Nat := (txLen (BitVec.ofNat 32 (ofBytesLe (words.take 4))), ofBytesLe ((words.drop 4).take 4))

/-- The numbers of the REQ fragments of a request (R299). -/
def reqFragments (words : List Byte) : List Nat := List.range (ceilDiv (max 1 (reqPayload words).1) 488)

/-- The REQ fragments `ks` of a request whose descriptor has the bytes `words`, the payload as the Siphon reads it (05 R163), filled up
with zeros to whole words (R291); and those left, from the first whose payload has to wait for the flash (14 R442). -/
def State.sendFragments (words : List Byte) (desc index mode : Nat) : List Nat → State → State × List Nat
  | [], s => (s, [])
  | k :: ks, s =>
    let a := (reqPayload words).2 + 488 * k
    let n := min 488 ((reqPayload words).1 - 488 * k)
    if s.flashHolds a n then (s, k :: ks)
    else
      let x := s.moveReadOr0 false 69 a n
      State.sendFragments words desc index mode ks
        (x.1.sendSeq 0x12 false (bytesLe 4 (pack [(19, bit01 ks.isEmpty), (16, k), (12, mode), (0, desc)]) ++ bytesLe 4 index ++
          words ++ x.2 ++ List.replicate ((4 - x.2.length % 4) % 4) 0))

/-- Frames and requests go in their order, as far as no payload has to wait for the flash; what is left waits for it. -/
def State.sendLater : List SphLater → State → State
  | [], s => { s with sph := { s.sph with later := [] } }
  | .frame type payload :: l, s => State.sendLater l (s.sendSeq type false payload)
  | .request words desc index mode ks :: l, s =>
    match State.sendFragments words desc index mode ks s with
    | (s1, []) => State.sendLater l s1
    | (s1, left) =>
      { s1 with sph := { s1.sph with later := .request words desc index mode left :: l }
                flc := { s1.flc with waits := s1.flc.waits ++ [FlashWait.request] } }

/-- A frame or a request goes to the peer behind those before it, while the peer is there to take it (R312). -/
def State.share (s : State) (x : SphLater) : State :=
  if !s.shares then s
  else if s.sph.later.isEmpty then State.sendLater [x] s
  else { s with sph := { s.sph with later := s.sph.later ++ [x] } }

/-- A mirror frame goes to the peer. -/
def State.mirror (s : State) (type : Nat) (payload : List Byte) : State := s.share (.frame type payload)

/-- A request goes to the peer (R299). -/
def State.mirrorRequest (s : State) (desc index mode : Nat) : State :=
  let words := s.bytes (descAddr desc) 16
  s.share (.request words desc index mode (reqFragments words))

/-- What waited for the flash goes on (14 R442). -/
def State.resumeLater (s : State) : State := State.sendLater s.sph.later s

/-- Nothing waits for the flash on its way to the peer any longer. -/
def State.dropLater (s : State) : State :=
  { s with sph := { s.sph with later := [] }
           flc := { s.flc with waits := s.flc.waits.filter (fun w => w != FlashWait.request) } }

/-- An ENTRY record of entry `i` as it is now (R291). -/
def State.entryRecord (s : State) (i : Nat) : List Byte := bytesLe 4 i ++ s.bytes (entryAddr i) 16

/-- A counter change goes at once in an ENTRY frame with SYNC = 1 (R296); the sequence number its record waits for. -/
def State.syncEntry (s : State) (i : Nat) : State × Option Nat :=
  if s.peerFollows then
    let s1 := s.sendSeq 0x10 true (s.entryRecord i)
    (s1, some s1.sph.txSeq)
  else (s, none)

/-- Whether the frame with sequence number `q` is still unacknowledged. -/
def State.unacked (s : State) (q : Nat) : Bool := (s.sph.out ++ s.sph.waiting).any (fun f => f.seq == q)

end Sys2Proof.Machine
end

