-- ==== Sys2Proof/Machine/Cistern.lean ====
section
/-! DEFINITION. The Cistern (05): entry fields, atomic entry updates, the update registers, source routing, clearing. -/

namespace Sys2Proof.Machine

/-! ## Entries (R148, R149): an entry is its 128 bits as one number -/

/-- Entry `i`. -/
def State.entry (s : State) (i : Nat) : Nat := ofBytesLe (s.bytes (entryAddr i) 16)

/-- SLEEPY. -/
def entSleepy (e : Nat) : Bool := bitAt e 0
/-- MISS. -/
def entMiss (e : Nat) : Nat := bitsOf e 1 2
/-- LOST_SYNC. -/
def entLost (e : Nat) : Bool := bitAt e 3
/-- EPS. -/
def entEps (e : Nat) : Nat := bitsOf e 4 4
/-- VALID. -/
def entValid (e : Nat) : Bool := bitAt e 8
/-- RELAY. -/
def entRelay (e : Nat) : Bool := bitAt e 9
/-- BARRED. -/
def entBarred (e : Nat) : Bool := bitAt e 10
/-- Drift estimate, in 8 µs units. -/
def entDrift (e : Nat) : Int := toSigned 8 (bitsOf e 12 8)
/-- Sleep class. -/
def entClass (e : Nat) : Nat := bitsOf e 20 4
/-- Link profile; 8 to 15 act as 7 (R120). -/
def entProfile (e : Nat) : Nat := min 7 (bitsOf e 24 4)
/-- Last-heard superframe. -/
def entHeard (e : Nat) : Nat := bitsOf e 28 16
/-- Transmit frame counter TC. -/
def entTc (e : Nat) : Nat := bitsOf e 44 24
/-- Receive replay counter RC. -/
def entRc (e : Nat) : Nat := bitsOf e 68 32
/-- Parent index. -/
def entParent (e : Nat) : Nat := bitsOf e 100 18
/-- Tenant. -/
def entTenant (e : Nat) : Nat := bitsOf e 118 10

/-! ## Atomic updates (R151 to R155) -/

/-- Entry `i` becomes `e` in one atomic update; the checksum follows and a primary marks a changed entry dirty. -/
def State.setEntry (s : State) (i e : Nat) : State :=
  if s.entry i = e % 2 ^ 128 then s
  else (s.pokeEntry i (entryAddr i) (bytesLe 16 e)).markDirty i

/-- An update by the superframe machine: discarded while the Cistern is not ready (R160) and on a part that does not own its
Cistern (09 R294). -/
def State.sfmUpdate (s : State) (i : Nat) (f : Nat → Nat) : State :=
  if s.ready 13 && s.ownsCistern then s.setEntry i (f (s.entry i)) else s

/-- The four words a requester has in registers `k` of its bank as one 128-bit number. -/
def State.bankWords (s : State) (k : Nat → Nat) : Nat :=
  (List.range 4).foldl (fun n j => n + (s.reg (k j)).toNat <<< (32 * j)) 0

/-- CST_UOLD0 to CST_UOLD3 of requester `r` become the words of `e`. -/
def State.putOld (s : State) (r e : Nat) : State :=
  s.each (List.range 4) (fun s j => s.setReg (Reg.CST_UOLD r j) (BitVec.ofNat 32 (bitsOf e (32 * j) 32)))

/-- A write of CST_UGO.GO = 1 by requester `r` (R153 to R155, 09 R294). -/
def State.requestedUpdate (s : State) (r : Nat) : State :=
  let i := s.get (F.CST_UIDX_INDEX r)
  let denied (s : State) : State := (s.put (F.CST_USTAT_RESULT r) 2).putOld r 0
  if s.reqNS r && !s.memNS (entryAddr i) then denied (s.violation (entryAddr i) true r)
  else if !s.ownsCistern then denied s
  else
    let old := s.entry i
    let mask := s.bankWords (Reg.CST_UMASK r)
    let val := s.bankWords (Reg.CST_UVAL r)
    let exp := s.bankWords (Reg.CST_UEXP r)
    let s1 := s.putOld r old
    if s.flag (F.CST_UIDX_CMP r) && (old &&& mask) != (exp &&& mask) then s1.put (F.CST_USTAT_RESULT r) 1
    else (s1.setEntry i ((old &&& (mask ^^^ (2 ^ 128 - 1))) ||| (val &&& mask))).put (F.CST_USTAT_RESULT r) 0

/-! ## Source routing (R157 to R159) -/

/-- The walk from entry `i` after `d` parent steps: the first hop and its depth, if the route exists. -/
def State.routeFrom (s : State) : Nat → Nat → Nat → Option (Nat × Nat)
  | 0, _, _ => none
  | fuel + 1, i, d =>
    let e := s.entry i
    if !entValid e || (d != 0 && !entRelay e) then none
    else if entParent e = i then some (i, d)
    else s.routeFrom fuel (entParent e) (d + 1)

/-- The first hop of entry `i` and the parent steps to it, at most 32 (R157). -/
def State.route (s : State) (i : Nat) : Option (Nat × Nat) := s.routeFrom 33 i 0

/-- A write of CST_RQ by requester `r` (R159). Without a route DEPTH and FIRST are not valid: free values (log entry 9). -/
def State.routeQuery (s : State) (r i : Nat) : State :=
  match s.route i with
  | some (f, d) => s.setReg (Reg.CST_RA r) (BitVec.ofNat 32 (pack [(31, 1), (24, d), (0, f)]))
  | none =>
    let x := s.draw 18
    let y := x.2.draw 6
    y.2.setReg (Reg.CST_RA r) (BitVec.ofNat 32 (pack [(24, y.1), (0, x.1)]))

/-! ## Clearing (R160) -/

/-- A clear starts: SYS_READY bit 13 is 0 while it runs. -/
def State.startClear (s : State) : State := (s.raise F.CST_STAT_CLEARING).setBit Reg.SYS_READY 13 false

/-- A write of CST_CTL.CLEAR = 1: refused on a part that does not own its Cistern (09 R294). -/
def State.orderClear (s : State) : State := if s.ownsCistern then s.startClear else s

/-- A clear ends: every entry holds zero, the checksum is that of the zero table, which is 0 (R161), and bit 13 sets. -/
def State.finishClear (s : State) : State :=
  let s1 := (s.wipe 0x10000000 0x10400000).setReg Reg.CST_SUM 0
  let s2 := (s1.lower F.CST_STAT_CLEARING).setBit Reg.SYS_READY 13 true
  if s2.pairState = 3 then { s2 with sph := { s2.sph with dirty := [(0, 262143)] } } else s2

end Sys2Proof.Machine
end

