-- ==== Sys2Proof/Machine/Cipher.lean ====
section
/-! DEFINITION. Cipher jobs (05): descriptors, submission checks, core checks, key derivation, the operations, records. -/

namespace Sys2Proof.Machine

/-! ## Descriptor fields (R175) -/

/-- OP. -/
def jobOp (d : JobDesc) : Nat := bitsOf d.w0.toNat 28 4
/-- LEVEL. -/
def jobLevel (d : JobDesc) : Nat := bitsOf d.w0.toNat 25 3
/-- EVT. -/
def jobEvt (d : JobDesc) : Bool := bitAt d.w0.toNat 24
/-- INDEX. -/
def jobIndex (d : JobDesc) : Nat := bitsOf d.w0.toNat 0 18
/-- SRC. -/
def jobSrc (d : JobDesc) : Nat := d.w1.toNat
/-- DST. -/
def jobDst (d : JobDesc) : Nat := d.w2.toNat
/-- RES. -/
def jobRes (d : JobDesc) : Nat := d.w3.toNat
/-- MLEN. -/
def jobMlen (d : JobDesc) : Nat := bitsOf d.w4.toNat 21 11
/-- ALEN. -/
def jobAlen (d : JobDesc) : Nat := bitsOf d.w4.toNat 14 7
/-- FCOFF. -/
def jobFcoff (d : JobDesc) : Nat := bitsOf d.w4.toNat 7 7
/-- EVCH. -/
def jobEvch (d : JobDesc) : Nat := bitsOf d.w5.toNat 24 8
/-- TAG. -/
def jobTag (d : JobDesc) : Nat := bitsOf d.w5.toNat 0 16

/-- MIC or tag bytes of a level (R177). -/
def micLen (level : Nat) : Nat :=
  match level % 4 with
  | 1 => 4
  | 2 => 8
  | 3 => 16
  | _ => 0

/-- R177: the levels an operation may name. -/
def levelAllowed (op level : Nat) : Bool :=
  match op with
  | 0 => decide (5 ≤ level ∧ level ≤ 7)
  | 2 => level % 4 != 0
  | 3 => level % 4 != 0
  | 4 => decide (1 ≤ level ∧ level ≤ 3)
  | 5 => decide (1 ≤ level ∧ level ≤ 3)
  | _ => true

/-- The bytes of the SRC range (R176). -/
def srcLen (d : JobDesc) : Nat :=
  match jobOp d with
  | 2 => jobAlen d + jobMlen d
  | 3 => 8 + jobAlen d + jobMlen d
  | 5 => jobMlen d + micLen (jobLevel d)
  | 6 => 0
  | _ => jobMlen d

/-- The bytes of the DST range; for DEEP_DEC the largest output it can have (R176, R178). -/
def dstLen (d : JobDesc) : Nat :=
  let m := micLen (jobLevel d)
  match jobOp d with
  | 0 => jobMlen d + 8 + m
  | 1 => jobMlen d - 12
  | 2 => jobAlen d + jobMlen d + m
  | 3 => jobAlen d + jobMlen d - m
  | 4 => m
  | _ => 0

/-- The operation writes to DST. -/
def writesDst (d : JobDesc) : Bool := decide (jobOp d ≤ 4)

/-- Two byte ranges have a byte in common. -/
def rangesMeet (a n b m : Nat) : Bool := decide (0 < n ∧ 0 < m ∧ a < b + m ∧ b < a + n)

/-- Some byte of a range lies at or above 0x2000_0000. -/
def reachesWindow (a n : Nat) : Bool := decide (0 < n ∧ 0x20000000 < a + n)

/-- The causes of R178 that are tested at submission, in their listed order. -/
def badAtSubmit (d : JobDesc) : Bool :=
  let op := jobOp d
  let m := micLen (jobLevel d)
  let sun := op == 2 || op == 3
  (op == 0 && decide (jobMlen d + 8 + m > 1536)) ||
  (op == 1 && decide (jobMlen d < 12 ∨ jobMlen d > 1536)) ||
  (sun && decide (jobAlen d < jobFcoff d + 4)) ||
  (op == 2 && decide (jobAlen d + jobMlen d + m > 2047)) ||
  (op == 3 && decide (jobMlen d < m)) ||
  ((op == 0 || op == 2) && rangesMeet (jobSrc d) (srcLen d) (jobDst d) (dstLen d)) ||
  ((op == 1 || op == 3) && jobSrc d != jobDst d && rangesMeet (jobSrc d) (srcLen d) (jobDst d) (dstLen d)) ||
  jobRes d % 32 != 0 ||
  (writesDst d && decide (jobDst d < 0x800000)) ||
  decide (jobRes d < 0x800000) ||
  reachesWindow (jobSrc d) (srcLen d) || (writesDst d && reachesWindow (jobDst d) (dstLen d)) ||
  reachesWindow (jobRes d) 32

/-- The isolation checks of R191 made at submission for a non-secure submitter. -/
def State.deniedAtSubmit (s : State) (d : JobDesc) (ns : Bool) : Bool :=
  ns && (s.anySecure (jobSrc d) (srcLen d) || (writesDst d && s.anySecure (jobDst d) (dstLen d)) ||
    s.anySecure (jobRes d) 32 || (jobOp d != 1 && !s.memNS (entryAddr (jobIndex d))))

/-- The status a job ends with at the submission checks, if any (R485 step 1): 7 BADJOB, 6 DENIED. -/
def State.submitStatus (s : State) (d : JobDesc) (ns : Bool) : Option Nat :=
  if jobOp d ≥ 7 then some 7
  else if !levelAllowed (jobOp d) (jobLevel d) then some 7
  else if badAtSubmit d then some 7
  else if s.deniedAtSubmit d ns then some 6
  else none

/-- A record cannot be written at RES whatever memory says (R190). -/
def State.resRefused (s : State) (d : JobDesc) (ns : Bool) : Bool :=
  jobRes d % 32 != 0 || decide (jobRes d < 0x800000) || reachesWindow (jobRes d) 32 ||
    (ns && s.anySecure (jobRes d) 32)

/-! ## Records (R186, R190) -/

/-- What a record tells of a job. -/
structure JobEnd where
  status : Nat
  core : Nat
  started : Bool
  counter : Nat
  nonce : List Byte
  index : Nat
  outlen : Nat
deriving DecidableEq, Repr

/-- The 32 bytes of a record (R186). -/
def recordBytes (d : JobDesc) (x : JobEnd) : List Byte :=
  let w0 := pack [(31, 1), (27, x.status), (24, if x.started then x.core else 0), (23, bit01 x.started), (0, jobTag d)]
  bytesLe 4 w0 ++ bytesLe 4 x.counter ++ (x.nonce ++ List.replicate (16 - x.nonce.length) 0) ++
    bytesLe 4 (pack [(14, x.index), (0, x.outlen)]) ++ bytesLe 4 0

/-- The record is written in the CIP block's world, word 0 last, and then EVCH fires when EVT = 1; a record that cannot be
written sets LOSTREC and fires nothing. The flag says that it is written. -/
def State.writeRecord (s : State) (d : JobDesc) (x : JobEnd) : State × Bool :=
  let bs := recordBytes d x
  let ns := s.blockNS 14
  match s.moveWrite ns 70 (jobRes d + 4) (bs.drop 4) with
  | (s1, some _) => (s1.raise F.CIP_STAT_LOSTREC, false)
  | (s1, none) =>
    match s1.moveWrite ns 70 (jobRes d) (bs.take 4) with
    | (s2, some _) => (s2.raise F.CIP_STAT_LOSTREC, false)
    | (s2, none) => (if jobEvt d then s2.fire 0x10E (jobEvch d) else s2, true)

/-- The record of a job that no core took and that ends with `status`. -/
def State.unstartedRecord (s : State) (d : JobDesc) (status : Nat) : State :=
  (s.writeRecord d ⟨status, 0, false, 0, [], if jobOp d = 1 then 0 else jobIndex d, 0⟩).1

/-- A job ends with `status` at the submission checks (R485 step 1); RES is tested there and not again (R190). -/
def State.endUnstarted (s : State) (d : JobDesc) (ns : Bool) (status : Nat) : State :=
  if s.resRefused d ns then s.raise F.CIP_STAT_LOSTREC
  else s.unstartedRecord d status

/-- A submission by requester `r` of world `ns`, met by the cipher block. -/
def State.judgeJob (s : State) (r : Nat) (ns : Bool) (d : JobDesc) : State :=
  if 64 ≤ s.cip.queue.length then s.raise (F.CIP_JSTAT_REFUSED r)
  else
    let s1 := s.lower (F.CIP_JSTAT_REFUSED r)
    match s1.submitStatus d ns with
    | some st => s1.endUnstarted d ns st
    | none => { s1 with cip := { s1.cip with queue := s1.cip.queue ++ [⟨d, ns, r⟩] } }

/-- A submission by requester `r` of world `ns` (R173, R485). What the block then tests and writes is its own (01 R26). -/
def State.submitJob (s : State) (r : Nat) (ns : Bool) (d : JobDesc) : State := s.ownAccess (fun u => u.judgeJob r ns d)

/-! ## Keys (R162 to R170) -/

/-- Key store slot `k` holds a whole key (R164). -/
def State.slotValid (s : State) (k : Nat) : Bool := s.bit (Reg.CIP_KSV (k / 32)) (k % 32)

/-- The bytes of key store slot `k`, as the cores see them (R162). -/
def State.slotBytes (s : State) (k : Nat) : List Byte := s.bytes (0x107FC000 + 16 * k) 16

/-- The tenant has no usable key (R166, R162, R164). -/
def State.noKey (s : State) (t : Nat) : Bool :=
  let k := s.getA (F.CIP_TEN_SLOT t)
  let big := s.flagA (F.CIP_TEN_K256 t)
  !s.flagA (F.CIP_TEN_EN t) || (big && k % 2 == 1) || !s.slotValid k || (big && !s.slotValid (k + 1))

/-- The key epoch of entry value `e` (R167). -/
def State.keyEpoch (s : State) (e : Nat) : Nat := s.getA (F.CIP_TEN_EPOCH (entTenant e)) * 16 + entEps e

/-- One block of the derivation (R168). -/
def kdfMessage (j index epoch bits : Nat) : List Byte :=
  [BitVec.ofNat 8 j, 0x50, 0x4C, 0x4B, 0x44, 0x00] ++ (bytesLe 3 index).reverse ++ (bytesLe 3 epoch).reverse ++
    (bytesLe 2 bits).reverse

/-- The derived key under a master key (R168). -/
def deriveKey (master : List Byte) (k256 : Bool) (index epoch : Nat) : List Byte :=
  if k256 then cmac master (kdfMessage 1 index epoch 256) ++ cmac master (kdfMessage 2 index epoch 256)
  else cmac master (kdfMessage 1 index epoch 128)

/-- A key joins the cache: its set keeps the four most recently used keys (R170). -/
def cachePut (cache : List CacheKey) (k : CacheKey) : List CacheKey :=
  let others := cache.filter (fun c => !(c.index == k.index && c.epoch == k.epoch && c.slot == k.slot && c.k256 == k.k256))
  let mine := others.filter (fun c => c.index % 1024 == k.index % 1024)
  let drop := mine.drop 3
  k :: others.filter (fun c => !drop.contains c)

/-- The key of entry `i`, from the cache or derived and cached (R168, R170). -/
def State.takeKey (s : State) (i e : Nat) : List Byte × State :=
  let t := entTenant e
  let slot := s.getA (F.CIP_TEN_SLOT t)
  let big := s.flagA (F.CIP_TEN_K256 t)
  let epoch := s.keyEpoch e
  let key :=
    match s.cip.cache.find? (fun c => c.index == i && c.epoch == epoch && c.slot == slot && c.k256 == big) with
    | some c => c.key
    | none =>
      deriveKey (if big then s.slotBytes slot ++ s.slotBytes (slot + 1) else s.slotBytes slot) big i epoch
  (key, { s with cip := { s.cip with cache := cachePut s.cip.cache ⟨i, epoch, slot, big, key⟩ } })

/-- A write of CIP_CTL.FLUSH = 1 (R170). -/
def State.flushKeys (s : State) : State := { s with cip := { s.cip with cache := [] } }

/-! ## A core takes a job (R485 steps 2 to 4) -/

/-- Core `c` holds `x`. -/
def State.setCore (s : State) (c : Fin 8) (x : Option CoreRun) : State :=
  { s with cip := { s.cip with core := s.cip.core.set c.val x } }

/-- The nonce of a Deep job (R179): tenant, index, direction, counter, level. -/
def deepNonce (tenant index dir counter level : Nat) : List Byte :=
  (bytesLe 2 tenant).reverse ++ (bytesLe 3 index).reverse ++ [BitVec.ofNat 8 dir, 0, 0] ++
    (bytesLe 4 counter).reverse ++ [BitVec.ofNat 8 level]

/-- The nonce of a SUN job (R181): address most significant octet first, counter, level. -/
def sunNonce (addr counter level : Nat) : List Byte :=
  (bytesLe 8 addr).reverse ++ (bytesLe 4 counter).reverse ++ [BitVec.ofNat 8 level]

/-- CIP_SELF_HI and CIP_SELF_LO as one address (R181). -/
def State.selfAddr (s : State) : Nat := (s.reg Reg.CIP_SELF_HI).toNat * 2 ^ 32 + (s.reg Reg.CIP_SELF_LO).toNat

/-- TC of entry `i` with the counter lift applied first where the walk has not reached it (09 R311). -/
def State.liftTc (s : State) (i e : Nat) : Nat :=
  match s.sph.lift with
  | some p =>
    if p ≤ i ∧ ¬ s.sph.lifted.contains i then min (entTc e + s.get F.SPH_LIFT_LIFT) 0xFFFFFF else entTc e
  | none => entTc e

/-- The walk of the counter lift passes over entry `i` (R311). -/
def State.noteLifted (s : State) (i : Nat) : State :=
  match s.sph.lift with
  | some _ => { s with sph := { s.sph with lifted := i :: s.sph.lifted } }
  | none => s

/-- An encrypting job reserves its counter and takes its key (R182, R183, 09 R296). -/
def State.reserveCounter (s : State) (c : Fin 8) (run : CoreRun) (e : Nat) : State :=
  let tc := s.liftTc run.index e
  if tc = 0xFFFFFF then s.setCore c (some { run with ended := some 3 })
  else
    let s1 := (s.setEntry run.index (setBits e 44 24 (tc + 1))).noteLifted run.index
    let y := s1.syncEntry run.index
    let k := y.1.takeKey run.index e
    let nonce :=
      if jobOp run.job.d = 0 then deepNonce (entTenant e) run.index 0 tc run.level else sunNonce s.selfAddr tc run.level
    k.2.setCore c (some { run with counter := tc, nonce := nonce, key := k.1, waitSeq := y.2 })

/-- A decrypting job compares its counter with RC and takes its key (R184). A replay counts when it is reported (R485). -/
def State.replayCheck (s : State) (c : Fin 8) (run : CoreRun) (e fc : Nat) (nonce : List Byte) : State :=
  let run := { run with counter := fc, nonce := nonce }
  if fc ≤ entRc e then s.setCore c (some { run with ended := some 2 })
  else
    let k := s.takeKey run.index e
    k.2.setCore c (some { run with key := k.1 })

/-- SUN_DEC reads its frame counter and the sender's address (R181, R184). A replay is met before a failure of the second read, whose
bytes are 0 (R485). -/
def State.readCounter (s : State) (c : Fin 8) (run : CoreRun) : State :=
  let d := run.job.d
  match s.moveRead (s.blockNS 14) 70 (jobSrc d + 8 + jobFcoff d) 4 with
  | (s1, .error _) => s1.setCore c (some { run with ended := some 9 })
  | (s1, .ok f) =>
    let fc := ofBytesLe f
    let e := s1.entry run.index
    match s1.moveRead (s1.blockNS 14) 70 (jobSrc d) 8 with
    | (s2, .ok addr) => s2.replayCheck c run e fc (sunNonce (ofBytesLe addr) fc run.level)
    | (s2, .error _) =>
      let run1 := { run with counter := fc, nonce := sunNonce 0 fc run.level }
      s2.setCore c (some { run1 with ended := some (if fc ≤ entRc e then 2 else 9) })

/-- The core checks and what follows them (R485 steps 3 and 4). `fc` is DEEP_DEC's counter. -/
def State.coreChecks (s : State) (c : Fin 8) (run : CoreRun) (fc : Nat) : State :=
  let d := run.job.d
  let op := jobOp d
  let e := s.entry run.index
  let t := entTenant e
  let stop (st : Nat) : State := s.setCore c (some { run with ended := some st })
  if !s.ready 13 then stop 9
  else if !entValid e || entBarred e then stop 4
  else if run.job.ns && !s.flagA (F.CIP_TEN_NS t) then stop 6
  else if (op == 0 || op == 2) && !s.ownsCistern then stop 6
  else if (op == 2 || op == 3) && s.flagA (F.CIP_TEN_K256 t) then stop 7
  else if s.noKey t then stop 5
  else
    match op with
    | 0 => s.reserveCounter c run e
    | 2 => s.reserveCounter c run e
    | 1 => s.replayCheck c run e fc (deepNonce t run.index 1 fc run.level)
    | 3 => if s.flashHolds (jobSrc d) 8 then s.setCore c (some { run with unread := some s.worldMap }) else s.readCounter c run
    | _ =>
      let k := s.takeKey run.index e
      k.2.setCore c (some { run with key := k.1 })

/-- DEEP_DEC reads its prefix and checks it (R180, R485 step 2). -/
def State.readPrefix (s : State) (c : Fin 8) (run : CoreRun) : State :=
  let d := run.job.d
  match s.moveRead (s.blockNS 14) 70 (jobSrc d) 8 with
  | (s1, .error _) => s1.setCore c (some { run with ended := some 9 })
  | (s1, .ok p) =>
    let idx := ofBytesLe (p.take 3)
    let lvl := ofBytesLe (p.drop 7)
    let run1 := { run with index := idx % 2 ^ 18, level := lvl }
    let stop (st : Nat) : State := s1.setCore c (some { run1 with ended := some st })
    if lvl < 5 ∨ 7 < lvl ∨ 2 ^ 18 ≤ idx then stop 7
    else if jobMlen d < 8 + micLen lvl then stop 7
    else if run.job.ns && !s1.memNS (entryAddr idx) then stop 6
    else s1.coreChecks c run1 (ofBytesLe ((p.drop 3).take 4))

/-- Core `c` takes a job (R174). A read of SRC that must wait for the flash is made when the flash is free (14 R442). -/
def State.takeJob (s : State) (c : Fin 8) (job : CipJob) : State :=
  if jobOp job.d = 1 then
    (if s.flashHolds (jobSrc job.d) 8 then s.setCore c (some { job := job, unread := some s.worldMap })
     else s.readPrefix c { job := job })
  else s.coreChecks c { job := job, index := jobIndex job.d, level := jobLevel job.d } 0

/-- JOB_START (R174): the lowest-numbered free core takes the oldest queued job. -/
def execJobStart (s : State) : Out :=
  .next (match s.cip.queue, (List.finRange 8).find? (fun c => s.cip.core[c.val].isNone) with
  | job :: rest, some c =>
    if s.ready 14 then ({ s with cip := { s.cip with queue := rest } }).takeJob c job else s
  | _, _ => s)

/-! ## A job ends (R184, R186 to R190) -/

/-- The `n` bytes a job has written to DST are overwritten with 0 (R187). -/
def State.zeroOut (s : State) (d : JobDesc) (n : Nat) : State :=
  if writesDst d then (s.moveWrite (s.blockNS 14) 70 (jobDst d) (List.replicate n 0)).1 else s

/-- The record of core `c` is written and the core is free, unless the peer must first acknowledge the counter change
(09 R296). A job whose record cannot be written ends FAULT, so its output is zeroed (R187, R190). -/
def State.releaseCore (s : State) (c : Fin 8) : State :=
  match s.cip.core[c.val] with
  | some run =>
    match run.result with
    | some (st, n) =>
      if (match run.waitSeq with
          | some q => s.unacked q
          | none => false) then s
      else
        let none' := jobOp run.job.d ≥ 4
        let y := (s.setCore c none).writeRecord run.job.d
          ⟨st, c.val, true, if none' then 0 else run.counter, if none' then [] else run.nonce, run.index, n⟩
        if y.2 then y.1 else y.1.zeroOut run.job.d n
    | none => s
  | none => s

/-- Every record that waits and may now be written (R296), by the cores' own accesses (01 R26). -/
def State.releaseRecords (s : State) : State := s.ownAccess (fun u => u.each (List.finRange 8) State.releaseCore)

/-- Core `c` has ended with `status` and `n` output bytes. -/
def State.finishCore (s : State) (c : Fin 8) (run : CoreRun) (status n : Nat) : State :=
  (s.setCore c (some { run with result := some (status, n) })).releaseCore c

/-- The bytes from `a` on that a write of `n` bytes in world `ns` would put down before it fails. -/
def State.writable (s : State) (ns : Bool) (a n : Nat) : Nat :=
  ((List.range n).takeWhile (fun i => (s.moveCheck ns 70 (a + i) true).2.isNone)).length

/-- The output is written at DST; a failing write leaves the bytes written before it at zero (R187). The flag says whether
all of it was written. -/
def State.writeOut (s : State) (a : Nat) (bs : List Byte) : State × Bool :=
  let ns := s.blockNS 14
  match s.moveWrite ns 70 a bs with
  | (s1, none) => (s1, true)
  | (s1, some _) => ((s1.moveWrite ns 70 a (List.replicate (s.writable ns a bs.length) 0)).1, false)

/-- An output that succeeds ends the job OK, else FAULT. -/
def State.endWith (s : State) (c : Fin 8) (run : CoreRun) (bs : List Byte) : State :=
  match s.writeOut (jobDst run.job.d) bs with
  | (s1, true) => s1.finishCore c run 0 bs.length
  | (s1, false) => s1.finishCore c run 9 0

/-- The end of a decrypting job whose output `bs` is written: the MIC's verdict, then the final check of R184 with the
update of RC, which only SOLO and PRIMARY make (09 R298). On any status but OK the output is zeroed (R187).
CIP_AUTHF and CIP_REPLAY count before the job's record is tried, and keep the count when that fails (DESIGN CHOICE, log entry 157). -/
def State.endDecrypt (s : State) (c : Fin 8) (run : CoreRun) (bs : List Byte) (micGood : Bool) : State :=
  match s.writeOut (jobDst run.job.d) bs with
  | (s1, false) => s1.finishCore c run 9 0
  | (s1, true) =>
    let fail (s : State) (st : Nat) : State :=
      (s.zeroOut run.job.d bs.length).finishCore c run st 0
    if !micGood then fail (s1.bump F.CIP_AUTHF_COUNT) 1
    else if !s1.ready 13 then fail s1 9
    else
      let e := s1.entry run.index
      if run.counter ≤ entRc e then fail (s1.bump F.CIP_REPLAY_COUNT) 2
      else if s1.ownsCistern then
        let y := (s1.setEntry run.index (setBits e 68 32 run.counter)).syncEntry run.index
        y.1.finishCore c { run with waitSeq := y.2 } 0 bs.length
      else s1.finishCore c run 0 bs.length

/-- The data phase of a job that passed its checks (R176 to R181). -/
def State.runJob (s : State) (c : Fin 8) (run : CoreRun) : State :=
  let d := run.job.d
  let m := micLen run.level
  let sched := aesSchedule run.key
  match jobOp d with
  | 6 => s.finishCore c run 0 0
  | op =>
    match s.moveRead (s.blockNS 14) 70 (jobSrc d) (srcLen d) with
    | (s1, .error _) => s1.finishCore c run 9 0
    | (s1, .ok src) =>
      match op with
      | 0 =>
        let pre := bytesLe 3 run.index ++ bytesLe 4 run.counter ++ [BitVec.ofNat 8 run.level]
        s1.endWith c run (pre ++ ccmCrypt sched run.nonce src ++ ccmMic sched run.nonce m pre src)
      | 1 =>
        let pre := src.take 8
        let body := (src.drop 8).take (jobMlen d - 8 - m)
        let plain := ccmCrypt sched run.nonce body
        s1.endDecrypt c run plain (ccmMic sched run.nonce m pre plain == lastN m src)
      | 2 =>
        let a0 := src.take (jobAlen d)
        let a := a0.take (jobFcoff d) ++ bytesLe 4 run.counter ++ a0.drop (jobFcoff d + 4)
        let md := src.drop (jobAlen d)
        if run.level ≤ 3 then s1.endWith c run (a ++ md ++ ccmMic sched run.nonce m (a ++ md) [])
        else s1.endWith c run (a ++ ccmCrypt sched run.nonce md ++ ccmMic sched run.nonce m a md)
      | 3 =>
        let a := (src.drop 8).take (jobAlen d)
        let body := (src.drop (8 + jobAlen d)).take (jobMlen d - m)
        let mic := lastN m src
        if run.level ≤ 3 then s1.endDecrypt c run (a ++ body) (ccmMic sched run.nonce m (a ++ body) [] == mic)
        else
          let plain := ccmCrypt sched run.nonce body
          s1.endDecrypt c run (a ++ plain) (ccmMic sched run.nonce m a plain == mic)
      | 4 => s1.endWith c run ((cmac run.key src).take m)
      | _ =>
        if (cmac run.key (src.take (jobMlen d))).take m == src.drop (jobMlen d) then s1.finishCore c run 0 0
        else (s1.bump F.CIP_AUTHF_COUNT).finishCore c run 1 0

/-- The read of SRC that core `c` had to put off is made (14 R442). -/
def State.readLate (s : State) (c : Fin 8) (run : CoreRun) : State :=
  match run.unread with
  | some m =>
    let run := { run with unread := none }
    (s.underWorlds m (fun u => (if jobOp run.job.d = 1 then u.readPrefix c run else u.readCounter c run, ()))).1
  | none => s

/-- Core `c`, its reads of SRC before the data phase made, ends its job. -/
def State.completeJob (s : State) (c : Fin 8) : State :=
  match s.cip.core[c.val] with
  | some run =>
    match run.ended with
    | some st => (if st = 2 then s.bump F.CIP_REPLAY_COUNT else s).finishCore c run st 0
    | none => s.runJob c run
  | none => s

/-- JOB_COMPLETE (R184, R186, R187): core `c` ends its job. A core that only waits for the peer changes nothing; one whose reads must
wait for the flash cannot end (14 R442). -/
def execJobComplete (c : Fin 8) (s : State) : Out :=
  .next (match s.cip.core[c.val] with
  | some run =>
    if run.result.isSome then s.releaseCore c
    else if run.ended.isNone && s.flashHolds (jobSrc run.job.d) (srcLen run.job.d) then s
    else (s.readLate c run).completeJob c
  | none => s)

/-- The jobs engine `e` has submitted and not written a record of end ABORTED (R188). A record that waited for the peer
says ABORTED too, and its output is zeroed. -/
def State.abortJobs (s : State) (e : Nat) : State :=
  let mine := s.cip.queue.filter (fun j => j.req == e)
  let s1 := { s with cip := { s.cip with queue := s.cip.queue.filter (fun j => j.req != e) } }
  let s2 := s1.each mine (fun s j => s.unstartedRecord j.d 8)
  s2.each (List.finRange 8) (fun s c =>
    match s.cip.core[c.val] with
    | some run =>
      if run.job.req = e then
        let n := match run.result with
          | some (0, n) => n
          | _ => 0
        (s.zeroOut run.job.d n).finishCore c run 8 0
      else s
    | none => s)

/-- A reset of the CIP block discards every job without a record (R189), empties the cache, and clears the key store and
every valid bit (R165). -/
def State.resetCipher (s : State) : State :=
  ({ s with cip := {} }).wipe 0x107FC000 0x10800000

end Sys2Proof.Machine
end

