-- ==== Sys2Proof/Machine/Receive.lean ====
section
/-! DEFINITION. Receive chains, lanes and the decoder pool (02, 03): the gain controller, sync search, the lane states, the
header window with its second correlator, codeword decoding, delivery, and channel loading. -/

namespace Sys2Proof.Machine

/-! ## Chains -/

/-- The chain of lane `n` (R41). -/
def laneChain (n : LaneIx) : Chain := if n.val < 48 then .a else .b

/-- The lanes of a chain, lowest first. -/
def chainLanes (c : Chain) : List LaneIx := (List.finRange 96).filter (fun n => laneChain n == c)

/-- The other chain. -/
def otherChain : Chain → Chain
  | .a => .b
  | .b => .a

/-- DIVERSITY is the active mode (R44). -/
def State.diversity (s : State) : Bool := s.flagA F.RXC_CTL_MODE

/-- The chain is enabled in the active settings (R82). -/
def State.chainEnabled (s : State) (c : Chain) : Bool :=
  match c with
  | .a => s.flagA F.RXC_CTL_ENA
  | .b => s.flagA F.RXC_CTL_ENB

/-- RXA or RXB of SYS_READY (R28). -/
def State.chainReady (s : State) (c : Chain) : Bool := s.ready (24 + chainNo c)

/-- The chain is blanked by the transmitter (R77). -/
def State.chainBlanked (s : State) (c : Chain) : Bool := s.flag (F.RXC_STAT_BLANK (chainNo c))

/-- The chain is blanked or calibrating: its lanes cannot listen (R67, R79). -/
def State.chainDark (s : State) (c : Chain) : Bool :=
  s.chainBlanked c || s.flag (F.RXC_STAT_CAL (chainNo c)) || !s.chainReady c

/-! ## Searchers (R58 to R60) -/

/-- The channel profile that applies to lane `n`: LDP_CHPn.CUR, read from entry n − 48 in DIVERSITY (R58, R113). -/
def State.chProfile (s : State) (n : Nat) : Nat :=
  s.get (F.LDP_CHP_CUR (if s.diversity && decide (48 ≤ n) then n - 48 else n))

/-- The modulation and RATE code a searcher takes from the channel profile under FOLLOW (R58). -/
def State.followProfile (s : State) (n k : Nat) : Profile :=
  profileOf (s.chProfile n - s.getA (F.LAN_SRCH_DELTA n k))

/-- Searcher `k` of lane `n` is active (R58). -/
def State.searcherActive (s : State) (n k : Nat) : Bool :=
  s.flagA (F.LAN_SRCH_EN n k) &&
    (s.flagA (F.LAN_SRCH_FOLLOW n k) ||
      (decide (s.getA (F.LAN_SRCH_MOD n k) ≤ 1) && decide (s.getA (F.LAN_SRCH_RATE n k) ≤ 2) &&
        !(!s.flagA (F.LAN_SRCH_FAM n k) && s.getA (F.LAN_SRCH_MOD n k) == 0 &&
          s.flagA (F.LAN_SRCH_HIDX n k) && s.getA (F.LAN_SRCH_RATE n k) == 2)))

/-- The settings of searcher `k` of lane `n` as they are now (R58, R59, R84). -/
def State.searcher (s : State) (n k : Nat) : LockSet :=
  let follow := s.flagA (F.LAN_SRCH_FOLLOW n k)
  let p := s.followProfile n k
  let four := if follow then p.fourLevel else s.getA (F.LAN_SRCH_MOD n k) == 1
  let rate := if follow then p.rate else s.getA (F.LAN_SRCH_RATE n k)
  let tol := s.getA (F.LAN_SRCH_TOL n k)
  if s.flagA (F.LAN_SRCH_FAM n k) then
    ⟨k, true, four, rate, [(bitsMsb 32 (s.activeReg (Reg.LAN_SYNC n k)).toNat, false)], min tol 6⟩
  else ⟨k, false, four, rate, sfdPatterns (s.getA (F.LAN_SRCH_SFD n k)) four, min tol 2⟩

/-- The active searchers of lane `n`, lowest first. -/
def State.searchers (s : State) (n : Nat) : List LockSet :=
  ((List.range 4).filter (s.searcherActive n)).map (s.searcher n)

/-- The bits of a searcher's patterns (all of one searcher have the same length). -/
def LockSet.patLen (l : LockSet) : Nat :=
  match l.pats with
  | [] => 0
  | p :: _ => p.1.length

/-- The better of two candidate matches: fewer errors, the earlier on equal errors. -/
def betterMatch {α : Type} (a : Option (Nat × α)) (b : Nat × α) : Option (Nat × α) :=
  match a with
  | none => some b
  | some x => if b.1 < x.1 then some b else some x

/-- The match of a searcher on the newest bits of a history: its bit errors and whether the value was a coded SFD (R59,
R84). Of two SFD values with equally many errors the one earlier in `sfdPatterns` wins (DESIGN CHOICE, log entry 115). -/
def LockSet.matchAt (l : LockSet) (hist : List Bool) : Option (Nat × Bool) :=
  l.pats.foldl (fun best p =>
    let recent := lastN p.1.length hist
    let e := bitDiff recent p.1
    if recent.length = p.1.length ∧ e ≤ l.tol then betterMatch best (e, p.2) else best) none

/-- The 32 newest bits a searcher has demodulated, oldest first. -/
def hitBits (h : Hits) (k : Nat) : List Bool :=
  match k with
  | 0 => bitsMsb 32 h.h0.toNat
  | 1 => bitsMsb 32 h.h1.toNat
  | 2 => bitsMsb 32 h.h2.toNat
  | _ => bitsMsb 32 h.h3.toNat

/-- The match a lane locks on: the fewest bit errors, then the lowest searcher (R60). -/
def bestMatch (sets : List LockSet) (h : Hits) : Option (Nat × (LockSet × Bool)) :=
  sets.foldl (fun best l =>
    match l.matchAt (hitBits h l.srch) with
    | some (e, coded) => betterMatch best (e, (l, coded))
    | none => best) none

/-! ## Leaving and entering lane states (R67) -/

/-- EN, an enabled chain and an active searcher: the lane may listen (R67). -/
def State.laneEligible (s : State) (n : LaneIx) : Bool :=
  s.flagA (F.LAN_CFG_EN n.val) && s.chainEnabled (laneChain n) && !(s.searchers n.val).isEmpty

/-- A lane in state `st` with no frame. -/
def Lane.idle (l : Lane) (st : LaneState) : Lane :=
  { l with state := st, lock := {}, sets := [], track := false, evt := none, frame := {}, hist := [], count := 0,
           window := [], soft := [], recs := [], ferr64 := 0, dgain := 0, endedWindow := false, ran := l.ran || l.state != .off || st != .off }

/-- The lane goes to SEARCH, or where R67 sends it from there: OFF when it may not listen, BLANK while its chain is dark. -/
def State.toSearch (s : State) (n : LaneIx) : State :=
  let st : LaneState := if s.laneEligible n then (if s.chainDark (laneChain n) then .blank else .search) else .off
  s.setLane n ((s.laneAt n).idle st)

/-- The codewords of lane `n` in the pool lose their frame: their results are dropped on arrival (R45, R67). -/
def State.dropCodewords (s : State) (n : LaneIx) : State :=
  let kill (j : CwJob) : CwJob := if j.lane = n then { j with dead := true } else j
  { s with ldpQueue := s.ldpQueue.map kill
           ldp := s.ldp.map (fun d => d.map (fun x => { x with job := kill x.job })) }

/-- The frame in progress is discarded and LAN_ABORT increments; the lane's next state is `st` (R67). -/
def State.abortFrame (s : State) (n : LaneIx) (st : LaneState) : State :=
  let s1 := (s.dropCodewords n).bump (F.LAN_ABORT_COUNT n.val)
  s1.setLane n ((s1.laneAt n).idle st)

/-- The lane after its settings, its chain's enable or its chain's blanking changed (the table of R67). -/
def State.reconcileLane (s : State) (n : LaneIx) : State :=
  let l := s.laneAt n
  let c := laneChain n
  match l.state with
  | .off => if s.laneEligible n && s.chainReady c then s.toSearch n else s
  | .search => if !s.laneEligible n || s.chainDark c then s.toSearch n else s
  | .header =>
    if !s.chainEnabled c then s.abortFrame n .off else if s.chainDark c then s.abortFrame n .blank else s
  | .payload =>
    if !s.chainEnabled c then s.abortFrame n .off else if s.chainDark c then s.abortFrame n .blank else s
  | .blank =>
    if !s.flagA (F.LAN_CFG_EN n.val) || !s.chainEnabled c then s.setLane n (l.idle .off)
    else if s.chainDark c then s else s.toSearch n
  | .drain => s
  | .ready => s

/-- Every lane after a change of settings, enables or blanking. -/
def State.reconcile (s : State) : State := s.each (List.finRange 96) State.reconcileLane

/-- RELEASE in READY returns the buffer and leaves the state; elsewhere it is ignored (R69). -/
def State.releaseLane (s : State) (n : LaneIx) : State :=
  match (s.laneAt n).state with
  | .ready => s.toSearch n
  | _ => s

/-- RESTART (R70 and the table of R67). -/
def State.restartLane (s : State) (n : LaneIx) : State :=
  match (s.laneAt n).state with
  | .ready => s.toSearch n
  | .drain => (s.abortFrame n .search).toSearch n
  | .header => (s.abortFrame n .search).toSearch n
  | .payload => (s.abortFrame n .search).toSearch n
  | _ => s

/-! ## Blanking and calibration (R77 to R79) -/

/-- The decision windows of a chain stop and lose what they had seen (R487). -/
def State.stopWindows (s : State) (c : Chain) : State :=
  let x := s.chainAt c
  (s.setChain c { x with clipWindow := false, busyWindow := false, sinceClip := none, settling := false }).each
    (chainLanes c) (fun s n => s.setLane n { s.laneAt n with endedWindow := false })

/-- The transmitter blanks chain `c`: its frames are lost, and frames in progress on the other chain carry DESENSE. -/
def State.blankChain (s : State) (c : Chain) : State :=
  let s1 := ((s.raise (F.RXC_STAT_BLANK (chainNo c))).stopWindows c).reconcile
  s1.each (chainLanes (otherChain c)) (fun s n =>
    let l := s.laneAt n
    if l.state = .header ∨ l.state = .payload then
      s.setLane n { l with frame := { l.frame with marks := { l.frame.marks with desense := true } } }
    else s)

/-- The blanking of chain `c` ends at moment `t` of the model's clock. -/
def State.unblankChain (s : State) (c : Chain) (t : Nat) : State :=
  ((s.lower (F.RXC_STAT_BLANK (chainNo c))).setChain c { s.chainAt c with unblankAt := some t }).reconcile

/-- The synthesiser of chain `c` begins to recalibrate: a retune, or RECALA or RECALB (R79). -/
def State.startCalibration (s : State) (c : Chain) : State :=
  ((s.raise (F.RXC_STAT_CAL (chainNo c))).setBit Reg.SYS_READY (24 + chainNo c) false).stopWindows c

/-- A chain calibrates, and its lanes follow (R67, R79). -/
def State.calibrateChain (s : State) (c : Chain) : State := (s.startCalibration c).reconcile

/-- RECALA or RECALB: nothing on a chain that is disabled in the active settings (R79). -/
def State.recalChain (s : State) (c : Chain) : State :=
  if s.chainEnabled c then s.calibrateChain c else s

/-- SYNTH_CALIBRATION_COMPLETE (R79, R28): RXA or RXB sets and the lanes leave BLANK. -/
def execSynthCalibrationComplete (c : Chain) (s : State) : Out :=
  .next (if s.flag (F.RXC_STAT_CAL (chainNo c)) && s.awake then
    ((s.lower (F.RXC_STAT_CAL (chainNo c))).setBit Reg.SYS_READY (24 + chainNo c) true).reconcile
  else s)

/-- DC_LOOP_LIMIT (R47): the DC loop of a chain reaches its limit with the residual `i`, `q`. -/
def execDcLoopLimit (c : Chain) (i q : BitVec 16) (s : State) : Out :=
  .next (if s.chainEnabled c && s.chainReady c then
    ((s.put (F.RXC_DC_I (chainNo c)) i.toNat).put (F.RXC_DC_Q (chainNo c)) q.toNat).raise F.RXC_ERR_DCSAT
  else s)

/-- WAKE_CODE_MATCH (R80, R81): 16 bits received by the wake receiver. -/
def execWakeCodeMatch (code : BitVec 16) (s : State) : Out :=
  let want := s.get F.WKR_CODE_CODE
  .next (if s.flag F.WKR_CTL_EN && decide (popCount 16 (code.toNat ^^^ want) ≤ min (s.get F.WKR_CTL_TOL) 2) &&
      want != 0 && want != 0xFFFF && s.pwrState != 4 then
    ((s.raise F.WKR_STAT_MATCH).bump F.WKR_COUNT_COUNT).signalWake 1
  else s)

/-! ## Gain (R48 to R54, R487) -/

/-- At least one lane of the chain is in HEADER or PAYLOAD (RXC_STAT.HOLD). -/
def State.chainHolds (s : State) (c : Chain) : Bool :=
  (chainLanes c).any (fun n => (s.laneAt n).state == .header || (s.laneAt n).state == .payload)

/-- The reading of a composite peak given in 0.01 dBFS (R48). -/
def peakReading (peak : Int) : Int := clampInt (-90) 24 ((peak + 50) / 100)

/-- The index that R50, R51 and R54 choose from the peak reading. -/
def State.nextGain (s : State) (c : Chain) (p : Int) : Nat :=
  let k := chainNo c
  let idx := s.get (F.RXC_STAT_IDX k)
  let hi : Int := s.getA (F.RXC_GAIN_HI k)
  let lo : Int := max (s.getA (F.RXC_GAIN_LO k) : Int) (hi + 7)
  if s.flagA (F.RXC_GAIN_FIXED k) then min 11 (s.getA (F.RXC_GAIN_FIXED_IDX k))
  else if p > -hi then idx - min 4 (ceilDiv (p + hi).toNat 6)
  else if p < -lo ∧ idx < min 11 (s.getA (F.RXC_GAIN_MAX_IDX k)) then idx + 1
  else idx

/-- The windows counted since the last one that clipped; forgotten after 1,000. -/
def ageClip (x : Option Nat) : Option Nat :=
  match x with
  | none => none
  | some j => if j < 1000 then some (j + 1) else none

/-- DECISION_WINDOW_END (R48 to R51, R54): a 10 µs window of a chain that listens ends with composite peak `peak`, in
0.01 dBFS. -/
def execDecisionWindowEnd (c : Chain) (peak : Int) (s : State) : Out :=
  .next (if s.chainEnabled c && !s.chainDark c then
    let x := s.chainAt c
    let p := peakReading peak
    let held := x.busyWindow || s.chainHolds c
    let s1 := s.put (F.RXC_STAT_PEAK (chainNo c)) (ofSigned 8 p)
    let idx := if held then s.get (F.RXC_STAT_IDX (chainNo c)) else s.nextGain c p
    let moved := idx != s.get (F.RXC_STAT_IDX (chainNo c))
    let s2 := s1.put (F.RXC_STAT_IDX (chainNo c)) idx
    let s3 := s2.setChain c
      { x with clipWindow := false, busyWindow := s.chainHolds c, sinceClip := ageClip x.sinceClip,
               settling := x.settling || moved }
    s3.each (chainLanes c) (fun s n => s.setLane n { s.laneAt n with endedWindow := false })
  else s)

/-- GAIN_SETTLED (R52): a gain change has settled; the lanes in SEARCH start their loops afresh. -/
def execGainSettled (c : Chain) (s : State) : Out :=
  .next (if (s.chainAt c).settling then
    (s.setChain c { s.chainAt c with settling := false }).each (chainLanes c) (fun s n =>
      match (s.laneAt n).state with
      | .search => s.setLane n ((s.laneAt n).idle .search)
      | _ => s)
  else s)

/-- ADC_CLIP (R53): once for the window in which it clipped; every frame whose on-air interval overlaps the window is
marked, one that is READY in its descriptor (DESIGN CHOICE, log entry 116). -/
def execAdcClip (c : Chain) (s : State) : Out :=
  .next (if s.chainEnabled c && !s.chainDark c && !(s.chainAt c).clipWindow then
    let s1 := (s.bump (F.RXC_CLIP_COUNT (chainNo c))).pulse (64 + chainNo c)
    let s2 := s1.setChain c { s1.chainAt c with clipWindow := true, sinceClip := some 0 }
    s2.each (chainLanes c) (fun s n =>
      let l := s.laneAt n
      let marked := { l with frame := { l.frame with marks := { l.frame.marks with clip := true } } }
      match l.state with
      | .header => s.setLane n marked
      | .payload => s.setLane n marked
      | .drain => if l.endedWindow then s.setLane n marked else s
      | .ready => if l.endedWindow then s.raise (F.LAN_FD0_CLIP n.val) else s
      | _ => s)
  else s)

/-! ## Power readings (R76) -/

/-- The largest of the values `lo + n − 1` down to `lo` that meets `p`, or `lo`. -/
def largestWith (lo : Int) : Nat → (Int → Bool) → Int
  | 0, _ => lo
  | n + 1, p => if p (lo + n) then lo + n else largestWith lo n p

/-- A power in attowatts as whole dBm, halves rounded up (R76): the largest d with 10·log10(P) − 150 ≥ d − 1/2. -/
def dbmRounded (power : Nat) : Int :=
  largestWith (-127) 255 (fun d => decide (10 ^ (2 * d + 299).toNat ≤ power ^ 20))

/-- A power average of `m` readings with sum `sum` attowatts, rounded down to whole dBm (R110). -/
def dbmFloor (sum m : Nat) : Int :=
  largestWith (-127) 255 (fun d => decide (m ^ 10 * 10 ^ (d + 150).toNat ≤ sum ^ 10))

/-- The lane whose loading entry takes a measurement of lane `n` (03, R110). -/
def State.entryOf (s : State) (n : LaneIx) : LaneIx :=
  if s.diversity ∧ 48 ≤ n.val then ⟨n.val - 48, by omega⟩ else n

/-- NOISE_MEASUREMENT_COMPLETE (R76, R110): a whole 1 ms period in SEARCH with average power `power` attowatts; it is gathered for
channel loading while superframes pass. -/
def execNoiseMeasurementComplete (n : LaneIx) (power : Nat) (s : State) : Out :=
  .next (match (s.laneAt n).state with
  | .search =>
    let s1 := s.put (F.LAN_RSSI_NOISE n.val) (ofSigned 8 (dbmRounded power))
    let e := s1.entryOf n
    if s1.running then s1.setLane e { s1.laneAt e with noise := (s1.laneAt e).noise ++ [power] } else s1
  | _ => s)

/-- FREQUENCY_CORRECTION (R56): 1/64 of the measured error, in 10 Hz units, within ±2 kHz of the value at sync. -/
def execFrequencyCorrection (n : LaneIx) (err : Int) (s : State) : Out :=
  let l := s.laneAt n
  let f0 := 64 * l.frame.ferr0
  let f1 := clampInt (f0 - 64 * 200) (f0 + 64 * 200) (l.ferr64 + err)
  .next (if (l.state = .header ∨ l.state = .payload) ∧ l.track then s.setLane n { l with ferr64 := f1 } else s)

/-! ## Sync and the header window (R59 to R65, R489, R490) -/

/-- CLIP and DESENSE of a frame whose first sync bit came at moment `first` of the model's clock, `air` units before the present (R53,
R78). -/
def State.marksSince (s : State) (n : LaneIx) (first air : Nat) : Marks :=
  let c := laneChain n
  let other := otherChain c
  { clip := (match (s.chainAt c).sinceClip with
      | some j => decide (80 * j ≤ air)
      | none => false)
    desense := s.chainBlanked other ||
      (match (s.chainAt other).unblankAt with
       | some t => decide (first < t)
       | none => false) }

/-- The frame of a lock on a match that ends `bits` after the end of the lane's present sync: its time is moved on, its
gain and frequency stay, its RSSI is measured anew (a free value, log entry 9); `since` bits have come since its first. -/
def State.moveLock (s : State) (n : LaneIx) (errs : Nat) (coded : Bool) (bits since : Nat) : State × RxFrame :=
  let l := s.laneAt n
  let f := l.frame
  let time := bitsTime l.lock.fourLevel l.lock.rate
  let last := f.lockAt + time bits
  let dr := s.draw 8
  (dr.2, { errs := errs, coded := coded, tsAsn := (s.stampAt last).1, tsOff := (s.stampAt last).2, lockAt := last
           ferr0 := f.ferr0, gidx := f.gidx, rssi := dr.1
           marks := s.marksSince n (last - time l.lock.patLen) (time since) })

/-- The bits of the lane's header window (R60, R86). -/
def Lane.windowLen (l : Lane) : Nat := if l.lock.deep then 48 else sunWindow l.frame.coded

/-- One bit of the header window, after which `after` more have come: the second correlator pre-empts on a match with strictly fewer
errors (R62) and records the two earliest others (R63). A bit beyond the window, which the header ends, enters the history alone (R64). -/
def State.feedBit (s : State) (n : LaneIx) (b : Bool) (after : Nat) : State :=
  let l := s.laneAt n
  if l.state ≠ .header then s
  else if l.windowLen ≤ l.window.length then s.setLane n { l with hist := lastN 64 (l.hist ++ [b]), count := l.count + 1 }
  else
    let l1 := { l with hist := lastN 64 (l.hist ++ [b]), count := l.count + 1, window := l.window ++ [b] }
    match l.lock.matchAt l1.hist with
    | some (e, coded) =>
      if e < l.frame.errs then
        let m := s.moveLock n e coded (l1.count - l.lock.patLen) (l.lock.patLen + after)
        (m.1.setLane n { l1 with
          frame := { m.2 with marks := { m.2.marks with preempt := true, resumed := l.frame.marks.resumed } }
          hist := lastN l.lock.patLen l1.hist, count := l.lock.patLen, window := [], recs := [] }).bump
            (F.LAN_PREEMPT_COUNT n.val)
      else if l.recs.length < 2 then
        s.setLane n { l1 with recs := l.recs ++ [⟨l1.count - l.lock.patLen, e, coded⟩] }
      else s.setLane n l1
    | none => s.setLane n l1

/-- Header-window bits in the order received, all of which have come. -/
def State.feedBits (s : State) (n : LaneIx) : List Bool → State
  | [] => s
  | b :: bs => (s.feedBit n b bs.length).feedBits n bs

/-- The digital gain that a lane can freeze (R55): 0 to 42 dB in steps of 0.5 dB. -/
def gainHeld (d : Nat) : Nat := min 84 d

/-- The frequency error that a lane can freeze at a RATE code, in units of 10 Hz (R55): 0.6 of the symbol rate, at most 30 kHz. -/
def errorHeld (rate : Nat) (f : Int) : Int := if rate = 0 then clampInt (-1500) 1500 f else clampInt (-3000) 3000 f

/-- SYNC_MATCH (R59, R60, R67, R68): the newest 32 bits of each searcher end in what may be a sync word. A lane in SEARCH
locks; a lane in DRAIN or READY counts the match it would have locked on under the settings it locked with (DESIGN CHOICE, log
entry 117). -/
def execSyncMatch (n : LaneIx) (h : Hits) (i : SyncInfo) (s : State) : Out :=
  let l := s.laneAt n
  let missed := if (bestMatch l.sets h).isSome then s.bump (F.LAN_MISSED_COUNT n.val) else s
  .next (match l.state with
  | .search =>
    match bestMatch (s.searchers n.val) h with
    | some (e, (ls, coded)) =>
      let c := laneChain n
      let at' := s.clockAt i.off
      let air := bitsTime ls.fourLevel ls.rate ls.patLen
      let fr : RxFrame :=
        { errs := e, coded := coded, tsAsn := (s.stampAt at').1, tsOff := (s.stampAt at').2, lockAt := at'
          ferr0 := errorHeld ls.rate i.ferr.toInt, gidx := s.get (F.RXC_STAT_IDX (chainNo c))
          rssi := i.rssi.toNat, marks := s.marksSince n (at' - air) air }
      (s.setLane n { l with
        state := .header, lock := ls, sets := s.searchers n.val, track := s.flagA (F.LAN_CFG_TRACK n.val)
        evt := if s.flagA (F.LAN_CFG_EVT n.val) then some (s.getA (F.LAN_CFG_EVCH n.val)) else none
        frame := fr, hist := lastN ls.patLen (hitBits h ls.srch), count := ls.patLen, window := [], soft := [], recs := []
        ferr64 := 64 * fr.ferr0, dgain := gainHeld i.dgain.toNat, endedWindow := false }).setChain c
          { s.chainAt c with busyWindow := true }
    | none => s
  | .drain => missed
  | .ready => missed
  | _ => s)

/-- SECOND_CORRELATOR_MATCH (R62, R63, R489): the header-window bits up to the one that ends the match. -/
def execSecondCorrelatorMatch (n : LaneIx) (bits : List Bool) (s : State) : Out := .next (s.feedBits n bits)

/-- The matches R64 considers: the records, and those the rescan of the history finds, each with its first bit counted
from the first bit of the false sync, its errors and whether it is a coded SFD. -/
def Lane.laterMatches (l : Lane) : List (Nat × Nat × Bool) :=
  let start := l.count - l.hist.length
  let at' (p : Nat) : Option (Nat × Bool) := l.lock.matchAt ((l.hist.drop (p - start)).take l.lock.patLen)
  let recs := l.recs.map (fun r => (r.first, r.errs, r.coded))
  let scan := ((List.range l.count).filter (fun p => decide (1 ≤ p ∧ start ≤ p ∧ p + l.lock.patLen ≤ l.count))).filterMap
    (fun p => (at' p).map (fun x => (p, x.1, x.2)))
  recs ++ scan

/-- The earliest of a list of matches. -/
def earliestMatch (ms : List (Nat × Nat × Bool)) : Option (Nat × Nat × Bool) :=
  ms.foldl (fun best m =>
    match best with
    | none => some m
    | some b => if m.1 < b.1 then some m else some b) none

/-- A header fails (R64, R65, R490): LAN_HDRERR increments; the lane locks on the earliest later match and takes the header
bits it already has, or returns to SEARCH. Records of the failed lock go: a match among them whose first bits have left the history is
neither recorded for the new lock nor pre-empts it (DESIGN CHOICE, log entry 135). -/
def State.headerError (s : State) (n : LaneIx) : State :=
  let s := s.bump (F.LAN_HDRERR_COUNT n.val)
  let l := s.laneAt n
  match earliestMatch l.laterMatches with
  | some (p, e, coded) =>
    let m := s.moveLock n e coded p (l.count - p)
    let start := l.count - l.hist.length
    let rest := l.hist.drop (p + l.lock.patLen - start)
    let sync := (l.hist.drop (p - start)).take (p + l.lock.patLen - max p start)
    (m.1.setLane n { l with
      frame := { m.2 with marks := { m.2.marks with resumed := true } }
      hist := sync, count := l.lock.patLen, window := [], recs := [] }).feedBits n rest
  | none => s.toSearch n

/-- The distance of two frames' sync words in units of 0.125 µs. -/
def syncGap (a b : RxFrame) : Nat := max a.lockAt b.lockAt - min a.lockAt b.lockAt

/-- The partner of lane `n` in its diversity pair (R44). -/
def partner (n : LaneIx) : LaneIx := if h : n.val < 48 then ⟨n.val + 48, by omega⟩ else ⟨n.val - 48, by omega⟩

/-- Lane `n` loses a diversity decision (R45). -/
def State.loseDiversity (s : State) (n : LaneIx) : State :=
  ((s.dropCodewords n).bump (F.LAN_DIVDROP_COUNT n.val)).toSearch n

/-- Lane `n` keeps its frame after a diversity decision (R45). -/
def State.winDiversity (s : State) (n : LaneIx) : State :=
  let l := s.laneAt n
  s.setLane n { l with frame := { l.frame with marks := { l.frame.marks with div := true } } }

/-- The decision of a diversity pair once both headers are decoded (R45, R46). The 2 symbol periods are those of the chain A lane, and a
lane that failed a header and locked again takes part (DESIGN CHOICE, log entry 118); when one of the two has left PAYLOAD before its
partner's header is decoded, no decision is made and both frames stand (DESIGN CHOICE, log entry 155). -/
def State.decideDiversity (s : State) (n : LaneIx) : State :=
  let m := partner n
  let a := if n.val < 48 then n else m
  let b := if n.val < 48 then m else n
  let la := s.laneAt a
  let lb := s.laneAt b
  if s.diversity ∧ la.state = .payload ∧ lb.state = .payload ∧ !la.frame.marks.div ∧ !lb.frame.marks.div ∧
      syncGap la.frame lb.frame ≤ 2 * symbolTime la.lock.rate then
    if toSigned 8 lb.frame.rssi > toSigned 8 la.frame.rssi then (s.loseDiversity a).winDiversity b
    else (s.loseDiversity b).winDiversity a
  else s

/-- The soft values of decided bits with the given confidences (1 where none is given): a positive one means 0 (R103). -/
def softBits (bits : List Bool) (mags : List Nat) : List Int :=
  (bits.zip (mags ++ List.replicate (bits.length - mags.length) 1)).map (fun p => if p.1 then -Int.ofNat p.2 else Int.ofNat p.2)

/-- The free bits that settle the ties of a Viterbi run of `steps` symbols, and the state with them drawn (log entry 9). -/
def State.drawTies (s : State) (steps : Nat) : State × (Nat → Bool) :=
  ({ s with free := s.free + 8 * (steps + 1) }, fun k => bitAt (Config.freeNat (s.free + k)) 0)

/-- The code symbols of a coded SUN frame's soft values, interleaving removed (R85). -/
def State.codeSymbols (s : State) (vs : List Int) : List (Int × Int) :=
  if s.flagA F.LDP_SUNCFG_INTLV then interleave (pairUp vs) else pairUp vs

/-- The PHR in a SUN header window: the 16 bits themselves, or as the Viterbi decoder decides it from the 64 code bits (R85, R86). -/
def State.windowPhr (s : State) (coded : Bool) (window : List Bool) (soft : List Int) : State × Nat :=
  if coded then
    let x := s.drawTies 32
    (x.1, ofBitsMsb ((viterbiBits (s.flagA F.LDP_SUNCFG_RSC) false x.2 (s.codeSymbols soft)).take 16))
  else (s, ofBitsMsb window)

/-- HEADER_WINDOW_COMPLETE (R65, R86, R87, R95): the rest of the header window, and for a coded SUN frame how sure the lane is of each
bit of the window. The header is checked once the window is whole. -/
def execHeaderWindowComplete (n : LaneIx) (bits : List Bool) (mags : List Nat) (s : State) : Out :=
  let s := s.feedBits n bits
  let l := s.laneAt n
  .next (if l.state = .header ∧ l.window.length = l.windowLen then
    if l.lock.deep then
      match headerDecode l.window with
      | some h =>
        if headerFits l.lock.fourLevel l.lock.rate h then
          (s.setLane n { l with state := .payload, frame :=
            { l.frame with hdr := h, len := hdrLen h, prof := hdrProf h
                           codewords := codewordCount (hdrProf h) (hdrLen h)
                           z48 := liftZ (hdrProf h) (hdrLen h) == 48 } }).decideDiversity n
        else s.headerError n
      | none => s.headerError n
    else
      let soft := softBits l.window mags
      let p := s.windowPhr l.frame.coded l.window soft
      if sunHeaderFits p.2 then
        (p.1.setLane n { l with state := .payload, soft := soft, frame :=
          { l.frame with hdr := p.2, len := phrLen p.2 } }).decideDiversity n
      else p.1.headerError n
  else s)

/-! ## Delivery (R72 to R74, R108) -/

/-- The 2 KiB buffer of lane `n`. -/
def laneBuf (n : Nat) : Nat := 0x10400000 + 0x800 * n

/-- The lane writer puts bytes into the lane buffer in the LAN block's world (R73). -/
def State.writeBuffer (s : State) (n : LaneIx) (off : Nat) (bs : List Byte) : State :=
  match s.moveWrite (s.blockNS 9) 70 (laneBuf n.val + off) bs with
  | (s1, some .world) =>
    let l := s1.laneAt n
    s1.setLane n { l with frame := { l.frame with worldViol := true } }
  | (s1, _) => s1

/-- The lane enters READY: STATUS by R108, the descriptor, the counters and the event (R74, R113). -/
def State.enterReady (s : State) (n : LaneIx) (checkGood : Bool) : State :=
  let l := s.laneAt n
  let f := l.frame
  let status := if f.worldViol then 3 else if f.failed ≠ 0 then 2 else if checkGood then 0 else 1
  let deep := bit01 l.lock.deep
  let s1 := s.setReg (Reg.LAN_FD0 n.val) (BitVec.ofNat 32 (pack [(29, bit01 f.marks.div), (26, f.errs),
    (24, l.lock.srch), (23, bit01 f.marks.resumed), (22, bit01 f.marks.preempt), (21, bit01 f.marks.clip),
    (20, bit01 f.marks.desense), (16, status), (13, f.prof), (12, deep), (0, f.len)]))
  let s2 := s1.setReg (Reg.LAN_FD1 n.val) (BitVec.ofNat 32 (pack [(16, ofSigned 16 f.ferr0), (8, f.gidx), (0, f.rssi)]))
  let s3 := s2.setReg (Reg.LAN_TS_LO n.val) (BitVec.ofNat 32 (pack [(17, f.tsAsn % 2 ^ 15), (0, f.tsOff)]))
  let s4 := s3.setReg (Reg.LAN_TS_HI n.val) (BitVec.ofNat 32 (f.tsAsn / 2 ^ 15))
  let s5 := s4.setReg (Reg.LDP_HDR n.val) (BitVec.ofNat 32 f.hdr)
  let s6 := s5.setReg (Reg.LDP_LST n.val) (BitVec.ofNat 32 (if l.lock.deep then
    pack [(24, bit01 f.z48), (16, f.itMax), (8, f.codewords), (0, f.failed)] else 0))
  let s7 := s6.bump (F.LAN_FRAMES_COUNT n.val)
  let s8 := if status = 2 then s7.bump (F.LAN_DECERR_COUNT n.val)
    else if status = 1 then s7.bump (F.LAN_FCSERR_COUNT n.val) else s7
  let s9 := if f.worldViol then s8.scramble (laneBuf n.val) 0x800 else s8.scramble (laneBuf n.val + f.len) (0x800 - f.len)
  let s10 := s9.setLane n { s9.laneAt n with state := .ready }
  match l.evt with
  | some ch => s10.fire n.val ch
  | none => s10

/-- A Deep lane in DRAIN whose codewords have all ended enters READY, with the check of R96. -/
def State.finishDeep (s : State) (n : LaneIx) : State :=
  let l := s.laneAt n
  let f := l.frame
  if l.state = .drain ∧ l.lock.deep ∧ f.results.length = f.codewords then
    let data := (List.range f.codewords).flatMap (fun i =>
      match f.results.find? (fun r => r.index == i) with
      | some r => r.bytes
      | none => [])
    s.enterReady n (lastN 4 data == bytesLe 4 (crc32 (data.take f.len)))
  else s

/-- One codeword of the lane's frame has ended (R108): its payload bytes go to the buffer, its result is kept. -/
def State.codewordEnded (s : State) (n : LaneIx) (i iters : Nat) (good : Bool) (bs : List Byte) : State :=
  let f := (s.laneAt n).frame
  let start := cwStart f.prof f.len i
  let s1 := s.writeBuffer n start (bs.take (f.len - start))
  let l := s1.laneAt n
  (s1.setLane n { l with frame :=
    { l.frame with results := l.frame.results ++ [⟨i, bs⟩]
                   failed := l.frame.failed + (if good then 0 else 1)
                   itMax := max l.frame.itMax iters } }).finishDeep n

/-- `n` free bytes (log entry 9). -/
def State.drawBytes (s : State) (n : Nat) : List Byte × State :=
  ((List.range n).map (fun i => BitVec.ofNat 8 (Config.freeNat (s.free + i))), { s with free := s.free + n })

/-- A codeword that block 10 discards counts as failed, its information bytes undefined (R488). -/
def State.codewordLost (s : State) (n : LaneIx) (i : Nat) : State :=
  let f := (s.laneAt n).frame
  let d := s.drawBytes (cwBytes f.prof f.len i)
  d.2.codewordEnded n i 0 false d.1

/-- The queue with a codeword that has arrived: behind those of earlier cycles, and among those of its own cycle (`same` as the one
before it) by lane number (R104). -/
def queueCodeword (q : List CwJob) (same : Bool) (j : CwJob) : List CwJob :=
  let c := match q.getLast? with
    | some x => if same then x.cyc else x.cyc + 1
    | none => 0
  let before (x : CwJob) : Bool := decide (x.cyc < c ∨ x.lane.val ≤ j.lane.val)
  q.filter before ++ [{ j with cyc := c }] ++ q.filter (fun x => !before x)

/-- CODEWORD_RECEIVED (R103, R104, R488): the LLRs of the frame's next codeword, in on-air order, received in the DSP cycle of the
codeword before it when `same`. -/
def execCodewordReceived (n : LaneIx) (llrs : List Int) (same : Bool) (s : State) : Out :=
  let l := s.laneAt n
  let f := l.frame
  .next (if (l.state = .payload ∨ l.state = .drain) ∧ l.lock.deep ∧ f.nextCw < f.codewords then
    let i := f.nextCw
    let s1 := s.setLane n { l with frame := { f with nextCw := i + 1 } }
    if s1.ready 10 then
      let j : CwJob :=
        { lane := n, index := i, rows := (profileOf f.prof).rows, z48 := f.z48, bytes := cwBytes f.prof f.len i
          llr := cwLlrs f.prof f.len i llrs }
      { s1 with ldpQueue := queueCodeword s1.ldpQueue same j }
    else s1.codewordLost n i
  else s)

/-- DECODING_JOB_START (R104, R105): the oldest queued codeword enters the lowest-numbered free decoder. -/
def execDecodingJobStart (s : State) : Out :=
  .next (match s.ldpQueue, (List.finRange 8).find? (fun d => s.ldp[d.val].isNone) with
  | j :: rest, some d =>
    if s.ready 10 then
      { s with ldpQueue := rest
               ldp := s.ldp.set d.val (some ⟨j, iterLimit (s.get F.LDP_CFG_ITER), s.get F.LDP_CFG_NORM⟩) }
    else s
  | _, _ => s)

/-- DECODING_JOB_END (R105, R108): decoder `d` ends; its result goes to its lane unless the frame is gone. -/
def execDecodingJobEnd (d : Fin 8) (s : State) : Out :=
  .next (match s.ldp[d.val] with
  | some x =>
    let r := ldpcDecode x.job.rows (if x.job.z48 then 48 else 24) x.iter x.norm x.job.llr
    let s1 := { s with ldp := s.ldp.set d.val none }
    let s2 := if r.good then s1.bump F.LDP_CWOK_COUNT else s1.bump F.LDP_CWFAIL_COUNT
    if x.job.dead then s2
    else s2.codewordEnded x.job.lane x.job.index r.iters r.good (bytesOfBits (r.bits.take (8 * x.job.bytes)))
  | none => s)

/-- Bytes from bits, each byte's least significant bit first, as the SUN standard sends them (PRESUMED, log entry 21). -/
def bytesOfLsb (bits : List Bool) : List Byte :=
  (bytesOfBits bits).map (fun b => BitVec.ofNat 8 (ofBitsMsb (bitsMsb 8 b.toNat).reverse))

/-- The PSDU of lane `n`'s SUN frame from the soft values of its on-air bits after the header window: FEC and whitening removed (R85,
R88, R103). LDP_SUNCFG is read as it stands at the last bit, for the PHR at the end of the header window (DESIGN CHOICE, log entry 137). -/
def State.sunPsdu (s : State) (n : LaneIx) (air : List Int) : State × List Byte :=
  let l := s.laneAt n
  let len := l.frame.len
  let x := if l.frame.coded then
      let symbols := 16 + 8 * len + 3
      let tie := s.drawTies symbols
      let soft := (l.soft ++ air ++ List.replicate (2 * symbols + 32) 0).take (2 * (symbols + (sunPad len).length))
      (tie.1, (viterbiBits (s.flagA F.LDP_SUNCFG_RSC) true tie.2 ((s.codeSymbols soft).take symbols)).drop 16)
    else (s, air.map hardBit)
  let bits := (x.2 ++ List.replicate (8 * len) false).take (8 * len)
  (x.1, bytesOfLsb (if phrWhitened l.frame.hdr then whiten bits else bits))

/-- LAST_ON_AIR_BIT (R67, R72, R88): the lane enters DRAIN. A SUN frame's PSDU is decided from the soft values `air`, written and
checked, and the lane enters READY; a Deep frame waits for its codewords. -/
def execLastOnAirBit (n : LaneIx) (air : List Int) (s : State) : Out :=
  let l := s.laneAt n
  .next (match l.state with
  | .payload =>
    let s1 := s.setLane n { l with state := .drain, endedWindow := true }
    if l.lock.deep then s1.finishDeep n
    else
      let x := s1.sunPsdu n air
      (x.1.writeBuffer n 0 x.2).enterReady n (fcsGood l.frame.hdr x.2)
  | _ => s)

/-- Block 10 resets (R488, R111): every codeword it holds counts as failed, and every entry awaits its first floor. A frame that so
comes to READY writes LDP_HDR and LDP_LST before the block's registers reset (DESIGN CHOICE, log entry 119). Noise measured so far in the
superframe stays (DEDUCED, log entry 131). -/
def State.resetPool (s : State) : State :=
  let jobs := s.ldpQueue ++ (s.ldp.toList.filterMap (fun d => d.map DecJob.job))
  let s1 := { s with ldpQueue := [], ldp := Vector.replicate 8 none }
  let s2 := s1.each (jobs.filter (fun j => !j.dead)) (fun s j => s.codewordLost j.lane j.index)
  s2.each (List.finRange 96) (fun s n => s.setLane n { s.laneAt n with firstFloor := true })

/-! ## Channel loading (R110 to R112) -/

/-- The decision of R111 for one entry, after R110 has set FLOOR. -/
def State.loadEntry (s : State) (n : LaneIx) : State :=
  let m := (s.laneAt n).noise
  let s1 := if 8 ≤ m.length then s.put (F.LDP_CHP_FLOOR n.val) (ofSigned 8 (dbmFloor m.sum m.length)) else s
  let cur := s1.get (F.LDP_CHP_CUR n.val)
  let up := s1.get (F.LDP_CHP_UPRUN n.val)
  let set (s : State) (c u : Nat) : State := (s.put (F.LDP_CHP_CUR n.val) c).put (F.LDP_CHP_UPRUN n.val) u
  let floor := s1.getS (F.LDP_CHP_FLOOR n.val)
  let ceil (p : Nat) : Int := toSigned 8 (s1.getA (F.LDP_CEIL_CEIL p))
  if s1.flagA (F.LDP_CHP_PIN n.val) then set s1 (s1.getA (F.LDP_CHP_PINP n.val)) 0
  else if m.length < 8 then s1
  else if !s1.flagA F.LDP_LCTL_EN then s1
  else
    let best := (List.range 8).foldl (fun b p => if p = 0 ∨ floor ≤ ceil p then p else b) 0
    if (s1.laneAt n).firstFloor then
      (set s1 best up).setLane n { s1.laneAt n with firstFloor := false }
    else if best < cur then set s1 best 0
    else if cur < 7 ∧ floor ≤ ceil (cur + 1) - s1.getA F.LDP_LCTL_HYST then
      let up' := if up < 15 then up + 1 else up
      if up' ≥ max 1 (s1.getA F.LDP_LCTL_UPCNT) then set s1 (cur + 1) 0 else set s1 cur up'
    else set s1 cur 0

/-- The noise measurements gathered so far are spent. -/
def State.spendNoise (s : State) : State := s.each (List.finRange 96) (fun s n => s.setLane n { s.laneAt n with noise := [] })

/-- Channel loading at a superframe boundary (R110 to R112): every entry decides, LDP_LSTAT notes falls and rises, and the
measurements of the superframe are spent. -/
def State.loadChannels (s : State) : State :=
  let entries := (List.finRange 96).filter (fun n => !s.diversity || decide (n.val < 48))
  let s1 := s.each entries State.loadEntry
  let cur (t : State) (n : LaneIx) : Nat := t.get (F.LDP_CHP_CUR n.val)
  let s2 := if entries.any (fun n => decide (cur s1 n < cur s n)) then s1.raise F.LDP_LSTAT_LOWERED else s1
  let s3 := if entries.any (fun n => decide (cur s1 n > cur s n)) then s2.raise F.LDP_LSTAT_RAISED else s2
  s3.spendNoise

end Sys2Proof.Machine
end

