-- ==== Sys2Proof/Machine/Super.lean ====
section
/-! DEFINITION. The superframe machine (04): hopping, the scheduler's decisions, beacons, requests and results, sleepy
endpoints, duty buckets, quotas, the sleep sweep. Times are in units of 0.125 µs from the start of the current slot. -/

namespace Sys2Proof.Machine

/-! ## Slots and channels (R114 to R120) -/

/-- The absolute slot number `x` slots after the current one. -/
def State.slotAt (s : State) (x : Nat) : Nat := (s.sfm.asn.toNat + x) % 2 ^ 40

/-- GUARD in units of 0.125 µs (R117, R147). -/
def State.guardTime (s : State) : Nat := 80 * max 10 (min 400 (s.getA F.SFM_TIMING_GUARD))

/-- Slots from the current one to slot `slot`, negative for a past one. -/
def State.slotsTo (s : State) (slot : Nat) : Int :=
  toSigned 40 ((slot + 2 ^ 40 - s.sfm.asn.toNat) % 2 ^ 40)

/-- The hop channel of a slot in kHz (R119). -/
def State.hopChannel (s : State) (asn : Nat) : Nat :=
  let l := s.getA F.SFM_HOPCFG_LEN
  let len := if l = 0 ∨ 128 < l then 128 else l
  let space := max 1 (min 1000 (s.getA F.SFM_HOPCFG_SPACE))
  s.getA F.SFM_CHBASE_KHZ + space * s.getA (F.SFM_HOP_CH (asn % len))

/-- The centre frequency of lane `n` in kHz (R41, R44). -/
def State.laneCentre (s : State) (n : Nat) : Nat :=
  if n < 48 then s.getA (F.RXC_FREQ_KHZ 0) + 200 * n - 4700
  else s.getA (F.RXC_FREQ_KHZ (if s.diversity then 0 else 1)) + 200 * (n - 48) - 4700

/-- C of R120: the channel profile of the lowest-numbered lane centred on the channel, or 0. -/
def State.channelProfile (s : State) (khz : Nat) : Nat :=
  match firstIdx 96 (fun n => s.laneCentre n == khz) with
  | some n => s.chProfile n
  | none => 0

/-- A part in SOLO or PRIMARY decides launches, unless it hands over (09 R283, R284, R313). -/
def State.decides (s : State) : Bool := s.ownsCistern && s.sph.handover.isNone

/-- The slot `x` slots ahead lies in a quiet superframe, as far as is known: the present one, or the next when a GAP is
pending (R37, R146). -/
def State.slotQuiet (s : State) (x : Nat) : Bool :=
  if s.slotAt x / 128 = s.sfm.asn.toNat / 128 then s.sfm.quiet
  else (s.flag (F.SYS_STAGE_CTL_GAP 0) || s.flag (F.SYS_STAGE_CTL_GAP 1)) && s.slotAt x / 128 == s.slotAt 128 / 128

/-- Entry `i` as the superframe machine reads it; an unready Cistern reads 0 (R29). -/
def State.entryOrNone (s : State) (i : Nat) : Nat := if s.ready 13 then s.entry i else 0

/-- E of R131 for a superframe number. -/
def heardAge (sf e : Nat) : Nat := (sf + 65536 - entHeard e) % 65536

/-! ## Buckets and quotas (R136 to R145) -/

/-- The granule of a slot (04, Duty buckets). -/
def granuleOf (asn : Nat) : Nat := asn / 100

/-- BKT_USEDn is the sum of the granules in the window that ends at granule `g` (R138). Granules are compared as plain numbers, so that
after a wrap of ASN or a restart at a lower one every granule charged before is out of the window (DESIGN CHOICE, log entry 52). -/
def State.sumBucket (s : State) (n : Fin 16) (g : Nat) : State :=
  s.put (F.BKT_USED_USED n.val)
    ((s.granules[n.val].filter (fun e => decide (g ≤ e.1 + 3599 ∧ e.1 ≤ g))).foldl (fun t e => t + e.2) 0)

/-- A granule list with `d` more in granule `g`. -/
def addGranule (l : List (Nat × Nat)) (g d : Nat) : List (Nat × Nat) :=
  match l with
  | [] => [(g, d)]
  | (h, u) :: t => if h = g then (h, u + d) :: t else (h, u) :: addGranule t g d

/-- `d` µs are charged to granule `g` of bucket `n` (R139). -/
def State.charge (s : State) (n : Fin 16) (g d : Nat) : State :=
  ({ s with granules := s.granules.set n.val (addGranule s.granules[n.val] g d) }).sumBucket n
    (granuleOf s.sfm.asn.toNat)

/-- Every window moves to the current granule; granules that have left it are dropped (R138). -/
def State.moveWindows (s : State) : State :=
  let g := granuleOf s.sfm.asn.toNat
  s.each (List.finRange 16) (fun s n =>
    ({ s with granules := s.granules.set n.val (s.granules[n.val].filter (fun e => decide (g ≤ e.1 + 3599))) }).sumBucket n g)

/-- The bucket of a channel: the lowest-numbered enabled one that contains it (R136). -/
def State.bucketOf (s : State) (khz : Nat) : Option (Fin 16) :=
  (List.finRange 16).find? (fun n => s.flagA (F.BKT_LIM_EN n.val) &&
    decide (s.getA (F.BKT_LO_KHZ n.val) ≤ khz ∧ khz ≤ s.getA (F.BKT_HI_KHZ n.val)))

/-- Bucket `n` affords a charge of `d` µs (R139, R147). -/
def State.affords (s : State) (n : Fin 16) (d : Nat) : Bool :=
  decide (s.get (F.BKT_USED_USED n.val) + d ≤ 1000 * min 3600000 (s.getA (F.BKT_LIM_LIMIT n.val)))

/-- Quotas apply (R144). -/
def State.quotasOn (s : State) : Bool := s.flagA F.SFM_CTL_QEN

/-- A launch takes 16 from tenant `t` when quotas apply (R144). -/
def State.takeCredit (s : State) (t : Nat) : State :=
  if s.quotasOn then s.put (F.SFM_QCR_CREDIT t) (s.get (F.SFM_QCR_CREDIT t) - 16) else s

/-- Step 3 of R118: the credits of a superframe boundary (R144). -/
def State.addCredits (s : State) : State :=
  if s.quotasOn then
    s.each (List.range 1024) (fun s t =>
      s.put (F.SFM_QCR_CREDIT t) (min (s.get (F.SFM_QCR_CREDIT t) + s.getA (F.SFM_QRATE_RATE t))
        (16 * max 1 (s.getA (F.SFM_QRATE_BURST t)))))
  else s

/-! ## Results and requests (R126, R127) -/

/-- A result is posted (R127); a full queue drops it and sets RESOVF. -/
def State.post (s : State) (outcome slot desc : Nat) : State :=
  if 256 ≤ s.sfm.results.length then s.raise F.SFM_STAT_RESOVF
  else
    let s1 := { s with sfm := { s.sfm with results := s.sfm.results ++ [({ outcome := outcome, slot := slot % 4096, desc := desc } : SfmResult)] } }
    if s1.flag F.SFM_RESCFG_EVT then s1.fire 0x10C (s1.get F.SFM_RESCFG_EVCH) else s1

/-- Pending requests with `r` in its place of submission. -/
def insertReq (l : List TxReq) (r : TxReq) : List TxReq :=
  l.filter (fun x => decide (x.ord < r.ord)) ++ r :: l.filter (fun x => decide (r.ord < x.ord))

/-- The request of a launch returns to pending in its original place (R210, R491). -/
def State.requeue (s : State) (r : Option TxReq) : State :=
  match r with
  | some r => { s with sfm := { s.sfm with pend := insertReq s.sfm.pend r } }
  | none => s

/-- The request joins the pending ones, last (R126). -/
def State.addPending (s : State) (desc index mode : Nat) : State :=
  { s with sfm := { s.sfm with
      pend := s.sfm.pend ++ [({ ord := s.sfm.nextOrd, desc := desc, index := index, mode := mode } : TxReq)]
      nextOrd := s.sfm.nextOrd + 1 } }

/-- No request of descriptor `desc` is pending. -/
def State.forget (s : State) (desc : Nat) : State :=
  { s with sfm := { s.sfm with pend := s.sfm.pend.filter (fun r => r.desc != desc) } }

/-- A write of SFM_SUBMIT (R126, R127, 09 R299, R300). A duplicate with 1,024 pending answers FULL (DESIGN CHOICE, log entry 120). -/
def State.submitRequest (s : State) (mode index desc : Nat) : State :=
  if s.pairState = 4 then s
  else if 1024 ≤ s.sfm.pend.length then s.post 2 0 desc
  else if s.sfm.pend.any (fun r => r.desc == desc) then s.post 3 0 desc
  else (s.addPending desc index mode).mirrorRequest desc index mode

/-- A DONE record of one request (09 R291); a primary that hands over sends it to the part that has taken over (09 R313). -/
def State.mirrorDone (s : State) (desc outcome : Nat) : State := s.mirror 0x14 (bytesLe 4 (pack [(12, outcome), (0, desc)]))

/-- A write of SFM_CANCEL (R127). -/
def State.cancelRequest (s : State) (desc : Nat) : State :=
  if s.sfm.pend.any (fun r => r.desc == desc) then
    ((s.forget desc).post 4 0 desc).mirrorDone desc 4
  else s

/-- A read of SFM_RESULT: the oldest result leaves the queue; the word it returns (R127). -/
def State.takeResult (s : State) : Word × State :=
  match s.sfm.results with
  | [] => (0, s)
  | x :: t =>
    (BitVec.ofNat 32 (pack [(31, 1), (27, x.outcome % 16), (12, x.slot % 4096), (0, x.desc % 4096)]), { s with sfm := { s.sfm with results := t } })

/-! ## Endpoint accounts (R129, R133 to R135) -/

/-- The entry after SFM_HEARD with timing error `err` in superframe `sf` (R134). -/
def heardEntry (sf : Nat) (err : Int) (e : Nat) : Nat :=
  let age := heardAge sf e
  let d := if entSleepy e ∧ 1 ≤ age ∧ err ≠ -8192 then
      clampInt (-128) 127 ((entDrift e + err.tdiv age).tdiv 2)
    else entDrift e
  setBits (setBits (setBits (setBits e 28 16 sf) 1 2 0) 3 1 0) 12 8 (ofSigned 8 d)

/-- A write of SFM_HEARD (R134). -/
def State.heard (s : State) (err : Int) (i : Nat) : State :=
  s.sfmUpdate i (heardEntry (s.sfm.asn.toNat / 128 % 65536) err)

/-- A write of SFM_MISS (R134). -/
def State.missed (s : State) (i : Nat) : State := s.sfmUpdate i (fun e => setBits e 1 2 (min 3 (entMiss e + 1)))

/-- Step 4 of R118: the sleep sweep (R135). -/
def State.sleepSweep (s : State) : State :=
  let sf := s.sfm.asn.toNat / 128
  s.each (List.range 64) (fun s j =>
    s.sfmUpdate (64 * (sf % 4096) + j) (fun e =>
      if entSleepy e ∧ 32768 ≤ heardAge (sf % 65536) e then setBits e 1 2 3 else e))

/-- An unaffordable full-interval transmission to entry `i` (R133): LOST_SYNC is set and the host is told. -/
def State.loseSync (s : State) (i : Nat) : State :=
  (s.sfmUpdate i (fun e => setBits e 3 1 1)).record F.SFM_LOST_VALID F.SFM_LOST_OVF (fun s => s.put F.SFM_LOST_INDEX i)

/-! ## A launch (R122 to R125, R131 to R133, R139) -/

/-- What a launch of a request would be: the first preamble symbol, the target's offset in slots for a wake transmission,
the channel, the preamble, the copies of a train (0 for none), and whether the window is full-interval. -/
structure Plan where
  first : Int
  target : Option Nat
  khz : Nat
  preamble : Nat
  copies : Nat
  full : Bool
deriving DecidableEq, Repr

/-- The window of a wake transmission to target slot `x` slots ahead: its start, its width, and whether it is the
full-interval one (R131, R133). -/
def State.wakeWindow (s : State) (e x : Nat) : Int × Nat × Bool :=
  let p : Int := (heardAge (s.slotAt x / 128 % 65536) e : Int) * entDrift e * 64
  let g := s.guardTime
  let t : Int := 80000 * x + g
  let w := p.natAbs + 2 * g
  let span := 2 ^ entClass e * 80000
  if entMiss e = 3 ∨ span ≤ w then (t - span - g, span + 2 * g, true)
  else (t - g + min p 0, w, false)

/-- The start lies in the slot that is decided now, two slots ahead (R124). -/
def inSlotAhead (start : Int) : Bool := decide (160000 ≤ start ∧ start < 240000)

/-- Offset of the first sample slot of entry `i` at or after two slots ahead (R130). -/
def State.nextSample (s : State) (i e : Nat) : Nat :=
  let m := 2 ^ entClass e
  2 + (i % m + m - s.slotAt 2 % m) % m

/-- The launch of a request through first hop `hop` that would begin two slots ahead, if any (R124, R130 to R133). -/
def State.planFor (s : State) (r : TxReq) (hop e : Nat) (d0 d2 : Word) : Option Plan :=
  if !entSleepy e || r.mode == 2 then
    some ⟨160000 + s.guardTime, none, s.hopChannel (s.slotAt 2), preambleSyms d0 (txPre d2), 0, false⟩
  else
    let x0 := s.nextSample hop e
    let step := 2 ^ entClass e
    let xs := [x0, x0 + step, x0 + 2 * step]
    match xs.find? (fun x => inSlotAhead ((s.wakeWindow e x).1 - s.lead)) with
    | none => none
    | some x =>
      let w := s.wakeWindow e x
      let khz := s.hopChannel (s.slotAt x)
      let prof := min (entProfile e) (s.channelProfile khz)
      if r.mode = 1 ∧ txDeep d0 then some ⟨w.1, some x, khz, 16, ceilDiv w.2.1 (airTime d0 prof 16) + 1, w.2.2⟩
      else some ⟨w.1, some x, khz, preambleSyms d0 (max 16 (ceilDiv w.2.1 (txSymbol d0 prof))), 0, w.2.2⟩

/-- The time on air of a plan. -/
def planAir (d0 : Word) (prof : Nat) (p : Plan) : Nat := max 1 p.copies * airTime d0 prof p.preamble

/-- The time from the last symbol to the end of the occupancy (R123). -/
def State.ackTime (s : State) (d0 : Word) : Nat := if txAck d0 then 800 * s.getA F.SFM_TIMING_ACKWIN else 0

/-- Two occupancies overlap. -/
def occMeets (a b : Int × Int) : Bool := decide (a.1 < b.2 ∧ b.1 < a.2)

/-- The profile of the beacon on a channel (R121). -/
def State.beaconProfile (s : State) (khz : Nat) : Nat := min (s.getA F.SFM_BCN_PROF) (s.channelProfile khz)

/-- The occupancy of the beacon of the slot 0 that lies `x` slots ahead, when beacons are on and its descriptor passes
(R121, R123, R125). -/
def State.beaconOcc (s : State) (x : Nat) : Option (Int × Int) :=
  let desc := s.getA F.SFM_BCN_DESC
  let d0 := s.word (descAddr desc)
  let khz := s.hopChannel (s.slotAt x)
  if s.flagA F.SFM_BCN_EN && !s.slotQuiet x && s.txCheck desc d0 (s.word (descAddr desc + 4)) khz == 0 then
    let first : Int := 80000 * x + s.guardTime
    some (first - s.lead, first +
      airTime d0 (s.beaconProfile khz) (preambleSyms d0 (txPre (s.word (descAddr desc + 8)))) + s.ackTime d0)
  else none

/-- The offsets of the slot 0s, three slots ahead or more, that start before `t`: their beacons are still undecided. -/
def State.laterBeacons (s : State) (t : Int) : List Nat :=
  let x0 := 128 - s.sfm.asn.toNat % 128
  ((List.range ((t / 80000).toNat / 128 + 1)).map (fun k => x0 + 128 * k)).filter
    (fun x => decide (3 ≤ x ∧ (80000 * x : Int) < t))

/-- The beacon rule of R125 for a candidate: `only0` says its endpoint samples in slot 0s alone. -/
def State.beaconRule (s : State) (occ : Int × Int) (air : Nat) (target : Option Nat) (only0 : Bool) : Bool :=
  decide (10080000 < air) ||
    (s.laterBeacons (occ.2 + 80000)).all (fun x =>
      match s.beaconOcc x with
      | some b => !occMeets occ b || (only0 && target == some x)
      | none => true)

/-- The LAUNCH record of a decided launch whose slot starts at time `base` (09 R301). -/
def launchPayload (l : Launch) (base : Int) : List Byte :=
  let tenant := l.tenant
  let deep := txDeep l.d0
  bytesLe 4 (pack [(22, tenant.getD 0), (16, l.bucket), (0, l.desc)]) ++ bytesLe 4 l.charge ++
    bytesLe 4 (l.slot % 2 ^ 32) ++
    bytesLe 4 (pack [(15, bit01 (l.copies != 0)), (12, if deep then l.prof else 0), (9, bit01 l.req.isNone),
      (8, bit01 tenant.isSome), (0, l.slot / 2 ^ 32)]) ++
    bytesLe 4 (ofSigned 24 ((l.first - base) / 8)) ++ bytesLe 4 (if l.copies = 0 then l.preamble else l.copies)

/-- The launch is decided: its occupancy and its charge are taken, the request leaves the pending ones, and a primary sends
the LAUNCH record (R122, R139, R144, 09 R301). -/
def State.decideLaunch (s : State) (l : Launch) : State :=
  let s1 := { s with sfm := { s.sfm with
    launches := s.sfm.launches ++ [l], occ := s.sfm.occ ++ [(l.occStart, l.occEnd)]
    pend := match l.req with
      | some r => s.sfm.pend.filter (fun x => x.ord != r.ord)
      | none => s.sfm.pend } }
  let s2 := match (List.finRange 16).find? (fun n => n.val == l.bucket) with
    | some n => s1.charge n (granuleOf s1.sfm.asn.toNat) l.charge
    | none => s1
  let s3 := match l.tenant with
    | some t => s2.takeCredit t
    | none => s2
  s3.mirror 0x13 (launchPayload l 160000)

/-- The launch that a plan makes. Its power entry is fixed here, with LIMIT as it stands at the decision (DESIGN CHOICE, log entry
160). -/
def State.makeLaunch (s : State) (req : Option TxReq) (desc : Nat) (d0 d1 d2 : Word) (prof : Nat) (p : Plan)
    (bucket : Fin 16) (tenant : Option Nat) (asnBytes : Option (Nat × Nat)) : Launch :=
  let air := planAir d0 prof p
  { req := req, desc := desc, slot := s.slotAt 2, first := p.first, occStart := p.first - s.lead
    occEnd := p.first + air + s.ackTime d0, khz := p.khz, prof := prof, d0 := d0, d1 := d1, d2 := d2
    preamble := p.preamble, copies := p.copies, charge := ceilDiv air 8, bucket := bucket.val, tenant := tenant
    entry := s.powerEntry d0, sync := s.reg (Reg.TXP_SYNC (txSyncNo d2)), asnBytes := asnBytes }

/-- One pending request at a decision (R122): route, slot, descriptor, occupancy, beacon rule, credit, bucket, in that
order; the flag says whether it was launched. While block 13 is not ready the request has no route (DESIGN CHOICE, log entry 156). -/
def State.tryRequest (s : State) (r : TxReq) : State × Bool :=
  match (if s.ready 13 then s.route r.index else none) with
  | none =>
    (s.record F.CST_NRIDX_VALID F.CST_NRIDX_OVF (fun s => s.put F.CST_NRIDX_INDEX r.index), false)
  | some (hop, _) =>
    let e := s.entry hop
    let d0 := s.word (descAddr r.desc)
    let d1 := s.word (descAddr r.desc + 4)
    let d2 := s.word (descAddr r.desc + 8)
    match s.planFor r hop e d0 d2 with
    | none => (s, false)
    | some p =>
      let bad := s.txCheck r.desc d0 d1 p.khz
      let prof := if txDeep d0 then min (entProfile e) (s.channelProfile p.khz) else 0
      let air := planAir d0 prof p
      let occ : Int × Int := (p.first - s.lead, p.first + air + s.ackTime d0)
      let only0 := decide (7 ≤ entClass e) && hop % 128 == 0
      let tenant := entTenant (s.entry r.index)
      if bad ≠ 0 then (s.badDesc r.desc bad, false)
      else if s.sfm.occ.any (fun o => occMeets occ o) then (s, false)
      else if !s.beaconRule occ air p.target only0 then (s, false)
      else if s.quotasOn && decide (s.get (F.SFM_QCR_CREDIT tenant) < 16) then (s, false)
      else
        match s.bucketOf p.khz with
        | none => (s.raise F.SFM_STAT_NOSB, false)
        | some n =>
          if s.affords n (ceilDiv air 8) then
            (s.decideLaunch (s.makeLaunch (some r) r.desc d0 d1 d2 prof p n
              (if s.quotasOn then some tenant else none) none), true)
          else
            let s1 := s.bump (F.BKT_DEF_COUNT n.val)
            (if p.full then s1.loseSync hop else s1, false)

/-- The requests in order of submission, up to the first that is launched. -/
def State.tryRequests (s : State) : List TxReq → State
  | [] => s
  | r :: rs =>
    match s.tryRequest r with
    | (s1, true) => s1
    | (s1, false) => s1.tryRequests rs

/-- The beacon of slot `slot` is not sent (R125). That of the superframe in progress counts unless the superframe is quiet (R146); that of
one still to begin is noted until the boundary tells whether it is quiet (log entry 145). -/
def State.skipBeacon (s : State) (slot : Nat) : State :=
  if s.running && slot / 128 != s.sfm.asn.toNat / 128 then { s with sfm := { s.sfm with withheld := true } }
  else if s.sfm.quiet then s
  else s.bump F.SFM_BCNSKIP_COUNT

/-- The beacon noted as not sent, if there is one, counts unless its superframe is quiet (R125, R146). -/
def State.countWithheld (s : State) (quiet : Bool) : State :=
  let s1 := if s.sfm.withheld && !quiet then s.bump F.SFM_BCNSKIP_COUNT else s
  { s1 with sfm := { s1.sfm with withheld := false } }

/-- The decision on a beacon (R121, R122, R125). One that its bucket does not afford counts in SFM_BCNSKIP alone, not in BKT_DEFn (DESIGN
CHOICE, log entry 138). -/
def State.decideBeacon (s : State) : State :=
  let desc := s.getA F.SFM_BCN_DESC
  let d0 := s.word (descAddr desc)
  let d1 := s.word (descAddr desc + 4)
  let d2 := s.word (descAddr desc + 8)
  let khz := s.hopChannel (s.slotAt 2)
  let p : Plan := ⟨160000 + s.guardTime, none, khz, preambleSyms d0 (txPre d2), 0, false⟩
  let prof := if txDeep d0 then s.beaconProfile khz else 0
  let bad := s.txCheck desc d0 d1 khz
  let off := s.getA F.SFM_BCN_ASNOFF
  if !s.decides then s.skipBeacon (s.slotAt 2)
  else if bad ≠ 0 then (s.badDesc desc bad).skipBeacon (s.slotAt 2)
  else
    match s.bucketOf khz with
    | none => (s.raise F.SFM_STAT_NOSB).skipBeacon (s.slotAt 2)
    | some n =>
      let l := s.makeLaunch none desc d0 d1 d2 prof p n none (some (off, s.slotAt 2))
      if s.sfm.occ.any (fun o => occMeets (l.occStart, l.occEnd) o) then s.skipBeacon (s.slotAt 2)
      else if s.affords n l.charge then s.decideLaunch l
      else s.skipBeacon (s.slotAt 2)

/-- DESC of a LAUNCH record (09 R301). -/
def recDesc (r : LaunchBody) : Nat := bitsOf r.w0.toNat 0 12

/-- The old primary still makes the launch it decided for request `r` before it handed over (09 R313). -/
def State.peerMakes (s : State) (r : TxReq) : Bool :=
  s.sph.mirror.any (fun x => !bitAt x.body.w3.toNat 9 && recDesc x.body == r.desc)

/-- A beacon is due two slots ahead. -/
def State.beaconDue (s : State) : Bool := s.slotAt 2 % 128 == 0 && s.flagA F.SFM_BCN_EN

/-- The scheduler's decision for the slot two slots ahead (R122, R146). A beacon withheld because a GAP is pending is a skipped one. After
a planned handover the slots before the one named are the old primary's, and the requests it still sends are not decided again (09
R313). -/
def State.decideSlot (s : State) : State :=
  if s.slotQuiet 2 then (if s.beaconDue then s.skipBeacon (s.slotAt 2) else s)
  else if (match s.sph.handoff with
      | some a => s.pairState == 3 && decide (s.slotsTo (s.slotAt 2) < s.slotsTo a)
      | none => false) then s
  else
    let s1 := if s.beaconDue then s.decideBeacon else s
    if s1.decides then s1.tryRequests (s1.sfm.pend.filter (fun r => !s1.peerMakes r)) else s1

/-! ## Slots pass (R114 to R116, R123) -/

/-- A decided launch is not made: its request returns to pending in its place, its charge and occupancy stay; a beacon counts
as skipped (R125, R210, R491). -/
def State.cancelLaunch (s : State) (l : Launch) : State :=
  match l.req with
  | some _ => s.requeue l.req
  | none => s.skipBeacon l.slot

/-- Every decided launch that has not begun is not made (log entry 124). -/
def State.dropLaunches (s : State) : State :=
  { s with sfm := { s.sfm with launches := [] } }.each s.sfm.launches State.cancelLaunch

/-- Launches and occupancies measured from `d` units later: a slot's nominal length at its end, and the time that slots stood still at
their start. Occupancies that have ended are forgotten. -/
def State.shiftTimes (s : State) (d : Int) : State :=
  let back (l : Launch) : Launch := { l with first := l.first - d, occStart := l.occStart - d, occEnd := l.occEnd - d }
  { s with
    sfm := { s.sfm with
      launches := s.sfm.launches.map back
      occ := (s.sfm.occ.map (fun o => (o.1 - d, o.2 - d))).filter (fun o => decide (0 < o.2)) }
    tx := { s.tx with cur := s.tx.cur.map back, hop := s.tx.hop.map back } }

/-- The length of a slot that starts now, and the shift that remains: at most 1 µs of it is applied (R116). -/
def slewStep (slew : Int) : Nat × Int :=
  let d := clampInt (-8) 8 slew
  ((80000 + d).toNat, slew - d)

/-- A write of SFM_ADJ (R116): ignored on a part that follows a primary (09 R302). The shift starts with the slot in
progress when that slot has taken none yet. -/
def State.adjust (s : State) (shift : Int) : State :=
  if !s.ownsCistern then s
  else if s.running ∧ s.sfm.slotLen = 80000 then
    { s with sfm := { s.sfm with slotLen := (slewStep shift).1, slew := (slewStep shift).2 } }
  else { s with sfm := { s.sfm with slew := shift } }

/-- The slot in progress, which ends, becomes the one before (02 R75). -/
def State.endSlot (s : State) : State :=
  { s with sfm := { s.sfm with
      clock := s.sfm.clock + s.sfm.slotLen, prevAsn := s.sfm.asn.toNat, prevLen := s.sfm.slotLen, pause := 0 } }

/-- The latest moment of the model's clock that something is known to have happened at: a lane's lock, the end of a blanking, the offset that
an engine read. -/
def State.latestMoment (s : State) : Nat :=
  (List.finRange 2).foldl (fun m c => max m (s.chain[c].unblankAt.getD 0))
    ((List.finRange 96).foldl (fun m n => max m (s.laneAt n).frame.lockAt) (s.sfm.clock + s.sfm.offSeen))

/-- Slots stop within the slot in progress, at a moment that no command tells: a free one, no earlier than what has happened in the slot and
before its end (02 R75; log entry 25). -/
def State.cutSlot (s : State) : State :=
  let lo := min (s.latestMoment - s.sfm.clock) (s.sfm.slotLen - 1)
  let d := s.draw 17
  let n := lo + d.1 % max 1 (s.sfm.slotLen - lo)
  ({ d.2 with sfm := { d.2.sfm with
      clock := s.sfm.clock + n, prevAsn := s.sfm.asn.toNat, prevLen := n, pause := 0 } }).shiftTimes n

/-- `gap` units since the last slot ended, slots start again; none ran in the time between (02 R75, R115). -/
def State.endPause (s : State) (gap : Nat) : State :=
  { s with sfm := { s.sfm with clock := s.sfm.clock + gap, prevAsn := s.sfm.asn.toNat, pause := gap } }

/-- A new slot starts with number `asn`: its length, and the granule windows (R114, R116, R138). -/
def State.startSlot (s : State) (asn : Nat) : State :=
  let st := slewStep s.sfm.slew
  ({ s with sfm := { s.sfm with asn := BitVec.ofNat 40 asn, slotLen := st.1, offSeen := 0, slew := st.2 } }).moveWindows

/-- A quiet superframe begins: decided launches whose lead would begin within it are not made; requests return to pending
(R146, log entry 31). -/
def State.startQuiet (s : State) : State :=
  let out := s.sfm.launches.filter (fun l => decide (0 ≤ l.occStart ∧ l.occStart < 128 * 80000))
  let s1 := { s with sfm := { s.sfm with
    launches := s.sfm.launches.filter (fun l => !decide (0 ≤ l.occStart ∧ l.occStart < 128 * 80000))
    occ := s.sfm.occ.filter (fun o => !out.any (fun l => l.occStart == o.1 && l.occEnd == o.2))
    quiet := true } }
  s1.each out (fun s l => s.requeue l.req)

end Sys2Proof.Machine
end

