-- ==== Sys2Proof/Machine/Siphon.lean ====
section
/-! DEFINITION. Redundant pairs and the Siphon link (09): pair states, training, sequenced frames, heartbeats, mirroring,
alignment, disagreement, takeover and planned handover. -/

namespace Sys2Proof.Machine

/-! ## Small parts -/

/-- SPH_STAT.STATE becomes `n` (R283). -/
def State.setPair (s : State) (n : Nat) : State := s.put F.SPH_STAT_STATE n

/-- Pairing is on. -/
def State.pairing (s : State) : Bool := s.flag F.SPH_CTL_EN

/-- The link is up (R289). -/
def State.linked (s : State) : Bool := s.flag F.SPH_STAT_LINK

/-- The part receives a primary's state: ALIGNING, STANDBY or ESTRANGED. -/
def State.follows (s : State) : Bool := s.pairState == 2 || s.pairState == 4 || s.pairState == 5

/-- A pair state change by takeover or estrangement goes to the logbook (14 R452, CODE 5). -/
def State.logPair (s : State) : State :=
  s.log 5 (pack [(0, s.pairState), (8, s.get F.SPH_ESTR_CAUSE)])

/-- SYS_UID as one number. -/
def State.uid (s : State) : Nat := (s.reg Reg.SYS_UID_HI).toNat * 2 ^ 32 + (s.reg Reg.SYS_UID_LO).toNat

/-- The peer's SYS_UID (R289). -/
def State.peerUid (s : State) : Nat :=
  (s.reg Reg.SPH_PEERUID_HI).toNat * 2 ^ 32 + (s.reg Reg.SPH_PEERUID_LO).toNat

/-- SPH_IMGSUM (R307): the XOR, over the loaded engines, of the CRC-32 of the engine's number and instruction store. -/
def State.imgSum (s : State) : Nat :=
  (List.finRange 64).foldl (fun x k =>
    if s.eng[k.val].loaded then
      x ^^^ crc32 (BitVec.ofNat 8 k.val :: s.bytes (0x10600000 + 0x6000 * k.val) 0x3000)
    else x) 0

/-- What the part notes at a superframe boundary for its heartbeats (R291, R305). -/
def State.noteBoundary (s : State) : State :=
  { s with sph := { s.sph with bndEpoch := s.get F.SYS_EPOCH_EPOCH, bndSfn := s.sfm.asn.toNat / 128 % 2 ^ 32
                               bndImg := s.imgSum } }

/-! ## Pairing on and off (R283, R315) -/

/-- The hop of a launch that does not radiate yet is given up: the launch is not made. -/
def State.dropHop (s : State) : State :=
  match s.tx.hop with
  | some l => ({ s with tx := { s.tx with hop := none, hopSwitched := false, hopCal := none
                                          femUse := if s.tx.cur.isSome then s.tx.femUse else none } }).cancelLaunch l
  | none => s

/-- SPH_CTL.EN goes from 0 to 1 with ROLE and PAIRID as written: idles and lane markers go out, sequence numbers restart (R289). A part
that is to be the standby makes no launch that does not radiate yet (R283, log entry 124). -/
def State.pairOn (s : State) : State :=
  let role := s.get F.SPH_CTL_ROLE
  let s1 := { s with sph := { pairid := s.get F.SPH_CTL_PAIRID, role := role, bndEpoch := s.sph.bndEpoch
                              bndSfn := s.sph.bndSfn, bndImg := s.sph.bndImg } }
  let s2 := s1.sendIdles 16
  if role = 1 then (s2.setPair 3).raise F.SPH_STAT_PEER_LOST else (s2.dropHop.dropLaunches).setPair 1

/-- The sequenced frames still kept are numbered on from `ack`, the last one that the peer has accepted, and the records that wait for one
of them follow; the rest wait for none (log entry 63). -/
def State.renumber (s : State) (ack : Nat) : State :=
  let kept := s.sph.out ++ s.sph.waiting
  let place (q : Nat) : Nat := (ack + 1 + kept.findIdx (fun f => f.seq == q)) % 65536
  let moved (f : OutFrame) : OutFrame := { f with seq := place f.seq }
  let wait (run : CoreRun) : CoreRun :=
    { run with waitSeq := run.waitSeq.bind (fun q => if s.unacked q then some (place q) else none) }
  { s with
    sph := { s.sph with out := s.sph.out.map moved, waiting := s.sph.waiting.map moved, txSeq := (ack + kept.length) % 65536 }
    cip := { s.cip with core := s.cip.core.map (fun c => c.map wait) } }

/-- The peer is gone: a planned handover is over, what the peer was still to send is this part's again, and records that waited for the
peer are written (R296, R312). Frames not acknowledged are kept for its return (R292). -/
def State.dropPeer (s : State) : State :=
  let s1 := s.dropLater
  let free (run : CoreRun) : CoreRun := { run with waitSeq := none }
  ({ s1 with sph := { s1.sph with peer := 0, aligning := false, handover := none, heir := false, mirror := [] }
             cip := { s1.cip with core := s1.cip.core.map (fun (c : Option CoreRun) => c.map free) } }).releaseRecords

/-- SPH_CTL.EN goes to 0, or block 15 resets: SOLO (R283). -/
def State.pairOff (s : State) : State :=
  let s1 := (((s.setPair 0).lower F.SPH_STAT_LINK).lower F.SPH_STAT_PEER_LOST).lower F.SPH_STAT_PEER_ESTR
  let s2 := s1.dropPeer
  { s2 with sph := { bndEpoch := s2.sph.bndEpoch, bndSfn := s2.sph.bndSfn, bndImg := s2.sph.bndImg } }

/-- The SPH_CTL write whose old value is `old` has been made: EN changes act (R283). -/
def State.pairCtlWritten (s : State) (old : Word) : State :=
  let was := bitAt old.toNat 0
  if s.pairing && !was then s.pairOn
  else if !s.pairing && was then s.pairOff
  else s

/-- The part becomes ESTRANGED with a cause bit of SPH_ESTR (R284, R305, R306). -/
def State.estrange (s : State) (cause : Fld) : State :=
  (((s.setPair 5).raise cause).raise F.SPH_IRQ_ESTRANGED).logPair

/-- One cause bit of SPH_ESTR. -/
def estrBit (k : Nat) : Fld := ⟨Reg.SPH_ESTR, k, 1⟩

/-- The part enters ALIGNING: what the alignment overwrites goes, and it waits for the primary's time (R302, R303, R308). -/
def State.enterAligning (s : State) : State :=
  let s1 := { s with
    sfm := { s.sfm with pend := [] }
    sph := { s.sph with timed := false, acctSeen := false, passOpen := false, passDone := false, mirror := [], acct := [], badEpoch := none, badImg := none
                        firstBeat := false, sumRun := 0, passAt := 0, beatAt := none, stood := false, handoff := none } }
  (s1.put F.SPH_ALIGN_COUNT 0).setPair 2

/-! ## Frames sent (R291 to R293) -/

/-- A frame without sequence number is sent (R291). -/
def State.sendPlain (s : State) (type : Nat) (payload : List Byte) : State := s.transmit type 0 false payload

/-- HELLO_SEND (R289, R290): while pairing is on, since the other side may still need a HELLO (log entry 64). STAMP and HOLD are read from
the Siphon clock, whose value the model does not hold: free values (log entry 71). -/
def execHelloSend (s : State) : Out :=
  .next (if s.pairing then
    let x := s.draw 16
    let y := x.2.draw 16
    y.2.sendPlain 3 (bytesLe 2 s.sph.pairid ++ [BitVec.ofNat 8 s.sph.role, 0] ++ bytesLe 8 s.uid ++
      bytesLe 2 (s.get F.SPH_STAT_TERM) ++ bytesLe 2 x.1 ++ bytesLe 2 s.sph.lastStamp ++ bytesLe 2 y.1)
  else s)

/-- SUMV (R307): no entry is dirty; no change is in flight between two commands. -/
def State.sumValid (s : State) : Bool := s.pairState == 3 && s.sph.dirty.isEmpty

/-- BEAT_SEND (R285, R291, R293): the offset in the slot at the send is a free value (log entry 9), or 0 while slots do not run (log entry
126). -/
def execBeatSend (s : State) : Out :=
  .next (if s.pairing && s.linked && s.pwrState == 0 then
    let x := s.draw 17
    let flags := bit01 s.sumValid + 2 * s.get F.SPH_CTL_AUTO
    x.2.sendPlain 1 ([BitVec.ofNat 8 s.pairState, BitVec.ofNat 8 flags] ++ bytesLe 2 (s.get F.SPH_STAT_TERM) ++
      bytesLe 5 s.sfm.asn.toNat ++ bytesLe 3 (if s.running then x.1 % s.sfm.slotLen else 0) ++ bytesLe 4 s.sph.bndEpoch ++
      bytesLe 4 s.sph.bndSfn ++ bytesLe 4 s.sph.bndImg ++ bytesLe 4 (s.reg Reg.CST_SUM).toNat ++
      bytesLe 2 s.sph.txSeq ++ [0, 0])
  else s)

/-! ## Frames received: link level (R289 to R293) -/

/-- The frames that an acknowledgement of `ack` leaves outstanding. -/
def afterAck (out : List OutFrame) (ack : Nat) : List OutFrame :=
  if out.any (fun f => f.seq == ack) then (out.dropWhile (fun f => f.seq != ack)).drop 1 else out

/-- Every frame after the acknowledged one is sent again, in order (R292). -/
def State.resendOut (s : State) : State :=
  if s.sph.out.isEmpty then s else (s.each s.sph.out State.emit).bump F.SPH_RETRY_COUNT

/-- A part with nothing outstanding numbers on from the last frame that its peer has accepted (log entry 63). -/
def State.numberFrom (s : State) (ack : Nat) : State :=
  if s.sph.out.isEmpty && s.sph.waiting.isEmpty then s.renumber ack else s

/-- The peer accepts none of the frames outstanding: its pairing has restarted, and the last frame it accepted is not the one before them. -/
def State.outOfStep (s : State) (h : SphHdr) : Bool :=
  h.ackv && (match (s.sph.out ++ s.sph.waiting).head? with
    | some f => f.seq != (h.ack.toNat + 1) % 65536
    | none => false)

/-- The ACK and NAK of a received header act (R292): acknowledged frames make room for those that wait, and records whose frame is
acknowledged are written (R296). -/
def State.takeHeader (s : State) (h : SphHdr) : State :=
  let s1 := if h.ackv then
      ({ s with sph := { s.sph with out := afterAck s.sph.out h.ack.toNat } }.sendWaiting s.sph.waiting).releaseRecords.numberFrom h.ack.toNat
    else s
  if h.nak then s1.resendOut else s1

/-- An ACKF goes, with the ACK and any NAK owed (R291; log entry 125). -/
def State.sendAck (s : State) : State := if s.linked then s.sendPlain 2 [] else s

/-- A sequenced frame (R292): applied by `f` when it is the next in order, else discarded with a NAK owed. An ACKF answers it. -/
def State.takeSeq (s : State) (h : SphHdr) (f : State → State) : State :=
  if s.pairing && s.linked then
    let s1 := s.takeHeader h
    if h.seq.toNat = (s1.sph.rxSeq + 1) % 65536 then
      (f { s1 with sph := { s1.sph with rxSeq := h.seq.toNat } }).sendAck
    else { s1 with sph := { s1.sph with nakOwed := true } }.sendAck
  else s

/-- HELLO (R289, R290): a good HELLO counts towards the link; a PAIRID that differs keeps it down. -/
def execHello (h : SphHdr) (b : HelloBody) (s : State) : Out :=
  .next (if s.pairing then
    let s1 := s.takeHeader h
    if b.pairid.toNat ≠ s1.sph.pairid then
      ({ s1 with sph := { s1.sph with helloRun := 0 } }).raise F.SPH_STAT_IDMISMATCH
    else
      let s2 := ((s1.lower F.SPH_STAT_IDMISMATCH).put F.SPH_PEERUID_LO_UID b.uid.toNat).put F.SPH_PEERUID_HI_UID
        (b.uid.toNat / 2 ^ 32)
      let round := (b.now - b.echo - b.hold).toNat
      let s3 := s2.put F.SPH_LATENCY_NS (min (4 * round) 0xFFFF)
      let run := s3.sph.helloRun + 1
      let s4 := { s3 with sph := { s3.sph with helloRun := run, lastStamp := b.stamp.toNat } }
      if !s4.linked && decide (16 ≤ run) then
        ({ s4 with sph := { s4.sph with fresh := true } }.raise F.SPH_STAT_LINK).raise F.SPH_IRQ_LINKUP
      else s4
  else s)

/-- LINK_DOWN (R290): the link goes down and training restarts with idles and lane markers. -/
def execLinkDown (s : State) : Out :=
  .next (if s.pairing && s.linked then
    (({ s with sph := { s.sph with helloRun := 0, fresh := false } }.lower F.SPH_STAT_LINK).raise F.SPH_IRQ_LINKDOWN).sendIdles 16
  else s)

/-- HEARTBEAT_MISSED (R293). -/
def execHeartbeatMissed (s : State) : Out := .next (if s.pairing then s.bump F.SPH_MISSBEAT_COUNT else s)

/-- ACKF (R292). -/
def execAckf (h : SphHdr) (s : State) : Out := .next (if s.pairing && s.linked then s.takeHeader h else s)

/-- A primary without a peer sends no mirror frames (R312). -/
def State.alone (s : State) : Bool := s.pairState == 3 && s.sph.peer == 0

/-- RESEND (R292): 20 µs passed with frames outstanding. -/
def execResend (s : State) : Out := .next (if s.pairing && s.linked && !s.alone then s.resendOut else s)

/-- BAD_FRAME (R289, R291, R292): a frame with a bad CRC or an unknown TYPE ends a run of good HELLOs; a sequenced one is answered with a
NAK. -/
def execBadFrame (seqd : Bool) (s : State) : Out :=
  .next (if s.pairing then
    let s1 := { s.bump F.SPH_CRCERR_COUNT with sph := { s.sph with helloRun := 0 } }
    if seqd then { s1 with sph := { s1.sph with nakOwed := true } }.sendAck else s1
  else s)

/-! ## The primary's side of an alignment (R295, R303) -/

/-- The airtime charged to granule `g` of bucket `n`. -/
def State.granuleUsed (s : State) (n : Fin 16) (g : Nat) : Nat :=
  match s.granules[n.val].find? (fun e => e.1 == g) with
  | some e => e.2
  | none => 0

/-- The ACCT records of every granule of the window and of every credit (R303). A window that reaches back beyond granule 0 has nothing in
the granules before it. -/
def State.acctBytes (s : State) : List (List Byte) :=
  let g := granuleOf s.sfm.asn.toNat
  let grans := (List.finRange 16).flatMap (fun n => (List.range 3600).map (fun k =>
    bytesLe 4 (pack [(16, n.val), (0, (g + k + 4096 - 3599) % 4096)]) ++
      bytesLe 4 (if g + k < 3599 then 0 else s.granuleUsed n (g + k - 3599))))
  let credits := (List.range 1024).map (fun t =>
    bytesLe 4 (pack [(31, 1), (0, t)]) ++ bytesLe 4 (s.get (F.SFM_QCR_CREDIT t)))
  grans ++ credits

/-- A list cut into groups of `n`. -/
def groupsOf {α : Type} (n : Nat) : Nat → List α → List (List α)
  | 0, _ => []
  | fuel + 1, l => if l.isEmpty then [] else l.take n :: groupsOf n fuel (l.drop n)

/-- The decided launches that are not yet SENT. -/
def State.unsent (s : State) : List Launch :=
  s.sfm.launches ++ s.tx.hop.toList ++ (if s.get F.TXP_STAT_PHASE = 4 then [] else s.tx.cur.toList)

/-- The requests without a result, in order of submission: those pending and those of the launches decided. -/
def State.openRequests (s : State) : List TxReq := (s.unsent.filterMap (fun l => l.req)).foldl insertReq s.sfm.pend

/-- The peer has entered ALIGNING (R303): every entry is dirty; accounts, requests and launches are sent. A request whose launch is decided
is pending at the peer until its result (R301, R309). -/
def State.serveAlignment (s : State) : State :=
  let s1 := { s with sph := { s.sph with aligning := true, dirty := [(0, 262143)], sweep := 0 } }
  let s2 := s1.put F.SPH_ALIGN_COUNT 0
  let recs := s2.acctBytes
  let s3 := s2.each (groupsOf 64 recs.length recs) (fun s g => s.mirror 0x16 g.flatten)
  let s4 := s3.each s3.openRequests (fun s r => s.mirrorRequest r.desc r.index r.mode)
  s4.each s4.unsent (fun s l => s.mirror 0x13 (launchPayload l (80000 * s.slotsTo l.slot)))

/-- The first `n` entries of the ranges that are at or above `from'`. -/
def takeMarks : List (Nat × Nat) → Nat → Nat → List Nat
  | [], _, _ => []
  | (a, b) :: t, lo, n =>
    let x := max a lo
    if b < x then takeMarks t lo n
    else
      let k := min n (b + 1 - x)
      (List.range k).map (fun i => x + i) ++ takeMarks t lo (n - k)

/-- The ranges without entry `i`. -/
def clearMark (l : List (Nat × Nat)) (i : Nat) : List (Nat × Nat) :=
  l.flatMap (fun r =>
    if i < r.1 ∨ r.2 < i then [r]
    else (if r.1 < i then [(r.1, i - 1)] else []) ++ (if i < r.2 then [(i + 1, r.2)] else []))

/-- DIRTY_ENTRY_SWEEP (R295, R303): up to 24 dirty entries in ascending order go in one ENTRY frame; a pass that has reached
the end starts again. None goes while frames wait for room (R292). A primary that hands over goes on until it enters STANDBY (R313). -/
def execDirtyEntrySweep (s : State) : Out :=
  .next (if s.shares && s.linked && !s.sph.dirty.isEmpty && s.sph.waiting.isEmpty then
    let ahead := takeMarks s.sph.dirty s.sph.sweep 24
    let s1 := if ahead.isEmpty then s.put F.SPH_ALIGN_COUNT 0 else s
    let es := if ahead.isEmpty then takeMarks s.sph.dirty 0 24 else ahead
    let s2 := { s1 with sph := { s1.sph with dirty := es.foldl clearMark s1.sph.dirty
                                             sweep := (es.getLast?.getD 0) + 1 } }
    (s2.bumpBy F.SPH_ALIGN_COUNT es.length).sendSeq 0x10 false (es.flatMap s2.entryRecord)
  else s)

/-! ## Heartbeats (R284, R302, R303, R305 to R307) -/

/-- SPH_LATENCY in units of 0.125 µs, to the nearest. -/
def State.latencyUnits (s : State) : Nat := (s.get F.SPH_LATENCY_NS + 62) / 125

/-- The part's time minus the primary's at a heartbeat, in units of 0.125 µs (R302). -/
def State.beatOffset (s : State) (b : BeatBody) : Int :=
  -80000 * s.slotsTo b.asn.toNat + b.here.toNat - (b.off.toNat + s.latencyUnits : Nat)

/-- One ACCT record (R304). -/
def State.applyAcct (s : State) (r : AcctRec) : State :=
  if bitAt r.w0.toNat 31 then
    s.put (F.SFM_QCR_CREDIT (bitsOf r.w0.toNat 0 10)) (bitsOf r.w1.toNat 0 12)
  else
    let cur := granuleOf s.sfm.asn.toNat
    let back := (cur + 4096 - bitsOf r.w0.toNat 0 12) % 4096
    if 3600 ≤ back ∨ cur < back then s
    else
      let g := cur - back
      match (List.finRange 16).find? (fun n => n.val == bitsOf r.w0.toNat 16 4) with
      | some n =>
        let l := addGranule (s.granules[n.val].filter (fun e => e.1 != g)) g r.w1.toNat
        ({ s with granules := s.granules.set n.val l }).sumBucket n cur
      | none => s

/-- The ACCT records held until the slots started (R304). -/
def State.applyHeld (s : State) : State :=
  ({ s with sph := { s.sph with acct := [] } }).each s.sph.acct State.applyAcct

/-- The part adopts the primary's time (R302): its slots start at the primary's next slot, or, running already, at once take its number
and its offset, and the accounts that were held are applied (R304). -/
def State.adoptTime (s : State) (b : BeatBody) : State :=
  let s1 := s.setRun true
  let s2 := { s1 with sph := { s1.sph with timed := true, stood := false } }
  if s.running then
    let at0 : Int := b.here.toNat - (b.off.toNat + s.latencyUnits : Nat)
    let s3 := { s2 with sfm := { s2.sfm with asn := b.asn, stopPend := false, slew := 0, slotLen := 80000, offSeen := 0, occ := []
                                             clock := (s.sfm.clock + at0).toNat
                                             prevAsn := (b.asn.toNat + 2 ^ 40 - 1) % 2 ^ 40, prevLen := 80000, pause := 0 } }
    ((s3.shiftTimes at0).moveWindows).applyHeld
  else { s2 with sfm := { s2.sfm with startPend := true, slew := 0, adopt := some ((b.asn.toNat + 1) % 2 ^ 40) } }

/-- Whether superframe `sfn` disagrees for the second boundary running, and the superframe to remember (R305). -/
def disagrees (differs : Bool) (bad : Option Nat) (sfn : Nat) : Bool × Option Nat :=
  if differs then
    ((match bad with
      | some x => (x + 1) % 2 ^ 32 == sfn
      | none => false), some sfn)
  else (false, none)

/-- The checks of R305 on a heartbeat from the primary with measured offset `off`: the state with what they remember, the
causes that fail, and whether a SUM comparison was made. -/
def State.checkBeat (s : State) (b : BeatBody) (off : Int) : State × List Nat × Bool :=
  let same := b.sfn.toNat == s.sph.bndSfn
  let ep := disagrees (b.epoch.toNat != s.sph.bndEpoch) s.sph.badEpoch b.sfn.toNat
  let im := disagrees (b.img.toNat != s.sph.bndImg) s.sph.badImg b.sfn.toNat
  let sumMade := b.sumv && decide ((s.sph.rxSeq + 65536 - b.sumseq.toNat) % 65536 < 32768)
  let s1 := if same then { s with sph := { s.sph with badEpoch := ep.2, badImg := im.2 } } else s
  let causes := (if same && ep.1 then [0] else []) ++ (if same && im.1 then [1] else []) ++
    (if s.pairState == 4 && s.sph.firstBeat && decide (400 < off.natAbs) then [2] else []) ++
    (if sumMade && s.reg Reg.CST_SUM != b.sum then [3] else [])
  (s1, causes, sumMade)

/-- The heartbeats of STANDBY without a SUM comparison are counted; at 4,096 in a row SUMSTALE sets (R307). -/
def State.countSum (s : State) (made : Bool) : State :=
  if made then ({ s with sph := { s.sph with sumRun := 0 } }).lower F.SPH_STAT_SUMSTALE
  else if s.pairState = 4 then
    let n := min (s.sph.sumRun + 1) 4096
    let s1 := { s with sph := { s.sph with sumRun := n } }
    if n = 4096 ∧ s.sph.sumRun < 4096 then (s1.raise F.SPH_STAT_SUMSTALE).raise F.SPH_IRQ_SUMSTALE else s1
  else s

/-- The offset of a part that follows the primary is measured, reported and slewed away, less what the slot in progress takes away
(R302). -/
def State.followTime (s : State) (b : BeatBody) : State :=
  let s1 := s.put F.SPH_OFFSET_OFF (ofSigned 24 (s.beatOffset b))
  { s1 with sfm := { s1.sfm with slew := s.beatOffset b - ((s.sfm.slotLen : Int) - 80000) } }

/-- The primary's slots stand still: its heartbeat names the slot and offset of the one before (log entry 126). -/
def State.beatStands (s : State) (b : BeatBody) : Bool := s.sph.beatAt == some (b.asn.toNat, b.off.toNat)

/-- A heartbeat of a primary whose slots stand still stops this part's (R302). -/
def State.stopWith (s : State) : State :=
  if s.sph.stood then s else { s.runBit false with sph := { s.sph with stood := true } }

/-- The time of a heartbeat at a part that follows the primary (R302): the first one, and the first after the primary's slots stood still,
gives it the primary's time; once its slots run they are slewed. -/
def State.beatTime (s : State) (b : BeatBody) : State :=
  let s1 := { s with sph := { s.sph with beatAt := some (b.asn.toNat, b.off.toNat) } }
  if s.beatStands b then s1.stopWith
  else if !s.sph.timed || s.sph.stood then s1.adoptTime b
  else if s.running then s1.followTime b
  else s1

/-- A part that follows the primary measures its offset at this heartbeat. -/
def State.measures (s : State) (b : BeatBody) : Bool := s.sph.timed && !s.sph.stood && s.running && !s.beatStands b

/-- A heartbeat from the primary at a part that follows it (R284, R302, R303, R305). -/
def State.beatAtStandby (s : State) (b : BeatBody) : State :=
  let s1 := s.put F.SPH_STAT_TERM b.term.toNat
  let off := if s1.measures b then s1.beatOffset b else 0
  let s3 := s1.beatTime b
  if s3.pairState = 5 then s3
  else
    let c := s3.checkBeat b off
    let s4 := c.1.countSum c.2.2
    let s5 := { s4 with sph := { s4.sph with firstBeat := s4.pairState == 4 } }
    match c.2.1 with
    | [] =>
      if s5.pairState = 2 ∧ s5.sph.passDone then
        (({ s5 with sph := { s5.sph with sumRun := 0 } }).setPair 4).raise F.SPH_IRQ_ALIGNED
      else s5
    | k :: ks => (ks.foldl (fun t j => t.raise (estrBit j)) s5).estrange (estrBit k)

/-- The peer's TERM, or on equal TERM its SYS_UID, keeps it the role (R284). -/
def State.losesRole (s : State) (b : BeatBody) : Bool :=
  let mine := s.get F.SPH_STAT_TERM
  decide (mine < b.term.toNat ∨ (mine = b.term.toNat ∧ s.peerUid < s.uid))

/-- A heartbeat at a PRIMARY (R284, R303, R306). The role is decided at the first heartbeat since the link came up, and not while this
part hands over (R313). A peer that is no longer PRIMARY makes no more launches. -/
def State.beatAtPrimary (s : State) (b : BeatBody) : State :=
  let s1 := s.putB F.SPH_STAT_PEER_ESTR (b.state.val == 5)
  if b.state.val = 3 then
    if s1.sph.fresh && s1.sph.handover.isNone && s1.losesRole b then
      let s2 := s1.dropPeer.dropLaunches
      ({ s2 with sph := { s2.sph with peer := 3, handoff := none } }).estrange (estrBit 4)
    else s1
  else
    let s2 := { s1 with sph := { s1.sph with mirror := [], heir := false } }
    if b.state.val = 2 then (if s2.sph.aligning then s2 else s2.serveAlignment)
    else if b.state.val = 4 then
      ({ s2 with sph := { s2.sph with aligning := false } }).lower F.SPH_STAT_PEER_LOST
    else { s2 with sph := { s2.sph with aligning := false } }

/-- A heartbeat from an ALIGNING peer that accepts none of the frames outstanding: they are numbered on from the last one it accepted, and
its alignment begins anew (log entry 63). -/
def State.inStep (s : State) (h : SphHdr) (b : BeatBody) : State :=
  if b.state.val = 2 && s.outOfStep h then
    let s1 := s.renumber h.ack.toNat
    { s1 with sph := { s1.sph with aligning := false } }
  else s

/-- BEAT (R284, R302, R305): a heartbeat from the peer. -/
def execBeat (h : SphHdr) (b : BeatBody) (s : State) : Out :=
  .next (if s.pairing && s.linked then
    let s1 := (s.takeHeader h).inStep h b
    let s2 := { s1 with sph := { s1.sph with peer := b.state.val } }
    let s3 :=
      if s2.pairState = 3 then s2.beatAtPrimary b
      else if b.state.val = 3 ∧ !s2.sph.due then
        (if s2.pairState = 1 then s2.enterAligning
        else if s2.follows then s2.beatAtStandby b else s2)
      else s2
    { s3 with sph := { s3.sph with fresh := false } }
  else s)

/-! ## Mirror frames at the standby (R297, R299, R301, R304, R313) -/

/-- The sweep's record of entry `i` at the standby (R303): a pass that begins after the first ACCT record began after step 1; its last entry
ends it (log entry 67). -/
def State.notePass (s : State) (i : Nat) : State :=
  let opens := s.sph.passOpen || (s.sph.acctSeen && i == 0)
  { s with sph := { s.sph with passOpen := opens, passDone := s.sph.passDone || (opens && i == 262143) } }

/-- SPH_ALIGN at the standby: the entries applied in the current pass, which begins again where the indices no longer rise (R303). -/
def State.countApplied (s : State) (i : Nat) : State :=
  let s1 := if i < s.sph.passAt then s.put F.SPH_ALIGN_COUNT 0 else s
  { s1 with sph := { s1.sph with passAt := i + 1 } }.bump F.SPH_ALIGN_COUNT

/-- Entry `i` is marked dirty. -/
def State.dirtyAt (s : State) (i : Nat) : Bool := s.sph.dirty.any (fun r => decide (r.1 ≤ i ∧ i ≤ r.2))

/-- The Siphon's update of entry `i` to `e` (R297), which marks nothing dirty. -/
def State.copyEntry (s : State) (i e : Nat) : State :=
  let t := s.setEntry i e
  { t with sph := { t.sph with dirty := s.sph.dirty } }

/-- The update of entry `i` to `e` that a part in planned handover takes from the other (R313; log entry 148). The new primary keeps the
higher of the counters TC and RC, and the result is a change of its own; the old one keeps a change that it has still to send. -/
def State.handedEntry (s : State) (i e : Nat) : State :=
  if s.sph.heir then
    let o := s.entry i
    s.setEntry i (setBits (setBits e 44 24 (max (entTc e) (entTc o))) 68 32 (max (entRc e) (entRc o)))
  else if s.dirtyAt i then s
  else s.copyEntry i e

/-- ENTRY (R297, R303, R313): each record is an atomic update of its entry. -/
def execEntry (h : SphHdr) (rs : List EntryRec) (s : State) : Out :=
  .next (s.takeSeq h (fun s =>
    if s.takesMirror || (s.pairState == 3 && s.sph.heir) then
      s.each rs (fun s r =>
        let e := r.w0.toNat + r.w1.toNat <<< 32 + r.w2.toNat <<< 64 + r.w3.toNat <<< 96
        if s.pairState = 3 then (if s.ready 13 then s.handedEntry r.index.toNat e else s)
        else
          let s1 := if s.ready 13 then s.setEntry r.index.toNat e else s
          if h.sync then s1 else (s1.countApplied r.index.toNat).notePass r.index.toNat)
    else s))

/-- REQ (R299): a fragment's descriptor and payload go to the same addresses, what fills its last word left out (R291); the last one makes
the request pending, last of all; one of the same descriptor that is pending still is replaced. -/
def execReq (h : SphHdr) (b : ReqBody) (s : State) : Out :=
  .next (s.takeSeq h (fun s =>
    if s.takesMirror || (s.pairState == 3 && s.sph.heir) then
      let d := bytesLe 4 b.d0.toNat ++ bytesLe 4 b.d1.toNat ++ bytesLe 4 b.d2.toNat ++ bytesLe 4 b.d3.toNat
      let s1 := (s.moveWrite false 69 (descAddr b.desc.toNat) d).1
      let s2 := (s1.moveWrite false 69 (b.d1.toNat + 488 * b.frag.val) (b.payload.take (txLen b.d0 - 488 * b.frag.val))).1
      if b.last then (s2.forget b.desc.toNat).addPending b.desc.toNat b.index.toNat b.mode.toNat else s2
    else s))

/-- The slot of a LAUNCH record. -/
def recSlot (r : LaunchBody) : Nat := r.w2.toNat + bitsOf r.w3.toNat 0 8 * 2 ^ 32

/-- The target slot of a recorded launch (R310), which the record does not name: of the three sample slots from the record's on that R124
gives, the one whose window the first preamble symbol opens (R131, R133), or none for a launch that is no wake transmission. It is found as
the record arrives (log entry 69). -/
def State.recordTarget (s : State) (r : LaunchBody) : Option Nat :=
  match s.sfm.pend.find? (fun x => x.desc == recDesc r && !bitAt r.w3.toNat 9) with
  | none => none
  | some q =>
    match s.route q.index with
    | none => none
    | some (hop, _) =>
      let e := s.entry hop
      if !entSleepy e || q.mode == 2 then none
      else
        let m := 2 ^ entClass e
        let d0 := s.word (descAddr (recDesc r))
        let prof := bitsOf r.w3.toNat 12 3
        let first := 8 * toSigned 24 (bitsOf r.w4.toNat 0 24)
        let train := bitAt r.w3.toNat 15
        let x0 := (hop % m + m - recSlot r % m) % m
        let full := decide (80000 * m + 2 * s.guardTime ≤
            (if train then (r.w5.toNat - 1) * airTime d0 prof 16 else r.w5.toNat * txSymbol d0 prof)) &&
          (!train || (s.wakeWindow e ((recSlot r + x0 + 2 ^ 40 - s.sfm.asn.toNat) % 2 ^ 40)).2.2)
        let opens (x : Nat) : Bool :=
          let t : Int := 80000 * x + s.guardTime
          if full then decide (first = t - 80000 * m - s.guardTime)
          else decide (first + s.guardTime ≤ t ∧ t + s.guardTime < first + 80000 * m)
        ([x0, x0 + m, x0 + 2 * m].find? opens).map (fun x => (recSlot r + x) % 2 ^ 40)

/-- LAUNCH (R301): the charge goes to the granule of the decision slot, the credit is taken, the record is kept. -/
def execLaunch (h : SphHdr) (b : LaunchBody) (s : State) : Out :=
  .next (s.takeSeq h (fun s =>
    if s.takesMirror then
      let s1 := match (List.finRange 16).find? (fun n => n.val == bitsOf b.w0.toNat 16 4) with
        | some n => s.charge n (granuleOf ((recSlot b + 2 ^ 40 - 2) % 2 ^ 40)) b.w1.toNat
        | none => s
      let t := bitsOf b.w0.toNat 22 10
      let s2 := if bitAt b.w3.toNat 8 then s1.put (F.SFM_QCR_CREDIT t) (s1.get (F.SFM_QCR_CREDIT t) - 16) else s1
      let old := s2.sph.mirror.filter (fun r => bitAt r.body.w3.toNat 9 || recDesc r.body != recDesc b)
      { s2 with sph := { s2.sph with
          mirror := (if bitAt b.w3.toNat 9 then s2.sph.mirror else old) ++ [⟨b, s.recordTarget b⟩] } }
    else s))

/-- DONE (R301): the request is removed and the same result posted. After a planned handover the new primary takes those of the launches
that the old one completes (R313). -/
def execDone (h : SphHdr) (rs : List DoneRec) (s : State) : Out :=
  .next (s.takeSeq h (fun s =>
    if s.takesMirror || (s.pairState == 3 && s.sph.heir) then
      s.each rs (fun s r =>
        let d := r.desc.toNat
        let slot := match s.sph.mirror.find? (fun x => !bitAt x.body.w3.toNat 9 && recDesc x.body == d) with
          | some x => if r.outcome.toNat = 1 then recSlot x.body else 0
          | none => 0
        let s0 := s.forget d
        let s1 := { s0 with
          sph := { s0.sph with mirror := s0.sph.mirror.filter (fun x => bitAt x.body.w3.toNat 9 || recDesc x.body != d) } }
        s1.post r.outcome.toNat slot d)
    else s))

/-- HANDOFF (R313): a STANDBY takes over, and makes its first launch no earlier than the slot named. -/
def execHandoff (h : SphHdr) (asn : BitVec 40) (s : State) : Out :=
  .next (s.takeSeq h (fun s =>
    if s.pairState = 4 then { s with sph := { s.sph with due := true, handoff := some asn.toNat } } else s))

/-- ACCT (R304): records overwrite granules and credits; before the slots have started they are held. They come before the requests and
launches of an alignment, which overwrite any received before (R303, R308; log entry 149). -/
def execAcct (h : SphHdr) (rs : List AcctRec) (s : State) : Out :=
  .next (s.takeSeq h (fun s =>
    if s.follows then
      let s1 := { s with sfm := { s.sfm with pend := [] }, sph := { s.sph with acctSeen := true, mirror := [] } }
      if s.running && s.sph.timed then s1.each rs State.applyAcct
      else { s1 with sph := { s1.sph with acct := s.sph.acct ++ rs } }
    else s))

/-! ## Loss, takeover, handover (R309 to R314) -/

/-- PRIMARY_LOST (R283, R309): 1,000 µs without a heartbeat from the primary. -/
def execPrimaryLost (s : State) : Out :=
  .next (if s.pairState = 4 then
      (if s.flag F.SPH_CTL_AUTO then { s with sph := { s.sph with due := true } } else s.raise F.SPH_IRQ_PRIMARY_LOST)
    else if s.pairState = 2 then ((s.setPair 1).raise F.SPH_IRQ_PRIMARY_LOST)
    else s)

/-- PEER_LOST (R312): a primary runs on alone, and decides again what the peer was still to send. -/
def execPeerLost (s : State) : Out :=
  .next (if s.pairState = 3 ∧ (s.sph.peer ≠ 0 ∨ s.sph.mirror ≠ []) then
    (((s.raise F.SPH_STAT_PEER_LOST).lower F.SPH_STAT_PEER_ESTR).raise F.SPH_IRQ_PEER_LOST).dropPeer
  else s)

/-- The launch that a LAUNCH record decided, as it gives it (R310): a wake transmission goes on the channel of its target slot. -/
def State.recordLaunch (s : State) (x : MirrorRec) (req : Option TxReq) : Launch :=
  let r := x.body
  let desc := recDesc r
  let d0 := s.word (descAddr desc)
  let d1 := s.word (descAddr desc + 4)
  let d2 := s.word (descAddr desc + 8)
  let slot := recSlot r
  let first := 80000 * s.slotsTo slot + 8 * toSigned 24 (bitsOf r.w4.toNat 0 24)
  let train := bitAt r.w3.toNat 15
  let prof := bitsOf r.w3.toNat 12 3
  let pre := if train then 16 else r.w5.toNat
  let copies := if train then r.w5.toNat else 0
  let air := max 1 copies * airTime d0 prof pre
  { req := req, desc := desc, slot := slot, first := first, occStart := first - s.lead
    occEnd := first + air + s.ackTime d0, khz := s.hopChannel (x.target.getD slot), prof := prof, d0 := d0, d1 := d1, d2 := d2
    preamble := pre, copies := copies, charge := r.w1.toNat, bucket := bitsOf r.w0.toNat 16 4, entry := s.powerEntry d0
    sync := s.reg (Reg.TXP_SYNC (txSyncNo d2))
    asnBytes := if bitAt r.w3.toNat 9 then some (s.getA F.SFM_BCN_ASNOFF, slot) else none }

/-- A planned handover leaves the launch of record `r` to the old primary: its slot lies before the one named (R313). -/
def State.leftToPeer (s : State) (r : MirrorRec) : Bool :=
  match s.sph.handoff with
  | some a => decide (s.slotsTo (recSlot r.body) < s.slotsTo a)
  | none => false

/-- The new primary makes a recorded launch whose lead begins after its takeover, `off` into the current slot; any other stays
pending (R310). -/
def State.adoptLaunch (s : State) (off : Nat) (x : MirrorRec) : State :=
  let r := x.body
  let req := if bitAt r.w3.toNat 9 then none else s.sfm.pend.find? (fun x => x.desc == recDesc r)
  let l := s.recordLaunch x req
  if s.leftToPeer x = false ∧ 0 ≤ s.slotsTo (recSlot r) ∧ (off : Int) < l.occStart ∧ (bitAt r.w3.toNat 9 || req.isSome) then
    { s with sfm := { s.sfm with
        launches := s.sfm.launches ++ [l], occ := s.sfm.occ ++ [(l.occStart, l.occEnd)]
        pend := s.sfm.pend.filter (fun x => bitAt r.w3.toNat 9 || x.desc != recDesc r) } }
  else s

/-- TAKEOVER (R309, R310, R313): the part enters PRIMARY `off` units of 0.125 µs into the current slot. Accounts it holds are applied, or,
while slots do not run, once they start (R304). -/
def execTakeover (off : BitVec 17) (s : State) : Out :=
  .next (if s.sph.due then
    let s1 := ((s.put F.SPH_STAT_TERM (min (s.get F.SPH_STAT_TERM + 1) 0xFFFF)).setPair 3).raise F.SPH_STAT_PEER_LOST
    let s2 := s1.each s1.sph.mirror (fun t r => t.adoptLaunch off.toNat r)
    let s3 := { s2 with sph := { s2.sph with
      due := false, mirror := s.sph.mirror.filter s.leftToPeer, aligning := false, dirty := []
      heir := s.sph.handoff.isSome && s.sph.peer == 3, peer := if s.sph.handoff.isSome then s.sph.peer else 0
      lift := if s.get F.SPH_LIFT_LIFT = 0 then none else some 0, lifted := [] } }
    ((if s.running then s3.applyHeld else s3).raise F.SPH_IRQ_TAKEOVER).logPair
  else s)

/-- COUNTER_LIFT (R311): the walk lifts TC of every entry that no encrypting job has lifted before it. While the Cistern is not ready its
updates are discarded (05 R160). -/
def execCounterLift (s : State) : Out :=
  .next (match s.sph.lift with
  | some p =>
    let d := s.get F.SPH_LIFT_LIFT
    let s1 := if !s.ready 13 then s else s.each ((List.range 262144).filter (fun i => decide (p ≤ i) && !s.sph.lifted.contains i)) (fun t i =>
      let e := t.entry i
      t.setEntry i (setBits e 44 24 (min (entTc e + d) 0xFFFFFF)))
    { s1 with sph := { s1.sph with lift := none, lifted := [] } }
  | none => s)

/-- A write of SPH_CMD.REJOIN (R308, R315). -/
def State.rejoin (s : State) : State :=
  if s.pairState = 5 then
    let s1 := (s.put F.SPH_ESTR_CAUSE 0)
    let s2 := { s1 with sph := { s1.sph with pairid := s.get F.SPH_CTL_PAIRID, role := s.get F.SPH_CTL_ROLE } }
    if s2.linked && s2.sph.peer == 3 then s2.enterAligning else s2.setPair 1
  else s

/-- A write of SPH_CMD.PROMOTE (R314): the part takes over by R309, whatever AUTO holds. -/
def State.promote (s : State) : State :=
  if s.pairState = 1 ∨ s.follows then { s with sph := { s.sph with due := true } } else s

/-- A write of SPH_CMD.HANDOVER (R313): a PRIMARY whose peer is STANDBY decides no further and names the first slot that the
standby decides. -/
def State.startHandover (s : State) : State :=
  if s.pairState = 3 ∧ s.sph.peer = 4 ∧ s.sph.handover.isNone then
    let slot := s.slotAt 3
    let s1 := s.mirror 0x15 (bytesLe 8 slot)
    { s1 with sph := { s1.sph with handover := some slot } }
  else s

/-- PLANNED_HANDOVER_COMPLETE (R313): the launches decided are complete, every entry changed has gone to the new primary, it has
acknowledged all that it was sent (log entry 126), and the old primary enters STANDBY. -/
def execPlannedHandoverComplete (s : State) : Out :=
  .next (if s.sph.handover.isSome ∧ s.pairState = 3 ∧ s.sfm.launches.isEmpty ∧ s.tx.hop.isNone ∧ s.tx.cur.isNone ∧
      s.sph.out.isEmpty ∧ s.sph.waiting.isEmpty ∧ s.sph.later.isEmpty ∧ s.sph.dirty.isEmpty then
    let s1 := { s with sph := { s.sph with handover := none, handoff := none, timed := true, firstBeat := false, sumRun := 0
                                           badEpoch := none, badImg := none, dirty := [], aligning := false
                                           passAt := 0, beatAt := none, stood := false } }
    (s1.setPair 4).raise F.SPH_IRQ_ALIGNED
  else s)

/-- Beacon records whose slot has passed are forgotten at a slot boundary. -/
def State.pruneMirror (s : State) : State :=
  let keep := s.sph.mirror.filter (fun r => !bitAt r.body.w3.toNat 9 || decide (0 ≤ s.slotsTo (recSlot r.body)))
  { s with sph := { s.sph with mirror := keep } }

end Sys2Proof.Machine
end

