-- ==== Sys2Proof/Machine/Stage.lean ====
section
/-! DEFINITION. Staged configuration and epochs (01 R34 to R40) and what a commit does to the receive path (02 R79, 03 R111). -/

namespace Sys2Proof.Machine

/-- The block a register key lies in (R17). -/
def keyBlock (k : Nat) : Nat := k / 0x10000 % 0x2000

/-- The staged bits of the register under `k` when its block lies in world `ns`, else none (R35). -/
def State.stagedMask (s : State) (ns : Bool) (k : Nat) : Nat :=
  match rowAt (k % 0x100000000) with
  | some r => if s.blockNS (keyBlock k) == ns then r.st else 0
  | none => 0

/-- `a` with the bits of `m` taken from `b`. -/
def mergeBits (m : Nat) (a b : Word) : Word := (a &&& ~~~BitVec.ofNat 32 m) ||| (b &&& BitVec.ofNat 32 m)

/-- The registers whose shadow or active value is listed. -/
def State.listedKeys (s : State) : List Nat := s.regs.map Prod.fst ++ s.act.map Prod.fst

/-- The whole staged set of world `ns` becomes active (R36). -/
def State.activate (s : State) (ns : Bool) : State :=
  s.each (s.listedKeys.filter (fun k => s.stagedMask ns k != 0)) (fun t k =>
    t.setActive k (mergeBits (t.stagedMask ns k) (t.activeReg k) (t.reg k)))

/-- Every shadow of world `ns` takes its active value (R39). -/
def State.reloadShadows (s : State) (ns : Bool) : State :=
  s.each (s.listedKeys.filter (fun k => s.stagedMask ns k != 0)) (fun t k =>
    t.setReg k (mergeBits (t.stagedMask ns k) (t.reg k) (t.activeReg k)))

/-- The active frequency of a chain (R41, R44). -/
def State.chainFreq (s : State) (c : Chain) : Nat :=
  match c with
  | .a => s.getA (F.RXC_FREQ_KHZ 0)
  | .b => if s.diversity then s.getA (F.RXC_FREQ_KHZ 0) else s.getA (F.RXC_FREQ_KHZ 1)

/-- The change of active settings from `s` to `t` retunes chain `c` (R79). -/
def State.retunes (s t : State) (c : Chain) : Bool :=
  t.chainEnabled c && (!s.chainEnabled c || s.diversity != t.diversity || s.chainFreq c != t.chainFreq c)

/-- Chain `c` has an enabled lane (R37). -/
def State.hasEnabledLane (s : State) (c : Chain) : Bool :=
  s.chainEnabled c && (chainLanes c).any (fun n => s.flagA (F.LAN_CFG_EN n.val))

/-- The commit from `s` to `t` cannot complete in one epoch (R37). -/
def State.needsGap (s t : State) : Bool :=
  s.running && s.hasEnabledLane .a && s.hasEnabledLane .b && (s.retunes t .a || s.retunes t .b)

/-- A result of world `ns` is reported: ARM and GAP clear, and its interrupt pulses (R36 to R40). -/
def State.stageResult (s : State) (ns : Bool) (r : Nat) : State :=
  let w := bit01 ns
  (((s.put (F.SYS_STAGE_CTL_ARM w) 0).put (F.SYS_STAGE_CTL_GAP w) 0).put (F.SYS_STAGE_STAT_RESULT w) r).pulse (2 + w)

/-- What a commit from `s` to `t` does to the chains, lanes and loading entries (R67, R79, R111). -/
def State.settle (s t : State) : State :=
  let chain (u : State) (c : Chain) : State :=
    if s.retunes t c then u.startCalibration c
    else if s.chainEnabled c && !t.chainEnabled c then
      (u.lower (F.RXC_STAT_CAL (chainNo c))).setBit Reg.SYS_READY (24 + chainNo c) false
    else u
  let t1 := chain (chain t .a) .b
  let t2 := if !s.flagA F.LDP_LCTL_EN && t.flagA F.LDP_LCTL_EN then
      t1.each (List.finRange 96) (fun u n => u.setLane n { u.laneAt n with firstFloor := true })
    else t1
  t2.reconcile

/-- One world at a boundary or while the machine is stopped: the state with its set activated, or with NEEDS_GAP reported, which is
judged on `s0`, the state before any world committed (R37); the flag says that it committed. -/
def State.commitWorld (s0 s : State) (ns : Bool) : State × Bool :=
  let w := bit01 ns
  if s.flag (F.SYS_STAGE_CTL_ARM w) then
    if !s.flag (F.SYS_STAGE_CTL_GAP w) && s0.needsGap (s0.activate ns) then (s.stageResult ns 2, false)
    else ((s.activate ns).stageResult ns 1, true)
  else (s, false)

/-- SYS_EPOCH goes up by one and wraps (R36). -/
def State.nextEpoch (s : State) : State := s.put F.SYS_EPOCH_EPOCH (s.get F.SYS_EPOCH_EPOCH + 1)

/-- The named worlds commit in one fabric cycle (R36). -/
def State.commitWorlds (s : State) (sec ns : Bool) : State :=
  let a := if sec then s.commitWorld s false else (s, false)
  let b := if ns then s.commitWorld a.1 true else (a.1, false)
  if a.2 || b.2 then (s.settle b.1).nextEpoch else b.1

/-- The commits of a superframe boundary; a world that ordered a GAP and commits begins its quiet superframe (R37). The flag
says that one begins. -/
def State.boundaryCommit (s : State) : State × Bool :=
  let q (w : Nat) : Bool := s.flag (F.SYS_STAGE_CTL_ARM w) && s.flag (F.SYS_STAGE_CTL_GAP w)
  let s1 := s.commitWorlds true true
  ((s1.putB (F.SYS_STAGE_STAT_QUIET 0) (q 0)).putB (F.SYS_STAGE_STAT_QUIET 1) (q 1), q 0 || q 1)

/-- A write of SYS_STAGE_CTL in world `ns` with the given bits, lowest first (R36, R37, R39). -/
def State.stageCommand (s : State) (ns arm gap abandon : Bool) : State :=
  let w := bit01 ns
  let s1 := if arm then s.raise (F.SYS_STAGE_CTL_ARM w) else s
  let s2 := if gap then
      let t := s1.raise (F.SYS_STAGE_CTL_ARM w)
      if s.running then t.raise (F.SYS_STAGE_CTL_GAP w) else t
    else s1
  if abandon then (s2.reloadShadows ns).stageResult ns 3 else s2

/-- STOPPED_COMMIT (R36, R37): while slots do not run, the armed sets of the named worlds commit together. -/
def execStoppedCommit (sec ns : Bool) (s : State) : Out :=
  .next (if s.running then s else s.commitWorlds sec ns)

end Sys2Proof.Machine
end

