-- ==== Sys2Proof/Machine/Timers.lean ====
section
/-! DEFINITION. The sixteen timers and their catch-up after a sleep (12 R386 to R393). -/

namespace Sys2Proof.Machine

/-- The timer with number `k`, when there is one. -/
def tmrNo (k : Nat) : Option TmrIx := (List.finRange 16).find? (fun j => j.val == k)

/-- SRC of timer `k`. -/
def State.tmrSrc (s : State) (k : TmrIx) : Nat := s.get (F.TMR_CFG_SRC k.val)

/-- The odd timer that counts the overflows of timer `k`, when it is set to (R391). -/
def State.cascade (s : State) (k : TmrIx) : Option TmrIx :=
  if k.val % 2 = 0 then
    match tmrNo (k.val + 1) with
    | some j => if s.tmrSrc j = 3 then some j else none
    | none => none
  else none

/-! ## Captures (R390, R391) -/

/-- The count goes into the queue, or CAPOVF sets when it is full. -/
def State.pushCapture (s : State) (k : TmrIx) : State :=
  let t := s.tmrAt k
  if 4 ≤ t.queue.length then s.raise (F.TMR_STAT_CAPOVF k.val)
  else (s.setTmr k { t with queue := t.queue ++ [t.count] }).raise (F.TMR_STAT_CAPT k.val)

/-- Timer `k` captures, and the timer that cascades from it in the same cycle. -/
def State.capture (s : State) (k : TmrIx) : State :=
  let s1 := s.pushCapture k
  match s.cascade k with
  | some j => s1.pushCapture j
  | none => s1

/-- The captures of one cycle: the timers of `ks` and those that cascade from them push one entry each, but for those of `same`, which have
pushed theirs in that cycle already (R390, R391). -/
def State.captures (s : State) (ks same : List TmrIx) : State :=
  s.each ((List.finRange 16).filter (fun k => !same.contains k && (ks.contains k || ks.any (fun i => s.cascade i == some k))))
    State.pushCapture

/-- CAPSRC selects an edge of TIOk to `level` (R390). -/
def State.capturesEdge (s : State) (k : TmrIx) (level : Bool) : Bool :=
  let c := s.get (F.TMR_CFG_CAPSRC k.val)
  if level then c == 1 || c == 3 else c == 2 || c == 3

/-! ## The pin (R388) -/

/-- The level of TIOk: the held one (13 R430), else the timer's own when it drives the ball. -/
def State.tioLevel (s : State) (k : TmrIx) : Bool :=
  match s.pwr.latch with
  | some p => bitAt p.tio.toNat k.val
  | none =>
  if s.flag (F.TMR_CFG_PINOUT k.val) then (s.tmrAt k).pin else bitAt s.pins.tio.toNat k.val

/-- TIOk has had the level `old`: an edge to its present level may capture (R390). A held ball has none (13 R430). -/
def State.edgeTio (s : State) (k : TmrIx) (old : Bool) : State :=
  let level := s.tioLevel k
  if old != level && s.capturesEdge k level then s.capture k else s

/-- An action code applied to a level: 1 high, 2 low, 3 invert. -/
def pinAction (code : Nat) (level : Bool) : Bool :=
  match code with
  | 1 => true
  | 2 => false
  | 3 => !level
  | _ => level

/-- The timer's own level after the overflow action, then the match action, of one tick (R388); only while PINOUT = 1. -/
def State.pinActions (s : State) (k : TmrIx) (ovf mtch : Bool) : State :=
  if s.flag (F.TMR_CFG_PINOUT k.val) then
    let p0 := (s.tmrAt k).pin
    let p1 := if ovf then pinAction (s.get (F.TMR_CFG_OACT k.val)) p0 else p0
    let p2 := if mtch then pinAction (s.get (F.TMR_CFG_MACT k.val)) p1 else p1
    s.setTmr k { s.tmrAt k with pin := p2 }
  else s

/-- The timers of `ks` whose balls an event has moved, from `s` to `t`, by an edge that captures (R390). -/
def edgesFrom (s t : State) (ks : List TmrIx) : List TmrIx :=
  ks.filter (fun k => s.tioLevel k != t.tioLevel k && t.capturesEdge k (t.tioLevel k))

/-! ## Ticks (R386, R388, R391) -/

/-- The count of a running timer after one tick: whether it overflowed and whether it matched are set in TMR_STATk. -/
def State.countTick (s : State) (k : TmrIx) : State × Bool × Bool :=
  let t := s.tmrAt k
  let back := s.flag (F.TMR_CFG_PERIOD k.val) && t.atMatch
  let n : BitVec 48 := if back then 0 else t.count + 1
  let ovf := back || n == 0
  let mtch := n == t.cmp
  let s1 := s.setTmr k { t with count := n, atMatch := mtch
                                run := t.run && !(mtch && s.flag (F.TMR_CFG_ONESHOT k.val)) }
  let s2 := if mtch then s1.raise (F.TMR_STAT_MATCH k.val) else s1
  (if ovf then s2.raise (F.TMR_STAT_OVF k.val) else s2, ovf, mtch)

/-- A tick before its captures: the timer that counts this one's overflows counts in the same cycle (R391), then the pins move; and the
timers that capture for it. -/
def State.tickMoves (s : State) (k : TmrIx) : State × List TmrIx :=
  if (s.tmrAt k).run then
    let a := s.countTick k
    let alone := a.1.pinActions k a.2.1 a.2.2
    match if a.2.1 then s.cascade k else none with
    | some j =>
      if (a.1.tmrAt j).run then
        let b := a.1.countTick j
        let t := (b.1.pinActions k a.2.1 a.2.2).pinActions j b.2.1 b.2.2
        (t, edgesFrom b.1 t [k, j])
      else (alone, edgesFrom a.1 alone [k])
    | none => (alone, edgesFrom a.1 alone [k])
  else (s, [])

/-- A tick, with what it captures. -/
def State.tick (s : State) (k : TmrIx) : State := (s.tickMoves k).1.captures (s.tickMoves k).2 []

/-- TIMER_TICK (R386): a tick of the clock that SRC 0 or 1 selects, the prescaler passed. -/
def execTimerTick (k : TmrIx) (s : State) : Out :=
  .next (if s.ready 18 && decide (s.tmrSrc k ≤ 1) then s.tick k else s)

/-- A rising edge of TIOk as an input: with SRC = 2 every PRE + 1 of them make a tick (R386); the timers that capture for it. -/
def State.countEdge (s : State) (k : TmrIx) : State × List TmrIx :=
  let t := s.tmrAt k
  if t.run && s.tmrSrc k == 2 then
    (if s.get (F.TMR_CFG_PRE k.val) ≤ t.edges then (s.setTmr k { t with edges := 0 }).tickMoves k
     else (s.setTmr k { t with edges := t.edges + 1 }, []))
  else (s, [])

/-- TIOk has come to a level: as an input's a rising edge counts (R386), and the edge may capture, with the count after that tick (R390);
the timers of `same` have captured in that cycle already. -/
def State.takeEdge (s : State) (k : TmrIx) (level : Bool) (same : List TmrIx) : State :=
  let x := if level && !s.flag (F.TMR_CFG_PINOUT k.val) then s.countEdge k else (s, [])
  x.1.captures (x.2 ++ (if x.1.capturesEdge k level then [k] else [])) same

/-- TIOk has had the level `old` as an input or an output: an edge to its present level counts as an input's and may capture. -/
def State.tioEdge (s : State) (k : TmrIx) (old : Bool) : State :=
  if old = s.tioLevel k then s else s.takeEdge k (s.tioLevel k) []

/-- The captures of a superframe boundary, one entry a timer (R390, R391). -/
def State.boundaryCaptures (s : State) : State :=
  if s.ready 18 then
    s.captures ((List.finRange 16).filter (fun k => s.get (F.TMR_CFG_CAPSRC k.val) == 4)) []
  else s

/-- CAPTURE_EVENT (R386, R390): an edge of TIOk from the board to `level`; the timers of `same` have captured in that cycle for another
cause, which pushes the one entry (log entry 127). -/
def execCaptureEvent (k : TmrIx) (level : Bool) (same : List TmrIx) (s : State) : Out :=
  .next (
    let s1 := { s with pins := { s.pins with tio := BitVec.ofNat 16 (setBits s.pins.tio.toNat k.val 1 (bit01 level)) } }
    if s.ready 18 && s.pwr.latch.isNone && !s.flag (F.TMR_CFG_PINOUT k.val) && bitAt s.pins.tio.toNat k.val != level then
      s1.takeEdge k level same
    else s1)

/-! ## Control (R387, R389, R390) -/

/-- START (R387): from the count held. -/
def State.timerStart (s : State) (k : TmrIx) : State := s.setTmr k { s.tmrAt k with run := true }

/-- STOP (R387). -/
def State.timerStop (s : State) (k : TmrIx) : State := s.setTmr k { s.tmrAt k with run := false }

/-- CLRQ. -/
def State.clearQueue (s : State) (k : TmrIx) : State := s.setTmr k { s.tmrAt k with queue := [] }

/-- A write of TMR_CTLk: its bits, lowest first. -/
def State.timerCtl (s : State) (k : TmrIx) (v : Word) : State :=
  let s1 := if bitAt v.toNat 0 then s.timerStart k else s
  let s2 := if bitAt v.toNat 1 then s1.timerStop k else s1
  let s3 := if bitAt v.toNat 2 then s2.capture k else s2
  if bitAt v.toNat 3 then s3.clearQueue k else s3

/-- A write of TMR_CFGk (R387, R388): while the timer runs only the IEN bits change. -/
def State.timerCfg (s : State) (k : TmrIx) (v : Word) : State :=
  if (s.tmrAt k).run then
    s.setReg (Reg.TMR_CFG k.val) ((s.reg (Reg.TMR_CFG k.val) &&& 0x1FFFFFFF) ||| (v &&& 0xE0000000))
  else
    let s1 := s.setReg (Reg.TMR_CFG k.val) (v &&& 0xE7FFFF07)
    (if bitAt v.toNat 22 then s1.setTmr k { s1.tmrAt k with pin := bitAt v.toNat 23 } else s1).edgeTio k (s.tioLevel k)

/-- A write of half of the count (R387): ignored while the timer runs. -/
def State.timerCountWrite (s : State) (k : TmrIx) (hi : Bool) (v : Word) : State :=
  let t := s.tmrAt k
  if t.run then s
  else
    let n := if hi then setBits t.count.toNat 32 16 v.toNat else setBits t.count.toNat 0 32 v.toNat
    s.setTmr k { t with count := BitVec.ofNat 48 n, atMatch := false }

/-- A write of TMR_CMPk_HI makes the match value active (R389). -/
def State.timerCmpHi (s : State) (k : TmrIx) (v : Word) : State :=
  let s1 := s.put (F.TMR_CMP_HI_CMP_H k.val) v.toNat
  s1.setTmr k { s1.tmrAt k with
    cmp := BitVec.ofNat 48 (bitsOf v.toNat 0 16 * 2 ^ 32 + (s1.reg (Reg.TMR_CMP_LO k.val)).toNat) }

/-- A read of TMR_CAPk_LO (R390): the oldest capture's low word; TMR_CAPk_HI takes the rest with VALID. -/
def State.popCapture (s : State) (k : TmrIx) : Word × State :=
  let t := s.tmrAt k
  match t.queue with
  | c :: rest =>
    (BitVec.ofNat 32 c.toNat, (s.setTmr k { t with queue := rest }).setReg (Reg.TMR_CAP_HI k.val)
      (BitVec.ofNat 32 (pack [(31, 1), (0, c.toNat / 2 ^ 32)])))
  | [] => (0, s.setReg (Reg.TMR_CAP_HI k.val) 0)

/-- What TMR_STATk reads as. -/
def State.timerStatView (s : State) (k : TmrIx) : Word :=
  let v := (s.reg (Reg.TMR_STAT k.val)).toNat
  BitVec.ofNat 32 (setBits (setBits (setBits v 0 1 (bit01 (s.tmrAt k).run)) 8 3 (s.tmrAt k).queue.length) 12 1
    (bit01 (s.tioLevel k)))

/-! ## Sleep catch-up (R393) -/

/-- Where `a` ticks take a timer: its count, whether the last tick was a match, overflows, whether a match came, and whether it
stopped. -/
structure Skip where
  count : Nat
  atMatch : Bool
  ovf : Nat
  mtch : Bool
  stop : Bool
deriving DecidableEq, Repr

/-- `r` ticks of a periodic timer with match value `m`, from a match. -/
def skipCycles (m r : Nat) : Skip :=
  let x := r % (m + 1)
  ⟨if x = 0 then m else x - 1, x == 0, ceilDiv r (m + 1), decide (m + 1 ≤ r), false⟩

/-- `a` ticks from `c` to a timer with match value `m`, not from a match. -/
def skipFrom (period oneshot : Bool) (m c a : Nat) : Skip :=
  let d := (m + 2 ^ 48 - c - 1) % 2 ^ 48 + 1
  if a < d then ⟨(c + a) % 2 ^ 48, false, (c + a) / 2 ^ 48, false, false⟩
  else if oneshot then ⟨m, true, (c + d) / 2 ^ 48, true, true⟩
  else if period then
    let r := skipCycles m (a - d)
    { r with ovf := r.ovf + (c + d) / 2 ^ 48, mtch := true }
  else ⟨(c + a) % 2 ^ 48, (c + a) % 2 ^ 48 == m, (c + a) / 2 ^ 48, true, false⟩

/-- `a` ticks added to a timer at once. -/
def skipTicks (period oneshot : Bool) (m c : Nat) (atMatch : Bool) (a : Nat) : Skip :=
  if a = 0 then ⟨c, atMatch, 0, false, false⟩
  else if period && atMatch then
    (if m = 0 then (if oneshot then ⟨0, true, 1, true, true⟩ else ⟨0, true, a, true, false⟩)
     else
       let r := skipFrom period oneshot m 0 (a - 1)
       { r with ovf := r.ovf + 1 })
  else skipFrom period oneshot m c a

/-- The ticks that `n` cycles of the 32.768 kHz clock owe timer `k`; `prev` is the overflows of timer k − 1 (R393). -/
def State.owedTicks (s : State) (k : TmrIx) (n prev : Nat) : Nat :=
  let pre := s.get (F.TMR_CFG_PRE k.val) + 1
  match s.tmrSrc k with
  | 0 => n * 40000000 / (32768 * pre)
  | 1 => n / pre
  | 3 => if k.val % 2 = 1 then prev else 0
  | _ => 0

/-- Catch-up of one timer: the state and its overflows. -/
def State.catchUpOne (s : State) (k : TmrIx) (n prev : Nat) : State × Nat :=
  let t := s.tmrAt k
  if t.run then
    let r := skipTicks (s.flag (F.TMR_CFG_PERIOD k.val)) (s.flag (F.TMR_CFG_ONESHOT k.val)) t.cmp.toNat t.count.toNat
      t.atMatch (s.owedTicks k n prev)
    let s1 := s.setTmr k { t with edges := 0, count := BitVec.ofNat 48 r.count, atMatch := r.atMatch, run := !r.stop }
    let s2 := if r.mtch then s1.raise (F.TMR_STAT_MATCH k.val) else s1
    let s3 := if r.ovf = 0 then s2 else s2.raise (F.TMR_STAT_OVF k.val)
    let p0 := t.pin
    let p1 := if r.ovf = 0 then p0 else pinAction (s.get (F.TMR_CFG_OACT k.val)) p0
    let p2 := if r.mtch then pinAction (s.get (F.TMR_CFG_MACT k.val)) p1 else p1
    (if s.flag (F.TMR_CFG_PINOUT k.val) then s3.setTmr k { s3.tmrAt k with pin := p2 } else s3, r.ovf)
  else (s, 0)

/-- Sleep catch-up over `n` cycles of the 32.768 kHz clock (R393). -/
def State.catchUp (s : State) (n : Nat) : State :=
  ((List.finRange 16).foldl (fun (x : State × Nat) k => x.1.catchUpOne k n x.2) (s, 0)).1

end Sys2Proof.Machine
end

