-- ==== Sys2Proof/Machine/Boundary.lean ====
section
/-! DEFINITION. Slot and superframe boundaries (04 R114 to R118). -/

namespace Sys2Proof.Machine

/-- The boundary actions that precede the scheduler's decision, at the start of slot 0 (R118; 09 R305 and 10 R350 read the
boundary's values once the commit is made; 12 R390 captures). -/
def State.superframe (s : State) (dt : Nat) : State :=
  let c := s.boundaryCommit
  let s1 := if c.2 then c.1.startQuiet else { c.1 with sfm := { c.1.sfm with quiet := false } }
  (((s1.countWithheld c.2).loadChannels.addCredits.sleepSweep).noteBoundary).boundaryCaptures.ptpCapture dt

/-- Everything that happens at a slot boundary once ASN has its new value. A decided margin plan commits after the actions of
R118 (14 R456). -/
def State.slotActions (s : State) (dt : Nat) : State :=
  let s1 := { s with fdr := { s.fdr with realign := false } }
  if s1.sfm.asn.toNat % 128 = 0 then ((s1.superframe dt).decideSlot).commitPlan else s1.decideSlot

/-- Slots stop at the end of a slot (R115), and the feeder's frame clock runs by REFCLK alone (11 R363). A quiet superframe in progress ends
there (DESIGN CHOICE, log entry 121), and a beacon noted as not sent counts, its superframe not being quiet (log entry 145). -/
def State.stopSlots (s : State) : State :=
  let s0 := s.endSlot.countWithheld false
  let s1 := { s0 with sfm := { s0.sfm with stopPend := false, quiet := false, slotLen := 80000 }
                      fdr := { s0.fdr with realign := false } }.shiftTimes 80000
  ((s1.lower (F.SYS_STAGE_STAT_QUIET 0)).lower (F.SYS_STAGE_STAT_QUIET 1)).lower F.SFM_STAT_RUNNING

/-- SLOT_BOUNDARY (R114, R115): a slot ends. A stop that is due takes the boundary's place, and ends a quiet superframe (DESIGN CHOICE,
log entry 121). -/
def execSlotBoundary (dt : Nat) (s : State) : Out :=
  .next (if !s.running then s
  else if s.sfm.stopPend then s.stopSlots.commitPlan
  else (((s.endSlot.startSlot (s.sfm.asn.toNat + 1)).shiftTimes 80000).pruneMirror).slotActions dt)

/-- The beacons of slots 0 that begin before the first decision can reach them are not sent (R125). -/
def State.missedBeacons (s : State) : State :=
  s.each [s.slotAt 0, s.slotAt 1] (fun s x => if x % 128 = 0 ∧ s.flagA F.SFM_BCN_EN then s.skipBeacon x else s)

/-- FIRST_SLOT_START (R115): after RUN = 1, and after a commit that is still in progress, slot ASNSET starts, or on a part that
has taken over a primary's time the slot after that of its BEAT (09 R302). Slots stood still for `gap` units of 0.125 µs; noise
measured meanwhile belongs to no superframe (03 R110). -/
def execFirstSlotStart (dt gap : Nat) (s : State) : Out :=
  .next (if s.running || !s.sfm.startPend || s.flag (F.SYS_STAGE_CTL_ARM 0) || s.flag (F.SYS_STAGE_CTL_ARM 1) then s
  else
    let asn := match s.sfm.adopt with
      | some n => n
      | none => s.get F.SFM_ASNSET_LO_SET_L + s.get F.SFM_ASNSET_HI_SET_H * 2 ^ 32
    let s1 := { s with sfm := { s.sfm with startPend := false, adopt := none } }.raise F.SFM_STAT_RUNNING
    let s2 := (((s1.endPause gap).startSlot asn).shiftTimes (gap : Int)).spendNoise.applyHeld
    (s2.slotActions dt).missedBeacons)

end Sys2Proof.Machine
end

