-- ==== Sys2Proof/Machine/Rtc.lean ====
section
/-! DEFINITION. The real-time clock and calendar (12 R394 to R400). -/

namespace Sys2Proof.Machine

/-- The days of a month (R397). -/
def monthLength (month year : Nat) : Nat :=
  if month = 4 ∨ month = 6 ∨ month = 9 ∨ month = 11 then 30
  else if month = 2 then (if year % 4 = 0 ∧ (year % 100 ≠ 0 ∨ year % 400 = 0) then 29 else 28)
  else 31

/-- The midnight rollover (R397). -/
def State.midnight (s : State) : State :=
  let day := s.get F.RTC_DATE_DAY
  let month := s.get F.RTC_DATE_MONTH
  let year := s.get F.RTC_DATE_YEAR
  let wday := s.get F.RTC_DATE_WDAY
  let s1 := if monthLength month year ≤ day then
      (if 12 ≤ month then ((s.put F.RTC_DATE_DAY 1).put F.RTC_DATE_MONTH 1).put F.RTC_DATE_YEAR ((year + 1) % 16384)
       else (s.put F.RTC_DATE_DAY 1).put F.RTC_DATE_MONTH (month + 1))
    else s.put F.RTC_DATE_DAY (day + 1)
  s1.put F.RTC_DATE_WDAY (if 6 ≤ wday then 0 else wday + 1)

/-- The seconds at a tick: an ordinary one, with the rollover at midnight (R394). -/
def State.plainSecond (s : State) : State :=
  let sod := s.get F.RTC_TIME_SOD
  if 86399 ≤ sod then (s.put F.RTC_TIME_SOD 0).midnight else s.put F.RTC_TIME_SOD (sod + 1)

/-- The seconds at a tick at which a summer-time command acts (R398): `add` for DSTADD. -/
def State.summerSecond (s : State) (add : Bool) : State :=
  let sod := s.get F.RTC_TIME_SOD
  let next : Int := if add then sod + 3601 else (sod : Int) - 3599
  if 0 ≤ next ∧ next ≤ 86399 then (s.put F.RTC_TIME_SOD next.toNat).putB F.RTC_STAT_DST add
  else s.plainSecond.raise F.RTC_STAT_DSTREF

/-- ALARM sets when the time matches, and signals the wake source (R399). -/
def State.checkAlarm (s : State) : State :=
  if s.flag F.RTC_CTL_ALMEN ∧ s.get F.RTC_TIME_SOD = s.get F.RTC_ALARM_SOD ∧ s.get F.RTC_ALARM_SOD ≤ 86399 ∧
      (!s.flag F.RTC_ALARM_DAYEN ∨ s.get F.RTC_DATE_DAY = s.get F.RTC_ALARM_DAY) then
    (s.raise F.RTC_STAT_ALARM).signalWake 2
  else s

/-- One second ticks (R394, R397 to R399). -/
def State.secondTicks (s : State) : State :=
  let s1 := { s with rtcDst := none }
  ((match s.rtcDst with
    | some add => s1.summerSecond add
    | none => s1.plainSecond).checkAlarm).pulse 14

/-! ## The crystal's cycles (R394) -/

/-- `n` of the cycles to come fall in the 2²⁰ in progress, whose first `p` are then over: how many of those are trimmed, of `m` in the
whole. The spec does not say which cycles are: a free value within what it leaves possible, of a TRIM written too late for all of them as
many as still come (log entry 89). -/
def State.trimmedBy (s : State) (m p n : Nat) : Nat × State :=
  let most := s.trim.done + n
  let lo := min most (max s.trim.done (m - (2 ^ 20 - p)))
  let d := s.draw 8
  (lo + d.1 % (min (max m s.trim.done) most - lo + 1), d.2)

/-- `n` crystal cycles pass: by how much SUB advances, with |TRIM| cycles trimmed in each 2²⁰. -/
def State.crystal (s : State) (n : Nat) : Nat × State :=
  let t := s.getS F.RTC_TRIM_TRIM
  let m := t.natAbs
  let p := s.trim.cycles + n
  let x : Nat × State :=
    if p < 2 ^ 20 then
      let k := s.trimmedBy m p n
      (k.1 - s.trim.done, { k.2 with trim := ⟨p, k.1⟩ })
    else
      let r := p % 2 ^ 20
      let k := ({ s with trim := {} } : State).trimmedBy m r r
      (min (m - s.trim.done) (2 ^ 20 - s.trim.cycles) + (p / 2 ^ 20 - 1) * m + k.1, { k.2 with trim := ⟨r, k.1⟩ })
  (if 0 ≤ t then n + x.1 else n - x.1, x.2)

/-- The seconds that tick while SUB comes to `n`. -/
def State.seconds : Nat → State → State
  | 0, s => s
  | k + 1, s => s.secondTicks.seconds k

/-- SECOND_TICK (R394, R395): `cycles` crystal cycles have passed since the clock was last brought forward; a second ticks at each wrap of
SUB. A halted clock does not count. -/
def execSecondTick (cycles : Nat) (s : State) : Out :=
  .next (if s.flag F.RTC_CTL_HALT then s
    else
      let x := ({ s with xtal := some true } : State).crystal cycles
      let n := s.get F.RTC_TIME_SUB + x.1
      (x.2.put F.RTC_TIME_SUB n).seconds (n / 32768))

/-- A running clock is brought forward to the present: a free number of crystal cycles, with no second ticking in them (log entry 9). With
the crystal stopped it stands (R400). -/
def State.rtcNow (s : State) : State :=
  if s.flag F.RTC_CTL_HALT || s.xtal == some false then s
  else
    let d := s.draw 15
    let x := d.2.crystal d.1
    let n := s.get F.RTC_TIME_SUB + x.1
    if n < 32768 then x.2.put F.RTC_TIME_SUB n else d.2

/-- OSCILLATOR_FAIL (R400): no crystal cycle within 1 ms while VMAIN is present. -/
def execOscillatorFail (s : State) : Out :=
  .next (if s.pwr.vmainLow then s else { s with xtal := some false }.raise F.RTC_STAT_OSCFAIL)

/-- A write of RTC_CTL reaches the always-on domain (R395, R398). A halt stops SUB where it stands; it goes on from there. -/
def State.rtcCtl (s : State) (v : Word) : State :=
  let add := bitAt v.toNat 3
  let sub := bitAt v.toNat 4
  let halted := s.flag F.RTC_CTL_HALT
  if (add && sub) || ((add || sub) && halted) then s.raise F.RTC_STAT_DSTREF
  else
    let s1 := (s.rtcNow.put F.RTC_CTL_HALT (bitsOf v.toNat 0 1)).put F.RTC_CTL_ALMEN (bitsOf v.toNat 1 1)
    if add then { s1 with rtcDst := some true }
    else if sub then { s1 with rtcDst := some false }
    else s1

/-- A write of RTC_TIME or RTC_DATE reaches the always-on domain (R395). -/
def State.rtcTime (s : State) (k : Nat) (v : Word) : State :=
  if s.flag F.RTC_CTL_HALT then s.setReg k v else s.raise F.RTC_STAT_WRREF

/-- What CLK_STAT reads as (R436): XTALOK follows the last sign of the crystal (log entry 90); before any it holds its reset value, 0 (00
R12). -/
def State.clkStatView (s : State) : Word :=
  BitVec.ofNat 32 (setBits (s.reg Reg.CLK_STAT).toNat 7 1 (bit01 (s.xtal == some true)))

/-- What RTC_TIME reads as: the clock brought forward. -/
def State.rtcTimeView (s : State) : Word × State := (s.rtcNow.reg Reg.RTC_TIME, s.rtcNow)

end Sys2Proof.Machine
end

