-- ==== Sys2Proof/Machine/SpiFrame.lean ====
section
/-! DEFINITION. The form of a host SPI transaction (10 R316 to R328): selects, modes, lengths, CRC words, STATUS, what a transaction
sends. -/

namespace Sys2Proof.Machine

/-! ## Selects (R319, R325 to R327) -/

/-- The bank and the requester code of a select (R320). -/
def selBank : Select → Nat
  | .s => 0
  | .n => 1

/-- The requester code of a select (R19). -/
def selReq (cs : Select) : Nat := 64 + selBank cs

/-- The other select. -/
def otherSel : Select → Select
  | .s => .n
  | .n => .s

/-- The port serves select `cs` now. -/
def State.serves (s : State) (cs : Select) : Bool := s.ready 2 && s.spi.sel == some cs

/-! ## Words (R317, R318, R321, R324) -/

/-- A field of HSP_CFG as the transaction under way began (R320). -/
def State.spiCfg (s : State) (f : Fld) : Nat := bitsOf s.spi.cfg.toNat f.lo f.width

/-- The transaction under way is in quad mode. -/
def State.spiQuad (s : State) : Bool := s.spiCfg (F.HSP_CFG_QUAD 0) == 1

/-- The mode that select `cs` works in: in quad mode no wait word acts as one (R319). -/
def State.spiMode (s : State) (cs : Select) : SpiMode :=
  let w := s.spiCfg (F.HSP_CFG_WAIT 0)
  ⟨selBank cs, if s.spiQuad then max 1 w else w, s.spiCfg (F.HSP_CFG_CRC 0) == 1, if s.spiQuad then 8 else 32⟩

/-- The bytes of words, most significant byte of each word first (R321). -/
def wordBytes (ws : List Word) : List Byte := ws.flatMap (fun w => (bytesLe 4 w.toNat).reverse)

/-- The CRC word over words (R321). -/
def crcWord (ws : List Word) : Word := BitVec.ofNat 32 (crc16Spi (wordBytes ws))

/-- OPCODE of a command word. -/
def cmdOp (cmd : Word) : Nat := bitsOf cmd.toNat 24 8

/-- The word count of a command word. -/
def cmdCount (cmd : Word) : Nat := bitsOf cmd.toNat 0 9

/-- The opcodes of R318. -/
def opListed (op : Nat) : Bool := op == 0x02 || op == 0x03 || op == 0x0B || op == 0x0C

/-- The word count gives the transaction a length (R317). -/
def countGood (cmd : Word) : Bool := decide (1 ≤ cmdCount cmd ∧ cmdCount cmd ≤ 256)

/-- A transaction that R318 refuses. -/
def badCommand (cmd addr : Word) : Bool :=
  !opListed (cmdOp cmd) || bitsOf cmd.toNat 9 15 != 0 || !countGood cmd || addr.toNat % 4 != 0

/-- The length of a transaction in clocks (R317). -/
def SpiMode.length (m : SpiMode) (rd : Bool) (n : Nat) : Nat :=
  m.clocks * (3 + n + m.waits + bit01 m.crc * (if rd then 2 else 1))

/-- The address of word `k` (R318). -/
def wordAddr (addr : Word) (fixed : Bool) (k : Nat) : Nat := if fixed then addr.toNat else (addr.toNat + 4 * k) % 2 ^ 32

/-- The STATUS word (R324). -/
def statusWord (done : Nat) (err crc late : Bool) : Word :=
  BitVec.ofNat 32 (pack [(28, 0xA), (16, done), (0, bit01 err), (1, bit01 crc), (2, bit01 late)])

/-- The WAIT words (R319). -/
def waitWords (m : SpiMode) : List Word := List.replicate m.waits 0xFFFFFFFF

/-- Select `cs` has sent words in a transaction of a length, unless the port was reset under it (R328). -/
def State.sentWords (s : State) (cs : Select) (len : Option Nat) (ws : List Word) : State :=
  if s.serves cs then { s with spi := { s.spi with clocks := len, out := ws } } else s

/-- A refused transaction (R318). -/
def State.refuseCommand (s : State) (m : SpiMode) (cmd : Word) : State :=
  let s1 := s.raise (F.HSP_STATUS_BADCMD m.bank)
  let len := if opListed (cmdOp cmd) && countGood cmd then some (m.length (decide (8 ≤ cmdOp cmd)) (cmdCount cmd)) else none
  { s1 with spi := { s1.spi with bad := true, clocks := len, out := [] } }

/-- A transaction has begun: the select is served and no transaction word has been taken since it was asserted. -/
def State.fresh (s : State) (cs : Select) : Bool := s.serves cs && s.spi.clocks.isNone && !s.spi.bad

/-- The select served is served no more, and stays asserted until it is released (R326; log entry 74). -/
def Spi.cutOff (p : Spi) : Spi :=
  match p.sel with
  | some cs => { collided := p.ignored.isSome, ignored := if p.ignored.isSome then none else some cs }
  | none => p

/-- What the reads of a transaction have given so far: the words sent, and for each of them whether its access failed. -/
structure SpiGot where
  words : List Word := []
  failed : List Bool := []
deriving DecidableEq, Repr

/-- A late word is sent as zeros (R323). -/
def SpiGot.sent (x : SpiGot) (late : List Bool) : List Word :=
  (x.words.zipIdx).map (fun w => if late.getD w.2 false then 0 else w.1)

/-- The accesses of a read transaction are done (R317, R323, R324): while its select is still asserted (`live`) the words go out and
STATUS after them. -/
def State.endRead (s : State) (m : SpiMode) (t : SpiRead) (live : Bool) (x : SpiGot) : State :=
  if live then
    let n := cmdCount t.cmd
    let ws := x.sent t.late
    let late := (t.late.take n).any id
    let good := ((x.failed.zipIdx).filter (fun f => !f.1 && !t.late.getD f.2 false)).length
    let s1 := if late && s.serves t.cs then s.raise (F.HSP_STATUS_LATE m.bank) else s
    s1.sentWords t.cs (some (m.length true n))
      (waitWords m ++ ws ++ (if m.crc then [crcWord ws] else []) ++ [statusWord good (x.failed.any id) false late])
  else s

/-- The accesses of a read transaction that are still to be made all fail: the flash has gone under them (14 R442, 01 R29). -/
def State.failRead (s : State) (w : SpiWait) : State :=
  let n := cmdCount w.t.cmd - w.words.length
  let s1 := s.portError (selReq w.t.cs) (wordAddr w.t.addr w.fixed w.words.length)
  s1.endRead w.m w.t w.live ⟨w.words ++ List.replicate n 0, w.failed ++ List.replicate n true⟩

/-- The reads that still wait for select `cs` are no longer sent: its transaction has ended (R323). -/
def State.orphanReads (s : State) (cs : Select) : State :=
  { s with flc := { s.flc with waits := s.flc.waits.map (FlashWait.unsent cs) } }

end Sys2Proof.Machine
end

