-- ==== Sys2Proof/Machine/Flash.lean ====
section
/-! DEFINITION. Flash, its commands and interruptions, the password, the calibration set and the logbook (14 R437 to
R453). -/

namespace Sys2Proof.Machine

/-! ## Results and checks (R439, R443) -/

/-- A host command ends with RESULT `r`: BUSY clears and source 7 pulses; a RESULT other than OK sets ERR. -/
def State.flashResult (s : State) (r : Nat) : State :=
  let s1 := { s with flc := { s.flc with op := none } }
  let s2 := (s1.put F.FLC_STAT_RESULT r).lower F.FLC_STAT_BUSY
  (if r = 1 then s2 else s2.raise F.FLC_STAT_ERR).pulse 7

/-- The protection bit of the region that holds `a` (R447). -/
def State.flashProtected (s : State) (a : Nat) : Bool := s.bit (Reg.FLC_PROT (a / 0x400000)) (a / 0x20000 % 32)

/-- The protection bit of the region that holds `a` becomes `b`. -/
def State.setProtected (s : State) (a : Nat) (b : Bool) : State := s.setBit (Reg.FLC_PROT (a / 0x400000)) (a / 0x20000 % 32) b

/-- A logbook sector (R437). -/
def logSector (a : Nat) : Bool := decide (2040 ≤ a / 4096 ∧ a / 4096 ≤ 2046)

/-- FLC_LEN in units: 0 acts as 256 (R458). -/
def State.flashUnits (s : State) : Nat := if s.get F.FLC_LEN_UNITS = 0 then 256 else s.get F.FLC_LEN_UNITS

/-- An operation that passed its checks is in progress until its result. -/
def State.startFlash (s : State) (op a : Nat) (data : List Byte) : State :=
  { s with flc := { s.flc with op := some ⟨op, a, data⟩ } }.raise F.FLC_STAT_BUSY

/-- The checks of PROG in order, and its start with the whole source read. -/
def State.checkProg (s : State) : State :=
  let a := s.get F.FLC_ADDR_OFFSET
  let src := s.get F.FLC_SRC_SRC
  let n := s.flashUnits
  if a % 16 ≠ 0 ∨ src % 16 ≠ 0 ∨ 4096 < a % 4096 + 16 * n ∨ logSector a then s.flashResult 6
  else if s.flashProtected a then s.flashResult 2
  else
    match s.moveRead (s.blockNS 21) 70 src (16 * n) with
    | (s1, .error _) => s1.flashResult 8
    | (s1, .ok bs) => s1.startFlash 1 a bs

/-- PROG starts (R439, R440). Its read of the source is the controller's own (01 R26). -/
def State.startProg (s : State) : State := s.ownAccess State.checkProg

/-- The new password's words as 64 bits: the four written; with more than four, which four count is a free value (log
entry 9). -/
def State.newPassword (s : State) : Nat × State :=
  let l := s.flc.newWords
  if l.length = 4 then (l.foldl (fun v w => v * 65536 + w.toNat) 0, s) else s.draw 64

/-- A command starts (R439). LOCK rewrites no row and ends at once. -/
def State.startCommand (s : State) (op : Nat) : State :=
  let a := s.get F.FLC_ADDR_OFFSET
  let unlocked := s.flag F.FLC_STAT_UNLOCKED
  match op with
  | 1 => s.startProg
  | 2 =>
    if logSector a then s.flashResult 6
    else if s.flashProtected a then s.flashResult 2
    else s.startFlash 2 (a / 4096 * 4096) []
  | 3 => s.startFlash 3 a []
  | 4 => if unlocked then s.startFlash 4 a [] else s.flashResult 7
  | 5 =>
    if !unlocked then s.flashResult 7
    else if s.flc.newWords.length < 4 then s.flashResult 6
    else
      let p := s.newPassword
      let s1 := p.2.startFlash 5 0 (bytesLe 8 p.1)
      { s1 with flc := { s1.flc with newWords := [] } }
  | 6 => (s.lower F.FLC_STAT_UNLOCKED).flashResult 1
  | 7 => if s.bit (Reg.FLC_PROT 1) 31 then s.flashResult 2 else s.startFlash 7 0x7F8000 []
  | _ => s.flashResult 6

/-- A write of FLC_CMD (R443): refused while a command is in progress; during a logbook append it waits for that to end. -/
def State.flashCommand (s : State) (op : Nat) : State :=
  if s.flag F.FLC_STAT_BUSY then s.raise F.FLC_STAT_REFUSED
  else if s.flc.op.isSome then { s with flc := { s.flc with queued := some op } }.raise F.FLC_STAT_BUSY
  else s.startCommand op

/-! ## What an operation does (R440, R441, R447, R449, R453) -/

/-- `n` units from `a` no longer have bits in error. -/
def State.dropEcc (s : State) (a n : Nat) : State :=
  { s with flc := { s.flc with ecc := s.flc.ecc.filter (fun u => !decide (a / 16 ≤ u.1 ∧ u.1 < a / 16 + n)) } }

/-- A unit reads as all ones. -/
def State.unitErased (s : State) (a : Nat) : Bool := (s.bytes a 16).all (· == 0xFF)

/-- A sector is erased. -/
def State.eraseSector (s : State) (a : Nat) : State := (s.wipe a (a + 4096)).dropEcc a 256

/-- A unit is programmed. -/
def State.writeUnit (s : State) (a : Nat) (bs : List Byte) : State := (s.dropEcc a 1).putBytes a bs

/-- The data of PROG cut into units. -/
def unitsOf (data : List Byte) : List (List Byte) :=
  (List.range (data.length / 16)).map (fun i => (data.drop (16 * i)).take 16)

/-- PROG unit by unit with the pulses each takes (a unit without a count takes one), and the RESULT (R440). A unit that fails
is left with undefined contents (log entry 9). -/
def State.progUnits (s : State) : Nat → List (List Byte) → List Nat → State × Nat
  | _, [], _ => (s, 1)
  | a, u :: us, ps =>
    if !s.unitErased a then (s, 3)
    else
      let p := max 1 (ps.headD 1)
      if 8 < p then ((s.scramble a 16).notePulses 1 8, 4)
      else ((s.writeUnit a u).notePulses 1 p).progUnits (a + 16) us ps.tail

/-- The address of record `i` of the ring. -/
def logAddr (i : Nat) : Nat := 0x7F8000 + 16 * i

/-- A logbook append has ended (R453): the record stands at the head, its sector erased first when it is the first of that sector. A
command that waited starts (R443). -/
def State.appended (s : State) (o : FlcOp) : State :=
  let i := s.flc.head
  let s1 := (if i % 256 = 0 then s.eraseSector (logAddr i) else s).writeUnit (logAddr i) o.data
  let s2 := { s1 with flc := { s1.flc with op := none, queued := none, head := (i + 1) % 1792 } }
  let s3 := (s2.put F.FLC_LOGSTAT_SEQ (s.get F.FLC_LOGSTAT_SEQ + 1)).lower F.FLC_STAT_LOGBUSY
  match s.flc.queued with
  | some op => s3.startCommand op
  | none => s3

/-- The operation in progress ends, after `pulses`: the pulses of each unit of a PROG, or of the erase (R440, R441, R447, R449, R453). -/
def State.flashEnds (s : State) (pulses : List Nat) : State :=
  match s.flc.op with
  | none => s
  | some o =>
    match o.op with
    | 1 =>
      let x := s.progUnits o.addr (unitsOf o.data) pulses
      x.1.flashResult x.2
    | 2 => if 500 < pulses.headD 1 then (s.scramble o.addr 4096).flashResult 5 else (s.eraseSector o.addr).flashResult 1
    | 3 => (s.setProtected o.addr true).flashResult 1
    | 4 => (s.setProtected o.addr false).flashResult 1
    | 5 => { s with flc := { s.flc with pwd := BitVec.ofNat 64 (ofBytesLe o.data) } }.flashResult 1
    | 15 => s.appended o
    | _ =>
      let s1 := s.each (List.range 7) (fun s k => s.eraseSector (0x7F8000 + 4096 * k))
      let s2 := { s1 with flc := { s1.flc with head := 0 } }
      (s2.put F.FLC_LOGSTAT_SEQ 0).flashResult 1

/-! ## Interruptions (R444 to R446) -/

/-- How many units of an interrupted PROG are whole: one of those it can have reached, a free value (log entry 9). -/
def State.reachedUnit (s : State) (o : FlcOp) : Nat × State :=
  let us := unitsOf o.data
  let full := ((List.range us.length).takeWhile (fun i => s.unitErased (o.addr + 16 * i))).length
  let d := s.draw 8
  (d.1 % max 1 (min us.length (full + 1)), d.2)

/-- The state an abandoned operation leaves, with the sector and the unit that FLC_ABORT names. The pulses that PROG had applied count
(R440): one to eight a whole unit and at most eight of the next, a free value (log entry 9). -/
def State.abandonedState (s : State) (o : FlcOp) : State × Nat × Nat :=
  match o.op with
  | 1 =>
    let k := s.reachedUnit o
    let d := k.2.draw 11
    let s0 := d.2.notePulses k.1 (k.1 + d.1 % (7 * k.1 + 9))
    let s1 := s0.each ((List.range k.1).zip (unitsOf o.data)) (fun s x => s.writeUnit (o.addr + 16 * x.1) x.2)
    (if s1.unitErased (o.addr + 16 * k.1) then s1.scramble (o.addr + 16 * k.1) 16 else s1, o.addr / 4096,
      o.addr % 4096 / 16 + k.1)
  | 2 => (s.scramble o.addr 4096, o.addr / 4096, 0)
  | 15 => (s.scramble o.addr (if o.addr % 4096 = 0 then 4096 else 16), o.addr / 4096, 0)
  | 7 =>
    let d := s.draw 3
    (d.2.scramble 0x7F8000 0x7000, 2040 + d.1 % 7, 0)
  | 5 =>
    let d := s.draw 1
    let x := d.2.draw 11
    (if d.1 = 1 then { x.2 with flc := { x.2.flc with pwd := BitVec.ofNat 64 (ofBytesLe o.data) } } else x.2, x.1, 0)
  | _ =>
    let d := s.draw 1
    (d.2.setProtected o.addr (d.1 == 1), o.addr / 4096, 0)

/-- The operation in progress is abandoned for `cause`, and FLC_ABORT records it; a command that waited for an append never starts. -/
def State.abandonFlash (s : State) (cause : Nat) : State :=
  match s.flc.op with
  | none => s
  | some o =>
    let x := s.abandonedState o
    let s1 := ({ x.1 with flc := { x.1.flc with op := none, queued := none } }.lower F.FLC_STAT_BUSY).lower F.FLC_STAT_LOGBUSY
    s1.record F.FLC_ABORT_VALID F.FLC_ABORT_OVF (fun s =>
      (((s.put F.FLC_ABORT_CAUSE cause).put F.FLC_ABORT_OP o.op).put F.FLC_ABORT_SECTOR x.2.1).put F.FLC_ABORT_UNIT x.2.2)

/-- A read that waits fails: block 21 is reset (01 R29). A payload on its way to the peer reads as zeros. -/
def State.failWait (s : State) (w : FlashWait) : State :=
  match w with
  | .word r a _ => { s.portError r.val a.toNat with data := 0, err := true }
  | .spi x => s.failRead x
  | .mgb late out _ =>
    let s1 := s.portError 66 s.mgb.ptr.toNat
    { s1 with mgb := { s1.mgb with ptr := s1.mgb.ptr + BitVec.ofNat 32 (4 * late.length)
                                   out := out ++ List.replicate (4 * late.length) 0 } }
  | .request => s.resumeLater

/-- What a reset of block 21 leaves beside its registers: the password, the bits in error and the head of the logbook stay. Reads that
wait fail. -/
def State.resetFlash (s0 : State) : State :=
  let s := s0.each s0.flc.waits State.failWait
  { s with flc := { pwd := s.flc.pwd, ecc := s.flc.ecc, head := s.flc.head, mismatches := s.flc.mismatches } }

/-! ## The password (R448, R449) -/

/-- A write of FLC_PWDIN. -/
def State.passwordWord (s : State) (w : BitVec 16) : State :=
  if s.flag F.FLC_STAT_LOCKOUT then s
  else if s.flag F.FLC_STAT_UNLOCKED then
    if s.flc.newWords.length < 5 then { s with flc := { s.flc with newWords := s.flc.newWords ++ [w] } } else s
  else
    let l := s.flc.words ++ [w]
    if l.length < 4 then { s with flc := { s.flc with words := l } }
    else if l.foldl (fun v x => v * 65536 + x.toNat) 0 = s.flc.pwd.toNat then
      { s with flc := { s.flc with words := [], newWords := [], mismatches := 0 } }.raise F.FLC_STAT_UNLOCKED
    else
      let m := s.flc.mismatches + 1
      let s1 := { s with flc := { s.flc with words := [], mismatches := m } }
      if 4 ≤ m then s1.raise F.FLC_STAT_LOCKOUT else s1

/-! ## The logbook (R452, R453) -/

/-- LOGBOOK_APPEND (R452, R453): the append of the oldest waiting record takes the flash. -/
def execLogbookAppend (s : State) : Out :=
  .next (match s.flc.log, s.flc.op with
  | r :: t, none =>
    if s.ready 21 && s.awake then
      let time := s.rtcTimeView
      let bs := bytesLe 4 (pack [(0, s.get F.FLC_LOGSTAT_SEQ), (24, r.code)]) ++ bytesLe 4 (s.reg Reg.RTC_DATE).toNat ++
        bytesLe 4 time.1.toNat ++ bytesLe 4 r.detail.toNat
      { time.2 with flc := { time.2.flc with log := t, op := some ⟨15, logAddr s.flc.head, bs⟩ } }.raise F.FLC_STAT_LOGBUSY
    else s
  | _, _ => s)

/-- SEQ of the record at place `i`. -/
def State.logSeq (s : State) (i : Nat) : Nat := ofBytesLe (s.bytes (logAddr (i % 1792)) 3)

/-- Priming finds the head (R453): the place after the last record that follows its predecessor in SEQ and is followed by
none; with no such record the logbook is empty. -/
def State.findHead (s : State) : State :=
  let follows (i : Nat) : Bool := s.logSeq (i + 1) == (s.logSeq i + 1) % 2 ^ 24
  match ((List.range 1792).filter (fun i => follows (i + 1791) && !follows i)).getLast? with
  | some i =>
    { s with flc := { s.flc with head := (i + 1) % 1792 } }.put F.FLC_LOGSTAT_SEQ (s.logSeq i + 1)
  | none => { s with flc := { s.flc with head := 0 } }.put F.FLC_LOGSTAT_SEQ 0

/-! ## The calibration set (R450, R451) -/

/-- Where the calibration set holds the C fields of a register, and the baseline of the sounding that AGE_SNDk reports: pairs of offset
and register. -/
def calLayout : List (Nat × Nat) :=
  [(0x20, Reg.RXC_TRIM 0), (0x24, Reg.RXC_TRIM 1)] ++ (List.range 8).map (fun k => (0x40 + 4 * k, Reg.FDR_TRIM k)) ++
    (List.range 4).map (fun n => (0x80 + 4 * n, Reg.PWR_OP n)) ++ (List.range 5).map (fun k => (0x90 + 4 * k, Reg.PWR_BIAS k)) ++
    [(0xA4, Reg.SYN_VCOLIM), (0xA8, Reg.FLC_TIMING)] ++ (List.range 24).map (fun k => (0xC0 + 4 * k, Reg.AGE_SND k)) ++
    (List.range 128).map (fun i => (0x200 + 0x100 * (i / 64) + 4 * (i % 64), Reg.TXP_PTAB (i / 64) (i % 64)))

/-- The bits of a register that the calibration set loads. -/
def calMask (k : Nat) : Nat := match rowAt k with | some r => r.cal | none => 0

/-- The bits of the set's word for a register that are kept: its C fields, and a sounding's baseline laid out as DEG. -/
def keptMask (k : Nat) : Nat := if Reg.AGE_SND 0 ≤ k ∧ k ≤ Reg.AGE_SND 23 then 0xFFFF else calMask k

/-- The word of sector 2,047 at `off`. -/
def State.calWord (s : State) (off : Nat) : Word := s.word (0x7FF000 + off)

/-- CAL_STAT.CAUSE for the set in sector 2,047 once it has been read: 0 when it is accepted. -/
def State.calCause (s : State) : Nat :=
  if s.calWord 0 ≠ 0xCA1B0048 then 1
  else if s.calWord 8 ≠ s.reg Reg.SYS_UID_LO ∨ s.calWord 12 ≠ s.reg Reg.SYS_UID_HI then 2
  else if (s.calWord 0x7FC).toNat ≠ crc32 (s.bytes 0x7FF000 0x7FC) then 3
  else 0

/-- The registers under the keys of block `i` with C fields take what priming accepted (R12, R451). -/
def State.restoreCal (s : State) (p : Nat → Bool) : State :=
  s.each ((calLayout.map Prod.snd).filter p) (fun s k => s.setReg k (mergeBits (calMask k) (s.reg k) (s.calReg k)))

/-- The calibration copies are loaded from the set (accepted) or the stated defaults. -/
def State.loadCal (s : State) (cause : Nat) : State :=
  let c := if cause = 0 then
      calLayout.foldl (fun m x =>
        AMap.put resetVal m x.2 (mergeBits (keptMask x.2) (resetVal x.2) (s.calWord x.1))) []
    else []
  { s with cal := c }.restoreCal (fun _ => true)

/-- CALIBRATION_SET_LOAD (R438, R450): during priming, once the synthesisers are locked, the NM48 reads the set,
and the engine core goes to its calibrated point (R412). -/
def execCalibrationSetLoad (s : State) : Out :=
  .next (match s.pwr.priming with
  | some p =>
    if p.refLocked && !p.calLoaded then
      let r := s.eccReads 0x7FF000 4096
      let cause := if r.2 then s.calCause else 4
      let s1 := { r.1.loadCal cause with pwr := { s.pwr with priming := some { p with calLoaded := true } } }
      let s2 := (s1.put F.CAL_STAT_CAUSE cause).findHead.primePoint
      if cause = 0 then s2 else (s2.raise F.CAL_STAT_FLAG).log 1 cause
    else s
  | none => s)

end Sys2Proof.Machine
end

