-- ==== Sys2Proof/Machine/Feeder.lean ====
section
/-! DEFINITION. The feeder's measurement channels and ring, the contactors and the general-purpose pins (11). -/

namespace Sys2Proof.Machine

/-! ## Samples (R354 to R356) -/

/-- Positive full scale (R354). -/
def fullScale : Int := 0x7FFFFF

/-- Channel `k`'s input at its gain, after the gain trim (R354, R355): `x` stands in 1/32 of the code that it gives at a gain of 1. To which
side the result is cut is a free value (log entry 9). -/
def State.gained (s : State) (k : Nat) (x : Int) : Int × State :=
  s.mean (x * 2 ^ min 5 (s.get (F.FDR_CHCFG_GAIN k)) * (2 ^ 20 + s.getS (F.FDR_TRIM_GTRIM k))) (2 ^ 25)

/-- The taps of the fractional-delay interpolation for PTRIM = `p`, newest sample first, in 2^-16 (R355): the manual leaves all but two of
them open, and those two make it pass DC and shift by `p` / 256 of a sample period (log entry 40). -/
def phaseTaps (p : Int) : List Int :=
  let rest := (List.range 14).map (fun j => Config.phaseTap p (j + 2) % 2 ^ 17 - 2 ^ 16)
  let moment := ((rest.zipIdx).map (fun c => c.1 * (c.2 + 2 : Int))).sum
  let one := -(256 * p) - moment
  (2 ^ 16 - one - rest.sum) :: one :: rest

/-- The phase trim (R355): the channel as it stood PTRIM / 256 of a sample period later. `past` are its samples, newest first. The first
fifteen samples after EN rises give free values (log entry 40). -/
def State.phased (s : State) (k : Nat) (past : List Int) : Int × State :=
  let p := s.getS (F.FDR_TRIM_PTRIM k)
  if p = 0 then (past.headD 0, s)
  else if past.length = 16 then s.mean ((List.zipWith (fun c x => c * x) (phaseTaps p) past).sum) (2 ^ 16)
  else
    let d := s.draw 26
    (toSigned 26 d.1, d.2)

/-- 2 pi times the corner of an HPF code (0.25, 1 and 4 Hz) over the sample rate of 8 kHz, in 2^-32 (R354, R355). -/
def cornerStep (h : Nat) : Nat :=
  match h with
  | 1 => 843315
  | 2 => 3373259
  | _ => 13493038

/-- The pole of the first-order high-pass filter of an HPF code in 2^-32, between `1 - w` and `1 / (1 + w)` for the corner's step `w`
(R355; log entry 40). -/
def highPassPole (h : Nat) : Nat :=
  let lo := 2 ^ 32 - cornerStep h
  lo + Config.highPassPole h % (2 ^ 64 / (2 ^ 32 + cornerStep h) - lo + 1)

/-- The gain of that filter at the upper end of the band in 2^-32, between its pole and 1 (log entry 40). -/
def highPassGain (h : Nat) : Nat := highPassPole h + Config.highPassGain h % (2 ^ 32 - highPassPole h + 1)

/-- DC removal (R355): off, or the first-order high-pass filter of the corner that HPF selects; its output in 2^-16 of a code, within one
code of pole times last output plus gain times the input's change (log entry 40). -/
def State.dcFree (s : State) (k : Nat) (c : FdrChan) (x : Int) : Int × State :=
  let h := s.get (F.FDR_CHCFG_HPF k)
  if h = 0 then (65536 * x, s)
  else
    let d := s.draw 17
    ((highPassPole h * c.hpOut + highPassGain h * (65536 * (x - c.hpIn))) / 2 ^ 32 + d.1 - 65536, d.2)

/-- Channel `k`'s filters become `c`. -/
def State.setChan (s : State) (k : Fin 8) (c : FdrChan) : State := { s with fdr := { s.fdr with chan := s.fdr.chan.set k c } }

/-- FDR_CHCFG of channel `k` was `old` and has been written: a change of GAIN or HPF makes the channel settle anew (R356). -/
def State.channelWritten (s : State) (k : Fin 8) (old : Word) : State :=
  let f (g : Fld) : Bool := bitsOf old.toNat g.lo g.width != s.get g
  if f (F.FDR_CHCFG_GAIN k.val) || f (F.FDR_CHCFG_HPF k.val) then
    s.setChan k { s.fdr.chan[k] with settle := 32, span := none }
  else s

/-- One of the 32 instants in which a channel settles after a change of GAIN or HPF (R356): its sample is a free value. With the last of
them the filter has settled: the DC it removes is the input's, within 32 spans of the levels that the last 16 instants took (log entry
40). -/
def State.settleSample (s : State) (c : FdrChan) (past : List Int) (x : Int) : Int × FdrChan × State :=
  let span := if 16 < c.settle then none else some (match c.span with
    | some (lo, hi) => (min lo x, max hi x)
    | none => (x, x))
  let y := s.draw 26
  let d := y.2.draw 32
  let dc := match span with
    | some (lo, hi) => lo - 32 * (hi - lo) + d.1 % (65 * (hi - lo) + 1)
    | none => x
  (toSigned 26 y.1, ⟨past, x, 65536 * (x - dc), c.settle - 1, if c.settle = 1 then none else span⟩, d.2)

/-- Channel `k`'s sample from its input: gain trim, phase trim, DC removal (R355), and the settling after a change (R356). -/
def State.trimSample (s : State) (k : Fin 8) (x : Int) : Int × State :=
  let g := s.gained k.val x
  let c := s.fdr.chan[k]
  let past := (g.1 :: c.past).take 16
  let p := g.2.phased k.val past
  if c.settle = 0 then
    let y := p.2.dcFree k.val c p.1
    (y.1 / 65536, y.2.setChan k { past := past, hpIn := p.1, hpOut := y.1 })
  else
    let y := p.2.settleSample c past p.1
    (y.1, y.2.2.setChan k y.2.1)

/-- The eight samples of an instant, each clamped to full scale, and the channels that were clamped. -/
def State.takeSamples (s : State) (xs : List Int) : List Nat × Nat × State :=
  (List.finRange 8).foldl (fun (acc : List Nat × Nat × State) k =>
    let r := acc.2.2.trimSample k (xs.getD k.val 0)
    let v := clampInt (-fullScale) fullScale r.1
    (acc.1 ++ [ofSigned 24 v], acc.2.1 + (if v = r.1 then 0 else 2 ^ k.val), r.2)) ([], 0, s)

/-- FRAME_INSTANT (R354, R358, R363, R364): the eight inputs of one instant, in 1/32 of a code at gain 1, `off` units of 0.125 µs into the
slot. An instant before a realigned frame clock's boundary only counts. -/
def execFrameInstant (xs : List Int) (off : BitVec 17) (s : State) : Out :=
  .next (if s.flag F.FDR_STAT_RUNNING then
    let q := s.fdr.seq
    let s0 := { s with fdr := { s.fdr with seq := (q + 1) % 65536 } }
    if s.fdr.realign then s0
    else
      let r := s0.takeSamples xs
      let s1 := r.2.2.setReg Reg.FDR_OVR (r.2.2.reg Reg.FDR_OVR ||| BitVec.ofNat 32 r.2.1)
      let s2 := { s1 with fdr := { s1.fdr with frames := s1.fdr.frames ++ [⟨q, r.1, BitVec.ofNat 8 r.2.1⟩] } }
      if q % 256 = 0 then
        ((s2.put F.FDR_TSEQ_SEQ q).setReg Reg.FDR_TS_LO (BitVec.ofNat 32 (pack [(17, s.sfm.asn.toNat % 2 ^ 15),
          (0, if s.running then off.toNat else 0)]))).setReg Reg.FDR_TS_HI (BitVec.ofNat 32 (s.sfm.asn.toNat / 2 ^ 15))
      else s2
  else s)

/-- Container `k` of a frame (R357). -/
def frameContainer (f : FdrFrame) (k : Nat) : List Byte :=
  let top := match k with
    | 0 => f.seq % 256
    | 1 => f.seq / 256
    | 2 => f.clamp.toNat
    | _ => 0
  bytesLe 3 (f.samples.getD k 0) ++ [BitVec.ofNat 8 top]

/-- FRAME_WRITE (R359 to R362): the oldest frame goes to the ring, is dropped when the ring is full, or stops the block when
its write fails. -/
def execFrameWrite (s : State) : Out :=
  .next (match s.fdr.frames with
  | f :: rest =>
    let s0 := { s with fdr := { s.fdr with frames := rest } }
    let w := s.get F.FDR_WIDX_IDX
    if (w + 1) % s.fdr.size = s.get F.FDR_RIDX_IDX then (s0.bump F.FDR_DROP_COUNT).raise F.FDR_STAT_OVF
    else
      let a := s.fdr.base + 32 * w
      let tail := (List.range 7).flatMap (fun k => frameContainer f (k + 1))
      let halt (t : State) : State :=
        ({ t with fdr := { t.fdr with frames := [] } }.raise F.FDR_STAT_HALT).lower F.FDR_STAT_RUNNING
      match s0.moveWrite (s.blockNS 16) 70 (a + 4) tail with
      | (s1, some _) => halt s1
      | (s1, none) =>
        match s1.moveWrite (s.blockNS 16) 70 a (frameContainer f 0) with
        | (s2, some _) => halt s2
        | (s2, none) =>
          let s3 := s2.put F.FDR_WIDX_IDX ((w + 1) % s.fdr.size)
          let n := 2 ^ s.get F.FDR_CTL_EVDIV
          if s.flag F.FDR_CTL_EVT ∧ f.seq % n = n - 1 then s3.fire 0x110 (s.get F.FDR_CTL_EVCH) else s3
  | [] => s)

/-- The ring length that FDR_RSIZE.FRAMES gives: the next lower power of two from 16 to 4,096. -/
def ringSize (n : Nat) : Nat :=
  if 4096 ≤ n then 4096 else if 2048 ≤ n then 2048 else if 1024 ≤ n then 1024 else if 512 ≤ n then 512
  else if 256 ≤ n then 256 else if 128 ≤ n then 128 else if 64 ≤ n then 64 else if 32 ≤ n then 32 else 16

/-- FDR_CTL was `old` and has been written (R358, R362, R363). -/
def State.feederCtlWritten (s : State) (old : Word) : State :=
  let rises := s.flag F.FDR_CTL_EN && !bitAt old.toNat 0
  let s1 := if rises then
      let f : Fdr := { seq := 0, base := (s.reg Reg.FDR_RBASE).toNat / 32 * 32, size := ringSize (s.get F.FDR_RSIZE_FRAMES)
                       realign := s.fdr.realign, chan := s.fdr.chan.map (fun c => { settle := c.settle }) }
      (({ s with fdr := f }.lower F.FDR_STAT_HALT).raise F.FDR_STAT_RUNNING).put F.FDR_WIDX_IDX 0
    else if s.flag F.FDR_CTL_EN then s
    else s.lower F.FDR_STAT_RUNNING
  if s.flag F.FDR_CTL_ALIGN && !bitAt old.toNat 1 && (s.running || s.sfm.startPend) then
    { s1 with fdr := { s1.fdr with realign := true } }
  else if s.flag F.FDR_CTL_ALIGN then s1
  else { s1 with fdr := { s1.fdr with realign := false } }

/-! ## Contactors (R365 to R371) -/

/-- A bit of one of the contactor registers. -/
def ctrBit (f : Fld) (k : Nat) : Fld := ⟨f.key, f.lo + k, 1⟩

/-- The fault code of channel `k` (R369). -/
def ctrCode (k : Nat) : Fld := ⟨Reg.CTR_FAULT, 3 * k, 3⟩

/-- Channel `k`'s match window starts (R369). -/
def State.startWindow (s : State) (k : Nat) : State :=
  let bit := BitVec.ofNat 8 (2 ^ k)
  { s with ctr := { s.ctr with window := s.ctr.window ||| bit, cleared := s.ctr.cleared &&& ~~~bit } }

/-- No match window of channel `k` runs. -/
def State.endWindow (s : State) (k : Nat) : State :=
  let bit := BitVec.ofNat 8 (2 ^ k)
  { s with ctr := { s.ctr with window := s.ctr.window &&& ~~~bit, cleared := s.ctr.cleared &&& ~~~bit } }

/-- Channel `k` is driven to `v` (R366, R367, R369): its hold ends, its dwell and its window start. -/
def State.drive (s : State) (k : Nat) (v : Bool) : State :=
  let s1 := (s.putB (ctrBit F.CTR_STAT_DRIVE k) v).lower (ctrBit F.CTR_STAT_HELD k)
  let s2 := s1.startWindow k
  { s2 with ctr := { s2.ctr with dwell := s2.ctr.dwell ||| BitVec.ofNat 8 (2 ^ k) } }

/-- A fault of channel `k` is recorded unless one stands (R369, R370). -/
def State.ctrFault (s : State) (k code : Nat) : State :=
  if s.get (ctrCode k) ≠ 0 ∨ !s.flag (ctrBit F.CTR_OE_OE k) then s
  else
    let s1 := (s.put (ctrCode k) code).log 7 (pack [(0, k), (8, code)])
    if s.flag F.CTR_CFG_FAULTOFF ∧ (code = 1 ∨ code = 3) then
      (s1.lower (ctrBit F.CTR_OUT_OUT k)).drive k false
    else s1

/-- Channel `k` is commanded on or off (R366, R367, R370). -/
def State.command (s : State) (k : Nat) (v : Bool) : State :=
  let code := s.get (ctrCode k)
  if v ∧ s.flag F.CTR_CFG_FAULTOFF ∧ (code = 1 ∨ code = 3) then s.raise F.CTR_STAT_REFUSED
  else
    let s1 := s.putB (ctrBit F.CTR_OUT_OUT k) v
    if s.flag (ctrBit F.CTR_STAT_DRIVE k) = v then s1.lower (ctrBit F.CTR_STAT_HELD k)
    else if bitAt s.ctr.dwell.toNat k ∧ s.get F.CTR_CFG_DWELL ≠ 0 then s1.raise (ctrBit F.CTR_STAT_HELD k)
    else s1.drive k v

/-- The channels of `mask` are commanded to the bits of `v`. -/
def State.commandAll (s : State) (mask v : Nat) : State :=
  s.each (List.range 8) (fun s k => if bitAt mask k then s.command k (bitAt v k) else s)

/-- DWELL_END (R367): DWELL × 10 ms have passed since the driven state changed; a held command is driven. -/
def execDwellEnd (k : Fin 8) (s : State) : Out :=
  .next (if bitAt s.ctr.dwell.toNat k.val then
    let s1 := { s with ctr := { s.ctr with dwell := s.ctr.dwell &&& ~~~BitVec.ofNat 8 (2 ^ k.val) } }
    if s1.flag (ctrBit F.CTR_STAT_HELD k.val) then s1.drive k.val (s1.flag (ctrBit F.CTR_OUT_OUT k.val)) else s1
  else s)

/-- FB of channel `k` becomes `fb` (R368); outside a window a change is checked (R369). -/
def State.newFeedback (s : State) (k : Nat) (fb : Bool) : State :=
  let f := ctrBit F.CTR_STAT_FB k
  let s1 := s.putB f fb
  let on := s.flag (ctrBit F.CTR_STAT_DRIVE k)
  if s.flag f = fb ∨ bitAt s.ctr.window.toNat k then s1
  else if on ∧ !fb then s1.ctrFault k 3
  else if !on ∧ fb then s1.ctrFault k 4
  else s1

/-- Debounced feedback of channel `k` (R369). A fault in the cycle of the write of CTR_FCLR before it is recorded, and the window that the
write started runs on (R371). -/
def State.debounced (s : State) (k : Nat) (fb atClear : Bool) : State :=
  if atClear && bitAt s.ctr.cleared.toNat k then ((s.endWindow k).newFeedback k fb).startWindow k
  else { s with ctr := { s.ctr with cleared := s.ctr.cleared &&& ~~~BitVec.ofNat 8 (2 ^ k) } }.newFeedback k fb

/-- FEEDBACK_CHANGE (R368, R369, R371): CFBk has been stable at a new level for DEB ms; `atClear` when that falls in the cycle of a write of
CTR_FCLR just before (DESIGN CHOICE, log entry 153). While balls are held the block's input does not change (13 R430). -/
def execFeedbackChange (k : Fin 8) (f : Feedback) (s : State) : Out :=
  let s1 := { s with pins := { s.pins with cfb := BitVec.ofNat 8 (setBits s.pins.cfb.toNat k.val 1 (bit01 f.level)) } }
  .next (if s.pwr.latch.isSome then s
    else if s.ready 17 then s1.debounced k.val (f.level != s.flag (ctrBit F.CTR_FBPOL_POL k.val)) f.atClear else s1)

/-- CTR_FBPOL has been written: FB follows (R368). -/
def State.polarityWritten (s : State) : State :=
  s.each (List.range 8) (fun s k =>
    s.newFeedback k (bitAt s.pins.cfb.toNat k != s.flag (ctrBit F.CTR_FBPOL_POL k)))

/-- MATCH_WINDOW_END (R369). -/
def execMatchWindowEnd (k : Fin 8) (s : State) : Out :=
  .next (if bitAt s.ctr.window.toNat k.val then
    let s1 := s.endWindow k.val
    let on := s.flag (ctrBit F.CTR_STAT_DRIVE k.val)
    let fb := s.flag (ctrBit F.CTR_STAT_FB k.val)
    if on ∧ !fb then s1.ctrFault k.val 1 else if !on ∧ fb then s1.ctrFault k.val 2 else s1
  else s)

/-- A write of CTR_FCLR clears channel `k`'s fault and starts its window (R371). -/
def State.clearFault (s : State) (k : Nat) : State :=
  let s1 := (s.put (ctrCode k) 0).startWindow k
  if bitAt s.ctr.window.toNat k then s1
  else { s1 with ctr := { s1.ctr with cleared := s1.ctr.cleared ||| BitVec.ofNat 8 (2 ^ k) } }

/-- A write of CTR_FCLR (R371). -/
def State.clearFaults (s : State) (v : Nat) : State :=
  s.each (List.range 8) (fun s k => if bitAt v k then s.clearFault k else s)

/-- Every enabled channel starts a new window at PAD_RELEASE (R369). -/
def State.restartWindows (s : State) : State :=
  s.each (List.range 8) (fun s k => if s.flag (ctrBit F.CTR_OE_OE k) then s.startWindow k else s)

/-! ## General-purpose pins (R372, R373) -/

/-- The pins' levels: an output pin carries its OUT bit, an input pin what the board gives it; held pins keep the levels
latched at the entry to sleep (13 R430). -/
def State.pinLevels (s : State) : Nat :=
  let dir := match s.pwr.latch with
    | some p => p.gpioDir.toNat
    | none => s.get F.GPIO_DIR_DIR
  let out := match s.pwr.latch with
    | some p => p.gpioOut.toNat
    | none => s.get F.GPIO_OUT_OUT
  let ins := match s.pwr.latch with
    | some p => p.gpioIn.toNat
    | none => s.pins.gpio.toNat
  (dir &&& out) ||| (ins &&& (dir ^^^ 0xFFFFFF))

/-- Edges between the levels `old` and the present ones are recorded, and each fires GPIO_EVT.EVCH when enabled (R373). -/
def State.noteEdges (s : State) (old : Nat) : State :=
  let now := s.pinLevels
  if s.ready 17 then
    s.each (List.range 24) (fun s p =>
      let rise := !bitAt old p && bitAt now p && s.bit Reg.GPIO_RISE p
      let fall := bitAt old p && !bitAt now p && s.bit Reg.GPIO_FALL p
      if rise || fall then
        let s1 := s.setBit Reg.GPIO_EDGE p true
        if s1.flag F.GPIO_EVT_EN then s1.fire 0x111 (s1.get F.GPIO_EVT_EVCH) else s1
      else s)
  else s

/-- A change of the pins' drive and the edges that follow from it. -/
def State.withEdges (s : State) (f : State → State) : State := (f s).noteEdges s.pinLevels

/-- GPIO_EDGE (R373): the board moves pin `p` to `level`. -/
def execGpioEdge (p : Fin 24) (level : Bool) (s : State) : Out :=
  .next (s.withEdges (fun s =>
    { s with pins := { s.pins with gpio := BitVec.ofNat 24 (setBits s.pins.gpio.toNat p.val 1 (bit01 level)) } }))

end Sys2Proof.Machine
end

