-- ==== Sys2Proof/Machine/Transmit.lean ====
section
/-! DEFINITION. The transmitter and the transmit synthesiser (06): payload read, hop and calibration cache, front-end balls,
ramp, launch, and the queued synthesiser commands. -/

namespace Sys2Proof.Machine

/-! ## The calibration cache (R207 to R209) -/

/-- The valid cache entry of a channel. -/
def State.synEntry (s : State) (khz : Nat) : Option Nat :=
  firstIdx 256 (fun k => s.flag (F.SYN_ENT_VALID k) && s.get (F.SYN_ENT_KHZ k) == khz)

/-- Entry `k` is used: it becomes most recently used (R207). -/
def State.useEntry (s : State) (k : Nat) : State :=
  { s with syn := { s.syn with lru := k :: s.syn.lru.filter (fun j => j != k) } }

/-- A calibration of `khz` at die temperature `temp` is stored: in the channel's entry, an empty one, or the least
recently used one (R207, R208). -/
def State.storeCal (s : State) (khz temp : Nat) : State :=
  let k := match s.synEntry khz with
    | some k => k
    | none =>
      match firstIdx 256 (fun k => !s.flag (F.SYN_ENT_VALID k)) with
      | some k => k
      | none => s.syn.lru.getLast?.getD 0
  (s.setReg (Reg.SYN_ENT k) (BitVec.ofNat 32 (pack [(31, 1), (20, temp), (0, khz)]))).useEntry k

/-- The entry of a channel is invalidated (R209, R210). -/
def State.dropCal (s : State) (khz : Nat) : State :=
  match s.synEntry khz with
  | some k =>
    let s1 := s.setReg (Reg.SYN_ENT k) 0
    { s1 with syn := { s1.syn with lru := s1.syn.lru.filter (fun j => j != k) } }
  | none => s

/-- The cache empties. -/
def State.dropAllCal (s : State) : State :=
  let s1 := s.each (List.range 256) (fun s k => s.setReg (Reg.SYN_ENT k) 0)
  { s1 with syn := { s1.syn with lru := [] } }

/-- The entry a hop to `khz` is served from, if it needs no calibration (R207, R208). -/
def State.synHit (s : State) (khz : Nat) : Option Nat :=
  match s.synEntry khz with
  | some k =>
    let d := s.getS F.TMP_DIE_TEMP - s.getS (F.SYN_ENT_TCAL k)
    if s.flag F.SYN_CTL_AUTO ∧ 8 < d.natAbs then none else some k
  | none => none

/-! ## Queued commands (R209) -/

/-- A write of SYN_CMD. A write while 16 commands are queued changes nothing but QFULL, whatever it holds, so that RANGE does not set
then; a channel out of range sets RANGE and queues nothing under every OP, also under OP = 3 and 0, which use no channel (R209, R212;
DEDUCED, log entry 134). -/
def State.synCommand (s : State) (op khz : Nat) : State :=
  if 16 ≤ s.syn.queue.length then s.raise F.SYN_ERR_QFULL
  else if khz < 750000 ∨ 960000 < khz then s.raise F.SYN_ERR_RANGE
  else if op = 0 then s
  else { s with syn := { s.syn with queue := s.syn.queue ++ [⟨op, khz⟩] } }

/-- QUEUED_COMMAND_START (R209): between launches the oldest command starts; an invalidation acts at once. -/
def execQueuedCommandStart (s : State) : Out :=
  .next (match s.syn.queue with
  | c :: rest =>
    if s.ready 11 && s.syn.running.isNone && s.tx.hop.isNone && s.tx.cur.isNone then
      let s1 := { s with syn := { s.syn with queue := rest } }
      if c.op = 1 then
        (({ s1 with syn := { s1.syn with running := some c } }).raise F.SYN_STAT_CALBUSY).lower F.SYN_STAT_LOCKED
      else if c.op = 2 then s1.dropCal c.khz
      else s1.dropAllCal
    else s
  | [] => s)

/-- QUEUED_CALIBRATION_END (R209): the calibration is stored with the die temperature. -/
def execQueuedCalibrationEnd (head : Headroom) (s : State) : Out :=
  .next (match s.syn.running with
  | some c =>
    let s1 := ({ s with syn := { s.syn with running := none } }).storeCal c.khz (s.get F.TMP_DIE_TEMP)
    ((s1.lower F.SYN_STAT_CALBUSY).raise F.SYN_STAT_LOCKED).noteHeadroom head
  | none => s)

/-! ## A launch (R198, R205, R206, R210, R491) -/

/-- The chain that a launch's port blanks (R77). -/
def portChain (d0 : Word) : Chain := if txPort d0 = 1 then .b else .a

/-- The FEM field of a launch's power entry (R206). -/
def State.femField (s : State) (l : Launch) : Nat := s.get (F.TXP_PTAB_FEM (powerBand l.khz) l.entry)

/-- The first launch whose payload is still to be read. -/
def State.unread (s : State) : Option Launch := s.sfm.launches.find? (fun l => !l.loaded)

/-- The launch with the earliest occupancy. -/
def earliestLaunch (ls : List Launch) : Option Launch :=
  ls.foldl (fun best l =>
    match best with
    | none => some l
    | some b => if l.occStart < b.occStart then some l else some b) none

/-- The nominal deviation of each symbol of a launch's frame (R202): Deep 2-GFSK has index 0.5, SUN 2-GFSK the index of HIDX. -/
def Launch.modulate (l : Launch) (frame : List Bool) : List Int :=
  (symbolLevels (txFourLevel l.d0 l.prof) frame).map
    (deviation (txFourLevel l.d0 l.prof) (!txDeep l.d0 && txHidx l.d0) (txSymRate l.d0 l.prof))

/-- PAYLOAD_READ_COMPLETE (R198, R491): the oldest decided launch that has no frame gets it. The read cannot complete while it has to
wait for the flash (14 R442). All bytes are read at its end, so that a write that lands before it is sent (DESIGN CHOICE, log entry
140). -/
def execPayloadReadComplete (s : State) : Out :=
  .next (match s.unread with
  | some l =>
    if s.flashHolds l.d1.toNat (txLen l.d0) then s else
    match s.moveRead (s.blockNS 11) 70 l.d1.toNat (txLen l.d0) with
    | (s1, .ok bs) =>
      let l1 := { l with loaded := true, frame := s1.buildFrame l bs
                         levels := symbolLevels (txFourLevel l.d0 l.prof) (s1.buildFrame l bs)
                         deviations := l.modulate (s1.buildFrame l bs) }
      { s1 with sfm := { s1.sfm with launches := s1.sfm.launches.map (fun x => if x = l then l1 else x) } }
    | (s1, .error _) =>
      (({ s1 with sfm := { s1.sfm with launches := s1.sfm.launches.erase l } }).badDesc l.desc 7).cancelLaunch l
  | none => s)

/-- The part transmits: SOLO or PRIMARY, or ESTRANGED with a launch under way (09 R283, R284). -/
def State.transmits (s : State) : Bool := s.ownsCistern || s.pairState == 5

/-- HOP_START (R205, R207, R208; 09 R283): on a part in SOLO or PRIMARY the transmit synthesiser starts its hop to the next launch and
looks up its channel; `head` is the headroom of the calibration a miss makes. PHASE stays 4 while the launch before it still ramps down,
and then shows 1 (DESIGN CHOICE, log entry 142). -/
def execHopStart (head : Headroom) (s : State) : Out :=
  .next (match earliestLaunch (s.sfm.launches.filter (fun l => l.loaded)) with
  | some l =>
    if s.tx.hop.isNone && s.syn.running.isNone && s.ownsCistern then
      let s1 := { s with sfm := { s.sfm with launches := s.sfm.launches.erase l } }
      let s2 := (if s1.tx.cur.isNone then s1.put F.TXP_STAT_PHASE 1 else s1).lower F.SYN_STAT_LOCKED
      match s2.synHit l.khz with
      | some k =>
        let s3 := { s2 with tx := { s2.tx with hop := some l, hopSwitched := false, hopCal := none } }
        (s3.bump F.SYN_HITS_COUNT).useEntry k
      | none =>
        let s3 := { s2 with tx := { s2.tx with hop := some l, hopSwitched := false
                                               hopCal := some (s2.get F.TMP_DIE_TEMP) } }
        ((s3.bump F.SYN_MISSES_COUNT).raise F.SYN_STAT_CALBUSY).noteHeadroom head
    else s
  | none => s)

/-- FEM_SWITCH (R205, R206): the FEM balls take the pattern of the launch that hops, also while the launch before it still ramps down or
FEMLAG runs (DESIGN CHOICE, log entry 141). -/
def execFemSwitch (s : State) : Out :=
  .next (match s.tx.hop with
  | some l => { s with tx := { s.tx with hopSwitched := true, femUse := some (s.femField l) } }
  | none => s)

/-- RAMP_UP (R205, R210, R77): at T − RAMP the launch that hopped radiates when the synthesiser is locked; its port's chain is
blanked. Without lock, or on a part that no longer transmits (09 R283), it is not made. -/
def execRampUp (locked : Bool) (s : State) : Out :=
  .next (match s.tx.hop, s.tx.cur with
  | some l, none =>
    let s1 := s.lower F.SYN_STAT_CALBUSY
    if !s.transmits then
      let s2 := { s1 with tx := { s1.tx with hop := none, hopSwitched := false, hopCal := none, femUse := none } }
      (s2.put F.TXP_STAT_PHASE 0).cancelLaunch l
    else if locked then
      let s2 := match s.tx.hopCal with
        | some t => s1.storeCal l.khz t
        | none => s1
      let s3 := { s2 with tx := { s2.tx with cur := some l, hop := none, hopSwitched := false, hopCal := none
                                             femUse := some (s.femField l) } }
      (((s3.raise F.SYN_STAT_LOCKED).put F.TXP_STAT_PHASE 2).bump F.TXP_LAUNCHES_COUNT).blankChain (portChain l.d0)
    else
      let s2 := { s1 with tx := { s1.tx with hop := none, hopSwitched := false, hopCal := none, femUse := none } }
      ((((s2.dropCal l.khz).raise F.SYN_ERR_LOCKFAIL).put F.SYN_ERRKHZ_KHZ l.khz).put F.TXP_STAT_PHASE 0).cancelLaunch l
  | _, _ => s)

/-- FIRST_PREAMBLE_SYMBOL (R205): at T the ramp is up. -/
def execFirstPreambleSymbol (s : State) : Out :=
  .next (if s.get F.TXP_STAT_PHASE = 2 then s.put F.TXP_STAT_PHASE 3 else s)

/-- LAST_SYMBOL (R127, R204, R205): the ramp-down begins, the detector reports, and the request's result SENT is posted. -/
def execLastSymbol (power : Byte) (s : State) : Out :=
  .next (match s.tx.cur with
  | some l =>
    if s.get F.TXP_STAT_PHASE = 3 then
      let s1 := ((s.put F.TXP_STAT_PHASE 4).put F.TXP_DET_INDEX l.entry).put F.TXP_DET_POWER power.toNat
      let s2 := s1.noteLaunch l.entry power.toInt
      match l.req with
      | some _ => (s2.post 1 l.slot l.desc).mirrorDone l.desc 1
      | none => s2
    else s
  | none => s)

/-- RAMP_DOWN_END (R205, R77, R211): `off` units of 0.125 µs into the current slot (after the last one while slots do not run), the
chain's blanking ends. The ramp-down of
a launch that a reset stopped ends likewise, and the FEM balls fall back to the idle pattern. -/
def execRampDownEnd (off : Nat) (s : State) : Out :=
  .next (match s.tx.cur with
  | some l =>
    if s.get F.TXP_STAT_PHASE = 4 ∨ s.tx.femHeld.isSome then
      let s1 := { s with tx := { s.tx with cur := none, femHeld := none } }
      (s1.put F.TXP_STAT_PHASE (if s1.tx.hop.isSome then 1 else 0)).unblankChain (portChain l.d0) (s.clockAt off)
    else s
  | none => s)

/-- FEM_RETURN (R205, R206): the FEM balls take the idle pattern, unless the next launch has already switched them. -/
def execFemReturn (s : State) : Out :=
  .next (if s.tx.cur.isNone && !s.tx.hopSwitched then { s with tx := { s.tx with femUse := none } } else s)

/-- The levels that the transmitter gives balls FEMA3 to FEMA0 and FEMB3 to FEMB0 (R206, R211). -/
def State.femLevels (s : State) : BitVec 4 × BitVec 4 :=
  match s.tx.femHeld with
  | some x => x
  | none =>
    let key := match s.tx.femUse with
      | some m => Reg.TXP_FEMTX m
      | none => Reg.TXP_FEMIDLE
    (BitVec.ofNat 4 (bitsOf (s.reg key).toNat 0 4), BitVec.ofNat 4 (bitsOf (s.reg key).toNat 4 4))

/-- A reset of the TXP/SYN block stops the transmitter (R211): decided launches are discarded without a result, their charges
stay; a launch that radiates ramps down with its FEM pattern held. Beacons that are not sent are counted (R125). The occupancies of the
launches stay reserved (DESIGN CHOICE, log entry 158); one stopped between its FEM switch and its ramp-up has no ramp-down, and the FEM
balls take the idle pattern at once (DESIGN CHOICE, log entry 159). -/
def State.resetTx (s : State) : State :=
  let onAir := s.get F.TXP_STAT_PHASE = 2 ∨ s.get F.TXP_STAT_PHASE = 3
  let lost := s.sfm.launches ++ s.tx.hop.toList ++ (if onAir then s.tx.cur.toList else [])
  let held := match s.tx.cur with
    | some _ => some s.femLevels
    | none => none
  let s1 := { s with syn := {}, sfm := { s.sfm with launches := [] }, tx := { cur := s.tx.cur, femHeld := held } }
  s1.each lost (fun s l => if l.req.isNone then s.skipBeacon l.slot else s)

end Sys2Proof.Machine
end

