-- ==== Sys2Proof/Machine/Balls.lean ====
section
/-! DEFINITION. The digital balls of the main domains: what each drives, and what pad hold keeps (13 R430 to R432, 15 R462, R467). -/

namespace Sys2Proof.Machine

/-- A ball that the part drives or pulls, or of whose input pad hold keeps a level (R462). The inputs RXC, RXCTL and RXD of a MAC stand as
one: none is ever driven, pulled or read apart. ADR_OUT, IRQ_S and IRQ_N are `pins.adrOut` and `hostLine`. -/
inductive BallName where
  | fem (b : Bool) (k : Fin 4)
  | ctr (k : Fin 8)
  | cfb (k : Fin 8)
  | gpio (k : Fin 24)
  | tio (k : TmrIx)
  | ethTxc (m : Fin 2)
  | ethTxctl (m : Fin 2)
  | ethTxd (m : Fin 2) (k : Fin 4)
  | ethRx (m : Fin 2)
  | ethMdc (m : Fin 2)
  | ethMdio (m : Fin 2)
  | sphTxP (k : Fin 2)
  | sphTxN (k : Fin 2)
  | hspIo (k : Fin 4)
  | mgbScl
  | mgbSda
  | ant (c : Chain)
deriving DecidableEq, Repr

/-- The pull-ups of the GPIO balls: a pin with both bits at 1 has none (11 R372). -/
def State.pullUps (s : State) : Nat := s.get F.GPIO_PUP_PUP &&& (s.get F.GPIO_PDN_PDN ^^^ 0xFFFFFF)

/-- The pull-downs of the GPIO balls. -/
def State.pullDowns (s : State) : Nat := s.get F.GPIO_PDN_PDN &&& (s.get F.GPIO_PUP_PUP ^^^ 0xFFFFFF)

/-- The outputs of MAC `m`: low until it transmits (log entry 130). -/
def State.macOut (s : State) (m : Fin 2) : Ball :=
  if s.flag (F.ETH_CTL_TXEN m.val) || (s.macAt m).sending.isSome then .moving else .drive false

/-- What the blocks of the main domains give their balls. -/
def State.livePads (s : State) : PadLatch :=
  let fem := s.femLevels
  let busy (m : Fin 2) : Bool := s.flag (F.ETH_MDIO_GO m.val)
  { ctrOe := BitVec.ofNat 8 (s.get F.CTR_OE_OE)
    ctr := BitVec.ofNat 8 (s.get F.CTR_STAT_DRIVE)
    gpioDir := BitVec.ofNat 24 (s.get F.GPIO_DIR_DIR)
    gpioOut := BitVec.ofNat 24 (s.get F.GPIO_OUT_OUT)
    gpioUp := BitVec.ofNat 24 s.pullUps
    gpioDn := BitVec.ofNat 24 s.pullDowns
    femA := fem.1
    femB := fem.2
    tioDir := BitVec.ofNat 16 ((List.finRange 16).foldl (fun v k => v + s.get (F.TMR_CFG_PINOUT k.val) * 2 ^ k.val) 0)
    tio := BitVec.ofNat 16 ((List.finRange 16).foldl (fun v k => v + bit01 (s.tioLevel k) * 2 ^ k.val) 0)
    gpioIn := s.pins.gpio
    cfb := s.pins.cfb
    ethTx := Vector.ofFn (fun k : Fin 12 => s.macOut (if k.val < 6 then 0 else 1))
    ethMdc := Vector.ofFn (fun m => if busy m then .moving else .drive false)
    ethMdio := Vector.ofFn (fun m => if busy m then .moving else .float false false)
    mdioIn := 0
    sphTx := Vector.replicate 2 (if s.flag F.SPH_CTL_EN then .moving else .float false false) }

/-- A ball stops where it is: one that moves, at a level `b`. -/
def Ball.frozen (x : Ball) (b : Bool) : Ball :=
  match x with
  | .moving => .drive b
  | x => x

/-- The other conductor of a differential pair (R462). -/
def Ball.inverse : Ball → Ball
  | .drive b => .drive !b
  | .moving => .moving
  | .float up dn => .float up dn

/-- The balls as they stop: those that move, and the input MDIO, each at a level of its own, the bits of the free number `v` (log entry
9). -/
def PadLatch.stopped (p : PadLatch) (v : Nat) : PadLatch :=
  { p with ethTx := Vector.ofFn (fun k : Fin 12 => p.ethTx[k].frozen (bitAt v k.val))
           ethMdc := Vector.ofFn (fun m : Fin 2 => p.ethMdc[m].frozen (bitAt v (12 + m.val)))
           ethMdio := Vector.ofFn (fun m : Fin 2 => p.ethMdio[m].frozen (bitAt v (14 + m.val)))
           mdioIn := BitVec.ofNat 2 (bitsOf v 14 2)
           sphTx := Vector.ofFn (fun k : Fin 2 => p.sphTx[k].frozen (bitAt v (16 + k.val))) }

/-- Ball `k` of the outputs of MAC `m`: TXC, TXCTL, TXD0 to TXD3. -/
def PadLatch.ethOut (p : PadLatch) (m : Fin 2) (k : Fin 6) : Ball := p.ethTx[6 * m.val + k.val]

/-- A ball that is an output when `out`, at level `b`, and else has a pull. -/
def padBall (out b up dn : Bool) : Ball := if out then .drive b else .float up dn

/-- What a set of pads gives one ball; host SPI, management and the antennas are never among them (R431, R462). -/
def PadLatch.ball (p : PadLatch) : BallName → Ball
  | .fem b k => .drive (bitAt (if b then p.femB else p.femA).toNat k.val)
  | .ctr k => padBall (bitAt p.ctrOe.toNat k.val) (bitAt p.ctr.toNat k.val) false true
  | .cfb _ => .float true false
  | .gpio k => padBall (bitAt p.gpioDir.toNat k.val) (bitAt p.gpioOut.toNat k.val) (bitAt p.gpioUp.toNat k.val)
      (bitAt p.gpioDn.toNat k.val)
  | .tio k => padBall (bitAt p.tioDir.toNat k.val) (bitAt p.tio.toNat k.val) false false
  | .ethTxc m => p.ethOut m 0
  | .ethTxctl m => p.ethOut m 1
  | .ethTxd m k => p.ethOut m ⟨2 + k.val, by omega⟩
  | .ethRx _ => .float false false
  | .ethMdc m => p.ethMdc[m]
  | .ethMdio m => p.ethMdio[m]
  | .sphTxP k => p.sphTx[k]
  | .sphTxN k => p.sphTx[k].inverse
  | .hspIo _ | .mgbScl | .mgbSda | .ant _ => .float false false

/-- HSP_IO: in single mode HSP_IO1 is driven while a select is served, in quad mode all four carry what is sent (10 R316, R319, R328). A
transaction keeps the mode it began in (R320). -/
def State.spiBall (s : State) (k : Fin 4) : Ball :=
  match s.spi.sel with
  | some _ => if s.ready 2 && (if s.spiQuad then !s.spi.out.isEmpty else k == 1) then .moving else .float false false
  | none => .float false false

/-- An antenna ball: the transmitter of its chain drives it from ramp-up to the end of ramp-down, and else it is a receive input (R462, 06
R205). -/
def State.antBall (s : State) (c : Chain) : Ball :=
  match s.tx.cur with
  | some l => if portChain l.d0 = c then .moving else .float false false
  | none => .float false false

/-- A ball of the main domains: high-impedance without VMAIN and before power-good; as it was at the entry to sleep while it is held; else
what its block gives it. -/
def State.mainBall (s : State) (n : BallName) : Ball :=
  if s.pwr.vmainLow then .float false false
  else
    match n, s.pwr.latch with
    | .hspIo k, _ => if s.pwr.mainOn then s.spiBall k else .float false false
    | .ant c, _ => if s.pwr.mainOn then s.antBall c else .float false false
    | n, some p => p.ball n
    | n, none => if s.pwr.mainOn then s.livePads.ball n else .float false false

/-- What a ball does. The management balls are the always-on domain's: open drain, released but where the address matcher holds SCL low
(R462, 10 R336; log entry 130). -/
def State.ballOf (s : State) : BallName → Ball
  | .mgbScl => if s.mgb.matcherHold then .drive false else .float false false
  | .mgbSda => .float false false
  | n => s.mainBall n

/-- Every ball of the main domains keeps its level, direction and pull; balls held already stay as they are (R430). -/
def State.latchPads (s : State) : State :=
  if s.pwr.latch.isSome then s
  else
    let d := s.draw 18
    { d.2 with pwr := { d.2.pwr with latch := some (s.livePads.stopped d.1) } }

/-- A write of PWR_PAD.PAD_RELEASE: nothing while nothing is held. The blocks see the balls' present levels, and every enabled contactor
channel starts a match window (R430, R432, 11 R369). -/
def State.releasePads (s : State) : State :=
  match s.pwr.latch with
  | none => s
  | some _ =>
    let s1 := s.withEdges (fun s => { s with pwr := { s.pwr with latch := none } })
    let s2 := if s.ready 18 then s1.each (List.finRange 16) (fun t k => t.tioEdge k (s.tioLevel k)) else s1
    s2.restartWindows

end Sys2Proof.Machine
end

