-- ==== Sys2Proof/Machine/Events.lean ====
section
/-! DEFINITION. Event channels and locks (08 R272 to R282). -/

namespace Sys2Proof.Machine

/-! ## Event channels -/

/-- A channel takes events: enabled, with a consumer 0 to 64 (R272). -/
def State.channelOpen (s : State) (ch : Nat) : Bool :=
  s.flag (F.EVC_CH_EN ch) && decide (s.get (F.EVC_CH_CONS ch) ≤ 64)

/-- An event is discarded as stray (R272). -/
def State.strayEvent (s : State) (source ch : Nat) : State :=
  s.record F.EVC_STRAY_VALID F.EVC_STRAY_OVF (fun s => (s.put F.EVC_STRAY_SOURCE source).put F.EVC_STRAY_CH ch)

/-- A write of EVC_FIRE by requester `r` (R272, R278). -/
def State.fireChannel (s : State) (r ch : Nat) : State × Option AccErr :=
  if s.reqNS r && !s.flag (F.EVC_CH_NS ch) then (s.violation Reg.EVC_FIRE true r, some .world)
  else if !s.channelOpen ch then (s, none)
  else if s.flag (F.EVC_CH_SWF ch) then ({ s with events := s.events ++ [.sw ch] }, none)
  else (s.strayEvent (0x200 + r) ch, none)

/-- An accepted event reaches its consumer (R273): the channel becomes pending, or the event is dropped at a busy consumer. -/
def State.deliverEvent (s : State) (ch : Nat) : State :=
  let cons := s.get (F.EVC_CH_CONS ch)
  if cons = 64 then
    if s.bit (Reg.EVC_HPEND (ch / 32)) (ch % 32) then s.bump (F.EVC_DROP_COUNT ch)
    else s.setBit (Reg.EVC_HPEND (ch / 32)) (ch % 32) true
  else
    match (List.finRange 64).find? (fun e => e.val == cons) with
    | some e =>
      let g := s.engAt e
      if g.evPend.getLsbD ch then s.bump (F.EVC_DROP_COUNT ch)
      else s.setEng e { g with evPend := g.evPend ||| (1#256 <<< ch) }
    | none => s

/-- EVENT_ARRIVAL (R272 to R274): the oldest event on its way arrives. -/
def execEventArrival (s : State) : Out :=
  .next (match s.events with
  | [] => s
  | .sw ch :: t => { s with events := t }.deliverEvent ch
  | .hw prod ch :: t =>
    let s1 := { s with events := t }
    if !s1.channelOpen ch then s1
    else if s1.get (F.EVC_CH_PROD ch) = prod then s1.deliverEvent ch
    else s1.strayEvent prod ch)

/-- A read of EV.POP by engine `e` (R250): the value and the state with that channel no longer pending. -/
def State.popEvent (s : State) (e : EngIx) : Option Nat × State :=
  let g := s.engAt e
  match firstIdx 256 (fun c => g.evPend.getLsbD c) with
  | some c => (some c, s.setEng e { g with evPend := g.evPend &&& ~~~(1#256 <<< c) })
  | none => (none, s)

/-- A write to EVC_CHc by a requester of world `ns`, its block's world checked already (R276, R278). -/
def State.channelWrite (s : State) (r c : Nat) (v : Word) : State × Option AccErr :=
  let ns := s.reqNS r
  if ns && !s.flag (F.EVC_CH_NS c) then (s.violation (Reg.EVC_CH c) true r, some .world)
  else if s.flag (F.EVC_CH_LOCK c) then (s, none)
  else
    let n := if ns then s.get (F.EVC_CH_NS c) else bitsOf v.toNat 30 1
    (s.setReg (Reg.EVC_CH c) (BitVec.ofNat 32 (pack [(0, bitsOf v.toNat 0 7), (14, bitsOf v.toNat 14 10),
      (28, bitsOf v.toNat 28 1), (29, bitsOf v.toNat 29 1), (30, n), (31, bitsOf v.toNat 31 1)])), none)

/-- The bits of EVC_HPENDw that a world sees: all, or those of non-secure channels (R277). -/
def State.hpendMask (s : State) (ns : Bool) (w : Nat) : Word :=
  if ns then BitVec.ofNat 32 ((List.range 32).foldl (fun m k => m + bit01 (s.flag (F.EVC_CH_NS (32 * w + k))) * 2 ^ k) 0)
  else 0xFFFFFFFF

/-- A write of `v` to EVC_HPENDw (R273, R277). -/
def State.hpendClear (s : State) (ns : Bool) (w : Nat) (v : Word) : State :=
  s.setReg (Reg.EVC_HPEND w) (s.reg (Reg.EVC_HPEND w) &&& ~~~(v &&& s.hpendMask ns w))

/-! ## Locks -/

/-- Whether requester `r` holds lock `k`. -/
def State.holds (s : State) (r k : Nat) : Bool := s.flag (F.LCK_S_HELD k) && s.get (F.LCK_S_HOLDER k) == r

/-- Requester `r` may not touch lock `k` (R278). -/
def State.lockBarred (s : State) (r k : Nat) : Bool := s.reqNS r && !s.flag (F.LCK_S_NS k)

/-- A write of lock `k` to LCK_ACQ by requester `r` (R279). -/
def State.acquire (s : State) (r k : Nat) : State × Option AccErr :=
  if s.lockBarred r k then (s.violation Reg.LCK_ACQ true r, some .world)
  else
    let orphan := s.get (F.LCK_S_ORPHAN k)
    let got := decide (r ≤ 66) && (!s.flag (F.LCK_S_HELD k) || s.holds r k)
    let s1 := if got then (s.raise (F.LCK_S_HELD k)).put (F.LCK_S_HOLDER k) r else s
    (s1.setReg (Reg.LCK_RES r) (BitVec.ofNat 32 (pack [(0, bit01 got), (1, orphan), (8, k)])), none)

/-- A lock becomes free: HELD clears, and HOLDER, valid only with HELD, is a free value (log entry 45). -/
def State.freeLock (s : State) (k : Nat) : State :=
  let d := s.draw 7
  (d.2.lower (F.LCK_S_HELD k)).put (F.LCK_S_HOLDER k) d.1

/-- A write of lock `k` to LCK_REL by requester `r` (R280). -/
def State.releaseLock (s : State) (r k : Nat) : State × Option AccErr :=
  if s.lockBarred r k then (s.violation Reg.LCK_REL true r, some .world)
  else if s.holds r k then (s.freeLock k, none)
  else (s, none)

/-- A write of lock `k` to LCK_CLR by requester `r` (R281). -/
def State.clearOrphan (s : State) (r k : Nat) : State × Option AccErr :=
  if s.lockBarred r k then (s.violation Reg.LCK_CLR true r, some .world)
  else if s.holds r k then (s.lower (F.LCK_S_ORPHAN k), none)
  else (s, none)

/-- A write to LCK_Sk by requester `r`: only a secure one changes NS (R278). -/
def State.lockWrite (s : State) (r k : Nat) (v : Word) : State × Option AccErr :=
  if s.lockBarred r k then (s.violation (Reg.LCK_S k) true r, some .world)
  else if s.reqNS r then (s, none)
  else (s.put (F.LCK_S_NS k) (bitsOf v.toNat 7 1), none)

/-- Every lock whose holder's code is in `rs` is released with its orphan flag set (R281). -/
def State.orphanLocks (s : State) (rs : Nat → Bool) : State :=
  s.each (List.range 64) (fun s k =>
    if s.flag (F.LCK_S_HELD k) && rs (s.get (F.LCK_S_HOLDER k)) then (s.freeLock k).raise (F.LCK_S_ORPHAN k) else s)

/-- A reset of block 7 also clears every engine's pending channels (R282); its registers are reset with the block. -/
def State.resetEvents (s : State) : State :=
  { s with events := [] }.each (List.finRange 64) (fun s e => s.setEng e { s.engAt e with evPend := 0 })

end Sys2Proof.Machine
end

