-- ==== Sys2Proof/Machine/EngCtl.lean ====
section
/-! DEFINITION. Engine states: loading, starting, halting and the watchdog (08 R261 to R271), and the fetch sequence (07 R257, R264). -/

namespace Sys2Proof.Machine

/-! ## The fetch sequence -/

/-- The instruction index after `i` (R236). -/
def nextIdx (i : Nat) : Nat := (i + 1) % 2048

/-- Instruction `x` and the two that follow it in sequence. -/
def seqFrom (x : Nat) : List Fetch :=
  let x := x % 2048
  [⟨x, false⟩, ⟨nextIdx x, false⟩, ⟨nextIdx (nextIdx x), false⟩]

/-- The sequence once its first instruction has retired: at least three entries, going on in order after the last. -/
def advanceSeq : List Fetch → List Fetch
  | [_, b, c] => [b, c, ⟨nextIdx c.idx, false⟩]
  | _ :: t => t
  | [] => seqFrom 0

/-- The index at place `n` of a sequence. -/
def seqIdx (l : List Fetch) (n : Nat) : Nat :=
  match l[n]? with
  | some f => f.idx
  | none => 0

/-- The trap bank is VALID (R257). -/
def Eng.tbValid (g : Eng) : Bool := g.tb.cause.getLsbD 23

/-- The trap bank with VALID cleared. -/
def TrapBank.release (t : TrapBank) : TrapBank := { t with cause := t.cause &&& 0x7FFFFF#24 }

/-! ## Results in flight (R217, R218) -/

/-- A result reaches its result ports. -/
def Eng.deliver (g : Eng) (f : Flight) : Eng :=
  { g with res :=
    match f.unit with
    | .alu0 => { g.res with alu0 := f.lo }
    | .alu1 => { g.res with alu1 := f.lo }
    | .shu => { g.res with shu := f.lo }
    | .mul => { g.res with mulLo := f.lo, mulHi := f.hi }
    | .lsu => { g.res with lr := f.lo } }

/-- Every result whose latency has elapsed at the present position is delivered. -/
def Eng.deliverDue (g : Eng) : Eng :=
  { (g.flight.filter (fun f => decide (f.due ≤ g.pos))).foldl Eng.deliver g with
    flight := g.flight.filter (fun f => !decide (f.due ≤ g.pos)) }

/-- Every result in flight is delivered (R255, R263). -/
def Eng.drain (g : Eng) : Eng := { g.flight.foldl Eng.deliver g with flight := [] }

/-! ## Local data memory (R239, R240) -/

/-- The address of local word `n` of engine `e` (R15). -/
def localAddr (e : EngIx) (n : Nat) : Nat := 0x10600000 + 0x6000 * e.val + 0x3000 + 3 * n

/-- A local word as it stands; in a group left incomplete, a free value (R16). -/
def State.readLocal (s : State) (e : EngIx) (n : Nat) : State × Word24 :=
  if s.halfLoaded (localAddr e n) then
    let d := s.draw 24
    (d.2, BitVec.ofNat 24 d.1)
  else (s, BitVec.ofNat 24 (ofBytesLe (s.bytes (localAddr e n) 3)))

/-- A local word is stored. -/
def State.writeLocal (s : State) (e : EngIx) (n : Nat) (v : Word24) : State := s.storeBytes false (localAddr e n) (bytesLe 3 v.toNat)

/-! ## Stalls -/

/-- What a stalled instruction has changed is put back (R255, R266), the effects of its port reads too (DESIGN CHOICE, log entry 143). -/
def State.undoStall (s : State) (e : EngIx) (u : ReadUndo) : State :=
  let g := s.engAt e
  let fifo := u.lioFifo ++ g.lio.fifo
  s.setEng e { g with
    evPend := match u.popped with
      | some c => g.evPend ||| (1#256 <<< c)
      | none => g.evPend
    lio := { g.lio with off := u.lioOff, held := u.lioHeld, lastQ := u.lioLastQ, fifo := lastN 64 fifo
                        ovf := g.lio.ovf || decide (64 < fifo.length) }
    res := u.res }

/-- LSU.BREM (R244). -/
def State.setRemaining (s : State) (e : EngIx) (n : Nat) : State :=
  let g := s.engAt e
  s.setEng e { g with res := { g.res with brem := BitVec.ofNat 24 n } }

/-- The words of a block that have not moved (R244, R265). -/
def Access.remaining : Access → Option Nat
  | .block _ n i _ _ => some (n - i)
  | _ => none

/-- A block that ends early leaves its count in LSU.BREM (R244, R265). -/
def State.leaveRemaining (s : State) (e : EngIx) (x : Option Access) : State :=
  match x.bind Access.remaining with
  | some n => s.setRemaining e n
  | none => s

/-- One word of a block. -/
def Access.isBlock : Access → Bool
  | .block .. => true
  | _ => false

/-- The bytes a shared store writes (R242). -/
def StoreKind.size : StoreKind → Nat
  | .b => 1
  | .h => 2
  | .t => 3
  | .w => 4

/-- A word of a block that its target has accepted moves (R243, R244). -/
def State.movedWord (s : State) (e : EngIx) (x : Access) : State :=
  match x with
  | .block true _ i la base =>
    match s.loadPlace (base + 4 * i) 3 with
    | (s1, .ok v) => s1.writeLocal e ((la + i) % 4096) (BitVec.ofNat 24 v)
    | (s1, .error _) => s1
  | .block false _ i la base =>
    let y := s.readLocal e ((la + i) % 4096)
    (y.1.storePlace e.val (base + 4 * i) 3 y.2.toNat).1
  | _ => s

/-- The words of a block among accesses that were accepted move. -/
def State.movedWords (s : State) (e : EngIx) (l : List Accepted) : State := s.each l (fun s p => s.movedWord e p.acc)

/-- A write that the fabric has accepted of engine `e` completes in memory (13 R404). -/
def State.acceptedWrite (s : State) (e : EngIx) (x : Access) : State :=
  match x with
  | .store k a v => if 0x10000000 ≤ a ∧ a < 0x10800000 then (s.storePlace e.val a k.size v.toNat).1 else s
  | _ => s.movedWord e x

/-- The SRAM writes that the fabric has accepted complete (13 R404): those of instructions that wait for another access (log entry 36). -/
def State.completeWrites (s : State) : State :=
  s.each (List.finRange 64) (fun s e =>
    match (s.engAt e).stall with
    | some x => s.each x.passed (fun s p => s.acceptedWrite e p.acc)
    | none => s)

/-- The stalled instruction of engine `e` ends without retiring: none of its writes take effect, but for the words of a block that have
moved (R265, R266). -/
def State.dropStall (s : State) (e : EngIx) : State :=
  match (s.engAt e).stall with
  | some x =>
    let s1 := s.movedWords e x.passed
    ((s1.setEng e { s1.engAt e with stall := none }).undoStall e x.undo).leaveRemaining e (x.accs.head?.map Prod.snd)
  | none => s

/-- The stalled access of engine `e` is forced off (R266). -/
def State.forceOff (s : State) (e : EngIx) : State :=
  let s1 := s.dropStall e
  s1.setEng e { s1.engAt e with haltForced := true }

/-! ## Halts (R263, R266, R267) -/

/-- A halt of engine `e` is ordered. A forced one discards a pending watchdog exception (R267); a stall beyond its limit is forced
off at once (R266). -/
def State.orderHalt (s : State) (e : EngIx) (why : Nat) (forced : Bool) : State :=
  let g := s.engAt e
  let s1 := s.setEng e { g with state := .halting, why := why, forced := g.forced || forced
                                wdPending := g.wdPending && !forced }
  match g.stall with
  | some x => if x.beyond then s1.forceOff e else s1
  | none => s1

/-- ENG_PC and ENG_NX show the sequence of engine `e` (R264). -/
def State.showSeq (s : State) (e : EngIx) : State :=
  let q := (s.engAt e).seq
  (s.setReg (Reg.ENG_PC e.val) (BitVec.ofNat 32 (seqIdx q 0))).setReg (Reg.ENG_NX e.val)
    (BitVec.ofNat 32 (pack [(0, seqIdx q 1), (12, seqIdx q 2)]))

/-- HALT_COMPLETE (R263, R264, R267): operations in flight have completed and the engine enters HALTED; a forced halt first ends the
engine's cipher jobs, orphans its locks and clears LOADED. The logbook records a halt with WHY DOUBLE, WATCHDOG or FORCE (14
R452), and source 128 + n pulses when WHY is not HOST (12 R376). -/
def execHaltComplete (e : EngIx) (s : State) : Out :=
  .next (let g := s.engAt e
    if g.state != .halting || g.stall.isSome then s
    else
      let s1 := s.setEng e g.drain
      let s2 := if g.forced then (s1.abortJobs e.val).orphanLocks (fun h => h == e.val) else s1
      let g2 := s2.engAt e
      let s3 := (s2.setEng e { g2 with state := .halted, forced := false, loaded := g2.loaded && !g.forced }).showSeq e
      let s4 := if 3 ≤ g.why then s3.log 3 (pack [(0, e.val), (8, g.why)]) else s3
      if g.why = 1 then s4 else s4.pulse (128 + e.val))

/-- STALL_LIMIT (R266): the access engine `e` waits for has been stalled for more than 4,096 engine cycles. -/
def execStallLimit (e : EngIx) (s : State) : Out :=
  .next (let g := s.engAt e
    match g.stall with
    | some x =>
      let s1 := s.setEng e { g with stall := some { x with beyond := true } }
      if g.state == .halting then s1.forceOff e else s1
    | none => s)

/-! ## ENG_CTL (R261) -/

/-- LOAD: in HALTED everything R223 names is 0, the return stack is empty, no event is pending, the engine's locks are orphaned (R281)
and the engine is LOADED at instruction 0; else refused. -/
def State.loadEngine (s : State) (e : EngIx) : State :=
  let g := s.engAt e
  if g.state != .halted then s.setEng e { g with refused := true }
  else
    let s1 := s.setEng e { why := g.why, wdx := g.wdx, refused := g.refused, haltForced := g.haltForced
                           rstack := g.rstack, rtop := g.rtop, loaded := true }
    (s1.orphanLocks (fun h => h == e.val)).showSeq e

/-- START. How far TM.CYC has counted since LOAD is a free value: its clock also runs in HALTED (R252). -/
def State.startEngine (s : State) (e : EngIx) : State :=
  let g := s.engAt e
  match g.state with
  | .halted =>
    if g.loaded then
      let d := s.draw 48
      d.2.setEng e { g with state := .running, wdx := false, cyc := BitVec.ofNat 48 d.1 }
    else s.setEng e { g with refused := true }
  | .halting => s.setEng e { g with refused := true }
  | .running => s

/-- HALT. -/
def State.haltEngine (s : State) (e : EngIx) : State :=
  if (s.engAt e).state == .running then s.orderHalt e 1 false else s

/-- FORCE. -/
def State.forceEngine (s : State) (e : EngIx) : State :=
  if (s.engAt e).state == .halted then s else s.orderHalt e 5 true

/-- A write of ENG_CTL: its bits, lowest first. -/
def State.engineCtl (s : State) (e : EngIx) (v : Word) : State :=
  let s1 := if bitAt v.toNat 0 then s.startEngine e else s
  let s2 := if bitAt v.toNat 1 then s1.haltEngine e else s1
  let s3 := if bitAt v.toNat 2 then s2.forceEngine e else s2
  if bitAt v.toNat 3 then s3.loadEngine e else s3

/-- A write of ENG_PC: in HALTED, X, and NEXT1 and NEXT2 after it (R264). -/
def State.enginePc (s : State) (e : EngIx) (v : Word) : State :=
  let g := s.engAt e
  if g.state == .halted then (s.setEng e { g with seq := seqFrom (bitsOf v.toNat 0 11) }).showSeq e else s

/-- A write of ENG_STAT: REFUSED and HALT_FORCED clear by 1. -/
def State.engineStat (s : State) (e : EngIx) (v : Word) : State :=
  let g := s.engAt e
  s.setEng e { g with refused := g.refused && !bitAt v.toNat 13, haltForced := g.haltForced && !bitAt v.toNat 12 }

/-- A write of ENG_WDT: the limit, and the count starts again (R271). -/
def State.engineWdt (s : State) (e : EngIx) (v : Word) : State :=
  let s1 := s.put (F.ENG_WDT_LIMIT e.val) v.toNat
  s1.setEng e { s1.engAt e with wdx := false }

/-- ENG_STAT as it reads. -/
def Eng.stat (g : Eng) : Word :=
  let st := match g.state with
    | .halted => 0
    | .running => 1
    | .halting => 2
  BitVec.ofNat 32 (pack [(0, st), (3, bit01 g.loaded), (4, bit01 g.stall.isSome), (5, bit01 g.tbValid), (6, bit01 g.wdx),
    (8, g.why), (12, bit01 g.haltForced), (13, bit01 g.refused)])

/-- ENG_TBk as it reads. -/
def Eng.tbWord (g : Eng) (k : Nat) : Word24 :=
  match k with
  | 0 => g.tb.cause
  | 1 => g.tb.pc
  | 2 => g.tb.grd
  | 3 => g.tb.nx
  | 4 => g.tb.ihi
  | 5 => g.tb.ilo
  | 6 => g.tb.fal
  | _ => g.tb.fah

/-! ## The watchdog (R271) -/

/-- WATCHDOG_EXPIRY: the count reaches LIMIT while the engine is RUNNING or HALTING and its clock runs. The first expiry raises the
exception; the second orders a forced halt. -/
def execWatchdogExpiry (e : EngIx) (s : State) : Out :=
  .next (let g := s.engAt e
    if g.state == .halted || s.get (F.ENG_WDT_LIMIT e.val) == 0 || s.pwrState != 0 then s
    else if g.wdx then s.orderHalt e 4 true
    else s.setEng e { g with wdx := true, wdPending := true })

/-! ## Arbitration (R269, R270) -/

/-- The access of engine `e` comes to stage `st`, the latest to have come there. -/
def State.setStage (s : State) (e : EngIx) (st : GrantStage) : State :=
  let g := s.engAt e
  match g.stall with
  | some x => { s with arb := s.arb + 1 }.setEng e { g with stall := some { x with stage := st, since := s.arb } }
  | none => s

/-- Engine `e` waits for the first access of `st`, behind every access that waits already (R269). -/
def State.await (s : State) (e : EngIx) (st : Stall) : State :=
  { s with arb := s.arb + 1 }.setEng e { s.engAt e with
    stall := some { st with stage := .waiting, since := s.arb, revoked := false, beyond := false } }

/-- The place of the access of engine `e` among those that have come to stage `st` for target `t`. -/
def State.placeAt (s : State) (e : EngIx) (st : GrantStage) (t : Option Nat) : Option Nat :=
  match (s.engAt e).stall with
  | some x => if s.waitsAt e st = none ∨ (t ≠ none ∧ s.waitsAt e st ≠ t) then none else some x.since
  | none => none

/-- Whether the access of engine `e` has had its grant revoked since it was issued. -/
def State.revokedAt (s : State) (e : EngIx) : Bool :=
  match (s.engAt e).stall with
  | some x => x.revoked
  | none => false

/-- The numbers 0 to 7 in the order that follows `k` (R269). -/
def after8 (k : Fin 8) : List (Fin 8) := (List.range 8).map (fun i => ⟨(k.val + 1 + i) % 8, Nat.mod_lt _ (by decide)⟩)

/-- No engine of well `w` but engine `j` has come before it to stage `st` for target `t`. -/
def State.firstOf (s : State) (w j : Fin 8) (st : GrantStage) (t : Option Nat) : Bool :=
  match s.placeAt (wellEngine w j) st t with
  | some n => (List.finRange 8).all (fun i => i == j ||
      (match s.placeAt (wellEngine w i) st t with
      | some m => decide (n ≤ m)
      | none => true))
  | none => false

/-- The port of well `w` may pass the access of its engine `j`: it waits, and one whose grant was revoked has let go before it those that
waited then (R270). -/
def State.mayPass (s : State) (w j : Fin 8) : Bool :=
  (s.waitsAt (wellEngine w j) .waiting).isSome &&
    (!s.revokedAt (wellEngine w j) || s.firstOf w j .waiting none)

/-- The well ports in the order of a target's round that follows place `k` (R269). -/
def portsAfter (k : Fin 15) : List (Fin 8) :=
  (List.range 15).filterMap (fun i =>
    if h : (k.val + 1 + i) % 15 < 8 then some ⟨(k.val + 1 + i) % 15, h⟩ else none)

/-- GRANT (R269): the port of a well passes the access of the waiting engine that follows the last one granted, and a target serves
in the same way the well port whose access has reached it, in the round that the requesters 64 to 70 share; of one port's accesses there,
the one that came first (log entry 122). -/
def execGrant (x : Arbiter) (s : State) : Out :=
  .next (match x with
  | .port w =>
    match (after8 (s.wellLast[w.val])).find? (s.mayPass w) with
    | some j => { s.setStage (wellEngine w j) .atTarget with wellLast := s.wellLast.set w.val j }
    | none => s
  | .target t =>
    let serves (w j : Fin 8) : Bool := s.firstOf w j .atTarget (some t.val)
    match (portsAfter s.targetLast[t.val]).find? (fun w => (List.finRange 8).any (serves w)) with
    | some w =>
      match (List.finRange 8).find? (serves w) with
      | some j => { s.setStage (wellEngine w j) .granted with targetLast := s.targetLast.set t.val (w.castLE (by decide)) }
      | none => s
    | none => s)

/-- GRANT_REVOKE (R270): an access has held the grant of its port for 256 fabric cycles, at its target or on its way there; it queues again
behind those that wait. -/
def execGrantRevoke (e : EngIx) (s : State) : Out :=
  .next (match (s.engAt e).stall with
  | some x =>
    if x.stage ≠ .waiting ∧ x.accs ≠ [] then
      ({ s with arb := s.arb + 1 }.setEng e { s.engAt e with
        stall := some { x with stage := .waiting, since := s.arb, revoked := true } }).bump (F.ENG_REVOKE_COUNT e.val)
    else s
  | none => s)

end Sys2Proof.Machine
end

