-- ==== Sys2Proof/Machine/Irq.lean ====
section
/-! DEFINITION. The interrupt controller and its always-on slice (12 R376 to R385). -/

namespace Sys2Proof.Machine

/-! ## Sources (R376) -/

/-- A pulse source. -/
def isPulse (n : Nat) : Bool :=
  [2, 3, 5, 6, 7, 9, 14, 64, 65].contains n || decide (128 ≤ n ∧ n < 192)

/-- The request of a timer (R392). -/
def State.timerReq (s : State) (k : Nat) : Bool :=
  (s.flag (F.TMR_STAT_MATCH k) && s.flag (F.TMR_CFG_IENM k)) || (s.flag (F.TMR_STAT_OVF k) && s.flag (F.TMR_CFG_IENO k)) ||
    ((s.flag (F.TMR_STAT_CAPT k) || s.flag (F.TMR_STAT_CAPOVF k)) && s.flag (F.TMR_CFG_IENC k))

/-- The request of level source `n`: its condition holds (R376). -/
def State.levelReq (s : State) (n : Nat) : Bool :=
  match n with
  | 1 => s.flag F.SYS_WVIOL_INFO_VALID
  | 4 => s.flag F.PWR_THERM_WARN
  | 8 => s.flag F.FLC_STAT_ERR || s.flag F.CAL_STAT_FLAG
  | 10 => (List.range 8).any (fun w => s.reg (Reg.EVC_HPEND w) != 0)
  | 11 => (s.reg Reg.SPH_IRQ &&& s.reg Reg.SPH_IRQEN) != 0
  | 12 => s.flag F.WKR_STAT_MATCH
  | 13 => s.flag F.RTC_STAT_ALARM
  | 15 => s.flag F.RTC_STAT_OSCFAIL || s.flag F.RTC_STAT_LOSTPWR
  | 48 => s.flag (F.ETH_STAT_RXHALT 0) || s.flag (F.ETH_STAT_TXHALT 0)
  | 49 => s.flag (F.ETH_STAT_RXHALT 1) || s.flag (F.ETH_STAT_TXHALT 1)
  | 50 => s.reg (Reg.HSP_STATUS 0) != 0
  | 51 => s.reg (Reg.HSP_STATUS 1) != 0
  | 66 => s.reg Reg.RXC_ERR != 0
  | 67 => s.flag F.LDP_LSTAT_LOWERED
  | 68 => s.flag F.SFM_LOST_VALID
  | 69 => s.flag F.SFM_STAT_RESOVF || s.flag F.SFM_STAT_NOSB
  | 70 => s.flag F.CST_NRIDX_VALID
  | 71 => s.flag F.TXP_BADDESC_VALID
  | 72 => s.flag F.SYN_ERR_LOCKFAIL
  | 73 => s.flag F.CIP_STAT_LOSTREC
  | 74 => s.flag F.EVC_STRAY_VALID
  | 75 => s.flag F.FDR_STAT_HALT || s.flag F.FDR_STAT_OVF
  | 76 => s.reg Reg.CTR_FAULT != 0
  | 77 => s.reg Reg.GPIO_EDGE != 0
  | n =>
    if 32 ≤ n ∧ n < 48 then s.timerReq (n - 32)
    else if 256 ≤ n then
      (match (List.finRange 96).find? (fun l => l.val == n - 256) with
       | some l => (s.laneAt l).state == .ready
       | none => false)
    else false

/-! ## Pending and deliverable (R377 to R379, R383) -/

/-- Source `n` is pending. -/
def State.irqPending (s : State) (n : Nat) : Bool :=
  s.flag (F.IRQ_SRC_EN n) && !s.flag (F.IRQ_SRC_ACT n) &&
    (if isPulse n then s.get (F.IRQ_SRC_CNT n) != 0 else s.flag (F.IRQ_SRC_REQ n))

/-- Source `n` is deliverable in context `ctx`. -/
def State.deliverable (s : State) (ctx n : Nat) : Bool :=
  s.irqPending n && s.get (F.IRQ_SRC_CTX n) == ctx && !s.flag (F.IRQ_HOLD_RUN (n / 32))

/-- The sources that can be enabled: 1 to 510. -/
def irqSources : List Nat := (List.range 510).map (· + 1)

/-- Context `ctx` has a deliverable source. -/
def State.anyDeliverable (s : State) (ctx : Nat) : Bool := irqSources.any (s.deliverable ctx)

/-- SEEN follows what is deliverable now (R380). -/
def State.noteSeen (s : State) : State :=
  s.each [0, 1] (fun s c => if s.anyDeliverable c then s.raise (F.IRQ_STAT_SEEN c) else s)

/-- An event of source `n` counts while it is enabled (R377). -/
def State.countEvent (s : State) (n : Nat) : State :=
  if s.flag (F.IRQ_SRC_EN n) then s.bump (F.IRQ_SRC_CNT n) else s

/-- SOURCE_EVENT (R377, R382): a request of `n` rises, or one of its pulses arrives, at the controller. -/
def execSourceEvent (n : SrcIx) (s : State) : Out :=
  .next (if !s.ready 20 then s
    else if isPulse n.val then
      (if s.pulses.contains n.val then
        (({ s with pulses := s.pulses.erase n.val }).countEvent n.val).noteSeen
      else s)
    else if s.levelReq n.val && !s.flag (F.IRQ_SRC_REQ n.val) then
      ((s.raise (F.IRQ_SRC_REQ n.val)).countEvent n.val).noteSeen
    else s)

/-- The slice forgets the requests that have fallen: they can rise again (R385). -/
def State.requestsFell (s : State) : State := { s with aonHigh := s.aonHigh.filter s.levelReq }

/-- REQUEST_WITHDRAWN (R378): a level request falls; a pending source is withdrawn with its count at 0. While the controller is off the
slice sees it fall (R385). -/
def execRequestWithdrawn (n : SrcIx) (s : State) : Out :=
  .next (if !s.ready 20 then s.requestsFell
  else if !isPulse n.val && s.flag (F.IRQ_SRC_REQ n.val) && !s.levelReq n.val then
    let s1 := if s.irqPending n.val then s.put (F.IRQ_SRC_CNT n.val) 0 else s
    s1.lower (F.IRQ_SRC_REQ n.val)
  else s)

/-- The source a claim in context `ctx` takes: highest PRIO, then lowest number (R380). -/
def State.claimable (s : State) (ctx : Nat) : Option Nat :=
  irqSources.foldl (fun best n =>
    if s.deliverable ctx n then
      match best with
      | some b => if s.get (F.IRQ_SRC_PRIO b) < s.get (F.IRQ_SRC_PRIO n) then some n else best
      | none => some n
    else best) none

/-- A read of IRQ_CLAIM in context `ctx` (R380, R383): the word it returns and what it changes. -/
def State.irqClaim (s : State) (ctx : Nat) : Word × State :=
  match s.claimable ctx with
  | some n =>
    let v := pack [(12, s.get (F.IRQ_SRC_CNT n)), (0, n)]
    let s1 := (s.raise (F.IRQ_SRC_ACT n)).put (F.IRQ_SRC_CNT n) 0
    let s2 := if s.get (F.IRQ_HOLD_US (n / 32)) = 0 then s1 else s1.raise (F.IRQ_HOLD_RUN (n / 32))
    (BitVec.ofNat 32 v, (s2.lower (F.IRQ_STAT_SEEN ctx)).noteSeen)
  | none =>
    (BitVec.ofNat 32 (if s.flag (F.IRQ_STAT_SEEN ctx) then 511 else 0), (s.lower (F.IRQ_STAT_SEEN ctx)).noteSeen)

/-- A write of IRQ_COMPLETE with source `n` in the world with context `ctx` (R381). -/
def State.irqComplete (s : State) (ctx n : Nat) : State :=
  if s.flag (F.IRQ_SRC_ACT n) && s.get (F.IRQ_SRC_CTX n) == ctx then
    let s1 := s.lower (F.IRQ_SRC_ACT n)
    let s2 := if !isPulse n && s1.flag (F.IRQ_SRC_REQ n) && s1.get (F.IRQ_SRC_CNT n) == 0 then
        s1.put (F.IRQ_SRC_CNT n) 1
      else s1
    s2.noteSeen
  else s

/-- A write of IRQ_SRCs by a requester of world `ns` (R378, R384). -/
def State.irqSrcWrite (s : State) (ns : Bool) (n : Nat) (v : Word) : State :=
  if n = 0 ∨ n = 511 then s
  else
    let moves := !ns && !s.flag (F.IRQ_SRC_EN n) && !s.flag (F.IRQ_SRC_ACT n)
    let s1 := if moves then s.put (F.IRQ_SRC_CTX n) (bitsOf v.toNat 8 1) else s
    let s2 := (s1.put (F.IRQ_SRC_PRIO n) (bitsOf v.toNat 0 3)).put (F.IRQ_SRC_EN n) (bitsOf v.toNat 3 1)
    (if bitAt v.toNat 3 then s2 else s2.put (F.IRQ_SRC_CNT n) 0).noteSeen

/-- HOLD_OFF_EXPIRY (R383): group `g` is deliverable again. -/
def execHoldOffExpiry (g : Fin 16) (s : State) : Out := .next ((s.lower (F.IRQ_HOLD_RUN g.val)).noteSeen)

/-- IRQ_HOLDg.US has been written: 0 ends a running hold-off (R383). -/
def State.holdWritten (s : State) (g : Nat) : State :=
  if s.get (F.IRQ_HOLD_US g) = 0 then (s.lower (F.IRQ_HOLD_RUN g)).noteSeen else s

/-- What IRQ_SRCn reads as (R384). -/
def State.irqSrcView (s : State) (n : Nat) : Word :=
  if n = 0 ∨ n = 511 then 0
  else BitVec.ofNat 32 (setBits (setBits (s.reg (Reg.IRQ_SRC n)).toNat 30 1 (bit01 (s.irqPending n))) 28 1 (bit01 (isPulse n)))

/-- What IRQ_PENDw reads as for a world (R384). -/
def State.irqPendView (s : State) (ns : Bool) (w : Nat) : Word :=
  BitVec.ofNat 32 ((List.range 32).foldl (fun v k =>
    let n := 32 * w + k
    if n ≠ 0 ∧ n ≠ 511 ∧ s.irqPending n ∧ (!ns || s.flag (F.IRQ_SRC_CTX n)) then v + 2 ^ k else v) 0)

/-! ## The always-on slice (R385) -/

/-- IRQ_S (context 0) or IRQ_N (context 1) is asserted (R379, R385). -/
def State.ball (s : State) (ctx : Nat) : Bool :=
  if s.ready 20 then !s.flag (F.IRQ_CTL_GDIS ctx) && s.anyDeliverable ctx
  else (List.range 32).any (fun k => s.bit Reg.IRQ_AONPEND k && s.get (F.IRQ_AONSEL_CTX k) == ctx)

/-- What IRQ_STAT reads as. -/
def State.irqStatView (s : State) (ctx : Nat) : Word :=
  BitVec.ofNat 32 (setBits (s.reg (Reg.IRQ_STAT ctx)).toNat 0 1 (bit01 (s.ball ctx)))

/-- The controller stops: the slice watches for requests that rise from now on. -/
def State.watchRequests (s : State) : State :=
  { s with aonHigh := ((List.range 32).map (fun k => s.get (F.IRQ_AONSEL_SRC k))).filter s.levelReq }

/-- Slot `k` of the slice catches its source; with WAKE it signals the always-on interrupt wake source (13 R433). -/
def State.sliceCatch (s : State) (k : Nat) : State :=
  let s1 := s.setBit Reg.IRQ_AONPEND k true
  if s.flag (F.IRQ_AONSEL_WAKE k) then s1.signalWake 3 else s1

/-- The slots that name source `n`. -/
def State.slotsOf (s : State) (n : Nat) : List Nat := (List.range 32).filter (fun k => s.get (F.IRQ_AONSEL_SRC k) == n)

/-- AON_SLICE_EVENT (R385): while the controller is off, a request of slot `k`'s source rises or pulses. -/
def execAonSliceEvent (k : Fin 32) (s0 : State) : Out :=
  let s := if s0.ready 20 then s0 else s0.requestsFell
  let n := s.get (F.IRQ_AONSEL_SRC k.val)
  .next (if s.ready 20 || n == 0 then s
    else if isPulse n then
      (if s.pulses.contains n then { s with pulses := s.pulses.erase n }.each (s.slotsOf n) State.sliceCatch else s)
    else if s.levelReq n && !s.aonHigh.contains n then
      { s with aonHigh := n :: s.aonHigh }.each (s.slotsOf n) State.sliceCatch
    else s)

/-- SYS_READY bit 20 sets (R385): pulses of the time before it are gone, and one event counts for each source whose slot bit is set. -/
def State.sliceCounts (s : State) : State :=
  let ns := ((List.range 32).filter (fun k => s.bit Reg.IRQ_AONPEND k)).map (fun k => s.get (F.IRQ_AONSEL_SRC k))
  (({ s with aonHigh := [], pulses := [] }).each (ns.eraseDups.filter (fun n => decide (1 ≤ n ∧ n ≤ 510))) (fun s n =>
    (if isPulse n then s else s.putB (F.IRQ_SRC_REQ n) (s.levelReq n)).countEvent n)).noteSeen

end Sys2Proof.Machine
end

