-- ==== Sys2Proof/Machine/Power.lean ====
section
/-! DEFINITION. Supplies, resets, priming, power states, thermal protection (13 R401 to R436). -/

namespace Sys2Proof.Machine

/-! ## What a reset reaches (R406) -/

/-- Registers that no reset of the main domains reaches: those of the always-on domain (R31, 10 R352, 12 R385, R436, 14 R458),
the protection bits in their non-volatile row (14 R447), the die number, and the incarnation number, drawn only at a power-up (10
R341). -/
def alwaysOn (k : Nat) : Bool :=
  let a := k % 0x100000000
  keyBlock k == 19 || keyBlock k == 23 || a == Reg.MGB_CFG || a == Reg.MGB_ADDR || a == Reg.MGB_INCARN ||
    decide (Reg.IRQ_AONSEL 0 ≤ a ∧ a ≤ Reg.IRQ_AONPEND) || decide (Reg.PWR_SUPPLY ≤ a ∧ a ≤ Reg.PWR_RSTCAUSE) ||
    a == Reg.FLC_ABORT || a == Reg.FLC_PROT 0 || a == Reg.FLC_PROT 1 || a == Reg.SYS_UID_LO || a == Reg.SYS_UID_HI

/-- The registers that `keep` names stay; the others go back to their reset values. -/
def State.keepRegs (s : State) (keep : Nat → Bool) : State :=
  { s with regs := AMap.clear (fun k => !keep k) s.regs, act := AMap.clear (fun k => !keep k) s.act }

/-- The main-domain registers and everything else the main domains hold are reset, but for registers that `keep` names; SRAM,
flash, the always-on domain, the balls and the power controller's own record stay (R406). Of the interrupt pulses on their
way, those of the always-on domain stay. -/
def State.resetMain (s : State) (keep : Nat → Bool) : State :=
  ({ State.reset with
    pending := s.pending, regs := s.regs, mem := s.mem, aonBuf := s.aonBuf, data := s.data, err := s.err, free := s.free
    pulses := s.pulses.filter (fun n => n == 5 || n == 6 || n == 14)
    aonHigh := s.aonHigh, rtcDst := s.rtcDst, xtal := s.xtal, trim := s.trim, part := s.part, pwr := s.pwr, pins := s.pins
    mgb := { matcherHold := s.mgb.matcherHold }
    flc := { pwd := s.flc.pwd, ecc := s.flc.ecc, head := s.flc.head } }).keepRegs (fun k => alwaysOn k || keep k)

/-- The management address clears, ADR_OUT falls and a pending attention is discarded (10 R331). -/
def State.clearAddress (s : State) : State :=
  let s1 := ((s.lower F.MGB_ADDR_ASSIGNED).put F.MGB_ADDR_ADDR 0).lower F.MGB_ATTNSTAT_PENDING
  let s2 := (s1.put F.MGB_ATTNSTAT_CAUSE 0).raise F.MGB_ATTNSTAT_NEWLIFE
  { s2 with pins := { s2.pins with adrOut := false } }

/-- Transitions, held requests, wakes, the pad latch and the engine core's supply are gone. -/
def State.clearPower (s : State) : State :=
  { s with pwr := { inReset := s.pwr.inReset, mainOn := s.pwr.mainOn, thermOff := s.pwr.thermOff, vmainLow := s.pwr.vmainLow } }

/-- The main domains lose their power. -/
def State.powerDown (s : State) : State := { s with pwr := { s.pwr with mainOn := false, priming := none } }.watchRequests

/-- SRAM sections lose their contents: those whose bit of `off` is set, in the order of PWR_RET (R422). -/
def State.loseSram (s : State) (off : Nat) : State :=
  let s1 := if bitAt off 0 then s.wipe 0x10000000 0x10400000 else s
  let s2 := if bitAt off 1 then s1.wipe 0x10400000 0x10600000 else s1
  let s3 := if bitAt off 2 then { s2.wipe 0x10600000 0x10780000 with part := [] } else s2
  if bitAt off 3 then s3.wipe 0x10780000 0x10800000 else s3

/-! ## Priming (R412) -/

/-- The main domains are powered and out of reset, and priming starts: the device enters RUN at P0 on the 16 MHz RC clock (DESIGN CHOICE, log
entry 151), and the logbook records the cause (14 R452). `incarn` is the number drawn when the domains were off (10 R341). -/
def State.prime (s : State) (incarn : BitVec 16) (keepCst keepScr : Bool) : State :=
  let s1 := if s.pwr.mainOn then s else s.put F.MGB_INCARN_INCARN incarn.toNat
  let s2 := { s1 with pwr := { s1.pwr with mainOn := true, lost := false,
                                           priming := some { keepCst := keepCst, keepScr := keepScr }
                                           core := { mv := s1.get (F.PWR_OP_MV 0), mhz := 16 } } }
  (s2.put F.PWR_STAT_STATE 0).log 2 (bitsOf (s.reg Reg.PWR_RSTCAUSE).toNat 0 9)

/-- The device is reset (R406): main-domain registers, the management address, any pad hold; a flash operation is cut, and the balls take
their reset states, SCL among them (15 R462). -/
def State.deviceReset (s : State) (cause : Fld) : State :=
  let s1 := { (s.abandonFlash 3).resetMain (fun _ => false) with mgb := {} }
  ((s1.clearAddress).clearPower.raise cause).watchRequests

/-- A wake ends TRICKLE (R424) or OFF (R426), a transition that ends in RUN (R416, R429; log entry 152): priming, after TRICKLE with what
was retained, or as after a device reset when VMAIN did not hold through the entry (R405). -/
def State.primeFromSleep (s : State) (incarn : BitVec 16) : State :=
  if s.pwrState = 3 then
    let s1 := s.raise F.PWR_RSTCAUSE_TRICKLE
    if s.pwr.lost then
      ((s1.resetMain (fun _ => false)).clearAddress.clearPower).prime incarn false false
    else s1.prime incarn (s.bit Reg.PWR_RET 0) (s.bit Reg.PWR_RET 3)
  else (s.raise F.PWR_RSTCAUSE_OFF).prime incarn false false

/-- REFCLK_LOCK (R412, R414): every domain moves to its own clock, and the clear of a Cistern that was not retained starts. -/
def execRefclkLock (s : State) : Out :=
  .next (match s.pwr.priming with
  | some p =>
    if p.refLocked then s
    else
      let s1 := (((s.raise F.CLK_STAT_REFOK).put F.CLK_STAT_LOCK 31).lower F.CLK_STAT_NOREF).setPoint
        { s.pwr.core with mhz := s.get (F.PWR_OP_MHZ (s.get F.PWR_STAT_OP)) }
      let s2 := if p.keepCst then s1 else s1.startClear
      { s2 with pwr := { s2.pwr with priming := some { p with refLocked := true } } }
  | none => s)

/-- NO_REFCLK (R414). -/
def execNoRefclk (s : State) : Out :=
  .next (match s.pwr.priming with
  | some p =>
    if p.refLocked then s
    else ((s.raise F.CLK_STAT_NOREF).setBit Reg.SYS_READY 1 true).setBit Reg.SYS_READY 2 true
  | none => s)

/-- The main domains are primed far enough for block `i` to become ready (R412, R413): the key store's block once the clocks
have locked, every other once the calibration set has been read. -/
def State.primed (s : State) (i : Nat) : Bool :=
  match s.pwr.priming with
  | some p => decide (s.pwrState ≤ 1) && p.refLocked && (p.calLoaded || i == 14)
  | none => false

/-- Block `i` becomes ready (R28): the address matcher lets go of SCL (10 R336), the key store is clear unless it was retained (05 R165),
and the interrupt controller takes over from the slice (12 R385). -/
def State.becomeReady (s : State) (i : Nat) : State :=
  let s1 := s.setBit Reg.SYS_READY i true
  if i = 14 then
    match s1.pwr.priming with
    | some p =>
      let s2 := if p.keepScr then s1 else s1.wipe 0x107FC000 0x10800000
      { s2 with pwr := { s2.pwr with priming := some { p with keepScr := false } } }
    | none => s1
  else if i = 20 then s1.sliceCounts
  else if i = 3 then { s1 with mgb := { s1.mgb with matcherHold := false } }
  else s1

/-- The timers that slept through TRICKLE catch up over `cycles` cycles of the 32.768 kHz clock (12 R393). -/
def State.timersWake (s : State) (cycles : Nat) : State :=
  if s.pwr.slept then { s.catchUp cycles with pwr := { s.pwr with slept := false } } else s

/-- BLOCK_READY (R28, R412): the priming of a block completes. Block 11 waits for its band calibration and block 13 for a clear in
progress; the timers catch up before their bit sets (12 R393). -/
def execBlockReady (i : BlockIx) (cycles : Nat) (s : State) : Out :=
  .next (if s.ready i.val || !s.primed i.val || i.val == 11 || (i.val == 13 && s.flag F.CST_STAT_CLEARING) then s
    else if i.val = 18 then (s.timersWake cycles).becomeReady 18
    else s.becomeReady i.val)

/-- BAND_CALIBRATION_COMPLETE (06 R211): SYS_READY bit 11 sets. -/
def execBandCalibrationComplete (head : Headroom) (s : State) : Out :=
  .next (if s.ready 11 || !s.primed 11 then s else (s.noteHeadroom head).becomeReady 11)

/-- CISTERN_CLEAR_COMPLETE (05 R160). In STANDBY the clear stands still and no ready bit sets (R415). -/
def execCisternClearComplete (s : State) : Out :=
  .next (if s.flag F.CST_STAT_CLEARING && s.awake then s.finishClear else s)

/-! ## Block resets (R409) -/

/-- The management port's reads that wait for the flash are gone with their transaction. -/
def State.dropMgbReads (s : State) : State :=
  { s with flc := { s.flc with waits := s.flc.waits.filter (fun w =>
      match w with
      | .mgb _ _ _ => false
      | _ => true) } }

/-- A chain whose port radiates is blanked, also when its block has been reset meanwhile (02 R77). -/
def State.blankAgain (s : State) : State :=
  match s.tx.cur with
  | some l => s.blankChain (portChain l.d0)
  | none => s

/-- What a reset of block `i` does beside its registers, while they still hold their values. -/
def State.resetParts (s : State) (i : Nat) : State :=
  match i with
  | 2 => { (s.orphanReads .s).orphanReads .n with spi := {} }.orphanLocks (fun h => h == 64 || h == 65)
  | 3 => { s.dropMgbReads with mgb := { matcherHold := s.mgb.matcherHold } }.orphanLocks (fun h => h == 66)
  | 4 => { s.setMac 0 {} with ptp := {} }
  | 5 => s.setMac 1 {}
  | 6 => ({ s with eng := Vector.replicate 64 {}, wellLast := Vector.replicate 8 7 }).orphanLocks (fun h => decide (h < 64))
  | 7 => s.resetEvents
  | 8 => ({ s with chain := Vector.replicate 2 {} }.setBit Reg.SYS_READY 24 false).setBit Reg.SYS_READY 25 false
  | 9 =>
    let s0 := s.each (List.finRange 96) (fun s n => s.abortFrame n .off)
    let s1 := s0.each (List.finRange 96) (fun s n => s.setLane n { s.laneAt n with ran := false })
    s1.each (List.finRange 64) (fun s e => s.setEng e { s.engAt e with lio := { (s.engAt e).lio with fifo := [], held := 0 } })
  | 10 => s.resetPool
  | 11 => s.resetTx
  | 12 =>
    let s1 := if s.running then s.cutSlot else s
    let f := s1.sfm
    { s1 with
      sfm := { launches := f.launches, clock := f.clock, prevAsn := f.prevAsn, prevLen := f.prevLen, pause := f.pause }
      granules := Vector.replicate 16 [], fdr := { s1.fdr with realign := false } }
  | 14 => s.resetCipher
  | 15 => { s.pairOff with sph := {} }.putLanes [(.k307, .k307)]
  | 16 => { s with fdr := {} }
  | 17 => { s with ctr := {} }
  | 18 => { s with tmr := Vector.replicate 16 {} }
  | 21 => (s.abandonFlash 3).resetFlash
  | 22 => { s with age := {} }
  | _ => s

/-- What follows a reset of block `i` once its registers are reset: the clear of the Cistern (05 R160), the lanes of dark chains (02
R67), the always-on slice (12 R385), what survives in block 21 (14 R448, R451, R453). `old` is the state before. -/
def State.afterReset (s old : State) (i : Nat) : State :=
  match i with
  | 8 => s.blankAgain.reconcile
  | 9 => s.reconcile
  | 13 => s.startClear
  | 20 => s.watchRequests
  | 21 =>
    let s1 := (s.putB F.FLC_STAT_LOCKOUT (old.flag F.FLC_STAT_LOCKOUT)).put F.FLC_LOGSTAT_SEQ (old.get F.FLC_LOGSTAT_SEQ)
    let cause := old.get F.CAL_STAT_CAUSE
    (s1.put F.CAL_STAT_CAUSE cause).putB F.CAL_STAT_FLAG (cause != 0)
  | _ => s

/-- Block `i` is reset (R409, R11, R12): its ready bit and its lock bit clear, its registers take their reset values, and its C
fields the values of the last priming. Its parts reset first, so that LDP_HDR of a frame that block 10 gives up reads 0 (DESIGN CHOICE, log
entry 119). The snapshots of its upper words stay (DESIGN CHOICE, log entry 154). Blocks 0, 1, 19 and 23 cannot be reset alone. -/
def State.resetBlock (s : State) (i : Nat) : State :=
  if i = 0 ∨ i = 1 ∨ i = 19 ∨ 23 ≤ i then s
  else
    let s1 := ((s.setBit Reg.SYS_READY i false).setBit Reg.SYS_BLKLOCK i false).resetParts i
    let s2 := s1.keepRegs (fun k => keyBlock k != i || alwaysOn k)
    (s2.restoreCal (fun k => keyBlock k == i)).afterReset s i

/-- A write of `bits` to PWR_BLKRST. -/
def State.resetBlocks (s : State) (bits : Nat) : State :=
  s.each (List.range 24) (fun s i => if bitAt bits i then s.resetBlock i else s)

/-! ## Entries (R419 to R426) -/

/-- No engine waits for a shared access: each can stop at an instruction boundary (R419). -/
def State.drained (s : State) : Bool := (List.finRange 64).all (fun e => (s.engAt e).stall.isNone)

/-- The RUNNING engines stop with their operations in flight complete (R419, 08 R263). -/
def State.restEngines (s : State) : State :=
  s.each (List.finRange 64) (fun s e => if (s.engAt e).state == .running then s.setEng e (s.engAt e).drain else s)

/-- TRICKLE is entered: pads held, the sections and latches of R422 and R423 kept. A clear of a retained Cistern that the entry cuts short
leaves the table as it was before it (05 R160; DESIGN CHOICE, log entry 139). -/
def State.enterTrickle (s : State) : State :=
  let ret := s.reg Reg.PWR_RET
  let kept (k : Nat) : Bool := keyBlock k == 17 || keyBlock k == 18 || (bitAt ret.toNat 0 && k == Reg.CST_SUM) ||
    (bitAt ret.toNat 3 && decide (Reg.CIP_KSV 0 ≤ k ∧ k ≤ Reg.CIP_KSV 31))
  let s1 := s.latchPads.resetMain kept
  let s2 := ({ s1 with ctr := s.ctr, tmr := s.tmr }.loseSram (15 - bitsOf ret.toNat 0 4)).setBit Reg.SYS_BLKLOCK 17
    (s.bit Reg.SYS_BLKLOCK 17)
  let s3 := { s2 with pwr := { s2.clearPower.pwr with latch := s2.pwr.latch, slept := true } }
  (s3.put F.PWR_STAT_STATE 3).powerDown

/-- OFF is entered (R426). -/
def State.enterOff (s : State) : State :=
  (((s.resetMain (fun _ => false)).clearPower.loseSram 15).clearAddress.put F.PWR_STAT_STATE 4).powerDown

/-- What is left to do once TRICKLE or OFF is reached: a held request for RUN wakes the device from TRICKLE at once and goes on to its
point (R428); source 5 pulses when no transition follows (R429). The incarnation drawn is a free number (log entry 9). -/
def State.afterPowerOff (s : State) (held : Option PwrReq) : State :=
  match held with
  | some r =>
    if r.state = 0 ∧ s.pwrState = 3 then
      let d := s.draw 16
      let t := (d.2.primeFromSleep (BitVec.ofNat 16 d.1)).startRequest r
      if t.pwr.trans.isSome then t else t.pulse 5
    else s.pulse 5
  | none => s.pulse 5

/-- STANDBY_ENTRY (R420): slots have stopped, no launch is in progress, no flash operation, and every engine has come to rest. A host SPI
transaction under way ends there (DESIGN CHOICE, log entry 150). -/
def execStandbyEntry (s : State) : Out :=
  .next (match s.pwr.trans with
  | some t =>
    if t.state = 2 && !s.running && s.tx.cur.isNone && s.tx.hop.isNone && s.flc.op.isNone && s.drained then
      let s1 := s.restEngines.latchPads
      let s2 := { s1 with pwr := { s1.pwr with readies := s1.reg Reg.SYS_READY } }
      let s3 := ((s2.setReg Reg.SYS_READY 0x880001).stopWindows .a).stopWindows .b
      let s4 := { (s3.orphanReads .s).orphanReads .n with spi := s3.spi.cutOff }.setPoint (s.coreAsleep t.pol)
      (((s4.put F.PWR_STAT_STATE 2).reconcile).watchRequests).endTransition
    else s
  | none => s)

/-- ENTRY_ABANDONED (R419): a shared access stalled for more than 4,096 engine cycles abandons an entry to DOZE or STANDBY. -/
def execEntryAbandoned (s : State) : Out :=
  .next (match s.pwr.trans with
  | some t =>
    if (t.state = 1 ∨ t.state = 2) ∧ (List.finRange 64).any (fun e =>
        match (s.engAt e).stall with
        | some x => x.beyond
        | none => false) then
      (s.raise F.PWR_STAT_BLOCKED).endTransition
    else s
  | none => s)

/-- TRANSITION_COMPLETE (R418, R427, R429): a transition other than an entry to STANDBY or a return from it ends. An entry to TRICKLE or OFF
waits for a flash operation's result (14 R445). -/
def execTransitionComplete (s : State) : Out :=
  .next (match s.pwr.trans with
  | some t =>
    match t.state with
    | 0 => if s.pwrState ≤ 1 then (((s.reachPoint t).put F.PWR_STAT_STATE 0).put F.PWR_STAT_OP t.op).endTransition else s
    | 1 => if s.drained then ((s.reachPoint t).restEngines.put F.PWR_STAT_STATE 1).endTransition else s
    | 3 => if s.flc.op.isNone then s.enterTrickle.afterPowerOff s.pwr.held else s
    | 4 => if s.flc.op.isNone then s.enterOff.afterPowerOff s.pwr.held else s
    | _ => s
  | none => s)

/-- An event is pending at a loaded engine (R421). -/
def State.engineEvent (s : State) : Bool :=
  (List.finRange 64).any (fun e => (s.engAt e).loaded && (s.engAt e).evPend != 0)

/-- DOZE_END (R421): on a request for RUN, or with EVWAKE on an event at a loaded engine, the engines resume; an event brings the point
held at entry. -/
def execDozeEnd (s : State) : Out :=
  .next (if s.pwrState ≠ 1 then s
  else
    match s.pwr.trans with
    | some t => if t.state = 0 then s.put F.PWR_STAT_STATE 0 else s
    | none =>
      if s.flag F.PWR_CFG_EVWAKE && s.engineEvent then
        (s.beginTransition ⟨0, s.get F.PWR_STAT_OP, s.flag F.PWR_STAT_POLICY⟩).put F.PWR_STAT_STATE 0
      else s)

/-- The number of a wake source in PWR_WAKECAUSE. -/
def wakeBit : WakeSrc → Nat
  | .mgb => 0
  | .wkr => 1
  | .rtc => 2
  | .aonIrq => 3
  | .rstin => 4
  | .vmain => 5

/-- WAKE (R421, R424 to R426, R433): a source that has occurred ends the sleep, with the selector on VMAIN. STANDBY begins its return to
RUN; TRICKLE and OFF prime. RSTIN acts by itself (R407). -/
def execWake (w : WakeSrc) (incarn : BitVec 16) (s : State) : Out :=
  .next (if !s.pwr.wakes.contains (wakeBit w) || s.flag F.PWR_SUPPLY_SRC || s.pwr.inReset || s.pwr.trans.isSome then s
  else
    let s1 := { s with pwr := { s.pwr with wakes := [] } }
    if s.pwrState = 2 then s1.beginTransition ⟨0, s.get F.PWR_STAT_OP, s.flag F.PWR_STAT_POLICY⟩
    else (s1.primeFromSleep incarn).pulse 5)

/-- STANDBY_RELOCK (R415, R421): clocks relock, and with bit 3 of SYS_READY the address matcher lets go of SCL (10 R336); the timers catch
up over `cycles` cycles of the 32.768 kHz clock (12 R393), ready bits set again, enabled chains recalibrate (02 R79) and the device is in
RUN. -/
def execStandbyRelock (cycles : Nat) (s : State) : Out :=
  .next (match s.pwr.trans with
  | some t =>
    if t.state = 0 ∧ s.pwrState = 2 then
      let s1 := { (s.catchUp cycles).setReg Reg.SYS_READY (s.pwr.readies &&& 0xFFFFFF) with
                  mgb := { s.mgb with matcherHold := s.mgb.matcherHold && !bitAt s.pwr.readies.toNat 3 } }
      let s2 := if s1.ready 20 then s1.sliceCounts else s1
      let s3 := ((s2.setPoint (s2.coreTarget t.op t.pol)).put F.PWR_STAT_STATE 0).put F.PWR_STAT_OP t.op
      ((s3.recalChain .a).recalChain .b).endTransition
    else s
  | none => s)

/-! ## Supplies (R401 to R405) -/

/-- The supplies have these voltages, in mV (R436). A fall of VMAIN below 2.70 V clears the management address (10 R331). -/
def State.supplies (s : State) (vmain vbat : Nat) : State :=
  let low := decide (vmain < 2700)
  let s1 := (s.putB F.PWR_SUPPLY_VMAINOK (decide (2800 < vmain))).putB F.PWR_SUPPLY_VBATOK (decide (2000 ≤ vbat))
  let s2 := { s1 with pwr := { s1.pwr with vmainLow := low } }
  if low && !s.pwr.vmainLow then s2.clearAddress else s2

/-- The selector belongs on VBAT at these voltages (R401, R403): it leaves VMAIN below 2.70 V or more than 20 mV below VBAT, and VBAT
when VMAIN exceeds 2.80 V and VBAT: a VBAT at VMAIN holds it (log entry 129). -/
def State.wantsVbat (s : State) (vmain vbat : Nat) : Bool :=
  if s.flag F.PWR_SUPPLY_SRC then !decide (2800 < vmain ∧ vbat < vmain) else decide (vmain < 2700 ∨ vmain + 20 < vbat)

/-- AON_POWER_UP (R402, R406): the always-on domain powers up from the higher of the supplies, in mV. With VMAIN selected the main
domains power up as well; the incarnation drawn then is a free number (log entry 9). Flash and its non-volatile rows stay. -/
def execAonPowerUp (vmain vbat : Nat) (s : State) : Out :=
  .next (if max vmain vbat ≤ 1900 then s
  else
    let band := decide (2700 ≤ vmain ∧ vmain ≤ 2800)
    let onVbat := if band then decide (2000 ≤ vbat) else decide (vmain < 2700 ∨ vmain ≤ vbat)
    let nv (k : Nat) : Bool := k == Reg.FLC_PROT 0 || k == Reg.FLC_PROT 1 || k == Reg.SYS_UID_LO || k == Reg.SYS_UID_HI
    let s0 := { State.reset with
      pending := s.pending, regs := AMap.clear (fun k => !nv k) s.regs
      mem := AMap.clear (fun a => decide (0x800000 ≤ a)) s.mem, data := s.data, err := s.err
      free := s.free, pins := { s.pins with adrOut := false }, flc := { pwd := s.flc.pwd, ecc := s.flc.ecc } }
    let s1 := ((s0.putB F.PWR_SUPPLY_SRC onVbat).supplies vmain vbat).putB F.PWR_SUPPLY_COLDBAND band
    if onVbat then s1.watchRequests
    else
      let d := s1.draw 16
      (d.2.prime (BitVec.ofNat 16 d.1) false false).watchRequests)

/-- The emergency entry (R404, R405): from RUN, DOZE and STANDBY the device enters TRICKLE at once; a launch in progress ends, the SRAM
writes accepted complete, a flash operation is abandoned; `held` says that VMAIN stayed at 2.50 V or more until the entry was complete. A
device held in reset stays so. -/
def State.emergency (s : State) (held : Bool) : State :=
  let t := ({ s with tx := {} }.completeWrites.abandonFlash 2).enterTrickle
  let t1 := if held then t.raise F.PWR_RSTCAUSE_ENTRYOK
    else { t.loseSram 15 with pwr := { t.pwr with lost := true } }.lower F.PWR_RSTCAUSE_ENTRYOK
  if s.pwr.inReset then t1.deviceReset F.PWR_RSTCAUSE_RSTIN else t1

/-- SWITCH_TO_VBAT (R401, R404, R405): with the supplies at these voltages the selector leaves VMAIN. Where they do not move it, the
part takes note of them. -/
def execSwitchToVbat (vmain vbat : Nat) (held : Bool) (s : State) : Out :=
  .next (if !s.wantsVbat vmain vbat then (if s.flag F.PWR_SUPPLY_SRC then s else s.supplies vmain vbat)
  else if s.flag F.PWR_SUPPLY_SRC then s.supplies vmain vbat
  else
    let s1 := ((s.raise F.PWR_SUPPLY_SRC).raise F.PWR_SUPPLY_SWITCHED).pulse 6
    (if s.pwr.mainOn && decide (s.pwrState ≤ 2) then s1.emergency held else s1).supplies vmain vbat)

/-- SWITCH_TO_VMAIN (R401, R403, R425): with the supplies at these voltages the selector leaves VBAT. With the main domains off it is
VMAIN power-good: it wakes TRICKLE, and primes a device that has never run or whose reset waited for VMAIN. Where the voltages do not
move it, the part takes note of them. -/
def execSwitchToVmain (vmain vbat : Nat) (incarn : BitVec 16) (s : State) : Out :=
  .next (if s.wantsVbat vmain vbat then (if s.flag F.PWR_SUPPLY_SRC then s.supplies vmain vbat else s)
  else if !s.flag F.PWR_SUPPLY_SRC then s.supplies vmain vbat
  else
    let s1 := (((s.lower F.PWR_SUPPLY_SRC).raise F.PWR_SUPPLY_SWITCHED).supplies vmain vbat).pulse 6
    if s.pwr.mainOn then s1
    else
      let s2 := s1.signalWake 5
      if s.pwrState = 0 && !s.pwr.thermOff && !s.pwr.inReset then s2.prime incarn false false else s2)

/-- ALWAYS_ON_POWER_LOSS (12 R400): both supplies are lost and with them every state, but for flash and its non-volatile rows, until the
next power-up. -/
def execAlwaysOnPowerLoss (s : State) : Out :=
  .next (let nv (k : Nat) : Bool := k == Reg.FLC_PROT 0 || k == Reg.FLC_PROT 1 || k == Reg.SYS_UID_LO || k == Reg.SYS_UID_HI
    let x := s.abandonFlash 2
    { State.reset with
      pending := x.pending, regs := AMap.clear (fun k => !nv k) x.regs
      mem := AMap.clear (fun a => decide (0x800000 ≤ a)) x.mem
      data := x.data, err := x.err, free := x.free, pins := { x.pins with adrOut := false }
      flc := { pwd := x.flc.pwd, ecc := x.flc.ecc } })

/-! ## Resets (R407, R410) -/

/-- RSTIN (R407): the device is held in reset. In a low-power state the assertion is recorded as a wake source (R433); after a thermal
shutdown there is nothing to reset. -/
def execRstin (s : State) : Out :=
  .next (if s.pwr.thermOff then { s with pwr := { s.pwr with inReset := true } }.raise F.PWR_RSTCAUSE_RSTIN
  else
    let s1 := if 2 ≤ s.pwrState then s.raise F.PWR_WAKECAUSE_RSTIN else s
    let s2 := if s.pwrState = 4 then s1.raise F.PWR_RSTCAUSE_OFF else s1
    let s3 := s2.deviceReset F.PWR_RSTCAUSE_RSTIN
    { s3 with pwr := { s3.pwr with inReset := true, priming := none } })

/-- RSTIN_RELEASE (R407): priming starts, or once VMAIN is back (R425) or the junction has cooled (R435). -/
def execRstinRelease (incarn : BitVec 16) (s : State) : Out :=
  .next (if !s.pwr.inReset then s
  else
    let s1 := { s with pwr := { s.pwr with inReset := false } }
    if s1.flag F.PWR_SUPPLY_SRC || s1.pwr.thermOff then s1 else s1.prime incarn false false)

/-- BROWNOUT (R410): recorded also while RSTIN holds the device in reset, which then starts to prime at its release. -/
def execBrownout (s : State) : Out :=
  .next (if s.pwr.mainOn then
    let s1 := s.deviceReset F.PWR_RSTCAUSE_BROWNOUT
    if s.pwr.inReset then s1 else s1.prime 0 false false
  else s)

/-- A write of KEY to PWR_RST (R408). -/
def State.resetKey (s : State) (key : Nat) : State :=
  if key = 0xA5 then (s.deviceReset F.PWR_RSTCAUSE_DEVICE).prime 0 false false else s

/-! ## Thermal protection (R434, R435) -/

/-- THERMAL_WARNING (R434): the junction reaches 115 °C or falls to 110 °C. -/
def execThermalWarning (temp : Int) (s : State) : Out :=
  .next (if !s.pwr.mainOn then s
    else if 115 ≤ temp then
      (if s.flag F.PWR_THERM_WARN then s else (s.raise F.PWR_THERM_WARN).log 6 (s.get F.TMP_DIE_TEMP))
    else if temp ≤ 110 then s.lower F.PWR_THERM_WARN
    else s)

/-- THERMAL_SHUTDOWN (R435, 14 R444): every main domain and all SRAM switch off. -/
def execThermalShutdown (s : State) : Out :=
  .next (let s1 := ((s.abandonFlash 1).resetMain (fun _ => false)).clearPower
    let s2 := ((s1.loseSram 15).clearAddress).raise F.PWR_RSTCAUSE_THERMAL
    ({ s2 with pwr := { s2.pwr with thermOff := true } }).powerDown)

/-- THERMAL_RESTART (R435): the junction has fallen below 110 °C. Without VMAIN priming waits for it. -/
def execThermalRestart (incarn : BitVec 16) (s : State) : Out :=
  .next (if !s.pwr.thermOff then s
  else
    let s1 := { s with pwr := { s.pwr with thermOff := false } }
    if s1.flag F.PWR_SUPPLY_SRC || s1.pwr.inReset then s1 else s1.prime incarn false false)

end Sys2Proof.Machine
end

