-- ==== Sys2Proof/Machine/Flags.lean ====
section
/-! DEFINITION. What a register word becomes when it is written and when it is read: the access codes of 00 R7, the block lock of R11,
and the staged fields of 01 R38. -/

namespace Sys2Proof.Machine

/-- The bits of a register that a write sets: RW, and RWL while the block's lock bit is 0 (R7, R11). -/
def RegRow.writable (x : RegRow) (locked : Bool) : Nat := if locked then x.wr else x.wr ||| x.wrl

/-- The word a register holds after `v` is written over `old` (R7): RW and RWL bits take the value, a 1 clears a W1C bit and sets a
W1S bit, and nothing else changes. -/
def RegRow.written (x : RegRow) (locked : Bool) (old v : Word) : Word :=
  (mergeBits (x.writable locked) old v &&& ~~~(v &&& BitVec.ofNat 32 x.w1c)) ||| (v &&& BitVec.ofNat 32 x.w1s)

/-- The word a register holds after a read: RC bits are clear (R7, R9). -/
def RegRow.drained (x : RegRow) (old : Word) : Word := old &&& ~~~BitVec.ofNat 32 x.rc

/-- A write would change the shadow of a staged field (R38). -/
def RegRow.changesShadow (x : RegRow) (old new : Word) : Bool := (old ^^^ new) &&& BitVec.ofNat 32 x.st != 0

/-- The lock bit of the block that a register lies in (R11). -/
def State.locked (s : State) (a : Nat) : Bool := s.bit Reg.SYS_BLKLOCK (keyBlock a)

/-- ARM of the world of the block that a register lies in (R35, R38). -/
def State.armedFor (s : State) (a : Nat) : Bool := s.flag (F.SYS_STAGE_CTL_ARM (bit01 (s.blockNS (keyBlock a))))

end Sys2Proof.Machine
end

