-- ==== Sys2Proof/Machine/Operands.lean ====
section
/-! DEFINITION. What an access of a requester to a register address reaches: which copy of a banked register (01 R18, R35, 05 R153, 08
R279, 10 R320), and whether the register belongs to the secure world (01 R18, R21, 08 R268, 12 R384, 13 R411, 14 R459). -/

namespace Sys2Proof.Machine

/-- The index `i` below `count` with `a = base + stride * i`. -/
def familyIx (base stride count a : Nat) : Option Nat := (List.range count).find? (fun i => base + stride * i == a)

/-- The key of the copy of the register at `a` that requester `r` reaches. -/
def State.keyOf (s : State) (x : RegRow) (r a : Nat) : Nat :=
  match x.bank with
  | .single => a
  | .world => bankKey (s.world r) a
  | .select => bankKey (s.world r) a
  | .requester => bankKey r a

/-- The SYS registers that both worlds read, and the banked ones (R18). -/
def sysOpen (a : Nat) (wr : Bool) : Bool :=
  a == Reg.SYS_STAGE_CTL 0 || a == Reg.SYS_STAGE_STAT 0 ||
    (!wr && (a == Reg.SYS_ID || a == Reg.SYS_REV || a == Reg.SYS_UID_LO || a == Reg.SYS_UID_HI || a == Reg.SYS_READY))

/-- The registers of block 1 that are always secure (13 R411). -/
def pwrSecure (a : Nat) : Bool :=
  a == Reg.PWR_RST || a == Reg.PWR_BLKRST || a == Reg.PWR_RET || a == Reg.PWR_WAKEEN ||
    (familyIx (Reg.PWR_OP 0) 4 4 a).isSome || (familyIx (Reg.PWR_BIAS 0) 4 5 a).isSome

/-- The registers of block 20 that are always secure (12 R384). -/
def irqSecure (a : Nat) : Bool :=
  (familyIx (Reg.IRQ_HOLD 0) 4 16 a).isSome || (familyIx (Reg.IRQ_AONSEL 0) 4 32 a).isSome || a == Reg.IRQ_AONPEND

/-- An access to the register window at `a` is one that a non-secure requester may not make (R18, R20, R21, R268, R277, R320,
R384, R411, R459). -/
def State.windowSecure (s : State) (a : Nat) (wr : Bool) : Bool :=
  let i := keyBlock a
  if i = 0 then !sysOpen a wr
  else if i = 2 then
    (if a = Reg.HSP_CFG 0 ∨ a = Reg.HSP_STATUS 0 ∨ a = Reg.HSP_ERRADDR 0 then false else !s.blockNS i)
  else if i = 7 && wr && (familyIx (Reg.EVC_HPEND 0) 4 8 a).isSome then false
  else if !s.blockNS i then true
  else if i = 1 then pwrSecure a
  else if i = 6 then !s.engNS (a % 0x10000 / 0x400)
  else if i = 20 then
    irqSecure a ||
      (match familyIx (Reg.IRQ_SRC 0) 4 512 a with
       | some n => wr && !s.flag (F.IRQ_SRC_CTX n)
       | none => false)
  else if i = 22 then wr && (a == Reg.AGE_CFG || a == Reg.AGE_CMD)
  else false

/-- An access of requester `r` to the register window is a world violation (R20, R22). -/
def State.windowBarred (s : State) (r a : Nat) (wr : Bool) : Bool := s.reqNS r && s.windowSecure a wr

end Sys2Proof.Machine
end

