-- ==== Sys2Proof/Machine/View.lean ====
section
/-! DEFINITION. What each register reads as (the register tables of every chapter): the word held, or what the block shows of its
own state. A view is a word and the state with any free value it drew (log entry 9). -/

namespace Sys2Proof.Machine

/-- A word packed from fields at their lowest bits. -/
def wordOf (fs : List (Nat × Nat)) : Word := BitVec.ofNat 32 (pack fs)

/-- The 32-bit word whose bit `i` says whether `p i`. -/
def maskWord (p : Nat → Bool) : Word := BitVec.ofNat 32 ((List.range 32).foldl (fun v i => v + bit01 (p i) * 2 ^ i) 0)

/-- The register word under `k` with a field shown as `n`. -/
def State.shown (s : State) (k lo w n : Nat) : Word := BitVec.ofNat 32 (setBits (s.reg k).toNat lo w n)

/-- The lane with number `n`. -/
def laneNo (n : Nat) : Option LaneIx := (List.finRange 96).find? (fun l => l.val == n)

/-- The code of a lane state (02 R67). -/
def laneCode : LaneState → Nat
  | .off => 0
  | .search => 1
  | .header => 2
  | .payload => 3
  | .drain => 4
  | .ready => 5
  | .blank => 6

/-- Engine `k` is loaded (01 R28). -/
def State.engLoaded (s : State) (k : Nat) : Bool :=
  match engNo k with
  | some e => (s.engAt e).loaded
  | none => false

/-- A posted write to a register of block `i` is pending (01 R31). -/
def State.aonPends (s : State) (i : Nat) : Bool := s.aonBuf.any (fun w => keyBlock w.1 == i)

/-- SYS_AON_BUSY (01 R31). -/
def State.aonBusy (s : State) : Word :=
  wordOf [(0, bit01 (s.aonPends 19 || s.aonPends 1 || s.aonPends 21)), (1, bit01 (s.aonPends 20)), (2, bit01 (s.aonPends 3)),
    (3, bit01 (s.aonPends 23))]

/-- Registers of block 0 (01). -/
def State.viewSys (s : State) (k : Nat) : Word × State :=
  if k = Reg.SYS_READY_ENG_LO then (maskWord s.engLoaded, s)
  else if k = Reg.SYS_READY_ENG_HI then (maskWord (fun i => s.engLoaded (32 + i)), s)
  else if k = Reg.SYS_AON_BUSY then (s.aonBusy, s)
  else if k = Reg.SYS_STAGE_STAT 0 then (s.shown k 0 1 (s.get (F.SYS_STAGE_CTL_ARM 0)), s)
  else if k = Reg.SYS_STAGE_STAT 1 then (s.shown k 0 1 (s.get (F.SYS_STAGE_CTL_ARM 1)), s)
  else (s.reg k, s)

/-- Registers of block 1 (13). -/
def State.viewPwr (s : State) (k : Nat) : Word × State :=
  if k = Reg.PWR_PAD then (wordOf [(1, bit01 s.pwr.latch.isSome)], s)
  else if k = Reg.CLK_STAT then (s.clkStatView, s)
  else (s.reg k, s)

/-- Registers of blocks 4 and 5 (10). -/
def State.viewEth (s : State) (k : Nat) : Word × State :=
  if k = Reg.ETH_PTP_NS ∨ k = Reg.ETH_PTP_SLO ∨ k = Reg.ETH_PTP_SHI then
    let t := s.ptpShow
    (t.reg k, t)
  else (s.reg k, s)

/-- Registers of block 6 (08). -/
def State.viewEng (s : State) (k : Nat) : Word × State :=
  match engNo (k % 0x10000 / 0x400) with
  | some e =>
    let o := k % 0x400
    if o = 0x08 then ((s.engAt e).stat, s)
    else if 0x20 ≤ o ∧ o < 0x40 then (BitVec.setWidth 32 ((s.engAt e).tbWord ((o - 0x20) / 4)), s)
    else (s.reg k, s)
  | none => (s.reg k, s)

/-- Registers of block 7 as requester `r` sees them (08 R277). -/
def State.viewEvc (s : State) (r k : Nat) : Word × State :=
  match familyIx (Reg.EVC_HPEND 0) 4 8 k with
  | some w => (s.reg k &&& s.hpendMask (s.reqNS r) w, s)
  | none => (s.reg k, s)

/-- The residual offset of a chain as its DC loop works (02 R47), a free value: within −50 dBFS (103 of 32,768) with a valid
calibration set. -/
def State.dcView (s : State) : Word × State :=
  let i := s.draw 16
  let q := i.2.draw 16
  let v (x : Nat) : Nat := if s.get F.CAL_STAT_CAUSE != 0 then x else ofSigned 16 ((x % 207 : Nat) - 103)
  (wordOf [(0, v i.1), (16, v q.1)], q.2)

/-- The DC loop of a chain works: the chain is enabled and its synthesiser calibrated. -/
def State.dcWorks (s : State) (c : Chain) : Bool := s.chainEnabled c && s.chainReady c

/-- Registers of block 8 (02). RXC_DCA and RXC_DCB hold what the loop had when it stopped. -/
def State.viewRxc (s : State) (k : Nat) : Word × State :=
  if k = Reg.RXC_DC 0 ∧ s.dcWorks .a then s.dcView
  else if k = Reg.RXC_DC 1 ∧ s.dcWorks .b then s.dcView
  else if k = Reg.RXC_ACTIVE then (s.activeReg Reg.RXC_CTL, s)
  else if k = Reg.RXC_AFREQ 0 then (wordOf [(0, s.chainFreq .a)], s)
  else if k = Reg.RXC_AFREQ 1 then (wordOf [(0, s.chainFreq .b)], s)
  else if k = Reg.RXC_STAT 0 then (s.shown k 4 1 (bit01 (s.chainHolds .a)), s)
  else if k = Reg.RXC_STAT 1 then (s.shown k 4 1 (bit01 (s.chainHolds .b)), s)
  else (s.reg k, s)

/-- LAN_AFC.FERR of a lane: the estimate frozen at the lock while a frame comes in, to the 10 Hz unit below or above; 0 in OFF from a
reset of the block on (00 R12; log entry 17); else an estimate in progress, a free value within ±30 kHz (02 R55, R56). -/
def State.viewAfc (s : State) (l : Lane) : Word × State :=
  if l.state = .header ∨ l.state = .payload then
    if l.ferr64 % 64 = 0 then (wordOf [(0, ofSigned 16 (l.ferr64 / 64))], s)
    else
      let d := s.draw 1
      (wordOf [(0, ofSigned 16 (l.ferr64 / 64 + d.1))], d.2)
  else if l.state = .off ∧ !l.ran then (0, s)
  else
    let d := s.draw 16
    (wordOf [(0, ofSigned 16 ((d.1 % 6001 : Nat) - 3000))], d.2)

/-- LAN_STAT of a lane: SRCH is valid in HEADER, PAYLOAD and DRAIN, the digital gain is frozen in HEADER and PAYLOAD; elsewhere they are
free values, the gain within 0 to 84 (R55), and 0 in OFF from a reset of the block on (00 R12; log entry 17). -/
def State.viewLaneStat (s : State) (l : Lane) : Word × State :=
  let locked := l.state == .header || l.state == .payload
  let fresh := l.state == .off && !l.ran
  let a := if locked || l.state == .drain then (l.lock.srch, s) else if fresh then (0, s) else s.draw 2
  let b := if locked then (l.dgain, a.2) else if fresh then (0, a.2) else
    let d := a.2.draw 7
    (d.1 % 85, d.2)
  (wordOf [(0, laneCode l.state), (4, a.1), (8, b.1)], b.2)

/-- Registers of block 9 (02): the lane's state, its power now (R76) and the READY masks. -/
def State.viewLan (s : State) (k : Nat) : Word × State :=
  match familyIx (Reg.LAN_RDY 0) 4 3 k with
  | some w => (maskWord (fun i =>
      match laneNo (32 * w + i) with
      | some n => (s.laneAt n).state == .ready
      | none => false), s)
  | none =>
    match laneNo (k % 0x10000 / 0x200) with
    | some n =>
      let l := s.laneAt n
      if k = Reg.LAN_STAT n.val then s.viewLaneStat l
      else if k = Reg.LAN_RSSI n.val then
        (if l.state == .off || l.state == .blank then (s.shown k 0 8 0x80, s)
         else
           let d := s.draw 8
           (d.2.shown k 0 8 d.1, d.2))
      else if k = Reg.LAN_AFC n.val then s.viewAfc l
      else (s.reg k, s)
    | none => (s.reg k, s)

/-- Registers of block 10 (03 R104, R110): in DIVERSITY entries 48 to 95 show what entries 0 to 47 hold. -/
def State.viewLdp (s : State) (k : Nat) : Word × State :=
  if k = Reg.LDP_STAT then
    (wordOf [(0, (List.finRange 8).foldl (fun v d => v + bit01 (s.ldp[d.val]).isSome * 2 ^ d.val) 0), (8, s.ldpQueue.length)], s)
  else
    match familyIx (Reg.LDP_CHP 0) 4 96 k with
    | some n =>
      if s.diversity ∧ 48 ≤ n then
        (mergeBits 0xFF0F0700 (s.reg k) (s.reg (Reg.LDP_CHP (n - 48))), s)
      else (s.reg k, s)
    | none => (s.reg k, s)

/-- Registers of block 11 (06 R207). -/
def State.viewTx (s : State) (k : Nat) : Word × State :=
  if k = Reg.SYN_STAT then
    (BitVec.ofNat 32 (setBits (setBits (s.reg k).toNat 16 9 s.syn.lru.length) 8 5 s.syn.queue.length), s)
  else (s.reg k, s)

/-- Registers of block 12 (04 R114 to R127). -/
def State.viewSfm (s : State) (k : Nat) : Word × State :=
  if k = Reg.SFM_STAT then
    (BitVec.ofNat 32 (setBits (setBits (setBits (s.reg k).toNat 16 11 s.sfm.pend.length) 4 9 s.sfm.results.length) 1 1
      (bit01 (s.sfm.slew != 0 || s.sfm.slotLen != 80000))), s)
  else if k = Reg.SFM_ASN_LO then (BitVec.ofNat 32 s.sfm.asn.toNat, s)
  else if k = Reg.SFM_ASN_HI then (BitVec.ofNat 32 (s.sfm.asn.toNat / 2 ^ 32), s)
  else if k = Reg.SFM_RESULT then s.takeResult
  else (s.reg k, s)

/-- Registers of block 14 (05 R174, R190). -/
def State.viewCip (s : State) (k : Nat) : Word × State :=
  if k = Reg.CIP_STAT then
    (BitVec.ofNat 32 (setBits (setBits (s.reg k).toNat 16 7 s.cip.queue.length) 0 8
      ((List.finRange 8).foldl (fun v c => v + bit01 (s.cip.core[c.val]).isSome * 2 ^ c.val) 0)), s)
  else (s.reg k, s)

/-- Registers of block 18 (12 R387 to R390). -/
def State.viewTmr (s : State) (k : Nat) : Word × State :=
  match tmrNo (k % 0x10000 / 0x40) with
  | some n =>
    let t := s.tmrAt n
    if k = Reg.TMR_CNT_LO n.val then (if t.run then 0 else BitVec.ofNat 32 t.count.toNat, s)
    else if k = Reg.TMR_CNT_HI n.val then (if t.run then 0 else BitVec.ofNat 32 (t.count.toNat / 2 ^ 32), s)
    else if k = Reg.TMR_CAP_LO n.val then s.popCapture n
    else if k = Reg.TMR_STAT n.val then (s.timerStatView n, s)
    else (s.reg k, s)
  | none => (s.reg k, s)

/-- Registers of block 20 as requester `r` sees them (12 R380, R384). -/
def State.viewIrq (s : State) (r k : Nat) : Word × State :=
  let ns := s.reqNS r
  let c := s.world r
  if k = Reg.IRQ_CLAIM c then s.irqClaim c
  else if k = Reg.IRQ_STAT c then (s.irqStatView c, s)
  else
    match familyIx (Reg.IRQ_SRC 0) 4 512 k with
    | some n => (if ns && !s.flag (F.IRQ_SRC_CTX n) then 0 else s.irqSrcView n, s)
    | none =>
      match familyIx (Reg.IRQ_PEND 0) 4 16 k with
      | some w => (s.irqPendView ns w, s)
      | none => (s.reg k, s)

/-- What the register at address `a`, held under `k`, reads as to requester `r`. -/
def State.view (s : State) (r a k : Nat) : Word × State :=
  match keyBlock a with
  | 0 => s.viewSys k
  | 1 => s.viewPwr k
  | 3 => if k = Reg.MGB_ADDR then (s.shown k 8 1 (bit01 s.pins.adrIn), s) else (s.reg k, s)
  | 4 => s.viewEth k
  | 5 => s.viewEth k
  | 6 => s.viewEng k
  | 7 => s.viewEvc r k
  | 8 => s.viewRxc k
  | 9 => s.viewLan k
  | 10 => s.viewLdp k
  | 11 => s.viewTx k
  | 12 => s.viewSfm k
  | 14 => s.viewCip k
  | 15 => if k = Reg.SPH_IMGSUM then (BitVec.ofNat 32 s.imgSum, s) else (s.reg k, s)
  | 17 => if k = Reg.GPIO_IN then (BitVec.ofNat 32 s.pinLevels, s) else (s.reg k, s)
  | 18 => s.viewTmr k
  | 19 =>
    if k = Reg.RTC_TIME then s.rtcTimeView
    else if k = Reg.RTC_STAT then (s.shown k 6 1 (s.get F.RTC_CTL_HALT), s)
    else (s.reg k, s)
  | 20 => s.viewIrq r k
  | _ => (s.reg k, s)

/-! ## Snapshots (01 R32) -/

/-- The upper words of the multi-register value whose lowest-addressed word is at `a`. The bit vectors SYS_READY_ENG_LO/HI,
SYS_WLD_ENG_LO/HI and FLC_PROT0/1 are taken as registers of single bits, not as one value, and take no snapshot, as LAN_RDY (DESIGN
CHOICE, log entry 128). -/
def upperWords (a : Nat) : List Nat :=
  if a = Reg.SYS_UID_LO ∨ a = Reg.SFM_ASN_LO ∨ a = Reg.SFM_ASNSET_LO ∨ a = Reg.CIP_SELF_LO ∨ a = Reg.SPH_PEERUID_LO ∨
      a = Reg.RTC_TIME ∨ a = Reg.ETH_MAC_LO 0 ∨ a = Reg.ETH_MAC_LO 1 then [a + 4]
  else if a = Reg.FDR_TSEQ then [Reg.FDR_TS_LO, Reg.FDR_TS_HI]
  else if a = Reg.ETH_PTP_NS then [Reg.ETH_PTP_SLO, Reg.ETH_PTP_SHI]
  else if a = Reg.ETH_PTP_SF_NS then [Reg.ETH_PTP_SF_SLO, Reg.ETH_PTP_SF_SHI, Reg.ETH_PTP_SF_SFN]
  else if a = Reg.ETH_PTP_SETNS then [Reg.ETH_PTP_SETS_LO, Reg.ETH_PTP_SETS_HI]
  else if (familyIx (Reg.LAN_TS_LO 0) 0x200 96 a).isSome then [a + 4]
  else if (familyIx (Reg.TMR_CNT_LO 0) 0x40 16 a).isSome ∨ (familyIx (Reg.TMR_CMP_LO 0) 0x40 16 a).isSome ∨
      (familyIx (Reg.TMR_CAP_LO 0) 0x40 16 a).isSome then [a + 4]
  else []

/-- A snapshot of register `k` taken for requester `r`. -/
def State.snapOf (s : State) (r k : Nat) : Option Word :=
  (s.snaps.find? (fun x => x.req == r && x.key == k)).map Snap.val

/-- Requester `r` holds no snapshot of register `k`. -/
def State.dropSnap (s : State) (r k : Nat) : State := { s with snaps := s.snaps.filter (fun x => !(x.req == r && x.key == k)) }

/-- An access of requester `r` to the register held under `k` is served: its turn at the block is taken (08 R269), and a snapshot of the
register taken for it goes (R32). -/
def State.served (s : State) (r k : Nat) : State := (s.takeTurn r (keyBlock k)).dropSnap r k

/-- The upper words of the value at `a` are captured for requester `r`. -/
def State.captureUppers (s : State) (r a : Nat) : State :=
  s.each (upperWords a) (fun s b =>
    let v := if keyBlock b = 4 then (s.reg b, s) else s.view r b b
    { v.2.dropSnap r b with snaps := (v.2.dropSnap r b).snaps ++ [⟨r, b, v.1⟩] })

end Sys2Proof.Machine
end

