-- ==== Sys2Proof/Machine/Bus.lean ====
section
/-! DEFINITION. An access of a requester over the fabric (01 R13 to R39): loads and stores of memory, reads and writes of registers, and
what a write of each register does. -/

namespace Sys2Proof.Machine

/-! ## What a write does beside setting its fields

Each function takes the state before the write, the state with the fields written, the requester, the register's address and key, and
the value written. -/

/-- A write that changed fields of block 0 (01 R25, R36 to R39). -/
def State.wroteSys (s t : State) (r a : Nat) (v : Word) : State :=
  let w := v.toNat
  if a = Reg.SYS_STAGE_CTL 0 then s.stageCommand (s.reqNS r) (bitAt w 0) (bitAt w 1) (bitAt w 2)
  else if s.flag F.SYS_WLD_CTL_WLD_LOCK && worldReg a then s
  else t

/-- A target register of plan output `i` has been written (14 R457): a plan that stands goes stale when the output is enabled. -/
def State.noteTarget (s : State) (i : Nat) : State :=
  if s.get F.AGE_STAT_STATE != 0 && bitAt s.age.mask i then { s with age := { s.age with stale := true } } else s

/-- A write of MGB_ATTNREQ (10 R339). -/
def State.requestAttention (s : State) (cause : Nat) : State :=
  let s1 := s.put F.MGB_ATTNSTAT_CAUSE (s.get F.MGB_ATTNSTAT_CAUSE ||| cause)
  if s.flag F.MGB_ATTNSTAT_PENDING then s1
  else (s1.put F.MGB_ATTNSTAT_SEQ (s.get F.MGB_ATTNSTAT_SEQ + 1)).raise F.MGB_ATTNSTAT_PENDING

/-- Block 1 (13): requests, resets, pad release; an operating point is clamped and, in use, requested (R417). -/
def State.wrotePwr (s t : State) (a : Nat) (v : Word) : State :=
  let w := v.toNat
  if a = Reg.PWR_REQ then s.requestPower ⟨bitsOf w 0 3, bitsOf w 8 2, bitAt w 4⟩
  else if a = Reg.PWR_BLKRST then s.resetBlocks (bitsOf w 0 24)
  else if a = Reg.PWR_RST then s.resetKey (bitsOf w 0 8)
  else if a = Reg.PWR_PAD then (if bitAt w 0 then s.releasePads else s)
  else
    match familyIx (Reg.PWR_OP 0) 4 4 a with
    | some n =>
      let mhz := max 50 (min 400 (bitsOf w 16 9)) / 10 * 10
      let t1 := (t.put (F.PWR_OP_MHZ n) mhz).put (F.PWR_OP_MV n) (max 550 (min 950 (bitsOf w 0 10)))
      (t1.noteTarget 0).pointWritten n
    | none => t

/-- Block 3 (10 R339). -/
def State.wroteMgb (s t : State) (a : Nat) (v : Word) : State :=
  if a = Reg.MGB_ATTNREQ then s.requestAttention (bitsOf v.toNat 0 7) else t

/-- The MAC whose registers lie at `a`. -/
def macOf (a : Nat) : Fin 2 := if keyBlock a = 4 then 0 else 1

/-- Blocks 4 and 5 (10 R342 to R348): ring registers are fixed while their direction is enabled. -/
def State.wroteEth (s t : State) (a : Nat) (v : Word) : State :=
  let m := macOf a
  if a = Reg.ETH_CTL m.val then t.ethCtlWritten m (s.reg a)
  else if a = Reg.ETH_TXBASE m.val ∨ a = Reg.ETH_TXCNT m.val then (if s.flag (F.ETH_CTL_TXEN m.val) then s else t)
  else if a = Reg.ETH_RXBASE m.val ∨ a = Reg.ETH_RXCNT m.val then (if s.flag (F.ETH_CTL_RXEN m.val) then s else t)
  else if a = Reg.ETH_TXPOLL m.val then s.txPolled m
  else if a = Reg.ETH_MDIO m.val then s.mdioWrite m v
  else if a = Reg.ETH_PTP_INC then s.ptpNow.put F.ETH_PTP_INC_INC v.toNat
  else if a = Reg.ETH_PTP_SETS_HI then t.ptpLoad
  else if a = Reg.ETH_PTP_ADJ then s.ptpAdjust v
  else t

/-- Block 6 (08). -/
def State.wroteEng (s t : State) (a : Nat) (v : Word) : State :=
  match engNo (a % 0x10000 / 0x400) with
  | some e =>
    let o := a % 0x400
    if o = 0x00 then s.engineCtl e v
    else if o = 0x08 then s.engineStat e v
    else if o = 0x0C then s.enginePc e v
    else if o = 0x14 then s.engineWdt e v
    else t
  | none => t

/-- Block 7 (08 R272 to R282). -/
def State.wroteEvc (s t : State) (r a : Nat) (v : Word) : State × Option AccErr :=
  let n := bitsOf v.toNat 0 6
  if a = Reg.EVC_FIRE then s.fireChannel r (bitsOf v.toNat 0 8)
  else if a = Reg.LCK_ACQ then s.acquire r n
  else if a = Reg.LCK_REL then s.releaseLock r n
  else if a = Reg.LCK_CLR then s.clearOrphan r n
  else
    match familyIx (Reg.EVC_CH 0) 4 256 a, familyIx (Reg.EVC_HPEND 0) 4 8 a, familyIx (Reg.LCK_S 0) 4 64 a with
    | some c, _, _ => s.channelWrite r c v
    | _, some w, _ => (s.hpendClear (s.reqNS r) w v, none)
    | _, _, some k => s.lockWrite r k v
    | _, _, _ => (t, none)

/-- Block 8 (02 R42, R79): a frequency outside the range is not taken. -/
def State.wroteRxc (s t : State) (a : Nat) (v : Word) : State :=
  if a = Reg.RXC_CMD then
    let s1 := if bitAt v.toNat 0 then s.recalChain .a else s
    if bitAt v.toNat 1 then s1.recalChain .b else s1
  else t

/-- Block 9 (02 R69, R70). -/
def State.wroteLan (s t : State) (a : Nat) (v : Word) : State :=
  match familyIx (Reg.LAN_CTL 0) 0x200 96 a with
  | some k =>
    match laneNo k with
    | some n =>
      let s1 := if bitAt v.toNat 0 then s.releaseLane n else s
      if bitAt v.toNat 1 then s1.restartLane n else s1
    | none => s
  | none => t

/-- Block 11 (06 R209). -/
def State.wroteTx (s t : State) (a : Nat) (v : Word) : State :=
  if a = Reg.SYN_CMD then s.synCommand (bitsOf v.toNat 30 2) (bitsOf v.toNat 0 20)
  else if a = Reg.TXP_BACKOFF then t.noteTarget 1
  else if a = Reg.SYN_VCOLIM then t.noteTarget 2
  else t

/-- SFM_CTL.RUN follows the primary: this part has adopted its time (09 R302). -/
def State.runFollows (s : State) : Bool :=
  s.sph.timed && (s.pairState == 2 || s.pairState == 4 || s.pairState == 5)

/-- SFM_ASNSET takes a value: slots do not run and are not about to, and this part decides its own time (04 R115, 09 R302). -/
def State.mayAim (s : State) : Bool :=
  !s.running && !s.flag F.SFM_CTL_RUN && (s.pairState == 0 || s.pairState == 3)

/-- Block 12 (04). -/
def State.wroteSfm (s t : State) (a : Nat) (v : Word) : State :=
  let w := v.toNat
  if a = Reg.SFM_CTL then
    if s.runFollows then t.putB F.SFM_CTL_RUN (s.flag F.SFM_CTL_RUN)
    else if bitsOf w 0 1 = s.get F.SFM_CTL_RUN then t
    else ((t.putB F.SFM_CTL_RUN (s.flag F.SFM_CTL_RUN)).runBit (bitAt w 0)).planSettled
  else if a = Reg.SFM_ASNSET_LO ∨ a = Reg.SFM_ASNSET_HI then (if s.mayAim then t else s)
  else if a = Reg.SFM_ADJ then s.adjust (toSigned 24 w)
  else if a = Reg.SFM_SUBMIT then s.submitRequest (bitsOf w 30 2) (bitsOf w 12 18) (bitsOf w 0 12)
  else if a = Reg.SFM_CANCEL then s.cancelRequest (bitsOf w 0 12)
  else if a = Reg.SFM_HEARD then s.heard (toSigned 14 (bitsOf w 18 14)) (bitsOf w 0 18)
  else if a = Reg.SFM_MISS then s.missed (bitsOf w 0 18)
  else t

/-- Block 13 (05 R153 to R160). -/
def State.wroteCst (s t : State) (r a : Nat) (v : Word) : State :=
  if a = Reg.CST_CTL then (if bitAt v.toNat 0 then s.orderClear else s)
  else if a = Reg.CST_UGO 0 then (if bitAt v.toNat 0 then s.requestedUpdate r else s)
  else if a = Reg.CST_RQ 0 then s.routeQuery r (bitsOf v.toNat 0 18)
  else t

/-- The descriptor in the bank of requester `r` (05 R173). -/
def State.bankDesc (s : State) (r : Nat) : JobDesc :=
  ⟨s.reg (Reg.CIP_JD r 0), s.reg (Reg.CIP_JD r 1), s.reg (Reg.CIP_JD r 2), s.reg (Reg.CIP_JD r 3), s.reg (Reg.CIP_JD r 4),
    s.reg (Reg.CIP_JD r 5)⟩

/-- Block 14 (05 R170, R173): the write of CIP_JD5 submits. -/
def State.wroteCip (s t : State) (r a : Nat) (v : Word) : State :=
  if a = Reg.CIP_CTL then (if bitAt v.toNat 0 then s.flushKeys else s)
  else if a = Reg.CIP_JD 0 5 then t.submitJob r (s.reqNS r) (t.bankDesc r)
  else t

/-- Block 15 (09): command bits lowest first. -/
def State.wroteSph (s t : State) (a : Nat) (v : Word) : State :=
  if a = Reg.SPH_CTL then t.pairCtlWritten (s.reg a)
  else if a = Reg.SPH_CMD then
    let s1 := if bitAt v.toNat 1 then s.promote else s
    let s2 := if bitAt v.toNat 2 then s1.rejoin else s1
    if bitAt v.toNat 3 then s2.startHandover else s2
  else t

/-- Block 16 (11 R356 to R363). -/
def State.wroteFdr (s t : State) (a : Nat) : State :=
  if a = Reg.FDR_CTL then t.feederCtlWritten (s.reg a)
  else
    match (List.finRange 8).find? (fun k => Reg.FDR_CHCFG k.val == a) with
    | some k => t.channelWritten k (s.reg a)
    | none => t

/-- Block 17 (11 R366 to R373). -/
def State.wroteCtr (s t : State) (a k : Nat) (v : Word) : State :=
  let w := v.toNat
  let out := s.get F.GPIO_OUT_OUT
  if a = Reg.CTR_OUT then s.commandAll 0xFF w
  else if a = Reg.CTR_SET then s.commandAll (bitsOf w 0 8) 0xFF
  else if a = Reg.CTR_CLR then s.commandAll (bitsOf w 0 8) 0
  else if a = Reg.CTR_FBPOL then t.polarityWritten
  else if a = Reg.CTR_FCLR then s.clearFaults w
  else if a = Reg.GPIO_DIR ∨ a = Reg.GPIO_OUT then s.withEdges (fun s => s.setReg k (t.reg k))
  else if a = Reg.GPIO_SET then s.withEdges (fun s => s.put F.GPIO_OUT_OUT (out ||| bitsOf w 0 24))
  else if a = Reg.GPIO_CLR then s.withEdges (fun s => s.put F.GPIO_OUT_OUT (out &&& (bitsOf w 0 24 ^^^ 0xFFFFFF)))
  else if a = Reg.GPIO_TGL then s.withEdges (fun s => s.put F.GPIO_OUT_OUT (out ^^^ bitsOf w 0 24))
  else t

/-- Block 18 (12 R386 to R391). -/
def State.wroteTmr (s t : State) (a : Nat) (v : Word) : State :=
  match tmrNo (a % 0x10000 / 0x40) with
  | some n =>
    if a = Reg.TMR_CTL n.val then s.timerCtl n v
    else if a = Reg.TMR_CFG n.val then s.timerCfg n v
    else if a = Reg.TMR_CNT_LO n.val then s.timerCountWrite n false v
    else if a = Reg.TMR_CNT_HI n.val then s.timerCountWrite n true v
    else if a = Reg.TMR_CMP_HI n.val then s.timerCmpHi n v
    else t
  | none => t

/-- Block 20 (12 R378 to R384). -/
def State.wroteIrq (s t : State) (r a : Nat) (v : Word) : State :=
  if a = Reg.IRQ_COMPLETE 0 then s.irqComplete (s.world r) (bitsOf v.toNat 0 9)
  else
    match familyIx (Reg.IRQ_SRC 0) 4 512 a, familyIx (Reg.IRQ_HOLD 0) 4 16 a with
    | some n, _ => s.irqSrcWrite (s.reqNS r) n v
    | _, some g => t.holdWritten g
    | _, _ => t

/-- Block 21 (14): FLC_TIMING is clamped. -/
def State.wroteFlc (s t : State) (a : Nat) (v : Word) : State :=
  if a = Reg.FLC_CMD then s.flashCommand (bitsOf v.toNat 0 4)
  else if a = Reg.FLC_PWDIN then s.passwordWord (BitVec.ofNat 16 v.toNat)
  else if a = Reg.FLC_LOGADD then s.log 9 v.toNat
  else if a = Reg.FLC_TIMING then (t.put F.FLC_TIMING_PW (clampPw (bitsOf v.toNat 0 5))).noteTarget 3
  else t

/-- Block 22 (14 R455 to R459): command bits lowest first. -/
def State.wroteAge (s t : State) (a : Nat) (v : Word) : State :=
  if a = Reg.AGE_CMD then
    let s1 := if bitAt v.toNat 0 && s.get F.AGE_CFG_MODE != 0 then s.makePlan.planSettled else s
    let s2 := if bitAt v.toNat 1 then s1.approvePlan.planSettled else s1
    if bitAt v.toNat 2 then s2.rejectPlan else s2
  else t

/-- What a performed write of `v` to the register at `a`, held under `k`, does; `t` is the state with its fields written. -/
def State.wrote (s t : State) (r a k : Nat) (v : Word) : State × Option AccErr :=
  match keyBlock a with
  | 0 => (s.wroteSys t r a v, none)
  | 1 => (s.wrotePwr t a v, none)
  | 3 => (s.wroteMgb t a v, none)
  | 4 => (s.wroteEth t a v, none)
  | 5 => (s.wroteEth t a v, none)
  | 6 => (s.wroteEng t a v, none)
  | 7 => s.wroteEvc t r a v
  | 8 => (s.wroteRxc t a v, none)
  | 9 => (s.wroteLan t a v, none)
  | 11 => (s.wroteTx t a v, none)
  | 12 => (s.wroteSfm t a v, none)
  | 13 => (s.wroteCst t r a v, none)
  | 14 => (s.wroteCip t r a v, none)
  | 15 => (s.wroteSph t a v, none)
  | 16 => (s.wroteFdr t a, none)
  | 17 => (s.wroteCtr t a k v, none)
  | 18 => (s.wroteTmr t a v, none)
  | 20 => (s.wroteIrq t r a v, none)
  | 21 => (s.wroteFlc t a v, none)
  | 22 => (s.wroteAge t a v, none)
  | _ => (t, none)

/-! ## Posted writes of the always-on domain (01 R31) -/

/-- A write to the register at `a` is posted: it crosses into the always-on domain (R31, 10 R352, 12 R385, R395, 13 R436, 14 R458). -/
def posted (a : Nat) : Bool :=
  keyBlock a == 19 || keyBlock a == 23 || a == Reg.MGB_CFG || a == Reg.MGB_ADDR ||
    decide (Reg.IRQ_AONSEL 0 ≤ a ∧ a ≤ Reg.IRQ_AONPEND) || decide (Reg.PWR_SUPPLY ≤ a ∧ a ≤ Reg.PWR_RSTCAUSE) ||
    a == Reg.FLC_ABORT

/-- A write waits in the buffer of its register; it replaces one that waits there. -/
def State.post31 (s : State) (a : Nat) (v : Word) : State :=
  { s with aonBuf := s.aonBuf.filter (fun w => w.1 != a) ++ [(a, v)] }

/-- A posted write reaches its register. -/
def State.applyPosted (s : State) (a : Nat) (v : Word) : State :=
  match rowAt a with
  | some x =>
    let new := x.written false (s.reg a) v
    if a = Reg.RTC_CTL then s.rtcCtl v
    else if a = Reg.RTC_TIME ∨ a = Reg.RTC_DATE then s.rtcTime a new
    else s.setReg a new
  | none => s

/-- AON_WRITE_COMPLETE (R31): the write that waits for the register at `a` completes. -/
def execAonWriteComplete (a : Word) (s : State) : Out :=
  .next (match s.aonBuf.find? (fun w => w.1 == a.toNat) with
  | some w => { s with aonBuf := s.aonBuf.filter (fun w => w.1 != a.toNat) }.applyPosted w.1 w.2
  | none => s)

/-! ## Register accesses -/

/-- Whether an RXC_FREQ value lies outside the tuning range (02 R42). -/
def badTuning (a : Nat) (v : Word) : Bool :=
  (a == Reg.RXC_FREQ 0 || a == Reg.RXC_FREQ 1) && (decide (bitsOf v.toNat 0 20 < 750000) || decide (960000 < bitsOf v.toNat 0 20))

/-- A staged write refused while its world is armed (R38): LATE sets. -/
def State.refuseLate (s : State) (a : Nat) : State × Option AccErr :=
  (s.raise (F.SYS_STAGE_STAT_LATE (bit01 (s.blockNS (keyBlock a)))), some .other)

/-- A write of `v` by requester `r` to the register row `x` at `a`, its world and readiness checked. -/
def State.writeRow (s : State) (x : RegRow) (r a : Nat) (v : Word) : State × Option AccErr :=
  let k := s.keyOf x r a
  let new := x.written (s.locked a) (s.reg k) v
  let s := s.served r k
  if badTuning a v then
    (if s.armedFor a then (s.raise F.RXC_ERR_RANGE).refuseLate a else (s.raise F.RXC_ERR_RANGE, none))
  else if s.armedFor a && x.changesShadow (s.reg k) new then s.refuseLate a
  else if posted a then (s.post31 a v, none)
  else s.wrote (s.setReg k new) r a k v

/-- A read by requester `r` of the register row `x` at `a`: a snapshot taken for it, or what the register shows; RC bits clear, and
the uppers of a multi-register value are captured (R7, R32). -/
def State.readRow (s : State) (x : RegRow) (r a : Nat) : State × Word :=
  let k := s.keyOf x r a
  match s.snapOf r k with
  | some v => (s.served r k, v)
  | none =>
    let v := (s.served r k).view r a k
    let s1 := if x.rc = 0 then v.2 else v.2.setReg k (x.drained (v.2.reg k))
    (s1.captureUppers r a, v.1)

/-- A write of a whole word to the block window (R6, R22, R29). -/
def State.writeWindow (s : State) (r a : Nat) (v : Word) : State × Option AccErr :=
  if s.windowBarred r a true then (s.violation a true r, some .world)
  else if !s.ready (keyBlock a) then (s, some .other)
  else
    match rowAt a with
    | some x => s.writeRow x r a v
    | none => (s.takeTurn r (keyBlock a), none)

/-- A read of a whole word of the block window. -/
def State.readWindow (s : State) (r a : Nat) : State × Except AccErr Word :=
  if s.windowBarred r a false then (s.violation a false r, .error .world)
  else if !s.ready (keyBlock a) then (s, .error .other)
  else
    match rowAt a with
    | some x =>
      let y := s.readRow x r a
      (y.1, .ok y.2)
    | none => (s.takeTurn r (keyBlock a), .ok 0)

/-! ## Memory accesses -/

/-- A store of the low `n` bytes of `v` at `a` by requester `r` (R4, R6, R14, R22, R29). -/
def State.store (s : State) (r a n v : Nat) : State × Option AccErr :=
  match placeOf a with
  | .unassigned => (s, some .other)
  | .block _ =>
    if n = 4 ∧ a % 4 = 0 then s.writeWindow r a (BitVec.ofNat 32 v)
    else if s.windowBarred r (a / 4 * 4) true then (s.violation a true r, some .world)
    else (s, some .other)
  | p =>
    if s.reqNS r && !s.memNS a then (s.violation a true r, some .world)
    else if !s.placeReady p then (s, some .other)
    else (s.takeTurn r (targetOf a)).storePlace r a n v

/-- A load of `n` bytes at `a` by requester `r`: the key store reads 0 to everyone (05 R163). -/
def State.load (s : State) (r a n : Nat) : State × Except AccErr Nat :=
  match placeOf a with
  | .unassigned => (s, .error .other)
  | .keyStore => (s.takeTurn r (targetOf a), .ok 0)
  | .block _ =>
    if n = 4 ∧ a % 4 = 0 then
      match s.readWindow r a with
      | (s1, .ok v) => (s1, .ok v.toNat)
      | (s1, .error e) => (s1, .error e)
    else if s.windowBarred r (a / 4 * 4) false then (s.violation a false r, .error .world)
    else (s, .error .other)
  | p =>
    if s.reqNS r && !s.memNS a then (s.violation a false r, .error .world)
    else if !s.placeReady p then (s, .error .other)
    else (s.takeTurn r (targetOf a)).loadPlace a n

/-- A whole-word write by requester `r` (R2, R4). -/
def State.busWrite (s : State) (r a : Nat) (v : Word) : State × Option AccErr :=
  if a % 4 = 0 then s.store r a 4 v.toNat else (s, some .other)

/-- A whole-word read by requester `r` (R2, R4). -/
def State.busRead (s : State) (r a : Nat) : State × Except AccErr Nat :=
  if a % 4 = 0 then s.load r a 4 else (s, .error .other)

/-! ## How an access from outside is answered -/

/-- Requester `r` can make an access: the main domains run, and the port it comes through is ready (10 R328, R336). -/
def State.canReach (s : State) (r : Nat) : Bool :=
  s.pwr.mainOn && (if r = 64 ∨ r = 65 then s.ready 2 else if r = 66 then s.ready 3 else true)

/-- The answer of a write (log entry 10). -/
def State.answerWrite (x : State × Option AccErr) (r a : Nat) : State :=
  match x.2 with
  | some _ => { x.1.portError r a with data := 0, err := true }
  | none => { x.1 with data := 0, err := false }

/-- The answer of a read: a failed one returns zero (R22, R29). -/
def State.answerRead (x : State × Except AccErr Nat) (r a : Nat) : State :=
  match x.2 with
  | .ok v => { x.1 with data := BitVec.ofNat 32 v, err := false }
  | .error _ => { x.1.portError r a with data := 0, err := true }

/-- A whole-word write commanded from outside. -/
def State.command32 (s : State) (r a : Nat) (v : Word) : State :=
  if s.canReach r then State.answerWrite (s.busWrite r a v) r a else s

/-- A whole-word read commanded from outside. -/
def State.query32 (s : State) (r a : Nat) : State :=
  if s.canReach r then State.answerRead (s.busRead r a) r a else s

end Sys2Proof.Machine
end

