-- ==== Sys2Proof/Machine/Commands.lean ====
section
/-! DEFINITION. The commands that are one register access of a requester: each writes or reads the register that the spec's row names, and
the access does what the register's rules give. -/

namespace Sys2Proof.Machine


/-! ## Registers, locks and staging (00, 01) -/

/-- REGISTER_WRITE (00 R3). -/
def execRegisterWrite (r : Req) (a v : Word) (s : State) : Out :=
  .next (s.command32 r.val a.toNat v)

/-- RC_READ (00 R9, R10): the read of a register whose RC field it clears. -/
def execRcRead (r : Req) (a : Word) (s : State) : Out :=
  .next (s.query32 r.val a.toNat)

/-- SNAPSHOT_READ (01 R32): the read of the low word of a multi-register value. -/
def execSnapshotRead (r : Req) (a : Word) (s : State) : Out :=
  .next (s.query32 r.val a.toNat)

/-- BLOCK_LOCK (00 R11). -/
def execBlockLock (r : Req) (bits : BitVec 24) (s : State) : Out :=
  .next (s.command32 r.val Reg.SYS_BLKLOCK (bits.setWidth 32))

/-- WLD_LOCK (01 R25). -/
def execWldLock (r : Req) (s : State) : Out :=
  .next (s.command32 r.val Reg.SYS_WLD_CTL 1)

/-- STAGED_WRITE (01 R34, R38): a write to a register with staged fields. -/
def execStagedWrite (r : Req) (a v : Word) (s : State) : Out :=
  .next (s.command32 r.val a.toNat v)

/-- ARM (01 R36). -/
def execArm (r : Req) (s : State) : Out :=
  .next (s.command32 r.val (Reg.SYS_STAGE_CTL 0) 1)

/-- GAP (01 R37). -/
def execGap (r : Req) (s : State) : Out :=
  .next (s.command32 r.val (Reg.SYS_STAGE_CTL 0) 2)

/-- ABANDON (01 R39). -/
def execAbandon (r : Req) (s : State) : Out :=
  .next (s.command32 r.val (Reg.SYS_STAGE_CTL 0) 4)

/-! ## Receive path (02) -/

/-- RELEASE (02 R69). -/
def execRelease (r : Req) (n : LaneIx) (s : State) : Out :=
  .next (s.command32 r.val (Reg.LAN_CTL n.val) 1)

/-- RESTART (02 R70). -/
def execRestart (r : Req) (n : LaneIx) (s : State) : Out :=
  .next (s.command32 r.val (Reg.LAN_CTL n.val) 2)

/-- RECALA (02 R79). -/
def execRecalA (r : Req) (s : State) : Out :=
  .next (s.command32 r.val Reg.RXC_CMD 1)

/-- RECALB (02 R79). -/
def execRecalB (r : Req) (s : State) : Out :=
  .next (s.command32 r.val Reg.RXC_CMD 2)

/-! ## Superframe machine (04) -/

/-- SFM_RUN_START (04 R115): a write of RUN = 1 that carries QEN's shadow value. -/
def execSfmRunStart (r : Req) (s : State) : Out :=
  .next (s.command32 r.val Reg.SFM_CTL (s.reg Reg.SFM_CTL ||| 1))

/-- SFM_RUN_STOP (04 R115): a write of RUN = 0 that carries QEN's shadow value. -/
def execSfmRunStop (r : Req) (s : State) : Out :=
  .next (s.command32 r.val Reg.SFM_CTL (s.reg Reg.SFM_CTL &&& 0xFFFFFFFE))

/-- SFM_ADJ (04 R116). -/
def execSfmAdj (r : Req) (shift : BitVec 24) (s : State) : Out :=
  .next (s.command32 r.val Reg.SFM_ADJ (shift.setWidth 32))

/-- SFM_SUBMIT (04 R126). -/
def execSfmSubmit (r : Req) (mode : BitVec 2) (index : BitVec 18) (desc : BitVec 12) (s : State) : Out :=
  .next (s.command32 r.val Reg.SFM_SUBMIT (wordOf [(0, desc.toNat), (12, index.toNat), (30, mode.toNat)]))

/-- SFM_CANCEL (04 R127). -/
def execSfmCancel (r : Req) (desc : BitVec 12) (s : State) : Out :=
  .next (s.command32 r.val Reg.SFM_CANCEL (desc.setWidth 32))

/-- SFM_RESULT (04 R127). -/
def execSfmResult (r : Req) (s : State) : Out :=
  .next (s.query32 r.val Reg.SFM_RESULT)

/-- SFM_HEARD (04 R134). -/
def execSfmHeard (r : Req) (err : BitVec 14) (index : BitVec 18) (s : State) : Out :=
  .next (s.command32 r.val Reg.SFM_HEARD (wordOf [(0, index.toNat), (18, err.toNat)]))

/-- SFM_MISS (04 R134). -/
def execSfmMiss (r : Req) (index : BitVec 18) (s : State) : Out :=
  .next (s.command32 r.val Reg.SFM_MISS (index.setWidth 32))

/-! ## Cistern and ciphers (05) -/

/-- CST_UGO (05 R153). -/
def execCstUgo (r : Req) (s : State) : Out :=
  .next (s.command32 r.val (Reg.CST_UGO 0) 1)

/-- CST_RQ (05 R159). -/
def execCstRq (r : Req) (index : BitVec 18) (s : State) : Out :=
  .next (s.command32 r.val (Reg.CST_RQ 0) (index.setWidth 32))

/-- CLEAR (05 R160). -/
def execClear (r : Req) (s : State) : Out :=
  .next (s.command32 r.val Reg.CST_CTL 1)

/-- CISTERN_DIRECT_WRITE (05 R156, 09 R294): a word written straight into Cistern SRAM. -/
def execCisternDirectWrite (r : Req) (a v : Word) (s : State) : Out :=
  .next (if placeOf a.toNat = .cistern then s.command32 r.val a.toNat v else s)

/-- The bytes of a width (R163). -/
def widthBytes : Width → Nat
  | .byte => 1
  | .half => 2
  | .three => 3
  | .word => 4

/-- KEY_STORE_WRITE (05 R163, R164): a write of any width into the key store. -/
def execKeyStoreWrite (r : Req) (a v : Word) (w : Width) (s : State) : Out :=
  .next (if placeOf a.toNat = .keyStore && s.canReach r.val then
    State.answerWrite (s.store r.val a.toNat (widthBytes w) v.toNat) r.val a.toNat
  else s)

/-- The six descriptor words with operation `op`, written to the bank of requester `r`; the sixth submits (05 R173). -/
def State.submitDesc (s : State) (r op : Nat) (j : JobDesc) : State :=
  let w0 := BitVec.ofNat 32 (setBits j.w0.toNat 28 4 op)
  s.each [(0, w0), (1, j.w1), (2, j.w2), (3, j.w3), (4, j.w4), (5, j.w5)] (fun s x => s.command32 r (Reg.CIP_JD 0 x.1) x.2)

/-- DEEP_ENC (05 R173, R176). -/
def execDeepEnc (r : Req) (j : JobDesc) (s : State) : Out :=
  .next (s.submitDesc r.val 0 j)

/-- DEEP_DEC (05 R173, R176). -/
def execDeepDec (r : Req) (j : JobDesc) (s : State) : Out :=
  .next (s.submitDesc r.val 1 j)

/-- SUN_ENC (05 R173, R176). -/
def execSunEnc (r : Req) (j : JobDesc) (s : State) : Out :=
  .next (s.submitDesc r.val 2 j)

/-- SUN_DEC (05 R173, R176). -/
def execSunDec (r : Req) (j : JobDesc) (s : State) : Out :=
  .next (s.submitDesc r.val 3 j)

/-- CMAC_GEN (05 R173, R176). -/
def execCmacGen (r : Req) (j : JobDesc) (s : State) : Out :=
  .next (s.submitDesc r.val 4 j)

/-- CMAC_VER (05 R173, R176). -/
def execCmacVer (r : Req) (j : JobDesc) (s : State) : Out :=
  .next (s.submitDesc r.val 5 j)

/-- PRIME (05 R173, R176). -/
def execPrime (r : Req) (j : JobDesc) (s : State) : Out :=
  .next (s.submitDesc r.val 6 j)

/-- FLUSH (05 R170). -/
def execFlush (r : Req) (s : State) : Out :=
  .next (s.command32 r.val Reg.CIP_CTL 1)

/-! ## Synthesiser (06) -/

/-- SYN_CALIBRATE (06 R209). -/
def execSynCalibrate (r : Req) (khz : BitVec 20) (s : State) : Out :=
  .next (s.command32 r.val Reg.SYN_CMD (wordOf [(0, khz.toNat), (30, 1)]))

/-- SYN_INVALIDATE (06 R209). -/
def execSynInvalidate (r : Req) (khz : BitVec 20) (s : State) : Out :=
  .next (s.command32 r.val Reg.SYN_CMD (wordOf [(0, khz.toNat), (30, 2)]))

/-- SYN_INVALIDATE_ALL (06 R209): a write with OP = 3 whose KHZ, which it does not use, is in the range that R212 asks for (DEDUCED,
log entry 134). -/
def execSynInvalidateAll (r : Req) (s : State) : Out :=
  .next (s.command32 r.val Reg.SYN_CMD (wordOf [(0, 750000), (30, 3)]))

/-! ## Engines, events and locks (08) -/

/-- LOAD (08 R261, 07 R223). -/
def execLoad (r : Req) (e : EngIx) (s : State) : Out :=
  .next (s.command32 r.val (Reg.ENG_CTL e.val) 8)

/-- START (08 R261, R264). -/
def execStart (r : Req) (e : EngIx) (s : State) : Out :=
  .next (s.command32 r.val (Reg.ENG_CTL e.val) 1)

/-- HALT (08 R261, R263). -/
def execHalt (r : Req) (e : EngIx) (s : State) : Out :=
  .next (s.command32 r.val (Reg.ENG_CTL e.val) 2)

/-- FORCE (08 R261, R267). -/
def execForce (r : Req) (e : EngIx) (s : State) : Out :=
  .next (s.command32 r.val (Reg.ENG_CTL e.val) 4)

/-- ENG_PC_WRITE (08 R264). -/
def execEngPcWrite (r : Req) (e : EngIx) (x : BitVec 11) (s : State) : Out :=
  .next (s.command32 r.val (Reg.ENG_PC e.val) (x.setWidth 32))

/-- An address inside an engine's instruction store (01 R13, R15). -/
def inStore (a : Nat) : Bool :=
  match placeOf a with
  | .engMem _ => decide ((a - 0x10600000) % 0x6000 < 0x3000)
  | _ => false

/-- INSTRUCTION_STORE_WRITE (08 R262). -/
def execInstructionStoreWrite (r : Req) (a v : Word) (s : State) : Out :=
  .next (if inStore a.toNat then s.command32 r.val a.toNat v else s)

/-- ENG_WDT_WRITE (08 R271). -/
def execEngWdtWrite (r : Req) (e : EngIx) (v : BitVec 16) (s : State) : Out :=
  .next (s.command32 r.val (Reg.ENG_WDT e.val) (v.setWidth 32))

/-- EVC_FIRE (08 R272, R278). -/
def execEvcFire (r : Req) (ch : Byte) (s : State) : Out :=
  .next (s.command32 r.val Reg.EVC_FIRE (ch.setWidth 32))

/-- EVC_HPEND_CLEAR (08 R273, R277). -/
def execEvcHpendClear (r : Req) (w : Fin 8) (v : Word) (s : State) : Out :=
  .next (s.command32 r.val (Reg.EVC_HPEND w.val) v)

/-- CHANNEL_LOCK (08 R276): a write of EVC_CHc with LOCK = 1. -/
def execChannelLock (r : Req) (c : Byte) (v : Word) (s : State) : Out :=
  .next (s.command32 r.val (Reg.EVC_CH c.toNat) (v ||| 0x80000000))

/-- LCK_ACQ (08 R279). -/
def execLckAcq (r : Req) (k : BitVec 6) (s : State) : Out :=
  .next (s.command32 r.val Reg.LCK_ACQ (k.setWidth 32))

/-- LCK_REL (08 R280). -/
def execLckRel (r : Req) (k : BitVec 6) (s : State) : Out :=
  .next (s.command32 r.val Reg.LCK_REL (k.setWidth 32))

/-- LCK_CLR (08 R281). -/
def execLckClr (r : Req) (k : BitVec 6) (s : State) : Out :=
  .next (s.command32 r.val Reg.LCK_CLR (k.setWidth 32))

/-! ## Redundant pairs (09) -/

/-- PAIRING_ENABLE (09 R283): a write of SPH_CTL with EN = 1. -/
def execPairingEnable (r : Req) (v : Word) (s : State) : Out :=
  .next (s.command32 r.val Reg.SPH_CTL (v ||| 1))

/-- PAIRING_DISABLE (09 R283): a write of SPH_CTL with EN = 0 and the other fields as they stand. -/
def execPairingDisable (r : Req) (s : State) : Out :=
  .next (s.command32 r.val Reg.SPH_CTL (s.reg Reg.SPH_CTL &&& 0xFFFFFFFE))

/-- REJOIN (09 R308). -/
def execRejoin (r : Req) (s : State) : Out :=
  .next (s.command32 r.val Reg.SPH_CMD 4)

/-- PROMOTE (09 R314). -/
def execPromote (r : Req) (s : State) : Out :=
  .next (s.command32 r.val Reg.SPH_CMD 2)

/-- HANDOVER (09 R313). -/
def execHandover (r : Req) (s : State) : Out :=
  .next (s.command32 r.val Reg.SPH_CMD 8)

/-! ## Management and Ethernet ports (10) -/

/-- MGB_ATTNREQ (10 R339). -/
def execMgbAttnreq (r : Req) (cause : BitVec 7) (s : State) : Out :=
  .next (s.command32 r.val Reg.MGB_ATTNREQ (cause.setWidth 32))

/-- ETH_TXPOLL (10 R345). -/
def execEthTxpoll (r : Req) (m : Fin 2) (s : State) : Out :=
  .next (s.command32 r.val (Reg.ETH_TXPOLL m.val) 0)

/-- ETH_ENABLE (10 R346): a write of ETH_CTL with RXEN and TXEN as given and the other fields as they stand. -/
def execEthEnable (r : Req) (m : Fin 2) (rx tx : Bool) (s : State) : Out :=
  .next (s.command32 r.val (Reg.ETH_CTL m.val)
    (BitVec.ofNat 32 (setBits (s.reg (Reg.ETH_CTL m.val)).toNat 0 2 (bit01 tx + 2 * bit01 rx))))

/-- MDIO_GO (10 R342): a write of ETH_MDIO with GO = 1. -/
def execMdioGo (r : Req) (m : Fin 2) (v : Word) (s : State) : Out :=
  .next (s.command32 r.val (Reg.ETH_MDIO m.val) (v ||| 0x80000000))

/-- ETH_PTP_SETS_HI (10 R348). -/
def execEthPtpSetsHi (r : Req) (v : BitVec 16) (s : State) : Out :=
  .next (s.command32 r.val Reg.ETH_PTP_SETS_HI (v.setWidth 32))

/-- ETH_PTP_ADJ (10 R348). -/
def execEthPtpAdj (r : Req) (v : Word) (s : State) : Out :=
  .next (s.command32 r.val Reg.ETH_PTP_ADJ v)

/-! ## Feeder and cabinet I/O (11) -/

/-- FDR_ENABLE (11 R362): a write of FDR_CTL with EN = 1 and the other fields as they stand. -/
def execFdrEnable (r : Req) (s : State) : Out :=
  .next (s.command32 r.val Reg.FDR_CTL (s.reg Reg.FDR_CTL ||| 1))

/-- FDR_ALIGN_CHANGE (11 R363): a write of FDR_CTL with ALIGN as given and the other fields as they stand. -/
def execFdrAlignChange (r : Req) (align : Bool) (s : State) : Out :=
  .next (s.command32 r.val Reg.FDR_CTL (s.shown Reg.FDR_CTL 1 1 (bit01 align)))

/-- CTR_OUT (11 R366). -/
def execCtrOut (r : Req) (v : Byte) (s : State) : Out :=
  .next (s.command32 r.val Reg.CTR_OUT (v.setWidth 32))

/-- CTR_SET (11 R366). -/
def execCtrSet (r : Req) (v : Byte) (s : State) : Out :=
  .next (s.command32 r.val Reg.CTR_SET (v.setWidth 32))

/-- CTR_CLR (11 R366). -/
def execCtrClr (r : Req) (v : Byte) (s : State) : Out :=
  .next (s.command32 r.val Reg.CTR_CLR (v.setWidth 32))

/-- CTR_FCLR (11 R371). -/
def execCtrFclr (r : Req) (v : Byte) (s : State) : Out :=
  .next (s.command32 r.val Reg.CTR_FCLR (v.setWidth 32))

/-- GPIO_SET (11 R372). -/
def execGpioSet (r : Req) (v : BitVec 24) (s : State) : Out :=
  .next (s.command32 r.val Reg.GPIO_SET (v.setWidth 32))

/-- GPIO_CLR (11 R372). -/
def execGpioClr (r : Req) (v : BitVec 24) (s : State) : Out :=
  .next (s.command32 r.val Reg.GPIO_CLR (v.setWidth 32))

/-- GPIO_TGL (11 R372). -/
def execGpioTgl (r : Req) (v : BitVec 24) (s : State) : Out :=
  .next (s.command32 r.val Reg.GPIO_TGL (v.setWidth 32))

/-! ## Interrupts, timers and calendar (12) -/

/-- IRQ_CLAIM (12 R380): a read of the claim register of the reader's context. -/
def execIrqClaim (r : Req) (s : State) : Out :=
  .next (s.query32 r.val (Reg.IRQ_CLAIM 0))

/-- IRQ_COMPLETE (12 R381). -/
def execIrqComplete (r : Req) (n : SrcIx) (s : State) : Out :=
  .next (s.command32 r.val (Reg.IRQ_COMPLETE 0) (BitVec.ofNat 32 n.val))

/-- IRQ_SRC_WRITE (12 R384). -/
def execIrqSrcWrite (r : Req) (n : SrcIx) (v : Word) (s : State) : Out :=
  .next (s.command32 r.val (Reg.IRQ_SRC n.val) v)

/-- TMR_START (12 R387). -/
def execTmrStart (r : Req) (k : TmrIx) (s : State) : Out :=
  .next (s.command32 r.val (Reg.TMR_CTL k.val) 1)

/-- TMR_STOP (12 R387). -/
def execTmrStop (r : Req) (k : TmrIx) (s : State) : Out :=
  .next (s.command32 r.val (Reg.TMR_CTL k.val) 2)

/-- CAP (12 R390). -/
def execCap (r : Req) (c : CapWrite) (s : State) : Out :=
  .next (let t := s.command32 r.val (Reg.TMR_CTL c.timer.val) 0
    if s.canReach r.val && !t.err then t.captures [c.timer] c.same else t)

/-- CLRQ (12 R390). -/
def execClrq (r : Req) (k : TmrIx) (s : State) : Out :=
  .next (s.command32 r.val (Reg.TMR_CTL k.val) 8)

/-- TMR_CMP_HI_WRITE (12 R389). -/
def execTmrCmpHiWrite (r : Req) (k : TmrIx) (v : BitVec 16) (s : State) : Out :=
  .next (s.command32 r.val (Reg.TMR_CMP_HI k.val) (v.setWidth 32))

/-- TMR_CAP_LO_READ (12 R390). -/
def execTmrCapLoRead (r : Req) (k : TmrIx) (s : State) : Out :=
  .next (s.query32 r.val (Reg.TMR_CAP_LO k.val))

/-- TMR_CFG_WRITE (12 R387, R388). -/
def execTmrCfgWrite (r : Req) (k : TmrIx) (v : Word) (s : State) : Out :=
  .next (s.command32 r.val (Reg.TMR_CFG k.val) v)

/-- DSTADD (12 R398): a write of RTC_CTL with DSTADD = 1 and the RW fields as they stand; it crosses as R31 gives. -/
def execDstadd (r : Req) (s : State) : Out :=
  .next (s.command32 r.val Reg.RTC_CTL (s.reg Reg.RTC_CTL ||| 8))

/-- DSTSUB (12 R398): a write of RTC_CTL with DSTSUB = 1 and the RW fields as they stand; it crosses as R31 gives. -/
def execDstsub (r : Req) (s : State) : Out :=
  .next (s.command32 r.val Reg.RTC_CTL (s.reg Reg.RTC_CTL ||| 16))

/-- RTC_TIME_WRITE (12 R395): a write of RTC_TIME or RTC_DATE; it crosses as R31 gives. -/
def execRtcTimeWrite (r : Req) (date : Bool) (v : Word) (s : State) : Out :=
  .next (s.command32 r.val (if date then Reg.RTC_DATE else Reg.RTC_TIME) v)

/-! ## Power (13) -/

/-- PWR_RST (13 R408). -/
def execPwrRst (r : Req) (key : Byte) (s : State) : Out :=
  .next (s.command32 r.val Reg.PWR_RST (key.setWidth 32))

/-- BLOCK_RESET (13 R409). -/
def execBlockReset (r : Req) (bits : BitVec 24) (s : State) : Out :=
  .next (s.command32 r.val Reg.PWR_BLKRST (bits.setWidth 32))

/-- RUN_REQUEST (13 R416, R418). -/
def execRunRequest (r : Req) (op : Fin 4) (pol : Bool) (s : State) : Out :=
  .next (s.command32 r.val Reg.PWR_REQ (wordOf [(4, bit01 pol), (8, op.val)]))

/-- DOZE_REQUEST (13 R416, R419). -/
def execDozeRequest (r : Req) (pol : Bool) (s : State) : Out :=
  .next (s.command32 r.val Reg.PWR_REQ (wordOf [(0, 1), (4, bit01 pol)]))

/-- STANDBY_REQUEST (13 R416, R420). -/
def execStandbyRequest (r : Req) (pol : Bool) (s : State) : Out :=
  .next (s.command32 r.val Reg.PWR_REQ (wordOf [(0, 2), (4, bit01 pol)]))

/-- TRICKLE_REQUEST (13 R416, R422). -/
def execTrickleRequest (r : Req) (pol : Bool) (s : State) : Out :=
  .next (s.command32 r.val Reg.PWR_REQ (wordOf [(0, 3), (4, bit01 pol)]))

/-- OFF_REQUEST (13 R416, R426). -/
def execOffRequest (r : Req) (pol : Bool) (s : State) : Out :=
  .next (s.command32 r.val Reg.PWR_REQ (wordOf [(0, 4), (4, bit01 pol)]))

/-- PAD_RELEASE (13 R430). -/
def execPadRelease (r : Req) (s : State) : Out :=
  .next (s.command32 r.val Reg.PWR_PAD 1)

/-- PWR_OP_WRITE (13 R417). -/
def execPwrOpWrite (r : Req) (n : Fin 4) (v : Word) (s : State) : Out :=
  .next (s.command32 r.val (Reg.PWR_OP n.val) v)

/-! ## Flash, calibration and ageing (14) -/

/-- PROG (14 R443, R440). -/
def execProg (r : Req) (s : State) : Out :=
  .next (s.command32 r.val Reg.FLC_CMD 1)

/-- ERASE (14 R443, R441). -/
def execErase (r : Req) (s : State) : Out :=
  .next (s.command32 r.val Reg.FLC_CMD 2)

/-- SETPROT (14 R443, R447). -/
def execSetprot (r : Req) (s : State) : Out :=
  .next (s.command32 r.val Reg.FLC_CMD 3)

/-- CLRPROT (14 R443, R447). -/
def execClrprot (r : Req) (s : State) : Out :=
  .next (s.command32 r.val Reg.FLC_CMD 4)

/-- PWDSET (14 R443, R449). -/
def execPwdset (r : Req) (s : State) : Out :=
  .next (s.command32 r.val Reg.FLC_CMD 5)

/-- LOCK (14 R443, R448). -/
def execLock (r : Req) (s : State) : Out :=
  .next (s.command32 r.val Reg.FLC_CMD 6)

/-- LOGCLR (14 R443, R453). -/
def execLogclr (r : Req) (s : State) : Out :=
  .next (s.command32 r.val Reg.FLC_CMD 7)

/-- FLC_PWDIN (14 R448, R449). -/
def execFlcPwdin (r : Req) (w : BitVec 16) (s : State) : Out :=
  .next (s.command32 r.val Reg.FLC_PWDIN (w.setWidth 32))

/-- FLC_LOGADD (14 R452). -/
def execFlcLogadd (r : Req) (v : Word) (s : State) : Out :=
  .next (s.command32 r.val Reg.FLC_LOGADD v)

/-- PLAN (14 R455). -/
def execPlan (r : Req) (s : State) : Out :=
  .next (s.command32 r.val Reg.AGE_CMD 1)

/-- APPROVE (14 R456). -/
def execApprove (r : Req) (s : State) : Out :=
  .next (s.command32 r.val Reg.AGE_CMD 2)

/-- REJECT (14 R456). -/
def execReject (r : Req) (s : State) : Out :=
  .next (s.command32 r.val Reg.AGE_CMD 4)

end Sys2Proof.Machine
end

