-- ==== Sys2Proof/Machine/Units.lean ====
section
/-! DEFINITION. Borry-24 instruction words, port codes and the arithmetic of the units (07 R224 to R235). -/

namespace Sys2Proof.Machine

/-! ## Instruction words (R224 to R228) -/

/-- One move of an instruction: its slot, guard code, immediate (or none, and then a source port), source and destination. -/
structure Mv where
  slotB : Bool
  guard : Nat
  imm : Option Word24
  src : Nat
  dst : Nat
deriving DecidableEq, Repr

/-- IMM9 sign-extended from bit 8 (R227). -/
def imm9 (n : Nat) : Word24 := BitVec.ofNat 24 (ofSigned 24 (toSigned 9 n))

/-- The move of one slot of an F = 0 instruction (R225). -/
def slotMove (b : Bool) (x : Nat) : Mv :=
  ⟨b, bitsOf x 20 3, if bitAt x 19 then some (imm9 (bitsOf x 10 9)) else none, bitsOf x 10 9, bitsOf x 0 10⟩

/-- The moves of an instruction whose guard code is not 111, slot A first (R220, R224). -/
def movesOf (w : BitVec 48) : List Mv :=
  let n := w.toNat
  let all := if bitAt n 47 then [⟨false, bitsOf n 44 3, some (BitVec.ofNat 24 n), 0, bitsOf n 34 10⟩]
    else [slotMove false (bitsOf n 23 23), slotMove true (bitsOf n 0 23)]
  all.filter (fun m => m.guard != 7)

/-- The source codes of R228. -/
def sourceListed (p : Nat) : Bool :=
  decide (p ≤ 0x22) || decide (0x40 ≤ p ∧ p ≤ 0x48) || decide (0x50 ≤ p ∧ p ≤ 0x52) || p == 0x58 || p == 0x60 || p == 0x68 ||
    decide (0x70 ≤ p ∧ p ≤ 0x73) || decide (0x80 ≤ p ∧ p ≤ 0x87)

/-- The destination codes of R228. -/
def destListed (p : Nat) : Bool :=
  decide (p ≤ 0x20) || p == 0x40 || decide (0x50 ≤ p ∧ p ≤ 0x60) || decide (0x70 ≤ p ∧ p ≤ 0x81) || decide (0x88 ≤ p ∧ p ≤ 0x8E) ||
    p == 0x90 || decide (0x98 ≤ p ∧ p ≤ 0x9C) || p == 0xA0 || (decide (0xB0 ≤ p ∧ p ≤ 0xCE) && p % 4 != 3) ||
    decide (0xE0 ≤ p ∧ p ≤ 0xE5) || decide (0x100 ≤ p ∧ p ≤ 0x102) || decide (0x108 ≤ p ∧ p ≤ 0x10C) ||
    decide (0x110 ≤ p ∧ p ≤ 0x115) || decide (0x118 ≤ p ∧ p ≤ 0x11D) || p == 0x140 || decide (0x150 ≤ p ∧ p ≤ 0x152) ||
    p == 0x160 || p == 0x170 || p == 0x171 || p == 0x180 || p == 0x190

/-- A move names a port that does not exist (R228). -/
def Mv.illegal (m : Mv) : Bool := (m.imm.isNone && !sourceListed m.src) || !destListed m.dst

/-- Whether a move with a guard code executes (R226). -/
def guardHolds (g : BitVec 3) (code : Nat) : Bool :=
  match code with
  | 0 => true
  | 1 => g.getLsbD 0
  | 2 => !g.getLsbD 0
  | 3 => g.getLsbD 1
  | 4 => !g.getLsbD 1
  | 5 => g.getLsbD 2
  | 6 => !g.getLsbD 2
  | _ => false

/-- The unit that a trigger port belongs to (R215); none for a register, an operand port or a port without an operation. Of the ports that
name no unit, CJ.W and CJ.RST are one, LK.ACQ and LK.REL one, and each other its own (DESIGN CHOICE, log entry 147). -/
def unitOf (d : Nat) : Option Nat :=
  if 0x50 ≤ d ∧ d ≤ 0x5F then some 1
  else if 0x70 ≤ d ∧ d ≤ 0x7F then some 2
  else if 0x88 ≤ d ∧ d ≤ 0x8E then some 3
  else if 0x98 ≤ d ∧ d ≤ 0x9C then some 4
  else if 0xB0 ≤ d ∧ d ≤ 0xCE then some 5
  else if 0xE0 ≤ d ∧ d ≤ 0xE5 then some 6
  else if d = 0x101 ∨ d = 0x102 ∨ (0x110 ≤ d ∧ d ≤ 0x11D) then some 7
  else if d = 0x140 then some 8
  else if d = 0x151 ∨ d = 0x152 then some 9
  else if d = 0x160 then some 10
  else if d = 0x170 ∨ d = 0x171 then some 11
  else if d = 0x180 then some 12
  else if d = 0x190 then some 13
  else none

/-- The instruction word with one long-immediate move `#t -> port`, always executed (R224). -/
def immWord (port : Nat) (t : Word24) : BitVec 48 := BitVec.ofNat 48 (2 ^ 47 + port * 2 ^ 34 + t.toNat)

/-- The instruction word with one move from a source port to register `d` in slot A and an empty slot B (R225, R227). -/
def readWord (port d : Nat) : BitVec 48 := BitVec.ofNat 48 ((port * 2 ^ 10 + d) * 2 ^ 23 + 0x700000)

/-! ## ALU (R229) -/

/-- A signed result clamped to 24 bits. -/
def clamp24 (i : Int) : Word24 := BitVec.ofInt 24 (clampInt (-(2 ^ 23)) (2 ^ 23 - 1) i)

/-- ALU operation `k` on operand `o` and trigger value `t`. -/
def aluOp (k : Nat) (o t : Word24) : Word24 :=
  match k with
  | 0 => o + t
  | 1 => o - t
  | 2 => o &&& t
  | 3 => o ||| t
  | 4 => o ^^^ t
  | 5 => o &&& ~~~t
  | 6 => if o.toInt ≤ t.toInt then o else t
  | 7 => if o.toInt ≤ t.toInt then t else o
  | 8 => if o.toNat ≤ t.toNat then o else t
  | 9 => if o.toNat ≤ t.toNat then t else o
  | 10 => clamp24 (o.toInt + t.toInt)
  | 11 => clamp24 (o.toInt - t.toInt)
  | 12 => (t.setWidth 8).signExtend 24
  | 13 => (t.setWidth 16).signExtend 24
  | 14 => clamp24 |t.toInt|
  | _ => t

/-! ## Shifter (R230) -/

/-- The leading zeros of a 24-bit value, 0 to 24. -/
def leadingZeros (t : Word24) : Nat :=
  match (List.range 24).find? (fun i => t.getLsbD (23 - i)) with
  | some i => i
  | none => 24

/-- SHU operation `k` (0 SHL to 6 CLZ) on operand `o`, funnel word `f` and trigger value `t`. -/
def shuOp (k : Nat) (o f t : Word24) : Word24 :=
  let n := t.toNat % 32
  let x : BitVec 48 := f ++ o
  match k with
  | 0 => if 24 ≤ n then 0 else o <<< n
  | 1 => if 24 ≤ n then 0 else o >>> n
  | 2 => o.sshiftRight n
  | 3 => o.rotateLeft (n % 24)
  | 4 => (x <<< n).extractLsb' 24 24
  | 5 => (x >>> n).extractLsb' 0 24
  | _ => BitVec.ofNat 24 (leadingZeros t)

/-! ## Multiplier (R231) -/

/-- MUL operation `k` (0 MULS to 4 MACU): the new accumulator. -/
def mulOp (k : Nat) (acc : BitVec 48) (o t : Word24) : BitVec 48 :=
  match k with
  | 0 => BitVec.ofInt 48 (o.toInt * t.toInt)
  | 1 => BitVec.ofNat 48 (o.toNat * t.toNat)
  | 2 => BitVec.ofInt 48 (o.toInt * t.toNat)
  | 3 => acc + BitVec.ofInt 48 (o.toInt * t.toInt)
  | _ => acc + BitVec.ofNat 48 (o.toNat * t.toNat)

/-! ## Comparator (R233) -/

/-- Condition `c` on operand `o` and trigger value `t`. -/
def cmpOp (c : Nat) (o t : Word24) : Bool :=
  match c with
  | 0 => o == t
  | 1 => o != t
  | 2 => decide (o.toInt < t.toInt)
  | 3 => decide (t.toInt ≤ o.toInt)
  | 4 => decide (o.toNat < t.toNat)
  | 5 => decide (t.toNat ≤ o.toNat)
  | 6 => (o &&& t) != 0
  | _ => (o &&& t) == 0

/-- The guards with guard `i` set to `b`. -/
def setGuard (g : BitVec 3) (i : Nat) (b : Bool) : BitVec 3 := BitVec.ofNat 3 (setBits g.toNat i 1 (bit01 b))

/-! ## Registers and operand ports (R213, R219, R228, R234) -/

/-- The register, guards or operand port that a move into `d` writes at the end of its cycle. -/
def Eng.writePort (g : Eng) (d : Nat) (v : Word24) : Eng :=
  if h : d < 32 then { g with w := g.w.set d v }
  else
    match d with
    | 0x20 => { g with grd := v.setWidth 3 }
    | 0x40 => { g with op := { g.op with alu0O := v } }
    | 0x60 => { g with op := { g.op with alu1O := v } }
    | 0x80 => { g with op := { g.op with shuO := v } }
    | 0x81 => { g with op := { g.op with shuF := v } }
    | 0x90 => { g with op := { g.op with mulO := v } }
    | 0xA0 => { g with op := { g.op with cmpO := v } }
    | 0x100 => { g with op := { g.op with lv := v } }
    | 0x108 => { g with op := { g.op with seg := v } }
    | 0x109 => { g with op := { g.op with sv := v } }
    | 0x10A => { g with op := { g.op with svh := v } }
    | 0x10B => { g with op := { g.op with la := v } }
    | 0x10C => { g with op := { g.op with bsa := v } }
    | 0x150 => { g with op := { g.op with cjHi := v } }
    | _ => g

/-! ## Return stack (R238) -/

/-- A push: at depth 8 the oldest entry is overwritten. -/
def Eng.push (g : Eng) (x : Nat) : Eng :=
  let t := g.rtop + 1
  { g with rstack := g.rstack.set t.val (BitVec.ofNat 11 x), rtop := t, rdepth := min 8 (g.rdepth + 1) }

/-- The entry a pop returns. -/
def Eng.topEntry (g : Eng) : Nat := (g.rstack[g.rtop.val]).toNat

/-- A pop: the position moves, and at depth 0 the depth stays 0. -/
def Eng.pop (g : Eng) : Eng := { g with rtop := g.rtop - 1, rdepth := g.rdepth - 1 }

/-! ## Branches (R235, R237, R260) -/

/-- The sequence of the branching instruction with the target three positions on; what lay beyond its delay slots is gone. -/
def branchSeq (seq : List Fetch) (target : List Fetch) : List Fetch := seq.take 3 ++ target

/-- (PC + T) mod 2,048, T signed. -/
def relTarget (pc : Nat) (t : Word24) : Nat := (pc + t.toNat) % 2048

/-- The target of a BRU trigger other than TRET. -/
def Eng.branchTarget (g : Eng) (d pc : Nat) (t : Word24) : Nat :=
  match d with
  | 0xE1 => relTarget pc t
  | 0xE3 => relTarget pc t
  | 0xE4 => g.topEntry
  | _ => t.toNat % 2048

/-- The fetches that a TRET brings back (R260). -/
def TrapBank.fetches (t : TrapBank) : List Fetch :=
  [⟨t.pc.toNat % 2048, true⟩, ⟨bitsOf t.nx.toNat 0 11, false⟩, ⟨bitsOf t.nx.toNat 12 11, false⟩]

/-- A BRU trigger takes effect on the sequence, which still begins with the branching instruction at index `pc`. -/
def Eng.branch (g : Eng) (d pc : Nat) (t : Word24) : Eng :=
  if d = 0xE5 then { g with seq := branchSeq g.seq g.tb.fetches }
  else
    let g1 := { g with seq := branchSeq g.seq [⟨g.branchTarget d pc t, false⟩] }
    match d with
    | 0xE2 => g1.push ((pc + 3) % 2048)
    | 0xE3 => g1.push ((pc + 3) % 2048)
    | 0xE4 => g1.pop
    | _ => g1

end Sys2Proof.Machine
end

