-- ==== Sys2Proof/Machine/Engine.lean ====
section
/-! DEFINITION. Borry-24: how an instruction issues, stalls, retires or raises an exception (07 R214 to R260). -/

namespace Sys2Proof.Machine

/-! ## Exceptions (R253 to R260) -/

/-- An exception: its cause, and TB.FAL and TB.FAH as it fills them (R257). -/
structure Exc where
  cause : Nat
  fal : Word24 := 0
  fah : Word24 := 0
deriving DecidableEq, Repr

/-- A memory or world exception at shared address `a`. -/
def Exc.shared (cause a : Nat) : Exc := ⟨cause, BitVec.ofNat 24 a, BitVec.ofNat 24 (bitsOf a 24 8)⟩

/-- A memory exception at local word address `t`. -/
def Exc.localWord (t : Word24) : Exc := ⟨3, t, 0x800000⟩

/-- A memory exception of branch value `t`. -/
def Exc.branchTo (t : Word24) : Exc := ⟨3, t, 0x400000⟩

/-- The cause of a shared access that failed (R242). -/
def causeOf : AccErr → Nat
  | .world => 4
  | .other => 3

/-- The trap bank that the exception `x` of the instruction `w` fills (R257). -/
def trapBank (x : Exc) (slotB : Bool) (w : BitVec 48) (grd : BitVec 3) (seq : List Fetch) : TrapBank where
  cause := BitVec.ofNat 24 (pack [(0, x.cause), (4, bit01 slotB), (5, bit01 (w.getLsbD 47)), (23, 1)])
  pc := BitVec.ofNat 24 (seqIdx seq 0)
  grd := grd.setWidth 24
  nx := BitVec.ofNat 24 (pack [(0, seqIdx seq 1), (12, seqIdx seq 2)])
  ihi := if x.cause = 5 then 0 else w.extractLsb' 24 24
  ilo := if x.cause = 5 then 0 else w.extractLsb' 0 24
  fal := x.fal
  fah := x.fah

/-- The sequence with its first instruction no longer one that a TRET resumes. -/
def settled (l : List Fetch) : List Fetch := [⟨seqIdx l 0, false⟩] ++ l.drop 1

/-- Engine `e` takes the exception `x` of the instruction at the head of its sequence (R255 to R259): with VALID set a forced halt is
ordered; else the bank fills and the engine halts, or goes on at TVEC once everything in flight has been delivered, up to four
cycles later. `cfg` is ENG_CFG at the instruction's boundary. -/
def State.raiseExc (s : State) (e : EngIx) (cfg : Word) (x : Exc) (slotB : Bool) (w : BitVec 48) : State :=
  let g := { s.engAt e with seq := settled (s.engAt e).seq }
  let s := s.setEng e g
  if g.tbValid then (if g.state = .running then s.orderHalt e 3 true else s)
  else
    let g1 := { g with tb := trapBank x slotB w g.grd g.seq }
    if bitAt cfg.toNat 16 then
      let s1 := s.setEng e g1
      if g.state = .running then s1.orderHalt e 2 false else s1
    else
      let d := s.draw 3
      d.2.setEng e { g1.drain with seq := seqFrom (bitsOf cfg.toNat 0 11), cyc := g.cyc + BitVec.ofNat 48 (d.1 % 5) }

/-! ## Source ports (R228, R245 to R252) -/

/-- The address in lane `n`'s buffer at byte offset `i` (R246). -/
def lanePort (n i : Nat) : Nat := 0x10400000 + 2048 * n + i % 2048

/-- A non-secure engine `e` whose lane buffer is secure may not read it (R246). -/
def State.laneBarred (s : State) (e : EngIx) : Bool :=
  s.reqNS e.val && !s.memNS (lanePort (s.engAt e).lio.lane (s.engAt e).lio.off)

/-- A read of LIO.A (`a`) or LIO.B by engine `e` (R246, R247), its bytes in the prefetch buffer. -/
def State.readLio (s : State) (e : EngIx) (a : Bool) : State × Except Exc Word24 :=
  let g := s.engAt e
  let l := g.lio
  if l.sample then
    if a then
      match l.fifo with
      | (i, q) :: t => (s.setEng e { g with lio := { l with fifo := t, lastQ := some q } }, .ok (i.signExtend 24))
      | [] => (s, .ok 0x800000)
    else
      match l.lastQ with
      | some q => (s, .ok (q.signExtend 24))
      | none => (s, .ok 0x800000)
  else
    let at0 := lanePort l.lane l.off
    if s.laneBarred e then (s.violation at0 false e.val, .error (Exc.shared 4 at0))
    else if !s.ready 9 then (s, .error (Exc.shared 3 at0))
    else
      let n := if a then 3 else 1
      let v := ofBytesLe ((List.range n).map (fun i => s.byte (lanePort l.lane (l.off + i))))
      (s.setEng e { g with lio := { l with off := (l.off + n) % 2048, held := l.held - n } }, .ok (BitVec.ofNat 24 v))

/-- LIO.ST (R247); OFFSET reads 0 in sample mode (DESIGN CHOICE, log entry 144). -/
def Lio.status (l : Lio) : Word24 :=
  BitVec.ofNat 24 (if l.sample then pack [(0, l.fifo.length), (22, 1), (23, bit01 l.ovf)] else pack [(8, l.off)])

/-- A read of TM.OFF by engine `e` (R252): TM.ASN takes the slot number. While slots run the offset is a free one inside the slot, not
before the one read last in it (log entry 9). -/
def State.readSlotOffset (s : State) (e : EngIx) : State × Word24 :=
  let s1 := s.setEng e { s.engAt e with res := { (s.engAt e).res with asn := s.sfm.asn.setWidth 24 } }
  if s.running then
    let d := s1.draw 24
    let off := s.sfm.offSeen + d.1 % max 1 (s.sfm.slotLen - s.sfm.offSeen)
    ({ d.2 with sfm := { d.2.sfm with offSeen := off } }, BitVec.ofNat 24 off)
  else (s1, 0)

/-- Engine `e` reads source port `p`. -/
def State.readPort (s : State) (e : EngIx) (p : Nat) : State × Except Exc Word24 :=
  let g := s.engAt e
  if h : p < 32 then (s, .ok g.w[p])
  else if 0x80 ≤ p then (s, .ok (g.tbWord (p - 0x80)))
  else
    match p with
    | 0x20 => (s, .ok (g.grd.setWidth 24))
    | 0x21 => (s, .ok (BitVec.ofNat 24 (seqIdx g.seq 0)))
    | 0x22 => (s, .ok (BitVec.ofNat 24 g.rdepth))
    | 0x40 => (s, .ok g.res.alu0)
    | 0x41 => (s, .ok g.res.alu1)
    | 0x42 => (s, .ok g.res.shu)
    | 0x43 => (s, .ok g.res.mulLo)
    | 0x44 => (s, .ok g.res.mulHi)
    | 0x45 => (s, .ok g.res.lr)
    | 0x46 => (s, .ok g.res.sd)
    | 0x47 => (s, .ok g.res.sdh)
    | 0x48 => (s, .ok g.res.brem)
    | 0x50 => s.readLio e true
    | 0x51 => s.readLio e false
    | 0x52 => (s, .ok g.lio.status)
    | 0x58 => (s, .ok (BitVec.ofNat 24 (pack [(0, g.cjCount), (8, s.get (F.CIP_JSTAT_REFUSED e.val))])))
    | 0x60 =>
      let x := s.popEvent e
      (x.2, .ok (match x.1 with
        | some c => BitVec.ofNat 24 (0x800000 + c)
        | none => 0))
    | 0x68 => (s, .ok g.res.lk)
    | 0x70 => (s.setEng e { g with res := { g.res with cych := g.cyc.extractLsb' 24 24 } }, .ok (g.cyc.extractLsb' 0 24))
    | 0x71 => (s, .ok g.res.cych)
    | 0x72 =>
      let x := s.readSlotOffset e
      (x.1, .ok x.2)
    | 0x73 => (s, .ok (if s.running then g.res.asn else s.sfm.asn.setWidth 24))
    | _ => (s, .ok 0)

/-- The value a move carries: its immediate, or what its source port reads. -/
def State.readMove (s : State) (e : EngIx) (m : Mv) : State × Except Exc Word24 :=
  match m.imm with
  | some v => (s, .ok v)
  | none => s.readPort e m.src

/-! ## Trigger ports: exceptions at issue -/

/-- The shared address of a load or store (R241). -/
def Eng.sharedAddr (g : Eng) (t : Word24) : Nat := (g.op.seg.toNat % 256) * 2 ^ 24 + t.toNat

/-- The first container of a block (R243). -/
def Eng.blockBase (g : Eng) : Nat := g.sharedAddr g.op.bsa

/-- The bytes a shared load or store trigger is aligned to (R241). -/
def alignOf (d : Nat) : Nat :=
  if d = 0x112 ∨ d = 0x113 ∨ d = 0x119 then 2
  else if d = 0x114 ∨ d = 0x115 ∨ d = 0x11A ∨ d = 0x11B then 4
  else 1

/-- The exception of a block trigger at issue (R243). Where several of its causes hold at once, the address recorded is that of BSA first,
then of LA, then of the window (DESIGN CHOICE, log entry 146). -/
def Eng.blockExc (g : Eng) : Option Exc :=
  if g.op.bsa.toNat % 4 ≠ 0 then some (Exc.shared 3 g.blockBase)
  else if 4096 ≤ g.op.la.toNat then some (Exc.localWord g.op.la)
  else if 0x20000000 ≤ g.blockBase then some (Exc.shared 3 g.blockBase)
  else none

/-- The write of EVC_FIRE that a move of `t` into EV.FIRE is (R250). -/
def State.firePort (s : State) (e : EngIx) (t : Word24) : State × Option AccErr :=
  s.busWrite e.val Reg.EVC_FIRE ((t.setWidth 8).setWidth 32)

/-- The exception that a move of `t` into `d` raises at issue, the operand ports written (R236 to R250, R254, R278); `s` with any
violation recorded. `cfg` is ENG_CFG at the instruction's boundary. -/
def State.trigExc (s : State) (e : EngIx) (cfg : Word) (d : Nat) (t : Word24) : State × Option Exc :=
  let g := s.engAt e
  let trap := bitAt cfg.toNat (F.ENG_CFG_RSTK_TRAP e.val).lo
  let full := trap && g.rdepth == 8
  let empty := trap && g.rdepth == 0
  if d = 0x160 then ((s.firePort e t).1, (s.firePort e t).2.map (fun err => Exc.shared (causeOf err) Reg.EVC_FIRE))
  else if (d = 0xE0 ∨ d = 0xE2) ∧ 2048 ≤ t.toNat then (s, some (Exc.branchTo t))
  else if (d = 0xE2 ∨ d = 0xE3) ∧ full = true then (s, some ⟨1, 0, 0⟩)
  else if d = 0xE4 ∧ empty = true then (s, some ⟨1, 0, 0⟩)
  else if (d = 0x101 ∨ d = 0x102) ∧ 4096 ≤ t.toNat then (s, some (Exc.localWord t))
  else if g.sharedAddr t % alignOf d ≠ 0 then (s, some (Exc.shared 3 (g.sharedAddr t)))
  else if d = 0x11C ∨ d = 0x11D then (s, g.blockExc)
  else if d = 0x140 ∧ 95 < bitsOf t.toNat 16 7 then (s, some ⟨3, 0, 0⟩)
  else if d = 0x140 ∧ bitAt t.toNat 23 = true ∧ s.reqNS e.val = true ∧ s.blockNS 9 = false then
    let x := s.draw 33
    (x.2.violation (x.1 / 2) (x.1 % 2 == 1) e.val, some (Exc.shared 4 (x.1 / 2)))
  else (s, none)

/-- The shared access that a move of `t` into `d` starts (R242, R243, R248, R251). -/
def Eng.accessOf (g : Eng) (d : Nat) (t : Word24) : Option Access :=
  let a := g.sharedAddr t
  let w : Word := g.op.svh.setWidth 8 ++ g.op.sv
  let n := if t.toNat % 4096 = 0 then 4096 else t.toNat % 4096
  match d with
  | 0x110 => some (.load .b a)
  | 0x111 => some (.load .bs a)
  | 0x112 => some (.load .h a)
  | 0x113 => some (.load .hs a)
  | 0x114 => some (.load .t a)
  | 0x115 => some (.load .w a)
  | 0x118 => some (.store .b a w)
  | 0x119 => some (.store .h a w)
  | 0x11A => some (.store .t a w)
  | 0x11B => some (.store .w a w)
  | 0x11C => some (.block true n 0 g.op.la.toNat g.blockBase)
  | 0x11D => some (.block false n 0 g.op.la.toNat g.blockBase)
  | 0x151 => if g.cjCount < 5 then none else some (.job (g.op.cjHi.setWidth 8 ++ t))
  | 0x170 => some (.lockAcq (t.toNat % 64))
  | 0x171 => some (.lockRel (t.toNat % 64))
  | _ => none

/-! ## What a move does once its instruction retires -/

/-- An operation of unit `u` with latency `n` is triggered (R217). -/
def Eng.launch (g : Eng) (u : EUnit) (n : Nat) (lo hi : Word24) : Eng := { g with flight := g.flight ++ [⟨u, g.pos + n, lo, hi⟩] }

/-- A move of `t` into trigger port `d` takes effect in the engine alone (R229 to R237, R245, R249, R260). -/
def Eng.trigger (g : Eng) (d : Nat) (t : Word24) : Eng :=
  if 0x50 ≤ d ∧ d ≤ 0x5F then g.launch .alu0 1 (aluOp (d - 0x50) g.op.alu0O t) 0
  else if 0x70 ≤ d ∧ d ≤ 0x7F then g.launch .alu1 1 (aluOp (d - 0x70) g.op.alu1O t) 0
  else if 0x88 ≤ d ∧ d ≤ 0x8E then g.launch .shu 2 (shuOp (d - 0x88) g.op.shuO g.op.shuF t) 0
  else if 0x98 ≤ d ∧ d ≤ 0x9C then
    let acc := mulOp (d - 0x98) g.acc g.op.mulO t
    { g.launch .mul 3 (acc.extractLsb' 0 24) (acc.extractLsb' 24 24) with acc := acc }
  else if 0xB0 ≤ d ∧ d ≤ 0xCE then { g with grd := setGuard g.grd ((d - 0xB0) % 4) (cmpOp ((d - 0xB0) / 4) g.op.cmpO t) }
  else if 0xE0 ≤ d ∧ d ≤ 0xE5 then g.branch d (seqIdx g.seq 0) t
  else
    match d with
    | 0x140 => { g with lio := { sample := bitAt t.toNat 23, lane := bitsOf t.toNat 16 7, off := bitsOf t.toNat 0 11 } }
    | 0x152 => { g with cjCount := 0 }
    | 0x180 => { g with wdx := false }
    | 0x190 => { g with tb := g.tb.release }
    | _ => g

/-- A move into CJ.W that is not the sixth: word `v` stands in the engine's own bank at the word the count names (R248). -/
def State.nextJobWord (s : State) (e : EngIx) (v : Word) : State :=
  let k := (s.engAt e).cjCount
  let s1 := if s.ready 14 then (s.served e.val (Reg.CIP_JD e.val k)).setReg (Reg.CIP_JD e.val k) v else s
  s1.setEng e { s1.engAt e with cjCount := k + 1 }

/-- A move of `t` into trigger port `d` of engine `e` takes effect; a shared access has been performed before. The sixth move into CJ.W
puts the count back to 0 (R248). -/
def State.trigger (s : State) (e : EngIx) (d : Nat) (t : Word24) : State :=
  match d with
  | 0x101 =>
    let x := s.readLocal e t.toNat
    x.1.setEng e ((x.1.engAt e).launch .lsu 2 x.2 0)
  | 0x102 => s.writeLocal e t.toNat (s.engAt e).op.lv
  | 0x151 =>
    if (s.engAt e).cjCount < 5 then s.nextJobWord e ((s.engAt e).op.cjHi.setWidth 8 ++ t)
    else s.setEng e { s.engAt e with cjCount := 0 }
  | 0x160 => (s.firePort e t).1
  | _ => s.setEng e ((s.engAt e).trigger d t)

/-- The instruction at the head of engine `e`'s sequence retires with its moves (R214 to R216): its registers and operand ports are
written, then its triggers take effect, and the engine comes to the next position. -/
def State.retire (s : State) (e : EngIx) (ms : List Moved) : State :=
  let s1 := s.setEng e (ms.foldl (fun g m => g.writePort m.dst m.val) (s.engAt e))
  let s2 := s1.each ms (fun s m => s.trigger e m.dst m.val)
  s2.setEng e { s2.engAt e with seq := advanceSeq (s2.engAt e).seq, pos := (s2.engAt e).pos + 1 }

/-! ## Issue -/

/-- Engine `e` can issue an instruction: it is RUNNING, does not stall, and its clock runs. -/
def State.canIssue (s : State) (e : EngIx) : Bool :=
  let g := s.engAt e
  let sleeping := match s.pwr.trans with
    | some t => t.state == 1 || t.state == 2
    | none => false
  g.state == .running && g.stall.isNone && s.ready 6 && s.pwrState == 0 && !sleeping

/-- What the moves of an instruction read, in slot order; a port that both read is read once (R219). A read that raises an exception
returns 0, and the first such exception is kept with its slot. -/
def State.readMoves (s : State) (e : EngIx) : List Mv → State × List Moved × Option (Exc × Bool)
  | [] => (s, [], none)
  | [m] =>
    match s.readMove e m with
    | (s1, .ok v) => (s1, [⟨m.slotB, m.dst, v⟩], none)
    | (s1, .error x) => (s1, [⟨m.slotB, m.dst, 0⟩], some (x, m.slotB))
  | m :: m2 :: _ =>
    match s.readMove e m with
    | (s1, .error x) => (s1, [⟨m.slotB, m.dst, 0⟩], some (x, m.slotB))
    | (s1, .ok v) =>
      match (if m.imm = none ∧ m2.imm = none ∧ m.src = m2.src then (s1, .ok v) else s1.readMove e m2) with
      | (s2, .ok v2) => (s2, [⟨m.slotB, m.dst, v⟩, ⟨m2.slotB, m2.dst, v2⟩], none)
      | (s2, .error x) => (s2, [⟨m.slotB, m.dst, v⟩, ⟨m2.slotB, m2.dst, 0⟩], some (x, m2.slotB))

/-- A move reads LIO.A or LIO.B. -/
def Mv.readsLane (m : Mv) : Bool := m.imm.isNone && (m.src == 0x50 || m.src == 0x51)

/-- The bytes of the lane buffer that the reads of the moves `ms` take (R219, R246). -/
def laneNeed (ms : List Mv) : Nat :=
  (if ms.any (fun m => m.imm.isNone && m.src == 0x50) then 3 else 0) +
    (if ms.any (fun m => m.imm.isNone && m.src == 0x51) then 1 else 0)

/-- Whether the prefetch buffer of engine `e` holds what the moves `ms` read (R246). How far it has been refilled by now is a free value;
a read that fails for its world or for readiness takes nothing from it. -/
def State.prefetch (s : State) (e : EngIx) (ms : List Mv) : State × Bool :=
  let g := s.engAt e
  if g.lio.sample || s.laneBarred e || !s.ready 9 || decide (laneNeed ms ≤ g.lio.held) then (s, true)
  else
    let d := s.draw 6
    let h := max g.lio.held (d.1 % 33)
    (d.2.setEng e { g with lio := { g.lio with held := h } }, decide (laneNeed ms ≤ h))

/-- The moves that take effect (R215): slot B's alone when both slots write one port or trigger one unit. -/
def takenMoves : List Moved → List Moved
  | [a, b] => if a.dst = b.dst ∨ (unitOf a.dst ≠ none ∧ unitOf a.dst = unitOf b.dst) then [b] else [a, b]
  | l => l

/-- The first exception of the moves at issue, slot A first, the operand ports written: that of a move's read (`bad`), else that of its
trigger. -/
def State.firstExc (s : State) (e : EngIx) (cfg : Word) (bad : Option (Exc × Bool)) : List Moved → State × Option (Exc × Bool)
  | [] => (s, bad)
  | m :: ms =>
    if bad.map Prod.snd = some m.slotB then (s, bad)
    else
      match s.trigExc e cfg m.dst m.val with
      | (s1, some x) => (s1, some (x, m.slotB))
      | (_, none) => s.firstExc e cfg bad ms

/-- A stalled instruction's undo record: what its reads changed from `g` to `g1`. -/
def undoOf (g g1 : Eng) : ReadUndo where
  popped := firstIdx 256 (fun c => g.evPend.getLsbD c && !g1.evPend.getLsbD c)
  lioOff := g.lio.off
  lioHeld := g.lio.held
  lioFifo := g.lio.fifo.take (g.lio.fifo.length - g1.lio.fifo.length)
  lioLastQ := g.lio.lastQ
  res := g.res

/-- The world violations and free values of `t` in state `s`: all that remains of an attempt that ended in an exception. -/
def State.onlyViolation (s t : State) : State :=
  { s with free := t.free
           regs := [Reg.SYS_WVIOL_ADDR, Reg.SYS_WVIOL_INFO].foldl (fun m k => AMap.put resetVal m k (t.reg k)) s.regs }

/-- The instruction `w` issues at engine `e`, `ms` its moves whose guards hold and what they read at hand: it raises an exception, stalls
on its shared accesses, or retires. `cfg` is ENG_CFG at its boundary. -/
def State.perform (s : State) (e : EngIx) (cfg : Word) (w : BitVec 48) (ms : List Mv) : State :=
  let r := s.readMoves e ms
  let t := r.1
  let taken := takenMoves r.2.1
  let armed := t.setEng e (taken.foldl (fun g m => g.writePort m.dst m.val) (t.engAt e))
  let bad := if r.2.2.map Prod.snd = some false then (t, r.2.2) else armed.firstExc e cfg r.2.2 taken
  match bad with
  | (u, some (x, b)) => (s.onlyViolation u).raiseExc e cfg x b w
  | (_, none) =>
    match taken.filterMap (fun m => ((armed.engAt e).accessOf m.dst m.val).map (fun a => (m.slotB, a))) with
    | [] => t.retire e taken
    | accs => t.await e { word := w, moves := taken, accs := accs, cfg := cfg, undo := undoOf (s.engAt e) (t.engAt e)
                          worlds := t.worldMap }

/-- The exception at issue of the move beside one that waits for lane buffer bytes, its slot, and the state with any violation recorded
(R254): what a move raises without those bytes is met before they are waited for. One that hangs on what the waiting move writes into an
address port, as 0 and as all ones there show, is met when the bytes are there. -/
def State.earlyExc (s : State) (e : EngIx) (cfg : Word) (ms : List Mv) : Option (State × Exc × Bool) :=
  match ms.filter (fun m => !m.readsLane), ms.find? Mv.readsLane with
  | [m], some l =>
    if l.slotB = true ∧ (l.dst = m.dst ∨ (unitOf l.dst ≠ none ∧ unitOf l.dst = unitOf m.dst)) then none
    else
      match s.readMove e m with
      | (t, .ok v) =>
        let met (x : Word24) : State × Option Exc :=
          (t.setEng e (((t.engAt e).writePort l.dst x).writePort m.dst v)).trigExc e cfg m.dst v
        if (met 0).2 = (met 0xFFFFFF).2 then (met 0).2.map (fun x => ((met 0).1, x, m.slotB)) else none
      | (_, .error _) => none
  | _, _ => none

/-- The instruction `w` issues at engine `e` with its moves `ms`; a lane I/O read whose bytes are not at hand stalls it first (R246). -/
def State.attempt (s : State) (e : EngIx) (w : BitVec 48) (ms : List Mv) : State :=
  let x := s.prefetch e ms
  let cfg := s.reg (Reg.ENG_CFG e.val)
  if x.2 then x.1.perform e cfg w ms
  else
    match x.1.earlyExc e cfg ms with
    | some (u, ex, b) => (x.1.onlyViolation u).raiseExc e cfg ex b w
    | none =>
      let b := !ms.any (fun m => !m.slotB && m.readsLane)
      x.1.await e { word := w, moves := [], accs := [(b, .lane)], cfg := cfg, undo := undoOf (x.1.engAt e) (x.1.engAt e)
                    worlds := s.worldMap }

/-- What engine `e` does as the instruction at the head of its sequence issues, before its moves: results that are due arrive, a cycle
is counted, and a resumed instruction gets its guards back and clears VALID (R217, R252, R260). -/
def State.startIssue (s : State) (e : EngIx) : State :=
  let g := (s.engAt e).deliverDue
  let g1 := { g with cyc := g.cyc + 1 }
  s.setEng e (match g1.seq with
    | ⟨x, true⟩ :: t => { g1 with grd := g1.tb.grd.setWidth 3, tb := g1.tb.release, seq := ⟨x, false⟩ :: t }
    | _ => g1)

/-- The moves of the instruction `w` whose guards hold at engine `e` (R220, R221). -/
def State.heldMoves (s : State) (e : EngIx) (w : BitVec 48) : List Mv :=
  (movesOf w).filter (fun m => guardHolds (s.engAt e).grd m.guard)

/-- A move raises the illegal-port exception at engine `e`: its codes (R228), or a TRET whose guard holds while VALID is clear (R253). -/
def State.illegalAt (s : State) (e : EngIx) (m : Mv) : Bool :=
  m.illegal || (guardHolds (s.engAt e).grd m.guard && m.dst == 0xE5 && !(s.engAt e).tbValid)

/-- Engine `e` issues the instruction `w` (R214, R220, R221, R254), or takes a pending watchdog exception in its place (R256). -/
def State.issue (s : State) (e : EngIx) (w : BitVec 48) : State :=
  if !s.canIssue e then s
  else if (s.engAt e).wdPending && !(s.engAt e).tbValid then
    (s.setEng e { s.engAt e with wdPending := false }).raiseExc e (s.reg (Reg.ENG_CFG e.val)) ⟨5, 0, 0⟩ false w
  else
    let s1 := s.startIssue e
    match (movesOf w).find? (s1.illegalAt e) with
    | some m => s1.raiseExc e (s.reg (Reg.ENG_CFG e.val)) ⟨2, 0, 0⟩ m.slotB w
    | none => s1.attempt e w (s1.heldMoves e w)

/-- The instruction at the head of engine `e`'s sequence, from its instruction store (R15, R16). -/
def State.fetch (s : State) (e : EngIx) : State × BitVec 48 :=
  let a := 0x10600000 + 0x6000 * e.val + 6 * seqIdx (s.engAt e).seq 0
  if s.halfLoaded a then
    let d := s.draw 48
    (d.2, BitVec.ofNat 48 d.1)
  else (s, BitVec.ofNat 48 (ofBytesLe (s.bytes a 6)))

/-! ## Shared accesses (R241 to R244, R248, R251) -/

/-- The bytes a shared load reads. -/
def LoadKind.size : LoadKind → Nat
  | .b => 1
  | .bs => 1
  | .h => 2
  | .hs => 2
  | .t => 3
  | .w => 4

/-- LSU.SD after a load of kind `k` that read `v` (R241). -/
def LoadKind.value (k : LoadKind) (v : Nat) : Word24 :=
  match k with
  | .bs => (BitVec.ofNat 8 v).signExtend 24
  | .hs => (BitVec.ofNat 16 v).signExtend 24
  | _ => BitVec.ofNat 24 v

/-- LSU.SD, and on LDW LSU.SDH, take what a load read. -/
def Eng.loaded32 (g : Eng) (k : LoadKind) (v : Nat) : Eng :=
  { g with res := { g.res with sd := k.value v, sdh := if k = .w then BitVec.ofNat 24 (bitsOf v 24 8) else g.res.sdh } }

/-- A block once its next word has moved, if it has a word after that (R244). -/
def Access.advance : Access → Option Access
  | .block d n i la base => if i + 1 < n then some (.block d n (i + 1) la base) else none
  | _ => none

/-- Word `i` of a block of `n` has moved. -/
def State.blockMoved (s : State) (e : EngIx) (n i : Nat) : State := if i + 1 < n then s else s.setRemaining e 0

/-- The sixth word of a descriptor (R248): the job is submitted with the engine's world (05 R173, R191). -/
def State.lastJobWord (s : State) (e : EngIx) (v : Word) : State :=
  let s1 := (s.served e.val (Reg.CIP_JD e.val 5)).setReg (Reg.CIP_JD e.val 5) v
  s1.submitJob e.val (s.reqNS e.val) (s1.bankDesc e.val)

/-- Engine `e` performs one shared access (of a block, one word); a failure comes with the address. -/
def State.performAccess (s : State) (e : EngIx) (x : Access) : State × Option (AccErr × Nat) :=
  match x with
  | .load k a =>
    match s.load e.val a k.size with
    | (s1, .ok v) => (s1.setEng e ((s1.engAt e).loaded32 k v), none)
    | (s1, .error er) => (s1, some (er, a))
  | .store k a v =>
    match s.store e.val a k.size v.toNat with
    | (s1, none) => (s1, none)
    | (s1, some er) => (s1, some (er, a))
  | .block true n i la base =>
    match s.load e.val (base + 4 * i) 3 with
    | (s1, .ok v) => ((s1.writeLocal e ((la + i) % 4096) (BitVec.ofNat 24 v)).blockMoved e n i, none)
    | (s1, .error er) => (s1, some (er, base + 4 * i))
  | .block false n i la base =>
    let y := s.readLocal e ((la + i) % 4096)
    match y.1.store e.val (base + 4 * i) 3 y.2.toNat with
    | (s1, none) => (s1.blockMoved e n i, none)
    | (s1, some er) => (s1, some (er, base + 4 * i))
  | .lockAcq k =>
    match s.busWrite e.val Reg.LCK_ACQ (BitVec.ofNat 32 k) with
    | (s1, none) =>
      let g := s1.engAt e
      (s1.setEng e { g with res := { g.res with lk := (s1.reg (Reg.LCK_RES e.val)).setWidth 24 } }, none)
    | (s1, some er) => (s1, some (er, Reg.LCK_ACQ))
  | .lockRel k =>
    match s.busWrite e.val Reg.LCK_REL (BitVec.ofNat 32 k) with
    | (s1, none) => (s1, none)
    | (s1, some er) => (s1, some (er, Reg.LCK_REL))
  | .job v => if s.ready 14 then (s.lastJobWord e v, none) else (s, some (.other, Reg.CIP_JD 0 5))
  | .lane => (s, none)

/-- An access is performed under the worlds it was issued with (01 R26). -/
def State.performUnder (s : State) (e : EngIx) (m : List (Nat × Word)) (x : Access) : State × Option (AccErr × Nat) :=
  s.underWorlds m (fun u => u.performAccess e x)

/-- A failure of one of an instruction's accesses or writes: its slot, the access and the worlds it was issued under, how and where it
failed. -/
structure AccFail where
  slotB : Bool
  acc : Option Access
  worlds : List (Nat × Word)
  err : AccErr
  addr : Nat
deriving DecidableEq, Repr

/-- Accesses performed in order; the first that fails ends them. -/
def State.performAll (s : State) (e : EngIx) : List Accepted → State × Option AccFail
  | [] => (s, none)
  | x :: l =>
    match s.performUnder e x.worlds x.acc with
    | (s1, some f) => (s1, some ⟨x.slotB, some x.acc, x.worlds, f.1, f.2⟩)
    | (s1, none) => s1.performAll e l

/-- The first of the moves into EV.FIRE that fails as the instruction is to retire (R250, R253, R255). -/
def State.fireFails (s : State) (e : EngIx) (m : List (Nat × Word)) : List Moved → State × Option AccFail
  | [] => (s, none)
  | x :: l =>
    if x.dst = 0x160 then
      match s.underWorlds m (fun u => u.firePort e x.val) with
      | (u, some er) => (u, some ⟨x.slotB, none, m, er, Reg.EVC_FIRE⟩)
      | (_, none) => s.fireFails e m l
    else s.fireFails e m l

/-- A failed access ends engine `e`'s instruction (R242, R244, R255): its reads are put back, a failed load delivers 0, a block leaves
its count, and the exception is taken. -/
def State.failAccess (s : State) (e : EngIx) (st : Stall) (f : AccFail) : State :=
  let s1 := ((s.setEng e { s.engAt e with stall := none }).undoStall e st.undo).leaveRemaining e f.acc
  let s2 := match f.acc with
    | some (.load k _) => s1.setEng e ((s1.engAt e).loaded32 k 0)
    | _ => s1
  s2.raiseExc e st.cfg (Exc.shared (causeOf f.err) f.addr) f.slotB st.word

/-- The words of a block that were accepted before word `x` of it failed stand (R244, R255). -/
def State.wordsBefore (s : State) (e : EngIx) (st : Stall) (x : Access) : State :=
  if x.isBlock then s.movedWords e (st.passed.takeWhile (fun p => p.acc != x)) else s

/-- What remains of several accesses tried together, from `s`, when one of them fails as `f` leaving `t`: what the failed one alone
leaves behind, or the violation it recorded. -/
def State.failedAlone (s : State) (e : EngIx) (st : Stall) (f : AccFail) (t : State) : State :=
  match f.acc with
  | some x =>
    match (s.wordsBefore e st x).performUnder e f.worlds x with
    | (u, some _) => u
    | (_, none) => s.onlyViolation t
  | none => s.onlyViolation t

/-- The last access of engine `e`'s instruction completes: it takes effect with those accepted before it and the instruction retires, or
one fails and none of them takes effect (R242, R255). -/
def State.lastAccess (s : State) (e : EngIx) (st : Stall) (b : Bool) (x : Access) : State :=
  match s.performAll e (st.passed ++ [⟨b, x, st.worlds⟩]) with
  | (t, some f) => (s.failedAlone e st f t).failAccess e st f
  | (t, none) =>
    match t.fireFails e st.worlds st.moves with
    | (u, some f) => (s.failedAlone e st f u).failAccess e st f
    | (_, none) =>
      ((t.setEng e { t.engAt e with stall := none }).underWorlds st.worlds (fun u => (u.retire e st.moves, ()))).1

/-- The lane buffer bytes that an instruction of engine `e` waits for arrive, with as many more as the prefetch buffer has taken by then
(a free value); the instruction reads its ports (R246; log entry 123). -/
def State.laneArrived (s : State) (e : EngIx) (st : Stall) (b : Bool) : State :=
  let l := (s.engAt e).lio
  if !s.ready 9 then s.failAccess e st ⟨b, none, st.worlds, .other, lanePort l.lane l.off⟩
  else
    let ms := s.heldMoves e st.word
    let d := s.draw 6
    let u := d.2.setEng e { s.engAt e with stall := none, lio := { l with held := laneNeed ms + d.1 % (33 - laneNeed ms) } }
    (u.underWorlds st.worlds (fun v => (v.perform e st.cfg st.word ms, ()))).1

/-- The stalled instruction of engine `e` makes one access and no other, and writes nothing into the fabric as it retires: what it makes
takes effect at once. -/
def Stall.single (st : Stall) (rest : List (Bool × Access)) : Bool :=
  rest.isEmpty && st.passed.isEmpty && st.moves.all (fun m => m.dst != 0x160)

/-- The access `x` of slot `b`, first of the instruction's with `rest` after it, completes (R242 to R244). The words of a block that is
its instruction's only access move as they complete; anything else is accepted, and takes effect with the last access (R255; log entry
36). -/
def State.completeAccess (s : State) (e : EngIx) (st : Stall) (b : Bool) (x : Access) (rest : List (Bool × Access)) : State :=
  if x = .lane then s.laneArrived e st b
  else if rest = [] ∧ x.advance = none then s.lastAccess e st b x
  else
    let next (u : State) (l : List (Bool × Access)) (p : List Accepted) : State :=
      u.await e { st with accs := l, passed := p, worlds := u.worldMap }
    match (s.wordsBefore e st x).performUnder e st.worlds x with
    | (t, some f) => t.failAccess e st ⟨b, some x, st.worlds, f.1, f.2⟩
    | (t, none) =>
      let held := st.passed ++ [⟨b, x, st.worlds⟩]
      match x.advance with
      | some y =>
        let u := if st.single rest then t else s
        let p := if st.single rest then [] else held
        if (s.engAt e).state = .halting then
          ((u.setEng e { u.engAt e with stall := some { st with passed := p } }).dropStall e).leaveRemaining e (some y)
        else next u ((b, y) :: rest) p
      | none => next s rest held

/-- A shared access must wait for the flash controller (14 R442). -/
def State.accessWaits (s : State) (x : Access) : Bool :=
  match x with
  | .load _ a => s.flashWaits a
  | .block true _ i _ base => s.flashWaits (base + 4 * i)
  | _ => false

/-- SHARED_ACCESS_COMPLETE (R242 to R244): the granted access of engine `e` is performed, `cycles` engine cycles after the stall began or
the last access of it completed. The instruction retires with the last one. A load from flash waits for the controller (14 R442). -/
def execSharedAccessComplete (e : EngIx) (cycles : Nat) (s : State) : Out :=
  .next (match (s.engAt e).stall with
  | none => s
  | some st =>
    match st.accs with
    | [] => s
    | (b, x) :: rest =>
      if st.stage ≠ .granted ∨ s.accessWaits x = true then s
      else (s.setEng e { s.engAt e with cyc := (s.engAt e).cyc + BitVec.ofNat 48 cycles }).completeAccess e st b x rest)

/-! ## Results and samples -/

/-- RESULT_DELIVERY (R217, R218, R263): unit `u` of engine `e` delivers the result of its oldest operation, once its latency has elapsed
or while the engine completes what is in flight. -/
def execResultDelivery (e : EngIx) (u : EUnit) (s : State) : Out :=
  .next (let g := s.engAt e
    match g.flight.find? (fun f => f.unit == u) with
    | some f =>
      if g.stall.isNone && (decide (f.due ≤ g.pos) || g.state == .halting) then
        s.setEng e { g.deliver f with flight := g.flight.erase f }
      else s
    | none => s)

/-- SAMPLE_ARRIVAL (R247): a sample of the lane that engine `e` taps enters its FIFO; a full FIFO loses its oldest. None arrive while
the lane's chain is blanked, calibrating or disabled. -/
def execSampleArrival (e : EngIx) (i q : BitVec 16) (s : State) : Out :=
  .next (let g := s.engAt e
    match laneNo g.lio.lane with
    | some n =>
      if g.lio.sample && s.chainEnabled (laneChain n) && !s.chainDark (laneChain n) then
        let fifo := g.lio.fifo ++ [(i, q)]
        s.setEng e { g with lio := { g.lio with fifo := lastN 64 fifo, ovf := g.lio.ovf || decide (64 < fifo.length) } }
      else s
    | none => s)

/-- MOVE (R214): engine `e` issues the instruction at the head of its sequence. -/
def execMove (e : EngIx) (s : State) : Out :=
  .next (if s.canIssue e then (let x := s.fetch e; x.1.issue e x.2) else s)

end Sys2Proof.Machine
end

