-- ==== Sys2Proof/Machine/Mgb.lean ====
section
/-! DEFINITION. The management port (10 R329 to R341): chain addressing, register access, sleep, attention messages. -/

namespace Sys2Proof.Machine

/-! ## Chain addressing (R330 to R332) -/

/-- The part has an address. -/
def State.addressed (s : State) : Bool := s.flag F.MGB_ADDR_ASSIGNED

/-- ADR_IN has a level. -/
def State.setAdrIn (s : State) (b : Bool) : State := { s with pins := { s.pins with adrIn := b } }

/-- Addresses that ASSIGN refuses (R332). An address byte with bit 7 set is no 7-bit address and is refused too (log entry 77). -/
def addressRefused (b : Nat) : Bool := decide (b ≤ 0x07) || b == 0x58 || decide (0x78 ≤ b)

/-- ASSIGN (R330, R332): at the STOP an unaddressed part with ADR_IN high takes the address and drives ADR_OUT high. -/
def execAssign (adrIn : Bool) (b : Byte) (s : State) : Out :=
  .next (let s1 := s.setAdrIn adrIn
    if !s1.ready 3 || s1.addressed || !adrIn || addressRefused b.toNat then s1
    else
      let s2 := (s1.raise F.MGB_ADDR_ASSIGNED).put F.MGB_ADDR_ADDR b.toNat
      { s2 with pins := { s2.pins with adrOut := true } })

/-- IDENTIFY (R332, R341). -/
def execIdentify (adrIn : Bool) (s : State) : Out :=
  .next (let s1 := s.setAdrIn adrIn
    if !s1.ready 3 || s1.addressed || !adrIn then s1
    else { s1 with mgb := { s1.mgb with
      out := bytesLe 2 (s1.get F.MGB_INCARN_INCARN) ++ bytesLe 4 (s1.reg Reg.SYS_UID_LO).toNat ++
        bytesLe 4 (s1.reg Reg.SYS_UID_HI).toNat } })

/-! ## Register access (R333 to R335) -/

/-- A bit of STATUS sets. -/
def State.mgbStatus (s : State) (m : BitVec 4) : State := { s with mgb := { s.mgb with status := s.mgb.status ||| m } }

/-- The port answers at its assigned address. -/
def State.mgbAnswers (s : State) : Bool := s.ready 3 && s.addressed

/-- A transaction stops after some bytes of a value of four: FRAMING (R333). -/
def State.mgbPartial (s : State) (n : Nat) : State := if n % 4 = 0 then s else s.mgbStatus 2

/-- The four bytes of a pointer value: the flag says that it is taken; a value that is not a multiple of 4 is refused. -/
def State.setPointer (s : State) (bytes : List Byte) : State × Bool :=
  if bytes.length < 4 then (s.mgbPartial bytes.length, false)
  else
    let v := ofBytesLe (bytes.take 4)
    if v % 4 = 0 then ({ s with mgb := { s.mgb with ptr := BitVec.ofNat 32 v } }, true) else (s.mgbStatus 4, false)

/-- POINTER (R333). -/
def execPointer (bytes : List Byte) (s : State) : Out := .next (if s.mgbAnswers then (s.setPointer bytes).1 else s)

/-- The pointer advances by 4. -/
def State.nextPointer (s : State) : State := { s with mgb := { s.mgb with ptr := s.mgb.ptr + 4 } }

/-- Each whole word is written to the pointer; a last partial word is discarded (R333). -/
def State.mgbWords : Nat → State → List Byte → State
  | 0, s, _ => s
  | fuel + 1, s, bytes =>
    if bytes.length < 4 then s.mgbPartial bytes.length
    else if !s.mgbAnswers then s
    else
      let a := s.mgb.ptr.toNat
      let s1 := State.answerWrite (s.busWrite 66 a (BitVec.ofNat 32 (ofBytesLe (bytes.take 4)))) 66 a
      s1.nextPointer.mgbWords fuel (bytes.drop 4)

/-- MGB_WRITE (R333): a write transaction with command byte `cmd`: a pointer, then words. POINTER and ATTN_ACK are commands of their own;
any other command byte is refused. -/
def execMgbWrite (cmd : Byte) (bytes : List Byte) (s : State) : Out :=
  .next (if !s.mgbAnswers then s
    else if cmd = 0x20 then
      let x := s.setPointer bytes
      if x.2 then State.mgbWords bytes.length x.1 (bytes.drop 4) else x.1
    else if cmd = 0x10 ∨ cmd = 0x30 then s
    else s.mgbStatus 4)

/-- The next word of a read is accessed, issued under the worlds `m`, and the pointer advances; the four bytes sent for it, zeros when it
is late (R334; log entry 76). -/
def State.mgbWordRead (s : State) (m : List (Nat × Word)) (late : Bool) : State × List Byte :=
  let a := s.mgb.ptr.toNat
  let s1 := State.answerRead (s.underWorlds m (fun u => u.busRead 66 a)) 66 a
  ((if late then s1.mgbStatus 8 else s1).nextPointer, bytesLe 4 (if late then 0 else s1.data.toNat))

/-- The words of a read, one for each element of `late`, which says that its access did not complete within 10 ms (R334); `out` is what
has been sent before them. An access that has to wait for the flash holds up the rest (14 R442); once it is late the port goes on
without it, and it completes when the flash lets it. -/
def State.mgbWordsRead : List Bool → State → List Byte → State
  | [], s, out => { s with mgb := { s.mgb with out := out } }
  | l :: ls, s, out =>
    if !s.mgbAnswers then State.mgbWordsRead ls s (out ++ bytesLe 4 0)
    else if s.flashWaits s.mgb.ptr.toNat then
      if l then
        let s1 := { s with flc := { s.flc with waits := s.flc.waits ++ [FlashWait.word 66 s.mgb.ptr s.worldMap] } }
        State.mgbWordsRead ls (s1.mgbStatus 8).nextPointer (out ++ bytesLe 4 0)
      else { s with flc := { s.flc with waits := s.flc.waits ++ [FlashWait.mgb (l :: ls) out s.worldMap] } }
    else
      let x := s.mgbWordRead s.worldMap l
      State.mgbWordsRead ls x.1 (out ++ x.2)

/-- A read that waited goes on (14 R442), or waits for the next operation. -/
def State.resumeWords (s : State) (late : List Bool) (out : List Byte) (m : List (Nat × Word)) : State :=
  if s.flashWaits s.mgb.ptr.toNat then { s with flc := { s.flc with waits := s.flc.waits ++ [FlashWait.mgb late out m] } }
  else
    let x := s.mgbWordRead m (late.headD false)
    State.mgbWordsRead late.tail x.1 (out ++ x.2)

/-- MGB_READ (R334, R335): STATUS, whose event bits the read clears, then words from the pointer. -/
def execMgbRead (late : List Bool) (s : State) : Out :=
  .next (if s.mgbAnswers then
      let st : Byte := BitVec.ofNat 8 (pack [(0, s.mgb.status.toNat), (7, s.get F.MGB_ATTNSTAT_PENDING)])
      State.mgbWordsRead late { s with mgb := { s.mgb with status := 0 } } [st]
    else s)

/-! ## Sleep and hangs (R336, R337) -/

/-- MANAGEMENT_ADDRESS_MATCH (R336): in STANDBY and TRICKLE the matcher sees its address; natively it holds SCL. -/
def execManagementAddressMatch (a : BitVec 7) (adrIn : Bool) (s : State) : Out :=
  .next (let s1 := s.setAdrIn adrIn
    let hit := if s1.addressed then a.toNat == s1.get F.MGB_ADDR_ADDR else adrIn && a.toNat == 0x58
    if hit && decide (s1.pwrState = 2 ∨ s1.pwrState = 3) then
      let s2 := s1.signalWake 0
      if s2.flag F.MGB_CFG_COMPAT then s2 else { s2 with mgb := { s2.mgb with matcherHold := true } }
    else s1)

/-- MATCHER_RELEASE (R336): 25 ms have passed without bit 3 of SYS_READY. -/
def execMatcherRelease (s : State) : Out :=
  .next (if s.mgb.matcherHold && !s.ready 3 then
      ({ s with mgb := { s.mgb with matcherHold := false } }).bump F.MGB_HANG_COUNT
    else s)

/-- SCL_HANG (R337). -/
def execSclHang (s : State) : Out := .next (if s.ready 3 then s.bump F.MGB_HANG_COUNT else s)

/-! ## Attention (R338 to R341) -/

/-- ATTN_ACK (R339): the sequence number of the pending message acknowledges it. -/
def execAttnAck (seq : Byte) (s : State) : Out :=
  .next (if s.mgbAnswers && s.flag F.MGB_ATTNSTAT_PENDING && s.get F.MGB_ATTNSTAT_SEQ == seq.toNat then
      ((s.lower F.MGB_ATTNSTAT_PENDING).put F.MGB_ATTNSTAT_CAUSE 0).lower F.MGB_ATTNSTAT_NEWLIFE
    else s)

/-- The six bytes of an attention message (R338). -/
def State.attnMessage (s : State) : List Byte :=
  let body := [BitVec.ofNat 8 (s.get F.MGB_ADDR_ADDR)] ++ bytesLe 2 (s.get F.MGB_INCARN_INCARN) ++
    [BitVec.ofNat 8 (pack [(0, s.get F.MGB_ATTNSTAT_CAUSE), (7, s.get F.MGB_ATTNSTAT_NEWLIFE)]),
     BitVec.ofNat 8 (s.get F.MGB_ATTNSTAT_SEQ)]
  body ++ [BitVec.ofNat 8 (crc8Attn body)]

/-- The speed of attention messages, in kHz. -/
def State.attnSpeed (s : State) : Nat :=
  match s.get F.MGB_ATTN_SPEED with
  | 0 => 100
  | 1 => 400
  | _ => 1000

/-- ATTENTION_ATTEMPT (R338 to R340): a pending message of an addressed part with EN = 1; it stays pending however the attempt ends. -/
def execAttentionAttempt (o : AttemptOutcome) (s : State) : Out :=
  .next (if s.mgbAnswers && s.flag F.MGB_ATTN_EN && s.flag F.MGB_ATTNSTAT_PENDING then
      match o with
      | .sent => { s with mgb := { s.mgb with msgs := s.mgb.msgs ++ [⟨s.get F.MGB_ATTN_HOST, s.attnSpeed, s.attnMessage⟩] } }
      | .nack => s
      | .arbLost => s.bump F.MGB_ARBLOST_COUNT
      | .busNotFree => s
    else s)

/-- BUS_CLEAR (R340). -/
def execBusClear (s : State) : Out := .next (if s.ready 3 then s.bump F.MGB_HANG_COUNT else s)

end Sys2Proof.Machine
end

