-- ==== Sys2Proof/Machine/Spi.lean ====
section
/-! DEFINITION. The host SPI target (10 R316 to R328): selects and transactions. -/

namespace Sys2Proof.Machine

/-! ## Selects (R325 to R327) -/

/-- SELECT_ASSERT (R327, R328): `both` when the other select is asserted too before the first clock. -/
def execSelectAssert (cs : Select) (both : Bool) (s : State) : Out :=
  .next (if !s.ready 2 then s
    else if s.spi.sel.isSome then
      (if s.spi.sel = some cs then s else { s with spi := { s.spi with ignored := some cs } })
    else if both && s.spi.ignored.isNone then
      ({ s with spi := { collided := true } }.raise (F.HSP_STATUS_COLLIDE 0)).raise (F.HSP_STATUS_COLLIDE 1)
    else { s with spi := { sel := some cs, cfg := s.reg (Reg.HSP_CFG (selBank cs)), ignored := s.spi.ignored } })

/-- A transaction on select `cs` ends at a clock count (R325): FRAMING at any but its own length, a free value where the refused
command gave it none; 1 to 7 clocks return HSP_CFG to its reset values. -/
def State.endTransaction (s : State) (cs : Select) (clocks : Nat) : State :=
  let b := selBank cs
  let s1 :=
    match s.spi.clocks with
    | some n => if clocks = n then s else s.raise (F.HSP_STATUS_FRAMING b)
    | none =>
      if s.spi.bad then
        let d := s.draw 1
        if d.1 = 1 then d.2.raise (F.HSP_STATUS_FRAMING b) else d.2
      else s.raise (F.HSP_STATUS_FRAMING b)
  if 1 ≤ clocks ∧ clocks ≤ 7 then
    (s1.setReg (Reg.HSP_CFG b) (resetVal (Reg.HSP_CFG b))).raise (F.HSP_STATUS_CFGRST b)
  else s1

/-- SELECT_RELEASE (R325, R327). -/
def execSelectRelease (cs : Select) (clocks : Nat) (s : State) : Out :=
  .next (if s.serves cs then
      let s1 := (s.endTransaction cs clocks).orphanReads cs
      { s1 with spi := { ignored := s1.spi.ignored } }
    else if s.spi.sel.isNone && s.spi.collided then { s with spi := { ignored := some (otherSel cs) } }
    else if s.spi.ignored = some cs then { s with spi := { s.spi with ignored := none } }
    else s)

/-- SELECT_TIMEOUT (R326): the select served has had no clock edge for 1 ms at a clock count. It stays asserted and is not served again
before it is released. -/
def execSelectTimeout (clocks : Nat) (s : State) : Out :=
  .next (match s.spi.sel with
  | some cs =>
    if s.ready 2 then
      let b := selBank cs
      let s1 := (((s.endTransaction cs clocks).orphanReads cs).raise (F.HSP_STATUS_TIMEOUT b)).raise (F.HSP_STATUS_FRAMING b)
      { s1 with spi := s1.spi.cutOff }
    else s
  | none => s)

/-! ## Writes (R322) -/

/-- The writes of a transaction, in order, while the port serves the select: the state, and for each write whether it failed. -/
def State.spiWrites (s : State) (cs : Select) (addr : Word) (fixed : Bool) (data : List Word) : State × List Bool :=
  (data.zipIdx).foldl (fun (x : State × List Bool) (d : Word × Nat) =>
    if x.1.serves cs then
      let a := wordAddr addr fixed d.2
      let y := x.1.busWrite (selReq cs) a d.1
      match y.2 with
      | some _ => (y.1.portError (selReq cs) a, x.2 ++ [true])
      | none => (y.1, x.2 ++ [false])
    else x) (s, [])

/-- A write transaction (R317 to R324): with CRC on nothing is written before a matching HCRC; a transaction cut short sends no
STATUS. -/
def State.spiWrite (s : State) (t : SpiWrite) (fixed : Bool) : State :=
  let m := s.spiMode t.cs
  let n := cmdCount t.cmd
  let data := t.data.take n
  let len := some (m.length false n)
  let whole := data.length == n && (!m.crc || t.hcrc.isSome)
  if badCommand t.cmd t.addr then s.refuseCommand m t.cmd
  else if m.crc && !whole then s.sentWords t.cs len []
  else if m.crc && (t.hcrc.getD 0).setWidth 16 != (crcWord (t.cmd :: t.addr :: data)).setWidth 16 then
    (s.raise (F.HSP_STATUS_CRC m.bank)).sentWords t.cs len (waitWords m ++ [statusWord 0 false true false])
  else
    let x := s.spiWrites t.cs t.addr fixed data
    let inTime := x.2.take t.accepted
    let late := decide (inTime.length < n)
    let s1 := if whole && late && x.1.serves t.cs then x.1.raise (F.HSP_STATUS_LATE m.bank) else x.1
    s1.sentWords t.cs len
      (if whole then waitWords m ++ [statusWord (inTime.filter (fun e => !e)).length (inTime.any id) false late] else [])

/-- WRITE (R317, R318, R322). -/
def execWrite (t : SpiWrite) (s : State) : Out :=
  .next (if s.fresh t.cs && (cmdOp t.cmd == 0x02 || !opListed (cmdOp t.cmd)) then s.spiWrite t false else s)

/-- WRITE_FIX (R318, R322): every word goes to one address. -/
def execWriteFix (t : SpiWrite) (s : State) : Out :=
  .next (if s.fresh t.cs && (cmdOp t.cmd == 0x03 || !opListed (cmdOp t.cmd)) then s.spiWrite t true else s)

/-! ## Reads (R323) -/

/-- One more access of a read transaction, issued under the worlds `m`, and what it gave. -/
def State.nextRead (s : State) (m : List (Nat × Word)) (cs : Select) (a : Nat) (x : SpiGot) : State × SpiGot :=
  match s.underWorlds m (fun u => u.busRead (selReq cs) a) with
  | (s1, .ok v) => (s1, ⟨x.words ++ [BitVec.ofNat 32 v], x.failed ++ [false]⟩)
  | (s1, .error _) => (s1.portError (selReq cs) a, ⟨x.words ++ [0], x.failed ++ [true]⟩)

/-- A read transaction waits for the flash with its next word (14 R442): the WAIT words and the words it has go out meanwhile (R319). When
every word still to come is late, the zeros and STATUS go out at their time, and the accesses follow (R323). -/
def State.holdRead (s : State) (w : SpiWait) : State :=
  let n := cmdCount w.t.cmd - w.words.length
  let gone := w.live && (List.range n).all (fun i => w.t.late.getD (w.words.length + i) false)
  let s1 := if gone then s.endRead w.m w.t true ⟨w.words ++ List.replicate n 0, w.failed ++ List.replicate n false⟩
    else if w.live then
      s.sentWords w.t.cs (some (w.m.length true (cmdCount w.t.cmd))) (waitWords w.m ++ (⟨w.words, w.failed⟩ : SpiGot).sent w.t.late)
    else s
  { s1 with flc := { s1.flc with waits := s1.flc.waits ++ [FlashWait.spi { w with live := w.live && !gone }] } }

/-- The accesses of words `ks` of a read transaction, one after another. One that has to wait for the flash holds up the rest (14
R442). -/
def State.spiReads (m : SpiMode) (t : SpiRead) (fixed live : Bool) : List Nat → State → SpiGot → State
  | [], s, x => s.endRead m t live x
  | k :: ks, s, x =>
    let a := wordAddr t.addr fixed k
    if s.flashWaits a then s.holdRead ⟨m, t, fixed, live, x.words, x.failed, s.worldMap⟩
    else
      let y := s.nextRead s.worldMap t.cs a x
      State.spiReads m t fixed live ks y.1 y.2

/-- A read transaction that waited goes on (14 R442), or waits for the next operation. -/
def State.resumeRead (s : State) (w : SpiWait) : State :=
  let k := w.words.length
  let a := wordAddr w.t.addr w.fixed k
  if s.flashWaits a then s.holdRead w
  else
    let y := s.nextRead w.worlds w.t.cs a ⟨w.words, w.failed⟩
    State.spiReads w.m w.t w.fixed w.live ((List.range (cmdCount w.t.cmd)).drop (k + 1)) y.1 y.2

/-- A read transaction (R317 to R324). -/
def State.spiRead (s : State) (t : SpiRead) (fixed : Bool) : State :=
  let m := s.spiMode t.cs
  let n := cmdCount t.cmd
  let len := some (m.length true n)
  if badCommand t.cmd t.addr then s.refuseCommand m t.cmd
  else if m.crc && t.hcrc.isNone then s.sentWords t.cs len []
  else if m.crc && (t.hcrc.getD 0).setWidth 16 != (crcWord [t.cmd, t.addr]).setWidth 16 then
    let zeros := List.replicate n (0 : Word)
    (s.raise (F.HSP_STATUS_CRC m.bank)).sentWords t.cs len
      (waitWords m ++ zeros ++ (if m.crc then [crcWord zeros] else []) ++ [statusWord 0 false true false])
  else State.spiReads m t fixed true (List.range n) (s.sentWords t.cs len []) {}

/-- READ (R317, R318, R323). -/
def execRead (t : SpiRead) (s : State) : Out :=
  .next (if s.fresh t.cs && (cmdOp t.cmd == 0x0B || !opListed (cmdOp t.cmd)) then s.spiRead t false else s)

/-- READ_FIX (R318, R323): every word comes from one address. -/
def execReadFix (t : SpiRead) (s : State) : Out :=
  .next (if s.fresh t.cs && (cmdOp t.cmd == 0x0C || !opListed (cmdOp t.cmd)) then s.spiRead t true else s)

end Sys2Proof.Machine
end

