-- ==== Sys2Proof/Machine/FlashRead.lean ====
section
/-! DEFINITION. Reads of the flash window from outside, and the end of the operation they wait for (14 R438, R440 to R442). -/

namespace Sys2Proof.Machine

/-- FLASH_READ (R438, R442): a word read of the flash read window; `bad` is how many bits of its unit have come to be in error. While an
operation is in progress it waits. -/
def execFlashRead (r : Req) (a : Word) (bad : Nat) (s : State) : Out :=
  .next (if placeOf a.toNat == .flash && s.canReach r.val then
    let s1 := if bad = 0 then s else { s with flc := { s.flc with
      ecc := (a.toNat / 16, bad) :: s.flc.ecc.filter (fun u => u.1 != a.toNat / 16) } }
    if s.flashWaits a.toNat then { s1 with flc := { s1.flc with waits := s1.flc.waits ++ [FlashWait.word r a s.worldMap] } }
    else s1.query32 r.val a.toNat
  else s)

/-- A read that waited goes on, and waits again where it meets the next operation (R442). -/
def State.resumeWait (s : State) (w : FlashWait) : State :=
  match w with
  | .word r a m =>
    if s.flashWaits a.toNat then { s with flc := { s.flc with waits := s.flc.waits ++ [w] } }
    else State.answerRead (s.underWorlds m (fun u => u.busRead r.val a.toNat)) r.val a.toNat
  | .spi x => s.resumeRead x
  | .mgb late out m => s.resumeWords late out m
  | .request => s.resumeLater

/-- FLASH_OPERATION_END (R440 to R442, R453): the operation in progress ends and the reads that waited for it complete in their order. -/
def execFlashOperationEnd (pulses : List Nat) (s : State) : Out :=
  .next (let t := s.flashEnds pulses
    ({ t with flc := { t.flc with waits := [] } } : State).each t.flc.waits State.resumeWait)

end Sys2Proof.Machine
end

