-- ==== Sys2Proof/Machine/Instructions.lean ====
section
/-! DEFINITION. The engine's operations, each as the instruction with that one move: `#t -> trigger`, or `source -> wd`
(07; log entry 8). -/

namespace Sys2Proof.Machine

/-- Engine `e` issues the instruction with the one move `#t -> port`. -/
def State.issueMove (s : State) (e : EngIx) (port : Nat) (t : Word24) : State := s.issue e (immWord port t)

/-- Engine `e` issues the instruction with the one move of a source port into register `d`. -/
def State.issueRead (s : State) (e : EngIx) (port : Nat) (d : Fin 32) : State := s.issue e (readWord port d.val)

/-- The trigger port of operation `k` of an ALU. -/
def aluPort (u : Fin 2) (k : Nat) : Nat := 0x50 + 0x20 * u.val + k

/-- The trigger port of condition `c` into a guard. -/
def cmpPort (c : Nat) (g : Fin 3) : Nat := 0xB0 + 4 * c + g.val

/-! ## ALUs (R229) -/

/-- ADD (R229). -/
def execAdd (e : EngIx) (u : Fin 2) (t : Word24) (s : State) : Out := .next (s.issueMove e (aluPort u 0) t)

/-- SUB (R229). -/
def execSub (e : EngIx) (u : Fin 2) (t : Word24) (s : State) : Out := .next (s.issueMove e (aluPort u 1) t)

/-- AND (R229). -/
def execAnd (e : EngIx) (u : Fin 2) (t : Word24) (s : State) : Out := .next (s.issueMove e (aluPort u 2) t)

/-- OR (R229). -/
def execOr (e : EngIx) (u : Fin 2) (t : Word24) (s : State) : Out := .next (s.issueMove e (aluPort u 3) t)

/-- XOR (R229). -/
def execXor (e : EngIx) (u : Fin 2) (t : Word24) (s : State) : Out := .next (s.issueMove e (aluPort u 4) t)

/-- ANDN (R229). -/
def execAndn (e : EngIx) (u : Fin 2) (t : Word24) (s : State) : Out := .next (s.issueMove e (aluPort u 5) t)

/-- MIN (R229). -/
def execMin (e : EngIx) (u : Fin 2) (t : Word24) (s : State) : Out := .next (s.issueMove e (aluPort u 6) t)

/-- MAX (R229). -/
def execMax (e : EngIx) (u : Fin 2) (t : Word24) (s : State) : Out := .next (s.issueMove e (aluPort u 7) t)

/-- MINU (R229). -/
def execMinu (e : EngIx) (u : Fin 2) (t : Word24) (s : State) : Out := .next (s.issueMove e (aluPort u 8) t)

/-- MAXU (R229). -/
def execMaxu (e : EngIx) (u : Fin 2) (t : Word24) (s : State) : Out := .next (s.issueMove e (aluPort u 9) t)

/-- ADDS (R229). -/
def execAdds (e : EngIx) (u : Fin 2) (t : Word24) (s : State) : Out := .next (s.issueMove e (aluPort u 10) t)

/-- SUBS (R229). -/
def execSubs (e : EngIx) (u : Fin 2) (t : Word24) (s : State) : Out := .next (s.issueMove e (aluPort u 11) t)

/-- SEXT8 (R229). -/
def execSext8 (e : EngIx) (u : Fin 2) (t : Word24) (s : State) : Out := .next (s.issueMove e (aluPort u 12) t)

/-- SEXT16 (R229). -/
def execSext16 (e : EngIx) (u : Fin 2) (t : Word24) (s : State) : Out := .next (s.issueMove e (aluPort u 13) t)

/-- ABS (R229). -/
def execAbs (e : EngIx) (u : Fin 2) (t : Word24) (s : State) : Out := .next (s.issueMove e (aluPort u 14) t)

/-- PASS (R229). -/
def execPass (e : EngIx) (u : Fin 2) (t : Word24) (s : State) : Out := .next (s.issueMove e (aluPort u 15) t)

/-! ## Shifter (R230) -/

/-- SHL (R230). -/
def execShl (e : EngIx) (t : Word24) (s : State) : Out := .next (s.issueMove e 0x88 t)

/-- SHR (R230). -/
def execShr (e : EngIx) (t : Word24) (s : State) : Out := .next (s.issueMove e 0x89 t)

/-- SAR (R230). -/
def execSar (e : EngIx) (t : Word24) (s : State) : Out := .next (s.issueMove e 0x8a t)

/-- ROL (R230). -/
def execRol (e : EngIx) (t : Word24) (s : State) : Out := .next (s.issueMove e 0x8b t)

/-- FSHL (R230). -/
def execFshl (e : EngIx) (t : Word24) (s : State) : Out := .next (s.issueMove e 0x8c t)

/-- FSHR (R230). -/
def execFshr (e : EngIx) (t : Word24) (s : State) : Out := .next (s.issueMove e 0x8d t)

/-- CLZ (R230). -/
def execClz (e : EngIx) (t : Word24) (s : State) : Out := .next (s.issueMove e 0x8e t)

/-! ## Multiplier (R231, R232) -/

/-- MULS (R231). -/
def execMuls (e : EngIx) (t : Word24) (s : State) : Out := .next (s.issueMove e 0x98 t)

/-- MULU (R231). -/
def execMulu (e : EngIx) (t : Word24) (s : State) : Out := .next (s.issueMove e 0x99 t)

/-- MULSU (R231). -/
def execMulsu (e : EngIx) (t : Word24) (s : State) : Out := .next (s.issueMove e 0x9a t)

/-- MACS (R231). -/
def execMacs (e : EngIx) (t : Word24) (s : State) : Out := .next (s.issueMove e 0x9b t)

/-- MACU (R231). -/
def execMacu (e : EngIx) (t : Word24) (s : State) : Out := .next (s.issueMove e 0x9c t)

/-! ## Comparator (R233) -/

/-- CMP_EQ (R233). -/
def execCmpEq (e : EngIx) (g : Fin 3) (t : Word24) (s : State) : Out := .next (s.issueMove e (cmpPort 0 g) t)

/-- CMP_NE (R233). -/
def execCmpNe (e : EngIx) (g : Fin 3) (t : Word24) (s : State) : Out := .next (s.issueMove e (cmpPort 1 g) t)

/-- CMP_LT (R233). -/
def execCmpLt (e : EngIx) (g : Fin 3) (t : Word24) (s : State) : Out := .next (s.issueMove e (cmpPort 2 g) t)

/-- CMP_GE (R233). -/
def execCmpGe (e : EngIx) (g : Fin 3) (t : Word24) (s : State) : Out := .next (s.issueMove e (cmpPort 3 g) t)

/-- CMP_LTU (R233). -/
def execCmpLtu (e : EngIx) (g : Fin 3) (t : Word24) (s : State) : Out := .next (s.issueMove e (cmpPort 4 g) t)

/-- CMP_GEU (R233). -/
def execCmpGeu (e : EngIx) (g : Fin 3) (t : Word24) (s : State) : Out := .next (s.issueMove e (cmpPort 5 g) t)

/-- CMP_ANY (R233). -/
def execCmpAny (e : EngIx) (g : Fin 3) (t : Word24) (s : State) : Out := .next (s.issueMove e (cmpPort 6 g) t)

/-- CMP_NONE (R233). -/
def execCmpNone (e : EngIx) (g : Fin 3) (t : Word24) (s : State) : Out := .next (s.issueMove e (cmpPort 7 g) t)

/-! ## Branches (R235 to R238, R260) -/

/-- JUMP (R235). -/
def execJump (e : EngIx) (t : Word24) (s : State) : Out := .next (s.issueMove e 0xe0 t)

/-- JREL (R235). -/
def execJrel (e : EngIx) (t : Word24) (s : State) : Out := .next (s.issueMove e 0xe1 t)

/-- CALL (R235). -/
def execCall (e : EngIx) (t : Word24) (s : State) : Out := .next (s.issueMove e 0xe2 t)

/-- CREL (R235). -/
def execCrel (e : EngIx) (t : Word24) (s : State) : Out := .next (s.issueMove e 0xe3 t)

/-- RET (R235). -/
def execRet (e : EngIx) (s : State) : Out := .next (s.issueMove e 0xe4 0)

/-- TRET (R260). -/
def execTret (e : EngIx) (s : State) : Out := .next (s.issueMove e 0xe5 0)

/-! ## Load and store unit (R239 to R244) -/

/-- LDL (R239). -/
def execLdl (e : EngIx) (t : Word24) (s : State) : Out := .next (s.issueMove e 0x101 t)

/-- STL (R239). -/
def execStl (e : EngIx) (t : Word24) (s : State) : Out := .next (s.issueMove e 0x102 t)

/-- LDB (R241). -/
def execLdb (e : EngIx) (t : Word24) (s : State) : Out := .next (s.issueMove e 0x110 t)

/-- LDBS (R241). -/
def execLdbs (e : EngIx) (t : Word24) (s : State) : Out := .next (s.issueMove e 0x111 t)

/-- LDH (R241). -/
def execLdh (e : EngIx) (t : Word24) (s : State) : Out := .next (s.issueMove e 0x112 t)

/-- LDHS (R241). -/
def execLdhs (e : EngIx) (t : Word24) (s : State) : Out := .next (s.issueMove e 0x113 t)

/-- LDT (R241). -/
def execLdt (e : EngIx) (t : Word24) (s : State) : Out := .next (s.issueMove e 0x114 t)

/-- LDW (R241). -/
def execLdw (e : EngIx) (t : Word24) (s : State) : Out := .next (s.issueMove e 0x115 t)

/-- STB (R241). -/
def execStb (e : EngIx) (t : Word24) (s : State) : Out := .next (s.issueMove e 0x118 t)

/-- STH (R241). -/
def execSth (e : EngIx) (t : Word24) (s : State) : Out := .next (s.issueMove e 0x119 t)

/-- STT (R241). -/
def execStt (e : EngIx) (t : Word24) (s : State) : Out := .next (s.issueMove e 0x11a t)

/-- STW (R241). -/
def execStw (e : EngIx) (t : Word24) (s : State) : Out := .next (s.issueMove e 0x11b t)

/-- BLKLD (R243). -/
def execBlkld (e : EngIx) (t : Word24) (s : State) : Out := .next (s.issueMove e 0x11c t)

/-- BLKST (R243). -/
def execBlkst (e : EngIx) (t : Word24) (s : State) : Out := .next (s.issueMove e 0x11d t)

/-! ## Lane I/O, cipher jobs, events, locks and the timer port (R245 to R252) -/

/-- LIO_SEL (R245). -/
def execLioSel (e : EngIx) (t : Word24) (s : State) : Out := .next (s.issueMove e 0x140 t)

/-- LIO_A (R246). -/
def execLioA (e : EngIx) (d : Fin 32) (s : State) : Out := .next (s.issueRead e 0x50 d)

/-- LIO_B (R246). -/
def execLioB (e : EngIx) (d : Fin 32) (s : State) : Out := .next (s.issueRead e 0x51 d)

/-- CJ_W (R248). -/
def execCjW (e : EngIx) (t : Word24) (s : State) : Out := .next (s.issueMove e 0x151 t)

/-- CJ_RST (R249). -/
def execCjRst (e : EngIx) (s : State) : Out := .next (s.issueMove e 0x152 0)

/-- EV_FIRE (R250). -/
def execEvFire (e : EngIx) (t : Word24) (s : State) : Out := .next (s.issueMove e 0x160 t)

/-- EV_POP (R250). -/
def execEvPop (e : EngIx) (d : Fin 32) (s : State) : Out := .next (s.issueRead e 0x60 d)

/-- LK_ACQ (R251). -/
def execLkAcq (e : EngIx) (t : Word24) (s : State) : Out := .next (s.issueMove e 0x170 t)

/-- LK_REL (R251). -/
def execLkRel (e : EngIx) (t : Word24) (s : State) : Out := .next (s.issueMove e 0x171 t)

/-- TM_WDK (R252). -/
def execTmWdk (e : EngIx) (s : State) : Out := .next (s.issueMove e 0x180 0)

/-- TM_CYC (R252). -/
def execTmCyc (e : EngIx) (d : Fin 32) (s : State) : Out := .next (s.issueRead e 0x70 d)

/-- TM_OFF (R252). -/
def execTmOff (e : EngIx) (d : Fin 32) (s : State) : Out := .next (s.issueRead e 0x72 d)

/-- TB_CLR (R260). -/
def execTbClr (e : EngIx) (s : State) : Out := .next (s.issueMove e 0x190 0)

end Sys2Proof.Machine
end

