-- ==== Sys2Proof/Machine/Dispatch.lean ====
section
/-! DEFINITION. The one match that gives each command its meaning, arm by arm. -/

namespace Sys2Proof.Machine

def exec (i : Instr) (s : State) : Host.Outcome State Fault Refusal :=
  match i with
  | .registerWrite r a v => Sys2Proof.Machine.execRegisterWrite r a v s
  | .rcRead r a => Sys2Proof.Machine.execRcRead r a s
  | .snapshotRead r a => Sys2Proof.Machine.execSnapshotRead r a s
  | .blockLock r bits => Sys2Proof.Machine.execBlockLock r bits s
  | .wldLock r => Sys2Proof.Machine.execWldLock r s
  | .stagedWrite r a v => Sys2Proof.Machine.execStagedWrite r a v s
  | .arm r => Sys2Proof.Machine.execArm r s
  | .gap r => Sys2Proof.Machine.execGap r s
  | .abandon r => Sys2Proof.Machine.execAbandon r s
  | .stoppedCommit sec ns => Sys2Proof.Machine.execStoppedCommit sec ns s
  | .aonWriteComplete a => Sys2Proof.Machine.execAonWriteComplete a s
  | .syncMatch n h info => Sys2Proof.Machine.execSyncMatch n h info s
  | .secondCorrelatorMatch n bits => Sys2Proof.Machine.execSecondCorrelatorMatch n bits s
  | .headerWindowComplete n bits mags => Sys2Proof.Machine.execHeaderWindowComplete n bits mags s
  | .lastOnAirBit n air => Sys2Proof.Machine.execLastOnAirBit n air s
  | .codewordReceived n llrs same => Sys2Proof.Machine.execCodewordReceived n llrs same s
  | .decodingJobStart => Sys2Proof.Machine.execDecodingJobStart s
  | .decodingJobEnd d => Sys2Proof.Machine.execDecodingJobEnd d s
  | .release r n => Sys2Proof.Machine.execRelease r n s
  | .restart r n => Sys2Proof.Machine.execRestart r n s
  | .decisionWindowEnd c peak => Sys2Proof.Machine.execDecisionWindowEnd c peak s
  | .gainSettled c => Sys2Proof.Machine.execGainSettled c s
  | .adcClip c => Sys2Proof.Machine.execAdcClip c s
  | .noiseMeasurementComplete n power => Sys2Proof.Machine.execNoiseMeasurementComplete n power s
  | .frequencyCorrection n err => Sys2Proof.Machine.execFrequencyCorrection n err s
  | .recalA r => Sys2Proof.Machine.execRecalA r s
  | .recalB r => Sys2Proof.Machine.execRecalB r s
  | .synthCalibrationComplete c => Sys2Proof.Machine.execSynthCalibrationComplete c s
  | .dcLoopLimit c ii qq => Sys2Proof.Machine.execDcLoopLimit c ii qq s
  | .wakeCodeMatch code => Sys2Proof.Machine.execWakeCodeMatch code s
  | .slotBoundary dt => Sys2Proof.Machine.execSlotBoundary dt s
  | .sfmRunStart r => Sys2Proof.Machine.execSfmRunStart r s
  | .sfmRunStop r => Sys2Proof.Machine.execSfmRunStop r s
  | .firstSlotStart dt gap => Sys2Proof.Machine.execFirstSlotStart dt gap s
  | .sfmAdj r shift => Sys2Proof.Machine.execSfmAdj r shift s
  | .sfmSubmit r mode index desc => Sys2Proof.Machine.execSfmSubmit r mode index desc s
  | .sfmCancel r desc => Sys2Proof.Machine.execSfmCancel r desc s
  | .sfmResult r => Sys2Proof.Machine.execSfmResult r s
  | .sfmHeard r err index => Sys2Proof.Machine.execSfmHeard r err index s
  | .sfmMiss r index => Sys2Proof.Machine.execSfmMiss r index s
  | .cstUgo r => Sys2Proof.Machine.execCstUgo r s
  | .cstRq r index => Sys2Proof.Machine.execCstRq r index s
  | .clear r => Sys2Proof.Machine.execClear r s
  | .cisternClearComplete => Sys2Proof.Machine.execCisternClearComplete s
  | .cisternDirectWrite r a v => Sys2Proof.Machine.execCisternDirectWrite r a v s
  | .keyStoreWrite r a v w => Sys2Proof.Machine.execKeyStoreWrite r a v w s
  | .deepEnc r j => Sys2Proof.Machine.execDeepEnc r j s
  | .deepDec r j => Sys2Proof.Machine.execDeepDec r j s
  | .sunEnc r j => Sys2Proof.Machine.execSunEnc r j s
  | .sunDec r j => Sys2Proof.Machine.execSunDec r j s
  | .cmacGen r j => Sys2Proof.Machine.execCmacGen r j s
  | .cmacVer r j => Sys2Proof.Machine.execCmacVer r j s
  | .prime r j => Sys2Proof.Machine.execPrime r j s
  | .jobStart => Sys2Proof.Machine.execJobStart s
  | .jobComplete c => Sys2Proof.Machine.execJobComplete c s
  | .flush r => Sys2Proof.Machine.execFlush r s
  | .hopStart head => Sys2Proof.Machine.execHopStart head s
  | .femSwitch => Sys2Proof.Machine.execFemSwitch s
  | .payloadReadComplete => Sys2Proof.Machine.execPayloadReadComplete s
  | .rampUp locked => Sys2Proof.Machine.execRampUp locked s
  | .lastSymbol power => Sys2Proof.Machine.execLastSymbol power s
  | .rampDownEnd off => Sys2Proof.Machine.execRampDownEnd off s
  | .femReturn => Sys2Proof.Machine.execFemReturn s
  | .synCalibrate r khz => Sys2Proof.Machine.execSynCalibrate r khz s
  | .synInvalidate r khz => Sys2Proof.Machine.execSynInvalidate r khz s
  | .synInvalidateAll r => Sys2Proof.Machine.execSynInvalidateAll r s
  | .queuedCommandStart => Sys2Proof.Machine.execQueuedCommandStart s
  | .queuedCalibrationEnd head => Sys2Proof.Machine.execQueuedCalibrationEnd head s
  | .move e => Sys2Proof.Machine.execMove e s
  | .resultDelivery e u => Sys2Proof.Machine.execResultDelivery e u s
  | .sharedAccessComplete e cycles => Sys2Proof.Machine.execSharedAccessComplete e cycles s
  | .add e u t => Sys2Proof.Machine.execAdd e u t s
  | .sub e u t => Sys2Proof.Machine.execSub e u t s
  | .and e u t => Sys2Proof.Machine.execAnd e u t s
  | .or e u t => Sys2Proof.Machine.execOr e u t s
  | .xor e u t => Sys2Proof.Machine.execXor e u t s
  | .andn e u t => Sys2Proof.Machine.execAndn e u t s
  | .min e u t => Sys2Proof.Machine.execMin e u t s
  | .max e u t => Sys2Proof.Machine.execMax e u t s
  | .minu e u t => Sys2Proof.Machine.execMinu e u t s
  | .maxu e u t => Sys2Proof.Machine.execMaxu e u t s
  | .adds e u t => Sys2Proof.Machine.execAdds e u t s
  | .subs e u t => Sys2Proof.Machine.execSubs e u t s
  | .sext8 e u t => Sys2Proof.Machine.execSext8 e u t s
  | .sext16 e u t => Sys2Proof.Machine.execSext16 e u t s
  | .abs e u t => Sys2Proof.Machine.execAbs e u t s
  | .pass e u t => Sys2Proof.Machine.execPass e u t s
  | .shl e t => Sys2Proof.Machine.execShl e t s
  | .shr e t => Sys2Proof.Machine.execShr e t s
  | .sar e t => Sys2Proof.Machine.execSar e t s
  | .rol e t => Sys2Proof.Machine.execRol e t s
  | .fshl e t => Sys2Proof.Machine.execFshl e t s
  | .fshr e t => Sys2Proof.Machine.execFshr e t s
  | .clz e t => Sys2Proof.Machine.execClz e t s
  | .muls e t => Sys2Proof.Machine.execMuls e t s
  | .mulu e t => Sys2Proof.Machine.execMulu e t s
  | .mulsu e t => Sys2Proof.Machine.execMulsu e t s
  | .macs e t => Sys2Proof.Machine.execMacs e t s
  | .macu e t => Sys2Proof.Machine.execMacu e t s
  | .cmpEq e g t => Sys2Proof.Machine.execCmpEq e g t s
  | .cmpNe e g t => Sys2Proof.Machine.execCmpNe e g t s
  | .cmpLt e g t => Sys2Proof.Machine.execCmpLt e g t s
  | .cmpGe e g t => Sys2Proof.Machine.execCmpGe e g t s
  | .cmpLtu e g t => Sys2Proof.Machine.execCmpLtu e g t s
  | .cmpGeu e g t => Sys2Proof.Machine.execCmpGeu e g t s
  | .cmpAny e g t => Sys2Proof.Machine.execCmpAny e g t s
  | .cmpNone e g t => Sys2Proof.Machine.execCmpNone e g t s
  | .jump e t => Sys2Proof.Machine.execJump e t s
  | .jrel e t => Sys2Proof.Machine.execJrel e t s
  | .call e t => Sys2Proof.Machine.execCall e t s
  | .crel e t => Sys2Proof.Machine.execCrel e t s
  | .ret e => Sys2Proof.Machine.execRet e s
  | .tret e => Sys2Proof.Machine.execTret e s
  | .ldl e t => Sys2Proof.Machine.execLdl e t s
  | .stl e t => Sys2Proof.Machine.execStl e t s
  | .ldb e t => Sys2Proof.Machine.execLdb e t s
  | .ldbs e t => Sys2Proof.Machine.execLdbs e t s
  | .ldh e t => Sys2Proof.Machine.execLdh e t s
  | .ldhs e t => Sys2Proof.Machine.execLdhs e t s
  | .ldt e t => Sys2Proof.Machine.execLdt e t s
  | .ldw e t => Sys2Proof.Machine.execLdw e t s
  | .stb e t => Sys2Proof.Machine.execStb e t s
  | .sth e t => Sys2Proof.Machine.execSth e t s
  | .stt e t => Sys2Proof.Machine.execStt e t s
  | .stw e t => Sys2Proof.Machine.execStw e t s
  | .blkld e t => Sys2Proof.Machine.execBlkld e t s
  | .blkst e t => Sys2Proof.Machine.execBlkst e t s
  | .lioSel e t => Sys2Proof.Machine.execLioSel e t s
  | .lioA e d => Sys2Proof.Machine.execLioA e d s
  | .lioB e d => Sys2Proof.Machine.execLioB e d s
  | .cjW e t => Sys2Proof.Machine.execCjW e t s
  | .cjRst e => Sys2Proof.Machine.execCjRst e s
  | .evFire e t => Sys2Proof.Machine.execEvFire e t s
  | .evPop e d => Sys2Proof.Machine.execEvPop e d s
  | .lkAcq e t => Sys2Proof.Machine.execLkAcq e t s
  | .lkRel e t => Sys2Proof.Machine.execLkRel e t s
  | .tmWdk e => Sys2Proof.Machine.execTmWdk e s
  | .tmCyc e d => Sys2Proof.Machine.execTmCyc e d s
  | .tmOff e d => Sys2Proof.Machine.execTmOff e d s
  | .tbClr e => Sys2Proof.Machine.execTbClr e s
  | .load r e => Sys2Proof.Machine.execLoad r e s
  | .start r e => Sys2Proof.Machine.execStart r e s
  | .halt r e => Sys2Proof.Machine.execHalt r e s
  | .force r e => Sys2Proof.Machine.execForce r e s
  | .haltComplete e => Sys2Proof.Machine.execHaltComplete e s
  | .stallLimit e => Sys2Proof.Machine.execStallLimit e s
  | .engPcWrite r e x => Sys2Proof.Machine.execEngPcWrite r e x s
  | .instructionStoreWrite r a v => Sys2Proof.Machine.execInstructionStoreWrite r a v s
  | .grant a => Sys2Proof.Machine.execGrant a s
  | .grantRevoke e => Sys2Proof.Machine.execGrantRevoke e s
  | .watchdogExpiry e => Sys2Proof.Machine.execWatchdogExpiry e s
  | .engWdtWrite r e v => Sys2Proof.Machine.execEngWdtWrite r e v s
  | .evcFire r ch => Sys2Proof.Machine.execEvcFire r ch s
  | .eventArrival => Sys2Proof.Machine.execEventArrival s
  | .evcHpendClear r w v => Sys2Proof.Machine.execEvcHpendClear r w v s
  | .channelLock r c v => Sys2Proof.Machine.execChannelLock r c v s
  | .lckAcq r k => Sys2Proof.Machine.execLckAcq r k s
  | .lckRel r k => Sys2Proof.Machine.execLckRel r k s
  | .lckClr r k => Sys2Proof.Machine.execLckClr r k s
  | .pairingEnable r v => Sys2Proof.Machine.execPairingEnable r v s
  | .pairingDisable r => Sys2Proof.Machine.execPairingDisable r s
  | .helloSend => Sys2Proof.Machine.execHelloSend s
  | .hello h b => Sys2Proof.Machine.execHello h b s
  | .linkDown => Sys2Proof.Machine.execLinkDown s
  | .beatSend => Sys2Proof.Machine.execBeatSend s
  | .beat h b => Sys2Proof.Machine.execBeat h b s
  | .heartbeatMissed => Sys2Proof.Machine.execHeartbeatMissed s
  | .primaryLost => Sys2Proof.Machine.execPrimaryLost s
  | .takeover off => Sys2Proof.Machine.execTakeover off s
  | .peerLost => Sys2Proof.Machine.execPeerLost s
  | .entry h rs => Sys2Proof.Machine.execEntry h rs s
  | .req h b => Sys2Proof.Machine.execReq h b s
  | .launch h b => Sys2Proof.Machine.execLaunch h b s
  | .done h rs => Sys2Proof.Machine.execDone h rs s
  | .handoff h asn => Sys2Proof.Machine.execHandoff h asn s
  | .acct h rs => Sys2Proof.Machine.execAcct h rs s
  | .ackf h => Sys2Proof.Machine.execAckf h s
  | .resend => Sys2Proof.Machine.execResend s
  | .dirtyEntrySweep => Sys2Proof.Machine.execDirtyEntrySweep s
  | .counterLift => Sys2Proof.Machine.execCounterLift s
  | .rejoin r => Sys2Proof.Machine.execRejoin r s
  | .promote r => Sys2Proof.Machine.execPromote r s
  | .handover r => Sys2Proof.Machine.execHandover r s
  | .plannedHandoverComplete => Sys2Proof.Machine.execPlannedHandoverComplete s
  | .write t => Sys2Proof.Machine.execWrite t s
  | .writeFix t => Sys2Proof.Machine.execWriteFix t s
  | .read t => Sys2Proof.Machine.execRead t s
  | .readFix t => Sys2Proof.Machine.execReadFix t s
  | .selectAssert cs both => Sys2Proof.Machine.execSelectAssert cs both s
  | .selectRelease cs clocks => Sys2Proof.Machine.execSelectRelease cs clocks s
  | .selectTimeout clocks => Sys2Proof.Machine.execSelectTimeout clocks s
  | .assign adrIn b => Sys2Proof.Machine.execAssign adrIn b s
  | .identify adrIn => Sys2Proof.Machine.execIdentify adrIn s
  | .pointer bytes => Sys2Proof.Machine.execPointer bytes s
  | .mgbWrite cmd bytes => Sys2Proof.Machine.execMgbWrite cmd bytes s
  | .attnAck seq => Sys2Proof.Machine.execAttnAck seq s
  | .mgbRead late => Sys2Proof.Machine.execMgbRead late s
  | .managementAddressMatch a adrIn => Sys2Proof.Machine.execManagementAddressMatch a adrIn s
  | .matcherRelease => Sys2Proof.Machine.execMatcherRelease s
  | .sclHang => Sys2Proof.Machine.execSclHang s
  | .mgbAttnreq r cause => Sys2Proof.Machine.execMgbAttnreq r cause s
  | .attentionAttempt o => Sys2Proof.Machine.execAttentionAttempt o s
  | .busClear => Sys2Proof.Machine.execBusClear s
  | .rxFrame m f dt => Sys2Proof.Machine.execRxFrame m f dt s
  | .ethTxpoll r m => Sys2Proof.Machine.execEthTxpoll r m s
  | .txFrameEnd m dt => Sys2Proof.Machine.execTxFrameEnd m dt s
  | .ethEnable r m rx tx => Sys2Proof.Machine.execEthEnable r m rx tx s
  | .mdioGo r m v => Sys2Proof.Machine.execMdioGo r m v s
  | .mdioFrameEnd m data => Sys2Proof.Machine.execMdioFrameEnd m data s
  | .ethPtpSetsHi r v => Sys2Proof.Machine.execEthPtpSetsHi r v s
  | .ethPtpAdj r v => Sys2Proof.Machine.execEthPtpAdj r v s
  | .frameInstant xs off => Sys2Proof.Machine.execFrameInstant xs off s
  | .frameWrite => Sys2Proof.Machine.execFrameWrite s
  | .fdrEnable r => Sys2Proof.Machine.execFdrEnable r s
  | .fdrAlignChange r align => Sys2Proof.Machine.execFdrAlignChange r align s
  | .ctrOut r v => Sys2Proof.Machine.execCtrOut r v s
  | .ctrSet r v => Sys2Proof.Machine.execCtrSet r v s
  | .ctrClr r v => Sys2Proof.Machine.execCtrClr r v s
  | .dwellEnd k => Sys2Proof.Machine.execDwellEnd k s
  | .feedbackChange k fb => Sys2Proof.Machine.execFeedbackChange k fb s
  | .matchWindowEnd k => Sys2Proof.Machine.execMatchWindowEnd k s
  | .ctrFclr r v => Sys2Proof.Machine.execCtrFclr r v s
  | .gpioSet r v => Sys2Proof.Machine.execGpioSet r v s
  | .gpioClr r v => Sys2Proof.Machine.execGpioClr r v s
  | .gpioTgl r v => Sys2Proof.Machine.execGpioTgl r v s
  | .gpioEdge p level => Sys2Proof.Machine.execGpioEdge p level s
  | .sourceEvent n => Sys2Proof.Machine.execSourceEvent n s
  | .irqClaim r => Sys2Proof.Machine.execIrqClaim r s
  | .irqComplete r n => Sys2Proof.Machine.execIrqComplete r n s
  | .irqSrcWrite r n v => Sys2Proof.Machine.execIrqSrcWrite r n v s
  | .holdOffExpiry g => Sys2Proof.Machine.execHoldOffExpiry g s
  | .aonSliceEvent k => Sys2Proof.Machine.execAonSliceEvent k s
  | .tmrStart r k => Sys2Proof.Machine.execTmrStart r k s
  | .tmrStop r k => Sys2Proof.Machine.execTmrStop r k s
  | .cap r k => Sys2Proof.Machine.execCap r k s
  | .clrq r k => Sys2Proof.Machine.execClrq r k s
  | .timerTick k => Sys2Proof.Machine.execTimerTick k s
  | .tmrCmpHiWrite r k v => Sys2Proof.Machine.execTmrCmpHiWrite r k v s
  | .tmrCapLoRead r k => Sys2Proof.Machine.execTmrCapLoRead r k s
  | .tmrCfgWrite r k v => Sys2Proof.Machine.execTmrCfgWrite r k v s
  | .captureEvent k level same => Sys2Proof.Machine.execCaptureEvent k level same s
  | .secondTick cycles => Sys2Proof.Machine.execSecondTick cycles s
  | .dstadd r => Sys2Proof.Machine.execDstadd r s
  | .dstsub r => Sys2Proof.Machine.execDstsub r s
  | .rtcTimeWrite r date v => Sys2Proof.Machine.execRtcTimeWrite r date v s
  | .oscillatorFail => Sys2Proof.Machine.execOscillatorFail s
  | .aonPowerUp vmain vbat => Sys2Proof.Machine.execAonPowerUp vmain vbat s
  | .switchToVbat vmain vbat held => Sys2Proof.Machine.execSwitchToVbat vmain vbat held s
  | .switchToVmain vmain vbat incarn => Sys2Proof.Machine.execSwitchToVmain vmain vbat incarn s
  | .rstin => Sys2Proof.Machine.execRstin s
  | .pwrRst r key => Sys2Proof.Machine.execPwrRst r key s
  | .blockReset r bits => Sys2Proof.Machine.execBlockReset r bits s
  | .brownout => Sys2Proof.Machine.execBrownout s
  | .refclkLock => Sys2Proof.Machine.execRefclkLock s
  | .noRefclk => Sys2Proof.Machine.execNoRefclk s
  | .calibrationSetLoad => Sys2Proof.Machine.execCalibrationSetLoad s
  | .bandCalibrationComplete head => Sys2Proof.Machine.execBandCalibrationComplete head s
  | .blockReady b cycles => Sys2Proof.Machine.execBlockReady b cycles s
  | .runRequest r op pol => Sys2Proof.Machine.execRunRequest r op pol s
  | .dozeRequest r pol => Sys2Proof.Machine.execDozeRequest r pol s
  | .standbyRequest r pol => Sys2Proof.Machine.execStandbyRequest r pol s
  | .trickleRequest r pol => Sys2Proof.Machine.execTrickleRequest r pol s
  | .offRequest r pol => Sys2Proof.Machine.execOffRequest r pol s
  | .standbyEntry => Sys2Proof.Machine.execStandbyEntry s
  | .entryAbandoned => Sys2Proof.Machine.execEntryAbandoned s
  | .transitionComplete => Sys2Proof.Machine.execTransitionComplete s
  | .dozeEnd => Sys2Proof.Machine.execDozeEnd s
  | .wake w incarn => Sys2Proof.Machine.execWake w incarn s
  | .standbyRelock cycles => Sys2Proof.Machine.execStandbyRelock cycles s
  | .padRelease r => Sys2Proof.Machine.execPadRelease r s
  | .pwrOpWrite r n v => Sys2Proof.Machine.execPwrOpWrite r n v s
  | .thermalWarning temp => Sys2Proof.Machine.execThermalWarning temp s
  | .thermalShutdown => Sys2Proof.Machine.execThermalShutdown s
  | .thermalRestart incarn => Sys2Proof.Machine.execThermalRestart incarn s
  | .prog r => Sys2Proof.Machine.execProg r s
  | .erase r => Sys2Proof.Machine.execErase r s
  | .setprot r => Sys2Proof.Machine.execSetprot r s
  | .clrprot r => Sys2Proof.Machine.execClrprot r s
  | .pwdset r => Sys2Proof.Machine.execPwdset r s
  | .lock r => Sys2Proof.Machine.execLock r s
  | .logclr r => Sys2Proof.Machine.execLogclr r s
  | .flashOperationEnd pulses => Sys2Proof.Machine.execFlashOperationEnd pulses s
  | .flcPwdin r w => Sys2Proof.Machine.execFlcPwdin r w s
  | .flcLogadd r v => Sys2Proof.Machine.execFlcLogadd r v s
  | .logbookAppend => Sys2Proof.Machine.execLogbookAppend s
  | .flashRead r a bad => Sys2Proof.Machine.execFlashRead r a bad s
  | .planDue => Sys2Proof.Machine.execPlanDue s
  | .plan r => Sys2Proof.Machine.execPlan r s
  | .approve r => Sys2Proof.Machine.execApprove r s
  | .reject r => Sys2Proof.Machine.execReject r s
  | .soundingMeasurement temp raws => Sys2Proof.Machine.execSoundingMeasurement temp raws s
  | .firstPreambleSymbol => Sys2Proof.Machine.execFirstPreambleSymbol s
  | .badFrame seqd => Sys2Proof.Machine.execBadFrame seqd s
  | .sampleArrival e ii qq => Sys2Proof.Machine.execSampleArrival e ii qq s
  | .rstinRelease incarn => Sys2Proof.Machine.execRstinRelease incarn s
  | .alwaysOnPowerLoss => Sys2Proof.Machine.execAlwaysOnPowerLoss s
  | .requestWithdrawn n => Sys2Proof.Machine.execRequestWithdrawn n s

end Sys2Proof.Machine
end

