-- ==== Sys2Proof/WellFormed.lean ====
section
/-! DEFINITION. Which commands the outside can send: the bounds of operands that their types do not hold. The part acts on any command;
one that is not well formed stands for nothing that can arrive. -/

namespace Sys2Proof

/-- The register at `a` has a bit in the mask `f` picks. -/
def hasMask (f : Machine.RegRow → Nat) (a : Word) : Bool :=
  match Machine.rowAt a.toNat with
  | some x => f x != 0
  | none => false

/-- The alignment of a width (07 R241). -/
def widthAlign : Width → Nat
  | .byte => 1
  | .half => 2
  | .three => 4
  | .word => 4

/-- A command that the outside can send. -/
def Instr.wf (i : Instr) : Bool :=
  match i with
  | .registerWrite _ a _ => a.toNat % 4 == 0
  | .rcRead _ a => hasMask (fun x => x.rc) a
  | .snapshotRead _ a => (Machine.rowAt a.toNat).isSome
  | .blockLock _ _ => true
  | .wldLock _ => true
  | .stagedWrite _ a _ => hasMask (fun x => x.st) a
  | .arm _ => true
  | .gap _ => true
  | .abandon _ => true
  | .stoppedCommit _ _ => true
  | .aonWriteComplete _ => true
  | .syncMatch _ _ _ => true
  | .secondCorrelatorMatch _ bits => bits != []
  | .headerWindowComplete _ _ _ => true
  | .lastOnAirBit _ _ => true
  | .codewordReceived _ llrs _ => llrs != []
  | .decodingJobStart => true
  | .decodingJobEnd _ => true
  | .release _ _ => true
  | .restart _ _ => true
  | .decisionWindowEnd _ _ => true
  | .gainSettled _ => true
  | .adcClip _ => true
  | .noiseMeasurementComplete _ _ => true
  | .frequencyCorrection _ _ => true
  | .recalA _ => true
  | .recalB _ => true
  | .synthCalibrationComplete _ => true
  | .dcLoopLimit _ _ _ => true
  | .wakeCodeMatch _ => true
  | .slotBoundary _ => true
  | .sfmRunStart _ => true
  | .sfmRunStop _ => true
  | .firstSlotStart _ _ => true
  | .sfmAdj _ _ => true
  | .sfmSubmit _ _ _ _ => true
  | .sfmCancel _ _ => true
  | .sfmResult _ => true
  | .sfmHeard _ _ _ => true
  | .sfmMiss _ _ => true
  | .cstUgo _ => true
  | .cstRq _ _ => true
  | .clear _ => true
  | .cisternClearComplete => true
  | .cisternDirectWrite _ a _ => a.toNat % 4 == 0 && decide (0x10000000 ≤ a.toNat ∧ a.toNat < 0x10400000)
  | .keyStoreWrite _ a _ w => decide (0x107FC000 ≤ a.toNat ∧ a.toNat < 0x10800000) && a.toNat % widthAlign w == 0
  | .deepEnc _ _ => true
  | .deepDec _ _ => true
  | .sunEnc _ _ => true
  | .sunDec _ _ => true
  | .cmacGen _ _ => true
  | .cmacVer _ _ => true
  | .prime _ _ => true
  | .jobStart => true
  | .jobComplete _ => true
  | .flush _ => true
  | .hopStart _ => true
  | .femSwitch => true
  | .payloadReadComplete => true
  | .rampUp _ => true
  | .lastSymbol _ => true
  | .rampDownEnd _ => true
  | .femReturn => true
  | .synCalibrate _ _ => true
  | .synInvalidate _ _ => true
  | .synInvalidateAll _ => true
  | .queuedCommandStart => true
  | .queuedCalibrationEnd _ => true
  | .move _ => true
  | .resultDelivery _ _ => true
  | .sharedAccessComplete _ _ => true
  | .add _ _ _ => true
  | .sub _ _ _ => true
  | .and _ _ _ => true
  | .or _ _ _ => true
  | .xor _ _ _ => true
  | .andn _ _ _ => true
  | .min _ _ _ => true
  | .max _ _ _ => true
  | .minu _ _ _ => true
  | .maxu _ _ _ => true
  | .adds _ _ _ => true
  | .subs _ _ _ => true
  | .sext8 _ _ _ => true
  | .sext16 _ _ _ => true
  | .abs _ _ _ => true
  | .pass _ _ _ => true
  | .shl _ _ => true
  | .shr _ _ => true
  | .sar _ _ => true
  | .rol _ _ => true
  | .fshl _ _ => true
  | .fshr _ _ => true
  | .clz _ _ => true
  | .muls _ _ => true
  | .mulu _ _ => true
  | .mulsu _ _ => true
  | .macs _ _ => true
  | .macu _ _ => true
  | .cmpEq _ _ _ => true
  | .cmpNe _ _ _ => true
  | .cmpLt _ _ _ => true
  | .cmpGe _ _ _ => true
  | .cmpLtu _ _ _ => true
  | .cmpGeu _ _ _ => true
  | .cmpAny _ _ _ => true
  | .cmpNone _ _ _ => true
  | .jump _ _ => true
  | .jrel _ _ => true
  | .call _ _ => true
  | .crel _ _ => true
  | .ret _ => true
  | .tret _ => true
  | .ldl _ _ => true
  | .stl _ _ => true
  | .ldb _ _ => true
  | .ldbs _ _ => true
  | .ldh _ _ => true
  | .ldhs _ _ => true
  | .ldt _ _ => true
  | .ldw _ _ => true
  | .stb _ _ => true
  | .sth _ _ => true
  | .stt _ _ => true
  | .stw _ _ => true
  | .blkld _ _ => true
  | .blkst _ _ => true
  | .lioSel _ _ => true
  | .lioA _ _ => true
  | .lioB _ _ => true
  | .cjW _ _ => true
  | .cjRst _ => true
  | .evFire _ _ => true
  | .evPop _ _ => true
  | .lkAcq _ _ => true
  | .lkRel _ _ => true
  | .tmWdk _ => true
  | .tmCyc _ _ => true
  | .tmOff _ _ => true
  | .tbClr _ => true
  | .load _ _ => true
  | .start _ _ => true
  | .halt _ _ => true
  | .force _ _ => true
  | .haltComplete _ => true
  | .stallLimit _ => true
  | .engPcWrite _ _ _ => true
  | .instructionStoreWrite _ a _ => a.toNat % 4 == 0 && decide (0x10600000 ≤ a.toNat ∧ a.toNat < 0x10780000 ∧ (a.toNat - 0x10600000) % 0x6000 < 0x3000)
  | .grant _ => true
  | .grantRevoke _ => true
  | .watchdogExpiry _ => true
  | .engWdtWrite _ _ _ => true
  | .evcFire _ _ => true
  | .eventArrival => true
  | .evcHpendClear _ _ _ => true
  | .channelLock _ _ _ => true
  | .lckAcq _ _ => true
  | .lckRel _ _ => true
  | .lckClr _ _ => true
  | .pairingEnable _ _ => true
  | .pairingDisable _ => true
  | .helloSend => true
  | .hello _ _ => true
  | .linkDown => true
  | .beatSend => true
  | .beat _ _ => true
  | .heartbeatMissed => true
  | .primaryLost => true
  | .takeover _ => true
  | .peerLost => true
  | .entry _ rs => decide (1 ≤ rs.length ∧ rs.length ≤ 24)
  | .req _ b => decide (b.payload.length ≤ 488)
  | .launch _ _ => true
  | .done _ rs => decide (1 ≤ rs.length ∧ rs.length ≤ 128)
  | .handoff _ _ => true
  | .acct _ rs => decide (1 ≤ rs.length ∧ rs.length ≤ 64)
  | .ackf _ => true
  | .resend => true
  | .dirtyEntrySweep => true
  | .counterLift => true
  | .rejoin _ => true
  | .promote _ => true
  | .handover _ => true
  | .plannedHandoverComplete => true
  | .write t => decide (t.data.length ≤ 256 ∧ t.accepted ≤ t.data.length)
  | .writeFix t => decide (t.data.length ≤ 256 ∧ t.accepted ≤ t.data.length)
  | .read t => decide (t.late.length ≤ 256)
  | .readFix t => decide (t.late.length ≤ 256)
  | .selectAssert _ _ => true
  | .selectRelease _ _ => true
  | .selectTimeout _ => true
  | .assign _ _ => true
  | .identify _ => true
  | .pointer _ => true
  | .mgbWrite _ _ => true
  | .attnAck _ => true
  | .mgbRead _ => true
  | .managementAddressMatch _ _ => true
  | .matcherRelease => true
  | .sclHang => true
  | .mgbAttnreq _ _ => true
  | .attentionAttempt _ => true
  | .busClear => true
  | .rxFrame _ _ _ => true
  | .ethTxpoll _ _ => true
  | .txFrameEnd _ _ => true
  | .ethEnable _ _ _ _ => true
  | .mdioGo _ _ _ => true
  | .mdioFrameEnd _ _ => true
  | .ethPtpSetsHi _ _ => true
  | .ethPtpAdj _ _ => true
  | .frameInstant xs _ => xs.length == 8
  | .frameWrite => true
  | .fdrEnable _ => true
  | .fdrAlignChange _ _ => true
  | .ctrOut _ _ => true
  | .ctrSet _ _ => true
  | .ctrClr _ _ => true
  | .dwellEnd _ => true
  | .feedbackChange _ _ => true
  | .matchWindowEnd _ => true
  | .ctrFclr _ _ => true
  | .gpioSet _ _ => true
  | .gpioClr _ _ => true
  | .gpioTgl _ _ => true
  | .gpioEdge _ _ => true
  | .sourceEvent _ => true
  | .irqClaim _ => true
  | .irqComplete _ _ => true
  | .irqSrcWrite _ _ _ => true
  | .holdOffExpiry _ => true
  | .aonSliceEvent _ => true
  | .tmrStart _ _ => true
  | .tmrStop _ _ => true
  | .cap _ _ => true
  | .clrq _ _ => true
  | .timerTick _ => true
  | .tmrCmpHiWrite _ _ _ => true
  | .tmrCapLoRead _ _ => true
  | .tmrCfgWrite _ _ _ => true
  | .captureEvent _ _ _ => true
  | .secondTick _ => true
  | .dstadd _ => true
  | .dstsub _ => true
  | .rtcTimeWrite _ _ _ => true
  | .oscillatorFail => true
  | .aonPowerUp _ _ => true
  | .switchToVbat _ _ _ => true
  | .switchToVmain _ _ _ => true
  | .rstin => true
  | .pwrRst _ _ => true
  | .blockReset _ _ => true
  | .brownout => true
  | .refclkLock => true
  | .noRefclk => true
  | .calibrationSetLoad => true
  | .bandCalibrationComplete _ => true
  | .blockReady _ _ => true
  | .runRequest _ _ _ => true
  | .dozeRequest _ _ => true
  | .standbyRequest _ _ => true
  | .trickleRequest _ _ => true
  | .offRequest _ _ => true
  | .standbyEntry => true
  | .entryAbandoned => true
  | .transitionComplete => true
  | .dozeEnd => true
  | .wake _ _ => true
  | .standbyRelock _ => true
  | .padRelease _ => true
  | .pwrOpWrite _ _ _ => true
  | .thermalWarning _ => true
  | .thermalShutdown => true
  | .thermalRestart _ => true
  | .prog _ => true
  | .erase _ => true
  | .setprot _ => true
  | .clrprot _ => true
  | .pwdset _ => true
  | .lock _ => true
  | .logclr _ => true
  | .flashOperationEnd _ => true
  | .flcPwdin _ _ => true
  | .flcLogadd _ _ => true
  | .logbookAppend => true
  | .flashRead _ _ _ => true
  | .planDue => true
  | .plan _ => true
  | .approve _ => true
  | .reject _ => true
  | .soundingMeasurement _ raws => raws.length == 24
  | .firstPreambleSymbol => true
  | .badFrame _ => true
  | .sampleArrival _ _ _ => true
  | .rstinRelease _ => true
  | .alwaysOnPowerLoss => true
  | .requestWithdrawn _ => true

end Sys2Proof
end

