-- ==== Sys2Proof/Safety.lean ====
section
/-! DEFINITION. What a good state and a safe step are, in the terms the statements use. -/

namespace Sys2Proof.Machine

/-- Every sparse map of the state is in its canonical form, so that equal contents are equal states. -/
def State.canonical (s : State) : Bool :=
  Memory.wf s.mem && AMap.wf resetVal s.regs && AMap.wf resetVal s.act && AMap.wf resetVal s.cal &&
    AMap.wf (fun _ => 0) s.part

/-- A step is safe when it goes on: it ends in neither a fault nor a refusal. -/
def safeOut (o : Out) : Bool :=
  match o with
  | .next _ => true
  | .fault _ => false
  | .refused _ => false

/-- A state whose waiting commands can all arrive from outside. -/
def State.wellFed (s : State) : Bool := s.pending.all (fun c => c.wf)

/-! ## The receive path -/

/-- The state in which a lane listens, if it may: BLANK while its chain is dark, else SEARCH; OFF for a lane that may not (02 R67). -/
def State.listens (s : State) (n : LaneIx) : LaneState :=
  if s.laneEligible n then (if s.chainDark (laneChain n) then .blank else .search) else .off

/-- Where the table of 02 R67 takes a lane that is in state `st` while the settings, chain enables and blanking of `s` apply. -/
def State.laneGoes (s : State) (n : LaneIx) (st : LaneState) : LaneState :=
  let c := laneChain n
  match st with
  | .off => if s.chainReady c then s.listens n else .off
  | .search => s.listens n
  | .blank => if !s.flagA (F.LAN_CFG_EN n.val) || !s.chainEnabled c then .off else if s.chainDark c then .blank else s.listens n
  | .header => if !s.chainEnabled c then .off else if s.chainDark c then .blank else .header
  | .payload => if !s.chainEnabled c then .off else if s.chainDark c then .blank else .payload
  | .drain => .drain
  | .ready => .ready

/-! ## Accesses and instructions that complete -/

/-- An access of requester `r` to the register at `a` goes through: it reaches the fabric, it is no world violation (01 R22) and the
block is ready (01 R29). -/
def State.admits (s : State) (r a : Nat) (wr : Bool) : Bool :=
  s.canReach r && !s.windowBarred r a wr && s.ready (keyBlock a)

/-- `s` with the answer of an access that was performed: `v`, without error (log entry 10). -/
def State.answered (s : State) (v : Word) : State := { s with data := v, err := false }

/-- Engine `e` issues its next instruction: it can, and no watchdog exception takes the instruction's place (07 R256). -/
def State.issues (s : State) (e : EngIx) : Bool := s.canIssue e && !((s.engAt e).wdPending && !(s.engAt e).tbValid)

/-- The engine once the instruction at the head of its sequence has retired. -/
def Eng.retired (g : Eng) : Eng := { g with seq := advanceSeq g.seq, pos := g.pos + 1 }

/-- Engine `e` as its next instruction issues, before that instruction's moves. -/
def State.issuing (s : State) (e : EngIx) : Eng := (s.startIssue e).engAt e

/-- `s` once engine `e` has issued and retired an instruction that does `f` to the engine and nothing else. -/
def State.afterIssue (s : State) (e : EngIx) (f : Eng → Eng) : State :=
  (s.startIssue e).setEng e (f (s.issuing e)).retired

/-- `s` once engine `e` stalls on the one access `x` of the instruction `#t -> port` (07 R242). -/
def State.stalledOn (s : State) (e : EngIx) (port : Nat) (t : Word24) (x : Access) : State :=
  ({ s.startIssue e with arb := s.arb + 1 } : State).setEng e { s.issuing e with
    stall := some { word := immWord port t, moves := [⟨false, port, t⟩], accs := [(false, x)], since := s.arb
                    undo := undoOf (s.issuing e) (s.issuing e), cfg := s.reg (Reg.ENG_CFG e.val), worlds := s.worldMap } }

/-- The operand port of an ALU (07 R219). -/
def Eng.aluO (g : Eng) (u : Fin 2) : Word24 := if u = 0 then g.op.alu0O else g.op.alu1O

/-- An ALU as a unit that delivers. -/
def aluUnit (u : Fin 2) : EUnit := if u = 0 then .alu0 else .alu1

end Sys2Proof.Machine
end

