-- ==== Sys2Proof/Certificates/Slice0/Obligations.lean ====
section
/-! DEFINITION. The statements about the model, each a proposition for the provers; a docstring names the rules of the spec that it
formalises. -/

open Sys2Proof Sys2Proof.Machine

/-- A step runs the command at the front of the queue, and idles on an empty one (00_scope.md, INDEX.md). -/
def Obligations.StepRunsFrontCommand : Prop :=
  (∀ (c : Instr) (rest : List Instr) (s : State), step { s with pending := c :: rest } = exec c { s with pending := rest }) ∧
  (∀ s : State, step { s with pending := [] } = .next { s with pending := [] })

/-- No command ends in a fault or a refusal (00_scope.md, 01_system_map.md). -/
def Obligations.NoCommandStopsTheMachine : Prop :=
  ∀ (c : Instr) (s : State), safeOut (exec c s) = true

/-- The state at reset is canonical, empty and not yet ready (13_power_reset.md R402, 01_system_map.md R28). The model's choice:
that this state stands before the first AON_POWER_UP (log entry 3). -/
def Obligations.ResetIsCanonical : Prop :=
  State.reset.canonical = true ∧ State.reset.pending = [] ∧ State.reset.reg Reg.SYS_READY = 0x880001 ∧
    (∀ e : EngIx, (State.reset.engAt e).state = .halted ∧ (State.reset.engAt e).loaded = false) ∧
    (∀ n : LaneIx, (State.reset.laneAt n).state = .off) ∧
    State.reset.ldpQueue = [] ∧ State.reset.cip.queue = [] ∧ State.reset.events = [] ∧ State.reset.sfm.pend = []

/-- Every step keeps memory and the register maps in canonical form (01_system_map.md R13, 00_scope.md R2). -/
def Obligations.StepKeepsCanonicalForm : Prop :=
  ∀ s t : State, s.canonical = true → step s = .next t → t.canonical = true

/-- A step takes the front command off the queue and no effect touches the queue (00_scope.md, INDEX.md). -/
def Obligations.StepConsumesOneCommand : Prop :=
  ∀ s t : State, step s = .next t → t.pending = s.pending.tail

/-- The sixteen ALU operations and their results (R229). -/
def Obligations.AluOperations : Prop :=
  ∀ (s : State) (e : EngIx) (u : Fin 2) (t : Word24), s.issues e = true →
    let o := (s.issuing e).aluO u
    let done (v : Word24) : Out := .next (s.afterIssue e (fun g => g.launch (aluUnit u) 1 v 0))
    exec (.add e u t) s = done (o + t) ∧
    exec (.sub e u t) s = done (o - t) ∧
    exec (.and e u t) s = done (o &&& t) ∧
    exec (.or e u t) s = done (o ||| t) ∧
    exec (.xor e u t) s = done (o ^^^ t) ∧
    exec (.andn e u t) s = done (o &&& ~~~t) ∧
    exec (.min e u t) s = done (if o.toInt ≤ t.toInt then o else t) ∧
    exec (.max e u t) s = done (if o.toInt ≤ t.toInt then t else o) ∧
    exec (.minu e u t) s = done (if o.toNat ≤ t.toNat then o else t) ∧
    exec (.maxu e u t) s = done (if o.toNat ≤ t.toNat then t else o) ∧
    exec (.adds e u t) s = done (BitVec.ofInt 24 (max (-0x800000) (min 0x7FFFFF (o.toInt + t.toInt)))) ∧
    exec (.subs e u t) s = done (BitVec.ofInt 24 (max (-0x800000) (min 0x7FFFFF (o.toInt - t.toInt)))) ∧
    exec (.sext8 e u t) s = done ((t.setWidth 8).signExtend 24) ∧
    exec (.sext16 e u t) s = done ((t.setWidth 16).signExtend 24) ∧
    exec (.abs e u t) s = done (BitVec.ofInt 24 (min 0x7FFFFF |t.toInt|)) ∧
    exec (.pass e u t) s = done t

/-- The seven shifter operations and their results (R230). -/
def Obligations.ShifterOperations : Prop :=
  ∀ (s : State) (e : EngIx) (t : Word24), s.issues e = true →
    let o := (s.issuing e).op.shuO
    let x : BitVec 48 := (s.issuing e).op.shuF ++ o
    let n := t.toNat % 32
    let done (v : Word24) : Out := .next (s.afterIssue e (fun g => g.launch .shu 2 v 0))
    exec (.shl e t) s = done (if 24 ≤ n then 0 else o <<< n) ∧
    exec (.shr e t) s = done (if 24 ≤ n then 0 else o >>> n) ∧
    exec (.sar e t) s = done (if 24 ≤ n then (if o.getLsbD 23 then 0xFFFFFF else 0) else o.sshiftRight n) ∧
    exec (.rol e t) s = done (o.rotateLeft (n % 24)) ∧
    exec (.fshl e t) s = done ((x <<< n).extractLsb' 24 24) ∧
    exec (.fshr e t) s = done ((x >>> n).extractLsb' 0 24) ∧
    ∃ z : Nat, exec (.clz e t) s = done (BitVec.ofNat 24 z) ∧ z ≤ 24 ∧
      (∀ j < z, t.getLsbD (23 - j) = false) ∧ (z < 24 → t.getLsbD (23 - z) = true)

/-- The five multiplier operations and the accumulator (R231). -/
def Obligations.MultiplierOperations : Prop :=
  ∀ (s : State) (e : EngIx) (t : Word24), s.issues e = true →
    let o := (s.issuing e).op.mulO
    let acc := (s.issuing e).acc
    let done (v : BitVec 48) : Out :=
      .next (s.afterIssue e (fun g => { g.launch .mul 3 (v.extractLsb' 0 24) (v.extractLsb' 24 24) with acc := v }))
    exec (.muls e t) s = done (BitVec.ofInt 48 (o.toInt * t.toInt)) ∧
    exec (.mulu e t) s = done (BitVec.ofNat 48 (o.toNat * t.toNat)) ∧
    exec (.mulsu e t) s = done (BitVec.ofInt 48 (o.toInt * t.toNat)) ∧
    exec (.macs e t) s = done (acc + BitVec.ofInt 48 (o.toInt * t.toInt)) ∧
    exec (.macu e t) s = done (acc + BitVec.ofNat 48 (o.toNat * t.toNat))

/-- The eight conditions write one guard (R233). -/
def Obligations.ComparatorOperations : Prop :=
  ∀ (s : State) (e : EngIx) (k : Fin 3) (t : Word24), s.issues e = true →
    let o := (s.issuing e).op.cmpO
    let done (b : Bool) : Out := .next (s.afterIssue e (fun g => { g with
      grd := (g.grd &&& ~~~(1#3 <<< k.val)) ||| (if b then 1#3 <<< k.val else 0) }))
    exec (.cmpEq e k t) s = done (decide (o = t)) ∧
    exec (.cmpNe e k t) s = done (decide (o ≠ t)) ∧
    exec (.cmpLt e k t) s = done (decide (o.toInt < t.toInt)) ∧
    exec (.cmpGe e k t) s = done (decide (t.toInt ≤ o.toInt)) ∧
    exec (.cmpLtu e k t) s = done (decide (o.toNat < t.toNat)) ∧
    exec (.cmpGeu e k t) s = done (decide (t.toNat ≤ o.toNat)) ∧
    exec (.cmpAny e k t) s = done (decide (o &&& t ≠ 0)) ∧
    exec (.cmpNone e k t) s = done (decide (o &&& t = 0))

/-- The branches, the return stack and TRET (R235, R237, R238, R260). -/
def Obligations.BranchesTakeEffectAfterTwoSlots : Prop :=
  ∀ (s : State) (e : EngIx) (t : Word24), s.issues e = true →
    let g := s.issuing e
    let pc := seqIdx g.seq 0
    let traps := s.flag (F.ENG_CFG_RSTK_TRAP e.val)
    let go (h : Eng) (l : List Fetch) : Eng := { h with seq := h.seq.take 3 ++ l }
    let push (h : Eng) : Eng := { h with
      rstack := h.rstack.set (h.rtop + 1).val (BitVec.ofNat 11 ((pc + 3) % 2048)), rtop := h.rtop + 1, rdepth := min 8 (h.rdepth + 1) }
    let pop (h : Eng) : Eng := { h with rtop := h.rtop - 1, rdepth := h.rdepth - 1 }
    (t.toNat < 2048 → exec (.jump e t) s = .next (s.afterIssue e (fun h => go h [⟨t.toNat, false⟩]))) ∧
    exec (.jrel e t) s = .next (s.afterIssue e (fun h => go h [⟨(pc + t.toNat) % 2048, false⟩])) ∧
    (traps = false ∨ g.rdepth ≠ 8 →
      (t.toNat < 2048 → exec (.call e t) s = .next (s.afterIssue e (fun h => push (go h [⟨t.toNat, false⟩])))) ∧
      exec (.crel e t) s = .next (s.afterIssue e (fun h => push (go h [⟨(pc + t.toNat) % 2048, false⟩])))) ∧
    (traps = false ∨ g.rdepth ≠ 0 →
      exec (.ret e) s = .next (s.afterIssue e (fun h => pop (go h [⟨(h.rstack[h.rtop.val]).toNat, false⟩])))) ∧
    (g.tb.cause.getLsbD 23 = true →
      exec (.tret e) s = .next (s.afterIssue e (fun h => go h
        [⟨h.tb.pc.toNat % 2048, true⟩, ⟨bitsOf h.tb.nx.toNat 0 11, false⟩, ⟨bitsOf h.tb.nx.toNat 12 11, false⟩])))

/-- Local loads and stores, LIO.SEL, CJ.RST, TM.WDK and TB.CLR (R239, R240, R245, R249, R252, R260). -/
def Obligations.LocalMemoryAndPorts : Prop :=
  ∀ (s : State) (e : EngIx) (t : Word24), s.issues e = true →
    (t.toNat < 4096 → s.halfLoaded (localAddr e t.toNat) = false →
      exec (.ldl e t) s = .next (s.afterIssue e (fun g =>
        g.launch .lsu 2 (BitVec.ofNat 24 (ofBytesLe (s.bytes (0x10600000 + 0x6000 * e.val + 0x3000 + 3 * t.toNat) 3))) 0))) ∧
    (t.toNat < 4096 → s.halfLoaded (localAddr e t.toNat) = true → ∃ v : Word24,
      exec (.ldl e t) s = .next { s.afterIssue e (fun g => g.launch .lsu 2 v 0) with free := s.free + 1 }) ∧
    (t.toNat < 4096 → ∃ p : List (Nat × Nat), (s.halfLoaded (localAddr e t.toNat) = false → p = s.part) ∧
      exec (.stl e t) s = .next { (s.afterIssue e id).putBytes (0x10600000 + 0x6000 * e.val + 0x3000 + 3 * t.toNat)
        (bytesLe 3 (s.issuing e).op.lv.toNat) with part := p }) ∧
    (bitsOf t.toNat 16 7 ≤ 95 → (t.getLsbD 23 = true → s.reqNS e.val = true → s.blockNS 9 = true) →
      exec (.lioSel e t) s = .next (s.afterIssue e (fun g => { g with
        lio := { sample := t.getLsbD 23, lane := bitsOf t.toNat 16 7, off := bitsOf t.toNat 0 11, fifo := [], lastQ := none, ovf := false } }))) ∧
    exec (.cjRst e) s = .next (s.afterIssue e (fun g => { g with cjCount := 0 })) ∧
    exec (.tmWdk e) s = .next (s.afterIssue e (fun g => { g with wdx := false })) ∧
    exec (.tbClr e) s = .next (s.afterIssue e (fun g => { g with tb := { g.tb with cause := g.tb.cause &&& 0x7FFFFF } }))

/-- A shared access stalls its engine with the access it names (R241, R242, R243, R251). -/
def Obligations.SharedTriggersStallTheEngine : Prop :=
  ∀ (s : State) (e : EngIx) (t : Word24), s.issues e = true →
    let g := s.issuing e
    let a := (g.op.seg.toNat % 256) * 2 ^ 24 + t.toNat
    let base := (g.op.seg.toNat % 256) * 2 ^ 24 + g.op.bsa.toNat
    let w : Word := g.op.svh.setWidth 8 ++ g.op.sv
    let n := if t.toNat % 4096 = 0 then 4096 else t.toNat % 4096
    let stall (port : Nat) (x : Access) : Out := .next (s.stalledOn e port t x)
    exec (.ldb e t) s = stall 0x110 (.load .b a) ∧
    exec (.ldbs e t) s = stall 0x111 (.load .bs a) ∧
    exec (.stb e t) s = stall 0x118 (.store .b a w) ∧
    (a % 2 = 0 →
      exec (.ldh e t) s = stall 0x112 (.load .h a) ∧
      exec (.ldhs e t) s = stall 0x113 (.load .hs a) ∧
      exec (.sth e t) s = stall 0x119 (.store .h a w)) ∧
    (a % 4 = 0 →
      exec (.ldt e t) s = stall 0x114 (.load .t a) ∧
      exec (.ldw e t) s = stall 0x115 (.load .w a) ∧
      exec (.stt e t) s = stall 0x11A (.store .t a w) ∧
      exec (.stw e t) s = stall 0x11B (.store .w a w)) ∧
    (g.op.bsa.toNat % 4 = 0 → g.op.la.toNat < 4096 → base < 0x20000000 →
      exec (.blkld e t) s = stall 0x11C (.block true n 0 g.op.la.toNat base) ∧
      exec (.blkst e t) s = stall 0x11D (.block false n 0 g.op.la.toNat base)) ∧
    exec (.lkAcq e t) s = stall 0x170 (.lockAcq (t.toNat % 64)) ∧
    exec (.lkRel e t) s = stall 0x171 (.lockRel (t.toNat % 64))

/-- A granted shared load of scratch memory delivers its value as the instruction retires (R241, R242, R216). -/
def Obligations.SharedLoadsDeliver : Prop :=
  ∀ (s : State) (e : EngIx) (t : Word24) (n : Nat), s.issues e = true →
    let a := ((s.issuing e).op.seg.toNat % 256) * 2 ^ 24 + t.toNat
    let v (m : Nat) := ofBytesLe (s.bytes a m)
    0x10780000 ≤ a → a < 0x107FC000 → (s.reqNS e.val = false ∨ s.memNS a = true) →
    let ends (c : Instr) (f : ResPorts → ResPorts) : Prop :=
      ∃ u : State, exec c s = .next u ∧
        exec (.sharedAccessComplete e n) (u.setStage e .granted) =
          .next { s.afterIssue e (fun g => { g with cyc := g.cyc + BitVec.ofNat 48 n, res := f g.res }) with arb := s.arb + 2 }
    ends (.ldb e t) (fun p => { p with sd := BitVec.ofNat 24 (v 1) }) ∧
    ends (.ldbs e t) (fun p => { p with sd := (BitVec.ofNat 8 (v 1)).signExtend 24 }) ∧
    (a % 2 = 0 →
      ends (.ldh e t) (fun p => { p with sd := BitVec.ofNat 24 (v 2) }) ∧
      ends (.ldhs e t) (fun p => { p with sd := (BitVec.ofNat 16 (v 2)).signExtend 24 })) ∧
    (a % 4 = 0 →
      ends (.ldt e t) (fun p => { p with sd := BitVec.ofNat 24 (v 3) }) ∧
      ends (.ldw e t) (fun p => { p with sd := BitVec.ofNat 24 (v 4), sdh := BitVec.ofNat 24 (v 4 / 2 ^ 24) }))

/-- A granted shared store of scratch memory writes its bytes as the instruction retires (R241, R242). -/
def Obligations.SharedStoresWrite : Prop :=
  ∀ (s : State) (e : EngIx) (t : Word24) (n : Nat), s.issues e = true →
    let g := s.issuing e
    let a := (g.op.seg.toNat % 256) * 2 ^ 24 + t.toNat
    0x10780000 ≤ a → a < 0x107FC000 → (s.reqNS e.val = false ∨ s.memNS a = true) →
    let ends (c : Instr) (bs : List Byte) : Prop :=
      ∃ u : State, exec c s = .next u ∧
        exec (.sharedAccessComplete e n) (u.setStage e .granted) =
          .next { (s.afterIssue e (fun g => { g with cyc := g.cyc + BitVec.ofNat 48 n })).putBytes a bs with arb := s.arb + 2 }
    ends (.stb e t) (bytesLe 1 g.op.sv.toNat) ∧
    (a % 2 = 0 → ends (.sth e t) (bytesLe 2 g.op.sv.toNat)) ∧
    (a % 4 = 0 →
      ends (.stt e t) (bytesLe 3 g.op.sv.toNat) ∧
      ends (.stw e t) (bytesLe 3 g.op.sv.toNat ++ [g.op.svh.setWidth 8]))

/-- Block words move one by one and a lock access answers in LK.R (R243, R244, R251, R279, R280). -/
def Obligations.BlocksAndLocksComplete : Prop :=
  ∀ (s : State) (e : EngIx) (st : Stall) (b : Bool) (n : Nat), (s.engAt e).stall = some st → st.stage = .granted →
    st.passed = [] → st.worlds = s.worldMap → (∀ m ∈ st.moves, m.dst ≠ 0x160) →
    let s0 := s.setEng e { s.engAt e with cyc := (s.engAt e).cyc + BitVec.ofNat 48 n }
    let free (u : State) : State := u.setEng e { u.engAt e with stall := none }
    let again (u : State) (x : Access) : State :=
      ({ u with arb := s.arb + 1 } : State).setEng e { u.engAt e with
        stall := some { st with accs := [(b, x)], stage := .waiting, since := s.arb, revoked := false, beyond := false } }
    (∀ (m i la base : Nat), 0x10780000 ≤ base + 4 * i → base + 4 * i < 0x107FC000 →
      (s.reqNS e.val = false ∨ s.memNS (base + 4 * i) = true) → (s.engAt e).state = .running →
      let l := 0x10600000 + 0x6000 * e.val + 0x3000 + 3 * ((la + i) % 4096)
      let ld := s0.putBytes l (s.bytes (base + 4 * i) 3)
      let stt := s0.putBytes (base + 4 * i) (s.bytes l 3)
      s.halfLoaded l = false →
      (st.accs = [(b, .block true m i la base)] → i + 1 < m →
        exec (.sharedAccessComplete e n) s = .next (again ld (.block true m (i + 1) la base))) ∧
      (st.accs = [(b, .block true m i la base)] → ¬i + 1 < m →
        exec (.sharedAccessComplete e n) s = .next ((free (ld.setRemaining e 0)).retire e st.moves)) ∧
      (st.accs = [(b, .block false m i la base)] → i + 1 < m →
        exec (.sharedAccessComplete e n) s = .next (again stt (.block false m (i + 1) la base))) ∧
      (st.accs = [(b, .block false m i la base)] → ¬i + 1 < m →
        exec (.sharedAccessComplete e n) s = .next ((free (stt.setRemaining e 0)).retire e st.moves))) ∧
    (∀ k : Fin 64, s.windowBarred e.val Reg.LCK_ACQ true = false → s.ready 7 = true → s.lockBarred e.val k.val = false →
      (st.accs = [(b, .lockAcq k.val)] → s.flag (F.LCK_S_HELD k.val) = false →
        let word := pack [(0, 1), (1, s.get (F.LCK_S_ORPHAN k.val)), (8, k.val)]
        let u := (((s0.dropSnap e.val Reg.LCK_ACQ).raise (F.LCK_S_HELD k.val)).put (F.LCK_S_HOLDER k.val) e.val).setReg
          (Reg.LCK_RES e.val) (BitVec.ofNat 32 word)
        s.canonical = true →
        exec (.sharedAccessComplete e n) s = .next ((free (u.setEng e { u.engAt e with
          res := { (u.engAt e).res with lk := BitVec.ofNat 24 word } })).retire e st.moves)) ∧
      (st.accs = [(b, .lockRel k.val)] → s.flag (F.LCK_S_HELD k.val) = true → s.get (F.LCK_S_HOLDER k.val) = e.val →
        ∃ v : Nat, v < 128 ∧
        exec (.sharedAccessComplete e n) s = .next ((free ((({ s0.dropSnap e.val Reg.LCK_REL with free := s.free + 1 } : State).lower
          (F.LCK_S_HELD k.val)).put (F.LCK_S_HOLDER k.val) v)).retire e st.moves)))

/-- LIO.A, LIO.B, EV.POP, TM.CYC and TM.OFF read into a register (R219, R246, R247, R250, R252). -/
def Obligations.SourceReadsIntoRegisters : Prop :=
  ∀ (s : State) (e : EngIx) (d : Fin 32), s.issues e = true →
    let g := s.issuing e
    let l := g.lio
    let at0 := 0x10400000 + 2048 * l.lane + l.off % 2048
    let done (v : Word24) (f : Eng → Eng) : Out := .next (s.afterIssue e (fun g => { f g with w := g.w.set d.val v }))
    let three := BitVec.ofNat 24 (ofBytesLe [s.byte at0, s.byte (0x10400000 + 2048 * l.lane + (l.off + 1) % 2048),
      s.byte (0x10400000 + 2048 * l.lane + (l.off + 2) % 2048)])
    (l.sample = false → (s.reqNS e.val = false ∨ s.memNS at0 = true) → s.ready 9 = true →
      (3 ≤ l.held → exec (.lioA e d) s =
        done three (fun g => { g with lio := { g.lio with off := (g.lio.off + 3) % 2048, held := g.lio.held - 3 } })) ∧
      (1 ≤ l.held → exec (.lioB e d) s = done (BitVec.ofNat 24 (s.byte at0).toNat)
        (fun g => { g with lio := { g.lio with off := (g.lio.off + 1) % 2048, held := g.lio.held - 1 } })) ∧
      (l.held < 3 → ∃ h : Nat, l.held ≤ h ∧ h ≤ 32 ∧
        (3 ≤ h → exec (.lioA e d) s = .next { s.afterIssue e (fun g => { g with
          lio := { g.lio with off := (g.lio.off + 3) % 2048, held := h - 3 }, w := g.w.set d.val three }) with free := s.free + 1 }) ∧
        (h < 3 → ∃ u : State, exec (.lioA e d) s = .next u ∧ (u.engAt e).stall.isSome = true ∧ (u.engAt e).w = g.w ∧
          u.mem = s.mem ∧ u.regs = s.regs)) ∧
      (l.held = 0 → ∃ h : Nat, h ≤ 32 ∧
        (1 ≤ h → exec (.lioB e d) s = .next { s.afterIssue e (fun g => { g with
          lio := { g.lio with off := (g.lio.off + 1) % 2048, held := h - 1 },
          w := g.w.set d.val (BitVec.ofNat 24 (s.byte at0).toNat) }) with free := s.free + 1 }) ∧
        (h = 0 → ∃ u : State, exec (.lioB e d) s = .next u ∧ (u.engAt e).stall.isSome = true ∧ (u.engAt e).w = g.w ∧
          u.mem = s.mem ∧ u.regs = s.regs))) ∧
    (l.sample = true →
      (∀ (i q : BitVec 16) (rest : List (BitVec 16 × BitVec 16)), l.fifo = (i, q) :: rest →
        exec (.lioA e d) s = done (i.signExtend 24) (fun g => { g with lio := { g.lio with fifo := rest, lastQ := some q } })) ∧
      (l.fifo = [] → exec (.lioA e d) s = done 0x800000 id) ∧
      (∀ q : BitVec 16, l.lastQ = some q → exec (.lioB e d) s = done (q.signExtend 24) id) ∧
      (l.lastQ = none → exec (.lioB e d) s = done 0x800000 id)) ∧
    (∀ c : Fin 256, g.evPend.getLsbD c.val = true → (∀ j < c.val, g.evPend.getLsbD j = false) →
      exec (.evPop e d) s = done (BitVec.ofNat 24 (0x800000 + c.val)) (fun g => { g with evPend := g.evPend &&& ~~~(1#256 <<< c.val) })) ∧
    (g.evPend = 0 → exec (.evPop e d) s = done 0 id) ∧
    exec (.tmCyc e d) s = done (g.cyc.extractLsb' 0 24) (fun g => { g with res := { g.res with cych := g.cyc.extractLsb' 24 24 } }) ∧
    (s.running = false →
      exec (.tmOff e d) s = done 0 (fun g => { g with res := { g.res with asn := s.sfm.asn.setWidth 24 } })) ∧
    (s.running = true → s.sfm.offSeen < s.sfm.slotLen → ∃ v : Nat, s.sfm.offSeen ≤ v ∧ v < s.sfm.slotLen ∧
      exec (.tmOff e d) s = .next { s.afterIssue e (fun g => { g with
        res := { g.res with asn := s.sfm.asn.setWidth 24 }, w := g.w.set d.val (BitVec.ofNat 24 v) }) with
          free := s.free + 1, sfm := { s.sfm with offSeen := v } })

/-- CJ.W writes the next descriptor word and EV.FIRE fires a channel (R248, R250, R272). The model's choice: that CJ.W counts on
where block 14 is not ready, and that a non-secure engine writes its own bank of a secure block 14 (log entry 39). -/
def Obligations.JobAndEventPorts : Prop :=
  ∀ (s : State) (e : EngIx) (t : Word24), s.issues e = true →
    let g := s.issuing e
    let word : Word := g.op.cjHi.setWidth 8 ++ t
    let ch := t.toNat % 256
    (g.cjCount < 5 → s.ready 14 = false → exec (.cjW e t) s = .next (s.afterIssue e (fun g => { g with cjCount := g.cjCount + 1 }))) ∧
    (g.cjCount < 5 → s.ready 14 = true →
      exec (.cjW e t) s = .next (((s.afterIssue e (fun g => { g with cjCount := g.cjCount + 1 })).dropSnap e.val
        (Reg.CIP_JD e.val g.cjCount)).setReg (Reg.CIP_JD e.val g.cjCount) word)) ∧
    (5 ≤ g.cjCount → exec (.cjW e t) s = .next (s.stalledOn e 0x151 t (.job word))) ∧
    (s.ready 7 = true → s.windowBarred e.val Reg.EVC_FIRE true = false →
      (s.reqNS e.val = false ∨ s.flag (F.EVC_CH_NS ch) = true) →
      (s.channelOpen ch = true → s.flag (F.EVC_CH_SWF ch) = true →
        exec (.evFire e t) s = .next { (s.afterIssue e id).dropSnap e.val Reg.EVC_FIRE with events := s.events ++ [.sw ch] }) ∧
      (s.channelOpen ch = false →
        exec (.evFire e t) s = .next ((s.afterIssue e id).dropSnap e.val Reg.EVC_FIRE)))

/-- Two register moves of one instruction read before either writes (R214, R215, R219, R220, R225). -/
def Obligations.MovesReadBeforeAnyWrites : Prop :=
  ∀ (s : State) (e : EngIx) (i j k l : Fin 32), s.issues e = true →
    let a := 0x10600000 + 0x6000 * e.val + 6 * seqIdx (s.engAt e).seq 0
    s.halfLoaded a = false →
    ofBytesLe (s.bytes a 6) = (i.val * 2 ^ 10 + j.val) * 2 ^ 23 + (k.val * 2 ^ 10 + l.val) →
    exec (.move e) s = .next (s.afterIssue e (fun g => { g with w := (g.w.set j.val g.w[i.val]).set l.val g.w[k.val] }))

/-- MOVE issues the instruction that the engine's store holds at the head of its sequence (R214, R224, 01_system_map.md R15). -/
def Obligations.FetchedInstructionIsIssued : Prop :=
  ∀ (s : State) (e : EngIx) (t : Word24), s.canIssue e = true →
    let a := 0x10600000 + 0x6000 * e.val + 6 * seqIdx (s.engAt e).seq 0
    let held := ofBytesLe (s.bytes a 6)
    s.halfLoaded a = false →
    exec (.move e) s = .next (s.issue e (BitVec.ofNat 48 held)) ∧
    (held = 2 ^ 47 + 0x50 * 2 ^ 34 + t.toNat → exec (.move e) s = exec (.add e 0 t) s) ∧
    (held = 2 ^ 47 + 0xE0 * 2 ^ 34 + t.toNat → exec (.move e) s = exec (.jump e t) s) ∧
    (held = 2 ^ 47 + 0x102 * 2 ^ 34 + t.toNat → exec (.move e) s = exec (.stl e t) s)

/-- LOAD, START, HALT, FORCE and the writes of ENG_PC and ENG_WDT (08_engine_fabric.md R261, R263, R264, R265, R267, R271, R252).
The model's choice: that LOAD keeps the entries and the top of the return stack and WHY, and that it clears a pending watchdog
exception (log entry 33). -/
def Obligations.EngineControlCommands : Prop :=
  ∀ (s : State) (r : Req) (e : EngIx),
    let g := s.engAt e
    let c := s.served r.val (Reg.ENG_CTL e.val)
    (s.admits r.val (Reg.ENG_CTL e.val) true = true →
      (g.state = .halted →
        exec (.load r e) s = .next ((((c.setEng e { why := g.why, wdx := g.wdx, refused := g.refused, haltForced := g.haltForced
                                                    rstack := g.rstack, rtop := g.rtop, loaded := true }).orphanLocks
          (fun h => h == e.val)).showSeq e).answered 0)) ∧
      (g.state = .halted → g.loaded = true → ∃ n : BitVec 48,
        exec (.start r e) s = .next (({ c.setEng e { g with state := .running, wdx := false, cyc := n } with
          free := s.free + 1 } : State).answered 0)) ∧
      (g.state = .running → (∀ x ∈ g.stall, x.beyond = false) →
        exec (.halt r e) s = .next ((c.setEng e { g with state := .halting, why := 1 }).answered 0)) ∧
      (g.state ≠ .halted → (∀ x ∈ g.stall, x.beyond = false) →
        exec (.force r e) s = .next ((c.setEng e { g with state := .halting, why := 5, forced := true, wdPending := false }).answered 0))) ∧
    (∀ x : BitVec 11, s.admits r.val (Reg.ENG_PC e.val) true = true → g.state = .halted →
      exec (.engPcWrite r e x) s = .next ((((s.served r.val (Reg.ENG_PC e.val)).setEng e { g with
        seq := [⟨x.toNat, false⟩, ⟨(x.toNat + 1) % 2048, false⟩, ⟨(x.toNat + 2) % 2048, false⟩] }).showSeq e).answered 0)) ∧
    (∀ v : BitVec 16, s.admits r.val (Reg.ENG_WDT e.val) true = true →
      exec (.engWdtWrite r e v) s = .next ((((s.served r.val (Reg.ENG_WDT e.val)).put (F.ENG_WDT_LIMIT e.val) v.toNat).setEng e
        { g with wdx := false }).answered 0))

/-- What LOAD, START and a store write do in the wrong engine state (08_engine_fabric.md R261, R262). -/
def Obligations.EngineControlRefusals : Prop :=
  ∀ (s : State) (r : Req) (e : EngIx),
    let g := s.engAt e
    let c := s.served r.val (Reg.ENG_CTL e.val)
    let refused := (c.setEng e { g with refused := true }).answered 0
    (s.admits r.val (Reg.ENG_CTL e.val) true = true →
      (g.state ≠ .halted → exec (.load r e) s = .next refused) ∧
      (g.state = .halting ∨ (g.state = .halted ∧ g.loaded = false) → exec (.start r e) s = .next refused)) ∧
    (∀ (n : Nat) (v : Word), n < 0xC00 → s.canReach r.val = true → s.ready 6 = true → (s.reqNS r.val = false ∨ s.engNS e.val = true) →
      g.state ≠ .halted →
      let a : Word := BitVec.ofNat 32 (0x10600000 + 0x6000 * e.val + 4 * n)
      ∃ t : State, exec (.instructionStoreWrite r a v) s = .next t ∧ t.err = true ∧ t.mem = s.mem ∧
        t.engAt e = { g with refused := true })

/-- A word written to a HALTED engine's instruction store (08_engine_fabric.md R262, 01_system_map.md R15, R16). -/
def Obligations.InstructionStoreIsWritten : Prop :=
  ∀ (s : State) (r : Req) (e : EngIx) (n : Nat) (v : Word), n < 0xC00 → s.canReach r.val = true → s.ready 6 = true →
    (s.reqNS r.val = false ∨ s.engNS e.val = true) → (s.engAt e).state = .halted →
    let a := 0x10600000 + 0x6000 * e.val + 4 * n
    let b (i : Nat) : Byte := BitVec.ofNat 8 (v.toNat / 256 ^ i)
    let put (u : State) (i : Nat) : State := (u.putByte (a + i) (b i)).markGroup (r.val == 64 || r.val == 65 || r.val == 66) (a + i)
    exec (.instructionStoreWrite r (BitVec.ofNat 32 a) v) s =
      .next ((put (put (put (put ((s.takeTurn r.val (targetOf a)).setEng e { s.engAt e with loaded := false }) 0) 1) 2) 3).answered 0)

/-- RESULT_DELIVERY, HALT_COMPLETE, STALL_LIMIT, WATCHDOG_EXPIRY and SAMPLE_ARRIVAL (08_engine_fabric.md R263, R264, R266, R267,
R271, 07_borry_isa.md R217, R247, 12_interrupts_timers_rtc.md R376). -/
def Obligations.EngineEventsOfTheFabric : Prop :=
  ∀ (s : State) (e : EngIx),
    let g := s.engAt e
    (∀ (u : EUnit) (f : Flight) (before after : List Flight), g.flight = before ++ f :: after → f.unit = u →
      (∀ x ∈ before, x.unit ≠ u) → g.stall = none → (f.due ≤ g.pos ∨ g.state = .halting) →
      exec (.resultDelivery e u) s = .next (s.setEng e { g.deliver f with flight := before ++ after })) ∧
    (g.state = .halting → g.stall = none → g.forced = false → g.why < 3 →
      let t := (s.setEng e { g.drain with state := .halted, forced := false }).showSeq e
      (g.why = 1 → exec (.haltComplete e) s = .next t) ∧
      (g.why ≠ 1 → exec (.haltComplete e) s = .next (t.pulse (128 + e.val)))) ∧
    (g.state = .halting → g.stall = none → g.forced = true → ∃ t : State, exec (.haltComplete e) s = .next t ∧
      (t.engAt e).state = .halted ∧ (t.engAt e).loaded = false ∧ (t.engAt e).forced = false ∧ (t.engAt e).flight = [] ∧
      (∀ k : EngIx, k ≠ e → t.engAt k = (s.abortJobs e.val).engAt k) ∧
      t.cip.queue = s.cip.queue.filter (fun j => j.req != e.val) ∧
      (∀ (c : Fin 8) (run : CoreRun), s.cip.core[c.val] = some run →
        if run.job.req = e.val then t.cip.core[c.val] = none ∨ t.cip.core[c.val] = some { run with result := some (8, 0) }
        else t.cip.core[c.val] = some run) ∧
      t.mem = (s.abortJobs e.val).mem ∧
      (s.canonical = true → ∀ k : Fin 64,
        if s.flag (F.LCK_S_HELD k.val) = true ∧ s.get (F.LCK_S_HOLDER k.val) = e.val then
          t.flag (F.LCK_S_HELD k.val) = false ∧ t.flag (F.LCK_S_ORPHAN k.val) = true
        else t.reg (Reg.LCK_S k.val) = s.reg (Reg.LCK_S k.val))) ∧
    (∀ x, g.stall = some x → g.state ≠ .halting →
      exec (.stallLimit e) s = .next (s.setEng e { g with stall := some { x with beyond := true } })) ∧
    (g.state ≠ .halted → s.get (F.ENG_WDT_LIMIT e.val) ≠ 0 → s.pwrState = 0 →
      (g.wdx = false → exec (.watchdogExpiry e) s = .next (s.setEng e { g with wdx := true, wdPending := true })) ∧
      (g.wdx = true → (∀ x ∈ g.stall, x.beyond = false) →
        exec (.watchdogExpiry e) s = .next (s.setEng e { g with state := .halting, why := 4, forced := true, wdPending := false }))) ∧
    (∀ (n : LaneIx) (i q : BitVec 16), g.lio.lane = n.val → g.lio.sample = true → s.chainEnabled (laneChain n) = true →
      s.chainDark (laneChain n) = false →
      exec (.sampleArrival e i q) s = .next (s.setEng e { g with lio := { g.lio with
        fifo := (g.lio.fifo ++ [(i, q)]).drop (g.lio.fifo.length + 1 - 64)
        ovf := g.lio.ovf || decide (64 ≤ g.lio.fifo.length) } }))

/-- A halt of an engine stalled beyond its limit forces the access off (08_engine_fabric.md R265, R266). The model's choice: that
words of a block held back for the instruction's other access move as the stall ends (log entry 36), and that reads are put back
(log entry 143). -/
def Obligations.ForcedStallsEndTheirAccess : Prop :=
  ∀ (s : State) (e : EngIx) (x : Stall), (s.engAt e).stall = some x →
    let back (p : ResPorts) : Prop :=
      (∀ (b l : Bool) (n i la base : Nat), x.accs.head? = some (b, .block l n i la base) →
        p = { x.undo.res with brem := BitVec.ofNat 24 (n - i) }) ∧
      ((∀ (b l : Bool) (n i la base : Nat), x.accs.head? ≠ some (b, .block l n i la base)) → p = x.undo.res)
    let off (m t : State) : Prop := (t.engAt e).stall = none ∧ (t.engAt e).haltForced = true ∧ back (t.engAt e).res ∧
      (t.engAt e).w = (s.engAt e).w ∧ (t.engAt e).seq = (s.engAt e).seq ∧ t.mem = (m.movedWords e x.passed).mem ∧
      t.regs = (m.movedWords e x.passed).regs ∧ ∀ k : EngIx, k ≠ e → t.engAt k = (m.movedWords e x.passed).engAt k
    ((∀ p ∈ x.passed, p.acc.isBlock = false) → ∀ m : State, m.movedWords e x.passed = m) ∧
    ((s.engAt e).state = .halting →
      ∃ t : State, exec (.stallLimit e) s = .next t ∧
        off (s.setEng e { s.engAt e with stall := some { x with beyond := true } }) t) ∧
    (∀ r : Req, s.admits r.val (Reg.ENG_CTL e.val) true = true → x.beyond = true →
      let c := s.served r.val (Reg.ENG_CTL e.val)
      ((s.engAt e).state ≠ .halted → ∃ t : State, exec (.force r e) s = .next t ∧
        off (c.setEng e { s.engAt e with state := .halting, why := 5, forced := true, wdPending := false }) t ∧
        (t.engAt e).state = .halting ∧ (t.engAt e).forced = true) ∧
      ((s.engAt e).state = .running → ∃ t : State, exec (.halt r e) s = .next t ∧
        off (c.setEng e { s.engAt e with state := .halting, why := 1 }) t ∧
        (t.engAt e).state = .halting ∧ (t.engAt e).why = 1 ∧ (t.engAt e).forced = (s.engAt e).forced))

/-- A grant passes the next waiting engine after the last one granted (08_engine_fabric.md R269, R270). The model's choice: when a
requester 64 to 70 takes its turn, the order among the accesses of one port, and where a revoked access waits (log entry 122). -/
def Obligations.GrantsGoRoundRobin : Prop :=
  (∀ (s : State) (w j : Fin 8),
    let e := wellEngine w j
    ((s.waitsAt e .waiting).isSome = true →
      (∀ d : Nat, d < (j.val + 7 - (s.wellLast[w.val]).val) % 8 →
        ∀ i : Fin 8, i.val = ((s.wellLast[w.val]).val + 1 + d) % 8 → s.waitsAt (wellEngine w i) .waiting = none) →
      (∀ x : Stall, (s.engAt e).stall = some x → x.revoked = false ∨
        ∀ (i : Fin 8) (y : Stall), (s.engAt (wellEngine w i)).stall = some y → y.stage = .waiting → x.since ≤ y.since) →
      exec (.grant (.port w)) s = .next { s.setStage e .atTarget with wellLast := s.wellLast.set w.val j }) ∧
    (∀ x : Stall, (s.engAt e).stall = some x → x.stage ≠ .waiting → x.accs ≠ [] →
      exec (.grantRevoke e) s = .next ((({ s with arb := s.arb + 1 } : State).setEng e { s.engAt e with
        stall := some { x with stage := .waiting, since := s.arb, revoked := true } }).put (F.ENG_REVOKE_COUNT e.val)
        (min (s.get (F.ENG_REVOKE_COUNT e.val) + 1) (2 ^ (F.ENG_REVOKE_COUNT e.val).width - 1)))) ∧
    (∀ x : Stall, (s.engAt e).stall = some x → x.stage = .waiting → exec (.grantRevoke e) s = .next s)) ∧
  (∀ (s : State) (t : Fin 32) (w j : Fin 8),
    let last := (s.targetLast[t.val]).val
    s.waitsAt (wellEngine w j) .atTarget = some t.val →
      (∀ i : Fin 8, i ≠ j → s.waitsAt (wellEngine w i) .atTarget ≠ some t.val) →
      (∀ d : Nat, d < (w.val + 14 - last) % 15 →
        ∀ v i : Fin 8, v.val = (last + 1 + d) % 15 → s.waitsAt (wellEngine v i) .atTarget ≠ some t.val) →
      exec (.grant (.target t)) s =
        .next { s.setStage (wellEngine w j) .granted with targetLast := s.targetLast.set t.val ⟨w.val, by omega⟩ }) ∧
  (∀ (s : State) (t : Fin 32) (p : Fin 7),
    let last := (s.targetLast[t.val]).val
    let before : Prop := ∃ v i : Fin 8, (v.val + 14 - last) % 15 < (8 + p.val + 14 - last) % 15 ∧
      s.waitsAt (wellEngine v i) .atTarget = some t.val
    (¬before → s.takeTurn (64 + p.val) t.val = { s with targetLast := s.targetLast.set t.val ⟨8 + p.val, by omega⟩ }) ∧
    (before → s.takeTurn (64 + p.val) t.val = s)) ∧
  (∀ (s : State) (e : EngIx) (t : Nat), s.takeTurn e.val t = s)

/-- The exceptions of a list fill the trap bank, and with VALID set they halt the engine (07_borry_isa.md R220, R228, R236, R238,
R239, R241, R243, R245, R253, R254, R257, R258). The model's choice: that CALL of a bad target with a full stack records the branch
fault (log entry 37), that LIO.SEL of a LANE above 95 records address 0 (log entry 38), that EV.FIRE fails at issue (log entry 39),
and which of several faults of a block trigger is recorded (log entry 146). -/
def Obligations.ExceptionsFillTheTrapBank : Prop :=
  (∀ (s : State) (e : EngIx) (t : Word24), s.issues e = true → s.canonical = true →
    let g := s.issuing e
    let bank (w : BitVec 48) (cause slot : Nat) (fal fah : Word24) : TrapBank :=
      { cause := BitVec.ofNat 24 (2 ^ 23 + 2 ^ 5 * bit01 (w.getLsbD 47) + 2 ^ 4 * slot + cause)
        pc := BitVec.ofNat 24 (seqIdx g.seq 0), grd := g.grd.setWidth 24
        nx := BitVec.ofNat 24 (seqIdx g.seq 1 + seqIdx g.seq 2 * 2 ^ 12)
        ihi := w.extractLsb' 24 24, ilo := w.extractLsb' 0 24, fal := fal, fah := fah }
    let stays (u : State) : Prop := (u.engAt e).w = g.w ∧ (u.engAt e).rstack = g.rstack ∧ (u.engAt e).rdepth = g.rdepth ∧
      u.mem = s.mem ∧ ∀ k : EngIx, k ≠ e → u.engAt k = s.engAt k
    let again (c : Instr) : Prop := ∃ u : State, exec c s = .next u ∧ (u.engAt e).tb = g.tb ∧ (u.engAt e).state = .halting ∧
      (u.engAt e).why = 3 ∧ (u.engAt e).forced = true ∧ u.regs = s.regs ∧ stays u
    let traps (c : Instr) (w : BitVec 48) (cause slot : Nat) (fal fah : Word24) : Prop :=
      (g.tb.cause.getLsbD 23 = true → again c) ∧
      (g.tb.cause.getLsbD 23 = false → s.bit (Reg.ENG_CFG e.val) 16 = true → ∃ u : State, exec c s = .next u ∧
        (u.engAt e).tb = bank w cause slot fal fah ∧ (u.engAt e).state = .halting ∧ (u.engAt e).why = 2 ∧ u.regs = s.regs ∧ stays u)
    let breach (c : Instr) (w : BitVec 48) (at0 : Nat) : Prop :=
      g.tb.cause.getLsbD 23 = false → s.bit (Reg.ENG_CFG e.val) 16 = true → ∃ u : State, exec c s = .next u ∧
        (u.engAt e).tb = bank w 4 0 (BitVec.ofNat 24 at0) (BitVec.ofNat 24 (at0 / 2 ^ 24)) ∧
        (u.engAt e).state = .halting ∧ (u.engAt e).why = 2 ∧ u.flag F.SYS_WVIOL_INFO_VALID = true ∧ stays u
    let a := (g.op.seg.toNat % 256) * 2 ^ 24 + t.toNat
    let base := (g.op.seg.toNat % 256) * 2 ^ 24 + g.op.bsa.toNat
    let shared (c : Instr) (p : Nat) (x : Nat) : Prop := traps c (immWord p t) 3 0 (BitVec.ofNat 24 x) (BitVec.ofNat 24 (x / 2 ^ 24))
    let stackTraps := s.flag (F.ENG_CFG_RSTK_TRAP e.val)
    (2048 ≤ t.toNat → traps (.jump e t) (immWord 0xE0 t) 3 0 t 0x400000 ∧ traps (.call e t) (immWord 0xE2 t) 3 0 t 0x400000) ∧
    (stackTraps = true → g.rdepth = 8 → (t.toNat < 2048 → traps (.call e t) (immWord 0xE2 t) 1 0 0 0) ∧
      traps (.crel e t) (immWord 0xE3 t) 1 0 0 0) ∧
    (stackTraps = true → g.rdepth = 0 → traps (.ret e) (immWord 0xE4 0) 1 0 0 0) ∧
    (g.tb.cause.getLsbD 23 = false → traps (.tret e) (immWord 0xE5 0) 2 0 0 0) ∧
    (4096 ≤ t.toNat → traps (.ldl e t) (immWord 0x101 t) 3 0 t 0x800000 ∧ traps (.stl e t) (immWord 0x102 t) 3 0 t 0x800000) ∧
    (a % 2 = 1 → shared (.ldh e t) 0x112 a ∧ shared (.ldhs e t) 0x113 a ∧ shared (.sth e t) 0x119 a) ∧
    (a % 4 ≠ 0 → shared (.ldt e t) 0x114 a ∧ shared (.ldw e t) 0x115 a ∧ shared (.stt e t) 0x11A a ∧ shared (.stw e t) 0x11B a) ∧
    (base % 4 ≠ 0 ∨ (g.op.la.toNat < 4096 ∧ 0x20000000 ≤ base) → shared (.blkld e t) 0x11C base ∧ shared (.blkst e t) 0x11D base) ∧
    (base % 4 = 0 → 4096 ≤ g.op.la.toNat → traps (.blkld e t) (immWord 0x11C t) 3 0 g.op.la 0x800000 ∧
      traps (.blkst e t) (immWord 0x11D t) 3 0 g.op.la 0x800000) ∧
    (95 < bitsOf t.toNat 16 7 → traps (.lioSel e t) (immWord 0x140 t) 3 0 0 0) ∧
    (bitsOf t.toNat 16 7 ≤ 95 → t.getLsbD 23 = true → s.reqNS e.val = true → s.blockNS 9 = false →
      g.tb.cause.getLsbD 23 = false → s.bit (Reg.ENG_CFG e.val) 16 = true → ∃ u : State,
        exec (.lioSel e t) s = .next u ∧ (u.engAt e).tb.cause = 0x800024 ∧ (u.engAt e).state = .halting ∧ (u.engAt e).why = 2 ∧
        u.flag F.SYS_WVIOL_INFO_VALID = true ∧ stays u) ∧
    (s.windowBarred e.val Reg.EVC_FIRE true = true → breach (.evFire e t) (immWord 0x160 t) Reg.EVC_FIRE) ∧
    (let lane := 0x10400000 + 2048 * g.lio.lane + g.lio.off % 2048
     g.lio.sample = false → s.reqNS e.val = true → s.memNS lane = false → ∀ d : Fin 32,
      breach (.lioA e d) (readWord 0x50 d.val) lane ∧ breach (.lioB e d) (readWord 0x51 d.val) lane) ∧
    (let at0 := 0x10600000 + 0x6000 * e.val + 6 * seqIdx (s.engAt e).seq 0
     let held := ofBytesLe (s.bytes at0 6)
     let source (p : Nat) : Bool := decide (p ≤ 0x22 ∨ (0x40 ≤ p ∧ p ≤ 0x48) ∨ (0x50 ≤ p ∧ p ≤ 0x52) ∨ p = 0x58 ∨ p = 0x60 ∨
       p = 0x68 ∨ (0x70 ≤ p ∧ p ≤ 0x73) ∨ (0x80 ≤ p ∧ p ≤ 0x87))
     let dest (p : Nat) : Bool := decide (p ≤ 0x20 ∨ p = 0x40 ∨ (0x50 ≤ p ∧ p ≤ 0x60) ∨ (0x70 ≤ p ∧ p ≤ 0x81) ∨
       (0x88 ≤ p ∧ p ≤ 0x8E) ∨ p = 0x90 ∨ (0x98 ≤ p ∧ p ≤ 0x9C) ∨ p = 0xA0 ∨ (0xB0 ≤ p ∧ p ≤ 0xCE ∧ p % 4 ≠ 3) ∨
       (0xE0 ≤ p ∧ p ≤ 0xE5) ∨ (0x100 ≤ p ∧ p ≤ 0x102) ∨ (0x108 ≤ p ∧ p ≤ 0x10C) ∨ (0x110 ≤ p ∧ p ≤ 0x115) ∨
       (0x118 ≤ p ∧ p ≤ 0x11D) ∨ p = 0x140 ∨ (0x150 ≤ p ∧ p ≤ 0x152) ∨ p = 0x160 ∨ p = 0x170 ∨ p = 0x171 ∨ p = 0x180 ∨ p = 0x190)
     let bad (m : Nat) : Bool := decide (m / 2 ^ 20 % 8 ≠ 7) &&
       ((decide (m / 2 ^ 19 % 2 = 0) && !source (m / 2 ^ 10 % 2 ^ 9)) || !dest (m % 2 ^ 10))
     s.halfLoaded at0 = false →
     (2 ^ 47 ≤ held → held / 2 ^ 44 % 8 ≠ 7 → dest (held / 2 ^ 34 % 2 ^ 10) = false →
       traps (.move e) (BitVec.ofNat 48 held) 2 0 0 0) ∧
     (held < 2 ^ 47 → bad (held / 2 ^ 23 % 2 ^ 23) = true → traps (.move e) (BitVec.ofNat 48 held) 2 0 0 0) ∧
     (held < 2 ^ 47 → bad (held / 2 ^ 23 % 2 ^ 23) = false → held / 2 ^ 23 % 2 ^ 10 ≠ 0xE5 → bad (held % 2 ^ 23) = true →
       traps (.move e) (BitVec.ofNat 48 held) 2 1 0 0))) ∧
  (∀ (s : State) (e : EngIx) (t : Word24) (u : Fin 2), s.canIssue e = true → (s.engAt e).wdPending = true →
    (s.engAt e).tb.cause.getLsbD 23 = false → s.bit (Reg.ENG_CFG e.val) 16 = true →
    let g := s.engAt e
    ∃ v : State, exec (.add e u t) s = .next v ∧
      (v.engAt e).tb = { cause := 0x800025, pc := BitVec.ofNat 24 (seqIdx g.seq 0), grd := g.grd.setWidth 24
                         nx := BitVec.ofNat 24 (seqIdx g.seq 1 + seqIdx g.seq 2 * 2 ^ 12), ihi := 0, ilo := 0, fal := 0, fah := 0 } ∧
      (v.engAt e).state = .halting ∧ (v.engAt e).why = 2 ∧ (v.engAt e).wdPending = false ∧ (v.engAt e).w = g.w ∧
      (v.engAt e).flight = g.flight ∧ v.mem = s.mem ∧ v.regs = s.regs) ∧
  (∀ (s : State) (e : EngIx) (st : Stall) (b : Bool) (n : Nat) (y : Access), (s.engAt e).stall = some st → st.stage = .granted →
    st.passed = [] → st.worlds = s.worldMap → (∀ m ∈ st.moves, m.dst ≠ 0x160) → st.accs = [(b, y)] → s.accessWaits y = false →
    (s.engAt e).tb.cause.getLsbD 23 = false → st.cfg.getLsbD 16 = true → (s.engAt e).state = .running → s.canonical = true →
    let traps (er : AccErr) (a : Nat) (u : State) : Prop := exec (.sharedAccessComplete e n) s = .next u ∧
      (u.engAt e).tb.cause = BitVec.ofNat 24 (2 ^ 23 + 2 ^ 5 * bit01 (st.word.getLsbD 47) + 2 ^ 4 * bit01 b + (if er = .world then 4 else 3)) ∧
      (u.engAt e).tb.fal = BitVec.ofNat 24 a ∧ (u.engAt e).tb.fah = BitVec.ofNat 24 (a / 2 ^ 24) ∧
      (u.engAt e).tb.pc = BitVec.ofNat 24 (seqIdx (s.engAt e).seq 0) ∧
      (u.engAt e).state = .halting ∧ (u.engAt e).why = 2 ∧ (u.engAt e).stall = none ∧ (u.engAt e).w = (s.engAt e).w ∧
      (er = .world → u.flag F.SYS_WVIOL_INFO_VALID = true) ∧ u.mem = s.mem
    (∀ (k : LoadKind) (a : Nat) (er : AccErr), y = .load k a → (s.load e.val a k.size).2 = .error er →
      ∃ u : State, traps er a u ∧ (u.engAt e).res.sd = 0 ∧ (u.engAt e).res.sdh = 0) ∧
    (∀ (k : StoreKind) (a : Nat) (v : Word) (er : AccErr), y = .store k a v → (s.store e.val a k.size v.toNat).2 = some er →
      ∃ u : State, traps er a u)) ∧
  (∀ (s : State) (e k : EngIx) (a n v : Nat),
    let barred (wr : Bool) : Bool := s.windowBarred e.val (a / 4 * 4) wr
    let window : Prop := 0x20000000 ≤ a ∧ a < 0x20180000
    let both (er : AccErr) : Prop := (s.load e.val a n).2 = .error er ∧ (s.store e.val a n v).2 = some er
    (0x20180000 ≤ a → both .other) ∧
    (window → barred false = false → barred true = false → n ≠ 4 ∨ a % 4 ≠ 0 ∨ s.ready (keyBlock a) = false → both .other) ∧
    (window → barred false = true → barred true = true → both .world) ∧
    (0x10780000 ≤ a → a < 0x107FC000 → s.reqNS e.val = true → s.memNS a = false → both .world) ∧
    (0x10600000 + 0x6000 * k.val ≤ a → a < 0x10600000 + 0x6000 * k.val + 0x3000 → 0 < n → s.ready 6 = true →
      (s.reqNS e.val = false ∨ s.memNS a = true) → (s.engAt k).state ≠ .halted → (s.store e.val a n v).2 = some .other))

/-- With TRAP_HALT 0 a trap goes on at TVEC once everything in flight is delivered (07_borry_isa.md R255, R257, R258). -/
def Obligations.VectoredTrapEntersTheHandler : Prop :=
  ∀ (s : State) (e : EngIx) (t : Word24), s.issues e = true → 2048 ≤ t.toNat →
    let g := s.issuing e
    let v := s.get (F.ENG_CFG_TVEC e.val)
    g.tb.cause.getLsbD 23 = false → s.bit (Reg.ENG_CFG e.val) 16 = false →
    ∃ (u : State) (n : Nat), exec (.jump e t) s = .next u ∧ n ≤ 4 ∧
      (u.engAt e).seq = [⟨v, false⟩, ⟨(v + 1) % 2048, false⟩, ⟨(v + 2) % 2048, false⟩] ∧
      (u.engAt e).flight = [] ∧ (u.engAt e).state = .running ∧ (u.engAt e).tb.fal = t ∧ (u.engAt e).tb.cause = 0x800023 ∧
      (u.engAt e).cyc = g.cyc + BitVec.ofNat 48 n ∧ (u.engAt e).w = g.w ∧ (u.engAt e).grd = g.grd ∧
      (u.engAt e).rstack = g.rstack ∧ (u.engAt e).res = (g.flight.foldl Eng.deliver g).res ∧ u.mem = s.mem

/-- A result is read after exactly its unit's latency (07_borry_isa.md R216, R217, R218). -/
def Obligations.ResultsArriveAfterTheirLatency : Prop :=
  ∀ (s : State) (e : EngIx) (t : Word24) (d : Fin 32), s.issues e = true → (s.issuing e).flight = [] →
    (s.engAt e).wdPending = false →
    let g := s.issuing e
    let n := t.toNat % 32
    (∃ u v w x : State, exec (.add e 0 t) s = .next u ∧ u.issueRead e 0x40 d = v ∧ (v.engAt e).w[d.val] = g.op.alu0O + t ∧
      exec (.shl e t) s = .next w ∧ w.issueRead e 0x42 d = x ∧ (x.engAt e).w[d.val] = g.res.shu ∧
      ((x.issueRead e 0x42 d).engAt e).w[d.val] = if 24 ≤ n then 0 else g.op.shuO <<< n) ∧
    (∃ u : State, exec (.mulu e t) s = .next u ∧
      (((u.issueRead e 0x43 d).issueRead e 0x43 d).engAt e).w[d.val] = g.res.mulLo ∧
      ((((u.issueRead e 0x43 d).issueRead e 0x43 d).issueRead e 0x43 d).engAt e).w[d.val] =
        BitVec.ofNat 24 (g.op.mulO.toNat * t.toNat))

/-- Each bit of a written register follows its access code (00_scope.md R7, R11). -/
def Obligations.AccessCodesOfWrites : Prop :=
  (∀ (a : Nat) (x : RegRow) (locked : Bool) (old v : Word) (i : Nat), rowAt a = some x → i < 32 →
    (x.written locked old v).getLsbD i =
      if x.wr.testBit i then v.getLsbD i
      else if x.wrl.testBit i then (if locked then old.getLsbD i else v.getLsbD i)
      else if x.w1c.testBit i then old.getLsbD i && !v.getLsbD i
      else if x.w1s.testBit i then old.getLsbD i || v.getLsbD i
      else old.getLsbD i) ∧
  (∀ (s : State) (r : Req) (a : Nat) (v : Word), a = Reg.CIP_SELF_LO ∨ a = Reg.CIP_SELF_HI → s.admits r.val a true = true →
    s.bit Reg.SYS_BLKLOCK 14 = true →
    exec (.registerWrite r (BitVec.ofNat 32 a) v) s = .next (((s.served r.val a).setReg a (s.reg a)).answered 0))

/-- A write that goes through sets its register's fields, waits in its buffer, or is ignored (00_scope.md R3, R7, 01_system_map.md
R6, R31). -/
def Obligations.RegisterWritesTakeEffect : Prop :=
  ∀ (s : State) (r : Req) (a : Word) (v : Word),
    s.admits r.val a.toNat true = true → a.toNat % 4 = 0 → 0x20000000 ≤ a.toNat → a.toNat < 0x20180000 →
    (∀ x : RegRow, rowAt a.toNat = some x →
      let k := s.keyOf x r.val a.toNat
      (keyBlock a.toNat = 10 ∨ keyBlock a.toNat = 2 → s.armedFor a.toNat = false →
        exec (.registerWrite r a v) s = .next (((s.served r.val k).setReg k (x.written (s.locked a.toNat) (s.reg k) v)).answered 0)) ∧
      (keyBlock a.toNat = 19 ∨ keyBlock a.toNat = 23 →
        exec (.registerWrite r a v) s = .next (({ s.served r.val k with
          aonBuf := s.aonBuf.filter (fun w => w.1 != a.toNat) ++ [(a.toNat, v)] } : State).answered 0))) ∧
    (rowAt a.toNat = none → exec (.registerWrite r a v) s = .next ((s.takeTurn r.val (keyBlock a.toNat)).answered 0))

/-- A world violation or an access to a block that is not ready changes nothing but its record (01_system_map.md R20, R22, R23, R29,
00_scope.md R6). -/
def Obligations.BarredAndUnreadyAccessesFail : Prop :=
  ∀ (s : State) (r : Req) (a : Word) (v : Word), s.canReach r.val = true → a.toNat % 4 = 0 → 0x20000000 ≤ a.toNat →
    a.toNat < 0x20180000 →
    let failed (u : State) : Out := .next { u.portError r.val a.toNat with data := 0, err := true }
    let recorded (wr : Bool) : State :=
      if s.flag F.SYS_WVIOL_INFO_VALID = true then s.put F.SYS_WVIOL_INFO_OVF 1
      else (((s.put F.SYS_WVIOL_ADDR_ADDR a.toNat).put F.SYS_WVIOL_INFO_WR (if wr then 1 else 0)).put F.SYS_WVIOL_INFO_REQ r.val).put
        F.SYS_WVIOL_INFO_VALID 1
    (s.windowBarred r.val a.toNat true = true → exec (.registerWrite r a v) s = failed (recorded true)) ∧
    (s.windowBarred r.val a.toNat true = false → s.ready (keyBlock a.toNat) = false → exec (.registerWrite r a v) s = failed s) ∧
    (s.windowBarred r.val a.toNat false = true → exec (.rcRead r a) s = failed (recorded false)) ∧
    (s.windowBarred r.val a.toNat false = false → s.ready (keyBlock a.toNat) = false → exec (.rcRead r a) s = failed s) ∧
    (∀ u : State, (u.portError r.val a.toNat).mem = u.mem ∧ (u.portError r.val a.toNat).eng = u.eng ∧
      (u.portError r.val a.toNat).lane = u.lane ∧ (u.portError r.val a.toNat).pending = u.pending)

/-- A read clears RC fields and captures the upper words of a value (00_scope.md R7, R10, 01_system_map.md R32, R114). -/
def Obligations.ReadsClearAndCapture : Prop :=
  ∀ (s : State) (r : Req),
    (s.admits r.val Reg.SFM_BCNSKIP false = true → s.snapOf r.val Reg.SFM_BCNSKIP = none →
      exec (.rcRead r (BitVec.ofNat 32 Reg.SFM_BCNSKIP)) s =
        .next (((s.served r.val Reg.SFM_BCNSKIP).setReg Reg.SFM_BCNSKIP (s.reg Reg.SFM_BCNSKIP &&& 0xFFFF0000)).answered (s.reg Reg.SFM_BCNSKIP))) ∧
    (s.admits r.val Reg.SFM_ASN_LO false = true → s.snapOf r.val Reg.SFM_ASN_LO = none →
      exec (.snapshotRead r (BitVec.ofNat 32 Reg.SFM_ASN_LO)) s =
        .next (({ (s.served r.val Reg.SFM_ASN_LO).dropSnap r.val Reg.SFM_ASN_HI with
          snaps := ((s.served r.val Reg.SFM_ASN_LO).dropSnap r.val Reg.SFM_ASN_HI).snaps ++ [⟨r.val, Reg.SFM_ASN_HI, BitVec.ofNat 32 (s.sfm.asn.toNat / 2 ^ 32)⟩] } : State).answered
            (s.sfm.asn.setWidth 32))) ∧
    (∀ w : Word, s.admits r.val Reg.SFM_ASN_HI false = true → s.snapOf r.val Reg.SFM_ASN_HI = some w →
      exec (.snapshotRead r (BitVec.ofNat 32 Reg.SFM_ASN_HI)) s = .next ((s.served r.val Reg.SFM_ASN_HI).answered w))

/-- BLOCK_LOCK and WLD_LOCK set bits, and a set world lock fixes the worlds (00_scope.md R11, 01_system_map.md R18, R25). -/
def Obligations.LocksOfBlocksAndWorlds : Prop :=
  ∀ (s : State) (r : Req),
    (∀ bits : BitVec 24, s.admits r.val Reg.SYS_BLKLOCK true = true →
      exec (.blockLock r bits) s = .next (((s.served r.val Reg.SYS_BLKLOCK).setReg Reg.SYS_BLKLOCK
        (s.reg Reg.SYS_BLKLOCK ||| bits.setWidth 32)).answered 0)) ∧
    (s.admits r.val Reg.SYS_WLD_CTL true = true →
      exec (.wldLock r) s = .next (((s.served r.val Reg.SYS_WLD_CTL).setReg Reg.SYS_WLD_CTL
        (s.reg Reg.SYS_WLD_CTL ||| 1)).answered 0)) ∧
    (∀ (a : Nat) (v : Word), a = Reg.SYS_WLD_BLK ∨ a = Reg.SYS_WLD_ENG_LO ∨ a = Reg.SYS_WLD_ENG_HI ∨
        (∃ n : Fin 32, a = Reg.SYS_RGN_BASE n.val ∨ a = Reg.SYS_RGN_LIM n.val ∨ a = Reg.SYS_RGN_ATTR n.val) →
      s.admits r.val a true = true → s.flag F.SYS_WLD_CTL_WLD_LOCK = true →
      exec (.registerWrite r (BitVec.ofNat 32 a) v) s = .next ((s.served r.val a).answered 0))

/-- STAGED_WRITE, ARM, GAP, ABANDON and STOPPED_COMMIT (01_system_map.md R28, R34, R35, R36, R37, R38, R39, R40, 02_receive_path.md
R67, R79, 03_frames_and_coding.md R111). The model's choice: log entry 27 (a chain that a commit disables reads CAL 0 and its ready
bit clears). -/
def Obligations.StagingCommands : Prop :=
  ∀ (s : State) (r : Req),
    let ns := s.reqNS r.val
    let w := bit01 ns
    let k := Reg.SYS_STAGE_CTL w
    let taken (st : Nat) (old new : Word) : Word := (old &&& ~~~(BitVec.ofNat 32 st)) ||| (new &&& BitVec.ofNat 32 st)
    (s.admits r.val (Reg.SYS_STAGE_CTL 0) true = true →
      exec (.arm r) s = .next (((s.served r.val k).put (F.SYS_STAGE_CTL_ARM w) 1).answered 0) ∧
      exec (.gap r) s = .next ((if s.running then ((s.served r.val k).put (F.SYS_STAGE_CTL_ARM w) 1).put (F.SYS_STAGE_CTL_GAP w) 1
        else (s.served r.val k).put (F.SYS_STAGE_CTL_ARM w) 1).answered 0) ∧
      exec (.abandon r) s = .next ((((((s.served r.val k).reloadShadows ns).put (F.SYS_STAGE_CTL_ARM w) 0).put
        (F.SYS_STAGE_CTL_GAP w) 0).put (F.SYS_STAGE_STAT_RESULT w) 3 |>.pulse (2 + w)).answered 0) ∧
      (s.canonical = true → ∃ t : State, exec (.abandon r) s = .next t ∧ t.act = s.act ∧ t.get (F.SYS_STAGE_CTL_ARM w) = 0 ∧
        t.get (F.SYS_STAGE_CTL_GAP w) = 0 ∧ t.get (F.SYS_STAGE_STAT_RESULT w) = 3 ∧ t.pulses = s.pulses ++ [2 + w] ∧
        ∀ (a : Nat) (x : RegRow), rowAt (a % 0x100000000) = some x → a ≠ k → a ≠ Reg.SYS_STAGE_STAT w →
          t.reg a = if s.blockNS (keyBlock a) = ns then taken x.st (s.reg a) (s.activeReg a) else s.reg a)) ∧
    (∀ (a v : Word) (x : RegRow), rowAt a.toNat = some x → keyBlock a.toNat = 10 → a.toNat % 4 = 0 → 0x20000000 ≤ a.toNat →
      a.toNat < 0x20180000 → x.bank = .single → s.admits r.val a.toNat true = true →
      let new := x.written (s.locked a.toNat) (s.reg a.toNat) v
      (s.armedFor a.toNat = false ∨ x.changesShadow (s.reg a.toNat) new = false →
        exec (.stagedWrite r a v) s = .next (((s.served r.val a.toNat).setReg a.toNat new).answered 0)) ∧
      (s.armedFor a.toNat = true → x.changesShadow (s.reg a.toNat) new = true →
        exec (.stagedWrite r a v) s = .next { ((s.served r.val a.toNat).put
          (F.SYS_STAGE_STAT_LATE (bit01 (s.blockNS 10))) 1).portError r.val a.toNat with data := 0, err := true })) ∧
    (∀ sec nonsec : Bool,
      let cs := sec && s.flag (F.SYS_STAGE_CTL_ARM 0)
      let cn := nonsec && s.flag (F.SYS_STAGE_CTL_ARM 1)
      (s.running = true ∨ (cs || cn) = false → exec (.stoppedCommit sec nonsec) s = .next s) ∧
      (s.canonical = true → s.running = false → (cs || cn) = true → ∃ t : State, exec (.stoppedCommit sec nonsec) s = .next t ∧
        (∀ (a : Nat) (x : RegRow), rowAt (a % 0x100000000) = some x →
          t.activeReg a = (if (if s.blockNS (keyBlock a) then cn else cs) = true then taken x.st (s.activeReg a) (s.reg a)
            else s.activeReg a) ∧
          t.reg a &&& BitVec.ofNat 32 x.st = s.reg a &&& BitVec.ofNat 32 x.st) ∧
        (∀ v : Fin 2, if (if v = 0 then cs else cn) = true then
            t.get (F.SYS_STAGE_CTL_ARM v.val) = 0 ∧ t.get (F.SYS_STAGE_CTL_GAP v.val) = 0 ∧ t.get (F.SYS_STAGE_STAT_RESULT v.val) = 1
          else t.reg (Reg.SYS_STAGE_CTL v.val) = s.reg (Reg.SYS_STAGE_CTL v.val) ∧
            t.reg (Reg.SYS_STAGE_STAT v.val) = s.reg (Reg.SYS_STAGE_STAT v.val)) ∧
        t.pulses = s.pulses ++ (if cs then [2] else []) ++ (if cn then [3] else []) ∧
        t.get F.SYS_EPOCH_EPOCH = (s.get F.SYS_EPOCH_EPOCH + 1) % 2 ^ 32 ∧
        (∀ c : Chain, let on (u : State) : Bool := u.chainEnabled c
          if on t = true ∧ (on s = false ∨ s.diversity ≠ t.diversity ∨ s.chainFreq c ≠ t.chainFreq c) then
            t.get (F.RXC_STAT_CAL (chainNo c)) = 1 ∧ t.bit Reg.SYS_READY (24 + chainNo c) = false
          else if on s = true ∧ on t = false then
            t.get (F.RXC_STAT_CAL (chainNo c)) = 0 ∧ t.bit Reg.SYS_READY (24 + chainNo c) = false
          else t.get (F.RXC_STAT_CAL (chainNo c)) = s.get (F.RXC_STAT_CAL (chainNo c)) ∧
            t.bit Reg.SYS_READY (24 + chainNo c) = s.bit Reg.SYS_READY (24 + chainNo c)) ∧
        (∀ n : LaneIx, (t.laneAt n).state = t.laneGoes n (s.laneAt n).state ∧
          (t.laneAt n).firstFloor = ((s.laneAt n).firstFloor || (!s.flagA F.LDP_LCTL_EN && t.flagA F.LDP_LCTL_EN))) ∧
        t.mem = s.mem ∧ t.eng = s.eng ∧ t.sfm = s.sfm ∧ t.tx = s.tx ∧ t.cip = s.cip ∧ t.sph = s.sph ∧ t.events = s.events))

/-- A posted write takes effect when it completes, and what a calendar write then does (01_system_map.md R31,
12_interrupts_timers_rtc.md R395, R398). The model's choice: log entry 9 (how far the running clock has come is free). -/
def Obligations.AonWritesComplete : Prop :=
  ∀ (s : State) (a : Word), s.canonical = true →
    (s.aonBuf.find? (fun w => w.1 == a.toNat) = none → exec (.aonWriteComplete a) s = .next s) ∧
    (∀ v : Word, s.aonBuf.find? (fun w => w.1 == a.toNat) = some (a.toNat, v) →
      let u : State := { s with aonBuf := s.aonBuf.filter (fun w => w.1 != a.toNat) }
      let halted := s.flag F.RTC_CTL_HALT
      (∀ x : RegRow, rowAt a.toNat = some x → a.toNat ≠ Reg.RTC_CTL → a.toNat ≠ Reg.RTC_TIME → a.toNat ≠ Reg.RTC_DATE →
        exec (.aonWriteComplete a) s = .next (u.setReg a.toNat (x.written false (s.reg a.toNat) v))) ∧
      (∀ x : RegRow, rowAt a.toNat = some x → a.toNat = Reg.RTC_TIME ∨ a.toNat = Reg.RTC_DATE →
        exec (.aonWriteComplete a) s = .next (if halted then u.setReg a.toNat (x.written false (s.reg a.toNat) v)
          else u.put F.RTC_STAT_WRREF 1)) ∧
      (a.toNat = Reg.RTC_CTL →
        let add := v.getLsbD 3
        let less := v.getLsbD 4
        let refused : Prop := (add = true ∧ less = true) ∨ ((add = true ∨ less = true) ∧ halted = true)
        let kept (t : State) : State := (t.put F.RTC_CTL_HALT (if v.getLsbD 0 then 1 else 0)).put F.RTC_CTL_ALMEN (if v.getLsbD 1 then 1 else 0)
        let waits (t : State) : State := { t with rtcDst := if add then some true else if less then some false else s.rtcDst }
        (refused → exec (.aonWriteComplete a) s = .next (u.put F.RTC_STAT_DSTREF 1)) ∧
        (¬refused → halted = true ∨ s.xtal = some false → exec (.aonWriteComplete a) s = .next (waits (kept u))) ∧
        (¬refused → halted = false → s.xtal ≠ some false → ∃ t : State, exec (.aonWriteComplete a) s = .next t ∧ t.rtcDst = (waits u).rtcDst ∧
          t.get F.RTC_CTL_HALT = (if v.getLsbD 0 then 1 else 0) ∧ t.get F.RTC_CTL_ALMEN = (if v.getLsbD 1 then 1 else 0) ∧
          t.get F.RTC_TIME_SUB < 32768 ∧ t.get F.RTC_TIME_SOD = s.get F.RTC_TIME_SOD ∧ t.aonBuf = u.aonBuf ∧
          (∀ k : Nat, k ≠ Reg.RTC_CTL → k ≠ Reg.RTC_TIME → t.reg k = s.reg k) ∧ t.mem = s.mem ∧ t.pulses = s.pulses ∧ t.pwr = s.pwr)))

/-- EVC_FIRE, CHANNEL_LOCK, EVC_HPEND_CLEAR and the lock commands of a requester (08_engine_fabric.md R272, R273, R276, R277, R278,
R279, R280, R281). -/
def Obligations.ChannelAndLockCommands : Prop :=
  ∀ (s : State) (r : Req),
    (∀ ch : Byte, s.admits r.val Reg.EVC_FIRE true = true → (s.reqNS r.val = false ∨ s.flag (F.EVC_CH_NS ch.toNat) = true) →
      let c := s.served r.val Reg.EVC_FIRE
      (s.channelOpen ch.toNat = true → s.flag (F.EVC_CH_SWF ch.toNat) = true →
        exec (.evcFire r ch) s = .next (({ c with events := s.events ++ [.sw ch.toNat] } : State).answered 0)) ∧
      (s.channelOpen ch.toNat = false → exec (.evcFire r ch) s = .next (c.answered 0)) ∧
      (s.channelOpen ch.toNat = true → s.flag (F.EVC_CH_SWF ch.toNat) = false →
        (s.flag F.EVC_STRAY_VALID = false → exec (.evcFire r ch) s = .next ((((c.put F.EVC_STRAY_SOURCE (0x200 + r.val)).put
          F.EVC_STRAY_CH ch.toNat).put F.EVC_STRAY_VALID 1).answered 0)) ∧
        (s.flag F.EVC_STRAY_VALID = true → exec (.evcFire r ch) s = .next ((c.put F.EVC_STRAY_OVF 1).answered 0)))) ∧
    (∀ (ch : Byte) (v : Word), s.admits r.val (Reg.EVC_CH ch.toNat) true = true →
      (s.reqNS r.val = false ∨ s.flag (F.EVC_CH_NS ch.toNat) = true) →
      let c := s.served r.val (Reg.EVC_CH ch.toNat)
      let ns := if s.reqNS r.val then 1 else bitsOf v.toNat 30 1
      (s.flag (F.EVC_CH_LOCK ch.toNat) = false →
        exec (.channelLock r ch v) s = .next ((c.setReg (Reg.EVC_CH ch.toNat) (BitVec.ofNat 32 (bitsOf v.toNat 0 7 +
          bitsOf v.toNat 14 10 * 2 ^ 14 + bitsOf v.toNat 28 1 * 2 ^ 28 + bitsOf v.toNat 29 1 * 2 ^ 29 + ns * 2 ^ 30 + 2 ^ 31))).answered 0)) ∧
      (s.flag (F.EVC_CH_LOCK ch.toNat) = true → exec (.channelLock r ch v) s = .next (c.answered 0))) ∧
    (∀ (n : Fin 8) (v : Word), s.admits r.val (Reg.EVC_HPEND n.val) true = true →
      exec (.evcHpendClear r n v) s = .next (((s.served r.val (Reg.EVC_HPEND n.val)).setReg (Reg.EVC_HPEND n.val)
        (s.reg (Reg.EVC_HPEND n.val) &&& ~~~(v &&& s.hpendMask (s.reqNS r.val) n.val))).answered 0)) ∧
    (∀ k : BitVec 6, (s.reqNS r.val = false ∨ s.flag (F.LCK_S_NS k.toNat) = true) →
      let mine : Bool := s.flag (F.LCK_S_HELD k.toNat) && s.get (F.LCK_S_HOLDER k.toNat) == r.val
      let got : Bool := decide (r.val ≤ 66) && (!s.flag (F.LCK_S_HELD k.toNat) || mine)
      (s.admits r.val Reg.LCK_ACQ true = true →
        let c := s.served r.val Reg.LCK_ACQ
        exec (.lckAcq r k) s = .next (((if got then (c.put (F.LCK_S_HELD k.toNat) 1).put (F.LCK_S_HOLDER k.toNat) r.val else c).setReg
          (Reg.LCK_RES r.val) (BitVec.ofNat 32 (bit01 got + s.get (F.LCK_S_ORPHAN k.toNat) * 2 + k.toNat * 2 ^ 8))).answered 0)) ∧
      (s.admits r.val Reg.LCK_REL true = true →
        let c := s.served r.val Reg.LCK_REL
        (mine = true → exec (.lckRel r k) s = .next (({ (c.put (F.LCK_S_HELD k.toNat) 0).put (F.LCK_S_HOLDER k.toNat)
          (Config.freeNat s.free % 2 ^ 7) with free := s.free + 1 } : State).answered 0)) ∧
        (mine = false → exec (.lckRel r k) s = .next (c.answered 0))) ∧
      (s.admits r.val Reg.LCK_CLR true = true →
        let c := s.served r.val Reg.LCK_CLR
        exec (.lckClr r k) s = .next ((if mine then c.put (F.LCK_S_ORPHAN k.toNat) 0 else c).answered 0)))

/-- EVENT_ARRIVAL delivers the oldest event on its way (08_engine_fabric.md R272, R273, R274). -/
def Obligations.EventsArrive : Prop :=
  (∀ s : State, s.events = [] → exec .eventArrival s = .next s) ∧
  ∀ (s : State) (rest : List EvFlight) (ch : Fin 256),
    let c := { s with events := rest }
    let host := Reg.EVC_HPEND (ch.val / 32)
    let dropped := c.put (F.EVC_DROP_COUNT ch.val) (min (s.get (F.EVC_DROP_COUNT ch.val) + 1) (2 ^ (F.EVC_DROP_COUNT ch.val).width - 1))
    (s.events = .sw ch.val :: rest ∨ (∃ p : Nat, s.events = .hw p ch.val :: rest ∧ s.get (F.EVC_CH_EN ch.val) = 1 ∧
        s.get (F.EVC_CH_CONS ch.val) ≤ 64 ∧ s.get (F.EVC_CH_PROD ch.val) = p) →
      (s.get (F.EVC_CH_CONS ch.val) = 64 →
        (s.bit host (ch.val % 32) = false → exec .eventArrival s = .next (c.setBit host (ch.val % 32) true)) ∧
        (s.bit host (ch.val % 32) = true → exec .eventArrival s = .next dropped)) ∧
      (∀ e : EngIx, s.get (F.EVC_CH_CONS ch.val) = e.val →
        ((s.engAt e).evPend.getLsbD ch.val = false →
          exec .eventArrival s = .next (c.setEng e { s.engAt e with evPend := (s.engAt e).evPend ||| (1#256 <<< ch.val) })) ∧
        ((s.engAt e).evPend.getLsbD ch.val = true → exec .eventArrival s = .next dropped))) ∧
    (∀ p : Nat, s.events = .hw p ch.val :: rest →
      (s.get (F.EVC_CH_EN ch.val) ≠ 1 ∨ 64 < s.get (F.EVC_CH_CONS ch.val) → exec .eventArrival s = .next c) ∧
      (s.get (F.EVC_CH_EN ch.val) = 1 → s.get (F.EVC_CH_CONS ch.val) ≤ 64 → s.get (F.EVC_CH_PROD ch.val) ≠ p →
        (s.flag F.EVC_STRAY_VALID = false →
          exec .eventArrival s = .next (((c.put F.EVC_STRAY_SOURCE p).put F.EVC_STRAY_CH ch.val).put F.EVC_STRAY_VALID 1)) ∧
        (s.flag F.EVC_STRAY_VALID = true → exec .eventArrival s = .next (c.put F.EVC_STRAY_OVF 1))))

/-- A lane in SEARCH locks on the match with the fewest bit errors (02_receive_path.md R53, R55, R59, R60, R67, R68, R71, R75, R78).
The model's choice: the windows that CLIP and DESENSE look at (log entry 26), the cut of an offset beyond the slot (25), ties
between patterns (115) and the settings in DRAIN and READY (117). -/
def Obligations.LanesLockOnTheBestMatch : Prop :=
  (∀ (s : State) (n : LaneIx) (h : Hits) (i : SyncInfo),
    let l := s.laneAt n
    let c := laneChain n
    let off := if s.running then min i.off (s.sfm.slotLen - 1) else i.off
    (l.state = .search →
      (∀ (e : Nat) (ls : LockSet) (coded : Bool), bestMatch (s.searchers n.val) h = some (e, (ls, coded)) →
        let limit : Int := if ls.rate = 0 then 1500 else 3000
        let ferr := max (-limit) (min limit i.ferr.toInt)
        let air := bitsTime ls.fourLevel ls.rate ls.patLen
        exec (.syncMatch n h i) s = .next ((s.setLane n { l with
          state := .header, lock := ls, sets := s.searchers n.val, track := s.flagA (F.LAN_CFG_TRACK n.val)
          evt := if s.flagA (F.LAN_CFG_EVT n.val) then some (s.getA (F.LAN_CFG_EVCH n.val)) else none
          frame := { errs := e, coded := coded, tsAsn := (s.stampAt (s.sfm.clock + off)).1, tsOff := (s.stampAt (s.sfm.clock + off)).2
                     lockAt := s.sfm.clock + off, ferr0 := ferr, gidx := s.get (F.RXC_STAT_IDX (chainNo c)), rssi := i.rssi.toNat
                     marks := {
                       clip := match (s.chainAt c).sinceClip with
                         | some j => decide (80 * j ≤ air)
                         | none => false
                       desense := s.flag (F.RXC_STAT_BLANK (chainNo (otherChain c))) ||
                         (match (s.chainAt (otherChain c)).unblankAt with
                          | some t => decide (s.sfm.clock + off - air < t)
                          | none => false) } }
          hist := lastN ls.patLen (hitBits h ls.srch), count := ls.patLen, window := [], soft := [], recs := []
          ferr64 := 64 * ferr, dgain := min 84 i.dgain.toNat, endedWindow := false }).setChain c
            { s.chainAt c with busyWindow := true })) ∧
      (bestMatch (s.searchers n.val) h = none → exec (.syncMatch n h i) s = .next s)) ∧
    (l.state = .drain ∨ l.state = .ready → exec (.syncMatch n h i) s =
      .next (if (bestMatch l.sets h).isSome then s.bump (F.LAN_MISSED_COUNT n.val) else s)) ∧
    (l.state = .off ∨ l.state = .header ∨ l.state = .payload ∨ l.state = .blank → exec (.syncMatch n h i) s = .next s)) ∧
  (∀ (s : State) (d : Nat), s.sfm.slotLen ≠ 0 → s.stampAt (s.sfm.clock + d) =
    if s.running then (if d < s.sfm.slotLen then (s.sfm.asn.toNat, d) else ((s.sfm.asn.toNat + 1) % 2 ^ 40, d - s.sfm.slotLen))
    else (s.sfm.asn.toNat, 0)) ∧
  (∀ (sets : List LockSet) (h : Hits),
    (bestMatch sets h = none → ∀ x ∈ sets, x.matchAt (hitBits h x.srch) = none) ∧
    (∀ (e : Nat) (ls : LockSet) (coded : Bool), bestMatch sets h = some (e, (ls, coded)) →
      ∃ before after : List LockSet, sets = before ++ ls :: after ∧ ls.matchAt (hitBits h ls.srch) = some (e, coded) ∧
        (∀ x ∈ before, ∀ (e' : Nat) (c' : Bool), x.matchAt (hitBits h x.srch) = some (e', c') → e < e') ∧
        (∀ x ∈ after, ∀ (e' : Nat) (c' : Bool), x.matchAt (hitBits h x.srch) = some (e', c') → e ≤ e'))) ∧
  (∀ (l : LockSet) (hist : List Bool),
    (l.matchAt hist = none → ∀ p ∈ l.pats, p.1.length ≤ hist.length → l.tol < bitDiff (lastN p.1.length hist) p.1) ∧
    (∀ (e : Nat) (coded : Bool), l.matchAt hist = some (e, coded) →
      (∃ p ∈ l.pats, p.2 = coded ∧ p.1.length ≤ hist.length ∧ e = bitDiff (lastN p.1.length hist) p.1 ∧ e ≤ l.tol) ∧
      ∀ p ∈ l.pats, p.1.length ≤ hist.length → e ≤ bitDiff (lastN p.1.length hist) p.1))

/-- The header window's second correlator and the header's check (02_receive_path.md R44, R45, R46, R61, R62, R63, R64, R65, R490,
03_frames_and_coding.md R86, R87, R95). The model's choice: the time and RSSI of a re-lock (log entries 24, 9), its CLIP and DESENSE
windows (26), the records of a failed lock (135), the SUN PHR, window and decoding (21) and the chain whose symbol counts (118). -/
def Obligations.HeadersAndSecondMatches : Prop :=
  (∀ (s : State) (n : LaneIx) (b : Bool) (bits : List Bool) (mags : List Nat),
    exec (.secondCorrelatorMatch n []) s = .next s ∧
    exec (.secondCorrelatorMatch n (b :: bits)) s = exec (.secondCorrelatorMatch n bits) (s.feedBit n b bits.length) ∧
    exec (.headerWindowComplete n (b :: bits) mags) s = exec (.headerWindowComplete n bits mags) (s.feedBit n b bits.length)) ∧
  (∀ ms : List (Nat × Nat × Bool), (earliestMatch ms = none → ms = []) ∧
    ∀ m : Nat × Nat × Bool, earliestMatch ms = some m → m ∈ ms ∧ ∀ x ∈ ms, m.1 ≤ x.1) ∧
  ∀ (s : State) (n : LaneIx),
    let l := s.laneAt n
    let whole := if l.lock.deep then 48 else if l.frame.coded then 64 else 16
    let relock (u : State) (e : Nat) (coded : Bool) (bits since : Nat) (pre res : Bool) : RxFrame :=
      let last := l.frame.lockAt + bitsTime l.lock.fourLevel l.lock.rate bits
      { errs := e, coded := coded, tsAsn := (u.stampAt last).1, tsOff := (u.stampAt last).2, lockAt := last, ferr0 := l.frame.ferr0
        gidx := l.frame.gidx, rssi := Config.freeNat u.free % 256
        marks := { u.marksSince n (last - bitsTime l.lock.fourLevel l.lock.rate l.lock.patLen)
                     (bitsTime l.lock.fourLevel l.lock.rate since) with preempt := pre, resumed := res } }
    (l.state ≠ .header → ∀ (b : Bool) (after : Nat), s.feedBit n b after = s) ∧
    (l.state = .header → whole ≤ l.window.length → ∀ (b : Bool) (after : Nat),
      s.feedBit n b after = s.setLane n { l with hist := lastN 64 (l.hist ++ [b]), count := l.count + 1 }) ∧
    (l.state ≠ .header ∨ l.window.length ≠ whole → ∀ mags : List Nat, exec (.headerWindowComplete n [] mags) s = .next s) ∧
    (l.state = .header → l.window.length < whole → ∀ (b : Bool) (after : Nat),
      let l1 := { l with hist := lastN 64 (l.hist ++ [b]), count := l.count + 1, window := l.window ++ [b] }
      (l.lock.matchAt l1.hist = none → s.feedBit n b after = s.setLane n l1) ∧
      (∀ (e : Nat) (coded : Bool), l.lock.matchAt l1.hist = some (e, coded) →
        (l.frame.errs ≤ e → s.feedBit n b after = s.setLane n
          { l1 with recs := if l.recs.length < 2 then l.recs ++ [⟨l1.count - l.lock.patLen, e, coded⟩] else l.recs }) ∧
        (e < l.frame.errs → s.feedBit n b after = (({ s with free := s.free + 1 } : State).setLane n { l1 with
          frame := relock s e coded (l1.count - l.lock.patLen) (l.lock.patLen + after) true l.frame.marks.resumed
          hist := lastN l.lock.patLen l1.hist, count := l.lock.patLen, window := [], recs := [] }).bump
            (F.LAN_PREEMPT_COUNT n.val)))) ∧
    (l.state = .header → l.window.length = whole → ∀ mags : List Nat,
      let a : LaneIx := if n.val < 48 then n else partner n
      let b : LaneIx := if n.val < 48 then partner n else n
      let payload (u : State) (l' : Lane) : State :=
        let v := u.setLane n l'
        let p := s.laneAt (partner n)
        let loses : LaneIx := if toSigned 8 (v.laneAt b).frame.rssi > toSigned 8 (v.laneAt a).frame.rssi then a else b
        let w := (v.dropCodewords loses).bump (F.LAN_DIVDROP_COUNT loses.val)
        let w' := w.setLane loses ((w.laneAt loses).idle (w.listens loses))
        if s.diversity ∧ p.state = .payload ∧ p.frame.marks.div = false ∧ l.frame.marks.div = false ∧
            syncGap l.frame p.frame ≤ 2 * symbolTime (s.laneAt a).lock.rate then
          w'.setLane (partner loses) { w'.laneAt (partner loses) with frame := { (w'.laneAt (partner loses)).frame with
            marks := { (w'.laneAt (partner loses)).frame.marks with div := true } } }
        else v
      let error (u0 : State) (o : Out) : Prop :=
        let u := u0.bump (F.LAN_HDRERR_COUNT n.val)
        let start := l.count - l.hist.length
        (∀ m : Nat × Nat × Bool, m ∈ l.laterMatches ↔ (∃ r ∈ l.recs, m = (r.first, r.errs, r.coded)) ∨
          (1 ≤ m.1 ∧ start ≤ m.1 ∧ m.1 < l.count ∧ m.1 + l.lock.patLen ≤ l.count ∧
            l.lock.matchAt ((l.hist.drop (m.1 - start)).take l.lock.patLen) = some m.2)) ∧
        (earliestMatch l.laterMatches = none → o = .next (u.setLane n (l.idle (u.listens n)))) ∧
        (∀ (p e : Nat) (coded : Bool), earliestMatch l.laterMatches = some (p, e, coded) →
          o = exec (.secondCorrelatorMatch n (l.hist.drop (p + l.lock.patLen - start)))
            (({ u with free := u.free + 1 } : State).setLane n { l with
              frame := relock u e coded p (l.count - p) false true
              hist := (l.hist.drop (p - start)).take (p + l.lock.patLen - max p start)
              count := l.lock.patLen, window := [], recs := [] }))
      (l.lock.deep = true →
        (∀ h : Nat, headerDecode l.window = some h → headerFits l.lock.fourLevel l.lock.rate h = true →
          exec (.headerWindowComplete n [] mags) s = .next (payload s { l with state := .payload, frame :=
            { l.frame with hdr := h, len := hdrLen h, prof := hdrProf h, codewords := codewordCount (hdrProf h) (hdrLen h)
                           z48 := liftZ (hdrProf h) (hdrLen h) == 48 } })) ∧
        (headerDecode l.window = none ∨ (∃ h : Nat, headerDecode l.window = some h ∧ headerFits l.lock.fourLevel l.lock.rate h = false) →
          error s (exec (.headerWindowComplete n [] mags) s))) ∧
      (l.lock.deep = false →
        let soft := softBits l.window mags
        let u : State := if l.frame.coded then { s with free := s.free + 264 } else s
        let phr := if l.frame.coded then ofBitsMsb ((viterbiBits (s.flagA F.LDP_SUNCFG_RSC) false
            (fun k => bitAt (Config.freeNat (s.free + k)) 0) (s.codeSymbols soft)).take 16)
          else ofBitsMsb l.window
        (sunHeaderFits phr = true → exec (.headerWindowComplete n [] mags) s = .next (payload u { l with
          state := .payload, soft := soft, frame := { l.frame with hdr := phr, len := phrLen phr } })) ∧
        (sunHeaderFits phr = false → error u (exec (.headerWindowComplete n [] mags) s))))

/-- Codewords queue, decode and deliver, and a finished frame enters READY (03_frames_and_coding.md R96, R103, R104, R105, R108,
02_receive_path.md R67, R72, R73, R74, 08_engine_fabric.md R272). The model's choice: one violation for each refused write (log
entry 136), the settings that decode a SUN PSDU (137) and its code (21). -/
def Obligations.CodewordsPassTheDecoderPool : Prop :=
  (∀ (s : State) (n : LaneIx) (llrs : List Int) (same : Bool),
    let l := s.laneAt n
    let f := l.frame
    let cyc := match s.ldpQueue.getLast? with
      | some x => if same then x.cyc else x.cyc + 1
      | none => 0
    let j : CwJob := { lane := n, index := f.nextCw, rows := (profileOf f.prof).rows, z48 := f.z48
                       bytes := cwBytes f.prof f.len f.nextCw, llr := cwLlrs f.prof f.len f.nextCw llrs, cyc := cyc }
    let before (x : CwJob) : Bool := decide (x.cyc < cyc) || decide (x.lane.val ≤ n.val)
    l.state = .payload ∨ l.state = .drain → l.lock.deep = true → f.nextCw < f.codewords → s.ready 10 = true →
      exec (.codewordReceived n llrs same) s = .next { s.setLane n { l with frame := { f with nextCw := f.nextCw + 1 } } with
        ldpQueue := s.ldpQueue.filter before ++ [j] ++ s.ldpQueue.filter (fun x => !before x) }) ∧
  (∀ (s : State) (j : CwJob) (rest : List CwJob) (d : Fin 8), s.ldpQueue = j :: rest → s.ldp[d.val] = none →
    (∀ i : Fin 8, i < d → s.ldp[i.val] ≠ none) → s.ready 10 = true →
      exec .decodingJobStart s = .next { s with ldpQueue := rest
                                                ldp := s.ldp.set d.val (some ⟨j, iterLimit (s.get F.LDP_CFG_ITER), s.get F.LDP_CFG_NORM⟩) }) ∧
  (∀ (s : State) (d : Fin 8) (x : DecJob), s.ldp[d.val] = some x →
    let r := ldpcDecode x.job.rows (if x.job.z48 then 48 else 24) x.iter x.norm x.job.llr
    let u := ({ s with ldp := s.ldp.set d.val none } : State).bump (if r.good then F.LDP_CWOK_COUNT else F.LDP_CWFAIL_COUNT)
    (x.job.dead = true → exec (.decodingJobEnd d) s = .next u) ∧
    (x.job.dead = false →
      let n := x.job.lane
      let f := (u.laneAt n).frame
      let bs := bytesOfBits (r.bits.take (8 * x.job.bytes))
      let start := cwStart f.prof f.len x.job.index
      let w := u.writeBuffer n start (bs.take (f.len - start))
      let g := (w.laneAt n).frame
      let f' : RxFrame := { g with results := g.results ++ [⟨x.job.index, bs⟩]
                                   failed := g.failed + (if r.good then 0 else 1), itMax := max g.itMax r.iters }
      let v := w.setLane n { w.laneAt n with frame := f' }
      let data := (List.range f'.codewords).flatMap (fun i =>
        match f'.results.find? (fun y => y.index == i) with
        | some y => y.bytes
        | none => [])
      exec (.decodingJobEnd d) s = .next (
        if (w.laneAt n).state = .drain ∧ (w.laneAt n).lock.deep = true ∧ f'.results.length = f'.codewords then
          v.enterReady n (lastN 4 data == bytesLe 4 (crc32 (data.take f'.len)))
        else v))) ∧
  (∀ (s : State) (n : LaneIx) (air : List Int), (s.laneAt n).state = .payload →
    let l := s.laneAt n
    let u := s.setLane n { l with state := .drain, endedWindow := true }
    (l.lock.deep = true → l.frame.results.length ≠ l.frame.codewords → exec (.lastOnAirBit n air) s = .next u) ∧
    (l.lock.deep = false → exec (.lastOnAirBit n air) s = .next (((u.sunPsdu n air).1.writeBuffer n 0 (u.sunPsdu n air).2).enterReady n
      (fcsGood l.frame.hdr (u.sunPsdu n air).2)) ∧ (u.sunPsdu n air).2.length = l.frame.len)) ∧
  (∀ (s : State) (n : LaneIx) (good : Bool),
    let l := s.laneAt n
    let f := l.frame
    let t := s.enterReady n good
    let status := if f.worldViol then 3 else if f.failed ≠ 0 then 2 else if good then 0 else 1
    s.canonical = true → f.len < 4096 → f.prof < 8 → f.errs < 8 → l.lock.srch < 4 → f.tsOff < 2 ^ 17 → f.tsAsn < 2 ^ 40 → f.hdr < 2 ^ 24 → f.rssi < 256 → f.gidx < 16 →
      (t.laneAt n).state = .ready ∧ t.get (F.LAN_FD0_STATUS n.val) = status ∧ t.get (F.LAN_FD0_LEN n.val) = f.len ∧
      t.get (F.LAN_FD0_PROF n.val) = f.prof ∧ t.get (F.LAN_FD0_FAM n.val) = bit01 l.lock.deep ∧ t.get (F.LAN_FD0_ERRS n.val) = f.errs ∧
      t.get (F.LAN_FD0_SRCH n.val) = l.lock.srch ∧ t.flag (F.LAN_FD0_PREEMPT n.val) = f.marks.preempt ∧
      t.flag (F.LAN_FD0_RESUMED n.val) = f.marks.resumed ∧ t.flag (F.LAN_FD0_CLIP n.val) = f.marks.clip ∧
      t.flag (F.LAN_FD0_DESENSE n.val) = f.marks.desense ∧ t.flag (F.LAN_FD0_DIV n.val) = f.marks.div ∧
      t.get (F.LAN_FD1_RSSI n.val) = f.rssi ∧ t.get (F.LAN_FD1_GIDX n.val) = f.gidx ∧
      t.get (F.LAN_TS_LO_OFF n.val) = f.tsOff ∧ t.get (F.LAN_TS_LO_SLOT_L n.val) + 2 ^ 15 * t.get (F.LAN_TS_HI_SLOT_H n.val) = f.tsAsn ∧
      t.get (F.LDP_HDR_HDR n.val) = f.hdr ∧ t.get (F.LAN_FRAMES_COUNT n.val) = (s.bump (F.LAN_FRAMES_COUNT n.val)).get (F.LAN_FRAMES_COUNT n.val) ∧
      t.get (F.LAN_DECERR_COUNT n.val) =
        (if status = 2 then (s.bump (F.LAN_DECERR_COUNT n.val)).get (F.LAN_DECERR_COUNT n.val) else s.get (F.LAN_DECERR_COUNT n.val)) ∧
      t.get (F.LAN_FCSERR_COUNT n.val) =
        (if status = 1 then (s.bump (F.LAN_FCSERR_COUNT n.val)).get (F.LAN_FCSERR_COUNT n.val) else s.get (F.LAN_FCSERR_COUNT n.val)) ∧
      t.events = s.events ++ (match l.evt with
        | some ch => [.hw n.val ch]
        | none => [])) ∧
  (∀ (s : State) (n : LaneIx) (off : Nat) (bs : List Byte), s.canonical = true → s.ready 9 = true → off + bs.length ≤ 2048 →
    let t := s.writeBuffer n off bs
    let place := 0x10400000 + 0x800 * n.val + off
    ((∀ i : Nat, i < bs.length → s.blockNS 9 = false ∨ s.memNS (place + i) = true) →
      (∀ a : Nat, t.byte a = if place ≤ a ∧ a < place + bs.length then bs.getD (a - place) 0 else s.byte a) ∧ t.lane = s.lane) ∧
    (bs ≠ [] → s.blockNS 9 = true → s.memNS place = false → t.mem = s.mem ∧ (t.laneAt n).frame.worldViol = true))

/-- RELEASE, RESTART, RECALA, RECALB and the end of a calibration (02_receive_path.md R67, R69, R70, R79, R487, 01_system_map.md
R28). -/
def Obligations.ReleaseRestartAndRecalibration : Prop :=
  (∀ (s : State) (r : Req) (n : LaneIx), s.admits r.val (Reg.LAN_CTL n.val) true = true →
    let c := s.served r.val (Reg.LAN_CTL n.val)
    let st := (s.laneAt n).state
    (st = .ready → exec (.release r n) s = .next ((c.setLane n ((s.laneAt n).idle (s.listens n))).answered 0)) ∧
    (st ≠ .ready → exec (.release r n) s = .next (c.answered 0)) ∧
    (st = .ready → exec (.restart r n) s = .next ((c.setLane n ((s.laneAt n).idle (s.listens n))).answered 0)) ∧
    (st = .off ∨ st = .search ∨ st = .blank → exec (.restart r n) s = .next (c.answered 0)) ∧
    (st = .header ∨ st = .payload ∨ st = .drain →
      exec (.restart r n) s = .next ((((c.dropCodewords n).bump (F.LAN_ABORT_COUNT n.val)).setLane n
        ((s.laneAt n).idle (s.listens n))).answered 0))) ∧
  (∀ (s : State) (r : Req), s.admits r.val Reg.RXC_CMD true = true →
    let u := s.served r.val Reg.RXC_CMD
    let lost (t : State) (m : LaneIx) : Bool := ((s.laneAt m).state == .header || (s.laneAt m).state == .payload) &&
      (t.laneGoes m (s.laneAt m).state != (s.laneAt m).state)
    let noted (c : Chain) (k : Nat) : Prop := k = Reg.RXC_STAT (chainNo c) ∨ k = Reg.SYS_READY ∨ ∃ m : LaneIx, k = Reg.LAN_ABORT m.val
    let begun (c : Chain) (t : State) : Prop :=
      t.flag (F.RXC_STAT_CAL (chainNo c)) = true ∧ t.bit Reg.SYS_READY (24 + chainNo c) = false ∧
      t.chainAt c = { s.chainAt c with clipWindow := false, busyWindow := false, sinceClip := none, settling := false } ∧
      t.chainAt (otherChain c) = s.chainAt (otherChain c) ∧
      (∀ m : LaneIx, (t.laneAt m).state = t.laneGoes m (s.laneAt m).state ∧
        t.get (F.LAN_ABORT_COUNT m.val) = (if lost t m then s.bump (F.LAN_ABORT_COUNT m.val) else s).get (F.LAN_ABORT_COUNT m.val)) ∧
      (∀ m : LaneIx, t.laneGoes m (s.laneAt m).state = (s.laneAt m).state → t.laneAt m =
        if laneChain m = c then { s.laneAt m with endedWindow := false } else s.laneAt m) ∧
      (∀ k : Nat, ¬ noted c k → t.reg k = s.reg k) ∧
      t.act = s.act ∧ t.mem = s.mem ∧ t.sfm = s.sfm ∧ t.eng = s.eng ∧ t.err = false
    (s.canonical = true → s.chainEnabled .a = true → ∃ t : State, exec (.recalA r) s = .next t ∧ begun .a t) ∧
    (s.canonical = true → s.chainEnabled .b = true → ∃ t : State, exec (.recalB r) s = .next t ∧ begun .b t) ∧
    (s.chainEnabled .a = false → exec (.recalA r) s = .next (u.answered 0)) ∧
    (s.chainEnabled .b = false → exec (.recalB r) s = .next (u.answered 0))) ∧
  (∀ (s : State) (c : Chain),
    let noted (c : Chain) (k : Nat) : Prop := k = Reg.RXC_STAT (chainNo c) ∨ k = Reg.SYS_READY ∨ ∃ m : LaneIx, k = Reg.LAN_ABORT m.val
    (s.canonical = true → s.flag (F.RXC_STAT_CAL (chainNo c)) = true → s.awake = true →
      ∃ t : State, exec (.synthCalibrationComplete c) s = .next t ∧ t.flag (F.RXC_STAT_CAL (chainNo c)) = false ∧
        t.bit Reg.SYS_READY (24 + chainNo c) = true ∧ (∀ m : LaneIx, (t.laneAt m).state = t.laneGoes m (s.laneAt m).state) ∧
        (∀ m : LaneIx, t.laneGoes m (s.laneAt m).state = (s.laneAt m).state → t.laneAt m = s.laneAt m) ∧
        (∀ k : Nat, ¬ noted c k → t.reg k = s.reg k) ∧
        t.act = s.act ∧ t.mem = s.mem ∧ t.sfm = s.sfm ∧ t.eng = s.eng ∧ t.chain = s.chain) ∧
    (s.flag (F.RXC_STAT_CAL (chainNo c)) = false ∨ s.awake = false → exec (.synthCalibrationComplete c) s = .next s))

/-- What the chains' measurements leave in the registers (02_receive_path.md R47, R48, R50, R51, R52, R53, R54, R56, R76, R80, R81,
03_frames_and_coding.md R110). The model's choice: a clip that marks a descriptor already READY (log entry 116). -/
def Obligations.ChainMeasurements : Prop :=
  (∀ p : Nat, -127 ≤ dbmRounded p ∧ dbmRounded p ≤ 127 ∧
    (dbmRounded p = -127 ∨ 10 ^ (2 * dbmRounded p + 299).toNat ≤ p ^ 20) ∧
    ∀ d : Int, dbmRounded p < d → d ≤ 127 → p ^ 20 < 10 ^ (2 * d + 299).toNat) ∧
  ∀ (s : State) (c : Chain) (n : LaneIx),
    let k := chainNo c
    let x := s.chainAt c
    let listens : Bool := s.chainEnabled c && !s.chainDark c
    (listens = true → ∀ peak : Int,
      let p := max (-90) (min 24 ((peak + 50) / 100))
      let idx := s.get (F.RXC_STAT_IDX k)
      let hi : Int := s.getA (F.RXC_GAIN_HI k)
      let lo : Int := max (s.getA (F.RXC_GAIN_LO k)) (hi + 7)
      let next : Nat :=
        if x.busyWindow || s.chainHolds c then idx
        else if s.flagA (F.RXC_GAIN_FIXED k) then min 11 (s.getA (F.RXC_GAIN_FIXED_IDX k))
        else if -hi < p then idx - min 4 (((p + hi).toNat + 5) / 6)
        else if p < -lo ∧ idx < min 11 (s.getA (F.RXC_GAIN_MAX_IDX k)) then idx + 1
        else idx
      exec (.decisionWindowEnd c peak) s = .next ((((s.put (F.RXC_STAT_PEAK k) (ofSigned 8 p)).put (F.RXC_STAT_IDX k) next).setChain c
        { x with clipWindow := false, busyWindow := s.chainHolds c
                 sinceClip := match x.sinceClip with
                   | some j => if j < 1000 then some (j + 1) else none
                   | none => none
                 settling := x.settling || next != idx }).each (chainLanes c)
          (fun s n => s.setLane n { s.laneAt n with endedWindow := false }))) ∧
    (listens = false → ∀ peak : Int, exec (.decisionWindowEnd c peak) s = .next s) ∧
    (x.settling = true → ∃ t : State, exec (.gainSettled c) s = .next t ∧ t.chainAt c = { x with settling := false } ∧
      t.chainAt (otherChain c) = s.chainAt (otherChain c) ∧
      (∀ m : LaneIx, t.laneAt m =
        if laneChain m = c ∧ (s.laneAt m).state = .search then (s.laneAt m).idle .search else s.laneAt m) ∧
      t.regs = s.regs ∧ t.act = s.act ∧ t.mem = s.mem ∧ t.sfm = s.sfm) ∧
    (x.settling = false → exec (.gainSettled c) s = .next s) ∧
    (listens = true → x.clipWindow = false → ∃ t : State, exec (.adcClip c) s = .next t ∧
      t.pulses = s.pulses ++ [64 + k] ∧ t.get (F.RXC_CLIP_COUNT k) = (s.bump (F.RXC_CLIP_COUNT k)).get (F.RXC_CLIP_COUNT k) ∧
      t.chainAt c = { x with clipWindow := true, sinceClip := some 0 } ∧ t.chainAt (otherChain c) = s.chainAt (otherChain c) ∧
      (∀ m : LaneIx,
        let l := s.laneAt m
        t.laneAt m = (if laneChain m = c ∧ (l.state = .header ∨ l.state = .payload ∨ (l.state = .drain ∧ l.endedWindow = true)) then
            { l with frame := { l.frame with marks := { l.frame.marks with clip := true } } } else l) ∧
        t.get (F.LAN_FD0_CLIP m.val) =
          (if laneChain m = c ∧ l.state = .ready ∧ l.endedWindow = true then 1 else s.get (F.LAN_FD0_CLIP m.val))) ∧
      t.act = s.act ∧ t.mem = s.mem ∧ t.sfm = s.sfm ∧ t.events = s.events) ∧
    (listens = false ∨ x.clipWindow = true → exec (.adcClip c) s = .next s) ∧
    (∀ i q : BitVec 16, exec (.dcLoopLimit c i q) s = .next (
      if s.chainEnabled c && s.chainReady c then ((s.put (F.RXC_DC_I k) i.toNat).put (F.RXC_DC_Q k) q.toNat).put F.RXC_ERR_DCSAT 1
      else s)) ∧
    (∀ p : Nat,
      let u := s.put (F.LAN_RSSI_NOISE n.val) (ofSigned 8 (dbmRounded p))
      let e : LaneIx := if s.diversity ∧ 48 ≤ n.val then partner n else n
      ((s.laneAt n).state = .search → s.running = true →
        exec (.noiseMeasurementComplete n p) s = .next (u.setLane e { s.laneAt e with noise := (s.laneAt e).noise ++ [p] })) ∧
      ((s.laneAt n).state = .search → s.running = false → exec (.noiseMeasurementComplete n p) s = .next u) ∧
      ((s.laneAt n).state ≠ .search → exec (.noiseMeasurementComplete n p) s = .next s)) ∧
    (∀ err : Int,
      let l := s.laneAt n
      let f0 := 64 * l.frame.ferr0
      exec (.frequencyCorrection n err) s = .next (
        if (l.state = .header ∨ l.state = .payload) ∧ l.track = true then
          s.setLane n { l with ferr64 := max (f0 - 12800) (min (f0 + 12800) (l.ferr64 + err)) }
        else s)) ∧
    (∀ code : BitVec 16,
      let want := s.get F.WKR_CODE_CODE
      let hit : Bool := s.flag F.WKR_CTL_EN && want != 0 && want != 0xFFFF && s.pwrState != 4 &&
        decide (popCount 16 (code.toNat ^^^ want) ≤ min (s.get F.WKR_CTL_TOL) 2)
      (hit = true → exec (.wakeCodeMatch code) s = .next (((s.put F.WKR_STAT_MATCH 1).bump F.WKR_COUNT_COUNT).signalWake 1) ∧
        (((s.put F.WKR_STAT_MATCH 1).bump F.WKR_COUNT_COUNT).signalWake 1).bit Reg.PWR_WAKECAUSE 1 = true) ∧
      (hit = false → exec (.wakeCodeMatch code) s = .next s))

/-- RUN, ADJ, SUBMIT, CANCEL, RESULT, HEARD and MISS (04_superframe.md R115, R116, R126, R127, R134, 05_cistern_security.md R151,
R152, R160, R161, 09_pair_siphon.md R294, R295, R302). The model's choice: that a shift acts on the slot in progress (log entry 47),
QUEUE_FULL before DUPLICATE (120), and that a part which follows a primary ignores RUN (126). -/
def Obligations.SuperframeCommands : Prop :=
  (∀ s : State, s.running = true ∨ s.get F.AGE_STAT_STATE = 0 → s.planSettled = s) ∧
  (∀ (s : State) (i e : Nat), s.canonical = true → i < 262144 →
    let t := s.setEntry i e
    (s.entry i = e % 2 ^ 128 → t = s) ∧
    (s.entry i ≠ e % 2 ^ 128 → t.entry i = e % 2 ^ 128 ∧
      (∀ a : Nat, a < 0x10000000 + 16 * i ∨ 0x10000010 + 16 * i ≤ a → t.byte a = s.byte a) ∧
      (t.reg Reg.CST_SUM).toNat = ((s.reg Reg.CST_SUM).toNat ^^^ s.entryHash i ^^^ t.entryHash i) % 2 ^ 32 ∧
      (∀ k : Nat, k ≠ Reg.CST_SUM → t.reg k = s.reg k) ∧
      (s.pairState = 3 → (∀ x ∈ s.sph.dirty, x.1 ≤ x.2) → t.sph.dirty.any (fun x => decide (x.1 ≤ i ∧ i ≤ x.2)) = true) ∧
      (s.pairState ≠ 3 → t.sph = s.sph))) ∧
  ∀ (s : State) (r : Req), s.canonical = true →
    let c (k : Nat) : State := s.served r.val k
    let result (t : State) (outcome desc : Nat) : State :=
      if 256 ≤ t.sfm.results.length then t.put F.SFM_STAT_RESOVF 1
      else
        let u := { t with sfm := { t.sfm with results := t.sfm.results ++ [⟨outcome, 0, desc⟩] } }
        if s.flag F.SFM_RESCFG_EVT then { u with events := u.events ++ [.hw 0x10C (s.get F.SFM_RESCFG_EVCH)] } else u
    (s.admits r.val Reg.SFM_CTL true = true →
      let follows : Bool := s.sph.timed && (s.pairState == 2 || s.pairState == 4 || s.pairState == 5)
      let on (sfm : Sfm) : State := { (c Reg.SFM_CTL).setReg Reg.SFM_CTL (s.reg Reg.SFM_CTL ||| 1) with
        sfm := sfm, fdr := { s.fdr with realign := s.fdr.realign || (!s.running && s.flag F.FDR_CTL_ALIGN) } }
      let off (sfm : Sfm) : State := { (c Reg.SFM_CTL).setReg Reg.SFM_CTL (s.reg Reg.SFM_CTL &&& 0xFFFFFFFE) with
        sfm := sfm, fdr := { s.fdr with realign := s.running && s.fdr.realign } }
      (follows = true ∨ s.flag F.SFM_CTL_RUN = true → exec (.sfmRunStart r) s = .next ((c Reg.SFM_CTL).answered 0)) ∧
      (follows = true ∨ s.flag F.SFM_CTL_RUN = false → exec (.sfmRunStop r) s = .next ((c Reg.SFM_CTL).answered 0)) ∧
      (follows = false → s.flag F.SFM_CTL_RUN = false → exec (.sfmRunStart r) s = .next ((
        if s.running then on { s.sfm with stopPend := false } else on { s.sfm with startPend := true }).planSettled.answered 0)) ∧
      (follows = false → s.flag F.SFM_CTL_RUN = true →
        let u := if s.running then off { s.sfm with stopPend := true } else off { s.sfm with startPend := false, adopt := none }
        exec (.sfmRunStop r) s = .next (u.planSettled.answered 0))) ∧
    (∀ shift : BitVec 24, s.admits r.val Reg.SFM_ADJ true = true →
      let now := max (-8) (min 8 shift.toInt)
      let adj (sfm : Sfm) : State := { c Reg.SFM_ADJ with sfm := sfm }
      exec (.sfmAdj r shift) s = .next ((
        if s.pairState ≠ 0 ∧ s.pairState ≠ 3 then c Reg.SFM_ADJ
        else if s.running ∧ s.sfm.slotLen = 80000 then
          adj { s.sfm with slotLen := (80000 + now).toNat, slew := shift.toInt - now }
        else adj { s.sfm with slew := shift.toInt }).answered 0)) ∧
    (∀ (mode : BitVec 2) (index : BitVec 18) (desc : BitVec 12), s.admits r.val Reg.SFM_SUBMIT true = true →
      let u : State := { c Reg.SFM_SUBMIT with sfm :=
        { s.sfm with pend := s.sfm.pend ++ [⟨s.sfm.nextOrd, desc.toNat, index.toNat, mode.toNat⟩], nextOrd := s.sfm.nextOrd + 1 } }
      exec (.sfmSubmit r mode index desc) s = .next ((
        if s.pairState = 4 then c Reg.SFM_SUBMIT
        else if 1024 ≤ s.sfm.pend.length then result (c Reg.SFM_SUBMIT) 2 desc.toNat
        else if s.sfm.pend.any (fun x => x.desc == desc.toNat) then result (c Reg.SFM_SUBMIT) 3 desc.toNat
        else u.mirrorRequest desc.toNat index.toNat mode.toNat).answered 0) ∧
      (s.peerFollows = false → s.sph.handover = none → u.mirrorRequest desc.toNat index.toNat mode.toNat = u)) ∧
    (∀ desc : BitVec 12, s.admits r.val Reg.SFM_CANCEL true = true →
      let u := result ({ c Reg.SFM_CANCEL with sfm :=
        { s.sfm with pend := s.sfm.pend.filter (fun x => x.desc != desc.toNat) } }) 4 desc.toNat
      exec (.sfmCancel r desc) s = .next ((
        if s.sfm.pend.any (fun x => x.desc == desc.toNat) then u.mirrorDone desc.toNat 4 else c Reg.SFM_CANCEL).answered 0) ∧
      (s.peerFollows = false → s.sph.handover = none → u.mirrorDone desc.toNat 4 = u)) ∧
    (s.admits r.val Reg.SFM_RESULT false = true → s.snapOf r.val Reg.SFM_RESULT = none →
      (s.sfm.results = [] → exec (.sfmResult r) s = .next ((c Reg.SFM_RESULT).answered 0)) ∧
      (∀ (x : SfmResult) (rest : List SfmResult), s.sfm.results = x :: rest →
        exec (.sfmResult r) s = .next (({ c Reg.SFM_RESULT with sfm := { s.sfm with results := rest } } : State).answered
          (BitVec.ofNat 32 (2 ^ 31 + x.outcome % 16 * 2 ^ 27 + x.slot % 4096 * 2 ^ 12 + x.desc % 4096))))) ∧
    (∀ index : BitVec 18,
      let e := s.entry index.toNat
      let updates : Bool := s.ready 13 && (s.pairState == 0 || s.pairState == 3)
      (s.admits r.val Reg.SFM_MISS true = true → exec (.sfmMiss r index) s = .next ((
        if updates then (c Reg.SFM_MISS).setEntry index.toNat (setBits e 1 2 (min 3 (entMiss e + 1))) else c Reg.SFM_MISS).answered 0)) ∧
      (∀ err : BitVec 14, s.admits r.val Reg.SFM_HEARD true = true →
        let sf := s.sfm.asn.toNat / 128 % 65536
        let age := (sf + 65536 - entHeard e) % 65536
        let drift := if entSleepy e ∧ 1 ≤ age ∧ err.toInt ≠ -8192 then
            max (-128) (min 127 ((entDrift e + err.toInt.tdiv age).tdiv 2)) else entDrift e
        exec (.sfmHeard r err index) s = .next ((if updates then (c Reg.SFM_HEARD).setEntry index.toNat
          (setBits (setBits (setBits (setBits e 28 16 sf) 1 2 0) 3 1 0) 12 8 (ofSigned 8 drift)) else c Reg.SFM_HEARD).answered 0)))

/-- Slot and superframe boundaries; a stop comes at the boundary; the first slot is ASNSET (04_superframe.md R114, R115, R116, R118,
R122, R135, R144, R146, 01_system_map.md R36, R37, 03_frames_and_coding.md R110, 11_feeder_io.md R363). The model's choice: the
clock, the slot kept from before a stop and the time stood still (log entry 25), the end of a quiet superframe at a stop (121),
times counted in slots of nominal length (48), a stop that takes the boundary's place (111) and the noise of stopped slots dropped
at a start (131). -/
def Obligations.SlotsAdvance : Prop :=
  (∀ s : State, s.tryRequests [] = s ∧ ∀ (q : TxReq) (qs : List TxReq),
    s.tryRequests (q :: qs) = if (s.tryRequest q).2 then (s.tryRequest q).1 else (s.tryRequest q).1.tryRequests qs) ∧
  ∀ (s : State) (dt : Nat), s.canonical = true →
    let now := max (-8) (min 8 s.sfm.slew)
    let begun (t : State) (asn : Nat) : Prop :=
      t.sfm.asn = BitVec.ofNat 40 asn ∧ (t.sfm.slotLen : Int) = 80000 + now ∧ t.sfm.slew = s.sfm.slew - now ∧ t.sfm.offSeen = 0 ∧
        t.sfm.prevAsn = s.sfm.asn.toNat ∧ t.fdr = { s.fdr with realign := false } ∧ t.pending = s.pending ∧ t.sfm.stopPend = false
    let back (d : Int) (l : Launch) : Launch := { l with first := l.first - d, occStart := l.occStart - d, occEnd := l.occEnd - d }
    let nearer (d : Int) (occ : List (Int × Int)) : List (Int × Int) :=
      (occ.map (fun o => (o.1 - d, o.2 - d))).filter (fun o => decide (0 < o.2))
    let summed (k : Nat) : Prop := ∃ n : Fin 16, k = Reg.BKT_USED n.val
    let next := (s.sfm.asn.toNat + 1) % 2 ^ 40
    (s.running = true → s.sfm.stopPend = false →
      ∃ t : State, exec (.slotBoundary dt) s = .next t ∧ begun t next ∧ t.sfm.clock = s.sfm.clock + s.sfm.slotLen ∧
        t.sfm.prevLen = s.sfm.slotLen ∧ t.sfm.pause = 0 ∧ t.running = true ∧
        (next % 128 ≠ 0 → (s.sfm.pend = [] → t.mem = s.mem) ∧
          (∀ a, a < 0x10000000 ∨ 0x10400000 ≤ a → t.byte a = s.byte a) ∧ t.eng = s.eng ∧ t.lane = s.lane ∧ t.cip = s.cip ∧ t.act = s.act ∧ t.tmr = s.tmr ∧
          (s.sfm.pend = [] → s.flagA F.SFM_BCN_EN = false ∨ (next + 2) % 128 ≠ 0 →
            (∀ k, ¬ summed k → t.reg k = s.reg k) ∧ t.sfm.launches = s.sfm.launches.map (back 80000) ∧
            t.sfm.occ = nearer 80000 s.sfm.occ ∧ t.sfm.results = s.sfm.results ∧ t.events = s.events ∧ t.pulses = s.pulses)) ∧
        (next % 128 = 0 → s.sfm.pend = [] → s.sfm.launches = [] → s.get F.AGE_STAT_STATE = 0 →
          let commits (w : Fin 2) : Bool := s.flag (F.SYS_STAGE_CTL_ARM w.val) &&
            (s.flag (F.SYS_STAGE_CTL_GAP w.val) || !s.needsGap (s.activate (decide (w = 1))))
          let gap (w : Fin 2) : Bool := s.flag (F.SYS_STAGE_CTL_ARM w.val) && s.flag (F.SYS_STAGE_CTL_GAP w.val)
          (∀ w : Fin 2, (s.flag (F.SYS_STAGE_CTL_ARM w.val) = true →
              t.get (F.SYS_STAGE_CTL_ARM w.val) = 0 ∧ t.get (F.SYS_STAGE_CTL_GAP w.val) = 0 ∧
              t.get (F.SYS_STAGE_STAT_RESULT w.val) = (if commits w then 1 else 2) ∧ (2 + w.val) ∈ t.pulses) ∧
            t.flag (F.SYS_STAGE_STAT_QUIET w.val) = gap w) ∧
          (∀ (k : Nat) (x : RegRow), rowAt (k % 0x100000000) = some x → t.activeReg k =
            (if commits (if s.blockNS (keyBlock k) then 1 else 0) then
              (s.activeReg k &&& ~~~(BitVec.ofNat 32 x.st)) ||| (s.reg k &&& BitVec.ofNat 32 x.st) else s.activeReg k)) ∧
          t.get F.SYS_EPOCH_EPOCH = (s.get F.SYS_EPOCH_EPOCH + bit01 (commits 0 || commits 1)) % 2 ^ 32 ∧
          t.sfm.quiet = (gap 0 || gap 1) ∧
          (∀ n : Fin 1024, t.get (F.SFM_QCR_CREDIT n.val) = if t.flagA F.SFM_CTL_QEN then
              min (s.get (F.SFM_QCR_CREDIT n.val) + t.getA (F.SFM_QRATE_RATE n.val)) (16 * max 1 (t.getA (F.SFM_QRATE_BURST n.val)))
            else s.get (F.SFM_QCR_CREDIT n.val)) ∧
          (∀ i : Nat, i < 262144 →
            let e := s.entry i
            t.entry i = if i / 64 = next / 128 % 4096 ∧ s.ready 13 = true ∧ s.ownsCistern = true ∧ entSleepy e = true ∧
                32768 ≤ (next / 128 % 65536 + 65536 - entHeard e) % 65536 then setBits e 1 2 3 else e) ∧
          (∀ n : LaneIx, (t.laneAt n).noise = []))) ∧
    (s.running = true → s.sfm.stopPend = true →
      ∃ t : State, exec (.slotBoundary dt) s = .next t ∧ t.running = false ∧
        t.sfm = { s.sfm with clock := s.sfm.clock + s.sfm.slotLen, prevAsn := s.sfm.asn.toNat, prevLen := s.sfm.slotLen
                             pause := 0, slotLen := 80000, stopPend := false, quiet := false, withheld := false
                             launches := s.sfm.launches.map (back 80000), occ := nearer 80000 s.sfm.occ } ∧
        t.flag (F.SYS_STAGE_STAT_QUIET 0) = false ∧ t.flag (F.SYS_STAGE_STAT_QUIET 1) = false ∧
        t.mem = s.mem ∧ t.eng = s.eng ∧ t.lane = s.lane ∧ t.cip = s.cip ∧ t.fdr = { s.fdr with realign := false } ∧
        t.get F.SFM_BCNSKIP_COUNT = (if s.sfm.withheld then s.bump F.SFM_BCNSKIP_COUNT else s).get F.SFM_BCNSKIP_COUNT ∧
        (s.get F.AGE_STAT_STATE = 0 → ∀ k, k ≠ Reg.SFM_STAT → k ≠ Reg.SFM_BCNSKIP → k ≠ Reg.SYS_STAGE_STAT 0 → k ≠ Reg.SYS_STAGE_STAT 1 →
          t.reg k = s.reg k)) ∧
    (s.running = false → exec (.slotBoundary dt) s = .next s) ∧
    (∀ gap : Nat, s.running = false → s.sfm.startPend = true → s.flag (F.SYS_STAGE_CTL_ARM 0) = false →
      s.flag (F.SYS_STAGE_CTL_ARM 1) = false → s.sfm.stopPend = false → s.sph.acct = [] →
      let asn := match s.sfm.adopt with
        | some n => n
        | none => s.get F.SFM_ASNSET_LO_SET_L + s.get F.SFM_ASNSET_HI_SET_H * 2 ^ 32
      asn < 2 ^ 40 →
      ∃ t : State, exec (.firstSlotStart dt gap) s = .next t ∧ begun t asn ∧ t.sfm.clock = s.sfm.clock + gap ∧ t.sfm.prevLen = s.sfm.prevLen ∧ t.sfm.pause = gap ∧
        t.running = true ∧ t.sfm.startPend = false ∧ t.sfm.adopt = none ∧ (∀ n : LaneIx, (t.laneAt n).noise = []) ∧
        (asn % 128 ≠ 0 → s.sfm.pend = [] → s.flagA F.SFM_BCN_EN = false → t.mem = s.mem ∧ t.eng = s.eng ∧ t.cip = s.cip ∧
          t.sfm.launches = s.sfm.launches.map (back gap) ∧ t.sfm.occ = nearer gap s.sfm.occ ∧
          ∀ k, ¬ summed k → k ≠ Reg.SFM_STAT → t.reg k = s.reg k)) ∧
    (∀ gap : Nat, s.running = true ∨ s.sfm.startPend = false ∨ s.flag (F.SYS_STAGE_CTL_ARM 0) = true ∨
      s.flag (F.SYS_STAGE_CTL_ARM 1) = true → exec (.firstSlotStart dt gap) s = .next s)

/-- Updates, route queries, clears and writes of the Cistern and the key store (05_cistern_security.md R153, R154, R155, R156, R157,
R159, R160, R161, R163, R164, 09_pair_siphon.md R294). -/
def Obligations.CisternCommands : Prop :=
  ∀ (s : State) (r : Req), s.canonical = true →
    (s.admits r.val (Reg.CST_UGO 0) true = true →
      let c := s.served r.val (Reg.CST_UGO r.val)
      let i := s.get (F.CST_UIDX_INDEX r.val)
      let old := s.entry i
      let words (k : Nat → Nat) : Nat :=
        (s.reg (k 0)).toNat + (s.reg (k 1)).toNat * 2 ^ 32 + (s.reg (k 2)).toNat * 2 ^ 64 + (s.reg (k 3)).toNat * 2 ^ 96
      let mask := words (Reg.CST_UMASK r.val)
      let shows (t : State) (e : Nat) : State :=
        (((t.setReg (Reg.CST_UOLD r.val 0) (BitVec.ofNat 32 e)).setReg (Reg.CST_UOLD r.val 1) (BitVec.ofNat 32 (e / 2 ^ 32))).setReg
          (Reg.CST_UOLD r.val 2) (BitVec.ofNat 32 (e / 2 ^ 64))).setReg (Reg.CST_UOLD r.val 3) (BitVec.ofNat 32 (e / 2 ^ 96))
      ((s.reqNS r.val && !s.memNS (entryAddr i)) = true → exec (.cstUgo r) s = .next ((shows
        ((c.violation (0x10000000 + 16 * i) true r.val).put (F.CST_USTAT_RESULT r.val) 2) 0).answered 0)) ∧
      ((s.reqNS r.val && !s.memNS (entryAddr i)) = false →
        (s.ownsCistern = true →
          (s.flag (F.CST_UIDX_CMP r.val) = false ∨ old &&& mask = words (Reg.CST_UEXP r.val) &&& mask →
            exec (.cstUgo r) s = .next ((((shows c old).setEntry i ((old &&& (mask ^^^ (2 ^ 128 - 1))) |||
              (words (Reg.CST_UVAL r.val) &&& mask))).put (F.CST_USTAT_RESULT r.val) 0).answered 0)) ∧
          (s.flag (F.CST_UIDX_CMP r.val) = true → old &&& mask ≠ words (Reg.CST_UEXP r.val) &&& mask →
            exec (.cstUgo r) s = .next (((shows c old).put (F.CST_USTAT_RESULT r.val) 1).answered 0))) ∧
        (s.ownsCistern = false →
          exec (.cstUgo r) s = .next ((shows (c.put (F.CST_USTAT_RESULT r.val) 2) 0).answered 0)))) ∧
    (∀ index : BitVec 18, s.admits r.val (Reg.CST_RQ 0) true = true →
      let c := s.served r.val (Reg.CST_RQ r.val)
      (∀ f d : Nat, s.route index.toNat = some (f, d) → exec (.cstRq r index) s = .next ((c.setReg (Reg.CST_RA r.val)
        (BitVec.ofNat 32 (2 ^ 31 + d % 64 * 2 ^ 24 + f % 2 ^ 18))).answered 0)) ∧
      (s.route index.toNat = none → exec (.cstRq r index) s = .next ((({ c with free := s.free + 2 } : State).setReg (Reg.CST_RA r.val)
        (BitVec.ofNat 32 (Config.freeNat (s.free + 1) % 64 * 2 ^ 24 + Config.freeNat s.free % 2 ^ 18))).answered 0))) ∧
    (∀ i : Nat, s.route i = s.routeFrom 33 i 0 ∧ ∀ fuel d : Nat, s.routeFrom 0 i d = none ∧ s.routeFrom (fuel + 1) i d =
      if !entValid (s.entry i) || (d != 0 && !entRelay (s.entry i)) then none
      else if entParent (s.entry i) = i then some (i, d) else s.routeFrom fuel (entParent (s.entry i)) (d + 1)) ∧
    (s.admits r.val Reg.CST_CTL true = true →
      let c := s.served r.val Reg.CST_CTL
      (s.ownsCistern = true →
        exec (.clear r) s = .next (((c.put F.CST_STAT_CLEARING 1).setBit Reg.SYS_READY 13 false).answered 0)) ∧
      (s.ownsCistern = false → exec (.clear r) s = .next (c.answered 0))) ∧
    (s.flag F.CST_STAT_CLEARING = true → s.awake = true →
      ∃ t : State, exec .cisternClearComplete s = .next t ∧ t.flag F.CST_STAT_CLEARING = false ∧ t.ready 13 = true ∧
        t.reg Reg.CST_SUM = 0 ∧ (∀ i, i < 262144 → t.entry i = 0) ∧
        (∀ a, a < 0x10000000 ∨ 0x10400000 ≤ a → t.byte a = s.byte a) ∧
        (∀ k, k ≠ Reg.CST_STAT → k ≠ Reg.SYS_READY → k ≠ Reg.CST_SUM → t.reg k = s.reg k) ∧
        t.sph = { s.sph with dirty := if s.pairState = 3 then [(0, 262143)] else s.sph.dirty } ∧ t.eng = s.eng ∧ t.cip = s.cip) ∧
    (s.flag F.CST_STAT_CLEARING = false ∨ s.awake = false → exec .cisternClearComplete s = .next s) ∧
    (∀ a v : Word, 0x10000000 ≤ a.toNat → a.toNat < 0x10400000 → a.toNat % 4 = 0 → s.canReach r.val = true → s.ready 13 = true →
      (s.reqNS r.val && !s.memNS a.toNat) = false →
      let i := (a.toNat - 0x10000000) / 16
      (s.ownsCistern = true ∨ r.val = 69 → ∃ t : State, exec (.cisternDirectWrite r a v) s = .next t ∧ t.err = false ∧ t.data = 0 ∧
        (∀ b : Nat, t.byte b = if a.toNat ≤ b ∧ b < a.toNat + 4 then BitVec.ofNat 8 (v.toNat / 2 ^ (8 * (b - a.toNat))) else s.byte b) ∧
        (t.reg Reg.CST_SUM).toNat = ((s.reg Reg.CST_SUM).toNat ^^^ s.entryHash i ^^^ t.entryHash i) % 2 ^ 32 ∧
        (∀ k, k ≠ Reg.CST_SUM → t.reg k = s.reg k) ∧ (s.pairState ≠ 3 → t.sph = s.sph) ∧
        (s.pairState = 3 → (∀ x ∈ s.sph.dirty, x.1 ≤ x.2) → t.sph.dirty.any (fun x => decide (x.1 ≤ i ∧ i ≤ x.2)) = true)) ∧
      (s.ownsCistern = false → r.val ≠ 69 →
        exec (.cisternDirectWrite r a v) s =
          .next { (s.takeTurn r.val (targetOf a.toNat)).portError r.val a.toNat with data := 0, err := true })) ∧
    (∀ (a v : Word) (w : Width), 0x107FC000 ≤ a.toNat → a.toNat < 0x10800000 → s.canReach r.val = true →
      let slot := (a.toNat - 0x107FC000) / 16
      let whole (t : State) (b : Bool) : State := t.setBit (Reg.CIP_KSV (slot / 32)) (slot % 32) b
      let failed (u : State) : Out := .next { u.portError r.val a.toNat with data := 0, err := true }
      (s.reqNS r.val = true → exec (.keyStoreWrite r a v w) s = failed (s.violation a.toNat true r.val)) ∧
      (s.reqNS r.val = false → s.ready 14 = false → exec (.keyStoreWrite r a v w) s = failed s) ∧
      (s.reqNS r.val = false → s.ready 14 = true → w = .word → a.toNat % 4 = 0 →
        ∃ t : State, exec (.keyStoreWrite r a v w) s = .next t ∧ t.err = false ∧ t.data = 0 ∧
          (∀ b : Nat, t.byte b = if a.toNat ≤ b ∧ b < a.toNat + 4 then BitVec.ofNat 8 (v.toNat / 2 ^ (8 * (b - a.toNat))) else s.byte b) ∧
          t.regs = (whole s (a.toNat % 16 == 12)).regs ∧
          (let left := s.cip.cache.filter (fun c => !(c.slot == slot || (c.k256 && c.slot + 1 == slot)))
           t.cip = if a.toNat % 16 = 12 then { s.cip with cache := left } else s.cip)) ∧
      (s.reqNS r.val = false → s.ready 14 = true → w ≠ .word ∨ a.toNat % 4 ≠ 0 →
        exec (.keyStoreWrite r a v w) s = .next ((whole (s.takeTurn r.val (targetOf a.toNat)) false).answered 0)))

/-- Job submission, the start and end of a job, and FLUSH (05_cistern_security.md R173, R174, R176, R179, R182, R184, R186, R187,
R190, 09_pair_siphon.md R296, R298, 14_flash_ageing.md R442). The model's choice: output written before the MIC's verdict and zeroed
after it, a failed one left at zero (log entry 57), COUNTER after TCEXH and REPLAY (59), DENIED of an encryption before the key
checks (60), counts kept when the record fails (157), the record's 18 index bits (58), a submission as six writes (114). -/
def Obligations.CipherJobs : Prop :=
  ∀ (s : State) (r : Req), s.canonical = true →
    (∀ (j : JobDesc), (∀ n : Fin 6, s.admits r.val (Reg.CIP_JD 0 n.val) true = true) →
      let desc (op : Nat) : JobDesc := { j with w0 := BitVec.ofNat 32 (setBits j.w0.toNat 28 4 op) }
      let filled (op : Nat) : State :=
        s.each [(0, (desc op).w0), (1, j.w1), (2, j.w2), (3, j.w3), (4, j.w4), (5, j.w5)] (fun t x =>
          ((t.served r.val (Reg.CIP_JD r.val x.1)).setReg (Reg.CIP_JD r.val x.1) x.2).answered 0)
      let taken (op : Nat) : State := (filled op).put (F.CIP_JSTAT_REFUSED r.val) 0
      let submitted (op : Nat) : Out := .next (
        if 64 ≤ s.cip.queue.length then (filled op).put (F.CIP_JSTAT_REFUSED r.val) 1
        else match s.submitStatus (desc op) (s.reqNS r.val) with
          | none => { taken op with cip := { s.cip with queue := s.cip.queue ++ [⟨desc op, s.reqNS r.val, r.val⟩] } }
          | some st =>
            if s.resRefused (desc op) (s.reqNS r.val) then (taken op).put F.CIP_STAT_LOSTREC 1
            else ((taken op).writeRecord (desc op) ⟨st, 0, false, 0, [], if op = 1 then 0 else jobIndex (desc op), 0⟩).1)
      exec (.deepEnc r j) s = submitted 0 ∧ exec (.deepDec r j) s = submitted 1 ∧ exec (.sunEnc r j) s = submitted 2 ∧
      exec (.sunDec r j) s = submitted 3 ∧ exec (.cmacGen r j) s = submitted 4 ∧ exec (.cmacVer r j) s = submitted 5 ∧
      exec (.prime r j) s = submitted 6) ∧
    (∀ (d : JobDesc) (ns : Bool) (st : Nat), s.submitStatus d ns = some st → st = 7 ∨ (st = 6 ∧ ns = true)) ∧
    (∀ (j : CipJob) (rest : List CipJob) (c : Fin 8), s.cip.queue = j :: rest → s.ready 14 = true → s.cip.core[c.val] = none →
      (∀ i : Fin 8, i < c → s.cip.core[i.val] ≠ none) →
      let q := { s with cip := { s.cip with queue := rest } }
      let op := jobOp j.d
      let replay (u : State) (run : CoreRun) (e fc : Nat) (nonce : List Byte) : State :=
        let run := { run with counter := fc, nonce := nonce }
        if fc ≤ entRc e then u.setCore c (some { run with ended := some 2 })
        else (u.takeKey run.index e).2.setCore c (some { run with key := (u.takeKey run.index e).1 })
      let checked (u : State) (run : CoreRun) (fc : Nat) : State :=
        let e := u.entry run.index
        let t := entTenant e
        let status : Option Nat :=
          if u.ready 13 = false then some 9
          else if entValid e = false ∨ entBarred e = true then some 4
          else if j.ns = true ∧ u.flagA (F.CIP_TEN_NS t) = false then some 6
          else if (op = 0 ∨ op = 2) ∧ u.ownsCistern = false then some 6
          else if (op = 2 ∨ op = 3) ∧ u.flagA (F.CIP_TEN_K256 t) = true then some 7
          else if u.noKey t = true then some 5
          else none
        match status with
        | some st => u.setCore c (some { run with ended := some st })
        | none =>
          if op = 0 ∨ op = 2 then
            let tc := u.liftTc run.index e
            if tc = 0xFFFFFF then u.setCore c (some { run with ended := some 3 })
            else
              let v := ((u.setEntry run.index (setBits e 44 24 (tc + 1))).noteLifted run.index).syncEntry run.index
              let k := v.1.takeKey run.index e
              let nonce := if op = 0 then deepNonce t run.index 0 tc run.level else sunNonce u.selfAddr tc run.level
              k.2.setCore c (some { run with counter := tc, key := k.1, waitSeq := v.2, nonce := nonce })
          else if op = 1 then replay u run e fc (deepNonce t run.index 1 fc run.level)
          else if op = 3 then
            if u.flashHolds (jobSrc j.d) 8 then u.setCore c (some { run with unread := some u.worldMap })
            else match u.moveRead (u.blockNS 14) 70 (jobSrc j.d + 8 + jobFcoff j.d) 4 with
              | (u1, .error _) => u1.setCore c (some { run with ended := some 9 })
              | (u1, .ok f) =>
                let fc := ofBytesLe f
                match u1.moveRead (u1.blockNS 14) 70 (jobSrc j.d) 8 with
                | (u2, .ok addr) => replay u2 run (u1.entry run.index) fc (sunNonce (ofBytesLe addr) fc run.level)
                | (u2, .error _) => u2.setCore c (some { run with
                    counter := fc, nonce := sunNonce 0 fc run.level, ended := some (if fc ≤ entRc (u1.entry run.index) then 2 else 9) })
          else (u.takeKey run.index e).2.setCore c (some { run with key := (u.takeKey run.index e).1 })
      (op ≠ 1 → exec .jobStart s = .next (checked q { job := j, index := jobIndex j.d, level := jobLevel j.d } 0)) ∧
      (op = 1 → s.flashHolds (jobSrc j.d) 8 = true → exec .jobStart s = .next (q.setCore c (some { job := j, unread := some s.worldMap }))) ∧
      (op = 1 → s.flashHolds (jobSrc j.d) 8 = false →
        (∀ (u : State) (e : AccErr), q.moveRead (s.blockNS 14) 70 (jobSrc j.d) 8 = (u, .error e) →
          exec .jobStart s = .next (u.setCore c (some { job := j, ended := some 9 }))) ∧
        (∀ (u : State) (p : List Byte), q.moveRead (s.blockNS 14) 70 (jobSrc j.d) 8 = (u, .ok p) →
          let idx := ofBytesLe (p.take 3)
          let lvl := ofBytesLe (p.drop 7)
          let run : CoreRun := { job := j, index := idx % 2 ^ 18, level := lvl }
          exec .jobStart s = .next (
            if lvl < 5 ∨ 7 < lvl ∨ 2 ^ 18 ≤ idx ∨ jobMlen j.d < 8 + micLen lvl then u.setCore c (some { run with ended := some 7 })
            else if j.ns = true ∧ u.memNS (entryAddr idx) = false then u.setCore c (some { run with ended := some 6 })
            else checked u run (ofBytesLe ((p.drop 3).take 4)))))) ∧
    (∀ (c : Fin 8) (run : CoreRun), s.cip.core[c.val] = some run →
      let d := run.job.d
      let finishedAs (run : CoreRun) (u : State) (st n : Nat) : State :=
        let v := u.setCore c (some { run with result := some (st, n) })
        let waits := match run.waitSeq with
          | some q => v.unacked q
          | none => false
        let y := (v.setCore c none).writeRecord d ⟨st, c.val, true, if 4 ≤ jobOp d then 0 else run.counter,
          if 4 ≤ jobOp d then [] else run.nonce, run.index, n⟩
        if waits then v else if y.2 then y.1 else y.1.zeroOut d n
      let finished := finishedAs run
      let ns := s.blockNS 14
      let m := micLen run.level
      let key := aesSchedule run.key
      (∀ st : Nat, run.result = none → run.ended = some st → run.unread = none →
        exec (.jobComplete c) s = .next (finished (if st = 2 then s.bump F.CIP_REPLAY_COUNT else s) st 0)) ∧
      (run.result = none → run.ended = none → s.flashHolds (jobSrc d) (srcLen d) = true → exec (.jobComplete c) s = .next s) ∧
      (∀ st n : Nat, run.result = some (st, n) → exec (.jobComplete c) s = .next (finished s st n)) ∧
      (∀ worlds : List (Nat × Word), run.result = none → run.ended = none → run.unread = some worlds → s.flashHolds (jobSrc d) (srcLen d) = false →
        let ready := { run with unread := none }
        exec (.jobComplete c) s = exec (.jobComplete c) (s.underWorlds worlds (fun u =>
          (if jobOp d = 1 then u.readPrefix c ready else u.readCounter c ready, ()))).1) ∧
      (run.result = none → run.ended = none → run.unread = none → s.flashHolds (jobSrc d) (srcLen d) = false →
        (jobOp d = 6 → exec (.jobComplete c) s = .next (finished s 0 0)) ∧
        (∀ (u : State) (e : AccErr), jobOp d ≠ 6 → s.moveRead ns 70 (jobSrc d) (srcLen d) = (u, .error e) →
          exec (.jobComplete c) s = .next (finished u 9 0)) ∧
        (∀ (u : State) (src : List Byte), s.moveRead ns 70 (jobSrc d) (srcLen d) = (u, .ok src) →
          let writes (out : List Byte) (after : State → State) : Prop :=
            (∀ v : State, u.moveWrite (u.blockNS 14) 70 (jobDst d) out = (v, none) → exec (.jobComplete c) s = .next (after v)) ∧
            (∀ (v : State) (e : AccErr), u.moveWrite (u.blockNS 14) 70 (jobDst d) out = (v, some e) →
              exec (.jobComplete c) s = .next (finished (v.moveWrite (u.blockNS 14) 70 (jobDst d)
                (List.replicate (u.writable (u.blockNS 14) (jobDst d) out.length) 0)).1 9 0))
          let gives (out : List Byte) : Prop := writes out (fun v => finished v 0 out.length)
          let opens (out : List Byte) (mic : List Byte) (got : List Byte) : Prop := writes out (fun v =>
            let fails (w : State) (st : Nat) : State :=
              finished (w.moveWrite (w.blockNS 14) 70 (jobDst d) (List.replicate out.length 0)).1 st 0
            if mic ≠ got then fails (v.bump F.CIP_AUTHF_COUNT) 1
            else if v.ready 13 = false then fails v 9
            else if run.counter ≤ entRc (v.entry run.index) then fails (v.bump F.CIP_REPLAY_COUNT) 2
            else if v.ownsCistern = true then
              let y := (v.setEntry run.index (setBits (v.entry run.index) 68 32 run.counter)).syncEntry run.index
              finishedAs { run with waitSeq := y.2 } y.1 0 out.length
            else finished v 0 out.length)
          let aData := src.take (jobAlen d)
          let aSent := aData.take (jobFcoff d) ++ bytesLe 4 run.counter ++ aData.drop (jobFcoff d + 4)
          let mData := src.drop (jobAlen d)
          let aCame := (src.drop 8).take (jobAlen d)
          let mCame := (src.drop (8 + jobAlen d)).take (jobMlen d - m)
          let pre := bytesLe 3 run.index ++ bytesLe 4 run.counter ++ [BitVec.ofNat 8 run.level]
          let deep := ccmCrypt key run.nonce ((src.drop 8).take (jobMlen d - 8 - m))
          (jobOp d = 0 → gives (pre ++ ccmCrypt key run.nonce src ++ ccmMic key run.nonce m pre src)) ∧
          (jobOp d = 1 → opens deep (ccmMic key run.nonce m (src.take 8) deep) (lastN m src)) ∧
          (jobOp d = 2 → run.level ≤ 3 → gives (aSent ++ mData ++ ccmMic key run.nonce m (aSent ++ mData) [])) ∧
          (jobOp d = 2 → 3 < run.level → gives (aSent ++ ccmCrypt key run.nonce mData ++ ccmMic key run.nonce m aSent mData)) ∧
          (jobOp d = 3 → run.level ≤ 3 → opens (aCame ++ mCame) (ccmMic key run.nonce m (aCame ++ mCame) []) (lastN m src)) ∧
          (jobOp d = 3 → 3 < run.level → opens (aCame ++ ccmCrypt key run.nonce mCame)
            (ccmMic key run.nonce m aCame (ccmCrypt key run.nonce mCame)) (lastN m src)) ∧
          (jobOp d = 4 → gives ((cmac run.key src).take m)) ∧
          (jobOp d = 5 → exec (.jobComplete c) s = .next (
            if (cmac run.key (src.take (jobMlen d))).take m = src.drop (jobMlen d) then finished u 0 0
            else finished (u.bump F.CIP_AUTHF_COUNT) 1 0))))) ∧
    (∀ (d : JobDesc) (x : JobEnd), s.blockNS 14 = false → 0x10780000 ≤ jobRes d → jobRes d + 32 ≤ 0x107FC000 →
      let t := (s.writeRecord d x).1
      (s.writeRecord d x).2 = true ∧ t.regs = s.regs ∧
      (∀ b : Nat, t.byte b = if jobRes d ≤ b ∧ b < jobRes d + 32 then (recordBytes d x).getD (b - jobRes d) 0 else s.byte b) ∧
      t.events = s.events ++ (if jobEvt d then [.hw 0x10E (jobEvch d)] else [])) ∧
    (s.admits r.val Reg.CIP_CTL true = true →
      exec (.flush r) s = .next (({ s.served r.val Reg.CIP_CTL with cip := { s.cip with cache := [] } } : State).answered 0))

/-- From the payload read to the ramp-down of a launch (06_transmit_synth.md R198, R202, R205, R206, R207, R208, R210, R491,
02_receive_path.md R77, 04_superframe.md R127, 09_pair_siphon.md R283, 14_flash_ageing.md R442). The model's choice: LOCKED clearing
at the hop and the FEM balls' return without lock (log entry 54), the calibration stored at the hop's temperature (53), launches
given up with the role (124), the payload read at its end (140), a beacon noted till the boundary (145), FEM and PHASE where two
launches meet (141, 142). -/
def Obligations.TransmitterPhases : Prop :=
  (∀ (l : Launch) (frame : List Bool), l.modulate frame =
    let four := txFourLevel l.d0 l.prof
    let rate := txSymRate l.d0 l.prof
    (symbolLevels four frame).map (fun level =>
      let size : Int := if four then (if level.natAbs = 3 then [1250, 2500, 5000].getD rate 5000 else [417, 833, 1667].getD rate 1667)
        else [625, 1250, 2500].getD rate 2500 * (if txDeep l.d0 = false ∧ txHidx l.d0 = true then 2 else 1)
      if level < 0 then -size else size)) ∧
  (∀ (s : State) (l : Launch), s.cancelLaunch l = match l.req with
    | some q => { s with sfm := { s.sfm with
        pend := s.sfm.pend.filter (fun x => decide (x.ord < q.ord)) ++ q :: s.sfm.pend.filter (fun x => decide (q.ord < x.ord)) } }
    | none => s.skipBeacon l.slot) ∧
  (∀ (s : State) (slot : Nat),
    let ahead : Prop := s.running = true ∧ slot / 128 ≠ s.sfm.asn.toNat / 128
    (ahead → s.skipBeacon slot = { s with sfm := { s.sfm with withheld := true } }) ∧
    (¬ahead → s.sfm.quiet = true → s.skipBeacon slot = s) ∧
    (¬ahead → s.sfm.quiet = false → s.skipBeacon slot = s.bump F.SFM_BCNSKIP_COUNT)) ∧
  ∀ (s : State) (l : Launch) (head : Headroom), s.canonical = true →
    (s.unread = none → exec .payloadReadComplete s = .next s) ∧
    (s.unread = some l → s.flashHolds l.d1.toNat (txLen l.d0) = true → exec .payloadReadComplete s = .next s) ∧
    (s.unread = some l → s.flashHolds l.d1.toNat (txLen l.d0) = false →
      (∀ (u : State) (bs : List Byte), s.moveRead (s.blockNS 11) 70 l.d1.toNat (txLen l.d0) = (u, .ok bs) →
        let read (x : Launch) : Launch := if x = l then { l with
            loaded := true, frame := u.buildFrame l bs, levels := symbolLevels (txFourLevel l.d0 l.prof) (u.buildFrame l bs)
            deviations := l.modulate (u.buildFrame l bs) } else x
        exec .payloadReadComplete s = .next { u with sfm := { u.sfm with launches := u.sfm.launches.map read } }) ∧
      (∀ (u : State) (e : AccErr), s.moveRead (s.blockNS 11) 70 l.d1.toNat (txLen l.d0) = (u, .error e) →
        exec .payloadReadComplete s =
          .next ((({ u with sfm := { u.sfm with launches := u.sfm.launches.erase l } } : State).badDesc l.desc 7).cancelLaunch l))) ∧
    (s.tx.hop ≠ none ∨ s.syn.running ≠ none ∨ s.ownsCistern = false → exec (.hopStart head) s = .next s) ∧
    (earliestLaunch (s.sfm.launches.filter (fun x => x.loaded)) = none → exec (.hopStart head) s = .next s) ∧
    (∀ ls : List Launch, earliestLaunch ls = some l → l ∈ ls ∧ ∀ x ∈ ls, l.occStart ≤ x.occStart) ∧
    (earliestLaunch (s.sfm.launches.filter (fun x => x.loaded)) = some l → s.tx.hop = none → s.syn.running = none →
      s.ownsCistern = true →
      let phase := if s.tx.cur = none then 1 else s.get F.TXP_STAT_PHASE
      let hit : Option Nat := match s.synEntry l.khz with
        | some k => if s.flag F.SYN_CTL_AUTO = true ∧ 8 < (s.getS F.TMP_DIE_TEMP - s.getS (F.SYN_ENT_TCAL k)).natAbs then none else some k
        | none => none
      (∀ k : Nat, hit = some k →
        ∃ t : State, exec (.hopStart head) s = .next t ∧ t.tx = { s.tx with hop := some l, hopSwitched := false, hopCal := none } ∧
          t.sfm = { s.sfm with launches := s.sfm.launches.erase l } ∧
          t.get F.SYN_HITS_COUNT = min (s.get F.SYN_HITS_COUNT + 1) 65535 ∧
          t.syn = { s.syn with lru := k :: s.syn.lru.filter (fun j => j != k) } ∧
          t.get F.TXP_STAT_PHASE = phase ∧ t.flag F.SYN_STAT_LOCKED = false ∧ t.mem = s.mem) ∧
      (hit = none →
        ∃ t : State, exec (.hopStart head) s = .next t ∧
          t.tx = { s.tx with hop := some l, hopSwitched := false, hopCal := some (s.get F.TMP_DIE_TEMP) } ∧
          t.sfm = { s.sfm with launches := s.sfm.launches.erase l } ∧ t.syn = s.syn ∧
          t.get F.SYN_MISSES_COUNT = min (s.get F.SYN_MISSES_COUNT + 1) 65535 ∧ t.flag F.SYN_STAT_CALBUSY = true ∧
          t.get F.TXP_STAT_PHASE = phase ∧ t.flag F.SYN_STAT_LOCKED = false ∧ t.mem = s.mem)) ∧
    (s.tx.hop = none → exec .femSwitch s = .next s) ∧
    (∀ locked : Bool, s.tx.hop = none ∨ s.tx.cur ≠ none → exec (.rampUp locked) s = .next s) ∧
    (s.tx.hop = some l →
      exec .femSwitch s = .next { s with tx := { s.tx with hopSwitched := true, femUse := some (s.femField l) } } ∧
      (s.tx.cur = none →
        let transmits : Bool := s.ownsCistern || s.pairState == 5
        let fails : State := { s.put F.SYN_STAT_CALBUSY 0 with tx :=
          { s.tx with hop := none, hopSwitched := false, hopCal := none, femUse := none } }
        let u : State := match s.tx.hopCal with
          | some temp => (s.put F.SYN_STAT_CALBUSY 0).storeCal l.khz temp
          | none => s.put F.SYN_STAT_CALBUSY 0
        let v : State := { u with tx :=
          { u.tx with cur := some l, hop := none, hopSwitched := false, hopCal := none, femUse := some (s.femField l) } }
        (transmits = true → exec (.rampUp true) s = .next ((((v.put F.SYN_STAT_LOCKED 1).put F.TXP_STAT_PHASE 2).bump
          F.TXP_LAUNCHES_COUNT).blankChain (if txPort l.d0 = 1 then .b else .a))) ∧
        (transmits = true → exec (.rampUp false) s = .next (((((fails.dropCal l.khz).put F.SYN_ERR_LOCKFAIL 1).put F.SYN_ERRKHZ_KHZ
          l.khz).put F.TXP_STAT_PHASE 0).cancelLaunch l)) ∧
        (transmits = false → ∀ locked : Bool, exec (.rampUp locked) s = .next ((fails.put F.TXP_STAT_PHASE 0).cancelLaunch l)))) ∧
    (∀ c : Chain,
      let t := s.blankChain c
      let w := s.unblankChain c
      t.flag (F.RXC_STAT_BLANK (chainNo c)) = true ∧ (∀ m : LaneIx, (t.laneAt m).state = t.laneGoes m (s.laneAt m).state) ∧
      (∀ m : LaneIx, laneChain m = otherChain c → (t.laneAt m).state = .header ∨ (t.laneAt m).state = .payload →
        (t.laneAt m).frame.marks.desense = true) ∧
      ∀ clock : Nat, (w clock).flag (F.RXC_STAT_BLANK (chainNo c)) = false ∧
        ((w clock).chainAt c).unblankAt = some clock ∧ ∀ m : LaneIx, ((w clock).laneAt m).state = (w clock).laneGoes m (s.laneAt m).state) ∧
    exec .firstPreambleSymbol s = .next (if s.get F.TXP_STAT_PHASE = 2 then s.put F.TXP_STAT_PHASE 3 else s) ∧
    (∀ power : Byte, s.tx.cur = none ∨ s.get F.TXP_STAT_PHASE ≠ 3 → exec (.lastSymbol power) s = .next s) ∧
    (∀ power : Byte, s.tx.cur = some l → s.get F.TXP_STAT_PHASE = 3 →
      let u := (((s.put F.TXP_STAT_PHASE 4).put F.TXP_DET_INDEX l.entry).put F.TXP_DET_POWER power.toNat).noteLaunch l.entry power.toInt
      (l.req = none → exec (.lastSymbol power) s = .next u) ∧
      (l.req ≠ none → exec (.lastSymbol power) s = .next ((u.post 1 l.slot l.desc).mirrorDone l.desc 1)) ∧
      (s.peerFollows = false → s.sph.handover = none → (u.post 1 l.slot l.desc).mirrorDone l.desc 1 = u.post 1 l.slot l.desc) ∧
      (s.sfm.results.length < 256 →
        (u.post 1 l.slot l.desc).sfm.results = s.sfm.results ++ [⟨1, l.slot % 4096, l.desc⟩])) ∧
    (∀ off : Nat, s.tx.cur = none ∨ (s.get F.TXP_STAT_PHASE ≠ 4 ∧ s.tx.femHeld = none) → exec (.rampDownEnd off) s = .next s) ∧
    (∀ off : Nat, s.tx.cur = some l → s.get F.TXP_STAT_PHASE = 4 ∨ s.tx.femHeld ≠ none →
      exec (.rampDownEnd off) s = .next ((({ s with tx := { s.tx with cur := none, femHeld := none } } : State).put F.TXP_STAT_PHASE
        (if s.tx.hop = none then 0 else 1)).unblankChain (if txPort l.d0 = 1 then .b else .a)
          (s.sfm.clock + (if s.running then min off (s.sfm.slotLen - 1) else off)))) ∧
    (s.tx.cur = none → s.tx.hopSwitched = false → exec .femReturn s = .next { s with tx := { s.tx with femUse := none } }) ∧
    (s.tx.cur ≠ none ∨ s.tx.hopSwitched = true → exec .femReturn s = .next s)

/-- Queued calibrations and invalidations (06_transmit_synth.md R207, R208, R209). The model's choice: the lowest empty entry (log
entry 53), LOCKED clearing as a calibration starts (54), and QFULL before RANGE (134). -/
def Obligations.SynthesiserCommands : Prop :=
  ∀ (s : State) (r : Req) (khz : BitVec 20), s.canonical = true →
    (s.admits r.val Reg.SYN_CMD true = true →
      let c := s.served r.val Reg.SYN_CMD
      let queued (op k : Nat) : Out := .next ((if 16 ≤ s.syn.queue.length then c.put F.SYN_ERR_QFULL 1
        else { c with syn := { s.syn with queue := s.syn.queue ++ [⟨op, k⟩] } }).answered 0)
      (750000 ≤ khz.toNat → khz.toNat ≤ 960000 →
        exec (.synCalibrate r khz) s = queued 1 khz.toNat ∧ exec (.synInvalidate r khz) s = queued 2 khz.toNat) ∧
      (khz.toNat < 750000 ∨ 960000 < khz.toNat →
        let refused : Out := .next ((c.put (if 16 ≤ s.syn.queue.length then F.SYN_ERR_QFULL else F.SYN_ERR_RANGE) 1).answered 0)
        exec (.synCalibrate r khz) s = refused ∧ exec (.synInvalidate r khz) s = refused) ∧
      exec (.synInvalidateAll r) s = queued 3 750000) ∧
    (s.syn.queue = [] ∨ s.ready 11 = false ∨ s.syn.running ≠ none ∨ s.tx.hop ≠ none ∨ s.tx.cur ≠ none →
      exec .queuedCommandStart s = .next s) ∧
    (∀ (x : SynCmd) (rest : List SynCmd), s.syn.queue = x :: rest → s.ready 11 = true → s.syn.running = none → s.tx.hop = none →
      s.tx.cur = none →
      (x.op = 1 → exec .queuedCommandStart s =
        .next ((({ s with syn := { s.syn with queue := rest, running := some x } } : State).put F.SYN_STAT_CALBUSY 1).put F.SYN_STAT_LOCKED 0)) ∧
      (x.op = 2 → s.synEntry x.khz = none →
        exec .queuedCommandStart s = .next { s with syn := { s.syn with queue := rest } }) ∧
      (∀ k : Nat, x.op = 2 → s.synEntry x.khz = some k → exec .queuedCommandStart s =
        .next { s.setReg (Reg.SYN_ENT k) 0 with syn := { s.syn with queue := rest, lru := s.syn.lru.filter (fun j => j != k) } }) ∧
      (x.op = 3 → ∃ t : State, exec .queuedCommandStart s = .next t ∧ t.syn = { s.syn with queue := rest, lru := [] } ∧
        (∀ k : Fin 256, t.reg (Reg.SYN_ENT k.val) = 0) ∧
        (∀ a : Nat, (∀ k : Fin 256, a ≠ Reg.SYN_ENT k.val) → t.reg a = s.reg a) ∧ t = { s with regs := t.regs, syn := t.syn })) ∧
    (∀ head : Headroom, s.syn.running = none → exec (.queuedCalibrationEnd head) s = .next s) ∧
    (∀ (x : SynCmd) (head : Headroom) (k : Nat), s.syn.running = some x → x.khz < 2 ^ 20 → k < 256 →
      s.synEntry x.khz = some k ∨
      (s.synEntry x.khz = none ∧ firstIdx 256 (fun i => !s.flag (F.SYN_ENT_VALID i)) = some k) ∨
      (s.synEntry x.khz = none ∧ firstIdx 256 (fun i => !s.flag (F.SYN_ENT_VALID i)) = none ∧ s.syn.lru.getLast? = some k) →
      ∃ t : State, exec (.queuedCalibrationEnd head) s = .next t ∧ t.syn.running = none ∧ t.syn.queue = s.syn.queue ∧
        t.syn.lru = k :: s.syn.lru.filter (fun j => j != k) ∧
        t.reg (Reg.SYN_ENT k) = BitVec.ofNat 32 (2 ^ 31 + s.get F.TMP_DIE_TEMP * 2 ^ 20 + x.khz) ∧
        (∀ i : Fin 256, i.val ≠ k → t.reg (Reg.SYN_ENT i.val) = s.reg (Reg.SYN_ENT i.val)) ∧
        t.flag F.SYN_STAT_CALBUSY = false ∧ t.flag F.SYN_STAT_LOCKED = true ∧
        (∀ a : Nat, (∀ i : Fin 256, a ≠ Reg.SYN_ENT i.val) → a ≠ Reg.SYN_STAT → a ≠ Reg.AGE_VCO → t.reg a = s.reg a) ∧
        t.get F.AGE_VCO_LOHEAD = min (s.get F.AGE_VCO_LOHEAD) head.lo.toNat ∧
        t.get F.AGE_VCO_HIHEAD = min (s.get F.AGE_VCO_HIHEAD) head.hi.toNat ∧ t = { s with regs := t.regs, syn := t.syn })

/-- Pairing on and off, training, frames on the lanes, heartbeats sent, acknowledgements and bad frames (09_pair_siphon.md R283,
R285, R287, R288, R289, R290, R291, R292, R293, R315). The model's choice: where sequence numbers start and go on from (log entry
63), LINK at the part's own sixteenth HELLO (64), the latency in cycles (65), frames that wait for room (70), launches given up
(124), offset 0 while slots stand (126) and clock values as free values (71). -/
def Obligations.SiphonLink : Prop :=
  (∀ i : Nat, idleAt i = if i % 16 = 15 then (.k281, .k281) else (.k285, .k285)) ∧
  (∀ bs : List Byte, bs.length % 2 = 0 → 2 * (onLanes bs).length = bs.length ∧ ∀ j : Nat, j < bs.length / 2 →
    (onLanes bs)[j]? = some (.data (bs.getD (2 * j) 0), .data (bs.getD (2 * j + 1) 0))) ∧
  (∀ (s : State) (n : Nat), ∃ k : Nat, k < 16 ∧ s.sendIdles n = { s with free := s.free + 1, sph := { s.sph with
    sent := s.sph.sent ++ (if s.pwr.latch.isSome then [] else (List.range n).map (fun i => idleAt (k + i))) } }) ∧
  (∀ (s : State) (type seq : Nat) (sync : Bool) (payload : List Byte), ∃ k : Nat, k < 16 ∧
    let body : List Byte := [BitVec.ofNat 8 type, BitVec.ofNat 8 (payload.length / 4)] ++ bytesLe 2 seq ++ bytesLe 2 s.sph.rxSeq ++
      [BitVec.ofNat 8 (bit01 s.sph.nakOwed + 2 * bit01 sync + 4 * bit01 (s.flag F.SPH_STAT_LINK)), 0] ++ payload
    let chars : List (SphChar × SphChar) := [(.k277, .k277)] ++ onLanes (body ++ bytesLe 4 (crc32 body)) ++ [(.k297, .k297)]
    let went := s.sph.sent ++ (if s.pwr.latch.isSome then [] else chars ++ [idleAt k, idleAt (k + 1)])
    s.transmit type seq sync payload = { s with free := s.free + 1, sph := { s.sph with nakOwed := false, sent := went } }) ∧
  (∀ (s : State) (f : OutFrame) (l : List OutFrame),
    s.sendAck = (if s.linked then s.transmit 2 0 false [] else s) ∧
    s.emit f = (if s.linked then s.transmit f.type f.seq f.sync f.payload else s) ∧
    s.sendWaiting [] = { s with sph := { s.sph with waiting := [] } } ∧
    s.sendWaiting (f :: l) = (
      if s.sph.out.length < 256 ∧ (s.sph.out.map (fun x => x.payload.length + 12)).sum + f.payload.length + 12 ≤ 32768 then
        (({ s with sph := { s.sph with out := s.sph.out ++ [f] } } : State).emit f).sendWaiting l
      else { s with sph := { s.sph with waiting := f :: l } })) ∧
  (∀ (s : State) (ack : Nat), s.numberFrom ack = if s.sph.out = [] ∧ s.sph.waiting = [] then { s with
      sph := { s.sph with txSeq := ack % 65536 }
      cip := { s.cip with core := s.cip.core.map (fun x => x.map (fun run => { run with waitSeq := none })) } } else s) ∧
  ∀ (s : State) (r : Req) (h : SphHdr), s.canonical = true →
    (∀ c : Fin 8, (s.cip.core[c.val]).bind (fun x => x.result) = none) →
    let boundary : Sph := { bndEpoch := s.sph.bndEpoch, bndSfn := s.sph.bndSfn, bndImg := s.sph.bndImg }
    (s.admits r.val Reg.SPH_CTL true = true →
      (∀ (v : Word) (x : RegRow), s.pairing = false → rowAt Reg.SPH_CTL = some x →
        let t := (s.served r.val Reg.SPH_CTL).setReg Reg.SPH_CTL (x.written (s.locked Reg.SPH_CTL) (s.reg Reg.SPH_CTL) (v ||| 1))
        let u : State := { t with sph := { boundary with pairid := t.get F.SPH_CTL_PAIRID, role := t.get F.SPH_CTL_ROLE } }
        (t.get F.SPH_CTL_ROLE = 1 → exec (.pairingEnable r v) s =
          .next ((((u.sendIdles 16).put F.SPH_STAT_STATE 3).put F.SPH_STAT_PEER_LOST 1).answered 0)) ∧
        (t.get F.SPH_CTL_ROLE = 0 → ∃ w : State, exec (.pairingEnable r v) s = .next (w.answered 0) ∧ w.pairState = 1 ∧
          w.sph = (u.sendIdles 16).sph ∧ w.sfm.launches = [] ∧ w.tx.hop = none ∧ w.tx.cur = s.tx.cur ∧ w.mem = s.mem ∧
          (s.sfm.launches = [] → s.tx.hop = none → w = (u.sendIdles 16).put F.SPH_STAT_STATE 1))) ∧
      (s.pairing = true →
        let t := (s.served r.val Reg.SPH_CTL).setReg Reg.SPH_CTL (s.reg Reg.SPH_CTL &&& 0xFFFFFFFE)
        exec (.pairingDisable r) s = .next (({ (((t.put F.SPH_STAT_STATE 0).put F.SPH_STAT_LINK 0).put F.SPH_STAT_PEER_LOST 0).put
          F.SPH_STAT_PEER_ESTR 0 with
            sph := boundary
            flc := { s.flc with waits := s.flc.waits.filter (fun w => w != .request) }
            cip := { s.cip with core := s.cip.core.map (fun x => x.map (fun run => { run with waitSeq := none })) } } : State).answered 0)) ∧
      (s.pairing = false → exec (.pairingDisable r) s = .next ((s.served r.val Reg.SPH_CTL).answered 0))) ∧
    (s.pairing = false → (∀ b : HelloBody, exec (.hello h b) s = .next s) ∧ exec .helloSend s = .next s ∧ exec .beatSend s = .next s ∧
      exec .linkDown s = .next s ∧ exec .heartbeatMissed s = .next s ∧ exec (.ackf h) s = .next s ∧ exec .resend s = .next s ∧
      ∀ seqd : Bool, exec (.badFrame seqd) s = .next s) ∧
    (s.linked = false → exec .beatSend s = .next s ∧ exec .linkDown s = .next s ∧ exec (.ackf h) s = .next s ∧
      exec .resend s = .next s) ∧
    (s.pwrState ≠ 0 → exec .beatSend s = .next s) ∧
    (s.pairing = true →
      let u := s.takeHeader h
      (∀ b : HelloBody, b.pairid.toNat ≠ u.sph.pairid →
        exec (.hello h b) s = .next (({ u with sph := { u.sph with helloRun := 0 } } : State).put F.SPH_STAT_IDMISMATCH 1)) ∧
      (∀ b : HelloBody, b.pairid.toNat = u.sph.pairid →
        let met := (((u.put F.SPH_STAT_IDMISMATCH 0).put F.SPH_PEERUID_LO_UID b.uid.toNat).put F.SPH_PEERUID_HI_UID
          (b.uid.toNat / 2 ^ 32)).put F.SPH_LATENCY_NS (min (4 * (b.now - b.echo - b.hold).toNat) 0xFFFF)
        let w : State := { met with sph := { u.sph with helloRun := u.sph.helloRun + 1, lastStamp := b.stamp.toNat } }
        (u.linked = true ∨ u.sph.helloRun < 15 → exec (.hello h b) s = .next w) ∧
        (u.linked = false → 15 ≤ u.sph.helloRun →
          exec (.hello h b) s = .next ((({ w with sph := { w.sph with fresh := true } } : State).put F.SPH_STAT_LINK 1).put
            F.SPH_IRQ_LINKUP 1))) ∧
      exec .heartbeatMissed s = .next (s.bump F.SPH_MISSBEAT_COUNT) ∧
      exec (.badFrame false) s = .next { s.bump F.SPH_CRCERR_COUNT with sph := { s.sph with helloRun := 0 } } ∧
      exec (.badFrame true) s = .next ({ s.bump F.SPH_CRCERR_COUNT with sph :=
        { s.sph with helloRun := 0, nakOwed := true } } : State).sendAck ∧
      (∃ stamp hold : Nat, exec .helloSend s = .next (({ s with free := s.free + 2 } : State).transmit 3 0 false
        (bytesLe 2 s.sph.pairid ++ [BitVec.ofNat 8 s.sph.role, 0] ++ bytesLe 8 s.uid ++ bytesLe 2 (s.get F.SPH_STAT_TERM) ++
          bytesLe 2 stamp ++ bytesLe 2 s.sph.lastStamp ++ bytesLe 2 hold))) ∧
      (s.linked = true → s.pwrState = 0 → 0 < s.sfm.slotLen → ∃ off : Nat, off < s.sfm.slotLen ∧ (s.running = false → off = 0) ∧
        exec .beatSend s = .next (({ s with free := s.free + 1 } : State).transmit 1 0 false
          ([BitVec.ofNat 8 s.pairState, BitVec.ofNat 8 (bit01 s.sumValid + 2 * s.get F.SPH_CTL_AUTO)] ++
            bytesLe 2 (s.get F.SPH_STAT_TERM) ++ bytesLe 5 s.sfm.asn.toNat ++ bytesLe 3 off ++ bytesLe 4 s.sph.bndEpoch ++
            bytesLe 4 s.sph.bndSfn ++ bytesLe 4 s.sph.bndImg ++ bytesLe 4 (s.reg Reg.CST_SUM).toNat ++ bytesLe 2 s.sph.txSeq ++ [0, 0])) ∧
        s.sumValid = (decide (s.pairState = 3) && s.sph.dirty.isEmpty))) ∧
    (s.pairing = true → s.linked = true →
      exec .linkDown s = .next (((({ s with sph := { s.sph with helloRun := 0, fresh := false } } : State).put F.SPH_STAT_LINK 0).put
        F.SPH_IRQ_LINKDOWN 1).sendIdles 16) ∧
      (∀ (before after : List OutFrame) (f : OutFrame), h.ackv = true → h.nak = false → s.sph.out = before ++ f :: after →
        (∀ x ∈ before, x.seq ≠ h.ack.toNat) → f.seq = h.ack.toNat →
        exec (.ackf h) s = .next ((({ s with sph := { s.sph with out := after } } : State).sendWaiting
          s.sph.waiting).releaseRecords.numberFrom h.ack.toNat) ∧
        (s.sph.waiting = [] →
          exec (.ackf h) s = .next (({ s with sph := { s.sph with out := after } } : State).numberFrom h.ack.toNat))) ∧
      (h.ackv = true → h.nak = false → s.sph.out = [] → s.sph.waiting = [] →
        exec (.ackf h) s = .next (s.numberFrom h.ack.toNat)) ∧
      (h.ackv = false → h.nak = false → exec (.ackf h) s = .next s) ∧
      (h.ackv = false → h.nak = true → s.sph.out ≠ [] →
        exec (.ackf h) s = .next ((s.each s.sph.out State.emit).bump F.SPH_RETRY_COUNT)) ∧
      (s.sph.out ≠ [] → (s.pairState ≠ 3 ∨ s.sph.peer ≠ 0) →
        exec .resend s = .next ((s.each s.sph.out State.emit).bump F.SPH_RETRY_COUNT)) ∧
      (s.sph.out = [] ∨ (s.pairState = 3 ∧ s.sph.peer = 0) → exec .resend s = .next s))

/-- Sequenced frames at the standby, and the sweep of dirty entries at the primary (09_pair_siphon.md R291, R292, R295, R297, R299,
R301, R303, R304, R313, 05_cistern_security.md R152). The model's choice: an ACKF after every sequenced frame (log entry 125),
passes and their count (67), the slot and channel of a record (69), frames that wait for room (70), what each side of a handover
takes (126), how entries merge then (148), what an ACCT frame drops (149). -/
def Obligations.SiphonMirroring : Prop :=
  (∀ (s : State) (a : Nat) (bs : List Byte), 0x10430000 ≤ a → a + bs.length ≤ 0x10600000 →
    (s.moveWrite false 69 a bs).1 = (if bs = [] then s.putBytes a bs else (s.putBytes a bs).takeTurn 69 (targetOf a)) ∧ (s.moveWrite false 69 a bs).2 = none) ∧
  ∀ (s : State) (h : SphHdr), s.canonical = true →
    (s.pairing = false ∨ s.linked = false →
      (∀ rs, exec (.entry h rs) s = .next s) ∧ (∀ b, exec (.req h b) s = .next s) ∧ (∀ b, exec (.launch h b) s = .next s) ∧
        (∀ rs, exec (.done h rs) s = .next s) ∧ (∀ asn, exec (.handoff h asn) s = .next s) ∧ (∀ rs, exec (.acct h rs) s = .next s)) ∧
    (s.pairing = true → s.linked = true → h.seq.toNat ≠ ((s.takeHeader h).sph.rxSeq + 1) % 65536 →
      let owed : Out := .next ({ s.takeHeader h with sph := { (s.takeHeader h).sph with nakOwed := true } } : State).sendAck
      (∀ rs, exec (.entry h rs) s = owed) ∧ (∀ b, exec (.req h b) s = owed) ∧ (∀ b, exec (.launch h b) s = owed) ∧
        (∀ rs, exec (.done h rs) s = owed) ∧ (∀ asn, exec (.handoff h asn) s = owed) ∧ (∀ rs, exec (.acct h rs) s = owed)) ∧
    (s.pairing = true → s.linked = true → h.seq.toNat = ((s.takeHeader h).sph.rxSeq + 1) % 65536 →
      let v : State := { s.takeHeader h with sph := { (s.takeHeader h).sph with rxSeq := h.seq.toNat } }
      let beacon (x : LaunchBody) : Bool := bitAt x.w3.toNat 9
      let desc (x : LaunchBody) : Nat := bitsOf x.w0.toNat 0 12
      let slotOf (x : LaunchBody) : Nat := x.w2.toNat + bitsOf x.w3.toNat 0 8 * 2 ^ 32
      let updated (t : State) (x : EntryRec) : State :=
        let e := if t.ready 13 then
          t.setEntry x.index.toNat (x.w0.toNat + x.w1.toNat <<< 32 + x.w2.toNat <<< 64 + x.w3.toNat <<< 96) else t
        let c := if x.index.toNat < e.sph.passAt then e.put F.SPH_ALIGN_COUNT 0 else e
        let opened := e.sph.passOpen || (e.sph.acctSeen && x.index == 0)
        if h.sync then e else { c.bump F.SPH_ALIGN_COUNT with sph := { e.sph with
          passAt := x.index.toNat + 1, passOpen := opened, passDone := e.sph.passDone || (opened && x.index.toNat == 262143) } }
      let completed (t : State) (x : DoneRec) : State :=
        let slot := match t.sph.mirror.find? (fun y => !beacon y.body && desc y.body == x.desc.toNat) with
          | some y => if x.outcome = 1 then slotOf y.body else 0
          | none => 0
        ({ t with
          sfm := { t.sfm with pend := t.sfm.pend.filter (fun y => y.desc != x.desc.toNat) }
          sph := { t.sph with mirror := t.sph.mirror.filter (fun y => beacon y.body || desc y.body != x.desc.toNat) } } : State).post
            x.outcome.toNat slot x.desc.toNat
      let accounted (t : State) (x : AcctRec) : State :=
        let cur := t.sfm.asn.toNat / 100
        let ago := (cur + 4096 - bitsOf x.w0.toNat 0 12) % 4096
        if bitAt x.w0.toNat 31 then t.put (F.SFM_QCR_CREDIT (bitsOf x.w0.toNat 0 10)) (bitsOf x.w1.toNat 0 12)
        else if 3600 ≤ ago ∨ cur < ago then t
        else
          let n : Fin 16 := Fin.ofNat 16 (bitsOf x.w0.toNat 16 4)
          let l := addGranule (t.granules[n.val].filter (fun e => e.1 != cur - ago)) (cur - ago) x.w1.toNat
          ({ t with granules := t.granules.set n.val l }).put (F.BKT_USED_USED n.val)
            ((l.filter (fun (e : Nat × Nat) => decide (cur ≤ e.1 + 3599 ∧ e.1 ≤ cur))).foldl (fun m (e : Nat × Nat) => m + e.2) 0)
      let takes : Bool := v.follows || (v.pairState == 3 && v.sph.handover.isSome)
      let heir : Bool := v.pairState == 3 && v.sph.heir
      (takes = false → ∀ b, exec (.launch h b) s = .next v.sendAck) ∧
      (takes = false → heir = false → (∀ rs, exec (.entry h rs) s = .next v.sendAck) ∧
        (∀ b, exec (.req h b) s = .next v.sendAck) ∧ ∀ rs, exec (.done h rs) s = .next v.sendAck) ∧
      (v.follows = false → ∀ rs, exec (.acct h rs) s = .next v.sendAck) ∧
      (takes = true ∨ heir = true → ∀ b : ReqBody,
        let t := (v.moveWrite false 69 (descAddr b.desc.toNat) (bytesLe 4 b.d0.toNat ++ bytesLe 4 b.d1.toNat ++ bytesLe 4 b.d2.toNat ++
          bytesLe 4 b.d3.toNat)).1
        let u := (t.moveWrite false 69 (b.d1.toNat + 488 * b.frag.val) (b.payload.take (txLen b.d0 - 488 * b.frag.val))).1
        let pended : State := { u with sfm := { u.sfm with
          pend := u.sfm.pend.filter (fun y => y.desc != b.desc.toNat) ++ [⟨u.sfm.nextOrd, b.desc.toNat, b.index.toNat, b.mode.toNat⟩], nextOrd := u.sfm.nextOrd + 1 } }
        exec (.req h b) s = .next (if b.last then pended else u).sendAck) ∧
      (v.follows = true → ∀ rs : List EntryRec, exec (.entry h rs) s = .next (rs.foldl updated v).sendAck) ∧
      (v.pairState = 3 → takes = true ∨ heir = true → ∀ rs : List EntryRec,
        let handed (t : State) (x : EntryRec) : State :=
          let i := x.index.toNat
          let e := x.w0.toNat + x.w1.toNat <<< 32 + x.w2.toNat <<< 64 + x.w3.toNat <<< 96
          let both := setBits (setBits e 44 24 (max (entTc e) (entTc (t.entry i)))) 68 32 (max (entRc e) (entRc (t.entry i)))
          let own := t.sph.dirty.any (fun y => decide (y.1 ≤ i ∧ i ≤ y.2))
          if t.ready 13 = false then t
          else if v.sph.heir then t.setEntry i both
          else if own then t
          else { t.setEntry i e with sph := { (t.setEntry i e).sph with dirty := t.sph.dirty } }
        exec (.entry h rs) s = .next (rs.foldl handed v).sendAck) ∧
      (takes = true →
        (∀ b : LaunchBody,
          let n : Fin 16 := Fin.ofNat 16 (bitsOf b.w0.toNat 16 4)
          let tenant := bitsOf b.w0.toNat 22 10
          let charged := v.charge n (((slotOf b + 2 ^ 40 - 2) % 2 ^ 40) / 100) b.w1.toNat
          let t := if bitAt b.w3.toNat 8 then charged.put (F.SFM_QCR_CREDIT tenant) (charged.get (F.SFM_QCR_CREDIT tenant) - 16) else charged
          let kept := if beacon b then v.sph.mirror else v.sph.mirror.filter (fun x => beacon x.body || desc x.body != desc b)
          exec (.launch h b) s = .next ({ t with sph := { v.sph with mirror := kept ++ [⟨b, v.recordTarget b⟩] } } : State).sendAck)) ∧
      (v.follows = true →
        (∀ rs : List AcctRec,
          let seen : State := { v with sfm := { v.sfm with pend := [] }, sph := { v.sph with acctSeen := true, mirror := [] } }
          exec (.acct h rs) s = .next (
            if v.running = true ∧ v.sph.timed = true then rs.foldl accounted seen
            else { seen with sph := { seen.sph with acct := v.sph.acct ++ rs } }).sendAck)) ∧
      (takes = true ∨ heir = true →
        ∀ rs : List DoneRec, exec (.done h rs) s = .next (rs.foldl completed v).sendAck) ∧
      (∀ asn : BitVec 40, exec (.handoff h asn) s = .next (
        if v.pairState = 4 then { v with sph := { v.sph with due := true, handoff := some asn.toNat } } else v).sendAck)) ∧
    (s.shares = false ∨ s.linked = false ∨ s.sph.dirty = [] ∨ s.sph.waiting ≠ [] → exec .dirtyEntrySweep s = .next s) ∧
    (s.shares = (decide (s.pairState = 3 ∧ (s.sph.peer = 2 ∨ s.sph.peer = 4 ∨ s.sph.peer = 5 ∨ (s.sph.peer = 3 ∧ s.sph.heir = true))) ||
      s.sph.handover.isSome)) ∧
    (s.shares = true → s.linked = true → s.sph.waiting = [] →
      let marks := s.sph.dirty.flatMap (fun x => (List.range (x.2 + 1 - x.1)).map (fun i => x.1 + i))
      let ahead := (marks.filter (fun i => decide (s.sph.sweep ≤ i))).take 24
      let es := if ahead = [] then marks.take 24 else ahead
      marks ≠ [] → ∃ t : State, exec .dirtyEntrySweep s = .next t ∧
        (∀ i : Nat, (∃ x ∈ t.sph.dirty, x.1 ≤ i ∧ i ≤ x.2) ↔ (∃ x ∈ s.sph.dirty, x.1 ≤ i ∧ i ≤ x.2) ∧ i ∉ es) ∧
        t.sph.sweep = es.getLast?.getD 0 + 1 ∧ t.sph.txSeq = (s.sph.txSeq + 1) % 65536 ∧
        t.get F.SPH_ALIGN_COUNT = ((if ahead = [] then s.put F.SPH_ALIGN_COUNT 0 else s).bumpBy F.SPH_ALIGN_COUNT es.length).get
          F.SPH_ALIGN_COUNT ∧
        t.sph.out ++ t.sph.waiting =
          s.sph.out ++ [⟨(s.sph.txSeq + 1) % 65536, 0x10, false, es.flatMap (fun i => bytesLe 4 i ++ s.bytes (entryAddr i) 16)⟩] ∧
        t.mem = s.mem ∧ t.sfm = s.sfm ∧ t.cip = s.cip)

/-- Heartbeats, loss, takeover, counter lift and planned handover change the pair state (09_pair_siphon.md R284, R302, R303, R305,
R306, R307, R308, R309, R310, R311, R313, R314). The model's choice: log entries 66 (time taken at once), 65 (rounding), 68
(PEER_LOST, the loss when ESTRANGED), 63 (numbers kept), 69 (the target slot), 70 (frames kept), 124 (launches given up), 126
(handover, slots that stand). -/
def Obligations.PairRoles : Prop :=
  ∀ (s : State) (r : Req) (h : SphHdr) (b : BeatBody), s.canonical = true →
    (∀ c : Fin 8, (s.cip.core[c.val]).bind (fun x => x.result) = none) →
    (s.pairing = false ∨ s.linked = false → exec (.beat h b) s = .next s) ∧
    (s.pairing = true → s.linked = true →
      let met := s.takeHeader h
      let astray : Bool := h.ackv && b.state == 2 && (match (met.sph.out ++ met.sph.waiting).head? with
        | some f => f.seq != (h.ack.toNat + 1) % 65536
        | none => false)
      let ahead := met.renumber h.ack.toNat
      let u : State := if astray then { ahead with sph := { ahead.sph with aligning := false } } else met
      let v : State := { u with sph := { u.sph with peer := b.state.val, fresh := false } }
      (u.pairState ≠ 3 → b.state ≠ 3 ∨ u.sph.due = true → exec (.beat h b) s = .next v) ∧
      (b.state = 3 → u.sph.due = false →
        let away (slot : Nat) : Int := toSigned 40 ((slot + 2 ^ 40 - u.sfm.asn.toNat) % 2 ^ 40)
        let late : Int := b.here.toNat - (b.off.toNat + (u.get F.SPH_LATENCY_NS + 62) / 125 : Nat)
        let offset : Int := -80000 * away b.asn.toNat + late
        let again (bad : Option Nat) : Bool := match bad with
          | some x => (x + 1) % 2 ^ 32 == b.sfn.toNat
          | none => false
        let same : Bool := b.sfn.toNat == u.sph.bndSfn
        let epoch : Bool := same && b.epoch.toNat != u.sph.bndEpoch && again u.sph.badEpoch
        let image : Bool := same && b.img.toNat != u.sph.bndImg && again u.sph.badImg
        let stands : Bool := u.sph.beatAt == some (b.asn.toNat, b.off.toNat)
        let adopts : Bool := !stands && (!u.sph.timed || u.sph.stood)
        let measured : Bool := u.sph.timed && !u.sph.stood && u.running && !stands
        let time : Bool := measured && u.pairState == 4 && u.sph.firstBeat && decide (400 < offset.natAbs)
        let compared : Bool := b.sumv && decide ((u.sph.rxSeq + 65536 - b.sumseq.toNat) % 65536 < 32768)
        let sum : Bool := compared && u.reg Reg.CST_SUM != b.sum
        (u.pairState = 1 → exec (.beat h b) s = .next ((({ v with
          sfm := { u.sfm with pend := [] }
          sph := { v.sph with timed := false, acctSeen := false, passOpen := false, passDone := false, mirror := [], acct := []
                              badEpoch := none, badImg := none, firstBeat := false, sumRun := 0, passAt := 0, beatAt := none
                              stood := false, handoff := none } } : State).put
            F.SPH_ALIGN_COUNT 0).put F.SPH_STAT_STATE 2)) ∧
        (u.pairState = 0 → exec (.beat h b) s = .next v) ∧
        (u.follows = true → ∃ t : State, exec (.beat h b) s = .next t ∧ t.get F.SPH_STAT_TERM = b.term.toNat ∧
          t.sph.timed = (u.sph.timed || adopts) ∧ t.sph.stood = (stands || (u.sph.stood && !adopts)) ∧
          t.sph.beatAt = some (b.asn.toNat, b.off.toNat) ∧ t.sph.fresh = false ∧ t.sph.peer = 3 ∧ t.mem = u.mem ∧
          (stands = true → u.sph.stood = true → t.sfm = u.sfm) ∧
          (stands = true → u.sph.stood = false → t.flag F.SFM_CTL_RUN = false ∧ t.sfm =
            if u.running then { u.sfm with stopPend := true } else { u.sfm with startPend := false, adopt := none }) ∧
          (adopts = true → u.running = false → t.flag F.SFM_CTL_RUN = true ∧
            t.sfm = { u.sfm with startPend := true, slew := 0, adopt := some ((b.asn.toNat + 1) % 2 ^ 40) }) ∧
          (adopts = true → u.running = true → t.flag F.SFM_CTL_RUN = true ∧ t.sfm.asn = b.asn ∧ t.sfm.slotLen = 80000 ∧ t.sfm.slew = 0 ∧ t.sfm.stopPend = false ∧
            t.sfm.prevLen = 80000 ∧ t.sfm.prevAsn = (b.asn.toNat + 2 ^ 40 - 1) % 2 ^ 40 ∧ t.sfm.pause = 0 ∧ (t.sfm.clock : Int) = max 0 (u.sfm.clock + late) ∧ t.sph.acct = []) ∧
          (measured = true → t.sfm = { u.sfm with slew := offset - ((u.sfm.slotLen : Int) - 80000) } ∧
            t.get F.SPH_OFFSET_OFF = ofSigned 24 offset) ∧
          (stands = false → adopts = false → u.running = false → t.sfm = u.sfm) ∧
          (u.pairState = 5 → t.pairState = 5) ∧
          (u.pairState ≠ 5 →
            ((epoch || image || time || sum) = true → t.pairState = 5 ∧ t.flag F.SPH_IRQ_ESTRANGED = true ∧
              t.bit Reg.SPH_ESTR 0 = (epoch || u.bit Reg.SPH_ESTR 0) ∧ t.bit Reg.SPH_ESTR 1 = (image || u.bit Reg.SPH_ESTR 1) ∧
              t.bit Reg.SPH_ESTR 2 = (time || u.bit Reg.SPH_ESTR 2) ∧ t.bit Reg.SPH_ESTR 3 = (sum || u.bit Reg.SPH_ESTR 3)) ∧
            ((epoch || image || time || sum) = false → t.reg Reg.SPH_ESTR = u.reg Reg.SPH_ESTR ∧
              (u.pairState = 2 ∧ u.sph.passDone = true → t.pairState = 4 ∧ t.flag F.SPH_IRQ_ALIGNED = true) ∧
              (u.pairState ≠ 2 ∨ u.sph.passDone = false → t.pairState = u.pairState)) ∧
            (compared = true → t.sph.sumRun = 0 ∧ t.flag F.SPH_STAT_SUMSTALE = false) ∧
            (u.pairState = 4 → compared = false → t.sph.sumRun = min (u.sph.sumRun + 1) 4096 ∧
              (u.sph.sumRun = 4095 → t.flag F.SPH_STAT_SUMSTALE = true ∧ t.flag F.SPH_IRQ_SUMSTALE = true))))) ∧
      (u.pairState = 3 →
        (b.state = 4 → exec (.beat h b) s = .next (({ v.put F.SPH_STAT_PEER_ESTR 0 with sph :=
          { v.sph with aligning := false, mirror := [], heir := false } } : State).put F.SPH_STAT_PEER_LOST 0)) ∧
        (b.state = 0 ∨ b.state = 1 ∨ b.state = 5 → exec (.beat h b) s = .next { v.put F.SPH_STAT_PEER_ESTR (if b.state = 5 then 1 else 0)
          with sph := { v.sph with aligning := false, mirror := [], heir := false } }) ∧
        (b.state = 2 → ∃ t : State, exec (.beat h b) s = .next t ∧ t.sph.aligning = true ∧ t.sph.mirror = [] ∧ t.sph.heir = false ∧ t.mem = u.mem ∧ t.sfm = u.sfm ∧
          (u.sph.aligning = false → t.sph.dirty = [(0, 262143)] ∧ t.sph.sweep = 0 ∧ t.get F.SPH_ALIGN_COUNT = 0) ∧
          (u.sph.aligning = true → t.sph.dirty = u.sph.dirty ∧ t.sph.out = u.sph.out)) ∧
        (b.state = 3 →
          let mine := u.get F.SPH_STAT_TERM
          let loses : Bool := u.sph.fresh && u.sph.handover.isNone &&
            decide (mine < b.term.toNat ∨ (mine = b.term.toNat ∧ u.peerUid < u.uid))
          (loses = false → exec (.beat h b) s = .next (v.put F.SPH_STAT_PEER_ESTR 0)) ∧
          (loses = true → ∃ t : State, exec (.beat h b) s = .next t ∧ t.pairState = 5 ∧ t.bit Reg.SPH_ESTR 4 = true ∧
            t.flag F.SPH_IRQ_ESTRANGED = true ∧ t.sph.out = u.sph.out ∧ t.sph.waiting = u.sph.waiting ∧ t.sph.later = [] ∧ t.sfm.launches = [] ∧ t.tx = u.tx ∧ t.mem = u.mem)))) ∧
    (s.pairState = 4 → s.flag F.SPH_CTL_AUTO = true → exec .primaryLost s = .next { s with sph := { s.sph with due := true } }) ∧
    (s.pairState = 4 → s.flag F.SPH_CTL_AUTO = false → exec .primaryLost s = .next (s.put F.SPH_IRQ_PRIMARY_LOST 1)) ∧
    (s.pairState = 2 → exec .primaryLost s = .next ((s.put F.SPH_STAT_STATE 1).put F.SPH_IRQ_PRIMARY_LOST 1)) ∧
    (s.pairState ≠ 2 → s.pairState ≠ 4 → exec .primaryLost s = .next s) ∧
    (s.pairState = 3 → s.sph.peer ≠ 0 ∨ s.sph.mirror ≠ [] →
      exec .peerLost s = .next { ((s.put F.SPH_STAT_PEER_LOST 1).put F.SPH_STAT_PEER_ESTR 0).put F.SPH_IRQ_PEER_LOST 1 with
        sph := { s.sph with later := [], peer := 0, aligning := false, handover := none, heir := false, mirror := [] }
        flc := { s.flc with waits := s.flc.waits.filter (fun w => w != .request) }
        cip := { s.cip with core := s.cip.core.map (fun x => x.map (fun run => { run with waitSeq := none })) } }) ∧
    (s.pairState ≠ 3 ∨ (s.sph.peer = 0 ∧ s.sph.mirror = []) → exec .peerLost s = .next s) ∧
    (∀ off : BitVec 17, s.sph.due = false → exec (.takeover off) s = .next s) ∧
    (∀ off : BitVec 17, s.sph.due = true →
      ∃ t : State, exec (.takeover off) s = .next t ∧ t.pairState = 3 ∧ t.get F.SPH_STAT_TERM = min (s.get F.SPH_STAT_TERM + 1) 0xFFFF ∧
        t.flag F.SPH_STAT_PEER_LOST = true ∧ t.flag F.SPH_IRQ_TAKEOVER = true ∧ t.sph.due = false ∧ t.sph.dirty = [] ∧ t.sph.out = s.sph.out ∧ t.sph.waiting = s.sph.waiting ∧ t.sph.later = s.sph.later ∧
        t.sph.heir = (s.sph.handoff.isSome && s.sph.peer == 3) ∧ t.sph.peer = (if s.sph.handoff = none then 0 else s.sph.peer) ∧
        t.sph.txSeq = s.sph.txSeq ∧ t.sph.rxSeq = s.sph.rxSeq ∧
        t.sph.lift = (if s.get F.SPH_LIFT_LIFT = 0 then none else some 0) ∧ t.mem = s.mem ∧ (s.sph.mirror = [] → t.sfm = s.sfm) ∧
        (s.running = true → t.sph.acct = [] ∧ t.granules = s.applyHeld.granules ∧
          ∀ n : Nat, n < 1024 → t.get (F.SFM_QCR_CREDIT n) = s.applyHeld.get (F.SFM_QCR_CREDIT n)) ∧
        (s.running = false → t.sph.acct = s.sph.acct ∧ t.granules = s.granules) ∧
        (∀ x : MirrorRec, s.sph.mirror = [x] →
          let beacon := bitAt x.body.w3.toNat 9
          let slot := x.body.w2.toNat + bitsOf x.body.w3.toNat 0 8 * 2 ^ 32
          let desc := bitsOf x.body.w0.toNat 0 12
          let q := if beacon then none else s.sfm.pend.find? (fun y => y.desc == desc)
          let l := s.recordLaunch x q
          let left : Bool := match s.sph.handoff with
            | some a => decide (s.slotsTo slot < s.slotsTo a)
            | none => false
          let makes : Bool := !left && decide (0 ≤ s.slotsTo slot) && decide ((off.toNat : Int) < l.occStart) && (beacon || q.isSome)
          l.khz = s.hopChannel (x.target.getD slot) ∧ t.sfm.launches = s.sfm.launches ++ (if makes then [l] else []) ∧
          t.sfm.pend = (if makes then s.sfm.pend.filter (fun y => beacon || y.desc != desc) else s.sfm.pend) ∧
          t.sph.mirror = if left then [x] else [])) ∧
    (s.sph.lift = none → exec .counterLift s = .next s) ∧
    (∀ p : Nat, s.sph.lift = some p →
      ∃ t : State, exec .counterLift s = .next t ∧ t.sph.lift = none ∧
        (∀ i : Nat, i < 262144 → t.entry i = if s.ready 13 = true ∧ p ≤ i ∧ s.sph.lifted.contains i = false then
          setBits (s.entry i) 44 24 (min (entTc (s.entry i) + s.get F.SPH_LIFT_LIFT) 0xFFFFFF) else s.entry i) ∧
        (∀ a : Nat, a < 0x10000000 ∨ 0x10400000 ≤ a → t.byte a = s.byte a) ∧ (∀ k : Nat, k ≠ Reg.CST_SUM → t.reg k = s.reg k)) ∧
    (s.admits r.val Reg.SPH_CMD true = true →
      let c := s.served r.val Reg.SPH_CMD
      let rejoined : State := { c.put F.SPH_ESTR_CAUSE 0 with sph :=
        { s.sph with pairid := s.get F.SPH_CTL_PAIRID, role := s.get F.SPH_CTL_ROLE } }
      (s.pairState = 5 → s.linked = false ∨ s.sph.peer ≠ 3 →
        exec (.rejoin r) s = .next ((rejoined.put F.SPH_STAT_STATE 1).answered 0)) ∧
      (s.pairState = 5 → s.linked = true → s.sph.peer = 3 → exec (.rejoin r) s = .next (((({ rejoined with
        sfm := { s.sfm with pend := [] }
        sph := { rejoined.sph with timed := false, acctSeen := false, passOpen := false, passDone := false, mirror := [], acct := []
                                   badEpoch := none, badImg := none, firstBeat := false, sumRun := 0, passAt := 0, beatAt := none
                                   stood := false, handoff := none } } : State).put
          F.SPH_ALIGN_COUNT 0).put F.SPH_STAT_STATE 2).answered 0)) ∧
      (s.pairState ≠ 5 → exec (.rejoin r) s = .next (c.answered 0)) ∧
      (s.pairState = 1 ∨ s.follows = true →
        exec (.promote r) s = .next (({ c with sph := { s.sph with due := true } } : State).answered 0)) ∧
      (s.pairState ≠ 1 → s.follows = false → exec (.promote r) s = .next (c.answered 0)) ∧
      (s.pairState ≠ 3 ∨ s.sph.peer ≠ 4 ∨ s.sph.handover ≠ none → exec (.handover r) s = .next (c.answered 0)) ∧
      (s.pairState = 3 → s.sph.peer = 4 → s.sph.handover = none →
        let slot := (s.sfm.asn.toNat + 3) % 2 ^ 40
        let f : OutFrame := ⟨(s.sph.txSeq + 1) % 65536, 0x15, false, bytesLe 8 slot⟩
        let sent := ({ c with sph := { s.sph with txSeq := f.seq } } : State).sendWaiting (s.sph.waiting ++ [f])
        (s.sph.later = [] →
          exec (.handover r) s = .next (({ sent with sph := { sent.sph with handover := some slot } } : State).answered 0)) ∧
        (s.sph.later ≠ [] → exec (.handover r) s = .next (({ c with sph := { s.sph with
          handover := some slot, later := s.sph.later ++ [.frame 0x15 (bytesLe 8 slot)] } } : State).answered 0)))) ∧
    (s.sph.handover = none ∨ s.pairState ≠ 3 ∨ s.sfm.launches ≠ [] ∨ s.tx.hop ≠ none ∨ s.tx.cur ≠ none ∨ s.sph.out ≠ [] ∨
      s.sph.waiting ≠ [] ∨ s.sph.later ≠ [] ∨ s.sph.dirty ≠ [] → exec .plannedHandoverComplete s = .next s) ∧
    (∀ slot : Nat, s.sph.handover = some slot → s.pairState = 3 → s.sfm.launches = [] → s.tx.hop = none → s.tx.cur = none →
      s.sph.out = [] → s.sph.waiting = [] → s.sph.later = [] → s.sph.dirty = [] →
      exec .plannedHandoverComplete s = .next ((({ s with sph :=
        { s.sph with handover := none, handoff := none, timed := true, firstBeat := false, sumRun := 0, badEpoch := none, badImg := none
                     dirty := [], aligning := false, passAt := 0, beatAt := none, stood := false } } : State).put F.SPH_STAT_STATE 4).put F.SPH_IRQ_ALIGNED 1))

/-- Selects and transactions of the host SPI (10_host_ports.md R317, R318, R319, R321, R322, R323, R324, R325, R326, R327, R328).
The model's choice: one command for a whole transaction, its late words as an operand (log entry 72), and selects not served before
their release (74). -/
def Obligations.HostSpi : Prop :=
  ∀ (s : State) (cs : Select), s.canonical = true →
    let b : Nat := if cs = .s then 0 else 1
    let other : Select := if cs = .s then .n else .s
    (∀ both : Bool, s.ready 2 = false → exec (.selectAssert cs both) s = .next s) ∧
    (∀ both : Bool, s.ready 2 = true → s.spi.sel = none → both = false ∨ s.spi.ignored ≠ none → exec (.selectAssert cs both) s =
      .next { s with spi := { sel := some cs, cfg := s.reg (Reg.HSP_CFG b), ignored := s.spi.ignored } }) ∧
    (s.ready 2 = true → s.spi.sel = none → s.spi.ignored = none → exec (.selectAssert cs true) s =
      .next ((({ s with spi := { collided := true } } : State).put (F.HSP_STATUS_COLLIDE 0) 1).put (F.HSP_STATUS_COLLIDE 1) 1)) ∧
    (∀ both : Bool, s.ready 2 = true → s.spi.sel = some cs → exec (.selectAssert cs both) s = .next s) ∧
    (∀ both : Bool, s.ready 2 = true → s.spi.sel = some other →
      exec (.selectAssert cs both) s = .next { s with spi := { s.spi with ignored := some cs } }) ∧
    (∀ n : Nat, s.ready 2 = true → s.spi.sel = some cs → s.spi.bad = false →
      let f := if s.spi.clocks = some n then s else s.put (F.HSP_STATUS_FRAMING b) 1
      let g := if 1 ≤ n ∧ n ≤ 7 then (f.setReg (Reg.HSP_CFG b) 0x400).put (F.HSP_STATUS_CFGRST b) 1 else f
      let ended : State := { g with flc := { s.flc with waits := s.flc.waits.map (FlashWait.unsent cs) } }
      exec (.selectRelease cs n) s = .next { ended with spi := { ignored := s.spi.ignored } } ∧
      (s.spi.ignored = none → exec (.selectTimeout n) s = .next { (ended.put (F.HSP_STATUS_TIMEOUT b) 1).put
        (F.HSP_STATUS_FRAMING b) 1 with spi := { ignored := some cs } }) ∧
      (s.spi.ignored ≠ none → exec (.selectTimeout n) s = .next { (ended.put (F.HSP_STATUS_TIMEOUT b) 1).put
        (F.HSP_STATUS_FRAMING b) 1 with spi := { collided := true } })) ∧
    (∀ x : SpiWait, FlashWait.unsent cs (.spi x) = .spi { x with live := x.live && decide (x.t.cs ≠ cs) }) ∧
    (∀ n : Nat, s.spi.sel = some other → s.spi.ignored = some cs →
      exec (.selectRelease cs n) s = .next { s with spi := { s.spi with ignored := none } }) ∧
    (∀ n : Nat, s.spi.sel = none → exec (.selectTimeout n) s = .next s ∧
      (s.spi.collided = true → exec (.selectRelease cs n) s = .next { s with spi := { ignored := some other } })) ∧
    (s.ready 2 = true → s.spi.sel = some cs → s.spi.clocks = none → s.spi.bad = false →
      let quad := s.spi.cfg.getLsbD 0
      let crcOn := s.spi.cfg.getLsbD 1
      let waits := if quad then max 1 (bitsOf s.spi.cfg.toNat 8 4) else bitsOf s.spi.cfg.toNat 8 4
      let words := if quad then 8 else 32
      let idle : List Word := List.replicate waits 0xFFFFFFFF
      let sent (t : State) (n : Nat) (ws : List Word) : State :=
        if t.ready 2 = true ∧ t.spi.sel = some cs then { t with spi := { t.spi with clocks := some (words * n), out := idle ++ ws } } else t
      let lateMark (t : State) (late : Bool) : State :=
        if late = true ∧ t.ready 2 = true ∧ t.spi.sel = some cs then t.put (F.HSP_STATUS_LATE b) 1 else t
      let begun : State := { s with spi := { s.spi with clocks := some (words * (4 + waits)), out := [] } }
      (∀ (addr d : Word) (inTime : Bool), crcOn = false → addr.toNat % 4 = 0 →
        let w := s.busWrite (64 + b) addr.toNat d
        let u := if w.2 = none then w.1 else w.1.portError (64 + b) addr.toNat
        let status : Word := if inTime = false then 0xA0000004 else if w.2 = none then 0xA0010000 else 0xA0000001
        let t : Out := .next (sent (lateMark u (!inTime)) (4 + waits) [status])
        exec (.write ⟨cs, 0x02000001, addr, [d], none, if inTime then 1 else 0⟩) s = t ∧
        exec (.writeFix ⟨cs, 0x03000001, addr, [d], none, if inTime then 1 else 0⟩) s = t) ∧
      (∀ (addr : Word) (late : Bool), crcOn = false → addr.toNat % 4 = 0 → s.flashWaits addr.toNat = false →
        let r := begun.busRead (64 + b) addr.toNat
        let u := match r.2 with
          | .ok _ => r.1
          | .error _ => r.1.portError (64 + b) addr.toNat
        let word : Word := match r.2 with
          | .ok v => if late then 0 else BitVec.ofNat 32 v
          | .error _ => 0
        let status : Word := match r.2 with
          | .ok _ => if late then 0xA0000004 else 0xA0010000
          | .error _ => if late then 0xA0000005 else 0xA0000001
        let t : Out := .next (sent (lateMark u late) (4 + waits) [word, status])
        exec (.read ⟨cs, 0x0B000001, addr, none, [late]⟩) s = t ∧
        exec (.readFix ⟨cs, 0x0C000001, addr, none, [late]⟩) s = t) ∧
      (∀ (addr : Word) (late : Bool), crcOn = false → addr.toNat % 4 = 0 → s.flashWaits addr.toNat = true →
        let told := if late then sent (lateMark begun true) (4 + waits) [0, 0xA0000004] else sent begun (4 + waits) []
        let held (t : SpiRead) (fixed : Bool) : Out := .next { told with flc := { s.flc with
          waits := s.flc.waits ++ [.spi ⟨⟨b, waits, false, words⟩, t, fixed, !late, [], [], s.worldMap⟩] } }
        exec (.read ⟨cs, 0x0B000001, addr, none, [late]⟩) s = held ⟨cs, 0x0B000001, addr, none, [late]⟩ false ∧
        exec (.readFix ⟨cs, 0x0C000001, addr, none, [late]⟩) s = held ⟨cs, 0x0C000001, addr, none, [late]⟩ true) ∧
      (∀ (addr d0 d1 : Word) (u w : State), crcOn = false → addr.toNat % 4 = 0 → addr.toNat + 4 < 2 ^ 32 →
        u.ready 2 = true → u.spi.sel = some cs → s.busWrite (64 + b) addr.toNat d0 = (u, none) →
        (u.busWrite (64 + b) (addr.toNat + 4) d1 = (w, none) →
          exec (.write ⟨cs, 0x02000002, addr, [d0, d1], none, 2⟩) s = .next (sent w (5 + waits) [0xA0020000])) ∧
        (u.busWrite (64 + b) addr.toNat d1 = (w, none) →
          exec (.writeFix ⟨cs, 0x03000002, addr, [d0, d1], none, 2⟩) s = .next (sent w (5 + waits) [0xA0020000]))) ∧
      (∀ (addr : Word) (u w : State) (v0 v1 : Nat), crcOn = false → addr.toNat % 4 = 0 → addr.toNat + 4 < 2 ^ 32 →
        ({ s with spi := { s.spi with clocks := some (words * (5 + waits)), out := [] } } : State).busRead (64 + b) addr.toNat = (u, .ok v0) →
        s.flashWaits addr.toNat = false →
        (u.busRead (64 + b) (addr.toNat + 4) = (w, .ok v1) → u.flashWaits (addr.toNat + 4) = false →
          exec (.read ⟨cs, 0x0B000002, addr, none, [false, false]⟩) s =
            .next (sent w (5 + waits) [BitVec.ofNat 32 v0, BitVec.ofNat 32 v1, 0xA0020000])) ∧
        (u.busRead (64 + b) addr.toNat = (w, .ok v1) → u.flashWaits addr.toNat = false →
          exec (.readFix ⟨cs, 0x0C000002, addr, none, [false, false]⟩) s =
            .next (sent w (5 + waits) [BitVec.ofNat 32 v0, BitVec.ofNat 32 v1, 0xA0020000]))) ∧
      (∀ addr d hcrc : Word, crcOn = true → addr.toNat % 4 = 0 →
        let crc := crc16Spi ((bytesLe 4 0x02000001).reverse ++ (bytesLe 4 addr.toNat).reverse ++ (bytesLe 4 d.toNat).reverse) % 65536
        (hcrc.toNat % 65536 ≠ crc → exec (.write ⟨cs, 0x02000001, addr, [d], some hcrc, 1⟩) s =
          .next (sent (s.put (F.HSP_STATUS_CRC b) 1) (5 + waits) [0xA0000002])) ∧
        (∀ w : State, hcrc.toNat % 65536 = crc → s.busWrite (64 + b) addr.toNat d = (w, none) →
          exec (.write ⟨cs, 0x02000001, addr, [d], some hcrc, 1⟩) s = .next (sent w (5 + waits) [0xA0010000]))) ∧
      (∀ addr hcrc : Word, crcOn = true → addr.toNat % 4 = 0 → s.flashWaits addr.toNat = false →
        let crc := crc16Spi ((bytesLe 4 0x0B000001).reverse ++ (bytesLe 4 addr.toNat).reverse) % 65536
        let dcrc (v : Word) : Word := BitVec.ofNat 32 (crc16Spi (bytesLe 4 v.toNat).reverse)
        (hcrc.toNat % 65536 ≠ crc → exec (.read ⟨cs, 0x0B000001, addr, some hcrc, [false]⟩) s =
          .next (sent (s.put (F.HSP_STATUS_CRC b) 1) (6 + waits) [0, dcrc 0, 0xA0000002])) ∧
        (∀ (w : State) (v : Nat), hcrc.toNat % 65536 = crc →
          ({ s with spi := { s.spi with clocks := some (words * (6 + waits)), out := [] } } : State).busRead (64 + b) addr.toNat = (w, .ok v) →
          exec (.read ⟨cs, 0x0B000001, addr, some hcrc, [false]⟩) s =
            .next (sent w (6 + waits) [BitVec.ofNat 32 v, dcrc (BitVec.ofNat 32 v), 0xA0010000]))) ∧
      (∀ (cmd addr d : Word), (∀ op ∈ [0x02, 0x03, 0x0B, 0x0C], cmd.toNat / 2 ^ 24 ≠ op) →
        exec (.write ⟨cs, cmd, addr, [d], none, 1⟩) s = .next { s.put (F.HSP_STATUS_BADCMD b) 1 with
          spi := { s.spi with bad := true, clocks := none, out := [] } }) ∧
      (∀ (n : Nat) (addr d : Word), n < 2 ^ 24 → 512 ≤ n ∨ n = 0 ∨ 256 < n ∨ addr.toNat % 4 ≠ 0 →
        let c := if crcOn then 1 else 0
        let len (k : Nat) : Option Nat := if 1 ≤ n % 512 ∧ n % 512 ≤ 256 then some (words * (3 + n % 512 + k * c + waits)) else none
        exec (.write ⟨cs, BitVec.ofNat 32 (0x02000000 + n), addr, [d], none, 1⟩) s = .next { s.put (F.HSP_STATUS_BADCMD b) 1 with
          spi := { s.spi with bad := true, clocks := len 1, out := [] } } ∧
        exec (.read ⟨cs, BitVec.ofNat 32 (0x0B000000 + n), addr, none, [false]⟩) s = .next { s.put (F.HSP_STATUS_BADCMD b) 1 with
          spi := { s.spi with bad := true, clocks := len 2, out := [] } })) ∧
    (∀ (w : SpiWrite) (r : SpiRead), w.cs = cs → r.cs = cs →
      s.ready 2 = false ∨ s.spi.sel ≠ some cs ∨ s.spi.clocks ≠ none ∨ s.spi.bad = true →
      exec (.write w) s = .next s ∧ exec (.writeFix w) s = .next s ∧ exec (.read r) s = .next s ∧ exec (.readFix r) s = .next s)

/-- Chain addressing, register access, wake and attention messages (10_host_ports.md R330, R332, R333, R334, R335, R336, R337, R338,
R339, R340, R341). The model's choice: no FRAMING before a first byte (log entry 75), the access of a late word (76) and addresses
from 0x80 refused (77). -/
def Obligations.ManagementPort : Prop :=
  ∀ (s : State) (r : Req), s.canonical = true →
    let mark (t : State) (m : BitVec 4) : State := { t with mgb := { t.mgb with status := t.mgb.status ||| m } }
    (∀ (seen : Bool) (a : Byte),
      let noted : State := { s with pins := { s.pins with adrIn := seen } }
      let open' : Prop := s.ready 3 = true ∧ s.flag F.MGB_ADDR_ASSIGNED = false ∧ seen = true
      (open' → 8 ≤ a.toNat → a.toNat < 0x78 → a.toNat ≠ 0x58 →
        exec (.assign seen a) s = .next { (noted.put F.MGB_ADDR_ASSIGNED 1).put F.MGB_ADDR_ADDR a.toNat with
          pins := { s.pins with adrIn := true, adrOut := true } }) ∧
      (¬open' ∨ a.toNat < 8 ∨ 0x78 ≤ a.toNat ∨ a.toNat = 0x58 → exec (.assign seen a) s = .next noted) ∧
      (open' → exec (.identify seen) s = .next { noted with mgb := { s.mgb with
        out := bytesLe 2 (s.get F.MGB_INCARN_INCARN) ++ bytesLe 4 (s.reg Reg.SYS_UID_LO).toNat ++
          bytesLe 4 (s.reg Reg.SYS_UID_HI).toNat } }) ∧
      (¬open' → exec (.identify seen) s = .next noted)) ∧
    (∀ (bytes : List Byte) (late : List Bool) (cmd seq : Byte) (o : AttemptOutcome), s.ready 3 = false ∨ s.flag F.MGB_ADDR_ASSIGNED = false →
      exec (.pointer bytes) s = .next s ∧ exec (.mgbWrite cmd bytes) s = .next s ∧ exec (.mgbRead late) s = .next s ∧
      exec (.attnAck seq) s = .next s ∧ exec (.attentionAttempt o) s = .next s) ∧
    (s.ready 3 = true → s.flag F.MGB_ADDR_ASSIGNED = true →
      (∀ p : List Byte,
        (p.length = 4 → ofBytesLe p % 4 = 0 →
          exec (.pointer p) s = .next { s with mgb := { s.mgb with ptr := BitVec.ofNat 32 (ofBytesLe p) } }) ∧
        (p.length = 4 → ofBytesLe p % 4 ≠ 0 → exec (.pointer p) s = .next (mark s 4)) ∧
        (1 ≤ p.length → p.length < 4 → exec (.pointer p) s = .next (mark s 2)) ∧
        (p.length = 0 → exec (.pointer p) s = .next s)) ∧
      (∀ p w x : List Byte, p.length = 4 → w.length = 4 → x.length < 4 →
        let at' : State := { s with mgb := { s.mgb with ptr := BitVec.ofNat 32 (ofBytesLe p) } }
        let d := at'.busWrite 66 (ofBytesLe p) (BitVec.ofNat 32 (ofBytesLe w))
        let put : State := if d.2 = none then { d.1 with data := 0, err := false } else { mark d.1 1 with data := 0, err := true }
        let moved : State := { put with mgb := { put.mgb with ptr := put.mgb.ptr + 4 } }
        (ofBytesLe p % 4 = 0 → exec (.mgbWrite 0x20 (p ++ w ++ x)) s = .next (if x = [] then moved else mark moved 2)) ∧
        (ofBytesLe p % 4 ≠ 0 → exec (.mgbWrite 0x20 (p ++ w ++ x)) s = .next (mark s 4)) ∧
        (∀ cmd : Byte, cmd ≠ 0x10 → cmd ≠ 0x20 → cmd ≠ 0x30 → exec (.mgbWrite cmd x) s = .next (mark s 4))) ∧
      (∀ late : Bool,
        let a := s.mgb.ptr.toNat
        let clear : State := { s with mgb := { s.mgb with status := 0 } }
        let status : Byte := BitVec.ofNat 8 (s.mgb.status.toNat + 128 * s.get F.MGB_ATTNSTAT_PENDING)
        let d := clear.busRead 66 a
        let word := match d.2 with
          | .ok v => v % 2 ^ 32
          | .error _ => 0
        let got : State := match d.2 with
          | .ok _ => { d.1 with data := BitVec.ofNat 32 word, err := false }
          | .error _ => { mark d.1 1 with data := 0, err := true }
        let told : State := if late then mark got 8 else got
        exec (.mgbRead []) s = .next { clear with mgb := { clear.mgb with out := [status] } } ∧
        (s.flashWaits a = false → exec (.mgbRead [late]) s = .next { told with mgb :=
          { told.mgb with ptr := told.mgb.ptr + 4, out := status :: bytesLe 4 (if late then 0 else word) } }) ∧
        (s.flashWaits a = true → exec (.mgbRead [false]) s =
          .next { clear with flc := { s.flc with waits := s.flc.waits ++ [.mgb [false] [status] s.worldMap] } }) ∧
        (s.flashWaits a = true → exec (.mgbRead [true]) s = .next { clear with
          flc := { s.flc with waits := s.flc.waits ++ [.word 66 s.mgb.ptr s.worldMap] }
          mgb := { clear.mgb with status := 8, ptr := s.mgb.ptr + 4, out := status :: bytesLe 4 0 } })) ∧
      (∀ seq : Byte,
        (s.flag F.MGB_ATTNSTAT_PENDING = true → s.get F.MGB_ATTNSTAT_SEQ = seq.toNat → exec (.attnAck seq) s =
          .next (((s.put F.MGB_ATTNSTAT_PENDING 0).put F.MGB_ATTNSTAT_CAUSE 0).put F.MGB_ATTNSTAT_NEWLIFE 0)) ∧
        (s.flag F.MGB_ATTNSTAT_PENDING = false ∨ s.get F.MGB_ATTNSTAT_SEQ ≠ seq.toNat → exec (.attnAck seq) s = .next s)) ∧
      (s.flag F.MGB_ATTN_EN = true → s.flag F.MGB_ATTNSTAT_PENDING = true →
        let body : List Byte := [BitVec.ofNat 8 (s.get F.MGB_ADDR_ADDR)] ++ bytesLe 2 (s.get F.MGB_INCARN_INCARN) ++
          [BitVec.ofNat 8 (s.get F.MGB_ATTNSTAT_CAUSE + 128 * s.get F.MGB_ATTNSTAT_NEWLIFE), BitVec.ofNat 8 (s.get F.MGB_ATTNSTAT_SEQ)]
        let khz := if s.get F.MGB_ATTN_SPEED = 0 then 100 else if s.get F.MGB_ATTN_SPEED = 1 then 400 else 1000
        exec (.attentionAttempt .sent) s = .next { s with mgb := { s.mgb with msgs := s.mgb.msgs ++
          [⟨s.get F.MGB_ATTN_HOST, khz, body ++ [BitVec.ofNat 8 (crc8Attn body)]⟩] } } ∧
        exec (.attentionAttempt .arbLost) s = .next (s.put F.MGB_ARBLOST_COUNT (min 65535 (s.get F.MGB_ARBLOST_COUNT + 1))) ∧
        exec (.attentionAttempt .nack) s = .next s ∧ exec (.attentionAttempt .busNotFree) s = .next s) ∧
      (∀ o : AttemptOutcome, s.flag F.MGB_ATTN_EN = false ∨ s.flag F.MGB_ATTNSTAT_PENDING = false →
        exec (.attentionAttempt o) s = .next s)) ∧
    (∀ (a : BitVec 7) (seen : Bool),
      let noted : State := { s with pins := { s.pins with adrIn := seen } }
      let mine := if s.flag F.MGB_ADDR_ASSIGNED then decide (a.toNat = s.get F.MGB_ADDR_ADDR) else seen && decide (a.toNat = 0x58)
      let asleep : Prop := s.pwrState = 2 ∨ s.pwrState = 3
      let woken := noted.signalWake 0
      (mine = true → asleep → s.flag F.MGB_CFG_COMPAT = true → exec (.managementAddressMatch a seen) s = .next woken) ∧
      (mine = true → asleep → s.flag F.MGB_CFG_COMPAT = false →
        exec (.managementAddressMatch a seen) s = .next { woken with mgb := { s.mgb with matcherHold := true } }) ∧
      (mine = false ∨ ¬asleep → exec (.managementAddressMatch a seen) s = .next noted)) ∧
    (let hung (t : State) : State := t.put F.MGB_HANG_COUNT (min 65535 (t.get F.MGB_HANG_COUNT + 1))
     (s.mgb.matcherHold = true → s.ready 3 = false → exec .matcherRelease s =
       .next (hung { s with mgb := { s.mgb with matcherHold := false } })) ∧
     (s.mgb.matcherHold = false ∨ s.ready 3 = true → exec .matcherRelease s = .next s) ∧
     (s.ready 3 = true → exec .sclHang s = .next (hung s) ∧ exec .busClear s = .next (hung s)) ∧
     (s.ready 3 = false → exec .sclHang s = .next s ∧ exec .busClear s = .next s)) ∧
    (∀ cause : BitVec 7, s.admits r.val Reg.MGB_ATTNREQ true = true →
      let c := (s.served r.val Reg.MGB_ATTNREQ).put F.MGB_ATTNSTAT_CAUSE (s.get F.MGB_ATTNSTAT_CAUSE ||| cause.toNat)
      (s.flag F.MGB_ATTNSTAT_PENDING = true → exec (.mgbAttnreq r cause) s = .next (c.answered 0)) ∧
      (s.flag F.MGB_ATTNSTAT_PENDING = false → exec (.mgbAttnreq r cause) s = .next
        (((c.put F.MGB_ATTNSTAT_SEQ ((s.get F.MGB_ATTNSTAT_SEQ + 1) % 256)).put F.MGB_ATTNSTAT_PENDING 1).answered 0)))

/-- Frames, enables, MDIO and the PTP clock (10_host_ports.md R342, R343, R344, R345, R346, R347, R348, R349). The model's choice:
the length limit and the drop before the FCS (log entry 78), word 1's other bits kept (79) and what PAUSE does (81). -/
def Obligations.EthernetMacs : Prop :=
  ∀ (s : State) (r : Req) (m : Fin 2), s.canonical = true →
    let run (c : State) (n : Nat) : State := { c with
      mac := c.mac.map (fun x => { x with pause := x.pause - n })
      ptp := if c.ready 4 then c.ptp.add (n * c.get F.ETH_PTP_INC_INC : Nat) else c.ptp }
    let desc (base idx : Nat) : Nat := base / 32 * 32 + 32 * idx
    let words (w2 : Nat) (p : Option Ptp) : List Byte := match p with
      | some p => bytesLe 4 (w2 + 4096) ++ bytesLe 4 0 ++ bytesLe 4 p.ns ++ bytesLe 4 p.sec ++ bytesLe 4 (p.sec / 2 ^ 32) ++ bytesLe 4 0
      | none => bytesLe 4 w2 ++ List.replicate 20 0
    let next (count idx : Nat) : Nat := if (if count = 0 then 1024 else count) ≤ idx + 1 then 0 else idx + 1
    let more (u : State) (f : Fld) : State := u.put f (min 65535 (u.get f + 1))
    let rxHalt (u : State) : State := u.put (F.ETH_STAT_RXHALT m.val) 1
    let txHalt (u : State) : State := u.put (F.ETH_STAT_TXHALT m.val) 1
    let txNext (u : State) : State :=
      let v := u.put (F.ETH_TXIDX_IDX m.val) (next (u.get (F.ETH_TXCNT_COUNT m.val)) (u.get (F.ETH_TXIDX_IDX m.val)))
      if v.flag (F.ETH_EVT_TXE m.val) then { v with events := v.events ++ [.hw (0x104 + m.val) (v.get (F.ETH_EVT_TXCH m.val))] } else v
    (∀ (f : EthFrame) (dt : Nat),
      let t := run s dt
      let pausing (u : State) : State :=
        if u.flag (F.ETH_CTL_PAUSE m.val) = true ∧ f.bad = false ∧
            (f.bytes.take 6 = [0x01, 0x80, 0xC2, 0, 0, 0x01] ∨ f.bytes.take 6 = u.station m) ∧
            (f.bytes.drop 12).take 4 = [0x88, 0x08, 0x00, 0x01] then
          u.setMac m { u.macAt m with pause := ofBytesLe ((f.bytes.drop 16).take 2).reverse *
            (if u.get (F.ETH_CTL_SPEED m.val) = 0 then 6400 else if u.get (F.ETH_CTL_SPEED m.val) = 1 then 640 else 64) }
        else u
      (s.ready (4 + m.val) = false ∨ s.pwr.latch ≠ none → exec (.rxFrame m f dt) s = .next t) ∧
      (s.ready (4 + m.val) = true → s.pwr.latch = none →
        let r1 := t.resumeTx m
        let t1 := r1.setReg (Reg.ETH_STAT m.val) (BitVec.ofNat 32 ((r1.reg (Reg.ETH_STAT m.val)).toNat / 16 * 16 + f.status.toNat))
        let fin (u : State) : Out := .next ((pausing u).resumeTx m)
        (t1.flag (F.ETH_CTL_RXEN m.val) = false ∨ t1.flag (F.ETH_STAT_RXHALT m.val) = true → exec (.rxFrame m f dt) s = .next t1) ∧
        (t1.flag (F.ETH_CTL_RXEN m.val) = true → t1.flag (F.ETH_STAT_RXHALT m.val) = false →
          let a := f.bytes.take 6
          let group := bitAt (a.headD 0).toNat 0
          let mine := t1.flag (F.ETH_CTL_PROMISC m.val) || (decide (a = t1.station m) && !group) || decide (a = List.replicate 6 0xFF) ||
            (t1.flag (F.ETH_CTL_MCAST m.val) && group) || (t1.flag (F.ETH_CTL_PTP m.val) &&
              decide (a = [0x01, 0x1B, 0x19, 0, 0, 0] ∨ a = [0x01, 0x80, 0xC2, 0, 0, 0x0E]))
          let d := desc (t1.get (F.ETH_RXBASE_BASE m.val)) (t1.get (F.ETH_RXIDX_IDX m.val))
          (mine = false → exec (.rxFrame m f dt) s = fin t1) ∧
          (∀ (u : State) (e : AccErr), mine = true → t1.macRead m d 8 = (u, .error e) → exec (.rxFrame m f dt) s = fin (rxHalt u)) ∧
          (∀ (u : State) (bs : List Byte), mine = true → t1.macRead m d 8 = (u, .ok bs) →
            let w1 := ofBytesLe (bs.drop 4) % 2 ^ 32
            let part := f.bytes.take (if w1 % 4096 = 0 then 2048 else w1 % 4096)
            let w2 := part.length % 4096 + (if part.length < f.bytes.length then 8192 else 0) +
              (if group = true ∧ a ≠ List.replicate 6 0xFF then 16384 else 0) + (if a = List.replicate 6 0xFF then 32768 else 0)
            (w1 < 2 ^ 31 → exec (.rxFrame m f dt) s = fin (more u (F.ETH_RXDROP_COUNT m.val))) ∧
            (2 ^ 31 ≤ w1 → f.bad = true ∨ 2044 < f.bytes.length → exec (.rxFrame m f dt) s = fin (more u (F.ETH_RXERR_COUNT m.val))) ∧
            (2 ^ 31 ≤ w1 → f.bad = false → f.bytes.length ≤ 2044 →
              let x := u.macWrite m (ofBytesLe (bs.take 4) % 2 ^ 32) part
              let y := x.1.macWrite m (d + 8) (words w2 (if s.ready 4 then some t.ptp else none))
              let z := y.1.macWrite m (d + 4) (bytesLe 4 (w1 - 2 ^ 31))
              (x.2 ≠ none → exec (.rxFrame m f dt) s = fin (rxHalt x.1)) ∧
              (x.2 = none → y.2 ≠ none → exec (.rxFrame m f dt) s = fin (rxHalt y.1)) ∧
              (x.2 = none → y.2 = none →
                let v := more (z.1.put (F.ETH_RXIDX_IDX m.val) (next (z.1.get (F.ETH_RXCNT_COUNT m.val))
                  (z.1.get (F.ETH_RXIDX_IDX m.val)))) (F.ETH_RXFRAMES_COUNT m.val)
                exec (.rxFrame m f dt) s = fin (if z.2 ≠ none then rxHalt z.1 else if v.flag (F.ETH_EVT_RXE m.val)
                  then { v with events := v.events ++ [.hw (0x104 + m.val) (v.get (F.ETH_EVT_RXCH m.val))] } else v))))))) ∧
    (let on (c : State) : Prop := c.ready (4 + m.val) = true ∧ c.flag (F.ETH_CTL_TXEN m.val) = true ∧
       c.flag (F.ETH_STAT_TXHALT m.val) = false ∧ (c.macAt m).sending = none
     let d := desc (s.get (F.ETH_TXBASE_BASE m.val)) (s.get (F.ETH_TXIDX_IDX m.val))
     (¬on s → s.txPoll m = s) ∧
     (on s → (s.macAt m).pause ≠ 0 → s.txPoll m = s.setMac m { s.macAt m with due := true }) ∧
     (∀ (u : State) (e : AccErr), on s → (s.macAt m).pause = 0 → s.macRead m d 8 = (u, .error e) → s.txPoll m = txHalt u) ∧
     (∀ (u : State) (bs : List Byte), on s → (s.macAt m).pause = 0 → s.macRead m d 8 = (u, .ok bs) →
       let w1 := ofBytesLe (bs.drop 4) % 2 ^ 32
       (w1 < 2 ^ 31 → s.txPoll m = u) ∧
       (2 ^ 31 ≤ w1 → w1 % 4096 < 14 ∨ 2044 < w1 % 4096 →
         let y := u.macWrite m (d + 8) (words 8192 none)
         let z := y.1.macWrite m (d + 4) (bytesLe 4 (w1 - 2 ^ 31))
         s.txPoll m = if y.2 ≠ none then txHalt y.1 else if z.2 ≠ none then txHalt z.1 else txNext z.1) ∧
       (∀ (v : State) (e : AccErr), 2 ^ 31 ≤ w1 → 14 ≤ w1 % 4096 → w1 % 4096 ≤ 2044 →
         u.macRead m (ofBytesLe (bs.take 4)) (w1 % 4096) = (v, .error e) → s.txPoll m = txHalt v) ∧
       (∀ (v : State) (frame : List Byte), 2 ^ 31 ≤ w1 → 14 ≤ w1 % 4096 → w1 % 4096 ≤ 2044 →
         u.macRead m (ofBytesLe (bs.take 4)) (w1 % 4096) = (v, .ok frame) →
         ∃ cycles : Nat,
           let begun := run { v with free := v.free + 1 } cycles
           let padded := frame ++ List.replicate (60 - frame.length) 0
           s.txPoll m = begun.setMac m { begun.macAt m with due := false, sending := some ⟨d, BitVec.ofNat 32 w1,
             padded ++ bytesLe 4 (crc32 padded), if bitAt w1 30 = true ∧ v.ready 4 = true then some begun.ptp else none⟩ })) ∧
     ((s.macAt m).due = true → (s.macAt m).pause = 0 → s.resumeTx m = (s.setMac m { s.macAt m with due := false }).txPoll m) ∧
     ((s.macAt m).due = false ∨ (s.macAt m).pause ≠ 0 → s.resumeTx m = s)) ∧
    (s.admits r.val (Reg.ETH_TXPOLL m.val) true = true →
      let c := s.served r.val (Reg.ETH_TXPOLL m.val)
      ((s.macAt m).pause = 0 → exec (.ethTxpoll r m) s = .next ((c.txPoll m).answered 0)) ∧
      ((s.macAt m).pause ≠ 0 → ∃ cycles : Nat, exec (.ethTxpoll r m) s =
        .next (((run { c with free := c.free + 1 } cycles).txPoll m).answered 0))) ∧
    (∀ dt : Nat,
      let t := (run s dt).resumeTx m
      ((t.macAt m).sending = none → exec (.txFrameEnd m dt) s = .next s) ∧
      (∀ f : TxFrame, (t.macAt m).sending = some f →
        let y := (t.setMac m { t.macAt m with sending := none }).macWrite m (f.desc + 8) (words 0 (if t.ready 4 then f.stamp else none))
        let z := y.1.macWrite m (f.desc + 4) (bytesLe 4 (f.w1.toNat % 2 ^ 31))
        (y.2 ≠ none → exec (.txFrameEnd m dt) s = .next (txHalt y.1)) ∧
        (y.2 = none → z.2 ≠ none → exec (.txFrameEnd m dt) s = .next (txHalt z.1)) ∧
        (y.2 = none → z.2 = none → exec (.txFrameEnd m dt) s =
          .next ((txNext (more z.1 (F.ETH_TXFRAMES_COUNT m.val))).txPoll m)))) ∧
    (∀ rx tx : Bool, s.admits r.val (Reg.ETH_CTL m.val) true = true →
      let k := Reg.ETH_CTL m.val
      let c := (s.served r.val k).setReg k (BitVec.ofNat 32 ((s.reg k).toNat / 4 * 4 + (if tx then 1 else 0) + (if rx then 2 else 0)))
      let u := if rx = true ∧ s.flag (F.ETH_CTL_RXEN m.val) = false
        then (c.put (F.ETH_STAT_RXHALT m.val) 0).put (F.ETH_RXIDX_IDX m.val) 0 else c
      exec (.ethEnable r m rx tx) s = .next ((if tx = true ∧ s.flag (F.ETH_CTL_TXEN m.val) = false
        then (u.put (F.ETH_STAT_TXHALT m.val) 0).put (F.ETH_TXIDX_IDX m.val) 0 else u).answered 0)) ∧
    (∀ v : Word, s.admits r.val (Reg.ETH_MDIO m.val) true = true →
      let c := s.served r.val (Reg.ETH_MDIO m.val)
      (s.flag (F.ETH_MDIO_GO m.val) = true → exec (.mdioGo r m v) s = .next (c.answered 0)) ∧
      (s.flag (F.ETH_MDIO_GO m.val) = false → exec (.mdioGo r m v) s = .next ((c.setReg (Reg.ETH_MDIO m.val)
        (BitVec.ofNat 32 (bitsOf v.toNat 0 26 + bitsOf v.toNat 30 1 * 2 ^ 30 + 2 ^ 31))).answered 0))) ∧
    (∀ data : BitVec 16,
      (s.flag (F.ETH_MDIO_GO m.val) = true → s.flag (F.ETH_MDIO_READ m.val) = true →
        (s.pwr.latch = none → exec (.mdioFrameEnd m data) s =
          .next ((s.put (F.ETH_MDIO_DATA m.val) data.toNat).put (F.ETH_MDIO_GO m.val) 0)) ∧
        (∀ p : PadLatch, s.pwr.latch = some p → exec (.mdioFrameEnd m data) s = .next ((s.put (F.ETH_MDIO_DATA m.val)
          (if p.mdioIn.getLsbD m.val then 0xFFFF else 0)).put (F.ETH_MDIO_GO m.val) 0))) ∧
      (s.flag (F.ETH_MDIO_GO m.val) = true → s.flag (F.ETH_MDIO_READ m.val) = false →
        exec (.mdioFrameEnd m data) s = .next (s.put (F.ETH_MDIO_GO m.val) 0)) ∧
      (s.flag (F.ETH_MDIO_GO m.val) = false → exec (.mdioFrameEnd m data) s = .next s)) ∧
    (∀ v : BitVec 16, s.admits r.val Reg.ETH_PTP_SETS_HI true = true →
      ∃ t : State, exec (.ethPtpSetsHi r v) s = .next t ∧ t.err = false ∧ t.mem = s.mem ∧ t.get F.ETH_PTP_SETS_HI_S_H = v.toNat ∧ t.ptp =
        ⟨s.get F.ETH_PTP_SETS_LO_S_L + v.toNat * 2 ^ 32, min (s.get F.ETH_PTP_SETNS_NS) 999999999, 0⟩) ∧
    (∀ v : Word, s.admits r.val Reg.ETH_PTP_ADJ true = true → ∃ cycles : Nat,
      let t := run { s.served r.val Reg.ETH_PTP_ADJ with free := s.free + 1 } cycles
      exec (.ethPtpAdj r v) s = .next (({ t with ptp := t.ptp.add (v.toInt * 2 ^ 24) } : State).answered 0)) ∧
    (∀ (p : Ptp) (n : Int), p.sec < 2 ^ 48 → p.ns < 1000000000 → p.frac < 2 ^ 24 →
      let q := p.add n
      q.sec < 2 ^ 48 ∧ q.ns < 1000000000 ∧ q.frac < 2 ^ 24 ∧
      ((((q.sec * 1000000000 + q.ns) * 2 ^ 24 + q.frac : Nat) : Int) - ((p.sec * 1000000000 + p.ns) * 2 ^ 24 + p.frac : Nat) - n) %
        (2 ^ 48 * 1000000000 * 2 ^ 24) = 0)

/-- Feeder frames, contactor commands and faults, pin edges (11_feeder_io.md R354, R355, R358, R359, R360, R362, R363, R366, R367,
R369, R372, R373). The model's choice: a slot's frames from its start (log entry 82), RIDX kept (83), the codes FAULTOFF refuses
(84), held feedback not seen (85), settling by R356 (40), the cycle of a clear by R371 (153), the dwell until DWELL_END (133). -/
def Obligations.FeederContactorsAndPins : Prop :=
  ∀ (s : State) (r : Req) (k : Fin 8), s.canonical = true →
    (∀ (xs : List Int) (off : BitVec 17),
      let q := s.fdr.seq
      (s.flag F.FDR_STAT_RUNNING = false → exec (.frameInstant xs off) s = .next s) ∧
      (s.flag F.FDR_STAT_RUNNING = true → s.fdr.realign = true →
        exec (.frameInstant xs off) s = .next { s with fdr := { s.fdr with seq := (q + 1) % 65536 } }) ∧
      (s.flag F.FDR_STAT_RUNNING = true → s.fdr.realign = false →
        ∃ t : State, exec (.frameInstant xs off) s = .next t ∧ t.fdr.seq = (q + 1) % 65536 ∧ t.mem = s.mem ∧
          t.fdr.frames.length = s.fdr.frames.length + 1 ∧ (∀ i < s.fdr.frames.length, t.fdr.frames[i]? = s.fdr.frames[i]?) ∧
          t.reg Reg.FDR_OVR = s.reg Reg.FDR_OVR ||| BitVec.ofNat 32 (t.fdr.frames.getLastD ⟨0, [], 0⟩).clamp.toNat ∧
          (t.fdr.frames.getLastD ⟨0, [], 0⟩).seq = q ∧ (t.fdr.frames.getLastD ⟨0, [], 0⟩).samples.length = 8 ∧
          (∀ n : Fin 8, t.fdr.chan[n].settle = s.fdr.chan[n].settle - 1) ∧
          (∀ n : Fin 8, s.get (F.FDR_TRIM_PTRIM n.val) = 0 → s.get (F.FDR_CHCFG_HPF n.val) = 0 → s.fdr.chan[n].settle = 0 →
            let x := xs.getD n.val 0 * 2 ^ min 5 (s.get (F.FDR_CHCFG_GAIN n.val)) * (2 ^ 20 + s.getS (F.FDR_TRIM_GTRIM n.val))
            ∃ up : Nat, up ≤ 1 ∧ (up = 1 → x % 2 ^ 25 ≠ 0) ∧
              let v : Int := max (-0x7FFFFF) (min 0x7FFFFF (x / 2 ^ 25 + up))
              (t.fdr.frames.getLastD ⟨0, [], 0⟩).samples.getD n.val 0 = ofSigned 24 v ∧
              (t.fdr.frames.getLastD ⟨0, [], 0⟩).clamp.getLsbD n.val = decide (v ≠ x / 2 ^ 25 + up)) ∧
          (q % 256 = 0 → t.get F.FDR_TSEQ_SEQ = q ∧ (t.reg Reg.FDR_TS_LO).toNat = (s.sfm.asn.toNat % 2 ^ 15) * 2 ^ 17 +
            (if s.running then off.toNat else 0) ∧ (t.reg Reg.FDR_TS_HI).toNat = s.sfm.asn.toNat / 2 ^ 15) ∧
          (q % 256 ≠ 0 → t.reg Reg.FDR_TSEQ = s.reg Reg.FDR_TSEQ ∧ t.reg Reg.FDR_TS_LO = s.reg Reg.FDR_TS_LO))) ∧
    (∀ old : Word,
      let field (g : Fld) : Bool := bitsOf old.toNat g.lo g.width == s.get g
      (field (F.FDR_CHCFG_GAIN k.val) = true → field (F.FDR_CHCFG_HPF k.val) = true → s.channelWritten k old = s) ∧
      (field (F.FDR_CHCFG_GAIN k.val) = false ∨ field (F.FDR_CHCFG_HPF k.val) = false → s.channelWritten k old =
        { s with fdr := { s.fdr with chan := s.fdr.chan.set k { s.fdr.chan[k] with settle := 32, span := none } } })) ∧
    (s.fdr.frames = [] → exec .frameWrite s = .next s) ∧
    (∀ (f : FdrFrame) (rest : List FdrFrame), s.fdr.frames = f :: rest →
      let took : State := { s with fdr := { s.fdr with frames := rest } }
      let w := s.get F.FDR_WIDX_IDX
      let box (n : Nat) : List Byte := bytesLe 3 (f.samples.getD n 0) ++ [BitVec.ofNat 8 (if n = 0 then f.seq % 256
        else if n = 1 then f.seq / 256 else if n = 2 then f.clamp.toNat else 0)]
      let halted (t : State) : State := (({ t with fdr := { t.fdr with frames := [] } } : State).put F.FDR_STAT_HALT 1).put F.FDR_STAT_RUNNING 0
      let x := took.moveWrite (s.blockNS 16) 70 (s.fdr.base + 32 * w + 4) (box 1 ++ box 2 ++ box 3 ++ box 4 ++ box 5 ++ box 6 ++ box 7)
      let y := x.1.moveWrite (s.blockNS 16) 70 (s.fdr.base + 32 * w) (box 0)
      ((w + 1) % s.fdr.size = s.get F.FDR_RIDX_IDX → exec .frameWrite s =
        .next ((took.put F.FDR_DROP_COUNT (min 65535 (s.get F.FDR_DROP_COUNT + 1))).put F.FDR_STAT_OVF 1)) ∧
      ((w + 1) % s.fdr.size ≠ s.get F.FDR_RIDX_IDX →
        (x.2 ≠ none → exec .frameWrite s = .next (halted x.1)) ∧
        (x.2 = none → y.2 ≠ none → exec .frameWrite s = .next (halted y.1)) ∧
        (x.2 = none → y.2 = none →
          let t := y.1.put F.FDR_WIDX_IDX ((w + 1) % s.fdr.size)
          let n := 2 ^ s.get F.FDR_CTL_EVDIV
          exec .frameWrite s = .next (if s.flag F.FDR_CTL_EVT = true ∧ f.seq % n = n - 1
            then { t with events := t.events ++ [.hw 0x110 (s.get F.FDR_CTL_EVCH)] } else t)))) ∧
    (s.admits r.val Reg.FDR_CTL true = true →
      let c := s.served r.val Reg.FDR_CTL
      (s.flag F.FDR_CTL_EN = false →
        let fresh : Fdr := { seq := 0, base := (s.reg Reg.FDR_RBASE).toNat / 32 * 32,
                             size := ringSize (s.get F.FDR_RSIZE_FRAMES), realign := s.fdr.realign && s.flag F.FDR_CTL_ALIGN,
                             chan := s.fdr.chan.map (fun x => { settle := x.settle }) }
        let u : State := { c.setReg Reg.FDR_CTL (s.reg Reg.FDR_CTL ||| 1) with fdr := fresh }
        exec (.fdrEnable r) s = .next ((((u.put F.FDR_STAT_HALT 0).put F.FDR_STAT_RUNNING 1).put F.FDR_WIDX_IDX 0).answered 0)) ∧
      (s.flag F.FDR_CTL_EN = true → exec (.fdrEnable r) s = .next (({ c.setReg Reg.FDR_CTL (s.reg Reg.FDR_CTL) with
        fdr := { s.fdr with realign := s.fdr.realign && s.flag F.FDR_CTL_ALIGN } } : State).answered 0)) ∧
      (∀ align : Bool,
        let u := c.put F.FDR_CTL_ALIGN (if align then 1 else 0)
        let v := if s.flag F.FDR_CTL_EN then u else u.put F.FDR_STAT_RUNNING 0
        exec (.fdrAlignChange r align) s = .next (({ v with fdr := { s.fdr with
          realign := align && (s.fdr.realign || (!s.flag F.FDR_CTL_ALIGN && (s.running || s.sfm.startPend))) } } : State).answered 0))) ∧
    (∀ n : Nat, (n < 16 → ringSize n = 16) ∧ (16 ≤ n → ringSize n ≤ n ∧ (n < 2 * ringSize n ∨ ringSize n = 4096)) ∧
      ringSize n ∈ [16, 32, 64, 128, 256, 512, 1024, 2048, 4096]) ∧
    (let one : Byte := BitVec.ofNat 8 (2 ^ k.val)
     let bit' (t : State) (a i : Nat) (v : Bool) : State := t.put ⟨a, i, 1⟩ (if v then 1 else 0)
     let code := bitsOf (s.reg Reg.CTR_FAULT).toNat (3 * k.val) 3
     let coded (t : State) (n : Nat) : State := t.put ⟨Reg.CTR_FAULT, 3 * k.val, 3⟩ n
     let driven (t : State) (v : Bool) : State := let u := bit' (bit' t Reg.CTR_STAT k.val v) Reg.CTR_STAT (16 + k.val) false
       { u with ctr := { dwell := u.ctr.dwell ||| one, window := u.ctr.window ||| one, cleared := u.ctr.cleared &&& ~~~one } }
     let faulty (t : State) (n : Nat) : State :=
       if code ≠ 0 ∨ s.bit Reg.CTR_OE k.val = false then t
       else if s.flag F.CTR_CFG_FAULTOFF = true ∧ (n = 1 ∨ n = 3) then driven (bit' ((coded t n).log 7 (k.val + n * 256)) Reg.CTR_OUT k.val false) false
       else (coded t n).log 7 (k.val + n * 256)
     let drive := s.bit Reg.CTR_STAT k.val
     (∀ v : Bool,
       let out := bit' s Reg.CTR_OUT k.val v
       let refused : Prop := v = true ∧ s.flag F.CTR_CFG_FAULTOFF = true ∧ (code = 1 ∨ code = 3)
       (refused → s.command k.val v = s.put F.CTR_STAT_REFUSED 1) ∧
       (¬refused → drive = v → s.command k.val v = bit' out Reg.CTR_STAT (16 + k.val) false) ∧
       (¬refused → drive ≠ v → s.ctr.dwell.getLsbD k.val = true → s.get F.CTR_CFG_DWELL ≠ 0 →
         s.command k.val v = bit' out Reg.CTR_STAT (16 + k.val) true) ∧
       (¬refused → drive ≠ v → s.ctr.dwell.getLsbD k.val = false ∨ s.get F.CTR_CFG_DWELL = 0 →
         s.command k.val v = driven out v)) ∧
     (∀ v : Byte,
       let all (a : Nat) (f : State → Nat → State) : Out := .next (((List.range 8).foldl f (s.served r.val a)).answered 0)
       (s.admits r.val Reg.CTR_OUT true = true →
         exec (.ctrOut r v) s = all Reg.CTR_OUT (fun t n => t.command n (v.getLsbD n))) ∧
       (s.admits r.val Reg.CTR_SET true = true →
         exec (.ctrSet r v) s = all Reg.CTR_SET (fun t n => if v.getLsbD n then t.command n true else t)) ∧
       (s.admits r.val Reg.CTR_CLR true = true →
         exec (.ctrClr r v) s = all Reg.CTR_CLR (fun t n => if v.getLsbD n then t.command n false else t)) ∧
       (s.admits r.val Reg.CTR_FCLR true = true → exec (.ctrFclr r v) s = all Reg.CTR_FCLR (fun t n =>
         let b : Byte := BitVec.ofNat 8 (2 ^ n)
         let rest := t.ctr.cleared &&& ~~~b
         if v.getLsbD n then { t.put ⟨Reg.CTR_FAULT, 3 * n, 3⟩ 0 with ctr := { t.ctr with
           window := t.ctr.window ||| b, cleared := if t.ctr.window.getLsbD n then rest else rest ||| b } }
         else t))) ∧
     (s.ctr.dwell.getLsbD k.val = false → exec (.dwellEnd k) s = .next s) ∧
     (s.ctr.dwell.getLsbD k.val = true →
       let u : State := { s with ctr := { s.ctr with dwell := s.ctr.dwell &&& ~~~one } }
       exec (.dwellEnd k) s = .next (if s.bit Reg.CTR_STAT (16 + k.val) then driven u (s.bit Reg.CTR_OUT k.val) else u)) ∧
     (∀ level atClear : Bool, s.pwr.latch ≠ none → exec (.feedbackChange k ⟨level, atClear⟩) s = .next s) ∧
     (∀ level atClear : Bool, s.pwr.latch = none →
       let fb := level != s.bit Reg.CTR_FBPOL k.val
       let u : State := { s with pins := { s.pins with cfb := BitVec.ofNat 8 (setBits s.pins.cfb.toNat k.val 1 (if level then 1 else 0)) } }
       let meets : Bool := atClear && s.ctr.cleared.getLsbD k.val
       let t := bit' { u with ctr := { s.ctr with cleared := s.ctr.cleared &&& ~~~one
                                                  window := if meets then s.ctr.window &&& ~~~one else s.ctr.window } }
         Reg.CTR_STAT (8 + k.val) fb
       let quiet : Prop := s.bit Reg.CTR_STAT (8 + k.val) = fb ∨ (s.ctr.window.getLsbD k.val = true ∧ meets = false)
       let go (x : State) : Out := .next (if meets then { x with ctr := { x.ctr with
         window := x.ctr.window ||| one, cleared := x.ctr.cleared &&& ~~~one } } else x)
       (s.ready 17 = false → exec (.feedbackChange k ⟨level, atClear⟩) s = .next u) ∧
       (s.ready 17 = true → quiet ∨ drive = fb → exec (.feedbackChange k ⟨level, atClear⟩) s = go t) ∧
       (s.ready 17 = true → ¬quiet → drive = true → fb = false → exec (.feedbackChange k ⟨level, atClear⟩) s = go (faulty t 3)) ∧
       (s.ready 17 = true → ¬quiet → drive = false → fb = true → exec (.feedbackChange k ⟨level, atClear⟩) s = go (faulty t 4))) ∧
     (s.ctr.window.getLsbD k.val = false → exec (.matchWindowEnd k) s = .next s) ∧
     (s.ctr.window.getLsbD k.val = true →
       let u : State := { s with ctr := { s.ctr with window := s.ctr.window &&& ~~~one, cleared := s.ctr.cleared &&& ~~~one } }
       let fb := s.bit Reg.CTR_STAT (8 + k.val)
       exec (.matchWindowEnd k) s = .next (if drive = fb then u else faulty u (if drive then 1 else 2)))) ∧
    (∀ v : BitVec 24,
      let out := s.get F.GPIO_OUT_OUT
      let moved (a n : Nat) : Out := .next ((((s.served r.val a).put F.GPIO_OUT_OUT n).noteEdges s.pinLevels).answered 0)
      (s.admits r.val Reg.GPIO_SET true = true → exec (.gpioSet r v) s = moved Reg.GPIO_SET (out ||| v.toNat)) ∧
      (s.admits r.val Reg.GPIO_CLR true = true → exec (.gpioClr r v) s = moved Reg.GPIO_CLR (out &&& (v.toNat ^^^ 0xFFFFFF))) ∧
      (s.admits r.val Reg.GPIO_TGL true = true → exec (.gpioTgl r v) s = moved Reg.GPIO_TGL (out ^^^ v.toNat))) ∧
    (∀ (old : BitVec 24) (p : Fin 24),
      let now := s.pinLevels
      let edge (n : Nat) : Bool := (now.testBit n && !old.getLsbD n && s.bit Reg.GPIO_RISE n) || (!now.testBit n && old.getLsbD n && s.bit Reg.GPIO_FALL n)
      let t := s.noteEdges old.toNat
      (s.ready 17 = false → t = s) ∧
      (s.ready 17 = true → t.bit Reg.GPIO_EDGE p.val = (s.bit Reg.GPIO_EDGE p.val || edge p.val) ∧ t.mem = s.mem ∧ t.pins = s.pins ∧
        t.events = s.events ++ (if s.flag F.GPIO_EVT_EN then List.replicate ((List.range 24).filter edge).length
          (.hw 0x111 (s.get F.GPIO_EVT_EVCH)) else []))) ∧
    (∀ (p : Fin 24) (level : Bool),
      let now := BitVec.ofNat 24 (setBits s.pins.gpio.toNat p.val 1 (if level then 1 else 0))
      exec (.gpioEdge p level) s = .next (({ s with pins := { s.pins with gpio := now } } : State).noteEdges s.pinLevels)) ∧
    (∀ n : Fin 24, s.pinLevels.testBit n.val = match s.pwr.latch with
      | some p => if p.gpioDir.getLsbD n.val then p.gpioOut.getLsbD n.val else p.gpioIn.getLsbD n.val
      | none => if s.bit Reg.GPIO_DIR n.val then s.bit Reg.GPIO_OUT n.val else s.pins.gpio.getLsbD n.val)

/-- Every source's kind and request; events, claims and completions of interrupt sources (12_interrupts_timers_rtc.md R376, R377,
R378, R379, R380, R381, R382, R383, R384, R385, R392, 02_receive_path.md R74). -/
def Obligations.InterruptController : Prop :=
  ∀ (s : State) (r : Req) (n : SrcIx), s.canonical = true → n.val ≠ 0 → n.val ≠ 511 →
    let counted (t : State) : State := if s.flag (F.IRQ_SRC_EN n.val)
      then t.put (F.IRQ_SRC_CNT n.val) (min (2 ^ (F.IRQ_SRC_CNT n.val).width - 1) (t.get (F.IRQ_SRC_CNT n.val) + 1)) else t
    (∀ ctx : Fin 2,
      (s.deliverable ctx.val n.val = true ↔ s.flag (F.IRQ_SRC_EN n.val) = true ∧ s.flag (F.IRQ_SRC_ACT n.val) = false ∧
        (if isPulse n.val then s.get (F.IRQ_SRC_CNT n.val) ≠ 0 else s.flag (F.IRQ_SRC_REQ n.val) = true) ∧
        s.get (F.IRQ_SRC_CTX n.val) = ctx.val ∧ s.flag (F.IRQ_HOLD_RUN (n.val / 32)) = false) ∧
      ((∃ m : SrcIx, m.val ≠ 0 ∧ m.val ≠ 511 ∧ s.deliverable ctx.val m.val = true) → s.noteSeen.get (F.IRQ_STAT_SEEN ctx.val) = 1) ∧
      ((∀ m : SrcIx, m.val ≠ 0 → m.val ≠ 511 → s.deliverable ctx.val m.val = false) →
        s.noteSeen.reg (Reg.IRQ_STAT ctx.val) = s.reg (Reg.IRQ_STAT ctx.val))) ∧
    (s.ready 20 = false → exec (.sourceEvent n) s = .next s ∧
      exec (.requestWithdrawn n) s = .next { s with aonHigh := s.aonHigh.filter s.levelReq }) ∧
    (s.ready 20 = true →
      (isPulse n.val = true → s.pulses.contains n.val = true →
        exec (.sourceEvent n) s = .next (counted { s with pulses := s.pulses.erase n.val }).noteSeen) ∧
      (isPulse n.val = true → s.pulses.contains n.val = false → exec (.sourceEvent n) s = .next s) ∧
      (isPulse n.val = true → exec (.requestWithdrawn n) s = .next s) ∧
      (isPulse n.val = false →
        (s.levelReq n.val = true → s.flag (F.IRQ_SRC_REQ n.val) = false →
          exec (.sourceEvent n) s = .next (counted (s.put (F.IRQ_SRC_REQ n.val) 1)).noteSeen) ∧
        (s.levelReq n.val = false ∨ s.flag (F.IRQ_SRC_REQ n.val) = true → exec (.sourceEvent n) s = .next s) ∧
        (s.levelReq n.val = false → s.flag (F.IRQ_SRC_REQ n.val) = true → exec (.requestWithdrawn n) s =
          .next ((if s.flag (F.IRQ_SRC_EN n.val) = true ∧ s.flag (F.IRQ_SRC_ACT n.val) = false
            then s.put (F.IRQ_SRC_CNT n.val) 0 else s).put (F.IRQ_SRC_REQ n.val) 0)) ∧
        (s.levelReq n.val = true ∨ s.flag (F.IRQ_SRC_REQ n.val) = false → exec (.requestWithdrawn n) s = .next s))) ∧
    (let ctx := s.world r.val
     s.admits r.val (Reg.IRQ_CLAIM 0) false = true → s.snapOf r.val (Reg.IRQ_CLAIM ctx) = none →
      (s.deliverable ctx n.val = true →
        (∀ m : SrcIx, m ≠ n → m.val ≠ 0 → m.val ≠ 511 → s.deliverable ctx m.val = true →
          s.get (F.IRQ_SRC_PRIO m.val) < s.get (F.IRQ_SRC_PRIO n.val) ∨
            (s.get (F.IRQ_SRC_PRIO m.val) = s.get (F.IRQ_SRC_PRIO n.val) ∧ n < m)) →
        let u := ((s.served r.val (Reg.IRQ_CLAIM ctx)).put (F.IRQ_SRC_ACT n.val) 1).put (F.IRQ_SRC_CNT n.val) 0
        let v := if s.get (F.IRQ_HOLD_US (n.val / 32)) = 0 then u else u.put (F.IRQ_HOLD_RUN (n.val / 32)) 1
        exec (.irqClaim r) s = .next (((v.put (F.IRQ_STAT_SEEN ctx) 0).noteSeen).answered
          (BitVec.ofNat 32 (n.val + s.get (F.IRQ_SRC_CNT n.val) * 4096)))) ∧
      ((∀ m : SrcIx, m.val ≠ 0 → m.val ≠ 511 → s.deliverable ctx m.val = false) → exec (.irqClaim r) s =
        .next ((((s.served r.val (Reg.IRQ_CLAIM ctx)).put (F.IRQ_STAT_SEEN ctx) 0).noteSeen).answered (if s.flag (F.IRQ_STAT_SEEN ctx) then 511 else 0)))) ∧
    (let ctx := s.world r.val
     let c := s.served r.val (Reg.IRQ_COMPLETE ctx)
     s.admits r.val (Reg.IRQ_COMPLETE 0) true = true →
      (s.flag (F.IRQ_SRC_ACT n.val) = true → s.get (F.IRQ_SRC_CTX n.val) = ctx →
        let u := c.put (F.IRQ_SRC_ACT n.val) 0
        let again := !isPulse n.val && s.flag (F.IRQ_SRC_REQ n.val) && s.get (F.IRQ_SRC_CNT n.val) == 0
        exec (.irqComplete r n) s = .next (((if again then u.put (F.IRQ_SRC_CNT n.val) 1 else u).noteSeen).answered 0)) ∧
      (s.flag (F.IRQ_SRC_ACT n.val) = false ∨ s.get (F.IRQ_SRC_CTX n.val) ≠ ctx →
        exec (.irqComplete r n) s = .next (c.answered 0))) ∧
    (∀ v : Word, s.admits r.val (Reg.IRQ_SRC n.val) true = true →
      let c := s.served r.val (Reg.IRQ_SRC n.val)
      let moves : Prop := s.reqNS r.val = false ∧ s.flag (F.IRQ_SRC_EN n.val) = false ∧ s.flag (F.IRQ_SRC_ACT n.val) = false
      let u (t : State) : State := (t.put (F.IRQ_SRC_PRIO n.val) (v.toNat % 8)).put (F.IRQ_SRC_EN n.val) (if v.getLsbD 3 then 1 else 0)
      let w (t : State) : State := if v.getLsbD 3 then t else t.put (F.IRQ_SRC_CNT n.val) 0
      (moves → exec (.irqSrcWrite r n v) s =
        .next ((w (u (c.put (F.IRQ_SRC_CTX n.val) (if v.getLsbD 8 then 1 else 0)))).noteSeen.answered 0)) ∧
      (¬moves → exec (.irqSrcWrite r n v) s = .next ((w (u c)).noteSeen.answered 0))) ∧
    (∀ (m : SrcIx) (v : Word), m.val = 0 ∨ m.val = 511 → s.admits r.val (Reg.IRQ_SRC m.val) true = true →
      exec (.irqSrcWrite r m v) s = .next ((s.served r.val (Reg.IRQ_SRC m.val)).answered 0)) ∧
    (∀ g : Fin 16, exec (.holdOffExpiry g) s = .next (s.put (F.IRQ_HOLD_RUN g.val) 0).noteSeen) ∧
    (∀ k : Fin 32, s.ready 20 = true → exec (.aonSliceEvent k) s = .next s) ∧
    (∀ k : Fin 32, s.ready 20 = false → s.get (F.IRQ_AONSEL_SRC k.val) = n.val →
      let f : State := { s with aonHigh := s.aonHigh.filter s.levelReq }
      let catch' (t : State) (j : Nat) : State :=
        if s.get (F.IRQ_AONSEL_SRC j) = n.val then
          let u := t.setBit Reg.IRQ_AONPEND j true
          if s.flag (F.IRQ_AONSEL_WAKE j) then u.signalWake 3 else u
        else t
      (isPulse n.val = true → s.pulses.contains n.val = true → exec (.aonSliceEvent k) s =
        .next ((List.range 32).foldl catch' { f with pulses := s.pulses.erase n.val })) ∧
      (isPulse n.val = false → s.levelReq n.val = true → s.aonHigh.contains n.val = false → exec (.aonSliceEvent k) s =
        .next ((List.range 32).foldl catch' { f with aonHigh := n.val :: f.aonHigh })) ∧
      ((if isPulse n.val then s.pulses.contains n.val = false else s.levelReq n.val = false ∨ s.aonHigh.contains n.val = true) →
        exec (.aonSliceEvent k) s = .next f)) ∧
    (∀ k : Fin 32, s.ready 20 = false → s.get (F.IRQ_AONSEL_SRC k.val) = 0 →
      exec (.aonSliceEvent k) s = .next { s with aonHigh := s.aonHigh.filter s.levelReq }) ∧
    (∀ m : SrcIx, isPulse m.val = true ↔ m.val ∈ [2, 3, 5, 6, 7, 9, 14, 64, 65] ∨ (128 ≤ m.val ∧ m.val ≤ 191)) ∧
    (∀ l : LaneIx, s.levelReq (256 + l.val) = true ↔ (s.laneAt l).state = .ready) ∧
    (∀ j : TmrIx, s.levelReq (32 + j.val) = true ↔
      (s.get (F.TMR_STAT_MATCH j.val) = 1 ∧ s.get (F.TMR_CFG_IENM j.val) = 1) ∨
      (s.get (F.TMR_STAT_OVF j.val) = 1 ∧ s.get (F.TMR_CFG_IENO j.val) = 1) ∨
      ((s.get (F.TMR_STAT_CAPT j.val) = 1 ∨ s.get (F.TMR_STAT_CAPOVF j.val) = 1) ∧ s.get (F.TMR_CFG_IENC j.val) = 1)) ∧
    (∀ m : Fin 2, (s.levelReq (48 + m.val) = true ↔ s.get (F.ETH_STAT_RXHALT m.val) = 1 ∨ s.get (F.ETH_STAT_TXHALT m.val) = 1) ∧
      (s.levelReq (50 + m.val) = true ↔ s.reg (Reg.HSP_STATUS m.val) ≠ 0)) ∧
    (s.levelReq 1 = true ↔ s.get F.SYS_WVIOL_INFO_VALID = 1) ∧ (s.levelReq 4 = true ↔ s.get F.PWR_THERM_WARN = 1) ∧
    (s.levelReq 8 = true ↔ s.get F.FLC_STAT_ERR = 1 ∨ s.get F.CAL_STAT_FLAG = 1) ∧
    (s.levelReq 10 = true ↔ ∃ w : Fin 8, s.reg (Reg.EVC_HPEND w.val) ≠ 0) ∧
    (s.levelReq 11 = true ↔ ∃ b : Fin 32, (s.reg Reg.SPH_IRQ).getLsbD b.val = true ∧ (s.reg Reg.SPH_IRQEN).getLsbD b.val = true) ∧
    (s.levelReq 12 = true ↔ s.get F.WKR_STAT_MATCH = 1) ∧ (s.levelReq 13 = true ↔ s.get F.RTC_STAT_ALARM = 1) ∧
    (s.levelReq 15 = true ↔ s.get F.RTC_STAT_OSCFAIL = 1 ∨ s.get F.RTC_STAT_LOSTPWR = 1) ∧
    (s.levelReq 66 = true ↔ s.reg Reg.RXC_ERR ≠ 0) ∧ (s.levelReq 67 = true ↔ s.get F.LDP_LSTAT_LOWERED = 1) ∧
    (s.levelReq 68 = true ↔ s.get F.SFM_LOST_VALID = 1) ∧
    (s.levelReq 69 = true ↔ s.get F.SFM_STAT_RESOVF = 1 ∨ s.get F.SFM_STAT_NOSB = 1) ∧
    (s.levelReq 70 = true ↔ s.get F.CST_NRIDX_VALID = 1) ∧ (s.levelReq 71 = true ↔ s.get F.TXP_BADDESC_VALID = 1) ∧
    (s.levelReq 72 = true ↔ s.get F.SYN_ERR_LOCKFAIL = 1) ∧ (s.levelReq 73 = true ↔ s.get F.CIP_STAT_LOSTREC = 1) ∧
    (s.levelReq 74 = true ↔ s.get F.EVC_STRAY_VALID = 1) ∧
    (s.levelReq 75 = true ↔ s.get F.FDR_STAT_HALT = 1 ∨ s.get F.FDR_STAT_OVF = 1) ∧
    (s.levelReq 76 = true ↔ s.reg Reg.CTR_FAULT ≠ 0) ∧ (s.levelReq 77 = true ↔ s.reg Reg.GPIO_EDGE ≠ 0) ∧
    (∀ m : SrcIx, m.val ∉ [1, 4, 8, 10, 11, 12, 13, 15] → m.val < 32 ∨ 51 < m.val → m.val < 66 ∨ 77 < m.val → m.val < 256 ∨ 351 < m.val →
      s.levelReq m.val = false)

/-- Timer control, ticks and captures; the calendar's seconds and commands (12_interrupts_timers_rtc.md R386, R387, R388, R389,
R390, R391, R394, R395, R397, R398, R399, R400). The model's choice: an edge that the timer drives may capture (log entry 86), the
captures of one cycle (127), the cycles that TRIM trims (89). -/
def Obligations.TimersAndCalendar : Prop :=
  ∀ (s : State) (r : Req) (k : TmrIx), s.canonical = true →
    let t := s.tmrAt k
    let push (u : State) (j : TmrIx) : State :=
      if (u.tmrAt j).queue.length < 4 then (u.setTmr j { u.tmrAt j with queue := (u.tmrAt j).queue ++ [(u.tmrAt j).count] }).put
        (F.TMR_STAT_CAPT j.val) 1
      else u.put (F.TMR_STAT_CAPOVF j.val) 1
    let captured (u : State) : State := match u.cascade k with
      | some j => push (push u k) j
      | none => push u k
    (∀ j : TmrIx, s.cascade k = some j ↔ k.val % 2 = 0 ∧ j.val = k.val + 1 ∧ s.get (F.TMR_CFG_SRC j.val) = 3) ∧
    (s.admits r.val (Reg.TMR_CTL k.val) true = true →
      let c := s.served r.val (Reg.TMR_CTL k.val)
      exec (.tmrStart r k) s = .next ((c.setTmr k { t with run := true }).answered 0) ∧
      exec (.tmrStop r k) s = .next ((c.setTmr k { t with run := false }).answered 0) ∧
      exec (.clrq r k) s = .next ((c.setTmr k { t with queue := [] }).answered 0) ∧
      ∀ same : List TmrIx, exec (.cap r ⟨k, same⟩) s = .next ((c.answered 0).captures [k] same)) ∧
    (∀ ks same : List TmrIx,
      let u := s.captures ks same
      let takes : Prop := k ∉ same ∧ (k ∈ ks ∨ ∃ i ∈ ks, s.cascade i = some k)
      (takes → u.tmrAt k = (push s k).tmrAt k ∧ u.reg (Reg.TMR_STAT k.val) = (push s k).reg (Reg.TMR_STAT k.val)) ∧
      (¬takes → u.tmrAt k = t ∧ u.reg (Reg.TMR_STAT k.val) = s.reg (Reg.TMR_STAT k.val)) ∧
      (∀ a : Nat, (∀ j : TmrIx, a ≠ Reg.TMR_STAT j.val) → u.reg a = s.reg a) ∧ u.mem = s.mem ∧ u.pins = s.pins) ∧
    (∀ (level : Bool) (same : List TmrIx),
      let u : State := { s with pins := { s.pins with tio := BitVec.ofNat 16 (setBits s.pins.tio.toNat k.val 1 (if level then 1 else 0)) } }
      let edge : Prop := s.ready 18 = true ∧ s.pwr.latch = none ∧ s.flag (F.TMR_CFG_PINOUT k.val) = false ∧ s.pins.tio.getLsbD k.val ≠ level
      let src := s.get (F.TMR_CFG_CAPSRC k.val)
      let v : State × List TmrIx := if level = true ∧ t.run = true ∧ s.get (F.TMR_CFG_SRC k.val) = 2 then
          (if s.get (F.TMR_CFG_PRE k.val) ≤ t.edges then (u.setTmr k { t with edges := 0 }).tickMoves k
           else (u.setTmr k { t with edges := t.edges + 1 }, []))
        else (u, [])
      (¬edge → exec (.captureEvent k level same) s = .next u) ∧
      (edge → exec (.captureEvent k level same) s = .next
        (v.1.captures (v.2 ++ if src = 3 ∨ src = if level then 1 else 2 then [k] else []) same))) ∧
    (∀ v : BitVec 16, s.admits r.val (Reg.TMR_CMP_HI k.val) true = true →
      ∃ u : State, exec (.tmrCmpHiWrite r k v) s = .next u ∧
        u.tmrAt k = { t with cmp := BitVec.ofNat 48 (v.toNat * 2 ^ 32 + (s.reg (Reg.TMR_CMP_LO k.val)).toNat) } ∧
        (∀ j : TmrIx, j ≠ k → u.tmrAt j = s.tmrAt j) ∧ u.get (F.TMR_CMP_HI_CMP_H k.val) = v.toNat ∧
        (∀ a : Nat, a ≠ Reg.TMR_CMP_HI k.val → u.reg a = s.reg a) ∧ u.mem = s.mem ∧ u.err = false) ∧
    (s.admits r.val (Reg.TMR_CAP_LO k.val) false = true → s.snapOf r.val (Reg.TMR_CAP_LO k.val) = none →
      (∀ (x : BitVec 48) (rest : List (BitVec 48)), t.queue = x :: rest →
        ∃ u : State, exec (.tmrCapLoRead r k) s = .next u ∧ u.data = x.setWidth 32 ∧ u.err = false ∧
          u.tmrAt k = { t with queue := rest } ∧ u.snapOf r.val (Reg.TMR_CAP_HI k.val) =
            some (BitVec.ofNat 32 (2 ^ 31 + x.toNat / 2 ^ 32)) ∧ u.mem = s.mem) ∧
      (t.queue = [] → ∃ u : State, exec (.tmrCapLoRead r k) s = .next u ∧ u.data = 0 ∧ u.err = false ∧
        u.tmrAt k = t ∧ u.snapOf r.val (Reg.TMR_CAP_HI k.val) = some 0 ∧ u.mem = s.mem)) ∧
    (∀ v : Word, s.admits r.val (Reg.TMR_CFG k.val) true = true →
      let c := s.served r.val (Reg.TMR_CFG k.val)
      let d := c.setReg (Reg.TMR_CFG k.val) (v &&& 0xE7FFFF07)
      let p := if v.getLsbD 22 then d.setTmr k { t with pin := v.getLsbD 23 } else d
      (t.run = true → exec (.tmrCfgWrite r k v) s = .next ((c.setReg (Reg.TMR_CFG k.val)
        ((s.reg (Reg.TMR_CFG k.val) &&& 0x1FFFFFFF) ||| (v &&& 0xE0000000))).answered 0)) ∧
      (t.run = false → exec (.tmrCfgWrite r k v) s = .next ((p.edgeTio k (s.tioLevel k)).answered 0))) ∧
    (∀ old : Bool,
      let src := s.get (F.TMR_CFG_CAPSRC k.val)
      s.edgeTio k old = if old ≠ s.tioLevel k ∧ (src = 3 ∨ src = if s.tioLevel k then 1 else 2) then captured s else s) ∧
    (s.ready 18 = false ∨ 2 ≤ s.get (F.TMR_CFG_SRC k.val) ∨ t.run = false → exec (.timerTick k) s = .next s) ∧
    (s.ready 18 = true → s.get (F.TMR_CFG_SRC k.val) ≤ 1 → t.run = true → exec (.timerTick k) s = .next (s.tick k)) ∧
    (s.tick k = (s.tickMoves k).1.captures (s.tickMoves k).2 []) ∧
    (t.run = false → s.tickMoves k = (s, [])) ∧
    (t.run = true →
      let back (u : State) (j : TmrIx) : Bool := u.flag (F.TMR_CFG_PERIOD j.val) && (u.tmrAt j).atMatch
      let n (u : State) (j : TmrIx) : BitVec 48 := if back u j then 0 else (u.tmrAt j).count + 1
      let spill (u : State) (j : TmrIx) : Bool := back u j || n u j == 0
      let hit (u : State) (j : TmrIx) : Bool := n u j == (u.tmrAt j).cmp
      let counted (u : State) (j : TmrIx) : State :=
        let stops := hit u j && u.flag (F.TMR_CFG_ONESHOT j.val)
        let x := u.setTmr j { u.tmrAt j with count := n u j, atMatch := hit u j, run := (u.tmrAt j).run && !stops }
        let y := if hit u j then x.put (F.TMR_STAT_MATCH j.val) 1 else x
        if spill u j then y.put (F.TMR_STAT_OVF j.val) 1 else y
      let act (code : Nat) (b : Bool) : Bool := if code = 1 then true else if code = 2 then false else if code = 3 then !b else b
      let moved (u v : State) (j : TmrIx) : State :=
        if u.flag (F.TMR_CFG_PINOUT j.val) then
          let b := if spill u j then act (u.get (F.TMR_CFG_OACT j.val)) (u.tmrAt j).pin else (u.tmrAt j).pin
          let c := if hit u j then act (u.get (F.TMR_CFG_MACT j.val)) b else b
          v.setTmr j { v.tmrAt j with pin := c }
        else v
      let edges (u v : State) (js : List TmrIx) : List TmrIx := js.filter (fun j => u.tioLevel j != v.tioLevel j &&
        (s.get (F.TMR_CFG_CAPSRC j.val) == 3 || s.get (F.TMR_CFG_CAPSRC j.val) == if v.tioLevel j then 1 else 2))
      let a := counted s k
      let alone := moved s a k
      (s.cascade k = none ∨ spill s k = false → s.tickMoves k = (alone, edges a alone [k])) ∧
      (∀ j : TmrIx, s.cascade k = some j → spill s k = true →
        ((s.tmrAt j).run = false → s.tickMoves k = (alone, edges a alone [k])) ∧
        ((s.tmrAt j).run = true →
          let both := moved s (moved s (counted a j) k) j
          s.tickMoves k = (both, edges (counted a j) both [k, j])))) ∧
    (s.flag F.RTC_CTL_HALT = true → ∀ cycles : Nat, exec (.secondTick cycles) s = .next s) ∧
    (s.flag F.RTC_CTL_HALT = false →
      (∀ cycles : Nat, ∃ t : State, exec (.secondTick cycles) s = .next t ∧ t.xtal = some true ∧ t.mem = s.mem) ∧
      (∀ cycles : Nat, s.get F.RTC_TRIM_TRIM = 0 → s.trim.done = 0 →
        let n := s.get F.RTC_TIME_SUB + cycles
        let c : State := { s with xtal := some true, trim := ⟨(s.trim.cycles + cycles) % 2 ^ 20, 0⟩, free := s.free + 1 }
        let u := c.put F.RTC_TIME_SUB (n % 32768)
        (n < 32768 → exec (.secondTick cycles) s = .next u) ∧
        (32768 ≤ n → n < 65536 → exec (.secondTick cycles) s = .next u.secondTicks)) ∧
      (s.trim = ⟨0, 0⟩ → ((s.crystal (2 ^ 20)).1 : Int) = 2 ^ 20 + s.getS F.RTC_TRIM_TRIM ∧ (s.crystal (2 ^ 20)).2.trim = ⟨0, 0⟩) ∧
      (∀ n : Nat, s.trim.cycles < 2 ^ 20 → s.trim.done ≤ (s.getS F.RTC_TRIM_TRIM).natAbs →
        let d : Int := (s.crystal n).1 - n
        d.natAbs ≤ ((n + 2 ^ 20 - 1) / 2 ^ 20 + 1) * (s.getS F.RTC_TRIM_TRIM).natAbs ∧ d.natAbs ≤ n ∧ 0 ≤ d * s.getS F.RTC_TRIM_TRIM)) ∧
    (let sod := s.get F.RTC_TIME_SOD
     let day := s.get F.RTC_DATE_DAY
     let wday := s.get F.RTC_DATE_WDAY
     let month := s.get F.RTC_DATE_MONTH
     let year := s.get F.RTC_DATE_YEAR
     let days := if month ∈ [4, 6, 9, 11] then 30 else if month = 2 then
       (if year % 4 = 0 ∧ (year % 100 ≠ 0 ∨ year % 400 = 0) then 29 else 28) else 31
     let u : State := { s with rtcDst := none }
     let alarm (v : State) : State :=
       if s.flag F.RTC_CTL_ALMEN = true ∧ v.get F.RTC_TIME_SOD = s.get F.RTC_ALARM_SOD ∧ s.get F.RTC_ALARM_SOD ≤ 86399 ∧
           (s.flag F.RTC_ALARM_DAYEN = false ∨ v.get F.RTC_DATE_DAY = s.get F.RTC_ALARM_DAY) then
         (v.put F.RTC_STAT_ALARM 1).signalWake 2 else v
     let plain (c : State) : State :=
       if sod < 86399 then c.put F.RTC_TIME_SOD (sod + 1)
       else
         let m := c.put F.RTC_TIME_SOD 0
         let d := if day < days then m.put F.RTC_DATE_DAY (day + 1)
           else if month < 12 then (m.put F.RTC_DATE_DAY 1).put F.RTC_DATE_MONTH (month + 1)
           else ((m.put F.RTC_DATE_DAY 1).put F.RTC_DATE_MONTH 1).put F.RTC_DATE_YEAR ((year + 1) % 16384)
         d.put F.RTC_DATE_WDAY (if 6 ≤ wday then 0 else wday + 1)
     (s.rtcDst = none → s.secondTicks = (alarm (plain u)).pulse 14) ∧
     (s.rtcDst = some true → sod + 3601 ≤ 86399 →
       s.secondTicks = (alarm ((u.put F.RTC_TIME_SOD (sod + 3601)).put F.RTC_STAT_DST 1)).pulse 14) ∧
     (s.rtcDst = some true → 86399 < sod + 3601 → s.secondTicks = (alarm ((plain u).put F.RTC_STAT_DSTREF 1)).pulse 14) ∧
     (s.rtcDst = some false → 3599 ≤ sod → sod ≤ 89998 →
       s.secondTicks = (alarm ((u.put F.RTC_TIME_SOD (sod - 3599)).put F.RTC_STAT_DST 0)).pulse 14) ∧
     (s.rtcDst = some false → sod < 3599 ∨ 89998 < sod → s.secondTicks = (alarm ((plain u).put F.RTC_STAT_DSTREF 1)).pulse 14)) ∧
    (let waits (a : Nat) (v : Word) : Out := .next (({ s.served r.val a with
       aonBuf := s.aonBuf.filter (fun w => w.1 != a) ++ [(a, v)] } : State).answered 0)
     (s.admits r.val Reg.RTC_CTL true = true → exec (.dstadd r) s = waits Reg.RTC_CTL (s.reg Reg.RTC_CTL ||| 8) ∧
       exec (.dstsub r) s = waits Reg.RTC_CTL (s.reg Reg.RTC_CTL ||| 16)) ∧
     (∀ v : Word, (s.admits r.val Reg.RTC_TIME true = true → exec (.rtcTimeWrite r false v) s = waits Reg.RTC_TIME v) ∧
       (s.admits r.val Reg.RTC_DATE true = true → exec (.rtcTimeWrite r true v) s = waits Reg.RTC_DATE v))) ∧
    (s.pwr.vmainLow = false → exec .oscillatorFail s = .next (({ s with xtal := some false } : State).put F.RTC_STAT_OSCFAIL 1)) ∧
    (s.pwr.vmainLow = true → exec .oscillatorFail s = .next s)

/-- Power-up, supply switches, resets, priming and thermal protection (13_power_reset.md R401, R402, R403, R404, R405, R407, R408,
R409, R410, R412, R435, 14_flash_ageing.md R450). The model's choice: log entries 98 (cold start), 2 (empty SRAM reads 0), 107 (the
order of the causes of 14 R450), 151 (the core's clock while priming), 158 (launches dropped), 129 (thresholds), 99 (shutdown with
RSTIN), 100 (incarnation), 97 (a lost entry), 101 (block resets), 102 (PWR_RST with balls held). -/
def Obligations.SuppliesAndResets : Prop :=
  ∀ (s : State) (r : Req), s.canonical = true →
    let flashKept (t : State) : Prop := s.flc.op = none → (∀ a : Nat, a < 0x800000 → t.byte a = s.byte a) ∧
      t.reg (Reg.FLC_PROT 0) = s.reg (Reg.FLC_PROT 0) ∧ t.reg (Reg.FLC_PROT 1) = s.reg (Reg.FLC_PROT 1) ∧ t.flc.pwd = s.flc.pwd
    let sramEmpty (t : State) : Prop := ∀ a : Nat, 0x10000000 ≤ a → a < 0x10800000 → t.byte a = 0
    let cleared (t : State) : Prop := t.reg Reg.SYS_READY = 0x880001 ∧ t.eng = Vector.replicate 64 {} ∧ t.lane = Vector.replicate 96 {} ∧
      t.cip = {} ∧ t.tx = {} ∧ t.sfm = {} ∧ t.sph = {} ∧ t.events = []
    let same (t : State) : Prop := s.flc.op = none → t.mem = s.mem
    let primes (t : State) : Prop := t.pwr.mainOn = true ∧ t.pwrState = 0 ∧ t.pwr.priming = some {} ∧ t.pwr.trans = none ∧
      t.pwr.core = { mv := t.get (F.PWR_OP_MV 0), mhz := 16 }
    let bias (t : State) (n : Nat) : Int := 10 * toSigned 8 (t.get (F.PWR_BIAS_FBB n))
    let point (t : State) (n : Nat) (pol : Bool) : CorePoint :=
      { mv := t.get (F.PWR_OP_MV n), mhz := t.get (F.PWR_OP_MHZ n),
        bias := if pol then bias t n else 0, assist := if pol then t.flag (F.PWR_BIAS_ASSIST n) else decide (2 ≤ n) }
    (∀ vmain vbat : Nat, max vmain vbat ≤ 1900 → exec (.aonPowerUp vmain vbat) s = .next s) ∧
    (∀ vmain vbat : Nat, 1900 < max vmain vbat →
      let band := decide (2700 ≤ vmain ∧ vmain ≤ 2800)
      let onVbat := if band then decide (2000 ≤ vbat) else decide (vmain < 2700 ∨ vmain ≤ vbat)
      ∃ t : State, exec (.aonPowerUp vmain vbat) s = .next t ∧ t.flag F.PWR_SUPPLY_SRC = onVbat ∧
        t.flag F.PWR_SUPPLY_VMAINOK = decide (2800 < vmain) ∧ t.flag F.PWR_SUPPLY_VBATOK = decide (2000 ≤ vbat) ∧
        t.flag F.PWR_SUPPLY_COLDBAND = band ∧ t.flag F.PWR_RSTCAUSE_AONPOR = true ∧ t.pwr.mainOn = !onVbat ∧ t.aonBuf = [] ∧
        t.pwr.priming = (if onVbat then none else some {}) ∧ (onVbat = false → primes t) ∧ t.pending = s.pending ∧ flashKept t ∧ sramEmpty t) ∧
    (∃ t : State, exec .alwaysOnPowerLoss s = .next t ∧ t.pwr.mainOn = false ∧ t.aonBuf = [] ∧ t.pending = s.pending ∧
      flashKept t ∧ sramEmpty t) ∧
    (∀ vmain vbat : Nat, let t := s.supplies vmain vbat
      t.flag F.PWR_SUPPLY_VMAINOK = decide (2800 < vmain) ∧ t.flag F.PWR_SUPPLY_VBATOK = decide (2000 ≤ vbat) ∧
      t.flag F.PWR_SUPPLY_SRC = s.flag F.PWR_SUPPLY_SRC ∧ t.pwr = { s.pwr with vmainLow := decide (vmain < 2700) } ∧ t.mem = s.mem ∧
      (vmain < 2700 → s.pwr.vmainLow = false → t.get F.MGB_ADDR_ASSIGNED = 0 ∧ t.get F.MGB_ADDR_ADDR = 0 ∧ t.pins.adrOut = false ∧
        t.get F.MGB_ATTNSTAT_PENDING = 0 ∧ t.get F.MGB_ATTNSTAT_CAUSE = 0 ∧ t.get F.MGB_ATTNSTAT_NEWLIFE = 1) ∧
      (2700 ≤ vmain ∨ s.pwr.vmainLow = true → t.reg Reg.MGB_ADDR = s.reg Reg.MGB_ADDR ∧ t.pins = s.pins ∧
        t.reg Reg.MGB_ATTNSTAT = s.reg Reg.MGB_ATTNSTAT)) ∧
    (∀ (vmain vbat : Nat) (held : Bool) (incarn : BitVec 16),
      let stays : Prop := 2700 ≤ vmain ∧ vbat ≤ vmain + 20
      let returns : Prop := 2800 < vmain ∧ vbat < vmain
      let away : State := { ((s.put F.PWR_SUPPLY_SRC 1).put F.PWR_SUPPLY_SWITCHED 1) with pulses := s.pulses ++ [6] }
      let back : State := ((s.put F.PWR_SUPPLY_SRC 0).put F.PWR_SUPPLY_SWITCHED 1).supplies vmain vbat
      let back' : State := { back with pulses := s.pulses ++ [6] }
      (s.flag F.PWR_SUPPLY_SRC = false →
        (stays → exec (.switchToVbat vmain vbat held) s = .next (s.supplies vmain vbat) ∧
          exec (.switchToVmain vmain vbat incarn) s = .next (s.supplies vmain vbat)) ∧
        (¬stays → exec (.switchToVmain vmain vbat incarn) s = .next s) ∧
        (¬stays → s.pwr.mainOn = false ∨ 2 < s.pwrState → exec (.switchToVbat vmain vbat held) s = .next (away.supplies vmain vbat)) ∧
        (¬stays → s.pwr.mainOn = true → s.pwrState ≤ 2 → s.pwr.inReset = false →
          ∃ t : State, exec (.switchToVbat vmain vbat held) s = .next t ∧ t.pwrState = 3 ∧ t.pwr.mainOn = false ∧ t.pwr.trans = none ∧
            t.flag F.PWR_SUPPLY_SRC = true ∧ t.flag F.PWR_SUPPLY_SWITCHED = true ∧ t.flag F.PWR_SUPPLY_VBATOK = decide (2000 ≤ vbat) ∧
            t.flag F.PWR_SUPPLY_VMAINOK = decide (2800 < vmain) ∧ t.flag F.PWR_RSTCAUSE_ENTRYOK = held ∧ t.pwr.latch.isSome = true ∧
            cleared t ∧ flashKept t ∧ (held = false → sramEmpty t))) ∧
      (s.flag F.PWR_SUPPLY_SRC = true →
        (¬returns → exec (.switchToVbat vmain vbat held) s = .next (s.supplies vmain vbat) ∧
          exec (.switchToVmain vmain vbat incarn) s = .next (s.supplies vmain vbat)) ∧
        (returns → exec (.switchToVbat vmain vbat held) s = .next s) ∧
        (returns → s.pwr.mainOn = true → exec (.switchToVmain vmain vbat incarn) s = .next back') ∧
        (returns → s.pwr.mainOn = false → s.pwrState ≠ 0 ∨ s.pwr.thermOff = true ∨ s.pwr.inReset = true →
          exec (.switchToVmain vmain vbat incarn) s = .next (back'.signalWake 5)) ∧
        (returns → s.pwr.mainOn = false → s.pwrState = 0 → s.pwr.thermOff = false → s.pwr.inReset = false → s.pwr.trans = none →
          ∃ t : State, exec (.switchToVmain vmain vbat incarn) s = .next t ∧ primes t ∧ t.flag F.PWR_SUPPLY_SRC = false ∧
            t.get F.MGB_INCARN_INCARN = incarn.toNat ∧ t.mem = s.mem))) ∧
    (s.pwr.thermOff = true → exec .rstin s = .next ({ s with pwr := { s.pwr with inReset := true } }.put F.PWR_RSTCAUSE_RSTIN 1)) ∧
    (s.pwr.thermOff = false → ∃ t : State, exec .rstin s = .next t ∧ t.pwr.inReset = true ∧ t.pwr.priming = none ∧ t.pwr.trans = none ∧
      t.flag F.PWR_RSTCAUSE_RSTIN = true ∧ t.flag F.PWR_RSTCAUSE_OFF = (decide (s.pwrState = 4) || s.flag F.PWR_RSTCAUSE_OFF) ∧
      t.flag F.PWR_WAKECAUSE_RSTIN = (decide (2 ≤ s.pwrState) || s.flag F.PWR_WAKECAUSE_RSTIN) ∧ cleared t ∧ t.mgb = {} ∧ same t) ∧
    (∀ incarn : BitVec 16,
      let released : State := { s with pwr := { s.pwr with inReset := false } }
      let cooled : State := { s with pwr := { s.pwr with thermOff := false } }
      (s.pwr.inReset = false → exec (.rstinRelease incarn) s = .next s) ∧
      (s.pwr.inReset = true → s.flag F.PWR_SUPPLY_SRC = true ∨ s.pwr.thermOff = true → exec (.rstinRelease incarn) s = .next released) ∧
      (s.pwr.inReset = true → s.flag F.PWR_SUPPLY_SRC = false → s.pwr.thermOff = false → s.pwr.trans = none → ∃ t : State,
        exec (.rstinRelease incarn) s = .next t ∧ t.pwr.inReset = false ∧ primes t ∧ t.mem = s.mem) ∧
      (s.pwr.thermOff = false → exec (.thermalRestart incarn) s = .next s) ∧
      (s.pwr.thermOff = true → s.flag F.PWR_SUPPLY_SRC = true ∨ s.pwr.inReset = true → exec (.thermalRestart incarn) s = .next cooled) ∧
      (s.pwr.thermOff = true → s.flag F.PWR_SUPPLY_SRC = false → s.pwr.inReset = false → s.pwr.trans = none → ∃ t : State,
        exec (.thermalRestart incarn) s = .next t ∧ t.pwr.thermOff = false ∧ primes t ∧ t.mem = s.mem)) ∧
    (s.admits r.val Reg.PWR_RST true = true →
      (∃ t : State, exec (.pwrRst r 0xA5) s = .next t ∧ t.flag F.PWR_RSTCAUSE_DEVICE = true ∧ primes t ∧ cleared t ∧ t.mgb = {} ∧ same t) ∧
      (∀ key : Byte, key ≠ 0xA5 → exec (.pwrRst r key) s = .next ((s.served r.val Reg.PWR_RST).answered 0))) ∧
    (s.pwr.mainOn = false → exec .brownout s = .next s) ∧
    (s.pwr.mainOn = true → ∃ t : State, exec .brownout s = .next t ∧ t.flag F.PWR_RSTCAUSE_BROWNOUT = true ∧ cleared t ∧ t.mgb = {} ∧ same t ∧
      (s.pwr.inReset = false → primes t) ∧ (s.pwr.inReset = true → t.pwr.inReset = true ∧ t.pwr.priming = none)) ∧
    (s.admits r.val Reg.PWR_BLKRST true = true →
      (∃ t : State, exec (.blockReset r (BitVec.ofNat 24 (2 ^ 18))) s = .next t ∧
        t.ready 18 = false ∧ t.bit Reg.SYS_BLKLOCK 18 = false ∧ t.tmr = Vector.replicate 16 {} ∧ t.mem = s.mem ∧ t.eng = s.eng ∧
        (∀ k : Nat, keyBlock k = 18 → t.reg k = resetVal k) ∧
        (∀ k : Nat, keyBlock k ≠ 18 → k ≠ Reg.SYS_READY → k ≠ Reg.SYS_BLKLOCK → t.reg k = s.reg k)) ∧
      (∀ i : Fin 23, i ≠ 0 → i ≠ 1 → i ≠ 19 → ∃ t : State, exec (.blockReset r (BitVec.ofNat 24 (2 ^ i.val))) s = .next t ∧
        t.ready i.val = false ∧ t.bit Reg.SYS_BLKLOCK i.val = false ∧
        (i = 13 → t.flag F.CST_STAT_CLEARING = true) ∧
        (i = 14 → t.cip = {} ∧ (∀ k : Nat, k < 32 → t.reg (Reg.CIP_KSV k) = 0) ∧
          ∀ a : Nat, t.byte a = if 0x107FC000 ≤ a ∧ a < 0x10800000 then 0 else s.byte a) ∧
        (i = 11 → t.syn = {} ∧ t.sfm.launches = [] ∧ t.tx.hop = none ∧ t.tx.cur = s.tx.cur ∧ t.granules = s.granules ∧ t.mem = s.mem ∧
          (∀ k : Fin 64, t.reg (Reg.SYN_ENT k.val) = resetVal (Reg.SYN_ENT k.val))) ∧
        (i = 6 → t.eng = Vector.replicate 64 {}) ∧
        (∀ k : Fin 64, let held := s.flag (F.LCK_S_HELD k.val) && (let h := s.get (F.LCK_S_HOLDER k.val)
            (i == 6 && decide (h < 64)) || (i == 2 && (h == 64 || h == 65)) || (i == 3 && h == 66))
          i ≠ 7 → (held = true → t.flag (F.LCK_S_HELD k.val) = false ∧ t.flag (F.LCK_S_ORPHAN k.val) = true) ∧
            (held = false → t.flag (F.LCK_S_HELD k.val) = s.flag (F.LCK_S_HELD k.val) ∧
              t.flag (F.LCK_S_ORPHAN k.val) = s.flag (F.LCK_S_ORPHAN k.val)))) ∧
      exec (.blockReset r 0x880003) s = .next ((s.served r.val Reg.PWR_BLKRST).answered 0)) ∧
    (s.pwr.priming = none → exec .refclkLock s = .next s ∧ exec .noRefclk s = .next s ∧ exec .calibrationSetLoad s = .next s ∧
      ∀ (head : Headroom) (b : BlockIx) (cycles : Nat), exec (.bandCalibrationComplete head) s = .next s ∧
        exec (.blockReady b cycles) s = .next s) ∧
    (∀ p : Priming, s.pwr.priming = some p →
      (p.refLocked = true → exec .refclkLock s = .next s ∧ exec .noRefclk s = .next s) ∧
      (p.refLocked = false →
        (let u := ((s.put F.CLK_STAT_REFOK 1).put F.CLK_STAT_LOCK 31).put F.CLK_STAT_NOREF 0
         let v := if p.keepCst then u else (u.put F.CST_STAT_CLEARING 1).setBit Reg.SYS_READY 13 false
         let core : CorePoint := { s.pwr.core with mhz := s.get (F.PWR_OP_MHZ (s.get F.PWR_STAT_OP)) }
         exec .refclkLock s = .next { v with pwr := { s.pwr with priming := some { p with refLocked := true }, core := core } }) ∧
        exec .noRefclk s = .next (((s.put F.CLK_STAT_NOREF 1).setBit Reg.SYS_READY 1 true).setBit Reg.SYS_READY 2 true)) ∧
      (p.refLocked = false ∨ p.calLoaded = true → exec .calibrationSetLoad s = .next s) ∧
      (p.refLocked = true → p.calLoaded = false → s.flc.ecc = [] →
        let cause := if s.word 0x7FF000 ≠ 0xCA1B0048 then 1
          else if s.word 0x7FF008 ≠ s.reg Reg.SYS_UID_LO ∨ s.word 0x7FF00C ≠ s.reg Reg.SYS_UID_HI then 2
          else if (s.word 0x7FF7FC).toNat ≠ crc32 (s.bytes 0x7FF000 0x7FC) then 3 else 0
        ∃ t : State, exec .calibrationSetLoad s = .next t ∧ t.pwr.priming = some { p with calLoaded := true } ∧
          t.get F.CAL_STAT_CAUSE = cause ∧ t.flag F.CAL_STAT_FLAG = (decide (cause ≠ 0) || s.flag F.CAL_STAT_FLAG) ∧ t.mem = s.mem ∧
          (s.pwr.trans = none → t.pwr.core = point t (s.get F.PWR_STAT_OP) (s.flag F.PWR_STAT_POLICY)) ∧
          ∀ n : Fin 4, t.get (F.PWR_OP_MV n.val) = (if cause = 0 then (s.word (0x7FF080 + 4 * n.val)).toNat % 1024 else 900 - 100 * n.val)) ∧
      (p.refLocked = true → p.calLoaded = false → (∃ n : Fin 256, 2 ≤ s.eccBits (0x7FF000 + 16 * n.val)) →
        ∃ t : State, exec .calibrationSetLoad s = .next t ∧ t.pwr.priming = some { p with calLoaded := true } ∧
          t.get F.CAL_STAT_CAUSE = 4 ∧ t.flag F.CAL_STAT_FLAG = true ∧ t.mem = s.mem ∧
          ∀ n : Fin 4, t.get (F.PWR_OP_MV n.val) = 900 - 100 * n.val) ∧
      (∀ head : Headroom,
        let ok : Prop := s.ready 11 = false ∧ p.refLocked = true ∧ p.calLoaded = true ∧ s.pwrState ≤ 1
        (ok → exec (.bandCalibrationComplete head) s = .next ((s.noteHeadroom head).setBit Reg.SYS_READY 11 true)) ∧
        (¬ok → exec (.bandCalibrationComplete head) s = .next s)) ∧
      (∀ (b : BlockIx) (cycles : Nat),
        let ok : Prop := s.ready b.val = false ∧ p.refLocked = true ∧ (p.calLoaded = true ∨ b.val = 14) ∧ s.pwrState ≤ 1 ∧ b.val ≠ 11 ∧
          (b.val = 13 → s.flag F.CST_STAT_CLEARING = false)
        let t := s.setBit Reg.SYS_READY b.val true
        (¬ok → exec (.blockReady b cycles) s = .next s) ∧
        (ok → b.val ≠ 3 → b.val ≠ 14 → b.val ≠ 18 → b.val ≠ 20 → exec (.blockReady b cycles) s = .next t) ∧
        (ok → b.val = 3 → exec (.blockReady b cycles) s = .next { t with mgb := { s.mgb with matcherHold := false } }) ∧
        (ok → b.val = 14 → exec (.blockReady b cycles) s = .next { (if p.keepScr then t else t.wipe 0x107FC000 0x10800000) with
          pwr := { s.pwr with priming := some { p with keepScr := false } } }) ∧
        (ok → b.val = 18 → exec (.blockReady b cycles) s = .next ((if s.pwr.slept then
          ({ s.catchUp cycles with pwr := { s.pwr with slept := false } } : State) else s).setBit Reg.SYS_READY 18 true)) ∧
        (ok → b.val = 20 → exec (.blockReady b cycles) s = .next t.sliceCounts))) ∧
    (∀ temp : Int,
      (s.pwr.mainOn = true → 115 ≤ temp → s.flag F.PWR_THERM_WARN = false →
        exec (.thermalWarning temp) s = .next ((s.put F.PWR_THERM_WARN 1).log 6 (s.get F.TMP_DIE_TEMP))) ∧
      (s.pwr.mainOn = true → temp ≤ 110 → exec (.thermalWarning temp) s = .next (s.put F.PWR_THERM_WARN 0)) ∧
      (s.pwr.mainOn = false ∨ (110 < temp ∧ temp < 115) ∨ (115 ≤ temp ∧ s.flag F.PWR_THERM_WARN = true) →
        exec (.thermalWarning temp) s = .next s)) ∧
    (∃ t : State, exec .thermalShutdown s = .next t ∧ t.pwr.thermOff = true ∧ t.pwr.mainOn = false ∧ t.pwr.latch = none ∧ t.pwr.trans = none ∧
      t.get F.MGB_ADDR_ASSIGNED = 0 ∧ t.flag F.PWR_RSTCAUSE_THERMAL = true ∧ cleared t ∧ flashKept t ∧ sramEmpty t)

/-- Power requests, entries, wakes and returns, and the balls (13_power_reset.md R415, R416, R417, R419, R420, R421, R422, R423,
R426, R427, R428, R430). The model's choice: log entries 2 (SRAM not kept reads 0), 94 (PWR_OPn reads back clamped), 95 (a RUN held
at an entry), 96 (registers reset at the entry), 97 (the wake after a lost entry), 130 (what balls do), 139 (CST_SUM over a cut
clear), 150 (the host SPI at the entry to STANDBY), 151 (the two parts of a change of point by 13 R418), 152 (the pulse of a wake by
13 R429). -/
def Obligations.PowerStates : Prop :=
  ∀ (s : State) (r : Req), s.canonical = true →
    let point (t : State) (q : PwrReq) : CorePoint :=
      let n := if q.state = 0 then q.op else t.get F.PWR_STAT_OP
      { mv := t.get (F.PWR_OP_MV n), mhz := t.get (F.PWR_OP_MHZ n),
        bias := if q.pol then 10 * toSigned 8 (t.get (F.PWR_BIAS_FBB n)) else 0, assist := if q.pol then t.flag (F.PWR_BIAS_ASSIST n) else decide (2 ≤ n) }
    let up (t : State) : Bool := match t.pwr.priming with
      | some p => p.calLoaded
      | none => false
    let half (t : State) (q : PwrReq) : CorePoint :=
      let a := t.pwr.core
      let z := point t q
      if up t = false ∨ 2 ≤ q.state ∨ 2 ≤ t.pwrState then a
      else if q.pol then { z with mv := a.mv }
      else { a with bias := 0, assist := a.assist || z.assist, mhz := if z.mv ≤ a.mv then z.mhz else a.mhz }
    let reached (t : State) (q : PwrReq) : State := { t with pwr := { t.pwr with core := if up t then point t q else t.pwr.core } }
    let begun (t : State) (q : PwrReq) : State :=
      let u := (({ t with pwr := { t.pwr with trans := some q, core := half t q } } : State).put F.PWR_STAT_BUSY 1).put F.PWR_STAT_POLICY (if q.pol then 1 else 0)
      if q.state = 2 then u.runBit false else u
    let kept (t : State) (q : PwrReq) : State :=
      (({ t with pwr := { t.pwr with held := some q } } : State).put F.PWR_STAT_HELD 1).put F.PWR_STAT_TRANSITION_MERGED 1
    let asked (q : PwrReq) (o : Out) : Prop :=
      let c := s.served r.val Reg.PWR_REQ
      (s.pwr.trans ≠ none → o = .next ((kept c q).answered 0)) ∧
      (s.pwr.trans = none → q.state = s.pwrState → q.state ≠ 0 ∨ q.op = s.get F.PWR_STAT_OP → o = .next (c.answered 0)) ∧
      (s.pwr.trans = none → s.pwrState ≤ 1 → q.state ≠ s.pwrState ∨ (q.state = 0 ∧ q.op ≠ s.get F.PWR_STAT_OP) →
        o = .next ((begun c q).answered 0)) ∧
      (s.pwr.trans = none → 2 ≤ s.pwrState → q.state ≠ s.pwrState → o = .next ((c.put F.PWR_STAT_BADREQ 1).answered 0))
    let ended (t : State) : State :=
      let u := (({ t with pwr := { t.pwr with trans := none, held := none } } : State).put F.PWR_STAT_BUSY 0).put F.PWR_STAT_HELD 0
      match t.pwr.held with
      | none => { u with pulses := u.pulses ++ [5] }
      | some q =>
        if q.state = u.pwrState ∧ (q.state ≠ 0 ∨ q.op = u.get F.PWR_STAT_OP) then { u with pulses := u.pulses ++ [5] }
        else if u.pwrState ≤ 1 ∨ (u.pwrState = 2 ∧ q.state = 0) then begun u q
        else let v := u.put F.PWR_STAT_BADREQ 1; { v with pulses := v.pulses ++ [5] }
    let resting : Prop := ∀ e : EngIx, (s.engAt e).stall = none
    let rested (t : State) : Prop := ∀ e : EngIx, t.engAt e = if (s.engAt e).state = .running then (s.engAt e).drain else s.engAt e
    (s.admits r.val Reg.PWR_REQ true = true → ∀ pol : Bool,
      (∀ op : Fin 4, asked ⟨0, op.val, pol⟩ (exec (.runRequest r op pol) s)) ∧ asked ⟨1, 0, pol⟩ (exec (.dozeRequest r pol) s) ∧
      asked ⟨2, 0, pol⟩ (exec (.standbyRequest r pol) s) ∧ asked ⟨3, 0, pol⟩ (exec (.trickleRequest r pol) s) ∧
      asked ⟨4, 0, pol⟩ (exec (.offRequest r pol) s)) ∧
    (∀ v : Word, s.admits r.val Reg.PWR_REQ true = true → 5 ≤ v.toNat % 8 → exec (.registerWrite r (BitVec.ofNat 32 Reg.PWR_REQ) v) s =
      .next (((s.served r.val Reg.PWR_REQ).put F.PWR_STAT_BADREQ 1).answered 0)) ∧
    (∀ (n : Fin 4) (v : Word), s.admits r.val (Reg.PWR_OP n.val) true = true → s.get F.AGE_STAT_STATE = 0 →
      let mhz := max 50 (min 400 (bitsOf v.toNat 16 9)) / 10 * 10
      let t := (((s.served r.val (Reg.PWR_OP n.val)).setReg (Reg.PWR_OP n.val) ((s.reg (Reg.PWR_OP n.val) &&& 0xFE00FC00) |||
        (v &&& 0x01FF03FF))).put (F.PWR_OP_MHZ n.val) mhz).put (F.PWR_OP_MV n.val) (max 550 (min 950 (bitsOf v.toNat 0 10)))
      let q : PwrReq := ⟨s.pwrState, n.val, s.flag F.PWR_STAT_POLICY⟩
      (n.val ≠ s.get F.PWR_STAT_OP ∨ 2 ≤ s.pwrState → exec (.pwrOpWrite r n v) s = .next (t.answered 0)) ∧
      (n.val = s.get F.PWR_STAT_OP → s.pwrState ≤ 1 →
        exec (.pwrOpWrite r n v) s = .next ((if s.pwr.trans = none then begun t q else kept t q).answered 0))) ∧
    (s.pwr.trans = none → exec .standbyEntry s = .next s ∧ exec .transitionComplete s = .next s ∧ exec .entryAbandoned s = .next s ∧
      ∀ cycles : Nat, exec (.standbyRelock cycles) s = .next s) ∧
    (∀ q : PwrReq, s.pwr.trans = some q →
      (let ready : Prop := q.state = 2 ∧ s.running = false ∧ s.tx.cur = none ∧ s.tx.hop = none ∧ s.flc.op = none ∧ resting
       (¬ready → exec .standbyEntry s = .next s) ∧
       (ready → s.pwr.held = none → ∃ t : State, exec .standbyEntry s = .next t ∧ t.pwrState = 2 ∧ t.reg Reg.SYS_READY = 0x880001 ∧
         t.pwr.readies = s.reg Reg.SYS_READY ∧ t.pwr.latch.isSome = true ∧ t.pwr.trans = none ∧ t.flag F.PWR_STAT_BUSY = false ∧
         t.pulses = s.pulses ++ [5] ∧ t.mem = s.mem ∧ rested t ∧ t.spi.sel = none ∧ t.pwr.core.mhz = 0 ∧ t.pwr.core.mv = s.pwr.core.mv ∧
         t.pwr.core.bias = (if q.pol then 10 * toSigned 8 (s.get (F.PWR_BIAS_FBB 4)) else 0) ∧
         t.pwr.core.assist = (if q.pol then s.flag (F.PWR_BIAS_ASSIST 4) else s.pwr.core.assist) ∧
         (s.pwr.latch = none → s.pwr.mainOn = true → s.pwr.vmainLow = false → ∀ n : BallName, (∀ k, n ≠ .hspIo k) →
           (s.ballOf n ≠ .moving → t.ballOf n = s.ballOf n) ∧ (s.ballOf n = .moving → t.ballOf n = .drive true ∨ t.ballOf n = .drive false))) ∧
       (ready → ∀ (op : Nat) (pol : Bool), s.pwr.held = some ⟨0, op, pol⟩ → ∃ t : State, exec .standbyEntry s = .next t ∧ t.pwrState = 2 ∧
         t.pwr.trans = some ⟨0, op, pol⟩ ∧ t.pwr.held = none ∧ t.pulses = s.pulses)) ∧
      (let stuck : Prop := ∃ (e : EngIx) (x : Stall), (s.engAt e).stall = some x ∧ x.beyond = true
       (q.state = 1 ∨ q.state = 2 → stuck → exec .entryAbandoned s = .next (ended (s.put F.PWR_STAT_BLOCKED 1))) ∧
       ((q.state ≠ 1 ∧ q.state ≠ 2) ∨ ¬stuck → exec .entryAbandoned s = .next s)) ∧
      (q.state = 0 → s.pwrState ≤ 1 →
        exec .transitionComplete s = .next (ended (((reached s q).put F.PWR_STAT_STATE 0).put F.PWR_STAT_OP q.op))) ∧
      (q.state = 1 → resting → ∃ t : State, exec .transitionComplete s = .next (ended (t.put F.PWR_STAT_STATE 1)) ∧ rested t ∧
        t = { reached s q with eng := t.eng }) ∧
      ((q.state = 0 ∧ 2 ≤ s.pwrState) ∨ q.state = 2 ∨ (q.state = 1 ∧ ¬resting) ∨ (3 ≤ q.state ∧ q.state ≤ 4 ∧ s.flc.op ≠ none) →
        exec .transitionComplete s = .next s) ∧
      (q.state = 3 → s.flc.op = none → s.pwr.held = none →
        ∃ t : State, exec .transitionComplete s = .next t ∧ t.pwrState = 3 ∧ t.pwr.mainOn = false ∧ t.pwr.trans = none ∧ t.pwr.latch.isSome = true ∧
          t.eng = Vector.replicate 64 {} ∧ t.tmr = s.tmr ∧ t.ctr = s.ctr ∧ (∀ k : Nat, keyBlock k = 17 ∨ keyBlock k = 18 → t.reg k = s.reg k) ∧
          t.bit Reg.SYS_BLKLOCK 17 = s.bit Reg.SYS_BLKLOCK 17 ∧ t.get F.MGB_ADDR_ASSIGNED = s.get F.MGB_ADDR_ASSIGNED ∧
          t.reg Reg.CST_SUM = (if s.bit Reg.PWR_RET 0 then s.reg Reg.CST_SUM else resetVal Reg.CST_SUM) ∧
          ∀ a : Nat, a < 0x10800000 → t.byte a =
            if 0x10000000 ≤ a ∧ s.bit Reg.PWR_RET (if a < 0x10400000 then 0 else if a < 0x10600000 then 1 else if a < 0x10780000 then 2 else 3) = false
            then 0 else s.byte a) ∧
      (q.state = 4 → s.flc.op = none → s.pwr.held = none →
        ∃ t : State, exec .transitionComplete s = .next t ∧ t.pwrState = 4 ∧ t.pwr.mainOn = false ∧ t.pwr.trans = none ∧ t.pwr.latch = none ∧
          t.eng = Vector.replicate 64 {} ∧ t.get F.MGB_ADDR_ASSIGNED = 0 ∧ (∀ a : Nat, a < 0x800000 → t.byte a = s.byte a) ∧
          ∀ a : Nat, 0x10000000 ≤ a → a < 0x10800000 → t.byte a = 0) ∧
      (∀ (op : Nat) (pol : Bool), q.state = 3 → s.flc.op = none → s.pwr.held = some ⟨0, op, pol⟩ → s.pwr.lost = false →
        ∃ t : State, exec .transitionComplete s = .next t ∧ t.pwrState = 0 ∧ t.pwr.mainOn = true ∧ t.flag F.PWR_RSTCAUSE_TRICKLE = true ∧
          t.pwr.trans = (if op = 0 then none else some ⟨0, op, pol⟩) ∧ t.pwr.core = { mv := t.get (F.PWR_OP_MV 0), mhz := 16 } ∧
          t.pulses = s.pulses.filter (fun n => n == 5 || n == 6 || n == 14) ++ (if op = 0 then [5] else []) ∧
          t.pwr.priming = some { keepCst := s.bit Reg.PWR_RET 0, keepScr := s.bit Reg.PWR_RET 3 }) ∧
      (∀ cycles : Nat, q.state = 0 → s.pwrState = 2 → s.pwr.held = none →
        ∃ t : State, exec (.standbyRelock cycles) s = .next t ∧ t.pwrState = 0 ∧ t.get F.PWR_STAT_OP = q.op % 4 ∧ t.pwr.trans = none ∧
          t.reg Reg.SYS_READY = s.pwr.readies &&& 0xFFFFFF ∧ t.mgb.matcherHold = (s.mgb.matcherHold && !s.pwr.readies.getLsbD 3) ∧ t.pwr.core = point s q ∧ t.tmr = (s.catchUp cycles).tmr ∧ t.eng = s.eng ∧
          (∀ c : Chain, s.chainEnabled c = true → t.get (F.RXC_STAT_CAL (chainNo c)) = 1) ∧ t.mem = s.mem) ∧
      (∀ cycles : Nat, q.state ≠ 0 ∨ s.pwrState ≠ 2 → exec (.standbyRelock cycles) s = .next s) ∧
      (s.pwrState = 1 → exec .dozeEnd s = .next (if q.state = 0 then s.put F.PWR_STAT_STATE 0 else s)) ∧
      (∀ (w : WakeSrc) (incarn : BitVec 16), exec (.wake w incarn) s = .next s)) ∧
    (s.pwrState ≠ 1 → exec .dozeEnd s = .next s) ∧
    (s.pwr.trans = none → s.pwrState = 1 →
      let event : Prop := ∃ e : EngIx, (s.engAt e).loaded = true ∧ (s.engAt e).evPend ≠ 0
      (s.flag F.PWR_CFG_EVWAKE = true → event → exec .dozeEnd s =
        .next ((begun s ⟨0, s.get F.PWR_STAT_OP, s.flag F.PWR_STAT_POLICY⟩).put F.PWR_STAT_STATE 0)) ∧
      (s.flag F.PWR_CFG_EVWAKE = false ∨ ¬event → exec .dozeEnd s = .next s)) ∧
    (∀ (w : WakeSrc) (incarn : BitVec 16),
      let n := match w with
        | .mgb => 0
        | .wkr => 1
        | .rtc => 2
        | .aonIrq => 3
        | .rstin => 4
        | .vmain => 5
      let u : State := { s with pwr := { s.pwr with wakes := [] } }
      let acts : Prop := s.pwr.wakes.contains n = true ∧ s.flag F.PWR_SUPPLY_SRC = false ∧ s.pwr.inReset = false ∧ s.pwr.trans = none
      (¬acts → exec (.wake w incarn) s = .next s) ∧
      (acts → s.pwrState = 2 → exec (.wake w incarn) s = .next (begun u ⟨0, s.get F.PWR_STAT_OP, s.flag F.PWR_STAT_POLICY⟩)) ∧
      (acts → s.pwrState = 3 → s.pwr.lost = false → s.pwr.mainOn = false → ∃ t : State, exec (.wake w incarn) s = .next t ∧
        t.flag F.PWR_RSTCAUSE_TRICKLE = true ∧ t.pwrState = 0 ∧ t.pwr.mainOn = true ∧ t.pwr.wakes = [] ∧ t.mem = s.mem ∧
        t.pulses = s.pulses ++ [5] ∧ t.pwr.core = { mv := s.get (F.PWR_OP_MV 0), mhz := 16 } ∧ t.pwr.priming = some { keepCst := s.bit Reg.PWR_RET 0, keepScr := s.bit Reg.PWR_RET 3 } ∧ t.get F.MGB_INCARN_INCARN = incarn.toNat ∧
        t.pwr.latch = s.pwr.latch) ∧
      (acts → s.pwrState = 3 → s.pwr.lost = true → ∃ t : State, exec (.wake w incarn) s = .next t ∧
        t.flag F.PWR_RSTCAUSE_TRICKLE = true ∧ t.pwrState = 0 ∧ t.pwr.mainOn = true ∧ t.pwr.priming = some {} ∧ t.pwr.latch = none ∧
        t.pulses = s.pulses.filter (fun n => n == 5 || n == 6 || n == 14) ++ [5]) ∧
      (acts → s.pwrState = 4 → ∃ t : State, exec (.wake w incarn) s = .next t ∧ t.flag F.PWR_RSTCAUSE_OFF = true ∧ t.pwrState = 0 ∧
        t.pwr.mainOn = true ∧ t.pwr.priming = some {} ∧ t.pwr.wakes = [] ∧ t.pulses = s.pulses ++ [5] ∧ t.mem = s.mem)) ∧
    (s.admits r.val Reg.PWR_PAD true = true →
      (s.pwr.latch = none → exec (.padRelease r) s = .next ((s.served r.val Reg.PWR_PAD).answered 0)) ∧
      (s.pwr.latch ≠ none → ∃ t : State, exec (.padRelease r) s = .next t ∧ t.pwr = { s.pwr with latch := none } ∧ t.mem = s.mem ∧
        t.reg Reg.CTR_OUT = s.reg Reg.CTR_OUT ∧ t.reg Reg.GPIO_OUT = s.reg Reg.GPIO_OUT ∧
        t.ctr = { s.ctr with window := s.ctr.window ||| BitVec.ofNat 8 (s.get F.CTR_OE_OE),
                              cleared := s.ctr.cleared &&& ~~~BitVec.ofNat 8 (s.get F.CTR_OE_OE) })) ∧
    (let float : Ball := .float false false
     (s.ballOf .mgbScl = (if s.mgb.matcherHold then .drive false else float) ∧ s.ballOf .mgbSda = float) ∧
     (∀ c : Chain, s.pwr.vmainLow = false → s.pwr.mainOn = true → s.ballOf (.ant c) =
       if s.tx.cur.any (fun l => portChain l.d0 = c) then .moving else float) ∧
     (∀ k : Fin 2, s.ballOf (.sphTxN k) = match s.ballOf (.sphTxP k) with
       | .drive b => .drive !b
       | x => x) ∧
     (∀ n : BallName, n ≠ .mgbScl → s.pwr.vmainLow = true ∨ (s.pwr.mainOn = false ∧ s.pwr.latch = none) → s.ballOf n = float) ∧
     (∀ k : Fin 4, s.ready 2 = false ∨ s.spi.sel = none → s.ballOf (.hspIo k) = float) ∧
     (∀ k : Fin 4, s.pwr.vmainLow = false → s.pwr.mainOn = true → s.ready 2 = true → s.spi.sel ≠ none → s.ballOf (.hspIo k) =
       if (if s.spi.cfg.getLsbD 0 then s.spi.out ≠ [] else k = 1) then .moving else float) ∧
     (s.pwr.vmainLow = false → s.pwr.mainOn = true → s.pwr.latch = none →
       (∀ k : Fin 8, s.ballOf (.ctr k) = (if s.bit Reg.CTR_OE k.val then .drive (s.bit Reg.CTR_STAT k.val) else .float false true)) ∧
       (∀ k : Fin 24, s.ballOf (.gpio k) = (if s.bit Reg.GPIO_DIR k.val then .drive (s.bit Reg.GPIO_OUT k.val) else .float
         (s.bit Reg.GPIO_PUP k.val && !s.bit Reg.GPIO_PDN k.val) (s.bit Reg.GPIO_PDN k.val && !s.bit Reg.GPIO_PUP k.val))) ∧
       (∀ k : TmrIx, s.ballOf (.tio k) = (if s.flag (F.TMR_CFG_PINOUT k.val) then .drive (s.tmrAt k).pin else float)) ∧
       (∀ m : Fin 2, s.flag (F.ETH_MDIO_GO m.val) = false → s.ballOf (.ethMdio m) = float) ∧
       (∀ k : Fin 2, s.flag F.SPH_CTL_EN = false → s.ballOf (.sphTxP k) = float)))

/-- Flash commands and their results, the password, the logbook, and margin plans (14_flash_ageing.md R438, R440, R442, R443, R444,
R447, R448, R449, R453, R454, R455, R456). The model's choice: log entries 93 (plans), 103 (operations whole at their end), 104
(LOCK, PWDSET of over four words), 105 (the append's time), 106 (the head), 107 (causes), 108 (bits in error). -/
def Obligations.FlashAndAgeing : Prop :=
  ∀ (s : State) (r : Req), s.canonical = true →
    let result (t : State) (n : Nat) : State :=
      let u := (({ t with flc := { t.flc with op := none } } : State).put F.FLC_STAT_RESULT n).put F.FLC_STAT_BUSY 0
      let v := if n = 1 then u else u.put F.FLC_STAT_ERR 1
      { v with pulses := v.pulses ++ [7] }
    let at' := s.get F.FLC_ADDR_OFFSET
    let log := decide (2040 ≤ at' / 4096 ∧ at' / 4096 ≤ 2046)
    let prot := s.bit (Reg.FLC_PROT (at' / 0x400000)) (at' / 0x20000 % 32)
    let open' := s.flag F.FLC_STAT_UNLOCKED
    let starts (t : State) (op a : Nat) (data : List Byte) : State :=
      ({ t with flc := { t.flc with op := some ⟨op, a, data⟩ } } : State).put F.FLC_STAT_BUSY 1
    (s.admits r.val Reg.FLC_CMD true = true →
      let c := s.served r.val Reg.FLC_CMD
      let refused : Out := .next ((c.put F.FLC_STAT_REFUSED 1).answered 0)
      let waits (op : Nat) : Out := .next ((({ c with flc := { s.flc with queued := some op } } : State).put F.FLC_STAT_BUSY 1).answered 0)
      let ends (n : Nat) : Out := .next ((result c n).answered 0)
      (s.flag F.FLC_STAT_BUSY = true → exec (.prog r) s = refused ∧ exec (.erase r) s = refused ∧ exec (.setprot r) s = refused ∧
        exec (.clrprot r) s = refused ∧ exec (.pwdset r) s = refused ∧ exec (.lock r) s = refused ∧ exec (.logclr r) s = refused) ∧
      (s.flag F.FLC_STAT_BUSY = false → s.flc.op ≠ none → exec (.prog r) s = waits 1 ∧ exec (.erase r) s = waits 2 ∧
        exec (.setprot r) s = waits 3 ∧ exec (.clrprot r) s = waits 4 ∧ exec (.pwdset r) s = waits 5 ∧ exec (.lock r) s = waits 6 ∧
        exec (.logclr r) s = waits 7) ∧
      (s.flag F.FLC_STAT_BUSY = false → s.flc.op = none →
        let n := if s.get F.FLC_LEN_UNITS = 0 then 256 else s.get F.FLC_LEN_UNITS
        let bad : Prop := at' % 16 ≠ 0 ∨ s.get F.FLC_SRC_SRC % 16 ≠ 0 ∨ 4096 < at' % 4096 + 16 * n ∨ log = true
        let x := c.moveRead (s.blockNS 21) 70 (s.get F.FLC_SRC_SRC) (16 * n)
        (bad → exec (.prog r) s = ends 6) ∧
        (¬bad → prot = true → exec (.prog r) s = ends 2) ∧
        (∀ e : AccErr, ¬bad → prot = false → x.2 = .error e → exec (.prog r) s = .next ((result x.1 8).answered 0)) ∧
        (∀ bs : List Byte, ¬bad → prot = false → x.2 = .ok bs → exec (.prog r) s = .next ((starts x.1 1 at' bs).answered 0)) ∧
        exec (.erase r) s = (if log then ends 6 else if prot then ends 2 else .next ((starts c 2 (at' / 4096 * 4096) []).answered 0)) ∧
        exec (.setprot r) s = .next ((starts c 3 at' []).answered 0) ∧
        exec (.clrprot r) s = (if open' then .next ((starts c 4 at' []).answered 0) else ends 7) ∧
        (open' = false → exec (.pwdset r) s = ends 7) ∧
        (open' = true → s.flc.newWords.length < 4 → exec (.pwdset r) s = ends 6) ∧
        (∀ w0 w1 w2 w3 : BitVec 16, open' = true → s.flc.newWords = [w0, w1, w2, w3] →
          exec (.pwdset r) s = .next ((starts { c with flc := { s.flc with newWords := [] } } 5 0
            (bytesLe 8 (((w0.toNat * 65536 + w1.toNat) * 65536 + w2.toNat) * 65536 + w3.toNat))).answered 0)) ∧
        (open' = true → 4 < s.flc.newWords.length → ∃ v : Nat, exec (.pwdset r) s =
          .next ((starts { c with flc := { s.flc with newWords := [] }, free := s.free + 1 } 5 0 (bytesLe 8 v)).answered 0)) ∧
        exec (.lock r) s = .next ((result (c.put F.FLC_STAT_UNLOCKED 0) 1).answered 0) ∧
        exec (.logclr r) s = (if s.bit (Reg.FLC_PROT 1) 31 then ends 2 else .next ((starts c 7 0x7F8000 []).answered 0)))) ∧
    (∀ p : List Nat,
      (exec (.flashOperationEnd p) s = .next (({ s.flashEnds p with flc := { (s.flashEnds p).flc with waits := [] } } : State).each
        (s.flashEnds p).flc.waits State.resumeWait)) ∧
      (s.flc.op = none → s.flashEnds p = s)) ∧
    (∀ a : Word, s.flashWaits a.toNat = false → s.resumeWait (.word r a s.worldMap) = match s.busRead r.val a.toNat with
      | (t, .ok v) => t.answered (BitVec.ofNat 32 v)
      | (t, .error _) => { t.portError r.val a.toNat with data := 0, err := true }) ∧
    (∀ (a : Nat) (bs : List Byte) (p : Nat), a % 16 = 0 → a + 4096 ≤ 0x800000 →
      let done (t : State) (n : Nat) : Prop := t.get F.FLC_STAT_RESULT = n ∧ t.flag F.FLC_STAT_BUSY = false ∧ t.flc.op = none ∧
        t.pulses = s.pulses ++ [7]
      (s.flc.op = some ⟨2, a, bs⟩ →
        (p ≤ 500 → done (s.flashEnds [p]) 1 ∧ ∀ x : Nat, (s.flashEnds [p]).byte x = if a ≤ x ∧ x < a + 4096 then 0xFF else s.byte x) ∧
        (500 < p → done (s.flashEnds [p]) 5 ∧ ∀ x : Nat, x < a ∨ a + 4096 ≤ x → (s.flashEnds [p]).byte x = s.byte x)) ∧
      (s.flc.op = some ⟨1, a, bs⟩ → bs.length = 16 → s.bytes a 16 = List.replicate 16 0xFF →
        (p ≤ 8 → done (s.flashEnds [p]) 1 ∧ ∀ x : Nat, (s.flashEnds [p]).byte x = if a ≤ x ∧ x < a + 16 then bs.getD (x - a) 0 else s.byte x) ∧
        (8 < p → done (s.flashEnds [p]) 4 ∧ ∀ x : Nat, x < a ∨ a + 16 ≤ x → (s.flashEnds [p]).byte x = s.byte x)) ∧
      (s.flc.op = some ⟨1, a, bs⟩ → 16 ≤ bs.length → s.bytes a 16 ≠ List.replicate 16 0xFF → s.flashEnds [p] = result s 3) ∧
      (s.flc.op = some ⟨3, a, bs⟩ → s.flashEnds [p] = result (s.setBit (Reg.FLC_PROT (a / 0x400000)) (a / 0x20000 % 32) true) 1) ∧
      (s.flc.op = some ⟨4, a, bs⟩ → s.flashEnds [p] = result (s.setBit (Reg.FLC_PROT (a / 0x400000)) (a / 0x20000 % 32) false) 1) ∧
      (s.flc.op = some ⟨5, a, bs⟩ → s.flashEnds [p] = result { s with flc := { s.flc with pwd := BitVec.ofNat 64 (ofBytesLe bs) } } 1) ∧
      (s.flc.op = some ⟨7, a, bs⟩ → done (s.flashEnds [p]) 1 ∧ (s.flashEnds [p]).flc.head = 0 ∧ (s.flashEnds [p]).get F.FLC_LOGSTAT_SEQ = 0 ∧
        ∀ x : Nat, (s.flashEnds [p]).byte x = if 0x7F8000 ≤ x ∧ x < 0x7FF000 then 0xFF else s.byte x) ∧
      (s.flc.op = some ⟨15, a, bs⟩ → bs.length = 16 → s.flc.head < 1792 →
        let h := 0x7F8000 + 16 * s.flc.head
        (s.flc.queued = none → ∃ t : State, s.flashEnds [p] = t ∧ t.flc.op = none ∧ t.flc.head = (s.flc.head + 1) % 1792 ∧
          t.flag F.FLC_STAT_LOGBUSY = false ∧ t.get F.FLC_LOGSTAT_SEQ = (s.get F.FLC_LOGSTAT_SEQ + 1) % 2 ^ 24 ∧ t.pulses = s.pulses ∧
          ∀ x : Nat, t.byte x = if h ≤ x ∧ x < h + 16 then bs.getD (x - h) 0
            else if s.flc.head % 256 = 0 ∧ h ≤ x ∧ x < h + 4096 then 0xFF else s.byte x) ∧
        (s.flc.queued = some 6 → (s.flashEnds [p]).flag F.FLC_STAT_UNLOCKED = false ∧ done (s.flashEnds [p]) 1))) ∧
    (∀ (a n : Nat) (bs : List Byte) (ps : List Nat), a % 16 = 0 → bs.length = 16 * n → ps.length = n → 1 ≤ n →
      a % 4096 + 16 * n ≤ 4096 → a + 16 * n ≤ 0x800000 → s.flc.op = some ⟨1, a, bs⟩ →
      let erased (i : Nat) : Prop := s.bytes (a + 16 * i) 16 = List.replicate 16 0xFF
      let upTo (k : Nat) (t : State) : Prop := ∀ x : Nat, x < a + 16 * k ∨ a + 16 * (k + 1) ≤ x →
        t.byte x = if a ≤ x ∧ x < a + 16 * k then bs.getD (x - a) 0 else s.byte x
      let ended (t : State) (m : Nat) : Prop := t.get F.FLC_STAT_RESULT = m ∧ t.flag F.FLC_STAT_BUSY = false ∧ t.flc.op = none ∧
        t.pulses = s.pulses ++ [7] ∧ (m ≠ 1 → t.flag F.FLC_STAT_ERR = true)
      ((∀ i : Nat, i < n → erased i ∧ ps.getD i 1 ≤ 8) → ended (s.flashEnds ps) 1 ∧ upTo n (s.flashEnds ps)) ∧
      (∀ k : Nat, k < n → (∀ i : Nat, i < k → erased i ∧ ps.getD i 1 ≤ 8) →
        (¬erased k → ended (s.flashEnds ps) 3 ∧ upTo k (s.flashEnds ps) ∧
          ∀ x : Nat, a + 16 * k ≤ x → (s.flashEnds ps).byte x = s.byte x) ∧
        (erased k → 8 < ps.getD k 1 → ended (s.flashEnds ps) 4 ∧ upTo k (s.flashEnds ps)))) ∧
    (∀ (p : List Nat) (h : Nat) (bs : List Byte), s.flc.op = some ⟨15, h, bs⟩ → s.inForce = none →
      let q : State := ({ s with flc := { s.flc with queued := none } } : State).flashEnds p
      let n := if s.get F.FLC_LEN_UNITS = 0 then 256 else s.get F.FLC_LEN_UNITS
      let bad : Prop := at' % 16 ≠ 0 ∨ s.get F.FLC_SRC_SRC % 16 ≠ 0 ∨ 4096 < at' % 4096 + 16 * n ∨ log = true
      let x := q.moveRead (s.blockNS 21) 70 (s.get F.FLC_SRC_SRC) (16 * n)
      let after (op : Nat) (t : State) : Prop := s.flc.queued = some op → s.flashEnds p = t
      (bad → after 1 (result q 6)) ∧ (¬bad → prot = true → after 1 (result q 2)) ∧
      (∀ e : AccErr, ¬bad → prot = false → x.2 = .error e → after 1 (result x.1 8)) ∧
      (∀ ds : List Byte, ¬bad → prot = false → x.2 = .ok ds → after 1 (starts x.1 1 at' ds)) ∧
      after 2 (if log then result q 6 else if prot then result q 2 else starts q 2 (at' / 4096 * 4096) []) ∧
      after 3 (starts q 3 at' []) ∧ after 4 (if open' then starts q 4 at' [] else result q 7) ∧
      (open' = false → after 5 (result q 7)) ∧ (open' = true → s.flc.newWords.length < 4 → after 5 (result q 6)) ∧
      (∀ w0 w1 w2 w3 : BitVec 16, open' = true → s.flc.newWords = [w0, w1, w2, w3] →
        after 5 (starts { q with flc := { q.flc with newWords := [] } } 5 0
          (bytesLe 8 (((w0.toNat * 65536 + w1.toNat) * 65536 + w2.toNat) * 65536 + w3.toNat)))) ∧
      after 6 (result (q.put F.FLC_STAT_UNLOCKED 0) 1) ∧
      after 7 (if s.bit (Reg.FLC_PROT 1) 31 then result q 2 else starts q 7 0x7F8000 [])) ∧
    (∀ w : BitVec 16, s.admits r.val Reg.FLC_PWDIN true = true →
      let c := s.served r.val Reg.FLC_PWDIN
      (s.flag F.FLC_STAT_LOCKOUT = true ∨ (open' = true ∧ 5 ≤ s.flc.newWords.length) → exec (.flcPwdin r w) s = .next (c.answered 0)) ∧
      (s.flag F.FLC_STAT_LOCKOUT = false → open' = true → s.flc.newWords.length < 5 → exec (.flcPwdin r w) s =
        .next (({ c with flc := { s.flc with newWords := s.flc.newWords ++ [w] } } : State).answered 0)) ∧
      (s.flag F.FLC_STAT_LOCKOUT = false → open' = false → s.flc.words.length < 3 → exec (.flcPwdin r w) s =
        .next (({ c with flc := { s.flc with words := s.flc.words ++ [w] } } : State).answered 0)) ∧
      (∀ w0 w1 w2 : BitVec 16, s.flag F.FLC_STAT_LOCKOUT = false → open' = false → s.flc.words = [w0, w1, w2] →
        let right : Prop := ((w0.toNat * 65536 + w1.toNat) * 65536 + w2.toNat) * 65536 + w.toNat = s.flc.pwd.toNat
        let wrong : State := { c with flc := { s.flc with words := [], mismatches := s.flc.mismatches + 1 } }
        (right → exec (.flcPwdin r w) s =
          .next ((({ c with flc := { s.flc with words := [], newWords := [], mismatches := 0 } } : State).put F.FLC_STAT_UNLOCKED 1).answered 0)) ∧
        (¬right → exec (.flcPwdin r w) s =
          .next ((if 4 ≤ s.flc.mismatches + 1 then wrong.put F.FLC_STAT_LOCKOUT 1 else wrong).answered 0)))) ∧
    (∀ v : Word, s.admits r.val Reg.FLC_LOGADD true = true → s.pwrState ≤ 1 →
      let c := s.served r.val Reg.FLC_LOGADD
      (s.flc.log.length < 16 →
        exec (.flcLogadd r v) s = .next (({ c with flc := { s.flc with log := s.flc.log ++ [⟨9, v⟩] } } : State).answered 0)) ∧
      (16 ≤ s.flc.log.length → exec (.flcLogadd r v) s = .next ((c.bump F.FLC_LOGSTAT_DROP).answered 0))) ∧
    (let free : Prop := s.flc.op = none ∧ s.ready 21 = true ∧ s.pwr.mainOn = true ∧ s.pwrState ≤ 1
     (s.flc.log = [] ∨ ¬free → exec .logbookAppend s = .next s) ∧
     (∀ (x : LogRec) (rest : List LogRec), s.flc.log = x :: rest → free →
       ∃ t : State, exec .logbookAppend s = .next t ∧ t.flc.log = rest ∧ t.flag F.FLC_STAT_LOGBUSY = true ∧ t.mem = s.mem ∧
         (t.flc.op.map FlcOp.op) = some 15 ∧ (t.flc.op.map FlcOp.addr) = some (0x7F8000 + 16 * s.flc.head) ∧
         (let d := (t.flc.op.map FlcOp.data).getD []
          d.length = 16 ∧ d.take 8 = bytesLe 4 (s.get F.FLC_LOGSTAT_SEQ + x.code % 256 * 2 ^ 24) ++ bytesLe 4 (s.reg Reg.RTC_DATE).toNat ∧
          d.drop 12 = bytesLe 4 x.detail.toNat ∧
          (s.flag F.RTC_CTL_HALT = true → (d.drop 8).take 4 = bytesLe 4 (s.reg Reg.RTC_TIME).toNat)))) ∧
    (∀ (a : Word) (bad : Nat), a.toNat < 0x800000 →
      let u : State := if bad = 0 then s else { s with flc := { s.flc with
        ecc := (a.toNat / 16, bad) :: s.flc.ecc.filter (fun x => x.1 != a.toNat / 16) } }
      let barred : Prop := s.reqNS r.val = true ∧ s.memNS a.toNat = false
      let failed (t : State) : Out := .next { t.portError r.val a.toNat with data := 0, err := true }
      let bits := if bad = 0 then s.eccBits a.toNat else bad
      (s.canReach r.val = false → exec (.flashRead r a bad) s = .next s) ∧
      (s.canReach r.val = true → s.flc.op ≠ none →
        exec (.flashRead r a bad) s = .next { u with flc := { u.flc with waits := u.flc.waits ++ [.word r a s.worldMap] } }) ∧
      (s.canReach r.val = true → s.flc.op = none → a.toNat % 4 = 0 → barred →
        exec (.flashRead r a bad) s = failed (u.violation a.toNat false r.val)) ∧
      (s.canReach r.val = true → s.flc.op = none → a.toNat % 4 ≠ 0 ∨ (¬barred ∧ s.ready 21 = false) → exec (.flashRead r a bad) s = failed u) ∧
      (s.canReach r.val = true → s.flc.op = none → a.toNat % 4 = 0 → ¬barred → s.ready 21 = true →
        let w := u.takeTurn r.val (targetOf a.toNat)
        (bits = 0 → exec (.flashRead r a bad) s = .next (w.answered (s.word a.toNat))) ∧
        (bits = 1 → exec (.flashRead r a bad) s =
          .next (((w.bump F.FLC_ECCCOR_COUNT).put F.FLC_ECCADDR_ADDR a.toNat).answered (s.word a.toNat))) ∧
        (2 ≤ bits → exec (.flashRead r a bad) s = failed ((w.put F.FLC_ECCADDR_ADDR a.toNat).log 4 (a.toNat / 16 % 2 ^ 19))))) ∧
    (let mode := s.get F.AGE_CFG_MODE
     let standing := s.get F.AGE_STAT_STATE
     let c := s.served r.val Reg.AGE_CMD
     let proposed (o : Out) : Prop := ∃ t : State, o = .next t ∧ t.get F.AGE_STAT_STATE = 1 ∧ t.proposed = s.proposal ∧
       t.margins = s.margins ∧ t.pulses = s.pulses ++ [9] ∧ t.age = { mask := s.get F.AGE_CFG_EN } ∧ t.get F.AGE_VCO_LOHEAD = 255 ∧
       t.get F.AGE_VCO_HIHEAD = 255 ∧ t.get F.AGE_PADET_LAUNCHES = 0 ∧ t.mem = s.mem
     let committed (o : Out) (old : State) (p : Margins) : Prop := ∃ t : State, o = .next t ∧ t.get F.AGE_STAT_STATE = 0 ∧
       (old.age.stale = true → t.get F.AGE_STAT_RESULT = 3 ∧ t.margins = s.margins) ∧
       (old.age.stale = false → t.get F.AGE_STAT_RESULT = 1 ∧ t.margins = p)
     let applied (o : Out) : Prop := ∃ t : State, o = .next t ∧ t.get F.AGE_STAT_STATE = 0 ∧ t.get F.AGE_STAT_RESULT = 1 ∧
       t.margins = s.proposal ∧ t.pulses.take (s.pulses.length + 1) = s.pulses ++ [9]
     (s.awake = false → exec .planDue s = .next s) ∧
     (mode ≠ 0 → standing = 0 → s.running = true ∨ mode ≠ 2 → (s.admits r.val Reg.AGE_CMD true = true → proposed (exec (.plan r) s)) ∧
       (s.awake = true → proposed (exec .planDue s))) ∧
     (mode ≠ 0 → standing ≠ 0 → s.running = true →
       (s.admits r.val Reg.AGE_CMD true = true → exec (.plan r) s = .next ((c.put F.AGE_STAT_SKIPPED 1).answered 0)) ∧
       (s.awake = true → exec .planDue s = .next (s.put F.AGE_STAT_SKIPPED 1))) ∧
     (mode = 2 → standing = 0 → s.running = false →
       (s.admits r.val Reg.AGE_CMD true = true → applied (exec (.plan r) s)) ∧ (s.awake = true → applied (exec .planDue s))) ∧
     (standing ≠ 0 → s.running = false →
       let decided : Prop := standing = 2 ∨ (standing = 1 ∧ mode = 2)
       (decided → (s.admits r.val Reg.AGE_CMD true = true → committed (exec (.plan r) s) s s.proposed) ∧
         (s.awake = true → committed (exec .planDue s) s s.proposed)) ∧
       (¬decided → mode ≠ 0 →
         (s.admits r.val Reg.AGE_CMD true = true → exec (.plan r) s = .next ((c.put F.AGE_STAT_SKIPPED 1).answered 0)) ∧
         (s.awake = true → exec .planDue s = .next (s.put F.AGE_STAT_SKIPPED 1)))) ∧
     (mode = 0 → standing ≠ 2 ∨ s.running = true →
       (s.admits r.val Reg.AGE_CMD true = true → exec (.plan r) s = .next (c.answered 0)) ∧
       (s.awake = true → exec .planDue s = .next s)) ∧
     (s.admits r.val Reg.AGE_CMD true = true →
       (standing = 1 → s.running = true → exec (.approve r) s = .next ((c.put F.AGE_STAT_STATE 2).answered 0)) ∧
       (standing = 1 → s.running = false → committed (exec (.approve r) s) s s.proposed) ∧
       (standing = 0 → exec (.approve r) s = .next (c.answered 0)) ∧
       (standing = 1 → mode ≠ 2 → exec (.reject r) s = .next (((c.put F.AGE_STAT_STATE 0).put F.AGE_STAT_RESULT 2).answered 0)) ∧
       (standing ≠ 1 ∨ mode = 2 → exec (.reject r) s = .next (c.answered 0)))) ∧
    (let p := s.proposal
     let en (i : Nat) : Bool := (s.get F.AGE_CFG_EN).testBit i
     let deg := (List.range 8).foldl (fun m k => max m (s.get (F.AGE_SND_DEG k))) 0
     let drop := 10 * ((deg + 99) / 100)
     (∀ n : Fin 4, en 0 = true →
       let cal := (s.calReg (Reg.PWR_OP n.val)).toNat
       let mv := cal % 1024 + drop
       let mhz := cal / 65536 % 512
       p.op[n.val]? = some (if mv ≤ 950 then BitVec.ofNat 32 (mv + mhz * 65536)
         else BitVec.ofNat 32 (max (cal % 1024) 950 + min mhz (max 50 (mhz - 10 * ((mv - 950 + 9) / 10))) * 65536))) ∧
     (en 0 = false → p.op = s.margins.op) ∧ (en 1 = false → p.steps = s.margins.steps) ∧ (en 2 = false → p.vco = s.margins.vco) ∧
     (en 3 = false → p.pw = s.margins.pw) ∧
     (en 1 = true → s.age.detCount = 0 → p.steps = s.margins.steps) ∧
     (en 1 = true → s.age.detCount ≠ 0 → p.steps ≤ 15 ∧ (p.steps < 15 → s.age.detSum ≤ 2 * p.steps * s.age.detCount) ∧
       (0 < p.steps → 2 * ((p.steps : Int) - 1) * s.age.detCount < s.age.detSum)) ∧
     (en 2 = true → p.vco.toNat = (if s.get F.AGE_VCO_LOHEAD < 2 then min 0xFFFF ((s.reg Reg.SYN_VCOLIM).toNat % 65536 + 20)
         else (s.reg Reg.SYN_VCOLIM).toNat % 65536) + (if s.get F.AGE_VCO_HIHEAD < 2 then (s.reg Reg.SYN_VCOLIM).toNat / 65536 - 20
         else (s.reg Reg.SYN_VCOLIM).toNat / 65536) * 65536) ∧
     (en 3 = true → let pw := max 4 (min 20 (s.get F.FLC_TIMING_PW))
       p.pw = if s.age.units = 0 then s.get F.FLC_TIMING_PW
         else if 3 * s.age.units < s.age.pulses then min 20 (pw + 2)
         else if 2 * s.age.pulses < 3 * s.age.units then max (min pw (max 4 (min 20 ((s.calReg Reg.FLC_TIMING).toNat % 32)))) (pw - 2)
         else s.get F.FLC_TIMING_PW)) ∧
    (∀ o : FlcOp, s.flc.op = some o →
      let cut (x : Out) (cause : Nat) : Prop := ∃ t : State, x = .next t ∧ t.flc.op = none ∧ t.flc.queued = none ∧ t.flag F.FLC_STAT_BUSY = false ∧
        (if s.flag F.FLC_ABORT_VALID then t.flag F.FLC_ABORT_OVF = true ∧ t.get F.FLC_ABORT_CAUSE = s.get F.FLC_ABORT_CAUSE
          else t.flag F.FLC_ABORT_VALID = true ∧ t.get F.FLC_ABORT_CAUSE = cause ∧ t.get F.FLC_ABORT_OP = o.op % 16) ∧
        (o.op = 2 → o.addr % 4096 = 0 → ∀ a : Nat, a < 0x800000 → a < o.addr ∨ o.addr + 4096 ≤ a → t.byte a = s.byte a)
      cut (exec .thermalShutdown s) 1 ∧
      (s.flag F.PWR_SUPPLY_SRC = false → s.pwr.mainOn = true → s.pwrState ≤ 2 → s.pwr.inReset = false →
        cut (exec (.switchToVbat 2600 3000 true) s) 2) ∧
      (s.pwr.thermOff = false → cut (exec .rstin s) 3) ∧ (s.pwr.mainOn = true → cut (exec .brownout s) 3) ∧
      (s.admits r.val Reg.PWR_RST true = true → cut (exec (.pwrRst r 0xA5) s) 3)) ∧
    (∀ (temp : Byte) (raws : List Int), s.awake = false → exec (.soundingMeasurement temp raws) s = .next s) ∧
    (∀ (temp : Byte) (raws : List Int), s.awake = true → raws.length ≤ 24 →
      ∃ t : State, exec (.soundingMeasurement temp raws) s = .next t ∧ t.get F.TMP_DIE_TEMP = temp.toNat ∧ t.mem = s.mem ∧
        ∀ k : Fin 24, if k.val < raws.length then
            t.get (F.AGE_SND_DEG k.val) = min 0xFFFF (raws.getD k.val 0 - ((s.calReg (Reg.AGE_SND k.val)).toNat % 65536 : Nat)).toNat ∧
              t.get (F.AGE_SND_VALID k.val) = 1
          else t.reg (Reg.AGE_SND k.val) = s.reg (Reg.AGE_SND k.val))
end

