-- ==== Sys2Proof/Laws/Maps.lean ====
section
/-! SUPPORT. What the sparse maps of the state do: reading after writing, and that every operation on them keeps the canonical
form. -/

namespace Sys2Proof.Machine

variable {α : Type} [DecidableEq α] {d : Nat → α}

theorem AMap.look_put_other (m : List (Nat × α)) {k j : Nat} (v : α) (h : j ≠ k) :
    AMap.look d (AMap.put d m k v) j = AMap.look d m j := by
  induction m with
  | nil => by_cases hv : v = d k <;> simp [AMap.put, AMap.look, hv, h]
  | cons e t ih =>
    obtain ⟨i, u⟩ := e
    rcases lt_trichotomy k i with hlt | heq | hgt
    · by_cases hv : v = d k <;> simp [AMap.put, AMap.look, hlt, hv, h]
    · subst heq
      by_cases hv : v = d k <;> simp [AMap.put, AMap.look, hv, h]
    · have h1 : ¬k < i := by omega
      have h2 : k ≠ i := by omega
      by_cases hj : j = i <;> simp [AMap.put, AMap.look, h1, h2, hj, ih]

theorem AMap.wfFrom_mono {m : List (Nat × α)} {lo lo' : Nat} (h : AMap.wfFrom d lo m = true) (hl : lo' ≤ lo) :
    AMap.wfFrom d lo' m = true := by
  cases m with
  | nil => rfl
  | cons e t =>
    obtain ⟨i, u⟩ := e
    simp only [AMap.wfFrom, Bool.and_eq_true, decide_eq_true_eq] at h ⊢
    exact ⟨⟨by omega, h.1.2⟩, h.2⟩

/-- Below the lowest key everything reads as unlisted. -/
theorem AMap.look_below {m : List (Nat × α)} {lo k : Nat} (h : AMap.wfFrom d lo m = true) (hk : k < lo) :
    AMap.look d m k = d k := by
  induction m generalizing lo with
  | nil => rfl
  | cons e t ih =>
    obtain ⟨i, u⟩ := e
    simp only [AMap.wfFrom, Bool.and_eq_true, decide_eq_true_eq] at h
    have : k ≠ i := by omega
    simpa [AMap.look, this] using ih h.2 (by omega)

theorem AMap.look_put_same {m : List (Nat × α)} {lo k : Nat} (v : α) (h : AMap.wfFrom d lo m = true) :
    AMap.look d (AMap.put d m k v) k = v := by
  induction m generalizing lo with
  | nil => by_cases hv : v = d k <;> simp [AMap.put, AMap.look, hv]
  | cons e t ih =>
    obtain ⟨i, u⟩ := e
    have hw := h
    simp only [AMap.wfFrom, Bool.and_eq_true, decide_eq_true_eq] at h
    rcases lt_trichotomy k i with hlt | heq | hgt
    · by_cases hv : v = d k
      · have hw' : AMap.wfFrom d i ((i, u) :: t) = true := by
          simpa [AMap.wfFrom, h.1.2] using h.2
        simpa [AMap.put, hlt, hv] using AMap.look_below hw' hlt
      · simp [AMap.put, AMap.look, hlt, hv]
    · subst heq
      by_cases hv : v = d k
      · simpa [AMap.put, hv] using AMap.look_below h.2 (Nat.lt_succ_self k)
      · simp [AMap.put, AMap.look, hv]
    · have h1 : ¬k < i := by omega
      have h2 : k ≠ i := by omega
      simpa [AMap.put, AMap.look, h1, h2] using ih h.2

theorem AMap.wfFrom_put {m : List (Nat × α)} {lo k : Nat} (v : α) (h : AMap.wfFrom d lo m = true) (hk : lo ≤ k) :
    AMap.wfFrom d lo (AMap.put d m k v) = true := by
  induction m generalizing lo with
  | nil => by_cases hv : v = d k <;> simp [AMap.put, AMap.wfFrom, hv, hk]
  | cons e t ih =>
    obtain ⟨i, u⟩ := e
    have hw := h
    simp only [AMap.wfFrom, Bool.and_eq_true, decide_eq_true_eq] at h
    rcases lt_trichotomy k i with hlt | heq | hgt
    · by_cases hv : v = d k
      · simpa [AMap.put, hlt, hv] using hw
      · have : k + 1 ≤ i := hlt
        simp [AMap.put, AMap.wfFrom, hlt, hv, hk, h.1.2, h.2, this]
    · subst heq
      by_cases hv : v = d k
      · simpa [AMap.put, hv] using AMap.wfFrom_mono h.2 (by omega)
      · simp [AMap.put, AMap.wfFrom, hv, h.2, h.1.1]
    · have h1 : ¬k < i := by omega
      have h2 : k ≠ i := by omega
      have := ih h.2 (show i + 1 ≤ k by omega)
      simp [AMap.put, AMap.wfFrom, h1, h2, h.1.1, h.1.2, this]

theorem AMap.wf_put {m : List (Nat × α)} (k : Nat) (v : α) (h : AMap.wf d m = true) : AMap.wf d (AMap.put d m k v) = true :=
  AMap.wfFrom_put v h (Nat.zero_le k)

theorem AMap.wfFrom_clear {m : List (Nat × α)} {lo : Nat} (p : Nat → Bool) (h : AMap.wfFrom d lo m = true) :
    AMap.wfFrom d lo (AMap.clear p m) = true := by
  induction m generalizing lo with
  | nil => rfl
  | cons e t ih =>
    obtain ⟨i, u⟩ := e
    simp only [AMap.wfFrom, Bool.and_eq_true, decide_eq_true_eq] at h
    have ht := ih h.2
    by_cases hp : p i = true
    · simpa [AMap.clear, hp] using AMap.wfFrom_mono ht (by omega)
    · have : AMap.clear p ((i, u) :: t) = (i, u) :: AMap.clear p t := by simp [AMap.clear, hp]
      simp [this, AMap.wfFrom, h.1, ht]

theorem AMap.wf_clear {m : List (Nat × α)} (p : Nat → Bool) (h : AMap.wf d m = true) : AMap.wf d (AMap.clear p m) = true :=
  AMap.wfFrom_clear p h

theorem AMap.look_clear {m : List (Nat × α)} {lo : Nat} (p : Nat → Bool) (h : AMap.wfFrom d lo m = true) (k : Nat) :
    AMap.look d (AMap.clear p m) k = if p k then d k else AMap.look d m k := by
  induction m generalizing lo with
  | nil => simp [AMap.clear, AMap.look]
  | cons e t ih =>
    obtain ⟨i, u⟩ := e
    simp only [AMap.wfFrom, Bool.and_eq_true, decide_eq_true_eq] at h
    have ht := ih h.2
    by_cases hp : p i = true
    · have hc : AMap.clear p ((i, u) :: t) = AMap.clear p t := by simp [AMap.clear, hp]
      rw [hc, ht]
      by_cases hk : k = i
      · subst hk; simp [hp]
      · simp [AMap.look, hk]
    · have hc : AMap.clear p ((i, u) :: t) = (i, u) :: AMap.clear p t := by simp [AMap.clear, hp]
      rw [hc]
      by_cases hk : k = i
      · subst hk; simp [AMap.look, hp]
      · simp [AMap.look, hk, ht]

/-- Equal contents are equal lists. -/
theorem AMap.wf_ext {m n : List (Nat × α)} {lo : Nat} (hm : AMap.wfFrom d lo m = true) (hn : AMap.wfFrom d lo n = true)
    (h : ∀ k, AMap.look d m k = AMap.look d n k) : m = n := by
  induction m generalizing n lo with
  | nil =>
    cases n with
    | nil => rfl
    | cons e t =>
      obtain ⟨i, u⟩ := e
      simp only [AMap.wfFrom, Bool.and_eq_true, decide_eq_true_eq] at hn
      have := h i
      simp [AMap.look] at this
      exact absurd this.symm hn.1.2
  | cons e t ih =>
    obtain ⟨i, u⟩ := e
    have hm' := hm
    simp only [AMap.wfFrom, Bool.and_eq_true, decide_eq_true_eq] at hm
    cases n with
    | nil =>
      have := h i
      simp [AMap.look] at this
      exact absurd this hm.1.2
    | cons e' t' =>
      obtain ⟨j, w⟩ := e'
      have hn' := hn
      simp only [AMap.wfFrom, Bool.and_eq_true, decide_eq_true_eq] at hn
      have hij : i = j := by
        rcases lt_trichotomy i j with hlt | heq | hgt
        · have h1 := h i
          have h2 : AMap.look d ((j, w) :: t') i = d i :=
            AMap.look_below (lo := j) (by simp [AMap.wfFrom, hn.1.2, hn.2]) hlt
          rw [h2] at h1
          simp [AMap.look] at h1
          exact absurd h1 hm.1.2
        · exact heq
        · have h1 := h j
          have h2 : AMap.look d ((i, u) :: t) j = d j :=
            AMap.look_below (lo := i) (by simp [AMap.wfFrom, hm.1.2, hm.2]) hgt
          rw [h2] at h1
          simp [AMap.look] at h1
          exact absurd h1.symm hn.1.2
      subst hij
      have huw : u = w := by simpa [AMap.look] using h i
      subst huw
      have : t = t' := by
        refine ih hm.2 hn.2 (fun k => ?_)
        by_cases hk : k = i
        · subst hk
          rw [AMap.look_below hm.2 (Nat.lt_succ_self k), AMap.look_below hn.2 (Nat.lt_succ_self k)]
        · simpa [AMap.look, hk] using h k
      rw [this]

/-- Writing what is there changes nothing. -/
theorem AMap.put_look {m : List (Nat × α)} {lo k : Nat} (h : AMap.wfFrom d lo m = true) (hk : lo ≤ k) :
    AMap.put d m k (AMap.look d m k) = m := by
  refine AMap.wf_ext (AMap.wfFrom_put _ h hk) h (fun j => ?_)
  by_cases hj : j = k
  · subst hj; exact AMap.look_put_same _ h
  · exact AMap.look_put_other m _ hj

end Sys2Proof.Machine
end

