-- ==== Sys2Proof/Laws/State.lean ====
section
/-! SUPPORT. What each update of the state does to each field, and what reads see after it. -/

namespace Sys2Proof.Machine

/-! ## One lemma per field per update -/

@[simp] theorem State.setReg_pending (s : State) (k : Nat) (v : Word) : (s.setReg k v).pending = s.pending := rfl
@[simp] theorem State.setReg_regs (s : State) (k : Nat) (v : Word) : (s.setReg k v).regs = AMap.put resetVal s.regs k v := rfl
@[simp] theorem State.setReg_act (s : State) (k : Nat) (v : Word) : (s.setReg k v).act = s.act := rfl
@[simp] theorem State.setReg_cal (s : State) (k : Nat) (v : Word) : (s.setReg k v).cal = s.cal := rfl
@[simp] theorem State.setReg_mem (s : State) (k : Nat) (v : Word) : (s.setReg k v).mem = s.mem := rfl
@[simp] theorem State.setReg_snaps (s : State) (k : Nat) (v : Word) : (s.setReg k v).snaps = s.snaps := rfl
@[simp] theorem State.setReg_aonBuf (s : State) (k : Nat) (v : Word) : (s.setReg k v).aonBuf = s.aonBuf := rfl
@[simp] theorem State.setReg_data (s : State) (k : Nat) (v : Word) : (s.setReg k v).data = s.data := rfl
@[simp] theorem State.setReg_err (s : State) (k : Nat) (v : Word) : (s.setReg k v).err = s.err := rfl
@[simp] theorem State.setReg_free (s : State) (k : Nat) (v : Word) : (s.setReg k v).free = s.free := rfl
@[simp] theorem State.setReg_lane (s : State) (k : Nat) (v : Word) : (s.setReg k v).lane = s.lane := rfl
@[simp] theorem State.setReg_chain (s : State) (k : Nat) (v : Word) : (s.setReg k v).chain = s.chain := rfl
@[simp] theorem State.setReg_ldpQueue (s : State) (k : Nat) (v : Word) : (s.setReg k v).ldpQueue = s.ldpQueue := rfl
@[simp] theorem State.setReg_ldp (s : State) (k : Nat) (v : Word) : (s.setReg k v).ldp = s.ldp := rfl
@[simp] theorem State.setReg_eng (s : State) (k : Nat) (v : Word) : (s.setReg k v).eng = s.eng := rfl
@[simp] theorem State.setReg_wellLast (s : State) (k : Nat) (v : Word) : (s.setReg k v).wellLast = s.wellLast := rfl
@[simp] theorem State.setReg_targetLast (s : State) (k : Nat) (v : Word) : (s.setReg k v).targetLast = s.targetLast := rfl
@[simp] theorem State.setReg_arb (s : State) (k : Nat) (v : Word) : (s.setReg k v).arb = s.arb := rfl
@[simp] theorem State.setReg_inForce (s : State) (k : Nat) (v : Word) : (s.setReg k v).inForce = s.inForce := rfl
@[simp] theorem State.setReg_events (s : State) (k : Nat) (v : Word) : (s.setReg k v).events = s.events := rfl
@[simp] theorem State.setReg_sfm (s : State) (k : Nat) (v : Word) : (s.setReg k v).sfm = s.sfm := rfl
@[simp] theorem State.setReg_granules (s : State) (k : Nat) (v : Word) : (s.setReg k v).granules = s.granules := rfl
@[simp] theorem State.setReg_tx (s : State) (k : Nat) (v : Word) : (s.setReg k v).tx = s.tx := rfl
@[simp] theorem State.setReg_syn (s : State) (k : Nat) (v : Word) : (s.setReg k v).syn = s.syn := rfl
@[simp] theorem State.setReg_cip (s : State) (k : Nat) (v : Word) : (s.setReg k v).cip = s.cip := rfl
@[simp] theorem State.setReg_sph (s : State) (k : Nat) (v : Word) : (s.setReg k v).sph = s.sph := rfl
@[simp] theorem State.setReg_spi (s : State) (k : Nat) (v : Word) : (s.setReg k v).spi = s.spi := rfl
@[simp] theorem State.setReg_mgb (s : State) (k : Nat) (v : Word) : (s.setReg k v).mgb = s.mgb := rfl
@[simp] theorem State.setReg_mac (s : State) (k : Nat) (v : Word) : (s.setReg k v).mac = s.mac := rfl
@[simp] theorem State.setReg_ptp (s : State) (k : Nat) (v : Word) : (s.setReg k v).ptp = s.ptp := rfl
@[simp] theorem State.setReg_fdr (s : State) (k : Nat) (v : Word) : (s.setReg k v).fdr = s.fdr := rfl
@[simp] theorem State.setReg_ctr (s : State) (k : Nat) (v : Word) : (s.setReg k v).ctr = s.ctr := rfl
@[simp] theorem State.setReg_pulses (s : State) (k : Nat) (v : Word) : (s.setReg k v).pulses = s.pulses := rfl
@[simp] theorem State.setReg_aonHigh (s : State) (k : Nat) (v : Word) : (s.setReg k v).aonHigh = s.aonHigh := rfl
@[simp] theorem State.setReg_tmr (s : State) (k : Nat) (v : Word) : (s.setReg k v).tmr = s.tmr := rfl
@[simp] theorem State.setReg_rtcDst (s : State) (k : Nat) (v : Word) : (s.setReg k v).rtcDst = s.rtcDst := rfl
@[simp] theorem State.setReg_xtal (s : State) (k : Nat) (v : Word) : (s.setReg k v).xtal = s.xtal := rfl
@[simp] theorem State.setReg_trim (s : State) (k : Nat) (v : Word) : (s.setReg k v).trim = s.trim := rfl
@[simp] theorem State.setReg_part (s : State) (k : Nat) (v : Word) : (s.setReg k v).part = s.part := rfl
@[simp] theorem State.setReg_pwr (s : State) (k : Nat) (v : Word) : (s.setReg k v).pwr = s.pwr := rfl
@[simp] theorem State.setReg_flc (s : State) (k : Nat) (v : Word) : (s.setReg k v).flc = s.flc := rfl
@[simp] theorem State.setReg_age (s : State) (k : Nat) (v : Word) : (s.setReg k v).age = s.age := rfl
@[simp] theorem State.setReg_pins (s : State) (k : Nat) (v : Word) : (s.setReg k v).pins = s.pins := rfl

@[simp] theorem State.setActive_pending (s : State) (k : Nat) (v : Word) : (s.setActive k v).pending = s.pending := rfl
@[simp] theorem State.setActive_regs (s : State) (k : Nat) (v : Word) : (s.setActive k v).regs = s.regs := rfl
@[simp] theorem State.setActive_act (s : State) (k : Nat) (v : Word) : (s.setActive k v).act = AMap.put resetVal s.act k v := rfl
@[simp] theorem State.setActive_cal (s : State) (k : Nat) (v : Word) : (s.setActive k v).cal = s.cal := rfl
@[simp] theorem State.setActive_mem (s : State) (k : Nat) (v : Word) : (s.setActive k v).mem = s.mem := rfl
@[simp] theorem State.setActive_snaps (s : State) (k : Nat) (v : Word) : (s.setActive k v).snaps = s.snaps := rfl
@[simp] theorem State.setActive_aonBuf (s : State) (k : Nat) (v : Word) : (s.setActive k v).aonBuf = s.aonBuf := rfl
@[simp] theorem State.setActive_data (s : State) (k : Nat) (v : Word) : (s.setActive k v).data = s.data := rfl
@[simp] theorem State.setActive_err (s : State) (k : Nat) (v : Word) : (s.setActive k v).err = s.err := rfl
@[simp] theorem State.setActive_free (s : State) (k : Nat) (v : Word) : (s.setActive k v).free = s.free := rfl
@[simp] theorem State.setActive_lane (s : State) (k : Nat) (v : Word) : (s.setActive k v).lane = s.lane := rfl
@[simp] theorem State.setActive_chain (s : State) (k : Nat) (v : Word) : (s.setActive k v).chain = s.chain := rfl
@[simp] theorem State.setActive_ldpQueue (s : State) (k : Nat) (v : Word) : (s.setActive k v).ldpQueue = s.ldpQueue := rfl
@[simp] theorem State.setActive_ldp (s : State) (k : Nat) (v : Word) : (s.setActive k v).ldp = s.ldp := rfl
@[simp] theorem State.setActive_eng (s : State) (k : Nat) (v : Word) : (s.setActive k v).eng = s.eng := rfl
@[simp] theorem State.setActive_wellLast (s : State) (k : Nat) (v : Word) : (s.setActive k v).wellLast = s.wellLast := rfl
@[simp] theorem State.setActive_targetLast (s : State) (k : Nat) (v : Word) : (s.setActive k v).targetLast = s.targetLast := rfl
@[simp] theorem State.setActive_arb (s : State) (k : Nat) (v : Word) : (s.setActive k v).arb = s.arb := rfl
@[simp] theorem State.setActive_inForce (s : State) (k : Nat) (v : Word) : (s.setActive k v).inForce = s.inForce := rfl
@[simp] theorem State.setActive_events (s : State) (k : Nat) (v : Word) : (s.setActive k v).events = s.events := rfl
@[simp] theorem State.setActive_sfm (s : State) (k : Nat) (v : Word) : (s.setActive k v).sfm = s.sfm := rfl
@[simp] theorem State.setActive_granules (s : State) (k : Nat) (v : Word) : (s.setActive k v).granules = s.granules := rfl
@[simp] theorem State.setActive_tx (s : State) (k : Nat) (v : Word) : (s.setActive k v).tx = s.tx := rfl
@[simp] theorem State.setActive_syn (s : State) (k : Nat) (v : Word) : (s.setActive k v).syn = s.syn := rfl
@[simp] theorem State.setActive_cip (s : State) (k : Nat) (v : Word) : (s.setActive k v).cip = s.cip := rfl
@[simp] theorem State.setActive_sph (s : State) (k : Nat) (v : Word) : (s.setActive k v).sph = s.sph := rfl
@[simp] theorem State.setActive_spi (s : State) (k : Nat) (v : Word) : (s.setActive k v).spi = s.spi := rfl
@[simp] theorem State.setActive_mgb (s : State) (k : Nat) (v : Word) : (s.setActive k v).mgb = s.mgb := rfl
@[simp] theorem State.setActive_mac (s : State) (k : Nat) (v : Word) : (s.setActive k v).mac = s.mac := rfl
@[simp] theorem State.setActive_ptp (s : State) (k : Nat) (v : Word) : (s.setActive k v).ptp = s.ptp := rfl
@[simp] theorem State.setActive_fdr (s : State) (k : Nat) (v : Word) : (s.setActive k v).fdr = s.fdr := rfl
@[simp] theorem State.setActive_ctr (s : State) (k : Nat) (v : Word) : (s.setActive k v).ctr = s.ctr := rfl
@[simp] theorem State.setActive_pulses (s : State) (k : Nat) (v : Word) : (s.setActive k v).pulses = s.pulses := rfl
@[simp] theorem State.setActive_aonHigh (s : State) (k : Nat) (v : Word) : (s.setActive k v).aonHigh = s.aonHigh := rfl
@[simp] theorem State.setActive_tmr (s : State) (k : Nat) (v : Word) : (s.setActive k v).tmr = s.tmr := rfl
@[simp] theorem State.setActive_rtcDst (s : State) (k : Nat) (v : Word) : (s.setActive k v).rtcDst = s.rtcDst := rfl
@[simp] theorem State.setActive_xtal (s : State) (k : Nat) (v : Word) : (s.setActive k v).xtal = s.xtal := rfl
@[simp] theorem State.setActive_trim (s : State) (k : Nat) (v : Word) : (s.setActive k v).trim = s.trim := rfl
@[simp] theorem State.setActive_part (s : State) (k : Nat) (v : Word) : (s.setActive k v).part = s.part := rfl
@[simp] theorem State.setActive_pwr (s : State) (k : Nat) (v : Word) : (s.setActive k v).pwr = s.pwr := rfl
@[simp] theorem State.setActive_flc (s : State) (k : Nat) (v : Word) : (s.setActive k v).flc = s.flc := rfl
@[simp] theorem State.setActive_age (s : State) (k : Nat) (v : Word) : (s.setActive k v).age = s.age := rfl
@[simp] theorem State.setActive_pins (s : State) (k : Nat) (v : Word) : (s.setActive k v).pins = s.pins := rfl

@[simp] theorem State.put_pending (s : State) (f : Fld) (n : Nat) : (s.put f n).pending = s.pending := rfl
@[simp] theorem State.put_act (s : State) (f : Fld) (n : Nat) : (s.put f n).act = s.act := rfl
@[simp] theorem State.put_cal (s : State) (f : Fld) (n : Nat) : (s.put f n).cal = s.cal := rfl
@[simp] theorem State.put_mem (s : State) (f : Fld) (n : Nat) : (s.put f n).mem = s.mem := rfl
@[simp] theorem State.put_snaps (s : State) (f : Fld) (n : Nat) : (s.put f n).snaps = s.snaps := rfl
@[simp] theorem State.put_aonBuf (s : State) (f : Fld) (n : Nat) : (s.put f n).aonBuf = s.aonBuf := rfl
@[simp] theorem State.put_data (s : State) (f : Fld) (n : Nat) : (s.put f n).data = s.data := rfl
@[simp] theorem State.put_err (s : State) (f : Fld) (n : Nat) : (s.put f n).err = s.err := rfl
@[simp] theorem State.put_free (s : State) (f : Fld) (n : Nat) : (s.put f n).free = s.free := rfl
@[simp] theorem State.put_lane (s : State) (f : Fld) (n : Nat) : (s.put f n).lane = s.lane := rfl
@[simp] theorem State.put_chain (s : State) (f : Fld) (n : Nat) : (s.put f n).chain = s.chain := rfl
@[simp] theorem State.put_ldpQueue (s : State) (f : Fld) (n : Nat) : (s.put f n).ldpQueue = s.ldpQueue := rfl
@[simp] theorem State.put_ldp (s : State) (f : Fld) (n : Nat) : (s.put f n).ldp = s.ldp := rfl
@[simp] theorem State.put_eng (s : State) (f : Fld) (n : Nat) : (s.put f n).eng = s.eng := rfl
@[simp] theorem State.put_wellLast (s : State) (f : Fld) (n : Nat) : (s.put f n).wellLast = s.wellLast := rfl
@[simp] theorem State.put_targetLast (s : State) (f : Fld) (n : Nat) : (s.put f n).targetLast = s.targetLast := rfl
@[simp] theorem State.put_arb (s : State) (f : Fld) (n : Nat) : (s.put f n).arb = s.arb := rfl
@[simp] theorem State.put_inForce (s : State) (f : Fld) (n : Nat) : (s.put f n).inForce = s.inForce := rfl
@[simp] theorem State.put_events (s : State) (f : Fld) (n : Nat) : (s.put f n).events = s.events := rfl
@[simp] theorem State.put_sfm (s : State) (f : Fld) (n : Nat) : (s.put f n).sfm = s.sfm := rfl
@[simp] theorem State.put_granules (s : State) (f : Fld) (n : Nat) : (s.put f n).granules = s.granules := rfl
@[simp] theorem State.put_tx (s : State) (f : Fld) (n : Nat) : (s.put f n).tx = s.tx := rfl
@[simp] theorem State.put_syn (s : State) (f : Fld) (n : Nat) : (s.put f n).syn = s.syn := rfl
@[simp] theorem State.put_cip (s : State) (f : Fld) (n : Nat) : (s.put f n).cip = s.cip := rfl
@[simp] theorem State.put_sph (s : State) (f : Fld) (n : Nat) : (s.put f n).sph = s.sph := rfl
@[simp] theorem State.put_spi (s : State) (f : Fld) (n : Nat) : (s.put f n).spi = s.spi := rfl
@[simp] theorem State.put_mgb (s : State) (f : Fld) (n : Nat) : (s.put f n).mgb = s.mgb := rfl
@[simp] theorem State.put_mac (s : State) (f : Fld) (n : Nat) : (s.put f n).mac = s.mac := rfl
@[simp] theorem State.put_ptp (s : State) (f : Fld) (n : Nat) : (s.put f n).ptp = s.ptp := rfl
@[simp] theorem State.put_fdr (s : State) (f : Fld) (n : Nat) : (s.put f n).fdr = s.fdr := rfl
@[simp] theorem State.put_ctr (s : State) (f : Fld) (n : Nat) : (s.put f n).ctr = s.ctr := rfl
@[simp] theorem State.put_pulses (s : State) (f : Fld) (n : Nat) : (s.put f n).pulses = s.pulses := rfl
@[simp] theorem State.put_aonHigh (s : State) (f : Fld) (n : Nat) : (s.put f n).aonHigh = s.aonHigh := rfl
@[simp] theorem State.put_tmr (s : State) (f : Fld) (n : Nat) : (s.put f n).tmr = s.tmr := rfl
@[simp] theorem State.put_rtcDst (s : State) (f : Fld) (n : Nat) : (s.put f n).rtcDst = s.rtcDst := rfl
@[simp] theorem State.put_xtal (s : State) (f : Fld) (n : Nat) : (s.put f n).xtal = s.xtal := rfl
@[simp] theorem State.put_trim (s : State) (f : Fld) (n : Nat) : (s.put f n).trim = s.trim := rfl
@[simp] theorem State.put_part (s : State) (f : Fld) (n : Nat) : (s.put f n).part = s.part := rfl
@[simp] theorem State.put_pwr (s : State) (f : Fld) (n : Nat) : (s.put f n).pwr = s.pwr := rfl
@[simp] theorem State.put_flc (s : State) (f : Fld) (n : Nat) : (s.put f n).flc = s.flc := rfl
@[simp] theorem State.put_age (s : State) (f : Fld) (n : Nat) : (s.put f n).age = s.age := rfl
@[simp] theorem State.put_pins (s : State) (f : Fld) (n : Nat) : (s.put f n).pins = s.pins := rfl

@[simp] theorem State.setBit_pending (s : State) (k i : Nat) (b : Bool) : (s.setBit k i b).pending = s.pending := rfl
@[simp] theorem State.setBit_act (s : State) (k i : Nat) (b : Bool) : (s.setBit k i b).act = s.act := rfl
@[simp] theorem State.setBit_cal (s : State) (k i : Nat) (b : Bool) : (s.setBit k i b).cal = s.cal := rfl
@[simp] theorem State.setBit_mem (s : State) (k i : Nat) (b : Bool) : (s.setBit k i b).mem = s.mem := rfl
@[simp] theorem State.setBit_snaps (s : State) (k i : Nat) (b : Bool) : (s.setBit k i b).snaps = s.snaps := rfl
@[simp] theorem State.setBit_aonBuf (s : State) (k i : Nat) (b : Bool) : (s.setBit k i b).aonBuf = s.aonBuf := rfl
@[simp] theorem State.setBit_data (s : State) (k i : Nat) (b : Bool) : (s.setBit k i b).data = s.data := rfl
@[simp] theorem State.setBit_err (s : State) (k i : Nat) (b : Bool) : (s.setBit k i b).err = s.err := rfl
@[simp] theorem State.setBit_free (s : State) (k i : Nat) (b : Bool) : (s.setBit k i b).free = s.free := rfl
@[simp] theorem State.setBit_lane (s : State) (k i : Nat) (b : Bool) : (s.setBit k i b).lane = s.lane := rfl
@[simp] theorem State.setBit_chain (s : State) (k i : Nat) (b : Bool) : (s.setBit k i b).chain = s.chain := rfl
@[simp] theorem State.setBit_ldpQueue (s : State) (k i : Nat) (b : Bool) : (s.setBit k i b).ldpQueue = s.ldpQueue := rfl
@[simp] theorem State.setBit_ldp (s : State) (k i : Nat) (b : Bool) : (s.setBit k i b).ldp = s.ldp := rfl
@[simp] theorem State.setBit_eng (s : State) (k i : Nat) (b : Bool) : (s.setBit k i b).eng = s.eng := rfl
@[simp] theorem State.setBit_wellLast (s : State) (k i : Nat) (b : Bool) : (s.setBit k i b).wellLast = s.wellLast := rfl
@[simp] theorem State.setBit_targetLast (s : State) (k i : Nat) (b : Bool) : (s.setBit k i b).targetLast = s.targetLast := rfl
@[simp] theorem State.setBit_arb (s : State) (k i : Nat) (b : Bool) : (s.setBit k i b).arb = s.arb := rfl
@[simp] theorem State.setBit_inForce (s : State) (k i : Nat) (b : Bool) : (s.setBit k i b).inForce = s.inForce := rfl
@[simp] theorem State.setBit_events (s : State) (k i : Nat) (b : Bool) : (s.setBit k i b).events = s.events := rfl
@[simp] theorem State.setBit_sfm (s : State) (k i : Nat) (b : Bool) : (s.setBit k i b).sfm = s.sfm := rfl
@[simp] theorem State.setBit_granules (s : State) (k i : Nat) (b : Bool) : (s.setBit k i b).granules = s.granules := rfl
@[simp] theorem State.setBit_tx (s : State) (k i : Nat) (b : Bool) : (s.setBit k i b).tx = s.tx := rfl
@[simp] theorem State.setBit_syn (s : State) (k i : Nat) (b : Bool) : (s.setBit k i b).syn = s.syn := rfl
@[simp] theorem State.setBit_cip (s : State) (k i : Nat) (b : Bool) : (s.setBit k i b).cip = s.cip := rfl
@[simp] theorem State.setBit_sph (s : State) (k i : Nat) (b : Bool) : (s.setBit k i b).sph = s.sph := rfl
@[simp] theorem State.setBit_spi (s : State) (k i : Nat) (b : Bool) : (s.setBit k i b).spi = s.spi := rfl
@[simp] theorem State.setBit_mgb (s : State) (k i : Nat) (b : Bool) : (s.setBit k i b).mgb = s.mgb := rfl
@[simp] theorem State.setBit_mac (s : State) (k i : Nat) (b : Bool) : (s.setBit k i b).mac = s.mac := rfl
@[simp] theorem State.setBit_ptp (s : State) (k i : Nat) (b : Bool) : (s.setBit k i b).ptp = s.ptp := rfl
@[simp] theorem State.setBit_fdr (s : State) (k i : Nat) (b : Bool) : (s.setBit k i b).fdr = s.fdr := rfl
@[simp] theorem State.setBit_ctr (s : State) (k i : Nat) (b : Bool) : (s.setBit k i b).ctr = s.ctr := rfl
@[simp] theorem State.setBit_pulses (s : State) (k i : Nat) (b : Bool) : (s.setBit k i b).pulses = s.pulses := rfl
@[simp] theorem State.setBit_aonHigh (s : State) (k i : Nat) (b : Bool) : (s.setBit k i b).aonHigh = s.aonHigh := rfl
@[simp] theorem State.setBit_tmr (s : State) (k i : Nat) (b : Bool) : (s.setBit k i b).tmr = s.tmr := rfl
@[simp] theorem State.setBit_rtcDst (s : State) (k i : Nat) (b : Bool) : (s.setBit k i b).rtcDst = s.rtcDst := rfl
@[simp] theorem State.setBit_xtal (s : State) (k i : Nat) (b : Bool) : (s.setBit k i b).xtal = s.xtal := rfl
@[simp] theorem State.setBit_trim (s : State) (k i : Nat) (b : Bool) : (s.setBit k i b).trim = s.trim := rfl
@[simp] theorem State.setBit_part (s : State) (k i : Nat) (b : Bool) : (s.setBit k i b).part = s.part := rfl
@[simp] theorem State.setBit_pwr (s : State) (k i : Nat) (b : Bool) : (s.setBit k i b).pwr = s.pwr := rfl
@[simp] theorem State.setBit_flc (s : State) (k i : Nat) (b : Bool) : (s.setBit k i b).flc = s.flc := rfl
@[simp] theorem State.setBit_age (s : State) (k i : Nat) (b : Bool) : (s.setBit k i b).age = s.age := rfl
@[simp] theorem State.setBit_pins (s : State) (k i : Nat) (b : Bool) : (s.setBit k i b).pins = s.pins := rfl

@[simp] theorem State.putByte_pending (s : State) (a : Nat) (b : Byte) : (s.putByte a b).pending = s.pending := rfl
@[simp] theorem State.putByte_regs (s : State) (a : Nat) (b : Byte) : (s.putByte a b).regs = s.regs := rfl
@[simp] theorem State.putByte_act (s : State) (a : Nat) (b : Byte) : (s.putByte a b).act = s.act := rfl
@[simp] theorem State.putByte_cal (s : State) (a : Nat) (b : Byte) : (s.putByte a b).cal = s.cal := rfl
@[simp] theorem State.putByte_mem (s : State) (a : Nat) (b : Byte) : (s.putByte a b).mem = AMap.put memDefault s.mem a b := rfl
@[simp] theorem State.putByte_snaps (s : State) (a : Nat) (b : Byte) : (s.putByte a b).snaps = s.snaps := rfl
@[simp] theorem State.putByte_aonBuf (s : State) (a : Nat) (b : Byte) : (s.putByte a b).aonBuf = s.aonBuf := rfl
@[simp] theorem State.putByte_data (s : State) (a : Nat) (b : Byte) : (s.putByte a b).data = s.data := rfl
@[simp] theorem State.putByte_err (s : State) (a : Nat) (b : Byte) : (s.putByte a b).err = s.err := rfl
@[simp] theorem State.putByte_free (s : State) (a : Nat) (b : Byte) : (s.putByte a b).free = s.free := rfl
@[simp] theorem State.putByte_lane (s : State) (a : Nat) (b : Byte) : (s.putByte a b).lane = s.lane := rfl
@[simp] theorem State.putByte_chain (s : State) (a : Nat) (b : Byte) : (s.putByte a b).chain = s.chain := rfl
@[simp] theorem State.putByte_ldpQueue (s : State) (a : Nat) (b : Byte) : (s.putByte a b).ldpQueue = s.ldpQueue := rfl
@[simp] theorem State.putByte_ldp (s : State) (a : Nat) (b : Byte) : (s.putByte a b).ldp = s.ldp := rfl
@[simp] theorem State.putByte_eng (s : State) (a : Nat) (b : Byte) : (s.putByte a b).eng = s.eng := rfl
@[simp] theorem State.putByte_wellLast (s : State) (a : Nat) (b : Byte) : (s.putByte a b).wellLast = s.wellLast := rfl
@[simp] theorem State.putByte_targetLast (s : State) (a : Nat) (b : Byte) : (s.putByte a b).targetLast = s.targetLast := rfl
@[simp] theorem State.putByte_arb (s : State) (a : Nat) (b : Byte) : (s.putByte a b).arb = s.arb := rfl
@[simp] theorem State.putByte_inForce (s : State) (a : Nat) (b : Byte) : (s.putByte a b).inForce = s.inForce := rfl
@[simp] theorem State.putByte_events (s : State) (a : Nat) (b : Byte) : (s.putByte a b).events = s.events := rfl
@[simp] theorem State.putByte_sfm (s : State) (a : Nat) (b : Byte) : (s.putByte a b).sfm = s.sfm := rfl
@[simp] theorem State.putByte_granules (s : State) (a : Nat) (b : Byte) : (s.putByte a b).granules = s.granules := rfl
@[simp] theorem State.putByte_tx (s : State) (a : Nat) (b : Byte) : (s.putByte a b).tx = s.tx := rfl
@[simp] theorem State.putByte_syn (s : State) (a : Nat) (b : Byte) : (s.putByte a b).syn = s.syn := rfl
@[simp] theorem State.putByte_cip (s : State) (a : Nat) (b : Byte) : (s.putByte a b).cip = s.cip := rfl
@[simp] theorem State.putByte_sph (s : State) (a : Nat) (b : Byte) : (s.putByte a b).sph = s.sph := rfl
@[simp] theorem State.putByte_spi (s : State) (a : Nat) (b : Byte) : (s.putByte a b).spi = s.spi := rfl
@[simp] theorem State.putByte_mgb (s : State) (a : Nat) (b : Byte) : (s.putByte a b).mgb = s.mgb := rfl
@[simp] theorem State.putByte_mac (s : State) (a : Nat) (b : Byte) : (s.putByte a b).mac = s.mac := rfl
@[simp] theorem State.putByte_ptp (s : State) (a : Nat) (b : Byte) : (s.putByte a b).ptp = s.ptp := rfl
@[simp] theorem State.putByte_fdr (s : State) (a : Nat) (b : Byte) : (s.putByte a b).fdr = s.fdr := rfl
@[simp] theorem State.putByte_ctr (s : State) (a : Nat) (b : Byte) : (s.putByte a b).ctr = s.ctr := rfl
@[simp] theorem State.putByte_pulses (s : State) (a : Nat) (b : Byte) : (s.putByte a b).pulses = s.pulses := rfl
@[simp] theorem State.putByte_aonHigh (s : State) (a : Nat) (b : Byte) : (s.putByte a b).aonHigh = s.aonHigh := rfl
@[simp] theorem State.putByte_tmr (s : State) (a : Nat) (b : Byte) : (s.putByte a b).tmr = s.tmr := rfl
@[simp] theorem State.putByte_rtcDst (s : State) (a : Nat) (b : Byte) : (s.putByte a b).rtcDst = s.rtcDst := rfl
@[simp] theorem State.putByte_xtal (s : State) (a : Nat) (b : Byte) : (s.putByte a b).xtal = s.xtal := rfl
@[simp] theorem State.putByte_trim (s : State) (a : Nat) (b : Byte) : (s.putByte a b).trim = s.trim := rfl
@[simp] theorem State.putByte_part (s : State) (a : Nat) (b : Byte) : (s.putByte a b).part = s.part := rfl
@[simp] theorem State.putByte_pwr (s : State) (a : Nat) (b : Byte) : (s.putByte a b).pwr = s.pwr := rfl
@[simp] theorem State.putByte_flc (s : State) (a : Nat) (b : Byte) : (s.putByte a b).flc = s.flc := rfl
@[simp] theorem State.putByte_age (s : State) (a : Nat) (b : Byte) : (s.putByte a b).age = s.age := rfl
@[simp] theorem State.putByte_pins (s : State) (a : Nat) (b : Byte) : (s.putByte a b).pins = s.pins := rfl

@[simp] theorem State.setLane_pending (s : State) (n : LaneIx) (l : Lane) : (s.setLane n l).pending = s.pending := rfl
@[simp] theorem State.setLane_regs (s : State) (n : LaneIx) (l : Lane) : (s.setLane n l).regs = s.regs := rfl
@[simp] theorem State.setLane_act (s : State) (n : LaneIx) (l : Lane) : (s.setLane n l).act = s.act := rfl
@[simp] theorem State.setLane_cal (s : State) (n : LaneIx) (l : Lane) : (s.setLane n l).cal = s.cal := rfl
@[simp] theorem State.setLane_mem (s : State) (n : LaneIx) (l : Lane) : (s.setLane n l).mem = s.mem := rfl
@[simp] theorem State.setLane_snaps (s : State) (n : LaneIx) (l : Lane) : (s.setLane n l).snaps = s.snaps := rfl
@[simp] theorem State.setLane_aonBuf (s : State) (n : LaneIx) (l : Lane) : (s.setLane n l).aonBuf = s.aonBuf := rfl
@[simp] theorem State.setLane_data (s : State) (n : LaneIx) (l : Lane) : (s.setLane n l).data = s.data := rfl
@[simp] theorem State.setLane_err (s : State) (n : LaneIx) (l : Lane) : (s.setLane n l).err = s.err := rfl
@[simp] theorem State.setLane_free (s : State) (n : LaneIx) (l : Lane) : (s.setLane n l).free = s.free := rfl
@[simp] theorem State.setLane_lane (s : State) (n : LaneIx) (l : Lane) : (s.setLane n l).lane = s.lane.set n.val l := rfl
@[simp] theorem State.setLane_chain (s : State) (n : LaneIx) (l : Lane) : (s.setLane n l).chain = s.chain := rfl
@[simp] theorem State.setLane_ldpQueue (s : State) (n : LaneIx) (l : Lane) : (s.setLane n l).ldpQueue = s.ldpQueue := rfl
@[simp] theorem State.setLane_ldp (s : State) (n : LaneIx) (l : Lane) : (s.setLane n l).ldp = s.ldp := rfl
@[simp] theorem State.setLane_eng (s : State) (n : LaneIx) (l : Lane) : (s.setLane n l).eng = s.eng := rfl
@[simp] theorem State.setLane_wellLast (s : State) (n : LaneIx) (l : Lane) : (s.setLane n l).wellLast = s.wellLast := rfl
@[simp] theorem State.setLane_targetLast (s : State) (n : LaneIx) (l : Lane) : (s.setLane n l).targetLast = s.targetLast := rfl
@[simp] theorem State.setLane_arb (s : State) (n : LaneIx) (l : Lane) : (s.setLane n l).arb = s.arb := rfl
@[simp] theorem State.setLane_inForce (s : State) (n : LaneIx) (l : Lane) : (s.setLane n l).inForce = s.inForce := rfl
@[simp] theorem State.setLane_events (s : State) (n : LaneIx) (l : Lane) : (s.setLane n l).events = s.events := rfl
@[simp] theorem State.setLane_sfm (s : State) (n : LaneIx) (l : Lane) : (s.setLane n l).sfm = s.sfm := rfl
@[simp] theorem State.setLane_granules (s : State) (n : LaneIx) (l : Lane) : (s.setLane n l).granules = s.granules := rfl
@[simp] theorem State.setLane_tx (s : State) (n : LaneIx) (l : Lane) : (s.setLane n l).tx = s.tx := rfl
@[simp] theorem State.setLane_syn (s : State) (n : LaneIx) (l : Lane) : (s.setLane n l).syn = s.syn := rfl
@[simp] theorem State.setLane_cip (s : State) (n : LaneIx) (l : Lane) : (s.setLane n l).cip = s.cip := rfl
@[simp] theorem State.setLane_sph (s : State) (n : LaneIx) (l : Lane) : (s.setLane n l).sph = s.sph := rfl
@[simp] theorem State.setLane_spi (s : State) (n : LaneIx) (l : Lane) : (s.setLane n l).spi = s.spi := rfl
@[simp] theorem State.setLane_mgb (s : State) (n : LaneIx) (l : Lane) : (s.setLane n l).mgb = s.mgb := rfl
@[simp] theorem State.setLane_mac (s : State) (n : LaneIx) (l : Lane) : (s.setLane n l).mac = s.mac := rfl
@[simp] theorem State.setLane_ptp (s : State) (n : LaneIx) (l : Lane) : (s.setLane n l).ptp = s.ptp := rfl
@[simp] theorem State.setLane_fdr (s : State) (n : LaneIx) (l : Lane) : (s.setLane n l).fdr = s.fdr := rfl
@[simp] theorem State.setLane_ctr (s : State) (n : LaneIx) (l : Lane) : (s.setLane n l).ctr = s.ctr := rfl
@[simp] theorem State.setLane_pulses (s : State) (n : LaneIx) (l : Lane) : (s.setLane n l).pulses = s.pulses := rfl
@[simp] theorem State.setLane_aonHigh (s : State) (n : LaneIx) (l : Lane) : (s.setLane n l).aonHigh = s.aonHigh := rfl
@[simp] theorem State.setLane_tmr (s : State) (n : LaneIx) (l : Lane) : (s.setLane n l).tmr = s.tmr := rfl
@[simp] theorem State.setLane_rtcDst (s : State) (n : LaneIx) (l : Lane) : (s.setLane n l).rtcDst = s.rtcDst := rfl
@[simp] theorem State.setLane_xtal (s : State) (n : LaneIx) (l : Lane) : (s.setLane n l).xtal = s.xtal := rfl
@[simp] theorem State.setLane_trim (s : State) (n : LaneIx) (l : Lane) : (s.setLane n l).trim = s.trim := rfl
@[simp] theorem State.setLane_part (s : State) (n : LaneIx) (l : Lane) : (s.setLane n l).part = s.part := rfl
@[simp] theorem State.setLane_pwr (s : State) (n : LaneIx) (l : Lane) : (s.setLane n l).pwr = s.pwr := rfl
@[simp] theorem State.setLane_flc (s : State) (n : LaneIx) (l : Lane) : (s.setLane n l).flc = s.flc := rfl
@[simp] theorem State.setLane_age (s : State) (n : LaneIx) (l : Lane) : (s.setLane n l).age = s.age := rfl
@[simp] theorem State.setLane_pins (s : State) (n : LaneIx) (l : Lane) : (s.setLane n l).pins = s.pins := rfl

@[simp] theorem State.setEng_pending (s : State) (e : EngIx) (g : Eng) : (s.setEng e g).pending = s.pending := rfl
@[simp] theorem State.setEng_regs (s : State) (e : EngIx) (g : Eng) : (s.setEng e g).regs = s.regs := rfl
@[simp] theorem State.setEng_act (s : State) (e : EngIx) (g : Eng) : (s.setEng e g).act = s.act := rfl
@[simp] theorem State.setEng_cal (s : State) (e : EngIx) (g : Eng) : (s.setEng e g).cal = s.cal := rfl
@[simp] theorem State.setEng_mem (s : State) (e : EngIx) (g : Eng) : (s.setEng e g).mem = s.mem := rfl
@[simp] theorem State.setEng_snaps (s : State) (e : EngIx) (g : Eng) : (s.setEng e g).snaps = s.snaps := rfl
@[simp] theorem State.setEng_aonBuf (s : State) (e : EngIx) (g : Eng) : (s.setEng e g).aonBuf = s.aonBuf := rfl
@[simp] theorem State.setEng_data (s : State) (e : EngIx) (g : Eng) : (s.setEng e g).data = s.data := rfl
@[simp] theorem State.setEng_err (s : State) (e : EngIx) (g : Eng) : (s.setEng e g).err = s.err := rfl
@[simp] theorem State.setEng_free (s : State) (e : EngIx) (g : Eng) : (s.setEng e g).free = s.free := rfl
@[simp] theorem State.setEng_lane (s : State) (e : EngIx) (g : Eng) : (s.setEng e g).lane = s.lane := rfl
@[simp] theorem State.setEng_chain (s : State) (e : EngIx) (g : Eng) : (s.setEng e g).chain = s.chain := rfl
@[simp] theorem State.setEng_ldpQueue (s : State) (e : EngIx) (g : Eng) : (s.setEng e g).ldpQueue = s.ldpQueue := rfl
@[simp] theorem State.setEng_ldp (s : State) (e : EngIx) (g : Eng) : (s.setEng e g).ldp = s.ldp := rfl
@[simp] theorem State.setEng_eng (s : State) (e : EngIx) (g : Eng) : (s.setEng e g).eng = s.eng.set e.val g := rfl
@[simp] theorem State.setEng_wellLast (s : State) (e : EngIx) (g : Eng) : (s.setEng e g).wellLast = s.wellLast := rfl
@[simp] theorem State.setEng_targetLast (s : State) (e : EngIx) (g : Eng) : (s.setEng e g).targetLast = s.targetLast := rfl
@[simp] theorem State.setEng_arb (s : State) (e : EngIx) (g : Eng) : (s.setEng e g).arb = s.arb := rfl
@[simp] theorem State.setEng_inForce (s : State) (e : EngIx) (g : Eng) : (s.setEng e g).inForce = s.inForce := rfl
@[simp] theorem State.setEng_events (s : State) (e : EngIx) (g : Eng) : (s.setEng e g).events = s.events := rfl
@[simp] theorem State.setEng_sfm (s : State) (e : EngIx) (g : Eng) : (s.setEng e g).sfm = s.sfm := rfl
@[simp] theorem State.setEng_granules (s : State) (e : EngIx) (g : Eng) : (s.setEng e g).granules = s.granules := rfl
@[simp] theorem State.setEng_tx (s : State) (e : EngIx) (g : Eng) : (s.setEng e g).tx = s.tx := rfl
@[simp] theorem State.setEng_syn (s : State) (e : EngIx) (g : Eng) : (s.setEng e g).syn = s.syn := rfl
@[simp] theorem State.setEng_cip (s : State) (e : EngIx) (g : Eng) : (s.setEng e g).cip = s.cip := rfl
@[simp] theorem State.setEng_sph (s : State) (e : EngIx) (g : Eng) : (s.setEng e g).sph = s.sph := rfl
@[simp] theorem State.setEng_spi (s : State) (e : EngIx) (g : Eng) : (s.setEng e g).spi = s.spi := rfl
@[simp] theorem State.setEng_mgb (s : State) (e : EngIx) (g : Eng) : (s.setEng e g).mgb = s.mgb := rfl
@[simp] theorem State.setEng_mac (s : State) (e : EngIx) (g : Eng) : (s.setEng e g).mac = s.mac := rfl
@[simp] theorem State.setEng_ptp (s : State) (e : EngIx) (g : Eng) : (s.setEng e g).ptp = s.ptp := rfl
@[simp] theorem State.setEng_fdr (s : State) (e : EngIx) (g : Eng) : (s.setEng e g).fdr = s.fdr := rfl
@[simp] theorem State.setEng_ctr (s : State) (e : EngIx) (g : Eng) : (s.setEng e g).ctr = s.ctr := rfl
@[simp] theorem State.setEng_pulses (s : State) (e : EngIx) (g : Eng) : (s.setEng e g).pulses = s.pulses := rfl
@[simp] theorem State.setEng_aonHigh (s : State) (e : EngIx) (g : Eng) : (s.setEng e g).aonHigh = s.aonHigh := rfl
@[simp] theorem State.setEng_tmr (s : State) (e : EngIx) (g : Eng) : (s.setEng e g).tmr = s.tmr := rfl
@[simp] theorem State.setEng_rtcDst (s : State) (e : EngIx) (g : Eng) : (s.setEng e g).rtcDst = s.rtcDst := rfl
@[simp] theorem State.setEng_xtal (s : State) (e : EngIx) (g : Eng) : (s.setEng e g).xtal = s.xtal := rfl
@[simp] theorem State.setEng_trim (s : State) (e : EngIx) (g : Eng) : (s.setEng e g).trim = s.trim := rfl
@[simp] theorem State.setEng_part (s : State) (e : EngIx) (g : Eng) : (s.setEng e g).part = s.part := rfl
@[simp] theorem State.setEng_pwr (s : State) (e : EngIx) (g : Eng) : (s.setEng e g).pwr = s.pwr := rfl
@[simp] theorem State.setEng_flc (s : State) (e : EngIx) (g : Eng) : (s.setEng e g).flc = s.flc := rfl
@[simp] theorem State.setEng_age (s : State) (e : EngIx) (g : Eng) : (s.setEng e g).age = s.age := rfl
@[simp] theorem State.setEng_pins (s : State) (e : EngIx) (g : Eng) : (s.setEng e g).pins = s.pins := rfl

@[simp] theorem State.setTmr_pending (s : State) (k : TmrIx) (t : Tmr) : (s.setTmr k t).pending = s.pending := rfl
@[simp] theorem State.setTmr_regs (s : State) (k : TmrIx) (t : Tmr) : (s.setTmr k t).regs = s.regs := rfl
@[simp] theorem State.setTmr_act (s : State) (k : TmrIx) (t : Tmr) : (s.setTmr k t).act = s.act := rfl
@[simp] theorem State.setTmr_cal (s : State) (k : TmrIx) (t : Tmr) : (s.setTmr k t).cal = s.cal := rfl
@[simp] theorem State.setTmr_mem (s : State) (k : TmrIx) (t : Tmr) : (s.setTmr k t).mem = s.mem := rfl
@[simp] theorem State.setTmr_snaps (s : State) (k : TmrIx) (t : Tmr) : (s.setTmr k t).snaps = s.snaps := rfl
@[simp] theorem State.setTmr_aonBuf (s : State) (k : TmrIx) (t : Tmr) : (s.setTmr k t).aonBuf = s.aonBuf := rfl
@[simp] theorem State.setTmr_data (s : State) (k : TmrIx) (t : Tmr) : (s.setTmr k t).data = s.data := rfl
@[simp] theorem State.setTmr_err (s : State) (k : TmrIx) (t : Tmr) : (s.setTmr k t).err = s.err := rfl
@[simp] theorem State.setTmr_free (s : State) (k : TmrIx) (t : Tmr) : (s.setTmr k t).free = s.free := rfl
@[simp] theorem State.setTmr_lane (s : State) (k : TmrIx) (t : Tmr) : (s.setTmr k t).lane = s.lane := rfl
@[simp] theorem State.setTmr_chain (s : State) (k : TmrIx) (t : Tmr) : (s.setTmr k t).chain = s.chain := rfl
@[simp] theorem State.setTmr_ldpQueue (s : State) (k : TmrIx) (t : Tmr) : (s.setTmr k t).ldpQueue = s.ldpQueue := rfl
@[simp] theorem State.setTmr_ldp (s : State) (k : TmrIx) (t : Tmr) : (s.setTmr k t).ldp = s.ldp := rfl
@[simp] theorem State.setTmr_eng (s : State) (k : TmrIx) (t : Tmr) : (s.setTmr k t).eng = s.eng := rfl
@[simp] theorem State.setTmr_wellLast (s : State) (k : TmrIx) (t : Tmr) : (s.setTmr k t).wellLast = s.wellLast := rfl
@[simp] theorem State.setTmr_targetLast (s : State) (k : TmrIx) (t : Tmr) : (s.setTmr k t).targetLast = s.targetLast := rfl
@[simp] theorem State.setTmr_arb (s : State) (k : TmrIx) (t : Tmr) : (s.setTmr k t).arb = s.arb := rfl
@[simp] theorem State.setTmr_inForce (s : State) (k : TmrIx) (t : Tmr) : (s.setTmr k t).inForce = s.inForce := rfl
@[simp] theorem State.setTmr_events (s : State) (k : TmrIx) (t : Tmr) : (s.setTmr k t).events = s.events := rfl
@[simp] theorem State.setTmr_sfm (s : State) (k : TmrIx) (t : Tmr) : (s.setTmr k t).sfm = s.sfm := rfl
@[simp] theorem State.setTmr_granules (s : State) (k : TmrIx) (t : Tmr) : (s.setTmr k t).granules = s.granules := rfl
@[simp] theorem State.setTmr_tx (s : State) (k : TmrIx) (t : Tmr) : (s.setTmr k t).tx = s.tx := rfl
@[simp] theorem State.setTmr_syn (s : State) (k : TmrIx) (t : Tmr) : (s.setTmr k t).syn = s.syn := rfl
@[simp] theorem State.setTmr_cip (s : State) (k : TmrIx) (t : Tmr) : (s.setTmr k t).cip = s.cip := rfl
@[simp] theorem State.setTmr_sph (s : State) (k : TmrIx) (t : Tmr) : (s.setTmr k t).sph = s.sph := rfl
@[simp] theorem State.setTmr_spi (s : State) (k : TmrIx) (t : Tmr) : (s.setTmr k t).spi = s.spi := rfl
@[simp] theorem State.setTmr_mgb (s : State) (k : TmrIx) (t : Tmr) : (s.setTmr k t).mgb = s.mgb := rfl
@[simp] theorem State.setTmr_mac (s : State) (k : TmrIx) (t : Tmr) : (s.setTmr k t).mac = s.mac := rfl
@[simp] theorem State.setTmr_ptp (s : State) (k : TmrIx) (t : Tmr) : (s.setTmr k t).ptp = s.ptp := rfl
@[simp] theorem State.setTmr_fdr (s : State) (k : TmrIx) (t : Tmr) : (s.setTmr k t).fdr = s.fdr := rfl
@[simp] theorem State.setTmr_ctr (s : State) (k : TmrIx) (t : Tmr) : (s.setTmr k t).ctr = s.ctr := rfl
@[simp] theorem State.setTmr_pulses (s : State) (k : TmrIx) (t : Tmr) : (s.setTmr k t).pulses = s.pulses := rfl
@[simp] theorem State.setTmr_aonHigh (s : State) (k : TmrIx) (t : Tmr) : (s.setTmr k t).aonHigh = s.aonHigh := rfl
@[simp] theorem State.setTmr_tmr (s : State) (k : TmrIx) (t : Tmr) : (s.setTmr k t).tmr = s.tmr.set k.val t := rfl
@[simp] theorem State.setTmr_rtcDst (s : State) (k : TmrIx) (t : Tmr) : (s.setTmr k t).rtcDst = s.rtcDst := rfl
@[simp] theorem State.setTmr_xtal (s : State) (k : TmrIx) (t : Tmr) : (s.setTmr k t).xtal = s.xtal := rfl
@[simp] theorem State.setTmr_trim (s : State) (k : TmrIx) (t : Tmr) : (s.setTmr k t).trim = s.trim := rfl
@[simp] theorem State.setTmr_part (s : State) (k : TmrIx) (t : Tmr) : (s.setTmr k t).part = s.part := rfl
@[simp] theorem State.setTmr_pwr (s : State) (k : TmrIx) (t : Tmr) : (s.setTmr k t).pwr = s.pwr := rfl
@[simp] theorem State.setTmr_flc (s : State) (k : TmrIx) (t : Tmr) : (s.setTmr k t).flc = s.flc := rfl
@[simp] theorem State.setTmr_age (s : State) (k : TmrIx) (t : Tmr) : (s.setTmr k t).age = s.age := rfl
@[simp] theorem State.setTmr_pins (s : State) (k : TmrIx) (t : Tmr) : (s.setTmr k t).pins = s.pins := rfl

@[simp] theorem State.setMac_pending (s : State) (m : Fin 2) (x : EthMac) : (s.setMac m x).pending = s.pending := rfl
@[simp] theorem State.setMac_regs (s : State) (m : Fin 2) (x : EthMac) : (s.setMac m x).regs = s.regs := rfl
@[simp] theorem State.setMac_act (s : State) (m : Fin 2) (x : EthMac) : (s.setMac m x).act = s.act := rfl
@[simp] theorem State.setMac_cal (s : State) (m : Fin 2) (x : EthMac) : (s.setMac m x).cal = s.cal := rfl
@[simp] theorem State.setMac_mem (s : State) (m : Fin 2) (x : EthMac) : (s.setMac m x).mem = s.mem := rfl
@[simp] theorem State.setMac_snaps (s : State) (m : Fin 2) (x : EthMac) : (s.setMac m x).snaps = s.snaps := rfl
@[simp] theorem State.setMac_aonBuf (s : State) (m : Fin 2) (x : EthMac) : (s.setMac m x).aonBuf = s.aonBuf := rfl
@[simp] theorem State.setMac_data (s : State) (m : Fin 2) (x : EthMac) : (s.setMac m x).data = s.data := rfl
@[simp] theorem State.setMac_err (s : State) (m : Fin 2) (x : EthMac) : (s.setMac m x).err = s.err := rfl
@[simp] theorem State.setMac_free (s : State) (m : Fin 2) (x : EthMac) : (s.setMac m x).free = s.free := rfl
@[simp] theorem State.setMac_lane (s : State) (m : Fin 2) (x : EthMac) : (s.setMac m x).lane = s.lane := rfl
@[simp] theorem State.setMac_chain (s : State) (m : Fin 2) (x : EthMac) : (s.setMac m x).chain = s.chain := rfl
@[simp] theorem State.setMac_ldpQueue (s : State) (m : Fin 2) (x : EthMac) : (s.setMac m x).ldpQueue = s.ldpQueue := rfl
@[simp] theorem State.setMac_ldp (s : State) (m : Fin 2) (x : EthMac) : (s.setMac m x).ldp = s.ldp := rfl
@[simp] theorem State.setMac_eng (s : State) (m : Fin 2) (x : EthMac) : (s.setMac m x).eng = s.eng := rfl
@[simp] theorem State.setMac_wellLast (s : State) (m : Fin 2) (x : EthMac) : (s.setMac m x).wellLast = s.wellLast := rfl
@[simp] theorem State.setMac_targetLast (s : State) (m : Fin 2) (x : EthMac) : (s.setMac m x).targetLast = s.targetLast := rfl
@[simp] theorem State.setMac_arb (s : State) (m : Fin 2) (x : EthMac) : (s.setMac m x).arb = s.arb := rfl
@[simp] theorem State.setMac_inForce (s : State) (m : Fin 2) (x : EthMac) : (s.setMac m x).inForce = s.inForce := rfl
@[simp] theorem State.setMac_events (s : State) (m : Fin 2) (x : EthMac) : (s.setMac m x).events = s.events := rfl
@[simp] theorem State.setMac_sfm (s : State) (m : Fin 2) (x : EthMac) : (s.setMac m x).sfm = s.sfm := rfl
@[simp] theorem State.setMac_granules (s : State) (m : Fin 2) (x : EthMac) : (s.setMac m x).granules = s.granules := rfl
@[simp] theorem State.setMac_tx (s : State) (m : Fin 2) (x : EthMac) : (s.setMac m x).tx = s.tx := rfl
@[simp] theorem State.setMac_syn (s : State) (m : Fin 2) (x : EthMac) : (s.setMac m x).syn = s.syn := rfl
@[simp] theorem State.setMac_cip (s : State) (m : Fin 2) (x : EthMac) : (s.setMac m x).cip = s.cip := rfl
@[simp] theorem State.setMac_sph (s : State) (m : Fin 2) (x : EthMac) : (s.setMac m x).sph = s.sph := rfl
@[simp] theorem State.setMac_spi (s : State) (m : Fin 2) (x : EthMac) : (s.setMac m x).spi = s.spi := rfl
@[simp] theorem State.setMac_mgb (s : State) (m : Fin 2) (x : EthMac) : (s.setMac m x).mgb = s.mgb := rfl
@[simp] theorem State.setMac_mac (s : State) (m : Fin 2) (x : EthMac) : (s.setMac m x).mac = s.mac.set m.val x := rfl
@[simp] theorem State.setMac_ptp (s : State) (m : Fin 2) (x : EthMac) : (s.setMac m x).ptp = s.ptp := rfl
@[simp] theorem State.setMac_fdr (s : State) (m : Fin 2) (x : EthMac) : (s.setMac m x).fdr = s.fdr := rfl
@[simp] theorem State.setMac_ctr (s : State) (m : Fin 2) (x : EthMac) : (s.setMac m x).ctr = s.ctr := rfl
@[simp] theorem State.setMac_pulses (s : State) (m : Fin 2) (x : EthMac) : (s.setMac m x).pulses = s.pulses := rfl
@[simp] theorem State.setMac_aonHigh (s : State) (m : Fin 2) (x : EthMac) : (s.setMac m x).aonHigh = s.aonHigh := rfl
@[simp] theorem State.setMac_tmr (s : State) (m : Fin 2) (x : EthMac) : (s.setMac m x).tmr = s.tmr := rfl
@[simp] theorem State.setMac_rtcDst (s : State) (m : Fin 2) (x : EthMac) : (s.setMac m x).rtcDst = s.rtcDst := rfl
@[simp] theorem State.setMac_xtal (s : State) (m : Fin 2) (x : EthMac) : (s.setMac m x).xtal = s.xtal := rfl
@[simp] theorem State.setMac_trim (s : State) (m : Fin 2) (x : EthMac) : (s.setMac m x).trim = s.trim := rfl
@[simp] theorem State.setMac_part (s : State) (m : Fin 2) (x : EthMac) : (s.setMac m x).part = s.part := rfl
@[simp] theorem State.setMac_pwr (s : State) (m : Fin 2) (x : EthMac) : (s.setMac m x).pwr = s.pwr := rfl
@[simp] theorem State.setMac_flc (s : State) (m : Fin 2) (x : EthMac) : (s.setMac m x).flc = s.flc := rfl
@[simp] theorem State.setMac_age (s : State) (m : Fin 2) (x : EthMac) : (s.setMac m x).age = s.age := rfl
@[simp] theorem State.setMac_pins (s : State) (m : Fin 2) (x : EthMac) : (s.setMac m x).pins = s.pins := rfl

@[simp] theorem State.pulse_pending (s : State) (n : Nat) : (s.pulse n).pending = s.pending := rfl
@[simp] theorem State.pulse_regs (s : State) (n : Nat) : (s.pulse n).regs = s.regs := rfl
@[simp] theorem State.pulse_act (s : State) (n : Nat) : (s.pulse n).act = s.act := rfl
@[simp] theorem State.pulse_cal (s : State) (n : Nat) : (s.pulse n).cal = s.cal := rfl
@[simp] theorem State.pulse_mem (s : State) (n : Nat) : (s.pulse n).mem = s.mem := rfl
@[simp] theorem State.pulse_snaps (s : State) (n : Nat) : (s.pulse n).snaps = s.snaps := rfl
@[simp] theorem State.pulse_aonBuf (s : State) (n : Nat) : (s.pulse n).aonBuf = s.aonBuf := rfl
@[simp] theorem State.pulse_data (s : State) (n : Nat) : (s.pulse n).data = s.data := rfl
@[simp] theorem State.pulse_err (s : State) (n : Nat) : (s.pulse n).err = s.err := rfl
@[simp] theorem State.pulse_free (s : State) (n : Nat) : (s.pulse n).free = s.free := rfl
@[simp] theorem State.pulse_lane (s : State) (n : Nat) : (s.pulse n).lane = s.lane := rfl
@[simp] theorem State.pulse_chain (s : State) (n : Nat) : (s.pulse n).chain = s.chain := rfl
@[simp] theorem State.pulse_ldpQueue (s : State) (n : Nat) : (s.pulse n).ldpQueue = s.ldpQueue := rfl
@[simp] theorem State.pulse_ldp (s : State) (n : Nat) : (s.pulse n).ldp = s.ldp := rfl
@[simp] theorem State.pulse_eng (s : State) (n : Nat) : (s.pulse n).eng = s.eng := rfl
@[simp] theorem State.pulse_wellLast (s : State) (n : Nat) : (s.pulse n).wellLast = s.wellLast := rfl
@[simp] theorem State.pulse_targetLast (s : State) (n : Nat) : (s.pulse n).targetLast = s.targetLast := rfl
@[simp] theorem State.pulse_arb (s : State) (n : Nat) : (s.pulse n).arb = s.arb := rfl
@[simp] theorem State.pulse_inForce (s : State) (n : Nat) : (s.pulse n).inForce = s.inForce := rfl
@[simp] theorem State.pulse_events (s : State) (n : Nat) : (s.pulse n).events = s.events := rfl
@[simp] theorem State.pulse_sfm (s : State) (n : Nat) : (s.pulse n).sfm = s.sfm := rfl
@[simp] theorem State.pulse_granules (s : State) (n : Nat) : (s.pulse n).granules = s.granules := rfl
@[simp] theorem State.pulse_tx (s : State) (n : Nat) : (s.pulse n).tx = s.tx := rfl
@[simp] theorem State.pulse_syn (s : State) (n : Nat) : (s.pulse n).syn = s.syn := rfl
@[simp] theorem State.pulse_cip (s : State) (n : Nat) : (s.pulse n).cip = s.cip := rfl
@[simp] theorem State.pulse_sph (s : State) (n : Nat) : (s.pulse n).sph = s.sph := rfl
@[simp] theorem State.pulse_spi (s : State) (n : Nat) : (s.pulse n).spi = s.spi := rfl
@[simp] theorem State.pulse_mgb (s : State) (n : Nat) : (s.pulse n).mgb = s.mgb := rfl
@[simp] theorem State.pulse_mac (s : State) (n : Nat) : (s.pulse n).mac = s.mac := rfl
@[simp] theorem State.pulse_ptp (s : State) (n : Nat) : (s.pulse n).ptp = s.ptp := rfl
@[simp] theorem State.pulse_fdr (s : State) (n : Nat) : (s.pulse n).fdr = s.fdr := rfl
@[simp] theorem State.pulse_ctr (s : State) (n : Nat) : (s.pulse n).ctr = s.ctr := rfl
@[simp] theorem State.pulse_pulses (s : State) (n : Nat) : (s.pulse n).pulses = s.pulses ++ [n] := rfl
@[simp] theorem State.pulse_aonHigh (s : State) (n : Nat) : (s.pulse n).aonHigh = s.aonHigh := rfl
@[simp] theorem State.pulse_tmr (s : State) (n : Nat) : (s.pulse n).tmr = s.tmr := rfl
@[simp] theorem State.pulse_rtcDst (s : State) (n : Nat) : (s.pulse n).rtcDst = s.rtcDst := rfl
@[simp] theorem State.pulse_xtal (s : State) (n : Nat) : (s.pulse n).xtal = s.xtal := rfl
@[simp] theorem State.pulse_trim (s : State) (n : Nat) : (s.pulse n).trim = s.trim := rfl
@[simp] theorem State.pulse_part (s : State) (n : Nat) : (s.pulse n).part = s.part := rfl
@[simp] theorem State.pulse_pwr (s : State) (n : Nat) : (s.pulse n).pwr = s.pwr := rfl
@[simp] theorem State.pulse_flc (s : State) (n : Nat) : (s.pulse n).flc = s.flc := rfl
@[simp] theorem State.pulse_age (s : State) (n : Nat) : (s.pulse n).age = s.age := rfl
@[simp] theorem State.pulse_pins (s : State) (n : Nat) : (s.pulse n).pins = s.pins := rfl

@[simp] theorem State.fire_pending (s : State) (p c : Nat) : (s.fire p c).pending = s.pending := rfl
@[simp] theorem State.fire_regs (s : State) (p c : Nat) : (s.fire p c).regs = s.regs := rfl
@[simp] theorem State.fire_act (s : State) (p c : Nat) : (s.fire p c).act = s.act := rfl
@[simp] theorem State.fire_cal (s : State) (p c : Nat) : (s.fire p c).cal = s.cal := rfl
@[simp] theorem State.fire_mem (s : State) (p c : Nat) : (s.fire p c).mem = s.mem := rfl
@[simp] theorem State.fire_snaps (s : State) (p c : Nat) : (s.fire p c).snaps = s.snaps := rfl
@[simp] theorem State.fire_aonBuf (s : State) (p c : Nat) : (s.fire p c).aonBuf = s.aonBuf := rfl
@[simp] theorem State.fire_data (s : State) (p c : Nat) : (s.fire p c).data = s.data := rfl
@[simp] theorem State.fire_err (s : State) (p c : Nat) : (s.fire p c).err = s.err := rfl
@[simp] theorem State.fire_free (s : State) (p c : Nat) : (s.fire p c).free = s.free := rfl
@[simp] theorem State.fire_lane (s : State) (p c : Nat) : (s.fire p c).lane = s.lane := rfl
@[simp] theorem State.fire_chain (s : State) (p c : Nat) : (s.fire p c).chain = s.chain := rfl
@[simp] theorem State.fire_ldpQueue (s : State) (p c : Nat) : (s.fire p c).ldpQueue = s.ldpQueue := rfl
@[simp] theorem State.fire_ldp (s : State) (p c : Nat) : (s.fire p c).ldp = s.ldp := rfl
@[simp] theorem State.fire_eng (s : State) (p c : Nat) : (s.fire p c).eng = s.eng := rfl
@[simp] theorem State.fire_wellLast (s : State) (p c : Nat) : (s.fire p c).wellLast = s.wellLast := rfl
@[simp] theorem State.fire_targetLast (s : State) (p c : Nat) : (s.fire p c).targetLast = s.targetLast := rfl
@[simp] theorem State.fire_arb (s : State) (p c : Nat) : (s.fire p c).arb = s.arb := rfl
@[simp] theorem State.fire_inForce (s : State) (p c : Nat) : (s.fire p c).inForce = s.inForce := rfl
@[simp] theorem State.fire_events (s : State) (p c : Nat) : (s.fire p c).events = s.events ++ [.hw p c] := rfl
@[simp] theorem State.fire_sfm (s : State) (p c : Nat) : (s.fire p c).sfm = s.sfm := rfl
@[simp] theorem State.fire_granules (s : State) (p c : Nat) : (s.fire p c).granules = s.granules := rfl
@[simp] theorem State.fire_tx (s : State) (p c : Nat) : (s.fire p c).tx = s.tx := rfl
@[simp] theorem State.fire_syn (s : State) (p c : Nat) : (s.fire p c).syn = s.syn := rfl
@[simp] theorem State.fire_cip (s : State) (p c : Nat) : (s.fire p c).cip = s.cip := rfl
@[simp] theorem State.fire_sph (s : State) (p c : Nat) : (s.fire p c).sph = s.sph := rfl
@[simp] theorem State.fire_spi (s : State) (p c : Nat) : (s.fire p c).spi = s.spi := rfl
@[simp] theorem State.fire_mgb (s : State) (p c : Nat) : (s.fire p c).mgb = s.mgb := rfl
@[simp] theorem State.fire_mac (s : State) (p c : Nat) : (s.fire p c).mac = s.mac := rfl
@[simp] theorem State.fire_ptp (s : State) (p c : Nat) : (s.fire p c).ptp = s.ptp := rfl
@[simp] theorem State.fire_fdr (s : State) (p c : Nat) : (s.fire p c).fdr = s.fdr := rfl
@[simp] theorem State.fire_ctr (s : State) (p c : Nat) : (s.fire p c).ctr = s.ctr := rfl
@[simp] theorem State.fire_pulses (s : State) (p c : Nat) : (s.fire p c).pulses = s.pulses := rfl
@[simp] theorem State.fire_aonHigh (s : State) (p c : Nat) : (s.fire p c).aonHigh = s.aonHigh := rfl
@[simp] theorem State.fire_tmr (s : State) (p c : Nat) : (s.fire p c).tmr = s.tmr := rfl
@[simp] theorem State.fire_rtcDst (s : State) (p c : Nat) : (s.fire p c).rtcDst = s.rtcDst := rfl
@[simp] theorem State.fire_xtal (s : State) (p c : Nat) : (s.fire p c).xtal = s.xtal := rfl
@[simp] theorem State.fire_trim (s : State) (p c : Nat) : (s.fire p c).trim = s.trim := rfl
@[simp] theorem State.fire_part (s : State) (p c : Nat) : (s.fire p c).part = s.part := rfl
@[simp] theorem State.fire_pwr (s : State) (p c : Nat) : (s.fire p c).pwr = s.pwr := rfl
@[simp] theorem State.fire_flc (s : State) (p c : Nat) : (s.fire p c).flc = s.flc := rfl
@[simp] theorem State.fire_age (s : State) (p c : Nat) : (s.fire p c).age = s.age := rfl
@[simp] theorem State.fire_pins (s : State) (p c : Nat) : (s.fire p c).pins = s.pins := rfl

@[simp] theorem State.wipe_pending (s : State) (lo hi : Nat) : (s.wipe lo hi).pending = s.pending := rfl
@[simp] theorem State.wipe_regs (s : State) (lo hi : Nat) : (s.wipe lo hi).regs = s.regs := rfl
@[simp] theorem State.wipe_act (s : State) (lo hi : Nat) : (s.wipe lo hi).act = s.act := rfl
@[simp] theorem State.wipe_cal (s : State) (lo hi : Nat) : (s.wipe lo hi).cal = s.cal := rfl
@[simp] theorem State.wipe_mem (s : State) (lo hi : Nat) : (s.wipe lo hi).mem = AMap.clear (fun a => decide (lo ≤ a ∧ a < hi)) s.mem := rfl
@[simp] theorem State.wipe_snaps (s : State) (lo hi : Nat) : (s.wipe lo hi).snaps = s.snaps := rfl
@[simp] theorem State.wipe_aonBuf (s : State) (lo hi : Nat) : (s.wipe lo hi).aonBuf = s.aonBuf := rfl
@[simp] theorem State.wipe_data (s : State) (lo hi : Nat) : (s.wipe lo hi).data = s.data := rfl
@[simp] theorem State.wipe_err (s : State) (lo hi : Nat) : (s.wipe lo hi).err = s.err := rfl
@[simp] theorem State.wipe_free (s : State) (lo hi : Nat) : (s.wipe lo hi).free = s.free := rfl
@[simp] theorem State.wipe_lane (s : State) (lo hi : Nat) : (s.wipe lo hi).lane = s.lane := rfl
@[simp] theorem State.wipe_chain (s : State) (lo hi : Nat) : (s.wipe lo hi).chain = s.chain := rfl
@[simp] theorem State.wipe_ldpQueue (s : State) (lo hi : Nat) : (s.wipe lo hi).ldpQueue = s.ldpQueue := rfl
@[simp] theorem State.wipe_ldp (s : State) (lo hi : Nat) : (s.wipe lo hi).ldp = s.ldp := rfl
@[simp] theorem State.wipe_eng (s : State) (lo hi : Nat) : (s.wipe lo hi).eng = s.eng := rfl
@[simp] theorem State.wipe_wellLast (s : State) (lo hi : Nat) : (s.wipe lo hi).wellLast = s.wellLast := rfl
@[simp] theorem State.wipe_targetLast (s : State) (lo hi : Nat) : (s.wipe lo hi).targetLast = s.targetLast := rfl
@[simp] theorem State.wipe_arb (s : State) (lo hi : Nat) : (s.wipe lo hi).arb = s.arb := rfl
@[simp] theorem State.wipe_inForce (s : State) (lo hi : Nat) : (s.wipe lo hi).inForce = s.inForce := rfl
@[simp] theorem State.wipe_events (s : State) (lo hi : Nat) : (s.wipe lo hi).events = s.events := rfl
@[simp] theorem State.wipe_sfm (s : State) (lo hi : Nat) : (s.wipe lo hi).sfm = s.sfm := rfl
@[simp] theorem State.wipe_granules (s : State) (lo hi : Nat) : (s.wipe lo hi).granules = s.granules := rfl
@[simp] theorem State.wipe_tx (s : State) (lo hi : Nat) : (s.wipe lo hi).tx = s.tx := rfl
@[simp] theorem State.wipe_syn (s : State) (lo hi : Nat) : (s.wipe lo hi).syn = s.syn := rfl
@[simp] theorem State.wipe_cip (s : State) (lo hi : Nat) : (s.wipe lo hi).cip = s.cip := rfl
@[simp] theorem State.wipe_sph (s : State) (lo hi : Nat) : (s.wipe lo hi).sph = s.sph := rfl
@[simp] theorem State.wipe_spi (s : State) (lo hi : Nat) : (s.wipe lo hi).spi = s.spi := rfl
@[simp] theorem State.wipe_mgb (s : State) (lo hi : Nat) : (s.wipe lo hi).mgb = s.mgb := rfl
@[simp] theorem State.wipe_mac (s : State) (lo hi : Nat) : (s.wipe lo hi).mac = s.mac := rfl
@[simp] theorem State.wipe_ptp (s : State) (lo hi : Nat) : (s.wipe lo hi).ptp = s.ptp := rfl
@[simp] theorem State.wipe_fdr (s : State) (lo hi : Nat) : (s.wipe lo hi).fdr = s.fdr := rfl
@[simp] theorem State.wipe_ctr (s : State) (lo hi : Nat) : (s.wipe lo hi).ctr = s.ctr := rfl
@[simp] theorem State.wipe_pulses (s : State) (lo hi : Nat) : (s.wipe lo hi).pulses = s.pulses := rfl
@[simp] theorem State.wipe_aonHigh (s : State) (lo hi : Nat) : (s.wipe lo hi).aonHigh = s.aonHigh := rfl
@[simp] theorem State.wipe_tmr (s : State) (lo hi : Nat) : (s.wipe lo hi).tmr = s.tmr := rfl
@[simp] theorem State.wipe_rtcDst (s : State) (lo hi : Nat) : (s.wipe lo hi).rtcDst = s.rtcDst := rfl
@[simp] theorem State.wipe_xtal (s : State) (lo hi : Nat) : (s.wipe lo hi).xtal = s.xtal := rfl
@[simp] theorem State.wipe_trim (s : State) (lo hi : Nat) : (s.wipe lo hi).trim = s.trim := rfl
@[simp] theorem State.wipe_part (s : State) (lo hi : Nat) : (s.wipe lo hi).part = s.part := rfl
@[simp] theorem State.wipe_pwr (s : State) (lo hi : Nat) : (s.wipe lo hi).pwr = s.pwr := rfl
@[simp] theorem State.wipe_flc (s : State) (lo hi : Nat) : (s.wipe lo hi).flc = s.flc := rfl
@[simp] theorem State.wipe_age (s : State) (lo hi : Nat) : (s.wipe lo hi).age = s.age := rfl
@[simp] theorem State.wipe_pins (s : State) (lo hi : Nat) : (s.wipe lo hi).pins = s.pins := rfl

@[simp] theorem State.setChain_pending (s : State) (c : Chain) (x : ChainSt) : (s.setChain c x).pending = s.pending := by cases c <;> rfl
@[simp] theorem State.setChain_regs (s : State) (c : Chain) (x : ChainSt) : (s.setChain c x).regs = s.regs := by cases c <;> rfl
@[simp] theorem State.setChain_act (s : State) (c : Chain) (x : ChainSt) : (s.setChain c x).act = s.act := by cases c <;> rfl
@[simp] theorem State.setChain_cal (s : State) (c : Chain) (x : ChainSt) : (s.setChain c x).cal = s.cal := by cases c <;> rfl
@[simp] theorem State.setChain_mem (s : State) (c : Chain) (x : ChainSt) : (s.setChain c x).mem = s.mem := by cases c <;> rfl
@[simp] theorem State.setChain_snaps (s : State) (c : Chain) (x : ChainSt) : (s.setChain c x).snaps = s.snaps := by cases c <;> rfl
@[simp] theorem State.setChain_aonBuf (s : State) (c : Chain) (x : ChainSt) : (s.setChain c x).aonBuf = s.aonBuf := by cases c <;> rfl
@[simp] theorem State.setChain_data (s : State) (c : Chain) (x : ChainSt) : (s.setChain c x).data = s.data := by cases c <;> rfl
@[simp] theorem State.setChain_err (s : State) (c : Chain) (x : ChainSt) : (s.setChain c x).err = s.err := by cases c <;> rfl
@[simp] theorem State.setChain_free (s : State) (c : Chain) (x : ChainSt) : (s.setChain c x).free = s.free := by cases c <;> rfl
@[simp] theorem State.setChain_lane (s : State) (c : Chain) (x : ChainSt) : (s.setChain c x).lane = s.lane := by cases c <;> rfl
@[simp] theorem State.setChain_ldpQueue (s : State) (c : Chain) (x : ChainSt) : (s.setChain c x).ldpQueue = s.ldpQueue := by cases c <;> rfl
@[simp] theorem State.setChain_ldp (s : State) (c : Chain) (x : ChainSt) : (s.setChain c x).ldp = s.ldp := by cases c <;> rfl
@[simp] theorem State.setChain_eng (s : State) (c : Chain) (x : ChainSt) : (s.setChain c x).eng = s.eng := by cases c <;> rfl
@[simp] theorem State.setChain_wellLast (s : State) (c : Chain) (x : ChainSt) : (s.setChain c x).wellLast = s.wellLast := by cases c <;> rfl
@[simp] theorem State.setChain_targetLast (s : State) (c : Chain) (x : ChainSt) : (s.setChain c x).targetLast = s.targetLast := by cases c <;> rfl
@[simp] theorem State.setChain_arb (s : State) (c : Chain) (x : ChainSt) : (s.setChain c x).arb = s.arb := by cases c <;> rfl
@[simp] theorem State.setChain_inForce (s : State) (c : Chain) (x : ChainSt) : (s.setChain c x).inForce = s.inForce := by cases c <;> rfl
@[simp] theorem State.setChain_events (s : State) (c : Chain) (x : ChainSt) : (s.setChain c x).events = s.events := by cases c <;> rfl
@[simp] theorem State.setChain_sfm (s : State) (c : Chain) (x : ChainSt) : (s.setChain c x).sfm = s.sfm := by cases c <;> rfl
@[simp] theorem State.setChain_granules (s : State) (c : Chain) (x : ChainSt) : (s.setChain c x).granules = s.granules := by cases c <;> rfl
@[simp] theorem State.setChain_tx (s : State) (c : Chain) (x : ChainSt) : (s.setChain c x).tx = s.tx := by cases c <;> rfl
@[simp] theorem State.setChain_syn (s : State) (c : Chain) (x : ChainSt) : (s.setChain c x).syn = s.syn := by cases c <;> rfl
@[simp] theorem State.setChain_cip (s : State) (c : Chain) (x : ChainSt) : (s.setChain c x).cip = s.cip := by cases c <;> rfl
@[simp] theorem State.setChain_sph (s : State) (c : Chain) (x : ChainSt) : (s.setChain c x).sph = s.sph := by cases c <;> rfl
@[simp] theorem State.setChain_spi (s : State) (c : Chain) (x : ChainSt) : (s.setChain c x).spi = s.spi := by cases c <;> rfl
@[simp] theorem State.setChain_mgb (s : State) (c : Chain) (x : ChainSt) : (s.setChain c x).mgb = s.mgb := by cases c <;> rfl
@[simp] theorem State.setChain_mac (s : State) (c : Chain) (x : ChainSt) : (s.setChain c x).mac = s.mac := by cases c <;> rfl
@[simp] theorem State.setChain_ptp (s : State) (c : Chain) (x : ChainSt) : (s.setChain c x).ptp = s.ptp := by cases c <;> rfl
@[simp] theorem State.setChain_fdr (s : State) (c : Chain) (x : ChainSt) : (s.setChain c x).fdr = s.fdr := by cases c <;> rfl
@[simp] theorem State.setChain_ctr (s : State) (c : Chain) (x : ChainSt) : (s.setChain c x).ctr = s.ctr := by cases c <;> rfl
@[simp] theorem State.setChain_pulses (s : State) (c : Chain) (x : ChainSt) : (s.setChain c x).pulses = s.pulses := by cases c <;> rfl
@[simp] theorem State.setChain_aonHigh (s : State) (c : Chain) (x : ChainSt) : (s.setChain c x).aonHigh = s.aonHigh := by cases c <;> rfl
@[simp] theorem State.setChain_tmr (s : State) (c : Chain) (x : ChainSt) : (s.setChain c x).tmr = s.tmr := by cases c <;> rfl
@[simp] theorem State.setChain_rtcDst (s : State) (c : Chain) (x : ChainSt) : (s.setChain c x).rtcDst = s.rtcDst := by cases c <;> rfl
@[simp] theorem State.setChain_xtal (s : State) (c : Chain) (x : ChainSt) : (s.setChain c x).xtal = s.xtal := by cases c <;> rfl
@[simp] theorem State.setChain_trim (s : State) (c : Chain) (x : ChainSt) : (s.setChain c x).trim = s.trim := by cases c <;> rfl
@[simp] theorem State.setChain_part (s : State) (c : Chain) (x : ChainSt) : (s.setChain c x).part = s.part := by cases c <;> rfl
@[simp] theorem State.setChain_pwr (s : State) (c : Chain) (x : ChainSt) : (s.setChain c x).pwr = s.pwr := by cases c <;> rfl
@[simp] theorem State.setChain_flc (s : State) (c : Chain) (x : ChainSt) : (s.setChain c x).flc = s.flc := by cases c <;> rfl
@[simp] theorem State.setChain_age (s : State) (c : Chain) (x : ChainSt) : (s.setChain c x).age = s.age := by cases c <;> rfl
@[simp] theorem State.setChain_pins (s : State) (c : Chain) (x : ChainSt) : (s.setChain c x).pins = s.pins := by cases c <;> rfl

@[simp] theorem State.draw_pending (s : State) (w : Nat) : (s.draw w).2.pending = s.pending := rfl
@[simp] theorem State.draw_regs (s : State) (w : Nat) : (s.draw w).2.regs = s.regs := rfl
@[simp] theorem State.draw_act (s : State) (w : Nat) : (s.draw w).2.act = s.act := rfl
@[simp] theorem State.draw_cal (s : State) (w : Nat) : (s.draw w).2.cal = s.cal := rfl
@[simp] theorem State.draw_mem (s : State) (w : Nat) : (s.draw w).2.mem = s.mem := rfl
@[simp] theorem State.draw_snaps (s : State) (w : Nat) : (s.draw w).2.snaps = s.snaps := rfl
@[simp] theorem State.draw_aonBuf (s : State) (w : Nat) : (s.draw w).2.aonBuf = s.aonBuf := rfl
@[simp] theorem State.draw_data (s : State) (w : Nat) : (s.draw w).2.data = s.data := rfl
@[simp] theorem State.draw_err (s : State) (w : Nat) : (s.draw w).2.err = s.err := rfl
@[simp] theorem State.draw_free (s : State) (w : Nat) : (s.draw w).2.free = s.free + 1 := rfl
@[simp] theorem State.draw_lane (s : State) (w : Nat) : (s.draw w).2.lane = s.lane := rfl
@[simp] theorem State.draw_chain (s : State) (w : Nat) : (s.draw w).2.chain = s.chain := rfl
@[simp] theorem State.draw_ldpQueue (s : State) (w : Nat) : (s.draw w).2.ldpQueue = s.ldpQueue := rfl
@[simp] theorem State.draw_ldp (s : State) (w : Nat) : (s.draw w).2.ldp = s.ldp := rfl
@[simp] theorem State.draw_eng (s : State) (w : Nat) : (s.draw w).2.eng = s.eng := rfl
@[simp] theorem State.draw_wellLast (s : State) (w : Nat) : (s.draw w).2.wellLast = s.wellLast := rfl
@[simp] theorem State.draw_targetLast (s : State) (w : Nat) : (s.draw w).2.targetLast = s.targetLast := rfl
@[simp] theorem State.draw_arb (s : State) (w : Nat) : (s.draw w).2.arb = s.arb := rfl
@[simp] theorem State.draw_inForce (s : State) (w : Nat) : (s.draw w).2.inForce = s.inForce := rfl
@[simp] theorem State.draw_events (s : State) (w : Nat) : (s.draw w).2.events = s.events := rfl
@[simp] theorem State.draw_sfm (s : State) (w : Nat) : (s.draw w).2.sfm = s.sfm := rfl
@[simp] theorem State.draw_granules (s : State) (w : Nat) : (s.draw w).2.granules = s.granules := rfl
@[simp] theorem State.draw_tx (s : State) (w : Nat) : (s.draw w).2.tx = s.tx := rfl
@[simp] theorem State.draw_syn (s : State) (w : Nat) : (s.draw w).2.syn = s.syn := rfl
@[simp] theorem State.draw_cip (s : State) (w : Nat) : (s.draw w).2.cip = s.cip := rfl
@[simp] theorem State.draw_sph (s : State) (w : Nat) : (s.draw w).2.sph = s.sph := rfl
@[simp] theorem State.draw_spi (s : State) (w : Nat) : (s.draw w).2.spi = s.spi := rfl
@[simp] theorem State.draw_mgb (s : State) (w : Nat) : (s.draw w).2.mgb = s.mgb := rfl
@[simp] theorem State.draw_mac (s : State) (w : Nat) : (s.draw w).2.mac = s.mac := rfl
@[simp] theorem State.draw_ptp (s : State) (w : Nat) : (s.draw w).2.ptp = s.ptp := rfl
@[simp] theorem State.draw_fdr (s : State) (w : Nat) : (s.draw w).2.fdr = s.fdr := rfl
@[simp] theorem State.draw_ctr (s : State) (w : Nat) : (s.draw w).2.ctr = s.ctr := rfl
@[simp] theorem State.draw_pulses (s : State) (w : Nat) : (s.draw w).2.pulses = s.pulses := rfl
@[simp] theorem State.draw_aonHigh (s : State) (w : Nat) : (s.draw w).2.aonHigh = s.aonHigh := rfl
@[simp] theorem State.draw_tmr (s : State) (w : Nat) : (s.draw w).2.tmr = s.tmr := rfl
@[simp] theorem State.draw_rtcDst (s : State) (w : Nat) : (s.draw w).2.rtcDst = s.rtcDst := rfl
@[simp] theorem State.draw_xtal (s : State) (w : Nat) : (s.draw w).2.xtal = s.xtal := rfl
@[simp] theorem State.draw_trim (s : State) (w : Nat) : (s.draw w).2.trim = s.trim := rfl
@[simp] theorem State.draw_part (s : State) (w : Nat) : (s.draw w).2.part = s.part := rfl
@[simp] theorem State.draw_pwr (s : State) (w : Nat) : (s.draw w).2.pwr = s.pwr := rfl
@[simp] theorem State.draw_flc (s : State) (w : Nat) : (s.draw w).2.flc = s.flc := rfl
@[simp] theorem State.draw_age (s : State) (w : Nat) : (s.draw w).2.age = s.age := rfl
@[simp] theorem State.draw_pins (s : State) (w : Nat) : (s.draw w).2.pins = s.pins := rfl

/-! ## The one-line updates in terms of `put` -/

theorem State.raise_eq (s : State) (f : Fld) : s.raise f = s.put f 1 := rfl
theorem State.lower_eq (s : State) (f : Fld) : s.lower f = s.put f 0 := rfl
theorem State.putB_eq (s : State) (f : Fld) (b : Bool) : s.putB f b = s.put f (bit01 b) := rfl
theorem State.bump_eq (s : State) (f : Fld) : s.bump f = s.put f (satCount f.width (s.get f) 1) := rfl
theorem State.flag_eq (s : State) (f : Fld) : s.flag f = (s.get f == 1) := rfl

/-! ## Reads after updates -/

@[simp] theorem State.engAt_setEng_same (s : State) (e : EngIx) (g : Eng) : (s.setEng e g).engAt e = g := by
  simp [State.engAt, State.setEng]

theorem State.engAt_setEng_other (s : State) {e f : EngIx} (g : Eng) (h : f ≠ e) : (s.setEng e g).engAt f = s.engAt f := by
  have : e.val ≠ f.val := fun x => h (Fin.ext x.symm)
  simp [State.engAt, State.setEng, Vector.getElem_set_ne, this]

@[simp] theorem State.setEng_setEng (s : State) (e : EngIx) (g g' : Eng) : (s.setEng e g).setEng e g' = s.setEng e g' := by
  simp [State.setEng]

@[simp] theorem State.setEng_engAt (s : State) (e : EngIx) : s.setEng e (s.engAt e) = s := by
  simp [State.setEng, State.engAt]

@[simp] theorem State.laneAt_setLane_same (s : State) (n : LaneIx) (l : Lane) : (s.setLane n l).laneAt n = l := by
  simp [State.laneAt, State.setLane]

theorem State.laneAt_setLane_other (s : State) {n m : LaneIx} (l : Lane) (h : m ≠ n) : (s.setLane n l).laneAt m = s.laneAt m := by
  have : n.val ≠ m.val := fun x => h (Fin.ext x.symm)
  simp [State.laneAt, State.setLane, Vector.getElem_set_ne, this]

@[simp] theorem State.setLane_setLane (s : State) (n : LaneIx) (l l' : Lane) : (s.setLane n l).setLane n l' = s.setLane n l' := by
  simp [State.setLane]

@[simp] theorem State.tmrAt_setTmr_same (s : State) (k : TmrIx) (t : Tmr) : (s.setTmr k t).tmrAt k = t := by
  simp [State.tmrAt, State.setTmr]

@[simp] theorem State.setTmr_setTmr (s : State) (k : TmrIx) (t t' : Tmr) : (s.setTmr k t).setTmr k t' = s.setTmr k t' := by
  simp [State.setTmr]

@[simp] theorem State.macAt_setMac_same (s : State) (m : Fin 2) (x : EthMac) : (s.setMac m x).macAt m = x := by
  simp [State.macAt, State.setMac]

@[simp] theorem State.chainAt_setChain_same (s : State) (c : Chain) (x : ChainSt) : (s.setChain c x).chainAt c = x := by
  cases c <;> simp [State.chainAt, State.setChain]

@[simp] theorem State.engAt_setReg (s : State) (k : Nat) (v : Word) (e : EngIx) : (s.setReg k v).engAt e = s.engAt e := rfl
@[simp] theorem State.engAt_put (s : State) (f : Fld) (n : Nat) (e : EngIx) : (s.put f n).engAt e = s.engAt e := rfl
@[simp] theorem State.laneAt_put (s : State) (f : Fld) (n : Nat) (l : LaneIx) : (s.put f n).laneAt l = s.laneAt l := rfl
@[simp] theorem State.reg_setEng (s : State) (e : EngIx) (g : Eng) (k : Nat) : (s.setEng e g).reg k = s.reg k := rfl
@[simp] theorem State.reg_setLane (s : State) (n : LaneIx) (l : Lane) (k : Nat) : (s.setLane n l).reg k = s.reg k := rfl
@[simp] theorem State.get_setEng (s : State) (e : EngIx) (g : Eng) (f : Fld) : (s.setEng e g).get f = s.get f := rfl
@[simp] theorem State.flag_setEng (s : State) (e : EngIx) (g : Eng) (f : Fld) : (s.setEng e g).flag f = s.flag f := rfl
@[simp] theorem State.bit_setEng (s : State) (e : EngIx) (g : Eng) (k i : Nat) : (s.setEng e g).bit k i = s.bit k i := rfl

end Sys2Proof.Machine
end

