-- ==== Sys2Proof/Laws/Registers.lean ====
section
/-! SUPPORT. Bit fields, register words and fields after a write, and the canonical form under the shared operations over
registers and memory. -/

namespace Sys2Proof.Machine

/-! ## Bit fields -/

theorem bitsOf_lt (v lo w : Nat) : bitsOf v lo w < 2 ^ w := Nat.mod_lt _ (by positivity)

theorem testBit_bitsOf (v lo w i : Nat) : (bitsOf v lo w).testBit i = (decide (i < w) && v.testBit (lo + i)) := by
  simp [bitsOf, Nat.testBit_mod_two_pow, Nat.testBit_shiftRight]

/-- The low part, the field and the high part of a number. -/
theorem split_bits (v lo w : Nat) :
    v = v % 2 ^ lo + bitsOf v lo w * 2 ^ lo + (v / 2 ^ (lo + w)) * 2 ^ (lo + w) := by
  have h1 := Nat.div_add_mod v (2 ^ lo)
  have h2 := Nat.div_add_mod (v / 2 ^ lo) (2 ^ w)
  have h3 : v / 2 ^ lo / 2 ^ w = v / 2 ^ (lo + w) := by rw [Nat.div_div_eq_div_mul, pow_add]
  rw [h3] at h2
  have hb : bitsOf v lo w = (v / 2 ^ lo) % 2 ^ w := by simp [bitsOf, Nat.shiftRight_eq_div_pow]
  rw [hb, pow_add]
  calc v = 2 ^ lo * (v / 2 ^ lo) + v % 2 ^ lo := h1.symm
    _ = 2 ^ lo * (2 ^ w * (v / 2 ^ (lo + w)) + v / 2 ^ lo % 2 ^ w) + v % 2 ^ lo := by rw [h2]
    _ = _ := by rw [pow_add]; ring

theorem setBits_eq (v lo w n : Nat) :
    setBits v lo w n = v % 2 ^ lo + (n % 2 ^ w) * 2 ^ lo + (v / 2 ^ (lo + w)) * 2 ^ (lo + w) := by
  have h := split_bits v lo w
  simp only [setBits, Nat.shiftLeft_eq]
  omega

theorem testBit_setBits (v lo w n i : Nat) :
    (setBits v lo w n).testBit i = if lo ≤ i ∧ i < lo + w then n.testBit (i - lo) else v.testBit i := by
  have e : setBits v lo w n = (v / 2 ^ (lo + w)) * 2 ^ (lo + w) + ((n % 2 ^ w) * 2 ^ lo + v % 2 ^ lo) := by
    rw [setBits_eq]; ring
  have hlo : v % 2 ^ lo < 2 ^ lo := Nat.mod_lt _ (by positivity)
  have hw : n % 2 ^ w < 2 ^ w := Nat.mod_lt _ (by positivity)
  have hb : (n % 2 ^ w) * 2 ^ lo + v % 2 ^ lo < 2 ^ (lo + w) := by
    have h1 : (n % 2 ^ w + 1) * 2 ^ lo ≤ 2 ^ w * 2 ^ lo := Nat.mul_le_mul_right _ hw
    rw [pow_add, mul_comm (2 ^ lo)]
    linarith [Nat.add_one_mul (n % 2 ^ w) (2 ^ lo)]
  rw [e, mul_comm (v / 2 ^ (lo + w)), Nat.testBit_two_pow_mul_add _ hb, mul_comm (n % 2 ^ w),
    Nat.testBit_two_pow_mul_add _ hlo]
  by_cases h1 : i < lo + w
  · by_cases h2 : i < lo
    · have : ¬lo ≤ i := by omega
      simp [h1, h2, this, Nat.testBit_mod_two_pow]
    · have h3 : lo ≤ i := by omega
      have h4 : i - lo < w := by omega
      simp [h1, h2, h3, h4, Nat.testBit_mod_two_pow]
  · have h2 : lo + w + (i - (lo + w)) = i := by omega
    simp [h1, Nat.testBit_div_two_pow, h2, Nat.add_comm]

theorem bitsOf_setBits_same (v lo w n : Nat) : bitsOf (setBits v lo w n) lo w = n % 2 ^ w := by
  apply Nat.eq_of_testBit_eq
  intro i
  rw [testBit_bitsOf, testBit_setBits, Nat.testBit_mod_two_pow]
  by_cases h : i < w <;> simp [h]

theorem bitsOf_setBits_other {v lo w n lo' w' : Nat} (h : lo' + w' ≤ lo ∨ lo + w ≤ lo') :
    bitsOf (setBits v lo w n) lo' w' = bitsOf v lo' w' := by
  apply Nat.eq_of_testBit_eq
  intro i
  rw [testBit_bitsOf, testBit_bitsOf, testBit_setBits]
  by_cases hi : i < w'
  · have : ¬(lo ≤ lo' + i ∧ lo' + i < lo + w) := by omega
    simp [hi, this]
  · simp [hi]

theorem setBits_lt {v lo w n k : Nat} (hv : v < 2 ^ k) (h : lo + w ≤ k) : setBits v lo w n < 2 ^ k := by
  apply Nat.lt_pow_two_of_testBit
  intro i hi
  rw [testBit_setBits]
  have : ¬(lo ≤ i ∧ i < lo + w) := by omega
  simp only [this, if_false]
  exact Nat.testBit_lt_two_pow (lt_of_lt_of_le hv (Nat.pow_le_pow_right (by norm_num) hi))

/-! ## Register words and fields -/

variable {s : State}

theorem State.regs_wf (h : s.canonical = true) : AMap.wf resetVal s.regs = true := by
  simp only [State.canonical, Bool.and_eq_true] at h
  exact h.1.1.1.2

theorem State.mem_wf (h : s.canonical = true) : Memory.wf s.mem = true := by
  simp only [State.canonical, Bool.and_eq_true] at h
  exact h.1.1.1.1

theorem State.act_wf (h : s.canonical = true) : AMap.wf resetVal s.act = true := by
  simp only [State.canonical, Bool.and_eq_true] at h
  exact h.1.1.2

theorem State.cal_wf (h : s.canonical = true) : AMap.wf resetVal s.cal = true := by
  simp only [State.canonical, Bool.and_eq_true] at h
  exact h.1.2

theorem State.part_wf (h : s.canonical = true) : AMap.wf (fun _ => 0) s.part = true := by
  simp only [State.canonical, Bool.and_eq_true] at h
  exact h.2

theorem State.reg_setReg_other (s : State) {k j : Nat} (v : Word) (h : j ≠ k) : (s.setReg k v).reg j = s.reg j :=
  AMap.look_put_other s.regs v h

theorem State.reg_setReg_same (h : s.canonical = true) (k : Nat) (v : Word) : (s.setReg k v).reg k = v :=
  AMap.look_put_same v (State.regs_wf h)

theorem State.get_put_key (s : State) {f g : Fld} (n : Nat) (h : g.key ≠ f.key) : (s.put f n).get g = s.get g := by
  simp only [State.get, State.put]
  rw [State.reg_setReg_other _ _ h]

theorem State.get_put_same (h : s.canonical = true) (f : Fld) (n : Nat) (hf : f.lo + f.width ≤ 32) :
    (s.put f n).get f = n % 2 ^ f.width := by
  simp only [State.get, State.put]
  rw [State.reg_setReg_same h, BitVec.toNat_ofNat, Nat.mod_eq_of_lt (setBits_lt (s.reg f.key).isLt hf),
    bitsOf_setBits_same]

theorem State.get_put_apart (h : s.canonical = true) {f g : Fld} (n : Nat) (hk : g.key = f.key) (hf : f.lo + f.width ≤ 32)
    (ha : g.lo + g.width ≤ f.lo ∨ f.lo + f.width ≤ g.lo) : (s.put f n).get g = s.get g := by
  simp only [State.get, State.put]
  rw [hk, State.reg_setReg_same h, BitVec.toNat_ofNat, Nat.mod_eq_of_lt (setBits_lt (s.reg f.key).isLt hf),
    bitsOf_setBits_other ha]

theorem State.byte_putByte_same (h : s.canonical = true) (a : Nat) (b : Byte) : (s.putByte a b).byte a = b :=
  AMap.look_put_same b (State.mem_wf h)

theorem State.byte_putByte_other (s : State) {a x : Nat} (b : Byte) (h : x ≠ a) : (s.putByte a b).byte x = s.byte x :=
  AMap.look_put_other s.mem b h

/-! ## The canonical form -/

theorem State.canonical_setReg (h : s.canonical = true) (k : Nat) (v : Word) : (s.setReg k v).canonical = true := by
  simp only [State.canonical, Bool.and_eq_true] at h ⊢
  exact ⟨⟨⟨⟨h.1.1.1.1, AMap.wf_put k v h.1.1.1.2⟩, h.1.1.2⟩, h.1.2⟩, h.2⟩

theorem State.canonical_setActive (h : s.canonical = true) (k : Nat) (v : Word) : (s.setActive k v).canonical = true := by
  simp only [State.canonical, Bool.and_eq_true] at h ⊢
  exact ⟨⟨⟨⟨h.1.1.1.1, h.1.1.1.2⟩, AMap.wf_put k v h.1.1.2⟩, h.1.2⟩, h.2⟩

theorem State.canonical_putByte (h : s.canonical = true) (a : Nat) (b : Byte) : (s.putByte a b).canonical = true := by
  simp only [State.canonical, Bool.and_eq_true] at h ⊢
  exact ⟨⟨⟨⟨AMap.wf_put a b h.1.1.1.1, h.1.1.1.2⟩, h.1.1.2⟩, h.1.2⟩, h.2⟩

theorem State.canonical_wipe (h : s.canonical = true) (lo hi : Nat) : (s.wipe lo hi).canonical = true := by
  simp only [State.canonical, Bool.and_eq_true] at h ⊢
  exact ⟨⟨⟨⟨AMap.wf_clear (fun a => decide (lo ≤ a ∧ a < hi)) h.1.1.1.1, h.1.1.1.2⟩, h.1.1.2⟩, h.1.2⟩, h.2⟩

theorem State.canonical_put (h : s.canonical = true) (f : Fld) (n : Nat) : (s.put f n).canonical = true :=
  State.canonical_setReg h _ _

theorem State.canonical_setBit (h : s.canonical = true) (k i : Nat) (b : Bool) : (s.setBit k i b).canonical = true :=
  State.canonical_setReg h _ _

theorem State.canonical_markGroup (h : s.canonical = true) (load : Bool) (a : Nat) : (s.markGroup load a).canonical = true := by
  unfold State.markGroup
  split
  · simp only [State.canonical, Bool.and_eq_true] at h ⊢
    exact ⟨⟨⟨⟨h.1.1.1.1, h.1.1.1.2⟩, h.1.1.2⟩, h.1.2⟩, AMap.wf_put _ _ h.2⟩
  · exact h

theorem State.canonical_putBytes (h : s.canonical = true) (a : Nat) (bs : List Byte) : (s.putBytes a bs).canonical = true := by
  induction bs generalizing s a with
  | nil => exact h
  | cons b t ih => exact ih (State.canonical_putByte h a b) (a + 1)

/-- A change of the parts of the state that are no sparse map keeps the canonical form. -/
theorem State.canonical_congr {t : State} (h : s.canonical = true) (hm : t.mem = s.mem) (hr : t.regs = s.regs)
    (ha : t.act = s.act) (hc : t.cal = s.cal) (hp : t.part = s.part) : t.canonical = true := by
  simpa [State.canonical, hm, hr, ha, hc, hp] using h

theorem State.canonical_each {α : Type} (l : List α) (f : State → α → State)
    (hf : ∀ t x, t.canonical = true → (f t x).canonical = true) (h : s.canonical = true) : (s.each l f).canonical = true := by
  induction l generalizing s with
  | nil => exact h
  | cons x t ih => exact ih (hf s x h)

end Sys2Proof.Machine
end

