-- ==== Sys2Proof/Laws/Bus.lean ====
section
/-! SUPPORT. What an access to a register does, said once: a commanded write or read that goes through is the row's write or read. -/

namespace Sys2Proof.Machine

variable {s : State} {r a : Nat} {v : Word} {x : RegRow}

theorem placeOf_window (h : 0x20000000 ≤ a ∧ a < 0x20180000) : placeOf a = .block (keyBlock a) := by
  have h1 : ¬a < 0x800000 := by omega
  have h2 : ¬a < 0x10000000 := by omega
  have h3 : ¬a < 0x10400000 := by omega
  have h4 : ¬a < 0x10430000 := by omega
  have h5 : ¬a < 0x10600000 := by omega
  have h6 : ¬a < 0x10780000 := by omega
  have h7 : ¬a < 0x107FC000 := by omega
  have h8 : ¬a < 0x10800000 := by omega
  have h9 : ¬a < 0x20000000 := by omega
  simp [placeOf, keyBlock, h1, h2, h3, h4, h5, h6, h7, h8, h9, h.2]

/-- A requester's turn at a target changes that target's round alone (08 R269). -/
theorem State.takeTurn_eq (s : State) (r t : Nat) : s.takeTurn r t = { s with targetLast := (s.takeTurn r t).targetLast } := by
  unfold State.takeTurn
  split
  · rfl
  · split
    · dsimp only
      split <;> rfl
    · rfl

/-- An access that is served changes the round at its block and the snapshot of its register alone. -/
theorem State.served_eq (s : State) (r k : Nat) :
    s.served r k = { s.dropSnap r k with targetLast := (s.takeTurn r (keyBlock k)).targetLast } := by
  unfold State.served
  rw [State.takeTurn_eq s r (keyBlock k)]
  rfl

/-- A commanded write to an assigned register that goes through is the write of its row. -/
theorem State.command32_row (h : s.admits r a true = true) (ha : a % 4 = 0) (hw : 0x20000000 ≤ a ∧ a < 0x20180000)
    (hx : rowAt a = some x) : s.command32 r a v = State.answerWrite (s.writeRow x r a v) r a := by
  simp only [State.admits, Bool.and_eq_true, Bool.not_eq_true'] at h
  simp [State.command32, State.busWrite, State.store, State.writeWindow, h.1.1, h.1.2, h.2, ha, placeOf_window hw, hx]

/-- A commanded read of an assigned register that goes through is the read of its row. -/
theorem State.query32_row (h : s.admits r a false = true) (ha : a % 4 = 0) (hw : 0x20000000 ≤ a ∧ a < 0x20180000)
    (hx : rowAt a = some x) : s.query32 r a = (s.readRow x r a).1.answered (s.readRow x r a).2 := by
  simp only [State.admits, Bool.and_eq_true, Bool.not_eq_true'] at h
  simp [State.query32, State.busRead, State.load, State.readWindow, State.flashWaits, State.answerRead, State.answered, h.1.1, h.1.2,
    h.2, ha, placeOf_window hw, hx]

/-- A row without staged bits that is not posted takes effect at once. -/
theorem State.writeRow_direct (hb : badTuning a v = false) (hst : x.st = 0) (hp : posted a = false) :
    s.writeRow x r a v = (s.served r (s.keyOf x r a)).wrote
      ((s.served r (s.keyOf x r a)).setReg (s.keyOf x r a) (x.written (s.locked a) (s.reg (s.keyOf x r a)) v)) r a
      (s.keyOf x r a) v := by
  have hc : ∀ o n : Word, x.changesShadow o n = false := by intro o n; simp [RegRow.changesShadow, hst]
  simp [State.writeRow, hb, hc, hp]

/-- A staged row does the same while its world is not armed. -/
theorem State.writeRow_unarmed (hb : badTuning a v = false) (hA : s.armedFor a = false) (hp : posted a = false) :
    s.writeRow x r a v = (s.served r (s.keyOf x r a)).wrote
      ((s.served r (s.keyOf x r a)).setReg (s.keyOf x r a) (x.written (s.locked a) (s.reg (s.keyOf x r a)) v)) r a
      (s.keyOf x r a) v := by
  have hA' : ∀ j k, (s.served j k).armedFor a = false := fun j k => by rw [State.served_eq]; exact hA
  simp [State.writeRow, hb, hA', hp]

/-- A posted write waits in the buffer of its register. -/
theorem State.writeRow_posted (hb : badTuning a v = false) (hst : x.st = 0) (hp : posted a = true) :
    s.writeRow x r a v = ((s.served r (s.keyOf x r a)).post31 a v, none) := by
  have hc : ∀ o n : Word, x.changesShadow o n = false := by intro o n; simp [RegRow.changesShadow, hst]
  simp [State.writeRow, hb, hc, hp]

@[simp] theorem State.answerWrite_none (t : State) (r a : Nat) : State.answerWrite (t, none) r a = t.answered 0 := rfl

/-- The registers without a copy per world or requester. -/
theorem State.keyOf_single (h : x.bank = .single) (r a : Nat) : s.keyOf x r a = a := by simp [State.keyOf, h]

/-- The banked ones. -/
theorem State.keyOf_world (h : x.bank = .world) (r a : Nat) : s.keyOf x r a = bankKey (s.world r) a := by simp [State.keyOf, h]

@[simp] theorem State.takeTurn_reg (r t j : Nat) : (s.takeTurn r t).reg j = s.reg j := by rw [State.takeTurn_eq]; rfl
@[simp] theorem State.takeTurn_mem (r t : Nat) : (s.takeTurn r t).mem = s.mem := by rw [State.takeTurn_eq]
@[simp] theorem State.served_reg (r k j : Nat) : (s.served r k).reg j = s.reg j := by rw [State.served_eq]; rfl
@[simp] theorem State.served_mem (r k : Nat) : (s.served r k).mem = s.mem := by rw [State.served_eq]; rfl
@[simp] theorem State.served_get (r k : Nat) (f : Fld) : (s.served r k).get f = s.get f := by rw [State.served_eq]; rfl
@[simp] theorem State.served_flag (r k : Nat) (f : Fld) : (s.served r k).flag f = s.flag f := by rw [State.served_eq]; rfl
@[simp] theorem State.served_engAt (r k : Nat) (e : EngIx) : (s.served r k).engAt e = s.engAt e := by rw [State.served_eq]; rfl
@[simp] theorem State.served_laneAt (r k : Nat) (n : LaneIx) : (s.served r k).laneAt n = s.laneAt n := by rw [State.served_eq]; rfl
@[simp] theorem State.served_tmrAt (r k : Nat) (n : TmrIx) : (s.served r k).tmrAt n = s.tmrAt n := by rw [State.served_eq]; rfl
@[simp] theorem State.dropSnap_reg (r k j : Nat) : (s.dropSnap r k).reg j = s.reg j := rfl
@[simp] theorem State.dropSnap_get (r k : Nat) (f : Fld) : (s.dropSnap r k).get f = s.get f := rfl
@[simp] theorem State.dropSnap_flag (r k : Nat) (f : Fld) : (s.dropSnap r k).flag f = s.flag f := rfl

end Sys2Proof.Machine
end

