-- ==== Sys2Proof/Laws/Engine.lean ====
section
/-! SUPPORT. How an instruction with one move issues: its word's decoding, and what it does when it retires at once. -/

namespace Sys2Proof.Machine

variable {s : State} {e : EngIx}

/-- The word `#t -> port` spells that one move. -/
theorem movesOf_immWord {p : Nat} (t : Word24) (hp : p < 1024) :
    movesOf (immWord p t) = [⟨false, 0, some t, 0, p⟩] := by
  have ht : t.toNat < 2 ^ 24 := t.isLt
  have hn : (immWord p t).toNat = 2 ^ 47 + p * 2 ^ 34 + t.toNat := by
    simp only [immWord, BitVec.toNat_ofNat]
    exact Nat.mod_eq_of_lt (by omega)
  have h1 : bitAt (2 ^ 47 + p * 2 ^ 34 + t.toNat) 47 = true := by
    simp only [bitAt, bitsOf, Nat.shiftRight_eq_div_pow, beq_iff_eq]
    omega
  have h2 : bitsOf (2 ^ 47 + p * 2 ^ 34 + t.toNat) 44 3 = 0 := by
    simp only [bitsOf, Nat.shiftRight_eq_div_pow]
    omega
  have h3 : bitsOf (2 ^ 47 + p * 2 ^ 34 + t.toNat) 34 10 = p := by
    simp only [bitsOf, Nat.shiftRight_eq_div_pow]
    omega
  have h4 : BitVec.ofNat 24 (2 ^ 47 + p * 2 ^ 34 + t.toNat) = t := by
    apply BitVec.eq_of_toNat_eq
    simp only [BitVec.toNat_ofNat]
    omega
  simp only [movesOf, hn, h1, h2, h3, h4, if_true]
  simp

/-- A read of source port `p` into register `d`, with an empty slot B. -/
theorem movesOf_readWord {p : Nat} (d : Fin 32) (hp : p < 512) :
    movesOf (readWord p d.val) = [⟨false, 0, none, p, d.val⟩] := by
  have hd := d.isLt
  have hn : (readWord p d.val).toNat = (p * 2 ^ 10 + d.val) * 2 ^ 23 + 0x700000 := by
    simp only [readWord, BitVec.toNat_ofNat]
    exact Nat.mod_eq_of_lt (by omega)
  have h1 : bitAt ((p * 2 ^ 10 + d.val) * 2 ^ 23 + 0x700000) 47 = false := by
    simp only [bitAt, bitsOf, Nat.shiftRight_eq_div_pow, beq_eq_false_iff_ne]
    omega
  have h2 : bitsOf ((p * 2 ^ 10 + d.val) * 2 ^ 23 + 0x700000) 23 23 = p * 2 ^ 10 + d.val := by
    simp only [bitsOf, Nat.shiftRight_eq_div_pow]
    omega
  have h3 : bitsOf ((p * 2 ^ 10 + d.val) * 2 ^ 23 + 0x700000) 0 23 = 0x700000 := by
    simp only [bitsOf, Nat.shiftRight_eq_div_pow]
    omega
  have h4 : bitsOf (p * 2 ^ 10 + d.val) 20 3 = 0 := by
    simp only [bitsOf, Nat.shiftRight_eq_div_pow]
    omega
  have h5 : bitAt (p * 2 ^ 10 + d.val) 19 = false := by
    simp only [bitAt, bitsOf, Nat.shiftRight_eq_div_pow, beq_eq_false_iff_ne]
    omega
  have h6 : bitsOf (p * 2 ^ 10 + d.val) 10 9 = p := by
    simp only [bitsOf, Nat.shiftRight_eq_div_pow]
    omega
  have h7 : bitsOf (p * 2 ^ 10 + d.val) 0 10 = d.val := by
    simp only [bitsOf, Nat.shiftRight_eq_div_pow]
    omega
  have h8 : slotMove true 0x700000 = ⟨true, 7, none, 0, 0⟩ := by decide
  simp only [movesOf, hn, h1, h2, h3, h8]
  simp only [slotMove, h4, h5, h6, h7]
  rfl

/-- Moves that read no lane buffer wait for nothing. -/
theorem State.attempt_perform (s : State) (e : EngIx) (w : BitVec 48) {ms : List Mv} (hn : laneNeed ms = 0) :
    s.attempt e w ms = s.perform e (s.reg (Reg.ENG_CFG e.val)) w ms := by
  simp [State.attempt, State.prefetch, hn]

/-- An instruction that can issue issues its moves, none of them illegal, when none reads the lane buffer. -/
theorem State.issue_moves {w : BitVec 48} {ms : List Mv} (h : s.issues e = true) (hm : movesOf w = ms)
    (hl : ms.find? ((s.startIssue e).illegalAt e) = none) (hn : laneNeed ((s.startIssue e).heldMoves e w) = 0) :
    s.issue e w = (s.startIssue e).perform e (s.reg (Reg.ENG_CFG e.val)) w ((s.startIssue e).heldMoves e w) := by
  simp only [State.issues, Bool.and_eq_true, Bool.not_eq_true'] at h
  simp only [State.issue, h.1, h.2, hm, hl, State.attempt_perform _ _ _ hn]
  rfl

/-- What a move into a trigger port that acts in the engine alone does. -/
theorem State.trigger_own (s : State) (e : EngIx) {p : Nat} (t : Word24) (hn : p ≠ 0x101 ∧ p ≠ 0x102 ∧ p ≠ 0x151 ∧ p ≠ 0x160) :
    s.trigger e p t = s.setEng e ((s.engAt e).trigger p t) := by
  unfold State.trigger
  split
  · exact absurd rfl hn.1
  · exact absurd rfl hn.2.1
  · exact absurd rfl hn.2.2.1
  · exact absurd rfl hn.2.2.2
  · rfl

/-- A trigger port that acts in the engine alone, takes no shared access and raises no exception: the instruction retires. -/
theorem State.issueMove_trigger {p : Nat} {t : Word24} (h : s.issues e = true) (hp : p < 1024) (hl : destListed p = true)
    (hv : p ≠ 0xE5 ∨ ((s.startIssue e).engAt e).tbValid = true)
    (hw : ∀ g : Eng, g.writePort p t = g) (hx : (s.startIssue e).trigExc e (s.reg (Reg.ENG_CFG e.val)) p t = (s.startIssue e, none))
    (ha : ∀ g : Eng, g.accessOf p t = none) (hn : p ≠ 0x101 ∧ p ≠ 0x102 ∧ p ≠ 0x151 ∧ p ≠ 0x160) :
    s.issueMove e p t = s.afterIssue e (fun g => g.trigger p t) := by
  have hm := movesOf_immWord t hp
  have hh : (s.startIssue e).heldMoves e (immWord p t) = [⟨false, 0, some t, 0, p⟩] := by
    simp [State.heldMoves, hm, guardHolds]
  have hi : ([⟨false, 0, some t, 0, p⟩] : List Mv).find? ((s.startIssue e).illegalAt e) = none := by
    rcases hv with hv | hv <;> simp [State.illegalAt, Mv.illegal, hl, hv]
  rw [State.issueMove, State.issue_moves h hm hi (by rw [hh]; rfl), hh]
  have hr : (s.startIssue e).readMoves e [⟨false, 0, some t, 0, p⟩] = (s.startIssue e, [⟨false, p, t⟩], none) := by
    simp [State.readMoves, State.readMove]
  simp only [State.perform, hr, takenMoves, List.foldl, hw, State.setEng_engAt, State.firstExc, hx,
    List.filterMap, ha, Option.map]
  simp [State.retire, List.foldl, hw, State.each, State.trigger_own _ _ _ hn, State.afterIssue, State.issuing, Eng.retired]

/-- The same, with the effect on the engine in another form. -/
theorem State.issueMove_does {p : Nat} {t : Word24} (h : s.issues e = true) (hp : p < 1024) (hl : destListed p = true)
    (hv : p ≠ 0xE5 ∨ ((s.startIssue e).engAt e).tbValid = true)
    (hw : ∀ g : Eng, g.writePort p t = g) (hx : (s.startIssue e).trigExc e (s.reg (Reg.ENG_CFG e.val)) p t = (s.startIssue e, none))
    (ha : ∀ g : Eng, g.accessOf p t = none) (hn : p ≠ 0x101 ∧ p ≠ 0x102 ∧ p ≠ 0x151 ∧ p ≠ 0x160)
    {f : Eng → Eng} (hf : (s.issuing e).trigger p t = f (s.issuing e)) : s.issueMove e p t = s.afterIssue e f := by
  rw [State.issueMove_trigger h hp hl hv hw hx ha hn]
  simp [State.afterIssue, hf]

/-- An ALU trigger launches its operation's result. -/
theorem Eng.trigger_aluPort (g : Eng) (u : Fin 2) (k : Nat) (hk : k < 16) (t : Word24) :
    g.trigger (aluPort u k) t = g.launch (aluUnit u) 1 (aluOp k (g.aluO u) t) 0 := by
  have h : u = 0 ∨ u = 1 := by omega
  rcases h with rfl | rfl
  · have h1 : 0x50 ≤ aluPort 0 k ∧ aluPort 0 k ≤ 0x5F := by simp [aluPort]; omega
    have h2 : aluPort 0 k - 0x50 = k := by simp [aluPort]
    simp [Eng.trigger, h1, h2, aluUnit, Eng.aluO]
  · have h1 : ¬(0x50 ≤ aluPort 1 k ∧ aluPort 1 k ≤ 0x5F) := by simp [aluPort]; omega
    have h2 : 0x70 ≤ aluPort 1 k ∧ aluPort 1 k ≤ 0x7F := by simp [aluPort]; omega
    have h3 : aluPort 1 k - 0x70 = k := by simp [aluPort]
    simp [Eng.trigger, h1, h2, h3, aluUnit, Eng.aluO]

end Sys2Proof.Machine
end

