-- ==== Sys2Proof/Laws/Memory.lean ====
section
/-! SUPPORT. Every memory operation keeps the canonical form, and what a store leaves alone. -/

namespace Sys2Proof.Machine

variable {s : State}

/-! ## The canonical form -/

theorem State.canonical_markDirty (h : s.canonical = true) (i : Nat) : (s.markDirty i).canonical = true := by
  unfold State.markDirty
  split
  · exact State.canonical_congr h rfl rfl rfl rfl rfl
  · exact h

theorem State.canonical_pokeEntry (h : s.canonical = true) (i a : Nat) (bs : List Byte) : (s.pokeEntry i a bs).canonical = true :=
  State.canonical_setReg (State.canonical_putBytes h a bs) _ _

theorem State.canonical_setEntry (h : s.canonical = true) (i e : Nat) : (s.setEntry i e).canonical = true := by
  unfold State.setEntry
  split
  · exact h
  · exact State.canonical_markDirty (State.canonical_pokeEntry h i _ _) i

theorem State.canonical_storeByte (h : s.canonical = true) (load : Bool) (a : Nat) (b : Byte) :
    (s.storeByte load a b).canonical = true := by
  unfold State.storeByte
  split
  · exact State.canonical_markDirty (State.canonical_pokeEntry h _ a [b]) _
  · split
    · exact State.canonical_markGroup (State.canonical_putByte h a b) load a
    · exact State.canonical_putByte h a b

theorem State.canonical_storeBytes (h : s.canonical = true) (load : Bool) (a : Nat) (bs : List Byte) :
    (s.storeBytes load a bs).canonical = true := by
  induction bs generalizing s a with
  | nil => exact h
  | cons b t ih => exact ih (State.canonical_storeByte h load a b) (a + 1)

theorem State.canonical_scramble (h : s.canonical = true) (a n : Nat) : (s.scramble a n).canonical = true :=
  State.canonical_congr (State.canonical_putBytes h a _) rfl rfl rfl rfl rfl

theorem State.canonical_spoilSlot (h : s.canonical = true) (a : Nat) : (s.spoilSlot a).canonical = true :=
  State.canonical_setBit h _ _ _

theorem State.canonical_eraseSector (h : s.canonical = true) (a : Nat) : (s.eraseSector a).canonical = true :=
  State.canonical_congr (State.canonical_wipe h a (a + 4096)) rfl rfl rfl rfl rfl

theorem State.canonical_writeKeyWord (h : s.canonical = true) (a : Nat) (v : Word) : (s.writeKeyWord a v).canonical = true := by
  have h2 := State.canonical_setBit (State.canonical_putBytes h a (bytesLe 4 v.toNat)) (Reg.CIP_KSV ((a - 0x107FC000) / 16 / 32))
    ((a - 0x107FC000) / 16 % 32) (a % 16 == 12)
  unfold State.writeKeyWord
  split
  · exact State.canonical_congr h2 rfl rfl rfl rfl rfl
  · exact h2

theorem State.canonical_record (h : s.canonical = true) (valid ovf : Fld) (f : State → State)
    (hf : ∀ t : State, t.canonical = true → (f t).canonical = true) : (s.record valid ovf f).canonical = true := by
  unfold State.record
  split
  · exact State.canonical_put h _ _
  · exact State.canonical_put (hf s h) _ _

theorem State.canonical_violation (h : s.canonical = true) (a : Nat) (wr : Bool) (r : Nat) : (s.violation a wr r).canonical = true :=
  State.canonical_record h _ _ _ (fun _ ht => State.canonical_put (State.canonical_put (State.canonical_put ht _ _) _ _) _ _)

theorem State.canonical_storeAllowed (h : s.canonical = true) (e : EngIx) : (s.storeAllowed e).1.canonical = true := by
  unfold State.storeAllowed
  dsimp only
  split <;> exact State.canonical_congr h rfl rfl rfl rfl rfl

theorem State.canonical_writeMet (h : s.canonical = true) (r a : Nat) : (s.writeMet r a).1.canonical = true := by
  unfold State.writeMet
  repeat' split
  all_goals first | exact h | exact State.canonical_storeAllowed h _

theorem State.canonical_moveCheck (h : s.canonical = true) (ns : Bool) (r a : Nat) (wr : Bool) :
    (s.moveCheck ns r a wr).1.canonical = true := by
  unfold State.moveCheck
  repeat' split
  all_goals first | exact h | exact State.canonical_violation h _ _ _ | exact State.canonical_writeMet h _ _

theorem State.canonical_moveByte (h : s.canonical = true) (ns : Bool) (r a : Nat) (b : Byte) :
    (s.moveByte ns r a b).1.canonical = true := by
  have hc := State.canonical_moveCheck h ns r a true
  unfold State.moveByte
  split
  · next heq => simpa [heq] using hc
  · next heq =>
    rw [heq] at hc
    dsimp only
    split
    · exact State.canonical_spoilSlot hc a
    · exact State.canonical_storeByte hc false a b

theorem State.canonical_moveKeyWord (h : s.canonical = true) (ns : Bool) (r a : Nat) (bs : List Byte) :
    (s.moveKeyWord ns r a bs).1.canonical = true := by
  have hc := State.canonical_moveCheck h ns r a true
  unfold State.moveKeyWord
  split
  · next heq => simpa [heq] using hc
  · next heq =>
    rw [heq] at hc
    exact State.canonical_writeKeyWord hc a _

theorem State.canonical_moveBytes (h : s.canonical = true) (ns : Bool) (r a : Nat) (bs : List Byte) :
    (s.moveBytes ns r a bs).1.canonical = true := by
  have key : ∀ {s u : State} {a : Nat} {bs : List Byte} {x : Option AccErr}, s.moveKeyWord ns r a bs = (u, x) →
      s.canonical = true → u.canonical = true := by
    intro s u a bs x heq h
    simpa [heq] using State.canonical_moveKeyWord h ns r a bs
  have one : ∀ {s u : State} {a : Nat} {b : Byte} {x : Option AccErr}, s.moveByte ns r a b = (u, x) →
      s.canonical = true → u.canonical = true := by
    intro s u a b x heq h
    simpa [heq] using State.canonical_moveByte h ns r a b
  fun_induction State.moveBytes s ns r a bs with
  | case1 _ _ _ _ _ _ _ _ _ _ heq => exact key heq h
  | case2 _ _ _ _ _ _ _ _ _ heq ih => exact ih (key heq h)
  | case3 _ _ _ _ _ _ _ _ _ _ heq => exact one heq h
  | case4 _ _ _ _ _ _ _ _ _ heq ih => exact ih (one heq h)
  | case5 _ _ _ _ _ _ _ heq => exact one heq h
  | case6 _ _ _ _ _ _ heq ih => exact ih (one heq h)
  | case7 => exact h

theorem State.canonical_takeTurn (h : s.canonical = true) (r t : Nat) : (s.takeTurn r t).canonical = true := by
  unfold State.takeTurn
  split
  · exact h
  · split
    · dsimp only
      split <;> exact h
    · exact h

theorem State.canonical_moveWrite (h : s.canonical = true) (ns : Bool) (r a : Nat) (bs : List Byte) :
    (s.moveWrite ns r a bs).1.canonical = true := by
  have hc := State.canonical_moveBytes h ns r a bs
  unfold State.moveWrite
  split
  · next heq => simpa [heq] using hc
  · next heq =>
    rw [heq] at hc
    dsimp only
    split
    · exact hc
    · exact State.canonical_takeTurn hc r _

/-! ## What a store leaves alone -/

theorem State.byte_putBytes_other (s : State) {a x : Nat} (bs : List Byte) (h : x < a ∨ a + bs.length ≤ x) :
    (s.putBytes a bs).byte x = s.byte x := by
  induction bs generalizing s a with
  | nil => rfl
  | cons b t ih =>
    simp only [List.length_cons] at h
    rw [State.putBytes, ih _ (by omega), State.byte_putByte_other _ _ (by omega)]

@[simp] theorem State.byte_setReg (s : State) (k : Nat) (v : Word) (x : Nat) : (s.setReg k v).byte x = s.byte x := rfl
@[simp] theorem State.byte_put (s : State) (f : Fld) (n x : Nat) : (s.put f n).byte x = s.byte x := rfl

@[simp] theorem State.byte_markDirty (s : State) (i x : Nat) : (s.markDirty i).byte x = s.byte x := by
  unfold State.markDirty
  split <;> rfl

@[simp] theorem State.byte_markGroup (s : State) (load : Bool) (a x : Nat) : (s.markGroup load a).byte x = s.byte x := by
  unfold State.markGroup
  split <;> rfl

theorem State.byte_storeByte_other (s : State) {a x : Nat} (load : Bool) (b : Byte) (h : x ≠ a) :
    (s.storeByte load a b).byte x = s.byte x := by
  unfold State.storeByte
  split
  · rw [State.byte_markDirty]
    exact State.byte_putByte_other s b h
  · split
    · rw [State.byte_markGroup]
      exact State.byte_putByte_other s b h
    · exact State.byte_putByte_other s b h

theorem State.byte_storeByte_same (h : s.canonical = true) (load : Bool) (a : Nat) (b : Byte) :
    (s.storeByte load a b).byte a = b := by
  unfold State.storeByte
  split
  · rw [State.byte_markDirty]
    exact State.byte_putByte_same h a b
  · split
    · rw [State.byte_markGroup]
      exact State.byte_putByte_same h a b
    · exact State.byte_putByte_same h a b

theorem State.byte_storeBytes_other (s : State) {a x : Nat} (load : Bool) (bs : List Byte) (h : x < a ∨ a + bs.length ≤ x) :
    (s.storeBytes load a bs).byte x = s.byte x := by
  induction bs generalizing s a with
  | nil => rfl
  | cons b t ih =>
    simp only [List.length_cons] at h
    rw [State.storeBytes, ih _ (by omega), State.byte_storeByte_other _ _ _ (by omega)]

end Sys2Proof.Machine
end

