-- ==== Sys2Proof/Laws/Keeps.lean ====
section
/-! SUPPORT. What every operation keeps: the queue, and the canonical form of the sparse maps. One lemma for each operation, with the
state it acts on reached from `b0`. -/

namespace Sys2Proof.Machine

/-- `t` has the queue of `b0`, and the canonical form where `b0` has it. -/
structure Keeps (b0 t : State) : Prop where
  queue : t.pending = b0.pending
  canon : b0.canonical = true → t.canonical = true

variable {b0 s t : State}

theorem Keeps.refl (s : State) : Keeps s s := ⟨rfl, id⟩

theorem Keeps.trans (h : Keeps b0 s) (g : Keeps s t) : Keeps b0 t := ⟨g.queue.trans h.queue, fun c => g.canon (h.canon c)⟩

/-- A change of parts that are no sparse map. -/
theorem Keeps.upd {x_snaps : List Snap} {x_aonBuf : List (Nat × Word)} {x_data : Word} {x_err : Bool} {x_free : Nat} {x_lane :
    Vector Lane 96} {x_chain : Vector ChainSt 2} {x_ldpQueue : List CwJob} {x_ldp : Vector (Option DecJob) 8} {x_eng : Vector
    Eng 64} {x_wellLast : Vector (Fin 8) 8} {x_targetLast : Vector (Fin 15) 32} {x_arb : Nat} {x_inForce : Option (List (Nat ×
    Word))} {x_events : List EvFlight} {x_sfm : Sfm} {x_granules : Vector (List (Nat × Nat)) 16} {x_tx : Tx} {x_syn : Syn}
    {x_cip : Cip} {x_sph : Sph} {x_spi : Spi} {x_mgb : Mgb} {x_mac : Vector EthMac 2} {x_ptp : Ptp} {x_fdr : Fdr} {x_ctr :
    Ctr} {x_pulses : List Nat} {x_aonHigh : List Nat} {x_tmr : Vector Tmr 16} {x_rtcDst : Option Bool} {x_xtal : Option Bool}
    {x_trim : RtcTrim} {x_pwr : Pwr} {x_flc : Flc} {x_age : Age} {x_pins : Pins} : Keeps b0 ⟨s.pending, s.regs, s.act, s.cal,
    s.mem, x_snaps, x_aonBuf, x_data, x_err, x_free, x_lane, x_chain, x_ldpQueue, x_ldp, x_eng, x_wellLast, x_targetLast,
    x_arb, x_inForce, x_events, x_sfm, x_granules, x_tx, x_syn, x_cip, x_sph, x_spi, x_mgb, x_mac, x_ptp, x_fdr, x_ctr,
    x_pulses, x_aonHigh, x_tmr, x_rtcDst, x_xtal, x_trim, s.part, x_pwr, x_flc, x_age, x_pins⟩ ↔ Keeps b0 s :=
  ⟨fun h => ⟨h.queue, fun c => State.canonical_congr (h.canon c) rfl rfl rfl rfl rfl⟩,
    fun h => ⟨h.queue, fun c => State.canonical_congr (h.canon c) rfl rfl rfl rfl rfl⟩⟩

theorem Keeps.ite {c : Prop} [Decidable c] (h : c → Keeps b0 s) (g : ¬c → Keeps b0 t) : Keeps b0 (if c then s else t) := by
  split
  · exact h ‹_›
  · exact g ‹_›

theorem Keeps.ite_fst {α : Type} {c : Prop} [Decidable c] {p q : State × α} (h : c → Keeps b0 p.1) (g : ¬c → Keeps b0 q.1) :
    Keeps b0 (if c then p else q).1 := by
  split
  · exact h ‹_›
  · exact g ‹_›

theorem Keeps.of_fst {α : Type} {p : State × α} {x : α} (e : p = (t, x)) (h : Keeps b0 p.1) : Keeps b0 t := by
  rw [e] at h
  exact h

theorem Keeps.of_snd {α : Type} {p : α × State} {x : α} (e : p = (x, t)) (h : Keeps b0 p.2) : Keeps b0 t := by
  rw [e] at h
  exact h

theorem Keeps.foldl {α : Type} {f : State → α → State} {l : List α} (hf : ∀ t x, Keeps b0 t → Keeps b0 (f t x)) (h : Keeps b0 s) :
    Keeps b0 (l.foldl f s) := by
  induction l generalizing s with
  | nil => exact h
  | cons x l ih => exact ih (hf s x h)

theorem Keeps.foldl_fst {α β : Type} {f : State × β → α → State × β} {l : List α} {p : State × β}
    (hf : ∀ q x, Keeps b0 q.1 → Keeps b0 (f q x).1) (h : Keeps b0 p.1) : Keeps b0 (l.foldl f p).1 := by
  induction l generalizing p with
  | nil => exact h
  | cons x l ih => exact ih (hf p x h)

theorem Keeps.each {α : Type} {f : State → α → State} {l : List α} (hf : ∀ t x, Keeps b0 t → Keeps b0 (f t x)) (h : Keeps b0 s) :
    Keeps b0 (s.each l f) := Keeps.foldl hf h

theorem Keeps.setReg (h : Keeps b0 s) (k : Nat) (v : Word) : Keeps b0 (s.setReg k v) :=
  ⟨h.queue, fun c => State.canonical_setReg (h.canon c) k v⟩

theorem Keeps.setActive (h : Keeps b0 s) (k : Nat) (v : Word) : Keeps b0 (s.setActive k v) :=
  ⟨h.queue, fun c => State.canonical_setActive (h.canon c) k v⟩

theorem Keeps.putByte (h : Keeps b0 s) (a : Nat) (x : Byte) : Keeps b0 (s.putByte a x) :=
  ⟨h.queue, fun c => State.canonical_putByte (h.canon c) a x⟩

theorem Keeps.wipe (h : Keeps b0 s) (lo hi : Nat) : Keeps b0 (s.wipe lo hi) :=
  ⟨h.queue, fun c => State.canonical_wipe (h.canon c) lo hi⟩

theorem Keeps.markGroup (h : Keeps b0 s) (load : Bool) (a : Nat) : Keeps b0 (s.markGroup load a) :=
  ⟨by unfold State.markGroup; dsimp only; split <;> exact h.queue, fun c => State.canonical_markGroup (h.canon c) load a⟩

/-- Each part of the canonical form on its own. -/
theorem Keeps.of_parts (h : Keeps b0 s) (hq : t.pending = s.pending) (hm : Memory.wf s.mem = true → Memory.wf t.mem = true)
    (hr : AMap.wf resetVal s.regs = true → AMap.wf resetVal t.regs = true)
    (ha : AMap.wf resetVal s.act = true → AMap.wf resetVal t.act = true)
    (hc : AMap.wf resetVal s.cal = true → AMap.wf resetVal t.cal = true)
    (hp : AMap.wf (fun _ => 0) s.part = true → AMap.wf (fun _ => 0) t.part = true) : Keeps b0 t := by
  refine ⟨hq.trans h.queue, fun c => ?_⟩
  have g := h.canon c
  simp only [State.canonical, Bool.and_eq_true] at g ⊢
  exact ⟨⟨⟨⟨hm g.1.1.1.1, hr g.1.1.1.2⟩, ha g.1.1.2⟩, hc g.1.2⟩, hp g.2⟩

theorem State.keeps_keepRegs (h : Keeps b0 s) (keep : Nat → Bool) : Keeps b0 (s.keepRegs keep) := by
  refine ⟨h.queue, fun c => ?_⟩
  have hs := h.canon c
  simp only [State.canonical, Bool.and_eq_true] at hs ⊢
  exact ⟨⟨⟨⟨hs.1.1.1.1, AMap.wf_clear (fun k => !keep k) hs.1.1.1.2⟩, AMap.wf_clear (fun k => !keep k) hs.1.1.2⟩, hs.1.2⟩, hs.2⟩

theorem State.keeps_resetMain (h : Keeps b0 s) (keep : Nat → Bool) : Keeps b0 (s.resetMain keep) := by
  unfold State.resetMain
  dsimp only
  apply State.keeps_keepRegs
  refine ⟨h.queue, fun c => ?_⟩
  have hs := h.canon c
  simp only [State.canonical, Bool.and_eq_true] at hs ⊢
  exact ⟨⟨⟨⟨hs.1.1.1.1, hs.1.1.1.2⟩, rfl⟩, rfl⟩, hs.2⟩

theorem State.keeps_onlyViolation (h : Keeps b0 s) (t : State) : Keeps b0 (s.onlyViolation t) := by
  refine ⟨h.queue, fun c => ?_⟩
  have hs := h.canon c
  simp only [State.canonical, Bool.and_eq_true] at hs ⊢
  exact ⟨⟨⟨⟨hs.1.1.1.1, AMap.wf_put _ _ (AMap.wf_put _ _ hs.1.1.1.2)⟩, hs.1.1.2⟩, hs.1.2⟩, hs.2⟩

theorem State.keeps_putBytes (h : Keeps b0 s) (a : Nat) (bs : List Byte) : Keeps b0 (s.putBytes a bs) := by
  induction bs generalizing s a with
  | nil => exact h
  | cons x l ih => exact ih (Keeps.putByte h a x) (a + 1)

theorem State.keeps_record (h : Keeps b0 s) (valid ovf : Fld) (fill : State → State) (hf : ∀ t, Keeps b0 t → Keeps b0 (fill t)) :
    Keeps b0 (s.record valid ovf fill) := by
  unfold State.record
  split
  · exact Keeps.setReg h _ _
  · exact Keeps.setReg (hf s h) _ _

theorem State.keeps_loadCal_words (s : State) (l : List (Nat × Nat)) (m : List (Nat × Word)) (h : AMap.wf resetVal m = true) :
    AMap.wf resetVal (l.foldl (fun m x => AMap.put resetVal m x.2 (mergeBits (keptMask x.2) (resetVal x.2) (s.calWord x.1))) m) =
      true := by
  induction l generalizing m with
  | nil => exact h
  | cons x l ih => exact ih _ (AMap.wf_put _ _ h)

theorem State.keeps_cal (h : Keeps b0 s) (c : List (Nat × Word)) (hc : AMap.wf resetVal c = true) :
    Keeps b0 { s with cal := c } := by
  refine ⟨h.queue, fun d => ?_⟩
  have hs := h.canon d
  simp only [State.canonical, Bool.and_eq_true] at hs ⊢
  exact ⟨⟨⟨hs.1.1.1, hs.1.1.2⟩, hc⟩, hs.2⟩

theorem State.keeps_noGroups (h : Keeps b0 s) : Keeps b0 { s with part := [] } := by
  refine ⟨h.queue, fun d => ?_⟩
  have hs := h.canon d
  simp only [State.canonical, Bool.and_eq_true] at hs ⊢
  exact ⟨hs.1, rfl⟩

theorem State.keeps_draw (h : Keeps b0 s) (w : Nat) :
    Keeps b0 (State.draw s w).2 := by
  unfold State.draw
  try dsimp only
  repeat'
    first
      | with_reducible
          first
            | assumption
      | simp only [Keeps.upd]

theorem State.keeps_reachedUnit (h : Keeps b0 s) (o : FlcOp) :
    Keeps b0 (State.reachedUnit s o).2 := by
  unfold State.reachedUnit
  try dsimp only
  repeat'
    with_reducible
      first
        | assumption | apply State.keeps_draw

theorem State.keeps_mean (h : Keeps b0 s) (sum : Int) (n : Nat) :
    Keeps b0 (State.mean s sum n).2 := by
  unfold State.mean
  try dsimp only
  repeat'
    first
      | with_reducible
          first
            | assumption | apply State.keeps_draw | apply Keeps.ite
      | intro _ | split

theorem State.keeps_put (h : Keeps b0 s) (f : Fld) (n : Nat) :
    Keeps b0 (State.put s f n) := by
  unfold State.put
  try dsimp only
  repeat'
    with_reducible
      first
        | assumption | apply Keeps.setReg

theorem State.keeps_notePulses (h : Keeps b0 s) (units : Nat) (pulses : Nat) :
    Keeps b0 (State.notePulses s units pulses) := by
  unfold State.notePulses
  try dsimp only
  repeat'
    first
      | with_reducible
          first
            | assumption | apply State.keeps_mean | apply State.keeps_put
      | simp only [Keeps.upd]

theorem State.keeps_dropEcc (h : Keeps b0 s) (a : Nat) (n : Nat) :
    Keeps b0 (State.dropEcc s a n) := by
  unfold State.dropEcc
  try dsimp only
  repeat'
    first
      | with_reducible
          first
            | assumption
      | simp only [Keeps.upd]

theorem State.keeps_writeUnit (h : Keeps b0 s) (a : Nat) (bs : List Byte) :
    Keeps b0 (State.writeUnit s a bs) := by
  unfold State.writeUnit
  try dsimp only
  repeat'
    with_reducible
      first
        | assumption | apply State.keeps_putBytes | apply State.keeps_dropEcc

theorem State.keeps_scramble (h : Keeps b0 s) (a : Nat) (n : Nat) :
    Keeps b0 (State.scramble s a n) := by
  unfold State.scramble
  try dsimp only
  repeat'
    first
      | with_reducible
          first
            | assumption | apply State.keeps_putBytes
      | simp only [Keeps.upd]

theorem State.keeps_setBit (h : Keeps b0 s) (k : Nat) (i : Nat) (b : Bool) :
    Keeps b0 (State.setBit s k i b) := by
  unfold State.setBit
  try dsimp only
  repeat'
    with_reducible
      first
        | assumption | apply Keeps.setReg

theorem State.keeps_setProtected (h : Keeps b0 s) (a : Nat) (b : Bool) :
    Keeps b0 (State.setProtected s a b) := by
  unfold State.setProtected
  try dsimp only
  repeat'
    with_reducible
      first
        | assumption | apply State.keeps_setBit

theorem State.keeps_abandonedState (h : Keeps b0 s) (o : FlcOp) :
    Keeps b0 (State.abandonedState s o).1 := by
  unfold State.abandonedState
  try dsimp only
  repeat'
    first
      | with_reducible
          first
            | assumption | apply State.keeps_reachedUnit | apply State.keeps_draw | apply State.keeps_notePulses
            | apply Keeps.each | apply State.keeps_writeUnit | apply State.keeps_scramble | apply State.keeps_setProtected
            | apply Keeps.ite | apply Keeps.ite_fst | refine Keeps.of_snd ‹_ = _› ?_
      | simp only [Keeps.upd] | intro _ | split

theorem State.keeps_lower (h : Keeps b0 s) (f : Fld) :
    Keeps b0 (State.lower s f) := by
  unfold State.lower
  try dsimp only
  repeat'
    with_reducible
      first
        | assumption | apply State.keeps_put

theorem State.keeps_raise (h : Keeps b0 s) (f : Fld) :
    Keeps b0 (State.raise s f) := by
  unfold State.raise
  try dsimp only
  repeat'
    with_reducible
      first
        | assumption | apply State.keeps_put

theorem State.keeps_abandonFlash (h : Keeps b0 s) (cause : Nat) :
    Keeps b0 (State.abandonFlash s cause) := by
  unfold State.abandonFlash
  try dsimp only
  repeat'
    first
      | with_reducible
          first
            | assumption | apply State.keeps_abandonedState | apply State.keeps_lower | apply State.keeps_record
            | apply State.keeps_put | refine Keeps.of_fst ‹_ = _› ?_
      | simp only [Keeps.upd] | intro _ | split

theorem State.keeps_bumpBy (h : Keeps b0 s) (f : Fld) (n : Nat) :
    Keeps b0 (State.bumpBy s f n) := by
  unfold State.bumpBy
  try dsimp only
  repeat'
    with_reducible
      first
        | assumption | apply State.keeps_put

theorem State.keeps_bump (h : Keeps b0 s) (f : Fld) :
    Keeps b0 (State.bump s f) := by
  unfold State.bump
  try dsimp only
  repeat'
    with_reducible
      first
        | assumption | apply State.keeps_bumpBy

theorem State.keeps_dropCodewords (h : Keeps b0 s) (n : LaneIx) :
    Keeps b0 (State.dropCodewords s n) := by
  unfold State.dropCodewords
  try dsimp only
  repeat'
    first
      | with_reducible
          first
            | assumption | apply Keeps.ite
      | simp only [Keeps.upd]

theorem State.keeps_setLane (h : Keeps b0 s) (n : LaneIx) (l : Lane) :
    Keeps b0 (State.setLane s n l) := by
  unfold State.setLane
  try dsimp only
  repeat'
    first
      | with_reducible
          first
            | assumption
      | simp only [Keeps.upd]

theorem State.keeps_abortFrame (h : Keeps b0 s) (n : LaneIx) (st : LaneState) :
    Keeps b0 (State.abortFrame s n st) := by
  unfold State.abortFrame
  try dsimp only
  repeat'
    with_reducible
      first
        | assumption | apply State.keeps_bump | apply State.keeps_dropCodewords | apply State.keeps_setLane

theorem State.keeps_putB (h : Keeps b0 s) (f : Fld) (b : Bool) :
    Keeps b0 (State.putB s f b) := by
  unfold State.putB
  try dsimp only
  repeat'
    with_reducible
      first
        | assumption | apply State.keeps_put

theorem State.keeps_violation (h : Keeps b0 s) (a : Nat) (wr : Bool) (r : Nat) :
    Keeps b0 (State.violation s a wr r) := by
  unfold State.violation
  try dsimp only
  repeat'
    first
      | with_reducible
          first
            | assumption | apply State.keeps_record | apply State.keeps_put | apply State.keeps_putB
      | intro _

theorem State.keeps_setEng (h : Keeps b0 s) (e : EngIx) (g : Eng) :
    Keeps b0 (State.setEng s e g) := by
  unfold State.setEng
  try dsimp only
  repeat'
    first
      | with_reducible
          first
            | assumption
      | simp only [Keeps.upd]

theorem State.keeps_storeAllowed (h : Keeps b0 s) (e : EngIx) :
    Keeps b0 (State.storeAllowed s e).1 := by
  unfold State.storeAllowed
  try dsimp only
  repeat'
    first
      | with_reducible
          first
            | assumption | apply State.keeps_setEng | apply Keeps.ite | apply Keeps.ite_fst
      | intro _

theorem State.keeps_writeMet (h : Keeps b0 s) (r : Nat) (a : Nat) :
    Keeps b0 (State.writeMet s r a).1 := by
  unfold State.writeMet
  try dsimp only
  repeat'
    first
      | with_reducible
          first
            | assumption | apply State.keeps_storeAllowed | apply Keeps.ite | apply Keeps.ite_fst
            | refine Keeps.of_fst ‹_ = _› ?_
      | intro _ | split

theorem State.keeps_moveCheck (h : Keeps b0 s) (ns : Bool) (r : Nat) (a : Nat) (wr : Bool) :
    Keeps b0 (State.moveCheck s ns r a wr).1 := by
  unfold State.moveCheck
  try dsimp only
  repeat'
    first
      | with_reducible
          first
            | assumption | apply State.keeps_violation | apply State.keeps_writeMet | apply Keeps.ite | apply Keeps.ite_fst
            | refine Keeps.of_fst ‹_ = _› ?_
      | intro _ | split

theorem State.keeps_dropSlotKeys (h : Keeps b0 s) (k : Nat) :
    Keeps b0 (State.dropSlotKeys s k) := by
  unfold State.dropSlotKeys
  try dsimp only
  repeat'
    first
      | with_reducible
          first
            | assumption
      | simp only [Keeps.upd]

theorem State.keeps_writeKeyWord (h : Keeps b0 s) (a : Nat) (v : Word) :
    Keeps b0 (State.writeKeyWord s a v) := by
  unfold State.writeKeyWord
  try dsimp only
  repeat'
    first
      | with_reducible
          first
            | assumption | apply State.keeps_putBytes | apply State.keeps_setBit | apply State.keeps_dropSlotKeys
            | apply Keeps.ite
      | intro _

theorem State.keeps_moveKeyWord (h : Keeps b0 s) (ns : Bool) (r : Nat) (a : Nat) (bs : List Byte) :
    Keeps b0 (State.moveKeyWord s ns r a bs).1 := by
  unfold State.moveKeyWord
  try dsimp only
  repeat'
    first
      | with_reducible
          first
            | assumption | apply State.keeps_moveCheck | apply State.keeps_writeKeyWord | refine Keeps.of_fst ‹_ = _› ?_
      | split

theorem State.keeps_spoilSlot (h : Keeps b0 s) (a : Nat) :
    Keeps b0 (State.spoilSlot s a) := by
  unfold State.spoilSlot
  try dsimp only
  repeat'
    with_reducible
      first
        | assumption | apply State.keeps_setBit

theorem State.keeps_markDirty (h : Keeps b0 s) (i : Nat) :
    Keeps b0 (State.markDirty s i) := by
  unfold State.markDirty
  try dsimp only
  repeat'
    first
      | with_reducible
          first
            | assumption | apply Keeps.ite
      | simp only [Keeps.upd] | intro _

theorem State.keeps_pokeEntry (h : Keeps b0 s) (i : Nat) (a : Nat) (bs : List Byte) :
    Keeps b0 (State.pokeEntry s i a bs) := by
  unfold State.pokeEntry
  try dsimp only
  repeat'
    with_reducible
      first
        | assumption | apply State.keeps_putBytes | apply Keeps.setReg

theorem State.keeps_storeByte (h : Keeps b0 s) (load : Bool) (a : Nat) (b : Byte) :
    Keeps b0 (State.storeByte s load a b) := by
  unfold State.storeByte
  try dsimp only
  repeat'
    first
      | with_reducible
          first
            | assumption | apply State.keeps_markDirty | apply State.keeps_pokeEntry | apply Keeps.markGroup
            | apply Keeps.putByte | apply Keeps.ite
      | intro _

theorem State.keeps_moveByte (h : Keeps b0 s) (ns : Bool) (r : Nat) (a : Nat) (b : Byte) :
    Keeps b0 (State.moveByte s ns r a b).1 := by
  unfold State.moveByte
  try dsimp only
  repeat'
    first
      | with_reducible
          first
            | assumption | apply State.keeps_moveCheck | apply State.keeps_spoilSlot | apply State.keeps_storeByte
            | apply Keeps.ite | apply Keeps.ite_fst | refine Keeps.of_fst ‹_ = _› ?_
      | intro _ | split

theorem State.keeps_moveBytes (h : Keeps b0 s) (ns : Bool) (r : Nat) (x3 : Nat) (x4 : List Byte) :
    Keeps b0 (State.moveBytes s ns r x3 x4).1 := by
  have key : ∀ {s u : State} {a : Nat} {bs : List Byte} {x : Option AccErr}, s.moveKeyWord ns r a bs = (u, x) → Keeps b0 s →
      Keeps b0 u := fun e h => Keeps.of_fst e (State.keeps_moveKeyWord h ns r _ _)
  have one : ∀ {s u : State} {a : Nat} {b : Byte} {x : Option AccErr}, s.moveByte ns r a b = (u, x) → Keeps b0 s → Keeps b0 u :=
    fun e h => Keeps.of_fst e (State.keeps_moveByte h ns r _ _)
  fun_induction State.moveBytes s ns r x3 x4 with
  | case1 _ _ _ _ _ _ _ _ _ _ heq => exact key heq h
  | case2 _ _ _ _ _ _ _ _ _ heq ih => exact ih (key heq h)
  | case3 _ _ _ _ _ _ _ _ _ _ heq => exact one heq h
  | case4 _ _ _ _ _ _ _ _ _ heq ih => exact ih (one heq h)
  | case5 _ _ _ _ _ _ _ heq => exact one heq h
  | case6 _ _ _ _ _ _ heq ih => exact ih (one heq h)
  | case7 => exact h

theorem State.keeps_takeTurn (h : Keeps b0 s) (r : Nat) (t : Nat) :
    Keeps b0 (State.takeTurn s r t) := by
  unfold State.takeTurn
  try dsimp only
  repeat'
    first
      | with_reducible
          first
            | assumption | apply Keeps.ite
      | simp only [Keeps.upd] | intro _ | split

theorem State.keeps_moveWrite (h : Keeps b0 s) (ns : Bool) (r : Nat) (a : Nat) (bs : List Byte) :
    Keeps b0 (State.moveWrite s ns r a bs).1 := by
  unfold State.moveWrite
  try dsimp only
  repeat'
    first
      | with_reducible
          first
            | assumption | apply State.keeps_moveBytes | apply State.keeps_takeTurn | apply Keeps.ite | apply Keeps.ite_fst
            | refine Keeps.of_fst ‹_ = _› ?_
      | intro _ | split

theorem State.keeps_fire (h : Keeps b0 s) (prod : Nat) (ch : Nat) :
    Keeps b0 (State.fire s prod ch) := by
  unfold State.fire
  try dsimp only
  repeat'
    first
      | with_reducible
          first
            | assumption
      | simp only [Keeps.upd]

theorem State.keeps_writeRecord (h : Keeps b0 s) (d : JobDesc) (x : JobEnd) :
    Keeps b0 (State.writeRecord s d x).1 := by
  unfold State.writeRecord
  try dsimp only
  repeat'
    first
      | with_reducible
          first
            | assumption | apply State.keeps_moveWrite | apply State.keeps_raise | apply State.keeps_fire | apply Keeps.ite
            | apply Keeps.ite_fst | refine Keeps.of_fst ‹_ = _› ?_
      | intro _ | split

theorem State.keeps_unstartedRecord (h : Keeps b0 s) (d : JobDesc) (status : Nat) :
    Keeps b0 (State.unstartedRecord s d status) := by
  unfold State.unstartedRecord
  try dsimp only
  repeat'
    first
      | with_reducible
          first
            | assumption | apply State.keeps_writeRecord


theorem State.keeps_setCore (h : Keeps b0 s) (c : Fin 8) (x : Option CoreRun) :
    Keeps b0 (State.setCore s c x) := by
  unfold State.setCore
  try dsimp only
  repeat'
    first
      | with_reducible
          first
            | assumption
      | simp only [Keeps.upd]

theorem State.keeps_zeroOut (h : Keeps b0 s) (d : JobDesc) (n : Nat) :
    Keeps b0 (State.zeroOut s d n) := by
  unfold State.zeroOut
  try dsimp only
  repeat'
    first
      | with_reducible
          first
            | assumption | apply State.keeps_moveWrite | apply Keeps.ite
      | intro _

theorem State.keeps_releaseCore (h : Keeps b0 s) (c : Fin 8) :
    Keeps b0 (State.releaseCore s c) := by
  unfold State.releaseCore
  try dsimp only
  repeat'
    first
      | with_reducible
          first
            | assumption | apply State.keeps_writeRecord | apply State.keeps_setCore | apply State.keeps_zeroOut
            | apply Keeps.ite | refine Keeps.of_fst ‹_ = _› ?_
      | intro _ | split

theorem State.keeps_finishCore (h : Keeps b0 s) (c : Fin 8) (run : CoreRun) (status : Nat) (n : Nat) :
    Keeps b0 (State.finishCore s c run status n) := by
  unfold State.finishCore
  try dsimp only
  repeat'
    with_reducible
      first
        | assumption | apply State.keeps_releaseCore | apply State.keeps_setCore

theorem State.keeps_abortJobs (h : Keeps b0 s) (e : Nat) :
    Keeps b0 (State.abortJobs s e) := by
  unfold State.abortJobs
  try dsimp only
  repeat'
    first
      | with_reducible
          first
            | assumption | apply Keeps.each | apply State.keeps_unstartedRecord | apply State.keeps_finishCore
            | apply State.keeps_zeroOut | apply Keeps.ite
      | simp only [Keeps.upd] | intro _ | split

theorem State.keeps_storeBytes (h : Keeps b0 s) (load : Bool) (x2 : Nat) (x3 : List Byte) :
    Keeps b0 (State.storeBytes s load x2 x3) := by
  induction x3 generalizing s x2 with
  | nil => exact h
  | cons x l ih => exact ih (State.keeps_storeByte h load x2 x) (x2 + 1)

theorem State.keeps_storePlace (h : Keeps b0 s) (r : Nat) (a : Nat) (n : Nat) (v : Nat) :
    Keeps b0 (State.storePlace s r a n v).1 := by
  unfold State.storePlace
  try dsimp only
  repeat'
    first
      | with_reducible
          first
            | assumption | apply State.keeps_writeKeyWord | apply State.keeps_spoilSlot | apply State.keeps_writeMet
            | apply State.keeps_storeBytes | apply Keeps.ite | apply Keeps.ite_fst | refine Keeps.of_fst ‹_ = _› ?_
      | intro _ | split

theorem State.keeps_log (h : Keeps b0 s) (code : Nat) (detail : Nat) :
    Keeps b0 (State.log s code detail) := by
  unfold State.log
  try dsimp only
  repeat'
    first
      | with_reducible
          first
            | assumption | apply State.keeps_bump | apply Keeps.ite
      | simp only [Keeps.upd] | intro _

theorem State.keeps_eccRead (h : Keeps b0 s) (a : Nat) :
    Keeps b0 (State.eccRead s a).1 := by
  unfold State.eccRead
  try dsimp only
  repeat'
    first
      | with_reducible
          first
            | assumption | apply State.keeps_put | apply State.keeps_bump | apply State.keeps_log
      | split

theorem State.keeps_seenBytes (h : Keeps b0 s) (a : Nat) (n : Nat) :
    Keeps b0 (State.seenBytes s a n).1 := by
  unfold State.seenBytes
  try dsimp only
  repeat'
    first
      | with_reducible
          first
            | assumption | apply Keeps.ite | apply Keeps.ite_fst
      | simp only [Keeps.upd] | intro _

theorem State.keeps_loadPlace (h : Keeps b0 s) (a : Nat) (n : Nat) :
    Keeps b0 (State.loadPlace s a n).1 := by
  unfold State.loadPlace
  try dsimp only
  repeat'
    first
      | with_reducible
          first
            | assumption | apply State.keeps_eccRead | apply State.keeps_seenBytes | apply Keeps.ite | apply Keeps.ite_fst
            | refine Keeps.of_fst ‹_ = _› ?_
      | intro _ | split

theorem State.keeps_writeLocal (h : Keeps b0 s) (e : EngIx) (n : Nat) (v : Word24) :
    Keeps b0 (State.writeLocal s e n v) := by
  unfold State.writeLocal
  try dsimp only
  repeat'
    with_reducible
      first
        | assumption | apply State.keeps_storeBytes

theorem State.keeps_readLocal (h : Keeps b0 s) (e : EngIx) (n : Nat) :
    Keeps b0 (State.readLocal s e n).1 := by
  unfold State.readLocal
  try dsimp only
  repeat'
    first
      | with_reducible
          first
            | assumption | apply State.keeps_draw | apply Keeps.ite | apply Keeps.ite_fst
      | intro _

theorem State.keeps_movedWord (h : Keeps b0 s) (e : EngIx) (x : Access) :
    Keeps b0 (State.movedWord s e x) := by
  unfold State.movedWord
  try dsimp only
  repeat'
    first
      | with_reducible
          first
            | assumption | apply State.keeps_loadPlace | apply State.keeps_writeLocal | apply State.keeps_readLocal
            | apply State.keeps_storePlace | refine Keeps.of_fst ‹_ = _› ?_
      | split

theorem State.keeps_acceptedWrite (h : Keeps b0 s) (e : EngIx) (x : Access) :
    Keeps b0 (State.acceptedWrite s e x) := by
  unfold State.acceptedWrite
  try dsimp only
  repeat'
    first
      | with_reducible
          first
            | assumption | apply State.keeps_storePlace | apply State.keeps_movedWord | apply Keeps.ite
            | refine Keeps.of_fst ‹_ = _› ?_
      | intro _ | split

theorem State.keeps_acquire (h : Keeps b0 s) (r : Nat) (k : Nat) :
    Keeps b0 (State.acquire s r k).1 := by
  unfold State.acquire
  try dsimp only
  repeat'
    first
      | with_reducible
          first
            | assumption | apply State.keeps_violation | apply State.keeps_put | apply State.keeps_raise | apply Keeps.setReg
            | apply Keeps.ite | apply Keeps.ite_fst
      | intro _

theorem State.keeps_activate (h : Keeps b0 s) (ns : Bool) :
    Keeps b0 (State.activate s ns) := by
  unfold State.activate
  try dsimp only
  repeat'
    first
      | with_reducible
          first
            | assumption | apply Keeps.each | apply Keeps.setActive
      | intro _

theorem State.keeps_addCredits (h : Keeps b0 s) :
    Keeps b0 (State.addCredits s) := by
  unfold State.addCredits
  try dsimp only
  repeat'
    first
      | with_reducible
          first
            | assumption | apply Keeps.each | apply State.keeps_put | apply Keeps.ite
      | intro _

theorem State.keeps_addPending (h : Keeps b0 s) (desc : Nat) (index : Nat) (mode : Nat) :
    Keeps b0 (State.addPending s desc index mode) := by
  unfold State.addPending
  try dsimp only
  repeat'
    first
      | with_reducible
          first
            | assumption
      | simp only [Keeps.upd]

theorem State.keeps_adjust (h : Keeps b0 s) (shift : Int) :
    Keeps b0 (State.adjust s shift) := by
  unfold State.adjust
  try dsimp only
  repeat'
    first
      | with_reducible
          first
            | assumption | apply Keeps.ite
      | simp only [Keeps.upd] | intro _

theorem State.keeps_adoptLaunch (h : Keeps b0 s) (off : Nat) (x : MirrorRec) :
    Keeps b0 (State.adoptLaunch s off x) := by
  unfold State.adoptLaunch
  try dsimp only
  repeat'
    first
      | with_reducible
          first
            | assumption | apply Keeps.ite
      | simp only [Keeps.upd] | intro _

theorem State.keeps_setRun (h : Keeps b0 s) (b : Bool) :
    Keeps b0 (State.setRun s b) := by
  unfold State.setRun
  try dsimp only
  repeat'
    first
      | with_reducible
          first
            | assumption | apply State.keeps_putB | apply Keeps.ite
      | simp only [Keeps.upd]

theorem State.keeps_sumBucket (h : Keeps b0 s) (n : Fin 16) (g : Nat) :
    Keeps b0 (State.sumBucket s n g) := by
  unfold State.sumBucket
  try dsimp only
  repeat'
    first
      | with_reducible
          first
            | assumption | apply State.keeps_put


theorem State.keeps_applyAcct (h : Keeps b0 s) (r : AcctRec) :
    Keeps b0 (State.applyAcct s r) := by
  unfold State.applyAcct
  try dsimp only
  repeat'
    first
      | with_reducible
          first
            | assumption | apply State.keeps_put | apply State.keeps_sumBucket | apply Keeps.ite
      | simp only [Keeps.upd] | intro _ | split

theorem State.keeps_applyHeld (h : Keeps b0 s) :
    Keeps b0 (State.applyHeld s) := by
  unfold State.applyHeld
  try dsimp only
  repeat'
    first
      | with_reducible
          first
            | assumption | apply Keeps.each | apply State.keeps_applyAcct
      | simp only [Keeps.upd] | intro _

theorem State.keeps_moveWindows (h : Keeps b0 s) :
    Keeps b0 (State.moveWindows s) := by
  unfold State.moveWindows
  try dsimp only
  repeat'
    first
      | with_reducible
          first
            | assumption | apply Keeps.each | apply State.keeps_sumBucket
      | simp only [Keeps.upd] | intro _

theorem State.keeps_shiftTimes (h : Keeps b0 s) (d : Int) :
    Keeps b0 (State.shiftTimes s d) := by
  unfold State.shiftTimes
  try dsimp only
  repeat'
    first
      | with_reducible
          first
            | assumption
      | simp only [Keeps.upd]

theorem State.keeps_adoptTime (h : Keeps b0 s) (b : BeatBody) :
    Keeps b0 (State.adoptTime s b) := by
  unfold State.adoptTime
  try dsimp only
  repeat'
    first
      | with_reducible
          first
            | assumption | apply State.keeps_setRun | apply State.keeps_applyHeld | apply State.keeps_moveWindows
            | apply State.keeps_shiftTimes | apply Keeps.ite
      | simp only [Keeps.upd] | intro _

theorem State.keeps_startIssue (h : Keeps b0 s) (e : EngIx) :
    Keeps b0 (State.startIssue s e) := by
  unfold State.startIssue
  try dsimp only
  repeat'
    first
      | with_reducible
          first
            | assumption | apply State.keeps_setEng


theorem State.keeps_afterIssue (h : Keeps b0 s) (e : EngIx) (f : Eng → Eng) :
    Keeps b0 (State.afterIssue s e f) := by
  unfold State.afterIssue
  try dsimp only
  repeat'
    with_reducible
      first
        | assumption | apply State.keeps_setEng | apply State.keeps_startIssue

theorem State.keeps_setPoint (h : Keeps b0 s) (c : CorePoint) :
    Keeps b0 (State.setPoint s c) := by
  unfold State.setPoint
  try dsimp only
  repeat'
    first
      | with_reducible
          first
            | assumption
      | simp only [Keeps.upd]

theorem State.keeps_beginPoint (h : Keeps b0 s) (r : PwrReq) :
    Keeps b0 (State.beginPoint s r) := by
  unfold State.beginPoint
  try dsimp only
  repeat'
    first
      | with_reducible
          first
            | assumption | apply State.keeps_setPoint | apply Keeps.ite
      | intro _

theorem State.keeps_runBit (h : Keeps b0 s) (b : Bool) :
    Keeps b0 (State.runBit s b) := by
  unfold State.runBit
  try dsimp only
  repeat'
    first
      | with_reducible
          first
            | assumption | apply State.keeps_setRun | apply Keeps.ite
      | simp only [Keeps.upd] | intro _

theorem State.keeps_beginTransition (h : Keeps b0 s) (r : PwrReq) :
    Keeps b0 (State.beginTransition s r) := by
  unfold State.beginTransition
  try dsimp only
  repeat'
    first
      | with_reducible
          first
            | assumption | apply State.keeps_beginPoint | apply State.keeps_putB | apply State.keeps_raise
            | apply State.keeps_runBit | apply Keeps.ite
      | simp only [Keeps.upd] | intro _

theorem State.keeps_startRequest (h : Keeps b0 s) (r : PwrReq) :
    Keeps b0 (State.startRequest s r) := by
  unfold State.startRequest
  try dsimp only
  repeat'
    first
      | with_reducible
          first
            | assumption | apply State.keeps_beginTransition | apply State.keeps_raise | apply Keeps.ite
      | intro _

theorem State.keeps_prime (h : Keeps b0 s) (incarn : BitVec 16) (keepCst : Bool) (keepScr : Bool) :
    Keeps b0 (State.prime s incarn keepCst keepScr) := by
  unfold State.prime
  try dsimp only
  repeat'
    first
      | with_reducible
          first
            | assumption | apply State.keeps_put | apply State.keeps_log | apply Keeps.ite
      | simp only [Keeps.upd] | intro _

theorem State.keeps_clearPower (h : Keeps b0 s) :
    Keeps b0 (State.clearPower s) := by
  unfold State.clearPower
  try dsimp only
  repeat'
    first
      | with_reducible
          first
            | assumption
      | simp only [Keeps.upd]

theorem State.keeps_clearAddress (h : Keeps b0 s) :
    Keeps b0 (State.clearAddress s) := by
  unfold State.clearAddress
  try dsimp only
  repeat'
    first
      | with_reducible
          first
            | assumption | apply State.keeps_lower | apply State.keeps_put | apply State.keeps_raise
      | simp only [Keeps.upd]

theorem State.keeps_primeFromSleep (h : Keeps b0 s) (incarn : BitVec 16) :
    Keeps b0 (State.primeFromSleep s incarn) := by
  unfold State.primeFromSleep
  try dsimp only
  repeat'
    first
      | with_reducible
          first
            | assumption | apply State.keeps_raise | apply State.keeps_prime | apply State.keeps_clearPower
            | apply State.keeps_clearAddress | apply State.keeps_resetMain | apply Keeps.ite
      | intro _

theorem State.keeps_pulse (h : Keeps b0 s) (n : Nat) :
    Keeps b0 (State.pulse s n) := by
  unfold State.pulse
  try dsimp only
  repeat'
    first
      | with_reducible
          first
            | assumption
      | simp only [Keeps.upd]

theorem State.keeps_afterPowerOff (h : Keeps b0 s) (held : Option PwrReq) :
    Keeps b0 (State.afterPowerOff s held) := by
  unfold State.afterPowerOff
  try dsimp only
  repeat'
    first
      | with_reducible
          first
            | assumption | apply State.keeps_draw | apply State.keeps_startRequest | apply State.keeps_primeFromSleep
            | apply State.keeps_pulse | apply Keeps.ite | refine Keeps.of_snd ‹_ = _› ?_
      | intro _ | split

theorem State.keeps_toSearch (h : Keeps b0 s) (n : LaneIx) :
    Keeps b0 (State.toSearch s n) := by
  unfold State.toSearch
  try dsimp only
  repeat'
    first
      | with_reducible
          first
            | assumption | apply State.keeps_setLane


theorem State.keeps_reconcileLane (h : Keeps b0 s) (n : LaneIx) :
    Keeps b0 (State.reconcileLane s n) := by
  unfold State.reconcileLane
  try dsimp only
  repeat'
    first
      | with_reducible
          first
            | assumption | apply State.keeps_toSearch | apply State.keeps_abortFrame | apply State.keeps_setLane
            | apply Keeps.ite
      | intro _ | split

theorem State.keeps_reconcile (h : Keeps b0 s) :
    Keeps b0 (State.reconcile s) := by
  unfold State.reconcile
  try dsimp only
  repeat'
    first
      | with_reducible
          first
            | assumption | apply Keeps.each | apply State.keeps_reconcileLane
      | intro _

theorem State.keeps_setChain (h : Keeps b0 s) (c : Chain) (x : ChainSt) :
    Keeps b0 (State.setChain s c x) := by
  unfold State.setChain
  try dsimp only
  repeat'
    first
      | with_reducible
          first
            | assumption
      | simp only [Keeps.upd] | split

theorem State.keeps_stopWindows (h : Keeps b0 s) (c : Chain) :
    Keeps b0 (State.stopWindows s c) := by
  unfold State.stopWindows
  try dsimp only
  repeat'
    first
      | with_reducible
          first
            | assumption | apply Keeps.each | apply State.keeps_setChain | apply State.keeps_setLane
      | intro _

theorem State.keeps_blankChain (h : Keeps b0 s) (c : Chain) :
    Keeps b0 (State.blankChain s c) := by
  unfold State.blankChain
  try dsimp only
  repeat'
    first
      | with_reducible
          first
            | assumption | apply State.keeps_reconcile | apply State.keeps_stopWindows | apply State.keeps_raise
            | apply Keeps.each | apply State.keeps_setLane | apply Keeps.ite
      | intro _

theorem State.keeps_blankAgain (h : Keeps b0 s) :
    Keeps b0 (State.blankAgain s) := by
  unfold State.blankAgain
  try dsimp only
  repeat'
    first
      | with_reducible
          first
            | assumption | apply State.keeps_blankChain
      | split

theorem State.keeps_startClear (h : Keeps b0 s) :
    Keeps b0 (State.startClear s) := by
  unfold State.startClear
  try dsimp only
  repeat'
    with_reducible
      first
        | assumption | apply State.keeps_setBit | apply State.keeps_raise

theorem State.keeps_watchRequests (h : Keeps b0 s) :
    Keeps b0 (State.watchRequests s) := by
  unfold State.watchRequests
  try dsimp only
  repeat'
    first
      | with_reducible
          first
            | assumption
      | simp only [Keeps.upd]

theorem State.keeps_afterReset {old : State} (h : Keeps b0 s) (i : Nat) :
    Keeps b0 (State.afterReset s old i) := by
  unfold State.afterReset
  try dsimp only
  repeat'
    first
      | with_reducible
          first
            | assumption | apply State.keeps_reconcile | apply State.keeps_blankAgain | apply State.keeps_startClear
            | apply State.keeps_watchRequests | apply State.keeps_put | apply State.keeps_putB
      | split

theorem State.keeps_portError (h : Keeps b0 s) (r : Nat) (a : Nat) :
    Keeps b0 (State.portError s r a) := by
  unfold State.portError
  try dsimp only
  repeat'
    first
      | with_reducible
          first
            | assumption | apply State.keeps_put | apply State.keeps_raise | apply Keeps.ite
      | simp only [Keeps.upd] | intro _

theorem State.keeps_answerRead {x : State × Except AccErr Nat} (h : Keeps b0 x.1) (r a : Nat) :
    Keeps b0 (State.answerRead x r a) := by
  unfold State.answerRead
  try dsimp only
  repeat'
    first
      | with_reducible
          first
            | assumption | apply State.keeps_portError
      | simp only [Keeps.upd] | split

theorem State.keeps_answerWrite {x : State × Option AccErr} (h : Keeps b0 x.1) (r a : Nat) :
    Keeps b0 (State.answerWrite x r a) := by
  unfold State.answerWrite
  try dsimp only
  repeat'
    first
      | with_reducible
          first
            | assumption | apply State.keeps_portError
      | simp only [Keeps.upd] | split

theorem State.keeps_answered (h : Keeps b0 s) (v : Word) :
    Keeps b0 (State.answered s v) := by
  unfold State.answered
  try dsimp only
  repeat'
    first
      | with_reducible
          first
            | assumption
      | simp only [Keeps.upd]

theorem State.keeps_eraseSector (h : Keeps b0 s) (a : Nat) :
    Keeps b0 (State.eraseSector s a) := by
  unfold State.eraseSector
  try dsimp only
  repeat'
    with_reducible
      first
        | assumption | apply State.keeps_dropEcc | apply Keeps.wipe

theorem State.keeps_ownAccess (h : Keeps b0 s) (f : State → State)
    (hf : ∀ t, Keeps b0 t → Keeps b0 (f t)) :
    Keeps b0 (State.ownAccess s f) := by
  unfold State.ownAccess
  split
  · exact hf s h
  · exact Keeps.upd.mpr (hf _ (Keeps.upd.mpr h))

theorem State.keeps_flashResult (h : Keeps b0 s) (r : Nat) :
    Keeps b0 (State.flashResult s r) := by
  unfold State.flashResult
  try dsimp only
  repeat'
    first
      | with_reducible
          first
            | assumption | apply State.keeps_lower | apply State.keeps_put | apply State.keeps_pulse | apply State.keeps_raise
            | apply Keeps.ite
      | simp only [Keeps.upd] | intro _

theorem State.keeps_eccReads (h : Keeps b0 s) (a : Nat) (n : Nat) :
    Keeps b0 (State.eccReads s a n).1 := by
  unfold State.eccReads
  try dsimp only
  repeat'
    first
      | with_reducible
          first
            | assumption | apply State.keeps_eccRead | apply Keeps.ite | apply Keeps.ite_fst | apply Keeps.foldl
            | apply Keeps.foldl_fst
      | intro _

theorem State.keeps_moveRead (h : Keeps b0 s) (ns : Bool) (r : Nat) (a : Nat) (n : Nat) :
    Keeps b0 (State.moveRead s ns r a n).1 := by
  unfold State.moveRead
  try dsimp only
  repeat'
    first
      | with_reducible
          first
            | assumption | apply State.keeps_moveCheck | apply State.keeps_eccReads | apply State.keeps_takeTurn
            | apply State.keeps_seenBytes | apply Keeps.ite | apply Keeps.ite_fst | apply Keeps.foldl | apply Keeps.foldl_fst
            | refine Keeps.of_fst ‹_ = _› ?_
      | intro _ | split

theorem State.keeps_startFlash (h : Keeps b0 s) (op : Nat) (a : Nat) (data : List Byte) :
    Keeps b0 (State.startFlash s op a data) := by
  unfold State.startFlash
  try dsimp only
  repeat'
    first
      | with_reducible
          first
            | assumption | apply State.keeps_raise
      | simp only [Keeps.upd]

theorem State.keeps_checkProg (h : Keeps b0 s) :
    Keeps b0 (State.checkProg s) := by
  unfold State.checkProg
  try dsimp only
  repeat'
    first
      | with_reducible
          first
            | assumption | apply State.keeps_flashResult | apply State.keeps_moveRead | apply State.keeps_startFlash
            | apply Keeps.ite | refine Keeps.of_fst ‹_ = _› ?_
      | intro _ | split

theorem State.keeps_startProg (h : Keeps b0 s) :
    Keeps b0 (State.startProg s) := by
  unfold State.startProg
  try dsimp only
  repeat'
    first
      | with_reducible
          first
            | assumption | apply State.keeps_ownAccess | apply State.keeps_checkProg


theorem State.keeps_newPassword (h : Keeps b0 s) :
    Keeps b0 (State.newPassword s).2 := by
  unfold State.newPassword
  try dsimp only
  repeat'
    first
      | with_reducible
          first
            | assumption | apply State.keeps_draw | apply Keeps.ite | apply Keeps.foldl | apply Keeps.foldl_fst
      | intro _ | split

theorem State.keeps_startCommand (h : Keeps b0 s) (op : Nat) :
    Keeps b0 (State.startCommand s op) := by
  unfold State.startCommand
  try dsimp only
  repeat'
    first
      | with_reducible
          first
            | assumption | apply State.keeps_startProg | apply State.keeps_flashResult | apply State.keeps_startFlash
            | apply State.keeps_newPassword | apply State.keeps_lower | apply Keeps.ite | refine Keeps.of_snd ‹_ = _› ?_
      | simp only [Keeps.upd] | intro _ | split

theorem State.keeps_appended (h : Keeps b0 s) (o : FlcOp) :
    Keeps b0 (State.appended s o) := by
  unfold State.appended
  try dsimp only
  repeat'
    first
      | with_reducible
          first
            | assumption | apply State.keeps_writeUnit | apply State.keeps_eraseSector | apply State.keeps_lower
            | apply State.keeps_put | apply State.keeps_startCommand | apply Keeps.ite
      | simp only [Keeps.upd] | intro _ | split

theorem State.keeps_trimmedBy (h : Keeps b0 s) (m : Nat) (p : Nat) (n : Nat) :
    Keeps b0 (State.trimmedBy s m p n).2 := by
  unfold State.trimmedBy
  try dsimp only
  repeat'
    with_reducible
      first
        | assumption | apply State.keeps_draw

theorem State.keeps_crystal (h : Keeps b0 s) (n : Nat) :
    Keeps b0 (State.crystal s n).2 := by
  unfold State.crystal
  try dsimp only
  repeat'
    first
      | with_reducible
          first
            | assumption | apply State.keeps_trimmedBy | apply Keeps.ite
      | simp only [Keeps.upd] | intro _ | split

theorem State.keeps_rtcNow (h : Keeps b0 s) :
    Keeps b0 (State.rtcNow s) := by
  unfold State.rtcNow
  try dsimp only
  repeat'
    first
      | with_reducible
          first
            | assumption | apply State.keeps_draw | apply State.keeps_crystal | apply State.keeps_put | apply Keeps.ite
      | intro _

theorem State.keeps_rtcCtl (h : Keeps b0 s) (v : Word) :
    Keeps b0 (State.rtcCtl s v) := by
  unfold State.rtcCtl
  try dsimp only
  repeat'
    first
      | with_reducible
          first
            | assumption | apply State.keeps_raise | apply State.keeps_put | apply State.keeps_rtcNow | apply Keeps.ite
      | simp only [Keeps.upd] | intro _

theorem State.keeps_rtcTime (h : Keeps b0 s) (k : Nat) (v : Word) :
    Keeps b0 (State.rtcTime s k v) := by
  unfold State.rtcTime
  try dsimp only
  repeat'
    first
      | with_reducible
          first
            | assumption | apply Keeps.setReg | apply State.keeps_raise | apply Keeps.ite
      | intro _

theorem State.keeps_applyPosted (h : Keeps b0 s) (a : Nat) (v : Word) :
    Keeps b0 (State.applyPosted s a v) := by
  unfold State.applyPosted
  try dsimp only
  repeat'
    first
      | with_reducible
          first
            | assumption | apply State.keeps_rtcCtl | apply State.keeps_rtcTime | apply Keeps.setReg | apply Keeps.ite
      | intro _ | split

theorem State.keeps_approvePlan (h : Keeps b0 s) :
    Keeps b0 (State.approvePlan s) := by
  unfold State.approvePlan
  try dsimp only
  repeat'
    first
      | with_reducible
          first
            | assumption | apply State.keeps_put | apply Keeps.ite
      | intro _

theorem State.keeps_prefetch (h : Keeps b0 s) (e : EngIx) (ms : List Mv) :
    Keeps b0 (State.prefetch s e ms).1 := by
  unfold State.prefetch
  try dsimp only
  repeat'
    first
      | with_reducible
          first
            | assumption | apply State.keeps_draw | apply State.keeps_setEng | apply Keeps.ite | apply Keeps.ite_fst
      | intro _

theorem State.keeps_readLio (h : Keeps b0 s) (e : EngIx) (a : Bool) :
    Keeps b0 (State.readLio s e a).1 := by
  unfold State.readLio
  try dsimp only
  repeat'
    first
      | with_reducible
          first
            | assumption | apply State.keeps_setEng | apply State.keeps_violation | apply Keeps.ite | apply Keeps.ite_fst
      | intro _ | split

theorem State.keeps_popEvent (h : Keeps b0 s) (e : EngIx) :
    Keeps b0 (State.popEvent s e).2 := by
  unfold State.popEvent
  try dsimp only
  repeat'
    first
      | with_reducible
          first
            | assumption | apply State.keeps_setEng
      | split

theorem State.keeps_readSlotOffset (h : Keeps b0 s) (e : EngIx) :
    Keeps b0 (State.readSlotOffset s e).1 := by
  unfold State.readSlotOffset
  try dsimp only
  repeat'
    first
      | with_reducible
          first
            | assumption | apply State.keeps_setEng | apply State.keeps_draw | apply Keeps.ite | apply Keeps.ite_fst
      | simp only [Keeps.upd] | intro _

theorem State.keeps_readPort (h : Keeps b0 s) (e : EngIx) (p : Nat) :
    Keeps b0 (State.readPort s e p).1 := by
  unfold State.readPort
  try dsimp only
  repeat'
    first
      | with_reducible
          first
            | assumption | apply State.keeps_readLio | apply State.keeps_popEvent | apply State.keeps_setEng
            | apply State.keeps_readSlotOffset | apply Keeps.ite | apply Keeps.ite_fst | refine Keeps.of_fst ‹_ = _› ?_
            | refine Keeps.of_snd ‹_ = _› ?_
      | intro _ | split

theorem State.keeps_readMove (h : Keeps b0 s) (e : EngIx) (m : Mv) :
    Keeps b0 (State.readMove s e m).1 := by
  unfold State.readMove
  try dsimp only
  repeat'
    first
      | with_reducible
          first
            | assumption | apply State.keeps_readPort | refine Keeps.of_fst ‹_ = _› ?_
      | split

theorem State.keeps_readMoves (h : Keeps b0 s) (e : EngIx) (x2 : List Mv) :
    Keeps b0 (State.readMoves s e x2).1 := by
  unfold State.readMoves
  try dsimp only
  repeat'
    first
      | with_reducible
          first
            | assumption | apply State.keeps_readMove | apply Keeps.ite | apply Keeps.ite_fst | refine Keeps.of_fst ‹_ = _› ?_
      | intro _ | split

theorem State.keeps_dropSnap (h : Keeps b0 s) (r : Nat) (k : Nat) :
    Keeps b0 (State.dropSnap s r k) := by
  unfold State.dropSnap
  try dsimp only
  repeat'
    first
      | with_reducible
          first
            | assumption
      | simp only [Keeps.upd]

theorem State.keeps_served (h : Keeps b0 s) (r : Nat) (k : Nat) :
    Keeps b0 (State.served s r k) := by
  unfold State.served
  try dsimp only
  repeat'
    with_reducible
      first
        | assumption | apply State.keeps_dropSnap | apply State.keeps_takeTurn

theorem State.keeps_refuseLate (h : Keeps b0 s) (a : Nat) :
    Keeps b0 (State.refuseLate s a).1 := by
  unfold State.refuseLate
  try dsimp only
  repeat'
    with_reducible
      first
        | assumption | apply State.keeps_raise

theorem State.keeps_post31 (h : Keeps b0 s) (a : Nat) (v : Word) :
    Keeps b0 (State.post31 s a v) := by
  unfold State.post31
  try dsimp only
  repeat'
    first
      | with_reducible
          first
            | assumption
      | simp only [Keeps.upd]

theorem State.keeps_stageResult (h : Keeps b0 s) (ns : Bool) (r : Nat) :
    Keeps b0 (State.stageResult s ns r) := by
  unfold State.stageResult
  try dsimp only
  repeat'
    with_reducible
      first
        | assumption | apply State.keeps_pulse | apply State.keeps_put

theorem State.keeps_reloadShadows (h : Keeps b0 s) (ns : Bool) :
    Keeps b0 (State.reloadShadows s ns) := by
  unfold State.reloadShadows
  try dsimp only
  repeat'
    first
      | with_reducible
          first
            | assumption | apply Keeps.each | apply Keeps.setReg
      | intro _

theorem State.keeps_stageCommand (h : Keeps b0 s) (ns : Bool) (arm : Bool) (gap : Bool) (abandon : Bool) :
    Keeps b0 (State.stageCommand s ns arm gap abandon) := by
  unfold State.stageCommand
  try dsimp only
  repeat'
    first
      | with_reducible
          first
            | assumption | apply State.keeps_raise | apply State.keeps_stageResult | apply State.keeps_reloadShadows
            | apply Keeps.ite
      | intro _

theorem State.keeps_wroteSys (h0 : Keeps b0 s) (h1 : Keeps b0 t) (r : Nat) (a : Nat) (v : Word) :
    Keeps b0 (State.wroteSys s t r a v) := by
  unfold State.wroteSys
  try dsimp only
  repeat'
    first
      | with_reducible
          first
            | assumption | apply State.keeps_stageCommand | apply Keeps.ite
      | intro _

theorem State.keeps_holdRequest (h : Keeps b0 s) (r : PwrReq) :
    Keeps b0 (State.holdRequest s r) := by
  unfold State.holdRequest
  try dsimp only
  repeat'
    first
      | with_reducible
          first
            | assumption | apply State.keeps_raise
      | simp only [Keeps.upd]

theorem State.keeps_requestPower (h : Keeps b0 s) (r : PwrReq) :
    Keeps b0 (State.requestPower s r) := by
  unfold State.requestPower
  try dsimp only
  repeat'
    first
      | with_reducible
          first
            | assumption | apply State.keeps_raise | apply State.keeps_holdRequest | apply State.keeps_startRequest
            | apply Keeps.ite
      | intro _

theorem State.keeps_freeLock (h : Keeps b0 s) (k : Nat) :
    Keeps b0 (State.freeLock s k) := by
  unfold State.freeLock
  try dsimp only
  repeat'
    with_reducible
      first
        | assumption | apply State.keeps_draw | apply State.keeps_put | apply State.keeps_lower

theorem State.keeps_orphanLocks (h : Keeps b0 s) (rs : Nat → Bool) :
    Keeps b0 (State.orphanLocks s rs) := by
  unfold State.orphanLocks
  try dsimp only
  repeat'
    first
      | with_reducible
          first
            | assumption | apply Keeps.each | apply State.keeps_raise | apply State.keeps_freeLock | apply Keeps.ite
      | intro _

theorem State.keeps_orphanReads (h : Keeps b0 s) (cs : Select) :
    Keeps b0 (State.orphanReads s cs) := by
  unfold State.orphanReads
  try dsimp only
  repeat'
    first
      | with_reducible
          first
            | assumption
      | simp only [Keeps.upd]

theorem State.keeps_dropMgbReads (h : Keeps b0 s) :
    Keeps b0 (State.dropMgbReads s) := by
  unfold State.dropMgbReads
  try dsimp only
  repeat'
    first
      | with_reducible
          first
            | assumption
      | simp only [Keeps.upd]

theorem State.keeps_setMac (h : Keeps b0 s) (m : Fin 2) (x : EthMac) :
    Keeps b0 (State.setMac s m x) := by
  unfold State.setMac
  try dsimp only
  repeat'
    first
      | with_reducible
          first
            | assumption
      | simp only [Keeps.upd]

theorem State.keeps_resetEvents (h : Keeps b0 s) :
    Keeps b0 (State.resetEvents s) := by
  unfold State.resetEvents
  try dsimp only
  repeat'
    first
      | with_reducible
          first
            | assumption | apply Keeps.each | apply State.keeps_setEng
      | simp only [Keeps.upd] | intro _

theorem State.keeps_drawBytes (h : Keeps b0 s) (n : Nat) :
    Keeps b0 (State.drawBytes s n).2 := by
  unfold State.drawBytes
  try dsimp only
  repeat'
    first
      | with_reducible
          first
            | assumption
      | simp only [Keeps.upd]

theorem State.keeps_writeBuffer (h : Keeps b0 s) (n : LaneIx) (off : Nat) (bs : List Byte) :
    Keeps b0 (State.writeBuffer s n off bs) := by
  unfold State.writeBuffer
  try dsimp only
  repeat'
    first
      | with_reducible
          first
            | assumption | apply State.keeps_moveWrite | apply State.keeps_setLane | refine Keeps.of_fst ‹_ = _› ?_
      | split

theorem State.keeps_enterReady (h : Keeps b0 s) (n : LaneIx) (checkGood : Bool) :
    Keeps b0 (State.enterReady s n checkGood) := by
  unfold State.enterReady
  try dsimp only
  repeat'
    first
      | with_reducible
          first
            | assumption | apply Keeps.setReg | apply State.keeps_bump | apply State.keeps_scramble | apply State.keeps_setLane
            | apply State.keeps_fire | apply Keeps.ite
      | intro _ | split

theorem State.keeps_finishDeep (h : Keeps b0 s) (n : LaneIx) :
    Keeps b0 (State.finishDeep s n) := by
  unfold State.finishDeep
  try dsimp only
  repeat'
    first
      | with_reducible
          first
            | assumption | apply State.keeps_enterReady | apply Keeps.ite
      | intro _

theorem State.keeps_codewordEnded (h : Keeps b0 s) (n : LaneIx) (i : Nat) (iters : Nat) (good : Bool) (bs : List Byte) :
    Keeps b0 (State.codewordEnded s n i iters good bs) := by
  unfold State.codewordEnded
  try dsimp only
  repeat'
    first
      | with_reducible
          first
            | assumption | apply State.keeps_writeBuffer | apply State.keeps_finishDeep | apply State.keeps_setLane



theorem State.keeps_codewordLost (h : Keeps b0 s) (n : LaneIx) (i : Nat) :
    Keeps b0 (State.codewordLost s n i) := by
  unfold State.codewordLost
  try dsimp only
  repeat'
    with_reducible
      first
        | assumption | apply State.keeps_drawBytes | apply State.keeps_codewordEnded

theorem State.keeps_resetPool (h : Keeps b0 s) :
    Keeps b0 (State.resetPool s) := by
  unfold State.resetPool
  try dsimp only
  repeat'
    first
      | with_reducible
          first
            | assumption | apply Keeps.each | apply State.keeps_codewordLost | apply State.keeps_setLane
      | simp only [Keeps.upd] | intro _

theorem State.keeps_skipBeacon (h : Keeps b0 s) (slot : Nat) :
    Keeps b0 (State.skipBeacon s slot) := by
  unfold State.skipBeacon
  try dsimp only
  repeat'
    first
      | with_reducible
          first
            | assumption | apply State.keeps_bump | apply Keeps.ite
      | simp only [Keeps.upd] | intro _

theorem State.keeps_resetTx (h : Keeps b0 s) :
    Keeps b0 (State.resetTx s) := by
  unfold State.resetTx
  try dsimp only
  repeat'
    first
      | with_reducible
          first
            | assumption | apply Keeps.each | apply State.keeps_skipBeacon | apply Keeps.ite
      | simp only [Keeps.upd] | intro _

theorem State.keeps_cutSlot (h : Keeps b0 s) :
    Keeps b0 (State.cutSlot s) := by
  unfold State.cutSlot
  try dsimp only
  repeat'
    first
      | with_reducible
          first
            | assumption | apply State.keeps_draw | apply State.keeps_shiftTimes
      | simp only [Keeps.upd]

theorem State.keeps_resetCipher (h : Keeps b0 s) :
    Keeps b0 (State.resetCipher s) := by
  unfold State.resetCipher
  try dsimp only
  repeat'
    first
      | with_reducible
          first
            | assumption | apply Keeps.wipe
      | simp only [Keeps.upd]

theorem State.keeps_putLanes (h : Keeps b0 s) (chars : List (SphChar × SphChar)) :
    Keeps b0 (State.putLanes s chars) := by
  unfold State.putLanes
  try dsimp only
  repeat'
    first
      | with_reducible
          first
            | assumption | apply Keeps.ite
      | simp only [Keeps.upd] | intro _

theorem State.keeps_setPair (h : Keeps b0 s) (n : Nat) :
    Keeps b0 (State.setPair s n) := by
  unfold State.setPair
  try dsimp only
  repeat'
    with_reducible
      first
        | assumption | apply State.keeps_put

theorem State.keeps_dropLater (h : Keeps b0 s) :
    Keeps b0 (State.dropLater s) := by
  unfold State.dropLater
  try dsimp only
  repeat'
    first
      | with_reducible
          first
            | assumption
      | simp only [Keeps.upd]

theorem State.keeps_releaseRecords (h : Keeps b0 s) :
    Keeps b0 (State.releaseRecords s) := by
  unfold State.releaseRecords
  try dsimp only
  repeat'
    first
      | with_reducible
          first
            | assumption | apply State.keeps_ownAccess | apply Keeps.each | apply State.keeps_releaseCore
      | intro _

theorem State.keeps_dropPeer (h : Keeps b0 s) :
    Keeps b0 (State.dropPeer s) := by
  unfold State.dropPeer
  try dsimp only
  repeat'
    first
      | with_reducible
          first
            | assumption | apply State.keeps_dropLater | apply State.keeps_releaseRecords
      | simp only [Keeps.upd]

theorem State.keeps_pairOff (h : Keeps b0 s) :
    Keeps b0 (State.pairOff s) := by
  unfold State.pairOff
  try dsimp only
  repeat'
    first
      | with_reducible
          first
            | assumption | apply State.keeps_lower | apply State.keeps_setPair | apply State.keeps_dropPeer
      | simp only [Keeps.upd]

theorem State.keeps_sentWords (h : Keeps b0 s) (cs : Select) (len : Option Nat) (ws : List Word) :
    Keeps b0 (State.sentWords s cs len ws) := by
  unfold State.sentWords
  try dsimp only
  repeat'
    first
      | with_reducible
          first
            | assumption | apply Keeps.ite
      | simp only [Keeps.upd] | intro _

theorem State.keeps_endRead (h : Keeps b0 s) (m : SpiMode) (t : SpiRead) (live : Bool) (x : SpiGot) :
    Keeps b0 (State.endRead s m t live x) := by
  unfold State.endRead
  try dsimp only
  repeat'
    first
      | with_reducible
          first
            | assumption | apply State.keeps_raise | apply State.keeps_sentWords | apply Keeps.ite
      | intro _

theorem State.keeps_failRead (h : Keeps b0 s) (w : SpiWait) :
    Keeps b0 (State.failRead s w) := by
  unfold State.failRead
  try dsimp only
  repeat'
    with_reducible
      first
        | assumption | apply State.keeps_portError | apply State.keeps_endRead

theorem State.keeps_sendIdles (h : Keeps b0 s) (n : Nat) :
    Keeps b0 (State.sendIdles s n) := by
  unfold State.sendIdles
  try dsimp only
  repeat'
    with_reducible
      first
        | assumption | apply State.keeps_draw | apply State.keeps_putLanes

theorem State.keeps_transmit (h : Keeps b0 s) (type : Nat) (seq : Nat) (sync : Bool) (payload : List Byte) :
    Keeps b0 (State.transmit s type seq sync payload) := by
  unfold State.transmit
  try dsimp only
  repeat'
    first
      | with_reducible
          first
            | assumption | apply State.keeps_sendIdles | apply State.keeps_putLanes
      | simp only [Keeps.upd]

theorem State.keeps_emit (h : Keeps b0 s) (f : OutFrame) :
    Keeps b0 (State.emit s f) := by
  unfold State.emit
  try dsimp only
  repeat'
    first
      | with_reducible
          first
            | assumption | apply State.keeps_transmit | apply Keeps.ite
      | intro _

theorem State.keeps_sendWaiting (h : Keeps b0 s) (x1 : List OutFrame) :
    Keeps b0 (State.sendWaiting s x1) := by
  induction x1 generalizing s with
  | nil => exact Keeps.upd.mpr h
  | cons x l ih =>
    unfold State.sendWaiting
    split
    · exact ih (State.keeps_emit (Keeps.upd.mpr h) x)
    · exact Keeps.upd.mpr h

theorem State.keeps_sendSeq (h : Keeps b0 s) (type : Nat) (sync : Bool) (payload : List Byte) :
    Keeps b0 (State.sendSeq s type sync payload) := by
  unfold State.sendSeq
  try dsimp only
  repeat'
    first
      | with_reducible
          first
            | assumption | apply State.keeps_sendWaiting
      | simp only [Keeps.upd]

theorem State.keeps_moveReadOr0 (h : Keeps b0 s) (ns : Bool) (r : Nat) (a : Nat) (n : Nat) :
    Keeps b0 (State.moveReadOr0 s ns r a n).1 := by
  unfold State.moveReadOr0
  try dsimp only
  repeat'
    first
      | with_reducible
          first
            | assumption | apply State.keeps_moveRead | refine Keeps.of_fst ‹_ = _› ?_
      | split

theorem State.keeps_sendFragments {x5 : State} (h : Keeps b0 x5) (words : List Byte) (desc : Nat) (index : Nat) (mode : Nat) (x4 :
    List Nat) :
    Keeps b0 (State.sendFragments words desc index mode x4 x5).1 := by
  induction x4 generalizing x5 with
  | nil => exact h
  | cons k ks ih =>
    unfold State.sendFragments
    dsimp only
    split
    · exact h
    · exact ih (State.keeps_sendSeq (State.keeps_moveReadOr0 h false 69 _ _) _ _ _)

theorem State.keeps_sendLater {x1 : State} (h : Keeps b0 x1) (x0 : List SphLater) :
    Keeps b0 (State.sendLater x0 x1) := by
  induction x0 generalizing x1 with
  | nil => exact Keeps.upd.mpr h
  | cons k ks ih =>
    cases k with
    | frame type payload => exact ih (State.keeps_sendSeq h type false payload)
    | request words desc index mode l =>
      have hk := State.keeps_sendFragments h words desc index mode l
      unfold State.sendLater
      split
      · next heq => rw [heq] at hk; exact ih hk
      · next heq => rw [heq] at hk; exact Keeps.upd.mpr hk

theorem State.keeps_resumeLater (h : Keeps b0 s) :
    Keeps b0 (State.resumeLater s) := by
  unfold State.resumeLater
  try dsimp only
  repeat'
    with_reducible
      first
        | assumption | apply State.keeps_sendLater

theorem State.keeps_failWait (h : Keeps b0 s) (w : FlashWait) :
    Keeps b0 (State.failWait s w) := by
  unfold State.failWait
  try dsimp only
  repeat'
    first
      | with_reducible
          first
            | assumption | apply State.keeps_portError | apply State.keeps_failRead | apply State.keeps_resumeLater
      | simp only [Keeps.upd] | split

theorem State.keeps_resetFlash {s0 : State} (h : Keeps b0 s0) :
    Keeps b0 (State.resetFlash s0) := by
  unfold State.resetFlash
  try dsimp only
  repeat'
    first
      | with_reducible
          first
            | assumption | apply Keeps.each | apply State.keeps_failWait
      | simp only [Keeps.upd] | intro _

theorem State.keeps_resetParts (h : Keeps b0 s) (i : Nat) :
    Keeps b0 (State.resetParts s i) := by
  unfold State.resetParts
  try dsimp only
  repeat'
    first
      | with_reducible
          first
            | assumption | apply State.keeps_orphanLocks | apply State.keeps_orphanReads | apply State.keeps_dropMgbReads
            | apply State.keeps_setMac | apply State.keeps_resetEvents | apply State.keeps_setBit | apply Keeps.each
            | apply State.keeps_abortFrame | apply State.keeps_setLane | apply State.keeps_setEng | apply State.keeps_resetPool
            | apply State.keeps_resetTx | apply State.keeps_cutSlot | apply State.keeps_resetCipher
            | apply State.keeps_putLanes | apply State.keeps_pairOff | apply State.keeps_resetFlash
            | apply State.keeps_abandonFlash | apply Keeps.ite
      | simp only [Keeps.upd] | intro _ | split

theorem State.keeps_restoreCal (h : Keeps b0 s) (p : Nat → Bool) :
    Keeps b0 (State.restoreCal s p) := by
  unfold State.restoreCal
  try dsimp only
  repeat'
    first
      | with_reducible
          first
            | assumption | apply Keeps.each | apply Keeps.setReg
      | intro _

theorem State.keeps_resetBlock (h : Keeps b0 s) (i : Nat) :
    Keeps b0 (State.resetBlock s i) := by
  unfold State.resetBlock
  try dsimp only
  repeat'
    first
      | with_reducible
          first
            | assumption | apply State.keeps_resetParts | apply State.keeps_setBit | apply State.keeps_keepRegs
            | apply State.keeps_afterReset | apply State.keeps_restoreCal | apply Keeps.ite
      | intro _

theorem State.keeps_resetBlocks (h : Keeps b0 s) (bits : Nat) :
    Keeps b0 (State.resetBlocks s bits) := by
  unfold State.resetBlocks
  try dsimp only
  repeat'
    first
      | with_reducible
          first
            | assumption | apply Keeps.each | apply State.keeps_resetBlock | apply Keeps.ite
      | intro _

theorem State.keeps_deviceReset (h : Keeps b0 s) (cause : Fld) :
    Keeps b0 (State.deviceReset s cause) := by
  unfold State.deviceReset
  try dsimp only
  repeat'
    first
      | with_reducible
          first
            | assumption | apply State.keeps_resetMain | apply State.keeps_abandonFlash | apply State.keeps_watchRequests
            | apply State.keeps_raise | apply State.keeps_clearPower | apply State.keeps_clearAddress
      | simp only [Keeps.upd]

theorem State.keeps_resetKey (h : Keeps b0 s) (key : Nat) :
    Keeps b0 (State.resetKey s key) := by
  unfold State.resetKey
  try dsimp only
  repeat'
    first
      | with_reducible
          first
            | assumption | apply State.keeps_prime | apply State.keeps_deviceReset | apply Keeps.ite
      | intro _

theorem State.keeps_noteEdges (h : Keeps b0 s) (old : Nat) :
    Keeps b0 (State.noteEdges s old) := by
  unfold State.noteEdges
  try dsimp only
  repeat'
    first
      | with_reducible
          first
            | assumption | apply Keeps.each | apply State.keeps_setBit | apply State.keeps_fire | apply Keeps.ite
      | intro _

theorem State.keeps_withEdges (h : Keeps b0 s) (f : State → State)
    (hf : ∀ t, Keeps b0 t → Keeps b0 (f t)) :
    Keeps b0 (State.withEdges s f) := by
  unfold State.withEdges
  exact State.keeps_noteEdges (hf s h) _

theorem State.keeps_setTmr (h : Keeps b0 s) (k : TmrIx) (t : Tmr) :
    Keeps b0 (State.setTmr s k t) := by
  unfold State.setTmr
  try dsimp only
  repeat'
    first
      | with_reducible
          first
            | assumption
      | simp only [Keeps.upd]

theorem State.keeps_countTick (h : Keeps b0 s) (k : TmrIx) :
    Keeps b0 (State.countTick s k).1 := by
  unfold State.countTick
  try dsimp only
  repeat'
    first
      | with_reducible
          first
            | assumption | apply State.keeps_setTmr | apply State.keeps_raise | apply Keeps.ite | apply Keeps.ite_fst
      | intro _

theorem State.keeps_pinActions (h : Keeps b0 s) (k : TmrIx) (ovf : Bool) (mtch : Bool) :
    Keeps b0 (State.pinActions s k ovf mtch) := by
  unfold State.pinActions
  try dsimp only
  repeat'
    first
      | with_reducible
          first
            | assumption | apply State.keeps_setTmr | apply Keeps.ite
      | intro _

theorem State.keeps_tickMoves (h : Keeps b0 s) (k : TmrIx) :
    Keeps b0 (State.tickMoves s k).1 := by
  unfold State.tickMoves
  try dsimp only
  repeat'
    first
      | with_reducible
          first
            | assumption | apply State.keeps_countTick | apply State.keeps_pinActions | apply Keeps.ite | apply Keeps.ite_fst
            | refine Keeps.of_fst ‹_ = _› ?_
      | intro _ | split

theorem State.keeps_countEdge (h : Keeps b0 s) (k : TmrIx) :
    Keeps b0 (State.countEdge s k).1 := by
  unfold State.countEdge
  try dsimp only
  repeat'
    first
      | with_reducible
          first
            | assumption | apply State.keeps_tickMoves | apply State.keeps_setTmr | apply Keeps.ite | apply Keeps.ite_fst
      | intro _

theorem State.keeps_pushCapture (h : Keeps b0 s) (k : TmrIx) :
    Keeps b0 (State.pushCapture s k) := by
  unfold State.pushCapture
  try dsimp only
  repeat'
    first
      | with_reducible
          first
            | assumption | apply State.keeps_raise | apply State.keeps_setTmr | apply Keeps.ite
      | intro _

theorem State.keeps_captures (h : Keeps b0 s) (ks : List TmrIx) (same : List TmrIx) :
    Keeps b0 (State.captures s ks same) := by
  unfold State.captures
  try dsimp only
  repeat'
    first
      | with_reducible
          first
            | assumption | apply Keeps.each | apply State.keeps_pushCapture
      | intro _

theorem State.keeps_takeEdge (h : Keeps b0 s) (k : TmrIx) (level : Bool) (same : List TmrIx) :
    Keeps b0 (State.takeEdge s k level same) := by
  unfold State.takeEdge
  apply State.keeps_captures
  split
  · exact State.keeps_countEdge h k
  · exact h

theorem State.keeps_tioEdge (h : Keeps b0 s) (k : TmrIx) (old : Bool) :
    Keeps b0 (State.tioEdge s k old) := by
  unfold State.tioEdge
  try dsimp only
  repeat'
    first
      | with_reducible
          first
            | assumption | apply State.keeps_takeEdge | apply Keeps.ite
      | intro _

theorem State.keeps_startWindow (h : Keeps b0 s) (k : Nat) :
    Keeps b0 (State.startWindow s k) := by
  unfold State.startWindow
  try dsimp only
  repeat'
    first
      | with_reducible
          first
            | assumption
      | simp only [Keeps.upd]

theorem State.keeps_restartWindows (h : Keeps b0 s) :
    Keeps b0 (State.restartWindows s) := by
  unfold State.restartWindows
  try dsimp only
  repeat'
    first
      | with_reducible
          first
            | assumption | apply Keeps.each | apply State.keeps_startWindow | apply Keeps.ite
      | intro _

theorem State.keeps_releasePads (h : Keeps b0 s) :
    Keeps b0 (State.releasePads s) := by
  unfold State.releasePads
  try dsimp only
  repeat'
    first
      | with_reducible
          first
            | assumption | apply State.keeps_withEdges | apply Keeps.each | apply State.keeps_tioEdge
            | apply State.keeps_restartWindows | apply Keeps.ite
      | simp only [Keeps.upd] | intro _ | split

theorem State.keeps_pointWritten (h : Keeps b0 s) (n : Nat) :
    Keeps b0 (State.pointWritten s n) := by
  unfold State.pointWritten
  try dsimp only
  repeat'
    first
      | with_reducible
          first
            | assumption | apply State.keeps_holdRequest | apply State.keeps_beginTransition | apply Keeps.ite
      | intro _

theorem State.keeps_noteTarget (h : Keeps b0 s) (i : Nat) :
    Keeps b0 (State.noteTarget s i) := by
  unfold State.noteTarget
  try dsimp only
  repeat'
    first
      | with_reducible
          first
            | assumption | apply Keeps.ite
      | simp only [Keeps.upd] | intro _

theorem State.keeps_wrotePwr (h0 : Keeps b0 s) (h1 : Keeps b0 t) (a : Nat) (v : Word) :
    Keeps b0 (State.wrotePwr s t a v) := by
  unfold State.wrotePwr
  try dsimp only
  repeat'
    first
      | with_reducible
          first
            | assumption | apply State.keeps_requestPower | apply State.keeps_resetBlocks | apply State.keeps_resetKey
            | apply State.keeps_releasePads | apply State.keeps_put | apply State.keeps_pointWritten
            | apply State.keeps_noteTarget | apply Keeps.ite
      | intro _ | split

theorem State.keeps_requestAttention (h : Keeps b0 s) (cause : Nat) :
    Keeps b0 (State.requestAttention s cause) := by
  unfold State.requestAttention
  try dsimp only
  repeat'
    first
      | with_reducible
          first
            | assumption | apply State.keeps_put | apply State.keeps_raise | apply Keeps.ite
      | intro _

theorem State.keeps_wroteMgb (h0 : Keeps b0 s) (h1 : Keeps b0 t) (a : Nat) (v : Word) :
    Keeps b0 (State.wroteMgb s t a v) := by
  unfold State.wroteMgb
  try dsimp only
  repeat'
    first
      | with_reducible
          first
            | assumption | apply State.keeps_requestAttention | apply Keeps.ite
      | intro _

theorem State.keeps_ethCtlWritten (h : Keeps b0 s) (m : Fin 2) (old : Word) :
    Keeps b0 (State.ethCtlWritten s m old) := by
  unfold State.ethCtlWritten
  try dsimp only
  repeat'
    first
      | with_reducible
          first
            | assumption | apply State.keeps_put | apply State.keeps_lower | apply Keeps.ite
      | intro _

theorem State.keeps_macRead (h : Keeps b0 s) (m : Fin 2) (a : Nat) (n : Nat) :
    Keeps b0 (State.macRead s m a n).1 := by
  unfold State.macRead
  try dsimp only
  repeat'
    with_reducible
      first
        | assumption | apply State.keeps_moveRead

theorem State.keeps_macWrite (h : Keeps b0 s) (m : Fin 2) (a : Nat) (bs : List Byte) :
    Keeps b0 (State.macWrite s m a bs).1 := by
  unfold State.macWrite
  try dsimp only
  repeat'
    with_reducible
      first
        | assumption | apply State.keeps_moveWrite

theorem State.keeps_closeDesc (h : Keeps b0 s) (m : Fin 2) (d : Nat) (w1 : Word) (rest : List Byte) :
    Keeps b0 (State.closeDesc s m d w1 rest).1 := by
  unfold State.closeDesc
  try dsimp only
  repeat'
    first
      | with_reducible
          first
            | assumption | apply State.keeps_macWrite | refine Keeps.of_fst ‹_ = _› ?_
      | split

theorem State.keeps_txAdvance (h : Keeps b0 s) (m : Fin 2) :
    Keeps b0 (State.txAdvance s m) := by
  unfold State.txAdvance
  try dsimp only
  repeat'
    first
      | with_reducible
          first
            | assumption | apply State.keeps_put | apply State.keeps_fire | apply Keeps.ite
      | intro _

theorem State.keeps_ptpRun (h : Keeps b0 s) (n : Nat) :
    Keeps b0 (State.ptpRun s n) := by
  unfold State.ptpRun
  try dsimp only
  repeat'
    first
      | with_reducible
          first
            | assumption | apply Keeps.ite
      | simp only [Keeps.upd] | intro _

theorem State.keeps_ptpNow (h : Keeps b0 s) :
    Keeps b0 (State.ptpNow s) := by
  unfold State.ptpNow
  try dsimp only
  repeat'
    with_reducible
      first
        | assumption | apply State.keeps_draw | apply State.keeps_ptpRun

theorem State.keeps_txStart (h : Keeps b0 s) (m : Fin 2) (d : Nat) (w1 : Word) (frame : List Byte) :
    Keeps b0 (State.txStart s m d w1 frame) := by
  unfold State.txStart
  try dsimp only
  repeat'
    first
      | with_reducible
          first
            | assumption | apply State.keeps_ptpNow | apply State.keeps_setMac


theorem State.keeps_txLook (h : Keeps b0 s) (m : Fin 2) :
    Keeps b0 (State.txLook s m) := by
  unfold State.txLook
  try dsimp only
  repeat'
    first
      | with_reducible
          first
            | assumption | apply State.keeps_setMac | apply State.keeps_macRead | apply State.keeps_raise
            | apply State.keeps_closeDesc | apply State.keeps_txAdvance | apply State.keeps_txStart | apply Keeps.ite
            | refine Keeps.of_fst ‹_ = _› ?_
      | intro _ | split

theorem State.keeps_txPoll (h : Keeps b0 s) (m : Fin 2) :
    Keeps b0 (State.txPoll s m) := by
  unfold State.txPoll
  try dsimp only
  repeat'
    first
      | with_reducible
          first
            | assumption | apply State.keeps_ownAccess | apply State.keeps_txLook
      | intro _

theorem State.keeps_txPolled (h : Keeps b0 s) (m : Fin 2) :
    Keeps b0 (State.txPolled s m) := by
  unfold State.txPolled
  try dsimp only
  repeat'
    first
      | with_reducible
          first
            | assumption | apply State.keeps_txPoll | apply State.keeps_ptpNow | apply Keeps.ite
      | intro _

theorem State.keeps_mdioWrite (h : Keeps b0 s) (m : Fin 2) (v : Word) :
    Keeps b0 (State.mdioWrite s m v) := by
  unfold State.mdioWrite
  try dsimp only
  repeat'
    first
      | with_reducible
          first
            | assumption | apply Keeps.setReg | apply Keeps.ite
      | intro _

theorem State.keeps_ptpLoad (h : Keeps b0 s) :
    Keeps b0 (State.ptpLoad s) := by
  unfold State.ptpLoad
  try dsimp only
  repeat'
    first
      | with_reducible
          first
            | assumption
      | simp only [Keeps.upd]

theorem State.keeps_ptpAdjust (h : Keeps b0 s) (v : Word) :
    Keeps b0 (State.ptpAdjust s v) := by
  unfold State.ptpAdjust
  try dsimp only
  repeat'
    first
      | with_reducible
          first
            | assumption | apply State.keeps_ptpNow
      | simp only [Keeps.upd]

theorem State.keeps_wroteEth (h0 : Keeps b0 s) (h1 : Keeps b0 t) (a : Nat) (v : Word) :
    Keeps b0 (State.wroteEth s t a v) := by
  unfold State.wroteEth
  try dsimp only
  repeat'
    first
      | with_reducible
          first
            | assumption | apply State.keeps_ethCtlWritten | apply State.keeps_txPolled | apply State.keeps_mdioWrite
            | apply State.keeps_put | apply State.keeps_ptpNow | apply State.keeps_ptpLoad | apply State.keeps_ptpAdjust
            | apply Keeps.ite
      | intro _

theorem State.keeps_startEngine (h : Keeps b0 s) (e : EngIx) :
    Keeps b0 (State.startEngine s e) := by
  unfold State.startEngine
  try dsimp only
  repeat'
    first
      | with_reducible
          first
            | assumption | apply State.keeps_draw | apply State.keeps_setEng | apply Keeps.ite | refine Keeps.of_snd ‹_ = _› ?_
      | intro _ | split

theorem State.keeps_movedWords (h : Keeps b0 s) (e : EngIx) (l : List Accepted) :
    Keeps b0 (State.movedWords s e l) := by
  unfold State.movedWords
  try dsimp only
  repeat'
    first
      | with_reducible
          first
            | assumption | apply Keeps.each | apply State.keeps_movedWord
      | intro _

theorem State.keeps_setRemaining (h : Keeps b0 s) (e : EngIx) (n : Nat) :
    Keeps b0 (State.setRemaining s e n) := by
  unfold State.setRemaining
  try dsimp only
  repeat'
    with_reducible
      first
        | assumption | apply State.keeps_setEng

theorem State.keeps_leaveRemaining (h : Keeps b0 s) (e : EngIx) (x : Option Access) :
    Keeps b0 (State.leaveRemaining s e x) := by
  unfold State.leaveRemaining
  try dsimp only
  repeat'
    first
      | with_reducible
          first
            | assumption | apply State.keeps_setRemaining
      | split

theorem State.keeps_undoStall (h : Keeps b0 s) (e : EngIx) (u : ReadUndo) :
    Keeps b0 (State.undoStall s e u) := by
  unfold State.undoStall
  try dsimp only
  repeat'
    first
      | with_reducible
          first
            | assumption | apply State.keeps_setEng


theorem State.keeps_dropStall (h : Keeps b0 s) (e : EngIx) :
    Keeps b0 (State.dropStall s e) := by
  unfold State.dropStall
  try dsimp only
  repeat'
    first
      | with_reducible
          first
            | assumption | apply State.keeps_movedWords | apply State.keeps_leaveRemaining | apply State.keeps_undoStall
            | apply State.keeps_setEng
      | split

theorem State.keeps_forceOff (h : Keeps b0 s) (e : EngIx) :
    Keeps b0 (State.forceOff s e) := by
  unfold State.forceOff
  try dsimp only
  repeat'
    with_reducible
      first
        | assumption | apply State.keeps_dropStall | apply State.keeps_setEng

theorem State.keeps_orderHalt (h : Keeps b0 s) (e : EngIx) (why : Nat) (forced : Bool) :
    Keeps b0 (State.orderHalt s e why forced) := by
  unfold State.orderHalt
  try dsimp only
  repeat'
    first
      | with_reducible
          first
            | assumption | apply State.keeps_setEng | apply State.keeps_forceOff | apply Keeps.ite
      | intro _ | split

theorem State.keeps_haltEngine (h : Keeps b0 s) (e : EngIx) :
    Keeps b0 (State.haltEngine s e) := by
  unfold State.haltEngine
  try dsimp only
  repeat'
    first
      | with_reducible
          first
            | assumption | apply State.keeps_orderHalt | apply Keeps.ite
      | intro _

theorem State.keeps_forceEngine (h : Keeps b0 s) (e : EngIx) :
    Keeps b0 (State.forceEngine s e) := by
  unfold State.forceEngine
  try dsimp only
  repeat'
    first
      | with_reducible
          first
            | assumption | apply State.keeps_orderHalt | apply Keeps.ite
      | intro _

theorem State.keeps_showSeq (h : Keeps b0 s) (e : EngIx) :
    Keeps b0 (State.showSeq s e) := by
  unfold State.showSeq
  try dsimp only
  repeat'
    with_reducible
      first
        | assumption | apply Keeps.setReg

theorem State.keeps_loadEngine (h : Keeps b0 s) (e : EngIx) :
    Keeps b0 (State.loadEngine s e) := by
  unfold State.loadEngine
  try dsimp only
  repeat'
    first
      | with_reducible
          first
            | assumption | apply State.keeps_setEng | apply State.keeps_showSeq | apply State.keeps_orphanLocks
            | apply Keeps.ite
      | intro _

theorem State.keeps_engineCtl (h : Keeps b0 s) (e : EngIx) (v : Word) :
    Keeps b0 (State.engineCtl s e v) := by
  unfold State.engineCtl
  try dsimp only
  repeat'
    first
      | with_reducible
          first
            | assumption | apply State.keeps_startEngine | apply State.keeps_haltEngine | apply State.keeps_forceEngine
            | apply State.keeps_loadEngine | apply Keeps.ite
      | intro _

theorem State.keeps_engineStat (h : Keeps b0 s) (e : EngIx) (v : Word) :
    Keeps b0 (State.engineStat s e v) := by
  unfold State.engineStat
  try dsimp only
  repeat'
    with_reducible
      first
        | assumption | apply State.keeps_setEng

theorem State.keeps_enginePc (h : Keeps b0 s) (e : EngIx) (v : Word) :
    Keeps b0 (State.enginePc s e v) := by
  unfold State.enginePc
  try dsimp only
  repeat'
    first
      | with_reducible
          first
            | assumption | apply State.keeps_showSeq | apply State.keeps_setEng | apply Keeps.ite
      | intro _

theorem State.keeps_engineWdt (h : Keeps b0 s) (e : EngIx) (v : Word) :
    Keeps b0 (State.engineWdt s e v) := by
  unfold State.engineWdt
  try dsimp only
  repeat'
    with_reducible
      first
        | assumption | apply State.keeps_put | apply State.keeps_setEng

theorem State.keeps_wroteEng (h0 : Keeps b0 s) (h1 : Keeps b0 t) (a : Nat) (v : Word) :
    Keeps b0 (State.wroteEng s t a v) := by
  unfold State.wroteEng
  try dsimp only
  repeat'
    first
      | with_reducible
          first
            | assumption | apply State.keeps_engineCtl | apply State.keeps_engineStat | apply State.keeps_enginePc
            | apply State.keeps_engineWdt | apply Keeps.ite
      | intro _ | split

theorem State.keeps_strayEvent (h : Keeps b0 s) (source : Nat) (ch : Nat) :
    Keeps b0 (State.strayEvent s source ch) := by
  unfold State.strayEvent
  try dsimp only
  repeat'
    first
      | with_reducible
          first
            | assumption | apply State.keeps_record | apply State.keeps_put
      | intro _

theorem State.keeps_fireChannel (h : Keeps b0 s) (r : Nat) (ch : Nat) :
    Keeps b0 (State.fireChannel s r ch).1 := by
  unfold State.fireChannel
  try dsimp only
  repeat'
    first
      | with_reducible
          first
            | assumption | apply State.keeps_violation | apply State.keeps_strayEvent | apply Keeps.ite | apply Keeps.ite_fst
      | simp only [Keeps.upd] | intro _

theorem State.keeps_releaseLock (h : Keeps b0 s) (r : Nat) (k : Nat) :
    Keeps b0 (State.releaseLock s r k).1 := by
  unfold State.releaseLock
  try dsimp only
  repeat'
    first
      | with_reducible
          first
            | assumption | apply State.keeps_violation | apply State.keeps_freeLock | apply Keeps.ite | apply Keeps.ite_fst
      | intro _

theorem State.keeps_clearOrphan (h : Keeps b0 s) (r : Nat) (k : Nat) :
    Keeps b0 (State.clearOrphan s r k).1 := by
  unfold State.clearOrphan
  try dsimp only
  repeat'
    first
      | with_reducible
          first
            | assumption | apply State.keeps_violation | apply State.keeps_lower | apply Keeps.ite | apply Keeps.ite_fst
      | intro _

theorem State.keeps_channelWrite (h : Keeps b0 s) (r : Nat) (c : Nat) (v : Word) :
    Keeps b0 (State.channelWrite s r c v).1 := by
  unfold State.channelWrite
  try dsimp only
  repeat'
    first
      | with_reducible
          first
            | assumption | apply State.keeps_violation | apply Keeps.setReg | apply Keeps.ite | apply Keeps.ite_fst
      | intro _

theorem State.keeps_hpendClear (h : Keeps b0 s) (ns : Bool) (w : Nat) (v : Word) :
    Keeps b0 (State.hpendClear s ns w v) := by
  unfold State.hpendClear
  try dsimp only
  repeat'
    with_reducible
      first
        | assumption | apply Keeps.setReg

theorem State.keeps_lockWrite (h : Keeps b0 s) (r : Nat) (k : Nat) (v : Word) :
    Keeps b0 (State.lockWrite s r k v).1 := by
  unfold State.lockWrite
  try dsimp only
  repeat'
    first
      | with_reducible
          first
            | assumption | apply State.keeps_violation | apply State.keeps_put | apply Keeps.ite | apply Keeps.ite_fst
      | intro _

theorem State.keeps_wroteEvc (h0 : Keeps b0 s) (h1 : Keeps b0 t) (r : Nat) (a : Nat) (v : Word) :
    Keeps b0 (State.wroteEvc s t r a v).1 := by
  unfold State.wroteEvc
  try dsimp only
  repeat'
    first
      | with_reducible
          first
            | assumption | apply State.keeps_fireChannel | apply State.keeps_acquire | apply State.keeps_releaseLock
            | apply State.keeps_clearOrphan | apply State.keeps_channelWrite | apply State.keeps_hpendClear
            | apply State.keeps_lockWrite | apply Keeps.ite | apply Keeps.ite_fst | refine Keeps.of_fst ‹_ = _› ?_
      | intro _ | split

theorem State.keeps_startCalibration (h : Keeps b0 s) (c : Chain) :
    Keeps b0 (State.startCalibration s c) := by
  unfold State.startCalibration
  try dsimp only
  repeat'
    with_reducible
      first
        | assumption | apply State.keeps_stopWindows | apply State.keeps_setBit | apply State.keeps_raise

theorem State.keeps_calibrateChain (h : Keeps b0 s) (c : Chain) :
    Keeps b0 (State.calibrateChain s c) := by
  unfold State.calibrateChain
  try dsimp only
  repeat'
    with_reducible
      first
        | assumption | apply State.keeps_reconcile | apply State.keeps_startCalibration

theorem State.keeps_recalChain (h : Keeps b0 s) (c : Chain) :
    Keeps b0 (State.recalChain s c) := by
  unfold State.recalChain
  try dsimp only
  repeat'
    first
      | with_reducible
          first
            | assumption | apply State.keeps_calibrateChain | apply Keeps.ite
      | intro _

theorem State.keeps_wroteRxc (h0 : Keeps b0 s) (h1 : Keeps b0 t) (a : Nat) (v : Word) :
    Keeps b0 (State.wroteRxc s t a v) := by
  unfold State.wroteRxc
  try dsimp only
  repeat'
    first
      | with_reducible
          first
            | assumption | apply State.keeps_recalChain | apply Keeps.ite
      | intro _

theorem State.keeps_releaseLane (h : Keeps b0 s) (n : LaneIx) :
    Keeps b0 (State.releaseLane s n) := by
  unfold State.releaseLane
  try dsimp only
  repeat'
    first
      | with_reducible
          first
            | assumption | apply State.keeps_toSearch
      | split

theorem State.keeps_restartLane (h : Keeps b0 s) (n : LaneIx) :
    Keeps b0 (State.restartLane s n) := by
  unfold State.restartLane
  try dsimp only
  repeat'
    first
      | with_reducible
          first
            | assumption | apply State.keeps_toSearch | apply State.keeps_abortFrame
      | split

theorem State.keeps_wroteLan (h0 : Keeps b0 s) (h1 : Keeps b0 t) (a : Nat) (v : Word) :
    Keeps b0 (State.wroteLan s t a v) := by
  unfold State.wroteLan
  try dsimp only
  repeat'
    first
      | with_reducible
          first
            | assumption | apply State.keeps_releaseLane | apply State.keeps_restartLane | apply Keeps.ite
      | intro _ | split

theorem State.keeps_synCommand (h : Keeps b0 s) (op : Nat) (khz : Nat) :
    Keeps b0 (State.synCommand s op khz) := by
  unfold State.synCommand
  try dsimp only
  repeat'
    first
      | with_reducible
          first
            | assumption | apply State.keeps_raise | apply Keeps.ite
      | simp only [Keeps.upd] | intro _

theorem State.keeps_wroteTx (h0 : Keeps b0 s) (h1 : Keeps b0 t) (a : Nat) (v : Word) :
    Keeps b0 (State.wroteTx s t a v) := by
  unfold State.wroteTx
  try dsimp only
  repeat'
    first
      | with_reducible
          first
            | assumption | apply State.keeps_synCommand | apply State.keeps_noteTarget | apply Keeps.ite
      | intro _

theorem State.keeps_writeMargins (h : Keeps b0 s) :
    Keeps b0 (State.writeMargins s) := by
  unfold State.writeMargins
  try dsimp only
  repeat'
    first
      | with_reducible
          first
            | assumption | apply State.keeps_put | apply Keeps.each | apply Keeps.setReg | apply State.keeps_log
            | apply Keeps.ite
      | intro _

theorem State.keeps_commitPlan (h : Keeps b0 s) :
    Keeps b0 (State.commitPlan s) := by
  unfold State.commitPlan
  try dsimp only
  repeat'
    first
      | with_reducible
          first
            | assumption | apply State.keeps_writeMargins | apply State.keeps_pointWritten | apply Keeps.ite
      | intro _

theorem State.keeps_planSettled (h : Keeps b0 s) :
    Keeps b0 (State.planSettled s) := by
  unfold State.planSettled
  try dsimp only
  repeat'
    first
      | with_reducible
          first
            | assumption | apply State.keeps_commitPlan | apply Keeps.ite
      | intro _

theorem State.keeps_post (h : Keeps b0 s) (outcome : Nat) (slot : Nat) (desc : Nat) :
    Keeps b0 (State.post s outcome slot desc) := by
  unfold State.post
  try dsimp only
  repeat'
    first
      | with_reducible
          first
            | assumption | apply State.keeps_raise | apply State.keeps_fire | apply Keeps.ite
      | simp only [Keeps.upd] | intro _

theorem State.keeps_share (h : Keeps b0 s) (x : SphLater) :
    Keeps b0 (State.share s x) := by
  unfold State.share
  try dsimp only
  repeat'
    first
      | with_reducible
          first
            | assumption | apply State.keeps_sendLater | apply Keeps.ite
      | simp only [Keeps.upd] | intro _

theorem State.keeps_mirrorRequest (h : Keeps b0 s) (desc : Nat) (index : Nat) (mode : Nat) :
    Keeps b0 (State.mirrorRequest s desc index mode) := by
  unfold State.mirrorRequest
  try dsimp only
  repeat'
    with_reducible
      first
        | assumption | apply State.keeps_share

theorem State.keeps_submitRequest (h : Keeps b0 s) (mode : Nat) (index : Nat) (desc : Nat) :
    Keeps b0 (State.submitRequest s mode index desc) := by
  unfold State.submitRequest
  try dsimp only
  repeat'
    first
      | with_reducible
          first
            | assumption | apply State.keeps_post | apply State.keeps_mirrorRequest | apply State.keeps_addPending
            | apply Keeps.ite
      | intro _

theorem State.keeps_mirror (h : Keeps b0 s) (type : Nat) (payload : List Byte) :
    Keeps b0 (State.mirror s type payload) := by
  unfold State.mirror
  try dsimp only
  repeat'
    with_reducible
      first
        | assumption | apply State.keeps_share

theorem State.keeps_mirrorDone (h : Keeps b0 s) (desc : Nat) (outcome : Nat) :
    Keeps b0 (State.mirrorDone s desc outcome) := by
  unfold State.mirrorDone
  try dsimp only
  repeat'
    with_reducible
      first
        | assumption | apply State.keeps_mirror

theorem State.keeps_forget (h : Keeps b0 s) (desc : Nat) :
    Keeps b0 (State.forget s desc) := by
  unfold State.forget
  try dsimp only
  repeat'
    first
      | with_reducible
          first
            | assumption
      | simp only [Keeps.upd]

theorem State.keeps_cancelRequest (h : Keeps b0 s) (desc : Nat) :
    Keeps b0 (State.cancelRequest s desc) := by
  unfold State.cancelRequest
  try dsimp only
  repeat'
    first
      | with_reducible
          first
            | assumption | apply State.keeps_mirrorDone | apply State.keeps_post | apply State.keeps_forget | apply Keeps.ite
      | intro _

theorem State.keeps_setEntry (h : Keeps b0 s) (i : Nat) (e : Nat) :
    Keeps b0 (State.setEntry s i e) := by
  unfold State.setEntry
  try dsimp only
  repeat'
    first
      | with_reducible
          first
            | assumption | apply State.keeps_markDirty | apply State.keeps_pokeEntry | apply Keeps.ite
      | intro _

theorem State.keeps_sfmUpdate (h : Keeps b0 s) (i : Nat) (f : Nat → Nat) :
    Keeps b0 (State.sfmUpdate s i f) := by
  unfold State.sfmUpdate
  try dsimp only
  repeat'
    first
      | with_reducible
          first
            | assumption | apply State.keeps_setEntry | apply Keeps.ite
      | intro _

theorem State.keeps_heard (h : Keeps b0 s) (err : Int) (i : Nat) :
    Keeps b0 (State.heard s err i) := by
  unfold State.heard
  try dsimp only
  repeat'
    with_reducible
      first
        | assumption | apply State.keeps_sfmUpdate

theorem State.keeps_missed (h : Keeps b0 s) (i : Nat) :
    Keeps b0 (State.missed s i) := by
  unfold State.missed
  try dsimp only
  repeat'
    with_reducible
      first
        | assumption | apply State.keeps_sfmUpdate

theorem State.keeps_wroteSfm (h0 : Keeps b0 s) (h1 : Keeps b0 t) (a : Nat) (v : Word) :
    Keeps b0 (State.wroteSfm s t a v) := by
  unfold State.wroteSfm
  try dsimp only
  repeat'
    first
      | with_reducible
          first
            | assumption | apply State.keeps_putB | apply State.keeps_planSettled | apply State.keeps_runBit
            | apply State.keeps_adjust | apply State.keeps_submitRequest | apply State.keeps_cancelRequest
            | apply State.keeps_heard | apply State.keeps_missed | apply Keeps.ite
      | intro _

theorem State.keeps_orderClear (h : Keeps b0 s) :
    Keeps b0 (State.orderClear s) := by
  unfold State.orderClear
  try dsimp only
  repeat'
    first
      | with_reducible
          first
            | assumption | apply State.keeps_startClear | apply Keeps.ite
      | intro _

theorem State.keeps_putOld (h : Keeps b0 s) (r : Nat) (e : Nat) :
    Keeps b0 (State.putOld s r e) := by
  unfold State.putOld
  try dsimp only
  repeat'
    first
      | with_reducible
          first
            | assumption | apply Keeps.each | apply Keeps.setReg
      | intro _

theorem State.keeps_requestedUpdate (h : Keeps b0 s) (r : Nat) :
    Keeps b0 (State.requestedUpdate s r) := by
  unfold State.requestedUpdate
  try dsimp only
  repeat'
    first
      | with_reducible
          first
            | assumption | apply State.keeps_putOld | apply State.keeps_put | apply State.keeps_violation
            | apply State.keeps_setEntry | apply Keeps.ite
      | intro _

theorem State.keeps_routeQuery (h : Keeps b0 s) (r : Nat) (i : Nat) :
    Keeps b0 (State.routeQuery s r i) := by
  unfold State.routeQuery
  try dsimp only
  repeat'
    first
      | with_reducible
          first
            | assumption | apply Keeps.setReg | apply State.keeps_draw | refine Keeps.of_snd ‹_ = _› ?_
      | split

theorem State.keeps_wroteCst (h0 : Keeps b0 s) (h1 : Keeps b0 t) (r : Nat) (a : Nat) (v : Word) :
    Keeps b0 (State.wroteCst s t r a v) := by
  unfold State.wroteCst
  try dsimp only
  repeat'
    first
      | with_reducible
          first
            | assumption | apply State.keeps_orderClear | apply State.keeps_requestedUpdate | apply State.keeps_routeQuery
            | apply Keeps.ite
      | intro _

theorem State.keeps_flushKeys (h : Keeps b0 s) :
    Keeps b0 (State.flushKeys s) := by
  unfold State.flushKeys
  try dsimp only
  repeat'
    first
      | with_reducible
          first
            | assumption
      | simp only [Keeps.upd]

theorem State.keeps_endUnstarted (h : Keeps b0 s) (d : JobDesc) (ns : Bool) (status : Nat) :
    Keeps b0 (State.endUnstarted s d ns status) := by
  unfold State.endUnstarted
  try dsimp only
  repeat'
    first
      | with_reducible
          first
            | assumption | apply State.keeps_raise | apply State.keeps_unstartedRecord | apply Keeps.ite
      | intro _

theorem State.keeps_judgeJob (h : Keeps b0 s) (r : Nat) (ns : Bool) (d : JobDesc) :
    Keeps b0 (State.judgeJob s r ns d) := by
  unfold State.judgeJob
  try dsimp only
  repeat'
    first
      | with_reducible
          first
            | assumption | apply State.keeps_raise | apply State.keeps_lower | apply State.keeps_endUnstarted | apply Keeps.ite
      | simp only [Keeps.upd] | intro _ | split

theorem State.keeps_submitJob (h : Keeps b0 s) (r : Nat) (ns : Bool) (d : JobDesc) :
    Keeps b0 (State.submitJob s r ns d) := by
  unfold State.submitJob
  try dsimp only
  repeat'
    first
      | with_reducible
          first
            | assumption | apply State.keeps_ownAccess | apply State.keeps_judgeJob
      | intro _

theorem State.keeps_wroteCip (h0 : Keeps b0 s) (h1 : Keeps b0 t) (r : Nat) (a : Nat) (v : Word) :
    Keeps b0 (State.wroteCip s t r a v) := by
  unfold State.wroteCip
  try dsimp only
  repeat'
    first
      | with_reducible
          first
            | assumption | apply State.keeps_flushKeys | apply State.keeps_submitJob | apply Keeps.ite
      | intro _

theorem State.keeps_requeue (h : Keeps b0 s) (r : Option TxReq) :
    Keeps b0 (State.requeue s r) := by
  unfold State.requeue
  try dsimp only
  repeat'
    first
      | with_reducible
          first
            | assumption
      | simp only [Keeps.upd] | split

theorem State.keeps_cancelLaunch (h : Keeps b0 s) (l : Launch) :
    Keeps b0 (State.cancelLaunch s l) := by
  unfold State.cancelLaunch
  try dsimp only
  repeat'
    first
      | with_reducible
          first
            | assumption | apply State.keeps_requeue | apply State.keeps_skipBeacon
      | split

theorem State.keeps_dropLaunches (h : Keeps b0 s) :
    Keeps b0 (State.dropLaunches s) := by
  unfold State.dropLaunches
  try dsimp only
  repeat'
    first
      | with_reducible
          first
            | assumption | apply Keeps.each | apply State.keeps_cancelLaunch
      | simp only [Keeps.upd] | intro _

theorem State.keeps_dropHop (h : Keeps b0 s) :
    Keeps b0 (State.dropHop s) := by
  unfold State.dropHop
  try dsimp only
  repeat'
    first
      | with_reducible
          first
            | assumption | apply State.keeps_cancelLaunch | apply Keeps.ite
      | simp only [Keeps.upd] | intro _ | split

theorem State.keeps_pairOn (h : Keeps b0 s) :
    Keeps b0 (State.pairOn s) := by
  unfold State.pairOn
  try dsimp only
  repeat'
    first
      | with_reducible
          first
            | assumption | apply State.keeps_sendIdles | apply State.keeps_raise | apply State.keeps_setPair
            | apply State.keeps_dropLaunches | apply State.keeps_dropHop | apply Keeps.ite
      | simp only [Keeps.upd] | intro _

theorem State.keeps_pairCtlWritten (h : Keeps b0 s) (old : Word) :
    Keeps b0 (State.pairCtlWritten s old) := by
  unfold State.pairCtlWritten
  try dsimp only
  repeat'
    first
      | with_reducible
          first
            | assumption | apply State.keeps_pairOn | apply State.keeps_pairOff | apply Keeps.ite
      | intro _

theorem State.keeps_promote (h : Keeps b0 s) :
    Keeps b0 (State.promote s) := by
  unfold State.promote
  try dsimp only
  repeat'
    first
      | with_reducible
          first
            | assumption | apply Keeps.ite
      | simp only [Keeps.upd] | intro _

theorem State.keeps_enterAligning (h : Keeps b0 s) :
    Keeps b0 (State.enterAligning s) := by
  unfold State.enterAligning
  try dsimp only
  repeat'
    first
      | with_reducible
          first
            | assumption | apply State.keeps_setPair | apply State.keeps_put
      | simp only [Keeps.upd]

theorem State.keeps_rejoin (h : Keeps b0 s) :
    Keeps b0 (State.rejoin s) := by
  unfold State.rejoin
  try dsimp only
  repeat'
    first
      | with_reducible
          first
            | assumption | apply State.keeps_put | apply State.keeps_enterAligning | apply State.keeps_setPair
            | apply Keeps.ite
      | simp only [Keeps.upd] | intro _

theorem State.keeps_startHandover (h : Keeps b0 s) :
    Keeps b0 (State.startHandover s) := by
  unfold State.startHandover
  try dsimp only
  repeat'
    first
      | with_reducible
          first
            | assumption | apply State.keeps_mirror | apply Keeps.ite
      | simp only [Keeps.upd] | intro _

theorem State.keeps_wroteSph (h0 : Keeps b0 s) (h1 : Keeps b0 t) (a : Nat) (v : Word) :
    Keeps b0 (State.wroteSph s t a v) := by
  unfold State.wroteSph
  try dsimp only
  repeat'
    first
      | with_reducible
          first
            | assumption | apply State.keeps_pairCtlWritten | apply State.keeps_promote | apply State.keeps_rejoin
            | apply State.keeps_startHandover | apply Keeps.ite
      | intro _

theorem State.keeps_feederCtlWritten (h : Keeps b0 s) (old : Word) :
    Keeps b0 (State.feederCtlWritten s old) := by
  unfold State.feederCtlWritten
  try dsimp only
  repeat'
    first
      | with_reducible
          first
            | assumption | apply State.keeps_put | apply State.keeps_raise | apply State.keeps_lower | apply Keeps.ite
      | simp only [Keeps.upd] | intro _

theorem State.keeps_setChan (h : Keeps b0 s) (k : Fin 8) (c : FdrChan) :
    Keeps b0 (State.setChan s k c) := by
  unfold State.setChan
  try dsimp only
  repeat'
    first
      | with_reducible
          first
            | assumption
      | simp only [Keeps.upd]

theorem State.keeps_channelWritten (h : Keeps b0 s) (k : Fin 8) (old : Word) :
    Keeps b0 (State.channelWritten s k old) := by
  unfold State.channelWritten
  try dsimp only
  repeat'
    first
      | with_reducible
          first
            | assumption | apply State.keeps_setChan | apply Keeps.ite
      | intro _

theorem State.keeps_wroteFdr (h0 : Keeps b0 s) (h1 : Keeps b0 t) (a : Nat) :
    Keeps b0 (State.wroteFdr s t a) := by
  unfold State.wroteFdr
  try dsimp only
  repeat'
    first
      | with_reducible
          first
            | assumption | apply State.keeps_feederCtlWritten | apply State.keeps_channelWritten | apply Keeps.ite
      | intro _ | split

theorem State.keeps_drive (h : Keeps b0 s) (k : Nat) (v : Bool) :
    Keeps b0 (State.drive s k v) := by
  unfold State.drive
  try dsimp only
  repeat'
    first
      | with_reducible
          first
            | assumption | apply State.keeps_lower | apply State.keeps_putB | apply State.keeps_startWindow
      | simp only [Keeps.upd]

theorem State.keeps_command (h : Keeps b0 s) (k : Nat) (v : Bool) :
    Keeps b0 (State.command s k v) := by
  unfold State.command
  try dsimp only
  repeat'
    first
      | with_reducible
          first
            | assumption | apply State.keeps_raise | apply State.keeps_putB | apply State.keeps_lower | apply State.keeps_drive
            | apply Keeps.ite
      | intro _

theorem State.keeps_commandAll (h : Keeps b0 s) (mask : Nat) (v : Nat) :
    Keeps b0 (State.commandAll s mask v) := by
  unfold State.commandAll
  try dsimp only
  repeat'
    first
      | with_reducible
          first
            | assumption | apply Keeps.each | apply State.keeps_command | apply Keeps.ite
      | intro _

theorem State.keeps_ctrFault (h : Keeps b0 s) (k : Nat) (code : Nat) :
    Keeps b0 (State.ctrFault s k code) := by
  unfold State.ctrFault
  try dsimp only
  repeat'
    first
      | with_reducible
          first
            | assumption | apply State.keeps_log | apply State.keeps_put | apply State.keeps_drive | apply State.keeps_lower
            | apply Keeps.ite
      | intro _

theorem State.keeps_newFeedback (h : Keeps b0 s) (k : Nat) (fb : Bool) :
    Keeps b0 (State.newFeedback s k fb) := by
  unfold State.newFeedback
  try dsimp only
  repeat'
    first
      | with_reducible
          first
            | assumption | apply State.keeps_putB | apply State.keeps_ctrFault | apply Keeps.ite
      | intro _

theorem State.keeps_polarityWritten (h : Keeps b0 s) :
    Keeps b0 (State.polarityWritten s) := by
  unfold State.polarityWritten
  try dsimp only
  repeat'
    first
      | with_reducible
          first
            | assumption | apply Keeps.each | apply State.keeps_newFeedback
      | intro _

theorem State.keeps_clearFault (h : Keeps b0 s) (k : Nat) :
    Keeps b0 (State.clearFault s k) := by
  unfold State.clearFault
  try dsimp only
  repeat'
    first
      | with_reducible
          first
            | assumption | apply State.keeps_startWindow | apply State.keeps_put | apply Keeps.ite
      | simp only [Keeps.upd] | intro _

theorem State.keeps_clearFaults (h : Keeps b0 s) (v : Nat) :
    Keeps b0 (State.clearFaults s v) := by
  unfold State.clearFaults
  try dsimp only
  repeat'
    first
      | with_reducible
          first
            | assumption | apply Keeps.each | apply State.keeps_clearFault | apply Keeps.ite
      | intro _

theorem State.keeps_wroteCtr (h0 : Keeps b0 s) (h1 : Keeps b0 t) (a : Nat) (k : Nat) (v : Word) :
    Keeps b0 (State.wroteCtr s t a k v) := by
  unfold State.wroteCtr
  try dsimp only
  repeat'
    first
      | with_reducible
          first
            | assumption | apply State.keeps_commandAll | apply State.keeps_polarityWritten | apply State.keeps_clearFaults
            | apply State.keeps_withEdges | apply Keeps.setReg | apply State.keeps_put | apply Keeps.ite
      | intro _

theorem State.keeps_timerStart (h : Keeps b0 s) (k : TmrIx) :
    Keeps b0 (State.timerStart s k) := by
  unfold State.timerStart
  try dsimp only
  repeat'
    with_reducible
      first
        | assumption | apply State.keeps_setTmr

theorem State.keeps_timerStop (h : Keeps b0 s) (k : TmrIx) :
    Keeps b0 (State.timerStop s k) := by
  unfold State.timerStop
  try dsimp only
  repeat'
    with_reducible
      first
        | assumption | apply State.keeps_setTmr

theorem State.keeps_capture (h : Keeps b0 s) (k : TmrIx) :
    Keeps b0 (State.capture s k) := by
  unfold State.capture
  try dsimp only
  repeat'
    first
      | with_reducible
          first
            | assumption | apply State.keeps_pushCapture
      | split

theorem State.keeps_clearQueue (h : Keeps b0 s) (k : TmrIx) :
    Keeps b0 (State.clearQueue s k) := by
  unfold State.clearQueue
  try dsimp only
  repeat'
    with_reducible
      first
        | assumption | apply State.keeps_setTmr

theorem State.keeps_timerCtl (h : Keeps b0 s) (k : TmrIx) (v : Word) :
    Keeps b0 (State.timerCtl s k v) := by
  unfold State.timerCtl
  try dsimp only
  repeat'
    first
      | with_reducible
          first
            | assumption | apply State.keeps_timerStart | apply State.keeps_timerStop | apply State.keeps_capture
            | apply State.keeps_clearQueue | apply Keeps.ite
      | intro _

theorem State.keeps_edgeTio (h : Keeps b0 s) (k : TmrIx) (old : Bool) :
    Keeps b0 (State.edgeTio s k old) := by
  unfold State.edgeTio
  try dsimp only
  repeat'
    first
      | with_reducible
          first
            | assumption | apply State.keeps_capture | apply Keeps.ite
      | intro _

theorem State.keeps_timerCfg (h : Keeps b0 s) (k : TmrIx) (v : Word) :
    Keeps b0 (State.timerCfg s k v) := by
  unfold State.timerCfg
  try dsimp only
  repeat'
    first
      | with_reducible
          first
            | assumption | apply Keeps.setReg | apply State.keeps_edgeTio | apply State.keeps_setTmr | apply Keeps.ite
      | intro _

theorem State.keeps_timerCountWrite (h : Keeps b0 s) (k : TmrIx) (hi : Bool) (v : Word) :
    Keeps b0 (State.timerCountWrite s k hi v) := by
  unfold State.timerCountWrite
  try dsimp only
  repeat'
    first
      | with_reducible
          first
            | assumption | apply State.keeps_setTmr | apply Keeps.ite
      | intro _

theorem State.keeps_timerCmpHi (h : Keeps b0 s) (k : TmrIx) (v : Word) :
    Keeps b0 (State.timerCmpHi s k v) := by
  unfold State.timerCmpHi
  try dsimp only
  repeat'
    with_reducible
      first
        | assumption | apply State.keeps_put | apply State.keeps_setTmr

theorem State.keeps_wroteTmr (h0 : Keeps b0 s) (h1 : Keeps b0 t) (a : Nat) (v : Word) :
    Keeps b0 (State.wroteTmr s t a v) := by
  unfold State.wroteTmr
  try dsimp only
  repeat'
    first
      | with_reducible
          first
            | assumption | apply State.keeps_timerCtl | apply State.keeps_timerCfg | apply State.keeps_timerCountWrite
            | apply State.keeps_timerCmpHi | apply Keeps.ite
      | intro _ | split

theorem State.keeps_noteSeen (h : Keeps b0 s) :
    Keeps b0 (State.noteSeen s) := by
  unfold State.noteSeen
  try dsimp only
  repeat'
    first
      | with_reducible
          first
            | assumption | apply Keeps.each | apply State.keeps_raise | apply Keeps.ite
      | intro _

theorem State.keeps_irqComplete (h : Keeps b0 s) (ctx : Nat) (n : Nat) :
    Keeps b0 (State.irqComplete s ctx n) := by
  unfold State.irqComplete
  try dsimp only
  repeat'
    first
      | with_reducible
          first
            | assumption | apply State.keeps_lower | apply State.keeps_put | apply State.keeps_noteSeen | apply Keeps.ite
      | intro _

theorem State.keeps_irqSrcWrite (h : Keeps b0 s) (ns : Bool) (n : Nat) (v : Word) :
    Keeps b0 (State.irqSrcWrite s ns n v) := by
  unfold State.irqSrcWrite
  try dsimp only
  repeat'
    first
      | with_reducible
          first
            | assumption | apply State.keeps_put | apply State.keeps_noteSeen | apply Keeps.ite
      | intro _

theorem State.keeps_holdWritten (h : Keeps b0 s) (g : Nat) :
    Keeps b0 (State.holdWritten s g) := by
  unfold State.holdWritten
  try dsimp only
  repeat'
    first
      | with_reducible
          first
            | assumption | apply State.keeps_noteSeen | apply State.keeps_lower | apply Keeps.ite
      | intro _

theorem State.keeps_wroteIrq (h0 : Keeps b0 s) (h1 : Keeps b0 t) (r : Nat) (a : Nat) (v : Word) :
    Keeps b0 (State.wroteIrq s t r a v) := by
  unfold State.wroteIrq
  try dsimp only
  repeat'
    first
      | with_reducible
          first
            | assumption | apply State.keeps_irqComplete | apply State.keeps_irqSrcWrite | apply State.keeps_holdWritten
            | apply Keeps.ite
      | intro _ | split

theorem State.keeps_flashCommand (h : Keeps b0 s) (op : Nat) :
    Keeps b0 (State.flashCommand s op) := by
  unfold State.flashCommand
  try dsimp only
  repeat'
    first
      | with_reducible
          first
            | assumption | apply State.keeps_raise | apply State.keeps_startCommand | apply Keeps.ite
      | simp only [Keeps.upd] | intro _

theorem State.keeps_passwordWord (h : Keeps b0 s) (w : BitVec 16) :
    Keeps b0 (State.passwordWord s w) := by
  unfold State.passwordWord
  try dsimp only
  repeat'
    first
      | with_reducible
          first
            | assumption | apply State.keeps_raise | apply Keeps.ite | apply Keeps.foldl | apply Keeps.foldl_fst
      | simp only [Keeps.upd] | intro _

theorem State.keeps_wroteFlc (h0 : Keeps b0 s) (h1 : Keeps b0 t) (a : Nat) (v : Word) :
    Keeps b0 (State.wroteFlc s t a v) := by
  unfold State.wroteFlc
  try dsimp only
  repeat'
    first
      | with_reducible
          first
            | assumption | apply State.keeps_flashCommand | apply State.keeps_passwordWord | apply State.keeps_log
            | apply State.keeps_noteTarget | apply State.keeps_put | apply Keeps.ite
      | intro _

theorem State.keeps_makePlan (h : Keeps b0 s) :
    Keeps b0 (State.makePlan s) := by
  unfold State.makePlan
  try dsimp only
  repeat'
    first
      | with_reducible
          first
            | assumption | apply State.keeps_raise | apply Keeps.each | apply Keeps.setReg | apply State.keeps_put
            | apply State.keeps_pulse | apply Keeps.ite
      | simp only [Keeps.upd] | intro _

theorem State.keeps_rejectPlan (h : Keeps b0 s) :
    Keeps b0 (State.rejectPlan s) := by
  unfold State.rejectPlan
  try dsimp only
  repeat'
    first
      | with_reducible
          first
            | assumption | apply State.keeps_put | apply Keeps.ite
      | intro _

theorem State.keeps_wroteAge (h0 : Keeps b0 s) (h1 : Keeps b0 t) (a : Nat) (v : Word) :
    Keeps b0 (State.wroteAge s t a v) := by
  unfold State.wroteAge
  try dsimp only
  repeat'
    first
      | with_reducible
          first
            | assumption | apply State.keeps_planSettled | apply State.keeps_makePlan | apply State.keeps_approvePlan
            | apply State.keeps_rejectPlan | apply Keeps.ite
      | intro _

theorem State.keeps_wrote (h0 : Keeps b0 s) (h1 : Keeps b0 t) (r : Nat) (a : Nat) (k : Nat) (v : Word) :
    Keeps b0 (State.wrote s t r a k v).1 := by
  unfold State.wrote
  try dsimp only
  repeat'
    first
      | with_reducible
          first
            | assumption | apply State.keeps_wroteSys | apply State.keeps_wrotePwr | apply State.keeps_wroteMgb
            | apply State.keeps_wroteEth | apply State.keeps_wroteEng | apply State.keeps_wroteEvc | apply State.keeps_wroteRxc
            | apply State.keeps_wroteLan | apply State.keeps_wroteTx | apply State.keeps_wroteSfm | apply State.keeps_wroteCst
            | apply State.keeps_wroteCip | apply State.keeps_wroteSph | apply State.keeps_wroteFdr | apply State.keeps_wroteCtr
            | apply State.keeps_wroteTmr | apply State.keeps_wroteIrq | apply State.keeps_wroteFlc | apply State.keeps_wroteAge
            | refine Keeps.of_fst ‹_ = _› ?_
      | split

theorem State.keeps_writeRow (h : Keeps b0 s) (x : RegRow) (r : Nat) (a : Nat) (v : Word) :
    Keeps b0 (State.writeRow s x r a v).1 := by
  unfold State.writeRow
  try dsimp only
  repeat'
    first
      | with_reducible
          first
            | assumption | apply State.keeps_served | apply State.keeps_refuseLate | apply State.keeps_raise
            | apply State.keeps_post31 | apply State.keeps_wrote | apply Keeps.setReg | apply Keeps.ite | apply Keeps.ite_fst
      | intro _

theorem State.keeps_writeWindow (h : Keeps b0 s) (r : Nat) (a : Nat) (v : Word) :
    Keeps b0 (State.writeWindow s r a v).1 := by
  unfold State.writeWindow
  try dsimp only
  repeat'
    first
      | with_reducible
          first
            | assumption | apply State.keeps_violation | apply State.keeps_writeRow | apply State.keeps_takeTurn
            | apply Keeps.ite | apply Keeps.ite_fst | refine Keeps.of_fst ‹_ = _› ?_
      | intro _ | split

theorem State.keeps_store (h : Keeps b0 s) (r : Nat) (a : Nat) (n : Nat) (v : Nat) :
    Keeps b0 (State.store s r a n v).1 := by
  unfold State.store
  try dsimp only
  repeat'
    first
      | with_reducible
          first
            | assumption | apply State.keeps_writeWindow | apply State.keeps_violation | apply State.keeps_storePlace
            | apply State.keeps_takeTurn | apply Keeps.ite | apply Keeps.ite_fst | refine Keeps.of_fst ‹_ = _› ?_
      | intro _ | split

theorem State.keeps_busWrite (h : Keeps b0 s) (r : Nat) (a : Nat) (v : Word) :
    Keeps b0 (State.busWrite s r a v).1 := by
  unfold State.busWrite
  try dsimp only
  repeat'
    first
      | with_reducible
          first
            | assumption | apply State.keeps_store | apply Keeps.ite | apply Keeps.ite_fst
      | intro _

theorem State.keeps_firePort (h : Keeps b0 s) (e : EngIx) (t : Word24) :
    Keeps b0 (State.firePort s e t).1 := by
  unfold State.firePort
  try dsimp only
  repeat'
    with_reducible
      first
        | assumption | apply State.keeps_busWrite

theorem State.keeps_trigExc (h : Keeps b0 s) (e : EngIx) (cfg : Word) (d : Nat) (t : Word24) :
    Keeps b0 (State.trigExc s e cfg d t).1 := by
  unfold State.trigExc
  try dsimp only
  repeat'
    first
      | with_reducible
          first
            | assumption | apply State.keeps_firePort | apply State.keeps_draw | apply State.keeps_violation | apply Keeps.ite
            | apply Keeps.ite_fst
      | intro _

theorem State.keeps_firstExc (h : Keeps b0 s) (e : EngIx) (cfg : Word) (bad : Option (Exc × Bool)) (x4 : List Moved) :
    Keeps b0 (State.firstExc s e cfg bad x4).1 := by
  induction x4 generalizing s with
  | nil => exact h
  | cons x l ih =>
    unfold State.firstExc
    split
    · exact h
    · split
      · exact Keeps.of_fst ‹_ = _› (State.keeps_trigExc h _ _ _ _)
      · exact ih h

theorem State.keeps_raiseExc (h : Keeps b0 s) (e : EngIx) (cfg : Word) (x : Exc) (slotB : Bool) (w : BitVec 48) :
    Keeps b0 (State.raiseExc s e cfg x slotB w) := by
  unfold State.raiseExc
  try dsimp only
  repeat'
    first
      | with_reducible
          first
            | assumption | apply State.keeps_setEng | apply State.keeps_orderHalt | apply State.keeps_draw | apply Keeps.ite
      | intro _

theorem State.keeps_nextJobWord (h : Keeps b0 s) (e : EngIx) (v : Word) :
    Keeps b0 (State.nextJobWord s e v) := by
  unfold State.nextJobWord
  try dsimp only
  repeat'
    first
      | with_reducible
          first
            | assumption | apply Keeps.setReg | apply State.keeps_served | apply State.keeps_setEng | apply Keeps.ite
      | intro _

theorem State.keeps_trigger (h : Keeps b0 s) (e : EngIx) (d : Nat) (t : Word24) :
    Keeps b0 (State.trigger s e d t) := by
  unfold State.trigger
  try dsimp only
  repeat'
    first
      | with_reducible
          first
            | assumption | apply State.keeps_readLocal | apply State.keeps_setEng | apply State.keeps_writeLocal
            | apply State.keeps_nextJobWord | apply State.keeps_firePort | apply Keeps.ite | refine Keeps.of_fst ‹_ = _› ?_
      | intro _ | split

theorem State.keeps_retire (h : Keeps b0 s) (e : EngIx) (ms : List Moved) :
    Keeps b0 (State.retire s e ms) := by
  unfold State.retire
  try dsimp only
  repeat'
    first
      | with_reducible
          first
            | assumption | apply State.keeps_setEng | apply Keeps.each | apply State.keeps_trigger | apply Keeps.foldl
            | apply Keeps.foldl_fst
      | intro _

theorem State.keeps_await (h : Keeps b0 s) (e : EngIx) (st : Stall) :
    Keeps b0 (State.await s e st) := by
  unfold State.await
  try dsimp only
  repeat'
    first
      | with_reducible
          first
            | assumption | apply State.keeps_setEng
      | simp only [Keeps.upd]

theorem State.keeps_perform (h : Keeps b0 s) (e : EngIx) (cfg : Word) (w : BitVec 48) (ms : List Mv) :
    Keeps b0 (State.perform s e cfg w ms) := by
  unfold State.perform
  try dsimp only
  repeat'
    first
      | with_reducible
          first
            | assumption | apply State.keeps_readMoves | apply State.keeps_setEng | apply State.keeps_firstExc
            | apply State.keeps_raiseExc | apply State.keeps_onlyViolation | apply State.keeps_retire | apply State.keeps_await
            | apply Keeps.ite | apply Keeps.foldl | apply Keeps.foldl_fst | refine Keeps.of_fst ‹_ = _› ?_
      | intro _ | split

theorem State.keeps_attempt (h : Keeps b0 s) (e : EngIx) (w : BitVec 48) (ms : List Mv) :
    Keeps b0 (State.attempt s e w ms) := by
  unfold State.attempt
  try dsimp only
  repeat'
    first
      | with_reducible
          first
            | assumption | apply State.keeps_prefetch | apply State.keeps_perform | apply State.keeps_raiseExc
            | apply State.keeps_onlyViolation | apply State.keeps_await | apply Keeps.ite | refine Keeps.of_fst ‹_ = _› ?_
      | intro _ | split

theorem State.keeps_badDesc (h : Keeps b0 s) (desc : Nat) (cause : Nat) :
    Keeps b0 (State.badDesc s desc cause) := by
  unfold State.badDesc
  try dsimp only
  repeat'
    first
      | with_reducible
          first
            | assumption | apply State.keeps_record | apply State.keeps_put
      | intro _

theorem State.keeps_logPair (h : Keeps b0 s) :
    Keeps b0 (State.logPair s) := by
  unfold State.logPair
  try dsimp only
  repeat'
    with_reducible
      first
        | assumption | apply State.keeps_log

theorem State.keeps_estrange (h : Keeps b0 s) (cause : Fld) :
    Keeps b0 (State.estrange s cause) := by
  unfold State.estrange
  try dsimp only
  repeat'
    with_reducible
      first
        | assumption | apply State.keeps_logPair | apply State.keeps_raise | apply State.keeps_setPair

theorem State.keeps_serveAlignment (h : Keeps b0 s) :
    Keeps b0 (State.serveAlignment s) := by
  unfold State.serveAlignment
  try dsimp only
  repeat'
    first
      | with_reducible
          first
            | assumption | apply State.keeps_put | apply Keeps.each | apply State.keeps_mirror
            | apply State.keeps_mirrorRequest
      | simp only [Keeps.upd] | intro _

theorem State.keeps_beatAtPrimary (h : Keeps b0 s) (b : BeatBody) :
    Keeps b0 (State.beatAtPrimary s b) := by
  unfold State.beatAtPrimary
  try dsimp only
  repeat'
    first
      | with_reducible
          first
            | assumption | apply State.keeps_putB | apply State.keeps_dropLaunches | apply State.keeps_dropPeer
            | apply State.keeps_estrange | apply State.keeps_serveAlignment | apply State.keeps_lower | apply Keeps.ite
      | simp only [Keeps.upd] | intro _

theorem State.keeps_stopWith (h : Keeps b0 s) :
    Keeps b0 (State.stopWith s) := by
  unfold State.stopWith
  try dsimp only
  repeat'
    first
      | with_reducible
          first
            | assumption | apply State.keeps_runBit | apply Keeps.ite
      | simp only [Keeps.upd] | intro _

theorem State.keeps_followTime (h : Keeps b0 s) (b : BeatBody) :
    Keeps b0 (State.followTime s b) := by
  unfold State.followTime
  try dsimp only
  repeat'
    first
      | with_reducible
          first
            | assumption | apply State.keeps_put
      | simp only [Keeps.upd]

theorem State.keeps_beatTime (h : Keeps b0 s) (b : BeatBody) :
    Keeps b0 (State.beatTime s b) := by
  unfold State.beatTime
  try dsimp only
  repeat'
    first
      | with_reducible
          first
            | assumption | apply State.keeps_stopWith | apply State.keeps_adoptTime | apply State.keeps_followTime
            | apply Keeps.ite
      | simp only [Keeps.upd] | intro _

theorem State.keeps_checkBeat (h : Keeps b0 s) (b : BeatBody) (off : Int) :
    Keeps b0 (State.checkBeat s b off).1 := by
  unfold State.checkBeat
  try dsimp only
  repeat'
    first
      | with_reducible
          first
            | assumption | apply Keeps.ite | apply Keeps.ite_fst
      | simp only [Keeps.upd] | intro _

theorem State.keeps_countSum (h : Keeps b0 s) (made : Bool) :
    Keeps b0 (State.countSum s made) := by
  unfold State.countSum
  try dsimp only
  repeat'
    first
      | with_reducible
          first
            | assumption | apply State.keeps_lower | apply State.keeps_raise | apply Keeps.ite
      | simp only [Keeps.upd] | intro _

theorem State.keeps_beatAtStandby (h : Keeps b0 s) (b : BeatBody) :
    Keeps b0 (State.beatAtStandby s b) := by
  unfold State.beatAtStandby
  try dsimp only
  repeat'
    first
      | with_reducible
          first
            | assumption | apply State.keeps_put | apply State.keeps_beatTime | apply State.keeps_checkBeat
            | apply State.keeps_countSum | apply State.keeps_raise | apply State.keeps_setPair | apply State.keeps_estrange
            | apply Keeps.ite | apply Keeps.foldl | apply Keeps.foldl_fst | refine Keeps.of_fst ‹_ = _› ?_
      | simp only [Keeps.upd] | intro _ | split

theorem State.keeps_countEvent (h : Keeps b0 s) (n : Nat) :
    Keeps b0 (State.countEvent s n) := by
  unfold State.countEvent
  try dsimp only
  repeat'
    first
      | with_reducible
          first
            | assumption | apply State.keeps_bump | apply Keeps.ite
      | intro _

theorem State.keeps_sliceCounts (h : Keeps b0 s) :
    Keeps b0 (State.sliceCounts s) := by
  unfold State.sliceCounts
  try dsimp only
  repeat'
    first
      | with_reducible
          first
            | assumption | apply State.keeps_noteSeen | apply Keeps.each | apply State.keeps_countEvent
            | apply State.keeps_putB | apply Keeps.ite
      | simp only [Keeps.upd] | intro _

theorem State.keeps_becomeReady (h : Keeps b0 s) (i : Nat) :
    Keeps b0 (State.becomeReady s i) := by
  unfold State.becomeReady
  try dsimp only
  repeat'
    first
      | with_reducible
          first
            | assumption | apply State.keeps_setBit | apply Keeps.wipe | apply State.keeps_sliceCounts | apply Keeps.ite
      | simp only [Keeps.upd] | intro _ | split

theorem State.keeps_blockMoved (h : Keeps b0 s) (e : EngIx) (n : Nat) (i : Nat) :
    Keeps b0 (State.blockMoved s e n i) := by
  unfold State.blockMoved
  try dsimp only
  repeat'
    first
      | with_reducible
          first
            | assumption | apply State.keeps_setRemaining | apply Keeps.ite
      | intro _

theorem State.keeps_boundaryCaptures (h : Keeps b0 s) :
    Keeps b0 (State.boundaryCaptures s) := by
  unfold State.boundaryCaptures
  try dsimp only
  repeat'
    first
      | with_reducible
          first
            | assumption | apply State.keeps_captures | apply Keeps.ite
      | intro _

theorem State.keeps_commitWorld {s0 : State} (h0 : Keeps b0 s0) (h1 : Keeps b0 s) (ns : Bool) :
    Keeps b0 (State.commitWorld s0 s ns).1 := by
  unfold State.commitWorld
  try dsimp only
  repeat'
    first
      | with_reducible
          first
            | assumption | apply State.keeps_activate | apply State.keeps_stageResult | apply Keeps.ite | apply Keeps.ite_fst
      | intro _

theorem State.keeps_nextEpoch (h : Keeps b0 s) :
    Keeps b0 (State.nextEpoch s) := by
  unfold State.nextEpoch
  try dsimp only
  repeat'
    with_reducible
      first
        | assumption | apply State.keeps_put

theorem State.keeps_settle (s : State) (h : Keeps b0 t) :
    Keeps b0 (State.settle s t) := by
  unfold State.settle
  try dsimp only
  repeat'
    first
      | with_reducible
          first
            | assumption | apply State.keeps_startCalibration | apply State.keeps_setBit | apply State.keeps_lower
            | apply Keeps.each | apply State.keeps_setLane | apply State.keeps_reconcile | apply Keeps.ite
      | intro _

theorem State.keeps_commitWorlds (h : Keeps b0 s) (sec : Bool) (ns : Bool) :
    Keeps b0 (State.commitWorlds s sec ns) := by
  unfold State.commitWorlds
  try dsimp only
  repeat'
    first
      | with_reducible
          first
            | assumption | apply State.keeps_commitWorld | apply State.keeps_nextEpoch | apply State.keeps_settle
            | apply Keeps.ite
      | intro _ | split

theorem State.keeps_boundaryCommit (h : Keeps b0 s) :
    Keeps b0 (State.boundaryCommit s).1 := by
  unfold State.boundaryCommit
  try dsimp only
  repeat'
    with_reducible
      first
        | assumption | apply State.keeps_commitWorlds | apply State.keeps_putB

theorem State.keeps_viewSys (h : Keeps b0 s) (k : Nat) :
    Keeps b0 (State.viewSys s k).2 := by
  unfold State.viewSys
  try dsimp only
  repeat'
    first
      | with_reducible
          first
            | assumption | apply Keeps.ite
      | intro _ | split

theorem State.keeps_viewPwr (h : Keeps b0 s) (k : Nat) :
    Keeps b0 (State.viewPwr s k).2 := by
  unfold State.viewPwr
  try dsimp only
  repeat'
    first
      | with_reducible
          first
            | assumption | apply Keeps.ite
      | intro _ | split

theorem State.keeps_ptpShow (h : Keeps b0 s) :
    Keeps b0 (State.ptpShow s) := by
  unfold State.ptpShow
  try dsimp only
  repeat'
    with_reducible
      first
        | assumption | apply State.keeps_ptpNow | apply State.keeps_put

theorem State.keeps_viewEth (h : Keeps b0 s) (k : Nat) :
    Keeps b0 (State.viewEth s k).2 := by
  unfold State.viewEth
  try dsimp only
  repeat'
    first
      | with_reducible
          first
            | assumption | apply State.keeps_ptpShow | apply Keeps.ite
      | intro _ | split

theorem State.keeps_viewEng (h : Keeps b0 s) (k : Nat) :
    Keeps b0 (State.viewEng s k).2 := by
  unfold State.viewEng
  try dsimp only
  repeat'
    first
      | with_reducible
          first
            | assumption | apply Keeps.ite
      | intro _ | split

theorem State.keeps_viewEvc (h : Keeps b0 s) (r : Nat) (k : Nat) :
    Keeps b0 (State.viewEvc s r k).2 := by
  unfold State.viewEvc
  try dsimp only
  repeat'
    first
      | with_reducible
          first
            | assumption
      | split

theorem State.keeps_dcView (h : Keeps b0 s) :
    Keeps b0 (State.dcView s).2 := by
  unfold State.dcView
  try dsimp only
  repeat'
    first
      | with_reducible
          first
            | assumption | apply State.keeps_draw


theorem State.keeps_viewRxc (h : Keeps b0 s) (k : Nat) :
    Keeps b0 (State.viewRxc s k).2 := by
  unfold State.viewRxc
  try dsimp only
  repeat'
    first
      | with_reducible
          first
            | assumption | apply State.keeps_dcView | apply Keeps.ite
      | intro _ | split

theorem State.keeps_viewLaneStat (h : Keeps b0 s) (l : Lane) :
    Keeps b0 (State.viewLaneStat s l).2 := by
  unfold State.viewLaneStat
  try dsimp only
  repeat'
    first
      | with_reducible
          first
            | assumption | apply State.keeps_draw | apply Keeps.ite
      | intro _ | split

theorem State.keeps_viewAfc (h : Keeps b0 s) (l : Lane) :
    Keeps b0 (State.viewAfc s l).2 := by
  unfold State.viewAfc
  try dsimp only
  repeat'
    first
      | with_reducible
          first
            | assumption | apply State.keeps_draw | apply Keeps.ite
      | intro _ | split

theorem State.keeps_viewLan (h : Keeps b0 s) (k : Nat) :
    Keeps b0 (State.viewLan s k).2 := by
  unfold State.viewLan
  try dsimp only
  repeat'
    first
      | with_reducible
          first
            | assumption | apply State.keeps_viewLaneStat | apply State.keeps_draw | apply State.keeps_viewAfc
            | apply Keeps.ite | refine Keeps.of_snd ‹_ = _› ?_
      | intro _ | split

theorem State.keeps_viewLdp (h : Keeps b0 s) (k : Nat) :
    Keeps b0 (State.viewLdp s k).2 := by
  unfold State.viewLdp
  try dsimp only
  repeat'
    first
      | with_reducible
          first
            | assumption | apply Keeps.ite | apply Keeps.foldl | apply Keeps.foldl_fst
      | intro _ | split

theorem State.keeps_viewTx (h : Keeps b0 s) (k : Nat) :
    Keeps b0 (State.viewTx s k).2 := by
  unfold State.viewTx
  try dsimp only
  repeat'
    first
      | with_reducible
          first
            | assumption | apply Keeps.ite
      | intro _ | split

theorem State.keeps_takeResult (h : Keeps b0 s) :
    Keeps b0 (State.takeResult s).2 := by
  unfold State.takeResult
  try dsimp only
  repeat'
    first
      | with_reducible
          first
            | assumption
      | simp only [Keeps.upd] | split

theorem State.keeps_viewSfm (h : Keeps b0 s) (k : Nat) :
    Keeps b0 (State.viewSfm s k).2 := by
  unfold State.viewSfm
  try dsimp only
  repeat'
    first
      | with_reducible
          first
            | assumption | apply State.keeps_takeResult | apply Keeps.ite
      | intro _ | split

theorem State.keeps_viewCip (h : Keeps b0 s) (k : Nat) :
    Keeps b0 (State.viewCip s k).2 := by
  unfold State.viewCip
  try dsimp only
  repeat'
    first
      | with_reducible
          first
            | assumption | apply Keeps.ite | apply Keeps.foldl | apply Keeps.foldl_fst
      | intro _ | split

theorem State.keeps_popCapture (h : Keeps b0 s) (k : TmrIx) :
    Keeps b0 (State.popCapture s k).2 := by
  unfold State.popCapture
  try dsimp only
  repeat'
    first
      | with_reducible
          first
            | assumption | apply Keeps.setReg | apply State.keeps_setTmr
      | split

theorem State.keeps_viewTmr (h : Keeps b0 s) (k : Nat) :
    Keeps b0 (State.viewTmr s k).2 := by
  unfold State.viewTmr
  try dsimp only
  repeat'
    first
      | with_reducible
          first
            | assumption | apply State.keeps_popCapture | apply Keeps.ite | refine Keeps.of_snd ‹_ = _› ?_
      | intro _ | split

theorem State.keeps_rtcTimeView (h : Keeps b0 s) :
    Keeps b0 (State.rtcTimeView s).2 := by
  unfold State.rtcTimeView
  try dsimp only
  repeat'
    with_reducible
      first
        | assumption | apply State.keeps_rtcNow

theorem State.keeps_irqClaim (h : Keeps b0 s) (ctx : Nat) :
    Keeps b0 (State.irqClaim s ctx).2 := by
  unfold State.irqClaim
  try dsimp only
  repeat'
    first
      | with_reducible
          first
            | assumption | apply State.keeps_put | apply State.keeps_raise | apply State.keeps_noteSeen
            | apply State.keeps_lower | apply Keeps.ite
      | intro _ | split

theorem State.keeps_viewIrq (h : Keeps b0 s) (r : Nat) (k : Nat) :
    Keeps b0 (State.viewIrq s r k).2 := by
  unfold State.viewIrq
  try dsimp only
  repeat'
    first
      | with_reducible
          first
            | assumption | apply State.keeps_irqClaim | apply Keeps.ite | refine Keeps.of_snd ‹_ = _› ?_
      | intro _ | split

theorem State.keeps_view (h : Keeps b0 s) (r : Nat) (a : Nat) (k : Nat) :
    Keeps b0 (State.view s r a k).2 := by
  unfold State.view
  try dsimp only
  repeat'
    first
      | with_reducible
          first
            | assumption | apply State.keeps_viewSys | apply State.keeps_viewPwr | apply State.keeps_viewEth
            | apply State.keeps_viewEng | apply State.keeps_viewEvc | apply State.keeps_viewRxc | apply State.keeps_viewLan
            | apply State.keeps_viewLdp | apply State.keeps_viewTx | apply State.keeps_viewSfm | apply State.keeps_viewCip
            | apply State.keeps_viewTmr | apply State.keeps_rtcTimeView | apply State.keeps_viewIrq | apply Keeps.ite
            | refine Keeps.of_snd ‹_ = _› ?_
      | intro _ | split

theorem State.keeps_captureUppers (h : Keeps b0 s) (r : Nat) (a : Nat) :
    Keeps b0 (State.captureUppers s r a) := by
  unfold State.captureUppers
  try dsimp only
  repeat'
    first
      | with_reducible
          first
            | assumption | apply Keeps.each | apply State.keeps_view | apply State.keeps_dropSnap | apply Keeps.ite
      | simp only [Keeps.upd] | intro _ | split

theorem State.keeps_readRow (h : Keeps b0 s) (x : RegRow) (r : Nat) (a : Nat) :
    Keeps b0 (State.readRow s x r a).1 := by
  unfold State.readRow
  try dsimp only
  repeat'
    first
      | with_reducible
          first
            | assumption | apply State.keeps_served | apply State.keeps_view | apply Keeps.setReg
            | apply State.keeps_captureUppers | apply Keeps.ite | apply Keeps.ite_fst | refine Keeps.of_snd ‹_ = _› ?_
      | intro _ | split

theorem State.keeps_readWindow (h : Keeps b0 s) (r : Nat) (a : Nat) :
    Keeps b0 (State.readWindow s r a).1 := by
  unfold State.readWindow
  try dsimp only
  repeat'
    first
      | with_reducible
          first
            | assumption | apply State.keeps_violation | apply State.keeps_readRow | apply State.keeps_takeTurn
            | apply Keeps.ite | apply Keeps.ite_fst | refine Keeps.of_fst ‹_ = _› ?_
      | intro _ | split

theorem State.keeps_load (h : Keeps b0 s) (r : Nat) (a : Nat) (n : Nat) :
    Keeps b0 (State.load s r a n).1 := by
  unfold State.load
  try dsimp only
  repeat'
    first
      | with_reducible
          first
            | assumption | apply State.keeps_takeTurn | apply State.keeps_readWindow | apply State.keeps_violation
            | apply State.keeps_loadPlace | apply Keeps.ite | apply Keeps.ite_fst | refine Keeps.of_fst ‹_ = _› ?_
      | intro _ | split

theorem State.keeps_busRead (h : Keeps b0 s) (r : Nat) (a : Nat) :
    Keeps b0 (State.busRead s r a).1 := by
  unfold State.busRead
  try dsimp only
  repeat'
    first
      | with_reducible
          first
            | assumption | apply State.keeps_load | apply Keeps.ite | apply Keeps.ite_fst
      | intro _

theorem State.keeps_catchUpOne (h : Keeps b0 s) (k : TmrIx) (n : Nat) (prev : Nat) :
    Keeps b0 (State.catchUpOne s k n prev).1 := by
  unfold State.catchUpOne
  try dsimp only
  repeat'
    first
      | with_reducible
          first
            | assumption | apply State.keeps_setTmr | apply State.keeps_raise | apply Keeps.ite | apply Keeps.ite_fst
      | intro _

theorem State.keeps_catchUp (h : Keeps b0 s) (n : Nat) :
    Keeps b0 (State.catchUp s n) := by
  unfold State.catchUp
  try dsimp only
  repeat'
    first
      | with_reducible
          first
            | assumption | apply State.keeps_catchUpOne | apply Keeps.foldl | apply Keeps.foldl_fst
      | intro _

theorem State.keeps_charge (h : Keeps b0 s) (n : Fin 16) (g : Nat) (d : Nat) :
    Keeps b0 (State.charge s n g d) := by
  unfold State.charge
  try dsimp only
  repeat'
    first
      | with_reducible
          first
            | assumption | apply State.keeps_sumBucket
      | simp only [Keeps.upd]

theorem State.keeps_signalWake (h : Keeps b0 s) (k : Nat) :
    Keeps b0 (State.signalWake s k) := by
  unfold State.signalWake
  try dsimp only
  repeat'
    first
      | with_reducible
          first
            | assumption | apply State.keeps_setBit | apply State.keeps_raise | apply Keeps.ite
      | simp only [Keeps.upd] | intro _ | split

theorem State.keeps_checkAlarm (h : Keeps b0 s) :
    Keeps b0 (State.checkAlarm s) := by
  unfold State.checkAlarm
  try dsimp only
  repeat'
    first
      | with_reducible
          first
            | assumption | apply State.keeps_signalWake | apply State.keeps_raise | apply Keeps.ite
      | intro _

theorem State.keeps_command32 (h : Keeps b0 s) (r : Nat) (a : Nat) (v : Word) :
    Keeps b0 (State.command32 s r a v) := by
  unfold State.command32
  try dsimp only
  repeat'
    first
      | with_reducible
          first
            | assumption | apply State.keeps_answerWrite | apply State.keeps_busWrite | apply Keeps.ite
      | intro _

theorem State.keeps_failAccess (h : Keeps b0 s) (e : EngIx) (st : Stall) (f : AccFail) :
    Keeps b0 (State.failAccess s e st f) := by
  unfold State.failAccess
  try dsimp only
  repeat'
    first
      | with_reducible
          first
            | assumption | apply State.keeps_leaveRemaining | apply State.keeps_undoStall | apply State.keeps_setEng
            | apply State.keeps_raiseExc
      | split

theorem State.keeps_underWorlds (h : Keeps b0 s) {α : Type} (m : List (Nat × Word)) (f : State → State × α)
    (hf : ∀ t, Keeps b0 t → Keeps b0 (f t).1) :
    Keeps b0 (State.underWorlds s m f).1 := by
  unfold State.underWorlds
  split
  · exact hf s h
  · exact Keeps.upd.mpr (hf _ (Keeps.upd.mpr h))

theorem State.keeps_laneArrived (h : Keeps b0 s) (e : EngIx) (st : Stall) (b : Bool) :
    Keeps b0 (State.laneArrived s e st b) := by
  unfold State.laneArrived
  try dsimp only
  repeat'
    first
      | with_reducible
          first
            | assumption | apply State.keeps_failAccess | apply State.keeps_draw | apply State.keeps_setEng
            | apply State.keeps_underWorlds | apply State.keeps_perform | apply Keeps.ite
      | intro _

theorem State.keeps_lastJobWord (h : Keeps b0 s) (e : EngIx) (v : Word) :
    Keeps b0 (State.lastJobWord s e v) := by
  unfold State.lastJobWord
  try dsimp only
  repeat'
    with_reducible
      first
        | assumption | apply Keeps.setReg | apply State.keeps_served | apply State.keeps_submitJob

theorem State.keeps_performAccess (h : Keeps b0 s) (e : EngIx) (x : Access) :
    Keeps b0 (State.performAccess s e x).1 := by
  unfold State.performAccess
  try dsimp only
  repeat'
    first
      | with_reducible
          first
            | assumption | apply State.keeps_load | apply State.keeps_setEng | apply State.keeps_store
            | apply State.keeps_blockMoved | apply State.keeps_writeLocal | apply State.keeps_readLocal
            | apply State.keeps_busWrite | apply State.keeps_lastJobWord | apply Keeps.ite | apply Keeps.ite_fst
            | refine Keeps.of_fst ‹_ = _› ?_
      | intro _ | split

theorem State.keeps_performUnder (h : Keeps b0 s) (e : EngIx) (m : List (Nat × Word)) (x : Access) :
    Keeps b0 (State.performUnder s e m x).1 := by
  unfold State.performUnder
  try dsimp only
  repeat'
    first
      | with_reducible
          first
            | assumption | apply State.keeps_underWorlds | apply State.keeps_performAccess
      | intro _

theorem State.keeps_performAll (h : Keeps b0 s) (e : EngIx) (x2 : List Accepted) :
    Keeps b0 (State.performAll s e x2).1 := by
  induction x2 generalizing s with
  | nil => exact h
  | cons x l ih =>
    unfold State.performAll
    split
    · exact Keeps.of_fst ‹_ = _› (State.keeps_performUnder h e x.worlds _)
    · exact ih (Keeps.of_fst ‹_ = _› (State.keeps_performUnder h e x.worlds _))

theorem State.keeps_wordsBefore (h : Keeps b0 s) (e : EngIx) (st : Stall) (x : Access) :
    Keeps b0 (State.wordsBefore s e st x) := by
  unfold State.wordsBefore
  try dsimp only
  repeat'
    first
      | with_reducible
          first
            | assumption | apply State.keeps_movedWords | apply Keeps.ite
      | intro _

theorem State.keeps_failedAlone (h0 : Keeps b0 s) (h1 : Keeps b0 t) (e : EngIx) (st : Stall) (f : AccFail) :
    Keeps b0 (State.failedAlone s e st f t) := by
  unfold State.failedAlone
  try dsimp only
  repeat'
    first
      | with_reducible
          first
            | assumption | apply State.keeps_performUnder | apply State.keeps_wordsBefore | apply State.keeps_onlyViolation
            | refine Keeps.of_fst ‹_ = _› ?_
      | split

theorem State.keeps_fireFails (h : Keeps b0 s) (e : EngIx) (m : List (Nat × Word)) (x3 : List Moved) :
    Keeps b0 (State.fireFails s e m x3).1 := by
  induction x3 generalizing s with
  | nil => exact h
  | cons x l ih =>
    unfold State.fireFails
    split
    · split
      · exact Keeps.of_fst ‹_ = _› (State.keeps_underWorlds h m _ (fun _ g => State.keeps_firePort g e x.val))
      · exact ih h
    · exact ih h

theorem State.keeps_lastAccess (h : Keeps b0 s) (e : EngIx) (st : Stall) (b : Bool) (x : Access) :
    Keeps b0 (State.lastAccess s e st b x) := by
  unfold State.lastAccess
  try dsimp only
  repeat'
    first
      | with_reducible
          first
            | assumption | apply State.keeps_performAll | apply State.keeps_failAccess | apply State.keeps_failedAlone
            | apply State.keeps_fireFails | apply State.keeps_underWorlds | apply State.keeps_setEng | apply State.keeps_retire
            | refine Keeps.of_fst ‹_ = _› ?_
      | intro _ | split

theorem State.keeps_completeAccess (h : Keeps b0 s) (e : EngIx) (st : Stall) (b : Bool) (x : Access) (rest : List (Bool × Access))
    :
    Keeps b0 (State.completeAccess s e st b x rest) := by
  unfold State.completeAccess
  try dsimp only
  repeat'
    first
      | with_reducible
          first
            | assumption | apply State.keeps_laneArrived | apply State.keeps_lastAccess | apply State.keeps_await
            | apply State.keeps_performUnder | apply State.keeps_wordsBefore | apply State.keeps_failAccess
            | apply State.keeps_leaveRemaining | apply State.keeps_dropStall | apply State.keeps_setEng | apply Keeps.ite
            | refine Keeps.of_fst ‹_ = _› ?_
      | intro _ | split

theorem State.keeps_writeOut (h : Keeps b0 s) (a : Nat) (bs : List Byte) :
    Keeps b0 (State.writeOut s a bs).1 := by
  unfold State.writeOut
  try dsimp only
  repeat'
    first
      | with_reducible
          first
            | assumption | apply State.keeps_moveWrite | refine Keeps.of_fst ‹_ = _› ?_
      | split

theorem State.keeps_endWith (h : Keeps b0 s) (c : Fin 8) (run : CoreRun) (bs : List Byte) :
    Keeps b0 (State.endWith s c run bs) := by
  unfold State.endWith
  try dsimp only
  repeat'
    first
      | with_reducible
          first
            | assumption | apply State.keeps_writeOut | apply State.keeps_finishCore | refine Keeps.of_fst ‹_ = _› ?_
      | split

theorem State.keeps_syncEntry (h : Keeps b0 s) (i : Nat) :
    Keeps b0 (State.syncEntry s i).1 := by
  unfold State.syncEntry
  try dsimp only
  repeat'
    first
      | with_reducible
          first
            | assumption | apply State.keeps_sendSeq | apply Keeps.ite | apply Keeps.ite_fst
      | intro _

theorem State.keeps_endDecrypt (h : Keeps b0 s) (c : Fin 8) (run : CoreRun) (bs : List Byte) (micGood : Bool) :
    Keeps b0 (State.endDecrypt s c run bs micGood) := by
  unfold State.endDecrypt
  try dsimp only
  repeat'
    first
      | with_reducible
          first
            | assumption | apply State.keeps_writeOut | apply State.keeps_finishCore | apply State.keeps_zeroOut
            | apply State.keeps_bump | apply State.keeps_syncEntry | apply State.keeps_setEntry | apply Keeps.ite
            | refine Keeps.of_fst ‹_ = _› ?_
      | intro _ | split

theorem State.keeps_runJob (h : Keeps b0 s) (c : Fin 8) (run : CoreRun) :
    Keeps b0 (State.runJob s c run) := by
  unfold State.runJob
  try dsimp only
  repeat'
    first
      | with_reducible
          first
            | assumption | apply State.keeps_finishCore | apply State.keeps_moveRead | apply State.keeps_endWith
            | apply State.keeps_endDecrypt | apply State.keeps_bump | apply Keeps.ite | refine Keeps.of_fst ‹_ = _› ?_
      | intro _ | split

theorem State.keeps_completeJob (h : Keeps b0 s) (c : Fin 8) :
    Keeps b0 (State.completeJob s c) := by
  unfold State.completeJob
  try dsimp only
  repeat'
    first
      | with_reducible
          first
            | assumption | apply State.keeps_finishCore | apply State.keeps_bump | apply State.keeps_runJob | apply Keeps.ite
      | intro _ | split

theorem State.keeps_completeWrites (h : Keeps b0 s) :
    Keeps b0 (State.completeWrites s) := by
  unfold State.completeWrites
  try dsimp only
  repeat'
    first
      | with_reducible
          first
            | assumption | apply Keeps.each | apply State.keeps_acceptedWrite
      | intro _ | split

theorem State.keeps_copyEntry (h : Keeps b0 s) (i : Nat) (e : Nat) :
    Keeps b0 (State.copyEntry s i e) := by
  unfold State.copyEntry
  try dsimp only
  repeat'
    first
      | with_reducible
          first
            | assumption | apply State.keeps_setEntry
      | simp only [Keeps.upd]

theorem State.keeps_noteLifted (h : Keeps b0 s) (i : Nat) :
    Keeps b0 (State.noteLifted s i) := by
  unfold State.noteLifted
  try dsimp only
  repeat'
    first
      | with_reducible
          first
            | assumption
      | simp only [Keeps.upd] | split

theorem State.keeps_takeKey (h : Keeps b0 s) (i : Nat) (e : Nat) :
    Keeps b0 (State.takeKey s i e).2 := by
  unfold State.takeKey
  try dsimp only
  repeat'
    first
      | with_reducible
          first
            | assumption | apply Keeps.ite
      | simp only [Keeps.upd]

theorem State.keeps_reserveCounter (h : Keeps b0 s) (c : Fin 8) (run : CoreRun) (e : Nat) :
    Keeps b0 (State.reserveCounter s c run e) := by
  unfold State.reserveCounter
  try dsimp only
  repeat'
    first
      | with_reducible
          first
            | assumption | apply State.keeps_setCore | apply State.keeps_noteLifted | apply State.keeps_setEntry
            | apply State.keeps_syncEntry | apply State.keeps_takeKey | apply Keeps.ite
      | intro _

theorem State.keeps_replayCheck (h : Keeps b0 s) (c : Fin 8) (run : CoreRun) (e : Nat) (fc : Nat) (nonce : List Byte) :
    Keeps b0 (State.replayCheck s c run e fc nonce) := by
  unfold State.replayCheck
  try dsimp only
  repeat'
    first
      | with_reducible
          first
            | assumption | apply State.keeps_setCore | apply State.keeps_takeKey | apply Keeps.ite
      | intro _

theorem State.keeps_readCounter (h : Keeps b0 s) (c : Fin 8) (run : CoreRun) :
    Keeps b0 (State.readCounter s c run) := by
  unfold State.readCounter
  try dsimp only
  repeat'
    first
      | with_reducible
          first
            | assumption | apply State.keeps_moveRead | apply State.keeps_setCore | apply State.keeps_replayCheck
            | apply Keeps.ite | refine Keeps.of_fst ‹_ = _› ?_
      | intro _ | split

theorem State.keeps_coreChecks (h : Keeps b0 s) (c : Fin 8) (run : CoreRun) (fc : Nat) :
    Keeps b0 (State.coreChecks s c run fc) := by
  unfold State.coreChecks
  try dsimp only
  repeat'
    first
      | with_reducible
          first
            | assumption | apply State.keeps_setCore | apply State.keeps_reserveCounter | apply State.keeps_replayCheck
            | apply State.keeps_readCounter | apply State.keeps_takeKey | apply Keeps.ite | refine Keeps.of_snd ‹_ = _› ?_
      | intro _ | split

theorem State.keeps_countApplied (h : Keeps b0 s) (i : Nat) :
    Keeps b0 (State.countApplied s i) := by
  unfold State.countApplied
  try dsimp only
  repeat'
    first
      | with_reducible
          first
            | assumption | apply State.keeps_put | apply State.keeps_bump | apply Keeps.ite
      | simp only [Keeps.upd] | intro _

theorem State.keeps_countWithheld (h : Keeps b0 s) (quiet : Bool) :
    Keeps b0 (State.countWithheld s quiet) := by
  unfold State.countWithheld
  try dsimp only
  repeat'
    first
      | with_reducible
          first
            | assumption | apply State.keeps_bump | apply Keeps.ite
      | simp only [Keeps.upd] | intro _

theorem State.keeps_dcFree (h : Keeps b0 s) (k : Nat) (c : FdrChan) (x : Int) :
    Keeps b0 (State.dcFree s k c x).2 := by
  unfold State.dcFree
  try dsimp only
  repeat'
    first
      | with_reducible
          first
            | assumption | apply State.keeps_draw | apply Keeps.ite
      | intro _ | split

theorem State.keeps_endWindow (h : Keeps b0 s) (k : Nat) :
    Keeps b0 (State.endWindow s k) := by
  unfold State.endWindow
  try dsimp only
  repeat'
    first
      | with_reducible
          first
            | assumption
      | simp only [Keeps.upd]

theorem State.keeps_debounced (h : Keeps b0 s) (k : Nat) (fb : Bool) (atClear : Bool) :
    Keeps b0 (State.debounced s k fb atClear) := by
  unfold State.debounced
  try dsimp only
  repeat'
    first
      | with_reducible
          first
            | assumption | apply State.keeps_startWindow | apply State.keeps_newFeedback | apply State.keeps_endWindow
            | apply Keeps.ite
      | simp only [Keeps.upd] | intro _

theorem State.keeps_takeCredit (h : Keeps b0 s) (t : Nat) :
    Keeps b0 (State.takeCredit s t) := by
  unfold State.takeCredit
  try dsimp only
  repeat'
    first
      | with_reducible
          first
            | assumption | apply State.keeps_put | apply Keeps.ite
      | intro _

theorem State.keeps_decideLaunch (h : Keeps b0 s) (l : Launch) :
    Keeps b0 (State.decideLaunch s l) := by
  unfold State.decideLaunch
  try dsimp only
  repeat'
    first
      | with_reducible
          first
            | assumption | apply State.keeps_charge | apply State.keeps_takeCredit | apply State.keeps_mirror
      | simp only [Keeps.upd] | split

theorem State.keeps_decideBeacon (h : Keeps b0 s) :
    Keeps b0 (State.decideBeacon s) := by
  unfold State.decideBeacon
  try dsimp only
  repeat'
    first
      | with_reducible
          first
            | assumption | apply State.keeps_skipBeacon | apply State.keeps_badDesc | apply State.keeps_raise
            | apply State.keeps_decideLaunch | apply Keeps.ite
      | intro _ | split

theorem State.keeps_winDiversity (h : Keeps b0 s) (n : LaneIx) :
    Keeps b0 (State.winDiversity s n) := by
  unfold State.winDiversity
  try dsimp only
  repeat'
    with_reducible
      first
        | assumption | apply State.keeps_setLane

theorem State.keeps_loseDiversity (h : Keeps b0 s) (n : LaneIx) :
    Keeps b0 (State.loseDiversity s n) := by
  unfold State.loseDiversity
  try dsimp only
  repeat'
    with_reducible
      first
        | assumption | apply State.keeps_toSearch | apply State.keeps_bump | apply State.keeps_dropCodewords

theorem State.keeps_decideDiversity (h : Keeps b0 s) (n : LaneIx) :
    Keeps b0 (State.decideDiversity s n) := by
  unfold State.decideDiversity
  try dsimp only
  repeat'
    first
      | with_reducible
          first
            | assumption | apply State.keeps_winDiversity | apply State.keeps_loseDiversity | apply Keeps.ite
      | intro _

theorem State.keeps_loseSync (h : Keeps b0 s) (i : Nat) :
    Keeps b0 (State.loseSync s i) := by
  unfold State.loseSync
  try dsimp only
  repeat'
    first
      | with_reducible
          first
            | assumption | apply State.keeps_record | apply State.keeps_sfmUpdate | apply State.keeps_put
      | intro _

theorem State.keeps_tryRequest (h : Keeps b0 s) (r : TxReq) :
    Keeps b0 (State.tryRequest s r).1 := by
  unfold State.tryRequest
  try dsimp only
  repeat'
    first
      | with_reducible
          first
            | assumption | apply State.keeps_record | apply State.keeps_put | apply State.keeps_badDesc
            | apply State.keeps_raise | apply State.keeps_decideLaunch | apply State.keeps_bump | apply State.keeps_loseSync
            | apply Keeps.ite | apply Keeps.ite_fst
      | intro _ | split

theorem State.keeps_tryRequests (h : Keeps b0 s) (x1 : List TxReq) :
    Keeps b0 (State.tryRequests s x1) := by
  induction x1 generalizing s with
  | nil => exact h
  | cons x l ih =>
    unfold State.tryRequests
    repeat'
      first
        | with_reducible
            first
              | assumption | apply ih | apply State.keeps_tryRequest | refine Keeps.of_fst ‹_ = _› ?_
        | split

theorem State.keeps_decideSlot (h : Keeps b0 s) :
    Keeps b0 (State.decideSlot s) := by
  unfold State.decideSlot
  try dsimp only
  repeat'
    first
      | with_reducible
          first
            | assumption | apply State.keeps_skipBeacon | apply State.keeps_decideBeacon | apply State.keeps_tryRequests
            | apply Keeps.ite
      | intro _

theorem State.keeps_deliverEvent (h : Keeps b0 s) (ch : Nat) :
    Keeps b0 (State.deliverEvent s ch) := by
  unfold State.deliverEvent
  try dsimp only
  repeat'
    first
      | with_reducible
          first
            | assumption | apply State.keeps_bump | apply State.keeps_setBit | apply State.keeps_setEng | apply Keeps.ite
      | intro _ | split

theorem State.keeps_deliverFrame (h : Keeps b0 s) (m : Fin 2) (d : Nat) (w0 : Word) (w1 : Word) (bytes : List Byte) (stamp :
    Option Ptp) :
    Keeps b0 (State.deliverFrame s m d w0 w1 bytes stamp) := by
  unfold State.deliverFrame
  try dsimp only
  repeat'
    first
      | with_reducible
          first
            | assumption | apply State.keeps_macWrite | apply State.keeps_raise | apply State.keeps_closeDesc
            | apply State.keeps_bump | apply State.keeps_put | apply State.keeps_fire | apply Keeps.ite
            | refine Keeps.of_fst ‹_ = _› ?_
      | intro _ | split

theorem State.keeps_drawTies (h : Keeps b0 s) (steps : Nat) :
    Keeps b0 (State.drawTies s steps).1 := by
  unfold State.drawTies
  try dsimp only
  repeat'
    first
      | with_reducible
          first
            | assumption
      | simp only [Keeps.upd]

theorem State.keeps_dropAllCal (h : Keeps b0 s) :
    Keeps b0 (State.dropAllCal s) := by
  unfold State.dropAllCal
  try dsimp only
  repeat'
    first
      | with_reducible
          first
            | assumption | apply Keeps.each | apply Keeps.setReg
      | simp only [Keeps.upd] | intro _

theorem State.keeps_dropCal (h : Keeps b0 s) (khz : Nat) :
    Keeps b0 (State.dropCal s khz) := by
  unfold State.dropCal
  try dsimp only
  repeat'
    first
      | with_reducible
          first
            | assumption | apply Keeps.setReg
      | simp only [Keeps.upd] | split

theorem State.keeps_latchPads (h : Keeps b0 s) :
    Keeps b0 (State.latchPads s) := by
  unfold State.latchPads
  try dsimp only
  repeat'
    first
      | with_reducible
          first
            | assumption | apply State.keeps_draw | apply Keeps.ite
      | simp only [Keeps.upd] | intro _

theorem State.keeps_loseSram (h : Keeps b0 s) (off : Nat) :
    Keeps b0 (State.loseSram s off) := by
  unfold State.loseSram
  dsimp only
  repeat'
    first
      | with_reducible
          first
            | assumption | apply Keeps.wipe | apply State.keeps_noGroups | apply Keeps.ite
      | intro _

theorem State.keeps_powerDown (h : Keeps b0 s) :
    Keeps b0 (State.powerDown s) := by
  unfold State.powerDown
  try dsimp only
  repeat'
    first
      | with_reducible
          first
            | assumption | apply State.keeps_watchRequests
      | simp only [Keeps.upd]

theorem State.keeps_enterTrickle (h : Keeps b0 s) :
    Keeps b0 (State.enterTrickle s) := by
  unfold State.enterTrickle
  try dsimp only
  repeat'
    first
      | with_reducible
          first
            | assumption | apply State.keeps_resetMain | apply State.keeps_latchPads | apply State.keeps_setBit
            | apply State.keeps_loseSram | apply State.keeps_clearPower | apply State.keeps_powerDown | apply State.keeps_put
      | simp only [Keeps.upd]

theorem State.keeps_emergency (h : Keeps b0 s) (held : Bool) :
    Keeps b0 (State.emergency s held) := by
  unfold State.emergency
  try dsimp only
  repeat'
    first
      | with_reducible
          first
            | assumption | apply State.keeps_enterTrickle | apply State.keeps_abandonFlash | apply State.keeps_completeWrites
            | apply State.keeps_raise | apply State.keeps_lower | apply State.keeps_loseSram | apply State.keeps_deviceReset
            | apply Keeps.ite
      | simp only [Keeps.upd] | intro _

theorem State.keeps_endPause (h : Keeps b0 s) (gap : Nat) :
    Keeps b0 (State.endPause s gap) := by
  unfold State.endPause
  try dsimp only
  repeat'
    first
      | with_reducible
          first
            | assumption
      | simp only [Keeps.upd]

theorem State.keeps_endSlot (h : Keeps b0 s) :
    Keeps b0 (State.endSlot s) := by
  unfold State.endSlot
  try dsimp only
  repeat'
    first
      | with_reducible
          first
            | assumption
      | simp only [Keeps.upd]

theorem State.keeps_endTransaction (h : Keeps b0 s) (cs : Select) (clocks : Nat) :
    Keeps b0 (State.endTransaction s cs clocks) := by
  unfold State.endTransaction
  try dsimp only
  repeat'
    first
      | with_reducible
          first
            | assumption | apply State.keeps_raise | apply State.keeps_draw | apply Keeps.setReg | apply Keeps.ite
            | refine Keeps.of_snd ‹_ = _› ?_
      | intro _ | split

theorem State.keeps_endTransition (h : Keeps b0 s) :
    Keeps b0 (State.endTransition s) := by
  unfold State.endTransition
  try dsimp only
  repeat'
    first
      | with_reducible
          first
            | assumption | apply State.keeps_lower | apply State.keeps_startRequest | apply State.keeps_pulse | apply Keeps.ite
      | simp only [Keeps.upd] | intro _ | split

theorem State.keeps_enterOff (h : Keeps b0 s) :
    Keeps b0 (State.enterOff s) := by
  unfold State.enterOff
  try dsimp only
  repeat'
    with_reducible
      first
        | assumption | apply State.keeps_powerDown | apply State.keeps_put | apply State.keeps_clearAddress
        | apply State.keeps_loseSram | apply State.keeps_clearPower | apply State.keeps_resetMain

theorem State.keeps_moveLock (h : Keeps b0 s) (n : LaneIx) (errs : Nat) (coded : Bool) (bits : Nat) (since : Nat) :
    Keeps b0 (State.moveLock s n errs coded bits since).1 := by
  unfold State.moveLock
  try dsimp only
  repeat'
    with_reducible
      first
        | assumption | apply State.keeps_draw

theorem State.keeps_feedBit (h : Keeps b0 s) (n : LaneIx) (b : Bool) (after : Nat) :
    Keeps b0 (State.feedBit s n b after) := by
  unfold State.feedBit
  try dsimp only
  repeat'
    first
      | with_reducible
          first
            | assumption | apply State.keeps_setLane | apply State.keeps_moveLock | apply State.keeps_bump | apply Keeps.ite
            | refine Keeps.of_fst ‹_ = _› ?_
      | intro _ | split

theorem State.keeps_feedBits (h : Keeps b0 s) (n : LaneIx) (x2 : List Bool) :
    Keeps b0 (State.feedBits s n x2) := by
  induction x2 generalizing s with
  | nil => exact h
  | cons b l ih => exact ih (State.keeps_feedBit h n b l.length)

theorem State.keeps_fetch (h : Keeps b0 s) (e : EngIx) :
    Keeps b0 (State.fetch s e).1 := by
  unfold State.fetch
  try dsimp only
  repeat'
    first
      | with_reducible
          first
            | assumption | apply State.keeps_draw | apply Keeps.ite | apply Keeps.ite_fst
      | intro _

theorem State.keeps_findHead (h : Keeps b0 s) :
    Keeps b0 (State.findHead s) := by
  unfold State.findHead
  try dsimp only
  repeat'
    first
      | with_reducible
          first
            | assumption | apply State.keeps_put
      | simp only [Keeps.upd] | split

theorem State.keeps_finishClear (h : Keeps b0 s) :
    Keeps b0 (State.finishClear s) := by
  unfold State.finishClear
  try dsimp only
  repeat'
    first
      | with_reducible
          first
            | assumption | apply Keeps.setReg | apply Keeps.wipe | apply State.keeps_setBit | apply State.keeps_lower
            | apply Keeps.ite
      | simp only [Keeps.upd] | intro _

theorem State.keeps_progUnits (h : Keeps b0 s) (x1 : Nat) (x2 : List (List Byte)) (x3 : List Nat) :
    Keeps b0 (State.progUnits s x1 x2 x3).1 := by
  induction x2 generalizing s x1 x3 with
  | nil => exact h
  | cons u l ih =>
    unfold State.progUnits
    try dsimp only
    repeat'
      first
        | with_reducible
            first
              | assumption | apply ih | apply State.keeps_notePulses | apply State.keeps_scramble | apply State.keeps_writeUnit
        | split

theorem State.keeps_flashEnds (h : Keeps b0 s) (pulses : List Nat) :
    Keeps b0 (State.flashEnds s pulses) := by
  unfold State.flashEnds
  try dsimp only
  repeat'
    first
      | with_reducible
          first
            | assumption | apply State.keeps_progUnits | apply State.keeps_flashResult | apply State.keeps_scramble
            | apply State.keeps_eraseSector | apply State.keeps_setProtected | apply State.keeps_appended | apply Keeps.each
            | apply State.keeps_put | apply Keeps.ite | refine Keeps.of_fst ‹_ = _› ?_
      | simp only [Keeps.upd] | intro _ | split

theorem State.keeps_gained (h : Keeps b0 s) (k : Nat) (x : Int) :
    Keeps b0 (State.gained s k x).2 := by
  unfold State.gained
  try dsimp only
  repeat'
    with_reducible
      first
        | assumption | apply State.keeps_mean

theorem State.keeps_handedEntry (h : Keeps b0 s) (i : Nat) (e : Nat) :
    Keeps b0 (State.handedEntry s i e) := by
  unfold State.handedEntry
  try dsimp only
  repeat'
    first
      | with_reducible
          first
            | assumption | apply State.keeps_setEntry | apply State.keeps_copyEntry | apply Keeps.ite
      | intro _

theorem State.keeps_headerError (h : Keeps b0 s) (n : LaneIx) :
    Keeps b0 (State.headerError s n) := by
  unfold State.headerError
  try dsimp only
  repeat'
    first
      | with_reducible
          first
            | assumption | apply State.keeps_bump | apply State.keeps_moveLock | apply State.keeps_feedBits
            | apply State.keeps_setLane | apply State.keeps_toSearch | refine Keeps.of_fst ‹_ = _› ?_
      | split

theorem State.keeps_holdRead (h : Keeps b0 s) (w : SpiWait) :
    Keeps b0 (State.holdRead s w) := by
  unfold State.holdRead
  try dsimp only
  repeat'
    first
      | with_reducible
          first
            | assumption | apply State.keeps_endRead | apply State.keeps_sentWords | apply Keeps.ite
      | simp only [Keeps.upd] | intro _

theorem State.keeps_honourPause (h : Keeps b0 s) (m : Fin 2) (f : EthFrame) :
    Keeps b0 (State.honourPause s m f) := by
  unfold State.honourPause
  try dsimp only
  repeat'
    first
      | with_reducible
          first
            | assumption | apply State.keeps_setMac | apply Keeps.ite
      | intro _ | split

theorem State.keeps_inBand (h : Keeps b0 s) (m : Fin 2) (v : BitVec 4) :
    Keeps b0 (State.inBand s m v) := by
  unfold State.inBand
  try dsimp only
  repeat'
    with_reducible
      first
        | assumption | apply Keeps.setReg

theorem State.keeps_renumber (h : Keeps b0 s) (ack : Nat) :
    Keeps b0 (State.renumber s ack) := by
  unfold State.renumber
  try dsimp only
  repeat'
    first
      | with_reducible
          first
            | assumption | apply Keeps.ite
      | simp only [Keeps.upd]

theorem State.keeps_inStep (h : Keeps b0 s) (h : SphHdr) (b : BeatBody) :
    Keeps b0 (State.inStep s h b) := by
  unfold State.inStep
  try dsimp only
  repeat'
    first
      | with_reducible
          first
            | assumption | apply State.keeps_renumber | apply Keeps.ite
      | simp only [Keeps.upd] | intro _

theorem State.keeps_issue (h : Keeps b0 s) (e : EngIx) (w : BitVec 48) :
    Keeps b0 (State.issue s e w) := by
  unfold State.issue
  try dsimp only
  repeat'
    first
      | with_reducible
          first
            | assumption | apply State.keeps_raiseExc | apply State.keeps_setEng | apply State.keeps_startIssue
            | apply State.keeps_attempt | apply Keeps.ite
      | intro _ | split

theorem State.keeps_issueMove (h : Keeps b0 s) (e : EngIx) (port : Nat) (t : Word24) :
    Keeps b0 (State.issueMove s e port t) := by
  unfold State.issueMove
  try dsimp only
  repeat'
    with_reducible
      first
        | assumption | apply State.keeps_issue

theorem State.keeps_issueRead (h : Keeps b0 s) (e : EngIx) (port : Nat) (d : Fin 32) :
    Keeps b0 (State.issueRead s e port d) := by
  unfold State.issueRead
  try dsimp only
  repeat'
    with_reducible
      first
        | assumption | apply State.keeps_issue

theorem State.keeps_loadCal (h : Keeps b0 s) (cause : Nat) :
    Keeps b0 (State.loadCal s cause) := by
  unfold State.loadCal
  apply State.keeps_restoreCal
  apply State.keeps_cal h
  split
  · exact State.keeps_loadCal_words s calLayout [] rfl
  · rfl

theorem State.keeps_loadEntry (h : Keeps b0 s) (n : LaneIx) :
    Keeps b0 (State.loadEntry s n) := by
  unfold State.loadEntry
  try dsimp only
  repeat'
    first
      | with_reducible
          first
            | assumption | apply State.keeps_put | apply State.keeps_setLane | apply Keeps.ite | apply Keeps.foldl
            | apply Keeps.foldl_fst
      | intro _

theorem State.keeps_spendNoise (h : Keeps b0 s) :
    Keeps b0 (State.spendNoise s) := by
  unfold State.spendNoise
  try dsimp only
  repeat'
    first
      | with_reducible
          first
            | assumption | apply Keeps.each | apply State.keeps_setLane
      | intro _

theorem State.keeps_loadChannels (h : Keeps b0 s) :
    Keeps b0 (State.loadChannels s) := by
  unfold State.loadChannels
  try dsimp only
  repeat'
    first
      | with_reducible
          first
            | assumption | apply Keeps.each | apply State.keeps_loadEntry | apply State.keeps_raise
            | apply State.keeps_spendNoise | apply Keeps.ite
      | intro _

theorem State.keeps_mgbStatus (h : Keeps b0 s) (m : BitVec 4) :
    Keeps b0 (State.mgbStatus s m) := by
  unfold State.mgbStatus
  try dsimp only
  repeat'
    first
      | with_reducible
          first
            | assumption
      | simp only [Keeps.upd]

theorem State.keeps_mgbPartial (h : Keeps b0 s) (n : Nat) :
    Keeps b0 (State.mgbPartial s n) := by
  unfold State.mgbPartial
  try dsimp only
  repeat'
    first
      | with_reducible
          first
            | assumption | apply State.keeps_mgbStatus | apply Keeps.ite
      | intro _

theorem State.keeps_nextPointer (h : Keeps b0 s) :
    Keeps b0 (State.nextPointer s) := by
  unfold State.nextPointer
  try dsimp only
  repeat'
    first
      | with_reducible
          first
            | assumption
      | simp only [Keeps.upd]

theorem State.keeps_mgbWordRead (h : Keeps b0 s) (m : List (Nat × Word)) (late : Bool) :
    Keeps b0 (State.mgbWordRead s m late).1 := by
  unfold State.mgbWordRead
  try dsimp only
  repeat'
    first
      | with_reducible
          first
            | assumption | apply State.keeps_answerRead | apply State.keeps_underWorlds | apply State.keeps_busRead
            | apply State.keeps_nextPointer | apply State.keeps_mgbStatus | apply Keeps.ite | apply Keeps.ite_fst
      | intro _

theorem State.keeps_mgbWords {x1 : State} (h : Keeps b0 x1) (x0 : Nat) (x2 : List Byte) :
    Keeps b0 (State.mgbWords x0 x1 x2) := by
  induction x0 generalizing x1 x2 with
  | zero => exact h
  | succ n ih =>
    unfold State.mgbWords
    try dsimp only
    repeat'
      first
        | with_reducible
            first
              | assumption | apply ih | apply State.keeps_mgbPartial | apply State.keeps_nextPointer
              | apply State.keeps_answerWrite | apply State.keeps_busWrite | apply Keeps.ite
        | intro _

theorem State.keeps_mgbWordsRead {x1 : State} (h : Keeps b0 x1) (x0 : List Bool) (x2 : List Byte) :
    Keeps b0 (State.mgbWordsRead x0 x1 x2) := by
  induction x0 generalizing x1 x2 with
  | nil => exact Keeps.upd.mpr h
  | cons l ls ih =>
    unfold State.mgbWordsRead
    split
    · exact ih h _
    · split
      · split
        · exact ih (State.keeps_nextPointer (State.keeps_mgbStatus (Keeps.upd.mpr h) 8)) _
        · exact Keeps.upd.mpr h
      · exact ih (State.keeps_mgbWordRead h _ l) _

theorem State.keeps_midnight (h : Keeps b0 s) :
    Keeps b0 (State.midnight s) := by
  unfold State.midnight
  try dsimp only
  repeat'
    first
      | with_reducible
          first
            | assumption | apply State.keeps_put | apply Keeps.ite
      | intro _

theorem State.keeps_missedBeacons (h : Keeps b0 s) :
    Keeps b0 (State.missedBeacons s) := by
  unfold State.missedBeacons
  try dsimp only
  repeat'
    first
      | with_reducible
          first
            | assumption | apply Keeps.each | apply State.keeps_skipBeacon | apply Keeps.ite
      | intro _

theorem State.keeps_nextRead (h : Keeps b0 s) (m : List (Nat × Word)) (cs : Select) (a : Nat) (x : SpiGot) :
    Keeps b0 (State.nextRead s m cs a x).1 := by
  unfold State.nextRead
  try dsimp only
  repeat'
    first
      | with_reducible
          first
            | assumption | apply State.keeps_underWorlds | apply State.keeps_busRead | apply State.keeps_portError
            | refine Keeps.of_fst ‹_ = _› ?_
      | intro _ | split

theorem State.keeps_noteBoundary (h : Keeps b0 s) :
    Keeps b0 (State.noteBoundary s) := by
  unfold State.noteBoundary
  try dsimp only
  repeat'
    first
      | with_reducible
          first
            | assumption
      | simp only [Keeps.upd]

theorem State.keeps_noteHeadroom (h : Keeps b0 s) (h : Headroom) :
    Keeps b0 (State.noteHeadroom s h) := by
  unfold State.noteHeadroom
  try dsimp only
  repeat'
    with_reducible
      first
        | assumption | apply State.keeps_put

theorem State.keeps_noteLaunch (h : Keeps b0 s) (k : Nat) (power : Int) :
    Keeps b0 (State.noteLaunch s k power) := by
  unfold State.noteLaunch
  try dsimp only
  repeat'
    first
      | with_reducible
          first
            | assumption | apply State.keeps_bump | apply State.keeps_mean | apply State.keeps_put | apply Keeps.ite
      | simp only [Keeps.upd] | intro _

theorem State.keeps_notePass (h : Keeps b0 s) (i : Nat) :
    Keeps b0 (State.notePass s i) := by
  unfold State.notePass
  try dsimp only
  repeat'
    first
      | with_reducible
          first
            | assumption
      | simp only [Keeps.upd]

theorem State.keeps_numberFrom (h : Keeps b0 s) (ack : Nat) :
    Keeps b0 (State.numberFrom s ack) := by
  unfold State.numberFrom
  try dsimp only
  repeat'
    first
      | with_reducible
          first
            | assumption | apply State.keeps_renumber | apply Keeps.ite
      | intro _

theorem State.keeps_phased (h : Keeps b0 s) (k : Nat) (past : List Int) :
    Keeps b0 (State.phased s k past).2 := by
  unfold State.phased
  try dsimp only
  repeat'
    first
      | with_reducible
          first
            | assumption | apply State.keeps_mean | apply State.keeps_draw | apply Keeps.ite
      | intro _ | split

theorem State.keeps_plainSecond (h : Keeps b0 s) :
    Keeps b0 (State.plainSecond s) := by
  unfold State.plainSecond
  try dsimp only
  repeat'
    first
      | with_reducible
          first
            | assumption | apply State.keeps_midnight | apply State.keeps_put | apply Keeps.ite
      | intro _

theorem State.keeps_primePoint (h : Keeps b0 s) :
    Keeps b0 (State.primePoint s) := by
  unfold State.primePoint
  try dsimp only
  repeat'
    first
      | with_reducible
          first
            | assumption | apply State.keeps_setPoint | apply State.keeps_beginPoint
      | split

theorem State.keeps_pruneMirror (h : Keeps b0 s) :
    Keeps b0 (State.pruneMirror s) := by
  unfold State.pruneMirror
  try dsimp only
  repeat'
    first
      | with_reducible
          first
            | assumption
      | simp only [Keeps.upd]

theorem State.keeps_ptpCapture (h : Keeps b0 s) (dt : Nat) :
    Keeps b0 (State.ptpCapture s dt) := by
  unfold State.ptpCapture
  try dsimp only
  repeat'
    with_reducible
      first
        | assumption | apply State.keeps_ptpRun | apply State.keeps_put

theorem State.keeps_query32 (h : Keeps b0 s) (r : Nat) (a : Nat) :
    Keeps b0 (State.query32 s r a) := by
  unfold State.query32
  try dsimp only
  repeat'
    first
      | with_reducible
          first
            | assumption | apply State.keeps_answerRead | apply State.keeps_busRead | apply Keeps.ite
      | intro _

theorem State.keeps_reachPoint (h : Keeps b0 s) (r : PwrReq) :
    Keeps b0 (State.reachPoint s r) := by
  unfold State.reachPoint
  try dsimp only
  repeat'
    first
      | with_reducible
          first
            | assumption | apply State.keeps_setPoint | apply Keeps.ite
      | intro _

theorem State.keeps_readPrefix (h : Keeps b0 s) (c : Fin 8) (run : CoreRun) :
    Keeps b0 (State.readPrefix s c run) := by
  unfold State.readPrefix
  try dsimp only
  repeat'
    first
      | with_reducible
          first
            | assumption | apply State.keeps_moveRead | apply State.keeps_setCore | apply State.keeps_coreChecks
            | apply Keeps.ite | refine Keeps.of_fst ‹_ = _› ?_
      | intro _ | split

theorem State.keeps_readLate (h : Keeps b0 s) (c : Fin 8) (run : CoreRun) :
    Keeps b0 (State.readLate s c run) := by
  unfold State.readLate
  try dsimp only
  repeat'
    first
      | with_reducible
          first
            | assumption | apply State.keeps_underWorlds | apply State.keeps_readPrefix | apply State.keeps_readCounter
            | apply Keeps.ite | refine Keeps.of_fst ‹_ = _› ?_
      | intro _ | split

theorem State.keeps_refuseCommand (h : Keeps b0 s) (m : SpiMode) (cmd : Word) :
    Keeps b0 (State.refuseCommand s m cmd) := by
  unfold State.refuseCommand
  try dsimp only
  repeat'
    first
      | with_reducible
          first
            | assumption | apply State.keeps_raise | apply Keeps.ite
      | simp only [Keeps.upd]

theorem State.keeps_requestsFell (h : Keeps b0 s) :
    Keeps b0 (State.requestsFell s) := by
  unfold State.requestsFell
  try dsimp only
  repeat'
    first
      | with_reducible
          first
            | assumption
      | simp only [Keeps.upd]

theorem State.keeps_resendOut (h : Keeps b0 s) :
    Keeps b0 (State.resendOut s) := by
  unfold State.resendOut
  try dsimp only
  repeat'
    first
      | with_reducible
          first
            | assumption | apply State.keeps_bump | apply Keeps.each | apply State.keeps_emit | apply Keeps.ite
      | intro _

theorem State.keeps_restEngines (h : Keeps b0 s) :
    Keeps b0 (State.restEngines s) := by
  unfold State.restEngines
  try dsimp only
  repeat'
    first
      | with_reducible
          first
            | assumption | apply Keeps.each | apply State.keeps_setEng | apply Keeps.ite
      | intro _

theorem State.keeps_spiReads {x5 : State} (h : Keeps b0 x5) (m : SpiMode) (t : SpiRead) (fixed : Bool) (live : Bool) (x4 : List
    Nat) (x6 : SpiGot) :
    Keeps b0 (State.spiReads m t fixed live x4 x5 x6) := by
  induction x4 generalizing x5 x6 with
  | nil => exact State.keeps_endRead h m t live x6
  | cons k ks ih =>
    unfold State.spiReads
    dsimp only
    split
    · exact State.keeps_holdRead h _
    · exact ih (State.keeps_nextRead h _ _ _ _) _

theorem State.keeps_resumeRead (h : Keeps b0 s) (w : SpiWait) :
    Keeps b0 (State.resumeRead s w) := by
  unfold State.resumeRead
  try dsimp only
  repeat'
    first
      | with_reducible
          first
            | assumption | apply State.keeps_holdRead | apply State.keeps_nextRead | apply State.keeps_spiReads
            | apply Keeps.ite
      | intro _

theorem State.keeps_resumeTx (h : Keeps b0 s) (m : Fin 2) :
    Keeps b0 (State.resumeTx s m) := by
  unfold State.resumeTx
  try dsimp only
  repeat'
    first
      | with_reducible
          first
            | assumption | apply State.keeps_txPoll | apply State.keeps_setMac | apply Keeps.ite
      | intro _

theorem State.keeps_resumeWords (h : Keeps b0 s) (late : List Bool) (out : List Byte) (m : List (Nat × Word)) :
    Keeps b0 (State.resumeWords s late out m) := by
  unfold State.resumeWords
  try dsimp only
  repeat'
    first
      | with_reducible
          first
            | assumption | apply State.keeps_mgbWordRead | apply State.keeps_mgbWordsRead | apply Keeps.ite
      | simp only [Keeps.upd] | intro _

theorem State.keeps_resumeWait (h : Keeps b0 s) (w : FlashWait) :
    Keeps b0 (State.resumeWait s w) := by
  unfold State.resumeWait
  try dsimp only
  repeat'
    first
      | with_reducible
          first
            | assumption | apply State.keeps_answerRead | apply State.keeps_underWorlds | apply State.keeps_busRead
            | apply State.keeps_resumeRead | apply State.keeps_resumeWords | apply State.keeps_resumeLater | apply Keeps.ite
            | refine Keeps.of_fst ‹_ = _› ?_
      | simp only [Keeps.upd] | intro _ | split

theorem State.keeps_summerSecond (h : Keeps b0 s) (add : Bool) :
    Keeps b0 (State.summerSecond s add) := by
  unfold State.summerSecond
  try dsimp only
  repeat'
    first
      | with_reducible
          first
            | assumption | apply State.keeps_putB | apply State.keeps_put | apply State.keeps_raise
            | apply State.keeps_plainSecond | apply Keeps.ite
      | intro _

theorem State.keeps_secondTicks (h : Keeps b0 s) :
    Keeps b0 (State.secondTicks s) := by
  unfold State.secondTicks
  try dsimp only
  repeat'
    first
      | with_reducible
          first
            | assumption | apply State.keeps_pulse | apply State.keeps_checkAlarm | apply State.keeps_summerSecond
            | apply State.keeps_plainSecond
      | simp only [Keeps.upd] | split

theorem State.keeps_seconds {x1 : State} (h : Keeps b0 x1) (x0 : Nat) :
    Keeps b0 (State.seconds x0 x1) := by
  induction x0 generalizing x1 with
  | zero => exact h
  | succ k ih => exact ih (State.keeps_secondTicks h)

theorem State.keeps_sendPlain (h : Keeps b0 s) (type : Nat) (payload : List Byte) :
    Keeps b0 (State.sendPlain s type payload) := by
  unfold State.sendPlain
  try dsimp only
  repeat'
    with_reducible
      first
        | assumption | apply State.keeps_transmit

theorem State.keeps_sendAck (h : Keeps b0 s) :
    Keeps b0 (State.sendAck s) := by
  unfold State.sendAck
  try dsimp only
  repeat'
    first
      | with_reducible
          first
            | assumption | apply State.keeps_sendPlain | apply Keeps.ite
      | intro _

theorem State.keeps_setAdrIn (h : Keeps b0 s) (b : Bool) :
    Keeps b0 (State.setAdrIn s b) := by
  unfold State.setAdrIn
  try dsimp only
  repeat'
    first
      | with_reducible
          first
            | assumption
      | simp only [Keeps.upd]

theorem State.keeps_setPointer (h : Keeps b0 s) (bytes : List Byte) :
    Keeps b0 (State.setPointer s bytes).1 := by
  unfold State.setPointer
  try dsimp only
  repeat'
    first
      | with_reducible
          first
            | assumption | apply State.keeps_mgbPartial | apply State.keeps_mgbStatus | apply Keeps.ite | apply Keeps.ite_fst
      | simp only [Keeps.upd] | intro _

theorem State.keeps_setStage (h : Keeps b0 s) (e : EngIx) (st : GrantStage) :
    Keeps b0 (State.setStage s e st) := by
  unfold State.setStage
  try dsimp only
  repeat'
    first
      | with_reducible
          first
            | assumption | apply State.keeps_setEng
      | simp only [Keeps.upd] | split

theorem State.keeps_sleepSweep (h : Keeps b0 s) :
    Keeps b0 (State.sleepSweep s) := by
  unfold State.sleepSweep
  try dsimp only
  repeat'
    first
      | with_reducible
          first
            | assumption | apply Keeps.each | apply State.keeps_sfmUpdate | apply Keeps.ite
      | intro _

theorem State.keeps_sliceCatch (h : Keeps b0 s) (k : Nat) :
    Keeps b0 (State.sliceCatch s k) := by
  unfold State.sliceCatch
  try dsimp only
  repeat'
    first
      | with_reducible
          first
            | assumption | apply State.keeps_setBit | apply State.keeps_signalWake | apply Keeps.ite
      | intro _

theorem State.keeps_startQuiet (h : Keeps b0 s) :
    Keeps b0 (State.startQuiet s) := by
  unfold State.startQuiet
  try dsimp only
  repeat'
    first
      | with_reducible
          first
            | assumption | apply Keeps.each | apply State.keeps_requeue
      | simp only [Keeps.upd] | intro _

theorem State.keeps_superframe (h : Keeps b0 s) (dt : Nat) :
    Keeps b0 (State.superframe s dt) := by
  unfold State.superframe
  try dsimp only
  repeat'
    first
      | with_reducible
          first
            | assumption | apply State.keeps_boundaryCommit | apply State.keeps_startQuiet | apply State.keeps_ptpCapture
            | apply State.keeps_boundaryCaptures | apply State.keeps_noteBoundary | apply State.keeps_sleepSweep
            | apply State.keeps_addCredits | apply State.keeps_loadChannels | apply State.keeps_countWithheld | apply Keeps.ite
      | simp only [Keeps.upd] | intro _

theorem State.keeps_slotActions (h : Keeps b0 s) (dt : Nat) :
    Keeps b0 (State.slotActions s dt) := by
  unfold State.slotActions
  try dsimp only
  repeat'
    first
      | with_reducible
          first
            | assumption | apply State.keeps_commitPlan | apply State.keeps_decideSlot | apply State.keeps_superframe
            | apply Keeps.ite
      | simp only [Keeps.upd] | intro _

theorem State.keeps_spiRead (h : Keeps b0 s) (t : SpiRead) (fixed : Bool) :
    Keeps b0 (State.spiRead s t fixed) := by
  unfold State.spiRead
  try dsimp only
  repeat'
    first
      | with_reducible
          first
            | assumption | apply State.keeps_refuseCommand | apply State.keeps_sentWords | apply State.keeps_raise
            | apply State.keeps_spiReads | apply Keeps.ite
      | intro _

theorem State.keeps_spiWrites (h : Keeps b0 s) (cs : Select) (addr : Word) (fixed : Bool) (data : List Word) :
    Keeps b0 (State.spiWrites s cs addr fixed data).1 := by
  unfold State.spiWrites
  try dsimp only
  repeat'
    first
      | with_reducible
          first
            | assumption | apply State.keeps_busWrite | apply State.keeps_portError | apply Keeps.ite | apply Keeps.ite_fst
            | apply Keeps.foldl | apply Keeps.foldl_fst | refine Keeps.of_fst ‹_ = _› ?_
      | intro _ | split

theorem State.keeps_spiWrite (h : Keeps b0 s) (t : SpiWrite) (fixed : Bool) :
    Keeps b0 (State.spiWrite s t fixed) := by
  unfold State.spiWrite
  try dsimp only
  repeat'
    first
      | with_reducible
          first
            | assumption | apply State.keeps_refuseCommand | apply State.keeps_sentWords | apply State.keeps_raise
            | apply State.keeps_spiWrites | apply Keeps.ite
      | intro _

theorem State.keeps_stalledOn (h : Keeps b0 s) (e : EngIx) (port : Nat) (t : Word24) (x : Access) :
    Keeps b0 (State.stalledOn s e port t x) := by
  unfold State.stalledOn
  try dsimp only
  repeat'
    first
      | with_reducible
          first
            | assumption | apply State.keeps_setEng | apply State.keeps_startIssue
      | simp only [Keeps.upd]

theorem State.keeps_startSlot (h : Keeps b0 s) (asn : Nat) :
    Keeps b0 (State.startSlot s asn) := by
  unfold State.startSlot
  try dsimp only
  repeat'
    first
      | with_reducible
          first
            | assumption | apply State.keeps_moveWindows
      | simp only [Keeps.upd]

theorem State.keeps_stopSlots (h : Keeps b0 s) :
    Keeps b0 (State.stopSlots s) := by
  unfold State.stopSlots
  try dsimp only
  repeat'
    first
      | with_reducible
          first
            | assumption | apply State.keeps_countWithheld | apply State.keeps_endSlot | apply State.keeps_shiftTimes
            | apply State.keeps_lower
      | simp only [Keeps.upd]

theorem State.keeps_useEntry (h : Keeps b0 s) (k : Nat) :
    Keeps b0 (State.useEntry s k) := by
  unfold State.useEntry
  try dsimp only
  repeat'
    first
      | with_reducible
          first
            | assumption
      | simp only [Keeps.upd]

theorem State.keeps_storeCal (h : Keeps b0 s) (khz : Nat) (temp : Nat) :
    Keeps b0 (State.storeCal s khz temp) := by
  unfold State.storeCal
  try dsimp only
  repeat'
    first
      | with_reducible
          first
            | assumption | apply State.keeps_useEntry | apply Keeps.setReg


theorem State.keeps_submitDesc (h : Keeps b0 s) (r : Nat) (op : Nat) (j : JobDesc) :
    Keeps b0 (State.submitDesc s r op j) := by
  unfold State.submitDesc
  try dsimp only
  repeat'
    first
      | with_reducible
          first
            | assumption | apply Keeps.each | apply State.keeps_command32
      | intro _

theorem State.keeps_sunPsdu (h : Keeps b0 s) (n : LaneIx) (air : List Int) :
    Keeps b0 (State.sunPsdu s n air).1 := by
  unfold State.sunPsdu
  try dsimp only
  repeat'
    first
      | with_reducible
          first
            | assumption | apply State.keeps_drawTies | apply Keeps.ite | apply Keeps.ite_fst
      | intro _

theorem State.keeps_supplies (h : Keeps b0 s) (vmain : Nat) (vbat : Nat) :
    Keeps b0 (State.supplies s vmain vbat) := by
  unfold State.supplies
  try dsimp only
  repeat'
    first
      | with_reducible
          first
            | assumption | apply State.keeps_putB | apply State.keeps_clearAddress | apply Keeps.ite
      | simp only [Keeps.upd] | intro _

theorem State.keeps_takeFrame (h : Keeps b0 s) (m : Fin 2) (f : EthFrame) (stamp : Option Ptp) :
    Keeps b0 (State.takeFrame s m f stamp) := by
  unfold State.takeFrame
  try dsimp only
  repeat'
    first
      | with_reducible
          first
            | assumption | apply State.keeps_macRead | apply State.keeps_raise | apply State.keeps_bump
            | apply State.keeps_deliverFrame | apply Keeps.ite | refine Keeps.of_fst ‹_ = _› ?_
      | intro _ | split

theorem State.keeps_takeHeader (h : Keeps b0 s) (h : SphHdr) :
    Keeps b0 (State.takeHeader s h) := by
  unfold State.takeHeader
  try dsimp only
  repeat'
    first
      | with_reducible
          first
            | assumption | apply State.keeps_numberFrom | apply State.keeps_releaseRecords | apply State.keeps_sendWaiting
            | apply State.keeps_resendOut | apply Keeps.ite
      | simp only [Keeps.upd] | intro _

theorem State.keeps_takeJob (h : Keeps b0 s) (c : Fin 8) (job : CipJob) :
    Keeps b0 (State.takeJob s c job) := by
  unfold State.takeJob
  try dsimp only
  repeat'
    first
      | with_reducible
          first
            | assumption | apply State.keeps_setCore | apply State.keeps_readPrefix | apply State.keeps_coreChecks
            | apply Keeps.ite
      | intro _

theorem State.keeps_settleSample (h : Keeps b0 s) (c : FdrChan) (past : List Int) (x : Int) :
    Keeps b0 (s.settleSample c past x).2.2 := State.keeps_draw (State.keeps_draw h 26) 32

theorem State.keeps_trimSample (h : Keeps b0 s) (k : Fin 8) (x : Int) :
    Keeps b0 (State.trimSample s k x).2 := by
  unfold State.trimSample
  dsimp only
  split
  · exact State.keeps_setChan (State.keeps_dcFree (State.keeps_phased (State.keeps_gained h _ _) _ _) _ _ _) _ _
  · exact State.keeps_setChan (State.keeps_settleSample (State.keeps_phased (State.keeps_gained h _ _) _ _) _ _ _) _ _

theorem State.keeps_takeSeq (hs : Keeps b0 s) (h : SphHdr) (f : State → State)
    (hf : ∀ t, Keeps b0 t → Keeps b0 (f t)) :
    Keeps b0 (State.takeSeq s h f) := by
  unfold State.takeSeq
  dsimp only
  repeat'
    first
      | with_reducible
          first
            | assumption | apply hf | apply State.keeps_takeHeader | apply State.keeps_sendAck | apply Keeps.ite
      | simp only [Keeps.upd] | intro _

theorem State.keeps_tick (h : Keeps b0 s) (k : TmrIx) :
    Keeps b0 (State.tick s k) := by
  unfold State.tick
  try dsimp only
  repeat'
    with_reducible
      first
        | assumption | apply State.keeps_captures | apply State.keeps_tickMoves

theorem State.keeps_timersWake (h : Keeps b0 s) (cycles : Nat) :
    Keeps b0 (State.timersWake s cycles) := by
  unfold State.timersWake
  try dsimp only
  repeat'
    first
      | with_reducible
          first
            | assumption | apply State.keeps_catchUp | apply Keeps.ite
      | simp only [Keeps.upd] | intro _

theorem State.keeps_txDone (h : Keeps b0 s) (m : Fin 2) (f : TxFrame) :
    Keeps b0 (State.txDone s m f) := by
  unfold State.txDone
  try dsimp only
  repeat'
    first
      | with_reducible
          first
            | assumption | apply State.keeps_closeDesc | apply State.keeps_setMac | apply State.keeps_raise
            | apply State.keeps_txPoll | apply State.keeps_txAdvance | apply State.keeps_bump | apply Keeps.ite
            | refine Keeps.of_fst ‹_ = _› ?_
      | intro _ | split

theorem State.keeps_unblankChain (h : Keeps b0 s) (c : Chain) (t : Nat) :
    Keeps b0 (State.unblankChain s c t) := by
  unfold State.unblankChain
  try dsimp only
  repeat'
    with_reducible
      first
        | assumption | apply State.keeps_reconcile | apply State.keeps_setChain | apply State.keeps_lower

theorem State.keeps_windowPhr (h : Keeps b0 s) (coded : Bool) (window : List Bool) (soft : List Int) :
    Keeps b0 (State.windowPhr s coded window soft).1 := by
  unfold State.windowPhr
  try dsimp only
  repeat'
    first
      | with_reducible
          first
            | assumption | apply State.keeps_drawTies | apply Keeps.ite | apply Keeps.ite_fst
      | intro _

theorem State.keeps_takeSamples (h : Keeps b0 s) (xs : List Int) : Keeps b0 (s.takeSamples xs).2.2 := by
  have hf : ∀ (l : List (Fin 8)) (p : List Nat × Nat × State), Keeps b0 p.2.2 →
      Keeps b0 (l.foldl (fun (acc : List Nat × Nat × State) k =>
        let r := acc.2.2.trimSample k (xs.getD k.val 0)
        let v := clampInt (-fullScale) fullScale r.1
        (acc.1 ++ [ofSigned 24 v], acc.2.1 + (if v = r.1 then 0 else 2 ^ k.val), r.2)) p).2.2 := by
    intro l
    induction l with
    | nil => exact fun _ g => g
    | cons k l ih => exact fun p g => ih _ (State.keeps_trimSample g _ _)
  exact hf _ _ h

end Sys2Proof.Machine
end

