-- ==== Sys2Proof/Tests/Slice0.lean ====
section
/-! SUPPORT. Tests: an ill-formed command for each check of `Instr.wf`, the worked examples of the spec, and for every statement of
Certificates/Slice0/Obligations.lean with hypotheses, states and operands that meet them, clause by clause. -/

namespace Sys2Proof.Tests

set_option linter.all false
set_option Elab.async false

open Sys2Proof Sys2Proof.Machine
/-- The part in RUN with every block ready. -/
def awake : State := { State.reset with
  regs := [(Reg.SYS_READY, 0xFFFFFFFF)]
  pwr := { mainOn := true, vmainLow := false } }
/-- A staged field of the active settings becomes `v`. -/
def putA (s : State) (f : Fld) (v : Nat) : State :=
  s.setActive f.key (BitVec.ofNat 32 (setBits (s.activeReg f.key).toNat f.lo f.width v))
/-- Engine `wellEngine w j` alone waits, at stage `st`. -/
def w8 (s : State) (w j : Fin 8) (st : GrantStage) : State :=
  s.setEng (wellEngine w j) { s.engAt (wellEngine w j) with
    state := .running, stall := some { word := 0, moves := [], accs := [(false, .load .b 0x10780000)], stage := st } }
def fetchAddr (s : State) (e : EngIx) : Nat := 0x10600000 + 0x6000 * e.val + 6 * seqIdx (s.engAt e).seq 0
def aStall : Stall := { word := 0, moves := [⟨false, 0x110, 5⟩], accs := [], stage := .granted }
def aDesc : JobDesc := ⟨0x40000007, 0x10780000, 0x10782000, 0x10784000, 0x05028100, 0⟩
def aJob : CipJob := ⟨aDesc, false, 64⟩
def aLock : LockSet := { deep := true, pats := [(List.replicate 16 true, false)], tol := 2 }
def aBeat : BeatBody := ⟨3, false, false, 1, 0, 0, 0, 7, 0, 0, 0, 0⟩
def aHdr : SphHdr := ⟨1, 7, false, true, false⟩
def aReq : ReqBody := ⟨5, 0, 4, true, 9, 0, 0x10780000, 0, 0, []⟩
def aCw : CwJob := { lane := 95, index := 0, rows := 4, z48 := false, bytes := 12, llr := [] }
def aTx : TxFrame := ⟨0x10780000, 0x80000020, [1, 2, 3], none⟩
/-- Balls held with their outputs low and the inputs high. -/
def held : PadLatch :=
  { ctrOe := 0xFF, ctr := 0, gpioDir := 0, gpioOut := 0, gpioUp := 0, gpioDn := 0, femA := 0, femB := 0, tioDir := 0, tio := 0
    gpioIn := 0xFFFFFF, cfb := 0xFF, ethTx := Vector.replicate 12 (.drive false), ethMdc := Vector.replicate 2 (.drive false)
    ethMdio := Vector.replicate 2 (.float false false), mdioIn := 3, sphTx := Vector.replicate 2 (.float false false) }
def aLaunch : Launch :=
  { req := some ⟨0, 5, 9, 0⟩, desc := 5, slot := 4095, first := 0, occStart := -400, occEnd := 900, khz := 868300, prof := 0, d0 := 20
    d1 := 0x10780000, d2 := 0, preamble := 4, copies := 1, charge := 10, bucket := 0, entry := 9, sync := 0, loaded := true }
def rowOf (a : Nat) : RegRow := (rowAt a).getD ⟨0, 4, 1, 4, 1, .single, 0, 0, 0, 0, 0, 0, 0, 0, 0⟩
/-- Lane `n` in SEARCH with searchers 0, 2 and 3 for the Deep family, searcher 0 with its own sync word. -/
def searching (s : State) (n : LaneIx) : State :=
  let on (s : State) (k : Nat) : State :=
    putA (putA (putA (putA s (F.LAN_SRCH_EN n.val k) 1) (F.LAN_SRCH_FAM n.val k) 1) (F.LAN_SRCH_RATE n.val k) 1) (F.LAN_SRCH_TOL n.val k) 2
  let t := (on (on (on s 0) 2) 3).setActive (Reg.LAN_SYNC n.val 0) 0x1234567B |>.setActive (Reg.LAN_SYNC n.val 2) 0x7FFFFFFF
  t.setLane n { t.laneAt n with state := .search }
/-- Tenant 0 enabled with slot 2, and every slot holding a key. -/
def keyed (s : State) : State :=
  (putA (putA s (F.CIP_TEN_EN 0) 1) (F.CIP_TEN_SLOT 0) 2).setReg (Reg.CIP_KSV 0) 0xFFFFFFFF
/-- Engine `e` runs and is not stalled. -/
def runs (s : State) (e : EngIx) : State := s.setEng e { s.engAt e with state := .running }
/-- Entry 7 is a child of entry 9, which is a root. -/
def routed (s : State) : State := (s.setEntry 7 (0x100 + 9 * 2 ^ 100)).setEntry 9 (0x300 + 9 * 2 ^ 100)
def goodHeader : List Bool := headerBits (mkHeader 20 0 0 0 0 0)
/-- Four bits of the first Golay word are wrong. -/
def badHeader : List Bool := (((goodHeader.set 3 (!goodHeader[3]!)).set 9 (!goodHeader[9]!)).set 11 (!goodHeader[11]!)).set 20 (!goodHeader[20]!)
/-- CS_S. -/
def secureSel : Select := .s
/-- Engine `e` runs with its trap handler enabled. -/
def trapping (s : State) (e : EngIx) : State := runs (s.setBit (Reg.ENG_CFG e.val) 16 true) e
/-- Engine `e` is non-secure, in a device whose memory and blocks are secure. -/
def outer (s : State) (e : EngIx) : State :=
  if e.val < 32 then s.setBit Reg.SYS_WLD_ENG_LO e.val true else s.setBit Reg.SYS_WLD_ENG_HI (e.val - 32) true
def aRun (op : Nat) (level : Nat) : CoreRun := { job := ⟨{ aDesc with w0 := BitVec.ofNat 32 (op * 2 ^ 28 + 7) }, false, 64⟩, level := level }

/-! ## Ill-formed commands: one for each check of `Instr.wf` -/

theorem test_illformed_register_write : (Instr.registerWrite 64 0x20000002 0).wf = false := by decide
theorem test_illformed_rc_read : (Instr.rcRead 64 0x20000000).wf = false := by decide +kernel
theorem test_illformed_snapshot_read : (Instr.snapshotRead 64 0x2000FFFC).wf = false := by decide +kernel
theorem test_illformed_staged_write : (Instr.stagedWrite 64 0x20000000 0).wf = false := by decide +kernel
theorem test_illformed_second_correlator : (Instr.secondCorrelatorMatch 17 []).wf = false := by decide
theorem test_illformed_codeword : (Instr.codewordReceived 17 [] true).wf = false := by decide
theorem test_illformed_cistern_write : (Instr.cisternDirectWrite 64 0x10400000 0).wf = false := by decide
theorem test_illformed_key_store_write : (Instr.keyStoreWrite 64 0x107FC001 0 .half).wf = false := by decide
theorem test_illformed_instruction_store_write : (Instr.instructionStoreWrite 64 0x10603000 0).wf = false := by decide
theorem test_illformed_entry : (Instr.entry aHdr []).wf = false := by decide
theorem test_illformed_req : (Instr.req aHdr { aReq with payload := List.replicate 489 0 }).wf = false := by decide +kernel
theorem test_illformed_done : (Instr.done aHdr (List.replicate 129 ⟨0, 0⟩)).wf = false := by decide +kernel
theorem test_illformed_acct : (Instr.acct aHdr []).wf = false := by decide
theorem test_illformed_write : (Instr.write ⟨.s, 0x02000001, 0x20000000, [5], none, 2⟩).wf = false := by decide
theorem test_illformed_write_fix : (Instr.writeFix ⟨.s, 0x03000001, 0x20000000, List.replicate 257 5, none, 0⟩).wf = false := by decide +kernel
theorem test_illformed_read : (Instr.read ⟨.n, 0x0B000001, 0x20000000, none, List.replicate 257 false⟩).wf = false := by decide +kernel
theorem test_illformed_read_fix : (Instr.readFix ⟨.n, 0x0C000001, 0x20000000, none, List.replicate 257 false⟩).wf = false := by decide +kernel
theorem test_illformed_frame_instant : (Instr.frameInstant (List.replicate 7 0) 0).wf = false := by decide
theorem test_illformed_sounding : (Instr.soundingMeasurement 25 (List.replicate 23 0)).wf = false := by decide
theorem test_wellformed_register_write : (Instr.registerWrite 64 0x20000000 0).wf = true := by decide

/-! ## Worked examples of the spec -/

/-- The engine encodings under 07 R227. -/
theorem test_two_moves : movesOf 0x0082809FFCE1 = [⟨false, 0, none, 0x041, 0x101⟩, ⟨true, 1, some 0xFFFFFF, 0x1FF, 0x0E1⟩] := by
  decide +kernel

theorem test_long_immediate : movesOf 0x801C00123456 = [⟨false, 0, some 0x123456, 0, 7⟩] := by decide +kernel

/-- MOVE issues the instruction stored as the bytes 56 34 12 00 1C 80: 0x123456 goes into w7. -/
theorem test_move_runs_stored_bytes :
    (match exec (.move 3) ((runs awake 3).putBytes 0x10612000 [0x56, 0x34, 0x12, 0x00, 0x1C, 0x80]) with
     | .next t => ((t.engAt 3).w[7], (t.engAt 3).w[6])
     | _ => (0, 0)) = (0x123456, 0) := by decide +kernel

/-- 0xFFFFFF + 2 wraps to 1 (07 R213, R229), delivered one position later. -/
theorem test_add_wraps :
    (match exec (.add 5 1 0xFFFFFF) ((runs awake 5).setEng 5 { (runs awake 5).engAt 5 with op := { alu1O := 2 } }) with
     | .next t => (t.engAt 5).flight
     | _ => []) = [⟨.alu1, 1, 1, 0⟩] := by decide +kernel

/-- The header of 03, Worked decode on lane 17: LEN 100, PROF 6, SEC 1, UP 1. -/
theorem test_header : mkHeader 100 6 1 0 0 1 = 0x064D2F ∧ golayWord 0x064 = 0x0642A9 ∧ golayWord 0xD2F = 0xD2FED9 := by
  decide +kernel

/-- One bit error in the second Golay word is corrected. -/
theorem test_header_corrected : headerDecode ((headerBits 0x064D2F).set 47 (!(headerBits 0x064D2F)[47]!)) = some 0x064D2F := by
  decide +kernel

/-- The codewords of the same frame. -/
theorem test_codewords : liftZ 6 100 = 48 ∧ infoBits 6 100 = 768 ∧ codewordCount 6 100 = 2 ∧ cwBytes 6 100 0 = 52 ∧ cwAir 6 100 0 = 800 := by
  decide +kernel

/-- Entry 76,321 of 04, a class-9 parking sensor: SLEEPY, VALID, class 9, profile 5, D = -3, last heard 9,172. -/
def sensor : Nat := pack [(0, 1), (8, 1), (12, 253), (20, 9), (24, 5), (28, 9172)]

/-- At slot ASN 1,179,167 of that example with GUARD = 1 ms. -/
def beforeSensor : State :=
  let s := putA awake F.SFM_TIMING_GUARD 100
  { s with sfm := { s.sfm with asn := 1179167 } }

/-- The window [T - 1,960 us, T + 1,000 us] for T = 81 ms after now, and the full-interval one after three misses. -/
theorem test_wake_window :
    beforeSensor.wakeWindow sensor 2 = (168000 - 15680, 23680, false) ∧
      beforeSensor.wakeWindow (setBits sensor 1 2 3) 2 = (168000 - 40968000, 40976000, true) := by decide +kernel

/-- The 20-byte frame at profile 3: 480 bits on air, 8.56 ms with its 296-symbol preamble. -/
theorem test_sensor_frame : payloadAir 3 20 = 480 ∧ airTime 0x80000014 3 296 = 8 * 8560 := by decide +kernel

/-- SFM_HEARD with ERR = -210 in superframe 9,212: D = -4, last heard 9,212, MISS = 0. -/
theorem test_heard :
    let e := heardEntry 9212 (-210) (setBits sensor 1 2 2)
    entDrift e = -4 ∧ entHeard e = 9212 ∧ entMiss e = 0 := by decide +kernel

/-- The derivation message, the nonce and the record of 05, decrypting the frame on lane 17. -/
theorem test_kdf_message :
    kdfMessage 1 76321 48 128 = [1, 0x50, 0x4C, 0x4B, 0x44, 0, 0x01, 0x2A, 0x21, 0, 0, 0x30, 0, 0x80] := by decide +kernel

theorem test_record :
    recordBytes ⟨0x1D000000, 0x10408800, 0x10782000, 0x10782100, 0x0C800000, 0x2A000011⟩
      ⟨0, 5, true, 7210, deepNonce 2 76321 1 7210 6, 76321, 84⟩ =
      bytesLe 4 0x85800011 ++ bytesLe 4 0x1C2A ++ bytesLe 4 0x2A010200 ++ bytesLe 4 0x00000121 ++ bytesLe 4 0x2A1C0000 ++
        bytesLe 4 6 ++ bytesLe 4 0x4A884054 ++ bytesLe 4 0 := by decide +kernel

/-- FIPS 197, appendix C.1. -/
theorem test_aes128 :
    aesBlock (aesSchedule [0, 1, 2, 3, 4, 5, 6, 7, 8, 9, 10, 11, 12, 13, 14, 15])
      [0x00, 0x11, 0x22, 0x33, 0x44, 0x55, 0x66, 0x77, 0x88, 0x99, 0xAA, 0xBB, 0xCC, 0xDD, 0xEE, 0xFF] =
      [0x69, 0xC4, 0xE0, 0xD8, 0x6A, 0x7B, 0x04, 0x30, 0xD8, 0xCD, 0xB7, 0x80, 0x70, 0xB4, 0xC5, 0x5A] := by decide +kernel

/-- SP 800-38B, appendix D.1, the empty message. -/
theorem test_cmac :
    cmac [0x2B, 0x7E, 0x15, 0x16, 0x28, 0xAE, 0xD2, 0xA6, 0xAB, 0xF7, 0x15, 0x88, 0x09, 0xCF, 0x4F, 0x3C] [] =
      [0xBB, 0x1D, 0x69, 0x29, 0xE9, 0x59, 0x37, 0x28, 0x7F, 0xA3, 0x7D, 0x12, 0x9B, 0x75, 0x67, 0x46] := by decide +kernel

/-- The entry used in 06, a launch with temperature recalibration: PWR 60, LIMIT 58, BACKOFF 2. -/
theorem test_power_entry :
    ((awake.put (F.TXP_PWRLIM_LIMIT 0) 58).put F.TXP_BACKOFF_STEPS 2).powerEntry (BitVec.ofNat 32 (60 * 2 ^ 22)) = 56 := by
  decide +kernel

/-- Reading six words in quad mode with CRC and seven WAIT words takes 18 words of 8 clocks (10). -/
theorem test_spi_length : (⟨0, 7, true, 8⟩ : SpiMode).length true 6 = 144 := by decide

/-- Catch-up of the cascaded pair of 12: the count becomes 2,035,156 after 6 overflows. -/
theorem test_catch_up :
    2000000 * 40000000 / (32768 * 40) = 61035156 ∧
      skipTicks true false 9999999 1000000 false 61035156 = ⟨2035156, false, 6, true, false⟩ := by decide +kernel

/-- The plan of 14, an advised plan. -/
theorem test_plan :
    let s := (((awake.put F.AGE_CFG_EN 15).put (F.AGE_SND_DEG 3) 230).put F.AGE_VCO_HIHEAD 1).put F.AGE_VCO_LOHEAD 9
    let p := ({ s with age := { detSum := 1320, detCount := 412, units := 3072, pulses := 10445 } } : State).proposal
    p.op.map (fun v => bitsOf v.toNat 0 10) = [930, 830, 730, 630] ∧ p.steps = 2 ∧ bitsOf p.vco.toNat 16 16 = 2080 ∧ p.pw = 12 := by
  decide +kernel


/-- R90: the pairs 00, 01, 10, 11. -/
theorem test_levels : symbolLevels true [false, false, false, true, true, false, true, true] = [-1, -3, 1, 3] := by decide

/-- The PN9 sequence of IEEE 802.15.4 SUN begins 0000 1111 0111 (R99, log entry 22). -/
theorem test_pn9 :
    pn9 12 = [false, false, false, false, true, true, true, true, false, true, true, true] := by decide +kernel

/-- A coded PHR and PSDU that arrive without errors are decoded with the code that made them (R85, R86, log entry 21). -/
theorem test_sun_fec :
    ∀ rsc : Bool, ofBitsMsb ((viterbiBits rsc false (fun _ => false) (pairUp
      ((sunEncode rsc false (bitsMsb 40 0x08031234AB)).map (fun b => if b then (-1 : Int) else 1)))).take 40) = 0x08031234AB := by
  decide +kernel

/-! ## The hypotheses of the statements are met -/

/-- States and operands that meet the hypotheses of AluOperations, clause by clause. -/
theorem witness_AluOperations :
    (let e : EngIx := 63; let s : State := awake; let s : State := runs s e; s.issues e = true) := by decide +kernel

/-- States and operands that meet the hypotheses of ShifterOperations, clause by clause. -/
theorem witness_ShifterOperations :
    (let e : EngIx := 63; let s : State := awake; let s : State := runs s e; s.issues e = true) := by decide +kernel

/-- States and operands that meet the hypotheses of MultiplierOperations, clause by clause. -/
theorem witness_MultiplierOperations :
    (let e : EngIx := 63; let s : State := awake; let s : State := runs s e; s.issues e = true) := by decide +kernel

/-- States and operands that meet the hypotheses of ComparatorOperations, clause by clause. -/
theorem witness_ComparatorOperations :
    (let e : EngIx := 63; let s : State := awake; let s : State := runs s e; s.issues e = true) := by decide +kernel

/-- States and operands that meet the hypotheses of BranchesTakeEffectAfterTwoSlots, clause by clause. -/
theorem witness_BranchesTakeEffectAfterTwoSlots :
    (let e : EngIx := 63; let t : Word24 := 0; let s : State := awake; let s : State := runs s e; s.issues e = true ∧
      let g := s.issuing e; let traps := s.flag (F.ENG_CFG_RSTK_TRAP e.val); (traps = false ∨ g.rdepth ≠ 8) ∧ t.toNat < 2048) ∧
    (let e : EngIx := 63; let s : State := awake; let s : State := runs s e; s.issues e = true ∧ let g := s.issuing e;
      let traps := s.flag (F.ENG_CFG_RSTK_TRAP e.val); (traps = false ∨ g.rdepth ≠ 0)) ∧
    (let e : EngIx := 63; let s : State := awake; let s : State := runs s e;
      let s : State := s.setEng e { s.engAt e with tb := { cause := 0x800000 } }; s.issues e = true ∧ let g := s.issuing e;
      g.tb.cause.getLsbD 23 = true) := by
  refine ⟨?_, ?_, ?_⟩ <;> decide +kernel

/-- States and operands that meet the hypotheses of LocalMemoryAndPorts, clause by clause. -/
theorem witness_LocalMemoryAndPorts :
    (let e : EngIx := 63; let t : Word24 := 0; let s : State := awake; let s : State := runs s e; s.issues e = true ∧ t.toNat < 4096 ∧
      s.halfLoaded (localAddr e t.toNat) = false) ∧
    (let e : EngIx := 63; let t : Word24 := BitVec.ofNat 24 (0); let s : State := awake; let s : State := runs s e;
      let s : State := ({ s with part := [((localAddr e t.toNat - 0x10600000)/12, 5)] } : State); s.issues e = true ∧ t.toNat < 4096 ∧
      s.halfLoaded (localAddr e t.toNat) = true) ∧
    (let e : EngIx := 63; let t : Word24 := 0; let s : State := awake; let s : State := runs s e; s.issues e = true ∧
      bitsOf t.toNat 16 7 ≤ 95 ∧ (t.getLsbD 23 = true → s.reqNS e.val = true → s.blockNS 9 = true)) := by
  refine ⟨?_, ?_, ?_⟩ <;> decide +kernel

/-- States and operands that meet the hypotheses of SharedTriggersStallTheEngine, clause by clause. -/
theorem witness_SharedTriggersStallTheEngine :
    (let e : EngIx := 63; let t : Word24 := 0; let s : State := awake; let s : State := runs s e; s.issues e = true ∧
      let g := s.issuing e; let a := (g.op.seg.toNat % 256) * 2 ^ 24 + t.toNat; a % 2 = 0) ∧
    (let e : EngIx := 63; let t : Word24 := 0; let s : State := awake; let s : State := runs s e; s.issues e = true ∧
      let g := s.issuing e; let a := (g.op.seg.toNat % 256) * 2 ^ 24 + t.toNat; a % 4 = 0) ∧
    (let e : EngIx := 63; let s : State := awake; let s : State := runs s e; s.issues e = true ∧ let g := s.issuing e;
      let base := (g.op.seg.toNat % 256) * 2 ^ 24 + g.op.bsa.toNat; g.op.bsa.toNat % 4 = 0 ∧ g.op.la.toNat < 4096 ∧ base < 0x20000000) := by
  refine ⟨?_, ?_, ?_⟩ <;> decide +kernel

/-- States and operands that meet the hypotheses of SharedLoadsDeliver, clause by clause. -/
theorem witness_SharedLoadsDeliver :
    (let e : EngIx := 63; let t : Word24 := BitVec.ofNat 24 (0x780000); let s : State := awake;
      let s : State := s.setEng e { s.engAt e with op := { (s.engAt e).op with seg := 0x10 } }; let s : State := runs s e;
      s.issues e = true ∧ let a := ((s.issuing e).op.seg.toNat % 256) * 2 ^ 24 + t.toNat; 0x10780000 ≤ a ∧ a < 0x107FC000 ∧
      (s.reqNS e.val = false ∨ s.memNS a = true) ∧ a % 2 = 0) ∧
    (let e : EngIx := 63; let t : Word24 := BitVec.ofNat 24 (0x780000); let s : State := awake;
      let s : State := s.setEng e { s.engAt e with op := { (s.engAt e).op with seg := 0x10 } }; let s : State := runs s e;
      s.issues e = true ∧ let a := ((s.issuing e).op.seg.toNat % 256) * 2 ^ 24 + t.toNat; 0x10780000 ≤ a ∧ a < 0x107FC000 ∧
      (s.reqNS e.val = false ∨ s.memNS a = true) ∧ a % 4 = 0) := by
  refine ⟨?_, ?_⟩ <;> decide +kernel

/-- States and operands that meet the hypotheses of SharedStoresWrite, clause by clause. -/
theorem witness_SharedStoresWrite :
    (let e : EngIx := 63; let t : Word24 := BitVec.ofNat 24 (0x780000); let s : State := awake;
      let s : State := s.setEng e { s.engAt e with op := { (s.engAt e).op with seg := 0x10 } }; let s : State := runs s e;
      s.issues e = true ∧ let g := s.issuing e; let a := (g.op.seg.toNat % 256) * 2 ^ 24 + t.toNat; 0x10780000 ≤ a ∧ a < 0x107FC000 ∧
      (s.reqNS e.val = false ∨ s.memNS a = true) ∧ a % 2 = 0) ∧
    (let e : EngIx := 63; let t : Word24 := BitVec.ofNat 24 (0x780000); let s : State := awake;
      let s : State := s.setEng e { s.engAt e with op := { (s.engAt e).op with seg := 0x10 } }; let s : State := runs s e;
      s.issues e = true ∧ let g := s.issuing e; let a := (g.op.seg.toNat % 256) * 2 ^ 24 + t.toNat; 0x10780000 ≤ a ∧ a < 0x107FC000 ∧
      (s.reqNS e.val = false ∨ s.memNS a = true) ∧ a % 4 = 0) := by
  refine ⟨?_, ?_⟩ <;> decide +kernel

/-- States and operands that meet the hypotheses of BlocksAndLocksComplete, clause by clause. -/
theorem witness_BlocksAndLocksComplete :
    (let e : EngIx := 63; let st : Stall := { aStall with accs := [(true, .block true 2 0 4095 0x10780000)] }; let b : Bool := true;
      let m : Nat := 2; let i : Nat := 0; let la : Nat := 4095; let base : Nat := 0x10780000; let s : State := awake;
      let s : State := s.setEng e { (s.engAt e) with state := .running };
      let s : State := s.setEng e { s.engAt e with state := .running, stall := some st }; (s.engAt e).stall = some st ∧
      st.stage = .granted ∧ st.passed = [] ∧ st.worlds = s.worldMap ∧ (∀ m ∈ st.moves, m.dst ≠ 0x160) ∧ 0x10780000 ≤ base + 4 * i ∧
      base + 4 * i < 0x107FC000 ∧ (s.reqNS e.val = false ∨ s.memNS (base + 4 * i) = true) ∧ (s.engAt e).state = .running ∧
      let l := 0x10600000 + 0x6000 * e.val + 0x3000 + 3 * ((la + i) % 4096); s.halfLoaded l = false ∧
      st.accs = [(b, .block true m i la base)] ∧ i + 1 < m) ∧
    (let e : EngIx := 63; let st : Stall := { aStall with accs := [(true, .block true 1 0 4095 0x10780000)] }; let b : Bool := true;
      let m : Nat := 1; let i : Nat := 0; let la : Nat := 4095; let base : Nat := 0x10780000; let s : State := awake;
      let s : State := s.setEng e { (s.engAt e) with state := .running };
      let s : State := s.setEng e { s.engAt e with state := .running, stall := some st }; (s.engAt e).stall = some st ∧
      st.stage = .granted ∧ st.passed = [] ∧ st.worlds = s.worldMap ∧ (∀ m ∈ st.moves, m.dst ≠ 0x160) ∧ 0x10780000 ≤ base + 4 * i ∧
      base + 4 * i < 0x107FC000 ∧ (s.reqNS e.val = false ∨ s.memNS (base + 4 * i) = true) ∧ (s.engAt e).state = .running ∧
      let l := 0x10600000 + 0x6000 * e.val + 0x3000 + 3 * ((la + i) % 4096); s.halfLoaded l = false ∧
      st.accs = [(b, .block true m i la base)] ∧ (¬i + 1 < m)) ∧
    (let e : EngIx := 63; let st : Stall := { aStall with accs := [(true, .block false 2 0 4095 0x10780000)] }; let b : Bool := true;
      let m : Nat := 2; let i : Nat := 0; let la : Nat := 4095; let base : Nat := 0x10780000; let s : State := awake;
      let s : State := s.setEng e { (s.engAt e) with state := .running };
      let s : State := s.setEng e { s.engAt e with state := .running, stall := some st }; (s.engAt e).stall = some st ∧
      st.stage = .granted ∧ st.passed = [] ∧ st.worlds = s.worldMap ∧ (∀ m ∈ st.moves, m.dst ≠ 0x160) ∧ 0x10780000 ≤ base + 4 * i ∧
      base + 4 * i < 0x107FC000 ∧ (s.reqNS e.val = false ∨ s.memNS (base + 4 * i) = true) ∧ (s.engAt e).state = .running ∧
      let l := 0x10600000 + 0x6000 * e.val + 0x3000 + 3 * ((la + i) % 4096); s.halfLoaded l = false ∧
      st.accs = [(b, .block false m i la base)] ∧ i + 1 < m) ∧
    (let e : EngIx := 63; let st : Stall := { aStall with accs := [(true, .block false 1 0 4095 0x10780000)] }; let b : Bool := true;
      let m : Nat := 1; let i : Nat := 0; let la : Nat := 4095; let base : Nat := 0x10780000; let s : State := awake;
      let s : State := s.setEng e { (s.engAt e) with state := .running };
      let s : State := s.setEng e { s.engAt e with state := .running, stall := some st }; (s.engAt e).stall = some st ∧
      st.stage = .granted ∧ st.passed = [] ∧ st.worlds = s.worldMap ∧ (∀ m ∈ st.moves, m.dst ≠ 0x160) ∧ 0x10780000 ≤ base + 4 * i ∧
      base + 4 * i < 0x107FC000 ∧ (s.reqNS e.val = false ∨ s.memNS (base + 4 * i) = true) ∧ (s.engAt e).state = .running ∧
      let l := 0x10600000 + 0x6000 * e.val + 0x3000 + 3 * ((la + i) % 4096); s.halfLoaded l = false ∧
      st.accs = [(b, .block false m i la base)] ∧ (¬i + 1 < m)) ∧
    (let e : EngIx := 63; let st : Stall := { aStall with accs := [(true, .lockAcq 63)] }; let b : Bool := true; let k : Fin 64 := 63;
      let s : State := awake; let s : State := s.setEng e { s.engAt e with state := .running, stall := some st };
      (s.engAt e).stall = some st ∧ st.stage = .granted ∧ st.passed = [] ∧ st.worlds = s.worldMap ∧ (∀ m ∈ st.moves, m.dst ≠ 0x160) ∧
      s.windowBarred e.val Reg.LCK_ACQ true = false ∧ s.ready 7 = true ∧ s.lockBarred e.val k.val = false ∧
      st.accs = [(b, .lockAcq k.val)] ∧ s.flag (F.LCK_S_HELD k.val) = false ∧ s.canonical = true) ∧
    (let e : EngIx := 63; let st : Stall := { aStall with accs := [(true, .lockRel 63)] }; let b : Bool := true; let k : Fin 64 := 63;
      let s : State := awake.put (F.LCK_S_HELD k.val) (1) |>.put (F.LCK_S_HOLDER k.val) (e.val);
      let s : State := s.setEng e { s.engAt e with state := .running, stall := some st }; (s.engAt e).stall = some st ∧
      st.stage = .granted ∧ st.passed = [] ∧ st.worlds = s.worldMap ∧ (∀ m ∈ st.moves, m.dst ≠ 0x160) ∧
      s.windowBarred e.val Reg.LCK_ACQ true = false ∧ s.ready 7 = true ∧ s.lockBarred e.val k.val = false ∧
      st.accs = [(b, .lockRel k.val)] ∧ s.flag (F.LCK_S_HELD k.val) = true ∧ s.get (F.LCK_S_HOLDER k.val) = e.val) := by
  refine ⟨?_, ?_, ?_, ?_, ?_, ?_⟩ <;> decide +kernel

/-- States and operands that meet the hypotheses of SourceReadsIntoRegisters, clause by clause. -/
theorem witness_SourceReadsIntoRegisters :
    (let e : EngIx := 63; let s : State := awake; let s : State := runs s e;
      let s : State := s.setEng e { s.engAt e with lio := { (s.engAt e).lio with sample := false, lane := 0 } };
      let s : State := s.setEng e { s.engAt e with lio := { (s.engAt e).lio with held := 3 + 0 } }; s.issues e = true ∧
      let g := s.issuing e; let l := g.lio; let at0 := 0x10400000 + 2048 * l.lane + l.off % 2048; l.sample = false ∧
      (s.reqNS e.val = false ∨ s.memNS at0 = true) ∧ s.ready 9 = true ∧ 3 ≤ l.held) ∧
    (let e : EngIx := 63; let s : State := awake; let s : State := runs s e;
      let s : State := s.setEng e { s.engAt e with lio := { (s.engAt e).lio with sample := false, lane := 0 } };
      let s : State := s.setEng e { s.engAt e with lio := { (s.engAt e).lio with held := 1 + 0 } }; s.issues e = true ∧
      let g := s.issuing e; let l := g.lio; let at0 := 0x10400000 + 2048 * l.lane + l.off % 2048; l.sample = false ∧
      (s.reqNS e.val = false ∨ s.memNS at0 = true) ∧ s.ready 9 = true ∧ 1 ≤ l.held) ∧
    (let e : EngIx := 63; let s : State := awake; let s : State := runs s e;
      let s : State := s.setEng e { s.engAt e with lio := { (s.engAt e).lio with sample := false, lane := 0 } };
      let s : State := s.setEng e { s.engAt e with lio := { (s.engAt e).lio with held := 0 } }; s.issues e = true ∧
      let g := s.issuing e; let l := g.lio; let at0 := 0x10400000 + 2048 * l.lane + l.off % 2048; l.sample = false ∧
      (s.reqNS e.val = false ∨ s.memNS at0 = true) ∧ s.ready 9 = true ∧ l.held < 3) ∧
    (let e : EngIx := 63; let s : State := awake; let s : State := runs s e;
      let s : State := s.setEng e { s.engAt e with lio := { (s.engAt e).lio with sample := false, lane := 0 } };
      let s : State := s.setEng e { s.engAt e with lio := { (s.engAt e).lio with held := 0 } }; s.issues e = true ∧
      let g := s.issuing e; let l := g.lio; let at0 := 0x10400000 + 2048 * l.lane + l.off % 2048; l.sample = false ∧
      (s.reqNS e.val = false ∨ s.memNS at0 = true) ∧ s.ready 9 = true ∧ l.held = 0) ∧
    (let e : EngIx := 63; let i : BitVec 16 := 0; let q : BitVec 16 := 0; let rest : List (BitVec 16 × BitVec 16) := [];
      let s : State := awake; let s : State := runs s e;
      let s : State := s.setEng e { s.engAt e with lio := { (s.engAt e).lio with sample := true, lane := 0 } };
      let s : State := s.setEng e { s.engAt e with lio := { (s.engAt e).lio with fifo := (i,q)::rest } }; s.issues e = true ∧
      let g := s.issuing e; let l := g.lio; l.sample = true ∧ l.fifo = (i, q) :: rest) ∧
    (let e : EngIx := 63; let s : State := awake; let s : State := runs s e;
      let s : State := s.setEng e { s.engAt e with lio := { (s.engAt e).lio with sample := true, lane := 0 } };
      let s : State := s.setEng e { s.engAt e with lio := { (s.engAt e).lio with fifo := [] } }; s.issues e = true ∧
      let g := s.issuing e; let l := g.lio; l.sample = true ∧ l.fifo = []) ∧
    (let e : EngIx := 63; let q : BitVec 16 := 0; let s : State := awake; let s : State := runs s e;
      let s : State := s.setEng e { s.engAt e with lio := { (s.engAt e).lio with sample := true, lane := 0 } };
      let s : State := s.setEng e { s.engAt e with lio := { (s.engAt e).lio with lastQ := some q } }; s.issues e = true ∧
      let g := s.issuing e; let l := g.lio; l.sample = true ∧ l.lastQ = some q) ∧
    (let e : EngIx := 63; let s : State := awake; let s : State := runs s e;
      let s : State := s.setEng e { s.engAt e with lio := { (s.engAt e).lio with sample := true, lane := 0 } };
      let s : State := s.setEng e { s.engAt e with lio := { (s.engAt e).lio with lastQ := none } }; s.issues e = true ∧
      let g := s.issuing e; let l := g.lio; l.sample = true ∧ l.lastQ = none) ∧
    (let e : EngIx := 63; let c : Fin 256 := 255; let s : State := awake; let s : State := runs s e;
      let s : State := s.setEng e { s.engAt e with evPend := BitVec.ofNat 256 (5 * 2 ^ c.val) }; s.issues e = true ∧
      let g := s.issuing e; g.evPend.getLsbD c.val = true ∧ (∀ j < c.val, g.evPend.getLsbD j = false)) ∧
    (let e : EngIx := 63; let s : State := awake; let s : State := runs s e; let s : State := s.setEng e { s.engAt e with evPend := 0 };
      s.issues e = true ∧ let g := s.issuing e; g.evPend = 0) ∧
    (let e : EngIx := 63; let s : State := awake; let s : State := runs s e; s.issues e = true ∧ s.running = false) ∧
    (let e : EngIx := 63; let s : State := awake; let s : State := runs s e |>.put F.SFM_STAT_RUNNING 1;
      let s : State := ({ s with sfm := { s.sfm with offSeen := 0 } } : State); s.issues e = true ∧ s.running = true ∧
      s.sfm.offSeen < s.sfm.slotLen) := by
  refine ⟨?_, ?_, ?_, ?_, ?_, ?_, ?_, ?_, ?_, ?_, ?_, ?_⟩ <;> decide +kernel

/-- States and operands that meet the hypotheses of JobAndEventPorts, clause by clause. -/
theorem witness_JobAndEventPorts :
    (let e : EngIx := 63; let s : State := awake; let s : State := runs s e;
      let s : State := s.setEng e { (s.engAt e) with cjCount := 0 } |>.setBit Reg.SYS_READY 14 false |>.setBit Reg.SYS_READY 14 false;
      s.issues e = true ∧ let g := s.issuing e; g.cjCount < 5 ∧ s.ready 14 = false) ∧
    (let e : EngIx := 63; let s : State := awake; let s : State := runs s e;
      let s : State := s.setEng e { (s.engAt e) with cjCount := 0 }; s.issues e = true ∧ let g := s.issuing e; g.cjCount < 5 ∧
      s.ready 14 = true) ∧
    (let e : EngIx := 63; let s : State := awake; let s : State := runs s e;
      let s : State := s.setEng e { (s.engAt e) with cjCount := 5 }; s.issues e = true ∧ let g := s.issuing e; 5 ≤ g.cjCount) ∧
    (let e : EngIx := 63; let t : Word24 := 0; let s : State := awake; let s : State := runs s e;
      let s : State := (s.put (F.EVC_CH_EN (t.toNat%256)) 1).put (F.EVC_CH_CONS (t.toNat%256)) 64 |>.put (F.EVC_CH_SWF (t.toNat%256)) 1;
      s.issues e = true ∧ let ch := t.toNat % 256; s.ready 7 = true ∧ s.windowBarred e.val Reg.EVC_FIRE true = false ∧
      (s.reqNS e.val = false ∨ s.flag (F.EVC_CH_NS ch) = true) ∧ s.channelOpen ch = true ∧ s.flag (F.EVC_CH_SWF ch) = true) ∧
    (let e : EngIx := 63; let t : Word24 := 0; let s : State := awake; let s : State := runs s e; s.issues e = true ∧
      let ch := t.toNat % 256; s.ready 7 = true ∧ s.windowBarred e.val Reg.EVC_FIRE true = false ∧
      (s.reqNS e.val = false ∨ s.flag (F.EVC_CH_NS ch) = true) ∧ s.channelOpen ch = false) := by
  refine ⟨?_, ?_, ?_, ?_, ?_⟩ <;> decide +kernel

/-- States and operands that meet the hypotheses of MovesReadBeforeAnyWrites, clause by clause. -/
theorem witness_MovesReadBeforeAnyWrites :
    (let e : EngIx := 63; let i : Fin 32 := 31; let j : Fin 32 := 31; let k : Fin 32 := 31; let l : Fin 32 := 31;
      let s : State := awake; let s : State := runs s e;
      let s : State := s.putBytes (fetchAddr s e) (bytesLe 6 ((i.val * 2 ^ 10 + j.val) * 2 ^ 23 + (k.val * 2 ^ 10 + l.val)));
      s.issues e = true ∧ let a := 0x10600000 + 0x6000 * e.val + 6 * seqIdx (s.engAt e).seq 0; s.halfLoaded a = false ∧
      ofBytesLe (s.bytes a 6) = (i.val * 2 ^ 10 + j.val) * 2 ^ 23 + (k.val * 2 ^ 10 + l.val)) := by decide +kernel

/-- States and operands that meet the hypotheses of FetchedInstructionIsIssued, clause by clause. -/
theorem witness_FetchedInstructionIsIssued :
    (let e : EngIx := 63; let t : Word24 := 0; let s : State := awake; let s : State := runs s e;
      let s : State := s.putBytes (fetchAddr s e) (bytesLe 6 (2 ^ 47 + 0x50 * 2 ^ 34 + t.toNat)); s.canIssue e = true ∧
      let a := 0x10600000 + 0x6000 * e.val + 6 * seqIdx (s.engAt e).seq 0; let held := ofBytesLe (s.bytes a 6); s.halfLoaded a = false ∧
      held = 2 ^ 47 + 0x50 * 2 ^ 34 + t.toNat) ∧
    (let e : EngIx := 63; let t : Word24 := 0; let s : State := awake; let s : State := runs s e;
      let s : State := s.putBytes (fetchAddr s e) (bytesLe 6 (2 ^ 47 + 0xE0 * 2 ^ 34 + t.toNat)); s.canIssue e = true ∧
      let a := 0x10600000 + 0x6000 * e.val + 6 * seqIdx (s.engAt e).seq 0; let held := ofBytesLe (s.bytes a 6); s.halfLoaded a = false ∧
      held = 2 ^ 47 + 0xE0 * 2 ^ 34 + t.toNat) ∧
    (let e : EngIx := 63; let t : Word24 := 0; let s : State := awake; let s : State := runs s e;
      let s : State := s.putBytes (fetchAddr s e) (bytesLe 6 (2 ^ 47 + 0x102 * 2 ^ 34 + t.toNat)); s.canIssue e = true ∧
      let a := 0x10600000 + 0x6000 * e.val + 6 * seqIdx (s.engAt e).seq 0; let held := ofBytesLe (s.bytes a 6); s.halfLoaded a = false ∧
      held = 2 ^ 47 + 0x102 * 2 ^ 34 + t.toNat) := by
  refine ⟨?_, ?_, ?_⟩ <;> decide +kernel

/-- States and operands that meet the hypotheses of EngineControlCommands, clause by clause. -/
theorem witness_EngineControlCommands :
    (let r : Req := 64; let e : EngIx := 63; let s : State := awake; let s : State := s.setEng e { (s.engAt e) with state := .halted };
      let s : State := s.setEng e { (s.engAt e) with loaded := true }; let g := s.engAt e;
      s.admits r.val (Reg.ENG_CTL e.val) true = true ∧ g.state = .halted ∧ g.loaded = true) ∧
    (let r : Req := 64; let e : EngIx := 63; let s : State := awake; let s : State := s.setEng e { (s.engAt e) with state := .running };
      let g := s.engAt e; s.admits r.val (Reg.ENG_CTL e.val) true = true ∧ g.state = .running ∧ (∀ x ∈ g.stall, x.beyond = false)) ∧
    (let r : Req := 64; let e : EngIx := 63; let s : State := awake; let s : State := s.setEng e { (s.engAt e) with state := .running };
      let g := s.engAt e; s.admits r.val (Reg.ENG_CTL e.val) true = true ∧ g.state ≠ .halted ∧ (∀ x ∈ g.stall, x.beyond = false)) ∧
    (let r : Req := 64; let e : EngIx := 63; let s : State := awake; let s : State := s.setEng e { (s.engAt e) with state := .halted };
      let g := s.engAt e; s.admits r.val (Reg.ENG_PC e.val) true = true ∧ g.state = .halted) ∧
    (let r : Req := 64; let e : EngIx := 63; let s : State := awake; s.admits r.val (Reg.ENG_WDT e.val) true = true) := by
  refine ⟨?_, ?_, ?_, ?_, ?_⟩ <;> decide +kernel

/-- States and operands that meet the hypotheses of EngineControlRefusals, clause by clause. -/
theorem witness_EngineControlRefusals :
    (let r : Req := 64; let e : EngIx := 63; let s : State := awake; let s : State := s.setEng e { (s.engAt e) with state := .running };
      let g := s.engAt e; s.admits r.val (Reg.ENG_CTL e.val) true = true ∧ g.state ≠ .halted) ∧
    (let r : Req := 64; let e : EngIx := 63; let s : State := awake; let s : State := s.setEng e { (s.engAt e) with state := .halting };
      let g := s.engAt e; s.admits r.val (Reg.ENG_CTL e.val) true = true ∧ (g.state = .halting ∨ (g.state = .halted ∧ g.loaded = false))) ∧
    (let r : Req := 64; let e : EngIx := 63; let n : Nat := 0; let s : State := awake;
      let s : State := s.setEng e { (s.engAt e) with state := .running }; let g := s.engAt e; n < 0xC00 ∧ s.canReach r.val = true ∧
      s.ready 6 = true ∧ (s.reqNS r.val = false ∨ s.engNS e.val = true) ∧ g.state ≠ .halted) := by
  refine ⟨?_, ?_, ?_⟩ <;> decide +kernel

/-- States and operands that meet the hypotheses of InstructionStoreIsWritten, clause by clause. -/
theorem witness_InstructionStoreIsWritten :
    (let r : Req := 64; let e : EngIx := 63; let n : Nat := 0; let s : State := awake;
      let s : State := s.setEng e { (s.engAt e) with state := .halted }; n < 0xC00 ∧ s.canReach r.val = true ∧ s.ready 6 = true ∧
      (s.reqNS r.val = false ∨ s.engNS e.val = true) ∧ (s.engAt e).state = .halted) := by decide +kernel

/-- States and operands that meet the hypotheses of EngineEventsOfTheFabric, clause by clause. -/
theorem witness_EngineEventsOfTheFabric :
    (let e : EngIx := 63; let u : EUnit := .mul; let f : Flight := ⟨.mul, 0, 5, 6⟩; let before : List Flight := [];
      let after : List Flight := []; let s : State := awake;
      let s : State := s.setEng e { (s.engAt e) with flight := before ++ f :: after };
      let s : State := s.setEng e { (s.engAt e) with stall := none }; let g := s.engAt e; g.flight = before ++ f :: after ∧ f.unit = u ∧
      (∀ x ∈ before, x.unit ≠ u) ∧ g.stall = none ∧ (f.due ≤ g.pos ∨ g.state = .halting)) ∧
    (let e : EngIx := 63; let s : State := awake; let s : State := s.setEng e { (s.engAt e) with state := .halting };
      let s : State := s.setEng e { (s.engAt e) with stall := none }; let s : State := s.setEng e { (s.engAt e) with forced := false };
      let s : State := s.setEng e { (s.engAt e) with why := 0 }; let s : State := s.setEng e { (s.engAt e) with why := 1 };
      let g := s.engAt e; g.state = .halting ∧ g.stall = none ∧ g.forced = false ∧ g.why < 3 ∧ g.why = 1) ∧
    (let e : EngIx := 63; let s : State := awake; let s : State := s.setEng e { (s.engAt e) with state := .halting };
      let s : State := s.setEng e { (s.engAt e) with stall := none }; let s : State := s.setEng e { (s.engAt e) with forced := false };
      let s : State := s.setEng e { (s.engAt e) with why := 0 }; let s : State := s.setEng e { (s.engAt e) with why := 2 };
      let g := s.engAt e; g.state = .halting ∧ g.stall = none ∧ g.forced = false ∧ g.why < 3 ∧ g.why ≠ 1) ∧
    (let e : EngIx := 63; let s : State := awake; let s : State := s.setEng e { (s.engAt e) with state := .halting };
      let s : State := s.setEng e { (s.engAt e) with stall := none }; let s : State := s.setEng e { (s.engAt e) with forced := true };
      let g := s.engAt e; g.state = .halting ∧ g.stall = none ∧ g.forced = true) ∧
    (let e : EngIx := 63; let x : Stall := aStall; let s : State := awake;
      let s : State := s.setEng e { (s.engAt e) with stall := some x };
      let s : State := s.setEng e { (s.engAt e) with state := .running }; let g := s.engAt e; g.stall = some x ∧ g.state ≠ .halting) ∧
    (let e : EngIx := 63; let s : State := awake;
      let s : State := s.setEng e { (s.engAt e) with state := .running } |>.put (F.ENG_WDT_LIMIT e.val) ((0)+1);
      let s : State := s.setEng e { (s.engAt e) with wdx := false }; let s : State := putA (putA s F.RXC_CTL_ENA 1) F.RXC_CTL_ENB 1;
      let s : State := ((s.put (F.RXC_STAT_BLANK 0) 0).put (F.RXC_STAT_CAL 0) 0).put (F.RXC_STAT_BLANK 1) 0 |>.put (F.RXC_STAT_CAL 1) 0;
      let g := s.engAt e; g.state ≠ .halted ∧ s.get (F.ENG_WDT_LIMIT e.val) ≠ 0 ∧ s.pwrState = 0 ∧ g.wdx = false) ∧
    (let e : EngIx := 63; let s : State := awake;
      let s : State := s.setEng e { (s.engAt e) with state := .running } |>.put (F.ENG_WDT_LIMIT e.val) ((0)+1);
      let s : State := s.setEng e { (s.engAt e) with wdx := true }; let g := s.engAt e; g.state ≠ .halted ∧
      s.get (F.ENG_WDT_LIMIT e.val) ≠ 0 ∧ s.pwrState = 0 ∧ g.wdx = true ∧ (∀ x ∈ g.stall, x.beyond = false)) ∧
    (let e : EngIx := 63; let n : LaneIx := 95; let s : State := awake;
      let s : State := s.setEng e { (s.engAt e) with lio := { (s.engAt e).lio with lane := n.val } };
      let s : State := s.setEng e { (s.engAt e) with lio := { (s.engAt e).lio with sample := true } };
      let s : State := putA (putA s F.RXC_CTL_ENA 1) F.RXC_CTL_ENB 1;
      let s : State := ((s.put (F.RXC_STAT_BLANK 0) 0).put (F.RXC_STAT_CAL 0) 0).put (F.RXC_STAT_BLANK 1) 0 |>.put (F.RXC_STAT_CAL 1) 0;
      let g := s.engAt e; g.lio.lane = n.val ∧ g.lio.sample = true ∧ s.chainEnabled (laneChain n) = true ∧
      s.chainDark (laneChain n) = false) := by
  refine ⟨?_, ?_, ?_, ?_, ?_, ?_, ?_, ?_⟩ <;> decide +kernel

/-- States and operands that meet the hypotheses of ForcedStallsEndTheirAccess, clause by clause. -/
theorem witness_ForcedStallsEndTheirAccess :
    (let e : EngIx := 63; let x : Stall := aStall; let s : State := awake;
      let s : State := s.setEng e { (s.engAt e) with stall := some x }; (s.engAt e).stall = some x ∧
      (∀ p ∈ x.passed, p.acc.isBlock = false)) ∧
    (let e : EngIx := 63; let x : Stall := aStall; let s : State := awake;
      let s : State := s.setEng e { (s.engAt e) with stall := some x };
      let s : State := s.setEng e { (s.engAt e) with state := .halting }; (s.engAt e).stall = some x ∧ (s.engAt e).state = .halting) ∧
    (let e : EngIx := 63; let x : Stall := { aStall with beyond := true }; let r : Req := 64; let s : State := awake;
      let s : State := s.setEng e { (s.engAt e) with stall := some x };
      let s : State := s.setEng e { (s.engAt e) with state := .running }; (s.engAt e).stall = some x ∧
      s.admits r.val (Reg.ENG_CTL e.val) true = true ∧ x.beyond = true ∧ (s.engAt e).state ≠ .halted) ∧
    (let e : EngIx := 63; let x : Stall := { aStall with beyond := true }; let r : Req := 64; let s : State := awake;
      let s : State := s.setEng e { (s.engAt e) with stall := some x };
      let s : State := s.setEng e { (s.engAt e) with state := .running }; (s.engAt e).stall = some x ∧
      s.admits r.val (Reg.ENG_CTL e.val) true = true ∧ x.beyond = true ∧ (s.engAt e).state = .running) := by
  refine ⟨?_, ?_, ?_, ?_⟩ <;> decide +kernel

/-- States and operands that meet the hypotheses of GrantsGoRoundRobin, clause by clause. -/
theorem witness_GrantsGoRoundRobin :
    (let w : Fin 8 := 7; let j : Fin 8 := 7; let s : State := awake; let s : State := w8 s w j .waiting; let e := wellEngine w j;
      (s.waitsAt e .waiting).isSome = true ∧
      (∀ d : Nat, d < (j.val + 7 - (s.wellLast[w.val]).val) % 8 → ∀ i : Fin 8, i.val = ((s.wellLast[w.val]).val + 1 + d) % 8 → s.waitsAt (wellEngine w i) .waiting = none) ∧
      (∀ x : Stall, (s.engAt e).stall = some x → x.revoked = false ∨ ∀ (i : Fin 8) (y : Stall), (s.engAt (wellEngine w i)).stall = some y → y.stage = .waiting → x.since ≤ y.since)) ∧
    (let w : Fin 8 := 7; let j : Fin 8 := 7; let x : Stall := { aStall with accs := [(false, .load .b 0x10780000)] };
      let s : State := awake; let s : State := s.setEng (wellEngine w j) { s.engAt (wellEngine w j) with stall := some x };
      let e := wellEngine w j; (s.engAt e).stall  = some x ∧ x.stage ≠ .waiting ∧ x.accs ≠ []) ∧
    (let w : Fin 8 := 7; let j : Fin 8 := 7; let x : Stall := { aStall with stage := .waiting }; let s : State := awake;
      let s : State := s.setEng (wellEngine w j) { s.engAt (wellEngine w j) with stall := some x }; let e := wellEngine w j;
      (s.engAt e).stall  = some x ∧ x.stage = .waiting) ∧
    (let t : Fin 32 := 29; let w : Fin 8 := 7; let j : Fin 8 := 7; let s : State := awake; let s : State := w8 s w j .atTarget;
      let last := (s.targetLast[t.val]).val; s.waitsAt (wellEngine w j) .atTarget = some t.val ∧
      (∀ i : Fin 8, i ≠ j → s.waitsAt (wellEngine w i) .atTarget ≠ some t.val) ∧
      (∀ d : Nat, d < (w.val + 14 - last) % 15 → ∀ v i : Fin 8, v.val = (last + 1 + d) % 15 → s.waitsAt (wellEngine v i) .atTarget ≠ some t.val)) ∧
    (let t : Fin 32 := 29; let p : Fin 7 := 6; let s : State := awake; let last := (s.targetLast[t.val]).val;
      let before : Prop := ∃ v i : Fin 8, (v.val + 14 - last) % 15 < (8 + p.val + 14 - last) % 15 ∧ s.waitsAt (wellEngine v i) .atTarget = some t.val;
      (¬before)) ∧
    (let t : Fin 32 := 29; let p : Fin 7 := 6; let s : State := awake; let s : State := w8 s 7 7 .atTarget;
      let last := (s.targetLast[t.val]).val;
      let before : Prop := ∃ v i : Fin 8, (v.val + 14 - last) % 15 < (8 + p.val + 14 - last) % 15 ∧ s.waitsAt (wellEngine v i) .atTarget = some t.val;
      before) := by
  refine ⟨?_, ?_, ?_, ?_, ?_, ?_⟩ <;> decide +kernel

/-- States and operands that meet the hypotheses of ExceptionsFillTheTrapBank, clause by clause. -/
theorem witness_ExceptionsFillTheTrapBank :
    (let e : EngIx := 63; let t : Word24 := 4099; let s : State := awake; let s : State := trapping s e; s.issues e = true ∧
      s.canonical = true ∧ 2048 ≤ t.toNat) ∧
    (let e : EngIx := 63; let t : Word24 := 7; let s : State := awake;
      let s : State := trapping s e |>.put (F.ENG_CFG_RSTK_TRAP e.val) 1; let s : State := s.setEng e { s.engAt e with rdepth := 8 };
      s.issues e = true ∧ s.canonical = true ∧ let g := s.issuing e; let stackTraps := s.flag (F.ENG_CFG_RSTK_TRAP e.val);
      stackTraps = true ∧ g.rdepth = 8 ∧ t.toNat < 2048) ∧
    (let e : EngIx := 63; let s : State := awake; let s : State := trapping s e |>.put (F.ENG_CFG_RSTK_TRAP e.val) 1;
      s.issues e = true ∧ s.canonical = true ∧ let g := s.issuing e; let stackTraps := s.flag (F.ENG_CFG_RSTK_TRAP e.val);
      stackTraps = true ∧ g.rdepth = 0) ∧
    (let e : EngIx := 63; let t : Word24 := 4099; let s : State := awake; let s : State := trapping s e; s.issues e = true ∧
      s.canonical = true ∧ 4096 ≤ t.toNat) ∧
    (let e : EngIx := 63; let t : Word24 := 4099; let s : State := awake; let s : State := trapping s e; s.issues e = true ∧
      s.canonical = true ∧ let g := s.issuing e; let a := (g.op.seg.toNat % 256) * 2 ^ 24 + t.toNat; a % 2 = 1) ∧
    (let e : EngIx := 63; let t : Word24 := 4099; let s : State := awake; let s : State := trapping s e; s.issues e = true ∧
      s.canonical = true ∧ let g := s.issuing e; let a := (g.op.seg.toNat % 256) * 2 ^ 24 + t.toNat; a % 4 ≠ 0) ∧
    (let e : EngIx := 63; let s : State := awake; let s : State := trapping s e;
      let s : State := s.setEng e { s.engAt e with op := { (s.engAt e).op with bsa := 2 } }; s.issues e = true ∧ s.canonical = true ∧
      let g := s.issuing e; let base := (g.op.seg.toNat % 256) * 2 ^ 24 + g.op.bsa.toNat;
      (base % 4 ≠ 0 ∨ (g.op.la.toNat < 4096 ∧ 0x20000000 ≤ base))) ∧
    (let e : EngIx := 63; let s : State := awake; let s : State := trapping s e;
      let s : State := s.setEng e { s.engAt e with op := { (s.engAt e).op with la := 4096 } }; s.issues e = true ∧ s.canonical = true ∧
      let g := s.issuing e; let base := (g.op.seg.toNat % 256) * 2 ^ 24 + g.op.bsa.toNat; base % 4 = 0 ∧ 4096 ≤ g.op.la.toNat) ∧
    (let e : EngIx := 63; let t : Word24 := 0x7F0000; let s : State := awake; let s : State := trapping s e; s.issues e = true ∧
      s.canonical = true ∧ 95 < bitsOf t.toNat 16 7) ∧
    (let e : EngIx := 63; let t : Word24 := 0xDF0000; let s : State := awake; let s : State := trapping s e; let s : State := outer s e;
      s.issues e = true ∧ s.canonical = true ∧ let g := s.issuing e; bitsOf t.toNat 16 7 ≤ 95 ∧ t.getLsbD 23 = true ∧
      s.reqNS e.val = true ∧ s.blockNS 9 = false ∧ g.tb.cause.getLsbD 23 = false ∧ s.bit (Reg.ENG_CFG e.val) 16 = true) ∧
    (let e : EngIx := 63; let s : State := awake; let s : State := trapping s e; let s : State := outer s e; s.issues e = true ∧
      s.canonical = true ∧ s.windowBarred e.val Reg.EVC_FIRE true = true) ∧
    (let e : EngIx := 63; let s : State := awake; let s : State := trapping s e; let s : State := outer s e; s.issues e = true ∧
      s.canonical = true ∧ let g := s.issuing e; let lane := 0x10400000 + 2048 * g.lio.lane + g.lio.off % 2048; g.lio.sample = false ∧
      s.reqNS e.val = true ∧ s.memNS lane = false) ∧
    (let e : EngIx := 63; let s : State := awake; let s : State := trapping s e;
      let s : State := s.putBytes (fetchAddr s e) (bytesLe 6 (2 ^ 47 + 0x191 * 2 ^ 34)); s.issues e = true ∧ s.canonical = true ∧
      let at0 := 0x10600000 + 0x6000 * e.val + 6 * seqIdx (s.engAt e).seq 0; let held := ofBytesLe (s.bytes at0 6);
      let dest (p : Nat) : Bool := decide (p ≤ 0x20 ∨ p = 0x40 ∨ (0x50 ≤ p ∧ p ≤ 0x60) ∨ (0x70 ≤ p ∧ p ≤ 0x81) ∨ (0x88 ≤ p ∧ p ≤ 0x8E) ∨ p = 0x90 ∨ (0x98 ≤ p ∧ p ≤ 0x9C) ∨ p = 0xA0 ∨ (0xB0 ≤ p ∧ p ≤ 0xCE ∧ p % 4 ≠ 3) ∨ (0xE0 ≤ p ∧ p ≤ 0xE5) ∨ (0x100 ≤ p ∧ p ≤ 0x102) ∨ (0x108 ≤ p ∧ p ≤ 0x10C) ∨ (0x110 ≤ p ∧ p ≤ 0x115) ∨ (0x118 ≤ p ∧ p ≤ 0x11D) ∨ p = 0x140 ∨ (0x150 ≤ p ∧ p ≤ 0x152) ∨ p = 0x160 ∨ p = 0x170 ∨ p = 0x171 ∨ p = 0x180 ∨ p = 0x190);
      s.halfLoaded at0 = false ∧ 2 ^ 47 ≤ held ∧ held / 2 ^ 44 % 8 ≠ 7 ∧ dest (held / 2 ^ 34 % 2 ^ 10) = false) ∧
    (let e : EngIx := 63; let s : State := awake; let s : State := trapping s e;
      let s : State := s.putBytes (fetchAddr s e) (bytesLe 6 (0x8C823 * 2 ^ 23)); s.issues e = true ∧ s.canonical = true ∧
      let at0 := 0x10600000 + 0x6000 * e.val + 6 * seqIdx (s.engAt e).seq 0; let held := ofBytesLe (s.bytes at0 6);
      let source (p : Nat) : Bool := decide (p ≤ 0x22 ∨ (0x40 ≤ p ∧ p ≤ 0x48) ∨ (0x50 ≤ p ∧ p ≤ 0x52) ∨ p = 0x58 ∨ p = 0x60 ∨ p = 0x68 ∨ (0x70 ≤ p ∧ p ≤ 0x73) ∨ (0x80 ≤ p ∧ p ≤ 0x87));
      let dest (p : Nat) : Bool := decide (p ≤ 0x20 ∨ p = 0x40 ∨ (0x50 ≤ p ∧ p ≤ 0x60) ∨ (0x70 ≤ p ∧ p ≤ 0x81) ∨ (0x88 ≤ p ∧ p ≤ 0x8E) ∨ p = 0x90 ∨ (0x98 ≤ p ∧ p ≤ 0x9C) ∨ p = 0xA0 ∨ (0xB0 ≤ p ∧ p ≤ 0xCE ∧ p % 4 ≠ 3) ∨ (0xE0 ≤ p ∧ p ≤ 0xE5) ∨ (0x100 ≤ p ∧ p ≤ 0x102) ∨ (0x108 ≤ p ∧ p ≤ 0x10C) ∨ (0x110 ≤ p ∧ p ≤ 0x115) ∨ (0x118 ≤ p ∧ p ≤ 0x11D) ∨ p = 0x140 ∨ (0x150 ≤ p ∧ p ≤ 0x152) ∨ p = 0x160 ∨ p = 0x170 ∨ p = 0x171 ∨ p = 0x180 ∨ p = 0x190);
      let bad (m : Nat) : Bool := decide (m / 2 ^ 20 % 8 ≠ 7) && ((decide (m / 2 ^ 19 % 2 = 0) && !source (m / 2 ^ 10 % 2 ^ 9)) || !dest (m % 2 ^ 10));
      s.halfLoaded at0 = false ∧ held < 2 ^ 47 ∧ bad (held / 2 ^ 23 % 2 ^ 23) = true) ∧
    (let e : EngIx := 63; let s : State := awake; let s : State := trapping s e;
      let s : State := s.putBytes (fetchAddr s e) (bytesLe 6 (0x700000 * 2 ^ 23 + 0x8C823)); s.issues e = true ∧ s.canonical = true ∧
      let at0 := 0x10600000 + 0x6000 * e.val + 6 * seqIdx (s.engAt e).seq 0; let held := ofBytesLe (s.bytes at0 6);
      let source (p : Nat) : Bool := decide (p ≤ 0x22 ∨ (0x40 ≤ p ∧ p ≤ 0x48) ∨ (0x50 ≤ p ∧ p ≤ 0x52) ∨ p = 0x58 ∨ p = 0x60 ∨ p = 0x68 ∨ (0x70 ≤ p ∧ p ≤ 0x73) ∨ (0x80 ≤ p ∧ p ≤ 0x87));
      let dest (p : Nat) : Bool := decide (p ≤ 0x20 ∨ p = 0x40 ∨ (0x50 ≤ p ∧ p ≤ 0x60) ∨ (0x70 ≤ p ∧ p ≤ 0x81) ∨ (0x88 ≤ p ∧ p ≤ 0x8E) ∨ p = 0x90 ∨ (0x98 ≤ p ∧ p ≤ 0x9C) ∨ p = 0xA0 ∨ (0xB0 ≤ p ∧ p ≤ 0xCE ∧ p % 4 ≠ 3) ∨ (0xE0 ≤ p ∧ p ≤ 0xE5) ∨ (0x100 ≤ p ∧ p ≤ 0x102) ∨ (0x108 ≤ p ∧ p ≤ 0x10C) ∨ (0x110 ≤ p ∧ p ≤ 0x115) ∨ (0x118 ≤ p ∧ p ≤ 0x11D) ∨ p = 0x140 ∨ (0x150 ≤ p ∧ p ≤ 0x152) ∨ p = 0x160 ∨ p = 0x170 ∨ p = 0x171 ∨ p = 0x180 ∨ p = 0x190);
      let bad (m : Nat) : Bool := decide (m / 2 ^ 20 % 8 ≠ 7) && ((decide (m / 2 ^ 19 % 2 = 0) && !source (m / 2 ^ 10 % 2 ^ 9)) || !dest (m % 2 ^ 10));
      s.halfLoaded at0 = false ∧ held < 2 ^ 47 ∧ bad (held / 2 ^ 23 % 2 ^ 23) = false ∧ held / 2 ^ 23 % 2 ^ 10 ≠ 0xE5 ∧
      bad (held % 2 ^ 23) = true) ∧
    (let e : EngIx := 63; let s : State := awake; let s : State := trapping s e;
      let s : State := s.setEng e { s.engAt e with wdPending := true }; s.canIssue e = true ∧ (s.engAt e).wdPending = true ∧
      (s.engAt e).tb.cause.getLsbD 23 = false ∧ s.bit (Reg.ENG_CFG e.val) 16 = true) ∧
    (let e : EngIx := 63; let b : Bool := false; let y : Access := .load .w 0x10780000; let k : LoadKind := .w;
      let a : Nat := 0x10780000; let er : AccErr := .world; let s : State := awake; let s : State := trapping s e;
      let s : State := outer s e;
      let s : State := s.setEng e { s.engAt e with stall := some { aStall with moves := [], accs := [(false, .load .w 0x10780000)], worlds := s.worldMap, cfg := 0x10000, stage := .granted } };
      let st : Stall := { aStall with moves := [], accs := [(false, .load .w 0x10780000)], worlds := s.worldMap, cfg := 0x10000, stage := .granted };
      (s.engAt e).stall = some st ∧ st.stage = .granted ∧ st.passed = [] ∧ st.worlds = s.worldMap ∧ (∀ m ∈ st.moves, m.dst ≠ 0x160) ∧
      st.accs = [(b, y)] ∧ s.accessWaits y = false ∧ (s.engAt e).tb.cause.getLsbD 23 = false ∧ st.cfg.getLsbD 16 = true ∧
      (s.engAt e).state = .running ∧ s.canonical = true ∧ y = .load k a ∧ (s.load e.val a k.size).2 = .error er) ∧
    (let e : EngIx := 63; let b : Bool := false; let y : Access := .store .w 0x10780000 7; let k : StoreKind := .w;
      let a : Nat := 0x10780000; let v : Word := 7; let er : AccErr := .world; let s : State := awake; let s : State := trapping s e;
      let s : State := outer s e;
      let s : State := s.setEng e { s.engAt e with stall := some { aStall with moves := [], accs := [(false, .store .w 0x10780000 7)], worlds := s.worldMap, cfg := 0x10000, stage := .granted } };
      let st : Stall := { aStall with moves := [], accs := [(false, .store .w 0x10780000 7)], worlds := s.worldMap, cfg := 0x10000, stage := .granted };
      (s.engAt e).stall = some st ∧ st.stage = .granted ∧ st.passed = [] ∧ st.worlds = s.worldMap ∧ (∀ m ∈ st.moves, m.dst ≠ 0x160) ∧
      st.accs = [(b, y)] ∧ s.accessWaits y = false ∧ (s.engAt e).tb.cause.getLsbD 23 = false ∧ st.cfg.getLsbD 16 = true ∧
      (s.engAt e).state = .running ∧ s.canonical = true ∧ y = .store k a v ∧ (s.store e.val a k.size v.toNat).2 = some er) ∧
    (let e : EngIx := 63; let a : Nat := 0x20180000; let s : State := awake; let s : State := trapping s e; 0x20180000 ≤ a) ∧
    (let e : EngIx := 63; let a : Nat := 0x20000000; let n : Nat := 1; let s : State := awake; let s : State := trapping s e;
      let barred (wr : Bool) : Bool := s.windowBarred e.val (a / 4 * 4) wr; let window : Prop := 0x20000000 ≤ a ∧ a < 0x20180000;
      window ∧ barred false = false ∧ barred true = false ∧ (n ≠ 4 ∨ a % 4 ≠ 0 ∨ s.ready (keyBlock a) = false)) ∧
    (let e : EngIx := 63; let a : Nat := Reg.LDP_CFG; let s : State := awake; let s : State := trapping s e; let s : State := outer s e;
      let barred (wr : Bool) : Bool := s.windowBarred e.val (a / 4 * 4) wr; let window : Prop := 0x20000000 ≤ a ∧ a < 0x20180000;
      window ∧ barred false = true ∧ barred true = true) ∧
    (let e : EngIx := 63; let a : Nat := 0x10780000; let s : State := awake; let s : State := trapping s e; let s : State := outer s e;
      0x10780000 ≤ a ∧ a < 0x107FC000 ∧ s.reqNS e.val = true ∧ s.memNS a = false) ∧
    (let e : EngIx := 63; let k : EngIx := 63; let a : Nat := 0x10600000 + 0x6000 * 63; let n : Nat := 4; let s : State := awake;
      let s : State := trapping s e; let s : State := s.setEng 63 { s.engAt 63 with state := .running };
      0x10600000 + 0x6000 * k.val ≤ a ∧ a < 0x10600000 + 0x6000 * k.val + 0x3000 ∧ 0 < n ∧ s.ready 6 = true ∧
      (s.reqNS e.val = false ∨ s.memNS a = true) ∧ (s.engAt k).state ≠ .halted) := by
  refine ⟨?_, ?_, ?_, ?_, ?_, ?_, ?_, ?_, ?_, ?_, ?_, ?_, ?_, ?_, ?_, ?_, ?_, ?_, ?_, ?_, ?_, ?_, ?_⟩ <;> decide +kernel

/-- States and operands that meet the hypotheses of VectoredTrapEntersTheHandler, clause by clause. -/
theorem witness_VectoredTrapEntersTheHandler :
    (let e : EngIx := 63; let t : Word24 := 2048; let s : State := awake;
      let s : State := runs s e |>.setBit (Reg.ENG_CFG e.val) 16 false; s.issues e = true ∧ 2048 ≤ t.toNat ∧ let g := s.issuing e;
      g.tb.cause.getLsbD 23 = false ∧ s.bit (Reg.ENG_CFG e.val) 16 = false) := by decide +kernel

/-- States and operands that meet the hypotheses of ResultsArriveAfterTheirLatency, clause by clause. -/
theorem witness_ResultsArriveAfterTheirLatency :
    (let e : EngIx := 63; let s : State := awake; let s : State := runs s e;
      let s : State := s.setEng e { (s.engAt e) with wdPending := false }; let s : State := s.setEng e { s.engAt e with flight := [] };
      s.issues e = true ∧ (s.issuing e).flight = [] ∧ (s.engAt e).wdPending = false) := by decide +kernel

/-- States and operands that meet the hypotheses of AccessCodesOfWrites, clause by clause. -/
theorem witness_AccessCodesOfWrites :
    (let a : Nat := Reg.SYS_BLKLOCK; let x : RegRow := rowOf Reg.SYS_BLKLOCK; let i : Nat := 31; rowAt a = some x ∧ i < 32) ∧
    (let r : Req := 64; let a : Nat := Reg.CIP_SELF_LO; let s : State := awake.setBit Reg.SYS_BLKLOCK 14 true;
      (a = Reg.CIP_SELF_LO ∨ a = Reg.CIP_SELF_HI) ∧ s.admits r.val a true = true ∧ s.bit Reg.SYS_BLKLOCK 14 = true) := by
  refine ⟨?_, ?_⟩ <;> decide +kernel

/-- States and operands that meet the hypotheses of RegisterWritesTakeEffect, clause by clause. -/
theorem witness_RegisterWritesTakeEffect :
    (let r : Req := 64; let a : Word := BitVec.ofNat 32 Reg.LDP_CFG; let x : RegRow := rowOf Reg.LDP_CFG; let s : State := awake;
      s.admits r.val a.toNat true = true ∧ a.toNat % 4 = 0 ∧ 0x20000000 ≤ a.toNat ∧ a.toNat < 0x20180000 ∧ rowAt a.toNat = some x ∧
      (keyBlock a.toNat = 10 ∨ keyBlock a.toNat = 2) ∧ s.armedFor a.toNat = false) ∧
    (let r : Req := 64; let a : Word := BitVec.ofNat 32 Reg.WKR_CODE; let x : RegRow := rowOf Reg.WKR_CODE; let s : State := awake;
      s.admits r.val a.toNat true = true ∧ a.toNat % 4 = 0 ∧ 0x20000000 ≤ a.toNat ∧ a.toNat < 0x20180000 ∧ rowAt a.toNat = some x ∧
      (keyBlock a.toNat = 19 ∨ keyBlock a.toNat = 23)) ∧
    (let r : Req := 64; let a : Word := 0x2017FFFC; let s : State := awake; s.admits r.val a.toNat true = true ∧ a.toNat % 4 = 0 ∧
      0x20000000 ≤ a.toNat ∧ a.toNat < 0x20180000 ∧ rowAt a.toNat = none) := by
  refine ⟨?_, ?_, ?_⟩ <;> decide +kernel

/-- States and operands that meet the hypotheses of BarredAndUnreadyAccessesFail, clause by clause. -/
theorem witness_BarredAndUnreadyAccessesFail :
    (let r : Req := 66; let a : Word := BitVec.ofNat 32 Reg.SFM_CTL; let s : State := awake; s.canReach r.val = true ∧ a.toNat % 4 = 0 ∧
      0x20000000 ≤ a.toNat ∧ a.toNat < 0x20180000 ∧ s.windowBarred r.val a.toNat true = true) ∧
    (let r : Req := 64; let a : Word := BitVec.ofNat 32 Reg.SFM_CTL;
      let s : State := awake.setBit Reg.SYS_READY (keyBlock a.toNat) false; s.canReach r.val = true ∧ a.toNat % 4 = 0 ∧
      0x20000000 ≤ a.toNat ∧ a.toNat < 0x20180000 ∧ s.windowBarred r.val a.toNat true = false ∧ s.ready (keyBlock a.toNat) = false) ∧
    (let r : Req := 66; let a : Word := BitVec.ofNat 32 Reg.SFM_CTL; let s : State := awake; s.canReach r.val = true ∧ a.toNat % 4 = 0 ∧
      0x20000000 ≤ a.toNat ∧ a.toNat < 0x20180000 ∧ s.windowBarred r.val a.toNat false = true) ∧
    (let r : Req := 64; let a : Word := BitVec.ofNat 32 Reg.SFM_CTL;
      let s : State := awake.setBit Reg.SYS_READY (keyBlock a.toNat) false; s.canReach r.val = true ∧ a.toNat % 4 = 0 ∧
      0x20000000 ≤ a.toNat ∧ a.toNat < 0x20180000 ∧ s.windowBarred r.val a.toNat false = false ∧ s.ready (keyBlock a.toNat) = false) := by
  refine ⟨?_, ?_, ?_, ?_⟩ <;> decide +kernel

/-- States and operands that meet the hypotheses of ReadsClearAndCapture, clause by clause. -/
theorem witness_ReadsClearAndCapture :
    (let r : Req := 64; let s : State := awake; s.admits r.val Reg.SFM_BCNSKIP false = true ∧ s.snapOf r.val Reg.SFM_BCNSKIP = none) ∧
    (let r : Req := 64; let s : State := awake; s.admits r.val Reg.SFM_ASN_LO false = true ∧ s.snapOf r.val Reg.SFM_ASN_LO = none) ∧
    (let r : Req := 64; let w : Word := 77; let s : State := awake;
      let s : State := ({ s with snaps := [⟨r.val, Reg.SFM_ASN_HI, 77⟩] } : State); s.admits r.val Reg.SFM_ASN_HI false = true ∧
      s.snapOf r.val Reg.SFM_ASN_HI = some w) := by
  refine ⟨?_, ?_, ?_⟩ <;> decide +kernel

/-- States and operands that meet the hypotheses of LocksOfBlocksAndWorlds, clause by clause. -/
theorem witness_LocksOfBlocksAndWorlds :
    (let r : Req := 64; let s : State := awake; s.admits r.val Reg.SYS_BLKLOCK true = true) ∧
    (let r : Req := 64; let s : State := awake; s.admits r.val Reg.SYS_WLD_CTL true = true) ∧
    (let r : Req := 64; let a : Nat := #[Reg.SYS_WLD_BLK,Reg.SYS_WLD_ENG_LO,Reg.SYS_WLD_ENG_HI].getD (0) 0;
      let s : State := awake.put F.SYS_WLD_CTL_WLD_LOCK (1);
      (a = Reg.SYS_WLD_BLK ∨ a = Reg.SYS_WLD_ENG_LO ∨ a = Reg.SYS_WLD_ENG_HI ∨ (∃ n : Fin 32, a = Reg.SYS_RGN_BASE n.val ∨ a = Reg.SYS_RGN_LIM n.val ∨ a = Reg.SYS_RGN_ATTR n.val)) ∧
      s.admits r.val a true = true ∧ s.flag F.SYS_WLD_CTL_WLD_LOCK = true) := by
  refine ⟨?_, ?_, ?_⟩ <;> decide +kernel

/-- States and operands that meet the hypotheses of StagingCommands, clause by clause. -/
theorem witness_StagingCommands :
    (let r : Req := 64; let s : State := awake; s.admits r.val (Reg.SYS_STAGE_CTL 0) true = true ∧ s.canonical = true) ∧
    (let r : Req := 64; let a : Word := BitVec.ofNat 32 Reg.LDP_SUNCFG; let v : Word := 0xFFFFFFFF;
      let x : RegRow := rowOf Reg.LDP_SUNCFG; let s : State := awake; rowAt a.toNat = some x ∧ keyBlock a.toNat = 10 ∧ a.toNat % 4 = 0 ∧
      0x20000000 ≤ a.toNat ∧ a.toNat < 0x20180000 ∧ x.bank = .single ∧ s.admits r.val a.toNat true = true ∧
      let new := x.written (s.locked a.toNat) (s.reg a.toNat) v;
      (s.armedFor a.toNat = false ∨ x.changesShadow (s.reg a.toNat) new = false)) ∧
    (let r : Req := 64; let a : Word := BitVec.ofNat 32 Reg.LDP_SUNCFG; let v : Word := 0xFFFFFFFF;
      let x : RegRow := rowOf Reg.LDP_SUNCFG; let s : State := awake.put (F.SYS_STAGE_CTL_ARM 0) 1 |>.put (F.SYS_STAGE_CTL_ARM 1) 1;
      rowAt a.toNat = some x ∧ keyBlock a.toNat = 10 ∧ a.toNat % 4 = 0 ∧ 0x20000000 ≤ a.toNat ∧ a.toNat < 0x20180000 ∧
      x.bank = .single ∧ s.admits r.val a.toNat true = true ∧ let new := x.written (s.locked a.toNat) (s.reg a.toNat) v;
      s.armedFor a.toNat = true ∧ x.changesShadow (s.reg a.toNat) new = true) ∧
    (let sec : Bool := true; let nonsec : Bool := true; let s : State := awake.put F.SFM_STAT_RUNNING 1;
      let cs := sec && s.flag (F.SYS_STAGE_CTL_ARM 0); let cn := nonsec && s.flag (F.SYS_STAGE_CTL_ARM 1);
      (s.running = true ∨ (cs || cn) = false)) ∧
    (let sec : Bool := true; let nonsec : Bool := true; let s : State := awake;
      let s : State := (s.put (F.SYS_STAGE_CTL_ARM 0) 1).put (F.SYS_STAGE_CTL_ARM 1) 1; let cs := sec && s.flag (F.SYS_STAGE_CTL_ARM 0);
      let cn := nonsec && s.flag (F.SYS_STAGE_CTL_ARM 1); s.canonical = true ∧ s.running = false ∧ (cs || cn) = true) := by
  refine ⟨?_, ?_, ?_, ?_, ?_⟩ <;> decide +kernel

/-- States and operands that meet the hypotheses of AonWritesComplete, clause by clause. -/
theorem witness_AonWritesComplete :
    (let a : Word := 0; let s : State := awake; s.canonical = true ∧ s.aonBuf.find? (fun w => w.1 == a.toNat) = none) ∧
    (let a : Word := BitVec.ofNat 32 Reg.WKR_CODE; let v : Word := 5; let x : RegRow := rowOf Reg.WKR_CODE; let s : State := awake;
      let s : State := ({ s with aonBuf := [(a.toNat + 4, 7), (a.toNat, v)] } : State); s.canonical = true ∧
      s.aonBuf.find? (fun w => w.1 == a.toNat) = some (a.toNat, v) ∧ rowAt a.toNat = some x ∧ a.toNat ≠ Reg.RTC_CTL ∧
      a.toNat ≠ Reg.RTC_TIME ∧ a.toNat ≠ Reg.RTC_DATE) ∧
    (let a : Word := BitVec.ofNat 32 Reg.RTC_DATE; let v : Word := 5; let x : RegRow := rowOf Reg.RTC_DATE; let s : State := awake;
      let s : State := ({ s with aonBuf := [(a.toNat, v)] } : State); s.canonical = true ∧
      s.aonBuf.find? (fun w => w.1 == a.toNat) = some (a.toNat, v) ∧ rowAt a.toNat = some x ∧
      (a.toNat = Reg.RTC_TIME ∨ a.toNat = Reg.RTC_DATE)) ∧
    (let a : Word := BitVec.ofNat 32 Reg.RTC_CTL; let v : Word := 0x18; let s : State := awake.put F.RTC_CTL_HALT 1;
      let s : State := ({ s with aonBuf := [(a.toNat, v)] } : State); s.canonical = true ∧
      s.aonBuf.find? (fun w => w.1 == a.toNat) = some (a.toNat, v) ∧ let halted := s.flag F.RTC_CTL_HALT; a.toNat = Reg.RTC_CTL ∧
      let add := v.getLsbD 3; let less := v.getLsbD 4;
      let refused : Prop := (add = true ∧ less = true) ∨ ((add = true ∨ less = true) ∧ halted = true); refused) ∧
    (let a : Word := BitVec.ofNat 32 Reg.RTC_CTL; let v : Word := 0x8; let s : State := awake;
      let s : State := ({ s with xtal := some false } : State).put F.RTC_CTL_HALT 0;
      let s : State := ({ s with aonBuf := [(a.toNat, v)] } : State); let s : State := ({ s with xtal := some false } : State);
      s.canonical = true ∧ s.aonBuf.find? (fun w => w.1 == a.toNat) = some (a.toNat, v) ∧ let halted := s.flag F.RTC_CTL_HALT;
      a.toNat = Reg.RTC_CTL ∧ let add := v.getLsbD 3; let less := v.getLsbD 4;
      let refused : Prop := (add = true ∧ less = true) ∨ ((add = true ∨ less = true) ∧ halted = true); (¬refused) ∧
      (halted = true ∨ s.xtal = some false)) ∧
    (let a : Word := BitVec.ofNat 32 Reg.RTC_CTL; let v : Word := 0x8;
      let s : State := awake.put F.RTC_CTL_HALT 0 |>.put F.RTC_CTL_HALT 0;
      let s : State := ({ s with aonBuf := [(a.toNat, v)] } : State); s.canonical = true ∧
      s.aonBuf.find? (fun w => w.1 == a.toNat) = some (a.toNat, v) ∧ let halted := s.flag F.RTC_CTL_HALT; a.toNat = Reg.RTC_CTL ∧
      let add := v.getLsbD 3; let less := v.getLsbD 4;
      let refused : Prop := (add = true ∧ less = true) ∨ ((add = true ∨ less = true) ∧ halted = true); (¬refused) ∧ halted = false ∧
      s.xtal ≠ some false) := by
  refine ⟨?_, ?_, ?_, ?_, ?_, ?_⟩ <;> decide +kernel

/-- States and operands that meet the hypotheses of ChannelAndLockCommands, clause by clause. -/
theorem witness_ChannelAndLockCommands :
    (let r : Req := 64; let ch : Byte := 0; let s : State := awake;
      let s : State := (s.put (F.EVC_CH_EN ch.toNat) 1).put (F.EVC_CH_CONS ch.toNat) 64 |>.put (F.EVC_CH_SWF ch.toNat) (1);
      s.admits r.val Reg.EVC_FIRE true = true ∧ (s.reqNS r.val = false ∨ s.flag (F.EVC_CH_NS ch.toNat) = true) ∧
      s.channelOpen ch.toNat = true ∧ s.flag (F.EVC_CH_SWF ch.toNat) = true) ∧
    (let r : Req := 64; let ch : Byte := 0; let s : State := awake; s.admits r.val Reg.EVC_FIRE true = true ∧
      (s.reqNS r.val = false ∨ s.flag (F.EVC_CH_NS ch.toNat) = true) ∧ s.channelOpen ch.toNat = false) ∧
    (let r : Req := 64; let ch : Byte := 0; let s : State := awake;
      let s : State := (s.put (F.EVC_CH_EN ch.toNat) 1).put (F.EVC_CH_CONS ch.toNat) 64 |>.put (F.EVC_CH_SWF ch.toNat) (0) |>.put F.EVC_STRAY_VALID (0);
      s.admits r.val Reg.EVC_FIRE true = true ∧ (s.reqNS r.val = false ∨ s.flag (F.EVC_CH_NS ch.toNat) = true) ∧
      s.channelOpen ch.toNat = true ∧ s.flag (F.EVC_CH_SWF ch.toNat) = false ∧ s.flag F.EVC_STRAY_VALID = false) ∧
    (let r : Req := 64; let ch : Byte := 0; let s : State := awake;
      let s : State := (s.put (F.EVC_CH_EN ch.toNat) 1).put (F.EVC_CH_CONS ch.toNat) 64 |>.put F.EVC_STRAY_VALID (1) |>.put (F.EVC_CH_SWF ch.toNat) 0;
      s.admits r.val Reg.EVC_FIRE true = true ∧ (s.reqNS r.val = false ∨ s.flag (F.EVC_CH_NS ch.toNat) = true) ∧
      s.channelOpen ch.toNat = true ∧ s.flag (F.EVC_CH_SWF ch.toNat) = false ∧ s.flag F.EVC_STRAY_VALID = true) ∧
    (let r : Req := 64; let ch : Byte := 0; let s : State := awake; s.admits r.val (Reg.EVC_CH ch.toNat) true = true ∧
      (s.reqNS r.val = false ∨ s.flag (F.EVC_CH_NS ch.toNat) = true) ∧ s.flag (F.EVC_CH_LOCK ch.toNat) = false) ∧
    (let r : Req := 64; let ch : Byte := 0; let s : State := awake.put (F.EVC_CH_LOCK ch.toNat) (1);
      s.admits r.val (Reg.EVC_CH ch.toNat) true = true ∧ (s.reqNS r.val = false ∨ s.flag (F.EVC_CH_NS ch.toNat) = true) ∧
      s.flag (F.EVC_CH_LOCK ch.toNat) = true) ∧
    (let r : Req := 64; let n : Fin 8 := 7; let s : State := awake; s.admits r.val (Reg.EVC_HPEND n.val) true = true) ∧
    (let r : Req := 64; let k : BitVec 6 := 0; let s : State := awake; (s.reqNS r.val = false ∨ s.flag (F.LCK_S_NS k.toNat) = true) ∧
      s.admits r.val Reg.LCK_ACQ true = true) ∧
    (let r : Req := 5; let k : BitVec 6 := 0; let s : State := awake;
      let s : State := (s.put (F.LCK_S_HELD k.toNat) 1).put (F.LCK_S_HOLDER k.toNat) r.val |>.put (F.LCK_S_NS k.toNat) 1;
      (s.reqNS r.val = false ∨ s.flag (F.LCK_S_NS k.toNat) = true) ∧
      let mine : Bool := s.flag (F.LCK_S_HELD k.toNat) && s.get (F.LCK_S_HOLDER k.toNat) == r.val;
      s.admits r.val Reg.LCK_REL true = true ∧ mine = true) ∧
    (let r : Req := 64; let k : BitVec 6 := 0; let s : State := awake; (s.reqNS r.val = false ∨ s.flag (F.LCK_S_NS k.toNat) = true) ∧
      let mine : Bool := s.flag (F.LCK_S_HELD k.toNat) && s.get (F.LCK_S_HOLDER k.toNat) == r.val;
      s.admits r.val Reg.LCK_REL true = true ∧ mine = false) ∧
    (let r : Req := 64; let k : BitVec 6 := 0; let s : State := awake; (s.reqNS r.val = false ∨ s.flag (F.LCK_S_NS k.toNat) = true) ∧
      s.admits r.val Reg.LCK_CLR true = true) := by
  refine ⟨?_, ?_, ?_, ?_, ?_, ?_, ?_, ?_, ?_, ?_, ?_⟩ <;> decide +kernel

/-- States and operands that meet the hypotheses of EventsArrive, clause by clause. -/
theorem witness_EventsArrive :
    (let s : State := awake; s.events = []) ∧
    (let rest : List EvFlight := []; let ch : Fin 256 := 255; let s : State := awake;
      let s : State := ({ s with events := .sw ch.val :: rest } : State).put (F.EVC_CH_CONS ch.val) (64);
      let s : State := (({ s with events := .hw 1 ch.val :: rest } : State).put (F.EVC_CH_EN ch.val) 1).put (F.EVC_CH_PROD ch.val) 1;
      let host := Reg.EVC_HPEND (ch.val / 32); s.events = .hw 1 ch.val :: rest ∧ s.get (F.EVC_CH_EN ch.val) = 1 ∧
      s.get (F.EVC_CH_CONS ch.val) ≤ 64 ∧ s.get (F.EVC_CH_PROD ch.val) = 1 ∧ s.get (F.EVC_CH_CONS ch.val) = 64 ∧
      s.bit host (ch.val % 32) = false) ∧
    (let rest : List EvFlight := []; let ch : Fin 256 := 255; let s : State := awake;
      let s : State := ({ s with events := .sw ch.val :: rest } : State).put (F.EVC_CH_CONS ch.val) (64) |>.setBit (Reg.EVC_HPEND (ch.val/32)) (ch.val % 32) true;
      let host := Reg.EVC_HPEND (ch.val / 32); s.events = .sw ch.val :: rest ∧ s.get (F.EVC_CH_CONS ch.val) = 64 ∧
      s.bit host (ch.val % 32) = true) ∧
    (let rest : List EvFlight := []; let ch : Fin 256 := 255; let e : EngIx := 63; let s : State := awake;
      let s : State := ({ s with events := .sw ch.val :: rest } : State).put (F.EVC_CH_CONS ch.val) (e.val);
      let s : State := (({ s with events := .hw 1 ch.val :: rest } : State).put (F.EVC_CH_EN ch.val) 1).put (F.EVC_CH_PROD ch.val) 1;
      s.events = .hw 1 ch.val :: rest ∧ s.get (F.EVC_CH_EN ch.val) = 1 ∧ s.get (F.EVC_CH_CONS ch.val) ≤ 64 ∧
      s.get (F.EVC_CH_PROD ch.val) = 1 ∧ s.get (F.EVC_CH_CONS ch.val) = e.val ∧ (s.engAt e).evPend.getLsbD ch.val = false) ∧
    (let rest : List EvFlight := []; let ch : Fin 256 := 255; let e : EngIx := 63; let s : State := awake;
      let s : State := ({ s with events := .sw ch.val :: rest } : State).put (F.EVC_CH_CONS ch.val) (e.val);
      let s : State := s.setEng e { s.engAt e with evPend := BitVec.allOnes 256 }; s.events = .sw ch.val :: rest ∧
      s.get (F.EVC_CH_CONS ch.val) = e.val ∧ (s.engAt e).evPend.getLsbD ch.val = true) ∧
    (let rest : List EvFlight := []; let ch : Fin 256 := 255; let p : Nat := 0; let s : State := awake;
      let s : State := ({ s with events := .hw p ch.val :: rest } : State).put (F.EVC_CH_EN ch.val) ((1)+1);
      s.events = .hw p ch.val :: rest ∧ (s.get (F.EVC_CH_EN ch.val) ≠ 1 ∨ 64 < s.get (F.EVC_CH_CONS ch.val))) ∧
    (let rest : List EvFlight := []; let ch : Fin 256 := 255; let p : Nat := 0; let s : State := awake;
      let s : State := ({ s with events := .hw p ch.val :: rest } : State).put (F.EVC_CH_EN ch.val) (1) |>.put (F.EVC_CH_PROD ch.val) ((p)+1) |>.put (F.EVC_CH_CONS ch.val) 64;
      s.events = .hw p ch.val :: rest ∧ s.get (F.EVC_CH_EN ch.val) = 1 ∧ s.get (F.EVC_CH_CONS ch.val) ≤ 64 ∧
      s.get (F.EVC_CH_PROD ch.val) ≠ p ∧ s.flag F.EVC_STRAY_VALID = false) ∧
    (let rest : List EvFlight := []; let ch : Fin 256 := 255; let p : Nat := 0; let s : State := awake;
      let s : State := ({ s with events := .hw p ch.val :: rest } : State).put (F.EVC_CH_EN ch.val) (1) |>.put (F.EVC_CH_PROD ch.val) ((p)+1) |>.put F.EVC_STRAY_VALID (1) |>.put (F.EVC_CH_CONS ch.val) 64;
      s.events = .hw p ch.val :: rest ∧ s.get (F.EVC_CH_EN ch.val) = 1 ∧ s.get (F.EVC_CH_CONS ch.val) ≤ 64 ∧
      s.get (F.EVC_CH_PROD ch.val) ≠ p ∧ s.flag F.EVC_STRAY_VALID = true) := by
  refine ⟨?_, ?_, ?_, ?_, ?_, ?_, ?_, ?_⟩ <;> decide +kernel

/-- States and operands that meet the hypotheses of LanesLockOnTheBestMatch, clause by clause. -/
theorem witness_LanesLockOnTheBestMatch :
    (let n : LaneIx := 95; let h : Hits := ⟨0x12345678, 0, 0xFFFFFFFF, 0xA5A5A5A5⟩; let e : Nat := 1; let coded : Bool := false;
      let s : State := awake; let s : State := s.setLane n { (s.laneAt n) with state := .search }; let s : State := searching s 95;
      let ls : LockSet := (s.searcher 95 2); let l := s.laneAt n; l.state = .search ∧
      bestMatch (s.searchers n.val) h = some (e, (ls, coded))) ∧
    (let n : LaneIx := 95; let h : Hits := ⟨0x12345678, 0, 0xFFFFFFFF, 0xA5A5A5A5⟩; let s : State := awake;
      let s : State := s.setLane n { (s.laneAt n) with state := .search }; let l := s.laneAt n; l.state = .search ∧
      bestMatch (s.searchers n.val) h = none) ∧
    (let n : LaneIx := 95; let s : State := awake; let s : State := s.setLane n { (s.laneAt n) with state := .drain };
      let s : State := s.setLane n { s.laneAt n with state := .ready, sets := [aLock] }; let l := s.laneAt n;
      (l.state = .drain ∨ l.state = .ready)) ∧
    (let n : LaneIx := 95; let i : SyncInfo := ⟨5, 0x90, 3, 9⟩; let s : State := awake;
      let s : State := s.setLane n { (s.laneAt n) with state := .off }; let l := s.laneAt n;
      let off := if s.running then min i.off (s.sfm.slotLen - 1) else i.off;
      (l.state = .off ∨ l.state = .header ∨ l.state = .payload ∨ l.state = .blank)) ∧
    (let s : State := awake; s.sfm.slotLen ≠ 0) ∧
    (let sets : List LockSet := []; let h : Hits := ⟨0x12345678, 0, 0xFFFFFFFF, 0xA5A5A5A5⟩; bestMatch sets h = none) ∧
    (let sets : List LockSet := [{ aLock with pats := [(bitsMsb 32 0x12345678, false)] }, { aLock with srch := 1 }];
      let h : Hits := ⟨0x12345678, 0, 0xFFFFFFFF, 0xA5A5A5A5⟩; let e : Nat := 0;
      let ls : LockSet := { aLock with pats := [(bitsMsb 32 0x12345678, false)] }; let coded : Bool := false;
      bestMatch sets h = some (e, (ls, coded))) ∧
    (let l : LockSet := aLock; let hist : List Bool := []; l.matchAt hist = none) ∧
    (let l : LockSet := aLock; let hist : List Bool := List.replicate 20 true; let e : Nat := 0; let coded : Bool := false;
      l.matchAt hist = some (e, coded)) := by
  refine ⟨?_, ?_, ?_, ?_, ?_, ?_, ?_, ?_, ?_⟩ <;> decide +kernel

/-- States and operands that meet the hypotheses of HeadersAndSecondMatches, clause by clause. -/
theorem witness_HeadersAndSecondMatches :
    (let ms : List (Nat × Nat × Bool) := []; earliestMatch ms = none) ∧
    (let ms : List (Nat × Nat × Bool) := [(3, 2, true), (7, 1, false)]; let m : Nat × Nat × Bool := (3, 2, true);
      earliestMatch ms = some m) ∧
    (let n : LaneIx := 95; let s : State := awake; let l := s.laneAt n; l.state ≠ .header) ∧
    (let n : LaneIx := 95; let s : State := awake; let s : State := s.setLane n { (s.laneAt n) with state := .header };
      let s : State := s.setLane n { s.laneAt n with window := List.replicate 64 true }; let l := s.laneAt n;
      let whole := if l.lock.deep then 48 else if l.frame.coded then 64 else 16; l.state = .header ∧ whole ≤ l.window.length) ∧
    (let n : LaneIx := 95; let s : State := awake; let l := s.laneAt n;
      let whole := if l.lock.deep then 48 else if l.frame.coded then 64 else 16; (l.state ≠ .header ∨ l.window.length ≠ whole)) ∧
    (let n : LaneIx := 95; let b : Bool := false; let s : State := awake;
      let s : State := s.setLane n { (s.laneAt n) with state := .header };
      let s : State := s.setLane n { (s.laneAt n) with state := .header, window := [true], hist := List.replicate 40 false, frame := { (s.laneAt n).frame with errs := 2 }, lock := { (aLock : LockSet) with deep := true, pats := [(List.replicate 16 true, false)], tol := 2, rate := 0, fourLevel := false } };
      let l := s.laneAt n; let whole := if l.lock.deep then 48 else if l.frame.coded then 64 else 16; l.state = .header ∧
      l.window.length < whole ∧
      let l1 : _ := { l with hist := lastN 64 (l.hist ++ [b]), count := l.count + 1, window := l.window ++ [b] };
      l.lock.matchAt l1.hist = none) ∧
    (let n : LaneIx := 95; let b : Bool := true; let e : Nat := 0; let coded : Bool := true; let s : State := awake;
      let s : State := s.setLane n { (s.laneAt n) with state := .header };
      let s : State := s.setLane n { s.laneAt n with state := .header, window := [true], hist := List.replicate 40 true, frame := {}, lock := { aLock with pats := [(List.replicate 16 true, true)] } };
      let l := s.laneAt n; let whole := if l.lock.deep then 48 else if l.frame.coded then 64 else 16; l.state = .header ∧
      l.window.length < whole ∧
      let l1 : _ := { l with hist := lastN 64 (l.hist ++ [b]), count := l.count + 1, window := l.window ++ [b] };
      l.lock.matchAt l1.hist = some (e, coded) ∧ l.frame.errs ≤ e) ∧
    (let n : LaneIx := 95; let b : Bool := true; let e : Nat := 0; let coded : Bool := true; let s : State := awake;
      let s : State := s.setLane n { (s.laneAt n) with state := .header };
      let s : State := s.setLane n { s.laneAt n with state := .header, window := [true], hist := List.replicate 40 true, frame := { errs := 2 }, lock := { aLock with pats := [(List.replicate 16 true, true)] } };
      let l := s.laneAt n; let whole := if l.lock.deep then 48 else if l.frame.coded then 64 else 16; l.state = .header ∧
      l.window.length < whole ∧
      let l1 : _ := { l with hist := lastN 64 (l.hist ++ [b]), count := l.count + 1, window := l.window ++ [b] };
      l.lock.matchAt l1.hist = some (e, coded) ∧ e < l.frame.errs) ∧
    (let n : LaneIx := 95; let h : Nat := mkHeader 20 0 0 0 0 0; let s : State := awake;
      let s : State := s.setLane n { (s.laneAt n) with state := .header };
      let s : State := s.setLane n { (s.laneAt n) with lock := { (s.laneAt n).lock with deep := true } };
      let s : State := s.setLane n { s.laneAt n with state := .header, window := goodHeader, lock := { aLock with pats := [(List.replicate 16 true, true)] } };
      let l := s.laneAt n; let whole := if l.lock.deep then 48 else if l.frame.coded then 64 else 16; l.state = .header ∧
      l.window.length = whole ∧ l.lock.deep = true ∧ headerDecode l.window = some h ∧ headerFits l.lock.fourLevel l.lock.rate h = true) ∧
    (let n : LaneIx := 95; let s : State := awake; let s : State := s.setLane n { (s.laneAt n) with state := .header };
      let s : State := s.setLane n { (s.laneAt n) with lock := { (s.laneAt n).lock with deep := true } };
      let s : State := s.setLane n { s.laneAt n with state := .header, window := badHeader, lock := { aLock with pats := [(List.replicate 16 true, true)] } };
      let l := s.laneAt n; let whole := if l.lock.deep then 48 else if l.frame.coded then 64 else 16; l.state = .header ∧
      l.window.length = whole ∧ l.lock.deep = true ∧ headerDecode l.window = none) ∧
    (let n : LaneIx := 95; let mags : List Nat := []; let s : State := awake;
      let s : State := s.setLane n { (s.laneAt n) with state := .header };
      let s : State := s.setLane n { (s.laneAt n) with lock := { (s.laneAt n).lock with deep := false } };
      let s : State := s.setLane n { s.laneAt n with state := .header, window := bitsMsb 16 20, lock := { aLock with deep := false } };
      let l := s.laneAt n; let whole := if l.lock.deep then 48 else if l.frame.coded then 64 else 16; l.state = .header ∧
      l.window.length = whole ∧ l.lock.deep = false ∧ let soft := softBits l.window mags;
      let phr := if l.frame.coded then ofBitsMsb ((viterbiBits (s.flagA F.LDP_SUNCFG_RSC) false (fun k => bitAt (Config.freeNat (s.free + k)) 0) (s.codeSymbols soft)).take 16) else ofBitsMsb l.window;
      sunHeaderFits phr = true) ∧
    (let n : LaneIx := 95; let mags : List Nat := []; let s : State := awake;
      let s : State := s.setLane n { (s.laneAt n) with state := .header };
      let s : State := s.setLane n { (s.laneAt n) with lock := { (s.laneAt n).lock with deep := false } };
      let s : State := s.setLane n { s.laneAt n with state := .header, window := bitsMsb 16 0, lock := { aLock with deep := false } };
      let l := s.laneAt n; let whole := if l.lock.deep then 48 else if l.frame.coded then 64 else 16; l.state = .header ∧
      l.window.length = whole ∧ l.lock.deep = false ∧ let soft := softBits l.window mags;
      let phr := if l.frame.coded then ofBitsMsb ((viterbiBits (s.flagA F.LDP_SUNCFG_RSC) false (fun k => bitAt (Config.freeNat (s.free + k)) 0) (s.codeSymbols soft)).take 16) else ofBitsMsb l.window;
      sunHeaderFits phr = false) := by
  refine ⟨?_, ?_, ?_, ?_, ?_, ?_, ?_, ?_, ?_, ?_, ?_, ?_⟩ <;> decide +kernel

/-- States and operands that meet the hypotheses of CodewordsPassTheDecoderPool, clause by clause. -/
theorem witness_CodewordsPassTheDecoderPool :
    (let n : LaneIx := 95; let s : State := awake; let s : State := s.setLane n { (s.laneAt n) with state := .payload };
      let s : State := s.setLane n { (s.laneAt n) with lock := { (s.laneAt n).lock with deep := true } };
      let s : State := s.setLane n { (s.laneAt n) with frame := { (s.laneAt n).frame with len := 300, prof := 0, nextCw := 0, codewords := 2 } };
      let l := s.laneAt n; let f := l.frame; (l.state = .payload ∨ l.state = .drain) ∧ l.lock.deep = true ∧ f.nextCw < f.codewords ∧
      s.ready 10 = true) ∧
    (let j : CwJob := aCw; let rest : List CwJob := []; let d : Fin 8 := 0; let s : State := awake;
      let s : State := ({ s with ldpQueue := j :: rest } : State); let s : State := ({ s with ldp := s.ldp.set d.val (none) } : State);
      s.ldpQueue = j :: rest ∧ s.ldp[d.val] = none ∧ (∀ i : Fin 8, i < d → s.ldp[i.val] ≠ none) ∧ s.ready 10 = true) ∧
    (let d : Fin 8 := 7; let x : DecJob := ⟨{ aCw with dead := true }, 2, 0⟩; let s : State := awake;
      let s : State := ({ s with ldp := s.ldp.set d.val (some x) } : State); s.ldp[d.val] = some x ∧ x.job.dead = true) ∧
    (let d : Fin 8 := 7; let x : DecJob := ⟨aCw, 2, 0⟩; let s : State := awake;
      let s : State := ({ s with ldp := s.ldp.set d.val (some x) } : State);
      let s : State := s.setLane x.job.lane { s.laneAt x.job.lane with state := .drain, lock := { (s.laneAt x.job.lane).lock with deep := true }, frame := { (s.laneAt x.job.lane).frame with len := 30, prof := 0, codewords := 1, results := [] } };
      s.ldp[d.val] = some x ∧ x.job.dead = false) ∧
    (let n : LaneIx := 95; let s : State := awake; let s : State := s.setLane n { (s.laneAt n) with state := .payload };
      let s : State := s.setLane n { (s.laneAt n) with lock := { (s.laneAt n).lock with deep := true } };
      let s : State := s.setLane n { (s.laneAt n) with state := .payload, frame := { (s.laneAt n).frame with codewords := 7 }, lock := { (s.laneAt n).lock with deep := true } };
      (s.laneAt n).state = .payload ∧ let l := s.laneAt n; l.lock.deep = true ∧ l.frame.results.length ≠ l.frame.codewords) ∧
    (let n : LaneIx := 95; let s : State := awake; let s : State := s.setLane n { (s.laneAt n) with state := .payload };
      let s : State := s.setLane n { (s.laneAt n) with lock := { (s.laneAt n).lock with deep := false } };
      let s : State := s.setLane n { (s.laneAt n) with state := .payload, lock := { (s.laneAt n).lock with deep := false }, frame := { ({} : RxFrame) with len := 0, hdr := 0, coded := true, results := [] }, soft := [] };
      (s.laneAt n).state = .payload ∧ let l := s.laneAt n; l.lock.deep = false) ∧
    (let n : LaneIx := 95; let s : State := awake;
      let s : State := s.setLane n { s.laneAt n with lock := { (s.laneAt n).lock with srch := 0 }, frame := { ({} : RxFrame) with len := 0, prof := 0, errs := 0, tsOff := 0, tsAsn := 0, hdr := 0, rssi := 0, gidx := 0, failed := 0, results := [] } };
      let l := s.laneAt n; let f := l.frame; s.canonical = true ∧ f.len < 4096 ∧ f.prof < 8 ∧ f.errs < 8 ∧ l.lock.srch < 4 ∧
      f.tsOff < 2 ^ 17 ∧ f.tsAsn < 2 ^ 40 ∧ f.hdr < 2 ^ 24 ∧ f.rssi < 256 ∧ f.gidx < 16) ∧
    (let n : LaneIx := 95; let off : Nat := 0; let bs : List Byte := []; let s : State := awake; s.canonical = true ∧ s.ready 9 = true ∧
      off + bs.length ≤ 2048 ∧ let place := 0x10400000 + 0x800 * n.val + off;
      (∀ i : Nat, i < bs.length → s.blockNS 9 = false ∨ s.memNS (place + i) = true)) ∧
    (let n : LaneIx := 95; let off : Nat := 0; let bs : List Byte := [7]; let s : State := awake.setBit Reg.SYS_WLD_BLK 9 true;
      s.canonical = true ∧ s.ready 9 = true ∧ off + bs.length ≤ 2048 ∧ let place := 0x10400000 + 0x800 * n.val + off; bs ≠ [] ∧
      s.blockNS 9 = true ∧ s.memNS place = false) := by
  refine ⟨?_, ?_, ?_, ?_, ?_, ?_, ?_, ?_, ?_⟩ <;> decide +kernel

/-- States and operands that meet the hypotheses of ReleaseRestartAndRecalibration, clause by clause. -/
theorem witness_ReleaseRestartAndRecalibration :
    (let r : Req := 64; let n : LaneIx := 95; let s : State := awake;
      let s : State := s.setLane n { (s.laneAt n) with state := .ready }; s.admits r.val (Reg.LAN_CTL n.val) true = true ∧
      let st := (s.laneAt n).state; st = .ready) ∧
    (let r : Req := 64; let n : LaneIx := 95; let s : State := awake; s.admits r.val (Reg.LAN_CTL n.val) true = true ∧
      let st := (s.laneAt n).state; st ≠ .ready) ∧
    (let r : Req := 64; let n : LaneIx := 95; let s : State := awake; let s : State := s.setLane n { (s.laneAt n) with state := .off };
      s.admits r.val (Reg.LAN_CTL n.val) true = true ∧ let st := (s.laneAt n).state; (st = .off ∨ st = .search ∨ st = .blank)) ∧
    (let r : Req := 64; let n : LaneIx := 95; let s : State := awake;
      let s : State := s.setLane n { (s.laneAt n) with state := .header }; s.admits r.val (Reg.LAN_CTL n.val) true = true ∧
      let st := (s.laneAt n).state; (st = .header ∨ st = .payload ∨ st = .drain)) ∧
    (let r : Req := 64; let s : State := awake; let s : State := putA s F.RXC_CTL_ENA 1; s.admits r.val Reg.RXC_CMD true = true ∧
      s.canonical = true ∧ s.chainEnabled .a = true) ∧
    (let r : Req := 64; let s : State := awake; let s : State := putA s F.RXC_CTL_ENB 1; s.admits r.val Reg.RXC_CMD true = true ∧
      s.canonical = true ∧ s.chainEnabled .b = true) ∧
    (let r : Req := 64; let s : State := awake; s.admits r.val Reg.RXC_CMD true = true ∧ s.chainEnabled .a = false) ∧
    (let r : Req := 64; let s : State := awake; s.admits r.val Reg.RXC_CMD true = true ∧ s.chainEnabled .b = false) ∧
    (let c : Chain := .b; let s : State := awake.put (F.RXC_STAT_CAL (chainNo c)) (1); s.canonical = true ∧
      s.flag (F.RXC_STAT_CAL (chainNo c)) = true ∧ s.awake = true) ∧
    (let c : Chain := .b; let s : State := awake; (s.flag (F.RXC_STAT_CAL (chainNo c)) = false ∨ s.awake = false)) := by
  refine ⟨?_, ?_, ?_, ?_, ?_, ?_, ?_, ?_, ?_, ?_⟩ <;> decide +kernel

/-- States and operands that meet the hypotheses of ChainMeasurements, clause by clause. -/
theorem witness_ChainMeasurements :
    (let p : Nat := 0; let d : Int := 0; dbmRounded p < d ∧ d ≤ 127) ∧
    (let c : Chain := .b; let s : State := awake; let listens : Bool := s.chainEnabled c && !s.chainDark c; listens = false) ∧
    (let c : Chain := .b; let s : State := awake; let s : State := s.setChain c { s.chainAt c with settling := true };
      let x := s.chainAt c; x.settling = true) ∧
    (let c : Chain := .b; let s : State := awake; let s : State := s.setChain c { s.chainAt c with settling := false };
      let x := s.chainAt c; x.settling = false) ∧
    (let c : Chain := .b; let s : State := awake;
      let s : State := putA (putA ((s.put (F.RXC_STAT_BLANK (chainNo c)) 0).put (F.RXC_STAT_CAL (chainNo c)) 0) F.RXC_CTL_ENA 1) F.RXC_CTL_ENB 1;
      let s : State := s.setChain c { s.chainAt c with clipWindow := false }; let x := s.chainAt c;
      let listens : Bool := s.chainEnabled c && !s.chainDark c; listens = true ∧ x.clipWindow = false) ∧
    (let c : Chain := .b; let s : State := awake; let x := s.chainAt c; let listens : Bool := s.chainEnabled c && !s.chainDark c;
      (listens = false ∨ x.clipWindow = true)) ∧
    (let n : LaneIx := 95; let s : State := awake;
      let s : State := s.setLane n { (s.laneAt n) with state := .search } |>.put F.SFM_STAT_RUNNING 1; (s.laneAt n).state = .search ∧
      s.running = true) ∧
    (let n : LaneIx := 95; let s : State := awake; let s : State := s.setLane n { (s.laneAt n) with state := .search };
      (s.laneAt n).state = .search ∧ s.running = false) ∧
    (let n : LaneIx := 95; let s : State := awake; (s.laneAt n).state ≠ .search) ∧
    (let code : BitVec 16 := BitVec.ofNat 16 (0 / 8 * 8 + 3); let s : State := awake;
      let s : State := ((((s.put F.WKR_CTL_EN 1).put F.WKR_CODE_CODE (code.toNat ^^^ 4)).put F.WKR_CTL_TOL 1).put F.PWR_STAT_STATE (0));
      let want := s.get F.WKR_CODE_CODE;
      let hit : Bool := s.flag F.WKR_CTL_EN && want != 0 && want != 0xFFFF && s.pwrState != 4 && decide (popCount 16 (code.toNat ^^^ want) ≤ min (s.get F.WKR_CTL_TOL) 2);
      hit = true) ∧
    (let code : BitVec 16 := 0; let s : State := awake; let want := s.get F.WKR_CODE_CODE;
      let hit : Bool := s.flag F.WKR_CTL_EN && want != 0 && want != 0xFFFF && s.pwrState != 4 && decide (popCount 16 (code.toNat ^^^ want) ≤ min (s.get F.WKR_CTL_TOL) 2);
      hit = false) := by
  refine ⟨?_, ?_, ?_, ?_, ?_, ?_, ?_, ?_, ?_, ?_, ?_⟩ <;> decide +kernel

/-- States and operands that meet the hypotheses of SuperframeCommands, clause by clause. -/
theorem witness_SuperframeCommands :
    (let s : State := awake.put F.SFM_STAT_RUNNING 1; (s.running = true ∨ s.get F.AGE_STAT_STATE = 0)) ∧
    (let i : Nat := 0; let e : Nat := 0; let s : State := awake; s.canonical = true ∧ i < 262144 ∧ s.entry i = e % 2 ^ 128) ∧
    (let i : Nat := 262143; let e : Nat := 7; let a : Nat := 0x103FFFEF; let s : State := awake; s.canonical = true ∧ i < 262144 ∧
      s.entry i ≠ e % 2 ^ 128 ∧ (a < 0x10000000 + 16 * i ∨ 0x10000010 + 16 * i ≤ a)) ∧
    (let i : Nat := 0; let e : Nat := 7; let k : Nat := 0; let s : State := awake; s.canonical = true ∧ i < 262144 ∧
      s.entry i ≠ e % 2 ^ 128 ∧ k ≠ Reg.CST_SUM) ∧
    (let i : Nat := 0; let e : Nat := 7; let s : State := awake.put F.SPH_STAT_STATE 3; s.canonical = true ∧ i < 262144 ∧
      s.entry i ≠ e % 2 ^ 128 ∧ s.pairState = 3 ∧ (∀ x ∈ s.sph.dirty, x.1 ≤ x.2)) ∧
    (let i : Nat := 0; let e : Nat := 7; let s : State := awake; s.canonical = true ∧ i < 262144 ∧ s.entry i ≠ e % 2 ^ 128 ∧
      s.pairState ≠ 3) ∧
    (let r : Req := 64; let s : State := awake;
      let s : State := ({ s.put F.SFM_CTL_RUN 1 with sph := { s.sph with timed := true } } : State).put F.SPH_STAT_STATE 2;
      s.canonical = true ∧ s.admits r.val Reg.SFM_CTL true = true ∧
      let follows : Bool := s.sph.timed && (s.pairState == 2 || s.pairState == 4 || s.pairState == 5);
      (follows = true ∨ s.flag F.SFM_CTL_RUN = true)) ∧
    (let r : Req := 64; let s : State := awake;
      let s : State := ({ s.put F.SFM_CTL_RUN 1 with sph := { s.sph with timed := true } } : State).put F.SPH_STAT_STATE 2;
      s.canonical = true ∧ s.admits r.val Reg.SFM_CTL true = true ∧
      let follows : Bool := s.sph.timed && (s.pairState == 2 || s.pairState == 4 || s.pairState == 5);
      (follows = true ∨ s.flag F.SFM_CTL_RUN = false)) ∧
    (let r : Req := 64; let s : State := awake; s.canonical = true ∧ s.admits r.val Reg.SFM_CTL true = true ∧
      let follows : Bool := s.sph.timed && (s.pairState == 2 || s.pairState == 4 || s.pairState == 5); follows = false ∧
      s.flag F.SFM_CTL_RUN = false) ∧
    (let r : Req := 64; let s : State := awake.put F.SFM_CTL_RUN (1); s.canonical = true ∧ s.admits r.val Reg.SFM_CTL true = true ∧
      let follows : Bool := s.sph.timed && (s.pairState == 2 || s.pairState == 4 || s.pairState == 5); follows = false ∧
      s.flag F.SFM_CTL_RUN = true) ∧
    (let r : Req := 64; let s : State := awake; s.canonical = true ∧ s.admits r.val Reg.SFM_ADJ true = true) ∧
    (let r : Req := 64; let s : State := awake; s.canonical = true ∧ s.admits r.val Reg.SFM_SUBMIT true = true ∧ s.peerFollows = false ∧
      s.sph.handover = none) ∧
    (let r : Req := 64; let s : State := awake; s.canonical = true ∧ s.admits r.val Reg.SFM_CANCEL true = true ∧ s.peerFollows = false ∧
      s.sph.handover = none) ∧
    (let r : Req := 64; let s : State := awake; s.canonical = true ∧ s.admits r.val Reg.SFM_RESULT false = true ∧
      s.snapOf r.val Reg.SFM_RESULT = none ∧ s.sfm.results = []) ∧
    (let r : Req := 64; let x : SfmResult := ⟨1, 4095, 4095⟩; let rest : List SfmResult := []; let s : State := awake;
      let s : State := ({ s with sfm := { s.sfm with results := x :: rest } } : State); s.canonical = true ∧
      s.admits r.val Reg.SFM_RESULT false = true ∧ s.snapOf r.val Reg.SFM_RESULT = none ∧ s.sfm.results = x :: rest) ∧
    (let r : Req := 64; let s : State := awake; s.canonical = true ∧ s.admits r.val Reg.SFM_MISS true = true) ∧
    (let r : Req := 64; let s : State := awake; s.canonical = true ∧ s.admits r.val Reg.SFM_HEARD true = true) := by
  refine ⟨?_, ?_, ?_, ?_, ?_, ?_, ?_, ?_, ?_, ?_, ?_, ?_, ?_, ?_, ?_, ?_, ?_⟩ <;> decide +kernel

/-- States and operands that meet the hypotheses of SlotsAdvance, clause by clause. -/
theorem witness_SlotsAdvance :
    (let s : State := awake.put F.SFM_STAT_RUNNING 1; s.canonical = true ∧ s.running = true ∧ s.sfm.stopPend = false) ∧
    (let s : State := awake.put F.SFM_STAT_RUNNING 1; let s : State := ({ s with sfm := { s.sfm with stopPend := true } } : State);
      s.canonical = true ∧ s.running = true ∧ s.sfm.stopPend = true) ∧
    (let s : State := awake; let s : State := ({ s with sfm := { s.sfm with startPend := true } } : State); s.canonical = true ∧
      s.running = false ∧ s.sfm.startPend = true ∧ s.flag (F.SYS_STAGE_CTL_ARM 0) = false ∧ s.flag (F.SYS_STAGE_CTL_ARM 1) = false ∧
      s.sfm.stopPend = false ∧ s.sph.acct = [] ∧
      let asn := match s.sfm.adopt with | some n => n | none => s.get F.SFM_ASNSET_LO_SET_L + s.get F.SFM_ASNSET_HI_SET_H * 2 ^ 32;
      asn < 2 ^ 40) ∧
    (let s : State := awake.put F.SFM_STAT_RUNNING 1; s.canonical = true ∧
      (s.running = true ∨ s.sfm.startPend = false ∨ s.flag (F.SYS_STAGE_CTL_ARM 0) = true ∨ s.flag (F.SYS_STAGE_CTL_ARM 1) = true)) := by
  refine ⟨?_, ?_, ?_, ?_⟩ <;> decide +kernel

/-- States and operands that meet the hypotheses of CisternCommands, clause by clause. -/
theorem witness_CisternCommands :
    (let r : Req := 66; let s : State := awake.setBit Reg.SYS_WLD_BLK 13 true; s.canonical = true ∧
      s.admits r.val (Reg.CST_UGO 0) true = true ∧ let i := s.get (F.CST_UIDX_INDEX r.val);
      (s.reqNS r.val && !s.memNS (entryAddr i)) = true) ∧
    (let r : Req := 64; let s : State := awake;
      let s : State := (if r.val < 32 then s.setBit Reg.SYS_WLD_ENG_LO r.val false else if r.val < 64 then s.setBit Reg.SYS_WLD_ENG_HI (r.val-32) false else s);
      s.canonical = true ∧ s.admits r.val (Reg.CST_UGO 0) true = true ∧ let i := s.get (F.CST_UIDX_INDEX r.val); let old := s.entry i;
      let words (k : Nat → Nat) : Nat := (s.reg (k 0)).toNat + (s.reg (k 1)).toNat * 2 ^ 32 + (s.reg (k 2)).toNat * 2 ^ 64 + (s.reg (k 3)).toNat * 2 ^ 96;
      let mask := words (Reg.CST_UMASK r.val); (s.reqNS r.val && !s.memNS (entryAddr i)) = false ∧ s.ownsCistern = true ∧
      (s.flag (F.CST_UIDX_CMP r.val) = false ∨ old &&& mask = words (Reg.CST_UEXP r.val) &&& mask)) ∧
    (let r : Req := 64; let s : State := awake;
      let s : State := (if r.val < 32 then s.setBit Reg.SYS_WLD_ENG_LO r.val false else if r.val < 64 then s.setBit Reg.SYS_WLD_ENG_HI (r.val-32) false else s).put (F.CST_UIDX_CMP r.val) (1) |>.setReg (Reg.CST_UMASK r.val 0) 0xFF |>.setReg (Reg.CST_UEXP r.val 0) 0x5A |>.setReg (Reg.CST_UIDX r.val) 0x80000007 |>.put (F.CST_UIDX_CMP r.val) 1;
      s.canonical = true ∧ s.admits r.val (Reg.CST_UGO 0) true = true ∧ let i := s.get (F.CST_UIDX_INDEX r.val); let old := s.entry i;
      let words (k : Nat → Nat) : Nat := (s.reg (k 0)).toNat + (s.reg (k 1)).toNat * 2 ^ 32 + (s.reg (k 2)).toNat * 2 ^ 64 + (s.reg (k 3)).toNat * 2 ^ 96;
      let mask := words (Reg.CST_UMASK r.val); (s.reqNS r.val && !s.memNS (entryAddr i)) = false ∧ s.ownsCistern = true ∧
      s.flag (F.CST_UIDX_CMP r.val) = true ∧ old &&& mask ≠ words (Reg.CST_UEXP r.val) &&& mask) ∧
    (let r : Req := 64; let s : State := awake;
      let s : State := (if r.val < 32 then s.setBit Reg.SYS_WLD_ENG_LO r.val false else if r.val < 64 then s.setBit Reg.SYS_WLD_ENG_HI (r.val-32) false else s).put F.SPH_STAT_STATE 2;
      s.canonical = true ∧ s.admits r.val (Reg.CST_UGO 0) true = true ∧ let i := s.get (F.CST_UIDX_INDEX r.val);
      (s.reqNS r.val && !s.memNS (entryAddr i)) = false ∧ s.ownsCistern = false) ∧
    (let r : Req := 64; let index : BitVec 18 := 7; let f : Nat := 9; let d : Nat := 1; let s : State := awake;
      let s : State := routed s; s.canonical = true ∧ s.admits r.val (Reg.CST_RQ 0) true = true ∧ s.route index.toNat = some (f, d)) ∧
    (let r : Req := 64; let index : BitVec 18 := 0; let s : State := awake; s.canonical = true ∧
      s.admits r.val (Reg.CST_RQ 0) true = true ∧ s.route index.toNat = none) ∧
    (let r : Req := 64; let s : State := awake; s.canonical = true ∧ s.admits r.val Reg.CST_CTL true = true ∧ s.ownsCistern = true) ∧
    (let r : Req := 64; let s : State := awake.put F.SPH_STAT_STATE 2; s.canonical = true ∧ s.admits r.val Reg.CST_CTL true = true ∧
      s.ownsCistern = false) ∧
    (let s : State := awake.put F.CST_STAT_CLEARING (1); s.canonical = true ∧ s.flag F.CST_STAT_CLEARING = true ∧ s.awake = true) ∧
    (let s : State := awake; s.canonical = true ∧ (s.flag F.CST_STAT_CLEARING = false ∨ s.awake = false)) ∧
    (let r : Req := 64; let a : Word := BitVec.ofNat 32 (0x10000000); let s : State := awake;
      let s : State := (if r.val < 32 then s.setBit Reg.SYS_WLD_ENG_LO r.val false else if r.val < 64 then s.setBit Reg.SYS_WLD_ENG_HI (r.val-32) false else s);
      s.canonical = true ∧ 0x10000000 ≤ a.toNat ∧ a.toNat < 0x10400000 ∧ a.toNat % 4 = 0 ∧ s.canReach r.val = true ∧ s.ready 13 = true ∧
      (s.reqNS r.val && !s.memNS a.toNat) = false ∧ (s.ownsCistern = true ∨ r.val = 69)) ∧
    (let r : Req := 64; let a : Word := BitVec.ofNat 32 (0x10000000); let s : State := awake;
      let s : State := (if r.val < 32 then s.setBit Reg.SYS_WLD_ENG_LO r.val false else if r.val < 64 then s.setBit Reg.SYS_WLD_ENG_HI (r.val-32) false else s).put F.SPH_STAT_STATE 2;
      s.canonical = true ∧ 0x10000000 ≤ a.toNat ∧ a.toNat < 0x10400000 ∧ a.toNat % 4 = 0 ∧ s.canReach r.val = true ∧ s.ready 13 = true ∧
      (s.reqNS r.val && !s.memNS a.toNat) = false ∧ s.ownsCistern = false ∧ r.val ≠ 69) ∧
    (let r : Req := (#[5,40,63,10,7,20,33] : Array Req).getD (0) 5; let a : Word := BitVec.ofNat 32 (0x107FC000);
      let s : State := awake;
      let s : State := (if r.val < 32 then s.setBit Reg.SYS_WLD_ENG_LO r.val true else if r.val < 64 then s.setBit Reg.SYS_WLD_ENG_HI (r.val-32) true else s);
      s.canonical = true ∧ 0x107FC000 ≤ a.toNat ∧ a.toNat < 0x10800000 ∧ s.canReach r.val = true ∧ s.reqNS r.val = true) ∧
    (let r : Req := (#[5,40,63,64,7,20,33] : Array Req).getD (0) 5; let a : Word := BitVec.ofNat 32 (0x107FC000);
      let s : State := awake.setBit Reg.SYS_READY 14 false; s.canonical = true ∧ 0x107FC000 ≤ a.toNat ∧ a.toNat < 0x10800000 ∧
      s.canReach r.val = true ∧ s.reqNS r.val = false ∧ s.ready 14 = false) ∧
    (let r : Req := (#[5,40,63,64,7,20,33] : Array Req).getD (0) 5; let a : Word := BitVec.ofNat 32 (0x107FC000);
      let w : Width := .word; let s : State := awake;
      let s : State := (if r.val < 32 then s.setBit Reg.SYS_WLD_ENG_LO r.val false else if r.val < 64 then s.setBit Reg.SYS_WLD_ENG_HI (r.val-32) false else s);
      s.canonical = true ∧ 0x107FC000 ≤ a.toNat ∧ a.toNat < 0x10800000 ∧ s.canReach r.val = true ∧ s.reqNS r.val = false ∧
      s.ready 14 = true ∧ w = .word ∧ a.toNat % 4 = 0) ∧
    (let r : Req := (#[5,40,63,64,7,20,33] : Array Req).getD (0) 5; let a : Word := BitVec.ofNat 32 (0x107FC002);
      let w : Width := .half; let s : State := awake;
      let s : State := (if r.val < 32 then s.setBit Reg.SYS_WLD_ENG_LO r.val false else if r.val < 64 then s.setBit Reg.SYS_WLD_ENG_HI (r.val-32) false else s);
      s.canonical = true ∧ 0x107FC000 ≤ a.toNat ∧ a.toNat < 0x10800000 ∧ s.canReach r.val = true ∧ s.reqNS r.val = false ∧
      s.ready 14 = true ∧ (w ≠ .word ∨ a.toNat % 4 ≠ 0)) := by
  refine ⟨?_, ?_, ?_, ?_, ?_, ?_, ?_, ?_, ?_, ?_, ?_, ?_, ?_, ?_, ?_, ?_⟩ <;> decide +kernel

/-- States and operands that meet the hypotheses of CipherJobs, clause by clause. -/
theorem witness_CipherJobs :
    (let r : Req := 64; let s : State := awake; s.canonical = true ∧ (∀ n : Fin 6, s.admits r.val (Reg.CIP_JD 0 n.val) true = true)) ∧
    (let d : JobDesc := { aDesc with w0 := 0x70000007 }; let ns : Bool := true; let st : Nat := 7; let s : State := awake;
      s.canonical = true ∧ s.submitStatus d ns = some st) ∧
    (let j : CipJob := aJob; let rest : List CipJob := []; let c : Fin 8 := 0; let s : State := awake;
      let s : State := ({ s with cip := { s.cip with core := s.cip.core.set c.val (none) } } : State).setEntry (0) 0x100;
      let s : State := keyed s; let s : State := ({ s with cip := { s.cip with queue := j :: rest } } : State); s.canonical = true ∧
      s.cip.queue = j :: rest ∧ s.ready 14 = true ∧ s.cip.core[c.val] = none ∧ (∀ i : Fin 8, i < c → s.cip.core[i.val] ≠ none) ∧
      let op := jobOp j.d; op ≠ 1) ∧
    (let j : CipJob := ⟨{ aDesc with w0 := 0x1A000007, w1 := 0x20000 }, false, 64⟩; let rest : List CipJob := []; let c : Fin 8 := 0;
      let s : State := awake; let s : State := ({ s with cip := { s.cip with core := s.cip.core.set c.val (none) } } : State);
      let s : State := ({ s with flc := { s.flc with op := some ⟨2, 0x40000, []⟩ } } : State);
      let s : State := ({ s with cip := { s.cip with queue := [j] } } : State); s.canonical = true ∧ s.cip.queue = j :: rest ∧
      s.ready 14 = true ∧ s.cip.core[c.val] = none ∧ (∀ i : Fin 8, i < c → s.cip.core[i.val] ≠ none) ∧ let op := jobOp j.d; op = 1 ∧
      s.flashHolds (jobSrc j.d) 8 = true) ∧
    (let j : CipJob := ⟨{ aDesc with w0 := 0x1A000007, w1 := 0x30000000 }, false, 64⟩; let rest : List CipJob := []; let c : Fin 8 := 0;
      let s : State := awake;
      let s : State := ({ s with cip := { s.cip with core := s.cip.core.set c.val (none) } } : State).setEntry (0) 0x100;
      let s : State := keyed s; let s : State := ({ s with cip := { s.cip with queue := j :: rest } } : State); s.canonical = true ∧
      s.cip.queue = j :: rest ∧ s.ready 14 = true ∧ s.cip.core[c.val] = none ∧ (∀ i : Fin 8, i < c → s.cip.core[i.val] ≠ none) ∧
      let q : _ := { s with cip := { s.cip with queue := rest } }; let op := jobOp j.d; op = 1 ∧ s.flashHolds (jobSrc j.d) 8 = false ∧
      (match ({ s with cip := { s.cip with queue := rest } } : State).moveRead (s.blockNS 14) 70 (jobSrc j.d) 8 with | (_, .error _) => true | _ => false) = true) ∧
    (let j : CipJob := ⟨{ aDesc with w0 := 0x1A000007 }, false, 64⟩; let rest : List CipJob := []; let c : Fin 8 := 0;
      let s : State := awake;
      let s : State := ({ s with cip := { s.cip with core := s.cip.core.set c.val (none) } } : State).setEntry (0) 0x100;
      let s : State := keyed s; let s : State := ({ s with cip := { s.cip with queue := j :: rest } } : State);
      let s : State := ({ s with flc := { s.flc with op := some ⟨2, 0x40000, []⟩ } } : State).putBytes 0x10780000 [0,0,0,0,0,0,0,0];
      let s : State := keyed s; s.canonical = true ∧ s.cip.queue = j :: rest ∧ s.ready 14 = true ∧ s.cip.core[c.val] = none ∧
      (∀ i : Fin 8, i < c → s.cip.core[i.val] ≠ none) ∧ let q : _ := { s with cip := { s.cip with queue := rest } };
      let op := jobOp j.d; op = 1 ∧ s.flashHolds (jobSrc j.d) 8 = false ∧
      (match ({ s with cip := { s.cip with queue := rest } } : State).moveRead (s.blockNS 14) 70 (jobSrc j.d) 8 with | (_, .ok _) => true | _ => false) = true) ∧
    (let c : Fin 8 := 7; let run : CoreRun := { job := aJob, ended := some 3 }; let st : Nat := 3; let s : State := awake;
      let s : State := ({ s with cip := { s.cip with core := s.cip.core.set c.val (some run) } } : State);
      let s : State := s.setCore c (some { run with result := none }); let s : State := s.setCore c (some { run with unread := none });
      s.canonical = true ∧ s.cip.core[c.val] = some run ∧ run.result = none ∧ run.ended = some st ∧ run.unread = none) ∧
    (let c : Fin 8 := 7; let run : CoreRun := { job := ⟨{ aDesc with w1 := 0x20000 }, false, 64⟩ }; let s : State := awake;
      let s : State := ({ s with cip := { s.cip with core := s.cip.core.set c.val (some run) } } : State);
      let s : State := s.setCore c (some { run with result := none });
      let s : State := ({ s with flc := { s.flc with op := some ⟨2, 0x40000, []⟩ } } : State); s.canonical = true ∧
      s.cip.core[c.val] = some run ∧ let d := run.job.d; run.result = none ∧ run.ended = none ∧
      s.flashHolds (jobSrc d) (srcLen d) = true) ∧
    (let c : Fin 8 := 7; let run : CoreRun := { job := aJob, result := some (0, 5) }; let st : Nat := 0; let n : Nat := 5;
      let s : State := awake; let s : State := ({ s with cip := { s.cip with core := s.cip.core.set c.val (some run) } } : State);
      let s : State := s.setCore c (some { run with result := some (st, n) }); s.canonical = true ∧ s.cip.core[c.val] = some run ∧
      run.result = some (st, n)) ∧
    (let c : Fin 8 := 7; let run : CoreRun := { job := aJob, unread := some [] }; let worlds : List (Nat × Word) := [];
      let s : State := awake; let s : State := ({ s with cip := { s.cip with core := s.cip.core.set c.val (some run) } } : State);
      let s : State := s.setCore c (some { run with result := none });
      let s : State := s.setCore c (some { run with unread := some worlds });
      let s : State := ({ s with cip := { s.cip with core := s.cip.core.set c.val (some run) } } : State); s.canonical = true ∧
      s.cip.core[c.val] = some run ∧ let d := run.job.d; run.result = none ∧ run.ended = none ∧ run.unread = some worlds ∧
      s.flashHolds (jobSrc d) (srcLen d) = false) ∧
    (let c : Fin 8 := 7; let run : CoreRun := { job := ⟨{ aDesc with w0 := 0x60000007 }, false, 64⟩ }; let s : State := awake;
      let s : State := ({ s with cip := { s.cip with core := s.cip.core.set c.val (some run) } } : State);
      let s : State := s.setCore c (some { run with result := none }); let s : State := s.setCore c (some { run with unread := none });
      s.canonical = true ∧ s.cip.core[c.val] = some run ∧ let d := run.job.d; run.result = none ∧ run.ended = none ∧ run.unread = none ∧
      s.flashHolds (jobSrc d) (srcLen d) = false ∧ jobOp d = 6) ∧
    (let c : Fin 8 := 7; let run : CoreRun := { job := ⟨{ aDesc with w1 := 0x30000000 }, false, 64⟩ }; let s : State := awake;
      let s : State := ({ s with cip := { s.cip with core := s.cip.core.set c.val (some run) } } : State);
      let s : State := s.setCore c (some { run with result := none }); let s : State := s.setCore c (some { run with unread := none });
      s.canonical = true ∧ s.cip.core[c.val] = some run ∧ let d := run.job.d; let ns := s.blockNS 14; run.result = none ∧
      run.ended = none ∧ run.unread = none ∧ s.flashHolds (jobSrc d) (srcLen d) = false ∧ jobOp d ≠ 6 ∧
      (match s.moveRead ns 70 (jobSrc d) (srcLen d) with | (_, .error _) => true | _ => false) = true) ∧
    (let c : Fin 8 := 7; let run : CoreRun := aRun 0 4; let s : State := awake;
      let s : State := ({ s with cip := { s.cip with core := s.cip.core.set c.val (some run) } } : State);
      let s : State := s.setCore c (some { run with result := none }); let s : State := s.setCore c (some { run with unread := none });
      s.canonical = true ∧ s.cip.core[c.val] = some run ∧ let d := run.job.d; let ns := s.blockNS 14; run.result = none ∧
      run.ended = none ∧ run.unread = none ∧ s.flashHolds (jobSrc d) (srcLen d) = false ∧
      (match s.moveRead ns 70 (jobSrc d) (srcLen d) with | (_, .ok _) => decide (jobOp d = 0) | _ => false) = true) ∧
    (let c : Fin 8 := 7; let run : CoreRun := aRun 1 4; let s : State := awake;
      let s : State := ({ s with cip := { s.cip with core := s.cip.core.set c.val (some run) } } : State);
      let s : State := s.setCore c (some { run with result := none }); let s : State := s.setCore c (some { run with unread := none });
      s.canonical = true ∧ s.cip.core[c.val] = some run ∧ let d := run.job.d; let ns := s.blockNS 14; run.result = none ∧
      run.ended = none ∧ run.unread = none ∧ s.flashHolds (jobSrc d) (srcLen d) = false ∧
      (match s.moveRead ns 70 (jobSrc d) (srcLen d) with | (_, .ok _) => decide (jobOp d = 1) | _ => false) = true) ∧
    (let c : Fin 8 := 7; let run : CoreRun := aRun 2 3; let s : State := awake;
      let s : State := ({ s with cip := { s.cip with core := s.cip.core.set c.val (some run) } } : State);
      let s : State := s.setCore c (some { run with result := none }); let s : State := s.setCore c (some { run with unread := none });
      s.canonical = true ∧ s.cip.core[c.val] = some run ∧ let d := run.job.d; let ns := s.blockNS 14; run.result = none ∧
      run.ended = none ∧ run.unread = none ∧ s.flashHolds (jobSrc d) (srcLen d) = false ∧
      (match s.moveRead ns 70 (jobSrc d) (srcLen d) with
       | (_, .ok _) => decide (
           jobOp d = 2 ∧ run.level ≤ 3)
       | _ => false) = true) ∧
    (let c : Fin 8 := 7; let run : CoreRun := aRun 2 4; let s : State := awake;
      let s : State := ({ s with cip := { s.cip with core := s.cip.core.set c.val (some run) } } : State);
      let s : State := s.setCore c (some { run with result := none }); let s : State := s.setCore c (some { run with unread := none });
      s.canonical = true ∧ s.cip.core[c.val] = some run ∧ let d := run.job.d; let ns := s.blockNS 14; run.result = none ∧
      run.ended = none ∧ run.unread = none ∧ s.flashHolds (jobSrc d) (srcLen d) = false ∧
      (match s.moveRead ns 70 (jobSrc d) (srcLen d) with
       | (_, .ok _) => decide (
           jobOp d = 2 ∧ 3 < run.level)
       | _ => false) = true) ∧
    (let c : Fin 8 := 7; let run : CoreRun := aRun 3 3; let s : State := awake;
      let s : State := ({ s with cip := { s.cip with core := s.cip.core.set c.val (some run) } } : State);
      let s : State := s.setCore c (some { run with result := none }); let s : State := s.setCore c (some { run with unread := none });
      s.canonical = true ∧ s.cip.core[c.val] = some run ∧ let d := run.job.d; let ns := s.blockNS 14; run.result = none ∧
      run.ended = none ∧ run.unread = none ∧ s.flashHolds (jobSrc d) (srcLen d) = false ∧
      (match s.moveRead ns 70 (jobSrc d) (srcLen d) with
       | (_, .ok _) => decide (
           jobOp d = 3 ∧ run.level ≤ 3)
       | _ => false) = true) ∧
    (let c : Fin 8 := 7; let run : CoreRun := aRun 3 4; let s : State := awake;
      let s : State := ({ s with cip := { s.cip with core := s.cip.core.set c.val (some run) } } : State);
      let s : State := s.setCore c (some { run with result := none }); let s : State := s.setCore c (some { run with unread := none });
      s.canonical = true ∧ s.cip.core[c.val] = some run ∧ let d := run.job.d; let ns := s.blockNS 14; run.result = none ∧
      run.ended = none ∧ run.unread = none ∧ s.flashHolds (jobSrc d) (srcLen d) = false ∧
      (match s.moveRead ns 70 (jobSrc d) (srcLen d) with
       | (_, .ok _) => decide (
           jobOp d = 3 ∧ 3 < run.level)
       | _ => false) = true) ∧
    (let c : Fin 8 := 7; let run : CoreRun := { job := aJob }; let s : State := awake;
      let s : State := ({ s with cip := { s.cip with core := s.cip.core.set c.val (some run) } } : State);
      let s : State := s.setCore c (some { run with result := none }); let s : State := s.setCore c (some { run with unread := none });
      s.canonical = true ∧ s.cip.core[c.val] = some run ∧ let d := run.job.d; let ns := s.blockNS 14; run.result = none ∧
      run.ended = none ∧ run.unread = none ∧ s.flashHolds (jobSrc d) (srcLen d) = false ∧
      (match s.moveRead ns 70 (jobSrc d) (srcLen d) with | (_, .ok _) => decide (jobOp d = 4) | _ => false) = true) ∧
    (let c : Fin 8 := 7; let run : CoreRun := { job := ⟨{ aDesc with w0 := 0x5A000007 }, false, 64⟩ }; let s : State := awake;
      let s : State := ({ s with cip := { s.cip with core := s.cip.core.set c.val (some run) } } : State);
      let s : State := s.setCore c (some { run with result := none }); let s : State := s.setCore c (some { run with unread := none });
      s.canonical = true ∧ s.cip.core[c.val] = some run ∧ let d := run.job.d; let ns := s.blockNS 14; run.result = none ∧
      run.ended = none ∧ run.unread = none ∧ s.flashHolds (jobSrc d) (srcLen d) = false ∧
      (match s.moveRead ns 70 (jobSrc d) (srcLen d) with | (_, .ok _) => decide (jobOp d = 5) | _ => false) = true) ∧
    (let d : JobDesc := aDesc; let s : State := awake; s.canonical = true ∧ s.blockNS 14 = false ∧ 0x10780000 ≤ jobRes d ∧
      jobRes d + 32 ≤ 0x107FC000) ∧
    (let r : Req := 64; let s : State := awake; s.canonical = true ∧ s.admits r.val Reg.CIP_CTL true = true) := by
  refine ⟨?_, ?_, ?_, ?_, ?_, ?_, ?_, ?_, ?_, ?_, ?_, ?_, ?_, ?_, ?_, ?_, ?_, ?_, ?_, ?_, ?_, ?_⟩ <;> decide +kernel

/-- States and operands that meet the hypotheses of TransmitterPhases, clause by clause. -/
theorem witness_TransmitterPhases :
    (let slot : Nat := 128; let s : State := awake.put F.SFM_STAT_RUNNING 1;
      let ahead : Prop := s.running = true ∧ slot / 128 ≠ s.sfm.asn.toNat / 128; ahead) ∧
    (let slot : Nat := 0; let s : State := awake; let s : State := ({ s with sfm := { s.sfm with quiet := true } } : State);
      let ahead : Prop := s.running = true ∧ slot / 128 ≠ s.sfm.asn.toNat / 128; (¬ahead) ∧ s.sfm.quiet = true) ∧
    (let slot : Nat := 0; let s : State := awake; let ahead : Prop := s.running = true ∧ slot / 128 ≠ s.sfm.asn.toNat / 128; (¬ahead) ∧
      s.sfm.quiet = false) ∧
    (let s : State := awake; s.canonical = true ∧ s.unread = none) ∧
    (let l : Launch := { aLaunch with loaded := false, d1 := 0x20000 }; let s : State := awake;
      let s : State := ({ s with flc := { s.flc with op := some ⟨2, 0x40000, []⟩ } } : State);
      let s : State := ({ s with sfm := { s.sfm with launches := [l] } } : State); s.canonical = true ∧ s.unread = some l ∧
      s.flashHolds l.d1.toNat (txLen l.d0) = true) ∧
    (let l : Launch := { aLaunch with loaded := false, d1 := 0x10780000 }; let s : State := awake;
      let s : State := ({ s with sfm := { s.sfm with launches := [l] } } : State); s.canonical = true ∧ s.unread = some l ∧
      s.flashHolds l.d1.toNat (txLen l.d0) = false ∧
      (match s.moveRead (s.blockNS 11) 70 l.d1.toNat (txLen l.d0) with | (_, .ok _) => true | _ => false) = true) ∧
    (let l : Launch := { aLaunch with loaded := false, d1 := 0x30000000 }; let s : State := awake;
      let s : State := ({ s with sfm := { s.sfm with launches := [l] } } : State); s.canonical = true ∧ s.unread = some l ∧
      s.flashHolds l.d1.toNat (txLen l.d0) = false ∧
      (match s.moveRead (s.blockNS 11) 70 l.d1.toNat (txLen l.d0) with | (_, .error _) => true | _ => false) = true) ∧
    (let s : State := awake.put F.SPH_STAT_STATE 4; s.canonical = true ∧
      (s.tx.hop ≠ none ∨ s.syn.running ≠ none ∨ s.ownsCistern = false)) ∧
    (let s : State := awake;
      let s : State := ({ s with sfm := { s.sfm with launches := s.sfm.launches.filter (fun x => !x.loaded) } } : State);
      s.canonical = true ∧ earliestLaunch (s.sfm.launches.filter (fun x => x.loaded)) = none) ∧
    (let l : Launch := aLaunch; let ls : List Launch := [aLaunch]; let s : State := awake; s.canonical = true ∧
      earliestLaunch ls = some l) ∧
    (let l : Launch := aLaunch; let k : Nat := 3; let s : State := awake;
      let s : State := ({ ((s.put (F.SYN_ENT_VALID 3) 1).put (F.SYN_ENT_KHZ 3) 868300).put F.SYN_CTL_AUTO 0 with sfm := { s.sfm with launches := [l] } } : State);
      s.canonical = true ∧ earliestLaunch (s.sfm.launches.filter (fun x => x.loaded)) = some l ∧ s.tx.hop = none ∧
      s.syn.running = none ∧ s.ownsCistern = true ∧
      let hit : Option Nat := match s.synEntry l.khz with | some k => if s.flag F.SYN_CTL_AUTO = true ∧ 8 < (s.getS F.TMP_DIE_TEMP - s.getS (F.SYN_ENT_TCAL k)).natAbs then none else some k | none => none;
      hit = some k) ∧
    (let l : Launch := aLaunch; let s : State := awake; let s : State := ({ s with sfm := { s.sfm with launches := [l] } } : State);
      s.canonical = true ∧ earliestLaunch (s.sfm.launches.filter (fun x => x.loaded)) = some l ∧ s.tx.hop = none ∧
      s.syn.running = none ∧ s.ownsCistern = true ∧
      let hit : Option Nat := match s.synEntry l.khz with | some k => if s.flag F.SYN_CTL_AUTO = true ∧ 8 < (s.getS F.TMP_DIE_TEMP - s.getS (F.SYN_ENT_TCAL k)).natAbs then none else some k | none => none;
      hit = none) ∧
    (let s : State := awake; s.canonical = true ∧ (s.tx.hop = none ∨ s.tx.cur ≠ none)) ∧
    (let l : Launch := aLaunch; let s : State := awake;
      let s : State := ({ s with tx := { s.tx with hop := some l } } : State).put F.SPH_STAT_STATE 5; s.canonical = true ∧
      s.tx.hop = some l ∧ s.tx.cur = none ∧ let transmits : Bool := s.ownsCistern || s.pairState == 5; transmits = true) ∧
    (let l : Launch := aLaunch; let s : State := awake;
      let s : State := ({ s with tx := { s.tx with hop := some l } } : State).put F.SPH_STAT_STATE 2; s.canonical = true ∧
      s.tx.hop = some l ∧ s.tx.cur = none ∧ let transmits : Bool := s.ownsCistern || s.pairState == 5; transmits = false) ∧
    (let c : Chain := .a; let m : LaneIx := 95; let s : State := awake;
      let s : State := s.setLane m { s.laneAt m with state := .payload };
      let s : State := (putA (putA (putA (putA s F.RXC_CTL_ENA 1) F.RXC_CTL_ENB 1) F.RXC_CTL_MODE 0) F.RXC_CTL_MODE 0 |>.setReg Reg.SYS_READY 0xFFFFFFFF |>.put (F.RXC_STAT_BLANK 0) 0 |>.put (F.RXC_STAT_BLANK 1) 0 |>.put (F.RXC_STAT_CAL 0) 0 |>.put (F.RXC_STAT_CAL 1) 0);
      s.canonical = true ∧ let t := s.blankChain c; laneChain m = otherChain c ∧
      ((t.laneAt m).state = .header ∨ (t.laneAt m).state = .payload)) ∧
    (let s : State := awake; s.canonical = true ∧ (s.tx.cur = none ∨ s.get F.TXP_STAT_PHASE ≠ 3)) ∧
    (let l : Launch := { aLaunch with req := none }; let s : State := awake;
      let s : State := ({ s with tx := { s.tx with cur := some l } } : State).put F.TXP_STAT_PHASE (3); s.canonical = true ∧
      s.tx.cur = some l ∧ s.get F.TXP_STAT_PHASE = 3 ∧ l.req = none) ∧
    (let l : Launch := aLaunch; let s : State := awake;
      let s : State := ({ s with tx := { s.tx with cur := some l } } : State).put F.TXP_STAT_PHASE (3); s.canonical = true ∧
      s.tx.cur = some l ∧ s.get F.TXP_STAT_PHASE = 3 ∧ l.req ≠ none) ∧
    (let l : Launch := aLaunch; let s : State := awake;
      let s : State := ({ s with tx := { s.tx with cur := some l } } : State).put F.TXP_STAT_PHASE (3); s.canonical = true ∧
      s.tx.cur = some l ∧ s.get F.TXP_STAT_PHASE = 3 ∧ s.peerFollows = false ∧ s.sph.handover = none) ∧
    (let l : Launch := aLaunch; let s : State := awake;
      let s : State := ({ s with tx := { s.tx with cur := some l } } : State).put F.TXP_STAT_PHASE (3); s.canonical = true ∧
      s.tx.cur = some l ∧ s.get F.TXP_STAT_PHASE = 3 ∧ s.sfm.results.length < 256) ∧
    (let s : State := awake; s.canonical = true ∧ (s.tx.cur = none ∨ (s.get F.TXP_STAT_PHASE ≠ 4 ∧ s.tx.femHeld = none))) ∧
    (let l : Launch := aLaunch; let s : State := awake;
      let s : State := ({ s with tx := { s.tx with cur := some l } } : State).put F.TXP_STAT_PHASE (4); s.canonical = true ∧
      s.tx.cur = some l ∧ (s.get F.TXP_STAT_PHASE = 4 ∨ s.tx.femHeld ≠ none)) ∧
    (let s : State := awake; s.canonical = true ∧ s.tx.cur = none ∧ s.tx.hopSwitched = false) ∧
    (let s : State := awake; let s : State := ({ s with tx := { s.tx with hopSwitched := true } } : State); s.canonical = true ∧
      (s.tx.cur ≠ none ∨ s.tx.hopSwitched = true)) := by
  refine ⟨?_, ?_, ?_, ?_, ?_, ?_, ?_, ?_, ?_, ?_, ?_, ?_, ?_, ?_, ?_, ?_, ?_, ?_, ?_, ?_, ?_, ?_, ?_, ?_, ?_⟩ <;> decide +kernel

/-- States and operands that meet the hypotheses of SynthesiserCommands, clause by clause. -/
theorem witness_SynthesiserCommands :
    (let r : Req := 64; let khz : BitVec 20 := 960000; let s : State := awake; s.canonical = true ∧
      s.admits r.val Reg.SYN_CMD true = true ∧ 750000 ≤ khz.toNat ∧ khz.toNat ≤ 960000) ∧
    (let r : Req := 64; let khz : BitVec 20 := BitVec.ofNat 20 (745000 + 0); let s : State := awake; s.canonical = true ∧
      s.admits r.val Reg.SYN_CMD true = true ∧ (khz.toNat < 750000 ∨ 960000 < khz.toNat)) ∧
    (let s : State := awake; s.canonical = true ∧
      (s.syn.queue = [] ∨ s.ready 11 = false ∨ s.syn.running ≠ none ∨ s.tx.hop ≠ none ∨ s.tx.cur ≠ none)) ∧
    (let x : SynCmd := ⟨1, 868300⟩; let rest : List SynCmd := []; let s : State := awake;
      let s : State := ({ s with syn := { s.syn with queue := x :: rest } } : State); s.canonical = true ∧ s.syn.queue = x :: rest ∧
      s.ready 11 = true ∧ s.syn.running = none ∧ s.tx.hop = none ∧ s.tx.cur = none ∧ x.op = 1) ∧
    (let khz : BitVec 20 := BitVec.ofNat 20 (745000 + 0); let x : SynCmd := ⟨2, 868300⟩; let rest : List SynCmd := [];
      let s : State := awake; let s : State := ({ s with syn := { s.syn with queue := x :: rest } } : State); s.canonical = true ∧
      s.syn.queue = x :: rest ∧ s.ready 11 = true ∧ s.syn.running = none ∧ s.tx.hop = none ∧ s.tx.cur = none ∧ x.op = 2 ∧
      s.synEntry x.khz = none) ∧
    (let khz : BitVec 20 := BitVec.ofNat 20 (745000 + 0); let x : SynCmd := ⟨2, 868300⟩; let rest : List SynCmd := []; let k : Nat := 4;
      let s : State := awake;
      let s : State := ({ s with syn := { s.syn with queue := x :: rest } } : State).setReg (Reg.SYN_ENT 4) 0x801D3FCC |>.put (F.SYN_ENT_KHZ 4) 868300;
      s.canonical = true ∧ s.syn.queue = x :: rest ∧ s.ready 11 = true ∧ s.syn.running = none ∧ s.tx.hop = none ∧ s.tx.cur = none ∧
      x.op = 2 ∧ s.synEntry x.khz = some k) ∧
    (let x : SynCmd := ⟨3, 868300⟩; let rest : List SynCmd := []; let s : State := awake;
      let s : State := ({ s with syn := { s.syn with queue := x :: rest } } : State); s.canonical = true ∧ s.syn.queue = x :: rest ∧
      s.ready 11 = true ∧ s.syn.running = none ∧ s.tx.hop = none ∧ s.tx.cur = none ∧ x.op = 3) ∧
    (let khz : BitVec 20 := BitVec.ofNat 20 (745000 + 0); let x : SynCmd := ⟨1, 868300⟩; let k : Nat := 4; let s : State := awake;
      let s : State := ({ s with syn := { s.syn with running := some x } } : State).setReg (Reg.SYN_ENT 4) 0x801D3FCC |>.put (F.SYN_ENT_KHZ 4) 868300;
      let s : State := ({ s with syn := { s.syn with running := some x } } : State); s.canonical = true ∧ s.syn.running = some x ∧
      x.khz < 2 ^ 20 ∧ k < 256 ∧
      (s.synEntry x.khz = some k ∨ (s.synEntry x.khz = none ∧ firstIdx 256 (fun i => !s.flag (F.SYN_ENT_VALID i)) = some k) ∨ (s.synEntry x.khz = none ∧ firstIdx 256 (fun i => !s.flag (F.SYN_ENT_VALID i)) = none ∧ s.syn.lru.getLast? = some k))) := by
  refine ⟨?_, ?_, ?_, ?_, ?_, ?_, ?_, ?_⟩ <;> decide +kernel

/-- States and operands that meet the hypotheses of SiphonLink, clause by clause. -/
theorem witness_SiphonLink :
    (let bs : List Byte := [1, 2, 3, 4]; let j : Nat := 1; bs.length % 2 = 0 ∧ j < bs.length / 2) ∧
    (let r : Req := 64; let v : Word := BitVec.ofNat 32 (2 ^ F.SPH_CTL_ROLE.lo); let s : State := awake; s.canonical = true ∧
      (∀ c : Fin 8, (s.cip.core[c.val]).bind (fun x => x.result) = none) ∧ s.admits r.val Reg.SPH_CTL true = true ∧ s.pairing = false ∧
      (match rowAt Reg.SPH_CTL with
       | some x => decide (
           let t := (s.served r.val Reg.SPH_CTL).setReg Reg.SPH_CTL (x.written (s.locked Reg.SPH_CTL) (s.reg Reg.SPH_CTL) (v ||| 1));
             t.get F.SPH_CTL_ROLE = 1)
       | none => false) = true) ∧
    (let r : Req := 64; let v : Word := 0; let s : State := awake; s.canonical = true ∧
      (∀ c : Fin 8, (s.cip.core[c.val]).bind (fun x => x.result) = none) ∧ s.admits r.val Reg.SPH_CTL true = true ∧ s.pairing = false ∧
      (match rowAt Reg.SPH_CTL with
       | some x => decide (
           let t := (s.served r.val Reg.SPH_CTL).setReg Reg.SPH_CTL (x.written (s.locked Reg.SPH_CTL) (s.reg Reg.SPH_CTL) (v ||| 1));
             t.get F.SPH_CTL_ROLE = 0)
       | none => false) = true) ∧
    (let r : Req := 64; let s : State := awake.put F.SPH_CTL_EN 1; s.canonical = true ∧
      (∀ c : Fin 8, (s.cip.core[c.val]).bind (fun x => x.result) = none) ∧ s.admits r.val Reg.SPH_CTL true = true ∧ s.pairing = true) ∧
    (let s : State := awake; s.canonical = true ∧ (∀ c : Fin 8, (s.cip.core[c.val]).bind (fun x => x.result) = none) ∧ s.linked = false) ∧
    (let s : State := awake.put F.PWR_STAT_STATE (1 + 0); s.canonical = true ∧
      (∀ c : Fin 8, (s.cip.core[c.val]).bind (fun x => x.result) = none) ∧ s.pwrState ≠ 0) ∧
    (let h : SphHdr := aHdr; let b : HelloBody := ⟨5, false, 5, 1, 2, 3, 4, 5⟩; let s : State := awake.put F.SPH_CTL_EN 1;
      s.canonical = true ∧ (∀ c : Fin 8, (s.cip.core[c.val]).bind (fun x => x.result) = none) ∧ s.pairing = true ∧
      let u := s.takeHeader h; b.pairid.toNat ≠ u.sph.pairid) ∧
    (let h : SphHdr := aHdr; let b : HelloBody := { (⟨0, false, 5, 1, 2, 3, 4, 5⟩ : HelloBody) with pairid := 7 };
      let s : State := awake.put F.SPH_CTL_EN 1;
      let s : State := ({ s with sph := { s.sph with pairid := 7, helloRun := 0 } } : State).put F.SPH_STAT_LINK (0);
      s.canonical = true ∧ (∀ c : Fin 8, (s.cip.core[c.val]).bind (fun x => x.result) = none) ∧ s.pairing = true ∧
      let u := s.takeHeader h; b.pairid.toNat = u.sph.pairid ∧ (u.linked = true ∨ u.sph.helloRun < 15)) ∧
    (let h : SphHdr := aHdr; let b : HelloBody := ⟨0, false, 5, 1, 2, 3, 4, 5⟩; let s : State := awake.put F.SPH_CTL_EN 1;
      let s : State := ({ s with sph := { s.sph with helloRun := 15 } } : State); s.canonical = true ∧
      (∀ c : Fin 8, (s.cip.core[c.val]).bind (fun x => x.result) = none) ∧ s.pairing = true ∧ let u := s.takeHeader h;
      b.pairid.toNat = u.sph.pairid ∧ u.linked = false ∧ 15 ≤ u.sph.helloRun) ∧
    (let s : State := awake.put F.SPH_CTL_EN 1 |>.put F.SPH_STAT_LINK 1; s.canonical = true ∧
      (∀ c : Fin 8, (s.cip.core[c.val]).bind (fun x => x.result) = none) ∧ s.pairing = true ∧ s.linked = true ∧ s.pwrState = 0 ∧
      0 < s.sfm.slotLen) ∧
    (let h : SphHdr := { aHdr with ack := 7, ackv := true, nak := false }; let before : List OutFrame := [⟨1, 0x15, false, []⟩];
      let after : List OutFrame := [⟨8, 0x15, false, []⟩]; let f : OutFrame := ⟨7, 0x15, false, []⟩;
      let s : State := awake.put F.SPH_CTL_EN 1 |>.put F.SPH_STAT_LINK 1;
      let s : State := ({ s with sph := { s.sph with out := before ++ f :: after } } : State); s.canonical = true ∧
      (∀ c : Fin 8, (s.cip.core[c.val]).bind (fun x => x.result) = none) ∧ s.pairing = true ∧ s.linked = true ∧ h.ackv = true ∧
      h.nak = false ∧ s.sph.out = before ++ f :: after ∧ (∀ x ∈ before, x.seq ≠ h.ack.toNat) ∧ f.seq = h.ack.toNat ∧ s.sph.waiting = []) ∧
    (let h : SphHdr := { aHdr with ackv := true }; let s : State := awake.put F.SPH_CTL_EN 1 |>.put F.SPH_STAT_LINK 1;
      s.canonical = true ∧ (∀ c : Fin 8, (s.cip.core[c.val]).bind (fun x => x.result) = none) ∧ s.pairing = true ∧ s.linked = true ∧
      h.ackv = true ∧ h.nak = false ∧ s.sph.out = [] ∧ s.sph.waiting = []) ∧
    (let h : SphHdr := aHdr; let s : State := awake.put F.SPH_CTL_EN 1 |>.put F.SPH_STAT_LINK 1; s.canonical = true ∧
      (∀ c : Fin 8, (s.cip.core[c.val]).bind (fun x => x.result) = none) ∧ s.pairing = true ∧ s.linked = true ∧ h.ackv = false ∧
      h.nak = false) ∧
    (let h : SphHdr := { aHdr with ack := 7, ackv := false, nak := true };
      let s : State := awake.put F.SPH_CTL_EN 1 |>.put F.SPH_STAT_LINK 1;
      let s : State := ({ s with sph := { s.sph with out := [⟨1, 0x15, false, []⟩] } } : State); s.canonical = true ∧
      (∀ c : Fin 8, (s.cip.core[c.val]).bind (fun x => x.result) = none) ∧ s.pairing = true ∧ s.linked = true ∧ h.ackv = false ∧
      h.nak = true ∧ s.sph.out ≠ []) ∧
    (let s : State := awake.put F.SPH_CTL_EN 1 |>.put F.SPH_STAT_LINK 1;
      let s : State := ({ s with sph := { s.sph with out := [⟨1, 0x15, false, []⟩] } } : State); s.canonical = true ∧
      (∀ c : Fin 8, (s.cip.core[c.val]).bind (fun x => x.result) = none) ∧ s.pairing = true ∧ s.linked = true ∧ s.sph.out ≠ [] ∧
      (s.pairState ≠ 3 ∨ s.sph.peer ≠ 0)) ∧
    (let s : State := awake.put F.SPH_CTL_EN 1 |>.put F.SPH_STAT_LINK 1; s.canonical = true ∧
      (∀ c : Fin 8, (s.cip.core[c.val]).bind (fun x => x.result) = none) ∧ s.pairing = true ∧ s.linked = true ∧
      (s.sph.out = [] ∨ (s.pairState = 3 ∧ s.sph.peer = 0))) := by
  refine ⟨?_, ?_, ?_, ?_, ?_, ?_, ?_, ?_, ?_, ?_, ?_, ?_, ?_, ?_, ?_, ?_⟩ <;> decide +kernel

/-- States and operands that meet the hypotheses of SiphonMirroring, clause by clause. -/
theorem witness_SiphonMirroring :
    (let a : Nat := 0x10430000 + 0; let bs : List Byte := []; let s : State := awake; 0x10430000 ≤ a ∧ a + bs.length ≤ 0x10600000) ∧
    (let s : State := awake; s.canonical = true ∧ (s.pairing = false ∨ s.linked = false)) ∧
    (let h : SphHdr := ⟨2, 7, false, false, false⟩; let s : State := awake.put F.SPH_CTL_EN 1 |>.put F.SPH_STAT_LINK 1;
      s.canonical = true ∧ s.pairing = true ∧ s.linked = true ∧ h.seq.toNat ≠ ((s.takeHeader h).sph.rxSeq + 1) % 65536) ∧
    (let h : SphHdr := aHdr; let s : State := awake.put F.SPH_CTL_EN 1 |>.put F.SPH_STAT_LINK 1;
      let s : State := ({ s with sph := { s.sph with rxSeq := (h.seq.toNat + 65535) % 65536 } } : State); s.canonical = true ∧
      s.pairing = true ∧ s.linked = true ∧ h.seq.toNat = ((s.takeHeader h).sph.rxSeq + 1) % 65536 ∧
      let v : State := { s.takeHeader h with sph := { (s.takeHeader h).sph with rxSeq := h.seq.toNat } };
      let takes : Bool := v.follows || (v.pairState == 3 && v.sph.handover.isSome); let heir : Bool := v.pairState == 3 && v.sph.heir;
      takes = false ∧ heir = false) ∧
    (let h : SphHdr := aHdr; let s : State := awake.put F.SPH_CTL_EN 1 |>.put F.SPH_STAT_LINK 1;
      let s : State := ({ s with sph := { s.sph with rxSeq := (h.seq.toNat + 65535) % 65536 } } : State); s.canonical = true ∧
      s.pairing = true ∧ s.linked = true ∧ h.seq.toNat = ((s.takeHeader h).sph.rxSeq + 1) % 65536 ∧
      let v : State := { s.takeHeader h with sph := { (s.takeHeader h).sph with rxSeq := h.seq.toNat } }; v.follows = false) ∧
    (let h : SphHdr := aHdr; let s : State := awake.put F.SPH_CTL_EN 1 |>.put F.SPH_STAT_LINK 1;
      let s : State := ({ s with sph := { s.sph with rxSeq := (h.seq.toNat + 65535) % 65536 } } : State).put F.SPH_STAT_STATE 2;
      s.canonical = true ∧ s.pairing = true ∧ s.linked = true ∧ h.seq.toNat = ((s.takeHeader h).sph.rxSeq + 1) % 65536 ∧
      let v : State := { s.takeHeader h with sph := { (s.takeHeader h).sph with rxSeq := h.seq.toNat } }; v.follows = true) ∧
    (let h : SphHdr := { aHdr with seq := 7 };
      let s : State := awake.put F.SPH_STAT_STATE 5 |>.put F.SPH_CTL_EN 1 |>.put F.SPH_STAT_LINK 1;
      let s : State := ({ s with sph := { s.sph with rxSeq := (h.seq.toNat + 65535) % 65536 } } : State).put F.SPH_STAT_STATE 3;
      let s : State := ({ s with sph := { s.sph with rxSeq := 6, handover := some 5 } } : State); s.canonical = true ∧
      s.pairing = true ∧ s.linked = true ∧ h.seq.toNat = ((s.takeHeader h).sph.rxSeq + 1) % 65536 ∧
      let v : State := { s.takeHeader h with sph := { (s.takeHeader h).sph with rxSeq := h.seq.toNat } };
      let takes : Bool := v.follows || (v.pairState == 3 && v.sph.handover.isSome); let heir : Bool := v.pairState == 3 && v.sph.heir;
      v.pairState = 3 ∧ (takes = true ∨ heir = true)) ∧
    (let h : SphHdr := { aHdr with seq := 7 }; let s : State := awake;
      let s : State := (if 0 = 0 then s.put F.SPH_STAT_STATE 5 else (({ s with sph := { s.sph with handover := some 5, heir := true } } : State).put F.SPH_STAT_STATE 3)).put F.SPH_CTL_EN 1 |>.put F.SPH_STAT_LINK 1;
      let s : State := ({ s with sph := { s.sph with rxSeq := (h.seq.toNat + 65535) % 65536 } } : State);
      let s : State := ({ s with sph := { s.sph with rxSeq := 6 } } : State); s.canonical = true ∧ s.pairing = true ∧ s.linked = true ∧
      h.seq.toNat = ((s.takeHeader h).sph.rxSeq + 1) % 65536 ∧
      let v : State := { s.takeHeader h with sph := { (s.takeHeader h).sph with rxSeq := h.seq.toNat } };
      let takes : Bool := v.follows || (v.pairState == 3 && v.sph.handover.isSome); takes = true) ∧
    (let s : State := awake; s.canonical = true ∧ (s.shares = false ∨ s.linked = false ∨ s.sph.dirty = [] ∨ s.sph.waiting ≠ [])) ∧
    (let s : State := awake.put F.SPH_STAT_LINK 1;
      let s : State := ({ s.put F.SPH_STAT_STATE 3 with sph := { s.sph with peer := 4, handover := some 5, dirty := [(262140, 262143)] } } : State);
      s.canonical = true ∧ s.shares = true ∧ s.linked = true ∧ s.sph.waiting = [] ∧
      let marks := s.sph.dirty.flatMap (fun x => (List.range (x.2 + 1 - x.1)).map (fun i => x.1 + i)); marks ≠ []) := by
  refine ⟨?_, ?_, ?_, ?_, ?_, ?_, ?_, ?_, ?_, ?_⟩ <;> decide +kernel

/-- States and operands that meet the hypotheses of PairRoles, clause by clause. -/
theorem witness_PairRoles :
    (let s : State := awake; s.canonical = true ∧ (∀ c : Fin 8, (s.cip.core[c.val]).bind (fun x => x.result) = none) ∧
      (s.pairing = false ∨ s.linked = false)) ∧
    (let h : SphHdr := aHdr; let b : BeatBody := { aBeat with state := 2 };
      let s : State := awake.put F.SPH_CTL_EN 1 |>.put F.SPH_STAT_LINK 1; s.canonical = true ∧
      (∀ c : Fin 8, (s.cip.core[c.val]).bind (fun x => x.result) = none) ∧ s.pairing = true ∧ s.linked = true ∧
      let met := s.takeHeader h;
      let astray : Bool := h.ackv && b.state == 2 && (match (met.sph.out ++ met.sph.waiting).head? with | some f => f.seq != (h.ack.toNat + 1) % 65536 | none => false);
      let ahead := met.renumber h.ack.toNat;
      let u : State := if astray then { ahead with sph := { ahead.sph with aligning := false } } else met; u.pairState ≠ 3 ∧
      (b.state ≠ 3 ∨ u.sph.due = true)) ∧
    (let h : SphHdr := aHdr; let b : BeatBody := aBeat;
      let s : State := awake.put F.SPH_CTL_EN 1 |>.put F.SPH_STAT_LINK 1 |>.put F.SPH_STAT_STATE 1; s.canonical = true ∧
      (∀ c : Fin 8, (s.cip.core[c.val]).bind (fun x => x.result) = none) ∧ s.pairing = true ∧ s.linked = true ∧
      let met := s.takeHeader h;
      let astray : Bool := h.ackv && b.state == 2 && (match (met.sph.out ++ met.sph.waiting).head? with | some f => f.seq != (h.ack.toNat + 1) % 65536 | none => false);
      let ahead := met.renumber h.ack.toNat;
      let u : State := if astray then { ahead with sph := { ahead.sph with aligning := false } } else met; b.state = 3 ∧
      u.sph.due = false ∧ u.pairState = 1) ∧
    (let h : SphHdr := aHdr; let b : BeatBody := aBeat; let s : State := awake.put F.SPH_CTL_EN 1 |>.put F.SPH_STAT_LINK 1;
      s.canonical = true ∧ (∀ c : Fin 8, (s.cip.core[c.val]).bind (fun x => x.result) = none) ∧ s.pairing = true ∧ s.linked = true ∧
      let met := s.takeHeader h;
      let astray : Bool := h.ackv && b.state == 2 && (match (met.sph.out ++ met.sph.waiting).head? with | some f => f.seq != (h.ack.toNat + 1) % 65536 | none => false);
      let ahead := met.renumber h.ack.toNat;
      let u : State := if astray then { ahead with sph := { ahead.sph with aligning := false } } else met; b.state = 3 ∧
      u.sph.due = false ∧ u.pairState = 0) ∧
    (let h : SphHdr := aHdr; let b : BeatBody := aBeat;
      let s : State := awake.put F.SPH_CTL_EN 1 |>.put F.SPH_STAT_LINK 1 |>.put F.SPH_STAT_STATE (#[2,4,5].getD (0) 2) |>.put F.SPH_STAT_STATE 4;
      s.canonical = true ∧ (∀ c : Fin 8, (s.cip.core[c.val]).bind (fun x => x.result) = none) ∧ s.pairing = true ∧ s.linked = true ∧
      let met := s.takeHeader h;
      let astray : Bool := h.ackv && b.state == 2 && (match (met.sph.out ++ met.sph.waiting).head? with | some f => f.seq != (h.ack.toNat + 1) % 65536 | none => false);
      let ahead := met.renumber h.ack.toNat;
      let u : State := if astray then { ahead with sph := { ahead.sph with aligning := false } } else met; b.state = 3 ∧
      u.sph.due = false ∧ u.follows = true) ∧
    (let h : SphHdr := aHdr; let b : BeatBody := { aBeat with state := 4 };
      let s : State := awake.put F.SPH_CTL_EN 1 |>.put F.SPH_STAT_LINK 1 |>.put F.SPH_STAT_STATE 3; s.canonical = true ∧
      (∀ c : Fin 8, (s.cip.core[c.val]).bind (fun x => x.result) = none) ∧ s.pairing = true ∧ s.linked = true ∧
      let met := s.takeHeader h;
      let astray : Bool := h.ackv && b.state == 2 && (match (met.sph.out ++ met.sph.waiting).head? with | some f => f.seq != (h.ack.toNat + 1) % 65536 | none => false);
      let ahead := met.renumber h.ack.toNat;
      let u : State := if astray then { ahead with sph := { ahead.sph with aligning := false } } else met; u.pairState = 3 ∧ b.state = 4) ∧
    (let h : SphHdr := aHdr; let b : BeatBody := { aBeat with state := 5 }; let s : State := awake;
      let s : State := ({ s with cip := { s.cip with core := Vector.replicate 8 none } } : State).put F.SPH_CTL_EN 1 |>.put F.SPH_STAT_LINK 1 |>.put F.SPH_STAT_STATE 3;
      s.canonical = true ∧ (∀ c : Fin 8, (s.cip.core[c.val]).bind (fun x => x.result) = none) ∧ s.pairing = true ∧ s.linked = true ∧
      let met := s.takeHeader h;
      let astray : Bool := h.ackv && b.state == 2 && (match (met.sph.out ++ met.sph.waiting).head? with | some f => f.seq != (h.ack.toNat + 1) % 65536 | none => false);
      let ahead := met.renumber h.ack.toNat;
      let u : State := if astray then { ahead with sph := { ahead.sph with aligning := false } } else met; u.pairState = 3 ∧
      (b.state = 0 ∨ b.state = 1 ∨ b.state = 5)) ∧
    (let h : SphHdr := aHdr; let b : BeatBody := { aBeat with state := 2 };
      let s : State := awake.put F.SPH_CTL_EN 1 |>.put F.SPH_STAT_LINK 1 |>.put F.SPH_STAT_STATE 3; s.canonical = true ∧
      (∀ c : Fin 8, (s.cip.core[c.val]).bind (fun x => x.result) = none) ∧ s.pairing = true ∧ s.linked = true ∧
      let met := s.takeHeader h;
      let astray : Bool := h.ackv && b.state == 2 && (match (met.sph.out ++ met.sph.waiting).head? with | some f => f.seq != (h.ack.toNat + 1) % 65536 | none => false);
      let ahead := met.renumber h.ack.toNat;
      let u : State := if astray then { ahead with sph := { ahead.sph with aligning := false } } else met; u.pairState = 3 ∧ b.state = 2) ∧
    (let h : SphHdr := aHdr; let b : BeatBody := aBeat;
      let s : State := awake.put F.SPH_CTL_EN 1 |>.put F.SPH_STAT_LINK 1 |>.put F.SPH_STAT_STATE 3; s.canonical = true ∧
      (∀ c : Fin 8, (s.cip.core[c.val]).bind (fun x => x.result) = none) ∧ s.pairing = true ∧ s.linked = true ∧
      let met := s.takeHeader h;
      let astray : Bool := h.ackv && b.state == 2 && (match (met.sph.out ++ met.sph.waiting).head? with | some f => f.seq != (h.ack.toNat + 1) % 65536 | none => false);
      let ahead := met.renumber h.ack.toNat;
      let u : State := if astray then { ahead with sph := { ahead.sph with aligning := false } } else met; u.pairState = 3 ∧
      b.state = 3 ∧ let mine := u.get F.SPH_STAT_TERM;
      let loses : Bool := u.sph.fresh && u.sph.handover.isNone && decide (mine < b.term.toNat ∨ (mine = b.term.toNat ∧ u.peerUid < u.uid));
      loses = false) ∧
    (let h : SphHdr := aHdr; let b : BeatBody := aBeat; let s : State := awake;
      let s : State := ({ s with sph := { s.sph with fresh := true, handover := none } } : State).put F.SPH_CTL_EN 1 |>.put F.SPH_STAT_LINK 1 |>.put F.SPH_STAT_STATE 3;
      let s : State := (s.put F.SPH_STAT_TERM (b.term.toNat - 1)); s.canonical = true ∧
      (∀ c : Fin 8, (s.cip.core[c.val]).bind (fun x => x.result) = none) ∧ s.pairing = true ∧ s.linked = true ∧
      let met := s.takeHeader h;
      let astray : Bool := h.ackv && b.state == 2 && (match (met.sph.out ++ met.sph.waiting).head? with | some f => f.seq != (h.ack.toNat + 1) % 65536 | none => false);
      let ahead := met.renumber h.ack.toNat;
      let u : State := if astray then { ahead with sph := { ahead.sph with aligning := false } } else met; u.pairState = 3 ∧
      b.state = 3 ∧ let mine := u.get F.SPH_STAT_TERM;
      let loses : Bool := u.sph.fresh && u.sph.handover.isNone && decide (mine < b.term.toNat ∨ (mine = b.term.toNat ∧ u.peerUid < u.uid));
      loses = true) ∧
    (let s : State := awake.put F.SPH_STAT_STATE 4 |>.put F.SPH_CTL_AUTO (1); s.canonical = true ∧
      (∀ c : Fin 8, (s.cip.core[c.val]).bind (fun x => x.result) = none) ∧ s.pairState = 4 ∧ s.flag F.SPH_CTL_AUTO = true) ∧
    (let s : State := awake.put F.SPH_STAT_STATE 4 |>.put F.SPH_CTL_AUTO 0; s.canonical = true ∧
      (∀ c : Fin 8, (s.cip.core[c.val]).bind (fun x => x.result) = none) ∧ s.pairState = 4 ∧ s.flag F.SPH_CTL_AUTO = false) ∧
    (let s : State := awake.put F.SPH_STAT_STATE 2; s.canonical = true ∧
      (∀ c : Fin 8, (s.cip.core[c.val]).bind (fun x => x.result) = none) ∧ s.pairState = 2) ∧
    (let s : State := awake; s.canonical = true ∧ (∀ c : Fin 8, (s.cip.core[c.val]).bind (fun x => x.result) = none) ∧ s.pairState ≠ 2 ∧
      s.pairState ≠ 4) ∧
    (let s : State := awake.put F.SPH_STAT_STATE 3; let s : State := ({ s with sph := { s.sph with peer := 2 } } : State);
      s.canonical = true ∧ (∀ c : Fin 8, (s.cip.core[c.val]).bind (fun x => x.result) = none) ∧ s.pairState = 3 ∧
      (s.sph.peer ≠ 0 ∨ s.sph.mirror ≠ [])) ∧
    (let s : State := awake; s.canonical = true ∧ (∀ c : Fin 8, (s.cip.core[c.val]).bind (fun x => x.result) = none) ∧
      (s.pairState ≠ 3 ∨ (s.sph.peer = 0 ∧ s.sph.mirror = []))) ∧
    (let s : State := awake; s.canonical = true ∧ (∀ c : Fin 8, (s.cip.core[c.val]).bind (fun x => x.result) = none) ∧ s.sph.due = false) ∧
    (let s : State := awake; let s : State := ({ s with sph := { s.sph with due := true } } : State); s.canonical = true ∧
      (∀ c : Fin 8, (s.cip.core[c.val]).bind (fun x => x.result) = none) ∧ s.sph.due = true) ∧
    (let s : State := awake; s.canonical = true ∧ (∀ c : Fin 8, (s.cip.core[c.val]).bind (fun x => x.result) = none) ∧ s.sph.lift = none) ∧
    (let p : Nat := 262100 + 0; let s : State := awake; let s : State := ({ s with sph := { s.sph with lift := some p } } : State);
      s.canonical = true ∧ (∀ c : Fin 8, (s.cip.core[c.val]).bind (fun x => x.result) = none) ∧ s.sph.lift = some p) ∧
    (let r : Req := 64; let s : State := awake.put F.SPH_STAT_STATE 5; s.canonical = true ∧
      (∀ c : Fin 8, (s.cip.core[c.val]).bind (fun x => x.result) = none) ∧ s.admits r.val Reg.SPH_CMD true = true ∧
      let c := s.served r.val Reg.SPH_CMD; s.pairState = 5 ∧ (s.linked = false ∨ s.sph.peer ≠ 3)) ∧
    (let r : Req := 64; let s : State := awake.put F.SPH_STAT_STATE 5 |>.put F.SPH_STAT_LINK 1;
      let s : State := ({ s with sph := { s.sph with peer := 3 } } : State); s.canonical = true ∧
      (∀ c : Fin 8, (s.cip.core[c.val]).bind (fun x => x.result) = none) ∧ s.admits r.val Reg.SPH_CMD true = true ∧
      let c := s.served r.val Reg.SPH_CMD; s.pairState = 5 ∧ s.linked = true ∧ s.sph.peer = 3) ∧
    (let r : Req := 64; let s : State := awake; s.canonical = true ∧
      (∀ c : Fin 8, (s.cip.core[c.val]).bind (fun x => x.result) = none) ∧ s.admits r.val Reg.SPH_CMD true = true ∧
      let c := s.served r.val Reg.SPH_CMD; s.pairState ≠ 5) ∧
    (let r : Req := 64; let s : State := awake.put F.SPH_STAT_STATE 1; s.canonical = true ∧
      (∀ c : Fin 8, (s.cip.core[c.val]).bind (fun x => x.result) = none) ∧ s.admits r.val Reg.SPH_CMD true = true ∧
      let c := s.served r.val Reg.SPH_CMD; (s.pairState = 1 ∨ s.follows = true)) ∧
    (let r : Req := 64; let s : State := awake; s.canonical = true ∧
      (∀ c : Fin 8, (s.cip.core[c.val]).bind (fun x => x.result) = none) ∧ s.admits r.val Reg.SPH_CMD true = true ∧
      let c := s.served r.val Reg.SPH_CMD; s.pairState ≠ 1 ∧ s.follows = false) ∧
    (let r : Req := 64; let s : State := awake; s.canonical = true ∧
      (∀ c : Fin 8, (s.cip.core[c.val]).bind (fun x => x.result) = none) ∧ s.admits r.val Reg.SPH_CMD true = true ∧
      let c := s.served r.val Reg.SPH_CMD; (s.pairState ≠ 3 ∨ s.sph.peer ≠ 4 ∨ s.sph.handover ≠ none)) ∧
    (let r : Req := 64; let s : State := awake.put F.SPH_STAT_STATE 3;
      let s : State := ({ s with sph := { s.sph with peer := 4 } } : State); s.canonical = true ∧
      (∀ c : Fin 8, (s.cip.core[c.val]).bind (fun x => x.result) = none) ∧ s.admits r.val Reg.SPH_CMD true = true ∧
      let c := s.served r.val Reg.SPH_CMD; s.pairState = 3 ∧ s.sph.peer = 4 ∧ s.sph.handover = none ∧ s.sph.later = []) ∧
    (let r : Req := 64; let s : State := awake.put F.SPH_STAT_STATE 3;
      let s : State := ({ s with sph := { s.sph with peer := 4 } } : State);
      let s : State := ({ s with sph := { s.sph with later := [.frame 0x15 []] } } : State); s.canonical = true ∧
      (∀ c : Fin 8, (s.cip.core[c.val]).bind (fun x => x.result) = none) ∧ s.admits r.val Reg.SPH_CMD true = true ∧
      let c := s.served r.val Reg.SPH_CMD; s.pairState = 3 ∧ s.sph.peer = 4 ∧ s.sph.handover = none ∧ s.sph.later ≠ []) ∧
    (let s : State := awake; s.canonical = true ∧ (∀ c : Fin 8, (s.cip.core[c.val]).bind (fun x => x.result) = none) ∧
      (s.sph.handover = none ∨ s.pairState ≠ 3 ∨ s.sfm.launches ≠ [] ∨ s.tx.hop ≠ none ∨ s.tx.cur ≠ none ∨ s.sph.out ≠ [] ∨ s.sph.waiting ≠ [] ∨ s.sph.later ≠ [] ∨ s.sph.dirty ≠ [])) ∧
    (let slot : Nat := 0; let s : State := awake;
      let s : State := ({ s with sph := { s.sph with handover := some slot } } : State).put F.SPH_STAT_STATE 3; s.canonical = true ∧
      (∀ c : Fin 8, (s.cip.core[c.val]).bind (fun x => x.result) = none) ∧ s.sph.handover = some slot ∧ s.pairState = 3 ∧
      s.sfm.launches = [] ∧ s.tx.hop = none ∧ s.tx.cur = none ∧ s.sph.out = [] ∧ s.sph.waiting = [] ∧ s.sph.later = [] ∧
      s.sph.dirty = []) := by
  refine ⟨?_, ?_, ?_, ?_, ?_, ?_, ?_, ?_, ?_, ?_, ?_, ?_, ?_, ?_, ?_, ?_, ?_, ?_, ?_, ?_, ?_, ?_, ?_, ?_, ?_, ?_, ?_, ?_, ?_, ?_⟩ <;> decide +kernel

/-- States and operands that meet the hypotheses of HostSpi, clause by clause. -/
theorem witness_HostSpi :
    (let s : State := awake.setBit Reg.SYS_READY 2 false; s.canonical = true ∧ s.ready 2 = false) ∧
    (let both : Bool := false; let s : State := awake; s.canonical = true ∧ s.ready 2 = true ∧ s.spi.sel = none ∧
      (both = false ∨ s.spi.ignored ≠ none)) ∧
    (let s : State := awake; s.canonical = true ∧ s.ready 2 = true ∧ s.spi.sel = none ∧ s.spi.ignored = none) ∧
    (let cs : Select := .n; let s : State := awake;
      let s : State := ({ s with spi := { s.spi with sel := some (if cs = .s then .n else .s) } } : State); s.canonical = true ∧
      let other : Select := if cs = .s then .n else .s; s.ready 2 = true ∧ s.spi.sel = some other) ∧
    (let cs : Select := .n; let s : State := awake; let s : State := ({ s with spi := { s.spi with sel := some cs } } : State);
      s.canonical = true ∧ s.ready 2 = true ∧ s.spi.sel = some cs ∧ s.spi.bad = false ∧ s.spi.ignored = none) ∧
    (let cs : Select := .n; let s : State := awake; let s : State := ({ s with spi := { s.spi with sel := some cs } } : State);
      let s : State := ({ s with spi := { s.spi with ignored := some cs } } : State); s.canonical = true ∧ s.ready 2 = true ∧
      s.spi.sel = some cs ∧ s.spi.bad = false ∧ s.spi.ignored ≠ none) ∧
    (let cs : Select := .n; let n : Nat := 0; let s : State := awake;
      let s : State := ({ s with spi := { s.spi with sel := some (if cs = .s then .n else .s) } } : State);
      let s : State := ({ s with spi := { s.spi with ignored := some cs } } : State); s.canonical = true ∧
      let other : Select := if cs = .s then .n else .s; s.spi.sel = some other ∧ s.spi.ignored = some cs) ∧
    (let s : State := awake; let s : State := ({ s with spi := { s.spi with collided := true } } : State); s.canonical = true ∧
      s.spi.sel = none ∧ s.spi.collided = true) ∧
    (let cs : Select := secureSel; let addr : Word := 0x1000; let s : State := awake;
      let s : State := ({ s with spi := { s.spi with sel := some cs } } : State);
      let s : State := ({ s with spi := { s.spi with cfg := (s.spi.cfg &&& 0xFFFFFFFD) ||| (if false then 2 else 0) } } : State);
      let s : State := ({ s with flc := { s.flc with op := some ⟨2, 0x40000, []⟩ } } : State); s.canonical = true ∧ s.ready 2 = true ∧
      s.spi.sel = some cs ∧ s.spi.clocks = none ∧ s.spi.bad = false ∧ let crcOn := s.spi.cfg.getLsbD 1; crcOn = false ∧
      addr.toNat % 4 = 0 ∧ s.flashWaits addr.toNat = true) ∧
    (let cs : Select := secureSel; let addr : Word := BitVec.ofNat 32 (0x10780000); let d0 : Word := 0; let d1 : Word := 0;
      let s : State := awake; let s : State := ({ s with spi := { s.spi with sel := some cs } } : State);
      let s : State := ({ s with spi := { s.spi with cfg := (s.spi.cfg &&& 0xFFFFFFFD) ||| (if false then 2 else 0) } } : State);
      let u : State := (s.busWrite (64 + (if cs = .s then 0 else 1)) addr.toNat d0).1;
      let w : State := ((s.busWrite (64 + (if cs = .s then 0 else 1)) addr.toNat d0).1.busWrite (64 + (if cs = .s then 0 else 1)) (addr.toNat + 4) d1).1;
      s.canonical = true ∧ let b : Nat := if cs = .s then 0 else 1; s.ready 2 = true ∧ s.spi.sel = some cs ∧ s.spi.clocks = none ∧
      s.spi.bad = false ∧ let crcOn := s.spi.cfg.getLsbD 1; crcOn = false ∧ addr.toNat % 4 = 0 ∧ addr.toNat + 4 < 2 ^ 32 ∧
      u.ready 2 = true ∧ u.spi.sel = some cs ∧ s.busWrite (64 + b) addr.toNat d0 = (u , none) ∧
      u.busWrite (64 + b) (addr.toNat + 4) d1 = (w , none)) ∧
    (let cs : Select := secureSel; let addr : Word := BitVec.ofNat 32 (0x10780000); let d0 : Word := 0; let d1 : Word := 0;
      let s : State := awake; let s : State := ({ s with spi := { s.spi with sel := some cs } } : State);
      let s : State := ({ s with spi := { s.spi with cfg := (s.spi.cfg &&& 0xFFFFFFFD) ||| (if false then 2 else 0) } } : State);
      let u : State := (s.busWrite (64 + (if cs = .s then 0 else 1)) addr.toNat d0).1;
      let w : State := ((s.busWrite (64 + (if cs = .s then 0 else 1)) addr.toNat d0).1.busWrite (64 + (if cs = .s then 0 else 1)) (addr.toNat) d1).1;
      s.canonical = true ∧ let b : Nat := if cs = .s then 0 else 1; s.ready 2 = true ∧ s.spi.sel = some cs ∧ s.spi.clocks = none ∧
      s.spi.bad = false ∧ let crcOn := s.spi.cfg.getLsbD 1; crcOn = false ∧ addr.toNat % 4 = 0 ∧ addr.toNat + 4 < 2 ^ 32 ∧
      u.ready 2 = true ∧ u.spi.sel = some cs ∧ s.busWrite (64 + b) addr.toNat d0 = (u , none) ∧
      u.busWrite (64 + b) addr.toNat d1 = (w , none)) ∧
    (let cs : Select := secureSel; let addr : Word := 0x10780000; let s : State := awake;
      let s : State := ({ s with spi := { s.spi with sel := some cs } } : State);
      let s : State := ({ s with spi := { s.spi with cfg := (s.spi.cfg &&& 0xFFFFFFFD) ||| (if false then 2 else 0) } } : State);
      s.canonical = true ∧ let b : Nat := if cs = .s then 0 else 1; s.ready 2 = true ∧ s.spi.sel = some cs ∧ s.spi.clocks = none ∧
      s.spi.bad = false ∧ let quad := s.spi.cfg.getLsbD 0; let crcOn := s.spi.cfg.getLsbD 1;
      let waits := if quad then max 1 (bitsOf s.spi.cfg.toNat 8 4) else bitsOf s.spi.cfg.toNat 8 4; let words := if quad then 8 else 32;
      crcOn = false ∧ addr.toNat % 4 = 0 ∧ addr.toNat + 4 < 2 ^ 32 ∧
      (match ({ s with spi := { s.spi with clocks := some (words * (5 + waits)), out := [] } } : State).busRead (64 + b) addr.toNat with
       | (u, .ok _) => decide (
           s.flashWaits addr.toNat = false ∧
             (match u.busRead (64 + b) (addr.toNat + 4) with
              | (_, .ok _) => decide (
                  u.flashWaits (addr.toNat + 4) = false)
              | _ => false) = true)
       | _ => false) = true) ∧
    (let cs : Select := secureSel; let addr : Word := 0x10780000; let s : State := awake;
      let s : State := ({ s with spi := { s.spi with sel := some cs } } : State);
      let s : State := ({ s with spi := { s.spi with cfg := (s.spi.cfg &&& 0xFFFFFFFD) ||| (if false then 2 else 0) } } : State);
      s.canonical = true ∧ let b : Nat := if cs = .s then 0 else 1; s.ready 2 = true ∧ s.spi.sel = some cs ∧ s.spi.clocks = none ∧
      s.spi.bad = false ∧ let quad := s.spi.cfg.getLsbD 0; let crcOn := s.spi.cfg.getLsbD 1;
      let waits := if quad then max 1 (bitsOf s.spi.cfg.toNat 8 4) else bitsOf s.spi.cfg.toNat 8 4; let words := if quad then 8 else 32;
      crcOn = false ∧ addr.toNat % 4 = 0 ∧ addr.toNat + 4 < 2 ^ 32 ∧
      (match ({ s with spi := { s.spi with clocks := some (words * (5 + waits)), out := [] } } : State).busRead (64 + b) addr.toNat with
       | (u, .ok _) => decide (
           s.flashWaits addr.toNat = false ∧
             (match u.busRead (64 + b) addr.toNat with
              | (_, .ok _) => decide (
                  u.flashWaits addr.toNat = false)
              | _ => false) = true)
       | _ => false) = true) ∧
    (let cs : Select := secureSel; let addr : Word := 0x10780000; let d : Word := 0; let s : State := awake;
      let s : State := ({ s with spi := { s.spi with sel := some cs } } : State);
      let s : State := ({ s with spi := { s.spi with cfg := (s.spi.cfg &&& 0xFFFFFFFD) ||| (if true then 2 else 0) } } : State);
      let hcrc : Word := BitVec.ofNat 32 (crc16Spi ((bytesLe 4 0x02000001).reverse ++ (bytesLe 4 addr.toNat).reverse ++ (bytesLe 4 d.toNat).reverse) % 65536 + 65536 * s.free);
      s.canonical = true ∧ let b : Nat := if cs = .s then 0 else 1; s.ready 2 = true ∧ s.spi.sel = some cs ∧ s.spi.clocks = none ∧
      s.spi.bad = false ∧ let crcOn := s.spi.cfg.getLsbD 1; crcOn = true ∧ addr.toNat % 4 = 0 ∧
      let crc := crc16Spi ((bytesLe 4 0x02000001).reverse ++ (bytesLe 4 addr.toNat).reverse ++ (bytesLe 4 d.toNat).reverse) % 65536;
      hcrc.toNat % 65536 = crc ∧ (match s.busWrite (64 + b) addr.toNat d with | (_, none) => true | _ => false) = true) ∧
    (let cs : Select := .n; let addr : Word := BitVec.ofNat 32 0x0FFFFFF0; let hcrc : Word := 0; let s : State := awake;
      let s : State := ({ s with spi := { s.spi with sel := some cs } } : State);
      let s : State := ({ s with spi := { s.spi with cfg := (s.spi.cfg &&& 0xFFFFFFFD) ||| (if true then 2 else 0) } } : State);
      s.canonical = true ∧ s.ready 2 = true ∧ s.spi.sel = some cs ∧ s.spi.clocks = none ∧ s.spi.bad = false ∧
      let crcOn := s.spi.cfg.getLsbD 1; crcOn = true ∧ addr.toNat % 4 = 0 ∧ s.flashWaits addr.toNat = false ∧
      let crc := crc16Spi ((bytesLe 4 0x0B000001).reverse ++ (bytesLe 4 addr.toNat).reverse) % 65536; hcrc.toNat % 65536 ≠ crc) ∧
    (let cs : Select := secureSel; let addr : Word := 0x10780000; let s : State := awake;
      let s : State := ({ s with spi := { s.spi with sel := some cs } } : State);
      let s : State := ({ s with spi := { s.spi with cfg := (s.spi.cfg &&& 0xFFFFFFFD) ||| (if true then 2 else 0) } } : State);
      let hcrc : Word := BitVec.ofNat 32 (crc16Spi ((bytesLe 4 0x0B000001).reverse ++ (bytesLe 4 addr.toNat).reverse) % 65536 + 65536 * s.free);
      s.canonical = true ∧ let b : Nat := if cs = .s then 0 else 1; s.ready 2 = true ∧ s.spi.sel = some cs ∧ s.spi.clocks = none ∧
      s.spi.bad = false ∧ let quad := s.spi.cfg.getLsbD 0; let crcOn := s.spi.cfg.getLsbD 1;
      let waits := if quad then max 1 (bitsOf s.spi.cfg.toNat 8 4) else bitsOf s.spi.cfg.toNat 8 4; let words := if quad then 8 else 32;
      crcOn = true ∧ addr.toNat % 4 = 0 ∧ s.flashWaits addr.toNat = false ∧
      let crc := crc16Spi ((bytesLe 4 0x0B000001).reverse ++ (bytesLe 4 addr.toNat).reverse) % 65536; hcrc.toNat % 65536 = crc ∧
      (match ({ s with spi := { s.spi with clocks := some (words * (6 + waits)), out := [] } } : State).busRead (64 + b) addr.toNat with | (_, .ok _) => true | _ => false) = true) ∧
    (let cs : Select := .n; let cmd : Word := 0; let s : State := awake;
      let s : State := ({ s with spi := { s.spi with sel := some cs } } : State); s.canonical = true ∧ s.ready 2 = true ∧
      s.spi.sel = some cs ∧ s.spi.clocks = none ∧ s.spi.bad = false ∧ (∀ op ∈ [0x02, 0x03, 0x0B, 0x0C], cmd.toNat / 2 ^ 24 ≠ op)) ∧
    (let cs : Select := .n; let n : Nat := 0; let addr : Word := BitVec.ofNat 32 0x0FFFFFF0; let s : State := awake;
      let s : State := ({ s with spi := { s.spi with sel := some cs } } : State); s.canonical = true ∧ s.ready 2 = true ∧
      s.spi.sel = some cs ∧ s.spi.clocks = none ∧ s.spi.bad = false ∧ n < 2 ^ 24 ∧ (512 ≤ n ∨ n = 0 ∨ 256 < n ∨ addr.toNat % 4 ≠ 0)) ∧
    (let cs : Select := secureSel; let w : SpiWrite := ⟨secureSel, 0x02000001, 0, [], none, 0⟩;
      let r : SpiRead := ⟨secureSel, 0x0B000001, 0, none, []⟩; let s : State := awake; s.canonical = true ∧ w.cs = cs ∧ r.cs = cs ∧
      (s.ready 2 = false ∨ s.spi.sel ≠ some cs ∨ s.spi.clocks ≠ none ∨ s.spi.bad = true)) := by
  refine ⟨?_, ?_, ?_, ?_, ?_, ?_, ?_, ?_, ?_, ?_, ?_, ?_, ?_, ?_, ?_, ?_, ?_, ?_, ?_⟩ <;> decide +kernel

/-- States and operands that meet the hypotheses of ManagementPort, clause by clause. -/
theorem witness_ManagementPort :
    (let seen : Bool := true; let a : Byte := 0x77; let s : State := awake; s.canonical = true ∧
      let open' : Prop := s.ready 3 = true ∧ s.flag F.MGB_ADDR_ASSIGNED = false ∧ seen = true; open' ∧ 8 ≤ a.toNat ∧ a.toNat < 0x78 ∧
      a.toNat ≠ 0x58) ∧
    (let seen : Bool := true; let a : Byte := 0; let s : State := awake; s.canonical = true ∧
      let open' : Prop := s.ready 3 = true ∧ s.flag F.MGB_ADDR_ASSIGNED = false ∧ seen = true;
      (¬open' ∨ a.toNat < 8 ∨ 0x78 ≤ a.toNat ∨ a.toNat = 0x58)) ∧
    (let seen : Bool := false; let s : State := awake; s.canonical = true ∧
      let open' : Prop := s.ready 3 = true ∧ s.flag F.MGB_ADDR_ASSIGNED = false ∧ seen = true; (¬open')) ∧
    (let s : State := awake; s.canonical = true ∧ (s.ready 3 = false ∨ s.flag F.MGB_ADDR_ASSIGNED = false)) ∧
    (let p : List Byte := [1, 2, 3]; let s : State := awake.put F.MGB_ADDR_ASSIGNED (1); s.canonical = true ∧ s.ready 3 = true ∧
      s.flag F.MGB_ADDR_ASSIGNED = true ∧ 1 ≤ p.length ∧ p.length < 4) ∧
    (let p : List Byte := []; let s : State := awake.put F.MGB_ADDR_ASSIGNED (1); s.canonical = true ∧ s.ready 3 = true ∧
      s.flag F.MGB_ADDR_ASSIGNED = true ∧ p.length = 0) ∧
    (let p : List Byte := [0xFC, 0xFF, 0xFF, 0xFF]; let w : List Byte := [1, 2, 3, 4]; let x : List Byte := [5];
      let s : State := awake.put F.MGB_ADDR_ASSIGNED (1); s.canonical = true ∧ s.ready 3 = true ∧ s.flag F.MGB_ADDR_ASSIGNED = true ∧
      p.length = 4 ∧ w.length = 4 ∧ x.length < 4 ∧ ofBytesLe p % 4 = 0) ∧
    (let p : List Byte := [0xFD, 0xFF, 0xFF, 0xFF]; let w : List Byte := [1, 2, 3, 4]; let x : List Byte := [5];
      let s : State := awake.put F.MGB_ADDR_ASSIGNED (1); s.canonical = true ∧ s.ready 3 = true ∧ s.flag F.MGB_ADDR_ASSIGNED = true ∧
      p.length = 4 ∧ w.length = 4 ∧ x.length < 4 ∧ ofBytesLe p % 4 ≠ 0) ∧
    (let p : List Byte := [0xFC, 0xFF, 0xFF, 0xFF]; let w : List Byte := [1, 2, 3, 4]; let x : List Byte := [5]; let cmd : Byte := 0;
      let s : State := awake.put F.MGB_ADDR_ASSIGNED (1); s.canonical = true ∧ s.ready 3 = true ∧ s.flag F.MGB_ADDR_ASSIGNED = true ∧
      p.length = 4 ∧ w.length = 4 ∧ x.length < 4 ∧ cmd ≠ 0x10 ∧ cmd ≠ 0x20 ∧ cmd ≠ 0x30) ∧
    (let s : State := awake.put F.MGB_ADDR_ASSIGNED (1); s.canonical = true ∧ s.ready 3 = true ∧ s.flag F.MGB_ADDR_ASSIGNED = true ∧
      let a := s.mgb.ptr.toNat; s.flashWaits a = false) ∧
    (let s : State := awake.put F.MGB_ADDR_ASSIGNED (1);
      let s : State := ({ s with flc := { s.flc with op := some ⟨2, 0x40000, []⟩ } } : State); s.canonical = true ∧ s.ready 3 = true ∧
      s.flag F.MGB_ADDR_ASSIGNED = true ∧ let a := s.mgb.ptr.toNat; s.flashWaits a = true) ∧
    (let seq : Byte := 0;
      let s : State := awake.put F.MGB_ADDR_ASSIGNED (1) |>.put F.MGB_ATTNSTAT_PENDING (1) |>.put F.MGB_ATTNSTAT_SEQ (seq.toNat);
      s.canonical = true ∧ s.ready 3 = true ∧ s.flag F.MGB_ADDR_ASSIGNED = true ∧ s.flag F.MGB_ATTNSTAT_PENDING = true ∧
      s.get F.MGB_ATTNSTAT_SEQ = seq.toNat) ∧
    (let seq : Byte := 0; let s : State := awake.put F.MGB_ADDR_ASSIGNED (1); s.canonical = true ∧ s.ready 3 = true ∧
      s.flag F.MGB_ADDR_ASSIGNED = true ∧ (s.flag F.MGB_ATTNSTAT_PENDING = false ∨ s.get F.MGB_ATTNSTAT_SEQ ≠ seq.toNat)) ∧
    (let s : State := awake.put F.MGB_ADDR_ASSIGNED (1) |>.put F.MGB_ATTN_EN (1) |>.put F.MGB_ATTNSTAT_PENDING (1); s.canonical = true ∧
      s.ready 3 = true ∧ s.flag F.MGB_ADDR_ASSIGNED = true ∧ s.flag F.MGB_ATTN_EN = true ∧ s.flag F.MGB_ATTNSTAT_PENDING = true) ∧
    (let s : State := awake.put F.MGB_ADDR_ASSIGNED (1); s.canonical = true ∧ s.ready 3 = true ∧ s.flag F.MGB_ADDR_ASSIGNED = true ∧
      (s.flag F.MGB_ATTN_EN = false ∨ s.flag F.MGB_ATTNSTAT_PENDING = false)) ∧
    (let a : BitVec 7 := 0; let seen : Bool := true; let s : State := awake;
      let s : State := (s.put F.MGB_ADDR_ASSIGNED 1).put F.MGB_ADDR_ADDR a.toNat |>.put F.PWR_STAT_STATE 2 |>.put F.MGB_CFG_COMPAT (1);
      s.canonical = true ∧
      let mine := if s.flag F.MGB_ADDR_ASSIGNED then decide (a.toNat = s.get F.MGB_ADDR_ADDR) else seen && decide (a.toNat = 0x58);
      let asleep : Prop := s.pwrState = 2 ∨ s.pwrState = 3; mine = true ∧ asleep ∧ s.flag F.MGB_CFG_COMPAT = true) ∧
    (let a : BitVec 7 := 0; let seen : Bool := true; let s : State := awake;
      let s : State := (s.put F.MGB_ADDR_ASSIGNED 1).put F.MGB_ADDR_ADDR a.toNat |>.put F.PWR_STAT_STATE 2; s.canonical = true ∧
      let mine := if s.flag F.MGB_ADDR_ASSIGNED then decide (a.toNat = s.get F.MGB_ADDR_ADDR) else seen && decide (a.toNat = 0x58);
      let asleep : Prop := s.pwrState = 2 ∨ s.pwrState = 3; mine = true ∧ asleep ∧ s.flag F.MGB_CFG_COMPAT = false) ∧
    (let a : BitVec 7 := 0; let seen : Bool := true; let s : State := awake; s.canonical = true ∧
      let mine := if s.flag F.MGB_ADDR_ASSIGNED then decide (a.toNat = s.get F.MGB_ADDR_ADDR) else seen && decide (a.toNat = 0x58);
      let asleep : Prop := s.pwrState = 2 ∨ s.pwrState = 3; (mine = false ∨ ¬asleep)) ∧
    (let s : State := awake;
      let s : State := ({ s with mgb := { s.mgb with matcherHold := true } } : State).setBit Reg.SYS_READY 3 false |>.setBit Reg.SYS_READY 3 false;
      let s : State := ({ s with mgb := { s.mgb with matcherHold := true } } : State); s.canonical = true ∧ s.mgb.matcherHold = true ∧
      s.ready 3 = false) ∧
    (let s : State := awake; s.canonical = true ∧ (s.mgb.matcherHold = false ∨ s.ready 3 = true)) ∧
    (let r : Req := 64; let s : State := awake.put F.MGB_ATTNSTAT_PENDING (1); s.canonical = true ∧
      s.admits r.val Reg.MGB_ATTNREQ true = true ∧ s.flag F.MGB_ATTNSTAT_PENDING = true) ∧
    (let r : Req := 64; let s : State := awake; s.canonical = true ∧ s.admits r.val Reg.MGB_ATTNREQ true = true ∧
      s.flag F.MGB_ATTNSTAT_PENDING = false) := by
  refine ⟨?_, ?_, ?_, ?_, ?_, ?_, ?_, ?_, ?_, ?_, ?_, ?_, ?_, ?_, ?_, ?_, ?_, ?_, ?_, ?_, ?_, ?_⟩ <;> decide +kernel

/-- States and operands that meet the hypotheses of EthernetMacs, clause by clause. -/
theorem witness_EthernetMacs :
    (let m : Fin 2 := 1; let s : State := awake.setBit Reg.SYS_READY 5 false; s.canonical = true ∧
      (s.ready (4 + m.val) = false ∨ s.pwr.latch ≠ none)) ∧
    (let m : Fin 2 := 1; let f : EthFrame := ⟨List.replicate 60 0xFF, false, 3⟩; let dt : Nat := 0; let s : State := awake;
      s.canonical = true ∧
      let run (c : State) (n : Nat) : State := { c with mac := c.mac.map (fun x => { x with pause := x.pause - n }), ptp := if c.ready 4 then c.ptp.add (n * c.get F.ETH_PTP_INC_INC : Nat) else c.ptp };
      let t := run s dt; s.ready (4 + m.val) = true ∧ s.pwr.latch = none ∧ let r1 := t.resumeTx m;
      let t1 := r1.setReg (Reg.ETH_STAT m.val) (BitVec.ofNat 32 ((r1.reg (Reg.ETH_STAT m.val)).toNat / 16 * 16 + f.status.toNat));
      (t1.flag (F.ETH_CTL_RXEN m.val) = false ∨ t1.flag (F.ETH_STAT_RXHALT m.val) = true)) ∧
    (let m : Fin 2 := 1; let f : EthFrame := ⟨List.replicate 60 0x02, false, 3⟩; let dt : Nat := 0; let s : State := awake;
      let s : State := ((({ s with pwr := { s.pwr with latch := none } } : State).put (F.ETH_CTL_RXEN m.val) 1).put (F.ETH_STAT_RXHALT m.val) 0).put (F.ETH_CTL_PROMISC m.val) 0;
      let s : State := ((s.put (F.ETH_RXBASE_BASE m.val) 0x10780000).put (F.ETH_RXIDX_IDX m.val) 0);
      let s : State := s.setMac m { s.macAt m with due := false } |>.putBytes 0x10780000 [0,2,0x78,0x10,0x20,0,0,0x80];
      let s : State := (s.put (F.ETH_CTL_MCAST m.val) 0).put (F.ETH_CTL_PTP m.val) 0; s.canonical = true ∧
      let run (c : State) (n : Nat) : State := { c with mac := c.mac.map (fun x => { x with pause := x.pause - n }), ptp := if c.ready 4 then c.ptp.add (n * c.get F.ETH_PTP_INC_INC : Nat) else c.ptp };
      let t := run s dt; s.ready (4 + m.val) = true ∧ s.pwr.latch = none ∧ let r1 := t.resumeTx m;
      let t1 := r1.setReg (Reg.ETH_STAT m.val) (BitVec.ofNat 32 ((r1.reg (Reg.ETH_STAT m.val)).toNat / 16 * 16 + f.status.toNat));
      t1.flag (F.ETH_CTL_RXEN m.val) = true ∧ t1.flag (F.ETH_STAT_RXHALT m.val) = false ∧ let a := f.bytes.take 6;
      let group := bitAt (a.headD 0).toNat 0;
      let mine := t1.flag (F.ETH_CTL_PROMISC m.val) || (decide (a = t1.station m) && !group) || decide (a = List.replicate 6 0xFF) || (t1.flag (F.ETH_CTL_MCAST m.val) && group) || (t1.flag (F.ETH_CTL_PTP m.val) && decide (a = [0x01, 0x1B, 0x19, 0, 0, 0] ∨ a = [0x01, 0x80, 0xC2, 0, 0, 0x0E]));
      mine = false) ∧
    (let m : Fin 2 := 1; let f : EthFrame := ⟨List.replicate 60 0xFF, false, 3⟩; let dt : Nat := 0; let s : State := awake;
      let s : State := ((({ s with pwr := { s.pwr with latch := none } } : State).put (F.ETH_CTL_RXEN m.val) 1).put (F.ETH_STAT_RXHALT m.val) 0).put (F.ETH_CTL_PROMISC m.val) 1;
      let s : State := ((s.put (F.ETH_RXBASE_BASE m.val) 0x30000000).put (F.ETH_RXIDX_IDX m.val) 0);
      let s : State := s.setMac m { s.macAt m with due := false }; s.canonical = true ∧
      let run (c : State) (n : Nat) : State := { c with mac := c.mac.map (fun x => { x with pause := x.pause - n }), ptp := if c.ready 4 then c.ptp.add (n * c.get F.ETH_PTP_INC_INC : Nat) else c.ptp };
      let desc (base idx : Nat) : Nat := base / 32 * 32 + 32 * idx; let t := run s dt; s.ready (4 + m.val) = true ∧ s.pwr.latch = none ∧
      let r1 := t.resumeTx m;
      let t1 := r1.setReg (Reg.ETH_STAT m.val) (BitVec.ofNat 32 ((r1.reg (Reg.ETH_STAT m.val)).toNat / 16 * 16 + f.status.toNat));
      t1.flag (F.ETH_CTL_RXEN m.val) = true ∧ t1.flag (F.ETH_STAT_RXHALT m.val) = false ∧ let a := f.bytes.take 6;
      let group := bitAt (a.headD 0).toNat 0;
      let mine := t1.flag (F.ETH_CTL_PROMISC m.val) || (decide (a = t1.station m) && !group) || decide (a = List.replicate 6 0xFF) || (t1.flag (F.ETH_CTL_MCAST m.val) && group) || (t1.flag (F.ETH_CTL_PTP m.val) && decide (a = [0x01, 0x1B, 0x19, 0, 0, 0] ∨ a = [0x01, 0x80, 0xC2, 0, 0, 0x0E]));
      let d := desc (t1.get (F.ETH_RXBASE_BASE m.val)) (t1.get (F.ETH_RXIDX_IDX m.val)); mine = true ∧
      (match t1.macRead m d 8 with | (_, .error _) => true | _ => false) = true) ∧
    (let m : Fin 2 := 1; let f : EthFrame := ⟨List.replicate 60 0xFF, false, 3⟩; let dt : Nat := 0; let s : State := awake;
      let s : State := ((({ s with pwr := { s.pwr with latch := none } } : State).put (F.ETH_CTL_RXEN m.val) 1).put (F.ETH_STAT_RXHALT m.val) 0).put (F.ETH_CTL_PROMISC m.val) 1;
      let s : State := ((s.put (F.ETH_RXBASE_BASE m.val) 0x10780000).put (F.ETH_RXIDX_IDX m.val) 0);
      let s : State := s.setMac m { s.macAt m with due := false } |>.putBytes 0x10780000 [0,1,0x78,0x10,0x20,0,0,0];
      s.canonical = true ∧
      let run (c : State) (n : Nat) : State := { c with mac := c.mac.map (fun x => { x with pause := x.pause - n }), ptp := if c.ready 4 then c.ptp.add (n * c.get F.ETH_PTP_INC_INC : Nat) else c.ptp };
      let desc (base idx : Nat) : Nat := base / 32 * 32 + 32 * idx; let t := run s dt; s.ready (4 + m.val) = true ∧ s.pwr.latch = none ∧
      let r1 := t.resumeTx m;
      let t1 := r1.setReg (Reg.ETH_STAT m.val) (BitVec.ofNat 32 ((r1.reg (Reg.ETH_STAT m.val)).toNat / 16 * 16 + f.status.toNat));
      t1.flag (F.ETH_CTL_RXEN m.val) = true ∧ t1.flag (F.ETH_STAT_RXHALT m.val) = false ∧ let a := f.bytes.take 6;
      let group := bitAt (a.headD 0).toNat 0;
      let mine := t1.flag (F.ETH_CTL_PROMISC m.val) || (decide (a = t1.station m) && !group) || decide (a = List.replicate 6 0xFF) || (t1.flag (F.ETH_CTL_MCAST m.val) && group) || (t1.flag (F.ETH_CTL_PTP m.val) && decide (a = [0x01, 0x1B, 0x19, 0, 0, 0] ∨ a = [0x01, 0x80, 0xC2, 0, 0, 0x0E]));
      let d := desc (t1.get (F.ETH_RXBASE_BASE m.val)) (t1.get (F.ETH_RXIDX_IDX m.val)); mine = true ∧
      (match t1.macRead m d 8 with
       | (_, .ok bs) => decide (
           let w1 := ofBytesLe (bs.drop 4) % 2 ^ 32; w1 < 2 ^ 31)
       | _ => false) = true) ∧
    (let m : Fin 2 := 1; let f : EthFrame := { bytes := [1,2,3], bad := true, status := 3 }; let dt : Nat := 0; let s : State := awake;
      let s : State := ((({ s with pwr := { s.pwr with latch := none } } : State).put (F.ETH_CTL_RXEN m.val) 1).put (F.ETH_STAT_RXHALT m.val) 0).put (F.ETH_CTL_PROMISC m.val) 1;
      let s : State := ((s.put (F.ETH_RXBASE_BASE m.val) 0x10780000).put (F.ETH_RXIDX_IDX m.val) 0);
      let s : State := s.setMac m { s.macAt m with due := false } |>.putBytes 0x10780000 [0,2,0x78,0x10,0x20,0,0,0x80];
      s.canonical = true ∧
      let run (c : State) (n : Nat) : State := { c with mac := c.mac.map (fun x => { x with pause := x.pause - n }), ptp := if c.ready 4 then c.ptp.add (n * c.get F.ETH_PTP_INC_INC : Nat) else c.ptp };
      let desc (base idx : Nat) : Nat := base / 32 * 32 + 32 * idx; let t := run s dt; s.ready (4 + m.val) = true ∧ s.pwr.latch = none ∧
      let r1 := t.resumeTx m;
      let t1 := r1.setReg (Reg.ETH_STAT m.val) (BitVec.ofNat 32 ((r1.reg (Reg.ETH_STAT m.val)).toNat / 16 * 16 + f.status.toNat));
      t1.flag (F.ETH_CTL_RXEN m.val) = true ∧ t1.flag (F.ETH_STAT_RXHALT m.val) = false ∧ let a := f.bytes.take 6;
      let group := bitAt (a.headD 0).toNat 0;
      let mine := t1.flag (F.ETH_CTL_PROMISC m.val) || (decide (a = t1.station m) && !group) || decide (a = List.replicate 6 0xFF) || (t1.flag (F.ETH_CTL_MCAST m.val) && group) || (t1.flag (F.ETH_CTL_PTP m.val) && decide (a = [0x01, 0x1B, 0x19, 0, 0, 0] ∨ a = [0x01, 0x80, 0xC2, 0, 0, 0x0E]));
      let d := desc (t1.get (F.ETH_RXBASE_BASE m.val)) (t1.get (F.ETH_RXIDX_IDX m.val)); mine = true ∧
      (match t1.macRead m d 8 with
       | (_, .ok bs) => decide (
           let w1 := ofBytesLe (bs.drop 4) % 2 ^ 32; 2 ^ 31 ≤ w1 ∧ (f.bad = true ∨ 2044 < f.bytes.length))
       | _ => false) = true) ∧
    (let m : Fin 2 := 1; let f : EthFrame := ⟨List.replicate 60 0xFF, false, 3⟩; let dt : Nat := 0; let s : State := awake;
      let s : State := ((({ s with pwr := { s.pwr with latch := none } } : State).put (F.ETH_CTL_RXEN m.val) 1).put (F.ETH_STAT_RXHALT m.val) 0).put (F.ETH_CTL_PROMISC m.val) 1;
      let s : State := ((s.put (F.ETH_RXBASE_BASE m.val) 0x10780000).put (F.ETH_RXIDX_IDX m.val) 0);
      let s : State := s.setMac m { s.macAt m with due := false } |>.putBytes 0x10780000 [0,2,0x78,0x10,0x20,0,0,0x80];
      let s : State := ((({ s with pwr := { s.pwr with latch := none } } : State).put (F.ETH_CTL_RXEN m.val) 1).put (F.ETH_STAT_RXHALT m.val) 0).put (F.ETH_CTL_PROMISC m.val) 1;
      let s : State := ((s.put (F.ETH_RXBASE_BASE m.val) 0x10780000).put (F.ETH_RXIDX_IDX m.val) 0);
      let s : State := s.setMac m { s.macAt m with due := false } |>.putBytes 0x10780000 [0,1,0x78,0x30,0x20,0,0,0x80];
      s.canonical = true ∧
      let run (c : State) (n : Nat) : State := { c with mac := c.mac.map (fun x => { x with pause := x.pause - n }), ptp := if c.ready 4 then c.ptp.add (n * c.get F.ETH_PTP_INC_INC : Nat) else c.ptp };
      let desc (base idx : Nat) : Nat := base / 32 * 32 + 32 * idx; let t := run s dt; s.ready (4 + m.val) = true ∧ s.pwr.latch = none ∧
      let r1 := t.resumeTx m;
      let t1 := r1.setReg (Reg.ETH_STAT m.val) (BitVec.ofNat 32 ((r1.reg (Reg.ETH_STAT m.val)).toNat / 16 * 16 + f.status.toNat));
      t1.flag (F.ETH_CTL_RXEN m.val) = true ∧ t1.flag (F.ETH_STAT_RXHALT m.val) = false ∧ let a := f.bytes.take 6;
      let group := bitAt (a.headD 0).toNat 0;
      let mine := t1.flag (F.ETH_CTL_PROMISC m.val) || (decide (a = t1.station m) && !group) || decide (a = List.replicate 6 0xFF) || (t1.flag (F.ETH_CTL_MCAST m.val) && group) || (t1.flag (F.ETH_CTL_PTP m.val) && decide (a = [0x01, 0x1B, 0x19, 0, 0, 0] ∨ a = [0x01, 0x80, 0xC2, 0, 0, 0x0E]));
      let d := desc (t1.get (F.ETH_RXBASE_BASE m.val)) (t1.get (F.ETH_RXIDX_IDX m.val)); mine = true ∧
      (match t1.macRead m d 8 with
       | (u, .ok bs) => decide (
           let w1 := ofBytesLe (bs.drop 4) % 2 ^ 32; let part := f.bytes.take (if w1 % 4096 = 0 then 2048 else w1 % 4096); 2 ^ 31 ≤ w1 ∧
             f.bad = false ∧ f.bytes.length ≤ 2044 ∧ let x := u.macWrite m (ofBytesLe (bs.take 4) % 2 ^ 32) part; x.2 ≠ none)
       | _ => false) = true) ∧
    (let m : Fin 2 := 1; let f : EthFrame := ⟨List.replicate 60 0xFF, false, 3⟩; let dt : Nat := 0; let s : State := awake;
      let s : State := ((({ s with pwr := { s.pwr with latch := none } } : State).put (F.ETH_CTL_RXEN m.val) 1).put (F.ETH_STAT_RXHALT m.val) 0).put (F.ETH_CTL_PROMISC m.val) 1;
      let s : State := ((s.put (F.ETH_RXBASE_BASE m.val) 0x10780000).put (F.ETH_RXIDX_IDX m.val) 0);
      let s : State := s.setMac m { s.macAt m with due := false } |>.putBytes 0x10780000 [0,2,0x78,0x10,0x20,0,0,0x80];
      let s : State := ((({ s with pwr := { s.pwr with latch := none } } : State).put (F.ETH_CTL_RXEN m.val) 1).put (F.ETH_STAT_RXHALT m.val) 0).put (F.ETH_CTL_PROMISC m.val) 1;
      let s : State := ((s.put (F.ETH_RXBASE_BASE m.val) 0x00001000).put (F.ETH_RXIDX_IDX m.val) 0);
      let s : State := s.setMac m { s.macAt m with due := false } |>.putBytes 0x00001000 [0,1,0x78,0x10,0x20,0,0,0x80];
      s.canonical = true ∧
      let run (c : State) (n : Nat) : State := { c with mac := c.mac.map (fun x => { x with pause := x.pause - n }), ptp := if c.ready 4 then c.ptp.add (n * c.get F.ETH_PTP_INC_INC : Nat) else c.ptp };
      let desc (base idx : Nat) : Nat := base / 32 * 32 + 32 * idx;
      let words (w2 : Nat) (p : Option Ptp) : List Byte := match p with | some p => bytesLe 4 (w2 + 4096) ++ bytesLe 4 0 ++ bytesLe 4 p.ns ++ bytesLe 4 p.sec ++ bytesLe 4 (p.sec / 2 ^ 32) ++ bytesLe 4 0 | none => bytesLe 4 w2 ++ List.replicate 20 0;
      let t := run s dt; s.ready (4 + m.val) = true ∧ s.pwr.latch = none ∧ let r1 := t.resumeTx m;
      let t1 := r1.setReg (Reg.ETH_STAT m.val) (BitVec.ofNat 32 ((r1.reg (Reg.ETH_STAT m.val)).toNat / 16 * 16 + f.status.toNat));
      t1.flag (F.ETH_CTL_RXEN m.val) = true ∧ t1.flag (F.ETH_STAT_RXHALT m.val) = false ∧ let a := f.bytes.take 6;
      let group := bitAt (a.headD 0).toNat 0;
      let mine := t1.flag (F.ETH_CTL_PROMISC m.val) || (decide (a = t1.station m) && !group) || decide (a = List.replicate 6 0xFF) || (t1.flag (F.ETH_CTL_MCAST m.val) && group) || (t1.flag (F.ETH_CTL_PTP m.val) && decide (a = [0x01, 0x1B, 0x19, 0, 0, 0] ∨ a = [0x01, 0x80, 0xC2, 0, 0, 0x0E]));
      let d := desc (t1.get (F.ETH_RXBASE_BASE m.val)) (t1.get (F.ETH_RXIDX_IDX m.val)); mine = true ∧
      (match t1.macRead m d 8 with
       | (u, .ok bs) => decide (
           let w1 := ofBytesLe (bs.drop 4) % 2 ^ 32; let part := f.bytes.take (if w1 % 4096 = 0 then 2048 else w1 % 4096);
             let w2 := part.length % 4096 + (if part.length < f.bytes.length then 8192 else 0) + (if group = true ∧ a ≠ List.replicate 6 0xFF then 16384 else 0) + (if a = List.replicate 6 0xFF then 32768 else 0);
             2 ^ 31 ≤ w1 ∧ f.bad = false ∧ f.bytes.length ≤ 2044 ∧ let x := u.macWrite m (ofBytesLe (bs.take 4) % 2 ^ 32) part;
             let y := x.1.macWrite m (d + 8) (words w2 (if s.ready 4 then some t.ptp else none)); x.2 = none ∧ y.2 ≠ none)
       | _ => false) = true) ∧
    (let m : Fin 2 := 1; let f : EthFrame := ⟨List.replicate 60 0xFF, false, 3⟩; let dt : Nat := 0; let s : State := awake;
      let s : State := ((({ s with pwr := { s.pwr with latch := none } } : State).put (F.ETH_CTL_RXEN m.val) 1).put (F.ETH_STAT_RXHALT m.val) 0).put (F.ETH_CTL_PROMISC m.val) 1;
      let s : State := ((s.put (F.ETH_RXBASE_BASE m.val) 0x10780000).put (F.ETH_RXIDX_IDX m.val) 0);
      let s : State := s.setMac m { s.macAt m with due := false } |>.putBytes 0x10780000 [0,2,0x78,0x10,0x20,0,0,0x80];
      s.canonical = true ∧
      let run (c : State) (n : Nat) : State := { c with mac := c.mac.map (fun x => { x with pause := x.pause - n }), ptp := if c.ready 4 then c.ptp.add (n * c.get F.ETH_PTP_INC_INC : Nat) else c.ptp };
      let desc (base idx : Nat) : Nat := base / 32 * 32 + 32 * idx;
      let words (w2 : Nat) (p : Option Ptp) : List Byte := match p with | some p => bytesLe 4 (w2 + 4096) ++ bytesLe 4 0 ++ bytesLe 4 p.ns ++ bytesLe 4 p.sec ++ bytesLe 4 (p.sec / 2 ^ 32) ++ bytesLe 4 0 | none => bytesLe 4 w2 ++ List.replicate 20 0;
      let t := run s dt; s.ready (4 + m.val) = true ∧ s.pwr.latch = none ∧ let r1 := t.resumeTx m;
      let t1 := r1.setReg (Reg.ETH_STAT m.val) (BitVec.ofNat 32 ((r1.reg (Reg.ETH_STAT m.val)).toNat / 16 * 16 + f.status.toNat));
      t1.flag (F.ETH_CTL_RXEN m.val) = true ∧ t1.flag (F.ETH_STAT_RXHALT m.val) = false ∧ let a := f.bytes.take 6;
      let group := bitAt (a.headD 0).toNat 0;
      let mine := t1.flag (F.ETH_CTL_PROMISC m.val) || (decide (a = t1.station m) && !group) || decide (a = List.replicate 6 0xFF) || (t1.flag (F.ETH_CTL_MCAST m.val) && group) || (t1.flag (F.ETH_CTL_PTP m.val) && decide (a = [0x01, 0x1B, 0x19, 0, 0, 0] ∨ a = [0x01, 0x80, 0xC2, 0, 0, 0x0E]));
      let d := desc (t1.get (F.ETH_RXBASE_BASE m.val)) (t1.get (F.ETH_RXIDX_IDX m.val)); mine = true ∧
      (match t1.macRead m d 8 with
       | (u, .ok bs) => decide (
           let w1 := ofBytesLe (bs.drop 4) % 2 ^ 32; let part := f.bytes.take (if w1 % 4096 = 0 then 2048 else w1 % 4096);
             let w2 := part.length % 4096 + (if part.length < f.bytes.length then 8192 else 0) + (if group = true ∧ a ≠ List.replicate 6 0xFF then 16384 else 0) + (if a = List.replicate 6 0xFF then 32768 else 0);
             2 ^ 31 ≤ w1 ∧ f.bad = false ∧ f.bytes.length ≤ 2044 ∧ let x := u.macWrite m (ofBytesLe (bs.take 4) % 2 ^ 32) part;
             let y := x.1.macWrite m (d + 8) (words w2 (if s.ready 4 then some t.ptp else none)); x.2 = none ∧ y.2 = none)
       | _ => false) = true) ∧
    (let m : Fin 2 := 1; let s : State := awake; s.canonical = true ∧
      let on (c : State) : Prop := c.ready (4 + m.val) = true ∧ c.flag (F.ETH_CTL_TXEN m.val) = true ∧ c.flag (F.ETH_STAT_TXHALT m.val) = false ∧ (c.macAt m).sending = none;
      (¬on s)) ∧
    (let m : Fin 2 := 1; let s : State := awake;
      let s : State := (((s.setBit Reg.SYS_READY (4+m.val) true).put (F.ETH_CTL_TXEN m.val) 1).put (F.ETH_STAT_TXHALT m.val) 0).setMac m { sending := none, pause := 5, due := true };
      let s : State := ((s.put (F.ETH_TXBASE_BASE m.val) 0x10780000).put (F.ETH_TXIDX_IDX m.val) 0).putBytes 0x10780000 [];
      s.canonical = true ∧
      let on (c : State) : Prop := c.ready (4 + m.val) = true ∧ c.flag (F.ETH_CTL_TXEN m.val) = true ∧ c.flag (F.ETH_STAT_TXHALT m.val) = false ∧ (c.macAt m).sending = none;
      on s ∧ (s.macAt m).pause ≠ 0) ∧
    (let m : Fin 2 := 1; let s : State := awake;
      let s : State := (((s.setBit Reg.SYS_READY (4+m.val) true).put (F.ETH_CTL_TXEN m.val) 1).put (F.ETH_STAT_TXHALT m.val) 0).setMac m { sending := none, pause := 0, due := true };
      let s : State := ((s.put (F.ETH_TXBASE_BASE m.val) 0x30000000).put (F.ETH_TXIDX_IDX m.val) 0).putBytes 0x30000000 [];
      s.canonical = true ∧ let desc (base idx : Nat) : Nat := base / 32 * 32 + 32 * idx;
      let on (c : State) : Prop := c.ready (4 + m.val) = true ∧ c.flag (F.ETH_CTL_TXEN m.val) = true ∧ c.flag (F.ETH_STAT_TXHALT m.val) = false ∧ (c.macAt m).sending = none;
      let d := desc (s.get (F.ETH_TXBASE_BASE m.val)) (s.get (F.ETH_TXIDX_IDX m.val)); on s ∧ (s.macAt m).pause = 0 ∧
      (match s.macRead m d 8 with | (_, .error _) => true | _ => false) = true) ∧
    (let m : Fin 2 := 1; let s : State := awake;
      let s : State := (((s.setBit Reg.SYS_READY (4+m.val) true).put (F.ETH_CTL_TXEN m.val) 1).put (F.ETH_STAT_TXHALT m.val) 0).setMac m { sending := none, pause := 0, due := true };
      let s : State := ((s.put (F.ETH_TXBASE_BASE m.val) 0x10780000).put (F.ETH_TXIDX_IDX m.val) 0).putBytes 0x10780000 [0,1,0x78,0x10,0x20,0,0,0];
      s.canonical = true ∧ let desc (base idx : Nat) : Nat := base / 32 * 32 + 32 * idx;
      let on (c : State) : Prop := c.ready (4 + m.val) = true ∧ c.flag (F.ETH_CTL_TXEN m.val) = true ∧ c.flag (F.ETH_STAT_TXHALT m.val) = false ∧ (c.macAt m).sending = none;
      let d := desc (s.get (F.ETH_TXBASE_BASE m.val)) (s.get (F.ETH_TXIDX_IDX m.val)); on s ∧ (s.macAt m).pause = 0 ∧
      (match s.macRead m d 8 with
       | (_, .ok bs) => decide (
           let w1 := ofBytesLe (bs.drop 4) % 2 ^ 32; w1 < 2 ^ 31)
       | _ => false) = true) ∧
    (let m : Fin 2 := 1; let s : State := awake;
      let s : State := (((s.setBit Reg.SYS_READY (4+m.val) true).put (F.ETH_CTL_TXEN m.val) 1).put (F.ETH_STAT_TXHALT m.val) 0).setMac m { sending := none, pause := 0, due := true };
      let s : State := ((s.put (F.ETH_TXBASE_BASE m.val) 0x10780000).put (F.ETH_TXIDX_IDX m.val) 0).putBytes 0x10780000 [0,1,0x78,0x10,0x05,0,0,0x80];
      s.canonical = true ∧ let desc (base idx : Nat) : Nat := base / 32 * 32 + 32 * idx;
      let on (c : State) : Prop := c.ready (4 + m.val) = true ∧ c.flag (F.ETH_CTL_TXEN m.val) = true ∧ c.flag (F.ETH_STAT_TXHALT m.val) = false ∧ (c.macAt m).sending = none;
      let d := desc (s.get (F.ETH_TXBASE_BASE m.val)) (s.get (F.ETH_TXIDX_IDX m.val)); on s ∧ (s.macAt m).pause = 0 ∧
      (match s.macRead m d 8 with
       | (_, .ok bs) => decide (
           let w1 := ofBytesLe (bs.drop 4) % 2 ^ 32; 2 ^ 31 ≤ w1 ∧ (w1 % 4096 < 14 ∨ 2044 < w1 % 4096))
       | _ => false) = true) ∧
    (let m : Fin 2 := 1; let s : State := awake;
      let s : State := (((s.setBit Reg.SYS_READY (4+m.val) true).put (F.ETH_CTL_TXEN m.val) 1).put (F.ETH_STAT_TXHALT m.val) 0).setMac m { sending := none, pause := 0, due := true };
      let s : State := ((s.put (F.ETH_TXBASE_BASE m.val) 0x10780000).put (F.ETH_TXIDX_IDX m.val) 0).putBytes 0x10780000 [0,1,0x78,0x30,0x20,0,0,0x80];
      s.canonical = true ∧ let desc (base idx : Nat) : Nat := base / 32 * 32 + 32 * idx;
      let on (c : State) : Prop := c.ready (4 + m.val) = true ∧ c.flag (F.ETH_CTL_TXEN m.val) = true ∧ c.flag (F.ETH_STAT_TXHALT m.val) = false ∧ (c.macAt m).sending = none;
      let d := desc (s.get (F.ETH_TXBASE_BASE m.val)) (s.get (F.ETH_TXIDX_IDX m.val)); on s ∧ (s.macAt m).pause = 0 ∧
      (match s.macRead m d 8 with
       | (u, .ok bs) => decide (
           let w1 := ofBytesLe (bs.drop 4) % 2 ^ 32; 2 ^ 31 ≤ w1 ∧ 14 ≤ w1 % 4096 ∧ w1 % 4096 ≤ 2044 ∧
             (match u.macRead m (ofBytesLe (bs.take 4)) (w1 % 4096) with | (_, .error _) => true | _ => false) = true)
       | _ => false) = true) ∧
    (let m : Fin 2 := 1; let s : State := awake;
      let s : State := (((s.setBit Reg.SYS_READY (4+m.val) true).put (F.ETH_CTL_TXEN m.val) 1).put (F.ETH_STAT_TXHALT m.val) 0).setMac m { sending := none, pause := 0, due := true };
      let s : State := ((s.put (F.ETH_TXBASE_BASE m.val) 0x10780000).put (F.ETH_TXIDX_IDX m.val) 0).putBytes 0x10780000 [0,1,0x78,0x10,0x20,0,0,0xC0];
      s.canonical = true ∧ let desc (base idx : Nat) : Nat := base / 32 * 32 + 32 * idx;
      let on (c : State) : Prop := c.ready (4 + m.val) = true ∧ c.flag (F.ETH_CTL_TXEN m.val) = true ∧ c.flag (F.ETH_STAT_TXHALT m.val) = false ∧ (c.macAt m).sending = none;
      let d := desc (s.get (F.ETH_TXBASE_BASE m.val)) (s.get (F.ETH_TXIDX_IDX m.val)); on s ∧ (s.macAt m).pause = 0 ∧
      (match s.macRead m d 8 with
       | (u, .ok bs) => decide (
           let w1 := ofBytesLe (bs.drop 4) % 2 ^ 32; 2 ^ 31 ≤ w1 ∧ 14 ≤ w1 % 4096 ∧ w1 % 4096 ≤ 2044 ∧
             (match u.macRead m (ofBytesLe (bs.take 4)) (w1 % 4096) with | (_, .ok _) => true | _ => false) = true)
       | _ => false) = true) ∧
    (let m : Fin 2 := 1; let s : State := awake; let s : State := s.setMac m { s.macAt m with due := true, pause := 0 };
      let s : State := s.setMac m { s.macAt m with pause := 0 }; s.canonical = true ∧ (s.macAt m).due = true ∧ (s.macAt m).pause = 0) ∧
    (let m : Fin 2 := 1; let s : State := awake; let s : State := s.setMac m { s.macAt m with due := false, pause := 0 };
      let s : State := s.setMac m { s.macAt m with pause := 0 }; s.canonical = true ∧ ((s.macAt m).due = false ∨ (s.macAt m).pause ≠ 0)) ∧
    (let r : Req := 64; let m : Fin 2 := 1; let s : State := awake;
      let s : State := s.setMac m { s.macAt m with pause := if 1 = 1 then 3 else 0 };
      let s : State := s.setMac m { s.macAt m with pause := 0 }; s.canonical = true ∧
      s.admits r.val (Reg.ETH_TXPOLL m.val) true = true ∧ (s.macAt m).pause = 0) ∧
    (let r : Req := 64; let m : Fin 2 := 1; let s : State := awake;
      let s : State := s.setMac m { s.macAt m with pause := if 1 = 1 then 3 else 0 }; s.canonical = true ∧
      s.admits r.val (Reg.ETH_TXPOLL m.val) true = true ∧ (s.macAt m).pause ≠ 0) ∧
    (let m : Fin 2 := 1; let dt : Nat := 0; let s : State := awake; s.canonical = true ∧
      let run (c : State) (n : Nat) : State := { c with mac := c.mac.map (fun x => { x with pause := x.pause - n }), ptp := if c.ready 4 then c.ptp.add (n * c.get F.ETH_PTP_INC_INC : Nat) else c.ptp };
      let t := (run s dt).resumeTx m; (t.macAt m).sending = none) ∧
    (let m : Fin 2 := 1; let dt : Nat := 0; let f : TxFrame := { aTx with desc := 0x30000000 }; let s : State := awake;
      let s : State := s.setMac m { sending := some f, due := false }; s.canonical = true ∧
      let run (c : State) (n : Nat) : State := { c with mac := c.mac.map (fun x => { x with pause := x.pause - n }), ptp := if c.ready 4 then c.ptp.add (n * c.get F.ETH_PTP_INC_INC : Nat) else c.ptp };
      let desc (base idx : Nat) : Nat := base / 32 * 32 + 32 * idx;
      let words (w2 : Nat) (p : Option Ptp) : List Byte := match p with | some p => bytesLe 4 (w2 + 4096) ++ bytesLe 4 0 ++ bytesLe 4 p.ns ++ bytesLe 4 p.sec ++ bytesLe 4 (p.sec / 2 ^ 32) ++ bytesLe 4 0 | none => bytesLe 4 w2 ++ List.replicate 20 0;
      let t := (run s dt).resumeTx m; (t.macAt m).sending = some f ∧
      let y := (t.setMac m { t.macAt m with sending := none }).macWrite m (f.desc + 8) (words 0 (if t.ready 4 then f.stamp else none));
      y.2 ≠ none) ∧
    (let m : Fin 2 := 1; let dt : Nat := 0; let f : TxFrame := { aTx with desc := 0x10000000 - 8 }; let s : State := awake;
      let s : State := s.setMac m { sending := some f, due := false }; s.canonical = true ∧
      let run (c : State) (n : Nat) : State := { c with mac := c.mac.map (fun x => { x with pause := x.pause - n }), ptp := if c.ready 4 then c.ptp.add (n * c.get F.ETH_PTP_INC_INC : Nat) else c.ptp };
      let desc (base idx : Nat) : Nat := base / 32 * 32 + 32 * idx;
      let words (w2 : Nat) (p : Option Ptp) : List Byte := match p with | some p => bytesLe 4 (w2 + 4096) ++ bytesLe 4 0 ++ bytesLe 4 p.ns ++ bytesLe 4 p.sec ++ bytesLe 4 (p.sec / 2 ^ 32) ++ bytesLe 4 0 | none => bytesLe 4 w2 ++ List.replicate 20 0;
      let t := (run s dt).resumeTx m; (t.macAt m).sending = some f ∧
      let y := (t.setMac m { t.macAt m with sending := none }).macWrite m (f.desc + 8) (words 0 (if t.ready 4 then f.stamp else none));
      let z := y.1.macWrite m (f.desc + 4) (bytesLe 4 (f.w1.toNat % 2 ^ 31)); y.2 = none ∧ z.2 ≠ none) ∧
    (let m : Fin 2 := 1; let dt : Nat := 0; let f : TxFrame := aTx; let s : State := awake;
      let s : State := s.setMac m { sending := some f, due := false }; s.canonical = true ∧
      let run (c : State) (n : Nat) : State := { c with mac := c.mac.map (fun x => { x with pause := x.pause - n }), ptp := if c.ready 4 then c.ptp.add (n * c.get F.ETH_PTP_INC_INC : Nat) else c.ptp };
      let desc (base idx : Nat) : Nat := base / 32 * 32 + 32 * idx;
      let words (w2 : Nat) (p : Option Ptp) : List Byte := match p with | some p => bytesLe 4 (w2 + 4096) ++ bytesLe 4 0 ++ bytesLe 4 p.ns ++ bytesLe 4 p.sec ++ bytesLe 4 (p.sec / 2 ^ 32) ++ bytesLe 4 0 | none => bytesLe 4 w2 ++ List.replicate 20 0;
      let t := (run s dt).resumeTx m; (t.macAt m).sending = some f ∧
      let y := (t.setMac m { t.macAt m with sending := none }).macWrite m (f.desc + 8) (words 0 (if t.ready 4 then f.stamp else none));
      let z := y.1.macWrite m (f.desc + 4) (bytesLe 4 (f.w1.toNat % 2 ^ 31)); y.2 = none ∧ z.2 = none) ∧
    (let r : Req := 64; let m : Fin 2 := 1; let s : State := awake; s.canonical = true ∧ s.admits r.val (Reg.ETH_CTL m.val) true = true) ∧
    (let r : Req := 64; let m : Fin 2 := 1; let s : State := awake.put (F.ETH_MDIO_GO m.val) (1); s.canonical = true ∧
      s.admits r.val (Reg.ETH_MDIO m.val) true = true ∧ s.flag (F.ETH_MDIO_GO m.val) = true) ∧
    (let r : Req := 64; let m : Fin 2 := 1; let s : State := awake; s.canonical = true ∧
      s.admits r.val (Reg.ETH_MDIO m.val) true = true ∧ s.flag (F.ETH_MDIO_GO m.val) = false) ∧
    (let m : Fin 2 := 1; let s : State := awake.put (F.ETH_MDIO_GO m.val) (1) |>.put (F.ETH_MDIO_READ m.val) (1); s.canonical = true ∧
      s.flag (F.ETH_MDIO_GO m.val) = true ∧ s.flag (F.ETH_MDIO_READ m.val) = true ∧ s.pwr.latch = none) ∧
    (let m : Fin 2 := 1; let p : PadLatch := held;
      let s : State := awake.put (F.ETH_MDIO_GO m.val) (1) |>.put (F.ETH_MDIO_READ m.val) (1);
      let s : State := ({ s with pwr := { s.pwr with latch := some p } } : State); s.canonical = true ∧
      s.flag (F.ETH_MDIO_GO m.val) = true ∧ s.flag (F.ETH_MDIO_READ m.val) = true ∧ s.pwr.latch = some p) ∧
    (let m : Fin 2 := 1; let s : State := awake.put (F.ETH_MDIO_GO m.val) (1); s.canonical = true ∧
      s.flag (F.ETH_MDIO_GO m.val) = true ∧ s.flag (F.ETH_MDIO_READ m.val) = false) ∧
    (let r : Req := 64; let s : State := awake; s.canonical = true ∧ s.admits r.val Reg.ETH_PTP_SETS_HI true = true) ∧
    (let r : Req := 64; let s : State := awake; s.canonical = true ∧ s.admits r.val Reg.ETH_PTP_ADJ true = true) ∧
    (let p : Ptp := ⟨5, 999999999, 0⟩; let s : State := awake; s.canonical = true ∧ p.sec < 2 ^ 48 ∧ p.ns < 1000000000 ∧ p.frac < 2 ^ 24) := by
  refine ⟨?_, ?_, ?_, ?_, ?_, ?_, ?_, ?_, ?_, ?_, ?_, ?_, ?_, ?_, ?_, ?_, ?_, ?_, ?_, ?_, ?_, ?_, ?_, ?_, ?_, ?_, ?_, ?_, ?_, ?_, ?_, ?_, ?_⟩ <;> decide +kernel

/-- States and operands that meet the hypotheses of FeederContactorsAndPins, clause by clause. -/
theorem witness_FeederContactorsAndPins :
    (let s : State := awake; s.canonical = true ∧ s.flag F.FDR_STAT_RUNNING = false) ∧
    (let s : State := awake.put F.FDR_STAT_RUNNING (1); let s : State := ({ s with fdr := { s.fdr with realign := true } } : State);
      s.canonical = true ∧ s.flag F.FDR_STAT_RUNNING = true ∧ s.fdr.realign = true) ∧
    (let s : State := awake.put F.FDR_STAT_RUNNING (1); s.canonical = true ∧ s.flag F.FDR_STAT_RUNNING = true ∧ s.fdr.realign = false) ∧
    (let k : Fin 8 := 7; let s : State := awake; let old : Word := s.reg (Reg.FDR_CHCFG k.val); s.canonical = true ∧
      let field (g : Fld) : Bool := bitsOf old.toNat g.lo g.width == s.get g; field (F.FDR_CHCFG_GAIN k.val) = true ∧
      field (F.FDR_CHCFG_HPF k.val) = true) ∧
    (let k : Fin 8 := 7; let old : Word := 0; let s : State := awake; s.canonical = true ∧
      let field (g : Fld) : Bool := bitsOf old.toNat g.lo g.width == s.get g;
      (field (F.FDR_CHCFG_GAIN k.val) = false ∨ field (F.FDR_CHCFG_HPF k.val) = false)) ∧
    (let s : State := awake; s.canonical = true ∧ s.fdr.frames = []) ∧
    (let f : FdrFrame := ⟨7, [], 0⟩; let rest : List FdrFrame := []; let s : State := awake;
      let s : State := (({ s with fdr := { s.fdr with base := 0x10780000, size := 256, frames := f :: rest } } : State).put F.FDR_WIDX_IDX 3).put F.FDR_RIDX_IDX 9;
      let s : State := (({ s with fdr := { s.fdr with base := 0x10780000, size := 256, frames := f :: rest } } : State).put F.FDR_WIDX_IDX 3).put F.FDR_RIDX_IDX 4;
      s.canonical = true ∧ s.fdr.frames = f :: rest ∧ let w := s.get F.FDR_WIDX_IDX; (w + 1) % s.fdr.size = s.get F.FDR_RIDX_IDX) ∧
    (let f : FdrFrame := ⟨7, [], 0⟩; let rest : List FdrFrame := []; let s : State := awake;
      let s : State := (({ s with fdr := { s.fdr with base := 0x10780000, size := 256, frames := f :: rest } } : State).put F.FDR_WIDX_IDX 3).put F.FDR_RIDX_IDX 9;
      let s : State := (({ s with fdr := { s.fdr with base := 0x30000000, size := 256, frames := f :: rest } } : State).put F.FDR_WIDX_IDX 3).put F.FDR_RIDX_IDX 9;
      s.canonical = true ∧ s.fdr.frames = f :: rest ∧ let took : State := { s with fdr := { s.fdr with frames := rest } };
      let w := s.get F.FDR_WIDX_IDX;
      let box (n : Nat) : List Byte := bytesLe 3 (f.samples.getD n 0) ++ [BitVec.ofNat 8 (if n = 0 then f.seq % 256 else if n = 1 then f.seq / 256 else if n = 2 then f.clamp.toNat else 0)];
      let x := took.moveWrite (s.blockNS 16) 70 (s.fdr.base + 32 * w + 4) (box 1 ++ box 2 ++ box 3 ++ box 4 ++ box 5 ++ box 6 ++ box 7);
      (w + 1) % s.fdr.size ≠ s.get F.FDR_RIDX_IDX ∧ x.2 ≠ none) ∧
    (let f : FdrFrame := ⟨7, [], 0⟩; let rest : List FdrFrame := []; let s : State := awake;
      let s : State := (({ s with fdr := { s.fdr with base := 0x10780000, size := 256, frames := f :: rest } } : State).put F.FDR_WIDX_IDX 3).put F.FDR_RIDX_IDX 9;
      let s : State := (({ s with fdr := { s.fdr with base := 0x0FFFFFFC, size := 256, frames := f :: rest } } : State).put F.FDR_WIDX_IDX 0).put F.FDR_RIDX_IDX 9;
      s.canonical = true ∧ s.fdr.frames = f :: rest ∧ let took : State := { s with fdr := { s.fdr with frames := rest } };
      let w := s.get F.FDR_WIDX_IDX;
      let box (n : Nat) : List Byte := bytesLe 3 (f.samples.getD n 0) ++ [BitVec.ofNat 8 (if n = 0 then f.seq % 256 else if n = 1 then f.seq / 256 else if n = 2 then f.clamp.toNat else 0)];
      let x := took.moveWrite (s.blockNS 16) 70 (s.fdr.base + 32 * w + 4) (box 1 ++ box 2 ++ box 3 ++ box 4 ++ box 5 ++ box 6 ++ box 7);
      let y := x.1.moveWrite (s.blockNS 16) 70 (s.fdr.base + 32 * w) (box 0); (w + 1) % s.fdr.size ≠ s.get F.FDR_RIDX_IDX ∧ x.2 = none ∧
      y.2 ≠ none) ∧
    (let f : FdrFrame := ⟨7, [], 0⟩; let rest : List FdrFrame := []; let s : State := awake;
      let s : State := (({ s with fdr := { s.fdr with base := 0x10780000, size := 256, frames := f :: rest } } : State).put F.FDR_WIDX_IDX 3).put F.FDR_RIDX_IDX 9;
      s.canonical = true ∧ s.fdr.frames = f :: rest ∧ let took : State := { s with fdr := { s.fdr with frames := rest } };
      let w := s.get F.FDR_WIDX_IDX;
      let box (n : Nat) : List Byte := bytesLe 3 (f.samples.getD n 0) ++ [BitVec.ofNat 8 (if n = 0 then f.seq % 256 else if n = 1 then f.seq / 256 else if n = 2 then f.clamp.toNat else 0)];
      let x := took.moveWrite (s.blockNS 16) 70 (s.fdr.base + 32 * w + 4) (box 1 ++ box 2 ++ box 3 ++ box 4 ++ box 5 ++ box 6 ++ box 7);
      let y := x.1.moveWrite (s.blockNS 16) 70 (s.fdr.base + 32 * w) (box 0); (w + 1) % s.fdr.size ≠ s.get F.FDR_RIDX_IDX ∧ x.2 = none ∧
      y.2 = none) ∧
    (let r : Req := 64; let s : State := awake; s.canonical = true ∧ s.admits r.val Reg.FDR_CTL true = true ∧
      s.flag F.FDR_CTL_EN = false) ∧
    (let r : Req := 64; let s : State := awake.put F.FDR_CTL_EN (1); s.canonical = true ∧ s.admits r.val Reg.FDR_CTL true = true ∧
      s.flag F.FDR_CTL_EN = true) ∧
    (let n : Nat := 0; let s : State := awake; s.canonical = true ∧ n < 16) ∧
    (let n : Nat := 16; let s : State := awake; s.canonical = true ∧ 16 ≤ n) ∧
    (let k : Fin 8 := 7; let v : Bool := true; let s : State := awake;
      let s : State := ((s.put F.CTR_CFG_FAULTOFF 1).put ⟨Reg.CTR_FAULT, 3 * k.val, 3⟩ (1 + 2 * (0))); s.canonical = true ∧
      let code := bitsOf (s.reg Reg.CTR_FAULT).toNat (3 * k.val) 3;
      let refused : Prop := v = true ∧ s.flag F.CTR_CFG_FAULTOFF = true ∧ (code = 1 ∨ code = 3); refused) ∧
    (let k : Fin 8 := 7; let v : Bool := false; let s : State := awake; s.canonical = true ∧
      let code := bitsOf (s.reg Reg.CTR_FAULT).toNat (3 * k.val) 3; let drive := s.bit Reg.CTR_STAT k.val;
      let refused : Prop := v = true ∧ s.flag F.CTR_CFG_FAULTOFF = true ∧ (code = 1 ∨ code = 3); (¬refused) ∧ drive = v) ∧
    (let k : Fin 8 := 7; let v : Bool := true; let s : State := awake;
      let s : State := ({ s with ctr := { s.ctr with dwell := BitVec.ofNat 8 (setBits s.ctr.dwell.toNat k.val 1 (bit01 true)) } } : State).put F.CTR_CFG_DWELL ((0)+1);
      s.canonical = true ∧ let code := bitsOf (s.reg Reg.CTR_FAULT).toNat (3 * k.val) 3; let drive := s.bit Reg.CTR_STAT k.val;
      let refused : Prop := v = true ∧ s.flag F.CTR_CFG_FAULTOFF = true ∧ (code = 1 ∨ code = 3); (¬refused) ∧ drive ≠ v ∧
      s.ctr.dwell.getLsbD k.val = true ∧ s.get F.CTR_CFG_DWELL ≠ 0) ∧
    (let k : Fin 8 := 7; let v : Bool := true; let s : State := awake;
      let s : State := ({ s with ctr := { s.ctr with dwell := BitVec.ofNat 8 (setBits s.ctr.dwell.toNat k.val 1 (bit01 false)) } } : State);
      s.canonical = true ∧ let code := bitsOf (s.reg Reg.CTR_FAULT).toNat (3 * k.val) 3; let drive := s.bit Reg.CTR_STAT k.val;
      let refused : Prop := v = true ∧ s.flag F.CTR_CFG_FAULTOFF = true ∧ (code = 1 ∨ code = 3); (¬refused) ∧ drive ≠ v ∧
      (s.ctr.dwell.getLsbD k.val = false ∨ s.get F.CTR_CFG_DWELL = 0)) ∧
    (let r : Req := 64; let s : State := awake; s.canonical = true ∧ s.admits r.val Reg.CTR_OUT true = true) ∧
    (let r : Req := 64; let s : State := awake; s.canonical = true ∧ s.admits r.val Reg.CTR_SET true = true) ∧
    (let r : Req := 64; let s : State := awake; s.canonical = true ∧ s.admits r.val Reg.CTR_CLR true = true) ∧
    (let r : Req := 64; let s : State := awake; s.canonical = true ∧ s.admits r.val Reg.CTR_FCLR true = true) ∧
    (let k : Fin 8 := 7; let s : State := awake;
      let s : State := ({ s with ctr := { s.ctr with dwell := BitVec.ofNat 8 (setBits s.ctr.dwell.toNat k.val 1 (bit01 false)) } } : State);
      s.canonical = true ∧ s.ctr.dwell.getLsbD k.val = false) ∧
    (let s : State := awake; let s : State := ({ s with pwr := { s.pwr with latch := some held } } : State); s.canonical = true ∧
      s.pwr.latch ≠ none) ∧
    (let s : State := awake.setBit Reg.SYS_READY 17 false |>.setBit Reg.SYS_READY 17 false; s.canonical = true ∧ s.pwr.latch = none ∧
      s.ready 17 = false) ∧
    (let k : Fin 8 := 7; let level : Bool := false; let atClear : Bool := true; let s : State := awake; s.canonical = true ∧
      let drive := s.bit Reg.CTR_STAT k.val; s.pwr.latch = none ∧ let fb := level != s.bit Reg.CTR_FBPOL k.val;
      let meets : Bool := atClear && s.ctr.cleared.getLsbD k.val;
      let quiet : Prop := s.bit Reg.CTR_STAT (8 + k.val) = fb ∨ (s.ctr.window.getLsbD k.val = true ∧ meets = false); s.ready 17 = true ∧
      (quiet ∨ drive = fb)) ∧
    (let k : Fin 8 := 7; let level : Bool := false; let atClear : Bool := true;
      let s : State := awake.setBit Reg.CTR_STAT k.val true |>.setBit Reg.CTR_STAT (8 + k.val) true; s.canonical = true ∧
      let drive := s.bit Reg.CTR_STAT k.val; s.pwr.latch = none ∧ let fb := level != s.bit Reg.CTR_FBPOL k.val;
      let meets : Bool := atClear && s.ctr.cleared.getLsbD k.val;
      let quiet : Prop := s.bit Reg.CTR_STAT (8 + k.val) = fb ∨ (s.ctr.window.getLsbD k.val = true ∧ meets = false); s.ready 17 = true ∧
      (¬quiet) ∧ drive = true ∧ fb = false) ∧
    (let k : Fin 8 := 7; let level : Bool := true; let atClear : Bool := true;
      let s : State := awake.setBit Reg.CTR_FBPOL k.val (!level); s.canonical = true ∧ let drive := s.bit Reg.CTR_STAT k.val;
      s.pwr.latch = none ∧ let fb := level != s.bit Reg.CTR_FBPOL k.val; let meets : Bool := atClear && s.ctr.cleared.getLsbD k.val;
      let quiet : Prop := s.bit Reg.CTR_STAT (8 + k.val) = fb ∨ (s.ctr.window.getLsbD k.val = true ∧ meets = false); s.ready 17 = true ∧
      (¬quiet) ∧ drive = false ∧ fb = true) ∧
    (let k : Fin 8 := 7; let s : State := awake;
      let s : State := ({ s with ctr := { s.ctr with window := BitVec.ofNat 8 (setBits s.ctr.window.toNat k.val 1 (bit01 false)) } } : State);
      s.canonical = true ∧ s.ctr.window.getLsbD k.val = false) ∧
    (let k : Fin 8 := 7; let s : State := awake;
      let s : State := ({ s with ctr := { s.ctr with window := BitVec.ofNat 8 (setBits s.ctr.window.toNat k.val 1 (bit01 true)) } } : State);
      s.canonical = true ∧ s.ctr.window.getLsbD k.val = true) ∧
    (let r : Req := 64; let s : State := awake; s.canonical = true ∧ s.admits r.val Reg.GPIO_SET true = true) ∧
    (let r : Req := 64; let s : State := awake; s.canonical = true ∧ s.admits r.val Reg.GPIO_CLR true = true) ∧
    (let r : Req := 64; let s : State := awake; s.canonical = true ∧ s.admits r.val Reg.GPIO_TGL true = true) := by
  refine ⟨?_, ?_, ?_, ?_, ?_, ?_, ?_, ?_, ?_, ?_, ?_, ?_, ?_, ?_, ?_, ?_, ?_, ?_, ?_, ?_, ?_, ?_, ?_, ?_, ?_, ?_, ?_, ?_, ?_, ?_, ?_, ?_, ?_⟩ <;> decide +kernel

/-- States and operands that meet the hypotheses of InterruptController, clause by clause. -/
theorem witness_InterruptController :
    (let n : SrcIx := 510; let ctx : Fin 2 := 1; let s : State := awake;
      let s : State := (({ s with pulses := [] } : State).setReg (Reg.IRQ_SRC 5) 0).put (F.IRQ_SRC_CNT 5) 3 |>.put (F.IRQ_SRC_EN 5) 1 |>.put (F.IRQ_SRC_CTX 5) 1 |>.put (F.IRQ_SRC_PRIO 5) 5 |>.put (F.IRQ_HOLD_RUN 0) 0;
      s.canonical = true ∧ n.val ≠ 0 ∧ n.val ≠ 511 ∧ (∃ m : SrcIx, m.val ≠ 0 ∧ m.val ≠ 511 ∧ s.deliverable ctx.val m.val = true)) ∧
    (let n : SrcIx := 510; let ctx : Fin 2 := 1; let s : State := awake; s.canonical = true ∧ n.val ≠ 0 ∧ n.val ≠ 511 ∧
      (∀ m : SrcIx, m.val ≠ 0 → m.val ≠ 511 → s.deliverable ctx.val m.val = false)) ∧
    (let n : SrcIx := 191; let s : State := awake; let s : State := ({ s with pulses := n.val :: s.pulses } : State);
      s.canonical = true ∧ n.val ≠ 0 ∧ n.val ≠ 511 ∧ s.ready 20 = true ∧ isPulse n.val = true ∧ s.pulses.contains n.val = true) ∧
    (let n : SrcIx := 191; let s : State := awake; s.canonical = true ∧ n.val ≠ 0 ∧ n.val ≠ 511 ∧ s.ready 20 = true ∧
      isPulse n.val = true ∧ s.pulses.contains n.val = false) ∧
    (let n : SrcIx := 1; let s : State := awake.put F.SYS_WVIOL_INFO_VALID 1; s.canonical = true ∧ n.val ≠ 0 ∧ n.val ≠ 511 ∧
      s.ready 20 = true ∧ isPulse n.val = false ∧ s.levelReq n.val = true ∧ s.flag (F.IRQ_SRC_REQ n.val) = false) ∧
    (let n : SrcIx := 510; let s : State := awake; s.canonical = true ∧ n.val ≠ 0 ∧ n.val ≠ 511 ∧ s.ready 20 = true ∧
      isPulse n.val = false ∧ (s.levelReq n.val = false ∨ s.flag (F.IRQ_SRC_REQ n.val) = true)) ∧
    (let n : SrcIx := 510; let s : State := awake.put (F.IRQ_SRC_REQ n.val) (1); s.canonical = true ∧ n.val ≠ 0 ∧ n.val ≠ 511 ∧
      s.ready 20 = true ∧ isPulse n.val = false ∧ s.levelReq n.val = false ∧ s.flag (F.IRQ_SRC_REQ n.val) = true) ∧
    (let n : SrcIx := 510; let s : State := awake; s.canonical = true ∧ n.val ≠ 0 ∧ n.val ≠ 511 ∧ s.ready 20 = true ∧
      isPulse n.val = false ∧ (s.levelReq n.val = true ∨ s.flag (F.IRQ_SRC_REQ n.val) = false)) ∧
    (let r : Req := 64; let n : SrcIx := 191; let s : State := awake;
      let s : State := ((s.setReg (Reg.IRQ_SRC n.val) 0).put (F.IRQ_SRC_CNT n.val) 3).put (F.IRQ_SRC_EN n.val) 1 |>.put (F.IRQ_SRC_CTX n.val) (s.world r.val) |>.put (F.IRQ_SRC_PRIO n.val) 5 |>.put (F.IRQ_HOLD_RUN (n.val/32)) 0;
      s.canonical = true ∧ n.val ≠ 0 ∧ n.val ≠ 511 ∧ let ctx := s.world r.val; s.admits r.val (Reg.IRQ_CLAIM 0) false = true ∧
      s.snapOf r.val (Reg.IRQ_CLAIM ctx) = none ∧ s.deliverable ctx n.val = true ∧
      (∀ m : SrcIx, decide (m = n ∨ m.val = 0 ∨ m.val = 511 ∨ s.deliverable ctx m.val = false ∨ s.get (F.IRQ_SRC_PRIO m.val) < s.get (F.IRQ_SRC_PRIO n.val) ∨ (s.get (F.IRQ_SRC_PRIO m.val) = s.get (F.IRQ_SRC_PRIO n.val) ∧ n < m)) = true)) ∧
    (let r : Req := 64; let n : SrcIx := 510; let s : State := awake; s.canonical = true ∧ n.val ≠ 0 ∧ n.val ≠ 511 ∧
      let ctx := s.world r.val; s.admits r.val (Reg.IRQ_CLAIM 0) false = true ∧ s.snapOf r.val (Reg.IRQ_CLAIM ctx) = none ∧
      (∀ m : SrcIx, m.val ≠ 0 → m.val ≠ 511 → s.deliverable ctx m.val = false)) ∧
    (let r : Req := 64; let n : SrcIx := 510; let s : State := awake.put (F.IRQ_SRC_ACT n.val) (1);
      let s : State := s.put (F.IRQ_SRC_CTX n.val) (s.world r.val); s.canonical = true ∧ n.val ≠ 0 ∧ n.val ≠ 511 ∧
      let ctx := s.world r.val; s.admits r.val (Reg.IRQ_COMPLETE 0) true = true ∧ s.flag (F.IRQ_SRC_ACT n.val) = true ∧
      s.get (F.IRQ_SRC_CTX n.val) = ctx) ∧
    (let r : Req := 64; let n : SrcIx := 510; let s : State := awake; s.canonical = true ∧ n.val ≠ 0 ∧ n.val ≠ 511 ∧
      let ctx := s.world r.val; s.admits r.val (Reg.IRQ_COMPLETE 0) true = true ∧
      (s.flag (F.IRQ_SRC_ACT n.val) = false ∨ s.get (F.IRQ_SRC_CTX n.val) ≠ ctx)) ∧
    (let r : Req := 64; let n : SrcIx := 510; let s : State := awake;
      let s : State := (s.put (F.IRQ_SRC_EN n.val) 0).put (F.IRQ_SRC_ACT n.val) 0; s.canonical = true ∧ n.val ≠ 0 ∧ n.val ≠ 511 ∧
      s.admits r.val (Reg.IRQ_SRC n.val) true = true ∧
      let moves : Prop := s.reqNS r.val = false ∧ s.flag (F.IRQ_SRC_EN n.val) = false ∧ s.flag (F.IRQ_SRC_ACT n.val) = false; moves) ∧
    (let r : Req := 64; let n : SrcIx := 510; let s : State := awake.put (F.IRQ_SRC_EN n.val) 1; s.canonical = true ∧ n.val ≠ 0 ∧
      n.val ≠ 511 ∧ s.admits r.val (Reg.IRQ_SRC n.val) true = true ∧
      let moves : Prop := s.reqNS r.val = false ∧ s.flag (F.IRQ_SRC_EN n.val) = false ∧ s.flag (F.IRQ_SRC_ACT n.val) = false; (¬moves)) ∧
    (let r : Req := 64; let n : SrcIx := 510; let m : SrcIx := 511; let s : State := awake; s.canonical = true ∧ n.val ≠ 0 ∧
      n.val ≠ 511 ∧ (m.val = 0 ∨ m.val = 511) ∧ s.admits r.val (Reg.IRQ_SRC m.val) true = true) ∧
    (let n : SrcIx := 191; let k : Fin 32 := 31;
      let s : State := awake.setBit Reg.SYS_READY 20 false |>.put (F.IRQ_AONSEL_SRC k.val) (n.val);
      let s : State := ({ s with pulses := n.val :: s.pulses } : State).setBit Reg.SYS_READY 20 false |>.put (F.IRQ_AONSEL_SRC k.val) n.val;
      let s : State := ({ s with pulses := n.val :: s.pulses } : State); s.canonical = true ∧ n.val ≠ 0 ∧ n.val ≠ 511 ∧
      s.ready 20 = false ∧ s.get (F.IRQ_AONSEL_SRC k.val) = n.val ∧ isPulse n.val = true ∧ s.pulses.contains n.val = true) ∧
    (let n : SrcIx := 1; let k : Fin 32 := 31;
      let s : State := awake.setBit Reg.SYS_READY 20 false |>.put (F.IRQ_AONSEL_SRC k.val) (n.val) |>.setBit Reg.SYS_READY 20 false |>.put (F.IRQ_AONSEL_SRC k.val) n.val |>.put F.SYS_WVIOL_INFO_VALID 1;
      s.canonical = true ∧ n.val ≠ 0 ∧ n.val ≠ 511 ∧ s.ready 20 = false ∧ s.get (F.IRQ_AONSEL_SRC k.val) = n.val ∧
      isPulse n.val = false ∧ s.levelReq n.val = true ∧ s.aonHigh.contains n.val = false) ∧
    (let n : SrcIx := 191; let k : Fin 32 := 31;
      let s : State := awake.setBit Reg.SYS_READY 20 false |>.put (F.IRQ_AONSEL_SRC k.val) (n.val) |>.setBit Reg.SYS_READY 20 false |>.put (F.IRQ_AONSEL_SRC k.val) n.val;
      s.canonical = true ∧ n.val ≠ 0 ∧ n.val ≠ 511 ∧ s.ready 20 = false ∧ s.get (F.IRQ_AONSEL_SRC k.val) = n.val ∧
      (if isPulse n.val then s.pulses.contains n.val = false else s.levelReq n.val = false ∨ s.aonHigh.contains n.val = true)) ∧
    (let n : SrcIx := 510; let k : Fin 32 := 31; let s : State := awake.setBit Reg.SYS_READY 20 false |>.setBit Reg.SYS_READY 20 false;
      s.canonical = true ∧ n.val ≠ 0 ∧ n.val ≠ 511 ∧ s.ready 20 = false ∧ s.get (F.IRQ_AONSEL_SRC k.val) = 0) ∧
    (let n : SrcIx := 510; let m : SrcIx := 510; let s : State := awake; s.canonical = true ∧ n.val ≠ 0 ∧ n.val ≠ 511 ∧
      m.val ∉ [1, 4, 8, 10, 11, 12, 13, 15] ∧ (m.val < 32 ∨ 51 < m.val) ∧ (m.val < 66 ∨ 77 < m.val) ∧ (m.val < 256 ∨ 351 < m.val)) := by
  refine ⟨?_, ?_, ?_, ?_, ?_, ?_, ?_, ?_, ?_, ?_, ?_, ?_, ?_, ?_, ?_, ?_, ?_, ?_, ?_, ?_⟩ <;> decide +kernel

/-- States and operands that meet the hypotheses of TimersAndCalendar, clause by clause. -/
theorem witness_TimersAndCalendar :
    (let r : Req := 64; let k : TmrIx := 15; let s : State := awake; s.canonical = true ∧ s.admits r.val (Reg.TMR_CTL k.val) true = true) ∧
    (let k : TmrIx := 15; let ks : List TmrIx := [15]; let same : List TmrIx := []; let s : State := awake; s.canonical = true ∧
      let takes : Prop := k ∉ same ∧ (k ∈ ks ∨ ∃ i ∈ ks, s.cascade i = some k); takes) ∧
    (let k : TmrIx := 15; let ks : List TmrIx := []; let same : List TmrIx := []; let s : State := awake; s.canonical = true ∧
      let takes : Prop := k ∉ same ∧ (k ∈ ks ∨ ∃ i ∈ ks, s.cascade i = some k); (¬takes)) ∧
    (let a : Nat := 0; let s : State := awake; s.canonical = true ∧ (∀ j : TmrIx, a ≠ Reg.TMR_STAT j.val)) ∧
    (let k : TmrIx := 15; let level : Bool := true; let s : State := awake.setBit Reg.SYS_READY 18 false; s.canonical = true ∧
      let edge : Prop := s.ready 18 = true ∧ s.pwr.latch = none ∧ s.flag (F.TMR_CFG_PINOUT k.val) = false ∧ s.pins.tio.getLsbD k.val ≠ level;
      (¬edge)) ∧
    (let k : TmrIx := 15; let level : Bool := true; let s : State := awake; s.canonical = true ∧
      let edge : Prop := s.ready 18 = true ∧ s.pwr.latch = none ∧ s.flag (F.TMR_CFG_PINOUT k.val) = false ∧ s.pins.tio.getLsbD k.val ≠ level;
      edge) ∧
    (let r : Req := 64; let k : TmrIx := 15; let s : State := awake; s.canonical = true ∧
      s.admits r.val (Reg.TMR_CMP_HI k.val) true = true) ∧
    (let r : Req := 64; let k : TmrIx := 15; let x : BitVec 48 := 0; let rest : List (BitVec 48) := []; let s : State := awake;
      let s : State := s.setTmr k { s.tmrAt k with queue := x :: rest }; s.canonical = true ∧ let t := s.tmrAt k;
      s.admits r.val (Reg.TMR_CAP_LO k.val) false = true ∧ s.snapOf r.val (Reg.TMR_CAP_LO k.val) = none ∧ t.queue = x :: rest) ∧
    (let r : Req := 64; let k : TmrIx := 15; let s : State := awake; let s : State := s.setTmr k { s.tmrAt k with queue := [] };
      s.canonical = true ∧ let t := s.tmrAt k; s.admits r.val (Reg.TMR_CAP_LO k.val) false = true ∧
      s.snapOf r.val (Reg.TMR_CAP_LO k.val) = none ∧ t.queue = []) ∧
    (let r : Req := 64; let k : TmrIx := 15; let s : State := awake; let s : State := s.setTmr k { s.tmrAt k with run := true };
      s.canonical = true ∧ let t := s.tmrAt k; s.admits r.val (Reg.TMR_CFG k.val) true = true ∧ t.run = true) ∧
    (let r : Req := 64; let k : TmrIx := 15; let s : State := awake; let s : State := s.setTmr k { s.tmrAt k with run := false };
      s.canonical = true ∧ let t := s.tmrAt k; s.admits r.val (Reg.TMR_CFG k.val) true = true ∧ t.run = false) ∧
    (let k : TmrIx := 15; let s : State := awake; s.canonical = true ∧ let t := s.tmrAt k;
      (s.ready 18 = false ∨ 2 ≤ s.get (F.TMR_CFG_SRC k.val) ∨ t.run = false)) ∧
    (let k : TmrIx := 15; let s : State := awake; let s : State := s.setTmr k { s.tmrAt k with run := true }; s.canonical = true ∧
      let t := s.tmrAt k; s.ready 18 = true ∧ s.get (F.TMR_CFG_SRC k.val) ≤ 1 ∧ t.run = true) ∧
    (let k : TmrIx := 15; let s : State := awake; let s : State := s.setTmr k { s.tmrAt k with run := true }; s.canonical = true ∧
      let t := s.tmrAt k; t.run = true ∧
      let back (u : State) (j : TmrIx) : Bool := u.flag (F.TMR_CFG_PERIOD j.val) && (u.tmrAt j).atMatch;
      let n (u : State) (j : TmrIx) : BitVec 48 := if back u j then 0 else (u.tmrAt j).count + 1;
      let spill (u : State) (j : TmrIx) : Bool := back u j || n u j == 0; (s.cascade k = none ∨ spill s k = false)) ∧
    (let k : TmrIx := (#[0,2,4,6] : Array TmrIx).getD (0) 0; let j : TmrIx := (#[1,3,5,7] : Array TmrIx).getD (0) 0;
      let s : State := awake; let s : State := s.setTmr k { s.tmrAt k with run := true } |>.put (F.TMR_CFG_SRC j.val) 3;
      let s : State := (s.put (F.TMR_CFG_PERIOD k.val) 1).setTmr k { s.tmrAt k with atMatch := true, run := true };
      let s : State := s.setTmr j { s.tmrAt j with run := false }; s.canonical = true ∧ let t := s.tmrAt k; t.run = true ∧
      let back (u : State) (j : TmrIx) : Bool := u.flag (F.TMR_CFG_PERIOD j.val) && (u.tmrAt j).atMatch;
      let n (u : State) (j : TmrIx) : BitVec 48 := if back u j then 0 else (u.tmrAt j).count + 1;
      let spill (u : State) (j : TmrIx) : Bool := back u j || n u j == 0; s.cascade k = some  j ∧ spill s k = true ∧
      (s.tmrAt j).run = false) ∧
    (let k : TmrIx := (#[0,2,4,6] : Array TmrIx).getD (0) 0; let j : TmrIx := (#[1,3,5,7] : Array TmrIx).getD (0) 0;
      let s : State := awake; let s : State := s.setTmr k { s.tmrAt k with run := true } |>.put (F.TMR_CFG_SRC j.val) 3;
      let s : State := (s.put (F.TMR_CFG_PERIOD k.val) 1).setTmr k { s.tmrAt k with atMatch := true, run := true };
      let s : State := s.setTmr j { s.tmrAt j with run := true }; s.canonical = true ∧ let t := s.tmrAt k; t.run = true ∧
      let back (u : State) (j : TmrIx) : Bool := u.flag (F.TMR_CFG_PERIOD j.val) && (u.tmrAt j).atMatch;
      let n (u : State) (j : TmrIx) : BitVec 48 := if back u j then 0 else (u.tmrAt j).count + 1;
      let spill (u : State) (j : TmrIx) : Bool := back u j || n u j == 0; s.cascade k = some  j ∧ spill s k = true ∧
      (s.tmrAt j).run = true) ∧
    (let s : State := awake.put F.RTC_CTL_HALT (1); s.canonical = true ∧ s.flag F.RTC_CTL_HALT = true) ∧
    (let cycles : Nat := 32767; let s : State := awake.put F.RTC_CTL_HALT 0; s.canonical = true ∧ s.flag F.RTC_CTL_HALT = false ∧
      s.get F.RTC_TRIM_TRIM = 0 ∧ s.trim.done = 0 ∧ let n := s.get F.RTC_TIME_SUB + cycles; n < 32768) ∧
    (let cycles : Nat := 65535; let s : State := awake.put F.RTC_CTL_HALT 0; s.canonical = true ∧ s.flag F.RTC_CTL_HALT = false ∧
      s.get F.RTC_TRIM_TRIM = 0 ∧ s.trim.done = 0 ∧ let n := s.get F.RTC_TIME_SUB + cycles; 32768 ≤ n ∧ n < 65536) ∧
    (let s : State := awake.put F.RTC_CTL_HALT 0; s.canonical = true ∧ s.flag F.RTC_CTL_HALT = false ∧ s.trim = ⟨0, 0⟩) ∧
    (let s : State := awake.put F.RTC_CTL_HALT 0; s.canonical = true ∧ s.flag F.RTC_CTL_HALT = false ∧ s.trim.cycles < 2 ^ 20 ∧
      s.trim.done ≤ (s.getS F.RTC_TRIM_TRIM).natAbs) ∧
    (let s : State := awake; s.canonical = true ∧ s.rtcDst = none) ∧
    (let s : State := awake; let s : State := ({ s with rtcDst := some true } : State).put F.RTC_TIME_SOD 1234; s.canonical = true ∧
      let sod := s.get F.RTC_TIME_SOD; s.rtcDst = some true ∧ sod + 3601 ≤ 86399) ∧
    (let s : State := awake; let s : State := ({ s with rtcDst := some true } : State).put F.RTC_TIME_SOD (86399 - 0);
      s.canonical = true ∧ let sod := s.get F.RTC_TIME_SOD; s.rtcDst = some true ∧ 86399 < sod + 3601) ∧
    (let s : State := awake; let s : State := ({ s with rtcDst := some false } : State).put F.RTC_TIME_SOD 3599; s.canonical = true ∧
      let sod := s.get F.RTC_TIME_SOD; s.rtcDst = some false ∧ 3599 ≤ sod ∧ sod ≤ 89998) ∧
    (let s : State := awake; let s : State := ({ s with rtcDst := some false } : State); s.canonical = true ∧
      let sod := s.get F.RTC_TIME_SOD; s.rtcDst = some false ∧ (sod < 3599 ∨ 89998 < sod)) ∧
    (let r : Req := 64; let s : State := awake; s.canonical = true ∧ s.admits r.val Reg.RTC_CTL true = true) ∧
    (let r : Req := 64; let s : State := awake; s.canonical = true ∧ s.admits r.val Reg.RTC_TIME true = true) ∧
    (let r : Req := 64; let s : State := awake; s.canonical = true ∧ s.admits r.val Reg.RTC_DATE true = true) ∧
    (let s : State := awake; s.canonical = true ∧ s.pwr.vmainLow = false) ∧
    (let s : State := awake; let s : State := ({ s with pwr := { s.pwr with vmainLow := true } } : State); s.canonical = true ∧
      s.pwr.vmainLow = true) := by
  refine ⟨?_, ?_, ?_, ?_, ?_, ?_, ?_, ?_, ?_, ?_, ?_, ?_, ?_, ?_, ?_, ?_, ?_, ?_, ?_, ?_, ?_, ?_, ?_, ?_, ?_, ?_, ?_, ?_, ?_, ?_, ?_⟩ <;> decide +kernel

/-- States and operands that meet the hypotheses of SuppliesAndResets, clause by clause. -/
theorem witness_SuppliesAndResets :
    (let vmain : Nat := 0; let vbat : Nat := 0; let s : State := awake; s.canonical = true ∧ max vmain vbat ≤ 1900) ∧
    (let vmain : Nat := 2800; let vbat : Nat := 1999; let s : State := awake; s.canonical = true ∧ 1900 < max vmain vbat) ∧
    (let vmain : Nat := 2699; let s : State := awake; s.canonical = true ∧ vmain < 2700 ∧ s.pwr.vmainLow = false) ∧
    (let vmain : Nat := 2700; let s : State := awake; s.canonical = true ∧ (2700 ≤ vmain ∨ s.pwr.vmainLow = true)) ∧
    (let vmain : Nat := 2710 + 0; let vbat : Nat := 2500; let s : State := awake; s.canonical = true ∧
      let stays : Prop := 2700 ≤ vmain ∧ vbat ≤ vmain + 20; s.flag F.PWR_SUPPLY_SRC = false ∧ stays) ∧
    (let vmain : Nat := 2699; let vbat : Nat := 0; let s : State := awake.put F.PWR_STAT_STATE 3; s.canonical = true ∧
      let stays : Prop := 2700 ≤ vmain ∧ vbat ≤ vmain + 20; s.flag F.PWR_SUPPLY_SRC = false ∧ (¬stays) ∧
      (s.pwr.mainOn = false ∨ 2 < s.pwrState)) ∧
    (let vmain : Nat := 0; let vbat : Nat := 0; let s : State := awake;
      let s : State := ({ s with pwr := { s.pwr with mainOn := true } } : State); s.canonical = true ∧
      let stays : Prop := 2700 ≤ vmain ∧ vbat ≤ vmain + 20; s.flag F.PWR_SUPPLY_SRC = false ∧ (¬stays) ∧ s.pwr.mainOn = true ∧
      s.pwrState ≤ 2 ∧ s.pwr.inReset = false) ∧
    (let vmain : Nat := 2800; let vbat : Nat := 2800 + 0; let s : State := awake.put F.PWR_SUPPLY_SRC (1); s.canonical = true ∧
      let returns : Prop := 2800 < vmain ∧ vbat < vmain; s.flag F.PWR_SUPPLY_SRC = true ∧ (¬returns)) ∧
    (let vmain : Nat := 2900 + 0; let vbat : Nat := 2800; let s : State := awake.put F.PWR_SUPPLY_SRC (1);
      let s : State := ({ s with pwr := { s.pwr with mainOn := true } } : State); s.canonical = true ∧
      let returns : Prop := 2800 < vmain ∧ vbat < vmain; s.flag F.PWR_SUPPLY_SRC = true ∧ returns ∧ s.pwr.mainOn = true) ∧
    (let vmain : Nat := 2801; let vbat : Nat := 2800; let s : State := awake.put F.PWR_SUPPLY_SRC (1);
      let s : State := ({ s with pwr := { s.pwr with thermOff := true } } : State);
      let s : State := ({ s with pwr := { s.pwr with mainOn := false, thermOff := true } } : State); s.canonical = true ∧
      let returns : Prop := 2800 < vmain ∧ vbat < vmain; s.flag F.PWR_SUPPLY_SRC = true ∧ returns ∧ s.pwr.mainOn = false ∧
      (s.pwrState ≠ 0 ∨ s.pwr.thermOff = true ∨ s.pwr.inReset = true)) ∧
    (let vmain : Nat := 2801; let vbat : Nat := 2800; let s : State := awake.put F.PWR_SUPPLY_SRC (1);
      let s : State := ({ s with pwr := { s.pwr with mainOn := false } } : State);
      let s : State := ({ s with pwr := { s.pwr with mainOn := false } } : State); s.canonical = true ∧
      let returns : Prop := 2800 < vmain ∧ vbat < vmain; s.flag F.PWR_SUPPLY_SRC = true ∧ returns ∧ s.pwr.mainOn = false ∧
      s.pwrState = 0 ∧ s.pwr.thermOff = false ∧ s.pwr.inReset = false ∧ s.pwr.trans = none) ∧
    (let s : State := awake; let s : State := ({ s with pwr := { s.pwr with inReset := true } } : State).put F.PWR_SUPPLY_SRC (1);
      s.canonical = true ∧ s.pwr.inReset = true ∧ (s.flag F.PWR_SUPPLY_SRC = true ∨ s.pwr.thermOff = true)) ∧
    (let s : State := awake; let s : State := ({ s with pwr := { s.pwr with inReset := true } } : State); s.canonical = true ∧
      s.pwr.inReset = true ∧ s.flag F.PWR_SUPPLY_SRC = false ∧ s.pwr.thermOff = false ∧ s.pwr.trans = none) ∧
    (let s : State := awake; let s : State := ({ s with pwr := { s.pwr with thermOff := true } } : State).put F.PWR_SUPPLY_SRC (1);
      s.canonical = true ∧ s.pwr.thermOff = true ∧ (s.flag F.PWR_SUPPLY_SRC = true ∨ s.pwr.inReset = true)) ∧
    (let s : State := awake; let s : State := ({ s with pwr := { s.pwr with thermOff := true } } : State); s.canonical = true ∧
      s.pwr.thermOff = true ∧ s.flag F.PWR_SUPPLY_SRC = false ∧ s.pwr.inReset = false ∧ s.pwr.trans = none) ∧
    (let r : Req := 64; let key : Byte := 0; let s : State := awake; s.canonical = true ∧ s.admits r.val Reg.PWR_RST true = true ∧
      key ≠ 0xA5) ∧
    (let r : Req := 64; let i : Fin 23 := 22; let s : State := awake; s.canonical = true ∧ s.admits r.val Reg.PWR_BLKRST true = true ∧
      i ≠ 0 ∧ i ≠ 1 ∧ i ≠ 19) ∧
    (let s : State := awake; s.canonical = true ∧ s.pwr.priming = none) ∧
    (let p : Priming := {}; let s : State := awake; let s : State := ({ s with pwr := { s.pwr with priming := some p } } : State);
      s.canonical = true ∧ s.pwr.priming = some p ∧ p.refLocked = false) ∧
    (let p : Priming := {}; let s : State := awake; let s : State := ({ s with pwr := { s.pwr with priming := some p } } : State);
      s.canonical = true ∧ s.pwr.priming = some p ∧ (p.refLocked = false ∨ p.calLoaded = true)) ∧
    (let p : Priming := { refLocked := true }; let s : State := awake;
      let s : State := ({ s with pwr := { s.pwr with priming := some p } } : State); s.canonical = true ∧ s.pwr.priming = some p ∧
      p.refLocked = true ∧ p.calLoaded = false ∧ s.flc.ecc = []) ∧
    (let p : Priming := { refLocked := true }; let s : State := awake;
      let s : State := ({ s with flc := { s.flc with ecc := [(0x7FF000/16 + 0, 2 + 0)] } } : State);
      let s : State := ({ s with flc := { s.flc with ecc := [(0x7FF000 / 16 + 255, 2)] } } : State);
      let s : State := ({ s with pwr := { s.pwr with priming := some p } } : State); s.canonical = true ∧ s.pwr.priming = some p ∧
      p.refLocked = true ∧ p.calLoaded = false ∧ (∃ n : Fin 256, 2 ≤ s.eccBits (0x7FF000 + 16 * n.val))) ∧
    (let p : Priming := {}; let s : State := awake; let s : State := (s.setBit Reg.SYS_READY 11 false);
      let s : State := ({ s with pwr := { s.pwr with priming := some p } } : State);
      let s : State := ({ s with pwr := { s.pwr with priming := some p } } : State); s.canonical = true ∧ s.pwr.priming = some p ∧
      let ok : Prop := s.ready 11 = false ∧ p.refLocked = true ∧ p.calLoaded = true ∧ s.pwrState ≤ 1; (¬ok)) ∧
    (let p : Priming := { refLocked := true, calLoaded := true }; let b : BlockIx := 10;
      let s : State := awake.setBit Reg.SYS_READY b.val false;
      let s : State := ({ s with pwr := { s.pwr with priming := some p } } : State); s.canonical = true ∧ s.pwr.priming = some p ∧
      let ok : Prop := s.ready b.val = false ∧ p.refLocked = true ∧ (p.calLoaded = true ∨ b.val = 14) ∧ s.pwrState ≤ 1 ∧ b.val ≠ 11 ∧ (b.val = 13 → s.flag F.CST_STAT_CLEARING = false);
      ok ∧ b.val ≠ 3 ∧ b.val ≠ 14 ∧ b.val ≠ 18 ∧ b.val ≠ 20) ∧
    (let p : Priming := { refLocked := true, calLoaded := true }; let b : BlockIx := 3;
      let s : State := awake.setBit Reg.SYS_READY b.val false;
      let s : State := ({ s with pwr := { s.pwr with priming := some p } } : State); s.canonical = true ∧ s.pwr.priming = some p ∧
      let ok : Prop := s.ready b.val = false ∧ p.refLocked = true ∧ (p.calLoaded = true ∨ b.val = 14) ∧ s.pwrState ≤ 1 ∧ b.val ≠ 11 ∧ (b.val = 13 → s.flag F.CST_STAT_CLEARING = false);
      ok ∧ b.val = 3) ∧
    (let p : Priming := { refLocked := true, calLoaded := true }; let b : BlockIx := 14;
      let s : State := awake.setBit Reg.SYS_READY b.val false;
      let s : State := ({ s with pwr := { s.pwr with priming := some p } } : State); s.canonical = true ∧ s.pwr.priming = some p ∧
      let ok : Prop := s.ready b.val = false ∧ p.refLocked = true ∧ (p.calLoaded = true ∨ b.val = 14) ∧ s.pwrState ≤ 1 ∧ b.val ≠ 11 ∧ (b.val = 13 → s.flag F.CST_STAT_CLEARING = false);
      ok ∧ b.val = 14) ∧
    (let p : Priming := { refLocked := true, calLoaded := true }; let b : BlockIx := 18;
      let s : State := awake.setBit Reg.SYS_READY b.val false;
      let s : State := ({ s with pwr := { s.pwr with priming := some p } } : State); s.canonical = true ∧ s.pwr.priming = some p ∧
      let ok : Prop := s.ready b.val = false ∧ p.refLocked = true ∧ (p.calLoaded = true ∨ b.val = 14) ∧ s.pwrState ≤ 1 ∧ b.val ≠ 11 ∧ (b.val = 13 → s.flag F.CST_STAT_CLEARING = false);
      ok ∧ b.val = 18) ∧
    (let p : Priming := { refLocked := true, calLoaded := true }; let b : BlockIx := 20;
      let s : State := awake.setBit Reg.SYS_READY b.val false;
      let s : State := ({ s with pwr := { s.pwr with priming := some p } } : State); s.canonical = true ∧ s.pwr.priming = some p ∧
      let ok : Prop := s.ready b.val = false ∧ p.refLocked = true ∧ (p.calLoaded = true ∨ b.val = 14) ∧ s.pwrState ≤ 1 ∧ b.val ≠ 11 ∧ (b.val = 13 → s.flag F.CST_STAT_CLEARING = false);
      ok ∧ b.val = 20) ∧
    (let temp : Int := 115; let s : State := awake; let s : State := ({ s with pwr := { s.pwr with mainOn := true } } : State);
      s.canonical = true ∧ s.pwr.mainOn = true ∧ 115 ≤ temp ∧ s.flag F.PWR_THERM_WARN = false) ∧
    (let temp : Int := 0; let s : State := awake; let s : State := ({ s with pwr := { s.pwr with mainOn := true } } : State);
      s.canonical = true ∧ s.pwr.mainOn = true ∧ temp ≤ 110) ∧
    (let temp : Int := 114; let s : State := awake; s.canonical = true ∧
      (s.pwr.mainOn = false ∨ (110 < temp ∧ temp < 115) ∨ (115 ≤ temp ∧ s.flag F.PWR_THERM_WARN = true))) := by
  refine ⟨?_, ?_, ?_, ?_, ?_, ?_, ?_, ?_, ?_, ?_, ?_, ?_, ?_, ?_, ?_, ?_, ?_, ?_, ?_, ?_, ?_, ?_, ?_, ?_, ?_, ?_, ?_, ?_, ?_, ?_, ?_⟩ <;> decide +kernel

/-- States and operands that meet the hypotheses of PowerStates, clause by clause. -/
theorem witness_PowerStates :
    (let r : Req := 64; let v : Word := 7; let s : State := awake; s.canonical = true ∧ s.admits r.val Reg.PWR_REQ true = true ∧
      5 ≤ v.toNat % 8) ∧
    (let r : Req := 64; let n : Fin 4 := 3; let s : State := awake.put F.PWR_STAT_OP ((n.val+1)%4); s.canonical = true ∧
      s.admits r.val (Reg.PWR_OP n.val) true = true ∧ s.get F.AGE_STAT_STATE = 0 ∧ (n.val ≠ s.get F.PWR_STAT_OP ∨ 2 ≤ s.pwrState)) ∧
    (let r : Req := 64; let n : Fin 4 := 0; let s : State := awake; s.canonical = true ∧ s.admits r.val (Reg.PWR_OP n.val) true = true ∧
      s.get F.AGE_STAT_STATE = 0 ∧ n.val = s.get F.PWR_STAT_OP ∧ s.pwrState ≤ 1) ∧
    (let q : PwrReq := ⟨2, 0, true⟩; let s : State := awake;
      let s : State := ({ s with pwr := { s.pwr with trans := some ⟨0, 0, true⟩, readies := 0x00FFFF05 } } : State);
      let s : State := ({ s with pwr := { s.pwr with trans := some ⟨2, 0, true⟩, readies := 0x00FFFF05 } } : State);
      let s : State := ({ s with pwr := { s.pwr with trans := some q } } : State);
      let s : State := ({ s with tx := { s.tx with cur := some aLaunch } } : State); s.canonical = true ∧
      let resting : Prop := ∀ e : EngIx, (s.engAt e).stall = none; s.pwr.trans = some q ∧
      let ready : Prop := q.state = 2 ∧ s.running = false ∧ s.tx.cur = none ∧ s.tx.hop = none ∧ s.flc.op = none ∧ resting; (¬ready)) ∧
    (let q : PwrReq := ⟨2, 0, true⟩; let s : State := awake;
      let s : State := ({ s with pwr := { s.pwr with trans := some ⟨0, 0, true⟩, readies := 0x00FFFF05 } } : State);
      let s : State := ({ s with pwr := { s.pwr with trans := some ⟨2, 0, true⟩, readies := 0x00FFFF05 } } : State);
      s.canonical = true ∧ let resting : Prop := ∀ e : EngIx, (s.engAt e).stall = none; s.pwr.trans = some q ∧
      let ready : Prop := q.state = 2 ∧ s.running = false ∧ s.tx.cur = none ∧ s.tx.hop = none ∧ s.flc.op = none ∧ resting; ready ∧
      s.pwr.held = none) ∧
    (let q : PwrReq := ⟨2, 0, true⟩; let op : Nat := 0; let pol : Bool := true; let s : State := awake;
      let s : State := ({ s with pwr := { s.pwr with trans := some ⟨0, 0, true⟩, readies := 0x00FFFF05 } } : State);
      let s : State := ({ s with pwr := { s.pwr with trans := some ⟨2, 0, true⟩, readies := 0x00FFFF05 } } : State);
      let s : State := ({ s with pwr := { s.pwr with held := some ⟨0,op,pol⟩ } } : State);
      let s : State := ({ s with eng := s.eng.map (fun g => { g with stall := none }), tx := { s.tx with cur := none, hop := none }, flc := { s.flc with op := none } } : State).put F.SFM_STAT_RUNNING 0;
      s.canonical = true ∧ let resting : Prop := ∀ e : EngIx, (s.engAt e).stall = none; s.pwr.trans = some q ∧
      let ready : Prop := q.state = 2 ∧ s.running = false ∧ s.tx.cur = none ∧ s.tx.hop = none ∧ s.flc.op = none ∧ resting; ready ∧
      s.pwr.held = some ⟨0, op, pol⟩) ∧
    (let q : PwrReq := ⟨(1 + 0), 0, true⟩; let s : State := awake;
      let s : State := ({ s with pwr := { s.pwr with trans := some ⟨0, 0, true⟩, readies := 0x00FFFF05 } } : State);
      let s : State := ({ s with pwr := { s.pwr with trans := some ⟨1, 0, true⟩, readies := 0x00FFFF05 } } : State);
      let s : State := ({ s with pwr := { s.pwr with trans := some ⟨2, 0, true⟩, readies := 0x00FFFF05 } } : State);
      let s : State := ({ s with pwr := { s.pwr with trans := some ⟨(1 + 0), 0, true⟩, readies := 0x00FFFF05 } } : State);
      let s : State := s.setEng 5 { s.engAt 5 with stall := some { (aStall : Stall) with beyond := true } }; s.canonical = true ∧
      s.pwr.trans = some q ∧ let stuck : Prop := ∃ (e : EngIx) (x : Stall), (s.engAt e).stall = some x ∧ x.beyond = true;
      (q.state = 1 ∨ q.state = 2) ∧ stuck) ∧
    (let q : PwrReq := ⟨4, 0, true⟩; let s : State := awake;
      let s : State := ({ s with pwr := { s.pwr with trans := some ⟨0, 0, true⟩, readies := 0x00FFFF05 } } : State);
      let s : State := ({ s with pwr := { s.pwr with trans := some ⟨4, 0, true⟩, readies := 0x00FFFF05 } } : State);
      s.canonical = true ∧ s.pwr.trans = some q ∧
      let stuck : Prop := ∃ (e : EngIx) (x : Stall), (s.engAt e).stall = some x ∧ x.beyond = true;
      ((q.state ≠ 1 ∧ q.state ≠ 2) ∨ ¬stuck)) ∧
    (let q : PwrReq := ⟨0, 0, true⟩; let s : State := awake;
      let s : State := ({ s with pwr := { s.pwr with trans := some ⟨0, 0, true⟩, readies := 0x00FFFF05 } } : State);
      let s : State := ({ s with pwr := { s.pwr with trans := some ⟨0, 0, true⟩, readies := 0x00FFFF05 } } : State);
      s.canonical = true ∧ s.pwr.trans = some q ∧ q.state = 0 ∧ s.pwrState ≤ 1) ∧
    (let q : PwrReq := ⟨1, 0, true⟩; let s : State := awake;
      let s : State := ({ s with pwr := { s.pwr with trans := some ⟨0, 0, true⟩, readies := 0x00FFFF05 } } : State);
      let s : State := ({ s with pwr := { s.pwr with trans := some ⟨1, 0, true⟩, readies := 0x00FFFF05 } } : State);
      let s : State := ({ s with eng := s.eng.map (fun g => { g with stall := none }), tx := { s.tx with cur := none, hop := none }, flc := { s.flc with op := none } } : State).put F.SFM_STAT_RUNNING 0;
      s.canonical = true ∧ let resting : Prop := ∀ e : EngIx, (s.engAt e).stall = none; s.pwr.trans = some q ∧ q.state = 1 ∧ resting) ∧
    (let q : PwrReq := ⟨2, 0, true⟩; let s : State := awake;
      let s : State := ({ s with pwr := { s.pwr with trans := some ⟨0, 0, true⟩, readies := 0x00FFFF05 } } : State);
      let s : State := ({ s with pwr := { s.pwr with trans := some ⟨0, 0, true⟩, readies := 0x00FFFF05 } } : State);
      let s : State := ({ s with pwr := { s.pwr with trans := some ⟨1, 0, true⟩, readies := 0x00FFFF05 } } : State);
      let s : State := ({ s with pwr := { s.pwr with trans := some ⟨2, 0, true⟩, readies := 0x00FFFF05 } } : State);
      let s : State := ({ s with pwr := { s.pwr with trans := some ⟨2, 0, true⟩, readies := 0x00FFFF05 } } : State);
      let s : State := ({ s with eng := s.eng.map (fun g => { g with stall := none }), tx := { s.tx with cur := none, hop := none }, flc := { s.flc with op := none } } : State).put F.SFM_STAT_RUNNING 0;
      s.canonical = true ∧ let resting : Prop := ∀ e : EngIx, (s.engAt e).stall = none; s.pwr.trans = some q ∧
      ((q.state = 0 ∧ 2 ≤ s.pwrState) ∨ q.state = 2 ∨ (q.state = 1 ∧ ¬resting) ∨ (3 ≤ q.state ∧ q.state ≤ 4 ∧ s.flc.op ≠ none))) ∧
    (let q : PwrReq := ⟨3, 0, true⟩; let s : State := awake;
      let s : State := ({ s with pwr := { s.pwr with trans := some ⟨0, 0, true⟩, readies := 0x00FFFF05 } } : State);
      let s : State := ({ s with pwr := { s.pwr with trans := some ⟨3, 0, true⟩, readies := 0x00FFFF05 } } : State);
      s.canonical = true ∧ s.pwr.trans = some q ∧ q.state = 3 ∧ s.flc.op = none ∧ s.pwr.held = none) ∧
    (let q : PwrReq := ⟨4, 0, true⟩; let s : State := awake;
      let s : State := ({ s with pwr := { s.pwr with trans := some ⟨0, 0, true⟩, readies := 0x00FFFF05 } } : State);
      let s : State := ({ s with pwr := { s.pwr with trans := some ⟨4, 0, true⟩, readies := 0x00FFFF05 } } : State);
      s.canonical = true ∧ s.pwr.trans = some q ∧ q.state = 4 ∧ s.flc.op = none ∧ s.pwr.held = none) ∧
    (let q : PwrReq := ⟨3, 0, true⟩; let op : Nat := 0; let pol : Bool := true; let s : State := awake;
      let s : State := ({ s with pwr := { s.pwr with trans := some ⟨0, 0, true⟩, readies := 0x00FFFF05 } } : State);
      let s : State := ({ s with pwr := { s.pwr with trans := some ⟨3, 0, true⟩, readies := 0x00FFFF05 } } : State);
      let s : State := ({ s with pwr := { s.pwr with held := some ⟨0,op,pol⟩ } } : State); s.canonical = true ∧ s.pwr.trans = some q ∧
      q.state = 3 ∧ s.flc.op = none ∧ s.pwr.held = some ⟨0, op, pol⟩ ∧ s.pwr.lost = false) ∧
    (let q : PwrReq := ⟨0, 0, true⟩; let s : State := awake;
      let s : State := ({ s with pwr := { s.pwr with trans := some ⟨0, 0, true⟩, readies := 0x00FFFF05 } } : State);
      let s : State := ({ s with pwr := { s.pwr with trans := some ⟨0, 0, true⟩, readies := 0x00FFFF05 } } : State).put F.PWR_STAT_STATE 2;
      s.canonical = true ∧ s.pwr.trans = some q ∧ q.state = 0 ∧ s.pwrState = 2 ∧ s.pwr.held = none) ∧
    (let q : PwrReq := ⟨4, 0, true⟩; let s : State := awake;
      let s : State := ({ s with pwr := { s.pwr with trans := some ⟨0, 0, true⟩, readies := 0x00FFFF05 } } : State);
      let s : State := ({ s with pwr := { s.pwr with trans := some ⟨4, 0, true⟩, readies := 0x00FFFF05 } } : State);
      s.canonical = true ∧ s.pwr.trans = some q ∧ (q.state ≠ 0 ∨ s.pwrState ≠ 2)) ∧
    (let q : PwrReq := ⟨0, 0, true⟩; let s : State := awake;
      let s : State := ({ s with pwr := { s.pwr with trans := some ⟨0, 0, true⟩, readies := 0x00FFFF05 } } : State);
      let s : State := ({ s with pwr := { s.pwr with trans := some ⟨0, 0, true⟩, readies := 0x00FFFF05 } } : State).put F.PWR_STAT_STATE 1;
      s.canonical = true ∧ s.pwr.trans = some q ∧ s.pwrState = 1) ∧
    (let s : State := awake; s.canonical = true ∧ s.pwrState ≠ 1) ∧
    (let s : State := awake.put F.PWR_STAT_STATE 1 |>.put F.PWR_CFG_EVWAKE (1);
      let s : State := s.setEng 63 { s.engAt 63 with loaded := true, evPend := 4 }; s.canonical = true ∧ s.pwr.trans = none ∧
      s.pwrState = 1 ∧ let event : Prop := ∃ e : EngIx, (s.engAt e).loaded = true ∧ (s.engAt e).evPend ≠ 0;
      s.flag F.PWR_CFG_EVWAKE = true ∧ event) ∧
    (let s : State := awake.put F.PWR_STAT_STATE 1; s.canonical = true ∧ s.pwr.trans = none ∧ s.pwrState = 1 ∧
      let event : Prop := ∃ e : EngIx, (s.engAt e).loaded = true ∧ (s.engAt e).evPend ≠ 0; (s.flag F.PWR_CFG_EVWAKE = false ∨ ¬event)) ∧
    (let w : WakeSrc := .rtc; let s : State := awake; s.canonical = true ∧
      let n := match w with | .mgb => 0 | .wkr => 1 | .rtc => 2 | .aonIrq => 3 | .rstin => 4 | .vmain => 5;
      let acts : Prop := s.pwr.wakes.contains n = true ∧ s.flag F.PWR_SUPPLY_SRC = false ∧ s.pwr.inReset = false ∧ s.pwr.trans = none;
      (¬acts)) ∧
    (let w : WakeSrc := .rtc; let s : State := awake.put F.PWR_STAT_STATE 2;
      let s : State := ({ s with pwr := { s.pwr with wakes := [0,1,2,3,4,5], inReset := false, trans := none } } : State);
      s.canonical = true ∧ let n := match w with | .mgb => 0 | .wkr => 1 | .rtc => 2 | .aonIrq => 3 | .rstin => 4 | .vmain => 5;
      let acts : Prop := s.pwr.wakes.contains n = true ∧ s.flag F.PWR_SUPPLY_SRC = false ∧ s.pwr.inReset = false ∧ s.pwr.trans = none;
      acts ∧ s.pwrState = 2) ∧
    (let w : WakeSrc := .rtc; let s : State := awake.put F.PWR_STAT_STATE 3;
      let s : State := ({ s with pwr := { s.pwr with wakes := [2], mainOn := false } } : State); s.canonical = true ∧
      let n := match w with | .mgb => 0 | .wkr => 1 | .rtc => 2 | .aonIrq => 3 | .rstin => 4 | .vmain => 5;
      let acts : Prop := s.pwr.wakes.contains n = true ∧ s.flag F.PWR_SUPPLY_SRC = false ∧ s.pwr.inReset = false ∧ s.pwr.trans = none;
      acts ∧ s.pwrState = 3 ∧ s.pwr.lost = false ∧ s.pwr.mainOn = false) ∧
    (let w : WakeSrc := .rtc; let s : State := awake.put F.PWR_STAT_STATE 3;
      let s : State := ({ s with pwr := { s.pwr with lost := true } } : State);
      let s : State := ({ s with pwr := { s.pwr with wakes := [0,1,2,3,4,5], inReset := false, trans := none } } : State).put F.PWR_STAT_STATE 3;
      s.canonical = true ∧ let n := match w with | .mgb => 0 | .wkr => 1 | .rtc => 2 | .aonIrq => 3 | .rstin => 4 | .vmain => 5;
      let acts : Prop := s.pwr.wakes.contains n = true ∧ s.flag F.PWR_SUPPLY_SRC = false ∧ s.pwr.inReset = false ∧ s.pwr.trans = none;
      acts ∧ s.pwrState = 3 ∧ s.pwr.lost = true) ∧
    (let w : WakeSrc := .rtc; let s : State := awake.put F.PWR_STAT_STATE 4;
      let s : State := ({ s with pwr := { s.pwr with wakes := [0,1,2,3,4,5], inReset := false, trans := none } } : State);
      s.canonical = true ∧ let n := match w with | .mgb => 0 | .wkr => 1 | .rtc => 2 | .aonIrq => 3 | .rstin => 4 | .vmain => 5;
      let acts : Prop := s.pwr.wakes.contains n = true ∧ s.flag F.PWR_SUPPLY_SRC = false ∧ s.pwr.inReset = false ∧ s.pwr.trans = none;
      acts ∧ s.pwrState = 4) ∧
    (let r : Req := 64; let s : State := awake; s.canonical = true ∧ s.admits r.val Reg.PWR_PAD true = true ∧ s.pwr.latch = none) ∧
    (let r : Req := 64; let s : State := awake; let s : State := ({ s with pwr := { s.pwr with latch := some held } } : State);
      s.canonical = true ∧ s.admits r.val Reg.PWR_PAD true = true ∧ s.pwr.latch ≠ none) ∧
    (let n : BallName := .ant .a; let s : State := awake; let s : State := ({ s with pwr := { s.pwr with vmainLow := true } } : State);
      s.canonical = true ∧ n ≠ .mgbScl ∧ (s.pwr.vmainLow = true ∨ (s.pwr.mainOn = false ∧ s.pwr.latch = none))) ∧
    (let s : State := awake; s.canonical = true ∧ (s.ready 2 = false ∨ s.spi.sel = none)) ∧
    (let s : State := awake; let s : State := ({ s with pwr := { s.pwr with mainOn := true } } : State);
      let s : State := ({ s with spi := { s.spi with sel := some .n } } : State); s.canonical = true ∧ s.pwr.vmainLow = false ∧
      s.pwr.mainOn = true ∧ s.ready 2 = true ∧ s.spi.sel ≠ none) ∧
    (let m : Fin 2 := 1; let s : State := awake; let s : State := ({ s with pwr := { s.pwr with mainOn := true } } : State);
      s.canonical = true ∧ s.pwr.vmainLow = false ∧ s.pwr.mainOn = true ∧ s.pwr.latch = none ∧ s.flag (F.ETH_MDIO_GO m.val) = false) ∧
    (let s : State := awake; let s : State := ({ s with pwr := { s.pwr with mainOn := true } } : State); s.canonical = true ∧
      s.pwr.vmainLow = false ∧ s.pwr.mainOn = true ∧ s.pwr.latch = none ∧ s.flag F.SPH_CTL_EN = false) := by
  refine ⟨?_, ?_, ?_, ?_, ?_, ?_, ?_, ?_, ?_, ?_, ?_, ?_, ?_, ?_, ?_, ?_, ?_, ?_, ?_, ?_, ?_, ?_, ?_, ?_, ?_, ?_, ?_, ?_, ?_, ?_, ?_, ?_⟩ <;> decide +kernel

/-- States and operands that meet the hypotheses of FlashAndAgeing, clause by clause. -/
theorem witness_FlashAndAgeing :
    (let r : Req := 64; let s : State := awake.put F.FLC_STAT_BUSY (1);
      let s : State := ((s.put F.FLC_ADDR_OFFSET 0x12340).put F.FLC_SRC_SRC 0x10780010).put F.FLC_LEN_UNITS 3; s.canonical = true ∧
      s.admits r.val Reg.FLC_CMD true = true ∧ s.flag F.FLC_STAT_BUSY = true) ∧
    (let r : Req := 64; let s : State := awake; let s : State := ({ s with flc := { s.flc with op := some ⟨2, 0x40000, []⟩ } } : State);
      s.canonical = true ∧ s.admits r.val Reg.FLC_CMD true = true ∧ s.flag F.FLC_STAT_BUSY = false ∧ s.flc.op ≠ none) ∧
    (let r : Req := 64; let s : State := awake;
      let s : State := ((s.put F.FLC_ADDR_OFFSET 0x12340).put F.FLC_SRC_SRC 0x10780010).put F.FLC_LEN_UNITS 3;
      let s : State := ((s.put F.FLC_ADDR_OFFSET 0x12345).put F.FLC_SRC_SRC 0x10780010).put F.FLC_LEN_UNITS 3; s.canonical = true ∧
      let at' := s.get F.FLC_ADDR_OFFSET; let log := decide (2040 ≤ at' / 4096 ∧ at' / 4096 ≤ 2046);
      s.admits r.val Reg.FLC_CMD true = true ∧ s.flag F.FLC_STAT_BUSY = false ∧ s.flc.op = none ∧
      let n := if s.get F.FLC_LEN_UNITS = 0 then 256 else s.get F.FLC_LEN_UNITS;
      let bad : Prop := at' % 16 ≠ 0 ∨ s.get F.FLC_SRC_SRC % 16 ≠ 0 ∨ 4096 < at' % 4096 + 16 * n ∨ log = true; bad) ∧
    (let r : Req := 64; let s : State := awake;
      let s : State := s.setBit (Reg.FLC_PROT (s.get F.FLC_ADDR_OFFSET / 0x400000)) (s.get F.FLC_ADDR_OFFSET / 0x20000 % 32) true;
      let s : State := ((s.put F.FLC_ADDR_OFFSET 0x12340).put F.FLC_SRC_SRC 0x10780010).put F.FLC_LEN_UNITS 3; s.canonical = true ∧
      let at' := s.get F.FLC_ADDR_OFFSET; let log := decide (2040 ≤ at' / 4096 ∧ at' / 4096 ≤ 2046);
      let prot := s.bit (Reg.FLC_PROT (at' / 0x400000)) (at' / 0x20000 % 32); s.admits r.val Reg.FLC_CMD true = true ∧
      s.flag F.FLC_STAT_BUSY = false ∧ s.flc.op = none ∧ let n := if s.get F.FLC_LEN_UNITS = 0 then 256 else s.get F.FLC_LEN_UNITS;
      let bad : Prop := at' % 16 ≠ 0 ∨ s.get F.FLC_SRC_SRC % 16 ≠ 0 ∨ 4096 < at' % 4096 + 16 * n ∨ log = true; (¬bad) ∧ prot = true) ∧
    (let r : Req := 64; let e : AccErr := .other; let s : State := awake.put F.FLC_STAT_BUSY (0);
      let s : State := ({ s with flc := { s.flc with op := none } } : State);
      let s : State := s.setBit (Reg.FLC_PROT (s.get F.FLC_ADDR_OFFSET / 0x400000)) (s.get F.FLC_ADDR_OFFSET / 0x20000 % 32) false;
      let s : State := ((s.put F.FLC_ADDR_OFFSET 0x12340).put F.FLC_SRC_SRC 0x10780010).put F.FLC_LEN_UNITS 3 |>.put F.FLC_SRC_SRC 0x30000000;
      s.canonical = true ∧ let at' := s.get F.FLC_ADDR_OFFSET; let log := decide (2040 ≤ at' / 4096 ∧ at' / 4096 ≤ 2046);
      let prot := s.bit (Reg.FLC_PROT (at' / 0x400000)) (at' / 0x20000 % 32); s.admits r.val Reg.FLC_CMD true = true ∧
      let c := s.served r.val Reg.FLC_CMD; s.flag F.FLC_STAT_BUSY = false ∧ s.flc.op = none ∧
      let n := if s.get F.FLC_LEN_UNITS = 0 then 256 else s.get F.FLC_LEN_UNITS;
      let bad : Prop := at' % 16 ≠ 0 ∨ s.get F.FLC_SRC_SRC % 16 ≠ 0 ∨ 4096 < at' % 4096 + 16 * n ∨ log = true;
      let x := c.moveRead (s.blockNS 21) 70 (s.get F.FLC_SRC_SRC) (16 * n); (¬bad) ∧ prot = false ∧ x.2 = .error e) ∧
    (let r : Req := 64; let bs : List Byte := List.replicate 48 0; let s : State := awake;
      let s : State := ((s.put F.FLC_ADDR_OFFSET 0x12340).put F.FLC_SRC_SRC 0x10780010).put F.FLC_LEN_UNITS 3; s.canonical = true ∧
      let at' := s.get F.FLC_ADDR_OFFSET; let log := decide (2040 ≤ at' / 4096 ∧ at' / 4096 ≤ 2046);
      let prot := s.bit (Reg.FLC_PROT (at' / 0x400000)) (at' / 0x20000 % 32); s.admits r.val Reg.FLC_CMD true = true ∧
      let c := s.served r.val Reg.FLC_CMD; s.flag F.FLC_STAT_BUSY = false ∧ s.flc.op = none ∧
      let n := if s.get F.FLC_LEN_UNITS = 0 then 256 else s.get F.FLC_LEN_UNITS;
      let bad : Prop := at' % 16 ≠ 0 ∨ s.get F.FLC_SRC_SRC % 16 ≠ 0 ∨ 4096 < at' % 4096 + 16 * n ∨ log = true;
      let x := c.moveRead (s.blockNS 21) 70 (s.get F.FLC_SRC_SRC) (16 * n); (¬bad) ∧ prot = false ∧ x.2 = .ok bs) ∧
    (let r : Req := 64; let s : State := awake.put F.FLC_STAT_UNLOCKED (bit01 false); s.canonical = true ∧
      let open' := s.flag F.FLC_STAT_UNLOCKED; s.admits r.val Reg.FLC_CMD true = true ∧ s.flag F.FLC_STAT_BUSY = false ∧
      s.flc.op = none ∧ open' = false) ∧
    (let r : Req := 64; let s : State := awake.put F.FLC_STAT_UNLOCKED (bit01 true);
      let s : State := ({ s with flc := { s.flc with newWords := [1,2] } } : State); s.canonical = true ∧
      let open' := s.flag F.FLC_STAT_UNLOCKED; s.admits r.val Reg.FLC_CMD true = true ∧ s.flag F.FLC_STAT_BUSY = false ∧
      s.flc.op = none ∧ open' = true ∧ s.flc.newWords.length < 4) ∧
    (let r : Req := 64; let w0 : BitVec 16 := 0; let w1 : BitVec 16 := 0; let w2 : BitVec 16 := 0; let w3 : BitVec 16 := 0;
      let s : State := awake.put F.FLC_STAT_UNLOCKED (bit01 true);
      let s : State := ({ s with flc := { s.flc with newWords := [w0, w1, w2, w3] } } : State);
      let s : State := ({ s with flc := { s.flc with newWords := [w0,w1,w2,w3] } } : State); s.canonical = true ∧
      let open' := s.flag F.FLC_STAT_UNLOCKED; s.admits r.val Reg.FLC_CMD true = true ∧ s.flag F.FLC_STAT_BUSY = false ∧
      s.flc.op = none ∧ open' = true ∧ s.flc.newWords = [w0, w1, w2, w3]) ∧
    (let r : Req := 64; let s : State := awake.put F.FLC_STAT_UNLOCKED (bit01 true);
      let s : State := ({ s with flc := { s.flc with newWords := [1,2,3,4,5] } } : State); s.canonical = true ∧
      let open' := s.flag F.FLC_STAT_UNLOCKED; s.admits r.val Reg.FLC_CMD true = true ∧ s.flag F.FLC_STAT_BUSY = false ∧
      s.flc.op = none ∧ open' = true ∧ 4 < s.flc.newWords.length) ∧
    (let a : Word := 0; let s : State := awake; s.canonical = true ∧ s.flashWaits a.toNat = false) ∧
    (let a : Nat := 0x40000 + 4096 * (0); let bs : List Byte := List.replicate 16 7; let p : Nat := 0; let s : State := awake;
      let s : State := ({ s with mem := [], flc := { s.flc with op := some ⟨2, a, bs⟩ } } : State); s.canonical = true ∧ a % 16 = 0 ∧
      a + 4096 ≤ 0x800000 ∧ s.flc.op = some ⟨2, a, bs⟩ ∧ p ≤ 500) ∧
    (let a : Nat := 0x40000 + 4096 * (0); let bs : List Byte := List.replicate 16 7; let p : Nat := 501 + 0; let x : Nat := 0;
      let s : State := awake; let s : State := ({ s with mem := [], flc := { s.flc with op := some ⟨2, a, bs⟩ } } : State);
      s.canonical = true ∧ a % 16 = 0 ∧ a + 4096 ≤ 0x800000 ∧ s.flc.op = some ⟨2, a, bs⟩ ∧ 500 < p ∧ (x < a ∨ a + 4096 ≤ x)) ∧
    (let a : Nat := 0x40000 + 4096 * (0) + 16 * (0); let bs : List Byte := List.replicate 16 7; let p : Nat := 0;
      let s : State := awake; let s : State := ({ s with mem := [], flc := { s.flc with op := some ⟨1, a, bs⟩ } } : State);
      s.canonical = true ∧ a % 16 = 0 ∧ a + 4096 ≤ 0x800000 ∧ s.flc.op = some ⟨1, a, bs⟩ ∧ bs.length = 16 ∧
      s.bytes a 16 = List.replicate 16 0xFF ∧ p ≤ 8) ∧
    (let a : Nat := 0x40000 + 4096 * (0) + 16 * (0); let bs : List Byte := List.replicate 16 7; let p : Nat := 9 + 0; let x : Nat := 0;
      let s : State := awake; let s : State := ({ s with mem := [], flc := { s.flc with op := some ⟨1, a, bs⟩ } } : State);
      s.canonical = true ∧ a % 16 = 0 ∧ a + 4096 ≤ 0x800000 ∧ s.flc.op = some ⟨1, a, bs⟩ ∧ bs.length = 16 ∧
      s.bytes a 16 = List.replicate 16 0xFF ∧ 8 < p ∧ (x < a ∨ a + 16 ≤ x)) ∧
    (let a : Nat := 0x40000 + 4096 * (0) + 16 * (0); let bs : List Byte := List.replicate 16 7; let s : State := awake.putByte (a+3) 7;
      let s : State := ({ s with mem := [], flc := { s.flc with op := some ⟨1, a, bs⟩ } } : State).putByte (a+3) 7; s.canonical = true ∧
      a % 16 = 0 ∧ a + 4096 ≤ 0x800000 ∧ s.flc.op = some ⟨1, a, bs⟩ ∧ 16 ≤ bs.length ∧ s.bytes a 16 ≠ List.replicate 16 0xFF) ∧
    (let a : Nat := 0x40000 + 4096 * (0); let bs : List Byte := List.replicate 16 7; let s : State := awake;
      let s : State := ({ s with mem := [], flc := { s.flc with op := some ⟨3, a, bs⟩ } } : State); s.canonical = true ∧ a % 16 = 0 ∧
      a + 4096 ≤ 0x800000 ∧ s.flc.op = some ⟨3, a, bs⟩) ∧
    (let a : Nat := 0x40000 + 4096 * (0); let bs : List Byte := List.replicate 16 7; let s : State := awake;
      let s : State := ({ s with mem := [], flc := { s.flc with op := some ⟨4, a, bs⟩ } } : State); s.canonical = true ∧ a % 16 = 0 ∧
      a + 4096 ≤ 0x800000 ∧ s.flc.op = some ⟨4, a, bs⟩) ∧
    (let a : Nat := 0x40000 + 4096 * (0); let bs : List Byte := List.replicate 16 7; let s : State := awake;
      let s : State := ({ s with mem := [], flc := { s.flc with op := some ⟨5, a, bs⟩ } } : State); s.canonical = true ∧ a % 16 = 0 ∧
      a + 4096 ≤ 0x800000 ∧ s.flc.op = some ⟨5, a, bs⟩) ∧
    (let a : Nat := 0x40000 + 4096 * (0); let bs : List Byte := List.replicate 16 7; let s : State := awake;
      let s : State := ({ s with mem := [], flc := { s.flc with op := some ⟨7, a, bs⟩ } } : State); s.canonical = true ∧ a % 16 = 0 ∧
      a + 4096 ≤ 0x800000 ∧ s.flc.op = some ⟨7, a, bs⟩) ∧
    (let a : Nat := 0x40000 + 4096 * (0); let bs : List Byte := List.replicate 16 7; let s : State := awake;
      let s : State := ({ s with mem := [], flc := { s.flc with op := some ⟨15, a, bs⟩ } } : State);
      let s : State := ({ s with flc := { s.flc with head := 256 * (0) + (0), queued := none } } : State); s.canonical = true ∧
      a % 16 = 0 ∧ a + 4096 ≤ 0x800000 ∧ s.flc.op = some ⟨15, a, bs⟩ ∧ bs.length = 16 ∧ s.flc.head < 1792 ∧ s.flc.queued = none) ∧
    (let a : Nat := 0x40000 + 4096 * (0); let bs : List Byte := List.replicate 16 7; let s : State := awake;
      let s : State := ({ s with flc := { s.flc with queued := some 6 } } : State);
      let s : State := ({ s with mem := [], flc := { s.flc with op := some ⟨15, a, bs⟩, queued := some 6 } } : State);
      s.canonical = true ∧ a % 16 = 0 ∧ a + 4096 ≤ 0x800000 ∧ s.flc.op = some ⟨15, a, bs⟩ ∧ bs.length = 16 ∧ s.flc.head < 1792 ∧
      s.flc.queued = some 6) ∧
    (let a : Nat := 0x40FF0; let n : Nat := 1; let bs : List Byte := List.replicate (16 * n) 7; let ps : List Nat := [8];
      let s : State := awake; let s : State := ({ s with mem := [], flc := { s.flc with op := some ⟨1, a, bs⟩ } } : State);
      s.canonical = true ∧ a % 16 = 0 ∧ bs.length = 16 * n ∧ ps.length = n ∧ 1 ≤ n ∧ a % 4096 + 16 * n ≤ 4096 ∧ a + 16 * n ≤ 0x800000 ∧
      s.flc.op = some ⟨1, a, bs⟩ ∧ let erased (i : Nat) : Prop := s.bytes (a + 16 * i) 16 = List.replicate 16 0xFF;
      (∀ i : Nat, i < n → erased i ∧ ps.getD i 1 ≤ 8)) ∧
    (let a : Nat := 0x40FE0; let n : Nat := 2; let bs : List Byte := List.replicate (16 * n) 7; let ps : List Nat := [8, 8];
      let k : Nat := 1; let x : Nat := a + 16 * n; let s : State := awake;
      let s : State := ({ s with mem := [], flc := { s.flc with op := some ⟨1, a, bs⟩ } } : State).putByte (a + 16) 7;
      s.canonical = true ∧ a % 16 = 0 ∧ bs.length = 16 * n ∧ ps.length = n ∧ 1 ≤ n ∧ a % 4096 + 16 * n ≤ 4096 ∧ a + 16 * n ≤ 0x800000 ∧
      s.flc.op = some ⟨1, a, bs⟩ ∧ let erased (i : Nat) : Prop := s.bytes (a + 16 * i) 16 = List.replicate 16 0xFF; k < n ∧
      (∀ i : Nat, i < k → erased i ∧ ps.getD i 1 ≤ 8) ∧ (¬erased k) ∧ a + 16 * k ≤ x) ∧
    (let a : Nat := 0x40FE0; let n : Nat := 2; let bs : List Byte := List.replicate (16 * n) 7; let ps : List Nat := [8, 9];
      let k : Nat := 1; let s : State := awake;
      let s : State := ({ s with mem := [], flc := { s.flc with op := some ⟨1, a, bs⟩ } } : State); s.canonical = true ∧ a % 16 = 0 ∧
      bs.length = 16 * n ∧ ps.length = n ∧ 1 ≤ n ∧ a % 4096 + 16 * n ≤ 4096 ∧ a + 16 * n ≤ 0x800000 ∧ s.flc.op = some ⟨1, a, bs⟩ ∧
      let erased (i : Nat) : Prop := s.bytes (a + 16 * i) 16 = List.replicate 16 0xFF; k < n ∧
      (∀ i : Nat, i < k → erased i ∧ ps.getD i 1 ≤ 8) ∧ erased k ∧ 8 < ps.getD k 1) ∧
    (let h : Nat := 0x7F8000 + 16 * (0); let bs : List Byte := List.replicate 16 7; let s : State := awake;
      let s : State := ((s.put F.FLC_ADDR_OFFSET 0x12340).put F.FLC_SRC_SRC 0x10780010).put F.FLC_LEN_UNITS 3;
      let s : State := ((s.put F.FLC_ADDR_OFFSET 0x12345).put F.FLC_SRC_SRC 0x10780010).put F.FLC_LEN_UNITS 3;
      let s : State := ((s.put F.FLC_ADDR_OFFSET 0x12345).put F.FLC_SRC_SRC 0x10780010).put F.FLC_LEN_UNITS 3;
      let s : State := ({ s with inForce := none, flc := { s.flc with op := some ⟨15, h, bs⟩, head := 0, queued := some 1 } } : State).put F.FLC_STAT_BUSY 1;
      s.canonical = true ∧ let at' := s.get F.FLC_ADDR_OFFSET; let log := decide (2040 ≤ at' / 4096 ∧ at' / 4096 ≤ 2046);
      s.flc.op = some ⟨15, h, bs⟩ ∧ s.inForce = none ∧ let n := if s.get F.FLC_LEN_UNITS = 0 then 256 else s.get F.FLC_LEN_UNITS;
      let bad : Prop := at' % 16 ≠ 0 ∨ s.get F.FLC_SRC_SRC % 16 ≠ 0 ∨ 4096 < at' % 4096 + 16 * n ∨ log = true; bad) ∧
    (let h : Nat := 0x7F8000 + 16 * (0); let bs : List Byte := List.replicate 16 7; let s : State := awake;
      let s : State := ((s.put F.FLC_ADDR_OFFSET 0x12340).put F.FLC_SRC_SRC 0x10780010).put F.FLC_LEN_UNITS 3;
      let s : State := s.setBit (Reg.FLC_PROT (s.get F.FLC_ADDR_OFFSET / 0x400000)) (s.get F.FLC_ADDR_OFFSET / 0x20000 % 32) true;
      let s : State := ((s.put F.FLC_ADDR_OFFSET 0x12340).put F.FLC_SRC_SRC 0x10780010).put F.FLC_LEN_UNITS 3;
      let s : State := ({ s with inForce := none, flc := { s.flc with op := some ⟨15, h, bs⟩, head := 0, queued := some 1 } } : State).put F.FLC_STAT_BUSY 1;
      s.canonical = true ∧ let at' := s.get F.FLC_ADDR_OFFSET; let log := decide (2040 ≤ at' / 4096 ∧ at' / 4096 ≤ 2046);
      let prot := s.bit (Reg.FLC_PROT (at' / 0x400000)) (at' / 0x20000 % 32); s.flc.op = some ⟨15, h, bs⟩ ∧ s.inForce = none ∧
      let n := if s.get F.FLC_LEN_UNITS = 0 then 256 else s.get F.FLC_LEN_UNITS;
      let bad : Prop := at' % 16 ≠ 0 ∨ s.get F.FLC_SRC_SRC % 16 ≠ 0 ∨ 4096 < at' % 4096 + 16 * n ∨ log = true; (¬bad) ∧ prot = true) ∧
    (let p : List Nat := []; let h : Nat := 0x7F8000 + 16 * (0); let bs : List Byte := List.replicate 16 7; let e : AccErr := .other;
      let s : State := awake; let s : State := ((s.put F.FLC_ADDR_OFFSET 0x12340).put F.FLC_SRC_SRC 0x10780010).put F.FLC_LEN_UNITS 3;
      let s : State := ((s.put F.FLC_ADDR_OFFSET 0x12340).put F.FLC_SRC_SRC 0x30000000).put F.FLC_LEN_UNITS 3;
      let s : State := ((s.put F.FLC_ADDR_OFFSET 0x12340).put F.FLC_SRC_SRC 0x10780010).put F.FLC_LEN_UNITS 3 |>.put F.FLC_SRC_SRC 0x30000000;
      let s : State := ({ s with inForce := none, flc := { s.flc with op := some ⟨15, h, bs⟩, head := 0, queued := some 1 } } : State).put F.FLC_STAT_BUSY 1;
      s.canonical = true ∧ let at' := s.get F.FLC_ADDR_OFFSET; let log := decide (2040 ≤ at' / 4096 ∧ at' / 4096 ≤ 2046);
      let prot := s.bit (Reg.FLC_PROT (at' / 0x400000)) (at' / 0x20000 % 32); s.flc.op = some ⟨15, h, bs⟩ ∧ s.inForce = none ∧
      let q : State := ({ s with flc := { s.flc with queued := none } } : State).flashEnds p;
      let n := if s.get F.FLC_LEN_UNITS = 0 then 256 else s.get F.FLC_LEN_UNITS;
      let bad : Prop := at' % 16 ≠ 0 ∨ s.get F.FLC_SRC_SRC % 16 ≠ 0 ∨ 4096 < at' % 4096 + 16 * n ∨ log = true;
      let x := q.moveRead (s.blockNS 21) 70 (s.get F.FLC_SRC_SRC) (16 * n); (¬bad) ∧ prot = false ∧ x.2 = .error e) ∧
    (let p : List Nat := []; let h : Nat := 0x7F8000 + 16 * (0); let bs : List Byte := List.replicate 16 7; let s : State := awake;
      let s : State := ((s.put F.FLC_ADDR_OFFSET 0x12340).put F.FLC_SRC_SRC 0x10780010).put F.FLC_LEN_UNITS 3;
      let s : State := ((s.put F.FLC_ADDR_OFFSET 0x12340).put F.FLC_SRC_SRC 0x10780010).put F.FLC_LEN_UNITS 3;
      let s : State := ({ s with inForce := none, flc := { s.flc with op := some ⟨15, h, bs⟩, head := 0, queued := some 1 } } : State).put F.FLC_STAT_BUSY 1;
      let ds : List Byte := (match (({ s with flc := { s.flc with queued := none } } : State).flashEnds p).moveRead (s.blockNS 21) 70 (s.get F.FLC_SRC_SRC) (16 * 3) with | (_, .ok bs) => bs | _ => []);
      s.canonical = true ∧ let at' := s.get F.FLC_ADDR_OFFSET; let log := decide (2040 ≤ at' / 4096 ∧ at' / 4096 ≤ 2046);
      let prot := s.bit (Reg.FLC_PROT (at' / 0x400000)) (at' / 0x20000 % 32); s.flc.op = some ⟨15, h, bs⟩ ∧ s.inForce = none ∧
      let q : State := ({ s with flc := { s.flc with queued := none } } : State).flashEnds p;
      let n := if s.get F.FLC_LEN_UNITS = 0 then 256 else s.get F.FLC_LEN_UNITS;
      let bad : Prop := at' % 16 ≠ 0 ∨ s.get F.FLC_SRC_SRC % 16 ≠ 0 ∨ 4096 < at' % 4096 + 16 * n ∨ log = true;
      let x := q.moveRead (s.blockNS 21) 70 (s.get F.FLC_SRC_SRC) (16 * n); (¬bad) ∧ prot = false ∧ x.2 = .ok ds) ∧
    (let h : Nat := 0x7F8000 + 16 * (0); let bs : List Byte := List.replicate 16 7;
      let s : State := awake.put F.FLC_STAT_UNLOCKED (bit01 false);
      let s : State := ({ s with inForce := none, flc := { s.flc with op := some ⟨15, h, bs⟩, head := 0, queued := some 5 } } : State).put F.FLC_STAT_BUSY 1;
      s.canonical = true ∧ let open' := s.flag F.FLC_STAT_UNLOCKED; s.flc.op = some ⟨15, h, bs⟩ ∧ s.inForce = none ∧ open' = false) ∧
    (let h : Nat := 0x7F8000 + 16 * (0); let bs : List Byte := List.replicate 16 7;
      let s : State := awake.put F.FLC_STAT_UNLOCKED (bit01 true);
      let s : State := ({ s with flc := { s.flc with newWords := [1,2] } } : State);
      let s : State := ({ s with inForce := none, flc := { s.flc with op := some ⟨15, h, bs⟩, head := 0, queued := some 5 } } : State).put F.FLC_STAT_BUSY 1;
      s.canonical = true ∧ let open' := s.flag F.FLC_STAT_UNLOCKED; s.flc.op = some ⟨15, h, bs⟩ ∧ s.inForce = none ∧ open' = true ∧
      s.flc.newWords.length < 4) ∧
    (let h : Nat := 0x7F8000 + 16 * (0); let bs : List Byte := List.replicate 16 7; let w0 : BitVec 16 := 0; let w1 : BitVec 16 := 0;
      let w2 : BitVec 16 := 0; let w3 : BitVec 16 := 0; let s : State := awake.put F.FLC_STAT_UNLOCKED (bit01 true);
      let s : State := ({ s with flc := { s.flc with newWords := [w0, w1, w2, w3] } } : State);
      let s : State := ({ s with flc := { s.flc with newWords := [w0,w1,w2,w3] } } : State);
      let s : State := ({ s with inForce := none, flc := { s.flc with op := some ⟨15, h, bs⟩, head := 0, queued := some 5 } } : State).put F.FLC_STAT_BUSY 1;
      s.canonical = true ∧ let open' := s.flag F.FLC_STAT_UNLOCKED; s.flc.op = some ⟨15, h, bs⟩ ∧ s.inForce = none ∧ open' = true ∧
      s.flc.newWords = [w0, w1, w2, w3]) ∧
    (let r : Req := 64; let s : State := awake.put F.FLC_STAT_LOCKOUT (1); s.canonical = true ∧ let open' := s.flag F.FLC_STAT_UNLOCKED;
      s.admits r.val Reg.FLC_PWDIN true = true ∧ (s.flag F.FLC_STAT_LOCKOUT = true ∨ (open' = true ∧ 5 ≤ s.flc.newWords.length))) ∧
    (let r : Req := 64; let s : State := awake.put F.FLC_STAT_UNLOCKED (bit01 true);
      let s : State := ({ s with flc := { s.flc with newWords := [1,2,3] } } : State); s.canonical = true ∧
      let open' := s.flag F.FLC_STAT_UNLOCKED; s.admits r.val Reg.FLC_PWDIN true = true ∧ s.flag F.FLC_STAT_LOCKOUT = false ∧
      open' = true ∧ s.flc.newWords.length < 5) ∧
    (let r : Req := 64; let s : State := awake.put F.FLC_STAT_UNLOCKED (bit01 false);
      let s : State := ({ s with flc := { s.flc with words := [1] } } : State); s.canonical = true ∧
      let open' := s.flag F.FLC_STAT_UNLOCKED; s.admits r.val Reg.FLC_PWDIN true = true ∧ s.flag F.FLC_STAT_LOCKOUT = false ∧
      open' = false ∧ s.flc.words.length < 3) ∧
    (let r : Req := 64; let w : BitVec 16 := 0xFFFF; let w0 : BitVec 16 := 0xFFFF; let w1 : BitVec 16 := 0xFFFF;
      let w2 : BitVec 16 := 0xFFFF; let s : State := awake.put F.FLC_STAT_UNLOCKED (bit01 false);
      let s : State := ({ s with flc := { s.flc with words := [w0, w1, w2] } } : State); s.canonical = true ∧
      let open' := s.flag F.FLC_STAT_UNLOCKED; s.admits r.val Reg.FLC_PWDIN true = true ∧ s.flag F.FLC_STAT_LOCKOUT = false ∧
      open' = false ∧ s.flc.words = [w0, w1, w2] ∧
      let right : Prop := ((w0.toNat * 65536 + w1.toNat) * 65536 + w2.toNat) * 65536 + w.toNat = s.flc.pwd.toNat; right) ∧
    (let r : Req := 64; let w : BitVec 16 := 0; let w0 : BitVec 16 := 0; let w1 : BitVec 16 := 0; let w2 : BitVec 16 := 0;
      let s : State := awake.put F.FLC_STAT_UNLOCKED (bit01 false);
      let s : State := ({ s with flc := { s.flc with words := [w0, w1, w2] } } : State); s.canonical = true ∧
      let open' := s.flag F.FLC_STAT_UNLOCKED; s.admits r.val Reg.FLC_PWDIN true = true ∧ s.flag F.FLC_STAT_LOCKOUT = false ∧
      open' = false ∧ s.flc.words = [w0, w1, w2] ∧
      let right : Prop := ((w0.toNat * 65536 + w1.toNat) * 65536 + w2.toNat) * 65536 + w.toNat = s.flc.pwd.toNat; (¬right)) ∧
    (let r : Req := 64; let s : State := awake; s.canonical = true ∧ let at' := s.get F.FLC_ADDR_OFFSET;
      let log := decide (2040 ≤ at' / 4096 ∧ at' / 4096 ≤ 2046); s.admits r.val Reg.FLC_LOGADD true = true ∧ s.pwrState ≤ 1 ∧
      s.flc.log.length < 16) ∧
    (let r : Req := 64; let s : State := awake;
      let s : State := ({ s with flc := { s.flc with log := List.replicate 16 ⟨9, 5⟩ } } : State); s.canonical = true ∧
      let at' := s.get F.FLC_ADDR_OFFSET; let log := decide (2040 ≤ at' / 4096 ∧ at' / 4096 ≤ 2046);
      s.admits r.val Reg.FLC_LOGADD true = true ∧ s.pwrState ≤ 1 ∧ 16 ≤ s.flc.log.length) ∧
    (let s : State := awake; s.canonical = true ∧ let at' := s.get F.FLC_ADDR_OFFSET;
      let log := decide (2040 ≤ at' / 4096 ∧ at' / 4096 ≤ 2046);
      let free : Prop := s.flc.op = none ∧ s.ready 21 = true ∧ s.pwr.mainOn = true ∧ s.pwrState ≤ 1; (s.flc.log = [] ∨ ¬free)) ∧
    (let x : LogRec := ⟨9, 5⟩; let rest : List LogRec := []; let s : State := awake;
      let s : State := ({ s with flc := { s.flc with log := x :: rest } } : State); s.canonical = true ∧
      let at' := s.get F.FLC_ADDR_OFFSET; let log := decide (2040 ≤ at' / 4096 ∧ at' / 4096 ≤ 2046);
      let free : Prop := s.flc.op = none ∧ s.ready 21 = true ∧ s.pwr.mainOn = true ∧ s.pwrState ≤ 1; s.flc.log = x :: rest ∧ free) ∧
    (let r : Req := (70 : Req); let a : Word := BitVec.ofNat 32 (4 * (0)); let s : State := State.reset; s.canonical = true ∧
      a.toNat < 0x800000 ∧ s.canReach r.val = false) ∧
    (let r : Req := 64; let a : Word := BitVec.ofNat 32 (4 * (0)); let s : State := awake;
      let s : State := ({ s with pwr := { s.pwr with mainOn := true } } : State);
      let s : State := ({ s with flc := { s.flc with op := some ⟨2, 0x40000, []⟩ } } : State); s.canonical = true ∧ a.toNat < 0x800000 ∧
      s.canReach r.val = true ∧ s.flc.op ≠ none) ∧
    (let r : Req := 66; let a : Word := BitVec.ofNat 32 (4 * (0)); let s : State := awake;
      let s : State := ({ s with pwr := { s.pwr with mainOn := true } } : State); s.canonical = true ∧ a.toNat < 0x800000 ∧
      let barred : Prop := s.reqNS r.val = true ∧ s.memNS a.toNat = false; s.canReach r.val = true ∧ s.flc.op = none ∧ a.toNat % 4 = 0 ∧
      barred) ∧
    (let r : Req := 64; let a : Word := BitVec.ofNat 32 (4 * (0) + 1); let s : State := awake;
      let s : State := ({ s with pwr := { s.pwr with mainOn := true } } : State); s.canonical = true ∧ a.toNat < 0x800000 ∧
      let barred : Prop := s.reqNS r.val = true ∧ s.memNS a.toNat = false; s.canReach r.val = true ∧ s.flc.op = none ∧
      (a.toNat % 4 ≠ 0 ∨ (¬barred ∧ s.ready 21 = false))) ∧
    (let r : Req := 64; let a : Word := BitVec.ofNat 32 (4 * (0)); let bad : Nat := 0; let s : State := awake;
      let s : State := ({ s with pwr := { s.pwr with mainOn := true } } : State); s.canonical = true ∧ a.toNat < 0x800000 ∧
      let barred : Prop := s.reqNS r.val = true ∧ s.memNS a.toNat = false; let bits := if bad = 0 then s.eccBits a.toNat else bad;
      s.canReach r.val = true ∧ s.flc.op = none ∧ a.toNat % 4 = 0 ∧ (¬barred) ∧ s.ready 21 = true ∧ bits = 0) ∧
    (let r : Req := 64; let a : Word := BitVec.ofNat 32 (4 * (0)); let bad : Nat := 1; let s : State := awake;
      let s : State := ({ s with pwr := { s.pwr with mainOn := true } } : State); s.canonical = true ∧ a.toNat < 0x800000 ∧
      let barred : Prop := s.reqNS r.val = true ∧ s.memNS a.toNat = false; let bits := if bad = 0 then s.eccBits a.toNat else bad;
      s.canReach r.val = true ∧ s.flc.op = none ∧ a.toNat % 4 = 0 ∧ (¬barred) ∧ s.ready 21 = true ∧ bits = 1) ∧
    (let r : Req := 64; let a : Word := BitVec.ofNat 32 (4 * (0)); let bad : Nat := 2; let s : State := awake;
      let s : State := ({ s with pwr := { s.pwr with mainOn := true } } : State); s.canonical = true ∧ a.toNat < 0x800000 ∧
      let barred : Prop := s.reqNS r.val = true ∧ s.memNS a.toNat = false; let bits := if bad = 0 then s.eccBits a.toNat else bad;
      s.canReach r.val = true ∧ s.flc.op = none ∧ a.toNat % 4 = 0 ∧ (¬barred) ∧ s.ready 21 = true ∧ 2 ≤ bits) ∧
    (let s : State := State.reset; s.canonical = true ∧ s.awake = false) ∧
    (let r : Req := 64; let s : State := awake.put F.AGE_CFG_MODE (1 + 0) |>.put F.SFM_STAT_RUNNING 1; s.canonical = true ∧
      let mode := s.get F.AGE_CFG_MODE; let standing := s.get F.AGE_STAT_STATE; mode ≠ 0 ∧ standing = 0 ∧
      (s.running = true ∨ mode ≠ 2) ∧ s.admits r.val Reg.AGE_CMD true = true) ∧
    (let s : State := awake.put F.AGE_CFG_MODE (1 + 0) |>.put F.SFM_STAT_RUNNING 1;
      let s : State := ({ s with pwr := { s.pwr with mainOn := true } } : State).put F.PWR_STAT_STATE 0; s.canonical = true ∧
      let mode := s.get F.AGE_CFG_MODE; let standing := s.get F.AGE_STAT_STATE; mode ≠ 0 ∧ standing = 0 ∧
      (s.running = true ∨ mode ≠ 2) ∧ s.awake = true) ∧
    (let r : Req := 64; let s : State := awake.put F.AGE_CFG_MODE (1 + 0) |>.put F.AGE_STAT_STATE (1 + 0) |>.put F.SFM_STAT_RUNNING 1;
      s.canonical = true ∧ let mode := s.get F.AGE_CFG_MODE; let standing := s.get F.AGE_STAT_STATE; mode ≠ 0 ∧ standing ≠ 0 ∧
      s.running = true ∧ s.admits r.val Reg.AGE_CMD true = true) ∧
    (let s : State := awake.put F.AGE_CFG_MODE (1 + 0) |>.put F.AGE_STAT_STATE (1 + 0) |>.put F.SFM_STAT_RUNNING 1;
      let s : State := ({ s with pwr := { s.pwr with mainOn := true } } : State).put F.PWR_STAT_STATE 0; s.canonical = true ∧
      let mode := s.get F.AGE_CFG_MODE; let standing := s.get F.AGE_STAT_STATE; mode ≠ 0 ∧ standing ≠ 0 ∧ s.running = true ∧
      s.awake = true) ∧
    (let r : Req := 64; let s : State := awake.put F.AGE_CFG_MODE 2; s.canonical = true ∧ let mode := s.get F.AGE_CFG_MODE;
      let standing := s.get F.AGE_STAT_STATE; mode = 2 ∧ standing = 0 ∧ s.running = false ∧ s.admits r.val Reg.AGE_CMD true = true) ∧
    (let s : State := awake.put F.AGE_CFG_MODE 2;
      let s : State := ({ s with pwr := { s.pwr with mainOn := true } } : State).put F.PWR_STAT_STATE 0; s.canonical = true ∧
      let mode := s.get F.AGE_CFG_MODE; let standing := s.get F.AGE_STAT_STATE; mode = 2 ∧ standing = 0 ∧ s.running = false ∧
      s.awake = true) ∧
    (let r : Req := 64; let s : State := awake.put F.AGE_STAT_STATE (1 + 0);
      let s : State := (s.put F.AGE_STAT_STATE (1 + 0)).put F.AGE_CFG_MODE 2; s.canonical = true ∧ let mode := s.get F.AGE_CFG_MODE;
      let standing := s.get F.AGE_STAT_STATE; standing ≠ 0 ∧ s.running = false ∧
      let decided : Prop := standing = 2 ∨ (standing = 1 ∧ mode = 2); decided ∧ s.admits r.val Reg.AGE_CMD true = true) ∧
    (let s : State := awake.put F.AGE_STAT_STATE (1 + 0); let s : State := (s.put F.AGE_STAT_STATE (1 + 0)).put F.AGE_CFG_MODE 2;
      let s : State := ({ s with pwr := { s.pwr with mainOn := true } } : State).put F.PWR_STAT_STATE 0; s.canonical = true ∧
      let mode := s.get F.AGE_CFG_MODE; let standing := s.get F.AGE_STAT_STATE; standing ≠ 0 ∧ s.running = false ∧
      let decided : Prop := standing = 2 ∨ (standing = 1 ∧ mode = 2); decided ∧ s.awake = true) ∧
    (let r : Req := 64; let s : State := awake.put F.AGE_STAT_STATE (1 + 0);
      let s : State := (s.put F.AGE_STAT_STATE 1).put F.AGE_CFG_MODE (0) |>.put F.AGE_CFG_MODE (1 + 0); s.canonical = true ∧
      let mode := s.get F.AGE_CFG_MODE; let standing := s.get F.AGE_STAT_STATE; standing ≠ 0 ∧ s.running = false ∧
      let decided : Prop := standing = 2 ∨ (standing = 1 ∧ mode = 2); (¬decided) ∧ mode ≠ 0 ∧ s.admits r.val Reg.AGE_CMD true = true) ∧
    (let s : State := awake.put F.AGE_STAT_STATE (1 + 0);
      let s : State := (s.put F.AGE_STAT_STATE 1).put F.AGE_CFG_MODE (0) |>.put F.AGE_CFG_MODE (1 + 0);
      let s : State := ({ s with pwr := { s.pwr with mainOn := true } } : State).put F.PWR_STAT_STATE 0; s.canonical = true ∧
      let mode := s.get F.AGE_CFG_MODE; let standing := s.get F.AGE_STAT_STATE; standing ≠ 0 ∧ s.running = false ∧
      let decided : Prop := standing = 2 ∨ (standing = 1 ∧ mode = 2); (¬decided) ∧ mode ≠ 0 ∧ s.awake = true) ∧
    (let r : Req := 64; let s : State := awake.put F.SFM_CTL_RUN 1; s.canonical = true ∧ let mode := s.get F.AGE_CFG_MODE;
      let standing := s.get F.AGE_STAT_STATE; mode = 0 ∧ (standing ≠ 2 ∨ s.running = true) ∧ s.admits r.val Reg.AGE_CMD true = true) ∧
    (let s : State := awake.put F.SFM_CTL_RUN 1;
      let s : State := ({ s with pwr := { s.pwr with mainOn := true } } : State).put F.PWR_STAT_STATE 0; s.canonical = true ∧
      let mode := s.get F.AGE_CFG_MODE; let standing := s.get F.AGE_STAT_STATE; mode = 0 ∧ (standing ≠ 2 ∨ s.running = true) ∧
      s.awake = true) ∧
    (let r : Req := 64; let s : State := awake.put F.AGE_STAT_STATE 1 |>.put F.SFM_STAT_RUNNING 1; s.canonical = true ∧
      let standing := s.get F.AGE_STAT_STATE; s.admits r.val Reg.AGE_CMD true = true ∧ standing = 1 ∧ s.running = true) ∧
    (let r : Req := 64; let s : State := awake.put F.AGE_STAT_STATE 1; s.canonical = true ∧ let standing := s.get F.AGE_STAT_STATE;
      s.admits r.val Reg.AGE_CMD true = true ∧ standing = 1 ∧ s.running = false) ∧
    (let r : Req := 64; let s : State := awake.put F.AGE_STAT_STATE 1 |>.put F.AGE_CFG_MODE 1; s.canonical = true ∧
      let mode := s.get F.AGE_CFG_MODE; let standing := s.get F.AGE_STAT_STATE; s.admits r.val Reg.AGE_CMD true = true ∧ standing = 1 ∧
      mode ≠ 2) ∧
    (let r : Req := 64; let s : State := awake; s.canonical = true ∧ let mode := s.get F.AGE_CFG_MODE;
      let standing := s.get F.AGE_STAT_STATE; s.admits r.val Reg.AGE_CMD true = true ∧ (standing ≠ 1 ∨ mode = 2)) ∧
    (let s : State := awake; s.canonical = true ∧ let en (i : Nat) : Bool := (s.get F.AGE_CFG_EN).testBit i; en 0 = true) ∧
    (let s : State := awake.put F.AGE_CFG_EN (#[0,2,4,6,8,9,15].getD (0) 0); s.canonical = true ∧
      let en (i : Nat) : Bool := (s.get F.AGE_CFG_EN).testBit i; en 0 = false) ∧
    (let s : State := awake.put F.AGE_CFG_EN (#[0,2,4,6,8,9,15].getD (0) 0); s.canonical = true ∧
      let en (i : Nat) : Bool := (s.get F.AGE_CFG_EN).testBit i; en 1 = false) ∧
    (let s : State := awake.put F.AGE_CFG_EN (#[0,2,4,6,8,9,15].getD (0) 0); s.canonical = true ∧
      let en (i : Nat) : Bool := (s.get F.AGE_CFG_EN).testBit i; en 2 = false) ∧
    (let s : State := awake.put F.AGE_CFG_EN (#[0,2,4,6,8,9,15].getD (0) 0); s.canonical = true ∧
      let en (i : Nat) : Bool := (s.get F.AGE_CFG_EN).testBit i; en 3 = false) ∧
    (let s : State := awake; let s : State := ({ s with age := { s.age with detCount := 0 } } : State); s.canonical = true ∧
      let en (i : Nat) : Bool := (s.get F.AGE_CFG_EN).testBit i; en 1 = true ∧ s.age.detCount = 0) ∧
    (let s : State := awake; let s : State := ({ s with age := { s.age with detSum := -30, detCount := 1 } } : State);
      s.canonical = true ∧ let p := s.proposal; let en (i : Nat) : Bool := (s.get F.AGE_CFG_EN).testBit i; en 1 = true ∧
      s.age.detCount ≠ 0 ∧ p.steps < 15) ∧
    (let s : State := awake; let s : State := ({ s with age := { s.age with detSum := 30, detCount := 1 } } : State);
      s.canonical = true ∧ let p := s.proposal; let en (i : Nat) : Bool := (s.get F.AGE_CFG_EN).testBit i; en 1 = true ∧
      s.age.detCount ≠ 0 ∧ 0 < p.steps) ∧
    (let s : State := awake; s.canonical = true ∧ let en (i : Nat) : Bool := (s.get F.AGE_CFG_EN).testBit i; en 2 = true) ∧
    (let s : State := awake; s.canonical = true ∧ let en (i : Nat) : Bool := (s.get F.AGE_CFG_EN).testBit i; en 3 = true) ∧
    (let o : FlcOp := ⟨2, 0x40000, []⟩; let s : State := awake;
      let s : State := ({ s with pwr := { s.pwr with mainOn := true } } : State);
      let s : State := ({ s with flc := { s.flc with op := some o, queued := some 3 } } : State);
      let s : State := (if 0 = 0 then s.put F.FLC_ABORT_VALID 0 else s.put F.FLC_ABORT_VALID 1); s.canonical = true ∧
      s.flc.op = some o ∧ s.flag F.PWR_SUPPLY_SRC = false ∧ s.pwr.mainOn = true ∧ s.pwrState ≤ 2 ∧ s.pwr.inReset = false) ∧
    (let o : FlcOp := ⟨2, 0x40000, []⟩; let s : State := awake;
      let s : State := ({ s with flc := { s.flc with op := some o, queued := some 3 } } : State);
      let s : State := (if 0 = 0 then s.put F.FLC_ABORT_VALID 0 else s.put F.FLC_ABORT_VALID 1); s.canonical = true ∧
      s.flc.op = some o ∧ s.pwr.thermOff = false) ∧
    (let r : Req := 64; let o : FlcOp := ⟨2, 0x40000, []⟩; let s : State := awake;
      let s : State := ({ s with flc := { s.flc with op := some o, queued := some 3 } } : State);
      let s : State := (if 0 = 0 then s.put F.FLC_ABORT_VALID 0 else s.put F.FLC_ABORT_VALID 1); s.canonical = true ∧
      s.flc.op = some o ∧ s.admits r.val Reg.PWR_RST true = true) ∧
    (let raws : List Int := []; let s : State := awake;
      let s : State := ({ s with pwr := { s.pwr with mainOn := true } } : State).put F.PWR_STAT_STATE 0; s.canonical = true ∧
      s.awake = true ∧ raws.length ≤ 24) := by
  refine ⟨?_, ?_, ?_, ?_, ?_, ?_, ?_, ?_, ?_, ?_, ?_, ?_, ?_, ?_, ?_, ?_, ?_, ?_, ?_, ?_, ?_, ?_, ?_, ?_, ?_, ?_, ?_, ?_, ?_, ?_, ?_, ?_, ?_, ?_, ?_, ?_, ?_, ?_, ?_, ?_, ?_, ?_, ?_, ?_, ?_, ?_, ?_, ?_, ?_, ?_, ?_, ?_, ?_, ?_, ?_, ?_, ?_, ?_, ?_, ?_, ?_, ?_, ?_, ?_, ?_, ?_, ?_, ?_, ?_, ?_, ?_, ?_, ?_, ?_, ?_, ?_, ?_, ?_, ?_⟩ <;> decide +kernel

/-- A canonical state with a step, for StepKeepsCanonicalForm and StepConsumesOneCommand. -/
theorem witness_Steps :
    let s : State := { awake with pending := [.gainSettled .a, .rstin] }
    s.canonical = true ∧ ∃ t, step s = .next t :=
  ⟨by decide +kernel, _, rfl⟩

/-! ## Premises that stand inside a conclusion -/

/-- HeadersAndSecondMatches: after a failed header there is no later match, or one in the recorded bits. -/
theorem witness_HeadersAndSecondMatches_later :
    let l : Lane := { state := .header, window := badHeader, lock := { aLock with tol := 0 }, hist := List.replicate 64 false, count := 64 }
    earliestMatch l.laterMatches = none ∧
      earliestMatch ({ l with hist := List.replicate 20 false ++ List.replicate 16 true ++ List.replicate 28 false } : Lane).laterMatches =
        some (20, 0, false) := by decide +kernel

/-- LanesLockOnTheBestMatch: a pattern that the history is long enough for. -/
theorem witness_LanesLockOnTheBestMatch_patterns :
    ∃ p ∈ aLock.pats, p.1.length ≤ (List.replicate 16 false).length ∧ aLock.matchAt (List.replicate 16 false) = none := by decide +kernel

/-- PowerStates: a request during a transition, one for the state and operating point there are, and one for others. -/
theorem witness_PowerStates_asked :
    let busy : State := { awake with pwr := { awake.pwr with trans := some ⟨2, 0, true⟩ } }
    busy.canonical = true ∧ busy.pwr.trans ≠ none ∧ awake.canonical = true ∧ awake.pwr.trans = none ∧ awake.pwrState = 0 ∧
      awake.get F.PWR_STAT_OP = 0 := by decide +kernel

/-- SlotsAdvance: the next slot begins a superframe, or does not. -/
theorem witness_SlotsAdvance_next :
    (awake.sfm.asn.toNat + 1) % 128 ≠ 0 ∧ (({ awake.sfm with asn := 0xFFFFFFFF7F } : Sfm).asn.toNat + 1) % 128 = 0 := by decide +kernel

/-- PairRoles: a standby that has not yet taken the time, with slots stopped and with slots running. -/
theorem witness_PairRoles_time :
    let stopped := awake.put F.SPH_STAT_STATE 2
    let running := stopped.put F.SFM_STAT_RUNNING 1
    stopped.sph.timed = false ∧ stopped.running = false ∧ running.sph.timed = false ∧ running.running = true := by decide +kernel

/-- SuppliesAndResets: a brown-out while RSTIN is asserted, and while it is not. -/
theorem witness_SuppliesAndResets_brownout :
    let s : State := { awake with pwr := { awake.pwr with inReset := true } }
    s.canonical = true ∧ s.pwr.inReset = true ∧ awake.pwr.inReset = false ∧ awake.flc.op = none := by decide +kernel

/-- FlashAndAgeing: the host wrote a target of the plan, or wrote none. -/
theorem witness_FlashAndAgeing_stale :
    ({ awake with age := { stale := true } } : State).age.stale = true ∧ awake.age.stale = false := by decide +kernel

end Sys2Proof.Tests
end

section
/-! PROOFS. The accesses of 00_scope.md: access codes of writes, posted and ignored writes, reads that clear and capture, and the
locks of blocks and worlds. -/

namespace Sys2Proof.Machine

variable {s t : State} {r a k : Nat} {v w : Word} {x : RegRow}

/-! ## The register map -/

/-- An assigned register has its row among those of its block. -/
theorem mem_blockRows_of_rowAt (h : rowAt a = some x) : x ∈ blockRows (keyBlock a) := List.mem_of_find?_eq_some h

/-- The map has rows in blocks 0 to 23 alone. -/
theorem blockRows_eq_nil {i : Nat} (h : 24 ≤ i) : blockRows i = [] := by
  obtain ⟨j, rfl⟩ := Nat.exists_eq_add_of_le' h
  rfl

/-- What a check of the whole map says of each assigned register. -/
theorem forall_rowAt {p : RegRow → Bool} (hp : ∀ i : Fin 24, (blockRows i.val).all p = true) (h : rowAt a = some x) :
    p x = true := by
  have hm := mem_blockRows_of_rowAt h
  rcases Nat.lt_or_ge (keyBlock a) 24 with hi | hi
  · exact List.all_eq_true.mp (hp ⟨keyBlock a, hi⟩) x hm
  · simp [blockRows_eq_nil hi] at hm

/-! ## The bits of a written register (00 R7, R11) -/

/-- The bits that a write sets have no other code, and no bit is both W1C and W1S (R7). -/
def RegRow.codesApart (x : RegRow) : Bool :=
  ((x.wr ||| x.wrl) &&& (x.w1c ||| x.w1s) == 0) && (x.w1c &&& x.w1s == 0)

theorem codesApart_of_rowAt (h : rowAt a = some x) : x.codesApart = true :=
  forall_rowAt (p := RegRow.codesApart) (by decide +kernel) h

theorem RegRow.codesApart_testBit (h : x.codesApart = true) (i : Nat) :
    ((x.wr.testBit i || x.wrl.testBit i) && (x.w1c.testBit i || x.w1s.testBit i)) = false ∧
      (x.w1c.testBit i && x.w1s.testBit i) = false := by
  simp only [RegRow.codesApart, Bool.and_eq_true, beq_iff_eq] at h
  obtain ⟨hset, hone⟩ := h
  rw [← Nat.testBit_or, ← Nat.testBit_or, ← Nat.testBit_and, ← Nat.testBit_and, hset, hone]
  simp

theorem getLsbD_mergeBits (m : Nat) (old new : Word) {i : Nat} (hi : i < 32) :
    (mergeBits m old new).getLsbD i = if m.testBit i then new.getLsbD i else old.getLsbD i := by
  simp only [mergeBits, BitVec.getLsbD_or, BitVec.getLsbD_and, BitVec.getLsbD_not, BitVec.getLsbD_ofNat, hi]
  cases m.testBit i <;> simp

/-- A write sets the writable bits, then clears by W1C and sets by W1S. -/
theorem RegRow.getLsbD_written (x : RegRow) (locked : Bool) (old v : Word) {i : Nat} (hi : i < 32) :
    (x.written locked old v).getLsbD i =
      (((if (x.writable locked).testBit i then v.getLsbD i else old.getLsbD i) && !(v.getLsbD i && x.w1c.testBit i)) ||
        (v.getLsbD i && x.w1s.testBit i)) := by
  simp only [RegRow.written, BitVec.getLsbD_or, BitVec.getLsbD_and, BitVec.getLsbD_not, BitVec.getLsbD_ofNat,
    getLsbD_mergeBits _ _ _ hi, hi, decide_true, Bool.true_and]

theorem RegRow.testBit_writable (x : RegRow) (locked : Bool) (i : Nat) :
    (x.writable locked).testBit i = (x.wr.testBit i || (!locked && x.wrl.testBit i)) := by
  cases locked <;> simp [RegRow.writable]

/-- Where no bit has two codes, each bit follows its own. -/
theorem RegRow.getLsbD_written_of_codesApart (h : x.codesApart = true) (locked : Bool) (old v : Word) {i : Nat} (hi : i < 32) :
    (x.written locked old v).getLsbD i =
      if x.wr.testBit i then v.getLsbD i
      else if x.wrl.testBit i then (if locked then old.getLsbD i else v.getLsbD i)
      else if x.w1c.testBit i then old.getLsbD i && !v.getLsbD i
      else if x.w1s.testBit i then old.getLsbD i || v.getLsbD i
      else old.getLsbD i := by
  obtain ⟨hset, hone⟩ := RegRow.codesApart_testBit h i
  rw [RegRow.getLsbD_written x locked old v hi, RegRow.testBit_writable]
  cases hwr : x.wr.testBit i with
  | true =>
    have hno : x.w1c.testBit i = false ∧ x.w1s.testBit i = false := by simpa [hwr] using hset
    simp [hno]
  | false =>
    cases hwrl : x.wrl.testBit i with
    | true =>
      have hno : x.w1c.testBit i = false ∧ x.w1s.testBit i = false := by simpa [hwrl] using hset
      cases locked <;> simp [hno]
    | false =>
      cases hc : x.w1c.testBit i with
      | true =>
        have hs : x.w1s.testBit i = false := by simpa [hc] using hone
        simp [hs]
      | false => cases hs : x.w1s.testBit i <;> simp

/-- A register whose written bits are all RWL keeps its word once its block is locked (R11). -/
theorem RegRow.written_locked (hwr : x.wr = 0) (hc : x.w1c = 0) (hs : x.w1s = 0) (old v : Word) : x.written true old v = old := by
  apply BitVec.eq_of_getLsbD_eq
  intro i hi
  simp [RegRow.getLsbD_written _ _ _ _ hi, RegRow.testBit_writable, hwr, hc, hs]

/-- A register of W1S bits alone takes the ones of the value. -/
theorem RegRow.written_w1s (hwr : x.wr = 0) (hwrl : x.wrl = 0) (hc : x.w1c = 0) (locked : Bool) (old v : Word) :
    x.written locked old v = old ||| (v &&& BitVec.ofNat 32 x.w1s) := by
  apply BitVec.eq_of_getLsbD_eq
  intro i hi
  rw [RegRow.getLsbD_written x locked old v hi, RegRow.testBit_writable, BitVec.getLsbD_or, BitVec.getLsbD_and,
    BitVec.getLsbD_ofNat]
  simp [hwr, hwrl, hc, hi]

/-! ## A write that takes effect at once -/

/-- Row `x` is that of the register at `a`, which has one copy, is neither staged nor posted, and takes any value. -/
abbrev RegRow.DirectAt (x : RegRow) (a : Nat) : Prop :=
  rowAt a = some x ∧ x.bank = .single ∧ x.st = 0 ∧ posted a = false ∧ keyBlock a ≠ 8 ∧ a % 4 = 0 ∧ 0x20000000 ≤ a ∧ a < 0x20180000

/-- Only the frequencies of block 8 have a tuning range (02 R42). -/
theorem badTuning_of_block (h : keyBlock a ≠ 8) (v : Word) : badTuning a v = false := by
  have h0 : a ≠ Reg.RXC_FREQ 0 := by rintro rfl; exact h rfl
  have h1 : a ≠ Reg.RXC_FREQ 1 := by rintro rfl; exact h rfl
  simp [badTuning, h0, h1]

theorem State.command32_direct (hx : x.DirectAt a) (h : s.admits r a true = true) :
    s.command32 r a v = State.answerWrite ((s.served r a).wrote
      ((s.served r a).setReg a (x.written (s.locked a) (s.reg a) v)) r a a v) r a := by
  obtain ⟨hrow, hbank, hst, hpost, hblock, halign, hwin⟩ := hx
  rw [State.command32_row h halign hwin hrow, State.writeRow_direct (badTuning_of_block hblock v) hst hpost,
    State.keyOf_single hbank]

/-- A commanded write that goes through to an unassigned offset takes the requester's turn alone (R6). -/
theorem State.command32_unassigned (h : s.admits r a true = true) (ha : a % 4 = 0) (hw : 0x20000000 ≤ a ∧ a < 0x20180000)
    (hx : rowAt a = none) : s.command32 r a v = (s.takeTurn r (keyBlock a)).answered 0 := by
  simp only [State.admits, Bool.and_eq_true, Bool.not_eq_true'] at h
  obtain ⟨⟨hreach, hopen⟩, hready⟩ := h
  simp [State.command32, State.busWrite, State.store, State.writeWindow, hreach, hopen, hready, ha, placeOf_window hw, hx]

/-- The address of a register is a word. -/
theorem toNat_address (h : a < 0x20180000) : (BitVec.ofNat 32 a).toNat = a := by
  rw [BitVec.toNat_ofNat]
  omega

theorem exec_registerWrite (r : Req) (a v : Word) (s : State) :
    exec (.registerWrite r a v) s = .next (s.command32 r.val a.toNat v) := rfl

theorem exec_registerWrite_direct (hx : x.DirectAt a) (r : Req) (v : Word) (s : State) :
    exec (.registerWrite r (BitVec.ofNat 32 a) v) s = .next (s.command32 r.val a v) := by
  obtain ⟨-, -, -, -, -, -, -, hlt⟩ := hx
  rw [exec_registerWrite, toNat_address hlt]

theorem exec_rcRead (r : Req) (a : Word) (s : State) : exec (.rcRead r a) s = .next (s.query32 r.val a.toNat) := rfl

theorem exec_snapshotRead (r : Req) (a : Word) (s : State) : exec (.snapshotRead r a) s = .next (s.query32 r.val a.toNat) := rfl

theorem exec_blockLock (r : Req) (bits : BitVec 24) (s : State) :
    exec (.blockLock r bits) s = .next (s.command32 r.val Reg.SYS_BLKLOCK (bits.setWidth 32)) := rfl

theorem exec_wldLock (r : Req) (s : State) : exec (.wldLock r) s = .next (s.command32 r.val Reg.SYS_WLD_CTL 1) := rfl

/-! ## Access codes -/

/-- A write of CIP_SELF does nothing beside setting its fields. -/
theorem State.wrote_cipSelf (h : a = Reg.CIP_SELF_LO ∨ a = Reg.CIP_SELF_HI) : s.wrote t r a k v = (t, none) := by
  rcases h with rfl | rfl <;> rfl

theorem directAt_cipSelf (h : a = Reg.CIP_SELF_LO ∨ a = Reg.CIP_SELF_HI) :
    (RegRow.mk a 4 1 4 1 .single 0 0xFFFFFFFF 0 0 0 0 0 0 0).DirectAt a := by
  rcases h with rfl | rfl <;> decide +kernel

/-- A write of CIP_SELF that goes through keeps its word once block 14 is locked. -/
theorem State.command32_cipSelf_locked (ha : a = Reg.CIP_SELF_LO ∨ a = Reg.CIP_SELF_HI) (h : s.admits r a true = true)
    (hlock : s.bit Reg.SYS_BLKLOCK 14 = true) : s.command32 r a v = ((s.served r a).setReg a (s.reg a)).answered 0 := by
  have hl : s.locked a = true := by rcases ha with rfl | rfl <;> exact hlock
  rw [State.command32_direct (directAt_cipSelf ha) h, State.wrote_cipSelf ha, State.answerWrite_none, hl,
    RegRow.written_locked rfl rfl rfl]

/-- Settles O29: the codes of a row never overlap, so each bit follows its own; CIP_SELF is all RWL. -/
theorem accessCodesOfWrites : Obligations.AccessCodesOfWrites := by
  refine ⟨fun a x locked old v i hx hi => RegRow.getLsbD_written_of_codesApart (codesApart_of_rowAt hx) locked old v hi,
    fun s r a v ha h hlock => ?_⟩
  rw [exec_registerWrite_direct (directAt_cipSelf ha), State.command32_cipSelf_locked ha h hlock]

/-! ## Writes that set fields, wait, or are ignored -/

/-- A write in blocks 2 and 10 does nothing beside setting its fields. -/
theorem State.wrote_fieldsOnly (h : keyBlock a = 10 ∨ keyBlock a = 2) : s.wrote t r a k v = (t, none) := by
  rcases h with h | h <;> simp only [State.wrote, h]

/-- No write in blocks 2 and 10 is posted. -/
theorem posted_fieldsOnly (h : keyBlock a = 10 ∨ keyBlock a = 2) : posted a = false := by
  simp only [posted, Bool.or_eq_false_iff, beq_eq_false_iff_ne, decide_eq_false_iff_not]
  simp only [keyBlock, Reg.MGB_CFG, Reg.MGB_ADDR, Reg.IRQ_AONSEL, Reg.IRQ_AONPEND, Reg.PWR_SUPPLY, Reg.PWR_RSTCAUSE,
    Reg.FLC_ABORT] at h ⊢
  omega

/-- Every write in blocks 19 and 23 is posted (01 R31). -/
theorem posted_alwaysOn (h : keyBlock a = 19 ∨ keyBlock a = 23) : posted a = true := by
  rcases h with h | h <;> simp [posted, h]

/-- Nothing in blocks 19 and 23 is staged. -/
theorem unstaged_alwaysOn (hx : rowAt a = some x) (h : keyBlock a = 19 ∨ keyBlock a = 23) : x.st = 0 := by
  have hm := mem_blockRows_of_rowAt hx
  have hall : ∀ y ∈ blockRows 19 ++ blockRows 23, y.st = 0 := by decide +kernel
  rcases h with h | h <;> rw [h] at hm <;> exact hall x (by simp [hm])

/-- Settles O30, by the case of the register's block and of an unassigned offset. -/
theorem registerWritesTakeEffect : Obligations.RegisterWritesTakeEffect := by
  intro s r a v h ha hlo hhi
  refine ⟨fun x hx => ⟨fun hblock harm => ?_, fun hblock => ?_⟩, fun hx => ?_⟩ <;> rw [exec_registerWrite]
  · rw [State.command32_row h ha ⟨hlo, hhi⟩ hx, State.writeRow_unarmed (badTuning_of_block (by omega) v) harm
      (posted_fieldsOnly hblock), State.wrote_fieldsOnly hblock, State.answerWrite_none]
  · rw [State.command32_row h ha ⟨hlo, hhi⟩ hx, State.writeRow_posted (badTuning_of_block (by omega) v)
      (unstaged_alwaysOn hx hblock) (posted_alwaysOn hblock),
      State.answerWrite_none, State.post31, State.served_eq]
    rfl
  · rw [State.command32_unassigned h ha ⟨hlo, hhi⟩ hx]

/-! ## Reads -/

/-- A read of a register of which the requester holds a snapshot answers and drops it (01 R32). -/
theorem State.readRow_snapshot (h : s.snapOf r (s.keyOf x r a) = some w) : s.readRow x r a = (s.served r (s.keyOf x r a), w) := by
  simp only [State.readRow, h]

/-- Else, a register without RC bits that the view leaves as it is answers the view and captures its upper words. -/
theorem State.readRow_plain (h : s.snapOf r (s.keyOf x r a) = none) (hrc : x.rc = 0)
    (hv : (s.served r (s.keyOf x r a)).view r a (s.keyOf x r a) = (w, s.served r (s.keyOf x r a))) :
    s.readRow x r a = ((s.served r (s.keyOf x r a)).captureUppers r a, w) := by
  simp only [State.readRow, h, hv, hrc, if_true]

/-- A register with RC bits reads as it stood, and they clear (00 R7, R9). -/
theorem State.readRow_clears (h : s.snapOf r (s.keyOf x r a) = none) (hrc : x.rc ≠ 0)
    (hv : (s.served r (s.keyOf x r a)).view r a (s.keyOf x r a) = (w, s.served r (s.keyOf x r a))) :
    s.readRow x r a = (((s.served r (s.keyOf x r a)).setReg (s.keyOf x r a)
      (x.drained (s.reg (s.keyOf x r a)))).captureUppers r a, w) := by
  simp only [State.readRow, h, hv, hrc, if_false, State.served_reg]

/-- A register that is the lowest word of no value captures nothing. -/
theorem State.captureUppers_nil (h : upperWords a = []) : s.captureUppers r a = s := by
  simp [State.captureUppers, h, State.each]

/-- A value of two words whose upper word the view shows: that word is captured, in place of an older snapshot (R32). -/
theorem State.captureUppers_single {b : Nat} (h : upperWords a = [b]) (hb : keyBlock b ≠ 4) (hv : s.view r b b = (w, s)) :
    s.captureUppers r a = { s.dropSnap r b with snaps := (s.dropSnap r b).snaps ++ [⟨r, b, w⟩] } := by
  simp [State.captureUppers, h, State.each, hb, hv]

@[simp] theorem State.served_sfm (s : State) (r k : Nat) : (s.served r k).sfm = s.sfm := by rw [State.served_eq]; rfl

theorem State.view_SFM_BCNSKIP (s : State) (r : Nat) :
    s.view r Reg.SFM_BCNSKIP Reg.SFM_BCNSKIP = (s.reg Reg.SFM_BCNSKIP, s) := rfl

theorem State.view_SFM_ASN_LO (s : State) (r : Nat) :
    s.view r Reg.SFM_ASN_LO Reg.SFM_ASN_LO = (s.sfm.asn.setWidth 32, s) := by
  rw [← BitVec.ofNat_toNat]
  rfl

theorem State.view_SFM_ASN_HI (s : State) (r : Nat) :
    s.view r Reg.SFM_ASN_HI Reg.SFM_ASN_HI = (BitVec.ofNat 32 (s.sfm.asn.toNat / 2 ^ 32), s) := rfl

theorem rowAt_SFM_BCNSKIP : rowAt Reg.SFM_BCNSKIP = some ⟨Reg.SFM_BCNSKIP, 4, 1, 4, 1, .single, 0, 0, 0, 0, 0xFFFF, 0, 0, 0, 0⟩ := by
  decide +kernel
theorem rowAt_SFM_ASN_LO : rowAt Reg.SFM_ASN_LO = some ⟨Reg.SFM_ASN_LO, 4, 1, 4, 1, .single, 0, 0, 0, 0, 0, 0, 0, 0, 0⟩ := by
  decide +kernel
theorem rowAt_SFM_ASN_HI : rowAt Reg.SFM_ASN_HI = some ⟨Reg.SFM_ASN_HI, 4, 1, 4, 1, .single, 0, 0, 0, 0, 0, 0, 0, 0, 0⟩ := by
  decide +kernel

theorem upperWords_SFM_BCNSKIP : upperWords Reg.SFM_BCNSKIP = [] := by decide +kernel
theorem upperWords_SFM_ASN_LO : upperWords Reg.SFM_ASN_LO = [Reg.SFM_ASN_HI] := rfl

theorem State.query32_SFM_BCNSKIP (h : s.admits r Reg.SFM_BCNSKIP false = true) (hn : s.snapOf r Reg.SFM_BCNSKIP = none) :
    s.query32 r Reg.SFM_BCNSKIP = ((s.served r Reg.SFM_BCNSKIP).setReg Reg.SFM_BCNSKIP
      (s.reg Reg.SFM_BCNSKIP &&& 0xFFFF0000)).answered (s.reg Reg.SFM_BCNSKIP) := by
  have hv := (s.served r Reg.SFM_BCNSKIP).view_SFM_BCNSKIP r
  rw [State.served_reg] at hv
  rw [State.query32_row h (by decide) (by decide) rowAt_SFM_BCNSKIP, State.readRow_clears hn (by decide) hv,
    State.captureUppers_nil upperWords_SFM_BCNSKIP]
  rfl

theorem State.query32_SFM_ASN_LO (h : s.admits r Reg.SFM_ASN_LO false = true) (hn : s.snapOf r Reg.SFM_ASN_LO = none) :
    s.query32 r Reg.SFM_ASN_LO =
      ({ (s.served r Reg.SFM_ASN_LO).dropSnap r Reg.SFM_ASN_HI with
        snaps := ((s.served r Reg.SFM_ASN_LO).dropSnap r Reg.SFM_ASN_HI).snaps ++
          [⟨r, Reg.SFM_ASN_HI, BitVec.ofNat 32 (s.sfm.asn.toNat / 2 ^ 32)⟩] } : State).answered (s.sfm.asn.setWidth 32) := by
  have hv := (s.served r Reg.SFM_ASN_LO).view_SFM_ASN_LO r
  have hu := (s.served r Reg.SFM_ASN_LO).view_SFM_ASN_HI r
  rw [State.served_sfm] at hv hu
  rw [State.query32_row h (by decide) (by decide) rowAt_SFM_ASN_LO, State.readRow_plain hn rfl hv]
  simp only [State.keyOf_single]
  rw [State.captureUppers_single upperWords_SFM_ASN_LO (by decide) hu]

theorem State.query32_SFM_ASN_HI_captured (h : s.admits r Reg.SFM_ASN_HI false = true) (hs : s.snapOf r Reg.SFM_ASN_HI = some w) :
    s.query32 r Reg.SFM_ASN_HI = (s.served r Reg.SFM_ASN_HI).answered w := by
  rw [State.query32_row h (by decide) (by decide) rowAt_SFM_ASN_HI, State.readRow_snapshot hs]
  rfl

/-- Settles O32: SFM_BCNSKIP clears as it is read, SFM_ASN_LO captures SFM_ASN_HI, and the captured word is used up. -/
theorem readsClearAndCapture : Obligations.ReadsClearAndCapture := by
  intro s r
  refine ⟨fun h hn => ?_, fun h hn => ?_, fun w h hs => ?_⟩
  · rw [exec_rcRead, toNat_address (by decide), State.query32_SFM_BCNSKIP h hn]
  · rw [exec_snapshotRead, toNat_address (by decide), State.query32_SFM_ASN_LO h hn]
  · rw [exec_snapshotRead, toNat_address (by decide), State.query32_SFM_ASN_HI_captured h hs]

/-! ## Locks -/

/-- A write in block 0 to a register that neither commands staging nor assigns worlds does nothing beside setting its fields. -/
theorem State.wrote_sysFields (hb : keyBlock a = 0) (hs : a ≠ Reg.SYS_STAGE_CTL 0) (hw : worldReg a = false) :
    s.wrote t r a k v = (t, none) := by
  simp [State.wrote, hb, State.wroteSys, hs, hw]

/-- The registers that assign worlds lie in block 0, from SYS_WLD_BLK to the end of the region table. -/
theorem worldReg_bounds (h : worldReg a = true) : 0x20000044 ≤ a ∧ a < 0x20000300 := by
  simp only [worldReg, Bool.or_eq_true, beq_iff_eq, decide_eq_true_eq] at h
  simp only [Reg.SYS_WLD_BLK, Reg.SYS_WLD_ENG_LO, Reg.SYS_WLD_ENG_HI, Reg.SYS_RGN_BASE] at h
  omega

/-- A set world lock keeps every register that assigns worlds (01 R25). -/
theorem State.wrote_worldReg_locked (hw : worldReg a = true) (hl : s.flag F.SYS_WLD_CTL_WLD_LOCK = true) :
    s.wrote t r a k v = (s, none) := by
  obtain ⟨hlo, hhi⟩ := worldReg_bounds hw
  have hb : keyBlock a = 0 := by
    unfold keyBlock
    omega
  have hs : a ≠ Reg.SYS_STAGE_CTL 0 := by
    unfold Reg.SYS_STAGE_CTL bankKey
    omega
  simp [State.wrote, hb, State.wroteSys, hs, hl, hw]

theorem directAt_SYS_BLKLOCK :
    (RegRow.mk Reg.SYS_BLKLOCK 4 1 4 1 .single 0 0 0 0xFFFFFF 0 0 0 0 0).DirectAt Reg.SYS_BLKLOCK := by decide +kernel

theorem directAt_SYS_WLD_CTL :
    (RegRow.mk Reg.SYS_WLD_CTL 4 1 4 1 .single 0 0 0 1 0 0 0 0 0).DirectAt Reg.SYS_WLD_CTL := by decide +kernel

/-- The registers that R25 fixes assign worlds, and a write to them takes effect at once. -/
theorem worldReg_directAt (h : a = Reg.SYS_WLD_BLK ∨ a = Reg.SYS_WLD_ENG_LO ∨ a = Reg.SYS_WLD_ENG_HI ∨
    (∃ n : Fin 32, a = Reg.SYS_RGN_BASE n.val ∨ a = Reg.SYS_RGN_LIM n.val ∨ a = Reg.SYS_RGN_ATTR n.val)) :
    worldReg a = true ∧ ∃ x ∈ blockRows 0, x.DirectAt a := by
  rcases h with rfl | rfl | rfl | ⟨n, rfl | rfl | rfl⟩
  · decide +kernel
  · decide +kernel
  · decide +kernel
  · revert n; decide +kernel
  · revert n; decide +kernel
  · revert n; decide +kernel

/-- Twenty-four lock bits all lie in the mask of BLKLOCK. -/
theorem setWidth_and_lockMask (bits : BitVec 24) : bits.setWidth 32 &&& BitVec.ofNat 32 0xFFFFFF = bits.setWidth 32 := by
  have hm : bits.toNat &&& 0xFFFFFF = bits.toNat % 2 ^ 24 := Nat.and_two_pow_sub_one_eq_mod bits.toNat 24
  apply BitVec.eq_of_toNat_eq
  rw [BitVec.toNat_and, BitVec.toNat_setWidth_of_le (by decide), BitVec.toNat_ofNat, Nat.mod_eq_of_lt (by decide : 0xFFFFFF < 2 ^ 32),
    hm, Nat.mod_eq_of_lt bits.isLt]

theorem State.command32_BLKLOCK (h : s.admits r Reg.SYS_BLKLOCK true = true) (bits : BitVec 24) :
    s.command32 r Reg.SYS_BLKLOCK (bits.setWidth 32) =
      ((s.served r Reg.SYS_BLKLOCK).setReg Reg.SYS_BLKLOCK (s.reg Reg.SYS_BLKLOCK ||| bits.setWidth 32)).answered 0 := by
  rw [State.command32_direct directAt_SYS_BLKLOCK h, State.wrote_sysFields rfl (by decide) (by decide),
    State.answerWrite_none, RegRow.written_w1s rfl rfl rfl, setWidth_and_lockMask]

theorem State.command32_WLD_CTL (h : s.admits r Reg.SYS_WLD_CTL true = true) :
    s.command32 r Reg.SYS_WLD_CTL 1 =
      ((s.served r Reg.SYS_WLD_CTL).setReg Reg.SYS_WLD_CTL (s.reg Reg.SYS_WLD_CTL ||| 1)).answered 0 := by
  rw [State.command32_direct directAt_SYS_WLD_CTL h, State.wrote_sysFields rfl (by decide) (by decide),
    State.answerWrite_none, RegRow.written_w1s rfl rfl rfl]
  rfl

/-- Settles O33: both lock registers are W1S alone, and a set world lock drops a write of any register that assigns worlds. -/
theorem locksOfBlocksAndWorlds : Obligations.LocksOfBlocksAndWorlds := by
  intro s r
  refine ⟨fun bits h => ?_, fun h => ?_, fun a v ha h hl => ?_⟩
  · rw [exec_blockLock, State.command32_BLKLOCK h]
  · rw [exec_wldLock, State.command32_WLD_CTL h]
  · obtain ⟨hw, x, -, hx⟩ := worldReg_directAt ha
    rw [exec_registerWrite_direct hx, State.command32_direct hx h,
      State.wrote_worldReg_locked hw (by rwa [State.served_flag]), State.answerWrite_none]

end Sys2Proof.Machine
end

section
/-! PROOFS. The canonical form (01_system_map.md R13, 00_scope.md R2): every command keeps the queue and the canonical form of the
sparse maps, by the lemmas of Laws/Keeps for the operations that it is made of. -/

namespace Sys2Proof.Machine

open State

variable {b0 s t : State}

/-! ## What a command keeps -/

/-- Where `o` goes on, its state has the queue of `b0`, and the canonical form where `b0` has it. -/
def OutKeeps (b0 : State) (o : Out) : Prop := ∀ t : State, o = .next t → Keeps b0 t

theorem OutKeeps.next (h : Keeps b0 t) : OutKeeps b0 (.next t) := by
  rintro _ ⟨⟩
  exact h

/-- Both branches keep it, whichever is taken. -/
theorem Keeps.branch {c : Prop} [Decidable c] (h : Keeps b0 s) (g : Keeps b0 t) : Keeps b0 (if c then s else t) :=
  .ite (fun _ => h) (fun _ => g)

/-- What is left of a state when the always-on domain powers up or loses power: registers and memory in part, and no copies. -/
theorem Keeps.aonReset (h : Keeps b0 s) (p q : Nat → Bool) (v : Word) (b : Bool) (n : Nat) (pins : Pins) (flc : Flc) :
    Keeps b0 { State.reset with
      pending := s.pending, regs := AMap.clear p s.regs, mem := AMap.clear q s.mem, data := v, err := b, free := n
      pins := pins, flc := flc } :=
  .of_parts h rfl (AMap.wf_clear q) (AMap.wf_clear p) (fun _ => rfl) (fun _ => rfl) (fun _ => rfl)

/-! ## Soundings, Ethernet and plans (14, 10) -/

theorem keeps_execSoundingMeasurement (h : Keeps b0 s) (temp : Byte) (raws : List Int) :
    OutKeeps b0 (execSoundingMeasurement temp raws s) :=
  .next (.branch (.each (fun _ _ g => keeps_raise (keeps_put g _ _) _) (keeps_put h _ _)) h)

theorem keeps_execTxFrameEnd (h : Keeps b0 s) (m : Fin 2) (dt : Nat) : OutKeeps b0 (execTxFrameEnd m dt s) := by
  refine .next ?_
  dsimp only
  split
  · exact keeps_txDone (keeps_resumeTx (keeps_ptpRun h _) _) _ _
  · exact h

theorem keeps_execRxFrame (h : Keeps b0 s) (m : Fin 2) (f : EthFrame) (dt : Nat) : OutKeeps b0 (execRxFrame m f dt s) := by
  have h0 := keeps_ptpRun h dt
  have h1 := keeps_inBand (keeps_resumeTx h0 m) m f.status
  exact .next (.branch h0 (.branch h1
    (keeps_resumeTx (keeps_honourPause (.branch (keeps_takeFrame h1 _ _ _) h1) _ _) _)))

theorem keeps_execMdioFrameEnd (h : Keeps b0 s) (m : Fin 2) (data : BitVec 16) : OutKeeps b0 (execMdioFrameEnd m data s) :=
  .next (.branch (keeps_lower (.branch (keeps_put h _ _) h) _) h)

theorem keeps_execPlanDue (h : Keeps b0 s) : OutKeeps b0 (execPlanDue s) :=
  .next (.branch (keeps_planSettled (keeps_makePlan h)) h)

/-! ## Cipher jobs (05) -/

theorem keeps_execJobStart (h : Keeps b0 s) : OutKeeps b0 (execJobStart s) := by
  refine .next ?_
  split
  · exact .branch (keeps_takeJob (Keeps.upd.2 h) _ _) h
  · exact h

theorem keeps_execJobComplete (h : Keeps b0 s) (c : Fin 8) : OutKeeps b0 (execJobComplete c s) := by
  refine .next ?_
  split
  · exact .branch (keeps_releaseCore h _) (.branch h (keeps_completeJob (keeps_readLate h _ _) _))
  · exact h

/-! ## Receive path (02, 03) -/

theorem keeps_execSynthCalibrationComplete (h : Keeps b0 s) (c : Chain) : OutKeeps b0 (execSynthCalibrationComplete c s) :=
  .next (.branch (keeps_reconcile (keeps_setBit (keeps_lower h _) _ _ _)) h)

theorem keeps_execDcLoopLimit (h : Keeps b0 s) (c : Chain) (i q : BitVec 16) : OutKeeps b0 (execDcLoopLimit c i q s) :=
  .next (.branch (keeps_raise (keeps_put (keeps_put h _ _) _ _) _) h)

theorem keeps_execWakeCodeMatch (h : Keeps b0 s) (code : BitVec 16) : OutKeeps b0 (execWakeCodeMatch code s) :=
  .next (.branch (keeps_signalWake (keeps_bump (keeps_raise h _) _) _) h)

theorem keeps_execDecisionWindowEnd (h : Keeps b0 s) (c : Chain) (peak : Int) :
    OutKeeps b0 (execDecisionWindowEnd c peak s) :=
  .next (.branch (.each (fun _ _ g => keeps_setLane g _ _) (keeps_setChain (keeps_put (keeps_put h _ _) _ _) _ _)) h)

theorem keeps_execGainSettled (h : Keeps b0 s) (c : Chain) : OutKeeps b0 (execGainSettled c s) := by
  refine .next (.branch (.each (fun _ _ g => ?_) (keeps_setChain h _ _)) h)
  split
  · exact keeps_setLane g _ _
  · exact g

theorem keeps_execAdcClip (h : Keeps b0 s) (c : Chain) : OutKeeps b0 (execAdcClip c s) := by
  refine .next (.branch (.each (fun _ _ g => ?_) (keeps_setChain (keeps_pulse (keeps_bump h _) _) _ _)) h)
  dsimp only
  split
  · exact keeps_setLane g _ _
  · exact keeps_setLane g _ _
  · exact .branch (keeps_setLane g _ _) g
  · exact .branch (keeps_raise g _) g
  · exact g

theorem keeps_execNoiseMeasurementComplete (h : Keeps b0 s) (n : LaneIx) (power : Nat) :
    OutKeeps b0 (execNoiseMeasurementComplete n power s) := by
  refine .next ?_
  split
  · exact .branch (keeps_setLane (keeps_put h _ _) _ _) (keeps_put h _ _)
  · exact h

theorem keeps_execFrequencyCorrection (h : Keeps b0 s) (n : LaneIx) (err : Int) :
    OutKeeps b0 (execFrequencyCorrection n err s) :=
  .next (.branch (keeps_setLane h _ _) h)

theorem keeps_execSyncMatch (h : Keeps b0 s) (n : LaneIx) (hits : Hits) (i : SyncInfo) :
    OutKeeps b0 (execSyncMatch n hits i s) := by
  refine .next ?_
  split
  · split
    · exact keeps_setChain (keeps_setLane h _ _) _ _
    · exact h
  · exact .branch (keeps_bump h _) h
  · exact .branch (keeps_bump h _) h
  · exact h

theorem keeps_execSecondCorrelatorMatch (h : Keeps b0 s) (n : LaneIx) (bits : List Bool) :
    OutKeeps b0 (execSecondCorrelatorMatch n bits s) :=
  .next (keeps_feedBits h _ _)

theorem keeps_execHeaderWindowComplete (h : Keeps b0 s) (n : LaneIx) (bits : List Bool) (mags : List Nat) :
    OutKeeps b0 (execHeaderWindowComplete n bits mags s) := by
  have h0 := keeps_feedBits h n bits
  refine .next (.branch (.branch ?_ (.branch ?_ ?_)) h0)
  · split
    · exact .branch (keeps_decideDiversity (keeps_setLane h0 _ _) _) (keeps_headerError h0 _)
    · exact keeps_headerError h0 _
  · exact keeps_decideDiversity (keeps_setLane (keeps_windowPhr h0 _ _ _) _ _) _
  · exact keeps_headerError (keeps_windowPhr h0 _ _ _) _

theorem keeps_execCodewordReceived (h : Keeps b0 s) (n : LaneIx) (llrs : List Int) (same : Bool) :
    OutKeeps b0 (execCodewordReceived n llrs same s) :=
  .next (.branch (.branch (Keeps.upd.2 (keeps_setLane h _ _)) (keeps_codewordLost (keeps_setLane h _ _) _ _)) h)

theorem keeps_execDecodingJobStart (h : Keeps b0 s) : OutKeeps b0 (execDecodingJobStart s) := by
  refine .next ?_
  split
  · exact .branch (Keeps.upd.2 h) h
  · exact h

theorem keeps_execDecodingJobEnd (h : Keeps b0 s) (d : Fin 8) : OutKeeps b0 (execDecodingJobEnd d s) := by
  refine .next ?_
  split
  · next x _ =>
    have h1 : Keeps b0 { s with ldp := s.ldp.set d.val none } := Keeps.upd.2 h
    have h2 := fun c : Bool => Keeps.branch (c := c = true) (keeps_bump h1 F.LDP_CWOK_COUNT)
      (keeps_bump h1 F.LDP_CWFAIL_COUNT)
    exact .branch (h2 _) (keeps_codewordEnded (h2 _) _ _ _ _ _)
  · exact h

theorem keeps_execLastOnAirBit (h : Keeps b0 s) (n : LaneIx) (air : List Int) : OutKeeps b0 (execLastOnAirBit n air s) := by
  refine .next ?_
  split
  · exact .branch (keeps_finishDeep (keeps_setLane h _ _) _)
      (keeps_enterReady (keeps_writeBuffer (keeps_sunPsdu (keeps_setLane h _ _) _ _) _ _ _) _ _)
  · exact h

/-! ## Redundant pairs (09) -/

theorem keeps_execHelloSend (h : Keeps b0 s) : OutKeeps b0 (execHelloSend s) :=
  .next (.branch (keeps_sendPlain (keeps_draw (keeps_draw h _) _) _ _) h)

theorem keeps_execBeatSend (h : Keeps b0 s) : OutKeeps b0 (execBeatSend s) :=
  .next (.branch (keeps_sendPlain (keeps_draw h _) _ _) h)

theorem keeps_execHello (h : Keeps b0 s) (hdr : SphHdr) (b : HelloBody) : OutKeeps b0 (execHello hdr b s) := by
  have h1 := keeps_takeHeader h hdr
  have h3 := keeps_put (keeps_put (keeps_put (keeps_lower h1 F.SPH_STAT_IDMISMATCH)
    F.SPH_PEERUID_LO_UID b.uid.toNat) F.SPH_PEERUID_HI_UID (b.uid.toNat / 2 ^ 32)) F.SPH_LATENCY_NS
    (min (4 * (b.now - b.echo - b.hold).toNat) 0xFFFF)
  exact .next (.branch (.branch (keeps_raise (Keeps.upd.2 h1) _)
    (.branch (keeps_raise (keeps_raise (Keeps.upd.2 (Keeps.upd.2 h3)) _) _) (Keeps.upd.2 h3))) h)

theorem keeps_execLinkDown (h : Keeps b0 s) : OutKeeps b0 (execLinkDown s) :=
  .next (.branch (keeps_sendIdles (keeps_raise (keeps_lower (Keeps.upd.2 h) _) _) _) h)

theorem keeps_execHeartbeatMissed (h : Keeps b0 s) : OutKeeps b0 (execHeartbeatMissed s) :=
  .next (.branch (keeps_bump h _) h)

theorem keeps_execAckf (h : Keeps b0 s) (hdr : SphHdr) : OutKeeps b0 (execAckf hdr s) :=
  .next (.branch (keeps_takeHeader h _) h)

theorem keeps_execResend (h : Keeps b0 s) : OutKeeps b0 (execResend s) :=
  .next (.branch (keeps_resendOut h) h)

theorem keeps_execBadFrame (h : Keeps b0 s) (seqd : Bool) : OutKeeps b0 (execBadFrame seqd s) :=
  .next (.branch (.branch (keeps_sendAck (Keeps.upd.2 (Keeps.upd.2 (keeps_bump h _)))) (Keeps.upd.2 (keeps_bump h _))) h)

theorem keeps_execDirtyEntrySweep (h : Keeps b0 s) : OutKeeps b0 (execDirtyEntrySweep s) :=
  .next (.branch (keeps_sendSeq (keeps_bumpBy (Keeps.upd.2 (.branch (keeps_put h _ _) h)) _ _) _ _ _) h)

theorem keeps_execBeat (h : Keeps b0 s) (hdr : SphHdr) (b : BeatBody) : OutKeeps b0 (execBeat hdr b s) := by
  have h2 : Keeps b0 { (s.takeHeader hdr).inStep hdr b with
      sph := { ((s.takeHeader hdr).inStep hdr b).sph with peer := b.state.val } } :=
    Keeps.upd.2 (keeps_inStep (keeps_takeHeader h hdr) hdr b)
  exact .next (.branch (Keeps.upd.2 (.branch (keeps_beatAtPrimary h2 _)
    (.branch (.branch (keeps_enterAligning h2) (.branch (keeps_beatAtStandby h2 _) h2)) h2))) h)

theorem keeps_execEntry (h : Keeps b0 s) (hdr : SphHdr) (rs : List EntryRec) : OutKeeps b0 (execEntry hdr rs s) := by
  refine .next (keeps_takeSeq h _ _ fun _ g => .branch (.each (fun t r g => ?_) g) g)
  have h1 := fun e : Nat => Keeps.branch (c := t.ready 13 = true) (keeps_setEntry g r.index.toNat e) g
  exact .branch (.branch (keeps_handedEntry g _ _) g)
    (.branch (h1 _) (keeps_notePass (keeps_countApplied (h1 _) _) _))

theorem keeps_execReq (h : Keeps b0 s) (hdr : SphHdr) (b : ReqBody) : OutKeeps b0 (execReq hdr b s) := by
  refine .next (keeps_takeSeq h _ _ fun _ g => .branch ?_ g)
  have h2 := keeps_moveWrite (keeps_moveWrite g false 69 (descAddr b.desc.toNat)
    (bytesLe 4 b.d0.toNat ++ bytesLe 4 b.d1.toNat ++ bytesLe 4 b.d2.toNat ++ bytesLe 4 b.d3.toNat)) false 69
    (b.d1.toNat + 488 * b.frag.val) (b.payload.take (txLen b.d0 - 488 * b.frag.val))
  exact .branch (keeps_addPending (keeps_forget h2 _) _ _ _) h2

theorem keeps_execLaunch (h : Keeps b0 s) (hdr : SphHdr) (b : LaunchBody) : OutKeeps b0 (execLaunch hdr b s) := by
  refine .next (keeps_takeSeq h _ _ fun t g => .branch (Keeps.upd.2 ?_) g)
  have h1 : Keeps b0 (match (List.finRange 16).find? (fun n => n.val == bitsOf b.w0.toNat 16 4) with
      | some n => t.charge n (granuleOf ((recSlot b + 2 ^ 40 - 2) % 2 ^ 40)) b.w1.toNat
      | none => t) := by
    split
    · exact keeps_charge g _ _ _
    · exact g
  exact .branch (keeps_put h1 _ _) h1

theorem keeps_execDone (h : Keeps b0 s) (hdr : SphHdr) (rs : List DoneRec) : OutKeeps b0 (execDone hdr rs s) :=
  .next (keeps_takeSeq h _ _ (fun _ g => .branch
    (.each (fun _ _ g => keeps_post (Keeps.upd.2 (keeps_forget g _)) _ _ _) g) g))

theorem keeps_execHandoff (h : Keeps b0 s) (hdr : SphHdr) (asn : BitVec 40) : OutKeeps b0 (execHandoff hdr asn s) :=
  .next (keeps_takeSeq h _ _ (fun _ g => .branch (Keeps.upd.2 g) g))

theorem keeps_execAcct (h : Keeps b0 s) (hdr : SphHdr) (rs : List AcctRec) : OutKeeps b0 (execAcct hdr rs s) :=
  .next (keeps_takeSeq h _ _ (fun _ g => .branch
    (.branch (.each (fun _ _ g => keeps_applyAcct g _) (Keeps.upd.2 g)) (Keeps.upd.2 (Keeps.upd.2 g))) g))

theorem keeps_execPrimaryLost (h : Keeps b0 s) : OutKeeps b0 (execPrimaryLost s) :=
  .next (.branch (.branch (Keeps.upd.2 h) (keeps_raise h _)) (.branch (keeps_raise (keeps_setPair h _) _) h))

theorem keeps_execPeerLost (h : Keeps b0 s) : OutKeeps b0 (execPeerLost s) :=
  .next (.branch (keeps_dropPeer (keeps_raise (keeps_lower (keeps_raise h _) _) _)) h)

theorem keeps_execTakeover (h : Keeps b0 s) (off : BitVec 17) : OutKeeps b0 (execTakeover off s) := by
  have h1 := fun n => keeps_raise (keeps_setPair (keeps_put h F.SPH_STAT_TERM n) 3) F.SPH_STAT_PEER_LOST
  have h2 := fun n l => Keeps.each (l := l) (fun _ r g => keeps_adoptLaunch g off.toNat r) (h1 n)
  exact .next (.branch (keeps_logPair (keeps_raise
    (.branch (keeps_applyHeld (Keeps.upd.2 (h2 _ _))) (Keeps.upd.2 (h2 _ _))) _)) h)

theorem keeps_execCounterLift (h : Keeps b0 s) : OutKeeps b0 (execCounterLift s) := by
  refine .next ?_
  split
  · exact Keeps.upd.2 (.branch h (.each (fun _ _ g => keeps_setEntry g _ _) h))
  · exact h

theorem keeps_execPlannedHandoverComplete (h : Keeps b0 s) : OutKeeps b0 (execPlannedHandoverComplete s) :=
  .next (.branch (keeps_raise (keeps_setPair (Keeps.upd.2 h) _) _) h)

/-! ## Staging, timers, slots and calendar (01, 12, 04) -/

theorem keeps_execStoppedCommit (h : Keeps b0 s) (sec ns : Bool) : OutKeeps b0 (execStoppedCommit sec ns s) :=
  .next (.branch h (keeps_commitWorlds h _ _))

theorem keeps_execTimerTick (h : Keeps b0 s) (k : TmrIx) : OutKeeps b0 (execTimerTick k s) :=
  .next (.branch (keeps_tick h _) h)

theorem keeps_execCaptureEvent (h : Keeps b0 s) (k : TmrIx) (level : Bool) (same : List TmrIx) :
    OutKeeps b0 (execCaptureEvent k level same s) :=
  .next (.branch (keeps_takeEdge (Keeps.upd.2 h) _ _ _) (Keeps.upd.2 h))

theorem keeps_execSlotBoundary (h : Keeps b0 s) (dt : Nat) : OutKeeps b0 (execSlotBoundary dt s) :=
  .next (.branch h (.branch (keeps_commitPlan (keeps_stopSlots h))
    (keeps_slotActions (keeps_pruneMirror (keeps_shiftTimes (keeps_startSlot (keeps_endSlot h) _) _)) _)))

theorem keeps_execFirstSlotStart (h : Keeps b0 s) (dt gap : Nat) : OutKeeps b0 (execFirstSlotStart dt gap s) :=
  .next (.branch h (keeps_missedBeacons (keeps_slotActions
    (keeps_applyHeld (keeps_spendNoise (keeps_shiftTimes
    (keeps_startSlot (keeps_endPause (keeps_raise (Keeps.upd.2 h) _) _) _) _))) _)))

theorem keeps_execSecondTick (h : Keeps b0 s) (cycles : Nat) : OutKeeps b0 (execSecondTick cycles s) :=
  .next (.branch h (keeps_seconds (keeps_put (keeps_crystal (Keeps.upd.2 h) _) _ _) _))

theorem keeps_execOscillatorFail (h : Keeps b0 s) : OutKeeps b0 (execOscillatorFail s) :=
  .next (.branch h (keeps_raise (Keeps.upd.2 h) _))

/-! ## Flash and logbook (14) -/

theorem keeps_execLogbookAppend (h : Keeps b0 s) : OutKeeps b0 (execLogbookAppend s) := by
  refine .next ?_
  split
  · exact .branch (keeps_raise (Keeps.upd.2 (keeps_rtcTimeView h)) _) h
  · exact h

theorem keeps_execCalibrationSetLoad (h : Keeps b0 s) : OutKeeps b0 (execCalibrationSetLoad s) := by
  refine .next ?_
  split
  · have h1 := fun cause : Nat => keeps_loadCal (keeps_eccReads h 0x7FF000 4096) cause
    have h2 := fun t (g : Keeps b0 t) n => keeps_primePoint (keeps_findHead (keeps_put g F.CAL_STAT_CAUSE n))
    exact .branch (.branch (h2 _ (Keeps.upd.2 (h1 _)) _)
      (keeps_log (keeps_raise (h2 _ (Keeps.upd.2 (h1 _)) _) _) _ _)) h
  · exact h

/-! ## Feeder, contactors and pins (11) -/

theorem keeps_execFrameInstant (h : Keeps b0 s) (xs : List Int) (off : BitVec 17) :
    OutKeeps b0 (execFrameInstant xs off s) := by
  have h0 : Keeps b0 { s with fdr := { s.fdr with seq := (s.fdr.seq + 1) % 65536 } } := Keeps.upd.2 h
  have h1 := keeps_takeSamples h0 xs
  refine .next (.branch (.branch h0 (.branch ?_ (Keeps.upd.2 (.setReg h1 _ _)))) h)
  exact .setReg (.setReg (keeps_put (Keeps.upd.2 (.setReg h1 _ _)) _ _) _ _) _ _

theorem keeps_execFrameWrite (h : Keeps b0 s) : OutKeeps b0 (execFrameWrite s) := by
  refine .next ?_
  split
  · refine .branch (keeps_raise (keeps_bump (Keeps.upd.2 h) _) _) ?_
    dsimp only
    split
    · next heq =>
      exact keeps_lower (keeps_raise (Keeps.upd.2 (.of_fst heq (keeps_moveWrite (Keeps.upd.2 h) _ _ _ _))) _) _
    · next heq =>
      have h1 := Keeps.of_fst heq (keeps_moveWrite (Keeps.upd.2 h) _ _ _ _)
      split
      · next heq =>
        exact keeps_lower (keeps_raise (Keeps.upd.2 (.of_fst heq (keeps_moveWrite h1 _ _ _ _))) _) _
      · next heq =>
        have h2 := Keeps.of_fst heq (keeps_moveWrite h1 _ _ _ _)
        exact .branch (keeps_fire (keeps_put h2 _ _) _ _) (keeps_put h2 _ _)
  · exact h

theorem keeps_execDwellEnd (h : Keeps b0 s) (k : Fin 8) : OutKeeps b0 (execDwellEnd k s) :=
  .next (.branch (.branch (keeps_drive (Keeps.upd.2 h) _ _) (Keeps.upd.2 h)) h)

theorem keeps_execFeedbackChange (h : Keeps b0 s) (k : Fin 8) (f : Feedback) : OutKeeps b0 (execFeedbackChange k f s) :=
  .next (.branch h (.branch (keeps_debounced (Keeps.upd.2 h) _ _ _) (Keeps.upd.2 h)))

theorem keeps_execMatchWindowEnd (h : Keeps b0 s) (k : Fin 8) : OutKeeps b0 (execMatchWindowEnd k s) := by
  have h1 := keeps_endWindow h k.val
  exact .next (.branch (.branch (keeps_ctrFault h1 _ _) (.branch (keeps_ctrFault h1 _ _) h1)) h)

theorem keeps_execGpioEdge (h : Keeps b0 s) (p : Fin 24) (level : Bool) : OutKeeps b0 (execGpioEdge p level s) :=
  .next (keeps_withEdges h _ (fun _ g => Keeps.upd.2 g))

/-! ## Transmitter and synthesiser (06) -/

theorem keeps_execQueuedCommandStart (h : Keeps b0 s) : OutKeeps b0 (execQueuedCommandStart s) := by
  refine .next ?_
  split
  · exact .branch (.branch (keeps_lower (keeps_raise (Keeps.upd.2 (Keeps.upd.2 h)) _) _)
      (.branch (keeps_dropCal (Keeps.upd.2 h) _) (keeps_dropAllCal (Keeps.upd.2 h)))) h
  · exact h

theorem keeps_execQueuedCalibrationEnd (h : Keeps b0 s) (head : Headroom) :
    OutKeeps b0 (execQueuedCalibrationEnd head s) := by
  refine .next ?_
  split
  · exact keeps_noteHeadroom (keeps_raise (keeps_lower (keeps_storeCal (Keeps.upd.2 h) _ _) _) _) _
  · exact h

theorem keeps_execPayloadReadComplete (h : Keeps b0 s) : OutKeeps b0 (execPayloadReadComplete s) := by
  refine .next ?_
  split
  · refine .branch h ?_
    split
    · next heq => exact Keeps.upd.2 (.of_fst heq (keeps_moveRead h _ _ _ _))
    · next heq =>
      exact keeps_cancelLaunch (keeps_badDesc (Keeps.upd.2 (.of_fst heq (keeps_moveRead h _ _ _ _))) _ _) _
  · exact h

theorem keeps_execHopStart (h : Keeps b0 s) (head : Headroom) : OutKeeps b0 (execHopStart head s) := by
  refine .next ?_
  split
  · next l _ =>
    have h1 : Keeps b0 { s with sfm := { s.sfm with launches := s.sfm.launches.erase l } } := Keeps.upd.2 h
    refine .branch ?_ h
    dsimp only
    split
    · exact keeps_useEntry (keeps_bump (Keeps.upd.2 (keeps_lower (.branch (keeps_put h1 _ _) h1) _)) _) _
    · exact keeps_noteHeadroom (keeps_raise (keeps_bump
        (Keeps.upd.2 (keeps_lower (.branch (keeps_put h1 _ _) h1) _)) _) _) _
  · exact h

theorem keeps_execFemSwitch (h : Keeps b0 s) : OutKeeps b0 (execFemSwitch s) := by
  refine .next ?_
  split
  · exact Keeps.upd.2 h
  · exact h

theorem keeps_execRampUp (h : Keeps b0 s) (locked : Bool) : OutKeeps b0 (execRampUp locked s) := by
  refine .next ?_
  split
  · next l _ _ =>
    have h1 := keeps_lower h F.SYN_STAT_CALBUSY
    refine .branch (keeps_cancelLaunch (keeps_put (Keeps.upd.2 h1) _ _) _) (.branch ?_ ?_)
    · refine keeps_blankChain (keeps_bump (keeps_put (keeps_raise (Keeps.upd.2 ?_) _) _ _) _) _
      split
      · exact keeps_storeCal h1 _ _
      · exact h1
    · exact keeps_cancelLaunch (keeps_put (keeps_put (keeps_raise
        (keeps_dropCal (Keeps.upd.2 h1) _) _) _ _) _ _) _
  · exact h

theorem keeps_execFirstPreambleSymbol (h : Keeps b0 s) : OutKeeps b0 (execFirstPreambleSymbol s) :=
  .next (.branch (keeps_put h _ _) h)

theorem keeps_execLastSymbol (h : Keeps b0 s) (power : Byte) : OutKeeps b0 (execLastSymbol power s) := by
  refine .next ?_
  split
  · next l _ =>
    have h2 := keeps_noteLaunch (keeps_put (keeps_put (keeps_put h F.TXP_STAT_PHASE 4)
      F.TXP_DET_INDEX l.entry) F.TXP_DET_POWER power.toNat) l.entry power.toInt
    refine .branch ?_ h
    split
    · exact keeps_mirrorDone (keeps_post h2 _ _ _) _ _
    · exact h2
  · exact h

theorem keeps_execRampDownEnd (h : Keeps b0 s) (off : Nat) : OutKeeps b0 (execRampDownEnd off s) := by
  refine .next ?_
  split
  · exact .branch (keeps_unblankChain (keeps_put (Keeps.upd.2 h) _ _) _ _) h
  · exact h

theorem keeps_execFemReturn (h : Keeps b0 s) : OutKeeps b0 (execFemReturn s) :=
  .next (.branch (Keeps.upd.2 h) h)

/-! ## Events, engines and arbitration (08) -/

theorem keeps_execEventArrival (h : Keeps b0 s) : OutKeeps b0 (execEventArrival s) := by
  refine .next ?_
  split
  · exact h
  · exact keeps_deliverEvent (Keeps.upd.2 h) _
  · exact .branch (Keeps.upd.2 h) (.branch (keeps_deliverEvent (Keeps.upd.2 h) _) (keeps_strayEvent (Keeps.upd.2 h) _ _))

theorem keeps_execHaltComplete (h : Keeps b0 s) (e : EngIx) : OutKeeps b0 (execHaltComplete e s) := by
  have h1 := keeps_setEng h e (s.engAt e).drain
  have h2 := Keeps.branch (c := (s.engAt e).forced = true)
    (keeps_orphanLocks (keeps_abortJobs h1 e.val) (fun h => h == e.val)) h1
  have h3 := fun g => keeps_showSeq (keeps_setEng h2 e g) e
  have h4 := fun g code detail (why : Nat) => Keeps.branch (c := 3 ≤ why) (keeps_log (h3 g) code detail) (h3 g)
  exact .next (.branch h (.branch (h4 _ _ _ _) (keeps_pulse (h4 _ _ _ _) _)))

theorem keeps_execStallLimit (h : Keeps b0 s) (e : EngIx) : OutKeeps b0 (execStallLimit e s) := by
  refine .next ?_
  dsimp only
  split
  · exact .branch (keeps_forceOff (keeps_setEng h _ _) _) (keeps_setEng h _ _)
  · exact h

theorem keeps_execWatchdogExpiry (h : Keeps b0 s) (e : EngIx) : OutKeeps b0 (execWatchdogExpiry e s) :=
  .next (.branch h (.branch (keeps_orderHalt h _ _ _) (keeps_setEng h _ _)))

theorem keeps_execGrant (h : Keeps b0 s) (x : Arbiter) : OutKeeps b0 (execGrant x s) := by
  refine .next ?_
  cases x with
  | port w =>
    dsimp only
    split
    · exact Keeps.upd.2 (keeps_setStage h _ _)
    · exact h
  | target t =>
    dsimp only
    split
    · split
      · exact Keeps.upd.2 (keeps_setStage h _ _)
      · exact h
    · exact h

theorem keeps_execGrantRevoke (h : Keeps b0 s) (e : EngIx) : OutKeeps b0 (execGrantRevoke e s) := by
  refine .next ?_
  split
  · exact .branch (keeps_bump (keeps_setEng (Keeps.upd.2 h) _ _) _) h
  · exact h

/-! ## Interrupts (12) -/

theorem keeps_execSourceEvent (h : Keeps b0 s) (n : SrcIx) : OutKeeps b0 (execSourceEvent n s) :=
  .next (.branch h (.branch (.branch (keeps_noteSeen (keeps_countEvent (Keeps.upd.2 h) _)) h)
    (.branch (keeps_noteSeen (keeps_countEvent (keeps_raise h _) _)) h)))

theorem keeps_execRequestWithdrawn (h : Keeps b0 s) (n : SrcIx) : OutKeeps b0 (execRequestWithdrawn n s) :=
  .next (.branch (keeps_requestsFell h) (.branch (keeps_lower (.branch (keeps_put h _ _) h) _) h))

theorem keeps_execHoldOffExpiry (h : Keeps b0 s) (g : Fin 16) : OutKeeps b0 (execHoldOffExpiry g s) :=
  .next (keeps_noteSeen (keeps_lower h _))

theorem keeps_execAonSliceEvent (h : Keeps b0 s) (k : Fin 32) : OutKeeps b0 (execAonSliceEvent k s) := by
  have h1 := Keeps.branch (c := s.ready 20 = true) h (keeps_requestsFell h)
  have h2 := fun t (g : Keeps b0 t) l => Keeps.each (l := l) (fun _ k g => keeps_sliceCatch g k) g
  exact .next (.branch h1 (.branch (.branch (h2 _ (Keeps.upd.2 h1) _) h1) (.branch (h2 _ (Keeps.upd.2 h1) _) h1)))

/-! ## Supplies, resets and power states (13) -/

theorem keeps_execRefclkLock (h : Keeps b0 s) : OutKeeps b0 (execRefclkLock s) := by
  refine .next ?_
  split
  · have h1 := fun core => keeps_setPoint (keeps_lower (keeps_put
      (keeps_raise h F.CLK_STAT_REFOK) F.CLK_STAT_LOCK 31) F.CLK_STAT_NOREF) core
    exact .branch h (Keeps.upd.2 (.branch (h1 _) (keeps_startClear (h1 _))))
  · exact h

theorem keeps_execNoRefclk (h : Keeps b0 s) : OutKeeps b0 (execNoRefclk s) := by
  refine .next ?_
  split
  · exact .branch h (keeps_setBit (keeps_setBit (keeps_raise h _) _ _ _) _ _ _)
  · exact h

theorem keeps_execBlockReady (h : Keeps b0 s) (i : BlockIx) (cycles : Nat) : OutKeeps b0 (execBlockReady i cycles s) :=
  .next (.branch h (.branch (keeps_becomeReady (keeps_timersWake h _) _) (keeps_becomeReady h _)))

theorem keeps_execBandCalibrationComplete (h : Keeps b0 s) (head : Headroom) :
    OutKeeps b0 (execBandCalibrationComplete head s) :=
  .next (.branch h (keeps_becomeReady (keeps_noteHeadroom h _) _))

theorem keeps_execCisternClearComplete (h : Keeps b0 s) : OutKeeps b0 (execCisternClearComplete s) :=
  .next (.branch (keeps_finishClear h) h)

theorem keeps_execStandbyEntry (h : Keeps b0 s) : OutKeeps b0 (execStandbyEntry s) := by
  refine .next ?_
  split
  · exact .branch (keeps_endTransition (keeps_watchRequests
      (keeps_reconcile (keeps_put (keeps_setPoint (Keeps.upd.2
      (keeps_orphanReads (keeps_orphanReads (keeps_stopWindows
      (keeps_stopWindows (.setReg (Keeps.upd.2 (keeps_latchPads (keeps_restEngines h))) _ _) _) _) _) _)) _) _ _)))) h
  · exact h

theorem keeps_execEntryAbandoned (h : Keeps b0 s) : OutKeeps b0 (execEntryAbandoned s) := by
  refine .next ?_
  split
  · exact .branch (keeps_endTransition (keeps_raise h _)) h
  · exact h

theorem keeps_execTransitionComplete (h : Keeps b0 s) : OutKeeps b0 (execTransitionComplete s) := by
  refine .next ?_
  split
  · split
    · exact .branch (keeps_endTransition (keeps_put (keeps_put (keeps_reachPoint h _) _ _) _ _)) h
    · exact .branch (keeps_endTransition (keeps_put (keeps_restEngines (keeps_reachPoint h _)) _ _)) h
    · exact .branch (keeps_afterPowerOff (keeps_enterTrickle h) _) h
    · exact .branch (keeps_afterPowerOff (keeps_enterOff h) _) h
    · exact h
  · exact h

theorem keeps_execDozeEnd (h : Keeps b0 s) : OutKeeps b0 (execDozeEnd s) := by
  refine .next (.branch ?_ ?_)
  · exact h
  · split
    · exact .branch (keeps_put h _ _) h
    · exact .branch (keeps_put (keeps_beginTransition h _) _ _) h

theorem keeps_execWake (h : Keeps b0 s) (w : WakeSrc) (incarn : BitVec 16) : OutKeeps b0 (execWake w incarn s) :=
  .next (.branch h (.branch (keeps_beginTransition (Keeps.upd.2 h) _)
    (keeps_pulse (keeps_primeFromSleep (Keeps.upd.2 h) _) _)))

theorem keeps_execStandbyRelock (h : Keeps b0 s) (cycles : Nat) : OutKeeps b0 (execStandbyRelock cycles s) := by
  refine .next ?_
  split
  · have h1 := Keeps.setReg (keeps_catchUp h cycles) Reg.SYS_READY (s.pwr.readies &&& 0xFFFFFF)
    exact .branch (keeps_endTransition (keeps_recalChain (keeps_recalChain (keeps_put (keeps_put
      (keeps_setPoint (.branch (keeps_sliceCounts (Keeps.upd.2 h1)) (Keeps.upd.2 h1)) _) _ _) _ _) _) _)) h
  · exact h

theorem keeps_execAonPowerUp (h : Keeps b0 s) (vmain vbat : Nat) : OutKeeps b0 (execAonPowerUp vmain vbat s) := by
  have h1 := fun t (g : Keeps b0 t) band onVbat => keeps_putB (keeps_supplies
    (keeps_putB g F.PWR_SUPPLY_SRC onVbat) vmain vbat) F.PWR_SUPPLY_COLDBAND band
  exact .next (.branch h (.branch (keeps_watchRequests (h1 _ (.aonReset h _ _ _ _ _ _ _) _ _))
    (keeps_watchRequests (keeps_prime (keeps_draw (h1 _ (.aonReset h _ _ _ _ _ _ _) _ _) 16) _ _ _))))

theorem keeps_execSwitchToVbat (h : Keeps b0 s) (vmain vbat : Nat) (held : Bool) :
    OutKeeps b0 (execSwitchToVbat vmain vbat held s) := by
  have h0 := keeps_supplies h vmain vbat
  have h1 := keeps_pulse (keeps_raise (keeps_raise h F.PWR_SUPPLY_SRC) F.PWR_SUPPLY_SWITCHED) 6
  exact .next (.branch (.branch h h0) (.branch h0 (keeps_supplies (.branch (keeps_emergency h1 _) h1) _ _)))

theorem keeps_execSwitchToVmain (h : Keeps b0 s) (vmain vbat : Nat) (incarn : BitVec 16) :
    OutKeeps b0 (execSwitchToVmain vmain vbat incarn s) := by
  have h0 := keeps_supplies h vmain vbat
  have h1 := keeps_pulse (keeps_supplies (keeps_raise (keeps_lower h F.PWR_SUPPLY_SRC)
    F.PWR_SUPPLY_SWITCHED) vmain vbat) 6
  have h2 := keeps_signalWake h1 5
  exact .next (.branch (.branch h0 h) (.branch h0 (.branch h1 (.branch (keeps_prime h2 _ _ _) h2))))

theorem keeps_execAlwaysOnPowerLoss (h : Keeps b0 s) : OutKeeps b0 (execAlwaysOnPowerLoss s) :=
  .next (Keeps.aonReset (keeps_abandonFlash h 2) _ _ _ _ _ _ _)

theorem keeps_execRstin (h : Keeps b0 s) : OutKeeps b0 (execRstin s) := by
  have h1 := Keeps.branch (c := 2 ≤ s.pwrState) (keeps_raise h F.PWR_WAKECAUSE_RSTIN) h
  exact .next (.branch (keeps_raise (Keeps.upd.2 h) _)
    (Keeps.upd.2 (keeps_deviceReset (.branch (keeps_raise h1 _) h1) _)))

theorem keeps_execRstinRelease (h : Keeps b0 s) (incarn : BitVec 16) : OutKeeps b0 (execRstinRelease incarn s) :=
  .next (.branch h (.branch (Keeps.upd.2 h) (keeps_prime (Keeps.upd.2 h) _ _ _)))

theorem keeps_execBrownout (h : Keeps b0 s) : OutKeeps b0 (execBrownout s) :=
  .next (.branch (.branch (keeps_deviceReset h _) (keeps_prime (keeps_deviceReset h _) _ _ _)) h)

theorem keeps_execThermalWarning (h : Keeps b0 s) (temp : Int) : OutKeeps b0 (execThermalWarning temp s) :=
  .next (.branch h (.branch (.branch h (keeps_log (keeps_raise h _) _ _)) (.branch (keeps_lower h _) h)))

theorem keeps_execThermalShutdown (h : Keeps b0 s) : OutKeeps b0 (execThermalShutdown s) :=
  .next (keeps_powerDown (Keeps.upd.2 (keeps_raise
    (keeps_clearAddress (keeps_loseSram (keeps_clearPower (keeps_resetMain (keeps_abandonFlash h _) _)) _)) _)))

theorem keeps_execThermalRestart (h : Keeps b0 s) (incarn : BitVec 16) : OutKeeps b0 (execThermalRestart incarn s) :=
  .next (.branch h (.branch (Keeps.upd.2 h) (keeps_prime (Keeps.upd.2 h) _ _ _)))

/-! ## Accesses of requesters (00, 01, 05, 08, 12) -/

theorem keeps_execAonWriteComplete (h : Keeps b0 s) (a : Word) : OutKeeps b0 (execAonWriteComplete a s) := by
  refine .next ?_
  split
  · exact keeps_applyPosted (Keeps.upd.2 h) _ _
  · exact h

theorem keeps_execCisternDirectWrite (h : Keeps b0 s) (r : Req) (a v : Word) :
    OutKeeps b0 (execCisternDirectWrite r a v s) :=
  .next (.branch (keeps_command32 h _ _ _) h)

theorem keeps_execKeyStoreWrite (h : Keeps b0 s) (r : Req) (a v : Word) (w : Width) :
    OutKeeps b0 (execKeyStoreWrite r a v w s) :=
  .next (.branch (keeps_answerWrite (keeps_store h _ _ _ _) _ _) h)

theorem keeps_execInstructionStoreWrite (h : Keeps b0 s) (r : Req) (a v : Word) :
    OutKeeps b0 (execInstructionStoreWrite r a v s) :=
  .next (.branch (keeps_command32 h _ _ _) h)

theorem keeps_execCap (h : Keeps b0 s) (r : Req) (c : CapWrite) : OutKeeps b0 (execCap r c s) :=
  .next (.branch (keeps_captures (keeps_command32 h _ _ _) _ _) (keeps_command32 h _ _ _))

/-! ## Engine instructions (07, 08) -/

theorem keeps_execSharedAccessComplete (h : Keeps b0 s) (e : EngIx) (cycles : Nat) :
    OutKeeps b0 (execSharedAccessComplete e cycles s) := by
  refine .next ?_
  split
  · exact h
  · split
    · exact h
    · exact .branch h (keeps_completeAccess (keeps_setEng h _ _) _ _ _ _ _)

theorem keeps_execResultDelivery (h : Keeps b0 s) (e : EngIx) (u : EUnit) : OutKeeps b0 (execResultDelivery e u s) := by
  refine .next ?_
  dsimp only
  split
  · exact .branch (keeps_setEng h _ _) h
  · exact h

theorem keeps_execSampleArrival (h : Keeps b0 s) (e : EngIx) (i q : BitVec 16) :
    OutKeeps b0 (execSampleArrival e i q s) := by
  refine .next ?_
  dsimp only
  split
  · exact .branch (keeps_setEng h _ _) h
  · exact h

theorem keeps_execMove (h : Keeps b0 s) (e : EngIx) : OutKeeps b0 (execMove e s) :=
  .next (.branch (keeps_issue (keeps_fetch h _) _ _) h)

/-! ## Management port and host SPI (10) -/

theorem keeps_execAssign (h : Keeps b0 s) (adrIn : Bool) (b : Byte) : OutKeeps b0 (execAssign adrIn b s) :=
  .next (.branch (keeps_setAdrIn h _) (Keeps.upd.2 (keeps_put (keeps_raise (keeps_setAdrIn h _) _) _ _)))

theorem keeps_execIdentify (h : Keeps b0 s) (adrIn : Bool) : OutKeeps b0 (execIdentify adrIn s) :=
  .next (.branch (keeps_setAdrIn h _) (Keeps.upd.2 (keeps_setAdrIn h _)))

theorem keeps_execPointer (h : Keeps b0 s) (bytes : List Byte) : OutKeeps b0 (execPointer bytes s) :=
  .next (.branch (keeps_setPointer h _) h)

theorem keeps_execMgbWrite (h : Keeps b0 s) (cmd : Byte) (bytes : List Byte) : OutKeeps b0 (execMgbWrite cmd bytes s) :=
  .next (.branch h (.branch (.branch (keeps_mgbWords (keeps_setPointer h _) _ _) (keeps_setPointer h _))
    (.branch h (keeps_mgbStatus h _))))

theorem keeps_execMgbRead (h : Keeps b0 s) (late : List Bool) : OutKeeps b0 (execMgbRead late s) :=
  .next (.branch (keeps_mgbWordsRead (Keeps.upd.2 h) _ _) h)

theorem keeps_execManagementAddressMatch (h : Keeps b0 s) (a : BitVec 7) (adrIn : Bool) :
    OutKeeps b0 (execManagementAddressMatch a adrIn s) := by
  have h1 := keeps_setAdrIn h adrIn
  have h2 := keeps_signalWake h1 0
  exact .next (.branch (.branch h2 (Keeps.upd.2 h2)) h1)

theorem keeps_execMatcherRelease (h : Keeps b0 s) : OutKeeps b0 (execMatcherRelease s) :=
  .next (.branch (keeps_bump (Keeps.upd.2 h) _) h)

theorem keeps_execSclHang (h : Keeps b0 s) : OutKeeps b0 (execSclHang s) :=
  .next (.branch (keeps_bump h _) h)

theorem keeps_execAttnAck (h : Keeps b0 s) (seq : Byte) : OutKeeps b0 (execAttnAck seq s) :=
  .next (.branch (keeps_lower (keeps_put (keeps_lower h _) _ _) _) h)

theorem keeps_execAttentionAttempt (h : Keeps b0 s) (o : AttemptOutcome) : OutKeeps b0 (execAttentionAttempt o s) := by
  refine .next (.branch ?_ ?_)
  · split
    · exact Keeps.upd.2 h
    · exact h
    · exact keeps_bump h _
    · exact h
  · exact h

theorem keeps_execBusClear (h : Keeps b0 s) : OutKeeps b0 (execBusClear s) :=
  .next (.branch (keeps_bump h _) h)

theorem keeps_execSelectAssert (h : Keeps b0 s) (cs : Select) (both : Bool) : OutKeeps b0 (execSelectAssert cs both s) :=
  .next (.branch h (.branch (.branch h (Keeps.upd.2 h))
    (.branch (keeps_raise (keeps_raise (Keeps.upd.2 h) _) _) (Keeps.upd.2 h))))

theorem keeps_execSelectRelease (h : Keeps b0 s) (cs : Select) (clocks : Nat) :
    OutKeeps b0 (execSelectRelease cs clocks s) :=
  .next (.branch (Keeps.upd.2 (keeps_orphanReads (keeps_endTransaction h _ _) _))
    (.branch (Keeps.upd.2 h) (.branch (Keeps.upd.2 h) h)))

theorem keeps_execSelectTimeout (h : Keeps b0 s) (clocks : Nat) : OutKeeps b0 (execSelectTimeout clocks s) := by
  refine .next ?_
  split
  · exact .branch (Keeps.upd.2 (keeps_raise (keeps_raise (keeps_orphanReads (keeps_endTransaction h _ _) _) _) _)) h
  · exact h

theorem keeps_execWrite (h : Keeps b0 s) (t : SpiWrite) : OutKeeps b0 (execWrite t s) :=
  .next (.branch (keeps_spiWrite h _ _) h)

theorem keeps_execWriteFix (h : Keeps b0 s) (t : SpiWrite) : OutKeeps b0 (execWriteFix t s) :=
  .next (.branch (keeps_spiWrite h _ _) h)

theorem keeps_execRead (h : Keeps b0 s) (t : SpiRead) : OutKeeps b0 (execRead t s) :=
  .next (.branch (keeps_spiRead h _ _) h)

theorem keeps_execReadFix (h : Keeps b0 s) (t : SpiRead) : OutKeeps b0 (execReadFix t s) :=
  .next (.branch (keeps_spiRead h _ _) h)

/-! ## The flash window (14) -/

theorem keeps_execFlashRead (h : Keeps b0 s) (r : Req) (a : Word) (bad : Nat) : OutKeeps b0 (execFlashRead r a bad s) :=
  .next (.branch (.branch (Keeps.upd.2 (.branch h (Keeps.upd.2 h))) (keeps_query32 (.branch h (Keeps.upd.2 h)) _ _)) h)

theorem keeps_execFlashOperationEnd (h : Keeps b0 s) (pulses : List Nat) : OutKeeps b0 (execFlashOperationEnd pulses s) :=
  .next (.each (fun _ _ g => keeps_resumeWait g _) (Keeps.upd.2 (keeps_flashEnds h _)))

/-! ## Every command -/

/-- Every command keeps the queue and the canonical form: the ones that are one access or one instruction by the lemma of that
access or instruction, each other one by its own. -/
theorem keeps_exec (h : Keeps b0 s) (i : Instr) : OutKeeps b0 (exec i s) := by
  cases i with
  | registerWrite | blockLock | wldLock | stagedWrite | arm | gap | abandon | release | restart | recalA | recalB
  | sfmRunStart | sfmRunStop | sfmAdj | sfmSubmit | sfmCancel | sfmHeard | sfmMiss | cstUgo | cstRq | clear | flush
  | synCalibrate | synInvalidate | synInvalidateAll | load | start | halt | force | engPcWrite | engWdtWrite | evcFire
  | evcHpendClear | channelLock | lckAcq | lckRel | lckClr | pairingEnable | pairingDisable | rejoin | promote | handover
  | mgbAttnreq | ethTxpoll | mdioGo | ethPtpSetsHi | ethPtpAdj | fdrEnable | fdrAlignChange | ctrOut | ctrSet | ctrClr
  | ctrFclr | gpioSet | gpioClr | gpioTgl | irqComplete | irqSrcWrite | tmrStart | tmrStop | clrq | tmrCmpHiWrite
  | tmrCfgWrite | dstadd | dstsub | rtcTimeWrite | pwrRst | blockReset | runRequest | dozeRequest | standbyRequest
  | trickleRequest | offRequest | padRelease | pwrOpWrite | prog | erase | setprot | clrprot | pwdset | lock | logclr
  | flcPwdin | flcLogadd | plan | approve | reject | ethEnable =>
    exact .next (keeps_command32 h _ _ _)
  | rcRead | snapshotRead | sfmResult | irqClaim | tmrCapLoRead =>
    exact .next (keeps_query32 h _ _)
  | deepEnc | deepDec | sunEnc | sunDec | cmacGen | cmacVer | prime =>
    exact .next (keeps_submitDesc h _ _ _)
  | add | sub | and | or | xor | andn | min | max | minu | maxu | adds | subs | sext8 | sext16 | abs | pass | shl | shr | sar
  | rol | fshl | fshr | clz | muls | mulu | mulsu | macs | macu | cmpEq | cmpNe | cmpLt | cmpGe | cmpLtu | cmpGeu | cmpAny
  | cmpNone | jump | jrel | call | crel | ret | tret | ldl | stl | ldb | ldbs | ldh | ldhs | ldt | ldw | stb | sth | stt
  | stw | blkld | blkst | lioSel | cjW | cjRst | evFire | lkAcq | lkRel | tmWdk | tbClr =>
    exact .next (keeps_issueMove h _ _ _)
  | lioA | lioB | evPop | tmCyc | tmOff =>
    exact .next (keeps_issueRead h _ _ _)
  | soundingMeasurement => exact keeps_execSoundingMeasurement h _ _
  | txFrameEnd => exact keeps_execTxFrameEnd h _ _
  | rxFrame => exact keeps_execRxFrame h _ _ _
  | mdioFrameEnd => exact keeps_execMdioFrameEnd h _ _
  | planDue => exact keeps_execPlanDue h
  | jobStart => exact keeps_execJobStart h
  | jobComplete => exact keeps_execJobComplete h _
  | synthCalibrationComplete => exact keeps_execSynthCalibrationComplete h _
  | dcLoopLimit => exact keeps_execDcLoopLimit h _ _ _
  | wakeCodeMatch => exact keeps_execWakeCodeMatch h _
  | decisionWindowEnd => exact keeps_execDecisionWindowEnd h _ _
  | gainSettled => exact keeps_execGainSettled h _
  | adcClip => exact keeps_execAdcClip h _
  | noiseMeasurementComplete => exact keeps_execNoiseMeasurementComplete h _ _
  | frequencyCorrection => exact keeps_execFrequencyCorrection h _ _
  | syncMatch => exact keeps_execSyncMatch h _ _ _
  | secondCorrelatorMatch => exact keeps_execSecondCorrelatorMatch h _ _
  | headerWindowComplete => exact keeps_execHeaderWindowComplete h _ _ _
  | codewordReceived => exact keeps_execCodewordReceived h _ _ _
  | decodingJobStart => exact keeps_execDecodingJobStart h
  | decodingJobEnd => exact keeps_execDecodingJobEnd h _
  | lastOnAirBit => exact keeps_execLastOnAirBit h _ _
  | helloSend => exact keeps_execHelloSend h
  | beatSend => exact keeps_execBeatSend h
  | hello => exact keeps_execHello h _ _
  | linkDown => exact keeps_execLinkDown h
  | heartbeatMissed => exact keeps_execHeartbeatMissed h
  | ackf => exact keeps_execAckf h _
  | resend => exact keeps_execResend h
  | badFrame => exact keeps_execBadFrame h _
  | dirtyEntrySweep => exact keeps_execDirtyEntrySweep h
  | beat => exact keeps_execBeat h _ _
  | entry => exact keeps_execEntry h _ _
  | req => exact keeps_execReq h _ _
  | launch => exact keeps_execLaunch h _ _
  | done => exact keeps_execDone h _ _
  | handoff => exact keeps_execHandoff h _ _
  | acct => exact keeps_execAcct h _ _
  | primaryLost => exact keeps_execPrimaryLost h
  | peerLost => exact keeps_execPeerLost h
  | takeover => exact keeps_execTakeover h _
  | counterLift => exact keeps_execCounterLift h
  | plannedHandoverComplete => exact keeps_execPlannedHandoverComplete h
  | stoppedCommit => exact keeps_execStoppedCommit h _ _
  | timerTick => exact keeps_execTimerTick h _
  | captureEvent => exact keeps_execCaptureEvent h _ _ _
  | slotBoundary => exact keeps_execSlotBoundary h _
  | firstSlotStart => exact keeps_execFirstSlotStart h _ _
  | secondTick => exact keeps_execSecondTick h _
  | oscillatorFail => exact keeps_execOscillatorFail h
  | logbookAppend => exact keeps_execLogbookAppend h
  | calibrationSetLoad => exact keeps_execCalibrationSetLoad h
  | frameInstant => exact keeps_execFrameInstant h _ _
  | frameWrite => exact keeps_execFrameWrite h
  | dwellEnd => exact keeps_execDwellEnd h _
  | feedbackChange => exact keeps_execFeedbackChange h _ _
  | matchWindowEnd => exact keeps_execMatchWindowEnd h _
  | gpioEdge => exact keeps_execGpioEdge h _ _
  | queuedCommandStart => exact keeps_execQueuedCommandStart h
  | queuedCalibrationEnd => exact keeps_execQueuedCalibrationEnd h _
  | payloadReadComplete => exact keeps_execPayloadReadComplete h
  | hopStart => exact keeps_execHopStart h _
  | femSwitch => exact keeps_execFemSwitch h
  | rampUp => exact keeps_execRampUp h _
  | firstPreambleSymbol => exact keeps_execFirstPreambleSymbol h
  | lastSymbol => exact keeps_execLastSymbol h _
  | rampDownEnd => exact keeps_execRampDownEnd h _
  | femReturn => exact keeps_execFemReturn h
  | eventArrival => exact keeps_execEventArrival h
  | haltComplete => exact keeps_execHaltComplete h _
  | stallLimit => exact keeps_execStallLimit h _
  | watchdogExpiry => exact keeps_execWatchdogExpiry h _
  | grant => exact keeps_execGrant h _
  | grantRevoke => exact keeps_execGrantRevoke h _
  | sourceEvent => exact keeps_execSourceEvent h _
  | requestWithdrawn => exact keeps_execRequestWithdrawn h _
  | holdOffExpiry => exact keeps_execHoldOffExpiry h _
  | aonSliceEvent => exact keeps_execAonSliceEvent h _
  | refclkLock => exact keeps_execRefclkLock h
  | noRefclk => exact keeps_execNoRefclk h
  | blockReady => exact keeps_execBlockReady h _ _
  | bandCalibrationComplete => exact keeps_execBandCalibrationComplete h _
  | cisternClearComplete => exact keeps_execCisternClearComplete h
  | standbyEntry => exact keeps_execStandbyEntry h
  | entryAbandoned => exact keeps_execEntryAbandoned h
  | transitionComplete => exact keeps_execTransitionComplete h
  | dozeEnd => exact keeps_execDozeEnd h
  | wake => exact keeps_execWake h _ _
  | standbyRelock => exact keeps_execStandbyRelock h _
  | aonPowerUp => exact keeps_execAonPowerUp h _ _
  | switchToVbat => exact keeps_execSwitchToVbat h _ _ _
  | switchToVmain => exact keeps_execSwitchToVmain h _ _ _
  | alwaysOnPowerLoss => exact keeps_execAlwaysOnPowerLoss h
  | rstin => exact keeps_execRstin h
  | rstinRelease => exact keeps_execRstinRelease h _
  | brownout => exact keeps_execBrownout h
  | thermalWarning => exact keeps_execThermalWarning h _
  | thermalShutdown => exact keeps_execThermalShutdown h
  | thermalRestart => exact keeps_execThermalRestart h _
  | aonWriteComplete => exact keeps_execAonWriteComplete h _
  | cisternDirectWrite => exact keeps_execCisternDirectWrite h _ _ _
  | keyStoreWrite => exact keeps_execKeyStoreWrite h _ _ _ _
  | instructionStoreWrite => exact keeps_execInstructionStoreWrite h _ _ _
  | cap => exact keeps_execCap h _ _
  | sharedAccessComplete => exact keeps_execSharedAccessComplete h _ _
  | resultDelivery => exact keeps_execResultDelivery h _ _
  | sampleArrival => exact keeps_execSampleArrival h _ _ _
  | move => exact keeps_execMove h _
  | assign => exact keeps_execAssign h _ _
  | identify => exact keeps_execIdentify h _
  | pointer => exact keeps_execPointer h _
  | mgbWrite => exact keeps_execMgbWrite h _ _
  | mgbRead => exact keeps_execMgbRead h _
  | managementAddressMatch => exact keeps_execManagementAddressMatch h _ _
  | matcherRelease => exact keeps_execMatcherRelease h
  | sclHang => exact keeps_execSclHang h
  | attnAck => exact keeps_execAttnAck h _
  | attentionAttempt => exact keeps_execAttentionAttempt h _
  | busClear => exact keeps_execBusClear h
  | selectAssert => exact keeps_execSelectAssert h _ _
  | selectRelease => exact keeps_execSelectRelease h _ _
  | selectTimeout => exact keeps_execSelectTimeout h _
  | write => exact keeps_execWrite h _
  | writeFix => exact keeps_execWriteFix h _
  | read => exact keeps_execRead h _
  | readFix => exact keeps_execReadFix h _
  | flashRead => exact keeps_execFlashRead h _ _ _
  | flashOperationEnd => exact keeps_execFlashOperationEnd h _

/-- A step keeps the canonical form: it runs the front command on the state with the rest of the queue. -/
theorem canonical_of_step (hs : s.canonical = true) (h : step s = .next t) : t.canonical = true := by
  unfold step at h
  split at h
  · cases h
    exact hs
  · next rest _ =>
    have hk := keeps_exec (.refl { s with pending := rest }) _ t h
    exact hk.canon (State.canonical_congr hs rfl rfl rfl rfl rfl)

/-- Settles O4: no command breaks the canonical form, and a step is a command or nothing. -/
theorem stepKeepsCanonicalForm : Obligations.StepKeepsCanonicalForm :=
  fun _ _ => canonical_of_step

end Sys2Proof.Machine
end

section
/-! PROOFS. Accesses to the register window that fail (01_system_map.md R20, R22, R23, R29, 00_scope.md R6): the world is checked
before readiness, and a failed access leaves its record and the error status of the port. -/

namespace Sys2Proof.Machine

variable {s : State} {r a : Nat}

/-! ## What reaches the window -/

/-- A whole-word write to the window is the window's write. -/
theorem State.command32_window (hr : s.canReach r = true) (ha : a % 4 = 0) (hw : 0x20000000 ≤ a ∧ a < 0x20180000) (v : Word) :
    s.command32 r a v = State.answerWrite (s.writeWindow r a v) r a := by
  simp [State.command32, State.busWrite, State.store, hr, ha, placeOf_window hw]

/-- A whole-word read of the window that the window refuses answers the error. -/
theorem State.query32_window_error {t : State} {e : AccErr} (hr : s.canReach r = true) (ha : a % 4 = 0)
    (hw : 0x20000000 ≤ a ∧ a < 0x20180000) (h : s.readWindow r a = (t, .error e)) :
    s.query32 r a = { t.portError r a with data := 0, err := true } := by
  simp [State.query32, State.busRead, State.load, State.answerRead, hr, ha, placeOf_window hw, h]

/-! ## The order of the checks (R22, R29) -/

theorem State.writeWindow_barred (h : s.windowBarred r a true = true) (v : Word) :
    s.writeWindow r a v = (s.violation a true r, some .world) := by
  simp [State.writeWindow, h]

theorem State.writeWindow_unready (h : s.windowBarred r a true = false) (hn : s.ready (keyBlock a) = false) (v : Word) :
    s.writeWindow r a v = (s, some .other) := by
  simp [State.writeWindow, h, hn]

theorem State.readWindow_barred (h : s.windowBarred r a false = true) :
    s.readWindow r a = (s.violation a false r, .error .world) := by
  simp [State.readWindow, h]

theorem State.readWindow_unready (h : s.windowBarred r a false = false) (hn : s.ready (keyBlock a) = false) :
    s.readWindow r a = (s, .error .other) := by
  simp [State.readWindow, h, hn]

/-! ## The record and the port's error status -/

/-- The record of a violation: its fields and VALID, or OVF when one is recorded already (R23, R483). -/
theorem State.violation_eq (s : State) (a : Nat) (wr : Bool) (r : Nat) :
    s.violation a wr r =
      if s.flag F.SYS_WVIOL_INFO_VALID = true then s.put F.SYS_WVIOL_INFO_OVF 1
      else (((s.put F.SYS_WVIOL_ADDR_ADDR a).put F.SYS_WVIOL_INFO_WR (if wr then 1 else 0)).put F.SYS_WVIOL_INFO_REQ r).put
        F.SYS_WVIOL_INFO_VALID 1 := rfl

theorem State.answerWrite_error (t : State) (e : AccErr) (r a : Nat) :
    State.answerWrite (t, some e) r a = { t.portError r a with data := 0, err := true } := rfl

/-- The error status of a port lies in the registers of its select or in the management port. -/
theorem State.portError_eq (u : State) (r a : Nat) :
    u.portError r a = { u with regs := (u.portError r a).regs, mgb := (u.portError r a).mgb } := by
  unfold State.portError
  split
  · by_cases hb : u.flag (F.HSP_STATUS_ERR (if r = 65 then 1 else 0)) = true <;> simp only [hb] <;> rfl
  · split <;> rfl

/-- Settles O31: the world check comes first, then readiness; either way only the record and the port's error status change. -/
theorem barredAndUnreadyAccessesFail : Obligations.BarredAndUnreadyAccessesFail := by
  intro s r a v hr ha hlo hhi
  refine ⟨fun h => ?_, fun h hn => ?_, fun h => ?_, fun h hn => ?_, fun u => ?_⟩
  · rw [exec_registerWrite, State.command32_window hr ha ⟨hlo, hhi⟩, State.writeWindow_barred h, State.answerWrite_error,
      State.violation_eq]
  · rw [exec_registerWrite, State.command32_window hr ha ⟨hlo, hhi⟩, State.writeWindow_unready h hn, State.answerWrite_error]
  · rw [exec_rcRead, State.query32_window_error hr ha ⟨hlo, hhi⟩ (State.readWindow_barred h), State.violation_eq]
  · rw [exec_rcRead, State.query32_window_error hr ha ⟨hlo, hhi⟩ (State.readWindow_unready h hn)]
  · rw [State.portError_eq]
    exact ⟨rfl, rfl, rfl, rfl⟩

end Sys2Proof.Machine
end

section
/-! PROOFS. The completion of a posted write (01_system_map.md R31, 12_interrupts_timers_rtc.md R395, R398): what reaches the
register, and how a running clock is brought forward before RTC_CTL changes. -/

namespace Sys2Proof.Machine

variable {s : State} {v : Word}

/-! ## One bit of a word -/

theorem bitAt_toNat (v : Word) (i : Nat) : bitAt v.toNat i = v.getLsbD i := by
  rw [Bool.eq_iff_iff, BitVec.getLsbD, Nat.testBit_eq_decide_div_mod_eq, bitAt, bitsOf, Nat.shiftRight_eq_div_pow, pow_one,
    beq_iff_eq, decide_eq_true_iff]

theorem bitsOf_toNat_one (v : Word) (i : Nat) : bitsOf v.toNat i 1 = if v.getLsbD i then 1 else 0 := by
  have h := bitAt_toNat v i
  have hlt := bitsOf_lt v.toNat i 1
  rw [bitAt] at h
  cases hb : v.getLsbD i <;> simp only [hb, beq_iff_eq, beq_eq_false_iff_ne] at h <;> simp <;> omega

/-- A field is read from its register's word alone. -/
theorem State.get_congr {t : State} {f : Fld} (h : s.reg f.key = t.reg f.key) : s.get f = t.get f := by
  rw [State.get, State.get, h]

/-! ## The clock brought forward (R394, log entry 9) -/

/-- The crystal's cycles change how far the trim has come and draw free values; SUB is left to the caller. -/
theorem State.crystal_eq (s : State) (n : Nat) :
    (s.crystal n).2 = { s with free := (s.crystal n).2.free, trim := (s.crystal n).2.trim } := by
  unfold State.crystal
  dsimp only
  split <;> rfl

/-- A clock that is halted, or whose crystal has stopped, stands (R395, R400). -/
theorem State.rtcNow_stands (h : s.flag F.RTC_CTL_HALT = true ∨ s.xtal = some false) : s.rtcNow = s := by
  rcases h with h | h <;> simp [State.rtcNow, h]

/-- Bringing the clock forward writes at most SUB, below its wrap. -/
theorem State.rtcNow_cases (s : State) :
    (∃ free trim n, n < 32768 ∧ s.rtcNow = ({ s with free := free, trim := trim } : State).put F.RTC_TIME_SUB n) ∨
      ∃ free, s.rtcNow = { s with free := free } := by
  unfold State.rtcNow
  split
  · exact .inr ⟨s.free, rfl⟩
  · dsimp only
    split
    · next hn =>
      rw [State.crystal_eq]
      exact .inl ⟨_, _, _, hn, rfl⟩
    · exact .inr ⟨_, rfl⟩

theorem State.rtcNow_reg (s : State) {k : Nat} (hk : k ≠ Reg.RTC_TIME) : s.rtcNow.reg k = s.reg k := by
  obtain ⟨free, trim, n, -, h⟩ | ⟨free, h⟩ := s.rtcNow_cases <;> rw [h]
  · exact State.reg_setReg_other _ _ hk
  · rfl

theorem State.rtcNow_sub_lt (hc : s.canonical = true) : s.rtcNow.get F.RTC_TIME_SUB < 32768 := by
  obtain ⟨free, trim, n, hn, h⟩ | ⟨free, h⟩ := s.rtcNow_cases <;> rw [h]
  · have hc' : ({ s with free := free, trim := trim } : State).canonical = true := hc
    rw [State.get_put_same hc' _ _ (by decide)]
    exact Nat.mod_lt _ (by decide)
  · exact bitsOf_lt _ _ 15

theorem State.rtcNow_sod (hc : s.canonical = true) : s.rtcNow.get F.RTC_TIME_SOD = s.get F.RTC_TIME_SOD := by
  obtain ⟨free, trim, n, hn, h⟩ | ⟨free, h⟩ := s.rtcNow_cases <;> rw [h]
  · have hc' : ({ s with free := free, trim := trim } : State).canonical = true := hc
    exact State.get_put_apart hc' _ rfl (by decide) (by decide)
  · rfl

theorem State.rtcNow_canonical (hc : s.canonical = true) : s.rtcNow.canonical = true :=
  (State.keeps_rtcNow (.refl s)).canon hc

/-- The clock brought forward leaves what is no register of it. -/
theorem State.rtcNow_others (s : State) :
    s.rtcNow.mem = s.mem ∧ s.rtcNow.pulses = s.pulses ∧ s.rtcNow.pwr = s.pwr ∧ s.rtcNow.aonBuf = s.aonBuf ∧
      s.rtcNow.rtcDst = s.rtcDst := by
  obtain ⟨free, trim, n, -, h⟩ | ⟨free, h⟩ := s.rtcNow_cases <;> rw [h] <;> exact ⟨rfl, rfl, rfl, rfl, rfl⟩

/-! ## A write of RTC_CTL (R395, R398) -/

/-- HALT and ALMEN as `v` gives them. -/
def State.rtcModes (s : State) (v : Word) : State :=
  (s.put F.RTC_CTL_HALT (if v.getLsbD 0 then 1 else 0)).put F.RTC_CTL_ALMEN (if v.getLsbD 1 then 1 else 0)

/-- The summer-time command that waits after a write of `v`. -/
def State.rtcWaiting (s : State) (v : Word) : Option Bool :=
  if v.getLsbD 3 then some true else if v.getLsbD 4 then some false else s.rtcDst

/-- `v` asks for both summer-time changes, or for one of a halted clock (R398). -/
def State.refusesDst (s : State) (v : Word) : Prop :=
  (v.getLsbD 3 = true ∧ v.getLsbD 4 = true) ∨ ((v.getLsbD 3 = true ∨ v.getLsbD 4 = true) ∧ s.flag F.RTC_CTL_HALT = true)

theorem State.rtcCtl_refused (h : s.refusesDst v) : s.rtcCtl v = s.raise F.RTC_STAT_DSTREF := by
  simp only [State.rtcCtl, bitAt_toNat, Bool.or_eq_true, Bool.and_eq_true]
  exact if_pos h

theorem State.rtcCtl_taken (h : ¬s.refusesDst v) : s.rtcCtl v = { s.rtcNow.rtcModes v with rtcDst := s.rtcWaiting v } := by
  obtain ⟨-, -, -, -, hdst⟩ := s.rtcNow_others
  simp only [State.rtcCtl, bitAt_toNat, bitsOf_toNat_one, Bool.or_eq_true, Bool.and_eq_true, State.rtcWaiting, ← hdst]
  refine (if_neg h).trans ?_
  cases v.getLsbD 3 with
  | true => rfl
  | false => cases v.getLsbD 4 <;> rfl

theorem State.rtcModes_get_halt (hc : s.canonical = true) (v : Word) :
    (s.rtcModes v).get F.RTC_CTL_HALT = if v.getLsbD 0 then 1 else 0 := by
  rw [State.rtcModes, State.get_put_apart (f := F.RTC_CTL_ALMEN) (g := F.RTC_CTL_HALT) (State.canonical_put hc _ _) _ rfl (by decide)
      (by decide),
    State.get_put_same hc _ _ (by decide)]
  split <;> rfl

theorem State.rtcModes_get_almen (hc : s.canonical = true) (v : Word) :
    (s.rtcModes v).get F.RTC_CTL_ALMEN = if v.getLsbD 1 then 1 else 0 := by
  rw [State.rtcModes, State.get_put_same (State.canonical_put hc _ _) _ _ (by decide)]
  split <;> rfl

theorem State.rtcModes_reg (s : State) (v : Word) {k : Nat} (hk : k ≠ Reg.RTC_CTL) : (s.rtcModes v).reg k = s.reg k :=
  (State.reg_setReg_other _ _ hk).trans (State.reg_setReg_other _ _ hk)

/-! ## The completion (R31) -/

variable {a : Word}

/-- No write waits for the register at `a` any more. -/
def State.unposted (s : State) (a : Nat) : State := { s with aonBuf := s.aonBuf.filter (fun w => w.1 != a) }

theorem State.unposted_canonical (hc : s.canonical = true) (a : Nat) : (s.unposted a).canonical = true := hc

theorem exec_aonWriteComplete_none (h : s.aonBuf.find? (fun w => w.1 == a.toNat) = none) :
    exec (.aonWriteComplete a) s = .next s := by
  change execAonWriteComplete a s = .next s
  rw [execAonWriteComplete, h]

theorem exec_aonWriteComplete_some (h : s.aonBuf.find? (fun w => w.1 == a.toNat) = some (a.toNat, v)) :
    exec (.aonWriteComplete a) s = .next ((s.unposted a.toNat).applyPosted a.toNat v) := by
  change execAonWriteComplete a s = _
  rw [execAonWriteComplete, h]
  rfl

variable {k : Nat} {x : RegRow}

theorem State.applyPosted_plain (hx : rowAt k = some x) (h1 : k ≠ Reg.RTC_CTL) (h2 : k ≠ Reg.RTC_TIME) (h3 : k ≠ Reg.RTC_DATE) :
    s.applyPosted k v = s.setReg k (x.written false (s.reg k) v) := by
  simp [State.applyPosted, hx, h1, h2, h3]

theorem State.applyPosted_calendar (hx : rowAt k = some x) (h : k = Reg.RTC_TIME ∨ k = Reg.RTC_DATE) :
    s.applyPosted k v = s.rtcTime k (x.written false (s.reg k) v) := by
  have hk : k ≠ Reg.RTC_CTL := by rcases h with rfl | rfl <;> decide
  simp [State.applyPosted, hx, h, hk]

theorem State.applyPosted_rtcCtl : s.applyPosted Reg.RTC_CTL v = s.rtcCtl v := by
  have hx : rowAt Reg.RTC_CTL = some ⟨Reg.RTC_CTL, 4, 1, 4, 1, .single, 3, 0, 0, 0, 0, 0x18, 0, 0, 1⟩ := by decide +kernel
  simp [State.applyPosted, hx]

/-- What an accepted write of RTC_CTL leaves of a running clock: its modes as `v` gives them, SUB below its wrap, all else as it was. -/
theorem State.rtcCtl_running (hc : s.canonical = true) (h : ¬s.refusesDst v) :
    (s.rtcCtl v).rtcDst = s.rtcWaiting v ∧ (s.rtcCtl v).get F.RTC_CTL_HALT = (if v.getLsbD 0 then 1 else 0) ∧
      (s.rtcCtl v).get F.RTC_CTL_ALMEN = (if v.getLsbD 1 then 1 else 0) ∧ (s.rtcCtl v).get F.RTC_TIME_SUB < 32768 ∧
      (s.rtcCtl v).get F.RTC_TIME_SOD = s.get F.RTC_TIME_SOD ∧ (s.rtcCtl v).aonBuf = s.aonBuf ∧
      (∀ k : Nat, k ≠ Reg.RTC_CTL → k ≠ Reg.RTC_TIME → (s.rtcCtl v).reg k = s.reg k) ∧ (s.rtcCtl v).mem = s.mem ∧
      (s.rtcCtl v).pulses = s.pulses ∧ (s.rtcCtl v).pwr = s.pwr := by
  have hn := State.rtcNow_canonical hc
  have htime := s.rtcNow.rtcModes_reg v (show Reg.RTC_TIME ≠ Reg.RTC_CTL by decide)
  obtain ⟨hmem, hpulses, hpwr, hbuf, -⟩ := s.rtcNow_others
  rw [State.rtcCtl_taken h]
  refine ⟨rfl, State.rtcModes_get_halt hn v, State.rtcModes_get_almen hn v, ?_, ?_, hbuf, fun k h1 h2 => ?_, hmem, hpulses, hpwr⟩
  · exact lt_of_eq_of_lt (State.get_congr htime) (State.rtcNow_sub_lt hc)
  · exact (State.get_congr htime).trans (State.rtcNow_sod hc)
  · exact (s.rtcNow.rtcModes_reg v h1).trans (s.rtcNow_reg h2)

/-- Settles O35, by the register whose write completes. -/
theorem aonWritesComplete : Obligations.AonWritesComplete := by
  intro s a hc
  refine ⟨exec_aonWriteComplete_none, fun v hv => ?_⟩
  rw [exec_aonWriteComplete_some hv]
  refine ⟨fun x hx h1 h2 h3 => ?_, fun x hx h => ?_, fun ha => ?_⟩
  · rw [State.applyPosted_plain hx h1 h2 h3]
    rfl
  · rw [State.applyPosted_calendar hx h]
    rfl
  · rw [ha, State.applyPosted_rtcCtl]
    refine ⟨fun h => ?_, fun h hs => ?_, fun h _ _ => ⟨_, rfl, State.rtcCtl_running (State.unposted_canonical hc _) h⟩⟩
    · exact congrArg _ (State.rtcCtl_refused h)
    · rw [State.rtcCtl_taken (s := s.unposted Reg.RTC_CTL) h, State.rtcNow_stands (s := s.unposted Reg.RTC_CTL) hs]
      rfl

end Sys2Proof.Machine
end

section
/-! PROOFS. Staged configuration (01 R34 to R40): what activating a world's staged set, reloading its shadows and reporting a result
leave behind, said once for every register. -/

namespace Sys2Proof.Machine

variable {s : State} {a k j : Nat} {x : RegRow}

/-! ## Merged words -/

theorem mergeBits_same (m : Nat) (v : Word) : mergeBits m v v = v := by
  apply BitVec.eq_of_getLsbD_eq
  intro i hi
  rw [getLsbD_mergeBits m v v hi, ite_self]

theorem mergeBits_none (v w : Word) : mergeBits 0 v w = v := by
  apply BitVec.eq_of_getLsbD_eq
  intro i hi
  simp [getLsbD_mergeBits 0 v w hi]

theorem mergeBits_mergeBits_left (m : Nat) (v w : Word) : mergeBits m (mergeBits m v w) w = mergeBits m v w := by
  apply BitVec.eq_of_getLsbD_eq
  intro i hi
  rw [getLsbD_mergeBits _ _ _ hi, getLsbD_mergeBits _ _ _ hi]
  split <;> rfl

/-! ## Active copies -/

theorem State.activeReg_setActive_other (s : State) (v : Word) (h : j ≠ k) : (s.setActive k v).activeReg j = s.activeReg j :=
  AMap.look_put_other s.act v h

theorem State.activeReg_setActive_same (h : s.canonical = true) (k : Nat) (v : Word) : (s.setActive k v).activeReg k = v :=
  AMap.look_put_same v (State.act_wf h)

theorem AMap.look_unlisted {α : Type} {d : Nat → α} {m : List (Nat × α)} (h : k ∉ m.map Prod.fst) : AMap.look d m k = d k := by
  induction m with
  | nil => rfl
  | cons e m ih =>
    rw [List.map_cons, List.mem_cons, not_or] at h
    obtain ⟨hne, hmem⟩ := h
    simp only [AMap.look, hne, if_false]
    exact ih hmem

/-- A register of which neither copy is listed reads its reset value in both. -/
theorem State.reg_eq_activeReg_of_unlisted (h : k ∉ s.listedKeys) : s.reg k = s.activeReg k := by
  rw [State.listedKeys, List.mem_append, not_or] at h
  obtain ⟨hreg, hact⟩ := h
  rw [State.reg, State.activeReg, AMap.look_unlisted hreg, AMap.look_unlisted hact]

/-! ## The staged bits of a world -/

/-- A change of one register beside SYS_WLD_BLK leaves every block in its world. -/
theorem State.blockNS_setReg (s : State) (v : Word) (h : k ≠ Reg.SYS_WLD_BLK) (i : Nat) :
    (s.setReg k v).blockNS i = s.blockNS i := by
  have hw : (s.setReg k v).worldWord Reg.SYS_WLD_BLK = s.worldWord Reg.SYS_WLD_BLK := by
    simp only [State.worldWord, State.setReg_inForce, s.reg_setReg_other v h.symm]
  rw [State.blockNS, State.blockNS, hw]

theorem State.stagedMask_congr {t : State} (h : ∀ i, t.blockNS i = s.blockNS i) (ns : Bool) (k : Nat) :
    t.stagedMask ns k = s.stagedMask ns k := by
  simp only [State.stagedMask, h]

theorem State.stagedMask_row (hx : rowAt (k % 0x100000000) = some x) (ns : Bool) :
    s.stagedMask ns k = if s.blockNS (keyBlock k) = ns then x.st else 0 := by
  simp only [State.stagedMask, hx, beq_iff_eq]

/-- A register without staged fields. -/
def unstaged (k : Nat) : Prop := ∀ x : RegRow, rowAt (k % 0x100000000) = some x → x.st = 0

theorem State.stagedMask_unstaged (h : unstaged k) (ns : Bool) : s.stagedMask ns k = 0 := by
  unfold State.stagedMask
  split
  · rw [h _ ‹_›, ite_self]
  · rfl

theorem unstaged_SYS_WLD_BLK : unstaged Reg.SYS_WLD_BLK := by
  intro x hx
  have h : ∀ y ∈ rowAt (Reg.SYS_WLD_BLK % 0x100000000), y.st = 0 := by decide +kernel
  exact h x hx

/-! ## Activating a staged set (R36) -/

/-- What activation does at one register. -/
def State.activateKey (s : State) (ns : Bool) (k : Nat) : State :=
  s.setActive k (mergeBits (s.stagedMask ns k) (s.activeReg k) (s.reg k))

theorem State.activate_each (s : State) (ns : Bool) :
    s.activate ns = s.each (s.listedKeys.filter (fun k => s.stagedMask ns k != 0)) (fun t k => t.activateKey ns k) := rfl

theorem State.each_activateKey_act (ns : Bool) (l : List Nat) (s : State) :
    s.each l (fun t k => t.activateKey ns k) = { s with act := (s.each l (fun t k => t.activateKey ns k)).act } := by
  induction l generalizing s with
  | nil => rfl
  | cons j l ih => exact ih (s.activateKey ns j)

/-- Activation changes the active copies alone. -/
theorem State.activate_eq (s : State) (ns : Bool) : s.activate ns = { s with act := (s.activate ns).act } :=
  State.each_activateKey_act ns _ s

theorem State.each_activateKey_activeReg (hc : s.canonical = true) (ns : Bool) (l : List Nat) (k : Nat) :
    (s.each l (fun t k => t.activateKey ns k)).activeReg k =
      if k ∈ l then mergeBits (s.stagedMask ns k) (s.activeReg k) (s.reg k) else s.activeReg k := by
  induction l generalizing s with
  | nil => rfl
  | cons j l ih =>
    have step := ih (s := s.activateKey ns j) (State.canonical_setActive hc _ _)
    refine step.trans ?_
    change (if k ∈ l then mergeBits (s.stagedMask ns k) _ (s.reg k) else _) = _
    by_cases hk : k = j
    · subst hk
      rw [State.activateKey, State.activeReg_setActive_same hc, mergeBits_mergeBits_left, ite_self, if_pos (List.mem_cons_self ..)]
    · simp only [State.activateKey, s.activeReg_setActive_other _ hk, List.mem_cons, hk, false_or]

theorem State.activate_activeReg (hc : s.canonical = true) (ns : Bool) (k : Nat) :
    (s.activate ns).activeReg k = mergeBits (s.stagedMask ns k) (s.activeReg k) (s.reg k) := by
  rw [State.activate_each, State.each_activateKey_activeReg hc]
  split
  · rfl
  · next h =>
    by_cases hk : k ∈ s.listedKeys
    · have hm : s.stagedMask ns k = 0 := by simpa [hk] using h
      rw [hm, mergeBits_none]
    · rw [State.reg_eq_activeReg_of_unlisted hk, mergeBits_same]

/-! ## Reloading the shadows (R39) -/

/-- What a reload does at one register. -/
def State.reloadKey (s : State) (ns : Bool) (k : Nat) : State :=
  s.setReg k (mergeBits (s.stagedMask ns k) (s.reg k) (s.activeReg k))

theorem State.reloadShadows_each (s : State) (ns : Bool) :
    s.reloadShadows ns = s.each (s.listedKeys.filter (fun k => s.stagedMask ns k != 0)) (fun t k => t.reloadKey ns k) := rfl

theorem State.each_reloadKey_regs (ns : Bool) (l : List Nat) (s : State) :
    s.each l (fun t k => t.reloadKey ns k) = { s with regs := (s.each l (fun t k => t.reloadKey ns k)).regs } := by
  induction l generalizing s with
  | nil => rfl
  | cons j l ih => exact ih (s.reloadKey ns j)

/-- A reload changes registers alone. -/
theorem State.reloadShadows_eq (s : State) (ns : Bool) : s.reloadShadows ns = { s with regs := (s.reloadShadows ns).regs } :=
  State.each_reloadKey_regs ns _ s

theorem State.each_reloadKey_reg (hc : s.canonical = true) (ns : Bool) (l : List Nat) (hl : Reg.SYS_WLD_BLK ∉ l) (k : Nat) :
    (s.each l (fun t k => t.reloadKey ns k)).reg k =
      if k ∈ l then mergeBits (s.stagedMask ns k) (s.reg k) (s.activeReg k) else s.reg k := by
  induction l generalizing s with
  | nil => rfl
  | cons j l ih =>
    rw [List.mem_cons, not_or] at hl
    obtain ⟨hj, hl⟩ := hl
    have step := ih (s := s.reloadKey ns j) (State.canonical_setReg hc _ _) hl
    refine step.trans ?_
    rw [State.stagedMask_congr (t := s.reloadKey ns j) (s.blockNS_setReg _ (Ne.symm hj))]
    change (if k ∈ l then mergeBits (s.stagedMask ns k) _ (s.activeReg k) else _) = _
    by_cases hk : k = j
    · subst hk
      rw [State.reloadKey, State.reg_setReg_same hc, mergeBits_mergeBits_left, ite_self, if_pos (List.mem_cons_self ..)]
    · simp only [State.reloadKey, s.reg_setReg_other _ hk, List.mem_cons, hk, false_or]

theorem State.reloadShadows_reg (hc : s.canonical = true) (ns : Bool) (k : Nat) :
    (s.reloadShadows ns).reg k = mergeBits (s.stagedMask ns k) (s.reg k) (s.activeReg k) := by
  have hw : Reg.SYS_WLD_BLK ∉ s.listedKeys.filter (fun k => s.stagedMask ns k != 0) := by
    simp [State.stagedMask_unstaged unstaged_SYS_WLD_BLK]
  rw [State.reloadShadows_each, State.each_reloadKey_reg hc ns _ hw]
  split
  · rfl
  · next h =>
    by_cases hk : k ∈ s.listedKeys
    · have hm : s.stagedMask ns k = 0 := by simpa [hk] using h
      rw [hm, mergeBits_none]
    · rw [State.reg_eq_activeReg_of_unlisted hk, mergeBits_same]

/-! ## A result is reported (R36 to R40) -/

theorem State.stageResult_eq (s : State) (ns : Bool) (n : Nat) :
    s.stageResult ns n = { s with regs := (s.stageResult ns n).regs, pulses := s.pulses ++ [2 + bit01 ns] } := rfl

theorem State.stageResult_reg (s : State) (ns : Bool) (n : Nat) (h1 : k ≠ Reg.SYS_STAGE_CTL (bit01 ns))
    (h2 : k ≠ Reg.SYS_STAGE_STAT (bit01 ns)) : (s.stageResult ns n).reg k = s.reg k :=
  (State.reg_setReg_other _ _ h2).trans ((State.reg_setReg_other _ _ h1).trans (State.reg_setReg_other _ _ h1))

theorem stageCtl_ne_stageStat (v w : Nat) : Reg.SYS_STAGE_CTL v ≠ Reg.SYS_STAGE_STAT w := by
  simp only [Reg.SYS_STAGE_CTL, Reg.SYS_STAGE_STAT, bankKey]
  omega

theorem State.stageResult_get (hc : s.canonical = true) (ns : Bool) (n : Nat) :
    (s.stageResult ns n).get (F.SYS_STAGE_CTL_ARM (bit01 ns)) = 0 ∧ (s.stageResult ns n).get (F.SYS_STAGE_CTL_GAP (bit01 ns)) = 0 ∧
      (s.stageResult ns n).get (F.SYS_STAGE_STAT_RESULT (bit01 ns)) = n % 8 := by
  have h1 := State.canonical_put hc (F.SYS_STAGE_CTL_ARM (bit01 ns)) 0
  have h2 := State.canonical_put h1 (F.SYS_STAGE_CTL_GAP (bit01 ns)) 0
  have stat (f : Fld) (hf : f.key = Reg.SYS_STAGE_CTL (bit01 ns)) (u : State) :
      (u.put (F.SYS_STAGE_STAT_RESULT (bit01 ns)) n).get f = u.get f :=
    State.get_put_key u n (hf.trans_ne (stageCtl_ne_stageStat _ _))
  refine ⟨(stat _ rfl _).trans ?_, (stat _ rfl _).trans ?_, State.get_put_same h2 _ n (show 4 + 3 ≤ 32 by omega)⟩
  · exact (State.get_put_apart h1 (f := F.SYS_STAGE_CTL_GAP _) (g := F.SYS_STAGE_CTL_ARM _) 0 rfl
      (show 1 + 1 ≤ 32 by omega) (.inl (show 0 + 1 ≤ 1 by omega))).trans (State.get_put_same hc _ 0 (show 0 + 1 ≤ 32 by omega))
  · exact State.get_put_same h1 _ 0 (show 1 + 1 ≤ 32 by omega)

end Sys2Proof.Machine
end

section
/-! PROOFS. What a change of settings does to the receive path (02 R67, R79): the parts it leaves, where each lane goes, and the
marks of each chain. -/

namespace Sys2Proof.Machine

variable {s t u : State} {K L : Nat → Prop}

/-! ## Changes of the receive path -/

/-- `t` differs from `s` in lanes, chains, the decoder pool and the registers of `K` at most. -/
structure ReceiveFrame (K : Nat → Prop) (s t : State) : Prop where
  parts : t = { s with regs := t.regs, lane := t.lane, chain := t.chain, ldpQueue := t.ldpQueue, ldp := t.ldp }
  reg : ∀ k, ¬K k → t.reg k = s.reg k

theorem ReceiveFrame.refl (K : Nat → Prop) (s : State) : ReceiveFrame K s s := ⟨rfl, fun _ _ => rfl⟩

theorem ReceiveFrame.trans (h : ReceiveFrame K s t) (g : ReceiveFrame K t u) : ReceiveFrame K s u :=
  ⟨g.parts.trans (by rw [h.parts]), fun k hk => (g.reg k hk).trans (h.reg k hk)⟩

theorem ReceiveFrame.mono (hKL : ∀ k, K k → L k) (h : ReceiveFrame K s t) : ReceiveFrame L s t :=
  ⟨h.parts, fun k hk => h.reg k (fun x => hk (hKL k x))⟩

theorem ReceiveFrame.each {α : Type} {f : State → α → State} (hf : ∀ u x, ReceiveFrame K u (f u x)) (l : List α) (s : State) :
    ReceiveFrame K s (s.each l f) := by
  induction l generalizing s with
  | nil => exact .refl K s
  | cons x l ih => exact (hf s x).trans (ih (f s x))

theorem ReceiveFrame.activeReg (h : ReceiveFrame K s t) (k : Nat) : t.activeReg k = s.activeReg k := by rw [h.parts]; rfl

theorem ReceiveFrame.get (h : ReceiveFrame K s t) {f : Fld} (hf : ¬K f.key) : t.get f = s.get f := State.get_congr (h.reg f.key hf)

theorem ReceiveFrame.put (s : State) (f : Fld) (n : Nat) (h : K f.key) : ReceiveFrame K s (s.put f n) :=
  ⟨rfl, fun _ hk => State.reg_setReg_other s _ (fun e => hk (e ▸ h))⟩

theorem ReceiveFrame.setLane (K : Nat → Prop) (s : State) (n : LaneIx) (l : Lane) : ReceiveFrame K s (s.setLane n l) :=
  ⟨rfl, fun _ _ => rfl⟩

theorem ReceiveFrame.setChain (K : Nat → Prop) (s : State) (c : Chain) (x : ChainSt) : ReceiveFrame K s (s.setChain c x) := by
  cases c <;> exact ⟨rfl, fun _ _ => rfl⟩

theorem ReceiveFrame.dropCodewords (K : Nat → Prop) (s : State) (n : LaneIx) : ReceiveFrame K s (s.dropCodewords n) :=
  ⟨rfl, fun _ _ => rfl⟩

/-! ## What a change of one lane leaves of the others -/

/-- Every lane is in the state it was in, and waits for its first floor as it did. -/
def LanesStand (s t : State) : Prop :=
  ∀ n, (t.laneAt n).state = (s.laneAt n).state ∧ (t.laneAt n).firstFloor = (s.laneAt n).firstFloor

theorem LanesStand.trans (h : LanesStand s t) (g : LanesStand t u) : LanesStand s u := fun n => by
  obtain ⟨hstate, hfloor⟩ := h n
  obtain ⟨gstate, gfloor⟩ := g n
  exact ⟨gstate.trans hstate, gfloor.trans hfloor⟩

theorem LanesStand.of_lane_eq (h : t.lane = s.lane) : LanesStand s t := fun n => by simp only [State.laneAt, h, and_self]

theorem LanesStand.each {α : Type} {f : State → α → State} (hf : ∀ u x, LanesStand u (f u x)) (l : List α) (s : State) :
    LanesStand s (s.each l f) := by
  induction l generalizing s with
  | nil => exact fun n => ⟨rfl, rfl⟩
  | cons x l ih => exact (hf s x).trans (ih (f s x))

theorem LanesStand.setLane {n : LaneIx} {l : Lane} (hs : l.state = (s.laneAt n).state)
    (hf : l.firstFloor = (s.laneAt n).firstFloor) : LanesStand s (s.setLane n l) := fun m => by
  by_cases h : m = n
  · subst h
    rw [State.laneAt_setLane_same]
    exact ⟨hs, hf⟩
  · rw [State.laneAt_setLane_other s l h]
    exact ⟨rfl, rfl⟩

/-! ## Reconciling the lanes (02 R67) -/

/-- The counter of aborted frames of a lane. -/
def abortKey (k : Nat) : Prop := ∃ n : LaneIx, k = Reg.LAN_ABORT n.val

theorem State.toSearch_eq (s : State) (n : LaneIx) : s.toSearch n = s.setLane n ((s.laneAt n).idle (s.listens n)) := rfl

/-- A lane stays, or becomes idle where the table takes it, and loses its frame on the way if it had one. -/
theorem State.reconcileLane_cases (s : State) (n : LaneIx) :
    (s.reconcileLane n = s ∧ s.laneGoes n (s.laneAt n).state = (s.laneAt n).state) ∨
      s.reconcileLane n = s.setLane n ((s.laneAt n).idle (s.laneGoes n (s.laneAt n).state)) ∨
      s.reconcileLane n = s.abortFrame n (s.laneGoes n (s.laneAt n).state) := by
  unfold State.reconcileLane
  dsimp only
  generalize hst : (s.laneAt n).state = st
  cases st with
  | off =>
    by_cases hr : s.chainReady (laneChain n) = true <;> by_cases he : s.laneEligible n = true <;>
      simp [State.laneGoes, State.listens, State.toSearch_eq, hr, he]
  | search =>
    by_cases hd : s.chainDark (laneChain n) = true <;> by_cases he : s.laneEligible n = true <;>
      simp [State.laneGoes, State.listens, State.toSearch_eq, hd, he]
  | header =>
    by_cases hd : s.chainDark (laneChain n) = true <;> by_cases he : s.chainEnabled (laneChain n) = true <;>
      simp [State.laneGoes, hd, he]
  | payload =>
    by_cases hd : s.chainDark (laneChain n) = true <;> by_cases he : s.chainEnabled (laneChain n) = true <;>
      simp [State.laneGoes, hd, he]
  | blank =>
    by_cases ho : (!s.flagA (F.LAN_CFG_EN n.val) || !s.chainEnabled (laneChain n)) = true
    · simp only [State.laneGoes, ho, if_true, true_or, or_true]
    · by_cases hd : s.chainDark (laneChain n) = true <;> simp [State.laneGoes, State.toSearch_eq, ho, hd]
  | drain => exact .inl ⟨rfl, rfl⟩
  | ready => exact .inl ⟨rfl, rfl⟩

theorem ReceiveFrame.abortFrame (s : State) (n : LaneIx) (st : LaneState) : ReceiveFrame abortKey s (s.abortFrame n st) :=
  (ReceiveFrame.dropCodewords _ s n).trans
    ((ReceiveFrame.put _ (F.LAN_ABORT_COUNT n.val) _ ⟨n, rfl⟩).trans (ReceiveFrame.setLane _ _ n _))

theorem ReceiveFrame.reconcileLane (s : State) (n : LaneIx) : ReceiveFrame abortKey s (s.reconcileLane n) := by
  rcases s.reconcileLane_cases n with ⟨h, -⟩ | h | h
  · rw [h]
    exact .refl _ s
  · rw [h]
    exact .setLane _ s n _
  · rw [h]
    exact .abortFrame s n _

theorem State.laneAt_reconcileLane_same (s : State) (n : LaneIx) :
    ((s.reconcileLane n).laneAt n).state = s.laneGoes n (s.laneAt n).state ∧
      ((s.reconcileLane n).laneAt n).firstFloor = (s.laneAt n).firstFloor := by
  rcases s.reconcileLane_cases n with ⟨h, hgoes⟩ | h | h
  · rw [h, hgoes]
    exact ⟨rfl, rfl⟩
  · rw [h, State.laneAt_setLane_same]
    exact ⟨rfl, rfl⟩
  · rw [h, State.abortFrame, State.laneAt_setLane_same]
    exact ⟨rfl, rfl⟩

theorem State.laneAt_reconcileLane_other (s : State) {n m : LaneIx} (hm : m ≠ n) : (s.reconcileLane n).laneAt m = s.laneAt m := by
  rcases s.reconcileLane_cases n with ⟨h, -⟩ | h | h
  · rw [h]
  · rw [h, State.laneAt_setLane_other _ _ hm]
  · rw [h, State.abortFrame, State.laneAt_setLane_other _ _ hm]
    rfl

/-- The registers the table of R67 reads: the marks of a chain and its bit in SYS_READY. -/
def laneTableKey (k : Nat) : Prop := k = Reg.SYS_READY ∨ ∃ c : Chain, k = Reg.RXC_STAT (chainNo c)

/-- The table of R67 reads the active settings, the chain marks and SYS_READY alone. -/
theorem ReceiveFrame.laneGoes (h : ReceiveFrame K s t) (hK : ∀ k, laneTableKey k → ¬K k) (n : LaneIx) (st : LaneState) :
    t.laneGoes n st = s.laneGoes n st := by
  have hcal (c : Chain) : t.get (F.RXC_STAT_CAL (chainNo c)) = s.get (F.RXC_STAT_CAL (chainNo c)) := h.get (hK _ (.inr ⟨c, rfl⟩))
  have hblank (c : Chain) : t.get (F.RXC_STAT_BLANK (chainNo c)) = s.get (F.RXC_STAT_BLANK (chainNo c)) :=
    h.get (hK _ (.inr ⟨c, rfl⟩))
  have hready (c : Chain) : t.chainReady c = s.chainReady c := by
    simp only [State.chainReady, State.ready, State.bit, h.reg _ (hK _ (.inl rfl))]
  have hdark (c : Chain) : t.chainDark c = s.chainDark c := by
    simp only [State.chainDark, State.chainBlanked, State.flag, hcal, hblank, hready]
  have hget (f : Fld) : t.getA f = s.getA f := by simp only [State.getA, h.activeReg]
  have hflag (f : Fld) : t.flagA f = s.flagA f := by simp only [State.flagA, hget]
  have hon (c : Chain) : t.chainEnabled c = s.chainEnabled c := by cases c <;> exact hflag _
  have hsearch (k : Nat) : t.searcherActive n.val k = s.searcherActive n.val k := by
    simp only [State.searcherActive, hflag, hget]
  have helig : t.laneEligible n = s.laneEligible n := by
    simp only [State.laneEligible, State.searchers, List.isEmpty_map, hflag, hon, funext hsearch]
  cases st <;> simp only [State.laneGoes, State.listens, hdark, hflag, hon, helig, hready]

theorem not_abortKey_of_laneTableKey {k : Nat} (h : laneTableKey k) : ¬abortKey k := by
  rintro ⟨n, rfl⟩
  rcases h with h | ⟨c, h⟩
  · simp only [Reg.LAN_ABORT, Reg.SYS_READY] at h
    omega
  · cases c <;> simp only [Reg.LAN_ABORT, Reg.RXC_STAT, chainNo] at h <;> omega

/-- Reconciling the lanes of a list takes each of them where the table takes it, and no other. -/
theorem State.laneAt_each_reconcileLane (s : State) (l : List LaneIx) (hl : l.Nodup) (n : LaneIx) :
    ((s.each l State.reconcileLane).laneAt n).state =
        (if n ∈ l then s.laneGoes n (s.laneAt n).state else (s.laneAt n).state) ∧
      ((s.each l State.reconcileLane).laneAt n).firstFloor = (s.laneAt n).firstFloor := by
  induction l generalizing s with
  | nil => exact ⟨rfl, rfl⟩
  | cons m l ih =>
    rw [List.nodup_cons] at hl
    obtain ⟨hml, hl⟩ := hl
    obtain ⟨hstate, hfloor⟩ := ih (s.reconcileLane m) hl
    rw [(ReceiveFrame.reconcileLane s m).laneGoes (fun _ => not_abortKey_of_laneTableKey)] at hstate
    obtain ⟨gstate, gfloor⟩ := s.laneAt_reconcileLane_same m
    by_cases h : n = m
    · subst h
      rw [if_neg hml] at hstate
      exact ⟨hstate.trans (by rw [gstate, if_pos (List.mem_cons_self ..)]), hfloor.trans gfloor⟩
    · rw [State.laneAt_reconcileLane_other s h] at hstate hfloor
      simp only [List.mem_cons, h, false_or]
      exact ⟨hstate, hfloor⟩

theorem State.laneAt_reconcile (s : State) (n : LaneIx) :
    (s.reconcile.laneAt n).state = s.laneGoes n (s.laneAt n).state ∧
      (s.reconcile.laneAt n).firstFloor = (s.laneAt n).firstFloor := by
  have h := s.laneAt_each_reconcileLane (List.finRange 96) (List.nodup_finRange 96) n
  rwa [if_pos (List.mem_finRange n)] at h

theorem ReceiveFrame.reconcile (s : State) : ReceiveFrame abortKey s s.reconcile := ReceiveFrame.each ReceiveFrame.reconcileLane _ s

/-! ## A chain begins to calibrate, or is switched off (02 R79) -/

/-- The registers that show whether chain `c` calibrates and is ready. -/
def chainKey (c : Chain) (k : Nat) : Prop := k = Reg.RXC_STAT (chainNo c) ∨ k = Reg.SYS_READY

/-- CAL of a chain and its bit in SYS_READY. -/
def State.chainMarks (s : State) (c : Chain) : Nat × Bool :=
  (s.get (F.RXC_STAT_CAL (chainNo c)), s.bit Reg.SYS_READY (24 + chainNo c))

/-- CAL becomes `n` and the chain is not ready. -/
def State.markChain (s : State) (c : Chain) (n : Nat) : State :=
  (s.put (F.RXC_STAT_CAL (chainNo c)) n).setBit Reg.SYS_READY (24 + chainNo c) false

/-- The bit of chain `c` in SYS_READY, as a field. -/
def readyFld (c : Chain) : Fld := ⟨Reg.SYS_READY, 24 + chainNo c, 1⟩

theorem State.markChain_eq (s : State) (c : Chain) (n : Nat) :
    s.markChain c n = (s.put (F.RXC_STAT_CAL (chainNo c)) n).put (readyFld c) 0 := rfl

theorem State.bit_ready (s : State) (c : Chain) : s.bit Reg.SYS_READY (24 + chainNo c) = s.flag (readyFld c) := rfl

theorem chainNo_lt (c : Chain) : chainNo c < 2 := by cases c <;> decide

theorem rxcStat_ne_ready (c : Chain) : Reg.RXC_STAT (chainNo c) ≠ Reg.SYS_READY := by cases c <;> decide

theorem ReceiveFrame.markChain (s : State) (c : Chain) (n : Nat) : ReceiveFrame (chainKey c) s (s.markChain c n) :=
  (ReceiveFrame.put s (F.RXC_STAT_CAL (chainNo c)) n (.inl rfl)).trans (ReceiveFrame.put _ (readyFld c) 0 (.inr rfl))

theorem State.chainMarks_markChain_same (hc : s.canonical = true) (c : Chain) (n : Nat) :
    (s.markChain c n).chainMarks c = (n % 2, false) := by
  have hlt := chainNo_lt c
  have h1 := State.canonical_put hc (F.RXC_STAT_CAL (chainNo c)) n
  have hcal := (State.get_put_key _ (f := readyFld c) (g := F.RXC_STAT_CAL (chainNo c)) 0 (rxcStat_ne_ready c)).trans
    (State.get_put_same hc (F.RXC_STAT_CAL (chainNo c)) n (show 5 + 1 ≤ 32 by omega))
  have hready := State.get_put_same h1 (readyFld c) 0 (show 24 + chainNo c + 1 ≤ 32 by omega)
  rw [State.chainMarks, State.markChain_eq, State.bit_ready, State.flag, hcal, hready]
  rfl

theorem State.chainMarks_markChain_other (hc : s.canonical = true) {c d : Chain} (h : d ≠ c) (n : Nat) :
    (s.markChain c n).chainMarks d = s.chainMarks d := by
  have hno : chainNo d < chainNo c ∨ chainNo c < chainNo d := by
    cases c <;> cases d <;> simp [chainNo] at h ⊢
  have hlt := chainNo_lt c
  have h1 := State.canonical_put hc (F.RXC_STAT_CAL (chainNo c)) n
  have hkey : Reg.RXC_STAT (chainNo d) ≠ Reg.RXC_STAT (chainNo c) := by
    simp only [Reg.RXC_STAT]
    omega
  have hcal := (State.get_put_key _ (f := readyFld c) (g := F.RXC_STAT_CAL (chainNo d)) 0 (rxcStat_ne_ready d)).trans
    (State.get_put_key s (f := F.RXC_STAT_CAL (chainNo c)) (g := F.RXC_STAT_CAL (chainNo d)) n hkey)
  have hready := (State.get_put_apart h1 (f := readyFld c) (g := readyFld d) 0 rfl (show 24 + chainNo c + 1 ≤ 32 by omega)
    (show 24 + chainNo d + 1 ≤ 24 + chainNo c ∨ 24 + chainNo c + 1 ≤ 24 + chainNo d by omega)).trans
    (State.get_put_key s (f := F.RXC_STAT_CAL (chainNo c)) (g := readyFld d) n (rxcStat_ne_ready c).symm)
  rw [State.chainMarks, State.chainMarks, State.markChain_eq, State.bit_ready, State.bit_ready, State.flag,
    State.flag, hcal, hready]

theorem ReceiveFrame.stopWindows (K : Nat → Prop) (s : State) (c : Chain) : ReceiveFrame K s (s.stopWindows c) :=
  (ReceiveFrame.setChain K s c _).trans (ReceiveFrame.each (fun u n => .setLane K u n _) _ _)

theorem LanesStand.stopWindows (s : State) (c : Chain) : LanesStand s (s.stopWindows c) :=
  (LanesStand.of_lane_eq (by cases c <;> rfl)).trans
    (LanesStand.each (fun u n => LanesStand.setLane (l := { u.laneAt n with endedWindow := false }) rfl rfl) _ _)

theorem ReceiveFrame.chainMarks (h : ReceiveFrame K s t) {c : Chain} (hK : ∀ k, chainKey c k → ¬K k) :
    t.chainMarks c = s.chainMarks c := by
  simp only [State.chainMarks, State.bit, h.reg _ (hK _ (.inr rfl)), h.get (f := F.RXC_STAT_CAL (chainNo c)) (hK _ (.inl rfl))]

/-! ## A commit settles (02 R67, R79, 03 R111) -/

/-- What a commit from `s` to `t` does to chain `c`, on the state `u`. -/
def State.settleChain (s t u : State) (c : Chain) : State :=
  if s.retunes t c then u.startCalibration c
  else if s.chainEnabled c && !t.chainEnabled c then u.markChain c 0
  else u

/-- What a commit from `s` to `t` does to the loading entries, on the state `u` (03 R111). -/
def State.settleLoading (s t u : State) : State :=
  if !s.flagA F.LDP_LCTL_EN && t.flagA F.LDP_LCTL_EN then
    u.each (List.finRange 96) (fun u n => u.setLane n { u.laneAt n with firstFloor := true })
  else u

theorem State.settle_eq (s t : State) :
    s.settle t = (s.settleLoading t (s.settleChain t (s.settleChain t t .a) .b)).reconcile := rfl

theorem ReceiveFrame.settleChain (s t u : State) (c : Chain) : ReceiveFrame (chainKey c) u (s.settleChain t u c) := by
  unfold State.settleChain
  split
  · exact (ReceiveFrame.markChain u c 1).trans (.stopWindows _ _ c)
  · split
    · exact .markChain u c 0
    · exact .refl _ u

theorem LanesStand.settleChain (s t u : State) (c : Chain) : LanesStand u (s.settleChain t u c) := by
  unfold State.settleChain
  split
  · exact (LanesStand.of_lane_eq (t := u.markChain c 1) rfl).trans (.stopWindows _ c)
  · split <;> exact .of_lane_eq rfl

theorem State.keeps_settleChain {b0 : State} (s t : State) (h : Keeps b0 u) (c : Chain) : Keeps b0 (s.settleChain t u c) :=
  Keeps.branch (State.keeps_startCalibration h c) (Keeps.branch (Keeps.setReg (Keeps.setReg h _ _) _ _) h)

/-- What becomes of the marks `m` of a chain at a commit from `s` to `t`. -/
def State.settledMarks (s t : State) (c : Chain) (m : Nat × Bool) : Nat × Bool :=
  if s.retunes t c then (1, false) else if s.chainEnabled c && !t.chainEnabled c then (0, false) else m

theorem State.chainMarks_settleChain_same (hu : u.canonical = true) (s t : State) (c : Chain) :
    (s.settleChain t u c).chainMarks c = s.settledMarks t c (u.chainMarks c) := by
  unfold State.settleChain State.settledMarks
  split
  · exact ((ReceiveFrame.stopWindows (fun _ => False) _ c).chainMarks (fun _ _ => id)).trans
      (State.chainMarks_markChain_same hu c 1)
  · split
    · exact State.chainMarks_markChain_same hu c 0
    · rfl

theorem State.chainMarks_settleChain_other (hu : u.canonical = true) (s t : State) {c d : Chain} (h : d ≠ c) :
    (s.settleChain t u c).chainMarks d = u.chainMarks d := by
  unfold State.settleChain
  split
  · exact ((ReceiveFrame.stopWindows (fun _ => False) _ c).chainMarks (fun _ _ => id)).trans
      (State.chainMarks_markChain_other hu h 1)
  · split
    · exact State.chainMarks_markChain_other hu h 0
    · rfl

theorem ReceiveFrame.settleLoading (K : Nat → Prop) (s t u : State) : ReceiveFrame K u (s.settleLoading t u) := by
  unfold State.settleLoading
  split
  · exact .each (fun v n => .setLane K v n _) _ u
  · exact .refl K u

/-- Every lane of the list waits for its first floor. -/
theorem State.laneAt_each_firstFloor (s : State) (l : List LaneIx) (n : LaneIx) :
    ((s.each l (fun u n => u.setLane n { u.laneAt n with firstFloor := true })).laneAt n).state = (s.laneAt n).state ∧
      ((s.each l (fun u n => u.setLane n { u.laneAt n with firstFloor := true })).laneAt n).firstFloor =
        ((s.laneAt n).firstFloor || decide (n ∈ l)) := by
  induction l generalizing s with
  | nil => exact ⟨rfl, (Bool.or_false _).symm⟩
  | cons m l ih =>
    obtain ⟨hstate, hfloor⟩ := ih (s.setLane m { s.laneAt m with firstFloor := true })
    by_cases h : n = m
    · subst h
      rw [State.laneAt_setLane_same] at hstate hfloor
      exact ⟨hstate, hfloor.trans (by simp)⟩
    · rw [State.laneAt_setLane_other s _ h] at hstate hfloor
      exact ⟨hstate, hfloor.trans (by simp [h])⟩

theorem State.laneAt_settleLoading (s t u : State) (n : LaneIx) :
    ((s.settleLoading t u).laneAt n).state = (u.laneAt n).state ∧
      ((s.settleLoading t u).laneAt n).firstFloor =
        ((u.laneAt n).firstFloor || (!s.flagA F.LDP_LCTL_EN && t.flagA F.LDP_LCTL_EN)) := by
  unfold State.settleLoading
  split
  · next h =>
    obtain ⟨hstate, hfloor⟩ := u.laneAt_each_firstFloor (List.finRange 96) n
    exact ⟨hstate, hfloor.trans (by rw [h, decide_eq_true (List.mem_finRange n)])⟩
  · next h => exact ⟨rfl, by rw [Bool.eq_false_of_not_eq_true h, Bool.or_false]⟩

/-- The registers a commit's settling may change: the marks of the chains, SYS_READY and the counters of aborted frames. -/
def settleKey (k : Nat) : Prop := (∃ c, chainKey c k) ∨ abortKey k

theorem ReceiveFrame.settle (s t : State) : ReceiveFrame settleKey t (s.settle t) := by
  rw [State.settle_eq]
  have hchain (u : State) (c : Chain) : ReceiveFrame settleKey u (s.settleChain t u c) :=
    (ReceiveFrame.settleChain s t u c).mono (fun _ h => .inl ⟨c, h⟩)
  exact (((hchain t .a).trans (hchain _ .b)).trans (.settleLoading _ s t _)).trans ((ReceiveFrame.reconcile _).mono (fun _ => .inr))

theorem not_abortKey_of_chainKey {c : Chain} {k : Nat} (h : chainKey c k) : ¬abortKey k :=
  not_abortKey_of_laneTableKey (h.elim (fun e => .inr ⟨c, e⟩) .inl)

/-- A chain whose tuning a commit changes calibrates; one it switches off is not ready; the marks of any other stand. -/
theorem State.chainMarks_settle (hc : t.canonical = true) (s : State) (c : Chain) :
    (s.settle t).chainMarks c = s.settledMarks t c (t.chainMarks c) := by
  have ha := (State.keeps_settleChain s t (Keeps.refl t) .a).canon hc
  rw [State.settle_eq, (ReceiveFrame.reconcile _).chainMarks (fun _ => not_abortKey_of_chainKey),
    (ReceiveFrame.settleLoading (fun _ => False) s t _).chainMarks (fun _ _ => id)]
  cases c with
  | a => rw [State.chainMarks_settleChain_other ha s t (by decide), State.chainMarks_settleChain_same hc]
  | b => rw [State.chainMarks_settleChain_same ha, State.chainMarks_settleChain_other hc s t (by decide)]

/-- After a commit every lane stands where the table of R67 takes it, and loading that became enabled waits for a first floor. -/
theorem State.laneAt_settle (s t : State) (n : LaneIx) :
    ((s.settle t).laneAt n).state = (s.settle t).laneGoes n (t.laneAt n).state ∧
      ((s.settle t).laneAt n).firstFloor = ((t.laneAt n).firstFloor || (!s.flagA F.LDP_LCTL_EN && t.flagA F.LDP_LCTL_EN)) := by
  rw [State.settle_eq]
  obtain ⟨hstate, hfloor⟩ := (LanesStand.settleChain s t t .a).trans (LanesStand.settleChain s t _ .b) n
  obtain ⟨gstate, gfloor⟩ := s.laneAt_settleLoading t (s.settleChain t (s.settleChain t t .a) .b) n
  rw [(ReceiveFrame.reconcile _).laneGoes (fun _ => not_abortKey_of_laneTableKey), ← hstate, ← hfloor, ← gstate, ← gfloor]
  exact State.laneAt_reconcile _ n

end Sys2Proof.Machine
end

section
/-! PROOFS. The staging commands (01 R34 to R40) and the commit while slots are stopped (R36). -/

namespace Sys2Proof.Machine

variable {s t : State} {r a k : Nat} {v : Word} {x : RegRow}

/-! ## Writes of SYS_STAGE_CTL -/

theorem State.keyOf_stageCtl (hx : x.bank = .world) :
    s.keyOf x r (Reg.SYS_STAGE_CTL 0) = Reg.SYS_STAGE_CTL (bit01 (s.reqNS r)) := by
  rw [State.keyOf_world hx]
  simp [Reg.SYS_STAGE_CTL, bankKey, State.world]

/-- A write of SYS_STAGE_CTL that goes through commands the requester's world. -/
theorem State.command32_stageCtl (h : s.admits r (Reg.SYS_STAGE_CTL 0) true = true) (v : Word) :
    s.command32 r (Reg.SYS_STAGE_CTL 0) v =
      ((s.served r (Reg.SYS_STAGE_CTL (bit01 (s.reqNS r)))).stageCommand (s.reqNS r) (bitAt v.toNat 0) (bitAt v.toNat 1)
        (bitAt v.toNat 2)).answered 0 := by
  have hrow : rowAt (Reg.SYS_STAGE_CTL 0) = some ⟨Reg.SYS_STAGE_CTL 0, 4, 1, 4, 1, .world, 0, 0, 0, 3, 0, 4, 0, 0, 0⟩ := by
    decide +kernel
  have hblock : keyBlock (Reg.SYS_STAGE_CTL 0) = 0 := by decide
  rw [State.command32_row h (by decide) (by decide) hrow,
    State.writeRow_direct (badTuning_of_block (by rw [hblock]; decide) v) rfl (by decide +kernel), State.keyOf_stageCtl rfl]
  have hwrote (p q : State) (key : Nat) : p.wrote q r (Reg.SYS_STAGE_CTL 0) key v =
      (p.stageCommand (p.reqNS r) (bitAt v.toNat 0) (bitAt v.toNat 1) (bitAt v.toNat 2), none) := by
    simp only [State.wrote, hblock, State.wroteSys, if_true]
  rw [hwrote, State.answerWrite_none, State.served_eq]
  rfl

theorem exec_arm (r : Req) (s : State) : exec (.arm r) s = .next (s.command32 r.val (Reg.SYS_STAGE_CTL 0) 1) := rfl

theorem exec_gap (r : Req) (s : State) : exec (.gap r) s = .next (s.command32 r.val (Reg.SYS_STAGE_CTL 0) 2) := rfl

theorem exec_abandon (r : Req) (s : State) : exec (.abandon r) s = .next (s.command32 r.val (Reg.SYS_STAGE_CTL 0) 4) := rfl

theorem State.command32_arm (h : s.admits r (Reg.SYS_STAGE_CTL 0) true = true) :
    s.command32 r (Reg.SYS_STAGE_CTL 0) 1 =
      ((s.served r (Reg.SYS_STAGE_CTL (bit01 (s.reqNS r)))).put (F.SYS_STAGE_CTL_ARM (bit01 (s.reqNS r))) 1).answered 0 :=
  State.command32_stageCtl h 1

theorem State.command32_gap (h : s.admits r (Reg.SYS_STAGE_CTL 0) true = true) :
    s.command32 r (Reg.SYS_STAGE_CTL 0) 2 =
      (if s.running then ((s.served r (Reg.SYS_STAGE_CTL (bit01 (s.reqNS r)))).put (F.SYS_STAGE_CTL_ARM (bit01 (s.reqNS r))) 1).put
          (F.SYS_STAGE_CTL_GAP (bit01 (s.reqNS r))) 1
        else (s.served r (Reg.SYS_STAGE_CTL (bit01 (s.reqNS r)))).put (F.SYS_STAGE_CTL_ARM (bit01 (s.reqNS r))) 1).answered 0 := by
  have hrun (j : Nat) : (s.served r j).running = s.running := State.served_flag r j _
  rw [State.command32_stageCtl h, ← hrun (Reg.SYS_STAGE_CTL (bit01 (s.reqNS r)))]
  rfl

theorem State.command32_abandon (h : s.admits r (Reg.SYS_STAGE_CTL 0) true = true) :
    s.command32 r (Reg.SYS_STAGE_CTL 0) 4 =
      (((s.served r (Reg.SYS_STAGE_CTL (bit01 (s.reqNS r)))).reloadShadows (s.reqNS r)).stageResult (s.reqNS r) 3).answered 0 :=
  State.command32_stageCtl h 4

@[simp] theorem State.answered_reg (s : State) (v : Word) (k : Nat) : (s.answered v).reg k = s.reg k := rfl
@[simp] theorem State.answered_get (s : State) (v : Word) (f : Fld) : (s.answered v).get f = s.get f := rfl
@[simp] theorem State.answered_act (s : State) (v : Word) : (s.answered v).act = s.act := rfl
@[simp] theorem State.answered_pulses (s : State) (v : Word) : (s.answered v).pulses = s.pulses := rfl

/-- What ABANDON leaves: the active copies stand, and beside the world's own registers only its staged fields took their active
values. -/
theorem State.abandon_effects (hc : s.canonical = true) (r j : Nat) (ns : Bool) :
    let t := (((s.served r j).reloadShadows ns).stageResult ns 3).answered 0
    t.act = s.act ∧ t.get (F.SYS_STAGE_CTL_ARM (bit01 ns)) = 0 ∧ t.get (F.SYS_STAGE_CTL_GAP (bit01 ns)) = 0 ∧
      t.get (F.SYS_STAGE_STAT_RESULT (bit01 ns)) = 3 ∧ t.pulses = s.pulses ++ [2 + bit01 ns] ∧
      ∀ (a : Nat) (x : RegRow), rowAt (a % 0x100000000) = some x → a ≠ Reg.SYS_STAGE_CTL (bit01 ns) →
        a ≠ Reg.SYS_STAGE_STAT (bit01 ns) →
        t.reg a = if s.blockNS (keyBlock a) = ns then mergeBits x.st (s.reg a) (s.activeReg a) else s.reg a := by
  have hs : (s.served r j).canonical = true := (State.keeps_served (Keeps.refl s) r j).canon hc
  have hact : ((s.served r j).reloadShadows ns).act = s.act := by rw [State.reloadShadows_eq, State.served_eq]; rfl
  have hpulses : ((s.served r j).reloadShadows ns).pulses = s.pulses := by rw [State.reloadShadows_eq, State.served_eq]; rfl
  obtain ⟨harm, hgap, hresult⟩ := State.stageResult_get ((State.keeps_reloadShadows (Keeps.refl _) ns).canon hs) ns 3
  dsimp only
  simp only [State.answered_reg, State.answered_get, State.answered_act, State.answered_pulses]
  have hmore : (((s.served r j).reloadShadows ns).stageResult ns 3).pulses = s.pulses ++ [2 + bit01 ns] := by
    rw [State.stageResult_eq, hpulses]
  have hstay : (((s.served r j).reloadShadows ns).stageResult ns 3).act = s.act := by rw [State.stageResult_eq, hact]
  refine ⟨hstay, harm, hgap, hresult, hmore, fun a x hx h1 h2 => ?_⟩
  have hblock (i : Nat) : (s.served r j).blockNS i = s.blockNS i := by rw [State.served_eq]; rfl
  have hactive : (s.served r j).activeReg a = s.activeReg a := by rw [State.served_eq]; rfl
  rw [State.stageResult_reg _ ns 3 h1 h2, State.reloadShadows_reg hs, State.stagedMask_congr hblock, State.stagedMask_row hx,
    State.served_reg, hactive]
  split
  · rfl
  · exact mergeBits_none _ _

/-! ## Staged writes -/

/-- A write of a staged row that would change an armed shadow is refused whole (R38). -/
theorem State.writeRow_refused (hb : badTuning a v = false) (hA : s.armedFor a = true)
    (hch : x.changesShadow (s.reg (s.keyOf x r a)) (x.written (s.locked a) (s.reg (s.keyOf x r a)) v) = true) :
    s.writeRow x r a v = (s.served r (s.keyOf x r a)).refuseLate a := by
  have hA' (j i : Nat) : (s.served j i).armedFor a = true := by rw [State.served_eq]; exact hA
  simp [State.writeRow, hb, hA', hch]

/-- A write that leaves every staged field as it is takes effect at once, whether its world is armed or not. -/
theorem State.writeRow_sameShadow (hb : badTuning a v = false) (hp : posted a = false)
    (hch : x.changesShadow (s.reg (s.keyOf x r a)) (x.written (s.locked a) (s.reg (s.keyOf x r a)) v) = false) :
    s.writeRow x r a v = (s.served r (s.keyOf x r a)).wrote
      ((s.served r (s.keyOf x r a)).setReg (s.keyOf x r a) (x.written (s.locked a) (s.reg (s.keyOf x r a)) v)) r a
      (s.keyOf x r a) v := by
  simp [State.writeRow, hb, hch, hp]

theorem exec_stagedWrite (r : Req) (a v : Word) (s : State) :
    exec (.stagedWrite r a v) s = .next (s.command32 r.val a.toNat v) := rfl

/-- A staged write to the decoder pool that is not held back sets the shadow. -/
theorem State.command32_pool (h : s.admits r a true = true) (hx : rowAt a = some x) (hblock : keyBlock a = 10) (ha : a % 4 = 0)
    (hw : 0x20000000 ≤ a ∧ a < 0x20180000) (hb : x.bank = .single)
    (hfree : s.armedFor a = false ∨ x.changesShadow (s.reg a) (x.written (s.locked a) (s.reg a) v) = false) :
    s.command32 r a v = ((s.served r a).setReg a (x.written (s.locked a) (s.reg a) v)).answered 0 := by
  have hk : s.keyOf x r a = a := State.keyOf_single hb r a
  have htune : badTuning a v = false := badTuning_of_block (by omega) v
  have hpost : posted a = false := posted_fieldsOnly (.inl hblock)
  rw [State.command32_row h ha hw hx]
  rcases hfree with harm | hsame
  · rw [State.writeRow_unarmed htune harm hpost, State.wrote_fieldsOnly (.inl hblock), State.answerWrite_none, hk]
  · rw [State.writeRow_sameShadow htune hpost (by rwa [hk]), State.wrote_fieldsOnly (.inl hblock), State.answerWrite_none, hk]

/-- One that is held back sets LATE and fails. -/
theorem State.command32_pool_late (h : s.admits r a true = true) (hx : rowAt a = some x) (hblock : keyBlock a = 10) (ha : a % 4 = 0)
    (hw : 0x20000000 ≤ a ∧ a < 0x20180000) (hb : x.bank = .single) (harm : s.armedFor a = true)
    (hch : x.changesShadow (s.reg a) (x.written (s.locked a) (s.reg a) v) = true) :
    s.command32 r a v =
      { ((s.served r a).put (F.SYS_STAGE_STAT_LATE (bit01 (s.blockNS 10))) 1).portError r a with data := 0, err := true } := by
  have hk : s.keyOf x r a = a := State.keyOf_single hb r a
  have hns : (s.served r a).blockNS 10 = s.blockNS 10 := by rw [State.served_eq]; rfl
  rw [State.command32_row h ha hw hx, State.writeRow_refused (badTuning_of_block (by omega) v) harm (by rwa [hk]), hk,
    State.refuseLate, hblock, hns, State.answerWrite_error]
  rfl

/-! ## One world commits -/

/-- The staged set of world `ns` committed, when `c` says so. -/
def State.committed (s : State) (ns c : Bool) : State := if c then (s.activate ns).stageResult ns 1 else s

theorem State.committed_eq (s : State) (ns c : Bool) :
    s.committed ns c = { s with regs := (s.committed ns c).regs, act := (s.committed ns c).act,
                                pulses := s.pulses ++ if c then [2 + bit01 ns] else [] } := by
  cases c
  · simp [State.committed]
  · simp only [State.committed, if_true]
    rw [State.stageResult_eq, State.activate_eq]

theorem State.committed_canonical (hc : s.canonical = true) (ns c : Bool) : (s.committed ns c).canonical = true := by
  cases c
  · exact hc
  · exact (State.keeps_stageResult (State.keeps_activate (Keeps.refl s) ns) ns 1).canon hc

theorem State.committed_reg (s : State) (ns c : Bool) (h1 : k ≠ Reg.SYS_STAGE_CTL (bit01 ns))
    (h2 : k ≠ Reg.SYS_STAGE_STAT (bit01 ns)) : (s.committed ns c).reg k = s.reg k := by
  cases c
  · rfl
  · rw [State.committed, if_pos rfl, State.stageResult_reg _ ns 1 h1 h2, State.activate_eq]
    rfl

theorem State.committed_activeReg (hc : s.canonical = true) (ns c : Bool) (k : Nat) :
    (s.committed ns c).activeReg k = mergeBits (if c then s.stagedMask ns k else 0) (s.activeReg k) (s.reg k) := by
  cases c
  · exact (mergeBits_none _ _).symm
  · exact State.activate_activeReg hc ns k

theorem State.committed_get (hc : s.canonical = true) (ns : Bool) :
    (s.committed ns true).get (F.SYS_STAGE_CTL_ARM (bit01 ns)) = 0 ∧
      (s.committed ns true).get (F.SYS_STAGE_CTL_GAP (bit01 ns)) = 0 ∧
      (s.committed ns true).get (F.SYS_STAGE_STAT_RESULT (bit01 ns)) = 1 :=
  State.stageResult_get ((State.keeps_activate (Keeps.refl s) ns).canon hc) ns 1

theorem State.needsGap_stopped (h : s.running = false) (t : State) : s.needsGap t = false := by simp [State.needsGap, h]

theorem State.commitWorld_stopped (h : t.running = false) (s : State) (ns : Bool) :
    t.commitWorld s ns = (s.committed ns (s.flag (F.SYS_STAGE_CTL_ARM (bit01 ns))), s.flag (F.SYS_STAGE_CTL_ARM (bit01 ns))) := by
  unfold State.commitWorld State.committed
  by_cases hf : s.flag (F.SYS_STAGE_CTL_ARM (bit01 ns)) = true <;> simp [hf, State.needsGap_stopped h]

/-! ## Both worlds commit -/

/-- The registers of staging of a world. -/
def stageKey (w k : Nat) : Prop := k = Reg.SYS_STAGE_CTL w ∨ k = Reg.SYS_STAGE_STAT w

theorem not_stageKey_of_stageKey {v w : Nat} (h : stageKey v k) (hne : v ≠ w) : ¬stageKey w k := by
  simp only [stageKey, Reg.SYS_STAGE_CTL, Reg.SYS_STAGE_STAT, bankKey] at h ⊢
  omega

theorem State.committed_reg_of_not_stageKey (s : State) (ns c : Bool) (h : ¬stageKey (bit01 ns) k) :
    (s.committed ns c).reg k = s.reg k :=
  s.committed_reg ns c (fun e => h (.inl e)) (fun e => h (.inr e))

/-- The sets of both worlds committed, each as its flag says. -/
def State.committedBoth (s : State) (cs cn : Bool) : State := (s.committed false cs).committed true cn

theorem State.committedBoth_eq (s : State) (cs cn : Bool) :
    s.committedBoth cs cn = { s with regs := (s.committedBoth cs cn).regs, act := (s.committedBoth cs cn).act,
                                     pulses := s.pulses ++ (if cs then [2] else []) ++ if cn then [3] else [] } := by
  unfold State.committedBoth
  rw [State.committed_eq, State.committed_eq s]
  rfl

theorem State.committedBoth_canonical (hc : s.canonical = true) (cs cn : Bool) : (s.committedBoth cs cn).canonical = true :=
  State.committed_canonical (State.committed_canonical hc false cs) true cn

theorem State.committedBoth_reg (s : State) (cs cn : Bool) (h : ∀ v < 2, ¬stageKey v k) : (s.committedBoth cs cn).reg k = s.reg k :=
  (State.committed_reg_of_not_stageKey _ true cn (h 1 (by decide))).trans
    (State.committed_reg_of_not_stageKey s false cs (h 0 (by decide)))

/-- STOPPED_COMMIT of the worlds `sec` and `ns` name commits those that are armed. -/
theorem State.commitWorlds_stopped (h : s.running = false) (sec nonsec : Bool) :
    let cs := sec && s.flag (F.SYS_STAGE_CTL_ARM 0)
    let cn := nonsec && s.flag (F.SYS_STAGE_CTL_ARM 1)
    s.commitWorlds sec nonsec = if cs || cn then (s.settle (s.committedBoth cs cn)).nextEpoch else s := by
  have hfirst : (if sec then s.commitWorld s false else (s, false)) =
      (s.committed false (sec && s.flag (F.SYS_STAGE_CTL_ARM 0)), sec && s.flag (F.SYS_STAGE_CTL_ARM 0)) := by
    cases sec
    · rfl
    · exact State.commitWorld_stopped h s false
  have hflag (c : Bool) : (s.committed false c).flag (F.SYS_STAGE_CTL_ARM 1) = s.flag (F.SYS_STAGE_CTL_ARM 1) := by
    have hreg := State.committed_reg_of_not_stageKey s false c
      (not_stageKey_of_stageKey (.inl rfl : stageKey 1 (Reg.SYS_STAGE_CTL 1)) (by decide))
    rw [State.flag, State.flag, State.get_congr (f := F.SYS_STAGE_CTL_ARM 1) hreg]
  have hsecond (u : State) : (if nonsec then s.commitWorld u true else (u, false)) =
      (u.committed true (nonsec && u.flag (F.SYS_STAGE_CTL_ARM 1)), nonsec && u.flag (F.SYS_STAGE_CTL_ARM 1)) := by
    cases nonsec
    · rfl
    · exact State.commitWorld_stopped h u true
  dsimp only
  rw [State.commitWorlds, hfirst]
  dsimp only
  rw [hsecond, hflag]
  cases hcs : (sec && s.flag (F.SYS_STAGE_CTL_ARM 0)) <;> cases hcn : (nonsec && s.flag (F.SYS_STAGE_CTL_ARM 1)) <;> rfl

end Sys2Proof.Machine
end

section
/-! PROOFS. What a commit with slots stopped leaves behind (01 R36, 02 R67, R79, 03 R111), and the settling of the staging
commands. -/

namespace Sys2Proof.Machine

variable {s t : State} {a k : Nat} {x : RegRow}

/-! ## The registers a commit may change have no staged field -/

theorem unstaged_of_decide (h : (rowAt (k % 0x100000000)).all (fun x => x.st == 0) = true) : unstaged k := by
  intro x hx
  rw [hx] at h
  simpa using h

/-- The registers a commit may change beside the active copies: staging of both worlds, the chain marks, SYS_READY, the counters of
aborted frames and the epoch. -/
def commitKey (k : Nat) : Prop := (∃ w < 2, stageKey w k) ∨ settleKey k ∨ k = Reg.SYS_EPOCH

theorem unstaged_of_stageKey {w : Nat} (hw : w < 2) (h : stageKey w k) : unstaged k := by
  have hall : ∀ w : Fin 2, (rowAt (Reg.SYS_STAGE_CTL w.val % 0x100000000)).all (fun x => x.st == 0) = true ∧
      (rowAt (Reg.SYS_STAGE_STAT w.val % 0x100000000)).all (fun x => x.st == 0) = true := by decide +kernel
  obtain ⟨hctl, hstat⟩ := hall ⟨w, hw⟩
  rcases h with rfl | rfl
  · exact unstaged_of_decide hctl
  · exact unstaged_of_decide hstat

theorem unstaged_of_commitKey (h : commitKey k) : unstaged k := by
  have hready : (rowAt (Reg.SYS_READY % 0x100000000)).all (fun x => x.st == 0) = true := by decide +kernel
  have hepoch : (rowAt (Reg.SYS_EPOCH % 0x100000000)).all (fun x => x.st == 0) = true := by decide +kernel
  have hstat : ∀ c : Fin 2, (rowAt (Reg.RXC_STAT c.val % 0x100000000)).all (fun x => x.st == 0) = true := by decide +kernel
  have habort : ∀ n : LaneIx, (rowAt (Reg.LAN_ABORT n.val % 0x100000000)).all (fun x => x.st == 0) = true := by decide +kernel
  rcases h with ⟨w, hw, h⟩ | (⟨c, rfl | rfl⟩ | ⟨n, rfl⟩) | rfl
  · exact unstaged_of_stageKey hw h
  · exact unstaged_of_decide (hstat ⟨chainNo c, chainNo_lt c⟩)
  · exact unstaged_of_decide hready
  · exact unstaged_of_decide (habort n)
  · exact unstaged_of_decide hepoch

theorem State.staged_bits_eq (hx : rowAt (a % 0x100000000) = some x) (h : ¬unstaged a → t.reg a = s.reg a) :
    t.reg a &&& BitVec.ofNat 32 x.st = s.reg a &&& BitVec.ofNat 32 x.st := by
  by_cases hst : x.st = 0
  · simp [hst]
  · rw [h (fun hu => hst (hu x hx))]

/-! ## Both sets become active -/

theorem State.committed_blockNS (s : State) (ns c : Bool) (i : Nat) : (s.committed ns c).blockNS i = s.blockNS i := by
  have hkey : ¬stageKey (bit01 ns) Reg.SYS_WLD_BLK := by
    cases ns <;> simp [stageKey, Reg.SYS_WLD_BLK, Reg.SYS_STAGE_CTL, Reg.SYS_STAGE_STAT, bankKey, bit01]
  have hforce : (s.committed ns c).inForce = s.inForce := by rw [State.committed_eq]
  simp only [State.blockNS, State.worldWord, hforce, s.committed_reg_of_not_stageKey ns c hkey]

/-- Each staged register of a committing world has its shadow as its active value; every other active value stands. -/
theorem State.committedBoth_activeReg (hc : s.canonical = true) (cs cn : Bool) (hx : rowAt (a % 0x100000000) = some x) :
    (s.committedBoth cs cn).activeReg a =
      if (if s.blockNS (keyBlock a) then cn else cs) = true then mergeBits x.st (s.activeReg a) (s.reg a) else s.activeReg a := by
  rw [State.committedBoth, State.committed_activeReg (State.committed_canonical hc false cs), State.committed_activeReg hc,
    State.stagedMask_congr (s.committed_blockNS false cs), State.stagedMask_row hx, State.stagedMask_row hx]
  by_cases hst : x.st = 0
  · simp [hst, mergeBits_none]
  · have hkey : ¬stageKey (bit01 false) a := fun h => hst (unstaged_of_stageKey (by decide) h x hx)
    rw [s.committed_reg_of_not_stageKey false cs hkey]
    cases s.blockNS (keyBlock a) <;> cases cs <;> cases cn <;> simp [mergeBits_none]

/-- The staging registers of each world after the commit. -/
theorem State.committedBoth_world (hc : s.canonical = true) (cs cn : Bool) (v : Fin 2) :
    if (if v = 0 then cs else cn) = true then
      (s.committedBoth cs cn).get (F.SYS_STAGE_CTL_ARM v.val) = 0 ∧ (s.committedBoth cs cn).get (F.SYS_STAGE_CTL_GAP v.val) = 0 ∧
        (s.committedBoth cs cn).get (F.SYS_STAGE_STAT_RESULT v.val) = 1
    else ∀ k, stageKey v.val k → (s.committedBoth cs cn).reg k = s.reg k := by
  have hother (k : Nat) (h : stageKey 0 k) : (s.committedBoth cs cn).reg k = (s.committed false cs).reg k :=
    State.committed_reg_of_not_stageKey _ true cn (not_stageKey_of_stageKey h (by decide))
  have hsecond (k : Nat) (h : stageKey 1 k) : (s.committed false cs).reg k = s.reg k :=
    State.committed_reg_of_not_stageKey s false cs (not_stageKey_of_stageKey h (by decide))
  match v with
  | 0 =>
    cases cs with
    | true =>
      obtain ⟨harm, hgap, hresult⟩ := State.committed_get hc false
      exact ⟨(State.get_congr (f := F.SYS_STAGE_CTL_ARM 0) (hother _ (.inl rfl))).trans harm,
        (State.get_congr (f := F.SYS_STAGE_CTL_GAP 0) (hother _ (.inl rfl))).trans hgap,
        (State.get_congr (f := F.SYS_STAGE_STAT_RESULT 0) (hother _ (.inr rfl))).trans hresult⟩
    | false => exact fun k h => hother k h
  | 1 =>
    cases cn with
    | true => exact State.committed_get (State.committed_canonical hc false cs) true
    | false => exact fun k h => hsecond k h

/-! ## The whole commit -/

/-- The state after a commit of the worlds whose flags are set. -/
def State.commitOutcome (s : State) (cs cn : Bool) : State := (s.settle (s.committedBoth cs cn)).nextEpoch

theorem exec_stoppedCommit (sec nonsec : Bool) (s : State) :
    exec (.stoppedCommit sec nonsec) s = .next (if s.running then s else s.commitWorlds sec nonsec) := rfl

theorem ReceiveFrame.nextEpoch (s : State) : ReceiveFrame (fun k => k = Reg.SYS_EPOCH) s s.nextEpoch :=
  ReceiveFrame.put s F.SYS_EPOCH_EPOCH _ rfl

/-- What follows the two activations changes the receive path, the marks of the chains and the epoch. -/
theorem ReceiveFrame.commitOutcome (s : State) (cs cn : Bool) :
    ReceiveFrame (fun k => settleKey k ∨ k = Reg.SYS_EPOCH) (s.committedBoth cs cn) (s.commitOutcome cs cn) :=
  ((ReceiveFrame.settle s _).mono (fun _ => .inl)).trans ((ReceiveFrame.nextEpoch _).mono (fun _ => .inr))

theorem not_stageKey_of_settleKey (h : settleKey k ∨ k = Reg.SYS_EPOCH) (v : Nat) : ¬stageKey v k := by
  simp only [stageKey, Reg.SYS_STAGE_CTL, Reg.SYS_STAGE_STAT, bankKey]
  rcases h with (⟨c, rfl | rfl⟩ | ⟨n, rfl⟩) | rfl
  · have hlt := chainNo_lt c
    simp only [Reg.RXC_STAT]
    omega
  · simp only [Reg.SYS_READY]
    omega
  · have hlt := n.isLt
    simp only [Reg.LAN_ABORT]
    omega
  · simp only [Reg.SYS_EPOCH]
    omega

theorem State.commitOutcome_reg (s : State) (cs cn : Bool) (h : ¬commitKey k) : (s.commitOutcome cs cn).reg k = s.reg k :=
  ((ReceiveFrame.commitOutcome s cs cn).reg k (fun e => h (.inr e))).trans
    (s.committedBoth_reg cs cn (fun v hv e => h (.inl ⟨v, hv, e⟩)))

theorem State.commitOutcome_world (hc : s.canonical = true) (cs cn : Bool) (v : Fin 2) :
    if (if v = 0 then cs else cn) = true then
      (s.commitOutcome cs cn).get (F.SYS_STAGE_CTL_ARM v.val) = 0 ∧ (s.commitOutcome cs cn).get (F.SYS_STAGE_CTL_GAP v.val) = 0 ∧
        (s.commitOutcome cs cn).get (F.SYS_STAGE_STAT_RESULT v.val) = 1
    else (s.commitOutcome cs cn).reg (Reg.SYS_STAGE_CTL v.val) = s.reg (Reg.SYS_STAGE_CTL v.val) ∧
      (s.commitOutcome cs cn).reg (Reg.SYS_STAGE_STAT v.val) = s.reg (Reg.SYS_STAGE_STAT v.val) := by
  have hstand (k : Nat) (h : stageKey v.val k) : (s.commitOutcome cs cn).reg k = (s.committedBoth cs cn).reg k :=
    (ReceiveFrame.commitOutcome s cs cn).reg k (fun e => not_stageKey_of_settleKey e v.val h)
  have hworld := State.committedBoth_world hc cs cn v
  by_cases hcommits : (if v = 0 then cs else cn) = true
  · rw [if_pos hcommits] at hworld ⊢
    obtain ⟨harm, hgap, hresult⟩ := hworld
    exact ⟨(State.get_congr (f := F.SYS_STAGE_CTL_ARM v.val) (hstand _ (.inl rfl))).trans harm,
      (State.get_congr (f := F.SYS_STAGE_CTL_GAP v.val) (hstand _ (.inl rfl))).trans hgap,
      (State.get_congr (f := F.SYS_STAGE_STAT_RESULT v.val) (hstand _ (.inr rfl))).trans hresult⟩
  · rw [if_neg hcommits] at hworld ⊢
    exact ⟨(hstand _ (.inl rfl)).trans (hworld _ (.inl rfl)), (hstand _ (.inr rfl)).trans (hworld _ (.inr rfl))⟩

theorem not_settleKey_epoch : ¬settleKey Reg.SYS_EPOCH := by
  rintro (⟨c, h | h⟩ | ⟨n, h⟩)
  · cases c <;> exact absurd h (by decide)
  · exact absurd h (by decide)
  · simp only [Reg.SYS_EPOCH, Reg.LAN_ABORT] at h
    omega

theorem State.commitOutcome_epoch (hc : s.canonical = true) (cs cn : Bool) :
    (s.commitOutcome cs cn).get F.SYS_EPOCH_EPOCH = (s.get F.SYS_EPOCH_EPOCH + 1) % 2 ^ 32 := by
  have hstage (v : Nat) (_ : v < 2) : ¬stageKey v Reg.SYS_EPOCH := not_stageKey_of_settleKey (.inr rfl) v
  have hsame : (s.settle (s.committedBoth cs cn)).get F.SYS_EPOCH_EPOCH = s.get F.SYS_EPOCH_EPOCH :=
    State.get_congr (f := F.SYS_EPOCH_EPOCH)
      (((ReceiveFrame.settle s _).reg Reg.SYS_EPOCH not_settleKey_epoch).trans (s.committedBoth_reg cs cn hstage))
  have hcanon := (State.keeps_settle s (Keeps.refl (s.committedBoth cs cn))).canon (State.committedBoth_canonical hc cs cn)
  rw [State.commitOutcome, State.nextEpoch, State.get_put_same hcanon F.SYS_EPOCH_EPOCH _ (by decide), hsame]
  rfl

/-! ## Chains and lanes after a commit -/

theorem ReceiveFrame.chainEnabled {K : Nat → Prop} (h : ReceiveFrame K s t) (c : Chain) : t.chainEnabled c = s.chainEnabled c := by
  cases c <;> simp only [State.chainEnabled, State.flagA, State.getA, h.activeReg]

theorem ReceiveFrame.settledMarks {K : Nat → Prop} (h : ReceiveFrame K s t) (u : State) (c : Chain) (m : Nat × Bool) :
    u.settledMarks t c m = u.settledMarks s c m := by
  have hdiv : t.diversity = s.diversity := by simp only [State.diversity, State.flagA, State.getA, h.activeReg]
  have hfreq : t.chainFreq c = s.chainFreq c := by
    cases c <;> simp only [State.chainFreq, State.getA, h.activeReg, hdiv]
  have hretunes : u.retunes t c = u.retunes s c := by simp only [State.retunes, h.chainEnabled, hdiv, hfreq]
  simp only [State.settledMarks, hretunes, h.chainEnabled]

theorem retunes_iff (s t : State) (c : Chain) :
    s.retunes t c = true ↔ t.chainEnabled c = true ∧
      (s.chainEnabled c = false ∨ s.diversity ≠ t.diversity ∨ s.chainFreq c ≠ t.chainFreq c) := by
  simp [State.retunes, or_assoc]

theorem State.commitOutcome_chainMarks (hc : s.canonical = true) (cs cn : Bool) (c : Chain) :
    (s.commitOutcome cs cn).chainMarks c = s.settledMarks (s.commitOutcome cs cn) c (s.chainMarks c) := by
  have hkey (k : Nat) (h : chainKey c k) : settleKey k := .inl ⟨c, h⟩
  have hstart : (s.committedBoth cs cn).chainMarks c = s.chainMarks c := by
    have hreg (k : Nat) (h : chainKey c k) : (s.committedBoth cs cn).reg k = s.reg k :=
      s.committedBoth_reg cs cn (fun v _ => not_stageKey_of_settleKey (.inl (hkey k h)) v)
    rw [State.chainMarks, State.chainMarks, State.bit, State.bit, hreg _ (.inr rfl),
      State.get_congr (f := F.RXC_STAT_CAL (chainNo c)) (hreg _ (.inl rfl))]
  have hepoch (k : Nat) (h : chainKey c k) : k ≠ Reg.SYS_EPOCH := by
    rintro rfl
    exact not_settleKey_epoch (hkey _ h)
  rw [State.commitOutcome, (ReceiveFrame.nextEpoch _).chainMarks hepoch,
    State.chainMarks_settle (State.committedBoth_canonical hc cs cn), hstart]
  exact ((ReceiveFrame.commitOutcome s cs cn).settledMarks s c _).symm

theorem State.commitOutcome_chain (hc : s.canonical = true) (cs cn : Bool) (c : Chain) :
    let t := s.commitOutcome cs cn
    if t.chainEnabled c = true ∧ (s.chainEnabled c = false ∨ s.diversity ≠ t.diversity ∨ s.chainFreq c ≠ t.chainFreq c) then
      t.get (F.RXC_STAT_CAL (chainNo c)) = 1 ∧ t.bit Reg.SYS_READY (24 + chainNo c) = false
    else if s.chainEnabled c = true ∧ t.chainEnabled c = false then
      t.get (F.RXC_STAT_CAL (chainNo c)) = 0 ∧ t.bit Reg.SYS_READY (24 + chainNo c) = false
    else t.get (F.RXC_STAT_CAL (chainNo c)) = s.get (F.RXC_STAT_CAL (chainNo c)) ∧
      t.bit Reg.SYS_READY (24 + chainNo c) = s.bit Reg.SYS_READY (24 + chainNo c) := by
  have hmarks := State.commitOutcome_chainMarks hc cs cn c
  simp only [State.settledMarks, retunes_iff, Bool.and_eq_true, Bool.not_eq_true'] at hmarks
  dsimp only
  split
  · next h => rwa [if_pos h, State.chainMarks, Prod.mk.injEq] at hmarks
  · next h =>
    rw [if_neg h] at hmarks
    split
    · next h => rwa [if_pos h, State.chainMarks, Prod.mk.injEq] at hmarks
    · next h => rwa [if_neg h, State.chainMarks, State.chainMarks, Prod.mk.injEq] at hmarks

theorem State.commitOutcome_lane (s : State) (cs cn : Bool) (n : LaneIx) :
    ((s.commitOutcome cs cn).laneAt n).state = (s.commitOutcome cs cn).laneGoes n (s.laneAt n).state ∧
      ((s.commitOutcome cs cn).laneAt n).firstFloor =
        ((s.laneAt n).firstFloor || (!s.flagA F.LDP_LCTL_EN && (s.commitOutcome cs cn).flagA F.LDP_LCTL_EN)) := by
  have hlane : (s.committedBoth cs cn).laneAt n = s.laneAt n := by
    rw [State.committedBoth_eq]
    rfl
  have hepoch (k : Nat) (h : laneTableKey k) : k ≠ Reg.SYS_EPOCH := by
    rintro rfl
    rcases h with h | ⟨c, h⟩
    · exact absurd h (by decide)
    · exact not_settleKey_epoch (.inl ⟨c, .inl h⟩)
  have hflag : (s.commitOutcome cs cn).flagA F.LDP_LCTL_EN = (s.committedBoth cs cn).flagA F.LDP_LCTL_EN := by
    simp only [State.flagA, State.getA, (ReceiveFrame.commitOutcome s cs cn).activeReg]
  have hsame : (s.commitOutcome cs cn).laneAt n = (s.settle (s.committedBoth cs cn)).laneAt n := State.laneAt_put _ _ _ n
  have hgoes : (s.commitOutcome cs cn).laneGoes n (s.laneAt n).state = _ := (ReceiveFrame.nextEpoch _).laneGoes hepoch n _
  have hsettle := s.laneAt_settle (s.committedBoth cs cn) n
  rw [hlane, ← hflag, ← hgoes, ← hsame] at hsettle
  exact hsettle

/-! ## The settling -/

/-- Settles O34: each command is a write of SYS_STAGE_CTL or of the register; a stopped commit is the activation of the armed sets,
after which chains and lanes follow. -/
theorem stagingCommands : Obligations.StagingCommands := by
  intro s r
  refine ⟨fun h => ⟨?_, ?_, ?_, fun hc => ?_⟩, fun a v x hx hblock ha hlo hhi hb h => ⟨fun hfree => ?_, fun harm hch => ?_⟩,
    fun sec nonsec => ⟨fun hidle => ?_, fun hc hrun harmed => ?_⟩⟩
  · rw [exec_arm, State.command32_arm h]
  · rw [exec_gap, State.command32_gap h]
  · rw [exec_abandon, State.command32_abandon h]
    rfl
  · exact ⟨_, by rw [exec_abandon, State.command32_abandon h], State.abandon_effects hc _ _ _⟩
  · rw [exec_stagedWrite, State.command32_pool h hx hblock ha ⟨hlo, hhi⟩ hb hfree]
  · rw [exec_stagedWrite, State.command32_pool_late h hx hblock ha ⟨hlo, hhi⟩ hb harm hch]
  · rw [exec_stoppedCommit]
    cases hrun : s.running with
    | true => rfl
    | false =>
      have hnone := hidle.resolve_left (by simp [hrun])
      rw [State.commitWorlds_stopped hrun, hnone]
      rfl
  · rw [exec_stoppedCommit, hrun, if_neg Bool.false_ne_true, State.commitWorlds_stopped hrun, if_pos harmed]
    generalize (sec && s.flag (F.SYS_STAGE_CTL_ARM 0)) = cs
    generalize (nonsec && s.flag (F.SYS_STAGE_CTL_ARM 1)) = cn
    have hframe := ReceiveFrame.commitOutcome s cs cn
    have hparts := s.committedBoth_eq cs cn
    refine ⟨s.commitOutcome cs cn, rfl, fun a x hx => ⟨?_, ?_⟩, State.commitOutcome_world hc cs cn, ?_,
      State.commitOutcome_epoch hc cs cn, State.commitOutcome_chain hc cs cn, State.commitOutcome_lane s cs cn, ?_⟩
    · rw [hframe.activeReg, State.committedBoth_activeReg hc cs cn hx]
      rfl
    · exact State.staged_bits_eq hx (fun hst => s.commitOutcome_reg cs cn (fun h => hst (unstaged_of_commitKey h)))
    · rw [hframe.parts, hparts]
    · rw [hframe.parts, hparts]
      exact ⟨rfl, rfl, rfl, rfl, rfl, rfl, rfl⟩

end Sys2Proof.Machine
end

section
/-! PROOFS. Sync matches (02 R59, R60, R64): the first of the smallest among optional candidates is the one shape behind the match of
a searcher, the match of a lane and the earliest of several matches. -/

namespace Sys2Proof.Machine

/-! ## The first of the smallest candidates -/

section Best

variable {α β : Type} {f : β → Option (Nat × α)} {l : List β} {y : Nat × α}

/-- The candidate that `x` offers joins the best so far. -/
def keepBetter (f : β → Option (Nat × α)) (best : Option (Nat × α)) (x : β) : Option (Nat × α) :=
  match f x with
  | some y => betterMatch best y
  | none => best

/-- The first of the smallest candidates that the elements of a list offer. -/
def bestOf (f : β → Option (Nat × α)) (l : List β) : Option (Nat × α) := l.foldl (keepBetter f) none

theorem bestOf_concat (f : β → Option (Nat × α)) (l : List β) (x : β) : bestOf f (l ++ [x]) = keepBetter f (bestOf f l) x := by
  simp only [bestOf, List.foldl_append, List.foldl_cons, List.foldl_nil]

/-- `y` is offered by an element of the list: every earlier element offers more, and no later one less. -/
def IsFirstLeast (f : β → Option (Nat × α)) (l : List β) (y : Nat × α) : Prop :=
  ∃ before x after, l = before ++ x :: after ∧ f x = some y ∧ (∀ z ∈ before, ∀ w, f z = some w → y.1 < w.1) ∧
    ∀ z ∈ after, ∀ w, f z = some w → y.1 ≤ w.1

theorem IsFirstLeast.concat (h : IsFirstLeast f l y) {x : β} (hx : ∀ w, f x = some w → y.1 ≤ w.1) :
    IsFirstLeast f (l ++ [x]) y := by
  obtain ⟨before, z, after, rfl, hz, hbefore, hafter⟩ := h
  refine ⟨before, z, after ++ [x], by simp, hz, hbefore, fun u hu w hw => ?_⟩
  rcases List.mem_append.mp hu with hu | hu
  · exact hafter u hu w hw
  · exact hx w (List.mem_singleton.mp hu ▸ hw)

theorem IsFirstLeast.of_last {x : β} (hx : f x = some y) (h : ∀ z ∈ l, ∀ w, f z = some w → y.1 < w.1) :
    IsFirstLeast f (l ++ [x]) y :=
  ⟨l, x, [], rfl, hx, h, fun _ hz => absurd hz List.not_mem_nil⟩

theorem IsFirstLeast.le (h : IsFirstLeast f l y) {z : β} (hz : z ∈ l) {w : Nat × α} (hw : f z = some w) : y.1 ≤ w.1 := by
  obtain ⟨before, x, after, rfl, hx, hbefore, hafter⟩ := h
  rcases List.mem_append.mp hz with hz | hz
  · exact (hbefore z hz w hw).le
  · rcases List.mem_cons.mp hz with rfl | hz
    · exact (Option.some.inj (hx.symm.trans hw) ▸ le_rfl)
    · exact hafter z hz w hw

theorem IsFirstLeast.offered (h : IsFirstLeast f l y) : ∃ x ∈ l, f x = some y := by
  obtain ⟨before, x, after, rfl, hx, -, -⟩ := h
  exact ⟨x, by simp, hx⟩

/-- What the fold over the candidates ends with. -/
theorem bestOf_spec (f : β → Option (Nat × α)) (l : List β) :
    match bestOf f l with
    | none => ∀ x ∈ l, f x = none
    | some y => IsFirstLeast f l y := by
  induction l using List.reverseRecOn with
  | nil => exact fun x hx => absurd hx List.not_mem_nil
  | append_singleton l x ih =>
    rw [bestOf_concat, keepBetter]
    cases hb : bestOf f l with
    | none =>
      rw [hb] at ih
      have hnone : ∀ z ∈ l, f z = none := ih
      cases hx : f x with
      | none => exact fun z hz => (List.mem_append.mp hz).elim (hnone z) (fun hz => List.mem_singleton.mp hz ▸ hx)
      | some w => exact .of_last hx (fun z hz v hv => absurd ((hnone z hz).symm.trans hv) (by simp))
    | some y =>
      rw [hb] at ih
      have hfirst : IsFirstLeast f l y := ih
      cases hx : f x with
      | none => exact hfirst.concat (fun w hw => absurd (hx.symm.trans hw) (by simp))
      | some w =>
        by_cases hlt : w.1 < y.1
        · simp only [betterMatch, hlt, if_true]
          exact .of_last hx (fun z hz v hv => hlt.trans_le (hfirst.le hz hv))
        · simp only [betterMatch, hlt, if_false]
          exact hfirst.concat (fun v hv => Option.some.inj (hx.symm.trans hv) ▸ not_lt.mp hlt)

theorem bestOf_none (h : bestOf f l = none) {x : β} (hx : x ∈ l) : f x = none := by
  have hs := bestOf_spec f l
  rw [h] at hs
  exact hs x hx

theorem bestOf_some (h : bestOf f l = some y) : IsFirstLeast f l y := by
  have hs := bestOf_spec f l
  rwa [h] at hs

end Best

/-! ## The match of a searcher (R59, log entry 115) -/

variable {s : State} {n : LaneIx} {h : Hits} {i : SyncInfo} {l : LockSet} {hist : List Bool}

/-- What one pattern of a searcher offers: its bit errors, when the history is long enough and they are tolerated. -/
def LockSet.offer (l : LockSet) (hist : List Bool) (p : List Bool × Bool) : Option (Nat × Bool) :=
  if p.1.length ≤ hist.length ∧ bitDiff (lastN p.1.length hist) p.1 ≤ l.tol then
    some (bitDiff (lastN p.1.length hist) p.1, p.2) else none

theorem length_lastN_eq_iff {α : Type} (k : Nat) (l : List α) : (lastN k l).length = k ↔ k ≤ l.length := by
  rw [lastN, List.length_drop]
  omega

theorem LockSet.offer_eq_some (l : LockSet) (hist : List Bool) (p : List Bool × Bool) (x : Nat × Bool) :
    l.offer hist p = some x ↔ p.1.length ≤ hist.length ∧ bitDiff (lastN p.1.length hist) p.1 ≤ l.tol ∧
      x = (bitDiff (lastN p.1.length hist) p.1, p.2) := by
  unfold LockSet.offer
  split <;> simp_all [eq_comm]

theorem LockSet.matchAt_eq_bestOf (l : LockSet) (hist : List Bool) : l.matchAt hist = bestOf (l.offer hist) l.pats := by
  unfold LockSet.matchAt bestOf
  congr 1
  funext best p
  simp only [keepBetter, LockSet.offer, length_lastN_eq_iff]
  split <;> rfl

/-- A searcher that does not match has more errors than it tolerates in each of its patterns. -/
theorem LockSet.matchAt_none (hm : l.matchAt hist = none) {p : List Bool × Bool} (hp : p ∈ l.pats)
    (hlen : p.1.length ≤ hist.length) : l.tol < bitDiff (lastN p.1.length hist) p.1 := by
  rw [LockSet.matchAt_eq_bestOf] at hm
  by_contra hle
  have hsome := (l.offer_eq_some hist p _).mpr ⟨hlen, not_lt.mp hle, rfl⟩
  exact absurd (hsome.symm.trans (bestOf_none hm hp)) (by simp)

/-- The match of a searcher is one of its patterns within the tolerance, and no pattern has fewer errors. -/
theorem LockSet.matchAt_some {e : Nat} {coded : Bool} (hm : l.matchAt hist = some (e, coded)) :
    (∃ p ∈ l.pats, p.2 = coded ∧ p.1.length ≤ hist.length ∧ e = bitDiff (lastN p.1.length hist) p.1 ∧ e ≤ l.tol) ∧
      ∀ p ∈ l.pats, p.1.length ≤ hist.length → e ≤ bitDiff (lastN p.1.length hist) p.1 := by
  rw [LockSet.matchAt_eq_bestOf] at hm
  have hbest := bestOf_some hm
  obtain ⟨q, hq, hoffer⟩ := hbest.offered
  obtain ⟨hlen, htol, heq⟩ := (l.offer_eq_some hist q _).mp hoffer
  obtain ⟨rfl, rfl⟩ := Prod.mk.inj heq
  refine ⟨⟨q, hq, rfl, hlen, rfl, htol⟩, fun p hp hpl => ?_⟩
  by_cases hpt : bitDiff (lastN p.1.length hist) p.1 ≤ l.tol
  · exact hbest.le hp ((l.offer_eq_some hist p _).mpr ⟨hpl, hpt, rfl⟩)
  · exact htol.trans (not_le.mp hpt).le

/-! ## The match of a lane (R60) -/

/-- What one searcher offers the lane. -/
def LockSet.hit (h : Hits) (l : LockSet) : Option (Nat × (LockSet × Bool)) :=
  (l.matchAt (hitBits h l.srch)).map (fun x => (x.1, (l, x.2)))

theorem bestMatch_eq_bestOf (sets : List LockSet) (h : Hits) : bestMatch sets h = bestOf (LockSet.hit h) sets := by
  unfold bestMatch bestOf
  congr 1
  funext best l
  simp only [keepBetter, LockSet.hit]
  cases l.matchAt (hitBits h l.srch) <;> rfl

theorem LockSet.hit_of_matchAt {e : Nat} {coded : Bool} (hm : l.matchAt (hitBits h l.srch) = some (e, coded)) :
    l.hit h = some (e, (l, coded)) := by
  rw [LockSet.hit, hm]
  rfl

theorem bestMatch_none {sets : List LockSet} (hb : bestMatch sets h = none) (hl : l ∈ sets) :
    l.matchAt (hitBits h l.srch) = none := by
  rw [bestMatch_eq_bestOf] at hb
  exact Option.map_eq_none_iff.mp (bestOf_none hb hl)

/-- The best match is that of a searcher: those before it match with more errors, those after it with no fewer. -/
theorem bestMatch_some {sets : List LockSet} {e : Nat} {coded : Bool} (hb : bestMatch sets h = some (e, (l, coded))) :
    ∃ before after : List LockSet, sets = before ++ l :: after ∧ l.matchAt (hitBits h l.srch) = some (e, coded) ∧
      (∀ x ∈ before, ∀ (e' : Nat) (c' : Bool), x.matchAt (hitBits h x.srch) = some (e', c') → e < e') ∧
      ∀ x ∈ after, ∀ (e' : Nat) (c' : Bool), x.matchAt (hitBits h x.srch) = some (e', c') → e ≤ e' := by
  rw [bestMatch_eq_bestOf] at hb
  obtain ⟨before, k, after, hsets, hk, hbefore, hafter⟩ := bestOf_some hb
  obtain ⟨x, hx, hxe⟩ := Option.map_eq_some_iff.mp hk
  obtain ⟨rfl, hlc⟩ := Prod.mk.inj hxe
  obtain ⟨rfl, rfl⟩ := Prod.mk.inj hlc
  exact ⟨before, after, hsets, hx, fun z hz e' c' hm => hbefore z hz _ (LockSet.hit_of_matchAt hm),
    fun z hz e' c' hm => hafter z hz _ (LockSet.hit_of_matchAt hm)⟩

/-! ## SYNC_MATCH (R55, R67, R68, R75) -/

/-- The stamp of a moment `d` units after the start of the slot in progress: in that slot, or in the one that follows (log entry 25). -/
theorem State.stampAt_add (s : State) (d : Nat) : s.stampAt (s.sfm.clock + d) =
    if s.running then (if d < s.sfm.slotLen then (s.sfm.asn.toNat, d) else ((s.sfm.asn.toNat + 1) % 2 ^ 40, d - s.sfm.slotLen))
    else (s.sfm.asn.toNat, 0) := by
  cases hr : s.running <;> simp [State.stampAt, hr]

/-- The frequency error held to the range of the symbol rate (R55). -/
theorem errorHeld_eq (rate : Nat) (f : Int) :
    errorHeld rate f = max (-(if rate = 0 then 1500 else 3000)) (min (if rate = 0 then 1500 else 3000) f) := by
  unfold errorHeld clampInt
  split <;> rfl

theorem exec_syncMatch (n : LaneIx) (h : Hits) (i : SyncInfo) (s : State) : exec (.syncMatch n h i) s = execSyncMatch n h i s := rfl

theorem execSyncMatch_missed (hl : (s.laneAt n).state = .drain ∨ (s.laneAt n).state = .ready) :
    execSyncMatch n h i s =
      .next (if (bestMatch (s.laneAt n).sets h).isSome then s.bump (F.LAN_MISSED_COUNT n.val) else s) := by
  rcases hl with hl | hl <;> simp only [execSyncMatch, hl]

theorem execSyncMatch_deaf (hl : (s.laneAt n).state = .off ∨ (s.laneAt n).state = .header ∨ (s.laneAt n).state = .payload ∨
    (s.laneAt n).state = .blank) : execSyncMatch n h i s = .next s := by
  rcases hl with hl | hl | hl | hl <;> simp only [execSyncMatch, hl]

theorem execSyncMatch_none (hl : (s.laneAt n).state = .search) (hb : bestMatch (s.searchers n.val) h = none) :
    execSyncMatch n h i s = .next s := by
  simp only [execSyncMatch, hl, hb]

/-- Settles O38: the lane locks on the first of the smallest candidates, which is so for its searchers and for their patterns. -/
theorem lanesLockOnTheBestMatch : Obligations.LanesLockOnTheBestMatch := by
  refine ⟨fun s n h i => ?_, fun s d _ => s.stampAt_add d,
    fun sets h => ⟨fun hb x hx => bestMatch_none hb hx, fun e ls coded hb => bestMatch_some hb⟩,
    fun l hist => ⟨fun hm p hp hlen => LockSet.matchAt_none hm hp hlen, fun e coded hm => LockSet.matchAt_some hm⟩⟩
  rw [exec_syncMatch]
  refine ⟨fun hl => ⟨fun e ls coded hb => ?_, execSyncMatch_none hl⟩, execSyncMatch_missed, execSyncMatch_deaf⟩
  simp only [execSyncMatch, hl, hb, errorHeld_eq]
  rfl

end Sys2Proof.Machine
end

section
/-! PROOFS. The header window (02 R61 to R65, R490, 03 R86, R87, R95): its second correlator bit by bit, the later matches of a failed
header, and the decision of a diversity pair (R45, R46). -/

namespace Sys2Proof.Machine

variable {s u : State} {n : LaneIx} {l : Lane} {e p after : Nat} {b coded : Bool}

/-! ## The earliest of several matches -/

theorem earliestMatch_eq_bestOf (ms : List (Nat × Nat × Bool)) : earliestMatch ms = bestOf some ms := by
  unfold earliestMatch bestOf
  congr 1
  funext best m
  cases best <;> rfl

theorem earliestMatch_none {ms : List (Nat × Nat × Bool)} (h : earliestMatch ms = none) : ms = [] := by
  rw [earliestMatch_eq_bestOf] at h
  refine List.eq_nil_iff_forall_not_mem.mpr (fun m hm => ?_)
  exact absurd (bestOf_none h hm) (by simp)

theorem earliestMatch_some {ms : List (Nat × Nat × Bool)} {m : Nat × Nat × Bool} (h : earliestMatch ms = some m) :
    m ∈ ms ∧ ∀ x ∈ ms, m.1 ≤ x.1 := by
  rw [earliestMatch_eq_bestOf] at h
  have hbest := bestOf_some h
  obtain ⟨x, hx, hxm⟩ := hbest.offered
  exact ⟨Option.some.inj hxm ▸ hx, fun y hy => hbest.le hy rfl⟩

/-! ## One bit of the header window (R62, R63) -/

/-- The frame of lane `l`, number `n`, after a lock on a match that ends `bits` after the end of its sync; `since` bits have come since
the first of the match (log entries 9, 24, 26). -/
def State.movedFrame (s : State) (n : LaneIx) (l : Lane) (errs : Nat) (coded : Bool) (bits since : Nat) : RxFrame :=
  let time := bitsTime l.lock.fourLevel l.lock.rate
  let last := l.frame.lockAt + time bits
  { errs := errs, coded := coded, tsAsn := (s.stampAt last).1, tsOff := (s.stampAt last).2, lockAt := last
    ferr0 := l.frame.ferr0, gidx := l.frame.gidx, rssi := Config.freeNat s.free % 256
    marks := s.marksSince n (last - time l.lock.patLen) (time since) }

theorem State.moveLock_eq (hl : s.laneAt n = l) (errs : Nat) (coded : Bool) (bits since : Nat) :
    s.moveLock n errs coded bits since = ({ s with free := s.free + 1 }, s.movedFrame n l errs coded bits since) := by
  subst hl
  rfl

/-- The lane with one more bit of its header window. -/
def Lane.withBit (l : Lane) (b : Bool) : Lane :=
  { l with hist := lastN 64 (l.hist ++ [b]), count := l.count + 1, window := l.window ++ [b] }

theorem State.feedBit_elsewhere (hst : (s.laneAt n).state ≠ .header) (b : Bool) (after : Nat) : s.feedBit n b after = s :=
  if_pos hst

theorem State.feedBit_beyond (hst : (s.laneAt n).state = .header) (hw : (s.laneAt n).windowLen ≤ (s.laneAt n).window.length)
    (b : Bool) (after : Nat) : s.feedBit n b after =
      s.setLane n { s.laneAt n with hist := lastN 64 ((s.laneAt n).hist ++ [b]), count := (s.laneAt n).count + 1 } :=
  (if_neg (not_not.mpr hst)).trans (if_pos hw)

section Within

variable (hl : s.laneAt n = l) (hst : l.state = .header) (hw : l.window.length < l.windowLen)

include hl hst hw

/-- A bit that ends no match joins the history and the window. -/
theorem State.feedBit_noMatch (hm : l.lock.matchAt (l.withBit b).hist = none) :
    s.feedBit n b after = s.setLane n (l.withBit b) := by
  subst hl
  simp only [Lane.withBit] at hm
  simp only [State.feedBit, hst, ne_eq, not_true, if_false, not_le.mpr hw, hm, Lane.withBit]

/-- One that ends a match with no fewer errors is recorded too, the two earliest only. -/
theorem State.feedBit_recorded (hm : l.lock.matchAt (l.withBit b).hist = some (e, coded)) (he : l.frame.errs ≤ e) :
    s.feedBit n b after = s.setLane n { l.withBit b with
      recs := if l.recs.length < 2 then l.recs ++ [⟨(l.withBit b).count - l.lock.patLen, e, coded⟩] else l.recs } := by
  subst hl
  simp only [Lane.withBit] at hm
  simp only [State.feedBit, hst, ne_eq, not_true, if_false, not_le.mpr hw, hm, not_lt.mpr he, Lane.withBit]
  split <;> rfl

/-- One that ends a match with fewer errors takes the lock over. -/
theorem State.feedBit_preempts (hm : l.lock.matchAt (l.withBit b).hist = some (e, coded)) (he : e < l.frame.errs) :
    let f := s.movedFrame n l e coded ((l.withBit b).count - l.lock.patLen) (l.lock.patLen + after)
    s.feedBit n b after = (({ s with free := s.free + 1 } : State).setLane n { l.withBit b with
      frame := { f with marks := { f.marks with preempt := true, resumed := l.frame.marks.resumed } }
      hist := lastN l.lock.patLen (l.withBit b).hist, count := l.lock.patLen, window := [], recs := [] }).bump
        (F.LAN_PREEMPT_COUNT n.val) := by
  subst hl
  simp only [Lane.withBit] at hm
  simp only [State.feedBit, hst, ne_eq, not_true, if_false, not_le.mpr hw, hm, he, if_true, Lane.withBit, State.moveLock_eq rfl]

end Within

/-! ## A failed header (R64, R490) -/

/-- The matches a failed header leaves: those recorded, and those that a rescan of the history finds. -/
theorem Lane.mem_laterMatches (l : Lane) (m : Nat × Nat × Bool) :
    m ∈ l.laterMatches ↔ (∃ r ∈ l.recs, m = (r.first, r.errs, r.coded)) ∨
      (1 ≤ m.1 ∧ l.count - l.hist.length ≤ m.1 ∧ m.1 < l.count ∧ m.1 + l.lock.patLen ≤ l.count ∧
        l.lock.matchAt ((l.hist.drop (m.1 - (l.count - l.hist.length))).take l.lock.patLen) = some m.2) := by
  simp only [Lane.laterMatches, List.mem_append, List.mem_map, List.mem_filterMap, List.mem_filter, List.mem_range,
    decide_eq_true_eq, Option.map_eq_some_iff]
  refine or_congr (exists_congr fun r => and_congr_right fun _ => eq_comm) ⟨?_, ?_⟩
  · rintro ⟨p, ⟨hp, hone, hstart, hend⟩, x, hx, rfl⟩
    exact ⟨hone, hstart, hp, hend, hx⟩
  · rintro ⟨hone, hstart, hp, hend, hx⟩
    exact ⟨m.1, ⟨hp, hone, hstart, hend⟩, m.2, hx, rfl⟩

theorem State.headerError_none (hl : u.laneAt n = l) (h : earliestMatch l.laterMatches = none) :
    u.headerError n =
      (u.bump (F.LAN_HDRERR_COUNT n.val)).setLane n (l.idle ((u.bump (F.LAN_HDRERR_COUNT n.val)).listens n)) := by
  subst hl
  have h' : earliestMatch ((u.bump (F.LAN_HDRERR_COUNT n.val)).laneAt n).laterMatches = none := h
  simp only [State.headerError, h']
  rfl

/-- The lane locks on the earliest later match and takes the bits after it as header bits again. -/
theorem State.headerError_some (hl : u.laneAt n = l) (h : earliestMatch l.laterMatches = some (p, e, coded)) :
    let v := u.bump (F.LAN_HDRERR_COUNT n.val)
    let f := v.movedFrame n l e coded p (l.count - p)
    let start := l.count - l.hist.length
    u.headerError n = (({ v with free := v.free + 1 } : State).setLane n { l with
      frame := { f with marks := { f.marks with resumed := true } }
      hist := (l.hist.drop (p - start)).take (p + l.lock.patLen - max p start)
      count := l.lock.patLen, window := [], recs := [] }).feedBits n (l.hist.drop (p + l.lock.patLen - start)) := by
  subst hl
  have h' : earliestMatch ((u.bump (F.LAN_HDRERR_COUNT n.val)).laneAt n).laterMatches = some (p, e, coded) := h
  simp only [State.headerError, h', State.moveLock_eq rfl]
  rfl

/-! ## The decision of a diversity pair (R45, R46) -/

theorem partner_ne (n : LaneIx) : partner n ≠ n := by
  intro h
  have hv := congrArg Fin.val h
  have hlt := n.isLt
  unfold partner at hv
  split at hv <;> dsimp only at hv <;> omega

theorem partner_partner (n : LaneIx) : partner (partner n) = n := by
  apply Fin.ext
  have hlt := n.isLt
  by_cases h : n.val < 48
  · simp [partner, h]
  · have hback : n.val - 48 < 48 := by omega
    simp only [partner, h, dif_neg, not_false_eq_true, hback, dif_pos]
    omega

/-- The chain A lane of the pair of lane `n`. -/
def pairA (n : LaneIx) : LaneIx := if n.val < 48 then n else partner n

/-- The chain B lane of the pair of lane `n`. -/
def pairB (n : LaneIx) : LaneIx := if n.val < 48 then partner n else n

/-- The lane of the pair of lane `n` that a decision goes against: the one with the smaller RSSI, chain B's when they are equal. -/
def State.weaker (s : State) (n : LaneIx) : LaneIx :=
  if toSigned 8 (s.laneAt (pairB n)).frame.rssi > toSigned 8 (s.laneAt (pairA n)).frame.rssi then pairA n else pairB n

theorem partner_pairA (n : LaneIx) : partner (pairA n) = pairB n := by
  unfold pairA pairB
  split
  · rfl
  · exact partner_partner n

theorem partner_pairB (n : LaneIx) : partner (pairB n) = pairA n := by rw [← partner_pairA, partner_partner]

theorem syncGap_comm (f g : RxFrame) : syncGap f g = syncGap g f := by rw [syncGap, syncGap, max_comm, min_comm]

/-- A pair whose two frames are decoded, undecided and close enough decides against the weaker; any other pair stands. -/
theorem State.decideDiversity_eq (s : State) (n : LaneIx) :
    s.decideDiversity n =
      if s.diversity ∧ (s.laneAt (pairA n)).state = .payload ∧ (s.laneAt (pairB n)).state = .payload ∧
          (s.laneAt (pairA n)).frame.marks.div = false ∧ (s.laneAt (pairB n)).frame.marks.div = false ∧
          syncGap (s.laneAt (pairA n)).frame (s.laneAt (pairB n)).frame ≤ 2 * symbolTime (s.laneAt (pairA n)).lock.rate then
        (s.loseDiversity (s.weaker n)).winDiversity (partner (s.weaker n))
      else s := by
  have hside : (s.loseDiversity (s.weaker n)).winDiversity (partner (s.weaker n)) =
      if toSigned 8 (s.laneAt (pairB n)).frame.rssi > toSigned 8 (s.laneAt (pairA n)).frame.rssi then
        (s.loseDiversity (pairA n)).winDiversity (pairB n)
      else (s.loseDiversity (pairB n)).winDiversity (pairA n) := by
    unfold State.weaker
    split
    · rw [partner_pairA]
    · rw [partner_pairB]
  rw [hside]
  simp only [State.decideDiversity, Bool.not_eq_true']
  rfl

/-- The decision as lane `n` sees it when it enters PAYLOAD as `l'`: both frames, and the chain A lane, are as the header window left
them. -/
theorem State.decideDiversity_setLane {l' : Lane} (hlane : u.lane = s.lane) (hact : u.act = s.act) (hst : l'.state = .payload)
    (hlock : l'.lock = (s.laneAt n).lock) (hat : l'.frame.lockAt = (s.laneAt n).frame.lockAt)
    (hdiv : l'.frame.marks.div = (s.laneAt n).frame.marks.div) :
    let v := u.setLane n l'
    let l := s.laneAt n
    let m := s.laneAt (partner n)
    v.decideDiversity n =
      if s.diversity ∧ m.state = .payload ∧ m.frame.marks.div = false ∧ l.frame.marks.div = false ∧
          syncGap l.frame m.frame ≤ 2 * symbolTime (s.laneAt (pairA n)).lock.rate then
        (v.loseDiversity (v.weaker n)).winDiversity (partner (v.weaker n))
      else v := by
  intro v l m
  have hown : v.laneAt n = l' := State.laneAt_setLane_same u n l'
  have hother : v.laneAt (partner n) = m :=
    (State.laneAt_setLane_other u l' (partner_ne n)).trans (by simp only [State.laneAt, hlane, m])
  have hmode : v.diversity = s.diversity := by
    simp only [State.diversity, State.flagA, State.getA, State.activeReg, State.setLane_act, hact, v]
  have hgap : syncGap l'.frame m.frame = syncGap l.frame m.frame := by simp only [syncGap, hat, l]
  rw [State.decideDiversity_eq, hmode]
  refine if_congr ?_ rfl rfl
  by_cases h : n.val < 48
  · have ha : pairA n = n := if_pos h
    have hb : pairB n = partner n := if_pos h
    rw [ha, hb, hown, hother, hst, hgap, hlock, hdiv]
    tauto
  · have ha : pairA n = partner n := if_neg h
    have hb : pairB n = n := if_neg h
    rw [ha, hb, hown, hother, hst, syncGap_comm, hgap, hdiv]
    tauto

/-! ## HEADER_WINDOW_COMPLETE -/

theorem exec_headerWindowComplete_nil (n : LaneIx) (mags : List Nat) (s : State) :
    exec (.headerWindowComplete n [] mags) s = execHeaderWindowComplete n [] mags s := rfl

theorem execHeaderWindowComplete_open {mags : List Nat}
    (h : (s.laneAt n).state ≠ .header ∨ (s.laneAt n).window.length ≠ (s.laneAt n).windowLen) :
    execHeaderWindowComplete n [] mags s = .next s :=
  congrArg Host.Outcome.next (if_neg (fun ⟨hst, hw⟩ => h.elim (· hst) (· hw)))

section Whole

variable {mags : List Nat} {h : Nat}
variable (hl : s.laneAt n = l) (hst : l.state = .header) (hw : l.window.length = l.windowLen)

include hl hst hw

theorem execHeaderWindowComplete_deep (hd : l.lock.deep = true) (hh : headerDecode l.window = some h)
    (hf : headerFits l.lock.fourLevel l.lock.rate h = true) :
    execHeaderWindowComplete n [] mags s = .next ((s.setLane n { l with state := .payload, frame :=
      { l.frame with hdr := h, len := hdrLen h, prof := hdrProf h, codewords := codewordCount (hdrProf h) (hdrLen h)
                     z48 := liftZ (hdrProf h) (hdrLen h) == 48 } }).decideDiversity n) := by
  simp only [execHeaderWindowComplete, State.feedBits, hl, hst, hw, hd, hh, hf, and_self, if_true]

theorem execHeaderWindowComplete_deep_fails (hd : l.lock.deep = true)
    (hf : headerDecode l.window = none ∨ ∃ h : Nat, headerDecode l.window = some h ∧
      headerFits l.lock.fourLevel l.lock.rate h = false) :
    execHeaderWindowComplete n [] mags s = .next (s.headerError n) := by
  rcases hf with hh | ⟨h, hh, hf⟩
  · simp only [execHeaderWindowComplete, State.feedBits, hl, hst, hw, hd, hh, and_self, if_true]
  · simp only [execHeaderWindowComplete, State.feedBits, hl, hst, hw, hd, hh, hf, and_self, if_true, Bool.false_eq_true, if_false]

theorem execHeaderWindowComplete_sun {phr : Nat} (hd : l.lock.deep = false)
    (hx : s.windowPhr l.frame.coded l.window (softBits l.window mags) = (u, phr)) (hf : sunHeaderFits phr = true) :
    execHeaderWindowComplete n [] mags s = .next ((u.setLane n { l with state := .payload, soft := softBits l.window mags, frame :=
      { l.frame with hdr := phr, len := phrLen phr } }).decideDiversity n) := by
  simp only [execHeaderWindowComplete, State.feedBits, hl, hst, hw, hd, hx, hf, and_self, if_true, Bool.false_eq_true, if_false]

theorem execHeaderWindowComplete_sun_fails {phr : Nat} (hd : l.lock.deep = false)
    (hx : s.windowPhr l.frame.coded l.window (softBits l.window mags) = (u, phr)) (hf : sunHeaderFits phr = false) :
    execHeaderWindowComplete n [] mags s = .next (u.headerError n) := by
  simp only [execHeaderWindowComplete, State.feedBits, hl, hst, hw, hd, hx, hf, and_self, if_true, Bool.false_eq_true, if_false]

end Whole

/-- The PHR a window gives, and the ties drawn to decide it (log entry 9). -/
theorem State.windowPhr_eq (s : State) (coded : Bool) (window : List Bool) (soft : List Int) :
    s.windowPhr coded window soft =
      (if coded then { s with free := s.free + 264 } else s,
        if coded then ofBitsMsb ((viterbiBits (s.flagA F.LDP_SUNCFG_RSC) false (fun k => bitAt (Config.freeNat (s.free + k)) 0)
          (s.codeSymbols soft)).take 16) else ofBitsMsb window) := by
  cases coded <;> rfl

/-- Settles O39: bit by bit in the window, then by what the whole window decodes to. -/
theorem headersAndSecondMatches : Obligations.HeadersAndSecondMatches := by
  refine ⟨fun s n b bits mags => ⟨rfl, rfl, rfl⟩, fun ms => ⟨earliestMatch_none, fun m h => earliestMatch_some h⟩, fun s n => ?_⟩
  intro l whole relock
  refine ⟨State.feedBit_elsewhere, State.feedBit_beyond, fun h mags => execHeaderWindowComplete_open h, fun hst hw b after => ?_,
    fun hst hw mags => ?_⟩
  · exact ⟨fun hm => State.feedBit_noMatch rfl hst hw hm, fun e coded hm =>
      ⟨State.feedBit_recorded rfl hst hw hm, State.feedBit_preempts rfl hst hw hm⟩⟩
  · intro a b payload error
    have herror (v : State) (hv : v.laneAt n = l) : error v (.next (v.headerError n)) :=
      ⟨l.mem_laterMatches, fun h => congrArg _ (State.headerError_none hv h),
        fun p e coded h => congrArg _ (State.headerError_some hv h)⟩
    refine ⟨fun hd => ⟨fun h hh hf => ?_, fun hf => ?_⟩, fun hd => ?_⟩
    · rw [exec_headerWindowComplete_nil, execHeaderWindowComplete_deep rfl hst hw hd hh hf]
      exact congrArg _ (State.decideDiversity_setLane rfl rfl rfl rfl rfl rfl)
    · rw [exec_headerWindowComplete_nil, execHeaderWindowComplete_deep_fails rfl hst hw hd hf]
      exact herror s rfl
    · intro soft u phr
      have hx : s.windowPhr l.frame.coded l.window soft = (u, phr) := s.windowPhr_eq _ _ _
      have hlane : u.lane = s.lane := apply_ite State.lane _ _ _ |>.trans (ite_self _)
      have hact : u.act = s.act := apply_ite State.act _ _ _ |>.trans (ite_self _)
      refine ⟨fun hf => ?_, fun hf => ?_⟩
      · rw [exec_headerWindowComplete_nil, execHeaderWindowComplete_sun rfl hst hw hd hx hf]
        exact congrArg _ (State.decideDiversity_setLane hlane hact rfl rfl rfl rfl)
      · rw [exec_headerWindowComplete_nil, execHeaderWindowComplete_sun_fails rfl hst hw hd hx hf]
        exact herror u (by simp only [State.laneAt, hlane, l])

end Sys2Proof.Machine
end

section
/-! PROOFS. What a change made lane by lane leaves of each lane, and the table of 02 R67 lane by lane: which lanes stay as they are, which
become idle, and which frames count as aborted. -/

namespace Sys2Proof.Machine

variable {s t u : State} {n m : LaneIx} {c : Chain}

/-! ## Changes lane by lane -/

/-- What no element's change touches is as it was after all of them. -/
theorem State.each_unchanged {α γ : Type} {f : State → α → State} (g : State → γ) (hf : ∀ u x, g (f u x) = g u) (l : List α)
    (s : State) : g (s.each l f) = g s := by
  induction l generalizing s with
  | nil => rfl
  | cons x l ih => exact (ih (f s x)).trans (hf s x)

/-- What the change at lane `m` alone touches is touched once, if the lane is in the list; `I` holds of the states on the way. -/
theorem State.each_at {γ : Type} {f : State → LaneIx → State} {g : State → γ} {F : γ → γ} {I : State → Prop}
    (hI : ∀ u n, I u → I (f u n)) (hother : ∀ u n, n ≠ m → g (f u n) = g u) (hsame : ∀ u, I u → g (f u m) = F (g u))
    {l : List LaneIx} (hl : l.Nodup) (hs : I s) : g (s.each l f) = if m ∈ l then F (g s) else g s := by
  induction l generalizing s with
  | nil => rfl
  | cons n l ih =>
    obtain ⟨hnl, hl⟩ := List.nodup_cons.mp hl
    refine (ih hl (hI s n hs)).trans ?_
    by_cases h : n = m
    · subst h
      rw [if_neg hnl, if_pos (List.mem_cons_self ..), hsame s hs]
    · rw [hother s n h]
      simp only [List.mem_cons, Ne.symm h, false_or]

/-- A change of each lane by itself. -/
theorem State.laneAt_each_setLane (φ : Lane → Lane) {l : List LaneIx} (hl : l.Nodup) (s : State) (m : LaneIx) :
    (s.each l (fun u n => u.setLane n (φ (u.laneAt n)))).laneAt m = if m ∈ l then φ (s.laneAt m) else s.laneAt m :=
  State.each_at (f := fun u n => u.setLane n (φ (u.laneAt n))) (g := fun u => u.laneAt m) (I := fun _ => True)
    (fun _ _ _ => trivial) (fun u _ h => State.laneAt_setLane_other u _ h.symm) (fun u _ => State.laneAt_setLane_same u m _) hl
    trivial

theorem mem_chainLanes : m ∈ chainLanes c ↔ laneChain m = c := by simp [chainLanes]

theorem nodup_chainLanes (c : Chain) : (chainLanes c).Nodup := (List.nodup_finRange 96).filter _

theorem State.chainAt_setChain_other (s : State) (x : ChainSt) {d : Chain} (h : d ≠ c) : (s.setChain c x).chainAt d = s.chainAt d := by
  cases c <;> cases d <;> simp [State.chainAt, State.setChain] at h ⊢

theorem otherChain_ne (c : Chain) : otherChain c ≠ c := by cases c <;> decide

@[simp] theorem State.laneAt_setChain (s : State) (c : Chain) (x : ChainSt) (m : LaneIx) : (s.setChain c x).laneAt m = s.laneAt m := by
  cases c <;> rfl

theorem State.chainAt_congr (h : t.chain = s.chain) (c : Chain) : t.chainAt c = s.chainAt c := by
  cases c <;> simp only [State.chainAt, h]

/-! ## The table of R67 for one lane -/

/-- A lane stays as it is, or becomes idle where the table takes it, its frame aborted if it had one. -/
theorem State.reconcileLane_eq (s : State) (n : LaneIx) :
    s.reconcileLane n =
      if s.laneGoes n (s.laneAt n).state = (s.laneAt n).state then s
      else if (s.laneAt n).state = .header ∨ (s.laneAt n).state = .payload then
        s.abortFrame n (s.laneGoes n (s.laneAt n).state)
      else s.setLane n ((s.laneAt n).idle (s.laneGoes n (s.laneAt n).state)) := by
  unfold State.reconcileLane
  dsimp only
  generalize hst : (s.laneAt n).state = st
  cases st with
  | off =>
    by_cases hr : s.chainReady (laneChain n) = true <;> by_cases he : s.laneEligible n = true <;>
      by_cases hd : s.chainDark (laneChain n) = true <;> simp [State.laneGoes, State.listens, State.toSearch_eq, hr, he, hd]
  | search =>
    by_cases hd : s.chainDark (laneChain n) = true <;> by_cases he : s.laneEligible n = true <;>
      simp [State.laneGoes, State.listens, State.toSearch_eq, hd, he]
  | header =>
    by_cases hd : s.chainDark (laneChain n) = true <;> by_cases he : s.chainEnabled (laneChain n) = true <;>
      simp [State.laneGoes, hd, he]
  | payload =>
    by_cases hd : s.chainDark (laneChain n) = true <;> by_cases he : s.chainEnabled (laneChain n) = true <;>
      simp [State.laneGoes, hd, he]
  | blank =>
    by_cases ho : (!s.flagA (F.LAN_CFG_EN n.val) || !s.chainEnabled (laneChain n)) = true
    · simp only [State.laneGoes, ho, if_true, reduceCtorEq, if_false, or_self]
    · by_cases hd : s.chainDark (laneChain n) = true <;> by_cases he : s.laneEligible n = true <;>
        simp [State.laneGoes, State.listens, State.toSearch_eq, ho, hd, he]
  | drain => rfl
  | ready => rfl

/-- Reconciling one lane writes its own counter at most. -/
theorem ReceiveFrame.reconcileLane_own (s : State) (n : LaneIx) :
    ReceiveFrame (fun k => k = Reg.LAN_ABORT n.val) s (s.reconcileLane n) := by
  rcases s.reconcileLane_cases n with ⟨h, -⟩ | h | h <;> rw [h]
  · exact .refl _ s
  · exact .setLane _ s n _
  · have hput := ReceiveFrame.put (K := fun k => k = Reg.LAN_ABORT n.val) (s.dropCodewords n) (F.LAN_ABORT_COUNT n.val)
      (satCount 16 (s.get (F.LAN_ABORT_COUNT n.val)) 1) rfl
    exact ((ReceiveFrame.dropCodewords _ s n).trans hput).trans (ReceiveFrame.setLane _ _ n _)

theorem State.chain_reconcileLane (s : State) (n : LaneIx) : (s.reconcileLane n).chain = s.chain := by
  rcases s.reconcileLane_cases n with ⟨h, -⟩ | h | h <;> rw [h] <;> rfl

theorem lanAbort_ne (h : n ≠ m) : Reg.LAN_ABORT m.val ≠ Reg.LAN_ABORT n.val := by
  have hv : n.val ≠ m.val := fun e => h (Fin.ext e)
  simp only [Reg.LAN_ABORT]
  omega

theorem State.get_bump_same (hc : s.canonical = true) (f : Fld) (hf : f.lo + f.width ≤ 32) :
    (s.bump f).get f = satCount f.width (s.get f) 1 % 2 ^ f.width := State.get_put_same hc f _ hf

/-- A lane and its counter of aborted frames. -/
def State.laneCount (s : State) (m : LaneIx) : Lane × Nat := (s.laneAt m, s.get (F.LAN_ABORT_COUNT m.val))

/-- What the table of R67 makes of a lane and its counter while the settings of `s` apply. -/
def State.tableEffect (s : State) (m : LaneIx) (x : Lane × Nat) : Lane × Nat :=
  if s.laneGoes m x.1.state = x.1.state then x
  else (x.1.idle (s.laneGoes m x.1.state),
    if x.1.state = .header ∨ x.1.state = .payload then satCount 16 x.2 1 % 2 ^ 16 else x.2)

theorem State.laneCount_reconcileLane_same (hc : s.canonical = true) (m : LaneIx) :
    (s.reconcileLane m).laneCount m = s.tableEffect m (s.laneCount m) := by
  have hdrop : (s.dropCodewords m).canonical = true := hc
  have hcount := State.get_bump_same hdrop (F.LAN_ABORT_COUNT m.val) (show 0 + 16 ≤ 32 by omega)
  rw [State.reconcileLane_eq]
  unfold State.tableEffect
  by_cases hstay : s.laneGoes m (s.laneAt m).state = (s.laneAt m).state
  · rw [if_pos hstay]
    exact (if_pos hstay).symm
  · rw [if_neg hstay]
    refine Eq.trans ?_ (if_neg hstay).symm
    by_cases hframe : (s.laneAt m).state = .header ∨ (s.laneAt m).state = .payload
    · rw [if_pos hframe]
      exact Prod.ext (State.laneAt_setLane_same _ m _) (hcount.trans (if_pos hframe).symm)
    · rw [if_neg hframe]
      exact Prod.ext (State.laneAt_setLane_same _ m _) (if_neg hframe).symm

theorem State.laneCount_reconcileLane_other (s : State) (h : n ≠ m) : (s.reconcileLane n).laneCount m = s.laneCount m :=
  Prod.ext (s.laneAt_reconcileLane_other h.symm)
    ((ReceiveFrame.reconcileLane_own s n).get (f := F.LAN_ABORT_COUNT m.val) (lanAbort_ne h))

/-! ## The table of R67 for every lane -/

theorem State.laneCount_reconcile (hc : s.canonical = true) (m : LaneIx) :
    s.reconcile.laneCount m = s.tableEffect m (s.laneCount m) := by
  have hI (u : State) (n : LaneIx) (hu : ReceiveFrame abortKey s u ∧ u.canonical = true) :
      ReceiveFrame abortKey s (u.reconcileLane n) ∧ (u.reconcileLane n).canonical = true :=
    ⟨hu.1.trans (.reconcileLane u n), (State.keeps_reconcileLane (Keeps.refl u) n).canon hu.2⟩
  refine (State.each_at (g := fun u => u.laneCount m) hI (fun u n h => u.laneCount_reconcileLane_other h) (fun u hu => ?_)
    (List.nodup_finRange 96) ⟨.refl _ s, hc⟩).trans (if_pos (List.mem_finRange m))
  obtain ⟨hframe, hcanon⟩ := hu
  rw [State.laneCount_reconcileLane_same hcanon]
  simp only [State.tableEffect, hframe.laneGoes (fun _ => not_abortKey_of_laneTableKey)]

theorem State.laneGoes_reconcile (s : State) (m : LaneIx) (st : LaneState) : s.reconcile.laneGoes m st = s.laneGoes m st :=
  (ReceiveFrame.reconcile s).laneGoes (fun _ => not_abortKey_of_laneTableKey) m st

/-- A lane that the table leaves where it is is as it was. -/
theorem State.laneAt_reconcile_stays (hc : s.canonical = true) (h : s.laneGoes m (s.laneAt m).state = (s.laneAt m).state) :
    s.reconcile.laneAt m = s.laneAt m := by
  have hx : s.tableEffect m (s.laneCount m) = s.laneCount m := if_pos h
  have hlane : (s.reconcile.laneCount m).1 = (s.laneCount m).1 := by rw [State.laneCount_reconcile hc m, hx]
  exact hlane

/-- The counter of aborted frames goes up with a frame that the table takes from HEADER or PAYLOAD. -/
theorem State.abortCount_reconcile (hc : s.canonical = true) (m : LaneIx) :
    s.reconcile.get (F.LAN_ABORT_COUNT m.val) =
      if ((s.laneAt m).state = .header ∨ (s.laneAt m).state = .payload) ∧ s.laneGoes m (s.laneAt m).state ≠ (s.laneAt m).state then
        (s.bump (F.LAN_ABORT_COUNT m.val)).get (F.LAN_ABORT_COUNT m.val)
      else s.get (F.LAN_ABORT_COUNT m.val) := by
  have hcount := congrArg Prod.snd (State.laneCount_reconcile hc m)
  rw [State.get_bump_same hc (F.LAN_ABORT_COUNT m.val) (show 0 + 16 ≤ 32 by omega)]
  refine hcount.trans ?_
  unfold State.tableEffect
  dsimp only [State.laneCount]
  by_cases hstay : s.laneGoes m (s.laneAt m).state = (s.laneAt m).state
  · simp only [hstay, if_true, ne_eq, not_true, and_false, if_false]
  · simp only [hstay, if_false, ne_eq, not_false_eq_true, and_true]
    rfl

theorem State.chain_reconcile (s : State) : s.reconcile.chain = s.chain :=
  State.each_unchanged (fun u => u.chain) State.chain_reconcileLane _ s

/-! ## The end of decision windows (R487) -/

/-- The decision window of a chain has ended with nothing seen. -/
def ChainSt.stopped (x : ChainSt) : ChainSt :=
  { x with clipWindow := false, busyWindow := false, sinceClip := none, settling := false }

theorem State.laneAt_stopWindows (s : State) (c : Chain) (m : LaneIx) :
    (s.stopWindows c).laneAt m = if laneChain m = c then { s.laneAt m with endedWindow := false } else s.laneAt m := by
  refine (State.laneAt_each_setLane (fun l => { l with endedWindow := false }) (nodup_chainLanes c) _ m).trans ?_
  simp only [mem_chainLanes, State.laneAt_setChain]

theorem State.chain_stopWindows (s : State) (c : Chain) :
    (s.stopWindows c).chain = (s.setChain c (s.chainAt c).stopped).chain :=
  State.each_unchanged (f := fun u n => u.setLane n { u.laneAt n with endedWindow := false }) (fun u => u.chain)
    (fun _ _ => rfl) _ _

theorem State.chainAt_stopWindows (s : State) (c : Chain) :
    (s.stopWindows c).chainAt c = (s.chainAt c).stopped ∧ (s.stopWindows c).chainAt (otherChain c) = s.chainAt (otherChain c) := by
  have h (d : Chain) : (s.stopWindows c).chainAt d = (s.setChain c (s.chainAt c).stopped).chainAt d :=
    State.chainAt_congr (s.chain_stopWindows c) d
  exact ⟨(h c).trans (State.chainAt_setChain_same s c _),
    (h (otherChain c)).trans (State.chainAt_setChain_other s _ (otherChain_ne c))⟩

end Sys2Proof.Machine
end

section
/-! PROOFS. RELEASE, RESTART, RECALA, RECALB and the end of a calibration (02 R67, R69, R70, R79). -/

namespace Sys2Proof.Machine

variable {s t u : State} {n m : LaneIx} {c : Chain} {r : Nat} {v : Word}

/-! ## Writes of LAN_CTL (R69, R70) -/

/-- The row of LAN_CTL. -/
def laneCtlRow : RegRow := ⟨Reg.LAN_CTL 0, 0x200, 96, 4, 1, .single, 0, 0, 0, 0, 0, 3, 0, 0, 0⟩

theorem directAt_laneCtl : ∀ n : LaneIx, laneCtlRow.DirectAt (Reg.LAN_CTL n.val) := by decide +kernel

theorem familyIx_member {base stride count i : Nat} (hs : stride ≠ 0) (hi : i < count) :
    familyIx base stride count (base + stride * i) = some i := by
  refine List.find?_range_eq_some.mpr ⟨by simp, List.mem_range.mpr hi, fun j hj => ?_⟩
  have hne : stride * j ≠ stride * i := fun e => hj.ne (Nat.eq_of_mul_eq_mul_left (Nat.pos_of_ne_zero hs) e)
  simpa using hne

theorem laneNo_val : ∀ n : LaneIx, laneNo n.val = some n := by decide +kernel

theorem State.wrote_laneCtl (s t : State) (r k : Nat) (n : LaneIx) (v : Word) :
    s.wrote t r (Reg.LAN_CTL n.val) k v =
      (let s1 := if bitAt v.toNat 0 then s.releaseLane n else s
       if bitAt v.toNat 1 then s1.restartLane n else s1, none) := by
  have hlt := n.isLt
  have hb : keyBlock (Reg.LAN_CTL n.val) = 9 := by
    simp only [keyBlock, Reg.LAN_CTL]
    omega
  have hix : familyIx (Reg.LAN_CTL 0) 0x200 96 (Reg.LAN_CTL n.val) = some n.val := familyIx_member (by decide) hlt
  simp only [State.wrote, hb, State.wroteLan, hix, laneNo_val]

/-- A write of LAN_CTL that goes through releases or restarts the lane. -/
theorem State.command32_laneCtl (h : s.admits r (Reg.LAN_CTL n.val) true = true) (v : Word) :
    s.command32 r (Reg.LAN_CTL n.val) v =
      (let c := s.served r (Reg.LAN_CTL n.val)
       let s1 := if bitAt v.toNat 0 then c.releaseLane n else c
       if bitAt v.toNat 1 then s1.restartLane n else s1).answered 0 := by
  rw [State.command32_direct (directAt_laneCtl n) h, State.wrote_laneCtl, State.answerWrite_none]

theorem exec_release (r : Req) (n : LaneIx) (s : State) :
    exec (.release r n) s = .next (s.command32 r.val (Reg.LAN_CTL n.val) 1) := rfl

theorem exec_restart (r : Req) (n : LaneIx) (s : State) :
    exec (.restart r n) s = .next (s.command32 r.val (Reg.LAN_CTL n.val) 2) := rfl

theorem State.command32_release (h : s.admits r (Reg.LAN_CTL n.val) true = true) :
    s.command32 r (Reg.LAN_CTL n.val) 1 = ((s.served r (Reg.LAN_CTL n.val)).releaseLane n).answered 0 :=
  State.command32_laneCtl h 1

theorem State.command32_restart (h : s.admits r (Reg.LAN_CTL n.val) true = true) :
    s.command32 r (Reg.LAN_CTL n.val) 2 = ((s.served r (Reg.LAN_CTL n.val)).restartLane n).answered 0 :=
  State.command32_laneCtl h 2

theorem State.served_listens (s : State) (r k : Nat) (n : LaneIx) : (s.served r k).listens n = s.listens n := by
  rw [State.served_eq]
  rfl

/-- A lane that has served an access listens again as it would have before. -/
theorem State.toSearch_served (s : State) (r k : Nat) (n : LaneIx) :
    (s.served r k).toSearch n = (s.served r k).setLane n ((s.laneAt n).idle (s.listens n)) := by
  rw [State.toSearch_eq, State.served_laneAt, State.served_listens]

theorem State.releaseLane_ready (h : (s.laneAt n).state = .ready) : s.releaseLane n = s.toSearch n := by
  simp only [State.releaseLane, h]

theorem State.releaseLane_other (h : (s.laneAt n).state ≠ .ready) : s.releaseLane n = s := by
  unfold State.releaseLane
  split
  · exact absurd ‹_› h
  · rfl

theorem State.restartLane_ready (h : (s.laneAt n).state = .ready) : s.restartLane n = s.toSearch n := by
  simp only [State.restartLane, h]

theorem State.restartLane_still (h : (s.laneAt n).state = .off ∨ (s.laneAt n).state = .search ∨ (s.laneAt n).state = .blank) :
    s.restartLane n = s := by
  rcases h with h | h | h <;> simp only [State.restartLane, h]

theorem Lane.idle_idle {l : Lane} (h : l.state ≠ .off) (st st' : LaneState) : (l.idle st).idle st' = l.idle st' := by
  have hran : (l.state != .off) = true := bne_iff_ne.mpr h
  simp [Lane.idle, hran]

/-- A lane with a frame in progress discards it and listens again. -/
theorem State.restartLane_discards
    (h : (s.laneAt n).state = .header ∨ (s.laneAt n).state = .payload ∨ (s.laneAt n).state = .drain) :
    s.restartLane n =
      ((s.dropCodewords n).bump (F.LAN_ABORT_COUNT n.val)).setLane n ((s.laneAt n).idle (s.listens n)) := by
  have hoff : (s.laneAt n).state ≠ .off := by rcases h with h | h | h <;> rw [h] <;> decide
  have habort : s.restartLane n = (s.abortFrame n .search).toSearch n := by
    rcases h with h | h | h <;> simp only [State.restartLane, h]
  have hlistens : (s.abortFrame n .search).listens n = s.listens n :=
    (ReceiveFrame.abortFrame s n .search).laneGoes (fun _ => not_abortKey_of_laneTableKey) n .search
  rw [habort, State.toSearch_eq, hlistens, State.abortFrame, State.laneAt_setLane_same, State.setLane_setLane]
  exact congrArg _ (Lane.idle_idle hoff _ _)

/-! ## Writes of RXC_CMD (R79) -/

/-- A write of RXC_CMD that goes through calibrates the chains it names. -/
theorem State.command32_rxcCmd (h : s.admits r Reg.RXC_CMD true = true) (v : Word) :
    s.command32 r Reg.RXC_CMD v =
      (let u := s.served r Reg.RXC_CMD
       let s1 := if bitAt v.toNat 0 then u.recalChain .a else u
       if bitAt v.toNat 1 then s1.recalChain .b else s1).answered 0 := by
  have hrow : rowAt Reg.RXC_CMD = some ⟨Reg.RXC_CMD, 4, 1, 4, 1, .single, 0, 0, 0, 0, 0, 3, 0, 0, 0⟩ := by decide +kernel
  rw [State.command32_row h (by decide) (by decide) hrow, State.writeRow_direct rfl rfl (by decide), State.keyOf_single rfl]
  rfl

theorem exec_recalA (r : Req) (s : State) : exec (.recalA r) s = .next (s.command32 r.val Reg.RXC_CMD 1) := rfl

theorem exec_recalB (r : Req) (s : State) : exec (.recalB r) s = .next (s.command32 r.val Reg.RXC_CMD 2) := rfl

theorem State.command32_recalA (h : s.admits r Reg.RXC_CMD true = true) :
    s.command32 r Reg.RXC_CMD 1 = ((s.served r Reg.RXC_CMD).recalChain .a).answered 0 := State.command32_rxcCmd h 1

theorem State.command32_recalB (h : s.admits r Reg.RXC_CMD true = true) :
    s.command32 r Reg.RXC_CMD 2 = ((s.served r Reg.RXC_CMD).recalChain .b).answered 0 := State.command32_rxcCmd h 2

theorem State.served_chainEnabled (s : State) (r k : Nat) (c : Chain) : (s.served r k).chainEnabled c = s.chainEnabled c := by
  rw [State.served_eq]
  cases c <;> rfl

theorem State.recalChain_enabled (h : s.chainEnabled c = true) : s.recalChain c = s.calibrateChain c := if_pos h

theorem State.recalChain_disabled (h : s.chainEnabled c = false) : s.recalChain c = s := if_neg (by rw [h]; decide)

/-! ## A chain begins to calibrate (R79, R487) -/

theorem State.flags_of_chainMarks {x : Nat} {b : Bool} (h : t.chainMarks c = (x, b)) :
    t.flag (F.RXC_STAT_CAL (chainNo c)) = (x == 1) ∧ t.bit Reg.SYS_READY (24 + chainNo c) = b := by
  obtain ⟨hcal, hready⟩ := Prod.mk.inj h
  exact ⟨by rw [State.flag, hcal], hready⟩

/-- The registers that a calibration and what follows from it may change. -/
def calibrationKey (c : Chain) (k : Nat) : Prop := chainKey c k ∨ abortKey k

theorem State.calibrateChain_eq (s : State) (c : Chain) : s.calibrateChain c = ((s.markChain c 1).stopWindows c).reconcile := rfl

theorem ReceiveFrame.startCalibration (s : State) (c : Chain) :
    ReceiveFrame (chainKey c) s ((s.markChain c 1).stopWindows c) :=
  (ReceiveFrame.markChain s c 1).trans (.stopWindows _ _ c)

theorem ReceiveFrame.calibrateChain (s : State) (c : Chain) : ReceiveFrame (calibrationKey c) s (s.calibrateChain c) :=
  ((ReceiveFrame.startCalibration s c).mono (fun _ => .inl)).trans ((ReceiveFrame.reconcile _).mono (fun _ => .inr))

theorem State.chainMarks_calibrateChain (hc : s.canonical = true) (c : Chain) : (s.calibrateChain c).chainMarks c = (1, false) := by
  rw [State.calibrateChain_eq, (ReceiveFrame.reconcile _).chainMarks (fun _ => not_abortKey_of_chainKey),
    (ReceiveFrame.stopWindows (fun _ => False) _ c).chainMarks (fun _ _ => id), State.chainMarks_markChain_same hc]

theorem State.chainAt_calibrateChain (s : State) (c : Chain) :
    (s.calibrateChain c).chainAt c = (s.chainAt c).stopped ∧
      (s.calibrateChain c).chainAt (otherChain c) = s.chainAt (otherChain c) := by
  obtain ⟨hown, hother⟩ := (s.markChain c 1).chainAt_stopWindows c
  exact ⟨(State.chainAt_congr (State.chain_reconcile _) c).trans hown,
    (State.chainAt_congr (State.chain_reconcile _) (otherChain c)).trans hother⟩

theorem State.laneAt_startCalibration (s : State) (c : Chain) (m : LaneIx) :
    ((s.markChain c 1).stopWindows c).laneAt m =
      if laneChain m = c then { s.laneAt m with endedWindow := false } else s.laneAt m :=
  State.laneAt_stopWindows (s.markChain c 1) c m

theorem State.state_startCalibration (s : State) (c : Chain) (m : LaneIx) :
    (((s.markChain c 1).stopWindows c).laneAt m).state = (s.laneAt m).state := by
  rw [State.laneAt_startCalibration]
  split <;> rfl

theorem State.startCalibration_canonical (hc : s.canonical = true) (c : Chain) :
    ((s.markChain c 1).stopWindows c).canonical = true :=
  (State.keeps_startCalibration (Keeps.refl s) c).canon hc

theorem State.state_calibrateChain (s : State) (c : Chain) (m : LaneIx) :
    ((s.calibrateChain c).laneAt m).state = (s.calibrateChain c).laneGoes m (s.laneAt m).state := by
  obtain ⟨hstate, -⟩ := State.laneAt_reconcile ((s.markChain c 1).stopWindows c) m
  rw [State.state_startCalibration] at hstate
  exact hstate.trans (State.laneGoes_reconcile _ _ _).symm

theorem State.laneAt_calibrateChain_stays (hc : s.canonical = true)
    (h : (s.calibrateChain c).laneGoes m (s.laneAt m).state = (s.laneAt m).state) :
    (s.calibrateChain c).laneAt m = if laneChain m = c then { s.laneAt m with endedWindow := false } else s.laneAt m := by
  rw [State.calibrateChain_eq, State.laneGoes_reconcile, ← State.state_startCalibration s c m] at h
  exact (State.laneAt_reconcile_stays (State.startCalibration_canonical hc c) h).trans (State.laneAt_startCalibration s c m)

/-- The frame of lane `m` is lost where the table takes the lane out of HEADER or PAYLOAD. -/
def State.losesFrame (s t : State) (m : LaneIx) : Bool :=
  ((s.laneAt m).state == .header || (s.laneAt m).state == .payload) && (t.laneGoes m (s.laneAt m).state != (s.laneAt m).state)

theorem State.abortCount_calibrateChain (hc : s.canonical = true) (c : Chain) (m : LaneIx) :
    (s.calibrateChain c).get (F.LAN_ABORT_COUNT m.val) =
      (if s.losesFrame (s.calibrateChain c) m then s.bump (F.LAN_ABORT_COUNT m.val) else s).get (F.LAN_ABORT_COUNT m.val) := by
  have hw : 0 + 16 ≤ 32 := by omega
  have hcanon := State.startCalibration_canonical hc c
  have hkey : ¬chainKey c (Reg.LAN_ABORT m.val) := fun h => not_abortKey_of_chainKey h ⟨m, rfl⟩
  have hget := (ReceiveFrame.startCalibration s c).get (f := F.LAN_ABORT_COUNT m.val) hkey
  have hlost : s.losesFrame (s.calibrateChain c) m = true ↔
      ((s.laneAt m).state = .header ∨ (s.laneAt m).state = .payload) ∧
        ((s.markChain c 1).stopWindows c).laneGoes m (s.laneAt m).state ≠ (s.laneAt m).state := by
    simp only [State.losesFrame, State.calibrateChain_eq, State.laneGoes_reconcile, Bool.and_eq_true, Bool.or_eq_true, beq_iff_eq,
      bne_iff_ne]
  rw [State.calibrateChain_eq, State.abortCount_reconcile hcanon, State.get_bump_same hcanon _ hw, State.state_startCalibration,
    ← State.calibrateChain_eq, hget]
  by_cases h : s.losesFrame (s.calibrateChain c) m = true
  · rw [if_pos (hlost.mp h), if_pos h, State.get_bump_same hc _ hw]
  · rw [if_neg (fun x => h (hlost.mpr x)), if_neg h]

/-! ## A calibration ends (R79, 01 R28) -/

/-- The registers of chain `c` say that it calibrates no more and is ready. -/
def State.readyChain (s : State) (c : Chain) : State := (s.put (F.RXC_STAT_CAL (chainNo c)) 0).put (readyFld c) 1

theorem exec_synthCalibrationComplete (c : Chain) (s : State) :
    exec (.synthCalibrationComplete c) s =
      .next (if s.flag (F.RXC_STAT_CAL (chainNo c)) && s.awake then (s.readyChain c).reconcile else s) := rfl

theorem ReceiveFrame.readyChain (s : State) (c : Chain) : ReceiveFrame (chainKey c) s (s.readyChain c) :=
  (ReceiveFrame.put s (F.RXC_STAT_CAL (chainNo c)) 0 (.inl rfl)).trans (ReceiveFrame.put _ (readyFld c) 1 (.inr rfl))

theorem ReceiveFrame.readyChain_reconcile (s : State) (c : Chain) :
    ReceiveFrame (calibrationKey c) s (s.readyChain c).reconcile :=
  ((ReceiveFrame.readyChain s c).mono (fun _ => .inl)).trans ((ReceiveFrame.reconcile _).mono (fun _ => .inr))

theorem State.readyChain_canonical (hc : s.canonical = true) (c : Chain) : (s.readyChain c).canonical = true :=
  State.canonical_put (State.canonical_put hc _ _) _ _

theorem State.chainMarks_readyChain (hc : s.canonical = true) (c : Chain) : (s.readyChain c).chainMarks c = (0, true) := by
  have hlt := chainNo_lt c
  have hcal := (State.get_put_key _ (f := readyFld c) (g := F.RXC_STAT_CAL (chainNo c)) 1 (rxcStat_ne_ready c)).trans
    (State.get_put_same hc (F.RXC_STAT_CAL (chainNo c)) 0 (show 5 + 1 ≤ 32 by omega))
  have hready := State.get_put_same (State.canonical_put hc (F.RXC_STAT_CAL (chainNo c)) 0) (readyFld c) 1
    (show 24 + chainNo c + 1 ≤ 32 by omega)
  rw [State.chainMarks, State.bit_ready, State.flag, State.readyChain, hcal, hready]
  rfl

theorem State.chainMarks_readyChain_reconcile (hc : s.canonical = true) (c : Chain) :
    (s.readyChain c).reconcile.chainMarks c = (0, true) := by
  rw [(ReceiveFrame.reconcile _).chainMarks (fun _ => not_abortKey_of_chainKey), State.chainMarks_readyChain hc]

/-! ## The settling -/

theorem State.served_chainAt (s : State) (r k : Nat) (c : Chain) : (s.served r k).chainAt c = s.chainAt c := by
  rw [State.served_eq]
  cases c <;> rfl

theorem State.served_losesFrame (s t : State) (r k : Nat) (m : LaneIx) : (s.served r k).losesFrame t m = s.losesFrame t m := by
  simp only [State.losesFrame, State.served_laneAt]

theorem State.served_bumpIf_get (s : State) (r k : Nat) (b : Bool) (f : Fld) :
    (if b then (s.served r k).bump f else s.served r k).get f = (if b then s.bump f else s).get f := by
  cases b
  · exact State.served_get r k f
  · rw [State.served_eq]
    rfl

theorem ReceiveFrame.others {K : Nat → Prop} (h : ReceiveFrame K s t) :
    t.act = s.act ∧ t.mem = s.mem ∧ t.sfm = s.sfm ∧ t.eng = s.eng := by
  rw [h.parts]
  exact ⟨rfl, rfl, rfl, rfl⟩

/-- What a recalibration that goes through leaves behind, for either chain. -/
theorem State.recalChain_effects (hc : s.canonical = true) (hon : s.chainEnabled c = true) (r k : Nat) :
    let t := ((s.served r k).recalChain c).answered 0
    t.flag (F.RXC_STAT_CAL (chainNo c)) = true ∧ t.bit Reg.SYS_READY (24 + chainNo c) = false ∧
      t.chainAt c = (s.chainAt c).stopped ∧ t.chainAt (otherChain c) = s.chainAt (otherChain c) ∧
      (∀ m : LaneIx, (t.laneAt m).state = t.laneGoes m (s.laneAt m).state ∧ t.get (F.LAN_ABORT_COUNT m.val) =
        (if s.losesFrame t m then s.bump (F.LAN_ABORT_COUNT m.val) else s).get (F.LAN_ABORT_COUNT m.val)) ∧
      (∀ m : LaneIx, t.laneGoes m (s.laneAt m).state = (s.laneAt m).state → t.laneAt m =
        if laneChain m = c then { s.laneAt m with endedWindow := false } else s.laneAt m) ∧
      (∀ j : Nat, ¬calibrationKey c j → t.reg j = s.reg j) ∧
      t.act = s.act ∧ t.mem = s.mem ∧ t.sfm = s.sfm ∧ t.eng = s.eng ∧ t.err = false := by
  have hu : (s.served r k).canonical = true := (State.keeps_served (Keeps.refl s) r k).canon hc
  have hstate := (s.served r k).state_calibrateChain c
  have hstay (m : LaneIx) := State.laneAt_calibrateChain_stays (m := m) (c := c) hu
  have hcount (m : LaneIx) : ((s.served r k).calibrateChain c).get (F.LAN_ABORT_COUNT m.val) =
      (if s.losesFrame ((s.served r k).calibrateChain c) m then s.bump (F.LAN_ABORT_COUNT m.val) else s).get
        (F.LAN_ABORT_COUNT m.val) := by
    rw [State.abortCount_calibrateChain hu, State.served_bumpIf_get, State.served_losesFrame]
  have hreg := (ReceiveFrame.calibrateChain (s.served r k) c).reg
  obtain ⟨hcal, hready⟩ := State.flags_of_chainMarks (State.chainMarks_calibrateChain hu c)
  obtain ⟨hown, hother⟩ := (s.served r k).chainAt_calibrateChain c
  obtain ⟨hact, hmem, hsfm, heng⟩ := (ReceiveFrame.calibrateChain (s.served r k) c).others
  obtain ⟨pact, pmem, psfm, peng⟩ : (s.served r k).act = s.act ∧ (s.served r k).mem = s.mem ∧ (s.served r k).sfm = s.sfm ∧
      (s.served r k).eng = s.eng := by
    rw [State.served_eq]
    exact ⟨rfl, rfl, rfl, rfl⟩
  rw [State.recalChain_enabled ((s.served_chainEnabled r k c).trans hon)]
  generalize (s.served r k).calibrateChain c = x at *
  simp only [State.served_chainAt, State.served_laneAt, State.served_reg] at hown hother hstate hstay hreg
  exact ⟨hcal, hready, hown, hother, fun m => ⟨hstate m, hcount m⟩, hstay, hreg, hact.trans pact, hmem.trans pmem,
    hsfm.trans psfm, heng.trans peng, rfl⟩

theorem not_calibrationKey {k : Nat} (h : ¬(k = Reg.RXC_STAT (chainNo c) ∨ k = Reg.SYS_READY ∨ ∃ m : LaneIx, k = Reg.LAN_ABORT m.val)) :
    ¬calibrationKey c k := fun hk => h (or_assoc.mp hk)

/-- What the end of a calibration leaves behind. -/
theorem State.readyChain_effects (hc : s.canonical = true) (c : Chain) :
    let t := (s.readyChain c).reconcile
    t.flag (F.RXC_STAT_CAL (chainNo c)) = false ∧ t.bit Reg.SYS_READY (24 + chainNo c) = true ∧
      (∀ m : LaneIx, (t.laneAt m).state = t.laneGoes m (s.laneAt m).state) ∧
      (∀ m : LaneIx, t.laneGoes m (s.laneAt m).state = (s.laneAt m).state → t.laneAt m = s.laneAt m) ∧
      (∀ k : Nat, ¬calibrationKey c k → t.reg k = s.reg k) ∧
      t.act = s.act ∧ t.mem = s.mem ∧ t.sfm = s.sfm ∧ t.eng = s.eng ∧ t.chain = s.chain := by
  intro t
  have hframe := ReceiveFrame.readyChain_reconcile s c
  have hcanon := State.readyChain_canonical hc c
  obtain ⟨hcal, hready⟩ := State.flags_of_chainMarks (State.chainMarks_readyChain_reconcile hc c)
  have hgoes (m : LaneIx) (st : LaneState) : t.laneGoes m st = (s.readyChain c).laneGoes m st := State.laneGoes_reconcile _ m st
  refine ⟨hcal, hready, fun m => ?_, fun m h => ?_, hframe.reg, ?_⟩
  · obtain ⟨hstate, -⟩ := State.laneAt_reconcile (s.readyChain c) m
    exact hstate.trans (hgoes m _).symm
  · exact State.laneAt_reconcile_stays hcanon ((hgoes m _).symm.trans h)
  · obtain ⟨hact, hmem, hsfm, heng⟩ := hframe.others
    exact ⟨hact, hmem, hsfm, heng, State.chain_reconcile _⟩

/-- Settles O41: the two commands of LAN_CTL by the lane's state, those of RXC_CMD and the end of a calibration by the table of R67. -/
theorem releaseRestartAndRecalibration : Obligations.ReleaseRestartAndRecalibration := by
  refine ⟨fun s r n h => ?_, fun s r h => ?_, fun s c => ?_⟩
  · intro c st
    have hst : (c.laneAt n).state = st := by simp only [c, st, State.served_laneAt]
    have hlane : c.laneAt n = s.laneAt n := State.served_laneAt _ _ n
    rw [exec_release, exec_restart, State.command32_release h, State.command32_restart h]
    refine ⟨fun hr => ?_, fun hr => ?_, fun hr => ?_, fun hr => ?_, fun hr => ?_⟩ <;> rw [← hst] at hr
    · rw [State.releaseLane_ready hr, State.toSearch_served]
    · rw [State.releaseLane_other hr]
    · rw [State.restartLane_ready hr, State.toSearch_served]
    · rw [State.restartLane_still hr]
    · rw [State.restartLane_discards hr, hlane, State.served_listens]
  · intro u lost noted begun
    rw [exec_recalA, exec_recalB, State.command32_recalA h, State.command32_recalB h]
    have hbegun (c : Chain) (hc : s.canonical = true) (hon : s.chainEnabled c = true) :
        begun c ((u.recalChain c).answered 0) := by
      obtain ⟨hcal, hready, hown, hother, hlanes, hstay, hreg, hrest⟩ := State.recalChain_effects hc hon r.val Reg.RXC_CMD
      exact ⟨hcal, hready, hown, hother, hlanes, hstay, fun k hk => hreg k (not_calibrationKey hk), hrest⟩
    refine ⟨fun hc hon => ⟨_, rfl, hbegun .a hc hon⟩, fun hc hon => ⟨_, rfl, hbegun .b hc hon⟩, fun hoff => ?_, fun hoff => ?_⟩
    · rw [State.recalChain_disabled ((s.served_chainEnabled _ _ .a).trans hoff)]
    · rw [State.recalChain_disabled ((s.served_chainEnabled _ _ .b).trans hoff)]
  · intro noted
    rw [exec_synthCalibrationComplete]
    refine ⟨fun hc hcal hawake => ?_, fun h => ?_⟩
    · rw [hcal, hawake]
      obtain ⟨hflag, hready, hlanes, hstay, hreg, hrest⟩ := State.readyChain_effects hc c
      exact ⟨_, rfl, hflag, hready, hlanes, hstay, fun k hk => hreg k (not_calibrationKey hk), hrest⟩
    · rcases h with h | h <;> simp [h]

end Sys2Proof.Machine
end

section
/-! PROOFS. What the chains measure (02 R47 to R56, R76, R80, R81, 03 R110): the power in whole dBm, the gain controller, clips, noise,
tracking and wake codes. -/

namespace Sys2Proof.Machine

variable {s t u : State} {n m : LaneIx} {c : Chain} {k : Nat}

/-! ## Fields whose new value is not the reset value -/

/-- A value that is not the default is listed, whatever stands in the map. -/
theorem AMap.look_put_of_ne {α : Type} [DecidableEq α] {d : Nat → α} (m : List (Nat × α)) {v : α} (h : v ≠ d k) :
    AMap.look d (AMap.put d m k v) k = v := by
  induction m with
  | nil => simp [AMap.put, AMap.look, h]
  | cons e m ih =>
    obtain ⟨i, w⟩ := e
    rcases lt_trichotomy k i with hlt | heq | hgt
    · simp [AMap.put, AMap.look, hlt, h]
    · simp [AMap.put, AMap.look, heq, heq ▸ h]
    · have hnlt : ¬k < i := hgt.not_gt
      simpa [AMap.put, AMap.look, hnlt, hgt.ne'] using ih

/-- A field reads what was put in it, in any state, where that is not the field's reset value. -/
theorem State.get_put_of_reset (s : State) (f : Fld) (n : Nat) (hf : f.lo + f.width ≤ 32)
    (hr : bitsOf (resetVal f.key).toNat f.lo f.width ≠ n % 2 ^ f.width) : (s.put f n).get f = n % 2 ^ f.width := by
  have hbits : bitsOf (BitVec.ofNat 32 (setBits (s.reg f.key).toNat f.lo f.width n)).toNat f.lo f.width = n % 2 ^ f.width := by
    rw [BitVec.toNat_ofNat, Nat.mod_eq_of_lt (setBits_lt (s.reg f.key).isLt hf), bitsOf_setBits_same]
  have hne : BitVec.ofNat 32 (setBits (s.reg f.key).toNat f.lo f.width n) ≠ resetVal f.key := fun e => hr (e ▸ hbits)
  have hreg : (s.put f n).reg f.key = BitVec.ofNat 32 (setBits (s.reg f.key).toNat f.lo f.width n) := AMap.look_put_of_ne s.regs hne
  rw [State.get, hreg, hbits]

/-! ## Powers in whole dBm (R76) -/

/-- The search ends with a value of its range that meets the predicate, or with the lowest; no greater value of the range does. -/
theorem largestWith_spec (lo : Int) (n : Nat) (p : Int → Bool) :
    lo ≤ largestWith lo n p ∧ largestWith lo n p ≤ lo + (n - 1 : Nat) ∧
      (largestWith lo n p = lo ∨ p (largestWith lo n p) = true) ∧
      ∀ x : Int, largestWith lo n p < x → x < lo + n → p x = false := by
  induction n with
  | zero => exact ⟨le_rfl, by simp [largestWith], .inl rfl, fun x h1 h2 => by simp [largestWith] at h1 h2; omega⟩
  | succ n ih =>
    obtain ⟨hlo, hhi, hp, habove⟩ := ih
    rw [largestWith]
    cases htop : p (lo + n) with
    | true => exact ⟨by simp, by simp, .inr (by simpa using htop), fun x h1 h2 => by simp at h1 h2; omega⟩
    | false =>
      refine ⟨hlo, ?_, hp, fun x h1 h2 => ?_⟩
      · simp only [Bool.false_eq_true, if_false]
        omega
      · rcases lt_or_eq_of_le (show x ≤ lo + n by push_cast at h2; omega) with h | h
        · exact habove x h1 h
        · exact h ▸ htop

/-- The reading of a power: the greatest d from −127 to 127 with 10·log10 of it at least d − 1/2 dBm. -/
theorem dbmRounded_spec (p : Nat) :
    -127 ≤ dbmRounded p ∧ dbmRounded p ≤ 127 ∧ (dbmRounded p = -127 ∨ 10 ^ (2 * dbmRounded p + 299).toNat ≤ p ^ 20) ∧
      ∀ d : Int, dbmRounded p < d → d ≤ 127 → p ^ 20 < 10 ^ (2 * d + 299).toNat := by
  obtain ⟨hlo, hhi, hp, habove⟩ := largestWith_spec (-127) 255 (fun d => decide (10 ^ (2 * d + 299).toNat ≤ p ^ 20))
  refine ⟨hlo, hhi, hp.imp_right of_decide_eq_true, fun d h1 h2 => ?_⟩
  exact not_le.mp (of_decide_eq_false (habove d h1 (by omega)))

/-! ## The gain controller (R48 to R54) -/

/-- The gain index after a window with peak reading `p`: held, or as R50, R51 and R54 choose it. -/
def State.chosenGain (s : State) (c : Chain) (p : Int) : Nat :=
  if (s.chainAt c).busyWindow || s.chainHolds c then s.get (F.RXC_STAT_IDX (chainNo c)) else s.nextGain c p

/-- A chain listens: it is enabled, and neither blanked nor calibrating. -/
def State.chainListens (s : State) (c : Chain) : Bool := s.chainEnabled c && !s.chainDark c

theorem exec_decisionWindowEnd_listens (h : s.chainListens c = true) (peak : Int) :
    exec (.decisionWindowEnd c peak) s =
      .next ((((s.put (F.RXC_STAT_PEAK (chainNo c)) (ofSigned 8 (peakReading peak))).put (F.RXC_STAT_IDX (chainNo c))
        (s.chosenGain c (peakReading peak))).setChain c
          { s.chainAt c with clipWindow := false, busyWindow := s.chainHolds c, sinceClip := ageClip (s.chainAt c).sinceClip
                             settling := (s.chainAt c).settling ||
                               s.chosenGain c (peakReading peak) != s.get (F.RXC_STAT_IDX (chainNo c)) }).each (chainLanes c)
        (fun s n => s.setLane n { s.laneAt n with endedWindow := false })) :=
  congrArg Host.Outcome.next (if_pos h)

theorem exec_decisionWindowEnd_deaf (h : s.chainListens c = false) (peak : Int) :
    exec (.decisionWindowEnd c peak) s = .next s :=
  congrArg Host.Outcome.next (if_neg (ne_true_of_eq_false h))

/-! ## A gain change has settled (R52) -/

/-- A lane in SEARCH starts its loops afresh. -/
def State.restartLoops (s : State) (n : LaneIx) : State :=
  if (s.laneAt n).state = .search then s.setLane n ((s.laneAt n).idle .search) else s

theorem exec_gainSettled (c : Chain) (s : State) :
    exec (.gainSettled c) s = .next (if (s.chainAt c).settling then
      (s.setChain c { s.chainAt c with settling := false }).each (chainLanes c) State.restartLoops else s) := by
  have h : (fun (s : State) (n : LaneIx) =>
      match (s.laneAt n).state with
      | .search => s.setLane n ((s.laneAt n).idle .search)
      | _ => s) = State.restartLoops := by
    funext s n
    unfold State.restartLoops
    cases (s.laneAt n).state <;> rfl
  rw [← h]
  rfl

theorem State.restartLoops_parts (s : State) (n : LaneIx) : s.restartLoops n = { s with lane := (s.restartLoops n).lane } := by
  unfold State.restartLoops
  split <;> rfl

theorem State.laneAt_restartLoops_same (s : State) (m : LaneIx) :
    (s.restartLoops m).laneAt m = if (s.laneAt m).state = .search then (s.laneAt m).idle .search else s.laneAt m := by
  unfold State.restartLoops
  split
  · exact State.laneAt_setLane_same s m _
  · rfl

theorem State.laneAt_restartLoops_other (s : State) (h : n ≠ m) : (s.restartLoops n).laneAt m = s.laneAt m := by
  unfold State.restartLoops
  split
  · exact State.laneAt_setLane_other s _ h.symm
  · rfl

theorem State.laneAt_each_restartLoops (s : State) (c : Chain) (m : LaneIx) :
    (s.each (chainLanes c) State.restartLoops).laneAt m =
      if laneChain m = c ∧ (s.laneAt m).state = .search then (s.laneAt m).idle .search else s.laneAt m := by
  have h := State.each_at (f := State.restartLoops) (g := fun u => u.laneAt m) (I := fun _ => True)
    (F := fun l => if l.state = .search then l.idle .search else l)
    (fun _ _ _ => trivial) (fun u _ h => u.laneAt_restartLoops_other h) (fun u _ => u.laneAt_restartLoops_same m)
    (nodup_chainLanes c) (s := s) trivial
  rw [h]
  simp only [mem_chainLanes, ite_and]

theorem State.each_restartLoops_parts (s : State) (c : Chain) :
    let t := s.each (chainLanes c) State.restartLoops
    t.chain = s.chain ∧ t.regs = s.regs ∧ t.act = s.act ∧ t.mem = s.mem ∧ t.sfm = s.sfm := by
  have h := State.each_unchanged (f := State.restartLoops) (fun u => (u.chain, u.regs, u.act, u.mem, u.sfm))
    (fun u n => by rw [State.restartLoops_parts]) (chainLanes c) s
  simpa only [Prod.mk.injEq] using h

/-- What a settled gain change leaves behind. -/
theorem State.gainSettled_effects (s : State) (c : Chain) :
    let t := (s.setChain c { s.chainAt c with settling := false }).each (chainLanes c) State.restartLoops
    t.chainAt c = { s.chainAt c with settling := false } ∧ t.chainAt (otherChain c) = s.chainAt (otherChain c) ∧
      (∀ m : LaneIx, t.laneAt m =
        if laneChain m = c ∧ (s.laneAt m).state = .search then (s.laneAt m).idle .search else s.laneAt m) ∧
      t.regs = s.regs ∧ t.act = s.act ∧ t.mem = s.mem ∧ t.sfm = s.sfm := by
  obtain ⟨hchain, hregs, hact, hmem, hsfm⟩ :=
    (s.setChain c { s.chainAt c with settling := false }).each_restartLoops_parts c
  refine ⟨(State.chainAt_congr hchain c).trans (State.chainAt_setChain_same s c _),
    (State.chainAt_congr hchain _).trans (State.chainAt_setChain_other s _ (otherChain_ne c)), fun m => ?_,
    hregs.trans (s.setChain_regs c _), hact.trans (s.setChain_act c _), hmem.trans (s.setChain_mem c _),
    hsfm.trans (s.setChain_sfm c _)⟩
  rw [State.laneAt_each_restartLoops, State.laneAt_setChain]

/-! ## A clip (R53, log entry 116) -/

/-- The lane with CLIP in its frame's marks. -/
def Lane.clipped (l : Lane) : Lane := { l with frame := { l.frame with marks := { l.frame.marks with clip := true } } }

/-- The lane's frame is on air in the present window: in HEADER or PAYLOAD, or ended within it. -/
abbrev Lane.onAir (l : Lane) : Prop := l.state = .header ∨ l.state = .payload ∨ (l.state = .drain ∧ l.endedWindow = true)

/-- A frame on air in the window carries CLIP; one that is READY by then carries it in its descriptor. -/
def State.markClip (s : State) (n : LaneIx) : State :=
  let l := s.laneAt n
  match l.state with
  | .header => s.setLane n l.clipped
  | .payload => s.setLane n l.clipped
  | .drain => if l.endedWindow then s.setLane n l.clipped else s
  | .ready => if l.endedWindow then s.raise (F.LAN_FD0_CLIP n.val) else s
  | _ => s

/-- The first clip of a window as the chain itself notes it. -/
def State.noteClip (s : State) (c : Chain) : State :=
  ((s.bump (F.RXC_CLIP_COUNT (chainNo c))).pulse (64 + chainNo c)).setChain c
    { s.chainAt c with clipWindow := true, sinceClip := some 0 }

theorem exec_adcClip (c : Chain) (s : State) :
    exec (.adcClip c) s = .next (if s.chainListens c && !(s.chainAt c).clipWindow then
      (s.noteClip c).each (chainLanes c) State.markClip else s) := by
  cases c <;> rfl

/-- A lane is marked, its descriptor is, or neither. -/
theorem State.markClip_cases (s : State) (n : LaneIx) :
    ((s.laneAt n).onAir ∧ s.markClip n = s.setLane n (s.laneAt n).clipped) ∨
      (((s.laneAt n).state = .ready ∧ (s.laneAt n).endedWindow = true) ∧ s.markClip n = s.put (F.LAN_FD0_CLIP n.val) 1) ∨
      (¬(s.laneAt n).onAir ∧ ¬((s.laneAt n).state = .ready ∧ (s.laneAt n).endedWindow = true) ∧ s.markClip n = s) := by
  unfold State.markClip
  dsimp only [Lane.onAir]
  generalize hst : (s.laneAt n).state = st
  generalize hended : (s.laneAt n).endedWindow = b
  cases st <;> cases b <;> simp [State.raise_eq]

theorem fd0Clip_reset : ∀ m : LaneIx, bitsOf (resetVal (Reg.LAN_FD0 m.val)).toNat 21 1 ≠ 1 % 2 ^ 1 := by decide +kernel

theorem State.get_fd0Clip_raised (s : State) (m : LaneIx) :
    (s.put (F.LAN_FD0_CLIP m.val) 1).get (F.LAN_FD0_CLIP m.val) = 1 :=
  s.get_put_of_reset (F.LAN_FD0_CLIP m.val) 1 (show 21 + 1 ≤ 32 by omega) (fd0Clip_reset m)

theorem lanFd0_ne (h : n ≠ m) : Reg.LAN_FD0 m.val ≠ Reg.LAN_FD0 n.val := by
  have hv : n.val ≠ m.val := fun e => h (Fin.ext e)
  simp only [Reg.LAN_FD0]
  omega

theorem rxcClip_ne_lanFd0 (c : Chain) (n : LaneIx) : Reg.RXC_CLIP (chainNo c) ≠ Reg.LAN_FD0 n.val := by
  have hlt := chainNo_lt c
  simp only [Reg.RXC_CLIP, Reg.LAN_FD0]
  omega

/-- A lane and CLIP of its descriptor. -/
def State.laneClip (s : State) (m : LaneIx) : Lane × Nat := (s.laneAt m, s.get (F.LAN_FD0_CLIP m.val))

/-- What a clip makes of a lane and of CLIP in its descriptor. -/
def clipEffect (x : Lane × Nat) : Lane × Nat :=
  (if x.1.onAir then x.1.clipped else x.1, if x.1.state = .ready ∧ x.1.endedWindow = true then 1 else x.2)

theorem not_ready_of_onAir {l : Lane} (h : l.onAir) : ¬(l.state = .ready ∧ l.endedWindow = true) := by
  rintro ⟨hr, -⟩
  rcases h with h | h | ⟨h, -⟩ <;> exact absurd (hr.symm.trans h) (by decide)

theorem State.laneClip_markClip_same (s : State) (m : LaneIx) : (s.markClip m).laneClip m = clipEffect (s.laneClip m) := by
  rcases s.markClip_cases m with ⟨hair, h⟩ | ⟨hready, h⟩ | ⟨hair, hready, h⟩ <;> rw [h]
  · exact Prod.ext ((State.laneAt_setLane_same s m _).trans (if_pos hair).symm) (if_neg (not_ready_of_onAir hair)).symm
  · have hair : ¬(s.laneAt m).onAir := fun h => not_ready_of_onAir h hready
    exact Prod.ext (if_neg hair).symm ((s.get_fd0Clip_raised m).trans (if_pos hready).symm)
  · exact Prod.ext (if_neg hair).symm (if_neg hready).symm

theorem State.laneClip_markClip_other (s : State) (h : n ≠ m) : (s.markClip n).laneClip m = s.laneClip m := by
  rcases s.markClip_cases n with ⟨-, hm⟩ | ⟨-, hm⟩ | ⟨-, -, hm⟩ <;> rw [hm]
  · exact Prod.ext (State.laneAt_setLane_other s _ h.symm) rfl
  · exact Prod.ext rfl (State.get_put_key s (f := F.LAN_FD0_CLIP n.val) (g := F.LAN_FD0_CLIP m.val) 1 (lanFd0_ne h))

theorem State.laneClip_each_markClip (s : State) (c : Chain) (m : LaneIx) :
    (s.each (chainLanes c) State.markClip).laneClip m = if laneChain m = c then clipEffect (s.laneClip m) else s.laneClip m := by
  have h := State.each_at (f := State.markClip) (g := fun u => u.laneClip m) (I := fun _ => True) (F := clipEffect)
    (fun _ _ _ => trivial) (fun u _ h => u.laneClip_markClip_other h) (fun u _ => u.laneClip_markClip_same m)
    (nodup_chainLanes c) (s := s) trivial
  rw [h]
  simp only [mem_chainLanes]

/-- The marks of a clip lie in the lanes and their descriptors. -/
theorem State.each_markClip_parts (s : State) (c d : Chain) :
    let t := s.each (chainLanes c) State.markClip
    t.reg (Reg.RXC_CLIP (chainNo d)) = s.reg (Reg.RXC_CLIP (chainNo d)) ∧ t.chain = s.chain ∧ t.pulses = s.pulses ∧
      t.act = s.act ∧ t.mem = s.mem ∧ t.sfm = s.sfm ∧ t.events = s.events := by
  have h := State.each_unchanged (f := State.markClip)
    (fun u => (u.reg (Reg.RXC_CLIP (chainNo d)), u.chain, u.pulses, u.act, u.mem, u.sfm, u.events)) (fun u n => ?_) (chainLanes c) s
  · simpa only [Prod.mk.injEq] using h
  · rcases u.markClip_cases n with ⟨-, hm⟩ | ⟨-, hm⟩ | ⟨-, -, hm⟩ <;> rw [hm]
    · rfl
    · exact Prod.ext (State.reg_setReg_other u _ (rxcClip_ne_lanFd0 d n)) rfl

/-! ## Noise, tracking and wake codes (R56, R76, R80, R81, 03 R110) -/

theorem lanRssi_ne_sfmStat (n : LaneIx) : Reg.SFM_STAT ≠ Reg.LAN_RSSI n.val := by
  have hlt := n.isLt
  simp only [Reg.SFM_STAT, Reg.LAN_RSSI]
  omega

theorem State.running_putNoise (s : State) (n : LaneIx) (v : Nat) : (s.put (F.LAN_RSSI_NOISE n.val) v).running = s.running := by
  rw [State.running, State.running, State.flag, State.flag,
    State.get_put_key s (f := F.LAN_RSSI_NOISE n.val) (g := F.SFM_STAT_RUNNING) v (lanRssi_ne_sfmStat n)]

/-- The loading entry of a lane: that of its partner on chain A in DIVERSITY. -/
theorem State.entryOf_eq (s : State) (n : LaneIx) : s.entryOf n = if s.diversity ∧ 48 ≤ n.val then partner n else n := by
  unfold State.entryOf
  by_cases h : s.diversity ∧ 48 ≤ n.val
  · rw [if_pos h, if_pos h, partner, dif_neg (by omega)]
  · rw [if_neg h, if_neg h]

theorem exec_noise_search (h : (s.laneAt n).state = .search) (p : Nat) :
    let u := s.put (F.LAN_RSSI_NOISE n.val) (ofSigned 8 (dbmRounded p))
    let e := s.entryOf n
    exec (.noiseMeasurementComplete n p) s =
      .next (if s.running then u.setLane e { s.laneAt e with noise := (s.laneAt e).noise ++ [p] } else u) := by
  change execNoiseMeasurementComplete n p s = _
  simp only [execNoiseMeasurementComplete, h, State.running_putNoise]
  rfl

theorem exec_noise_other (h : (s.laneAt n).state ≠ .search) (p : Nat) : exec (.noiseMeasurementComplete n p) s = .next s := by
  change execNoiseMeasurementComplete n p s = _
  unfold execNoiseMeasurementComplete
  split
  · exact absurd ‹_› h
  · rfl

/-- A wake source that occurs is recorded, whatever follows from it. -/
theorem State.signalWake_reg (s : State) (k : Nat) :
    (s.signalWake k).reg Reg.PWR_WAKECAUSE = (s.setBit Reg.PWR_WAKECAUSE k true).reg Reg.PWR_WAKECAUSE := by
  have hstat (u : State) (f : Fld) (hf : f.key = Reg.PWR_STAT) : (u.raise f).reg Reg.PWR_WAKECAUSE = u.reg Reg.PWR_WAKECAUSE :=
    State.reg_setReg_other u _ (hf ▸ by decide)
  unfold State.signalWake
  dsimp only
  split
  · rfl
  · split
    · split
      · rw [hstat _ F.PWR_STAT_TRANSITION_MERGED rfl, hstat _ F.PWR_STAT_HELD rfl]
        rfl
      · rfl
    · split <;> rfl

/-- Bit `k` of PWR_WAKECAUSE, as a field. -/
def wakeFld (k : Nat) : Fld := ⟨Reg.PWR_WAKECAUSE, k, 1⟩

theorem State.signalWake_bit (s : State) : (s.signalWake 1).bit Reg.PWR_WAKECAUSE 1 = true := by
  have hput := s.get_put_of_reset (wakeFld 1) 1 (by decide) (by decide +kernel)
  have hbit : (s.setBit Reg.PWR_WAKECAUSE 1 true).bit Reg.PWR_WAKECAUSE 1 = true := beq_iff_eq.mpr hput
  rw [State.bit, State.signalWake_reg]
  exact hbit

/-- The wake receiver takes `code` (R80, R81). -/
def State.takesWakeCode (s : State) (code : BitVec 16) : Bool :=
  s.flag F.WKR_CTL_EN && s.get F.WKR_CODE_CODE != 0 && s.get F.WKR_CODE_CODE != 0xFFFF && s.pwrState != 4 &&
    decide (popCount 16 (code.toNat ^^^ s.get F.WKR_CODE_CODE) ≤ min (s.get F.WKR_CTL_TOL) 2)

theorem exec_wakeCodeMatch (code : BitVec 16) (s : State) :
    exec (.wakeCodeMatch code) s =
      .next (if s.takesWakeCode code then ((s.put F.WKR_STAT_MATCH 1).bump F.WKR_COUNT_COUNT).signalWake 1 else s) := by
  change execWakeCodeMatch code s = _
  have hsame (a b c d e : Bool) : (a && b && c && d && e) = (a && c && d && e && b) := by
    cases a <;> cases b <;> cases c <;> cases d <;> cases e <;> rfl
  have htakes : (s.flag F.WKR_CTL_EN &&
      decide (popCount 16 (code.toNat ^^^ s.get F.WKR_CODE_CODE) ≤ min (s.get F.WKR_CTL_TOL) 2) && s.get F.WKR_CODE_CODE != 0 &&
      s.get F.WKR_CODE_CODE != 0xFFFF && s.pwrState != 4) = s.takesWakeCode code := hsame _ _ _ _ _
  rw [← htakes]
  rfl

theorem exec_dcLoopLimit (c : Chain) (i q : BitVec 16) (s : State) :
    exec (.dcLoopLimit c i q) s = .next (if s.chainEnabled c && s.chainReady c then
      ((s.put (F.RXC_DC_I (chainNo c)) i.toNat).put (F.RXC_DC_Q (chainNo c)) q.toNat).put F.RXC_ERR_DCSAT 1 else s) := rfl

/-! ## The settling -/

/-- What the first clip of a window leaves behind. -/
theorem State.noteClip_effects (s : State) (c : Chain) :
    let k := chainNo c
    let t := (s.noteClip c).each (chainLanes c) State.markClip
    t.pulses = s.pulses ++ [64 + k] ∧ t.get (F.RXC_CLIP_COUNT k) = (s.bump (F.RXC_CLIP_COUNT k)).get (F.RXC_CLIP_COUNT k) ∧
      t.chainAt c = { s.chainAt c with clipWindow := true, sinceClip := some 0 } ∧
      t.chainAt (otherChain c) = s.chainAt (otherChain c) ∧
      (∀ m : LaneIx, t.laneClip m = if laneChain m = c then clipEffect (s.laneClip m) else s.laneClip m) ∧
      t.act = s.act ∧ t.mem = s.mem ∧ t.sfm = s.sfm ∧ t.events = s.events := by
  intro k t
  obtain ⟨hreg, hchain, hpulses, hact, hmem, hsfm, hevents⟩ := (s.noteClip c).each_markClip_parts c c
  have hclip (m : LaneIx) : (s.noteClip c).laneClip m = s.laneClip m := by
    have hput := State.get_put_key s (f := F.RXC_CLIP_COUNT k) (g := F.LAN_FD0_CLIP m.val)
      (satCount 16 (s.get (F.RXC_CLIP_COUNT k)) 1) (rxcClip_ne_lanFd0 c m).symm
    cases c <;> exact Prod.ext rfl hput
  have hcount : (s.noteClip c).reg (Reg.RXC_CLIP k) = (s.bump (F.RXC_CLIP_COUNT k)).reg (Reg.RXC_CLIP k) := by cases c <;> rfl
  obtain ⟨npulses, nact, nmem, nsfm, nevents⟩ : (s.noteClip c).pulses = s.pulses ++ [64 + k] ∧ (s.noteClip c).act = s.act ∧
      (s.noteClip c).mem = s.mem ∧ (s.noteClip c).sfm = s.sfm ∧ (s.noteClip c).events = s.events := by
    cases c <;> exact ⟨rfl, rfl, rfl, rfl, rfl⟩
  have hother : (s.noteClip c).chainAt (otherChain c) = s.chainAt (otherChain c) :=
    State.chainAt_setChain_other _ _ (otherChain_ne c)
  refine ⟨hpulses.trans npulses, State.get_congr (hreg.trans hcount),
    (State.chainAt_congr hchain c).trans (State.chainAt_setChain_same _ c _), (State.chainAt_congr hchain _).trans hother,
    fun m => ?_, hact.trans nact, hmem.trans nmem, hsfm.trans nsfm, hevents.trans nevents⟩
  rw [← hclip m]
  exact State.laneClip_each_markClip _ c m

/-- Settles O42: each measurement by the lemma about its command. -/
theorem chainMeasurements : Obligations.ChainMeasurements := by
  refine ⟨dbmRounded_spec, fun s c n => ?_⟩
  intro k x listens
  refine ⟨fun h peak => ?_, fun h peak => exec_decisionWindowEnd_deaf h peak, fun h => ?_, fun h => ?_, fun h hw => ?_, fun h => ?_,
    fun i q => exec_dcLoopLimit c i q s, fun p => ?_, fun err => ?_, fun code => ?_⟩
  · intro p idx hi lo next
    have hnext : s.chosenGain c (peakReading peak) = next := rfl
    have hage : ageClip x.sinceClip = match x.sinceClip with
        | some j => if j < 1000 then some (j + 1) else none
        | none => none := by
      cases x.sinceClip <;> rfl
    rw [exec_decisionWindowEnd_listens h, hnext, hage]
    rfl
  · rw [exec_gainSettled, if_pos h]
    exact ⟨_, rfl, s.gainSettled_effects c⟩
  · rw [exec_gainSettled, if_neg (ne_true_of_eq_false h)]
  · have hclips : (s.chainListens c && !x.clipWindow) = true := by rw [hw]; exact (Bool.and_true _).trans h
    obtain ⟨hpulses, hcount, hown, hother, hlanes, hrest⟩ := s.noteClip_effects c
    rw [exec_adcClip, if_pos hclips]
    refine ⟨_, rfl, hpulses, hcount, hown, hother, fun m => ?_, hrest⟩
    intro l
    obtain ⟨hlane, hfd⟩ := Prod.ext_iff.mp (hlanes m)
    by_cases hm : laneChain m = c
    · rw [if_pos hm] at hlane hfd
      simp only [hm, true_and]
      exact ⟨hlane, hfd⟩
    · rw [if_neg hm] at hlane hfd
      simp only [hm, false_and, if_false]
      exact ⟨hlane, hfd⟩
  · have hstill : (s.chainListens c && !x.clipWindow) = false := by
      rcases h with h | h
      · rw [show s.chainListens c = false from h, Bool.false_and]
      · rw [h]
        exact Bool.and_false _
    rw [exec_adcClip, if_neg (ne_true_of_eq_false hstill)]
  · intro u e
    refine ⟨fun hs hr => ?_, fun hs hr => ?_, fun hs => exec_noise_other hs p⟩
    · rw [exec_noise_search hs, State.entryOf_eq, if_pos hr]
    · rw [exec_noise_search hs, if_neg (ne_true_of_eq_false hr)]
  · rfl
  · intro want hit
    rw [exec_wakeCodeMatch]
    refine ⟨fun h => ⟨?_, State.signalWake_bit _⟩, fun h => ?_⟩
    · exact congrArg _ (if_pos h)
    · exact congrArg _ (if_neg (ne_true_of_eq_false h))

end Sys2Proof.Machine
end

section
/-! PROOFS. What the lane writer does (02 R73, log entry 136): a lane buffer takes the bytes that the LAN block's world may write there,
and a write that it may not make leaves memory alone and marks the frame. -/

namespace Sys2Proof.Machine

variable {s : State} {ns load : Bool} {r a off : Nat} {b : Byte} {bs : List Byte} {n : LaneIx}

/-! ## Bytes in memory -/

/-- Bytes written reach memory alone. -/
theorem State.putBytes_eq (s : State) (a : Nat) (bs : List Byte) : s.putBytes a bs = { s with mem := (s.putBytes a bs).mem } := by
  induction bs generalizing s a with
  | nil => rfl
  | cons b bs ih => exact ih (s.putByte a b) (a + 1)

/-- What memory holds after bytes were written to it. -/
theorem State.byte_putBytes (h : s.canonical = true) (a : Nat) (bs : List Byte) (x : Nat) :
    (s.putBytes a bs).byte x = if a ≤ x ∧ x < a + bs.length then bs.getD (x - a) 0 else s.byte x := by
  split
  · next hx =>
    induction bs generalizing s a with
    | nil => simp at hx; omega
    | cons b bs ih =>
      obtain ⟨hlo, hhi⟩ := hx
      rw [List.length_cons] at hhi
      rw [State.putBytes]
      rcases hlo.eq_or_lt with rfl | hlt
      · rw [State.byte_putBytes_other _ bs (.inl (Nat.lt_succ_self a)), State.byte_putByte_same h, Nat.sub_self, List.getD_cons_zero]
      · obtain ⟨j, rfl⟩ := Nat.exists_eq_add_of_lt hlt
        rw [ih (State.canonical_putByte h a b) (a + 1) (by omega), show a + j + 1 - (a + 1) = j by omega,
          show a + j + 1 - a = j + 1 by omega, List.getD_cons_succ]
  · next hx => exact State.byte_putBytes_other s bs (by omega)

/-! ## One byte of a lane buffer -/

/-- An address in the lane buffers (01 R13). -/
abbrev inLaneBufs (a : Nat) : Prop := 0x10400000 ≤ a ∧ a < 0x10430000

theorem placeOf_laneBuf (h : inLaneBufs a) : placeOf a = .laneBuf := by
  rw [placeOf, if_neg (by omega), if_neg (by omega), if_neg (by omega), if_pos h.2]

theorem State.storeByte_laneBuf (h : inLaneBufs a) : s.storeByte load a b = s.putByte a b := by
  have hstore : inEngMem a = false := decide_eq_false (by omega)
  rw [State.storeByte, if_neg (by omega), hstore, if_neg Bool.false_ne_true]

theorem State.writeMet_laneBuf (h : inLaneBufs a) : s.writeMet r a = (s, none) := by
  simp only [State.writeMet, storeOwner, placeOf_laneBuf h]

theorem State.moveCheck_laneBuf (h : inLaneBufs a) (hr : s.ready 9 = true) :
    s.moveCheck ns r a true = if ns && !s.memNS a then (s.violation a true r, some .world) else (s, none) := by
  simp only [State.moveCheck, placeOf_laneBuf h, State.placeReady, hr, State.writeMet_laneBuf h] <;> rfl

/-- A byte that the world may write is stored. -/
theorem State.moveByte_laneBuf (h : inLaneBufs a) (hr : s.ready 9 = true) (hw : ns = false ∨ s.memNS a = true) :
    s.moveByte ns r a b = (s.putByte a b, none) := by
  have hopen : (ns && !s.memNS a) = false := by rcases hw with hw | hw <;> simp [hw]
  have hcheck : s.moveCheck ns r a true = (s, none) := by rw [State.moveCheck_laneBuf h hr, hopen]; rfl
  simp [State.moveByte, hcheck, placeOf_laneBuf h, State.storeByte_laneBuf h]

/-- One that it may not write records a violation instead. -/
theorem State.moveByte_laneBuf_barred (h : inLaneBufs a) (hr : s.ready 9 = true) (hm : s.memNS a = false) :
    s.moveByte true r a b = (s.violation a true r, some .world) := by
  have hcheck : s.moveCheck true r a true = (s.violation a true r, some .world) := by rw [State.moveCheck_laneBuf h hr, hm]; rfl
  rw [State.moveByte, hcheck]

/-! ## A run of bytes -/

/-- Outside the key store bytes go one by one, up to the first that fails. -/
theorem State.moveBytes_cons (h : placeOf a ≠ .keyStore) (s : State) (b : Byte) (bs : List Byte) :
    s.moveBytes ns r a (b :: bs) =
      if (s.moveByte ns r a b).2 = none then (s.moveByte ns r a b).1.moveBytes ns r (a + 1) bs else s.moveByte ns r a b := by
  have hkey : (placeOf a == .keyStore) = false := beq_eq_false_iff_ne.mpr h
  rcases hb : s.moveByte ns r a b with ⟨s1, _ | e⟩ <;> rcases bs with _ | ⟨b1, _ | ⟨b2, _ | ⟨b3, bs⟩⟩⟩ <;>
    simp [State.moveBytes, hkey, hb]

/-- Bytes that the world may write to lane buffers are all stored. -/
theorem State.moveBytes_laneBuf (hr : s.ready 9 = true) (h : ∀ i < bs.length, inLaneBufs (a + i))
    (hw : ∀ i < bs.length, ns = false ∨ s.memNS (a + i) = true) : s.moveBytes ns r a bs = (s.putBytes a bs, none) := by
  induction bs generalizing s a with
  | nil => rfl
  | cons b bs ih =>
    have hhere : inLaneBufs a := h 0 (Nat.zero_lt_succ _)
    have hstored : s.moveByte ns r a b = (s.putByte a b, none) := State.moveByte_laneBuf hhere hr (hw 0 (Nat.zero_lt_succ _))
    have hshift (i : Nat) : a + 1 + i = a + (i + 1) := Nat.add_right_comm a 1 i
    have hrest : (s.putByte a b).moveBytes ns r (a + 1) bs = ((s.putByte a b).putBytes (a + 1) bs, none) :=
      ih hr (fun i hi => hshift i ▸ h (i + 1) (Nat.succ_lt_succ hi)) (fun i hi => hshift i ▸ hw (i + 1) (Nat.succ_lt_succ hi))
    rw [State.moveBytes_cons (by rw [placeOf_laneBuf hhere]; decide), hstored, if_pos rfl, hrest, State.putBytes]

/-- A run whose first byte the world may not write stores none. -/
theorem State.moveBytes_laneBuf_barred (hr : s.ready 9 = true) (h : inLaneBufs a) (hm : s.memNS a = false) (hbs : bs ≠ []) :
    s.moveBytes true r a bs = (s.violation a true r, some .world) := by
  obtain ⟨b, bs, rfl⟩ := List.exists_cons_of_ne_nil hbs
  rw [State.moveBytes_cons (by rw [placeOf_laneBuf h]; decide), State.moveByte_laneBuf_barred h hr hm,
    if_neg (Option.some_ne_none _)]

/-! ## The lane writer (R73) -/

theorem inLaneBufs_laneBuf (n : LaneIx) (h : off < 2048) : inLaneBufs (laneBuf n.val + off) := by
  have hlt := n.isLt
  simp only [inLaneBufs, laneBuf]
  omega

theorem State.violation_mem (s : State) (a : Nat) (wr : Bool) (r : Nat) : (s.violation a wr r).mem = s.mem := by
  unfold State.violation State.record
  split <;> rfl

/-- A write that the LAN block's world may make changes the buffer's bytes and the round at the buffers. -/
theorem State.writeBuffer_open (hr : s.ready 9 = true) (hlen : off + bs.length ≤ 2048)
    (hw : ∀ i < bs.length, s.blockNS 9 = false ∨ s.memNS (laneBuf n.val + off + i) = true) :
    s.writeBuffer n off bs = { s.putBytes (laneBuf n.val + off) bs with targetLast := (s.writeBuffer n off bs).targetLast } := by
  have hin (i : Nat) (hi : i < bs.length) : inLaneBufs (laneBuf n.val + off + i) :=
    Nat.add_assoc _ off i ▸ inLaneBufs_laneBuf n (by omega)
  have hmoved := State.moveBytes_laneBuf (r := 70) hr hin hw
  simp only [State.writeBuffer, State.moveWrite, hmoved]
  split
  · rfl
  · rw [State.takeTurn_eq]

/-- A write that it may not make changes no memory and marks the frame. -/
theorem State.writeBuffer_barred (hr : s.ready 9 = true) (hlen : off + bs.length ≤ 2048) (hbs : bs ≠ []) (hns : s.blockNS 9 = true)
    (hm : s.memNS (laneBuf n.val + off) = false) :
    (s.writeBuffer n off bs).mem = s.mem ∧ ((s.writeBuffer n off bs).laneAt n).frame.worldViol = true := by
  have hpos := List.length_pos_iff.mpr hbs
  have hmoved := State.moveBytes_laneBuf_barred (r := 70) hr (inLaneBufs_laneBuf n (by omega)) hm hbs
  simp only [State.writeBuffer, State.moveWrite, hns, hmoved]
  exact ⟨State.violation_mem _ _ _ _, by rw [State.laneAt_setLane_same]⟩

end Sys2Proof.Machine
end

section
/-! PROOFS. A lane enters READY (02 R74, R75, 03 R108, R113, 08 R272): what its descriptor, its timestamp, its header and its counters
then hold. -/

namespace Sys2Proof.Machine

variable {s : State} {n : LaneIx} {good : Bool} {k : Nat} {v : Word} {f : Fld} {ws : List (Nat × Word)}

/-! ## Several registers written -/

/-- Register words written one after another. -/
def State.setRegs (s : State) (ws : List (Nat × Word)) : State := s.each ws (fun s w => s.setReg w.1 w.2)

theorem State.canonical_setRegs (h : s.canonical = true) (ws : List (Nat × Word)) : (s.setRegs ws).canonical = true :=
  State.canonical_each ws _ (fun _ w ht => State.canonical_setReg ht w.1 w.2) h

theorem State.setRegs_eq (s : State) (ws : List (Nat × Word)) : s.setRegs ws = { s with regs := (s.setRegs ws).regs } := by
  induction ws generalizing s with
  | nil => rfl
  | cons w ws ih => exact ih (s.setReg w.1 w.2)

theorem State.setRegs_reg_other (s : State) (h : k ∉ ws.map Prod.fst) : (s.setRegs ws).reg k = s.reg k := by
  induction ws generalizing s with
  | nil => rfl
  | cons w ws ih =>
    rw [List.map_cons, List.mem_cons, not_or] at h
    exact (ih (s.setReg w.1 w.2) h.2).trans (State.reg_setReg_other s w.2 h.1)

/-- Where no register is written twice, each holds what was written to it. -/
theorem State.setRegs_reg_same (hc : s.canonical = true) (hd : (ws.map Prod.fst).Nodup) (h : (k, v) ∈ ws) :
    (s.setRegs ws).reg k = v := by
  induction ws generalizing s with
  | nil => cases h
  | cons w ws ih =>
    rw [List.map_cons, List.nodup_cons] at hd
    rcases List.mem_cons.mp h with rfl | h
    · exact (State.setRegs_reg_other _ hd.1).trans (State.reg_setReg_same hc k v)
    · exact ih (State.canonical_setReg hc _ _) hd.2 h

/-! ## The words of a descriptor (R74, R75, R113) -/

/-- STATUS of R108. -/
def RxFrame.status (f : RxFrame) (good : Bool) : Nat :=
  if f.worldViol then 3 else if f.failed ≠ 0 then 2 else if good then 0 else 1

/-- The word of LAN_FD0. -/
def Lane.fd0 (l : Lane) (good : Bool) : Nat :=
  pack [(29, bit01 l.frame.marks.div), (26, l.frame.errs), (24, l.lock.srch), (23, bit01 l.frame.marks.resumed),
    (22, bit01 l.frame.marks.preempt), (21, bit01 l.frame.marks.clip), (20, bit01 l.frame.marks.desense),
    (16, l.frame.status good), (13, l.frame.prof), (12, bit01 l.lock.deep), (0, l.frame.len)]

/-- The word of LAN_FD1. -/
def RxFrame.fd1 (f : RxFrame) : Nat := pack [(16, ofSigned 16 f.ferr0), (8, f.gidx), (0, f.rssi)]

/-- The word of LAN_TS_LO. -/
def RxFrame.tsLo (f : RxFrame) : Nat := pack [(17, f.tsAsn % 2 ^ 15), (0, f.tsOff)]

/-- The word of LDP_LST. -/
def Lane.lst (l : Lane) : Nat :=
  if l.lock.deep then pack [(24, bit01 l.frame.z48), (16, l.frame.itMax), (8, l.frame.codewords), (0, l.frame.failed)] else 0

/-- The registers that describe a frame, and their words. -/
def Lane.described (l : Lane) (n : LaneIx) (good : Bool) : List (Nat × Word) :=
  [(Reg.LAN_FD0 n.val, BitVec.ofNat 32 (l.fd0 good)), (Reg.LAN_FD1 n.val, BitVec.ofNat 32 l.frame.fd1),
    (Reg.LAN_TS_LO n.val, BitVec.ofNat 32 l.frame.tsLo), (Reg.LAN_TS_HI n.val, BitVec.ofNat 32 (l.frame.tsAsn / 2 ^ 15)),
    (Reg.LDP_HDR n.val, BitVec.ofNat 32 l.frame.hdr), (Reg.LDP_LST n.val, BitVec.ofNat 32 l.lst)]

theorem Lane.described_nodup (l : Lane) (n : LaneIx) (good : Bool) : ((l.described n good).map Prod.fst).Nodup := by
  have hlt := n.isLt
  simp only [Lane.described, List.map_cons, List.map_nil, Reg.LAN_FD0, Reg.LAN_FD1, Reg.LAN_TS_LO, Reg.LAN_TS_HI, Reg.LDP_HDR,
    Reg.LDP_LST, List.nodup_cons, List.mem_cons, List.not_mem_nil, or_false, not_false_iff, List.nodup_nil, and_true]
  omega

theorem counters_not_described (l : Lane) (n : LaneIx) (good : Bool)
    (h : k = Reg.LAN_FRAMES n.val ∨ k = Reg.LAN_FCSERR n.val ∨ k = Reg.LAN_DECERR n.val) :
    k ∉ (l.described n good).map Prod.fst := by
  have hlt := n.isLt
  simp only [Reg.LAN_FRAMES, Reg.LAN_FCSERR, Reg.LAN_DECERR] at h
  simp only [Lane.described, List.map_cons, List.map_nil, Reg.LAN_FD0, Reg.LAN_FD1, Reg.LAN_TS_LO, Reg.LAN_TS_HI, Reg.LDP_HDR,
    Reg.LDP_LST, List.mem_cons, List.not_mem_nil, or_false]
  omega

theorem bit01_lt (b : Bool) : bit01 b < 2 := by cases b <;> decide

theorem bit01_beq_one (b : Bool) : (bit01 b == 1) = b := by cases b <;> rfl

theorem RxFrame.status_lt (f : RxFrame) (good : Bool) : f.status good < 4 := by
  unfold RxFrame.status
  split_ifs <;> decide

/-- What each field of LAN_FD0 reads. -/
theorem Lane.fd0_fields (l : Lane) (good : Bool) (hlen : l.frame.len < 4096) (hprof : l.frame.prof < 8) (herrs : l.frame.errs < 8)
    (hsrch : l.lock.srch < 4) :
    let w := (BitVec.ofNat 32 (l.fd0 good)).toNat
    bitsOf w 16 4 = l.frame.status good ∧ bitsOf w 0 12 = l.frame.len ∧ bitsOf w 13 3 = l.frame.prof ∧
      bitsOf w 12 1 = bit01 l.lock.deep ∧ bitsOf w 26 3 = l.frame.errs ∧ bitsOf w 24 2 = l.lock.srch ∧
      bitsOf w 22 1 = bit01 l.frame.marks.preempt ∧ bitsOf w 23 1 = bit01 l.frame.marks.resumed ∧
      bitsOf w 21 1 = bit01 l.frame.marks.clip ∧ bitsOf w 20 1 = bit01 l.frame.marks.desense ∧
      bitsOf w 29 1 = bit01 l.frame.marks.div := by
  have hstatus := l.frame.status_lt good
  have hdiv := bit01_lt l.frame.marks.div
  have hresumed := bit01_lt l.frame.marks.resumed
  have hpreempt := bit01_lt l.frame.marks.preempt
  have hclip := bit01_lt l.frame.marks.clip
  have hdesense := bit01_lt l.frame.marks.desense
  have hdeep := bit01_lt l.lock.deep
  simp only [Lane.fd0, pack, List.foldl, Nat.shiftLeft_eq, bitsOf, Nat.shiftRight_eq_div_pow, BitVec.toNat_ofNat]
  refine ⟨?_, ?_, ?_, ?_, ?_, ?_, ?_, ?_, ?_, ?_, ?_⟩ <;> omega

theorem RxFrame.fd1_fields (f : RxFrame) (hrssi : f.rssi < 256) (hgidx : f.gidx < 16) :
    let w := (BitVec.ofNat 32 f.fd1).toNat
    bitsOf w 0 8 = f.rssi ∧ bitsOf w 8 4 = f.gidx := by
  simp only [RxFrame.fd1, pack, List.foldl, Nat.shiftLeft_eq, bitsOf, Nat.shiftRight_eq_div_pow, BitVec.toNat_ofNat]
  omega

theorem RxFrame.tsLo_fields (f : RxFrame) (hoff : f.tsOff < 2 ^ 17) :
    let w := (BitVec.ofNat 32 f.tsLo).toNat
    bitsOf w 0 17 = f.tsOff ∧ bitsOf w 17 15 = f.tsAsn % 2 ^ 15 := by
  simp only [RxFrame.tsLo, pack, List.foldl, Nat.shiftLeft_eq, bitsOf, Nat.shiftRight_eq_div_pow, BitVec.toNat_ofNat]
  omega

/-- A value that fits a field at the bottom of its word reads back. -/
theorem bitsOf_ofNat_zero {w v : Nat} (hw : w ≤ 32) (hv : v < 2 ^ w) : bitsOf (BitVec.ofNat 32 v).toNat 0 w = v := by
  have h32 : v < 2 ^ 32 := hv.trans_le (Nat.pow_le_pow_right (by omega) hw)
  rw [BitVec.toNat_ofNat, Nat.mod_eq_of_lt h32, bitsOf, Nat.shiftRight_zero, Nat.mod_eq_of_lt hv]

/-! ## The counters (R74, R88, R108) -/

/-- The counters of a finished frame with STATUS `st`. -/
def State.countFrame (s : State) (n : LaneIx) (st : Nat) : State :=
  let u := s.bump (F.LAN_FRAMES_COUNT n.val)
  if st = 2 then u.bump (F.LAN_DECERR_COUNT n.val) else if st = 1 then u.bump (F.LAN_FCSERR_COUNT n.val) else u

theorem State.bump_reg_other (s : State) (h : k ≠ f.key) : (s.bump f).reg k = s.reg k := State.reg_setReg_other s _ h

/-- A counter goes up from what its register holds. -/
theorem State.get_bump_congr {t : State} (hs : s.canonical = true) (ht : t.canonical = true) (hf : f.lo + f.width ≤ 32)
    (h : s.reg f.key = t.reg f.key) : (s.bump f).get f = (t.bump f).get f := by
  rw [State.get_bump_same hs f hf, State.get_bump_same ht f hf, State.get_congr h]

theorem State.countFrame_reg_other (s : State) (st : Nat)
    (h : ¬(k = Reg.LAN_FRAMES n.val ∨ k = Reg.LAN_FCSERR n.val ∨ k = Reg.LAN_DECERR n.val)) : (s.countFrame n st).reg k = s.reg k := by
  obtain ⟨hframes, hfcs, hdec⟩ : k ≠ Reg.LAN_FRAMES n.val ∧ k ≠ Reg.LAN_FCSERR n.val ∧ k ≠ Reg.LAN_DECERR n.val := by
    simpa only [not_or] using h
  have hu : (s.bump (F.LAN_FRAMES_COUNT n.val)).reg k = s.reg k := State.bump_reg_other s hframes
  unfold State.countFrame
  dsimp only
  split_ifs
  · exact (State.bump_reg_other _ hdec).trans hu
  · exact (State.bump_reg_other _ hfcs).trans hu
  · exact hu

/-- Each counter goes up where its outcome occurred, and keeps its count elsewhere. -/
theorem State.countFrame_counts (h : s.canonical = true) (n : LaneIx) (st : Nat) :
    let t := s.countFrame n st
    t.get (F.LAN_FRAMES_COUNT n.val) = (s.bump (F.LAN_FRAMES_COUNT n.val)).get (F.LAN_FRAMES_COUNT n.val) ∧
      t.get (F.LAN_DECERR_COUNT n.val) = (if st = 2 then s.bump (F.LAN_DECERR_COUNT n.val) else s).get (F.LAN_DECERR_COUNT n.val) ∧
      t.get (F.LAN_FCSERR_COUNT n.val) =
        (if st = 1 then s.bump (F.LAN_FCSERR_COUNT n.val) else s).get (F.LAN_FCSERR_COUNT n.val) := by
  have hlt := n.isLt
  obtain ⟨hdf, hff, hdc⟩ : Reg.LAN_FRAMES n.val ≠ Reg.LAN_DECERR n.val ∧ Reg.LAN_FRAMES n.val ≠ Reg.LAN_FCSERR n.val ∧
      Reg.LAN_DECERR n.val ≠ Reg.LAN_FCSERR n.val := by
    simp only [Reg.LAN_FRAMES, Reg.LAN_DECERR, Reg.LAN_FCSERR]
    omega
  have hu : (s.bump (F.LAN_FRAMES_COUNT n.val)).canonical = true := State.canonical_put h _ _
  have hdec : (s.bump (F.LAN_FRAMES_COUNT n.val)).reg (Reg.LAN_DECERR n.val) = s.reg (Reg.LAN_DECERR n.val) :=
    State.bump_reg_other s hdf.symm
  have hfcs : (s.bump (F.LAN_FRAMES_COUNT n.val)).reg (Reg.LAN_FCSERR n.val) = s.reg (Reg.LAN_FCSERR n.val) :=
    State.bump_reg_other s hff.symm
  unfold State.countFrame
  dsimp only
  by_cases h2 : st = 2
  · subst h2
    exact ⟨State.get_congr (State.bump_reg_other _ hdf), State.get_bump_congr hu h (show 0 + 16 ≤ 32 by omega) hdec,
      State.get_congr ((State.bump_reg_other _ hdc.symm).trans hfcs)⟩
  · simp only [if_neg h2]
    by_cases h1 : st = 1
    · simp only [if_pos h1]
      exact ⟨State.get_congr (State.bump_reg_other _ hff), State.get_congr ((State.bump_reg_other _ hdc).trans hdec),
        State.get_bump_congr hu h (show 0 + 16 ≤ 32 by omega) hfcs⟩
    · simp only [if_neg h1]
      exact ⟨trivial, State.get_congr hdec, State.get_congr hfcs⟩

/-! ## READY -/

theorem State.scramble_eq (s : State) (a n : Nat) : s.scramble a n = { s with mem := (s.scramble a n).mem, free := s.free + n } := by
  unfold State.scramble
  rw [State.putBytes_eq]

/-- The state with the frame described and counted. -/
def State.reportFrame (s : State) (n : LaneIx) (good : Bool) : State :=
  (s.setRegs ((s.laneAt n).described n good)).countFrame n ((s.laneAt n).frame.status good)

/-- The bytes of the lane buffer that hold no payload, or after a violation all of them, become free values. -/
def State.undefineRest (s : State) (n : LaneIx) (f : RxFrame) : State :=
  if f.worldViol then s.scramble (laneBuf n.val) 0x800 else s.scramble (laneBuf n.val + f.len) (0x800 - f.len)

theorem State.enterReady_eq (s : State) (n : LaneIx) (good : Bool) :
    let u := (s.reportFrame n good).undefineRest n (s.laneAt n).frame
    let v := u.setLane n { u.laneAt n with state := .ready }
    s.enterReady n good = match (s.laneAt n).evt with
      | some ch => v.fire n.val ch
      | none => v := rfl

theorem State.undefineRest_parts (s : State) (n : LaneIx) (f : RxFrame) :
    (s.undefineRest n f).regs = s.regs ∧ (s.undefineRest n f).events = s.events := by
  unfold State.undefineRest
  split <;> rw [State.scramble_eq] <;> exact ⟨rfl, rfl⟩

theorem State.reportFrame_events (s : State) (n : LaneIx) (good : Bool) : (s.reportFrame n good).events = s.events := by
  have hcount (u : State) (st : Nat) : (u.countFrame n st).events = u.events := by
    unfold State.countFrame
    dsimp only
    split_ifs <;> rfl
  rw [State.reportFrame, hcount, State.setRegs_eq]

/-- The registers, the lane and the events once the lane is READY. -/
theorem State.enterReady_parts (s : State) (n : LaneIx) (good : Bool) :
    (s.enterReady n good).regs = (s.reportFrame n good).regs ∧ ((s.enterReady n good).laneAt n).state = .ready ∧
      (s.enterReady n good).events = s.events ++ (match (s.laneAt n).evt with
        | some ch => [.hw n.val ch]
        | none => []) := by
  obtain ⟨hregs, hevents⟩ := (s.reportFrame n good).undefineRest_parts n (s.laneAt n).frame
  rw [State.reportFrame_events] at hevents
  have hlane (u : State) (l : Lane) (hl : l.state = .ready) : ((u.setLane n l).laneAt n).state = .ready := by
    rw [State.laneAt_setLane_same, hl]
  rw [State.enterReady_eq]
  cases (s.laneAt n).evt with
  | some ch => exact ⟨hregs, hlane _ _ rfl, congrArg (fun es => es ++ [EvFlight.hw n.val ch]) hevents⟩
  | none => exact ⟨hregs, hlane _ _ rfl, hevents.trans (List.append_nil _).symm⟩

/-- A register that no counter is in holds its word of the description. -/
theorem State.enterReady_reg (h : s.canonical = true) (hv : (k, v) ∈ (s.laneAt n).described n good) :
    (s.enterReady n good).reg k = v := by
  have hk : k ∈ ((s.laneAt n).described n good).map Prod.fst := List.mem_map_of_mem hv
  calc (s.enterReady n good).reg k
      = (s.reportFrame n good).reg k := congrArg (AMap.look resetVal · k) (s.enterReady_parts n good).1
    _ = (s.setRegs ((s.laneAt n).described n good)).reg k :=
      State.countFrame_reg_other _ _ (fun hc => counters_not_described _ n good hc hk)
    _ = v := State.setRegs_reg_same h (Lane.described_nodup _ n good) hv

/-- A field of such a register. -/
theorem State.enterReady_get (h : s.canonical = true) (hv : (f.key, v) ∈ (s.laneAt n).described n good) :
    (s.enterReady n good).get f = bitsOf v.toNat f.lo f.width := by
  rw [State.get, State.enterReady_reg h hv]

/-- The counters go up from what they held before. -/
theorem State.enterReady_counts (h : s.canonical = true) (n : LaneIx) (good : Bool) :
    let t := s.enterReady n good
    let st := (s.laneAt n).frame.status good
    t.get (F.LAN_FRAMES_COUNT n.val) = (s.bump (F.LAN_FRAMES_COUNT n.val)).get (F.LAN_FRAMES_COUNT n.val) ∧
      t.get (F.LAN_DECERR_COUNT n.val) =
        (if st = 2 then (s.bump (F.LAN_DECERR_COUNT n.val)).get (F.LAN_DECERR_COUNT n.val) else s.get (F.LAN_DECERR_COUNT n.val)) ∧
      t.get (F.LAN_FCSERR_COUNT n.val) =
        (if st = 1 then (s.bump (F.LAN_FCSERR_COUNT n.val)).get (F.LAN_FCSERR_COUNT n.val) else s.get (F.LAN_FCSERR_COUNT n.val)) := by
  intro t st
  have hu := State.canonical_setRegs h ((s.laneAt n).described n good)
  have hsame {k : Nat} (hk : k = Reg.LAN_FRAMES n.val ∨ k = Reg.LAN_FCSERR n.val ∨ k = Reg.LAN_DECERR n.val) :=
    s.setRegs_reg_other (counters_not_described (s.laneAt n) n good hk)
  have ht (f : Fld) : t.get f = (s.reportFrame n good).get f :=
    State.get_congr (congrArg (AMap.look resetVal · f.key) (s.enterReady_parts n good).1)
  obtain ⟨hframes, hdec, hfcs⟩ := State.countFrame_counts hu n st
  refine ⟨(ht _).trans (hframes.trans ?_), (ht _).trans (hdec.trans ?_), (ht _).trans (hfcs.trans ?_)⟩
  · exact State.get_bump_congr hu h (show 0 + 16 ≤ 32 by omega) (hsame (.inl rfl))
  · split_ifs
    · exact State.get_bump_congr hu h (show 0 + 16 ≤ 32 by omega) (hsame (.inr (.inr rfl)))
    · exact State.get_congr (hsame (.inr (.inr rfl)))
  · split_ifs
    · exact State.get_bump_congr hu h (show 0 + 16 ≤ 32 by omega) (hsame (.inr (.inl rfl)))
    · exact State.get_congr (hsame (.inr (.inl rfl)))

/-! ## The descriptor of a READY lane (R74, R75, R113) -/

theorem State.enterReady_fd0 (h : s.canonical = true) (hlen : (s.laneAt n).frame.len < 4096) (hprof : (s.laneAt n).frame.prof < 8)
    (herrs : (s.laneAt n).frame.errs < 8) (hsrch : (s.laneAt n).lock.srch < 4) :
    let l := s.laneAt n
    let t := s.enterReady n good
    t.get (F.LAN_FD0_STATUS n.val) = l.frame.status good ∧ t.get (F.LAN_FD0_LEN n.val) = l.frame.len ∧
      t.get (F.LAN_FD0_PROF n.val) = l.frame.prof ∧ t.get (F.LAN_FD0_FAM n.val) = bit01 l.lock.deep ∧
      t.get (F.LAN_FD0_ERRS n.val) = l.frame.errs ∧ t.get (F.LAN_FD0_SRCH n.val) = l.lock.srch ∧
      t.flag (F.LAN_FD0_PREEMPT n.val) = l.frame.marks.preempt ∧ t.flag (F.LAN_FD0_RESUMED n.val) = l.frame.marks.resumed ∧
      t.flag (F.LAN_FD0_CLIP n.val) = l.frame.marks.clip ∧ t.flag (F.LAN_FD0_DESENSE n.val) = l.frame.marks.desense ∧
      t.flag (F.LAN_FD0_DIV n.val) = l.frame.marks.div := by
  intro l t
  obtain ⟨hstatus, hflen, hfprof, hfam, hferrs, hfsrch, hpreempt, hresumed, hclip, hdesense, hdiv⟩ :=
    l.fd0_fields good hlen hprof herrs hsrch
  have hget (lo w : Nat) : t.get ⟨Reg.LAN_FD0 n.val, lo, w⟩ = bitsOf (BitVec.ofNat 32 (l.fd0 good)).toNat lo w :=
    State.enterReady_get h (List.mem_of_getElem? (i := 0) rfl)
  have hmark {lo : Nat} {b : Bool} (hb : bitsOf (BitVec.ofNat 32 (l.fd0 good)).toNat lo 1 = bit01 b) :
      t.flag ⟨Reg.LAN_FD0 n.val, lo, 1⟩ = b := by rw [State.flag, hget, hb, bit01_beq_one]
  exact ⟨(hget 16 4).trans hstatus, (hget 0 12).trans hflen, (hget 13 3).trans hfprof, (hget 12 1).trans hfam,
    (hget 26 3).trans hferrs, (hget 24 2).trans hfsrch, hmark hpreempt, hmark hresumed, hmark hclip, hmark hdesense, hmark hdiv⟩

theorem State.enterReady_fd1 (h : s.canonical = true) (hrssi : (s.laneAt n).frame.rssi < 256) (hgidx : (s.laneAt n).frame.gidx < 16) :
    (s.enterReady n good).get (F.LAN_FD1_RSSI n.val) = (s.laneAt n).frame.rssi ∧
      (s.enterReady n good).get (F.LAN_FD1_GIDX n.val) = (s.laneAt n).frame.gidx := by
  obtain ⟨hfrssi, hfgidx⟩ := (s.laneAt n).frame.fd1_fields hrssi hgidx
  have hword := List.mem_of_getElem? (l := (s.laneAt n).described n good) (i := 1) rfl
  exact ⟨(State.enterReady_get h hword).trans hfrssi, (State.enterReady_get h hword).trans hfgidx⟩

/-- The timestamp: the offset, and the slot in two parts. -/
theorem State.enterReady_timestamp (h : s.canonical = true) (hoff : (s.laneAt n).frame.tsOff < 2 ^ 17)
    (hasn : (s.laneAt n).frame.tsAsn < 2 ^ 40) :
    let t := s.enterReady n good
    t.get (F.LAN_TS_LO_OFF n.val) = (s.laneAt n).frame.tsOff ∧
      t.get (F.LAN_TS_LO_SLOT_L n.val) + 2 ^ 15 * t.get (F.LAN_TS_HI_SLOT_H n.val) = (s.laneAt n).frame.tsAsn := by
  intro t
  obtain ⟨hfoff, hfslot⟩ := (s.laneAt n).frame.tsLo_fields hoff
  have hlow := List.mem_of_getElem? (l := (s.laneAt n).described n good) (i := 2) rfl
  have hslotL : t.get (F.LAN_TS_LO_SLOT_L n.val) = (s.laneAt n).frame.tsAsn % 2 ^ 15 := (State.enterReady_get h hlow).trans hfslot
  have hslotH : t.get (F.LAN_TS_HI_SLOT_H n.val) = (s.laneAt n).frame.tsAsn / 2 ^ 15 :=
    (State.enterReady_get h (List.mem_of_getElem? (i := 3) rfl)).trans (bitsOf_ofNat_zero (w := 25) (by omega) (by omega))
  exact ⟨(State.enterReady_get h hlow).trans hfoff, by rw [hslotL, hslotH, Nat.mod_add_div]⟩

theorem State.enterReady_header (h : s.canonical = true) (hhdr : (s.laneAt n).frame.hdr < 2 ^ 24) :
    (s.enterReady n good).get (F.LDP_HDR_HDR n.val) = (s.laneAt n).frame.hdr :=
  (State.enterReady_get h (List.mem_of_getElem? (i := 4) rfl)).trans (bitsOf_ofNat_zero (w := 24) (by omega) hhdr)

end Sys2Proof.Machine
end

section
/-! PROOFS. The decoder pool (03 R103 to R105, R108) and the end of a frame on air (02 R67, R72): each command by the case that its
clause names. -/

namespace Sys2Proof.Machine

variable {s : State} {n : LaneIx}

/-! ## SUN payloads (R85, R88, R103) -/

theorem length_bytesOfBits (bits : List Bool) : (bytesOfBits bits).length = bits.length / 8 := by
  fun_induction bytesOfBits bits with
  | case1 a b c d e f g h t ih =>
    simp only [List.length_cons, ih]
    omega
  | case2 bits hshort =>
    have hlt : bits.length < 8 := by
      by_contra hlong
      rcases bits with _ | ⟨a, _ | ⟨b, _ | ⟨c, _ | ⟨d, _ | ⟨e, _ | ⟨f, _ | ⟨g, _ | ⟨h, t⟩⟩⟩⟩⟩⟩⟩⟩
      case cons.cons.cons.cons.cons.cons.cons.cons => exact hshort _ _ _ _ _ _ _ _ _ rfl
      all_goals simp at hlong
    exact (Nat.div_eq_of_lt hlt).symm

theorem length_pn9From (r n : Nat) : (pn9From r n).length = n := by
  induction n generalizing r with
  | zero => rfl
  | succ n ih => rw [pn9From, List.length_cons, ih]

theorem length_whiten (bs : List Bool) : (whiten bs).length = bs.length := by
  rw [whiten, List.length_map, List.length_zip, pn9, length_pn9From, Nat.min_self]

/-- A SUN PSDU has the length its PHR gave, however many soft values arrive. -/
theorem State.length_sunPsdu (s : State) (n : LaneIx) (air : List Int) : (s.sunPsdu n air).2.length = (s.laneAt n).frame.len := by
  have hfilled (bs : List Bool) (k : Nat) : ((bs ++ List.replicate (8 * k) false).take (8 * k)).length = 8 * k := by
    rw [List.length_take, List.length_append, List.length_replicate]
    omega
  obtain ⟨bits, hlen, hbytes⟩ : ∃ bits : List Bool,
      bits.length = 8 * (s.laneAt n).frame.len ∧ (s.sunPsdu n air).2 = bytesOfLsb bits :=
    ⟨_, by rw [apply_ite List.length, length_whiten, ite_self, hfilled], rfl⟩
  rw [hbytes, bytesOfLsb, List.length_map, length_bytesOfBits, hlen, Nat.mul_div_cancel_left _ (by decide)]

/-! ## Codewords queue and start (R104, R105) -/

theorem queueCodeword_eq (q : List CwJob) (same : Bool) (j : CwJob) :
    let c := match q.getLast? with
      | some x => if same then x.cyc else x.cyc + 1
      | none => 0
    let before (x : CwJob) : Bool := decide (x.cyc < c) || decide (x.lane.val ≤ j.lane.val)
    queueCodeword q same j = q.filter before ++ [{ j with cyc := c }] ++ q.filter (fun x => !before x) := by
  simp only [queueCodeword, Bool.decide_or] <;> rfl

/-- The job of a lane's next codeword. -/
def RxFrame.nextJob (f : RxFrame) (n : LaneIx) (llrs : List Int) : CwJob :=
  { lane := n, index := f.nextCw, rows := (profileOf f.prof).rows, z48 := f.z48, bytes := cwBytes f.prof f.len f.nextCw
    llr := cwLlrs f.prof f.len f.nextCw llrs }

/-- The next codeword of a Deep lane joins the queue where block 10 is ready. -/
theorem exec_codewordReceived {l : Lane} (hl : s.laneAt n = l) (hst : l.state = .payload ∨ l.state = .drain) (hdeep : l.lock.deep = true)
    (hnext : l.frame.nextCw < l.frame.codewords) (hr : s.ready 10 = true) (llrs : List Int) (same : Bool) :
    exec (.codewordReceived n llrs same) s =
      .next { s.setLane n { l with frame := { l.frame with nextCw := l.frame.nextCw + 1 } } with
        ldpQueue := queueCodeword s.ldpQueue same (l.frame.nextJob n llrs) } := by
  subst hl
  exact congrArg Host.Outcome.next ((if_pos ⟨hst, hdeep, hnext⟩).trans (if_pos hr))

/-- The lowest-numbered free decoder. -/
theorem find_freeDecoder {d : Fin 8} (hd : s.ldp[d.val] = none) (hlow : ∀ i : Fin 8, i < d → s.ldp[i.val] ≠ none) :
    (List.finRange 8).find? (fun i => s.ldp[i.val].isNone) = some d := by
  rw [← Fin.find?_eq_find?_finRange, Fin.find?_eq_some_iff]
  exact ⟨by rw [hd]; rfl, fun i hi => Bool.eq_false_iff.mpr (fun h => hlow i hi (Option.isNone_iff_eq_none.mp h))⟩

/-- The oldest codeword queued enters the lowest-numbered free decoder. -/
theorem exec_decodingJobStart {j : CwJob} {rest : List CwJob} {d : Fin 8} (hq : s.ldpQueue = j :: rest) (hd : s.ldp[d.val] = none)
    (hlow : ∀ i : Fin 8, i < d → s.ldp[i.val] ≠ none) (hr : s.ready 10 = true) :
    exec .decodingJobStart s = .next { s with
      ldpQueue := rest, ldp := s.ldp.set d.val (some ⟨j, iterLimit (s.get F.LDP_CFG_ITER), s.get F.LDP_CFG_NORM⟩) } := by
  change execDecodingJobStart s = _
  simp only [execDecodingJobStart, hq, find_freeDecoder hd hlow, hr, if_true]

/-! ## Codewords end (R105, R108) -/

/-- What decoding makes of a job. -/
def DecJob.decoded (x : DecJob) : Decoded := ldpcDecode x.job.rows (if x.job.z48 then 48 else 24) x.iter x.norm x.job.llr

/-- Decoder `d` is free again and its codeword counted. -/
def State.freeDecoder (s : State) (d : Fin 8) (good : Bool) : State :=
  ({ s with ldp := s.ldp.set d.val none } : State).bump (if good then F.LDP_CWOK_COUNT else F.LDP_CWFAIL_COUNT)

theorem State.freeDecoder_eq (s : State) (d : Fin 8) (good : Bool) :
    s.freeDecoder d good = if good then ({ s with ldp := s.ldp.set d.val none } : State).bump F.LDP_CWOK_COUNT
      else ({ s with ldp := s.ldp.set d.val none } : State).bump F.LDP_CWFAIL_COUNT := apply_ite _ _ _ _

theorem exec_decodingJobEnd {d : Fin 8} {x : DecJob} (hx : s.ldp[d.val] = some x) :
    exec (.decodingJobEnd d) s = .next (if x.job.dead then s.freeDecoder d x.decoded.good
      else (s.freeDecoder d x.decoded.good).codewordEnded x.job.lane x.job.index x.decoded.iters x.decoded.good
        (bytesOfBits (x.decoded.bits.take (8 * x.job.bytes)))) := by
  change execDecodingJobEnd d s = _
  simp only [execDecodingJobEnd, hx, State.freeDecoder_eq] <;> rfl

/-- The check of R96 over the frame's coded bytes, which its results hold in the order of the codewords. -/
def RxFrame.crcGood (f : RxFrame) : Bool :=
  let data := (List.range f.codewords).flatMap (fun i =>
    match f.results.find? (fun r => r.index == i) with
    | some r => r.bytes
    | none => [])
  lastN 4 data == bytesLe 4 (crc32 (data.take f.len))

/-- A Deep lane enters READY in DRAIN, once it has a result for every codeword. -/
theorem State.finishDeep_setLane (s : State) (n : LaneIx) (l : Lane) :
    (s.setLane n l).finishDeep n =
      if l.state = .drain ∧ l.lock.deep = true ∧ l.frame.results.length = l.frame.codewords then
        (s.setLane n l).enterReady n l.frame.crcGood
      else s.setLane n l := by
  simp only [State.finishDeep, State.laneAt_setLane_same] <;> rfl

/-! ## The last on-air bit (R67, R72) -/

theorem exec_lastOnAirBit (h : (s.laneAt n).state = .payload) (air : List Int) :
    let u := s.setLane n { s.laneAt n with state := .drain, endedWindow := true }
    exec (.lastOnAirBit n air) s = .next (if (s.laneAt n).lock.deep then u.finishDeep n
      else ((u.sunPsdu n air).1.writeBuffer n 0 (u.sunPsdu n air).2).enterReady n
        (fcsGood (s.laneAt n).frame.hdr (u.sunPsdu n air).2)) := by
  change execLastOnAirBit n air s = _
  simp only [execLastOnAirBit, h]

/-! ## The settling -/

/-- Settles O40: the queue and the decoders by what each command does to them, a finished frame by the words of its descriptor, and a
write to the buffer byte by byte. -/
theorem codewordsPassTheDecoderPool : Obligations.CodewordsPassTheDecoderPool := by
  refine ⟨fun s n llrs same => ?_, fun s j rest d => exec_decodingJobStart, fun s d x hx => ?_, fun s n air hst => ?_,
    fun s n good => ?_, fun s n off bs hc hr hlen => ?_⟩
  · intro l f cyc j before hst hdeep hnext hr
    rw [exec_codewordReceived rfl hst hdeep hnext hr, queueCodeword_eq]
    rfl
  · intro r u
    rw [exec_decodingJobEnd hx]
    refine ⟨fun hdead => congrArg _ (if_pos hdead), fun hlive => congrArg _ ?_⟩
    rw [if_neg (ne_true_of_eq_false hlive)]
    exact State.finishDeep_setLane _ _ _
  · intro l u
    have hlane : u.laneAt n = { l with state := .drain, endedWindow := true } := State.laneAt_setLane_same s n _
    rw [exec_lastOnAirBit hst]
    refine ⟨fun hdeep hout => congrArg _ ((if_pos hdeep).trans ?_),
      fun hsun => ⟨congrArg _ (if_neg (ne_true_of_eq_false hsun)), ?_⟩⟩
    · exact (State.finishDeep_setLane s n _).trans (if_neg (fun hall => hout hall.2.2))
    · rw [State.length_sunPsdu, hlane]
  · intro l f t status hc hlen hprof herrs hsrch hoff hasn hhdr hrssi hgidx
    obtain ⟨-, hready, hevents⟩ := s.enterReady_parts n good
    obtain ⟨hframes, hdec, hfcs⟩ := State.enterReady_counts hc n good
    obtain ⟨hstatus, hflen, hfprof, hfam, hferrs, hfsrch, hpreempt, hresumed, hclip, hdesense, hdiv⟩ :=
      State.enterReady_fd0 (n := n) (good := good) hc hlen hprof herrs hsrch
    obtain ⟨hfrssi, hfgidx⟩ := State.enterReady_fd1 (n := n) (good := good) hc hrssi hgidx
    obtain ⟨hfoff, hfslot⟩ := State.enterReady_timestamp (n := n) (good := good) hc hoff hasn
    exact ⟨hready, hstatus, hflen, hfprof, hfam, hferrs, hfsrch, hpreempt, hresumed, hclip, hdesense, hdiv, hfrssi, hfgidx, hfoff,
      hfslot, State.enterReady_header hc hhdr, hframes, hdec, hfcs, hevents⟩
  · intro t place
    refine ⟨fun hw => ?_, fun hbs hns hm => State.writeBuffer_barred hr hlen hbs hns hm⟩
    have ht : t = _ := State.writeBuffer_open hr hlen hw
    rw [ht]
    exact ⟨fun a => State.byte_putBytes hc place bs a, by rw [State.putBytes_eq]⟩

end Sys2Proof.Machine
end

section
/-! PROOFS. A Cistern entry (05_cistern_security.md R148, R151, R152, R161, 09_pair_siphon.md R295): its sixteen bytes as one number, and
what an update of it changes. -/

namespace Sys2Proof.Machine

variable {s t : State} {i j e a k : Nat} {bs : List Byte}

/-! ## Numbers as bytes -/

theorem length_bytesLe (n v : Nat) : (bytesLe n v).length = n := by
  induction n generalizing v with
  | zero => rfl
  | succ n ih => rw [bytesLe, List.length_cons, ih]

theorem ofBytesLe_lt (bs : List Byte) : ofBytesLe bs < 256 ^ bs.length := by
  induction bs with
  | nil => decide
  | cons b bs ih =>
    have hb : b.toNat < 256 := b.isLt
    rw [ofBytesLe, List.length_cons, pow_succ]
    omega

theorem ofBytesLe_bytesLe (n v : Nat) : ofBytesLe (bytesLe n v) = v % 256 ^ n := by
  induction n generalizing v with
  | zero => simp [bytesLe, ofBytesLe, Nat.mod_one]
  | succ n ih =>
    rw [bytesLe, ofBytesLe, ih, BitVec.toNat_ofNat, show (2 : Nat) ^ 8 = 256 from rfl, pow_succ', Nat.mod_mul]

/-! ## Bytes of an entry -/

theorem State.bytes_congr {n : Nat} (h : ∀ j < n, t.byte (a + j) = s.byte (a + j)) : t.bytes a n = s.bytes a n :=
  List.map_congr_left (fun j hj => h j (List.mem_range.mp hj))

theorem State.bytes_putBytes (h : s.canonical = true) (a : Nat) (bs : List Byte) : (s.putBytes a bs).bytes a bs.length = bs := by
  refine List.ext_getElem (by simp [State.bytes]) (fun j h1 h2 => ?_)
  simp [State.bytes, State.byte_putBytes h, h2]

theorem State.length_bytes (s : State) (a n : Nat) : (s.bytes a n).length = n := by simp [State.bytes]

/-- Two states agree on an entry where they agree on its bytes. -/
theorem State.entry_congr (h : ∀ j < 16, t.byte (entryAddr i + j) = s.byte (entryAddr i + j)) : t.entry i = s.entry i := by
  rw [State.entry, State.entry, State.bytes_congr h]

theorem State.entry_of_mem (h : t.mem = s.mem) (i : Nat) : t.entry i = s.entry i :=
  State.entry_congr (fun _ _ => by rw [State.byte, State.byte, h])

theorem State.entry_lt (s : State) (i : Nat) : s.entry i < 2 ^ 128 := by
  have h := ofBytesLe_lt (s.bytes (entryAddr i) 16)
  rw [State.length_bytes] at h
  exact h

/-! ## An update -/

theorem State.markDirty_eq (s : State) (i : Nat) : s.markDirty i = { s with sph := (s.markDirty i).sph } := by
  unfold State.markDirty
  split <;> rfl

theorem State.markDirty_reg (s : State) (i k : Nat) : (s.markDirty i).reg k = s.reg k := by rw [State.markDirty_eq]; rfl

theorem State.setEntry_same (h : s.entry i = e % 2 ^ 128) : s.setEntry i e = s := if_pos h

/-- An update that changes the entry writes its bytes and marks it. -/
theorem State.setEntry_changes (h : s.entry i ≠ e % 2 ^ 128) :
    s.setEntry i e = (s.pokeEntry i (entryAddr i) (bytesLe 16 e)).markDirty i := if_neg h

theorem State.pokeEntry_eq (s : State) (i a : Nat) (bs : List Byte) :
    s.pokeEntry i a bs = { s with regs := (s.pokeEntry i a bs).regs, mem := (s.pokeEntry i a bs).mem } := by
  have h := State.putBytes_eq s a bs
  unfold State.pokeEntry
  dsimp only
  rw [h]
  rfl

theorem State.pokeEntry_byte (s : State) (i a : Nat) (bs : List Byte) (x : Nat) :
    (s.pokeEntry i a bs).byte x = (s.putBytes a bs).byte x := rfl

theorem State.pokeEntry_reg_other (s : State) (i a : Nat) (bs : List Byte) (hk : k ≠ Reg.CST_SUM) :
    (s.pokeEntry i a bs).reg k = s.reg k := by
  refine (State.reg_setReg_other _ _ hk).trans ?_
  rw [State.putBytes_eq]
  rfl

theorem State.pokeEntry_sum (hc : s.canonical = true) (i a : Nat) (bs : List Byte) :
    ((s.pokeEntry i a bs).reg Reg.CST_SUM).toNat =
      ((s.reg Reg.CST_SUM).toNat ^^^ s.entryHash i ^^^ (s.putBytes a bs).entryHash i) % 2 ^ 32 := by
  rw [State.pokeEntry, State.reg_setReg_same (State.canonical_putBytes hc a bs), BitVec.toNat_ofNat]

/-- An update reaches memory, the checksum and the dirty marks alone. -/
theorem State.setEntry_eq (s : State) (i e : Nat) :
    s.setEntry i e = { s with regs := (s.setEntry i e).regs, mem := (s.setEntry i e).mem, sph := (s.setEntry i e).sph } := by
  by_cases h : s.entry i = e % 2 ^ 128
  · rw [State.setEntry_same h]
  · rw [State.setEntry_changes h, State.markDirty_eq, State.pokeEntry_eq]

theorem State.setEntry_byte_other (s : State) (e : Nat) (ha : a < entryAddr i ∨ entryAddr i + 16 ≤ a) :
    (s.setEntry i e).byte a = s.byte a := by
  by_cases h : s.entry i = e % 2 ^ 128
  · rw [State.setEntry_same h]
  · rw [State.setEntry_changes h, State.byte_markDirty, State.pokeEntry_byte, State.byte_putBytes_other s _ (by rwa [length_bytesLe])]

theorem State.setEntry_reg_other (s : State) (i e : Nat) (hk : k ≠ Reg.CST_SUM) : (s.setEntry i e).reg k = s.reg k := by
  by_cases h : s.entry i = e % 2 ^ 128
  · rw [State.setEntry_same h]
  · rw [State.setEntry_changes h, State.markDirty_reg, s.pokeEntry_reg_other i _ _ hk]

theorem State.setEntry_entry_same (hc : s.canonical = true) (i e : Nat) : (s.setEntry i e).entry i = e % 2 ^ 128 := by
  by_cases h : s.entry i = e % 2 ^ 128
  · rw [State.setEntry_same h, h]
  · have hbytes := State.bytes_putBytes hc (entryAddr i) (bytesLe 16 e)
    rw [length_bytesLe] at hbytes
    have hput : (s.setEntry i e).entry i = (s.putBytes (entryAddr i) (bytesLe 16 e)).entry i := by
      rw [State.setEntry_changes h]
      exact State.entry_congr (fun _ _ => (State.byte_markDirty _ _ _).trans (State.pokeEntry_byte ..))
    rw [hput, State.entry, hbytes, ofBytesLe_bytesLe]
    rfl

theorem State.setEntry_entry_other (s : State) (e : Nat) (h : j ≠ i) : (s.setEntry i e).entry j = s.entry j :=
  State.entry_congr (fun n hn => s.setEntry_byte_other e (by unfold entryAddr; omega))

/-- The hash of an entry reads its bytes alone. -/
theorem State.entryHash_congr (h : ∀ j < 16, t.byte (entryAddr i + j) = s.byte (entryAddr i + j)) :
    t.entryHash i = s.entryHash i := by
  rw [State.entryHash, State.entryHash, State.bytes_congr h]

/-- The checksum follows an update of an entry (R161). -/
theorem State.setEntry_sum (hc : s.canonical = true) (h : s.entry i ≠ e % 2 ^ 128) :
    ((s.setEntry i e).reg Reg.CST_SUM).toNat =
      ((s.reg Reg.CST_SUM).toNat ^^^ s.entryHash i ^^^ (s.setEntry i e).entryHash i) % 2 ^ 32 := by
  rw [State.setEntry_changes h]
  have hhash : ((s.pokeEntry i (entryAddr i) (bytesLe 16 e)).markDirty i).entryHash i =
      (s.putBytes (entryAddr i) (bytesLe 16 e)).entryHash i :=
    State.entryHash_congr (fun _ _ => (State.byte_markDirty _ _ _).trans (State.pokeEntry_byte ..))
  rw [hhash, State.markDirty_reg, State.pokeEntry_sum hc]

/-! ## Dirty marks (09 R295) -/

/-- A mark lies in one of the ranges after it is added, where each range's ends are in order. -/
theorem any_addMark (l : List (Nat × Nat)) (hl : ∀ x ∈ l, x.1 ≤ x.2) (i : Nat) :
    (addMark l i).any (fun x => decide (x.1 ≤ i ∧ i ≤ x.2)) = true := by
  fun_induction addMark l i with
  | case1 => simp
  | case2 => simp
  | case3 b l h1 =>
    have hb := hl (i + 1, b) (List.mem_cons_self ..)
    simp at hb ⊢
    exact .inl (by omega)
  | case4 a b l h1 h2 hb =>
    simp
    exact .inl (by omega)
  | case5 a b h1 h2 h3 h4 d l' =>
    have hd := hl (i + 1, d) (by simp)
    simp at hd ⊢
    exact .inl (by omega)
  | case6 a b h1 h2 h3 c d l' h4 =>
    simp
    exact .inl (by omega)
  | case7 a b h1 h2 h3 =>
    simp
    omega
  | case8 a b l h1 h2 h3 h4 ih =>
    rw [List.any_cons, ih (fun x hx => hl x (List.mem_cons_of_mem _ hx)), Bool.or_true]

theorem State.setEntry_sph (s : State) (h : s.entry i ≠ e % 2 ^ 128) :
    (s.setEntry i e).sph = if s.pairState = 3 then { s.sph with dirty := addMark s.sph.dirty i } else s.sph := by
  have hsph : (s.pokeEntry i (entryAddr i) (bytesLe 16 e)).sph = s.sph := by rw [State.pokeEntry_eq]
  have hpair : (s.pokeEntry i (entryAddr i) (bytesLe 16 e)).pairState = s.pairState :=
    State.get_congr (s.pokeEntry_reg_other i _ _ (by decide))
  rw [State.setEntry_changes h, State.markDirty, hpair]
  split
  · rw [hsph]
  · exact hsph

end Sys2Proof.Machine
end

section
/-! PROOFS. The superframe commands: the write of RUN, the shift, requests and results, and an endpoint's account
(04_superframe.md R115, R116, R126, R127, R134). -/

namespace Sys2Proof.Machine

variable {s t : State} {r a k : Nat} {v w : Word} {x : RegRow}

/-! ## Writing a register again, and writing what is there -/

theorem State.setReg_setReg (hc : s.canonical = true) (k : Nat) (v w : Word) : (s.setReg k v).setReg k w = s.setReg k w := by
  have hput (u : Word) : AMap.wf resetVal (AMap.put resetVal s.regs k u) = true := AMap.wfFrom_put _ (State.regs_wf hc) k.zero_le
  refine congrArg (fun m => { s with regs := m }) (AMap.wf_ext (AMap.wfFrom_put _ (hput v) k.zero_le) (hput w) (fun j => ?_))
  by_cases hj : j = k
  · rw [hj, AMap.look_put_same _ (hput v), AMap.look_put_same _ (State.regs_wf hc)]
  · rw [AMap.look_put_other _ _ hj, AMap.look_put_other _ _ hj, AMap.look_put_other _ _ hj]

theorem State.setReg_reg (hc : s.canonical = true) (k : Nat) : s.setReg k (s.reg k) = s :=
  congrArg (fun m => { s with regs := m }) (AMap.put_look (State.regs_wf hc) k.zero_le)

/-! ## The write of RUN (R115) -/

/-- The word of SFM_CTL with RUN = `b`. -/
def runWord (v : Word) (b : Bool) : Word := if b then v ||| 1 else v &&& 0xFFFFFFFE

theorem getLsbD_runWord (v : Word) (b : Bool) {i : Nat} (hi : i < 32) :
    (runWord v b).getLsbD i = if i = 0 then b else v.getLsbD i := by
  have hone : ∀ j < 32, (1 : Word).getLsbD j = decide (j = 0) := by decide
  have hmask : ∀ j < 32, (0xFFFFFFFE : Word).getLsbD j = !decide (j = 0) := by decide
  have hbit : (runWord v b).getLsbD i = (!decide (i = 0) && v.getLsbD i || decide (i = 0) && b) := by
    cases b
    · rw [runWord, if_neg (by decide), BitVec.getLsbD_and, hmask i hi, Bool.and_comm, Bool.and_false, Bool.or_false]
    · rw [runWord, if_pos rfl, BitVec.getLsbD_or, hone i hi]
      cases v.getLsbD i <;> cases decide (i = 0) <;> rfl
  rw [hbit]
  by_cases h0 : i = 0 <;> simp [h0]

theorem flag_run (s : State) : s.flag F.SFM_CTL_RUN = (s.reg Reg.SFM_CTL).getLsbD 0 := bitAt_toNat _ 0

/-- RUN is bit 0 of SFM_CTL. -/
theorem State.putB_run (s : State) (b : Bool) :
    s.putB F.SFM_CTL_RUN b = s.setReg Reg.SFM_CTL (runWord (s.reg Reg.SFM_CTL) b) := by
  have hbits : BitVec.ofNat 32 (setBits (s.reg Reg.SFM_CTL).toNat 0 1 (bit01 b)) = runWord (s.reg Reg.SFM_CTL) b := by
    refine BitVec.eq_of_getLsbD_eq (fun i hi => ?_)
    rw [getLsbD_runWord _ _ hi, BitVec.getLsbD_ofNat, testBit_setBits, decide_eq_true hi, Bool.true_and]
    by_cases h0 : i = 0
    · subst h0
      cases b <;> rfl
    · rw [if_neg (by omega), if_neg h0, BitVec.getLsbD]
  exact congrArg (s.setReg Reg.SFM_CTL) hbits

theorem runWord_same (v : Word) : runWord v (v.getLsbD 0) = v := by
  refine BitVec.eq_of_getLsbD_eq (fun i hi => ?_)
  rw [getLsbD_runWord _ _ hi]
  split <;> simp_all

theorem runWord_runWord (v : Word) (b c : Bool) : runWord (runWord v b) c = runWord v c := by
  refine BitVec.eq_of_getLsbD_eq (fun i hi => ?_)
  rw [getLsbD_runWord _ _ hi, getLsbD_runWord _ _ hi, getLsbD_runWord _ _ hi]
  split <;> rfl

/-- A write of RUN restores the word of SFM_CTL where RUN returns to what it was. -/
theorem State.putB_run_back (hc : s.canonical = true) (b : Bool) :
    (s.setReg Reg.SFM_CTL (runWord (s.reg Reg.SFM_CTL) b)).putB F.SFM_CTL_RUN (s.flag F.SFM_CTL_RUN) = s := by
  rw [State.putB_run, State.setReg_setReg hc, State.reg_setReg_same hc, runWord_runWord, flag_run, runWord_same, State.setReg_reg hc]

/-- The row of SFM_CTL: RUN is written at once, QEN is staged. -/
def sfmCtlRow : RegRow := ⟨Reg.SFM_CTL, 4, 1, 4, 1, .single, 3, 0, 0, 0, 0, 0, 2, 0, 0⟩

theorem rowAt_SFM_CTL : rowAt Reg.SFM_CTL = some sfmCtlRow := by decide +kernel

/-- A write of RUN that carries QEN's shadow value writes that word. -/
theorem written_runWord (locked : Bool) (v : Word) (b : Bool) : sfmCtlRow.written locked v (runWord v b) = runWord v b := by
  have hwr : ∀ j < 32, (sfmCtlRow.writable locked).testBit j = decide (j = 0 ∨ j = 1) := by cases locked <;> decide
  refine BitVec.eq_of_getLsbD_eq (fun i hi => ?_)
  rw [RegRow.getLsbD_written _ _ _ _ hi, hwr i hi, getLsbD_runWord _ _ hi]
  by_cases h0 : i = 0 <;> simp [sfmCtlRow, h0]

/-- It leaves the staged field as it is. -/
theorem changesShadow_runWord (v : Word) (b : Bool) : sfmCtlRow.changesShadow v (runWord v b) = false := by
  have hbit : ∀ i < 32, ((v ^^^ runWord v b) &&& 2).getLsbD i = false := by
    intro i hi
    have htwo : ∀ j < 32, (2 : Word).getLsbD j = decide (j = 1) := by decide
    rw [BitVec.getLsbD_and, BitVec.getLsbD_xor, getLsbD_runWord _ _ hi, htwo i hi]
    by_cases h1 : i = 1 <;> simp [h1]
  have hzero : (v ^^^ runWord v b) &&& 2 = 0 :=
    BitVec.eq_of_getLsbD_eq (fun i hi => (hbit i hi).trans BitVec.getLsbD_zero.symm)
  exact bne_eq_false_iff_eq.mpr hzero

/-- What a write of RUN to a part that takes it does (R115). -/
theorem State.wroteSfm_run (hc : s.canonical = true) (b : Bool) :
    s.wroteSfm (s.setReg Reg.SFM_CTL (runWord (s.reg Reg.SFM_CTL) b)) Reg.SFM_CTL (runWord (s.reg Reg.SFM_CTL) b) =
      if s.runFollows = true ∨ s.flag F.SFM_CTL_RUN = b then s else (s.runBit b).planSettled := by
  have hbit : bitAt (runWord (s.reg Reg.SFM_CTL) b).toNat 0 = b := by
    rw [bitAt_toNat, getLsbD_runWord _ _ (by decide), if_pos rfl]
  have hrun : (bitsOf (runWord (s.reg Reg.SFM_CTL) b).toNat 0 1 = s.get F.SFM_CTL_RUN) ↔ s.flag F.SFM_CTL_RUN = b := by
    have hget : s.get F.SFM_CTL_RUN = bitsOf (s.reg Reg.SFM_CTL).toNat 0 1 := rfl
    rw [hget, flag_run, bitsOf_toNat_one, bitsOf_toNat_one, getLsbD_runWord _ _ (by decide), if_pos rfl]
    cases b <;> cases (s.reg Reg.SFM_CTL).getLsbD 0 <;> decide
  rw [State.wroteSfm, if_pos rfl, hbit, State.putB_run_back hc]
  by_cases hf : s.runFollows = true
  · rw [if_pos hf, if_pos (.inl hf)]
  · rw [if_neg hf]
    by_cases hb : s.flag F.SFM_CTL_RUN = b
    · have hword : runWord (s.reg Reg.SFM_CTL) b = s.reg Reg.SFM_CTL := by rw [← hb, flag_run, runWord_same]
      rw [if_pos (hrun.mpr hb), if_pos (.inr hb), hword, State.setReg_reg hc]
    · rw [if_neg (mt hrun.mp hb), if_neg (by tauto)]

/-- A write of RUN that goes through. -/
theorem State.command32_run (hc : s.canonical = true) (h : s.admits r Reg.SFM_CTL true = true) (b : Bool) :
    s.command32 r Reg.SFM_CTL (runWord (s.reg Reg.SFM_CTL) b) =
      (if s.runFollows = true ∨ s.flag F.SFM_CTL_RUN = b then s.served r Reg.SFM_CTL
        else ((s.served r Reg.SFM_CTL).runBit b).planSettled).answered 0 := by
  have hkey : s.keyOf sfmCtlRow r Reg.SFM_CTL = Reg.SFM_CTL := State.keyOf_single rfl r _
  have hcan : (s.served r Reg.SFM_CTL).canonical = true := (State.keeps_served (Keeps.refl s) r _).canon hc
  have hfollow : (s.served r Reg.SFM_CTL).runFollows = s.runFollows := by rw [State.served_eq]; rfl
  have hwrote (p q : State) (v : Word) : p.wrote q r Reg.SFM_CTL Reg.SFM_CTL v = (p.wroteSfm q Reg.SFM_CTL v, none) := rfl
  have hrun := State.wroteSfm_run hcan b
  rw [State.served_reg, hfollow, State.served_flag] at hrun
  rw [State.command32_row h (by decide) (by decide) rowAt_SFM_CTL,
    State.writeRow_sameShadow (badTuning_of_block (by decide) _) (by decide +kernel)
      (by rw [hkey, written_runWord, changesShadow_runWord]), hkey, written_runWord, hwrote, hrun, State.answerWrite_none]

theorem exec_sfmRunStart (r : Req) (s : State) :
    exec (.sfmRunStart r) s = .next (s.command32 r.val Reg.SFM_CTL (runWord (s.reg Reg.SFM_CTL) true)) := rfl

theorem exec_sfmRunStop (r : Req) (s : State) :
    exec (.sfmRunStop r) s = .next (s.command32 r.val Reg.SFM_CTL (runWord (s.reg Reg.SFM_CTL) false)) := rfl

/-- RUN = 1 asks a stopped machine to start and withdraws a running one's stop (R115, 11 R363). -/
theorem State.runBit_true (s : State) : s.runBit true =
    { s.setReg Reg.SFM_CTL (s.reg Reg.SFM_CTL ||| 1) with
      sfm := if s.running then { s.sfm with stopPend := false } else { s.sfm with startPend := true }
      fdr := { s.fdr with realign := s.fdr.realign || (!s.running && s.flag F.FDR_CTL_ALIGN) } } := by
  rw [State.runBit, State.setRun, State.putB_run]
  cases s.running
  · rfl
  · rw [Bool.not_true, Bool.false_and, Bool.or_false]
    rfl

/-- RUN = 0 asks a running machine to stop and withdraws a stopped one's start. -/
theorem State.runBit_false (s : State) : s.runBit false =
    { s.setReg Reg.SFM_CTL (s.reg Reg.SFM_CTL &&& 0xFFFFFFFE) with
      sfm := if s.running then { s.sfm with stopPend := true } else { s.sfm with startPend := false, adopt := none }
      fdr := { s.fdr with realign := s.running && s.fdr.realign } } := by
  rw [State.runBit, State.setRun, State.putB_run]
  cases s.running <;> rfl

@[simp] theorem State.served_running (s : State) (r k : Nat) : (s.served r k).running = s.running := State.served_flag r k _
@[simp] theorem State.served_fdr (s : State) (r k : Nat) : (s.served r k).fdr = s.fdr := by rw [State.served_eq]; rfl
@[simp] theorem State.served_sph (s : State) (r k : Nat) : (s.served r k).sph = s.sph := by rw [State.served_eq]; rfl
@[simp] theorem State.served_pairState (s : State) (r k : Nat) : (s.served r k).pairState = s.pairState := State.served_get r k _
@[simp] theorem State.served_ownsCistern (s : State) (r k : Nat) : (s.served r k).ownsCistern = s.ownsCistern := by
  rw [State.ownsCistern, State.served_pairState]; rfl
@[simp] theorem State.served_ready (s : State) (r k i : Nat) : (s.served r k).ready i = s.ready i := by
  rw [State.ready, State.bit, State.served_reg]; rfl

/-! ## Registers of block 12 that a write commands -/

/-- The row of a write-only register of block 12 with the bits of `mask`. -/
def sfmOrderRow (a mask : Nat) : RegRow := ⟨a, 4, 1, 4, 1, .single, 0, 0, 0, 0, 0, mask, 0, 0, 0⟩

theorem directAt_SFM_ADJ : (sfmOrderRow Reg.SFM_ADJ 0xFFFFFF).DirectAt Reg.SFM_ADJ := by decide +kernel
theorem directAt_SFM_SUBMIT : (sfmOrderRow Reg.SFM_SUBMIT 0xFFFFFFFF).DirectAt Reg.SFM_SUBMIT := by decide +kernel
theorem directAt_SFM_CANCEL : (sfmOrderRow Reg.SFM_CANCEL 0xFFF).DirectAt Reg.SFM_CANCEL := by decide +kernel
theorem directAt_SFM_HEARD : (sfmOrderRow Reg.SFM_HEARD 0xFFFFFFFF).DirectAt Reg.SFM_HEARD := by decide +kernel
theorem directAt_SFM_MISS : (sfmOrderRow Reg.SFM_MISS 0x3FFFF).DirectAt Reg.SFM_MISS := by decide +kernel

/-- A write to block 12 that goes through. -/
theorem State.command32_sfm (hx : x.DirectAt a) (hb : keyBlock a = 12) (h : s.admits r a true = true) (v : Word) :
    s.command32 r a v =
      ((s.served r a).wroteSfm ((s.served r a).setReg a (x.written (s.locked a) (s.reg a) v)) a v).answered 0 := by
  rw [State.command32_direct hx h]
  simp only [State.wrote, hb, State.answerWrite_none]

theorem State.wroteSfm_ADJ (s t : State) (v : Word) : s.wroteSfm t Reg.SFM_ADJ v = s.adjust (toSigned 24 v.toNat) := rfl
theorem State.wroteSfm_SUBMIT (s t : State) (v : Word) :
    s.wroteSfm t Reg.SFM_SUBMIT v = s.submitRequest (bitsOf v.toNat 30 2) (bitsOf v.toNat 12 18) (bitsOf v.toNat 0 12) := rfl
theorem State.wroteSfm_CANCEL (s t : State) (v : Word) :
    s.wroteSfm t Reg.SFM_CANCEL v = s.cancelRequest (bitsOf v.toNat 0 12) := rfl
theorem State.wroteSfm_HEARD (s t : State) (v : Word) :
    s.wroteSfm t Reg.SFM_HEARD v = s.heard (toSigned 14 (bitsOf v.toNat 18 14)) (bitsOf v.toNat 0 18) := rfl
theorem State.wroteSfm_MISS (s t : State) (v : Word) : s.wroteSfm t Reg.SFM_MISS v = s.missed (bitsOf v.toNat 0 18) := rfl

/-! ## The numbers that a write carries -/

theorem toSigned_toNat {n : Nat} (v : BitVec n) : toSigned n v.toNat = v.toInt := by
  have hmod : v.toNat % 2 ^ n = v.toNat := Nat.mod_eq_of_lt v.isLt
  have hmsb : bitAt v.toNat (n - 1) = v.msb := by
    rw [Bool.eq_iff_iff, BitVec.msb_eq_getLsbD_last, BitVec.getLsbD, Nat.testBit_eq_decide_div_mod_eq, bitAt, bitsOf,
      Nat.shiftRight_eq_div_pow, pow_one, beq_iff_eq, decide_eq_true_iff]
  rw [toSigned, hmsb, hmod, BitVec.toInt_eq_msb_cond]

theorem toNat_setWidth_word {n : Nat} (v : BitVec n) (hn : n ≤ 32) : (v.setWidth 32).toNat = v.toNat := by
  rw [BitVec.toNat_setWidth]
  exact Nat.mod_eq_of_lt (lt_of_lt_of_le v.isLt (Nat.pow_le_pow_right (by decide) hn))

theorem bitsOf_whole {n : Nat} (v : BitVec n) : bitsOf v.toNat 0 n = v.toNat := Nat.mod_eq_of_lt v.isLt

/-- The fields of SFM_SUBMIT. -/
theorem toNat_submitWord (mode : BitVec 2) (index : BitVec 18) (desc : BitVec 12) :
    (wordOf [(0, desc.toNat), (12, index.toNat), (30, mode.toNat)]).toNat =
      desc.toNat + 4096 * index.toNat + 1073741824 * mode.toNat := by
  have hm := mode.isLt
  have hi := index.isLt
  have hd := desc.isLt
  simp only [wordOf, pack, List.foldl, Nat.shiftLeft_eq, BitVec.toNat_ofNat]
  omega

/-- The fields of SFM_HEARD. -/
theorem toNat_heardWord (err : BitVec 14) (index : BitVec 18) :
    (wordOf [(0, index.toNat), (18, err.toNat)]).toNat = index.toNat + 262144 * err.toNat := by
  have he := err.isLt
  have hi := index.isLt
  simp only [wordOf, pack, List.foldl, Nat.shiftLeft_eq, BitVec.toNat_ofNat]
  omega

/-! ## The shift of the slots (R116) -/

theorem State.command32_adj (h : s.admits r Reg.SFM_ADJ true = true) (shift : BitVec 24) :
    s.command32 r Reg.SFM_ADJ (shift.setWidth 32) = ((s.served r Reg.SFM_ADJ).adjust shift.toInt).answered 0 := by
  rw [State.command32_sfm directAt_SFM_ADJ (by decide) h, State.wroteSfm_ADJ, toNat_setWidth_word _ (by decide),
    toSigned_toNat]

theorem exec_sfmAdj (r : Req) (shift : BitVec 24) (s : State) :
    exec (.sfmAdj r shift) s = .next (s.command32 r.val Reg.SFM_ADJ (shift.setWidth 32)) := rfl

/-- What a shift does, by the pair state and the slot in progress. -/
theorem State.adjust_eq (s : State) (shift : Int) :
    s.adjust shift =
      if s.pairState ≠ 0 ∧ s.pairState ≠ 3 then s
      else if s.running ∧ s.sfm.slotLen = 80000 then
        { s with sfm := { s.sfm with slotLen := (80000 + max (-8) (min 8 shift)).toNat, slew := shift - max (-8) (min 8 shift) } }
      else { s with sfm := { s.sfm with slew := shift } } := by
  have howns : (!s.ownsCistern) = true ↔ s.pairState ≠ 0 ∧ s.pairState ≠ 3 := by
    simp [State.ownsCistern]
  rw [State.adjust]
  simp only [howns]
  rfl

/-! ## Requests and results (R126, R127) -/

/-- A result is queued and tells the host, or finds the queue full. -/
theorem State.post_eq (h : ∀ f, t.get f = s.get f) (outcome desc : Nat) :
    t.post outcome 0 desc =
      if 256 ≤ t.sfm.results.length then t.put F.SFM_STAT_RESOVF 1
      else
        let u := { t with sfm := { t.sfm with results := t.sfm.results ++ [⟨outcome, 0, desc⟩] } }
        if s.flag F.SFM_RESCFG_EVT then { u with events := u.events ++ [.hw 0x10C (s.get F.SFM_RESCFG_EVCH)] } else u := by
  rw [State.flag, ← h, ← h]
  rfl

theorem State.post_reg_other (s : State) (outcome slot desc : Nat) (hk : k ≠ Reg.SFM_STAT) :
    (s.post outcome slot desc).reg k = s.reg k := by
  unfold State.post
  split
  · exact State.reg_setReg_other _ _ hk
  · dsimp only
    split <;> rfl

theorem State.post_sph (s : State) (outcome slot desc : Nat) : (s.post outcome slot desc).sph = s.sph := by
  unfold State.post
  split
  · rfl
  · dsimp only
    split <;> rfl

/-- Nothing is shared while no peer follows and none takes over. -/
theorem State.share_alone (hp : s.peerFollows = false) (hh : s.sph.handover = none) (y : SphLater) : s.share y = s := by
  simp [State.share, State.shares, hp, hh]

theorem State.peerFollows_congr (hp : t.pairState = s.pairState) (hs : t.sph = s.sph) : t.peerFollows = s.peerFollows := by
  rw [State.peerFollows, State.peerFollows, hp, hs]

theorem State.command32_submit (h : s.admits r Reg.SFM_SUBMIT true = true) (mode : BitVec 2) (index : BitVec 18) (desc : BitVec 12) :
    s.command32 r Reg.SFM_SUBMIT (wordOf [(0, desc.toNat), (12, index.toNat), (30, mode.toNat)]) =
      ((s.served r Reg.SFM_SUBMIT).submitRequest mode.toNat index.toNat desc.toNat).answered 0 := by
  have hm := mode.isLt
  have hi := index.isLt
  have hd := desc.isLt
  rw [State.command32_sfm directAt_SFM_SUBMIT (by decide) h, State.wroteSfm_SUBMIT, toNat_submitWord]
  congr 2 <;> simp only [bitsOf, Nat.shiftRight_eq_div_pow] <;> omega

theorem exec_sfmSubmit (r : Req) (mode : BitVec 2) (index : BitVec 18) (desc : BitVec 12) (s : State) :
    exec (.sfmSubmit r mode index desc) s =
      .next (s.command32 r.val Reg.SFM_SUBMIT (wordOf [(0, desc.toNat), (12, index.toNat), (30, mode.toNat)])) := rfl

theorem State.command32_cancel (h : s.admits r Reg.SFM_CANCEL true = true) (desc : BitVec 12) :
    s.command32 r Reg.SFM_CANCEL (desc.setWidth 32) = ((s.served r Reg.SFM_CANCEL).cancelRequest desc.toNat).answered 0 := by
  rw [State.command32_sfm directAt_SFM_CANCEL (by decide) h, State.wroteSfm_CANCEL, toNat_setWidth_word _ (by decide), bitsOf_whole]

/-- A result that is posted by an access. -/
theorem State.post_served (s : State) (r k : Nat) (m : Sfm) (outcome desc : Nat) :
    ({ s.served r k with sfm := m } : State).post outcome 0 desc =
      if 256 ≤ m.results.length then ({ s.served r k with sfm := m } : State).put F.SFM_STAT_RESOVF 1
      else
        let u : State := { s.served r k with sfm := { m with results := m.results ++ [⟨outcome, 0, desc⟩] } }
        if s.flag F.SFM_RESCFG_EVT then { u with events := u.events ++ [.hw 0x10C (s.get F.SFM_RESCFG_EVCH)] } else u :=
  State.post_eq (s := s) (t := { s.served r k with sfm := m }) (fun f => State.served_get r k f) outcome desc

/-- A request that is queued by an access goes to no peer where none follows. -/
theorem State.mirrorRequest_alone (hp : s.peerFollows = false) (hh : s.sph.handover = none) (r k : Nat) (m : Sfm) (d i n : Nat) :
    ({ s.served r k with sfm := m } : State).mirrorRequest d i n = { s.served r k with sfm := m } := by
  have hpair : ({ s.served r k with sfm := m } : State).pairState = s.pairState := State.served_pairState s r k
  have hsph : ({ s.served r k with sfm := m } : State).sph = s.sph := State.served_sph s r k
  exact State.share_alone ((State.peerFollows_congr hpair hsph).trans hp) (by rw [hsph, hh]) _

/-- Nor does the result of one that is cancelled. -/
theorem State.mirrorDone_alone (hp : s.peerFollows = false) (hh : s.sph.handover = none) (r k : Nat) (m : Sfm) (o d : Nat) :
    (({ s.served r k with sfm := m } : State).post o 0 d).mirrorDone d o = ({ s.served r k with sfm := m } : State).post o 0 d := by
  have hpair : (({ s.served r k with sfm := m } : State).post o 0 d).pairState = s.pairState :=
    (State.get_congr (State.post_reg_other _ _ _ _ (by decide))).trans (State.served_pairState s r k)
  have hsph : (({ s.served r k with sfm := m } : State).post o 0 d).sph = s.sph :=
    (State.post_sph ..).trans (State.served_sph s r k)
  exact State.share_alone ((State.peerFollows_congr hpair hsph).trans hp) (by rw [hsph, hh]) _

theorem exec_sfmCancel (r : Req) (desc : BitVec 12) (s : State) :
    exec (.sfmCancel r desc) s = .next (s.command32 r.val Reg.SFM_CANCEL (desc.setWidth 32)) := rfl

theorem rowAt_SFM_RESULT : rowAt Reg.SFM_RESULT = some ⟨Reg.SFM_RESULT, 4, 1, 4, 1, .single, 0, 0, 0, 0, 0, 0, 0, 0, 0⟩ := by
  decide +kernel

theorem State.takeResult_nil (h : s.sfm.results = []) : s.takeResult = (0, s) := by simp only [State.takeResult, h]

/-- A result that is read leaves the queue. -/
theorem State.takeResult_cons {y : SfmResult} {rest : List SfmResult} (h : s.sfm.results = y :: rest) :
    s.takeResult = (BitVec.ofNat 32 (2 ^ 31 + y.outcome % 16 * 2 ^ 27 + y.slot % 4096 * 2 ^ 12 + y.desc % 4096),
      { s with sfm := { s.sfm with results := rest } }) := by
  have hpack : pack [(31, 1), (27, y.outcome % 16), (12, y.slot % 4096), (0, y.desc % 4096)] =
      2 ^ 31 + y.outcome % 16 * 2 ^ 27 + y.slot % 4096 * 2 ^ 12 + y.desc % 4096 := by
    simp only [pack, List.foldl, Nat.shiftLeft_eq]
    omega
  simp only [State.takeResult, h, hpack]

/-- A read of SFM_RESULT takes the oldest result. -/
theorem State.query32_result (h : s.admits r Reg.SFM_RESULT false = true) (hn : s.snapOf r Reg.SFM_RESULT = none) :
    s.query32 r Reg.SFM_RESULT =
      (s.served r Reg.SFM_RESULT).takeResult.2.answered (s.served r Reg.SFM_RESULT).takeResult.1 := by
  have hup : upperWords Reg.SFM_RESULT = [] := by decide +kernel
  have hview (p : State) : p.view r Reg.SFM_RESULT Reg.SFM_RESULT = p.takeResult := rfl
  rw [State.query32_row h (by decide) (by decide) rowAt_SFM_RESULT, State.readRow, State.keyOf_single rfl]
  simp only [hn, hview, if_true, State.captureUppers_nil hup]

theorem exec_sfmResult (r : Req) (s : State) : exec (.sfmResult r) s = .next (s.query32 r.val Reg.SFM_RESULT) := rfl

/-! ## An endpoint's account (R134) -/

theorem State.command32_heard (h : s.admits r Reg.SFM_HEARD true = true) (err : BitVec 14) (index : BitVec 18) :
    s.command32 r Reg.SFM_HEARD (wordOf [(0, index.toNat), (18, err.toNat)]) =
      ((s.served r Reg.SFM_HEARD).heard err.toInt index.toNat).answered 0 := by
  have he := err.isLt
  have hi := index.isLt
  have herr : bitsOf (index.toNat + 262144 * err.toNat) 18 14 = err.toNat := by
    simp only [bitsOf, Nat.shiftRight_eq_div_pow]
    omega
  have hindex : bitsOf (index.toNat + 262144 * err.toNat) 0 18 = index.toNat := by
    simp only [bitsOf, Nat.shiftRight_eq_div_pow]
    omega
  rw [State.command32_sfm directAt_SFM_HEARD (by decide) h, State.wroteSfm_HEARD, toNat_heardWord, herr, hindex,
    toSigned_toNat]

theorem exec_sfmHeard (r : Req) (err : BitVec 14) (index : BitVec 18) (s : State) :
    exec (.sfmHeard r err index) s = .next (s.command32 r.val Reg.SFM_HEARD (wordOf [(0, index.toNat), (18, err.toNat)])) := rfl

theorem State.command32_miss (h : s.admits r Reg.SFM_MISS true = true) (index : BitVec 18) :
    s.command32 r Reg.SFM_MISS (index.setWidth 32) = ((s.served r Reg.SFM_MISS).missed index.toNat).answered 0 := by
  rw [State.command32_sfm directAt_SFM_MISS (by decide) h, State.wroteSfm_MISS, toNat_setWidth_word _ (by decide), bitsOf_whole]

theorem exec_sfmMiss (r : Req) (index : BitVec 18) (s : State) :
    exec (.sfmMiss r index) s = .next (s.command32 r.val Reg.SFM_MISS (index.setWidth 32)) := rfl

/-- An update by the superframe machine through an access reads the entry as it stood before. -/
theorem State.sfmUpdate_served (s : State) (r k i : Nat) (f : Nat → Nat) :
    (s.served r k).sfmUpdate i f =
      if s.ready 13 && (s.pairState == 0 || s.pairState == 3) then (s.served r k).setEntry i (f (s.entry i)) else s.served r k := by
  rw [State.sfmUpdate, State.served_ready, State.served_ownsCistern, State.entry_of_mem (State.served_mem r k)]
  rfl

/-! ## O43 -/

/-- A margin plan waits while slots run, and there is none to commit where AGE_STAT.STATE = 0 (14 R456). -/
theorem State.planSettled_idle (h : s.running = true ∨ s.get F.AGE_STAT_STATE = 0) : s.planSettled = s := by
  rcases h with hrun | hnone
  · rw [State.planSettled, if_pos hrun]
  · have hdec : s.planDecided = false := by simp [State.planDecided, hnone]
    rw [State.planSettled, State.commitPlan, hdec]
    simp

/-- Settles O43: each command is the access of its register; what the register's write or read does is its lemma above. -/
theorem superframeCommands : Obligations.SuperframeCommands := by
  unfold Obligations.SuperframeCommands
  refine ⟨fun s h => State.planSettled_idle h, fun s i e hc hi => ⟨State.setEntry_same, fun h => ⟨?_, ?_, ?_, ?_, ?_, ?_⟩⟩,
    fun s r hc => ⟨fun h => ⟨?_, ?_, ?_, ?_⟩, fun shift h => ?_, fun mode index desc h => ⟨?_, ?_⟩, fun desc h => ⟨?_, ?_⟩,
      fun h hn => ⟨?_, ?_⟩, fun index => ⟨fun h => ?_, fun err h => ?_⟩⟩⟩
  · exact State.setEntry_entry_same hc i e
  · exact fun a ha => s.setEntry_byte_other e (by unfold entryAddr; omega)
  · exact State.setEntry_sum hc h
  · exact fun k hk => s.setEntry_reg_other i e hk
  · intro hp hl
    rw [State.setEntry_sph s h, if_pos hp]
    exact any_addMark _ hl i
  · intro hp
    rw [State.setEntry_sph s h, if_neg hp]
  · intro hstay
    rw [exec_sfmRunStart, State.command32_run hc h, if_pos (show s.runFollows = true ∨ _ from hstay)]
  · intro hstay
    rw [exec_sfmRunStop, State.command32_run hc h, if_pos (show s.runFollows = true ∨ _ from hstay)]
  · intro hf hr
    have htakes : ¬(s.runFollows = true ∨ s.flag F.SFM_CTL_RUN = true) := by simp [State.runFollows, hf, hr]
    rw [exec_sfmRunStart, State.command32_run hc h, if_neg htakes, State.runBit_true]
    simp only [State.served_running, State.served_fdr, State.served_flag, State.served_sfm, State.served_reg]
    cases s.running <;> rfl
  · intro hf hr
    have htakes : ¬(s.runFollows = true ∨ s.flag F.SFM_CTL_RUN = false) := by simp [State.runFollows, hf, hr]
    rw [exec_sfmRunStop, State.command32_run hc h, if_neg htakes, State.runBit_false]
    simp only [State.served_running, State.served_fdr, State.served_sfm, State.served_reg]
    cases s.running <;> rfl
  · rw [exec_sfmAdj, State.command32_adj h, State.adjust_eq]
    simp only [State.served_running, State.served_sfm, State.served_pairState]
  · rw [exec_sfmSubmit, State.command32_submit h, State.submitRequest, State.post_eq (State.served_get r.val _),
      State.post_eq (State.served_get r.val _), State.addPending]
    simp only [State.served_sfm, State.served_pairState]
  · exact fun hp hh => State.mirrorRequest_alone hp hh ..
  · rw [exec_sfmCancel, State.command32_cancel h, State.cancelRequest, State.forget, State.served_sfm, State.post_served]
  · intro hp hh
    have halone := State.mirrorDone_alone hp hh r.val Reg.SFM_CANCEL
      { s.sfm with pend := s.sfm.pend.filter (fun x => x.desc != desc.toNat) } 4 desc.toNat
    rwa [State.post_served] at halone
  · intro hres
    rw [exec_sfmResult, State.query32_result h hn, State.takeResult_nil (by rwa [State.served_sfm])]
  · intro y rest hres
    rw [exec_sfmResult, State.query32_result h hn, State.takeResult_cons (by rwa [State.served_sfm]), State.served_sfm]
  · rw [exec_sfmMiss, State.command32_miss h, State.missed, State.sfmUpdate_served]
  · rw [exec_sfmHeard, State.command32_heard h, State.heard, State.sfmUpdate_served, State.served_sfm]
    rfl

end Sys2Proof.Machine
end

section
/-! PROOFS. What a decision of the scheduler may change (04_superframe.md R122, R125, R133, R139, R144, 09_pair_siphon.md R301): never the
slots' own clock, and of memory the Cistern alone. -/

namespace Sys2Proof.Machine

variable {s t u : State} {B : Nat → Prop} {k : Nat} {v : Word}

/-! ## The Siphon -/

/-- All that a frame to the peer leaves as it is. -/
def State.outsidePeer (s : State) : State := { s with free := 0, sph := {} }

theorem State.outsidePeer_putLanes (s : State) (chars : List (SphChar × SphChar)) : (s.putLanes chars).outsidePeer = s.outsidePeer := by
  unfold State.putLanes
  split <;> rfl

theorem State.outsidePeer_transmit (s : State) (type seq : Nat) (sync : Bool) (payload : List Byte) :
    (s.transmit type seq sync payload).outsidePeer = s.outsidePeer := by
  unfold State.transmit State.sendIdles
  dsimp only
  rw [State.outsidePeer_putLanes]
  exact State.outsidePeer_putLanes _ _

theorem State.outsidePeer_emit (s : State) (f : OutFrame) : (s.emit f).outsidePeer = s.outsidePeer := by
  unfold State.emit
  split
  · exact State.outsidePeer_transmit ..
  · rfl

theorem State.outsidePeer_sendWaiting (l : List OutFrame) (s : State) : (s.sendWaiting l).outsidePeer = s.outsidePeer := by
  induction l generalizing s with
  | nil => rfl
  | cons f l ih =>
    unfold State.sendWaiting
    split
    · exact (ih _).trans (State.outsidePeer_emit _ f)
    · rfl

/-- A mirror frame that goes to the peer, or waits for its turn. -/
theorem State.outsidePeer_mirror (s : State) (type : Nat) (payload : List Byte) :
    (s.mirror type payload).outsidePeer = s.outsidePeer := by
  unfold State.mirror State.share
  split
  · rfl
  · split
    · exact State.outsidePeer_sendWaiting _ _
    · rfl

/-! ## The frame of a decision -/

/-- All that a decision leaves as it is, registers aside. -/
def State.outsideDecision (s : State) : State :=
  { s with regs := [], mem := [], free := 0, granules := Vector.replicate 16 [], sph := {}
           sfm := { s.sfm with pend := [], launches := [], occ := [], withheld := false } }

theorem State.outsideDecision_stored (s : State) (r : List (Nat × Word)) (m : List Host.Cell) (p : Sph) :
    ({ s with regs := r, mem := m, sph := p } : State).outsideDecision = s.outsideDecision := rfl

/-- `t` differs from `s` as a decision's outcome may, in memory at the addresses of `B` at most; slots run as they did. -/
structure DecisionFrame (B : Nat → Prop) (s t : State) : Prop where
  keeps : Keeps s t
  parts : t.outsideDecision = s.outsideDecision
  byte : ∀ a, ¬B a → t.byte a = s.byte a
  run : s.canonical = true → t.running = s.running

theorem DecisionFrame.refl (B : Nat → Prop) (s : State) : DecisionFrame B s s := ⟨.refl s, rfl, fun _ _ => rfl, fun _ => rfl⟩

theorem DecisionFrame.trans (h : DecisionFrame B s t) (g : DecisionFrame B t u) : DecisionFrame B s u :=
  ⟨h.keeps.trans g.keeps, g.parts.trans h.parts, fun a ha => (g.byte a ha).trans (h.byte a ha),
    fun hc => (g.run (h.keeps.canon hc)).trans (h.run hc)⟩

/-- A change that leaves memory and SFM_STAT as they are. -/
theorem DecisionFrame.of_stat (hk : Keeps s t) (hp : t.outsideDecision = s.outsideDecision) (hm : t.mem = s.mem)
    (hr : t.reg Reg.SFM_STAT = s.reg Reg.SFM_STAT) : DecisionFrame B s t :=
  ⟨hk, hp, fun a _ => by rw [State.byte, State.byte, hm], fun _ => congrArg (· == 1) (State.get_congr (f := F.SFM_STAT_RUNNING) hr)⟩

theorem DecisionFrame.branch {c : Prop} [Decidable c] (h : DecisionFrame B s t) (g : DecisionFrame B s u) :
    DecisionFrame B s (if c then t else u) := iteInduction (fun _ => h) (fun _ => g)

theorem DecisionFrame.put (s : State) {f : Fld} (n : Nat) (hf : Reg.SFM_STAT ≠ f.key) : DecisionFrame B s (s.put f n) :=
  .of_stat (State.keeps_put (.refl s) f n) rfl rfl (State.reg_setReg_other s _ hf)

/-- NOSB lies beside RUNNING. -/
theorem DecisionFrame.raiseNosb (s : State) : DecisionFrame B s (s.raise F.SFM_STAT_NOSB) :=
  ⟨State.keeps_raise (.refl s) _, rfl, fun _ _ => rfl, fun hc => congrArg (· == 1)
    (State.get_put_apart hc (f := F.SFM_STAT_NOSB) (g := F.SFM_STAT_RUNNING) 1 rfl (by decide) (by decide))⟩

theorem DecisionFrame.record (s : State) {valid ovf : Fld} {fill : State → State} (hv : Reg.SFM_STAT ≠ valid.key)
    (ho : Reg.SFM_STAT ≠ ovf.key) (hf : ∀ u, DecisionFrame B u (fill u)) : DecisionFrame B s (s.record valid ovf fill) := by
  unfold State.record
  split
  · exact .put s 1 ho
  · exact (hf s).trans (.put _ 1 hv)

theorem DecisionFrame.badDesc (s : State) (desc cause : Nat) : DecisionFrame B s (s.badDesc desc cause) :=
  .record s (by decide) (by decide) (fun u => (DecisionFrame.put u cause (by decide)).trans (.put _ desc (by decide)))

theorem DecisionFrame.mirror (s : State) (type : Nat) (payload : List Byte) : DecisionFrame B s (s.mirror type payload) :=
  have h := State.outsidePeer_mirror s type payload
  .of_stat (State.keeps_mirror (.refl s) type payload) (congrArg State.outsideDecision h :) (congrArg State.mem h :)
    (congrArg (fun w => w.reg Reg.SFM_STAT) h :)

theorem DecisionFrame.takeCredit (s : State) (n : Nat) : DecisionFrame B s (s.takeCredit n) := by
  unfold State.takeCredit
  split
  · exact .put s _ (by simp only [Reg.SFM_STAT, F.SFM_QCR_CREDIT, Reg.SFM_QCR]; omega)
  · exact .refl B s

theorem DecisionFrame.charge (s : State) (n : Fin 16) (g d : Nat) : DecisionFrame B s (s.charge n g d) := by
  have hkey : Reg.SFM_STAT ≠ Reg.BKT_USED n.val := by simp only [Reg.SFM_STAT, Reg.BKT_USED]; omega
  exact .of_stat (State.keeps_charge (.refl s) n g d) rfl rfl (State.reg_setReg_other _ _ hkey)

theorem DecisionFrame.decideLaunch (s : State) (l : Launch) : DecisionFrame B s (s.decideLaunch l) := by
  unfold State.decideLaunch
  extract_lets m s1 s2 s3
  have h1 : DecisionFrame B s s1 := .of_stat (Keeps.upd.mpr (.refl s)) rfl rfl rfl
  have h2 : DecisionFrame B s1 s2 := by
    dsimp only [s2]
    split
    · exact .charge ..
    · exact .refl B _
  have h3 : DecisionFrame B s2 s3 := by
    dsimp only [s3]
    split
    · exact .takeCredit ..
    · exact .refl B _
  exact ((h1.trans h2).trans h3).trans (.mirror ..)

theorem DecisionFrame.skipBeacon (s : State) (slot : Nat) : DecisionFrame B s (s.skipBeacon slot) := by
  unfold State.skipBeacon
  split
  · exact .of_stat (Keeps.upd.mpr (.refl s)) rfl rfl rfl
  · split
    · exact .refl B s
    · exact .put s _ (by decide)

/-- The addresses of the Cistern's entries. -/
def inCistern (a : Nat) : Prop := 0x10000000 ≤ a ∧ a < 0x10400000

theorem DecisionFrame.setEntry (s : State) {i : Nat} (e : Nat) (hi : i < 262144) : DecisionFrame inCistern s (s.setEntry i e) where
  keeps := State.keeps_setEntry (.refl s) i e
  parts := by rw [s.setEntry_eq i e]; exact State.outsideDecision_stored s _ _ _
  byte a ha := s.setEntry_byte_other e (by unfold inCistern at ha; unfold entryAddr; omega)
  run _ := congrArg (· == 1) (State.get_congr (f := F.SFM_STAT_RUNNING) (s.setEntry_reg_other i e (by decide)))

theorem DecisionFrame.sfmUpdate (s : State) {i : Nat} (f : Nat → Nat) (hi : i < 262144) :
    DecisionFrame inCistern s (s.sfmUpdate i f) := by
  unfold State.sfmUpdate
  split
  · exact .setEntry s _ hi
  · exact .refl _ s

theorem DecisionFrame.loseSync (s : State) {i : Nat} (hi : i < 262144) : DecisionFrame inCistern s (s.loseSync i) :=
  (DecisionFrame.sfmUpdate s _ hi).trans (.record _ (by decide) (by decide) (fun u => .put u i (by decide)))

/-! ## Requests (R122) -/

/-- A first hop is an entry's index. -/
theorem State.routeFrom_lt (s : State) {n i d f x : Nat} (h : s.routeFrom n i d = some (f, x)) : f < 262144 := by
  induction n generalizing i d with
  | zero => exact absurd h (by simp [State.routeFrom])
  | succ n ih =>
    simp only [State.routeFrom] at h
    split at h
    · exact absurd h (by simp)
    · split at h
      · next hself =>
        obtain ⟨rfl, -⟩ := Prod.mk.inj (Option.some.inj h)
        rw [← hself]
        exact bitsOf_lt _ 100 18
      · exact ih h

/-- What a decision on a request can do. -/
inductive RequestOutcome (s : State) (q : TxReq) : State → Prop
  | waits : RequestOutcome s q s
  | noRoute : RequestOutcome s q (s.record F.CST_NRIDX_VALID F.CST_NRIDX_OVF (fun s => s.put F.CST_NRIDX_INDEX q.index))
  | badDesc (cause : Nat) : RequestOutcome s q (s.badDesc q.desc cause)
  | noBucket : RequestOutcome s q (s.raise F.SFM_STAT_NOSB)
  | launched (l : Launch) : RequestOutcome s q (s.decideLaunch l)
  | deferred (n : Fin 16) : RequestOutcome s q (s.bump (F.BKT_DEF_COUNT n.val))
  | lost (n : Fin 16) (hop : Nat) (h : hop < 262144) : RequestOutcome s q ((s.bump (F.BKT_DEF_COUNT n.val)).loseSync hop)

theorem State.tryRequest_outcome (s : State) (q : TxReq) : RequestOutcome s q (s.tryRequest q).1 := by
  unfold State.tryRequest
  split
  · exact .noRoute
  · next hop depth hroute =>
    have hhop : hop < 262144 := by
      split at hroute
      · exact s.routeFrom_lt hroute
      · exact absurd hroute (by simp)
    extract_lets e d0 d1 d2
    split
    · exact .waits
    · extract_lets bad prof air occ
      rw [apply_ite Prod.fst, apply_ite Prod.fst, apply_ite Prod.fst, apply_ite Prod.fst]
      refine iteInduction (fun _ => .badDesc bad) (fun _ => iteInduction (fun _ => .waits) (fun _ =>
        iteInduction (fun _ => .waits) (fun _ => iteInduction (fun _ => .waits) (fun _ => ?_))))
      split
      · exact .noBucket
      · next n _ =>
        rw [apply_ite Prod.fst]
        refine iteInduction (fun _ => .launched _) (fun _ => ?_)
        exact iteInduction (fun _ => .lost n hop hhop) (fun _ => .deferred n)

theorem DecisionFrame.deferred (s : State) (n : Fin 16) : DecisionFrame B s (s.bump (F.BKT_DEF_COUNT n.val)) :=
  .put s _ (by simp only [Reg.SFM_STAT, F.BKT_DEF_COUNT, Reg.BKT_DEF]; omega)

theorem DecisionFrame.tryRequest (s : State) (q : TxReq) : DecisionFrame inCistern s (s.tryRequest q).1 := by
  have h := s.tryRequest_outcome q
  generalize (s.tryRequest q).1 = u at h ⊢
  cases h with
  | waits => exact .refl _ s
  | noRoute => exact .record s (by decide) (by decide) (fun u => .put u _ (by decide))
  | badDesc cause => exact .badDesc ..
  | noBucket => exact .raiseNosb s
  | launched l => exact .decideLaunch ..
  | deferred n => exact .deferred s n
  | lost n hop h => exact (DecisionFrame.deferred s n).trans (.loseSync _ h)

/-- Requests are tried in order until one is launched. -/
theorem State.tryRequests_cons (s : State) (q : TxReq) (qs : List TxReq) :
    s.tryRequests (q :: qs) = if (s.tryRequest q).2 then (s.tryRequest q).1 else (s.tryRequest q).1.tryRequests qs := by
  rw [State.tryRequests]
  rcases s.tryRequest q with ⟨u, launched⟩
  cases launched <;> rfl

theorem DecisionFrame.tryRequests (s : State) (qs : List TxReq) : DecisionFrame inCistern s (s.tryRequests qs) := by
  induction qs generalizing s with
  | nil => exact .refl _ s
  | cons q qs ih =>
    rw [State.tryRequests_cons]
    split
    · exact .tryRequest s q
    · exact (DecisionFrame.tryRequest s q).trans (ih _)

/-! ## Beacons (R121, R125) -/

/-- What a decision on a beacon can do. -/
inductive BeaconOutcome (s : State) : State → Prop
  | skipped (x : Nat) : BeaconOutcome s (s.skipBeacon x)
  | badDesc (d cause x : Nat) : BeaconOutcome s ((s.badDesc d cause).skipBeacon x)
  | noBucket (x : Nat) : BeaconOutcome s ((s.raise F.SFM_STAT_NOSB).skipBeacon x)
  | launched (l : Launch) (h : l.req = none) : BeaconOutcome s (s.decideLaunch l)

theorem State.decideBeacon_outcome (s : State) : BeaconOutcome s s.decideBeacon := by
  unfold State.decideBeacon
  extract_lets desc d0 d1 d2 khz p prof bad off
  refine iteInduction (fun _ => .skipped _) (fun _ => iteInduction (fun _ => .badDesc desc bad _) (fun _ => ?_))
  split
  · exact .noBucket _
  · exact iteInduction (fun _ => .skipped _) (fun _ => iteInduction (fun _ => .launched _ rfl) (fun _ => .skipped _))

theorem DecisionFrame.decideBeacon (s : State) : DecisionFrame B s s.decideBeacon := by
  have h := s.decideBeacon_outcome
  generalize s.decideBeacon = u at h ⊢
  cases h with
  | skipped x => exact .skipBeacon ..
  | badDesc d cause x => exact (DecisionFrame.badDesc s d cause).trans (.skipBeacon ..)
  | noBucket x => exact (DecisionFrame.raiseNosb s).trans (.skipBeacon ..)
  | launched l h => exact .decideLaunch ..

theorem State.skipBeacon_pend (s : State) (slot : Nat) : (s.skipBeacon slot).sfm.pend = s.sfm.pend := by
  unfold State.skipBeacon
  split
  · rfl
  · split <;> rfl

theorem State.badDesc_sfm (s : State) (desc cause : Nat) : (s.badDesc desc cause).sfm = s.sfm := by
  unfold State.badDesc State.record
  split <;> rfl

theorem State.takeCredit_sfm (s : State) (n : Nat) : (s.takeCredit n).sfm = s.sfm := by
  unfold State.takeCredit
  split <;> rfl

theorem State.mirror_sfm (s : State) (type : Nat) (payload : List Byte) : (s.mirror type payload).sfm = s.sfm :=
  (congrArg State.sfm (State.outsidePeer_mirror s type payload) :)

/-- A launch without a request takes none from the pending ones. -/
theorem State.decideLaunch_pend (s : State) {l : Launch} (hl : l.req = none) : (s.decideLaunch l).sfm.pend = s.sfm.pend := by
  unfold State.decideLaunch
  extract_lets m s1 s2 s3
  have h1 : s1.sfm.pend = s.sfm.pend := by
    dsimp only [s1]
    rw [hl]
  have h2 : s2.sfm = s1.sfm := by
    dsimp only [s2]
    split <;> rfl
  have h3 : s3.sfm = s2.sfm := by
    dsimp only [s3]
    split
    · exact State.takeCredit_sfm ..
    · rfl
  rw [State.mirror_sfm, h3, h2, h1]

theorem State.decideBeacon_pend (s : State) : s.decideBeacon.sfm.pend = s.sfm.pend := by
  have h := s.decideBeacon_outcome
  generalize s.decideBeacon = u at h ⊢
  cases h with
  | skipped x => exact State.skipBeacon_pend ..
  | badDesc d cause x => rw [State.skipBeacon_pend, State.badDesc_sfm]
  | noBucket x => exact State.skipBeacon_pend ..
  | launched l h => exact State.decideLaunch_pend s h

/-! ## The decision of a slot (R122, R146) -/

theorem DecisionFrame.decideSlot (s : State) : DecisionFrame inCistern s s.decideSlot := by
  have hbeacon : DecisionFrame inCistern s (if s.beaconDue then s.decideBeacon else s) := .branch (.decideBeacon s) (.refl _ s)
  exact .branch (.branch (.skipBeacon ..) (.refl _ s)) (.branch (.refl _ s) (.branch (hbeacon.trans (.tryRequests ..)) hbeacon))

/-- With no request waiting a decision is one on the beacon at most. -/
theorem State.decideSlot_cases (h : s.sfm.pend = []) :
    s.decideSlot = s ∨ s.beaconDue = true ∧ (s.decideSlot = s.skipBeacon (s.slotAt 2) ∨ s.decideSlot = s.decideBeacon) := by
  have hnone : (if s.beaconDue then s.decideBeacon else s).sfm.pend = [] := by
    split
    · rw [State.decideBeacon_pend, h]
    · exact h
  unfold State.decideSlot
  extract_lets s1
  rw [hnone, List.filter_nil, State.tryRequests, ite_self]
  dsimp only [s1]
  cases s.beaconDue with
  | false => exact .inl (by simp only [Bool.false_eq_true, if_false, ite_self])
  | true =>
    simp only [if_true, true_and]
    refine iteInduction (motive := fun t => t = s ∨ t = _ ∨ t = _) (fun _ => .inr (.inl rfl)) (fun _ => ?_)
    exact iteInduction (motive := fun t => t = s ∨ t = _ ∨ t = _) (fun _ => .inl rfl) (fun _ => .inr (.inr rfl))

theorem State.decideSlot_idle (hp : s.sfm.pend = []) (hb : s.beaconDue = false) : s.decideSlot = s :=
  (State.decideSlot_cases hp).resolve_right (fun h => absurd h.1 (by simp [hb]))

/-- Equal bytes are equal memories. -/
theorem State.mem_ext (hs : s.canonical = true) (ht : t.canonical = true) (h : ∀ a, t.byte a = s.byte a) : t.mem = s.mem :=
  AMap.wf_ext (State.mem_wf ht) (State.mem_wf hs) h

/-- With no request waiting memory stays. -/
theorem State.decideSlot_mem (hc : s.canonical = true) (h : s.sfm.pend = []) : s.decideSlot.mem = s.mem := by
  have hframe : DecisionFrame (fun _ => False) s s.decideSlot := by
    rcases State.decideSlot_cases h with he | ⟨-, he | he⟩ <;> rw [he]
    · exact .refl _ s
    · exact .skipBeacon ..
    · exact .decideBeacon s
  exact State.mem_ext hc (hframe.keeps.canon hc) (fun a => hframe.byte a id)

end Sys2Proof.Machine
end

section
/-! PROOFS. A slot passes (04_superframe.md R114 to R116, R123, R138): the clock, the times of launches and occupancies, the bucket sums;
the stop of the slots; and the commit of a margin plan beside them (14 R456). -/

namespace Sys2Proof.Machine

variable {s t u : State} {rest : State → State} {K L : Nat → Prop} {k : Nat}

/-! ## Changes within named parts -/

/-- `t` agrees with `s` in what `rest` shows, and in every register outside `K`. -/
structure ChangeFrame (rest : State → State) (K : Nat → Prop) (s t : State) : Prop where
  keeps : Keeps s t
  parts : rest t = rest s
  reg : ∀ k, ¬K k → t.reg k = s.reg k

theorem ChangeFrame.refl (rest : State → State) (K : Nat → Prop) (s : State) : ChangeFrame rest K s s := ⟨.refl s, rfl, fun _ _ => rfl⟩

theorem ChangeFrame.trans (h : ChangeFrame rest K s t) (g : ChangeFrame rest K t u) : ChangeFrame rest K s u :=
  ⟨h.keeps.trans g.keeps, g.parts.trans h.parts, fun k hk => (g.reg k hk).trans (h.reg k hk)⟩

theorem ChangeFrame.mono (hKL : ∀ k, K k → L k) (h : ChangeFrame rest K s t) : ChangeFrame rest L s t :=
  ⟨h.keeps, h.parts, fun k hk => h.reg k (fun x => hk (hKL k x))⟩

theorem ChangeFrame.branch {c : Prop} [Decidable c] (h : ChangeFrame rest K s t) (g : ChangeFrame rest K s u) :
    ChangeFrame rest K s (if c then t else u) := iteInduction (fun _ => h) (fun _ => g)

theorem ChangeFrame.each {α : Type} {f : State → α → State} {l : List α} (hf : ∀ u, ∀ x ∈ l, ChangeFrame rest K u (f u x)) (s : State) :
    ChangeFrame rest K s (s.each l f) := by
  induction l generalizing s with
  | nil => exact .refl rest K s
  | cons x l ih =>
    exact (hf s x (List.mem_cons_self ..)).trans (ih (fun u y hy => hf u y (List.mem_cons_of_mem x hy)) (f s x))

theorem ChangeFrame.put (s : State) (f : Fld) (n : Nat) (hp : rest (s.put f n) = rest s) (h : K f.key) :
    ChangeFrame rest K s (s.put f n) :=
  ⟨State.keeps_put (.refl s) f n, hp, fun _ hk => State.reg_setReg_other s _ (fun e => hk (e ▸ h))⟩

/-- A change of no register. -/
theorem ChangeFrame.of_regs (hk : Keeps s t) (hp : rest t = rest s) (hr : t.regs = s.regs) : ChangeFrame rest K s t :=
  ⟨hk, hp, fun k _ => by rw [State.reg, State.reg, hr]⟩

theorem ChangeFrame.get (h : ChangeFrame rest K s t) {f : Fld} (hf : ¬K f.key) : t.get f = s.get f := State.get_congr (h.reg f.key hf)

/-! ## The slots' own clock -/

/-- The superframe machine without requests, results, launches and beacons. -/
def Sfm.timing (m : Sfm) : Sfm :=
  { m with pend := [], nextOrd := 0, results := [], launches := [], occ := [], quiet := false, withheld := false }

/-- Slots pass in `t` as they do in `s`. -/
structure ClockFrame (s t : State) : Prop where
  keeps : Keeps s t
  timing : t.sfm.timing = s.sfm.timing
  fdr : t.fdr = s.fdr
  run : s.canonical = true → t.running = s.running

theorem ClockFrame.refl (s : State) : ClockFrame s s := ⟨.refl s, rfl, rfl, fun _ => rfl⟩

theorem ClockFrame.trans (h : ClockFrame s t) (g : ClockFrame t u) : ClockFrame s u :=
  ⟨h.keeps.trans g.keeps, g.timing.trans h.timing, g.fdr.trans h.fdr, fun hc => (g.run (h.keeps.canon hc)).trans (h.run hc)⟩

theorem DecisionFrame.clock {B : Nat → Prop} (h : DecisionFrame B s t) : ClockFrame s t :=
  ⟨h.keeps, (congrArg (fun u => u.sfm.timing) h.parts :), (congrArg State.fdr h.parts :), h.run⟩

theorem running_congr (h : t.reg Reg.SFM_STAT = s.reg Reg.SFM_STAT) : t.running = s.running :=
  congrArg (· == 1) (State.get_congr (f := F.SFM_STAT_RUNNING) h)

/-! ## Bucket sums (R138) -/

/-- The sums of the duty buckets. -/
def sumKey (k : Nat) : Prop := ∃ n : Fin 16, k = Reg.BKT_USED n.val

theorem not_sumKey (h : k < 0x200C800C ∨ 0x200C81EC < k) : ¬sumKey k := by
  rintro ⟨n, rfl⟩
  have hn := n.isLt
  simp only [Reg.BKT_USED] at h
  omega

/-- All that a move of the windows leaves as it is, registers aside. -/
def State.outsideSums (s : State) : State := { s with regs := [], granules := Vector.replicate 16 [] }

theorem State.outsideSums_put (s : State) (f : Fld) (n : Nat) : (s.put f n).outsideSums = s.outsideSums := rfl

theorem eq_of_outsideSums (h : t.outsideSums = s.outsideSums) : t = { s with regs := t.regs, granules := t.granules } :=
  calc t = { t.outsideSums with regs := t.regs, granules := t.granules } := rfl
    _ = { s.outsideSums with regs := t.regs, granules := t.granules } := by rw [h]
    _ = { s with regs := t.regs, granules := t.granules } := rfl

/-- The window of bucket `n` moves to granule `g`. -/
def State.moveWindow (s : State) (g : Nat) (n : Fin 16) : State :=
  ({ s with granules := s.granules.set n.val (s.granules[n.val].filter (fun e => decide (g ≤ e.1 + 3599))) }).sumBucket n g

theorem State.moveWindows_each (s : State) :
    s.moveWindows = s.each (List.finRange 16) (fun u n => u.moveWindow (granuleOf s.sfm.asn.toNat) n) := rfl

theorem State.outsideSums_moveWindow (s : State) (g : Nat) (n : Fin 16) : (s.moveWindow g n).outsideSums = s.outsideSums :=
  State.outsideSums_put _ _ _

/-- Moving the windows changes the granules and their sums. -/
theorem State.moveWindows_eq (s : State) :
    s.moveWindows = { s with regs := s.moveWindows.regs, granules := s.moveWindows.granules } := by
  have hsums : s.moveWindows.outsideSums = s.outsideSums := by
    rw [State.moveWindows_each]
    exact State.each_unchanged State.outsideSums (fun u n => u.outsideSums_moveWindow _ n) _ s
  exact eq_of_outsideSums hsums

theorem State.moveWindow_reg (s : State) (g : Nat) (n : Fin 16) (hk : k ≠ Reg.BKT_USED n.val) : (s.moveWindow g n).reg k = s.reg k :=
  State.reg_setReg_other { s with granules := _ } _ hk

theorem State.moveWindows_reg (s : State) (hk : ¬sumKey k) : s.moveWindows.reg k = s.reg k := by
  rw [State.moveWindows_each]
  exact State.each_unchanged (fun u => u.reg k) (fun u n => u.moveWindow_reg _ n (fun e => hk ⟨n, e⟩)) _ s

/-! ## A slot begins -/

/-- A launch whose times are measured from `d` units later. -/
def Launch.back (d : Int) (l : Launch) : Launch := { l with first := l.first - d, occStart := l.occStart - d, occEnd := l.occEnd - d }

/-- The occupancies measured from `d` units later that have not ended. -/
def nearerOcc (d : Int) (occ : List (Int × Int)) : List (Int × Int) :=
  (occ.map (fun o => (o.1 - d, o.2 - d))).filter (fun o => decide (0 < o.2))

/-- The machine with its times measured from `d` units later. -/
def Sfm.back (m : Sfm) (d : Int) : Sfm := { m with launches := m.launches.map (Launch.back d), occ := nearerOcc d m.occ }

/-- The machine with the number and the length of the slot that starts. -/
def Sfm.numbered (m : Sfm) (asn : Nat) : Sfm :=
  { m with asn := BitVec.ofNat 40 asn, slotLen := (slewStep m.slew).1, offSeen := 0, slew := (slewStep m.slew).2 }

/-- The machine in slot `asn`, which begins `d` units after what times were measured from. -/
def Sfm.begun (m : Sfm) (asn : Nat) (d : Int) : Sfm := (m.numbered asn).back d

/-- Slot `asn` begins. -/
def State.slotBegun (s : State) (asn : Nat) (d : Int) : State := (s.startSlot asn).shiftTimes d

/-- Times measured afresh in a state whose machine is `m`. -/
theorem State.shiftTimes_parts {m : Sfm} (h : t = { s with regs := t.regs, granules := t.granules, sfm := m }) (d : Int) :
    t.shiftTimes d = { s with regs := (t.shiftTimes d).regs, granules := (t.shiftTimes d).granules, tx := (t.shiftTimes d).tx
                              sfm := m.back d } := by
  generalize t.regs = r, t.granules = g at h
  subst h
  rfl

theorem State.startSlot_moves (s : State) (asn : Nat) :
    s.startSlot asn = ({ s with sfm := s.sfm.numbered asn } : State).moveWindows := rfl

theorem State.startSlot_eq (s : State) (asn : Nat) :
    s.startSlot asn = { s with regs := (s.startSlot asn).regs, granules := (s.startSlot asn).granules
                               sfm := s.sfm.numbered asn } := by
  rw [State.startSlot_moves]
  exact State.moveWindows_eq { s with sfm := s.sfm.numbered asn }

theorem State.slotBegun_eq (s : State) (asn : Nat) (d : Int) :
    s.slotBegun asn d = { s with regs := (s.slotBegun asn d).regs, granules := (s.slotBegun asn d).granules
                                 tx := (s.slotBegun asn d).tx, sfm := s.sfm.begun asn d } := by
  rw [State.slotBegun]
  exact State.shiftTimes_parts (s.startSlot_eq asn) d

theorem State.shiftTimes_reg (s : State) (d : Int) (k : Nat) : (s.shiftTimes d).reg k = s.reg k := rfl

theorem State.slotBegun_reg (s : State) (asn : Nat) (d : Int) (hk : ¬sumKey k) : (s.slotBegun asn d).reg k = s.reg k := by
  rw [State.slotBegun, State.shiftTimes_reg, State.startSlot_moves, State.moveWindows_reg _ hk]
  rfl

theorem State.keeps_slotBegun (s : State) (asn : Nat) (d : Int) : Keeps s (s.slotBegun asn d) :=
  State.keeps_shiftTimes (State.keeps_startSlot (.refl s) asn) d

/-- The length of a slot, with the part of the shift that it takes (R116). -/
theorem Sfm.begun_slotLen (m : Sfm) (asn : Nat) (d : Int) : ((m.begun asn d).slotLen : Int) = 80000 + max (-8) (min 8 m.slew) := by
  change ((80000 + max (-8) (min 8 m.slew)).toNat : Int) = _
  omega

/-- The slot that ends becomes the one before. -/
def Sfm.ended (m : Sfm) : Sfm := { m with clock := m.clock + m.slotLen, prevAsn := m.asn.toNat, prevLen := m.slotLen, pause := 0 }

/-- The feeder's frames go on. -/
def State.freeFrames (s : State) : State := { s with fdr := { s.fdr with realign := false } }

/-- The state as the boundary to the next slot leaves it before its actions. -/
def State.slotPassed (s : State) : State := ((s.endSlot.slotBegun (s.sfm.asn.toNat + 1) 80000).pruneMirror).freeFrames

theorem State.freeFrames_pruneMirror_eq {m : Sfm} (h : t = { s with regs := t.regs, granules := t.granules, tx := t.tx, sfm := m }) :
    t.pruneMirror.freeFrames = { s with regs := t.pruneMirror.freeFrames.regs, granules := t.pruneMirror.freeFrames.granules
                                        tx := t.pruneMirror.freeFrames.tx, sph := t.pruneMirror.freeFrames.sph
                                        fdr := { s.fdr with realign := false }, sfm := m } := by
  generalize t.regs = r, t.granules = g, t.tx = x at h
  subst h
  rfl

theorem State.slotPassed_eq (s : State) :
    s.slotPassed = { s with regs := s.slotPassed.regs, granules := s.slotPassed.granules, tx := s.slotPassed.tx
                            sph := s.slotPassed.sph, fdr := { s.fdr with realign := false }
                            sfm := s.sfm.ended.begun (s.sfm.asn.toNat + 1) 80000 } := by
  rw [State.slotPassed]
  exact State.freeFrames_pruneMirror_eq (s.endSlot.slotBegun_eq (s.sfm.asn.toNat + 1) 80000)

theorem State.freeFrames_pruneMirror_reg (s : State) (k : Nat) : (s.pruneMirror.freeFrames).reg k = s.reg k := rfl

theorem State.slotPassed_reg (s : State) (hk : ¬sumKey k) : s.slotPassed.reg k = s.reg k := by
  rw [State.slotPassed, State.freeFrames_pruneMirror_reg, State.slotBegun_reg _ _ _ hk]
  rfl

theorem State.keeps_slotPassed (s : State) : Keeps s s.slotPassed :=
  Keeps.upd.mpr (State.keeps_pruneMirror ((Keeps.upd.mpr (.refl s) : Keeps s s.endSlot).trans (State.keeps_slotBegun ..)))

/-- What follows the start of a slot. -/
def State.actions (s : State) (dt : Nat) : State :=
  if s.sfm.asn.toNat % 128 = 0 then ((s.superframe dt).decideSlot).commitPlan else s.decideSlot

/-- A boundary where slots run and no stop is due. -/
theorem exec_slotBoundary_runs (hrun : s.running = true) (hstop : s.sfm.stopPend = false) (dt : Nat) :
    exec (.slotBoundary dt) s = .next (s.slotPassed.actions dt) := by
  change execSlotBoundary dt s = _
  rw [execSlotBoundary, hrun, hstop]
  rfl

/-- A boundary where a stop is due. -/
theorem exec_slotBoundary_stops (hrun : s.running = true) (hstop : s.sfm.stopPend = true) (dt : Nat) :
    exec (.slotBoundary dt) s = .next s.stopSlots.commitPlan := by
  change execSlotBoundary dt s = _
  rw [execSlotBoundary, hrun, hstop]
  rfl

/-! ## The commit of a plan (14 R456, R457) -/

/-- All that the commit of a plan leaves as it is, registers aside. -/
def State.outsidePlan (s : State) : State := { s with regs := [], flc := {}, pwr := {} }

/-- The registers a plan's commit may change. -/
def planKey (k : Nat) : Prop :=
  k = Reg.AGE_STAT ∨ (∃ n < 4, k = Reg.PWR_OP n) ∨ k = Reg.TXP_BACKOFF ∨ k = Reg.SYN_VCOLIM ∨ k = Reg.FLC_TIMING ∨ k = Reg.PWR_STAT ∨
    k = Reg.FLC_LOGSTAT

theorem ChangeFrame.planPut (s : State) (f : Fld) (n : Nat) (h : planKey f.key) : ChangeFrame State.outsidePlan planKey s (s.put f n) :=
  .put s f n rfl h

theorem ChangeFrame.planPwr (s : State) (x : Pwr) : ChangeFrame State.outsidePlan planKey s { s with pwr := x } :=
  .of_regs (Keeps.upd.mpr (.refl s)) rfl rfl

theorem ChangeFrame.planFlc (s : State) (x : Flc) : ChangeFrame State.outsidePlan planKey s { s with flc := x } :=
  .of_regs (Keeps.upd.mpr (.refl s)) rfl rfl

theorem ChangeFrame.log (s : State) (code detail : Nat) : ChangeFrame State.outsidePlan planKey s (s.log code detail) := by
  unfold State.log
  have hdrop : planKey F.FLC_LOGSTAT_DROP.key := by simp [planKey, F.FLC_LOGSTAT_DROP]
  exact .branch (.branch (.planFlc s _) (.planPut s _ _ hdrop)) (.refl _ _ s)

theorem ChangeFrame.planSetReg (s : State) (k : Nat) (v : Word) (h : planKey k) :
    ChangeFrame State.outsidePlan planKey s (s.setReg k v) :=
  ⟨Keeps.setReg (.refl s) k v, rfl, fun _ hk => State.reg_setReg_other s _ (fun e => hk (e ▸ h))⟩

/-- The margins that a plan writes. -/
theorem ChangeFrame.writeMargins (s : State) : ChangeFrame State.outsidePlan planKey s s.writeMargins := by
  have hage : planKey Reg.AGE_STAT := .inl rfl
  unfold State.writeMargins
  extract_lets s0 p old s1 s2
  have h0 : ChangeFrame State.outsidePlan planKey s s0 := .planPut s _ _ hage
  have h1 : ChangeFrame State.outsidePlan planKey s0 s1 :=
    .each (fun u x hx => .planSetReg u _ _ (.inr (.inl ⟨x.1, List.mem_range.mp (List.of_mem_zip hx).1, rfl⟩))) s0
  have h2 : ChangeFrame State.outsidePlan planKey s1 s2 :=
    ((ChangeFrame.planPut s1 F.TXP_BACKOFF_STEPS _ (by simp [planKey, F.TXP_BACKOFF_STEPS])).trans
      (.planSetReg _ Reg.SYN_VCOLIM _ (by simp [planKey]))).trans (.planPut _ F.FLC_TIMING_PW _ (by simp [planKey, F.FLC_TIMING_PW]))
  exact .branch (h0.trans (.planPut _ _ _ hage)) (((h0.trans h1).trans h2).trans ((ChangeFrame.planPut _ _ _ hage).trans (.log ..)))

theorem ChangeFrame.beginPoint (s : State) (r : PwrReq) : ChangeFrame State.outsidePlan planKey s (s.beginPoint r) :=
  .branch (.planPwr s _) (.refl _ _ s)

/-- A request that changes the operating point alone leaves the slots as they are. -/
theorem ChangeFrame.pointWritten (s : State) (n : Nat) : ChangeFrame State.outsidePlan planKey s (s.pointWritten n) := by
  have hstat : planKey Reg.PWR_STAT := by simp [planKey]
  have hhold (r : PwrReq) : ChangeFrame State.outsidePlan planKey s (s.holdRequest r) :=
    ((ChangeFrame.planPwr s _).trans (.planPut _ _ _ hstat)).trans (.planPut _ _ _ hstat)
  have hbegin (r : PwrReq) (hr : r.state ≤ 1) : ChangeFrame State.outsidePlan planKey s (s.beginTransition r) := by
    unfold State.beginTransition
    extract_lets p s1 s2
    have h1 : ChangeFrame State.outsidePlan planKey s s1 := (ChangeFrame.planPwr s _).trans (.beginPoint _ r)
    rw [if_neg (by omega)]
    exact (h1.trans (.planPut _ _ _ hstat)).trans (.planPut _ _ _ hstat)
  unfold State.pointWritten
  by_cases hstate : s.pwrState ≤ 1 ∧ n = s.get F.PWR_STAT_OP
  · rw [if_pos hstate]
    exact .branch (hhold _) (hbegin _ hstate.1)
  · rw [if_neg hstate]
    exact .refl _ _ s

theorem ChangeFrame.commitPlan (s : State) : ChangeFrame State.outsidePlan planKey s s.commitPlan :=
  .branch (.branch (.writeMargins s) ((ChangeFrame.writeMargins s).trans (.pointWritten ..))) (.refl _ _ s)

/-- No plan commits where there is none. -/
theorem State.commitPlan_idle (h : s.get F.AGE_STAT_STATE = 0) : s.commitPlan = s := by
  have hnone : s.planDecided = false := by simp [State.planDecided, h]
  rw [State.commitPlan, hnone]
  simp

theorem not_planKey (h : 0x200C0000 ≤ k ∧ k < 0x20110000 ∨ k < 0x20010000 ∨ 0x80000000 ≤ k) : ¬planKey k := by
  rintro (rfl | ⟨n, hn, rfl⟩ | rfl | rfl | rfl | rfl | rfl) <;>
    simp only [Reg.AGE_STAT, Reg.PWR_OP, Reg.TXP_BACKOFF, Reg.SYN_VCOLIM, Reg.FLC_TIMING, Reg.PWR_STAT, Reg.FLC_LOGSTAT] at h <;> omega

theorem ClockFrame.commitPlan (s : State) : ClockFrame s s.commitPlan :=
  have h := ChangeFrame.commitPlan s
  ⟨h.keeps, (congrArg (fun u => u.sfm.timing) h.parts :), (congrArg State.fdr h.parts :),
    fun _ => running_congr (h.reg _ (not_planKey (by decide)))⟩

/-! ## The stop (R115) -/

/-- The machine as a stop leaves it. -/
def Sfm.stopped (m : Sfm) : Sfm :=
  ({ m.ended with withheld := false, stopPend := false, quiet := false, slotLen := 80000 } : Sfm).back 80000

theorem State.countWithheld_eq (s : State) (quiet : Bool) :
    s.countWithheld quiet = { s with regs := (s.countWithheld quiet).regs, sfm := { s.sfm with withheld := false } } := by
  unfold State.countWithheld
  dsimp only
  split <;> rfl

theorem State.countWithheld_reg (s : State) (quiet : Bool) :
    (s.countWithheld quiet).reg k = (if s.sfm.withheld && !quiet then s.bump F.SFM_BCNSKIP_COUNT else s).reg k := rfl

/-- The slots' last boundary before the marks of quiet superframes and of running slots are cleared. -/
def State.slotsEnded (s : State) : State :=
  let s0 := s.endSlot.countWithheld false
  { s0 with sfm := { s0.sfm with stopPend := false, quiet := false, slotLen := 80000 }
            fdr := { s0.fdr with realign := false } }.shiftTimes 80000

theorem State.stopSlots_eq (s : State) :
    s.stopSlots = ((s.slotsEnded.lower (F.SYS_STAGE_STAT_QUIET 0)).lower (F.SYS_STAGE_STAT_QUIET 1)).lower F.SFM_STAT_RUNNING := rfl

theorem State.slotsEnded_eq (s : State) :
    s.slotsEnded = { s with regs := s.slotsEnded.regs, tx := s.slotsEnded.tx, sfm := s.sfm.stopped, fdr := { s.fdr with realign := false } } := by
  unfold State.slotsEnded
  dsimp only
  rw [State.countWithheld_eq]
  rfl

theorem State.slotsEnded_reg (s : State) (k : Nat) :
    s.slotsEnded.reg k = (if s.sfm.withheld then s.bump F.SFM_BCNSKIP_COUNT else s).reg k := by
  have hreg : s.slotsEnded.reg k = (s.endSlot.countWithheld false).reg k := rfl
  rw [hreg, State.countWithheld_reg]
  cases h : s.sfm.withheld <;> simp [State.endSlot, h] <;> rfl

end Sys2Proof.Machine
end

section
/-! PROOFS. The commits of a superframe boundary (01_system_map.md R36, R37): each armed world's set becomes active or its result says
NEEDS_GAP, and a world that ordered a GAP begins its quiet superframe. -/

namespace Sys2Proof.Machine

variable {s t u v : State} {K : Nat → Prop} {k : Nat} {x : RegRow}

/-! ## What the commits leave -/

/-- All that the commits leave as it is, registers aside. -/
def State.outsideCommit (s : State) : State :=
  { s with regs := [], act := [], pulses := [], lane := Vector.replicate 96 {}, chain := Vector.replicate 2 {}, ldpQueue := []
           ldp := Vector.replicate 8 none }

theorem ReceiveFrame.change (hk : Keeps s t) (h : ReceiveFrame K s t) : ChangeFrame State.outsideCommit K s t :=
  ⟨hk, by rw [h.parts]; rfl, h.reg⟩

theorem ChangeFrame.commitPut (s : State) (f : Fld) (n : Nat) (h : K f.key) : ChangeFrame State.outsideCommit K s (s.put f n) :=
  .put s f n rfl h

theorem ChangeFrame.stageResult (s : State) (ns : Bool) (n : Nat) :
    ChangeFrame State.outsideCommit (stageKey (bit01 ns)) s (s.stageResult ns n) :=
  ⟨State.keeps_stageResult (.refl s) ns n, rfl, fun _ hk => s.stageResult_reg ns n (fun e => hk (.inl e)) (fun e => hk (.inr e))⟩

theorem ChangeFrame.committed (s : State) (ns c : Bool) :
    ChangeFrame State.outsideCommit (stageKey (bit01 ns)) s (s.committed ns c) where
  keeps := by
    cases c
    · exact .refl s
    · exact State.keeps_stageResult (State.keeps_activate (.refl s) ns) ns 1
  parts := by rw [State.committed_eq]; rfl
  reg _ hk := s.committed_reg_of_not_stageKey ns c hk

/-! ## One world at the boundary -/

/-- World `ns` commits at a boundary: it is armed, and ordered a GAP or needs none. -/
def State.commits (s : State) (ns : Bool) : Bool :=
  s.flag (F.SYS_STAGE_CTL_ARM (bit01 ns)) && (s.flag (F.SYS_STAGE_CTL_GAP (bit01 ns)) || !s.needsGap (s.activate ns))

/-- World `ns` after a boundary that found it armed (`a`) and let it commit (`c`). -/
def State.judged (s : State) (ns a c : Bool) : State := if a && !c then s.stageResult ns 2 else s.committed ns c

theorem ChangeFrame.judged (s : State) (ns a c : Bool) :
    ChangeFrame State.outsideCommit (stageKey (bit01 ns)) s (s.judged ns a c) :=
  .branch (.stageResult ..) (.committed ..)

theorem State.judged_pulses (s : State) (ns : Bool) {a c : Bool} (h : c = true → a = true) :
    (s.judged ns a c).pulses = s.pulses ++ if a then [2 + bit01 ns] else [] := by
  unfold State.judged
  cases c
  · cases a
    · exact (List.append_nil _).symm
    · rfl
  · rw [h rfl, Bool.not_true, Bool.and_false, if_neg (by decide), State.committed_eq]

theorem State.judged_get (hc : s.canonical = true) (ns c : Bool) :
    (s.judged ns true c).get (F.SYS_STAGE_CTL_ARM (bit01 ns)) = 0 ∧ (s.judged ns true c).get (F.SYS_STAGE_CTL_GAP (bit01 ns)) = 0 ∧
      (s.judged ns true c).get (F.SYS_STAGE_STAT_RESULT (bit01 ns)) = if c then 1 else 2 := by
  cases c
  · exact State.stageResult_get hc ns 2
  · exact State.committed_get hc ns

theorem State.judged_activeReg (hc : s.canonical = true) (ns a c : Bool) (k : Nat) :
    (s.judged ns a c).activeReg k = mergeBits (if c then s.stagedMask ns k else 0) (s.activeReg k) (s.reg k) := by
  unfold State.judged
  split
  · next h =>
    rw [Bool.and_eq_true, Bool.not_eq_true'] at h
    rw [h.2]
    exact (mergeBits_none _ _).symm
  · exact State.committed_activeReg hc ns c k

theorem State.judged_blockNS (s : State) (ns a c : Bool) (i : Nat) : (s.judged ns a c).blockNS i = s.blockNS i := by
  have hframe := ChangeFrame.judged s ns a c
  have hkey : ¬stageKey (bit01 ns) Reg.SYS_WLD_BLK := by
    cases ns <;> simp [stageKey, Reg.SYS_WLD_BLK, Reg.SYS_STAGE_CTL, Reg.SYS_STAGE_STAT, bankKey, bit01]
  have hforce : (s.judged ns a c).inForce = s.inForce := (congrArg State.inForce hframe.parts :)
  simp only [State.blockNS, State.worldWord, hforce, hframe.reg _ hkey]

/-- A commit is judged on the state before any world committed. -/
theorem State.commitWorld_judged (s0 s : State) (ns : Bool)
    (ha : s.flag (F.SYS_STAGE_CTL_ARM (bit01 ns)) = s0.flag (F.SYS_STAGE_CTL_ARM (bit01 ns)))
    (hg : s.flag (F.SYS_STAGE_CTL_GAP (bit01 ns)) = s0.flag (F.SYS_STAGE_CTL_GAP (bit01 ns))) :
    s0.commitWorld s ns = (s.judged ns (s0.flag (F.SYS_STAGE_CTL_ARM (bit01 ns))) (s0.commits ns), s0.commits ns) := by
  unfold State.commitWorld State.judged State.commits
  dsimp only
  rw [ha, hg]
  cases s0.flag (F.SYS_STAGE_CTL_ARM (bit01 ns)) <;> cases s0.flag (F.SYS_STAGE_CTL_GAP (bit01 ns)) <;>
    cases s0.needsGap (s0.activate ns) <;> rfl

/-! ## Both worlds at the boundary -/

/-- The secure world judged. -/
def State.judgedSec (s : State) : State := s.judged false (s.flag (F.SYS_STAGE_CTL_ARM 0)) (s.commits false)

/-- Both worlds judged. -/
def State.judgedBoth (s : State) : State := s.judgedSec.judged true (s.flag (F.SYS_STAGE_CTL_ARM 1)) (s.commits true)

/-- What the boundary's commits leave. -/
def State.boundaryOutcome (s : State) : State :=
  if s.commits false || s.commits true then (s.settle s.judgedBoth).nextEpoch else s.judgedBoth

theorem State.judgedSec_nonsec (s : State) (h : stageKey 1 k) : s.judgedSec.reg k = s.reg k :=
  (ChangeFrame.judged s false _ _).reg k (not_stageKey_of_stageKey h (by decide))

theorem State.judgedBoth_sec (s : State) (h : stageKey 0 k) : s.judgedBoth.reg k = s.judgedSec.reg k :=
  (ChangeFrame.judged s.judgedSec true _ _).reg k (not_stageKey_of_stageKey h (by decide))

theorem State.commitWorlds_both (s : State) : s.commitWorlds true true = s.boundaryOutcome := by
  have hsec : s.commitWorld s false = (s.judgedSec, s.commits false) := State.commitWorld_judged s s false rfl rfl
  have harm : s.judgedSec.flag (F.SYS_STAGE_CTL_ARM 1) = s.flag (F.SYS_STAGE_CTL_ARM 1) :=
    congrArg (· == 1) (State.get_congr (f := F.SYS_STAGE_CTL_ARM 1) (s.judgedSec_nonsec (.inl rfl)))
  have hgap : s.judgedSec.flag (F.SYS_STAGE_CTL_GAP 1) = s.flag (F.SYS_STAGE_CTL_GAP 1) :=
    congrArg (· == 1) (State.get_congr (f := F.SYS_STAGE_CTL_GAP 1) (s.judgedSec_nonsec (.inl rfl)))
  have hnonsec : s.commitWorld s.judgedSec true = (s.judgedBoth, s.commits true) :=
    State.commitWorld_judged s s.judgedSec true harm hgap
  rw [State.commitWorlds, if_pos rfl, hsec]
  dsimp only
  rw [if_pos rfl, hnonsec]
  rfl

theorem ChangeFrame.judgedBoth (s : State) : ChangeFrame State.outsideCommit (fun k => ∃ w < 2, stageKey w k) s s.judgedBoth :=
  ((ChangeFrame.judged s false _ _).mono (fun _ h => ⟨0, by decide, h⟩)).trans
    ((ChangeFrame.judged _ true _ _).mono (fun _ h => ⟨1, by decide, h⟩))

/-- What follows the two worlds' own results changes the receive path, the marks of the chains and the epoch. -/
theorem ReceiveFrame.boundaryOutcome (s : State) :
    ReceiveFrame (fun k => settleKey k ∨ k = Reg.SYS_EPOCH) s.judgedBoth s.boundaryOutcome := by
  unfold State.boundaryOutcome
  split
  · exact ((ReceiveFrame.settle s _).mono (fun _ => .inl)).trans ((ReceiveFrame.nextEpoch _).mono (fun _ => .inr))
  · exact .refl _ _

theorem State.keeps_boundaryOutcome (s : State) : Keeps s.judgedBoth s.boundaryOutcome :=
  Keeps.branch (State.keeps_put (State.keeps_settle s (.refl _)) _ _) (.refl _)

theorem ChangeFrame.boundaryOutcome (s : State) : ChangeFrame State.outsideCommit commitKey s s.boundaryOutcome :=
  ((ChangeFrame.judgedBoth s).mono (fun _ => .inl)).trans
    (((ReceiveFrame.boundaryOutcome s).change s.keeps_boundaryOutcome).mono (fun _ => .inr))

theorem State.boundaryOutcome_stage (s : State) {w : Nat} (h : stageKey w k) : s.boundaryOutcome.reg k = s.judgedBoth.reg k :=
  (ReceiveFrame.boundaryOutcome s).reg k (fun e => not_stageKey_of_settleKey e w h)

theorem State.judgedSec_canonical (hc : s.canonical = true) : s.judgedSec.canonical = true :=
  (ChangeFrame.judged s false _ _).keeps.canon hc

/-- The staging registers of an armed world. -/
theorem State.boundaryOutcome_world (hc : s.canonical = true) (ns : Bool) (h : s.flag (F.SYS_STAGE_CTL_ARM (bit01 ns)) = true) :
    s.boundaryOutcome.get (F.SYS_STAGE_CTL_ARM (bit01 ns)) = 0 ∧ s.boundaryOutcome.get (F.SYS_STAGE_CTL_GAP (bit01 ns)) = 0 ∧
      s.boundaryOutcome.get (F.SYS_STAGE_STAT_RESULT (bit01 ns)) = if s.commits ns then 1 else 2 := by
  have hjudged : ∃ p : State, (∀ k, stageKey (bit01 ns) k → s.judgedBoth.reg k = p.reg k) ∧
      p.get (F.SYS_STAGE_CTL_ARM (bit01 ns)) = 0 ∧ p.get (F.SYS_STAGE_CTL_GAP (bit01 ns)) = 0 ∧
        p.get (F.SYS_STAGE_STAT_RESULT (bit01 ns)) = if s.commits ns then 1 else 2 := by
    cases ns with
    | false =>
      refine ⟨s.judgedSec, fun k hk => s.judgedBoth_sec hk, ?_⟩
      rw [State.judgedSec, show s.flag (F.SYS_STAGE_CTL_ARM 0) = true from h]
      exact State.judged_get hc false _
    | true =>
      refine ⟨s.judgedBoth, fun _ _ => rfl, ?_⟩
      rw [State.judgedBoth, show s.flag (F.SYS_STAGE_CTL_ARM 1) = true from h]
      exact State.judged_get (State.judgedSec_canonical hc) true _
  obtain ⟨p, hreg, harm, hgap, hresult⟩ := hjudged
  have hstage (f : Fld) (hf : stageKey (bit01 ns) f.key) : s.boundaryOutcome.get f = p.get f :=
    State.get_congr ((s.boundaryOutcome_stage hf).trans (hreg _ hf))
  exact ⟨(hstage _ (.inl rfl)).trans harm, (hstage _ (.inl rfl)).trans hgap, (hstage _ (.inr rfl)).trans hresult⟩

theorem State.commits_armed {ns : Bool} (h : s.commits ns = true) : s.flag (F.SYS_STAGE_CTL_ARM (bit01 ns)) = true :=
  (Bool.and_eq_true_iff.mp h).1

/-- The interrupt of each armed world pulses. -/
theorem State.boundaryOutcome_pulses (s : State) (ns : Bool) (h : s.flag (F.SYS_STAGE_CTL_ARM (bit01 ns)) = true) :
    2 + bit01 ns ∈ s.boundaryOutcome.pulses := by
  have hrest : s.boundaryOutcome.pulses = s.judgedBoth.pulses := by rw [(ReceiveFrame.boundaryOutcome s).parts]
  have hsec : s.commits false = true → s.flag (F.SYS_STAGE_CTL_ARM 0) = true := State.commits_armed
  have hnonsec : s.commits true = true → s.flag (F.SYS_STAGE_CTL_ARM 1) = true := State.commits_armed
  rw [hrest, State.judgedBoth, State.judged_pulses _ true hnonsec, State.judgedSec, State.judged_pulses _ false hsec]
  cases ns with
  | false =>
    rw [show s.flag (F.SYS_STAGE_CTL_ARM 0) = true from h]
    simp [bit01]
  | true =>
    rw [show s.flag (F.SYS_STAGE_CTL_ARM 1) = true from h]
    simp [bit01]

/-- Each staged register of a committing world has its shadow as its active value; every other active value stands. -/
theorem State.boundaryOutcome_activeReg (hc : s.canonical = true) (hx : rowAt (k % 0x100000000) = some x) :
    s.boundaryOutcome.activeReg k =
      if s.commits (s.blockNS (keyBlock k)) = true then mergeBits x.st (s.activeReg k) (s.reg k) else s.activeReg k := by
  rw [(ReceiveFrame.boundaryOutcome s).activeReg, State.judgedBoth, State.judged_activeReg (State.judgedSec_canonical hc),
    State.judgedSec, State.judged_activeReg hc, State.stagedMask_congr (s.judged_blockNS false _ _), State.stagedMask_row hx,
    State.stagedMask_row hx]
  by_cases hst : x.st = 0
  · simp [hst, mergeBits_none]
  · have hkey : ¬stageKey (bit01 false) k := fun h => hst (unstaged_of_stageKey (by decide) h x hx)
    rw [(ChangeFrame.judged s false _ _).reg k hkey]
    cases s.blockNS (keyBlock k) <;> cases s.commits false <;> cases s.commits true <;> simp [mergeBits_none]

theorem State.boundaryOutcome_epoch (hc : s.canonical = true) :
    s.boundaryOutcome.get F.SYS_EPOCH_EPOCH = (s.get F.SYS_EPOCH_EPOCH + bit01 (s.commits false || s.commits true)) % 2 ^ 32 := by
  have hstage (v : Nat) : ¬stageKey v Reg.SYS_EPOCH := not_stageKey_of_settleKey (.inr rfl) v
  have hjudged : s.judgedBoth.get F.SYS_EPOCH_EPOCH = s.get F.SYS_EPOCH_EPOCH :=
    (ChangeFrame.judgedBoth s).get (f := F.SYS_EPOCH_EPOCH) (fun ⟨w, _, h⟩ => hstage w h)
  unfold State.boundaryOutcome
  cases s.commits false || s.commits true with
  | false =>
    rw [if_neg (by decide), hjudged]
    exact (Nat.mod_eq_of_lt (bitsOf_lt _ 0 32)).symm
  | true =>
    have hcanon := (State.keeps_settle s (.refl s.judgedBoth)).canon ((ChangeFrame.judgedBoth s).keeps.canon hc)
    have hsame := (ReceiveFrame.settle s s.judgedBoth).get (f := F.SYS_EPOCH_EPOCH) not_settleKey_epoch
    rw [if_pos rfl, State.nextEpoch, State.get_put_same hcanon F.SYS_EPOCH_EPOCH _ (by decide), hsame, hjudged]
    rfl

/-! ## The Cistern stays ready -/

/-- Block 13's bit in SYS_READY, as a field. -/
def cisternReady : Fld := ⟨Reg.SYS_READY, 13, 1⟩

theorem State.ready_cistern (s : State) : s.ready 13 = s.flag cisternReady := rfl

theorem State.cisternReady_settleChain (hu : u.canonical = true) (s t : State) (c : Chain) :
    (s.settleChain t u c).get cisternReady = u.get cisternReady := by
  have hmark (n : Nat) : (u.markChain c n).get cisternReady = u.get cisternReady := by
    have hlt := chainNo_lt c
    rw [State.markChain_eq, State.get_put_apart (State.canonical_put hu _ n) (f := readyFld c) (g := cisternReady) 0 rfl
      (show 24 + chainNo c + 1 ≤ 32 by omega) (.inl (show 13 + 1 ≤ 24 + chainNo c by omega)),
      State.get_put_key u (f := F.RXC_STAT_CAL (chainNo c)) (g := cisternReady) n (rxcStat_ne_ready c).symm]
  unfold State.settleChain
  split
  · exact ((ReceiveFrame.stopWindows (fun _ => False) _ c).get (f := cisternReady) id).trans (hmark 1)
  · split
    · exact hmark 0
    · rfl

theorem not_abortKey_ready : ¬abortKey Reg.SYS_READY := not_abortKey_of_chainKey (c := .a) (.inr rfl)

theorem State.boundaryOutcome_ready (hc : s.canonical = true) : s.boundaryOutcome.ready 13 = s.ready 13 := by
  have hstage (v : Nat) : ¬stageKey v Reg.SYS_READY := not_stageKey_of_settleKey (.inl (.inl ⟨.a, .inr rfl⟩)) v
  have hjudged : s.judgedBoth.get cisternReady = s.get cisternReady :=
    (ChangeFrame.judgedBoth s).get (f := cisternReady) (fun ⟨w, _, h⟩ => hstage w h)
  have hcanon := (ChangeFrame.judgedBoth s).keeps.canon hc
  have hsettle : (s.settle s.judgedBoth).get cisternReady = s.judgedBoth.get cisternReady := by
    rw [State.settle_eq, (ReceiveFrame.reconcile _).get (f := cisternReady) not_abortKey_ready,
      (ReceiveFrame.settleLoading (fun _ => False) _ _ _).get (f := cisternReady) id,
      State.cisternReady_settleChain ((State.keeps_settleChain _ _ (.refl _) _).canon hcanon), State.cisternReady_settleChain hcanon]
  rw [State.ready_cistern, State.ready_cistern, State.flag, State.flag]
  unfold State.boundaryOutcome
  split
  · rw [(ReceiveFrame.nextEpoch _).get (f := cisternReady) (by decide), hsettle, hjudged]
  · rw [hjudged]

theorem stageStat_ne_ready (w : Nat) : Reg.SYS_READY ≠ Reg.SYS_STAGE_STAT w := by
  simp only [Reg.SYS_READY, Reg.SYS_STAGE_STAT, bankKey]
  omega

/-! ## The marks of quiet superframes -/

/-- World `ns` is armed and ordered a GAP. -/
def State.gapOrdered (s : State) (ns : Bool) : Bool :=
  s.flag (F.SYS_STAGE_CTL_ARM (bit01 ns)) && s.flag (F.SYS_STAGE_CTL_GAP (bit01 ns))

theorem State.boundaryCommit_eq (s : State) :
    s.boundaryCommit = ((s.boundaryOutcome.putB (F.SYS_STAGE_STAT_QUIET 0) (s.gapOrdered false)).putB (F.SYS_STAGE_STAT_QUIET 1)
      (s.gapOrdered true), s.gapOrdered false || s.gapOrdered true) := by
  rw [← State.commitWorlds_both]
  rfl

theorem ChangeFrame.boundaryCommit (s : State) : ChangeFrame State.outsideCommit commitKey s s.boundaryCommit.1 := by
  rw [State.boundaryCommit_eq]
  exact ((ChangeFrame.boundaryOutcome s).trans (.commitPut _ _ _ (.inl ⟨0, by decide, .inr rfl⟩))).trans
    (.commitPut _ _ _ (.inl ⟨1, by decide, .inr rfl⟩))

theorem stageStat_inj {v w : Nat} (h : v ≠ w) : Reg.SYS_STAGE_STAT v ≠ Reg.SYS_STAGE_STAT w := by
  simp only [Reg.SYS_STAGE_STAT, bankKey]
  omega

/-- The QUIET marks stand beside the other fields of staging. -/
theorem State.get_putB_quiet (hc : s.canonical = true) (w : Nat) (b : Bool) {f : Fld}
    (hf : f.key ≠ Reg.SYS_STAGE_STAT w ∨ 2 ≤ f.lo) : (s.putB (F.SYS_STAGE_STAT_QUIET w) b).get f = s.get f := by
  by_cases hk : f.key = Reg.SYS_STAGE_STAT w
  · exact State.get_put_apart hc (f := F.SYS_STAGE_STAT_QUIET w) (g := f) _ hk (show 1 + 1 ≤ 32 by decide)
      (.inr (hf.resolve_left (fun h => h hk)))
  · exact State.get_put_key s _ hk

theorem State.flag_putB_quiet (hc : s.canonical = true) (w : Nat) (b : Bool) :
    (s.putB (F.SYS_STAGE_STAT_QUIET w) b).flag (F.SYS_STAGE_STAT_QUIET w) = b := by
  rw [State.flag, State.putB_eq, State.get_put_same hc _ _ (show 1 + 1 ≤ 32 by decide)]
  cases b <;> rfl

theorem State.boundaryCommit_ready (hc : s.canonical = true) : s.boundaryCommit.1.ready 13 = s.ready 13 := by
  have hput (u : State) (w : Nat) (b : Bool) : (u.putB (F.SYS_STAGE_STAT_QUIET w) b).get cisternReady = u.get cisternReady :=
    State.get_put_key u _ (stageStat_ne_ready w)
  rw [← State.boundaryOutcome_ready hc, State.ready_cistern, State.ready_cistern, State.flag, State.flag, State.boundaryCommit_eq,
    hput, hput]

/-- What the boundary's commits report of each world. -/
theorem State.boundaryCommit_world (hc : s.canonical = true) (ns : Bool) :
    (s.flag (F.SYS_STAGE_CTL_ARM (bit01 ns)) = true →
      s.boundaryCommit.1.get (F.SYS_STAGE_CTL_ARM (bit01 ns)) = 0 ∧ s.boundaryCommit.1.get (F.SYS_STAGE_CTL_GAP (bit01 ns)) = 0 ∧
        s.boundaryCommit.1.get (F.SYS_STAGE_STAT_RESULT (bit01 ns)) = (if s.commits ns then 1 else 2) ∧
        2 + bit01 ns ∈ s.boundaryCommit.1.pulses) ∧
    s.boundaryCommit.1.flag (F.SYS_STAGE_STAT_QUIET (bit01 ns)) = s.gapOrdered ns := by
  have h0 : s.boundaryOutcome.canonical = true := (ChangeFrame.boundaryOutcome s).keeps.canon hc
  have h1 := State.canonical_put h0 (F.SYS_STAGE_STAT_QUIET 0) (bit01 (s.gapOrdered false))
  have hget (f : Fld) (hf : (∀ w, f.key ≠ Reg.SYS_STAGE_STAT w) ∨ 2 ≤ f.lo) :
      s.boundaryCommit.1.get f = s.boundaryOutcome.get f := by
    rw [State.boundaryCommit_eq]
    exact (State.get_putB_quiet h1 1 _ (hf.imp_left (· 1))).trans (State.get_putB_quiet h0 0 _ (hf.imp_left (· 0)))
  refine ⟨fun h => ?_, ?_⟩
  · obtain ⟨harm, hgap, hresult⟩ := State.boundaryOutcome_world hc ns h
    refine ⟨(hget _ (.inl (fun w => stageCtl_ne_stageStat _ w))).trans harm, (hget _ (.inl (fun w => stageCtl_ne_stageStat _ w))).trans hgap,
      (hget _ (.inr (show 2 ≤ 4 by decide))).trans hresult, ?_⟩
    rw [State.boundaryCommit_eq]
    exact s.boundaryOutcome_pulses ns h
  · rw [State.boundaryCommit_eq]
    cases ns with
    | true => exact State.flag_putB_quiet h1 1 _
    | false =>
      refine (congrArg (· == 1) (State.get_putB_quiet h1 1 _ (.inl ?_))).trans (State.flag_putB_quiet h0 0 _)
      exact stageStat_inj (by decide)

/-! ## What decides a commit -/

theorem State.chainEnabled_congr (h : ∀ k, t.activeReg k = s.activeReg k) (c : Chain) : t.chainEnabled c = s.chainEnabled c := by
  cases c <;> simp only [State.chainEnabled, State.flagA, State.getA, h]

theorem State.chainFreq_congr (h : ∀ k, t.activeReg k = s.activeReg k) (c : Chain) : t.chainFreq c = s.chainFreq c := by
  have hdiv : t.diversity = s.diversity := by simp only [State.diversity, State.flagA, State.getA, h]
  cases c <;> simp only [State.chainFreq, State.getA, h, hdiv]

/-- Whether a GAP is needed shows in the active copies alone, where slots run. -/
theorem State.needsGap_congr (hr : t.running = s.running) (h : ∀ k, t.activeReg k = s.activeReg k)
    (g : ∀ k, v.activeReg k = u.activeReg k) : t.needsGap v = s.needsGap u := by
  have hlane (c : Chain) : t.hasEnabledLane c = s.hasEnabledLane c := by
    simp only [State.hasEnabledLane, State.chainEnabled_congr h, State.flagA, State.getA, h]
  have hretunes (c : Chain) : t.retunes v c = s.retunes u c := by
    simp only [State.retunes, State.chainEnabled_congr h, State.chainEnabled_congr g, State.chainFreq_congr h, State.chainFreq_congr g,
      State.diversity, State.flagA, State.getA, h, g]
  simp only [State.needsGap, hr, hlane, hretunes]

theorem unstaged_of_sumKey (h : sumKey k) : unstaged k := by
  have hall : ∀ n : Fin 16, (rowAt (Reg.BKT_USED n.val % 0x100000000)).all (fun x => x.st == 0) = true := by decide +kernel
  obtain ⟨n, rfl⟩ := h
  exact unstaged_of_decide (hall n)

/-- Registers without staged fields and the machine's other parts do not decide a commit. -/
theorem State.commits_congr (hs : s.canonical = true) (ht : t.canonical = true) (ha : t.act = s.act) (hf : t.inForce = s.inForce)
    (hr : ∀ k, ¬sumKey k → t.reg k = s.reg k) (ns : Bool) : t.commits ns = s.commits ns := by
  have hblock (i : Nat) : t.blockNS i = s.blockNS i := by
    simp only [State.blockNS, State.worldWord, hf, hr _ (not_sumKey (k := Reg.SYS_WLD_BLK) (by decide))]
  have hactive (k : Nat) : t.activeReg k = s.activeReg k := by rw [State.activeReg, State.activeReg, ha]
  have hafter (k : Nat) : (t.activate ns).activeReg k = (s.activate ns).activeReg k := by
    rw [State.activate_activeReg ht, State.activate_activeReg hs, State.stagedMask_congr hblock, hactive]
    by_cases hk : sumKey k
    · rw [State.stagedMask_unstaged (unstaged_of_sumKey hk), mergeBits_none, mergeBits_none]
    · rw [hr k hk]
  have hstage : ¬sumKey (Reg.SYS_STAGE_CTL (bit01 ns)) := not_sumKey (by cases ns <;> decide)
  rw [State.commits, State.commits, State.needsGap_congr (running_congr (hr _ (not_sumKey (by decide)))) hactive hafter, State.flag,
    State.flag, State.flag, State.flag, State.get_congr (f := F.SYS_STAGE_CTL_ARM (bit01 ns)) (hr _ hstage),
    State.get_congr (f := F.SYS_STAGE_CTL_GAP (bit01 ns)) (hr _ hstage)]

end Sys2Proof.Machine
end

section
/-! PROOFS. The actions of a superframe boundary beside the commits (04_superframe.md R118, R135, R144, R146, 03_frames_and_coding.md R110,
R111, 09_pair_siphon.md R305, 10 R350, 12 R390): what each may change, the credits, the sleep sweep, and the noise that is spent. -/

namespace Sys2Proof.Machine

variable {s t u : State} {rest : State → State} {K L : Nat → Prop} {k : Nat} {i : Nat}

/-! ## Changes of each element of a list -/

/-- What the change of no element of the list touches is as it was. -/
theorem State.each_apart {α γ : Type} {f : State → α → State} {g : State → γ} {l : List α} (h : ∀ u, ∀ n ∈ l, g (f u n) = g u)
    (s : State) : g (s.each l f) = g s := by
  induction l generalizing s with
  | nil => rfl
  | cons n l ih =>
    exact (ih (fun u m hm => h u m (List.mem_cons_of_mem n hm)) (f s n)).trans (h s n (List.mem_cons_self ..))

/-- What the change at `m` alone touches is touched once; `I` holds of the states on the way. -/
theorem State.each_once {α γ : Type} {f : State → α → State} {g : State → γ} {G : γ → γ} {I : State → Prop} {m : α}
    (hI : ∀ u n, I u → I (f u n)) (hother : ∀ u n, n ≠ m → g (f u n) = g u) (hsame : ∀ u, I u → g (f u m) = G (g u))
    {l : List α} (hl : l.Nodup) (hm : m ∈ l) (hs : I s) : g (s.each l f) = G (g s) := by
  induction l generalizing s with
  | nil => exact absurd hm (List.not_mem_nil)
  | cons n l ih =>
    obtain ⟨hnl, hl⟩ := List.nodup_cons.mp hl
    change g ((f s n).each l f) = _
    by_cases h : n = m
    · subst h
      rw [State.each_apart (fun u j hj => hother u j (fun e => hnl (e ▸ hj))), hsame s hs]
    · rw [ih hl ((List.mem_cons.mp hm).resolve_left (Ne.symm h)) (hI s n hs), hother s n h]

/-! ## Channel loading -/

/-- All that channel loading and the count of a withheld beacon leave as it is, registers aside. -/
def State.outsideLoad (s : State) : State :=
  { s with regs := [], lane := Vector.replicate 96 {}, sfm := { s.sfm with withheld := false } }

/-- The registers they may change. -/
def loadKey (k : Nat) : Prop := k = Reg.SFM_BCNSKIP ∨ k = Reg.LDP_LSTAT ∨ ∃ n : LaneIx, k = Reg.LDP_CHP n.val

theorem ChangeFrame.loadPut (s : State) (f : Fld) (n : Nat) (h : loadKey f.key) : ChangeFrame State.outsideLoad loadKey s (s.put f n) :=
  .put s f n rfl h

theorem ChangeFrame.loadLane (s : State) (n : LaneIx) (l : Lane) : ChangeFrame State.outsideLoad loadKey s (s.setLane n l) :=
  .of_regs (State.keeps_setLane (.refl s) n l) rfl rfl

theorem ChangeFrame.countWithheld (s : State) (quiet : Bool) : ChangeFrame State.outsideLoad loadKey s (s.countWithheld quiet) := by
  unfold State.countWithheld
  extract_lets s1
  have h1 : ChangeFrame State.outsideLoad loadKey s s1 := .branch (.loadPut s _ _ (.inl rfl)) (.refl _ _ s)
  exact h1.trans (.of_regs (Keeps.upd.mpr (.refl s1)) rfl rfl)

theorem ChangeFrame.loadEntry (s : State) (n : LaneIx) : ChangeFrame State.outsideLoad loadKey s (s.loadEntry n) := by
  have hchp : loadKey (Reg.LDP_CHP n.val) := .inr (.inr ⟨n, rfl⟩)
  unfold State.loadEntry
  extract_lets m s1 cur up set floor ceil best up'
  have h1 : ChangeFrame State.outsideLoad loadKey s s1 := .branch (.loadPut s _ _ hchp) (.refl _ _ s)
  have hset (c r : Nat) : ChangeFrame State.outsideLoad loadKey s (set s1 c r) :=
    (h1.trans (.loadPut s1 _ _ hchp)).trans (.loadPut _ _ _ hchp)
  refine .branch (hset _ _) (.branch h1 (.branch h1 ?_))
  exact .branch ((hset _ _).trans (.loadLane ..)) (.branch (hset _ _) (.branch (.branch (hset _ _) (hset _ _)) (hset _ _)))

theorem ChangeFrame.spendNoise (s : State) : ChangeFrame State.outsideLoad loadKey s s.spendNoise := .each (fun u n _ => .loadLane u n _) s

theorem ChangeFrame.loadChannels (s : State) : ChangeFrame State.outsideLoad loadKey s s.loadChannels := by
  have hstat : loadKey Reg.LDP_LSTAT := .inr (.inl rfl)
  unfold State.loadChannels
  extract_lets entries s1 cur s2 s3
  have h1 : ChangeFrame State.outsideLoad loadKey s s1 := .each (fun u n _ => .loadEntry u n) s
  have h2 : ChangeFrame State.outsideLoad loadKey s1 s2 := .branch (.loadPut s1 _ _ hstat) (.refl _ _ s1)
  have h3 : ChangeFrame State.outsideLoad loadKey s2 s3 := .branch (.loadPut s2 _ _ hstat) (.refl _ _ s2)
  exact ((h1.trans h2).trans h3).trans (.spendNoise s3)

/-- No measurement is left. -/
theorem State.spendNoise_noise (s : State) (n : LaneIx) : (s.spendNoise.laneAt n).noise = [] := by
  have h := State.laneAt_each_setLane (fun l => { l with noise := [] }) (List.nodup_finRange 96) s n
  rw [if_pos (List.mem_finRange n)] at h
  exact congrArg Lane.noise h

theorem State.loadChannels_noise (s : State) (n : LaneIx) : (s.loadChannels.laneAt n).noise = [] := State.spendNoise_noise _ n

/-! ## Credits (R144) -/

/-- All that the accounts of a superframe leave as it is, registers aside. -/
def State.outsideAccount (s : State) : State :=
  { s with regs := [], sph := {}, tmr := Vector.replicate 16 {}, mac := Vector.replicate 2 {}, ptp := {} }

/-- The registers that the notes and captures may change. -/
def accountKey (k : Nat) : Prop :=
  (∃ n : TmrIx, k = Reg.TMR_STAT n.val) ∨ k = Reg.ETH_PTP_SF_NS ∨ k = Reg.ETH_PTP_SF_SLO ∨ k = Reg.ETH_PTP_SF_SHI ∨
    k = Reg.ETH_PTP_SF_SFN

theorem ChangeFrame.accountPut (s : State) (f : Fld) (n : Nat) (h : accountKey f.key) :
    ChangeFrame State.outsideAccount accountKey s (s.put f n) := .put s f n rfl h

/-- The credits' registers. -/
def creditKey (k : Nat) : Prop := ∃ n < 1024, k = Reg.SFM_QCR n

theorem ChangeFrame.creditPut (s : State) (f : Fld) (n : Nat) (h : creditKey f.key) :
    ChangeFrame State.outsideAccount creditKey s (s.put f n) := .put s f n rfl h

/-- A tenant's credit at a superframe boundary. -/
def State.creditOf (s : State) (n c : Nat) : Nat :=
  min (c + s.getA (F.SFM_QRATE_RATE n)) (16 * max 1 (s.getA (F.SFM_QRATE_BURST n)))

theorem State.creditOf_lt (s : State) (n c : Nat) : s.creditOf n c < 2 ^ 12 := by
  have hburst : s.getA (F.SFM_QRATE_BURST n) < 2 ^ 8 := bitsOf_lt _ 16 8
  unfold State.creditOf
  omega

theorem State.addCredits_each (s : State) :
    s.addCredits = if s.quotasOn then s.each (List.range 1024)
      (fun u n => u.put (F.SFM_QCR_CREDIT n) (u.creditOf n (u.get (F.SFM_QCR_CREDIT n)))) else s := rfl

theorem ChangeFrame.addCredits (s : State) : ChangeFrame State.outsideAccount creditKey s s.addCredits := by
  rw [State.addCredits_each]
  exact .branch (.each (fun u n hn => .creditPut u _ _ ⟨n, List.mem_range.mp hn, rfl⟩) s) (.refl _ _ s)

/-- Each tenant gains its RATE, up to its BURST. -/
theorem State.addCredits_get (hc : s.canonical = true) (n : Fin 1024) :
    s.addCredits.get (F.SFM_QCR_CREDIT n.val) =
      if s.flagA F.SFM_CTL_QEN then s.creditOf n.val (s.get (F.SFM_QCR_CREDIT n.val)) else s.get (F.SFM_QCR_CREDIT n.val) := by
  rw [State.addCredits_each, State.quotasOn]
  split
  · refine State.each_once (g := fun u => u.get (F.SFM_QCR_CREDIT n.val)) (G := s.creditOf n.val) (m := n.val)
      (I := fun u => u.canonical = true ∧ u.act = s.act) ?_ ?_ ?_ List.nodup_range (List.mem_range.mpr n.isLt) ⟨hc, rfl⟩
    · exact fun u m ⟨hu, ha⟩ => ⟨State.canonical_put hu _ _, ha⟩
    · intro u m hm
      refine State.get_put_key u _ ?_
      simp only [F.SFM_QCR_CREDIT, Reg.SFM_QCR]
      omega
    · intro u ⟨hu, ha⟩
      have hsame (c : Nat) : u.creditOf n.val c = s.creditOf n.val c := by
        simp only [State.creditOf, State.getA, State.activeReg, ha]
      rw [State.get_put_same hu _ _ (show 0 + 12 ≤ 32 by decide), hsame]
      exact Nat.mod_eq_of_lt (s.creditOf_lt _ _)
  · rfl

/-! ## The sleep sweep (R135) -/

/-- All that the sweep leaves as it is, registers aside. -/
def State.outsideSweep (s : State) : State := { s with regs := [], mem := [], sph := {} }

theorem State.outsideSweep_stored (s : State) (r : List (Nat × Word)) (m : List Host.Cell) (p : Sph) :
    ({ s with regs := r, mem := m, sph := p } : State).outsideSweep = s.outsideSweep := rfl

/-- An update of the Cistern changes the checksum of the registers alone. -/
theorem ChangeFrame.sfmUpdate (s : State) (i : Nat) (f : Nat → Nat) :
    ChangeFrame State.outsideSweep (fun k => k = Reg.CST_SUM) s (s.sfmUpdate i f) := by
  refine .branch ⟨State.keeps_setEntry (.refl s) i _, ?_, fun k hk => s.setEntry_reg_other i _ hk⟩ (.refl _ _ s)
  rw [s.setEntry_eq i (f (s.entry i))]
  exact State.outsideSweep_stored ..

/-- What the sweep of superframe `sf` makes of an entry. -/
def sweptEntry (sf e : Nat) : Nat := if entSleepy e ∧ 32768 ≤ heardAge (sf % 65536) e then setBits e 1 2 3 else e

theorem sweptEntry_lt (sf : Nat) {e : Nat} (he : e < 2 ^ 128) : sweptEntry sf e < 2 ^ 128 := by
  unfold sweptEntry
  split
  · exact setBits_lt he (by decide)
  · exact he

theorem State.sleepSweep_each (s : State) :
    s.sleepSweep = s.each (List.range 64)
      (fun u j => u.sfmUpdate (64 * (s.sfm.asn.toNat / 128 % 4096) + j) (sweptEntry (s.sfm.asn.toNat / 128))) := rfl

theorem ChangeFrame.sleepSweep (s : State) : ChangeFrame State.outsideSweep (fun k => k = Reg.CST_SUM) s s.sleepSweep := by
  rw [State.sleepSweep_each]
  exact .each (fun u j _ => .sfmUpdate u _ _) s

theorem State.sfmUpdate_entry_other (s : State) {j : Nat} (f : Nat → Nat) (h : i ≠ j) : (s.sfmUpdate j f).entry i = s.entry i := by
  unfold State.sfmUpdate
  split
  · exact s.setEntry_entry_other _ h
  · rfl

theorem State.ready_of_sum (h : ∀ k, k ≠ Reg.CST_SUM → t.reg k = s.reg k) (j : Nat) : t.ready j = s.ready j := by
  rw [State.ready, State.ready, State.bit, State.bit, h _ (by decide)]

theorem State.owns_of_sum (h : ∀ k, k ≠ Reg.CST_SUM → t.reg k = s.reg k) : t.ownsCistern = s.ownsCistern := by
  rw [State.ownsCistern, State.ownsCistern, State.pairState, State.pairState, State.get_congr (f := F.SPH_STAT_STATE) (h _ (by decide))]

/-- The entries after the sweep. -/
theorem State.sleepSweep_entry (hc : s.canonical = true) (i : Nat) :
    s.sleepSweep.entry i = if i / 64 = s.sfm.asn.toNat / 128 % 4096 ∧ s.ready 13 = true ∧ s.ownsCistern = true then
      sweptEntry (s.sfm.asn.toNat / 128) (s.entry i) else s.entry i := by
  rw [State.sleepSweep_each]
  generalize s.sfm.asn.toNat / 128 = sf
  by_cases hi : i / 64 = sf % 4096
  · have hsplit : 64 * (sf % 4096) + i % 64 = i := by omega
    have heach := State.each_once (s := s) (f := fun u j => u.sfmUpdate (64 * (sf % 4096) + j) (sweptEntry sf)) (g := fun u => u.entry i)
      (G := fun e => if s.ready 13 && s.ownsCistern then sweptEntry sf e % 2 ^ 128 else e)
      (m := i % 64) (I := fun u => u.canonical = true ∧ ∀ k, k ≠ Reg.CST_SUM → u.reg k = s.reg k) ?_ ?_ ?_ List.nodup_range
      (List.mem_range.mpr (Nat.mod_lt i (by decide))) ⟨hc, fun _ _ => rfl⟩
    · rw [heach, Nat.mod_eq_of_lt (sweptEntry_lt sf (s.entry_lt i))]
      simp only [hi, true_and, Bool.and_eq_true]
    · exact fun u j ⟨hu, hr⟩ => ⟨(ChangeFrame.sfmUpdate u _ _).keeps.canon hu,
        fun k hk => ((ChangeFrame.sfmUpdate u _ _).reg k hk).trans (hr k hk)⟩
    · intro u j hj
      refine u.sfmUpdate_entry_other _ ?_
      omega
    · intro u ⟨hu, hr⟩
      rw [hsplit, State.sfmUpdate, State.ready_of_sum hr, State.owns_of_sum hr]
      split
      · exact State.setEntry_entry_same hu i _
      · rfl
  · rw [if_neg (fun h => hi h.1)]
    refine State.each_apart (g := fun u => u.entry i) (fun u j hj => u.sfmUpdate_entry_other _ ?_) s
    have hlt := List.mem_range.mp hj
    omega

/-! ## What the boundary notes and captures -/

theorem ChangeFrame.accountSph (s : State) (p : Sph) : ChangeFrame State.outsideAccount accountKey s { s with sph := p } :=
  .of_regs (Keeps.upd.mpr (.refl s)) rfl rfl

theorem ChangeFrame.noteBoundary (s : State) : ChangeFrame State.outsideAccount accountKey s s.noteBoundary := .accountSph s _

theorem ChangeFrame.pushCapture (s : State) (n : TmrIx) : ChangeFrame State.outsideAccount accountKey s (s.pushCapture n) := by
  have hstat : accountKey (Reg.TMR_STAT n.val) := .inl ⟨n, rfl⟩
  have hset (x : Tmr) : ChangeFrame State.outsideAccount accountKey s (s.setTmr n x) := .of_regs (State.keeps_setTmr (.refl s) n x) rfl rfl
  exact .branch (.accountPut s _ _ hstat) ((hset _).trans (.accountPut _ _ _ hstat))

theorem ChangeFrame.boundaryCaptures (s : State) : ChangeFrame State.outsideAccount accountKey s s.boundaryCaptures :=
  .branch (.each (fun u n _ => .pushCapture u n) s) (.refl _ _ s)

theorem ChangeFrame.accountMac (s : State) (m : Vector EthMac 2) : ChangeFrame State.outsideAccount accountKey s { s with mac := m } :=
  .of_regs (Keeps.upd.mpr (.refl s)) rfl rfl

theorem ChangeFrame.accountPtp (s : State) (p : Ptp) : ChangeFrame State.outsideAccount accountKey s { s with ptp := p } :=
  .of_regs (Keeps.upd.mpr (.refl s)) rfl rfl

theorem ChangeFrame.ptpCapture (s : State) (dt : Nat) : ChangeFrame State.outsideAccount accountKey s (s.ptpCapture dt) := by
  have hrun : ChangeFrame State.outsideAccount accountKey s (s.ptpRun dt) := by
    unfold State.ptpRun
    extract_lets s1
    have h1 : ChangeFrame State.outsideAccount accountKey s s1 := .accountMac s _
    exact .branch (h1.trans (.accountPtp s1 _)) h1
  unfold State.ptpCapture
  extract_lets s1
  refine (((hrun.trans (.accountPut s1 _ _ ?_)).trans (.accountPut _ _ _ ?_)).trans (.accountPut _ _ _ ?_)).trans (.accountPut _ _ _ ?_)
  all_goals simp [accountKey, F.ETH_PTP_SF_NS_NS, F.ETH_PTP_SF_SLO_S_L, F.ETH_PTP_SF_SHI_S_H, F.ETH_PTP_SF_SFN_SFN]

end Sys2Proof.Machine
end

section
/-! PROOFS. A superframe begins (04_superframe.md R118, R146): the commits, the quiet superframe and the other actions one after the other;
and the actions of any slot's start leave the slots' own clock as it is. -/

namespace Sys2Proof.Machine

variable {s t u : State} {rest rest' : State → State} {K L : Nat → Prop} {k : Nat}

/-- What `rest` shows is as it was. -/
theorem proj_of_rest {γ : Type} {g : State → γ} (h : rest t = rest s) (hg : ∀ u, g (rest u) = g u) : g t = g s := by
  rw [← hg t, h, hg]

theorem ChangeFrame.proj {γ : Type} {g : State → γ} (h : ChangeFrame rest K s t) (hg : ∀ u, g (rest u) = g u) : g t = g s :=
  proj_of_rest h.parts hg

theorem ClockFrame.field {γ : Type} {g : Sfm → γ} (h : ClockFrame s t) (hg : ∀ m : Sfm, g m.timing = g m) : g t.sfm = g s.sfm := by
  rw [← hg t.sfm, h.timing, hg]

theorem ChangeFrame.coarsen (h : ChangeFrame rest K s t) (hr : ∀ u, rest' (rest u) = rest' u) : ChangeFrame rest' K s t :=
  ⟨h.keeps, h.proj hr, h.reg⟩

theorem ChangeFrame.clock (h : ChangeFrame rest K s t) (hr : ∀ u, (rest u).sfm.timing = u.sfm.timing) (hf : ∀ u, (rest u).fdr = u.fdr)
    (hk : ¬K Reg.SFM_STAT) : ClockFrame s t :=
  ⟨h.keeps, h.proj (g := fun u => u.sfm.timing) hr, h.proj hf, fun _ => running_congr (h.reg _ hk)⟩

/-! ## A quiet superframe begins or does not (R146) -/

/-- The machine as it enters a superframe that is quiet or is not. -/
def State.afterCommits (s : State) (quiet : Bool) : State :=
  if quiet then s.startQuiet else { s with sfm := { s.sfm with quiet := false } }

/-- All but the superframe machine. -/
def State.outsideMachine (s : State) : State := { s with sfm := {} }

theorem State.outsideMachine_requeue (s : State) (q : Option TxReq) : (s.requeue q).outsideMachine = s.outsideMachine := by
  cases q <;> rfl

theorem State.timing_requeue (s : State) (q : Option TxReq) : (s.requeue q).sfm.timing = s.sfm.timing := by
  cases q <;> rfl

/-- Launches of a quiet superframe return to the machine's requests, and nothing beside the machine changes. -/
theorem State.outsideMachine_afterCommits (s : State) (quiet : Bool) : (s.afterCommits quiet).outsideMachine = s.outsideMachine := by
  cases quiet
  · rfl
  · exact State.each_apart (g := State.outsideMachine) (fun u l _ => u.outsideMachine_requeue l.req) _

theorem State.timing_afterCommits (s : State) (quiet : Bool) : (s.afterCommits quiet).sfm.timing = s.sfm.timing := by
  cases quiet
  · rfl
  · exact State.each_apart (g := fun u => u.sfm.timing) (fun u l _ => u.timing_requeue l.req) _

theorem State.keeps_afterCommits (s : State) (quiet : Bool) : Keeps s (s.afterCommits quiet) :=
  Keeps.branch (State.keeps_startQuiet (.refl s)) (Keeps.upd.mpr (.refl s))

theorem State.afterCommits_reg (s : State) (quiet : Bool) (k : Nat) : (s.afterCommits quiet).reg k = s.reg k :=
  (proj_of_rest (g := fun u => u.reg k) (s.outsideMachine_afterCommits quiet) (fun _ => rfl))

theorem ClockFrame.afterCommits (s : State) (quiet : Bool) : ClockFrame s (s.afterCommits quiet) :=
  ⟨s.keeps_afterCommits quiet, s.timing_afterCommits quiet, (proj_of_rest (g := State.fdr) (s.outsideMachine_afterCommits quiet) (fun _ => rfl)),
    fun _ => running_congr (s.afterCommits_reg quiet _)⟩

/-- With no launch decided none returns. -/
theorem State.afterCommits_idle (h : s.sfm.launches = []) (quiet : Bool) :
    (s.afterCommits quiet).sfm.pend = s.sfm.pend ∧ (s.afterCommits quiet).sfm.quiet = quiet := by
  cases quiet
  · exact ⟨rfl, rfl⟩
  · simp [State.afterCommits, State.startQuiet, h, State.each]

/-! ## The actions after the commits -/

/-- The state in which the boundary's measurements have been spent. -/
def State.loaded (s : State) : State :=
  ((s.boundaryCommit.1.afterCommits s.boundaryCommit.2).countWithheld s.boundaryCommit.2).loadChannels

theorem State.superframe_eq (s : State) (dt : Nat) :
    s.superframe dt = ((s.loaded.addCredits.sleepSweep).noteBoundary).boundaryCaptures.ptpCapture dt := rfl

/-- All that the actions after the commits leave as it is, registers aside. -/
def State.outsideActions (s : State) : State :=
  { s with regs := [], lane := Vector.replicate 96 {}, mem := [], sph := {}, tmr := Vector.replicate 16 {}
           mac := Vector.replicate 2 {}, ptp := {}, sfm := { s.sfm with withheld := false } }

/-- The registers they may change. -/
def actionKey (k : Nat) : Prop := loadKey k ∨ creditKey k ∨ k = Reg.CST_SUM ∨ accountKey k

theorem not_actionKey (h : k < 0x20040120 ∨ 0x200C0000 ≤ k ∧ k < 0x200C0034 ∨ 0x200F0000 ≤ k ∧ k < 0x20120000 ∨ 0x20130000 ≤ k) :
    ¬actionKey k := by
  rintro ((rfl | rfl | ⟨n, rfl⟩) | ⟨n, hn, rfl⟩ | rfl | ⟨n, rfl⟩ | rfl | rfl | rfl | rfl) <;>
    simp only [Reg.SFM_BCNSKIP, Reg.LDP_LSTAT, Reg.LDP_CHP, Reg.SFM_QCR, Reg.CST_SUM, Reg.TMR_STAT, Reg.ETH_PTP_SF_NS,
      Reg.ETH_PTP_SF_SLO, Reg.ETH_PTP_SF_SHI, Reg.ETH_PTP_SF_SFN] at h <;> omega

theorem not_commitKey (h : 0x200A0000 ≤ k ∧ k < 0x100000000) : ¬commitKey k := by
  rintro (⟨w, hw, rfl | rfl⟩ | (⟨c, rfl | rfl⟩ | ⟨n, rfl⟩) | rfl)
  · simp only [Reg.SYS_STAGE_CTL, bankKey] at h
    omega
  · simp only [Reg.SYS_STAGE_STAT, bankKey] at h
    omega
  · have hlt := chainNo_lt c
    simp only [Reg.RXC_STAT] at h
    omega
  · simp only [Reg.SYS_READY] at h
    omega
  · simp only [Reg.LAN_ABORT] at h
    omega
  · simp only [Reg.SYS_EPOCH] at h
    omega

theorem ChangeFrame.loaded (s : State) :
    ChangeFrame State.outsideLoad loadKey (s.boundaryCommit.1.afterCommits s.boundaryCommit.2) s.loaded :=
  (ChangeFrame.countWithheld ..).trans (.loadChannels _)

theorem ChangeFrame.noted (s : State) (dt : Nat) :
    ChangeFrame State.outsideAccount accountKey s.loaded.addCredits.sleepSweep (s.superframe dt) := by
  rw [State.superframe_eq]
  exact ((ChangeFrame.noteBoundary _).trans (.boundaryCaptures _)).trans (.ptpCapture _ dt)

/-- The actions as far as the measurements. -/
theorem ChangeFrame.actionsLoaded (s : State) :
    ChangeFrame State.outsideActions actionKey (s.boundaryCommit.1.afterCommits s.boundaryCommit.2) s.loaded :=
  ((ChangeFrame.loaded s).coarsen (rest' := State.outsideActions) (fun _ => rfl)).mono (fun _ => .inl)

/-- The actions as far as the credits. -/
theorem ChangeFrame.actionsCredited (s : State) :
    ChangeFrame State.outsideActions actionKey (s.boundaryCommit.1.afterCommits s.boundaryCommit.2) s.loaded.addCredits :=
  (ChangeFrame.actionsLoaded s).trans
    (((ChangeFrame.addCredits _).coarsen (rest' := State.outsideActions) (fun _ => rfl)).mono (fun _ h => .inr (.inl h)))

/-- All actions after the commits. -/
theorem ChangeFrame.actions (s : State) (dt : Nat) :
    ChangeFrame State.outsideActions actionKey (s.boundaryCommit.1.afterCommits s.boundaryCommit.2) (s.superframe dt) :=
  ((ChangeFrame.actionsCredited s).trans
    (((ChangeFrame.sleepSweep _).coarsen (rest' := State.outsideActions) (fun _ => rfl)).mono (fun _ h => .inr (.inr (.inl h))))).trans
    (((ChangeFrame.noted s dt).coarsen (rest' := State.outsideActions) (fun _ => rfl)).mono (fun _ h => .inr (.inr (.inr h))))

theorem ClockFrame.boundaryCommit (s : State) : ClockFrame s s.boundaryCommit.1 :=
  (ChangeFrame.boundaryCommit s).clock (fun _ => rfl) (fun _ => rfl) (not_commitKey (by decide))

theorem ClockFrame.superframe (s : State) (dt : Nat) : ClockFrame s (s.superframe dt) :=
  ((ClockFrame.boundaryCommit s).trans (.afterCommits _ _)).trans
    ((ChangeFrame.actions s dt).clock (fun _ => rfl) (fun _ => rfl) (not_actionKey (by decide)))

theorem ClockFrame.actions (s : State) (dt : Nat) : ClockFrame s (s.actions dt) := by
  unfold State.actions
  split
  · exact ((ClockFrame.superframe s dt).trans (DecisionFrame.decideSlot _).clock).trans (.commitPlan _)
  · exact (DecisionFrame.decideSlot s).clock

/-! ## What a superframe leaves of its boundary -/

/-- Registers that no action after the commits writes. -/
theorem State.superframe_reg (s : State) (dt : Nat) (h : ¬actionKey k) : (s.superframe dt).reg k = s.boundaryCommit.1.reg k :=
  ((ChangeFrame.actions s dt).reg k h).trans (State.afterCommits_reg ..)

theorem State.superframe_get (s : State) (dt : Nat) {f : Fld} (h : ¬actionKey f.key) :
    (s.superframe dt).get f = s.boundaryCommit.1.get f := State.get_congr (s.superframe_reg dt h)

/-- Registers that no action at all writes. -/
theorem State.superframe_get_other (s : State) (dt : Nat) {f : Fld} (h : ¬actionKey f.key) (hc : ¬commitKey f.key) :
    (s.superframe dt).get f = s.get f := (s.superframe_get dt h).trans ((ChangeFrame.boundaryCommit s).get hc)

theorem State.superframe_act (s : State) (dt : Nat) : (s.superframe dt).act = s.boundaryCommit.1.act :=
  ((ChangeFrame.actions s dt).proj (g := State.act) (fun _ => rfl)).trans (proj_of_rest (g := State.act) (State.outsideMachine_afterCommits ..) (fun _ => rfl))

theorem State.loaded_act (s : State) : s.loaded.act = s.boundaryCommit.1.act :=
  ((ChangeFrame.loaded s).proj (g := State.act) (fun _ => rfl)).trans (proj_of_rest (g := State.act) (State.outsideMachine_afterCommits ..) (fun _ => rfl))

theorem State.superframe_pulses (s : State) (dt : Nat) : (s.superframe dt).pulses = s.boundaryCommit.1.pulses :=
  ((ChangeFrame.actions s dt).proj (g := State.pulses) (fun _ => rfl)).trans (proj_of_rest (g := State.pulses) (State.outsideMachine_afterCommits ..) (fun _ => rfl))

/-- With no launch decided the requests stay, and the superframe is quiet where a GAP is ordered. -/
theorem State.superframe_machine (h : s.sfm.launches = []) (dt : Nat) :
    (s.superframe dt).sfm.pend = s.sfm.pend ∧ (s.superframe dt).sfm.quiet = s.boundaryCommit.2 := by
  have hcommit : s.boundaryCommit.1.sfm = s.sfm := ((ChangeFrame.boundaryCommit s).proj (g := State.sfm) (fun _ => rfl))
  obtain ⟨hpend, hquiet⟩ := State.afterCommits_idle (s := s.boundaryCommit.1) (by rw [hcommit, h]) s.boundaryCommit.2
  have hparts := (ChangeFrame.actions s dt).parts
  exact ⟨((proj_of_rest (g := fun u => u.sfm.pend) hparts (fun _ => rfl)).trans hpend).trans (by rw [hcommit]),
    (proj_of_rest (g := fun u => u.sfm.quiet) hparts (fun _ => rfl)).trans hquiet⟩

theorem State.superframe_noise (s : State) (dt : Nat) (n : LaneIx) : ((s.superframe dt).laneAt n).noise = [] := by
  have hnoted : (s.superframe dt).lane = s.loaded.addCredits.sleepSweep.lane := ((ChangeFrame.noted s dt).proj (g := State.lane) (fun _ => rfl))
  have hswept : s.loaded.addCredits.sleepSweep.lane = s.loaded.addCredits.lane := ((ChangeFrame.sleepSweep _).proj (g := State.lane) (fun _ => rfl))
  have hcredited : s.loaded.addCredits.lane = s.loaded.lane := ((ChangeFrame.addCredits _).proj (g := State.lane) (fun _ => rfl))
  rw [State.laneAt, hnoted, hswept, hcredited]
  exact State.loadChannels_noise _ n

theorem State.loaded_canonical (hc : s.canonical = true) : s.loaded.canonical = true :=
  (ChangeFrame.loaded s).keeps.canon ((s.boundaryCommit.1.keeps_afterCommits _).canon ((ChangeFrame.boundaryCommit s).keeps.canon hc))

/-- Each tenant's credit. -/
theorem State.superframe_credit (hc : s.canonical = true) (dt : Nat) (n : Fin 1024) :
    (s.superframe dt).get (F.SFM_QCR_CREDIT n.val) = if (s.superframe dt).flagA F.SFM_CTL_QEN then
      (s.superframe dt).creditOf n.val (s.get (F.SFM_QCR_CREDIT n.val)) else s.get (F.SFM_QCR_CREDIT n.val) := by
  have hn := n.isLt
  have hkey : (F.SFM_QCR_CREDIT n.val).key = 0x200C5000 + 4 * n.val := rfl
  have hnoted := (ChangeFrame.noted s dt).get (f := F.SFM_QCR_CREDIT n.val) (by
    rintro (⟨m, h⟩ | h | h | h | h) <;> rw [hkey] at h <;>
      simp only [Reg.TMR_STAT, Reg.ETH_PTP_SF_NS, Reg.ETH_PTP_SF_SLO, Reg.ETH_PTP_SF_SHI, Reg.ETH_PTP_SF_SFN] at h <;> omega)
  have hswept := (ChangeFrame.sleepSweep s.loaded.addCredits).get (f := F.SFM_QCR_CREDIT n.val) (by
    rw [hkey]
    simp only [Reg.CST_SUM]
    omega)
  have hloaded : s.loaded.get (F.SFM_QCR_CREDIT n.val) = s.get (F.SFM_QCR_CREDIT n.val) := by
    rw [(ChangeFrame.loaded s).get (f := F.SFM_QCR_CREDIT n.val) (by
      rintro (h | h | ⟨m, h⟩) <;> rw [hkey] at h <;> simp only [Reg.SFM_BCNSKIP, Reg.LDP_LSTAT, Reg.LDP_CHP] at h <;> omega),
      State.get_congr (State.afterCommits_reg ..),
      (ChangeFrame.boundaryCommit s).get (f := F.SFM_QCR_CREDIT n.val) (not_commitKey (by rw [hkey]; omega))]
  have hact : (s.superframe dt).act = s.loaded.act := by rw [State.superframe_act, State.loaded_act]
  have hactive (f : Fld) : s.loaded.getA f = (s.superframe dt).getA f := by simp only [State.getA, State.activeReg, hact]
  have hflag : s.loaded.flagA F.SFM_CTL_QEN = (s.superframe dt).flagA F.SFM_CTL_QEN := by rw [State.flagA, State.flagA, hactive]
  have hcredit (c : Nat) : s.loaded.creditOf n.val c = (s.superframe dt).creditOf n.val c := by simp only [State.creditOf, hactive]
  rw [hnoted, hswept, State.addCredits_get (State.loaded_canonical hc), hloaded, hflag, hcredit]

theorem State.superframe_asn (s : State) (dt : Nat) : (s.superframe dt).sfm.asn = s.sfm.asn :=
  (ClockFrame.superframe s dt).field (g := Sfm.asn) (fun _ => rfl)

/-- The entries after the sweep of a superframe (R135). -/
theorem State.superframe_entry (hc : s.canonical = true) (dt i : Nat) :
    (s.superframe dt).entry i = if i / 64 = s.sfm.asn.toNat / 128 % 4096 ∧ s.ready 13 = true ∧ s.ownsCistern = true then
      sweptEntry (s.sfm.asn.toNat / 128) (s.entry i) else s.entry i := by
  have hframe := ChangeFrame.actionsCredited s
  have hcanon : s.loaded.addCredits.canonical = true := (ChangeFrame.addCredits _).keeps.canon (State.loaded_canonical hc)
  have hnoted : (s.superframe dt).mem = s.loaded.addCredits.sleepSweep.mem := ((ChangeFrame.noted s dt).proj (g := State.mem) (fun _ => rfl))
  have hmem : s.loaded.addCredits.mem = s.mem := by
    have hcredited : s.loaded.addCredits.mem = s.loaded.mem := ((ChangeFrame.addCredits _).proj (g := State.mem) (fun _ => rfl))
    have hloaded : s.loaded.mem = (s.boundaryCommit.1.afterCommits s.boundaryCommit.2).mem :=
      ((ChangeFrame.loaded s).proj (g := State.mem) (fun _ => rfl))
    have hquiet : (s.boundaryCommit.1.afterCommits s.boundaryCommit.2).mem = s.boundaryCommit.1.mem :=
      (proj_of_rest (g := State.mem) (State.outsideMachine_afterCommits ..) (fun _ => rfl))
    have hcommit : s.boundaryCommit.1.mem = s.mem := ((ChangeFrame.boundaryCommit s).proj (g := State.mem) (fun _ => rfl))
    rw [hcredited, hloaded, hquiet, hcommit]
  have hasn : s.loaded.addCredits.sfm.asn = s.sfm.asn :=
    ((hframe.proj (g := fun u => u.sfm.asn) (fun _ => rfl)).trans ((ClockFrame.afterCommits ..).field (g := Sfm.asn) (fun _ => rfl))).trans
      ((ChangeFrame.boundaryCommit s).proj (g := fun u => u.sfm.asn) (fun _ => rfl))
  have hreg {j : Nat} (h : ¬actionKey j) : s.loaded.addCredits.reg j = s.boundaryCommit.1.reg j :=
    (hframe.reg j h).trans (State.afterCommits_reg ..)
  have hready : s.loaded.addCredits.ready 13 = s.ready 13 := by
    rw [← State.boundaryCommit_ready hc, State.ready_cistern, State.ready_cistern, State.flag, State.flag,
      State.get_congr (f := cisternReady) (hreg (not_actionKey (by decide)))]
  have howns : s.loaded.addCredits.ownsCistern = s.ownsCistern := by
    have hpair : s.loaded.addCredits.pairState = s.pairState :=
      (State.get_congr (f := F.SPH_STAT_STATE) (hreg (not_actionKey (by decide)))).trans
        ((ChangeFrame.boundaryCommit s).get (f := F.SPH_STAT_STATE) (not_commitKey (by decide)))
    rw [State.ownsCistern, State.ownsCistern, hpair]
  rw [State.entry_of_mem hnoted, State.sleepSweep_entry hcanon, State.entry_of_mem hmem, hasn, hready, howns]

/-- A boundary to slot 0 with nothing waiting is its superframe's actions alone. -/
theorem State.actions_superframe (h0 : s.sfm.asn.toNat % 128 = 0) (hp : s.sfm.pend = []) (hl : s.sfm.launches = [])
    (ha : s.get F.AGE_STAT_STATE = 0) (dt : Nat) : s.actions dt = s.superframe dt := by
  have hbeacon : (s.superframe dt).beaconDue = false := by
    have hslot : (s.superframe dt).slotAt 2 % 128 ≠ 0 := by
      rw [State.slotAt, State.superframe_asn]
      omega
    rw [State.beaconDue, beq_false_of_ne hslot, Bool.false_and]
  have hage : (s.superframe dt).get F.AGE_STAT_STATE = 0 :=
    (s.superframe_get_other dt (f := F.AGE_STAT_STATE) (not_actionKey (by decide)) (not_commitKey (by decide))).trans ha
  rw [State.actions, if_pos h0, State.decideSlot_idle ((State.superframe_machine hl dt).1.trans hp) hbeacon, State.commitPlan_idle hage]

end Sys2Proof.Machine
end

section
/-! PROOFS. The stop of the slots, their first start, and what every start of a slot does (04_superframe.md R114 to R118, R122). -/

namespace Sys2Proof.Machine

variable {s t u v : State} {k asn : Nat} {m : Sfm} {d : Int}

/-! ## The stop (R115) -/

theorem State.keeps_slotsEnded (s : State) : Keeps s s.slotsEnded :=
  State.keeps_shiftTimes (Keeps.upd.mpr (State.keeps_countWithheld (Keeps.upd.mpr (.refl s)) false)) 80000

theorem State.stopSlots_machine (s : State) :
    s.stopSlots.sfm = s.sfm.stopped ∧ s.stopSlots.mem = s.mem ∧ s.stopSlots.eng = s.eng ∧ s.stopSlots.lane = s.lane ∧
      s.stopSlots.cip = s.cip ∧ s.stopSlots.fdr = { s.fdr with realign := false } := by
  rw [State.stopSlots_eq, State.slotsEnded_eq]
  exact ⟨rfl, rfl, rfl, rfl, rfl, rfl⟩

theorem State.stopSlots_reg (s : State) (hstat : k ≠ Reg.SFM_STAT) (h0 : k ≠ Reg.SYS_STAGE_STAT 0) (h1 : k ≠ Reg.SYS_STAGE_STAT 1) :
    s.stopSlots.reg k = (if s.sfm.withheld then s.bump F.SFM_BCNSKIP_COUNT else s).reg k := by
  rw [← s.slotsEnded_reg]
  exact (State.reg_setReg_other _ _ hstat).trans ((State.reg_setReg_other _ _ h1).trans (State.reg_setReg_other _ _ h0))

/-- Slots do not run, and no superframe is quiet. -/
theorem State.stopSlots_marks (hc : s.canonical = true) :
    s.stopSlots.running = false ∧ s.stopSlots.flag (F.SYS_STAGE_STAT_QUIET 0) = false ∧
      s.stopSlots.flag (F.SYS_STAGE_STAT_QUIET 1) = false := by
  have h0 := s.keeps_slotsEnded.canon hc
  have h1 := State.canonical_put h0 (F.SYS_STAGE_STAT_QUIET 0) 0
  have h2 := State.canonical_put h1 (F.SYS_STAGE_STAT_QUIET 1) 0
  have hstat (u : State) (w : Nat) : (u.lower F.SFM_STAT_RUNNING).get (F.SYS_STAGE_STAT_QUIET w) = u.get (F.SYS_STAGE_STAT_QUIET w) :=
    State.get_put_key u _ (by simp only [F.SYS_STAGE_STAT_QUIET, F.SFM_STAT_RUNNING, Reg.SYS_STAGE_STAT, Reg.SFM_STAT, bankKey]; omega)
  have hother (u : State) : (u.lower (F.SYS_STAGE_STAT_QUIET 1)).get (F.SYS_STAGE_STAT_QUIET 0) = u.get (F.SYS_STAGE_STAT_QUIET 0) :=
    State.get_put_key u _ (stageStat_inj (by decide))
  rw [State.stopSlots_eq, State.running, State.flag, State.flag, State.flag, hstat, hstat, hother]
  exact ⟨congrArg (· == 1) (State.get_put_same h2 F.SFM_STAT_RUNNING 0 (by decide)),
    congrArg (· == 1) (State.get_put_same h0 (F.SYS_STAGE_STAT_QUIET 0) 0 (show 1 + 1 ≤ 32 by decide)),
    congrArg (· == 1) (State.get_put_same h1 (F.SYS_STAGE_STAT_QUIET 1) 0 (show 1 + 1 ≤ 32 by decide))⟩

/-! ## The first slot (R115) -/

/-- The number of the slot that starts. -/
def State.startNumber (s : State) : Nat :=
  match s.sfm.adopt with
  | some n => n
  | none => s.get F.SFM_ASNSET_LO_SET_L + s.get F.SFM_ASNSET_HI_SET_H * 2 ^ 32

/-- The machine as slots start again, `gap` units after they stopped. -/
def Sfm.started (m : Sfm) (gap : Nat) : Sfm :=
  { m with startPend := false, adopt := none, clock := m.clock + gap, prevAsn := m.asn.toNat, pause := gap }

/-- Slots run again. -/
def State.started (s : State) (gap : Nat) : State :=
  ({ s with sfm := { s.sfm with startPend := false, adopt := none } }.raise F.SFM_STAT_RUNNING).endPause gap

theorem State.started_eq (s : State) (gap : Nat) : s.started gap = { s with regs := (s.started gap).regs, sfm := s.sfm.started gap } := rfl

/-- The state as the start of the first slot leaves it before its actions. -/
def State.firstSlot (s : State) (asn gap : Nat) : State :=
  (((s.started gap).slotBegun asn gap).spendNoise.applyHeld).freeFrames

theorem State.each_cons {α : Type} (f : State → α → State) (x : α) (l : List α) (s : State) : s.each (x :: l) f = (f s x).each l f := rfl

/-- Changes of lanes alone. -/
theorem State.each_setLane_eq (f : State → LaneIx → Lane) (l : List LaneIx) (s : State) :
    s.each l (fun u n => u.setLane n (f u n)) = { s with lane := (s.each l (fun u n => u.setLane n (f u n))).lane } := by
  induction l generalizing s with
  | nil => rfl
  | cons n l ih =>
    rw [State.each_cons, ih]
    rfl

theorem State.spendNoise_eq (s : State) : s.spendNoise = { s with lane := s.spendNoise.lane } := by
  have heach : s.spendNoise = s.each (List.finRange 96) (fun u n => u.setLane n { u.laneAt n with noise := [] }) := rfl
  rw [heach]
  generalize List.finRange 96 = l
  exact State.each_setLane_eq (fun u n => { u.laneAt n with noise := [] }) l s

theorem State.reg_of_regs (h : t.regs = s.regs) : t.reg k = s.reg k := by rw [State.reg, State.reg, h]

theorem State.spendNoise_reg (s : State) (k : Nat) : s.spendNoise.reg k = s.reg k := by
  have hregs : s.spendNoise.regs = s.regs := by rw [State.spendNoise_eq]
  exact State.reg_of_regs hregs

theorem State.applyHeld_none (h : s.sph.acct = []) : s.applyHeld = { s with sph := { s.sph with acct := [] } } := by
  simp [State.applyHeld, h, State.each]

/-- Noise spent in a state that differs from `s` in the parts a slot's start changes. -/
theorem noiseSpent_eq (hv : v = { t with lane := v.lane }) (hu : u = { s with regs := u.regs, sfm := m })
    (ht : t = { u with regs := t.regs, granules := t.granules, tx := t.tx, sfm := m.begun asn d }) :
    v = { s with regs := v.regs, granules := v.granules, tx := v.tx, lane := v.lane, sfm := m.begun asn d } := by
  generalize v.lane = l at hv
  subst hv
  generalize t.regs = r, t.granules = g, t.tx = x at ht
  subst ht
  generalize u.regs = q at hu
  subst hu
  rfl

theorem State.freeFrames_applyHeld_eq
    (h : t = { s with regs := t.regs, granules := t.granules, tx := t.tx, lane := t.lane, sfm := m }) (ha : s.sph.acct = []) :
    t.applyHeld.freeFrames = { s with regs := t.regs, granules := t.granules, tx := t.tx, lane := t.lane
                                      sph := { s.sph with acct := [] }, fdr := { s.fdr with realign := false }, sfm := m } := by
  have hacct : t.sph.acct = [] := by
    rw [h]
    exact ha
  rw [State.applyHeld_none hacct]
  generalize t.regs = r, t.granules = g, t.tx = x, t.lane = l at h
  subst h
  rfl

theorem State.firstSlot_eq (ha : s.sph.acct = []) (asn gap : Nat) :
    let w := ((s.started gap).slotBegun asn gap).spendNoise
    s.firstSlot asn gap = { s with regs := w.regs, granules := w.granules, tx := w.tx, lane := w.lane
                                   sph := { s.sph with acct := [] }, fdr := { s.fdr with realign := false }
                                   sfm := (s.sfm.started gap).begun asn gap } :=
  State.freeFrames_applyHeld_eq
    (noiseSpent_eq (State.spendNoise_eq _) (s.started_eq gap) ((s.started gap).slotBegun_eq asn gap)) ha

theorem State.firstSlot_reg (ha : s.sph.acct = []) (gap : Nat) (hk : ¬sumKey k) :
    (s.firstSlot asn gap).reg k = (s.started gap).reg k := by
  have hregs : (s.firstSlot asn gap).regs = ((s.started gap).slotBegun asn gap).spendNoise.regs := by rw [State.firstSlot_eq ha]
  rw [State.reg_of_regs hregs, State.spendNoise_reg, State.slotBegun_reg _ _ _ hk]

theorem State.keeps_started (s : State) (gap : Nat) : Keeps s (s.started gap) :=
  Keeps.upd.mpr (State.keeps_raise (Keeps.upd.mpr (.refl s)) F.SFM_STAT_RUNNING)

theorem exec_firstSlotStart (hr : s.running = false) (hp : s.sfm.startPend = true) (h0 : s.flag (F.SYS_STAGE_CTL_ARM 0) = false)
    (h1 : s.flag (F.SYS_STAGE_CTL_ARM 1) = false) (dt gap : Nat) :
    exec (.firstSlotStart dt gap) s = .next (((s.firstSlot s.startNumber gap).actions dt).missedBeacons) := by
  change execFirstSlotStart dt gap s = _
  rw [execFirstSlotStart, hr, hp, h0, h1]
  rfl

/-- Any other machine takes the command without a change. -/
theorem exec_firstSlotStart_idle (h : s.running = true ∨ s.sfm.startPend = false ∨ s.flag (F.SYS_STAGE_CTL_ARM 0) = true ∨
    s.flag (F.SYS_STAGE_CTL_ARM 1) = true) (dt gap : Nat) : exec (.firstSlotStart dt gap) s = .next s := by
  change execFirstSlotStart dt gap s = _
  have hidle : (s.running || !s.sfm.startPend || s.flag (F.SYS_STAGE_CTL_ARM 0) || s.flag (F.SYS_STAGE_CTL_ARM 1)) = true := by
    simpa [or_assoc] using h
  rw [execFirstSlotStart, if_pos hidle]

theorem DecisionFrame.missedBeacons (s : State) : DecisionFrame inCistern s s.missedBeacons :=
  (DecisionFrame.branch (.skipBeacon s _) (.refl _ s)).trans (.branch (.skipBeacon _ _) (.refl _ _))

theorem State.missedBeacons_off (h : s.flagA F.SFM_BCN_EN = false) : s.missedBeacons = s := by
  simp [State.missedBeacons, State.each, h]

/-! ## What every start of a slot does -/

/-- The slots' own clock after the actions of a slot that began in the machine `m`. -/
theorem begun_of_clock (h : ClockFrame u t) (hu : u.sfm = m.begun asn d) :
    t.sfm.asn = BitVec.ofNat 40 asn ∧ (t.sfm.slotLen : Int) = 80000 + max (-8) (min 8 m.slew) ∧
      t.sfm.slew = m.slew - max (-8) (min 8 m.slew) ∧ t.sfm.offSeen = 0 ∧ t.sfm.prevAsn = m.prevAsn ∧ t.sfm.stopPend = m.stopPend ∧
      t.sfm.clock = m.clock ∧ t.sfm.prevLen = m.prevLen ∧ t.sfm.pause = m.pause ∧ t.sfm.startPend = m.startPend ∧
      t.sfm.adopt = m.adopt := by
  have hf {γ : Type} (g : Sfm → γ) (hg : ∀ x : Sfm, g x.timing = g x) : g t.sfm = g (m.begun asn d) :=
    (h.field hg).trans (congrArg g hu)
  refine ⟨hf Sfm.asn (fun _ => rfl), ?_, hf Sfm.slew (fun _ => rfl), hf Sfm.offSeen (fun _ => rfl), hf Sfm.prevAsn (fun _ => rfl),
    hf Sfm.stopPend (fun _ => rfl), hf Sfm.clock (fun _ => rfl), hf Sfm.prevLen (fun _ => rfl), hf Sfm.pause (fun _ => rfl),
    hf Sfm.startPend (fun _ => rfl), hf Sfm.adopt (fun _ => rfl)⟩
  rw [hf Sfm.slotLen (fun _ => rfl)]
  exact m.begun_slotLen asn d

theorem toNat_slotNumber (n : Nat) : (BitVec.ofNat 40 n).toNat = n % 2 ^ 40 := BitVec.toNat_ofNat n 40

/-- A slot inside a superframe has the decision on the slot two ahead as its one action. -/
theorem State.actions_inside (hu : s.sfm = m.begun asn d) (h : asn % 128 ≠ 0) (dt : Nat) : s.actions dt = s.decideSlot := by
  have hasn : s.sfm.asn.toNat % 128 ≠ 0 := by
    rw [hu]
    change (BitVec.ofNat 40 asn).toNat % 128 ≠ 0
    rw [toNat_slotNumber]
    omega
  rw [State.actions, if_neg hasn]

/-- No beacon is due where beacons are off or slot 0 is not two slots ahead. -/
theorem State.beaconDue_begun (hu : s.sfm = m.begun asn d) (h : s.flagA F.SFM_BCN_EN = false ∨ (asn + 2) % 128 ≠ 0) :
    s.beaconDue = false := by
  rcases h with hoff | hapart
  · rw [State.beaconDue, hoff, Bool.and_false]
  · have hslot : s.slotAt 2 % 128 ≠ 0 := by
      rw [State.slotAt, hu]
      change ((BitVec.ofNat 40 asn).toNat + 2) % 2 ^ 40 % 128 ≠ 0
      rw [toNat_slotNumber]
      omega
    rw [State.beaconDue, beq_false_of_ne hslot, Bool.false_and]

/-- The noise of a superframe is spent when one begins. -/
theorem State.actions_noise (hn : ∀ n : LaneIx, (s.laneAt n).noise = []) (dt : Nat) (n : LaneIx) :
    ((s.actions dt).laneAt n).noise = [] := by
  have hdecide (w : State) : w.decideSlot.laneAt n = w.laneAt n :=
    proj_of_rest (g := fun w => w.laneAt n) (DecisionFrame.decideSlot w).parts (fun _ => rfl)
  unfold State.actions
  split
  · rw [(ChangeFrame.commitPlan _).proj (g := fun w => w.laneAt n) (fun _ => rfl), hdecide]
    exact s.superframe_noise dt n
  · rw [hdecide]
    exact hn n

/-! ## The next slot -/

/-- The machine in the slot after the one of `s`. -/
theorem State.slotPassed_sfm (s : State) : s.slotPassed.sfm = s.sfm.ended.begun ((s.sfm.asn.toNat + 1) % 2 ^ 40) 80000 := by
  have hnumber : BitVec.ofNat 40 (s.sfm.asn.toNat + 1) = BitVec.ofNat 40 ((s.sfm.asn.toNat + 1) % 2 ^ 40) := by
    apply BitVec.eq_of_toNat_eq
    rw [toNat_slotNumber, toNat_slotNumber, Nat.mod_mod]
  have hbegun : s.sfm.ended.begun (s.sfm.asn.toNat + 1) 80000 = s.sfm.ended.begun ((s.sfm.asn.toNat + 1) % 2 ^ 40) 80000 := by
    simp only [Sfm.begun, Sfm.numbered, hnumber]
  rw [← hbegun, State.slotPassed_eq]

theorem State.slotPassed_parts (s : State) :
    s.slotPassed.mem = s.mem ∧ s.slotPassed.eng = s.eng ∧ s.slotPassed.lane = s.lane ∧ s.slotPassed.cip = s.cip ∧
      s.slotPassed.act = s.act ∧ s.slotPassed.tmr = s.tmr ∧ s.slotPassed.events = s.events ∧ s.slotPassed.pulses = s.pulses ∧
      s.slotPassed.inForce = s.inForce ∧ s.slotPassed.fdr = { s.fdr with realign := false } := by
  rw [State.slotPassed_eq]
  exact ⟨rfl, rfl, rfl, rfl, rfl, rfl, rfl, rfl, rfl, rfl⟩

end Sys2Proof.Machine
end

section
/-! PROOFS. The boundary to the next slot as a whole, inside a superframe and at its start (04_superframe.md R114, R118, 01_system_map.md
R36, R37). -/

namespace Sys2Proof.Machine

variable {s : State} {k : Nat} {x : RegRow}

theorem State.slotPassed_canonical (hc : s.canonical = true) : s.slotPassed.canonical = true := s.keeps_slotPassed.canon hc

theorem State.slotPassed_get (s : State) {f : Fld} (h : ¬sumKey f.key) : s.slotPassed.get f = s.get f :=
  State.get_congr (s.slotPassed_reg h)

/-! ## Inside a superframe -/

/-- The number of the next slot. -/
def State.nextNumber (s : State) : Nat := (s.sfm.asn.toNat + 1) % 2 ^ 40

/-- What a boundary inside a superframe leaves as it is. -/
theorem State.boundaryInside_parts (h : s.nextNumber % 128 ≠ 0) (dt : Nat) :
    (∀ a, a < 0x10000000 ∨ 0x10400000 ≤ a → (s.slotPassed.actions dt).byte a = s.byte a) ∧
      (s.slotPassed.actions dt).eng = s.eng ∧ (s.slotPassed.actions dt).lane = s.lane ∧ (s.slotPassed.actions dt).cip = s.cip ∧
      (s.slotPassed.actions dt).act = s.act ∧ (s.slotPassed.actions dt).tmr = s.tmr := by
  obtain ⟨hmem, heng, hlane, hcip, hact, htmr, -⟩ := s.slotPassed_parts
  have hframe := DecisionFrame.decideSlot s.slotPassed
  rw [State.actions_inside s.slotPassed_sfm h]
  refine ⟨fun a ha => ?_, (proj_of_rest hframe.parts (fun _ => rfl)).trans heng, (proj_of_rest hframe.parts (fun _ => rfl)).trans hlane,
    (proj_of_rest hframe.parts (fun _ => rfl)).trans hcip, (proj_of_rest hframe.parts (fun _ => rfl)).trans hact,
    (proj_of_rest hframe.parts (fun _ => rfl)).trans htmr⟩
  rw [hframe.byte a (by unfold inCistern; omega), State.byte, State.byte, hmem]

/-- With no request waiting memory stays too. -/
theorem State.boundaryInside_mem (hc : s.canonical = true) (h : s.nextNumber % 128 ≠ 0) (hp : s.sfm.pend = []) (dt : Nat) :
    (s.slotPassed.actions dt).mem = s.mem := by
  have hpend : s.slotPassed.sfm.pend = [] := by
    rw [s.slotPassed_sfm]
    exact hp
  rw [State.actions_inside s.slotPassed_sfm h, State.decideSlot_mem (State.slotPassed_canonical hc) hpend]
  exact s.slotPassed_parts.1

/-- With no request waiting and no beacon due nothing is decided. -/
theorem State.boundaryInside_idle (h : s.nextNumber % 128 ≠ 0) (hp : s.sfm.pend = [])
    (hb : s.flagA F.SFM_BCN_EN = false ∨ (s.nextNumber + 2) % 128 ≠ 0) (dt : Nat) : s.slotPassed.actions dt = s.slotPassed := by
  obtain ⟨-, -, -, -, hact, -⟩ := s.slotPassed_parts
  have hpend : s.slotPassed.sfm.pend = [] := by
    rw [s.slotPassed_sfm]
    exact hp
  have hflag : s.slotPassed.flagA F.SFM_BCN_EN = s.flagA F.SFM_BCN_EN := by
    rw [State.flagA, State.flagA, State.getA, State.getA, State.activeReg, State.activeReg, hact]
  rw [State.actions_inside s.slotPassed_sfm h]
  exact State.decideSlot_idle hpend (State.beaconDue_begun s.slotPassed_sfm (by rwa [hflag]))

/-! ## The start of a superframe -/

theorem not_sumKey_stage (w : Nat) (hw : w < 2) : ¬sumKey (Reg.SYS_STAGE_CTL w) ∧ ¬sumKey (Reg.SYS_STAGE_STAT w) := by
  refine ⟨not_sumKey ?_, not_sumKey ?_⟩ <;> simp only [Reg.SYS_STAGE_CTL, Reg.SYS_STAGE_STAT, bankKey] <;> omega

theorem not_actionKey_stage (w : Nat) (hw : w < 2) : ¬actionKey (Reg.SYS_STAGE_CTL w) ∧ ¬actionKey (Reg.SYS_STAGE_STAT w) := by
  refine ⟨not_actionKey ?_, not_actionKey ?_⟩ <;> simp only [Reg.SYS_STAGE_CTL, Reg.SYS_STAGE_STAT, bankKey] <;> omega

theorem State.slotPassed_stageFlag (s : State) {w : Nat} (hw : w < 2) :
    s.slotPassed.flag (F.SYS_STAGE_CTL_ARM w) = s.flag (F.SYS_STAGE_CTL_ARM w) ∧
      s.slotPassed.flag (F.SYS_STAGE_CTL_GAP w) = s.flag (F.SYS_STAGE_CTL_GAP w) :=
  ⟨congrArg (· == 1) (s.slotPassed_get (f := F.SYS_STAGE_CTL_ARM w) (not_sumKey_stage w hw).1),
    congrArg (· == 1) (s.slotPassed_get (f := F.SYS_STAGE_CTL_GAP w) (not_sumKey_stage w hw).1)⟩

theorem State.slotPassed_commits (hc : s.canonical = true) (ns : Bool) : s.slotPassed.commits ns = s.commits ns := by
  obtain ⟨-, -, -, -, hact, -, -, -, hforce, -⟩ := s.slotPassed_parts
  exact State.commits_congr hc (State.slotPassed_canonical hc) hact hforce (fun _ => s.slotPassed_reg) ns

theorem bit01_lt_two (b : Bool) : bit01 b < 2 := by cases b <;> decide

theorem State.slotPassed_gapOrdered (s : State) (ns : Bool) : s.slotPassed.gapOrdered ns = s.gapOrdered ns := by
  obtain ⟨harm, hgap⟩ := s.slotPassed_stageFlag (bit01_lt_two ns)
  rw [State.gapOrdered, State.gapOrdered, harm, hgap]

/-- What the start of a superframe reports of each world. -/
theorem State.boundarySuperframe_world (hc : s.canonical = true) (dt : Nat) (ns : Bool) :
    (s.flag (F.SYS_STAGE_CTL_ARM (bit01 ns)) = true →
      (s.slotPassed.superframe dt).get (F.SYS_STAGE_CTL_ARM (bit01 ns)) = 0 ∧
        (s.slotPassed.superframe dt).get (F.SYS_STAGE_CTL_GAP (bit01 ns)) = 0 ∧
        (s.slotPassed.superframe dt).get (F.SYS_STAGE_STAT_RESULT (bit01 ns)) = (if s.commits ns then 1 else 2) ∧
        2 + bit01 ns ∈ (s.slotPassed.superframe dt).pulses) ∧
    (s.slotPassed.superframe dt).flag (F.SYS_STAGE_STAT_QUIET (bit01 ns)) = s.gapOrdered ns := by
  have hw := bit01_lt_two ns
  obtain ⟨hctl, hstat⟩ := not_actionKey_stage (bit01 ns) hw
  obtain ⟨hworld, hquiet⟩ := State.boundaryCommit_world (State.slotPassed_canonical hc) ns
  rw [(s.slotPassed_stageFlag hw).1, State.slotPassed_commits hc] at hworld
  refine ⟨fun h => ?_, ?_⟩
  · obtain ⟨harm, hgap, hresult, hpulse⟩ := hworld h
    refine ⟨(State.superframe_get _ dt (f := F.SYS_STAGE_CTL_ARM _) hctl).trans harm,
      (State.superframe_get _ dt (f := F.SYS_STAGE_CTL_GAP _) hctl).trans hgap,
      (State.superframe_get _ dt (f := F.SYS_STAGE_STAT_RESULT _) hstat).trans hresult, ?_⟩
    rwa [State.superframe_pulses]
  · rw [← s.slotPassed_gapOrdered, ← hquiet]
    exact congrArg (· == 1) (State.superframe_get _ dt (f := F.SYS_STAGE_STAT_QUIET _) hstat)

/-- The active copies after the start of a superframe. -/
theorem State.boundarySuperframe_activeReg (hc : s.canonical = true) (dt : Nat) (hx : rowAt (k % 0x100000000) = some x) :
    (s.slotPassed.superframe dt).activeReg k =
      if s.commits (s.blockNS (keyBlock k)) = true then mergeBits x.st (s.activeReg k) (s.reg k) else s.activeReg k := by
  obtain ⟨-, -, -, -, hact, -, -, -, hforce, -⟩ := s.slotPassed_parts
  have hput (u : State) (w : Nat) (b : Bool) : (u.putB (F.SYS_STAGE_STAT_QUIET w) b).act = u.act := rfl
  have hcommit : (s.slotPassed.superframe dt).activeReg k = s.slotPassed.boundaryOutcome.activeReg k := by
    rw [State.activeReg, State.superframe_act, State.boundaryCommit_eq, hput, hput, State.activeReg]
  have hactive : s.slotPassed.activeReg k = s.activeReg k := by rw [State.activeReg, State.activeReg, hact]
  have hblock : s.slotPassed.blockNS (keyBlock k) = s.blockNS (keyBlock k) := by
    simp only [State.blockNS, State.worldWord, hforce, s.slotPassed_reg (not_sumKey (k := Reg.SYS_WLD_BLK) (by decide))]
  rw [hcommit, State.boundaryOutcome_activeReg (State.slotPassed_canonical hc) hx, State.slotPassed_commits hc, hactive, hblock]
  by_cases hk : sumKey k
  · rw [unstaged_of_sumKey hk x hx, mergeBits_none, mergeBits_none]
  · rw [s.slotPassed_reg hk]

theorem State.boundarySuperframe_epoch (hc : s.canonical = true) (dt : Nat) :
    (s.slotPassed.superframe dt).get F.SYS_EPOCH_EPOCH =
      (s.get F.SYS_EPOCH_EPOCH + bit01 (s.commits false || s.commits true)) % 2 ^ 32 := by
  have hquiet (u : State) (w : Nat) (b : Bool) : (u.putB (F.SYS_STAGE_STAT_QUIET w) b).get F.SYS_EPOCH_EPOCH = u.get F.SYS_EPOCH_EPOCH :=
    State.get_put_key u _ (by simp only [F.SYS_EPOCH_EPOCH, F.SYS_STAGE_STAT_QUIET, Reg.SYS_EPOCH, Reg.SYS_STAGE_STAT, bankKey]; omega)
  rw [State.superframe_get _ dt (f := F.SYS_EPOCH_EPOCH) (not_actionKey (by decide)), State.boundaryCommit_eq, hquiet, hquiet,
    State.boundaryOutcome_epoch (State.slotPassed_canonical hc), State.slotPassed_commits hc, State.slotPassed_commits hc,
    s.slotPassed_get (f := F.SYS_EPOCH_EPOCH) (not_sumKey (by decide))]

/-- The superframe is quiet where a GAP is ordered. -/
theorem State.boundarySuperframe_quiet (hl : s.sfm.launches = []) (dt : Nat) :
    (s.slotPassed.superframe dt).sfm.quiet = (s.gapOrdered false || s.gapOrdered true) := by
  have hlaunches : s.slotPassed.sfm.launches = [] := by
    rw [s.slotPassed_sfm]
    change s.sfm.launches.map _ = []
    rw [hl, List.map_nil]
  rw [(State.superframe_machine hlaunches dt).2, State.boundaryCommit_eq, s.slotPassed_gapOrdered, s.slotPassed_gapOrdered]

/-- Tenants' credits after the start of a superframe. -/
theorem State.boundarySuperframe_credit (hc : s.canonical = true) (dt : Nat) (n : Fin 1024) :
    (s.slotPassed.superframe dt).get (F.SFM_QCR_CREDIT n.val) = if (s.slotPassed.superframe dt).flagA F.SFM_CTL_QEN then
      (s.slotPassed.superframe dt).creditOf n.val (s.get (F.SFM_QCR_CREDIT n.val)) else s.get (F.SFM_QCR_CREDIT n.val) := by
  have hkey : ¬sumKey (F.SFM_QCR_CREDIT n.val).key :=
    not_sumKey (by simp only [F.SFM_QCR_CREDIT, Reg.SFM_QCR]; omega)
  rw [State.superframe_credit (State.slotPassed_canonical hc), s.slotPassed_get hkey]

/-- The entries after the start of a superframe. -/
theorem State.boundarySuperframe_entry (hc : s.canonical = true) (dt i : Nat) :
    (s.slotPassed.superframe dt).entry i =
      if i / 64 = s.nextNumber / 128 % 4096 ∧ s.ready 13 = true ∧ s.ownsCistern = true ∧ entSleepy (s.entry i) = true ∧
        32768 ≤ (s.nextNumber / 128 % 65536 + 65536 - entHeard (s.entry i)) % 65536 then setBits (s.entry i) 1 2 3 else s.entry i := by
  have hasn : s.slotPassed.sfm.asn.toNat = s.nextNumber := by
    rw [s.slotPassed_sfm]
    change (BitVec.ofNat 40 s.nextNumber).toNat = _
    rw [toNat_slotNumber]
    exact Nat.mod_eq_of_lt (Nat.mod_lt _ (by positivity))
  have hready : s.slotPassed.ready 13 = s.ready 13 :=
    congrArg (· == 1) (s.slotPassed_get (f := cisternReady) (not_sumKey (by decide)))
  have howns : s.slotPassed.ownsCistern = s.ownsCistern := by
    rw [State.ownsCistern, State.ownsCistern, State.pairState, State.pairState,
      s.slotPassed_get (f := F.SPH_STAT_STATE) (not_sumKey (by decide))]
  rw [State.superframe_entry (State.slotPassed_canonical hc), hasn, hready, howns, State.entry_of_mem s.slotPassed_parts.1]
  simp only [sweptEntry, heardAge]
  by_cases hswept : i / 64 = s.nextNumber / 128 % 4096 ∧ s.ready 13 = true ∧ s.ownsCistern = true
  · obtain ⟨h1, h2, h3⟩ := hswept
    rw [if_pos ⟨h1, h2, h3⟩]
    exact if_congr ⟨fun h => ⟨h1, h2, h3, h⟩, fun ⟨_, _, _, h⟩ => h⟩ rfl rfl
  · rw [if_neg hswept, if_neg (fun ⟨h1, h2, h3, _⟩ => hswept ⟨h1, h2, h3⟩)]

/-- With no request waiting, no launch decided and no plan decided the start of a superframe has no further action. -/
theorem State.boundarySuperframe_actions (hzero : s.nextNumber % 128 = 0) (hp : s.sfm.pend = []) (hl : s.sfm.launches = [])
    (hage : s.get F.AGE_STAT_STATE = 0) (dt : Nat) : s.slotPassed.actions dt = s.slotPassed.superframe dt := by
  have hu := s.slotPassed_sfm
  refine State.actions_superframe ?_ (by rw [hu]; exact hp) ?_ ?_ dt
  · rw [hu]
    change (BitVec.ofNat 40 s.nextNumber).toNat % 128 = 0
    rw [toNat_slotNumber]
    omega
  · rw [hu]
    change s.sfm.launches.map _ = []
    rw [hl, List.map_nil]
  · exact (s.slotPassed_get (f := F.AGE_STAT_STATE) (not_sumKey (by decide))).trans hage

/-! ## Slots begin -/

/-- In `t` runs slot `asn`, which began in `s`: it takes its part of a shift, the feeder's frames go on and no stop is due. -/
def State.Begins (s t : State) (asn : Nat) : Prop :=
  t.sfm.asn = BitVec.ofNat 40 asn ∧ (t.sfm.slotLen : Int) = 80000 + max (-8) (min 8 s.sfm.slew) ∧
    t.sfm.slew = s.sfm.slew - max (-8) (min 8 s.sfm.slew) ∧ t.sfm.offSeen = 0 ∧ t.sfm.prevAsn = s.sfm.asn.toNat ∧
    t.fdr = { s.fdr with realign := false } ∧ t.pending = s.pending ∧ t.sfm.stopPend = false

/-- The slot that follows the slot in progress. -/
theorem State.boundary_begins (hstop : s.sfm.stopPend = false) (dt : Nat) :
    s.Begins (s.slotPassed.actions dt) s.nextNumber ∧ (s.slotPassed.actions dt).sfm.clock = s.sfm.clock + s.sfm.slotLen ∧
      (s.slotPassed.actions dt).sfm.prevLen = s.sfm.slotLen ∧ (s.slotPassed.actions dt).sfm.pause = 0 := by
  have hclock := ClockFrame.actions s.slotPassed dt
  obtain ⟨-, -, -, -, -, -, -, -, -, hfdr⟩ := s.slotPassed_parts
  obtain ⟨hasn, hlen, hslew, hoff, hprevAsn, hstopped, hclk, hprevLen, hpause, -⟩ := begun_of_clock hclock s.slotPassed_sfm
  exact ⟨⟨hasn, hlen, hslew, hoff, hprevAsn, hclock.fdr.trans hfdr, hclock.keeps.queue.trans s.keeps_slotPassed.queue,
    hstopped.trans hstop⟩, hclk, hprevLen, hpause⟩

theorem State.boundary_running (hc : s.canonical = true) (hrun : s.running = true) (dt : Nat) :
    (s.slotPassed.actions dt).running = true :=
  ((ClockFrame.actions s.slotPassed dt).run (State.slotPassed_canonical hc)).trans
    ((running_congr (s.slotPassed_reg (not_sumKey (by decide)))).trans hrun)

/-! ## The stop -/

/-- Where slots do not run there is no boundary. -/
theorem exec_slotBoundary_stopped (hrun : s.running = false) (dt : Nat) : exec (.slotBoundary dt) s = .next s := by
  change execSlotBoundary dt s = _
  rw [execSlotBoundary, hrun]
  rfl

/-- A stop leaves the registers but the marks of the slots and the count of withheld beacons. -/
theorem State.stopSlots_reg_other (s : State) (hstat : k ≠ Reg.SFM_STAT) (hskip : k ≠ Reg.SFM_BCNSKIP) (h0 : k ≠ Reg.SYS_STAGE_STAT 0)
    (h1 : k ≠ Reg.SYS_STAGE_STAT 1) : s.stopSlots.reg k = s.reg k := by
  rw [s.stopSlots_reg hstat h0 h1]
  split
  · exact State.bump_reg_other s hskip
  · rfl

/-- With no plan decided none commits at a stop. -/
theorem State.stopSlots_idlePlan (h : s.get F.AGE_STAT_STATE = 0) : s.stopSlots.commitPlan = s.stopSlots :=
  State.commitPlan_idle
    ((State.get_congr (s.stopSlots_reg_other (k := Reg.AGE_STAT) (by decide) (by decide) (by decide) (by decide))).trans h)

/-- What a stop leaves beside the registers. -/
theorem State.stopped_parts (s : State) :
    s.stopSlots.commitPlan.sfm = s.sfm.stopped ∧ s.stopSlots.commitPlan.mem = s.mem ∧ s.stopSlots.commitPlan.eng = s.eng ∧
      s.stopSlots.commitPlan.lane = s.lane ∧ s.stopSlots.commitPlan.cip = s.cip ∧
      s.stopSlots.commitPlan.fdr = { s.fdr with realign := false } := by
  have hplan := ChangeFrame.commitPlan s.stopSlots
  obtain ⟨hsfm, hmem, heng, hlane, hcip, hfdr⟩ := s.stopSlots_machine
  exact ⟨(hplan.proj (g := State.sfm) (fun _ => rfl)).trans hsfm, (hplan.proj (g := State.mem) (fun _ => rfl)).trans hmem,
    (hplan.proj (g := State.eng) (fun _ => rfl)).trans heng, (hplan.proj (g := State.lane) (fun _ => rfl)).trans hlane,
    (hplan.proj (g := State.cip) (fun _ => rfl)).trans hcip, (hplan.proj (g := State.fdr) (fun _ => rfl)).trans hfdr⟩

/-- What a stop marks in the registers. -/
theorem State.stopped_marks (hc : s.canonical = true) :
    s.stopSlots.commitPlan.running = false ∧ s.stopSlots.commitPlan.flag (F.SYS_STAGE_STAT_QUIET 0) = false ∧
      s.stopSlots.commitPlan.flag (F.SYS_STAGE_STAT_QUIET 1) = false ∧
      s.stopSlots.commitPlan.get F.SFM_BCNSKIP_COUNT =
        (if s.sfm.withheld then s.bump F.SFM_BCNSKIP_COUNT else s).get F.SFM_BCNSKIP_COUNT := by
  have hplan := ChangeFrame.commitPlan s.stopSlots
  obtain ⟨hmark, hsec, hnonsec⟩ := State.stopSlots_marks hc
  exact ⟨(running_congr (hplan.reg _ (not_planKey (by decide)))).trans hmark,
    (congrArg (· == 1) (hplan.get (f := F.SYS_STAGE_STAT_QUIET 0) (not_planKey (by decide)))).trans hsec,
    (congrArg (· == 1) (hplan.get (f := F.SYS_STAGE_STAT_QUIET 1) (not_planKey (by decide)))).trans hnonsec,
    (hplan.get (f := F.SFM_BCNSKIP_COUNT) (not_planKey (by decide))).trans
      (State.get_congr (s.stopSlots_reg (by decide) (by decide) (by decide)))⟩

/-! ## The first slot -/

theorem State.firstSlot_parts (ha : s.sph.acct = []) (asn gap : Nat) :
    (s.firstSlot asn gap).mem = s.mem ∧ (s.firstSlot asn gap).eng = s.eng ∧ (s.firstSlot asn gap).cip = s.cip ∧
      (s.firstSlot asn gap).act = s.act ∧ (s.firstSlot asn gap).fdr = { s.fdr with realign := false } ∧
      (s.firstSlot asn gap).sfm = (s.sfm.started gap).begun asn gap := by
  rw [State.firstSlot_eq ha]
  exact ⟨rfl, rfl, rfl, rfl, rfl, rfl⟩

theorem State.keeps_firstSlot (s : State) (asn gap : Nat) : Keeps s (s.firstSlot asn gap) := by
  have hnoise (u : State) : Keeps u u.spendNoise := by
    rw [State.spendNoise_eq]
    exact Keeps.upd.mpr (.refl u)
  exact Keeps.upd.mpr (State.keeps_applyHeld (((s.keeps_started gap).trans (State.keeps_slotBegun ..)).trans (hnoise _)))

theorem State.firstSlot_noise (ha : s.sph.acct = []) (asn gap : Nat) (n : LaneIx) : ((s.firstSlot asn gap).laneAt n).noise = [] := by
  have hlane : (s.firstSlot asn gap).lane = ((s.started gap).slotBegun asn gap).spendNoise.lane := by rw [State.firstSlot_eq ha]
  rw [State.laneAt, hlane]
  exact State.spendNoise_noise _ n

/-- Slots run from the first slot on. -/
theorem State.firstSlot_running (hc : s.canonical = true) (ha : s.sph.acct = []) (asn gap : Nat) :
    (s.firstSlot asn gap).running = true := by
  have hstart : (s.started gap).running = true :=
    congrArg (· == 1) (State.get_put_same (s := { s with sfm := { s.sfm with startPend := false, adopt := none } }) hc
      F.SFM_STAT_RUNNING 1 (by decide))
  rw [running_congr (State.firstSlot_reg ha gap (not_sumKey (by decide)))]
  exact hstart

/-- The first slot leaves the registers but the sums and the mark of running slots. -/
theorem State.firstSlot_reg_other (ha : s.sph.acct = []) (asn gap : Nat) (hk : ¬sumKey k) (hstat : k ≠ Reg.SFM_STAT) :
    (s.firstSlot asn gap).reg k = s.reg k :=
  (State.firstSlot_reg ha gap hk).trans
    (State.reg_setReg_other ({ s with sfm := { s.sfm with startPend := false, adopt := none } } : State) _ hstat)

theorem ClockFrame.firstActions (s : State) (dt : Nat) : ClockFrame s (s.actions dt).missedBeacons :=
  (ClockFrame.actions s dt).trans (DecisionFrame.missedBeacons _).clock

theorem State.firstSlot_begins (ha : s.sph.acct = []) (hstop : s.sfm.stopPend = false) (asn dt gap : Nat) {t : State}
    (ht : t = ((s.firstSlot asn gap).actions dt).missedBeacons) :
    s.Begins t asn ∧ t.sfm.clock = s.sfm.clock + gap ∧ t.sfm.prevLen = s.sfm.prevLen ∧ t.sfm.pause = gap ∧ t.sfm.startPend = false ∧
      t.sfm.adopt = none := by
  have hclock : ClockFrame (s.firstSlot asn gap) t := ht ▸ ClockFrame.firstActions (s.firstSlot asn gap) dt
  obtain ⟨-, -, -, -, hfdr, hsfm⟩ := State.firstSlot_parts ha asn gap
  obtain ⟨hasn, hlen, hslew, hoff, hprevAsn, hstopped, hclk, hprevLen, hpause, hstarted, hadopt⟩ := begun_of_clock hclock hsfm
  exact ⟨⟨hasn, hlen, hslew, hoff, hprevAsn, hclock.fdr.trans hfdr, hclock.keeps.queue.trans (s.keeps_firstSlot asn gap).queue,
    hstopped.trans hstop⟩, hclk, hprevLen, hpause, hstarted, hadopt⟩

theorem State.firstActions_noise (hn : ∀ n : LaneIx, (s.laneAt n).noise = []) (dt : Nat) (n : LaneIx) :
    ((s.actions dt).missedBeacons.laneAt n).noise = [] := by
  rw [proj_of_rest (g := fun u => u.laneAt n) (DecisionFrame.missedBeacons (s.actions dt)).parts (fun _ => rfl)]
  exact State.actions_noise hn dt n

theorem State.firstActions_running (hc : s.canonical = true) (ha : s.sph.acct = []) (asn dt gap : Nat) :
    ((s.firstSlot asn gap).actions dt).missedBeacons.running = true :=
  ((ClockFrame.firstActions _ dt).run ((s.keeps_firstSlot asn gap).canon hc)).trans (State.firstSlot_running hc ha asn gap)

/-- A first slot inside a superframe, with no request waiting and beacons off, has no action. -/
theorem State.firstSlot_idle (ha : s.sph.acct = []) {asn : Nat} (h : asn % 128 ≠ 0) (hp : s.sfm.pend = [])
    (hb : s.flagA F.SFM_BCN_EN = false) (dt gap : Nat) :
    ((s.firstSlot asn gap).actions dt).missedBeacons = s.firstSlot asn gap := by
  obtain ⟨-, -, -, hact, -, hsfm⟩ := State.firstSlot_parts ha asn gap
  have hpend : (s.firstSlot asn gap).sfm.pend = [] := by
    rw [hsfm]
    exact hp
  have hflag : (s.firstSlot asn gap).flagA F.SFM_BCN_EN = false := by
    rw [← hb, State.flagA, State.flagA, State.getA, State.getA, State.activeReg, State.activeReg, hact]
  rw [State.actions_inside hsfm h, State.decideSlot_idle hpend (State.beaconDue_begun hsfm (.inl hflag)), State.missedBeacons_off hflag]

end Sys2Proof.Machine
end

section
/-! PROOFS. The settling of the slots' boundaries. -/

namespace Sys2Proof.Machine

/-- Settles O44: a boundary is the passing of the slot, which changes times and bucket sums alone, and then the actions of its slot, each
within its frame; a stop and a first start are the same with other clocks. -/
theorem slotsAdvance : Obligations.SlotsAdvance := by
  unfold Obligations.SlotsAdvance
  refine ⟨fun s => ⟨rfl, s.tryRequests_cons⟩, fun s dt hc => ?_⟩
  intro now begun back nearer summed next
  refine ⟨fun hrun hstop => ?_, fun hrun hstop => ?_, fun hrun => ?_, fun gap hrun hstart h0 h1 hstop hacct => ?_,
    fun gap h => exec_firstSlotStart_idle h dt gap⟩
  · obtain ⟨hbegins, hclk, hprevLen, hpause⟩ := State.boundary_begins hstop dt
    refine ⟨_, exec_slotBoundary_runs hrun hstop dt, hbegins, hclk, hprevLen, hpause, State.boundary_running hc hrun dt,
      fun hin => ?_, fun hzero hp hl hage => ?_⟩
    · obtain ⟨hbyte, heng, hlane, hcip, hact, htmr⟩ := State.boundaryInside_parts hin dt
      refine ⟨fun hp => State.boundaryInside_mem hc hin hp dt, hbyte, heng, hlane, hcip, hact, htmr, fun hp hb => ?_⟩
      obtain ⟨-, -, -, -, -, -, hevents, hpulses, -⟩ := s.slotPassed_parts
      rw [State.boundaryInside_idle hin hp hb]
      refine ⟨fun k hk => s.slotPassed_reg hk, ?_, ?_, ?_, hevents, hpulses⟩
      all_goals rw [s.slotPassed_sfm]; rfl
    · intro commits gap
      rw [State.boundarySuperframe_actions hzero hp hl hage]
      refine ⟨fun w => ?_, fun k x hx => ?_, State.boundarySuperframe_epoch hc dt, State.boundarySuperframe_quiet hl dt,
        State.boundarySuperframe_credit hc dt, fun i _ => State.boundarySuperframe_entry hc dt i, State.superframe_noise _ dt⟩
      · match w with
        | 0 => exact State.boundarySuperframe_world hc dt false
        | 1 => exact State.boundarySuperframe_world hc dt true
      · rw [State.boundarySuperframe_activeReg hc dt hx]
        cases s.blockNS (keyBlock k) <;> rfl
  · obtain ⟨hsfm, hmem, heng, hlane, hcip, hfdr⟩ := s.stopped_parts
    obtain ⟨hmark, hsec, hnonsec, hskipped⟩ := State.stopped_marks hc
    refine ⟨_, exec_slotBoundary_stops hrun hstop dt, hmark, hsfm, hsec, hnonsec, hmem, heng, hlane, hcip, hfdr, hskipped,
      fun hage k hstat hskip hstage0 hstage1 => ?_⟩
    rw [State.stopSlots_idlePlan hage]
    exact s.stopSlots_reg_other hstat hskip hstage0 hstage1
  · exact exec_slotBoundary_stopped hrun dt
  · intro asn _
    obtain ⟨hbegins, hclk, hprevLen, hpause, hstarted, hadopt⟩ := State.firstSlot_begins hacct hstop s.startNumber dt gap rfl
    refine ⟨_, exec_firstSlotStart hrun hstart h0 h1 dt gap, hbegins, hclk, hprevLen, hpause,
      State.firstActions_running hc hacct _ dt gap, hstarted, hadopt, State.firstActions_noise (State.firstSlot_noise hacct _ gap) dt,
      fun hin hp hb => ?_⟩
    obtain ⟨hmem, heng, hcip, -, -, hsfm⟩ := State.firstSlot_parts hacct s.startNumber gap
    rw [State.firstSlot_idle hacct (asn := s.startNumber) hin hp hb]
    refine ⟨hmem, heng, hcip, ?_, ?_, fun k hk hstat => State.firstSlot_reg_other hacct _ gap hk hstat⟩
    all_goals rw [hsfm]; rfl

end Sys2Proof.Machine
end

section
/-! PROOFS. The record of a cipher job (05_cistern_security.md R186) whose nonce has more bytes than the record's field for it. -/

namespace Sys2Proof.Machine

/-- Refutes O46: its clause on records takes every `JobEnd`, also one whose nonce is longer than the 16 bytes that R186 has for it. Such a
record runs past RES + 32, where the clause leaves memory as it was. Here a nonce of 28 ones, at RES = 0x1078_0000
in the state of reset, puts a 1 at 0x1078_0020, which held 0. -/
theorem not_cipherJobs : ¬ Obligations.CipherJobs := by
  unfold Obligations.CipherJobs
  intro h
  obtain ⟨-, -, -, -, hrecord, -⟩ := h State.reset 64 (by decide +kernel)
  obtain ⟨-, -, hbyte, -⟩ := hrecord ⟨0, 0, 0, 0x10780000, 0, 0⟩ ⟨0, 0, true, 0, List.replicate 28 1, 0, 0⟩ (by decide +kernel)
    (by decide +kernel) (by decide +kernel)
  have hpast : ((State.reset.writeRecord ⟨0, 0, 0, 0x10780000, 0, 0⟩
      ⟨0, 0, true, 0, List.replicate 28 1, 0, 0⟩).1).byte 0x10780020 ≠ State.reset.byte 0x10780020 := by decide +kernel
  exact hpast ((hbyte 0x10780020).trans (if_neg (by decide +kernel)))

end Sys2Proof.Machine
end

section
/-! PROOFS. The Cistern's register commands (05_cistern_security.md R153 to R155, R157, R159, R160): an update by a requester, a route
query and a clear. -/

namespace Sys2Proof.Machine

variable {s t : State} {r a i f d : Nat} {x : RegRow}

/-! ## What an access does not change -/

@[simp] theorem State.served_memNS (s : State) (r k a : Nat) : (s.served r k).memNS a = s.memNS a := by rw [State.served_eq]; rfl
@[simp] theorem State.served_reqNS (s : State) (r k j : Nat) : (s.served r k).reqNS j = s.reqNS j := by rw [State.served_eq]; rfl
@[simp] theorem State.served_free (s : State) (r k : Nat) : (s.served r k).free = s.free := by rw [State.served_eq]; rfl
@[simp] theorem State.served_entry (s : State) (r k i : Nat) : (s.served r k).entry i = s.entry i :=
  State.entry_of_mem (s.served_mem r k) i

/-! ## Registers of block 13 that a write commands -/

/-- The row of a write-only register of block 13 with the bits of `mask`. -/
def cstOrderRow (a mask : Nat) (bank : Bank) : RegRow := ⟨a, 4, 1, 4, 1, bank, 0, 0, 0, 0, 0, mask, 0, 0, 0⟩

theorem directAt_CST_CTL : (cstOrderRow Reg.CST_CTL 1 .single).DirectAt Reg.CST_CTL := by decide +kernel
theorem rowAt_CST_UGO : rowAt (Reg.CST_UGO 0) = some (cstOrderRow (Reg.CST_UGO 0) 1 .requester) := by decide +kernel
theorem rowAt_CST_RQ : rowAt (Reg.CST_RQ 0) = some (cstOrderRow (Reg.CST_RQ 0) 0x3FFFF .requester) := by decide +kernel

/-- A write that goes through to a banked register of block 13 that is neither staged nor posted meets the requester's copy. -/
theorem State.command32_cstBank (h : s.admits r a true = true) (hx : rowAt a = some x) (hbank : x.bank = .requester) (hst : x.st = 0)
    (hp : posted a = false) (hb : keyBlock a = 13) (ha : a % 4 = 0) (hw : 0x20000000 ≤ a ∧ a < 0x20180000) (v : Word) :
    s.command32 r a v = ((s.served r (bankKey r a)).wroteCst ((s.served r (bankKey r a)).setReg (bankKey r a)
      (x.written (s.locked a) (s.reg (bankKey r a)) v)) r a v).answered 0 := by
  have hk : s.keyOf x r a = bankKey r a := by simp only [State.keyOf, hbank]
  rw [State.command32_row h ha hw hx, State.writeRow_direct (badTuning_of_block (by omega) v) hst hp, hk]
  simp only [State.wrote, hb, State.answerWrite_none]

/-! ## An update by a requester (R153 to R155) -/

theorem exec_cstUgo (r : Req) (s : State) : exec (.cstUgo r) s = .next (s.command32 r.val (Reg.CST_UGO 0) 1) := rfl

theorem State.command32_ugo (h : s.admits r (Reg.CST_UGO 0) true = true) :
    s.command32 r (Reg.CST_UGO 0) 1 = ((s.served r (Reg.CST_UGO r)).requestedUpdate r).answered 0 :=
  State.command32_cstBank h rowAt_CST_UGO rfl rfl (by decide) (by decide) (by decide) (by decide) 1

/-- The words of a bank as one number. -/
theorem State.bankWords_eq (s : State) (k : Nat → Nat) :
    s.bankWords k = (s.reg (k 0)).toNat + (s.reg (k 1)).toNat * 2 ^ 32 + (s.reg (k 2)).toNat * 2 ^ 64 +
      (s.reg (k 3)).toNat * 2 ^ 96 := by
  rw [State.bankWords, show List.range 4 = [0, 1, 2, 3] from rfl]
  simp only [List.foldl, Nat.shiftLeft_eq, Nat.mul_zero, pow_zero, Nat.mul_one, Nat.zero_add, Nat.reduceMul]

@[simp] theorem State.served_bankWords (s : State) (r j : Nat) (k : Nat → Nat) : (s.served r j).bankWords k = s.bankWords k := by
  simp only [State.bankWords, State.served_reg]

theorem ofNat_bitsOf_word (e lo : Nat) : BitVec.ofNat 32 (bitsOf e lo 32) = BitVec.ofNat 32 (e / 2 ^ lo) := by
  apply BitVec.eq_of_toNat_eq
  rw [BitVec.toNat_ofNat, BitVec.toNat_ofNat, bitsOf, Nat.mod_mod, Nat.shiftRight_eq_div_pow]

/-- CST_UOLD0 to CST_UOLD3 one by one. -/
theorem State.putOld_eq (s : State) (r e : Nat) :
    s.putOld r e = (((s.setReg (Reg.CST_UOLD r 0) (BitVec.ofNat 32 e)).setReg (Reg.CST_UOLD r 1) (BitVec.ofNat 32 (e / 2 ^ 32))).setReg
      (Reg.CST_UOLD r 2) (BitVec.ofNat 32 (e / 2 ^ 64))).setReg (Reg.CST_UOLD r 3) (BitVec.ofNat 32 (e / 2 ^ 96)) := by
  rw [State.putOld, show List.range 4 = [0, 1, 2, 3] from rfl]
  simp only [State.each, List.foldl, ofNat_bitsOf_word, Nat.mul_zero, pow_zero, Nat.div_one, Nat.mul_one, Nat.reduceMul]

/-- An update of an entry of the other world is a violation and denied. -/
theorem State.requestedUpdate_barred (hi : s.get (F.CST_UIDX_INDEX r) = i) (h : (s.reqNS r && !s.memNS (entryAddr i)) = true) :
    s.requestedUpdate r = ((s.violation (entryAddr i) true r).put (F.CST_USTAT_RESULT r) 2).putOld r 0 := by
  subst hi
  simp only [State.requestedUpdate, h, if_true]

/-- One on a part that does not own its Cistern is denied (09 R294). -/
theorem State.requestedUpdate_foreign (hi : s.get (F.CST_UIDX_INDEX r) = i) (h : (s.reqNS r && !s.memNS (entryAddr i)) = false)
    (ho : s.ownsCistern = false) : s.requestedUpdate r = (s.put (F.CST_USTAT_RESULT r) 2).putOld r 0 := by
  subst hi
  simp only [State.requestedUpdate, h, ho, Bool.not_false, if_true]
  rfl

/-- One whose comparison fails shows the old words. -/
theorem State.requestedUpdate_mismatch (hi : s.get (F.CST_UIDX_INDEX r) = i) (h : (s.reqNS r && !s.memNS (entryAddr i)) = false)
    (ho : s.ownsCistern = true) (hcmp : s.flag (F.CST_UIDX_CMP r) = true)
    (hne : s.entry i &&& s.bankWords (Reg.CST_UMASK r) ≠ s.bankWords (Reg.CST_UEXP r) &&& s.bankWords (Reg.CST_UMASK r)) :
    s.requestedUpdate r = (s.putOld r (s.entry i)).put (F.CST_USTAT_RESULT r) 1 := by
  subst hi
  have hne' := bne_iff_ne.mpr hne
  simp only [State.requestedUpdate, h, ho, hcmp, hne']
  rfl

/-- One that compares nothing, or equal words, merges its value. -/
theorem State.requestedUpdate_done (hi : s.get (F.CST_UIDX_INDEX r) = i) (h : (s.reqNS r && !s.memNS (entryAddr i)) = false)
    (ho : s.ownsCistern = true) (hcmp : s.flag (F.CST_UIDX_CMP r) = false ∨
      s.entry i &&& s.bankWords (Reg.CST_UMASK r) = s.bankWords (Reg.CST_UEXP r) &&& s.bankWords (Reg.CST_UMASK r)) :
    s.requestedUpdate r = ((s.putOld r (s.entry i)).setEntry i
      ((s.entry i &&& (s.bankWords (Reg.CST_UMASK r) ^^^ (2 ^ 128 - 1))) |||
        (s.bankWords (Reg.CST_UVAL r) &&& s.bankWords (Reg.CST_UMASK r)))).put (F.CST_USTAT_RESULT r) 0 := by
  subst hi
  have hgo : (s.flag (F.CST_UIDX_CMP r) && (s.entry (s.get (F.CST_UIDX_INDEX r)) &&& s.bankWords (Reg.CST_UMASK r)) !=
      (s.bankWords (Reg.CST_UEXP r) &&& s.bankWords (Reg.CST_UMASK r))) = false := by
    rcases hcmp with hcmp | hcmp <;> simp [hcmp]
  simp only [State.requestedUpdate, h, ho, hgo]
  rfl

/-! ## Source routing (R157, R159) -/

theorem State.routeFrom_of_mem (h : t.mem = s.mem) (n i d : Nat) : t.routeFrom n i d = s.routeFrom n i d := by
  induction n generalizing i d with
  | zero => rfl
  | succ n ih => simp only [State.routeFrom, State.entry_of_mem h, ih]

theorem State.routeFrom_succ (s : State) (n i d : Nat) : s.routeFrom (n + 1) i d =
    if !entValid (s.entry i) || (d != 0 && !entRelay (s.entry i)) then none
    else if entParent (s.entry i) = i then some (i, d) else s.routeFrom n (entParent (s.entry i)) (d + 1) := rfl

/-- A route's first hop is an entry, and its depth is less than the steps allowed. -/
theorem State.routeFrom_bounds {n m : Nat} (hi : i < 2 ^ 18) (h : s.routeFrom n i m = some (f, d)) : f < 2 ^ 18 ∧ d < m + n := by
  induction n generalizing i m with
  | zero => simp [State.routeFrom] at h
  | succ n ih =>
    rw [State.routeFrom_succ] at h
    split at h
    · simp at h
    · split at h
      · simp only [Option.some.injEq, Prod.mk.injEq] at h
        omega
      · have hrest := ih (bitsOf_lt _ 100 18) h
        omega

theorem State.served_route (s : State) (r k i : Nat) : (s.served r k).route i = s.route i :=
  State.routeFrom_of_mem (s.served_mem r k) 33 i 0

/-- An answer with a route. -/
theorem State.routeQuery_found (hi : i < 2 ^ 18) (h : s.route i = some (f, d)) (r : Nat) :
    s.routeQuery r i = s.setReg (Reg.CST_RA r) (BitVec.ofNat 32 (2 ^ 31 + d % 64 * 2 ^ 24 + f % 2 ^ 18)) := by
  obtain ⟨hf, hd⟩ := State.routeFrom_bounds hi h
  have hpack : pack [(31, 1), (24, d), (0, f)] = 2 ^ 31 + d % 64 * 2 ^ 24 + f % 2 ^ 18 := by
    simp only [pack, List.foldl, Nat.shiftLeft_eq]
    omega
  simp only [State.routeQuery, h, hpack]

/-- An answer without one draws free values. -/
theorem State.routeQuery_none (h : s.route i = none) (r : Nat) :
    s.routeQuery r i = ({ s with free := s.free + 2 } : State).setReg (Reg.CST_RA r)
      (BitVec.ofNat 32 (Config.freeNat (s.free + 1) % 64 * 2 ^ 24 + Config.freeNat s.free % 2 ^ 18)) := by
  have hpack (y z : Nat) : pack [(24, y), (0, z)] = y * 2 ^ 24 + z := by simp [pack, Nat.shiftLeft_eq]
  simp only [State.routeQuery, h, hpack]
  rfl

theorem exec_cstRq (r : Req) (index : BitVec 18) (s : State) :
    exec (.cstRq r index) s = .next (s.command32 r.val (Reg.CST_RQ 0) (index.setWidth 32)) := rfl

theorem State.command32_rq (h : s.admits r (Reg.CST_RQ 0) true = true) (index : BitVec 18) :
    s.command32 r (Reg.CST_RQ 0) (index.setWidth 32) = ((s.served r (Reg.CST_RQ r)).routeQuery r index.toNat).answered 0 := by
  have hindex : bitsOf (index.setWidth 32).toNat 0 18 = index.toNat := by rw [toNat_setWidth_word _ (by decide), bitsOf_whole]
  rw [State.command32_cstBank h rowAt_CST_RQ rfl rfl (by decide) (by decide) (by decide) (by decide), ← hindex]
  rfl

/-! ## A clear (R160) -/

theorem exec_clear (r : Req) (s : State) : exec (.clear r) s = .next (s.command32 r.val Reg.CST_CTL 1) := rfl

theorem State.command32_clear (h : s.admits r Reg.CST_CTL true = true) :
    s.command32 r Reg.CST_CTL 1 = ((s.served r Reg.CST_CTL).orderClear).answered 0 := by
  rw [State.command32_direct directAt_CST_CTL h]
  rfl

theorem exec_cisternClearComplete (s : State) :
    exec .cisternClearComplete s = .next (if s.flag F.CST_STAT_CLEARING && s.awake then s.finishClear else s) := rfl

/-- The registers and entries as a clear leaves them. -/
def State.cleared (s : State) : State :=
  (((s.wipe 0x10000000 0x10400000).setReg Reg.CST_SUM 0).put F.CST_STAT_CLEARING 0).setBit Reg.SYS_READY 13 true

theorem State.cleared_reg_other {k : Nat} (hstat : k ≠ Reg.CST_STAT) (hready : k ≠ Reg.SYS_READY) (hsum : k ≠ Reg.CST_SUM)
    (s : State) : s.cleared.reg k = s.reg k :=
  (State.reg_setReg_other _ _ hready).trans ((State.reg_setReg_other _ _ hstat).trans (State.reg_setReg_other _ _ hsum))

theorem State.cleared_pairState (s : State) : s.cleared.pairState = s.pairState :=
  State.get_congr (State.cleared_reg_other (by decide) (by decide) (by decide) s)

/-- A clear that ends leaves a primary's entries all dirty (09 R295). -/
theorem State.finishClear_eq (s : State) :
    s.finishClear = { s.cleared with sph := { s.sph with dirty := if s.pairState = 3 then [(0, 262143)] else s.sph.dirty } } := by
  have hdef : s.finishClear = if s.cleared.pairState = 3 then
      { s.cleared with sph := { s.cleared.sph with dirty := [(0, 262143)] } } else s.cleared := rfl
  rw [hdef, State.cleared_pairState]
  split <;> rfl

theorem State.cleared_clearing (hc : s.canonical = true) : s.cleared.flag F.CST_STAT_CLEARING = false := by
  have hget : s.cleared.get F.CST_STAT_CLEARING = 0 :=
    (State.get_congr (State.reg_setReg_other _ _ (by decide))).trans
      (State.get_put_same (State.canonical_setReg (State.canonical_wipe hc _ _) _ _) F.CST_STAT_CLEARING 0 (by decide))
  rw [State.flag, hget]
  rfl

/-- A bit of a register once it is written. -/
theorem State.bit_setBit_same (hc : s.canonical = true) (k : Nat) {i : Nat} (hi : i < 32) (b : Bool) : (s.setBit k i b).bit k i = b := by
  have hget := State.get_put_same hc ⟨k, i, 1⟩ (bit01 b) hi
  cases b <;> exact congrArg (· == 1) hget

theorem State.cleared_ready (hc : s.canonical = true) : s.cleared.ready 13 = true :=
  State.bit_setBit_same (State.canonical_put (State.canonical_setReg (State.canonical_wipe hc _ _) _ _) _ _) Reg.SYS_READY (by decide) true

theorem State.cleared_sum (hc : s.canonical = true) : s.cleared.reg Reg.CST_SUM = 0 :=
  (State.reg_setReg_other _ _ (by decide)).trans ((State.reg_setReg_other _ _ (by decide)).trans
    (State.reg_setReg_same (State.canonical_wipe hc _ _) Reg.CST_SUM 0))

theorem State.byte_wipe (hc : s.canonical = true) (lo hi a : Nat) :
    (s.wipe lo hi).byte a = if lo ≤ a ∧ a < hi then memDefault a else s.byte a := by
  rw [State.byte, State.wipe_mem, AMap.look_clear _ (State.mem_wf hc)]
  simp only [decide_eq_true_eq]
  rfl

theorem ofBytesLe_zeros {bs : List Byte} (h : ∀ b ∈ bs, b = 0) : ofBytesLe bs = 0 := by
  induction bs with
  | nil => rfl
  | cons b bs ih =>
    rw [ofBytesLe, h b (List.mem_cons_self ..), ih (fun x hx => h x (List.mem_cons_of_mem _ hx))]
    rfl

theorem State.cleared_entry (hc : s.canonical = true) (hi : i < 262144) : s.cleared.entry i = 0 := by
  refine ofBytesLe_zeros (fun b hb => ?_)
  obtain ⟨j, hj, rfl⟩ := List.mem_map.mp hb
  rw [List.mem_range] at hj
  have hin : 0x10000000 ≤ entryAddr i + j ∧ entryAddr i + j < 0x10400000 := by unfold entryAddr; omega
  refine (State.byte_wipe hc 0x10000000 0x10400000 _).trans ?_
  rw [if_pos hin, memDefault, if_neg (by omega)]

end Sys2Proof.Machine
end

section
/-! PROOFS. Words written straight into the Cistern and the key store (05_cistern_security.md R156, R161, R163, R164, 09_pair_siphon.md
R294, R295), and the settling of the commands of the Cistern and the key store. -/

namespace Sys2Proof.Machine

variable {s : State} {r a i n v : Nat} {load : Bool} {b : Byte} {bs : List Byte}

/-! ## Bytes in memory -/

theorem getD_bytesLe {n j : Nat} (hj : j < n) (v : Nat) : (bytesLe n v).getD j 0 = BitVec.ofNat 8 (v / 2 ^ (8 * j)) := by
  induction n generalizing j v with
  | zero => omega
  | succ n ih =>
    cases j with
    | zero => simp [bytesLe]
    | succ j =>
      rw [bytesLe, List.getD_cons_succ, ih (by omega), Nat.div_div_eq_div_mul, show 8 * (j + 1) = 8 + 8 * j by omega, pow_add]
      rfl

theorem State.byte_putWord (hc : s.canonical = true) (a v x : Nat) :
    (s.putBytes a (bytesLe 4 v)).byte x = if a ≤ x ∧ x < a + 4 then BitVec.ofNat 8 (v / 2 ^ (8 * (x - a))) else s.byte x := by
  rw [State.byte_putBytes hc, length_bytesLe]
  split
  · exact getD_bytesLe (by omega) v
  · rfl

theorem State.byte_storeByte (hc : s.canonical = true) (load : Bool) (a : Nat) (b : Byte) (x : Nat) :
    (s.storeByte load a b).byte x = (s.putByte a b).byte x := by
  by_cases hx : x = a
  · rw [hx, State.byte_storeByte_same hc, State.byte_putByte_same hc]
  · rw [State.byte_storeByte_other s load b hx, State.byte_putByte_other s b hx]

/-- A store puts its bytes into memory, whatever else follows from it. -/
theorem State.byte_storeBytes (hc : s.canonical = true) (load : Bool) (a : Nat) (bs : List Byte) (x : Nat) :
    (s.storeBytes load a bs).byte x = (s.putBytes a bs).byte x := by
  induction bs generalizing s a with
  | nil => rfl
  | cons b bs ih =>
    have hc' := State.canonical_storeByte hc load a b
    rw [State.storeBytes, State.putBytes, ih hc', State.byte_putBytes hc',
      State.byte_putBytes (State.canonical_putByte hc a b), State.byte_storeByte hc]

/-! ## A store inside one entry (R161, 09 R295) -/

theorem State.storeByte_cistern (h : 0x10000000 ≤ a ∧ a < 0x10400000) :
    s.storeByte load a b = (s.pokeEntry ((a - 0x10000000) / 16) a [b]).markDirty ((a - 0x10000000) / 16) := if_pos h

/-- The bytes from `a` on, `n` of them, lie in entry `i`. -/
abbrev inEntry (i a n : Nat) : Prop := i < 262144 ∧ entryAddr i ≤ a ∧ a + n ≤ entryAddr i + 16

/-- A byte stored in entry `i`. -/
theorem State.storeByte_entry (h : inEntry i a (n + 1)) : s.storeByte load a b = (s.pokeEntry i a [b]).markDirty i := by
  obtain ⟨hi, hlo, hhi⟩ := h
  unfold entryAddr at hlo hhi
  rw [State.storeByte_cistern (by omega), show (a - 0x10000000) / 16 = i by omega]

theorem inEntry_tail (h : inEntry i a (n + 1)) : inEntry i (a + 1) n := by
  obtain ⟨hi, hlo, hhi⟩ := h
  exact ⟨hi, by omega, by omega⟩

theorem State.storeBytes_entry_reg (h : inEntry i a bs.length) {k : Nat} (hk : k ≠ Reg.CST_SUM) :
    (s.storeBytes load a bs).reg k = s.reg k := by
  induction bs generalizing s a with
  | nil => rfl
  | cons b bs ih =>
    rw [State.storeBytes, ih (inEntry_tail h), State.storeByte_entry h, State.markDirty_reg, State.pokeEntry_reg_other s i a [b] hk]

/-- The checksum exchanges the entry's old hash for its new one. -/
theorem State.storeBytes_entry_sum (hc : s.canonical = true) (h : inEntry i a bs.length) :
    ((s.storeBytes load a bs).reg Reg.CST_SUM).toNat =
      ((s.reg Reg.CST_SUM).toNat ^^^ s.entryHash i ^^^ (s.storeBytes load a bs).entryHash i) % 2 ^ 32 := by
  induction bs generalizing s a with
  | nil =>
    rw [State.storeBytes, Nat.xor_xor_cancel_right]
    exact (Nat.mod_eq_of_lt (s.reg Reg.CST_SUM).isLt).symm
  | cons b bs ih =>
    have hone : ((s.storeByte load a b).reg Reg.CST_SUM).toNat =
        ((s.reg Reg.CST_SUM).toNat ^^^ s.entryHash i ^^^ (s.storeByte load a b).entryHash i) % 2 ^ 32 := by
      have hhash : (s.storeByte load a b).entryHash i = (s.putBytes a [b]).entryHash i :=
        State.entryHash_congr (fun j _ => State.byte_storeByte hc load a b _)
      rw [hhash, State.storeByte_entry h, State.markDirty_reg, State.pokeEntry_sum hc]
    rw [State.storeBytes, ih (State.canonical_storeByte hc load a b) (inEntry_tail h), hone]
    simp only [Nat.xor_mod_two_pow, Nat.mod_mod]
    rw [Nat.xor_xor_cancel_right]

/-- A primary marks the entry once for each byte. -/
theorem State.storeBytes_entry_sph (h : inEntry i a bs.length) :
    (s.storeBytes load a bs).sph = if s.pairState = 3 then
      { s.sph with dirty := (fun l => addMark l i)^[bs.length] s.sph.dirty } else s.sph := by
  induction bs generalizing s a with
  | nil => simp [State.storeBytes]
  | cons b bs ih =>
    have hpair : (s.pokeEntry i a [b]).pairState = s.pairState := State.get_congr (s.pokeEntry_reg_other i a [b] (by decide))
    have hpair' : ((s.pokeEntry i a [b]).markDirty i).pairState = s.pairState :=
      (State.get_congr (State.markDirty_reg _ i _)).trans hpair
    have hsph : ((s.pokeEntry i a [b]).markDirty i).sph =
        if s.pairState = 3 then { s.sph with dirty := addMark s.sph.dirty i } else s.sph := by
      rw [State.markDirty, hpair, State.pokeEntry_eq]
      split <;> rfl
    rw [State.storeBytes, ih (inEntry_tail h), State.storeByte_entry h, hpair', hsph]
    split <;> rfl

/-- Ranges keep their ends in order as a mark is added. -/
theorem addMark_ordered (l : List (Nat × Nat)) (hl : ∀ x ∈ l, x.1 ≤ x.2) (i : Nat) : ∀ x ∈ addMark l i, x.1 ≤ x.2 := by
  fun_induction addMark l i with
  | case1 => simp
  | case2 => simpa using hl
  | case3 b l h1 =>
    rw [List.forall_mem_cons] at hl ⊢
    obtain ⟨hb, hl⟩ := hl
    exact ⟨(Nat.le_succ i).trans hb, hl⟩
  | case4 => exact hl
  | case5 a b h1 h2 h3 h4 d l' =>
    rw [List.forall_mem_cons, List.forall_mem_cons] at hl
    rw [List.forall_mem_cons]
    obtain ⟨hb, hd, hl⟩ := hl
    dsimp only at hb hd ⊢
    exact ⟨by omega, hl⟩
  | case6 a b h1 h2 h3 c d l' h4 =>
    rw [List.forall_mem_cons] at hl ⊢
    obtain ⟨hb, hl⟩ := hl
    dsimp only at hb ⊢
    exact ⟨by omega, hl⟩
  | case7 a b h1 h2 h3 =>
    simp at hl ⊢
    omega
  | case8 a b l h1 h2 h3 h4 ih =>
    rw [List.forall_mem_cons] at hl ⊢
    obtain ⟨hb, hl⟩ := hl
    exact ⟨hb, ih hl⟩

/-- An entry marked several times lies in one of the ranges. -/
theorem any_iterate_addMark (l : List (Nat × Nat)) (hl : ∀ x ∈ l, x.1 ≤ x.2) (i n : Nat) :
    ((fun m => addMark m i)^[n + 1] l).any (fun x => decide (x.1 ≤ i ∧ i ≤ x.2)) = true := by
  rw [Function.iterate_succ_apply']
  have hordered : ∀ x ∈ (fun m => addMark m i)^[n] l, x.1 ≤ x.2 :=
    Function.Iterate.rec (fun m : List (Nat × Nat) => ∀ x ∈ m, x.1 ≤ x.2) hl (fun m hm => addMark_ordered m hm i) n
  exact any_addMark _ hordered i

/-- A word stored on a primary leaves its entry marked. -/
theorem State.storeWord_entry_marked (h : inEntry i a 4) (hp : s.pairState = 3) (hl : ∀ x ∈ s.sph.dirty, x.1 ≤ x.2) (v : Nat) :
    (s.storeBytes load a (bytesLe 4 v)).sph.dirty.any (fun x => decide (x.1 ≤ i ∧ i ≤ x.2)) = true := by
  rw [State.storeBytes_entry_sph (i := i) (by rwa [length_bytesLe]), if_pos hp, length_bytesLe]
  exact any_iterate_addMark _ hl i 3

/-! ## What a turn does not change -/

@[simp] theorem State.takeTurn_byte (s : State) (r t x : Nat) : (s.takeTurn r t).byte x = s.byte x := by rw [State.takeTurn_eq]; rfl
@[simp] theorem State.takeTurn_sph (s : State) (r t : Nat) : (s.takeTurn r t).sph = s.sph := by rw [State.takeTurn_eq]
@[simp] theorem State.takeTurn_pairState (s : State) (r t : Nat) : (s.takeTurn r t).pairState = s.pairState :=
  State.get_congr (State.takeTurn_reg ..)
@[simp] theorem State.takeTurn_ownsCistern (s : State) (r t : Nat) : (s.takeTurn r t).ownsCistern = s.ownsCistern := by
  rw [State.ownsCistern, State.takeTurn_pairState]
  rfl
@[simp] theorem State.takeTurn_entryHash (s : State) (r t i : Nat) : (s.takeTurn r t).entryHash i = s.entryHash i :=
  State.entryHash_congr (fun _ _ => State.takeTurn_byte ..)

/-! ## A word written straight into the Cistern (R156) -/

theorem placeOf_cistern (h : inCistern a) : placeOf a = .cistern := by
  unfold inCistern at h
  rw [placeOf, if_neg (by omega), if_neg (by omega), if_pos h.2]

/-- A write of a word to the Cistern that may be made and is ready: only the Siphon writes on a part that does not own its Cistern. -/
theorem State.store_cistern (h : inCistern a) (hready : s.ready 13 = true) (hopen : (s.reqNS r && !s.memNS a) = false) :
    s.store r a n v = if r = 69 ∨ s.ownsCistern = true then
      ((s.takeTurn r (targetOf a)).storeBytes (isHost r) a (bytesLe n v), none) else (s.takeTurn r (targetOf a), some .other) := by
  have hplace := placeOf_cistern h
  simp only [State.store, hplace, hopen, State.placeReady, hready, State.storePlace, State.writeMet, State.takeTurn_ownsCistern,
    Bool.not_true, Bool.false_eq_true, if_false]
  by_cases hmay : r = 69 ∨ s.ownsCistern = true
  · simp only [if_pos hmay]
  · simp only [if_neg hmay]

theorem State.command32_word (ha : a % 4 = 0) (hr : s.canReach r = true) (w : Word) :
    s.command32 r a w = State.answerWrite (s.store r a 4 w.toNat) r a := by
  rw [State.command32, if_pos hr, State.busWrite, if_pos ha]

theorem exec_cisternDirectWrite (r : Req) (a v : Word) (h : inCistern a.toNat) (s : State) :
    exec (.cisternDirectWrite r a v) s = .next (s.command32 r.val a.toNat v) :=
  congrArg Host.Outcome.next (if_pos (placeOf_cistern h))

/-- A direct write is performed on a part that owns its Cistern, and for the Siphon. -/
theorem exec_cisternDirectWrite_stores {r : Req} {a : Word} (h : inCistern a.toNat) (ha : a.toNat % 4 = 0) (hr : s.canReach r.val = true)
    (hready : s.ready 13 = true) (hopen : (s.reqNS r.val && !s.memNS a.toNat) = false) (ho : s.ownsCistern = true ∨ r.val = 69)
    (v : Word) : exec (.cisternDirectWrite r a v) s =
      .next (((s.takeTurn r.val (targetOf a.toNat)).storeBytes (isHost r.val) a.toNat (bytesLe 4 v.toNat)).answered 0) := by
  rw [exec_cisternDirectWrite r a v h, State.command32_word ha hr, State.store_cistern h hready hopen, if_pos ho.symm,
    State.answerWrite_none]

/-- It fails for another requester on a part that does not (09 R294). -/
theorem exec_cisternDirectWrite_fails {r : Req} {a : Word} (h : inCistern a.toNat) (ha : a.toNat % 4 = 0) (hr : s.canReach r.val = true)
    (hready : s.ready 13 = true) (hopen : (s.reqNS r.val && !s.memNS a.toNat) = false) (ho : s.ownsCistern = false) (h69 : r.val ≠ 69)
    (v : Word) : exec (.cisternDirectWrite r a v) s =
      .next { (s.takeTurn r.val (targetOf a.toNat)).portError r.val a.toNat with data := 0, err := true } := by
  rw [exec_cisternDirectWrite r a v h, State.command32_word ha hr, State.store_cistern h hready hopen, if_neg (by simp [ho, h69]),
    State.answerWrite_error]

/-! ## The key store (R163, R164) -/

/-- An address in the key store (01 R13). -/
abbrev inKeyStore (a : Nat) : Prop := 0x107FC000 ≤ a ∧ a < 0x10800000

theorem placeOf_keyStore (h : inKeyStore a) : placeOf a = .keyStore := by
  rw [placeOf, if_neg (by omega), if_neg (by omega), if_neg (by omega), if_neg (by omega), if_neg (by omega), if_neg (by omega),
    if_neg (by omega), if_pos h.2]

theorem exec_keyStoreWrite (r : Req) (a v : Word) (w : Width) (h : inKeyStore a.toNat) (hr : s.canReach r.val = true) :
    exec (.keyStoreWrite r a v w) s =
      .next (State.answerWrite (s.store r.val a.toNat (widthBytes w) v.toNat) r.val a.toNat) := by
  have hdef : exec (.keyStoreWrite r a v w) s = execKeyStoreWrite r a v w s := rfl
  rw [hdef, execKeyStoreWrite, placeOf_keyStore h, hr]
  rfl

theorem State.memNS_keyStore (h : inKeyStore a) : s.memNS a = false := by rw [State.memNS, placeOf_keyStore h]

theorem State.store_keyStore_barred (h : inKeyStore a) (hns : s.reqNS r = true) :
    s.store r a n v = (s.violation a true r, some .world) := by
  simp only [State.store, placeOf_keyStore h, hns, State.memNS_keyStore h]
  rfl

theorem State.store_keyStore_unready (h : inKeyStore a) (hns : s.reqNS r = false) (hready : s.ready 14 = false) :
    s.store r a n v = (s, some .other) := by
  simp only [State.store, placeOf_keyStore h, hns, State.placeReady, hready]
  rfl

/-- A secure write that is ready stores an aligned word, and spoils the slot otherwise. -/
theorem State.store_keyStore (h : inKeyStore a) (hns : s.reqNS r = false) (hready : s.ready 14 = true) :
    s.store r a n v = if n = 4 ∧ a % 4 = 0 then ((s.takeTurn r (targetOf a)).writeKeyWord a (BitVec.ofNat 32 v), none)
      else ((s.takeTurn r (targetOf a)).spoilSlot a, none) := by
  simp only [State.store, State.storePlace, placeOf_keyStore h, hns, State.placeReady, hready]
  rfl

theorem widthBytes_eq_four (w : Width) : widthBytes w = 4 ↔ w = .word := by cases w <;> decide

theorem State.writeKeyWord_byte (s : State) (a : Nat) (w : Word) (x : Nat) :
    (s.writeKeyWord a w).byte x = (s.putBytes a (bytesLe 4 w.toNat)).byte x := by
  unfold State.writeKeyWord
  dsimp only
  split <;> rfl

/-- A slot is whole once its fourth word is written. -/
theorem State.writeKeyWord_regs (s : State) (a : Nat) (w : Word) : (s.writeKeyWord a w).regs =
    (s.setBit (Reg.CIP_KSV ((a - 0x107FC000) / 16 / 32)) ((a - 0x107FC000) / 16 % 32) (a % 16 == 12)).regs := by
  unfold State.writeKeyWord
  rw [State.putBytes_eq]
  dsimp only
  split <;> rfl

/-- The fourth word of a slot takes the keys derived from it out of the cache. -/
theorem State.writeKeyWord_cip (s : State) (a : Nat) (w : Word) :
    (s.writeKeyWord a w).cip = if a % 16 = 12 then (s.dropSlotKeys ((a - 0x107FC000) / 16)).cip else s.cip := by
  unfold State.writeKeyWord
  rw [State.putBytes_eq]
  dsimp only
  split <;> rfl

/-! ## O45 -/

/-- Settles O45: each command is the access of its register or memory word, and what that access does is its lemma above, by the case
of its premises. -/
theorem cisternCommands : Obligations.CisternCommands := by
  unfold Obligations.CisternCommands
  intro s r hc
  refine ⟨fun h => ?_, fun index h => ?_, fun i => ⟨rfl, fun fuel d => ⟨rfl, s.routeFrom_succ fuel i d⟩⟩, fun h => ?_,
    fun hclr hawake => ?_, fun h => ?_, fun a v hlo hhi ha hr hready hopen => ?_, fun a v w hlo hhi hr => ?_⟩
  · intro c i old words mask shows
    have hidx : c.get (F.CST_UIDX_INDEX r.val) = i := State.served_get ..
    have hold : c.entry i = old := State.served_entry ..
    have hwords (k : Nat → Nat) : c.bankWords k = words k := (State.served_bankWords ..).trans (s.bankWords_eq k)
    have hshows (t : State) (e : Nat) : t.putOld r.val e = shows t e := t.putOld_eq r.val e
    have howns : c.ownsCistern = s.ownsCistern := State.served_ownsCistern ..
    have hcmpFlag : c.flag (F.CST_UIDX_CMP r.val) = s.flag (F.CST_UIDX_CMP r.val) := State.served_flag ..
    have hworlds : (c.reqNS r.val && !c.memNS (entryAddr i)) = (s.reqNS r.val && !s.memNS (entryAddr i)) := by
      rw [State.served_reqNS, State.served_memNS]
    have hgo : exec (.cstUgo r) s = .next ((c.requestedUpdate r.val).answered 0) := by rw [exec_cstUgo, State.command32_ugo h]
    rw [hgo]
    refine ⟨fun hbar => ?_, fun hopen => ⟨fun ho => ⟨fun hcmp => ?_, fun hcmp hne => ?_⟩, fun ho => ?_⟩⟩
    · rw [State.requestedUpdate_barred hidx (hworlds.trans hbar), hshows]
      rfl
    · rw [State.requestedUpdate_done hidx (hworlds.trans hopen) (howns.trans ho)
        (by rw [hcmpFlag, hold, hwords, hwords]; exact hcmp), hshows, hold, hwords, hwords]
    · rw [State.requestedUpdate_mismatch hidx (hworlds.trans hopen) (howns.trans ho) (hcmpFlag.trans hcmp)
        (by rw [hold, hwords, hwords]; exact hne), hshows, hold]
    · rw [State.requestedUpdate_foreign hidx (hworlds.trans hopen) (howns.trans ho), hshows]
  · intro c
    have hroute := State.served_route s r.val (Reg.CST_RQ r.val) index.toNat
    rw [exec_cstRq, State.command32_rq h]
    refine ⟨fun f d hfound => ?_, fun hnone => ?_⟩
    · rw [State.routeQuery_found index.isLt (hroute.trans hfound)]
    · rw [State.routeQuery_none (hroute.trans hnone), State.served_free]
  · intro c
    rw [exec_clear, State.command32_clear h, State.orderClear, State.served_ownsCistern]
    refine ⟨fun ho => ?_, fun ho => ?_⟩
    · rw [if_pos ho]
      rfl
    · rw [ho]
      rfl
  · have hgo : (s.flag F.CST_STAT_CLEARING && s.awake) = true := by rw [hclr, hawake]; rfl
    rw [exec_cisternClearComplete, if_pos hgo, State.finishClear_eq]
    refine ⟨_, rfl, State.cleared_clearing hc, State.cleared_ready hc, State.cleared_sum hc, fun i hi => State.cleared_entry hc hi,
      fun a ha => ?_, fun k hstat hready hsum => State.cleared_reg_other hstat hready hsum s, rfl, rfl, rfl⟩
    exact (State.byte_wipe hc 0x10000000 0x10400000 a).trans (if_neg (by omega))
  · have hstay : (s.flag F.CST_STAT_CLEARING && s.awake) = false := by rcases h with h | h <;> simp [h]
    rw [exec_cisternClearComplete, hstay]
    rfl
  · intro i
    have hentry : inEntry i a.toNat 4 := by unfold inEntry entryAddr; omega
    refine ⟨fun ho => ?_, fun ho h69 => exec_cisternDirectWrite_fails ⟨hlo, hhi⟩ ha hr hready hopen ho h69 v⟩
    have hcu := State.canonical_takeTurn hc r.val (targetOf a.toNat)
    have hword : inEntry i a.toNat (bytesLe 4 v.toNat).length := by rwa [length_bytesLe]
    refine ⟨_, exec_cisternDirectWrite_stores ⟨hlo, hhi⟩ ha hr hready hopen ho v, rfl, rfl, fun b => ?_, ?_, fun k hk => ?_,
      fun hp => ?_, fun hp hl => ?_⟩
    · refine (State.byte_storeBytes hcu (isHost r.val) a.toNat (bytesLe 4 v.toNat) b).trans ?_
      rw [State.byte_putWord hcu, State.takeTurn_byte]
    · refine (State.storeBytes_entry_sum hcu (load := isHost r.val) hword).trans ?_
      rw [State.takeTurn_reg, State.takeTurn_entryHash]
      rfl
    · exact (State.storeBytes_entry_reg hword hk).trans (State.takeTurn_reg ..)
    · refine (State.storeBytes_entry_sph hword).trans ?_
      rw [State.takeTurn_pairState, State.takeTurn_sph, if_neg hp]
    · rw [← State.takeTurn_sph s r.val (targetOf a.toNat)] at hl
      exact State.storeWord_entry_marked hentry ((State.takeTurn_pairState ..).trans hp) hl v.toNat
  · intro slot whole failed
    have hkey : inKeyStore a.toNat := ⟨hlo, hhi⟩
    have hcu := State.canonical_takeTurn hc r.val (targetOf a.toNat)
    rw [exec_keyStoreWrite r a v w hkey hr]
    refine ⟨fun hns => ?_, fun hns hready => ?_, fun hns hready hw ha => ?_, fun hns hready hnarrow => ?_⟩
    · rw [State.store_keyStore_barred hkey hns, State.answerWrite_error]
    · rw [State.store_keyStore_unready hkey hns hready, State.answerWrite_error]
    · rw [State.store_keyStore hkey hns hready, if_pos ⟨(widthBytes_eq_four w).mpr hw, ha⟩, BitVec.ofNat_toNat, BitVec.setWidth_eq]
      refine ⟨_, rfl, rfl, rfl, fun b => ?_, ?_, ?_⟩
      · refine (State.writeKeyWord_byte _ a.toNat v b).trans ?_
        rw [State.byte_putWord hcu, State.takeTurn_byte]
      · refine (State.writeKeyWord_regs _ a.toNat v).trans ?_
        rw [State.takeTurn_eq]
        rfl
      · refine (State.writeKeyWord_cip _ a.toNat v).trans ?_
        rw [State.takeTurn_eq]
        rfl
    · rw [State.store_keyStore hkey hns hready,
        if_neg (fun hword => hnarrow.elim (fun hw => hw ((widthBytes_eq_four w).mp hword.1)) (fun ha => ha hword.2)),
        State.answerWrite_none]
      rfl

end Sys2Proof.Machine
end

section
/-! PROOFS. The calibration cache of the transmit synthesiser (06_transmit_synth.md R207 to R209): which entry a channel has, what a
calibration stores and an invalidation drops, and the commands that SYN_CMD queues. -/

namespace Sys2Proof.Machine

variable {s t : State} {r a k op khz : Nat} {c : SynCmd}

/-! ## Registers of the synthesiser -/

@[simp] theorem State.served_syn (s : State) (r k : Nat) : (s.served r k).syn = s.syn := by rw [State.served_eq]; rfl

theorem synEnt_injective {i j : Nat} (h : i ≠ j) : Reg.SYN_ENT i ≠ Reg.SYN_ENT j := by
  simp only [Reg.SYN_ENT]
  omega

theorem synEnt_ne_stat (k : Nat) : Reg.SYN_ENT k ≠ Reg.SYN_STAT := by
  simp only [Reg.SYN_ENT, Reg.SYN_STAT]
  omega

theorem synEnt_ne_vco (h : k < 256) : Reg.SYN_ENT k ≠ Reg.AGE_VCO := by
  simp only [Reg.SYN_ENT, Reg.AGE_VCO]
  omega

/-! ## Two fields of one register -/

/-- Two fields written one after the other both read as written. -/
theorem State.get_put_put (hc : s.canonical = true) {f g : Fld} (m n : Nat) (hk : f.key = g.key) (hf : f.lo + f.width ≤ 32)
    (hg : g.lo + g.width ≤ 32) (ha : f.lo + f.width ≤ g.lo ∨ g.lo + g.width ≤ f.lo) :
    ((s.put f m).put g n).get f = m % 2 ^ f.width ∧ ((s.put f m).put g n).get g = n % 2 ^ g.width :=
  ⟨(State.get_put_apart (State.canonical_put hc f m) n hk hg ha).trans (State.get_put_same hc f m hf),
    State.get_put_same (State.canonical_put hc f m) g n hg⟩

theorem State.reg_put_put (s : State) {f g : Fld} (m n : Nat) (hf : a ≠ f.key) (hg : a ≠ g.key) :
    ((s.put f m).put g n).reg a = s.reg a :=
  (State.reg_setReg_other _ _ hg).trans (State.reg_setReg_other _ _ hf)

/-! ## The headroom of a calibration (14 R455) -/

theorem State.noteHeadroom_reg_other (s : State) (head : Headroom) (h : a ≠ Reg.AGE_VCO) : (s.noteHeadroom head).reg a = s.reg a :=
  s.reg_put_put _ _ h h

/-- Each headroom keeps the least seen. -/
theorem State.noteHeadroom_least (hc : s.canonical = true) (head : Headroom) :
    (s.noteHeadroom head).get F.AGE_VCO_LOHEAD = min (s.get F.AGE_VCO_LOHEAD) head.lo.toNat ∧
      (s.noteHeadroom head).get F.AGE_VCO_HIHEAD = min (s.get F.AGE_VCO_HIHEAD) head.hi.toNat := by
  have hbyte (x : Nat) (b : Byte) : min x b.toNat % 2 ^ 8 = min x b.toNat :=
    Nat.mod_eq_of_lt (lt_of_le_of_lt (min_le_right _ _) b.isLt)
  obtain ⟨hlo, hhi⟩ := State.get_put_put hc (f := F.AGE_VCO_LOHEAD) (g := F.AGE_VCO_HIHEAD)
    (min (s.get F.AGE_VCO_LOHEAD) head.lo.toNat) (min (s.get F.AGE_VCO_HIHEAD) head.hi.toNat) rfl (by decide) (by decide) (by decide)
  exact ⟨hlo.trans (hbyte _ _), hhi.trans (hbyte _ _)⟩

/-! ## CALBUSY and LOCKED -/

/-- CALBUSY and LOCKED lie side by side in SYN_STAT. -/
theorem State.flags_put_calbusy_locked (hc : s.canonical = true) (b l : Nat) :
    ((s.put F.SYN_STAT_CALBUSY b).put F.SYN_STAT_LOCKED l).flag F.SYN_STAT_CALBUSY = (b % 2 == 1) ∧
      ((s.put F.SYN_STAT_CALBUSY b).put F.SYN_STAT_LOCKED l).flag F.SYN_STAT_LOCKED = (l % 2 == 1) := by
  obtain ⟨hbusy, hlocked⟩ := State.get_put_put hc (f := F.SYN_STAT_CALBUSY) (g := F.SYN_STAT_LOCKED) b l rfl (by decide) (by decide)
    (by decide)
  exact ⟨congrArg (· == 1) hbusy, congrArg (· == 1) hlocked⟩

/-! ## The entries of the cache -/

/-- The cache is read from the entries' registers alone. -/
theorem State.synEntry_congr (h : ∀ k, t.reg (Reg.SYN_ENT k) = s.reg (Reg.SYN_ENT k)) (khz : Nat) : t.synEntry khz = s.synEntry khz := by
  have hvalid (k : Nat) : t.flag (F.SYN_ENT_VALID k) = s.flag (F.SYN_ENT_VALID k) := congrArg (· == 1) (State.get_congr (h k))
  have hkhz (k : Nat) : t.get (F.SYN_ENT_KHZ k) = s.get (F.SYN_ENT_KHZ k) := State.get_congr (h k)
  simp only [State.synEntry, hvalid, hkhz]

theorem State.dropCal_none (h : s.synEntry khz = none) : s.dropCal khz = s := by simp only [State.dropCal, h]

theorem State.dropCal_some (h : s.synEntry khz = some k) :
    s.dropCal khz = { s.setReg (Reg.SYN_ENT k) 0 with syn := { s.syn with lru := s.syn.lru.filter (fun j => j != k) } } := by
  simp only [State.dropCal, h]
  rfl

/-- The entries of an empty cache. -/
def noCalibrations : List (Nat × Word) := (List.range 256).map (fun k => (Reg.SYN_ENT k, 0))

theorem State.dropAllCal_eq (s : State) :
    s.dropAllCal = { s with regs := (s.setRegs noCalibrations).regs, syn := { s.syn with lru := [] } } := by
  have heach : s.each (List.range 256) (fun s k => s.setReg (Reg.SYN_ENT k) 0) = s.setRegs noCalibrations := by
    rw [State.setRegs, noCalibrations, State.each, State.each, List.foldl_map]
  rw [State.dropAllCal, heach, State.setRegs_eq]

theorem noCalibrations_keys : noCalibrations.map Prod.fst = (List.range 256).map Reg.SYN_ENT := by
  rw [noCalibrations, List.map_map]
  rfl

/-- Every entry is empty once all are dropped, and no other register changes. -/
theorem State.reg_setRegs_noCalibrations (hc : s.canonical = true) :
    (∀ k < 256, (s.setRegs noCalibrations).reg (Reg.SYN_ENT k) = 0) ∧
      ∀ a, (∀ k < 256, a ≠ Reg.SYN_ENT k) → (s.setRegs noCalibrations).reg a = s.reg a := by
  have hinj : Function.Injective Reg.SYN_ENT := fun i j h => by_contra (fun hij => synEnt_injective hij h)
  refine ⟨fun k hk => State.setRegs_reg_same hc ?_ ?_, fun a ha => State.setRegs_reg_other s ?_⟩
  · rw [noCalibrations_keys]
    exact List.nodup_range.map hinj
  · exact List.mem_map.mpr ⟨k, List.mem_range.mpr hk, rfl⟩
  · rw [noCalibrations_keys]
    rintro hmem
    obtain ⟨k, hk, rfl⟩ := List.mem_map.mp hmem
    exact ha k (List.mem_range.mp hk) rfl

/-- Entry `k` is the one that a calibration of `khz` is stored in: the channel's own, else the lowest empty one, else the least recently
used one (R207, R208). -/
def State.storesIn (s : State) (khz k : Nat) : Prop :=
  s.synEntry khz = some k ∨
    (s.synEntry khz = none ∧ firstIdx 256 (fun i => !s.flag (F.SYN_ENT_VALID i)) = some k) ∨
    (s.synEntry khz = none ∧ firstIdx 256 (fun i => !s.flag (F.SYN_ENT_VALID i)) = none ∧ s.syn.lru.getLast? = some k)

/-- The word of a valid entry. -/
def calibrationWord (temp khz : Nat) : Word := BitVec.ofNat 32 (2 ^ 31 + temp * 2 ^ 20 + khz)

theorem State.storeCal_eq (h : s.storesIn khz k) (temp : Nat) :
    s.storeCal khz temp = (s.setReg (Reg.SYN_ENT k) (calibrationWord temp khz)).useEntry k := by
  have hpack : pack [(31, 1), (20, temp), (0, khz)] = 2 ^ 31 + temp * 2 ^ 20 + khz := by
    simp only [pack, List.foldl, Nat.shiftLeft_eq]
    omega
  rw [State.storeCal, hpack, ← calibrationWord]
  obtain hown | ⟨hnone, hempty⟩ | ⟨hnone, hfull, hlast⟩ := h
  · simp only [hown]
  · simp only [hnone, hempty]
  · simp only [hnone, hfull, hlast, Option.getD_some]

/-! ## Writes of SYN_CMD (R209) -/

/-- The row of SYN_CMD: OP and KHZ are written and read as 0. -/
def synCmdRow : RegRow := ⟨Reg.SYN_CMD, 4, 1, 4, 1, .single, 0, 0, 0, 0, 0, 0xC00FFFFF, 0, 0, 0⟩

theorem directAt_SYN_CMD : synCmdRow.DirectAt Reg.SYN_CMD := by decide +kernel

theorem State.wrote_synCmd (s t : State) (r k : Nat) (v : Word) :
    s.wrote t r Reg.SYN_CMD k v = (s.synCommand (bitsOf v.toNat 30 2) (bitsOf v.toNat 0 20), none) := rfl

/-- The word of a command. -/
theorem toNat_synWord (hop : op < 4) (hk : khz < 2 ^ 20) : (wordOf [(0, khz), (30, op)]).toNat = khz + 2 ^ 30 * op := by
  simp only [wordOf, pack, List.foldl, Nat.shiftLeft_eq, BitVec.toNat_ofNat]
  omega

/-- A command that a requester's write gives goes to the queue. -/
theorem State.command32_synCmd (h : s.admits r Reg.SYN_CMD true = true) (hop : op < 4) (hk : khz < 2 ^ 20) :
    s.command32 r Reg.SYN_CMD (wordOf [(0, khz), (30, op)]) = ((s.served r Reg.SYN_CMD).synCommand op khz).answered 0 := by
  have hfields : bitsOf (khz + 2 ^ 30 * op) 30 2 = op ∧ bitsOf (khz + 2 ^ 30 * op) 0 20 = khz := by
    simp only [bitsOf, Nat.shiftRight_eq_div_pow]
    omega
  obtain ⟨hopField, hkhzField⟩ := hfields
  rw [State.command32_direct directAt_SYN_CMD h, State.wrote_synCmd, toNat_synWord hop hk, hopField, hkhzField,
    State.answerWrite_none]

theorem exec_synCalibrate (r : Req) (khz : BitVec 20) (s : State) :
    exec (.synCalibrate r khz) s = .next (s.command32 r.val Reg.SYN_CMD (wordOf [(0, khz.toNat), (30, 1)])) := rfl

theorem exec_synInvalidate (r : Req) (khz : BitVec 20) (s : State) :
    exec (.synInvalidate r khz) s = .next (s.command32 r.val Reg.SYN_CMD (wordOf [(0, khz.toNat), (30, 2)])) := rfl

theorem exec_synInvalidateAll (r : Req) (s : State) :
    exec (.synInvalidateAll r) s = .next (s.command32 r.val Reg.SYN_CMD (wordOf [(0, 750000), (30, 3)])) := rfl

/-- A command for a channel of the range joins the queue, or finds it full. -/
theorem State.synCommand_inRange (hop : op ≠ 0) (hlo : 750000 ≤ khz) (hhi : khz ≤ 960000) :
    s.synCommand op khz = if 16 ≤ s.syn.queue.length then s.put F.SYN_ERR_QFULL 1
      else { s with syn := { s.syn with queue := s.syn.queue ++ [⟨op, khz⟩] } } := by
  rw [State.synCommand, if_neg (show ¬(khz < 750000 ∨ 960000 < khz) by omega), if_neg hop]
  rfl

/-- One for another channel is dropped. -/
theorem State.synCommand_outOfRange (h : khz < 750000 ∨ 960000 < khz) :
    s.synCommand op khz = s.put (if 16 ≤ s.syn.queue.length then F.SYN_ERR_QFULL else F.SYN_ERR_RANGE) 1 := by
  rw [State.synCommand, if_pos h]
  split <;> rfl

/-! ## The oldest command starts (R209) -/

theorem exec_queuedCommandStart_waits
    (h : s.syn.queue = [] ∨ s.ready 11 = false ∨ s.syn.running ≠ none ∨ s.tx.hop ≠ none ∨ s.tx.cur ≠ none) :
    exec .queuedCommandStart s = .next s := by
  change execQueuedCommandStart s = _
  unfold execQueuedCommandStart
  cases hq : s.syn.queue with
  | nil => rfl
  | cons c rest =>
    have hbusy : (s.ready 11 && s.syn.running.isNone && s.tx.hop.isNone && s.tx.cur.isNone) = false := by
      have hempty : s.syn.queue ≠ [] := by simp [hq]
      simp only [Bool.and_eq_false_iff, Option.isNone_eq_false_iff, Option.isSome_iff_ne_none]
      tauto
    simp only [hbusy]
    rfl

/-- Between launches the oldest command leaves the queue and acts by its OP. -/
theorem exec_queuedCommandStart_acts {rest : List SynCmd} (hq : s.syn.queue = c :: rest) (hready : s.ready 11 = true)
    (hrun : s.syn.running = none) (hhop : s.tx.hop = none) (hcur : s.tx.cur = none) :
    let u : State := { s with syn := { s.syn with queue := rest } }
    exec .queuedCommandStart s = .next (if c.op = 1 then
        (({ s with syn := { s.syn with queue := rest, running := some c } } : State).put F.SYN_STAT_CALBUSY 1).put F.SYN_STAT_LOCKED 0
      else if c.op = 2 then u.dropCal c.khz else u.dropAllCal) := by
  intro u
  have hfree : (s.ready 11 && s.syn.running.isNone && s.tx.hop.isNone && s.tx.cur.isNone) = true := by
    simp [hready, hrun, hhop, hcur]
  change execQueuedCommandStart s = _
  simp only [execQueuedCommandStart, hq, hfree, if_true]
  rfl

/-! ## A queued calibration ends (R209) -/

theorem exec_queuedCalibrationEnd_idle (h : s.syn.running = none) (head : Headroom) : exec (.queuedCalibrationEnd head) s = .next s := by
  change execQueuedCalibrationEnd head s = _
  simp only [execQueuedCalibrationEnd, h]

/-- `s` with a calibration stored in entry `k` and none running. -/
def State.calibrated (s : State) (khz k : Nat) : State :=
  let u : State := { s with syn := { s.syn with running := none } }
  (u.setReg (Reg.SYN_ENT k) (calibrationWord (s.get F.TMP_DIE_TEMP) khz)).useEntry k

theorem State.canonical_calibrated (hc : s.canonical = true) (khz k : Nat) : (s.calibrated khz k).canonical = true :=
  State.canonical_setReg (s := ({ s with syn := { s.syn with running := none } } : State)) hc _ _

theorem State.reg_calibrated_same (hc : s.canonical = true) (khz k : Nat) :
    (s.calibrated khz k).reg (Reg.SYN_ENT k) = calibrationWord (s.get F.TMP_DIE_TEMP) khz :=
  State.reg_setReg_same (s := ({ s with syn := { s.syn with running := none } } : State)) hc _ _

theorem State.reg_calibrated_other (s : State) (khz : Nat) (h : a ≠ Reg.SYN_ENT k) : (s.calibrated khz k).reg a = s.reg a :=
  State.reg_setReg_other ({ s with syn := { s.syn with running := none } } : State) _ h

theorem exec_queuedCalibrationEnd_stores (hrun : s.syn.running = some c) (hk : s.storesIn c.khz k) (head : Headroom) :
    exec (.queuedCalibrationEnd head) s =
      .next ((((s.calibrated c.khz k).put F.SYN_STAT_CALBUSY 0).put F.SYN_STAT_LOCKED 1).noteHeadroom head) := by
  have hstores : ({ s with syn := { s.syn with running := none } } : State).storesIn c.khz k := hk
  change execQueuedCalibrationEnd head s = _
  simp only [execQueuedCalibrationEnd, hrun, State.storeCal_eq hstores]
  rfl

/-! ## O48 -/

/-- Settles O48: each command is the write of SYN_CMD, and the start and the end of a command are its lemmas above. -/
theorem synthesiserCommands : Obligations.SynthesiserCommands := by
  unfold Obligations.SynthesiserCommands
  intro s r khz hc
  have hkhz := khz.isLt
  refine ⟨fun h => ⟨fun hlo hhi => ?_, fun hout => ?_, ?_⟩, exec_queuedCommandStart_waits,
    fun c rest hq hready hrun hhop hcur => ?_, fun head h => exec_queuedCalibrationEnd_idle h head,
    fun c head k hrun _ hk hstores => ?_⟩
  · rw [exec_synCalibrate, exec_synInvalidate, State.command32_synCmd h (by decide) hkhz, State.command32_synCmd h (by decide) hkhz,
      State.synCommand_inRange (by decide) hlo hhi, State.synCommand_inRange (by decide) hlo hhi, State.served_syn]
    exact ⟨rfl, rfl⟩
  · rw [exec_synCalibrate, exec_synInvalidate, State.command32_synCmd h (by decide) hkhz, State.command32_synCmd h (by decide) hkhz,
      State.synCommand_outOfRange hout, State.synCommand_outOfRange hout, State.served_syn]
    exact ⟨rfl, rfl⟩
  · rw [exec_synInvalidateAll, State.command32_synCmd h (by decide) (by decide),
      State.synCommand_inRange (by decide) (by decide) (by decide), State.served_syn]
  · rw [exec_queuedCommandStart_acts hq hready hrun hhop hcur]
    refine ⟨fun hop => ?_, fun hop hnone => ?_, fun k hop hsome => ?_, fun hop => ?_⟩
    · rw [if_pos hop]
    · have hentry : ({ s with syn := { s.syn with queue := rest } } : State).synEntry c.khz = none := hnone
      rw [if_neg (by omega), if_pos hop, State.dropCal_none hentry]
    · have hentry : ({ s with syn := { s.syn with queue := rest } } : State).synEntry c.khz = some k := hsome
      rw [if_neg (by omega), if_pos hop, State.dropCal_some hentry]
      rfl
    · obtain ⟨hempty, hother⟩ := State.reg_setRegs_noCalibrations (s := { s with syn := { s.syn with queue := rest } }) hc
      rw [if_neg (by omega), if_neg (by omega), State.dropAllCal_eq]
      generalize State.setRegs _ noCalibrations = u at hempty hother ⊢
      refine ⟨_, rfl, rfl, fun k => ?_, fun a ha => ?_, rfl⟩
      · exact hempty k k.isLt
      · exact hother a (fun k hk => ha ⟨k, hk⟩)
  · have hcal := State.canonical_calibrated hc c.khz k
    have hdone := State.canonical_put (State.canonical_put hcal F.SYN_STAT_CALBUSY 0) F.SYN_STAT_LOCKED 1
    obtain ⟨hbusy, hlocked⟩ := State.flags_put_calbusy_locked hcal 0 1
    obtain ⟨hlo, hhi⟩ := State.noteHeadroom_least hdone head
    have hreg (a : Nat) (hstat : a ≠ Reg.SYN_STAT) (hvco : a ≠ Reg.AGE_VCO) :
        ((((s.calibrated c.khz k).put F.SYN_STAT_CALBUSY 0).put F.SYN_STAT_LOCKED 1).noteHeadroom head).reg a =
          (s.calibrated c.khz k).reg a :=
      (State.noteHeadroom_reg_other _ head hvco).trans (State.reg_put_put _ 0 1 hstat hstat)
    have hvco : (((s.calibrated c.khz k).put F.SYN_STAT_CALBUSY 0).put F.SYN_STAT_LOCKED 1).reg Reg.AGE_VCO = s.reg Reg.AGE_VCO :=
      (State.reg_put_put _ 0 1 (by decide) (by decide)).trans (State.reg_calibrated_other s c.khz (synEnt_ne_vco hk).symm)
    have hstat {f : Fld} (h : f.key = Reg.SYN_STAT) :
        ((((s.calibrated c.khz k).put F.SYN_STAT_CALBUSY 0).put F.SYN_STAT_LOCKED 1).noteHeadroom head).flag f =
          (((s.calibrated c.khz k).put F.SYN_STAT_CALBUSY 0).put F.SYN_STAT_LOCKED 1).flag f :=
      congrArg (· == 1) (State.get_congr (State.noteHeadroom_reg_other _ head (h ▸ by decide)))
    refine ⟨_, exec_queuedCalibrationEnd_stores hrun hstores head, rfl, rfl, rfl, ?_, fun i hi => ?_, (hstat rfl).trans hbusy,
      (hstat rfl).trans hlocked, fun a hent hstat hvco => ?_, ?_, ?_, rfl⟩
    · exact (hreg _ (synEnt_ne_stat k) (synEnt_ne_vco hk)).trans (State.reg_calibrated_same hc c.khz k)
    · exact (hreg _ (synEnt_ne_stat _) (synEnt_ne_vco i.isLt)).trans (State.reg_calibrated_other s c.khz (synEnt_injective hi))
    · exact (hreg a hstat hvco).trans (State.reg_calibrated_other s c.khz (hent ⟨k, hk⟩))
    · rw [hlo, State.get_congr (f := F.AGE_VCO_LOHEAD) hvco]
    · rw [hhi, State.get_congr (f := F.AGE_VCO_HIHEAD) hvco]

end Sys2Proof.Machine
end

section
/-! PROOFS. The transmitter blanks a receive chain and ends its blanking (02_receive_path.md R67, R77): the chain's mark, where each lane
goes, and DESENSE on the other chain. -/

namespace Sys2Proof.Machine

variable {s t : State} {m : LaneIx} {c : Chain}

/-! ## Lanes of the other chain carry DESENSE -/

/-- A lane with its frame in progress, if it has one, marked DESENSE. -/
def Lane.desensed (l : Lane) : Lane :=
  if l.state = .header ∨ l.state = .payload then
    { l with frame := { l.frame with marks := { l.frame.marks with desense := true } } }
  else l

theorem Lane.state_desensed (l : Lane) : l.desensed.state = l.state := by
  unfold Lane.desensed
  split <;> rfl

theorem Lane.desense_desensed {l : Lane} (h : l.state = .header ∨ l.state = .payload) : l.desensed.frame.marks.desense = true := by
  rw [Lane.desensed, if_pos h]

theorem State.setLane_laneAt (s : State) (m : LaneIx) : s.setLane m (s.laneAt m) = s := by
  simp [State.setLane, State.laneAt]

/-- Frames in progress on the other chain carry DESENSE. -/
def State.desenseOther (s : State) (c : Chain) : State :=
  s.each (chainLanes (otherChain c)) (fun u n => u.setLane n (u.laneAt n).desensed)

theorem State.blankChain_eq (s : State) (c : Chain) :
    s.blankChain c = (((s.put (F.RXC_STAT_BLANK (chainNo c)) 1).stopWindows c).reconcile).desenseOther c := by
  refine congrArg (State.each _ _) (funext fun u => funext fun n => ?_)
  rw [Lane.desensed]
  dsimp only
  split
  · rfl
  · exact (u.setLane_laneAt n).symm

theorem State.laneAt_desenseOther (s : State) (c : Chain) (m : LaneIx) :
    (s.desenseOther c).laneAt m = if laneChain m = otherChain c then (s.laneAt m).desensed else s.laneAt m := by
  refine (State.laneAt_each_setLane Lane.desensed (nodup_chainLanes (otherChain c)) s m).trans ?_
  simp only [mem_chainLanes]

theorem State.state_desenseOther (s : State) (c : Chain) (m : LaneIx) : ((s.desenseOther c).laneAt m).state = (s.laneAt m).state := by
  rw [State.laneAt_desenseOther]
  split
  · exact Lane.state_desensed _
  · rfl

theorem ReceiveFrame.desenseOther (K : Nat → Prop) (s : State) (c : Chain) : ReceiveFrame K s (s.desenseOther c) :=
  ReceiveFrame.each (fun u n => .setLane K u n _) _ s

/-! ## Blanking begins and ends (R77) -/

/-- BLANK of a chain is no counter of aborted frames. -/
theorem not_abortKey_rxcStat (c : Chain) : ¬abortKey (Reg.RXC_STAT (chainNo c)) := not_abortKey_of_laneTableKey (.inr ⟨c, rfl⟩)

theorem State.blank_put (hc : s.canonical = true) (c : Chain) (n : Nat) :
    (s.put (F.RXC_STAT_BLANK (chainNo c)) n).flag (F.RXC_STAT_BLANK (chainNo c)) = (n % 2 == 1) :=
  congrArg (· == 1) (State.get_put_same hc (F.RXC_STAT_BLANK (chainNo c)) n (show 6 + 1 ≤ 32 by omega))

theorem State.blank_blankChain (hc : s.canonical = true) (c : Chain) :
    (s.blankChain c).flag (F.RXC_STAT_BLANK (chainNo c)) = true := by
  have hframe : ReceiveFrame abortKey (s.put (F.RXC_STAT_BLANK (chainNo c)) 1) (s.blankChain c) := by
    rw [State.blankChain_eq]
    exact (ReceiveFrame.stopWindows _ _ c).trans ((ReceiveFrame.reconcile _).trans (.desenseOther _ _ c))
  exact (congrArg (· == 1) (hframe.get (not_abortKey_rxcStat c))).trans (State.blank_put hc c 1)

/-- Every lane goes where the table takes it. -/
theorem State.state_blankChain (s : State) (c : Chain) (m : LaneIx) :
    ((s.blankChain c).laneAt m).state = (s.blankChain c).laneGoes m (s.laneAt m).state := by
  rw [State.blankChain_eq]
  generalize hu : (s.put (F.RXC_STAT_BLANK (chainNo c)) 1).stopWindows c = u
  have hgoes : (u.reconcile.desenseOther c).laneGoes m (s.laneAt m).state = u.laneGoes m (s.laneAt m).state :=
    ((ReceiveFrame.desenseOther (fun _ => False) u.reconcile c).laneGoes (fun _ _ => id) m _).trans (State.laneGoes_reconcile u m _)
  have hstand : (u.laneAt m).state = (s.laneAt m).state := by
    obtain ⟨hstate, -⟩ := LanesStand.stopWindows (s.put (F.RXC_STAT_BLANK (chainNo c)) 1) c m
    rw [← hu]
    exact hstate
  obtain ⟨hstate, -⟩ := State.laneAt_reconcile u m
  rw [State.state_desenseOther, hstate, hgoes, hstand]

theorem State.desense_blankChain (hm : laneChain m = otherChain c)
    (h : ((s.blankChain c).laneAt m).state = .header ∨ ((s.blankChain c).laneAt m).state = .payload) :
    ((s.blankChain c).laneAt m).frame.marks.desense = true := by
  rw [State.blankChain_eq] at h ⊢
  rw [State.state_desenseOther] at h
  rw [State.laneAt_desenseOther, if_pos hm]
  exact Lane.desense_desensed h

theorem State.blank_unblankChain (hc : s.canonical = true) (c : Chain) (clock : Nat) :
    (s.unblankChain c clock).flag (F.RXC_STAT_BLANK (chainNo c)) = false := by
  have hframe : ReceiveFrame abortKey (s.put (F.RXC_STAT_BLANK (chainNo c)) 0) (s.unblankChain c clock) :=
    (ReceiveFrame.setChain _ _ c _).trans (.reconcile _)
  exact (congrArg (· == 1) (hframe.get (not_abortKey_rxcStat c))).trans (State.blank_put hc c 0)

theorem State.unblankAt_unblankChain (s : State) (c : Chain) (clock : Nat) :
    ((s.unblankChain c clock).chainAt c).unblankAt = some clock := by
  rw [State.unblankChain, State.chainAt_congr (State.chain_reconcile _), State.chainAt_setChain_same]

theorem State.state_unblankChain (s : State) (c : Chain) (clock : Nat) (m : LaneIx) :
    ((s.unblankChain c clock).laneAt m).state = (s.unblankChain c clock).laneGoes m (s.laneAt m).state := by
  obtain ⟨hstate, -⟩ := State.laneAt_reconcile
    ((s.put (F.RXC_STAT_BLANK (chainNo c)) 0).setChain c { s.chainAt c with unblankAt := some clock }) m
  rw [State.laneAt_setChain] at hstate
  exact hstate.trans (State.laneGoes_reconcile _ m _).symm

end Sys2Proof.Machine
end

section
/-! PROOFS. A launch from its payload read to its hop (06_transmit_synth.md R198, R202, R205, R207, R208, R491, 04_superframe.md R125):
deviations, launches that are not made, the payload read, the earliest launch and what a hop leaves behind. -/

namespace Sys2Proof.Machine

variable {s t : State} {l : Launch} {ls : List Launch} {k : Nat}

/-! ## Symbols and their deviations (R202) -/

/-- The table of deviations, in units of 10 Hz by the RATE code. -/
theorem deviationOf_eq (four wide : Bool) (rate level : Nat) :
    (deviationOf four wide rate level : Int) =
      if four then (if level = 3 then [1250, 2500, 5000].getD rate 5000 else [417, 833, 1667].getD rate 1667)
      else [625, 1250, 2500].getD rate 2500 * (if wide then 2 else 1) := by
  cases four with
  | false => cases wide <;> rcases rate with - | - | - | rate <;> rfl
  | true =>
    by_cases h3 : level = 3
    · subst h3
      rcases rate with - | - | - | rate <;> rfl
    · have hinner : deviationOf true wide rate level = if rate = 0 then 417 else if rate = 1 then 833 else 1667 := by
        unfold deviationOf
        split <;> simp_all
      rw [hinner, if_pos rfl, if_neg h3]
      rcases rate with - | - | - | rate <;> rfl

/-! ## Launches that are not made (R210, R491, 04 R125) -/

theorem State.cancelLaunch_request {q : TxReq} (h : l.req = some q) :
    s.cancelLaunch l = { s with sfm := { s.sfm with
      pend := s.sfm.pend.filter (fun x => decide (x.ord < q.ord)) ++ q :: s.sfm.pend.filter (fun x => decide (q.ord < x.ord)) } } := by
  simp only [State.cancelLaunch, h]
  rfl

theorem State.cancelLaunch_beacon (h : l.req = none) : s.cancelLaunch l = s.skipBeacon l.slot := by simp only [State.cancelLaunch, h]

theorem State.skipBeacon_ahead {slot : Nat} (h : s.running = true ∧ slot / 128 ≠ s.sfm.asn.toNat / 128) :
    s.skipBeacon slot = { s with sfm := { s.sfm with withheld := true } } := if_pos (by simpa using h)

theorem State.skipBeacon_now {slot : Nat} (h : ¬(s.running = true ∧ slot / 128 ≠ s.sfm.asn.toNat / 128)) :
    s.skipBeacon slot = if s.sfm.quiet then s else s.bump F.SFM_BCNSKIP_COUNT := if_neg (by simpa using h)

/-! ## The payload read (R198, R491) -/

theorem exec_payloadReadComplete_none (h : s.unread = none) : exec .payloadReadComplete s = .next s := by
  change execPayloadReadComplete s = _
  simp only [execPayloadReadComplete, h]

theorem exec_payloadReadComplete_waits (h : s.unread = some l) (hw : s.flashHolds l.d1.toNat (txLen l.d0) = true) :
    exec .payloadReadComplete s = .next s := by
  change execPayloadReadComplete s = _
  simp only [execPayloadReadComplete, h, hw, if_true]

/-- The launch that the read of its payload gives its frame. -/
def State.framed (u : State) (l : Launch) (bs : List Byte) : Launch :=
  { l with
    loaded := true, frame := u.buildFrame l bs, levels := symbolLevels (txFourLevel l.d0 l.prof) (u.buildFrame l bs)
    deviations := l.modulate (u.buildFrame l bs) }

theorem exec_payloadReadComplete_reads {u : State} {bs : List Byte} (h : s.unread = some l)
    (hw : s.flashHolds l.d1.toNat (txLen l.d0) = false)
    (hread : s.moveRead (s.blockNS 11) 70 l.d1.toNat (txLen l.d0) = (u, .ok bs)) :
    exec .payloadReadComplete s = .next { u with sfm := { u.sfm with
      launches := u.sfm.launches.map (fun x => if x = l then u.framed l bs else x) } } := by
  change execPayloadReadComplete s = _
  simp only [execPayloadReadComplete, h, hw, hread]
  rfl

theorem exec_payloadReadComplete_fails {u : State} {e : AccErr} (h : s.unread = some l)
    (hw : s.flashHolds l.d1.toNat (txLen l.d0) = false)
    (hread : s.moveRead (s.blockNS 11) 70 l.d1.toNat (txLen l.d0) = (u, .error e)) :
    exec .payloadReadComplete s =
      .next ((({ u with sfm := { u.sfm with launches := u.sfm.launches.erase l } } : State).badDesc l.desc 7).cancelLaunch l) := by
  change execPayloadReadComplete s = _
  simp only [execPayloadReadComplete, h, hw, hread]
  rfl

/-! ## The earliest launch -/

theorem earliestLaunch_concat (ls : List Launch) (x : Launch) :
    earliestLaunch (ls ++ [x]) = match earliestLaunch ls with
      | none => some x
      | some b => if x.occStart < b.occStart then some x else some b := by
  rw [earliestLaunch, List.foldl_append]
  rfl

theorem earliestLaunch_spec (ls : List Launch) :
    (earliestLaunch ls = none ∧ ls = []) ∨
      ∃ l, earliestLaunch ls = some l ∧ l ∈ ls ∧ ∀ x ∈ ls, l.occStart ≤ x.occStart := by
  induction ls using List.reverseRecOn with
  | nil => exact .inl ⟨rfl, rfl⟩
  | append_singleton ls x ih =>
    right
    rw [earliestLaunch_concat]
    obtain ⟨hnone, rfl⟩ | ⟨b, hb, hmem, hle⟩ := ih
    · rw [hnone]
      exact ⟨x, rfl, by simp, by simp⟩
    · rw [hb]
      by_cases hlt : x.occStart < b.occStart
      · refine ⟨x, if_pos hlt, by simp, fun y hy => ?_⟩
        rcases List.mem_append.mp hy with hy | hy
        · exact hlt.le.trans (hle y hy)
        · rw [List.mem_singleton.mp hy]
      · refine ⟨b, if_neg hlt, List.mem_append_left _ hmem, fun y hy => ?_⟩
        rcases List.mem_append.mp hy with hy | hy
        · exact hle y hy
        · rw [List.mem_singleton.mp hy]
          exact not_lt.mp hlt

theorem earliestLaunch_some (h : earliestLaunch ls = some l) : l ∈ ls ∧ ∀ x ∈ ls, l.occStart ≤ x.occStart := by
  obtain ⟨hnone, -⟩ | ⟨b, hb, hspec⟩ := earliestLaunch_spec ls
  · rw [hnone] at h
    cases h
  · obtain rfl := Option.some.inj (hb.symm.trans h)
    exact hspec

/-! ## The hop starts (R205, R207, R208) -/

/-- A hit is read from the entries' registers, the die temperature and AUTO. -/
theorem State.synHit_congr (hent : ∀ k, t.reg (Reg.SYN_ENT k) = s.reg (Reg.SYN_ENT k)) (htemp : t.reg Reg.TMP_DIE = s.reg Reg.TMP_DIE)
    (hctl : t.reg Reg.SYN_CTL = s.reg Reg.SYN_CTL) (khz : Nat) : t.synHit khz = s.synHit khz := by
  have hdie : t.getS F.TMP_DIE_TEMP = s.getS F.TMP_DIE_TEMP := congrArg _ (State.get_congr htemp)
  have hauto : t.flag F.SYN_CTL_AUTO = s.flag F.SYN_CTL_AUTO := congrArg (· == 1) (State.get_congr hctl)
  have hcal (k : Nat) : t.getS (F.SYN_ENT_TCAL k) = s.getS (F.SYN_ENT_TCAL k) := congrArg _ (State.get_congr (hent k))
  simp only [State.synHit, State.synEntry_congr hent, hdie, hauto, hcal]

/-- `l` waits no longer, and PHASE shows its hop unless a launch is on air. -/
def State.hopShown (s : State) (l : Launch) : State :=
  let u : State := { s with sfm := { s.sfm with launches := s.sfm.launches.erase l } }
  if s.tx.cur = none then u.put F.TXP_STAT_PHASE 1 else u

theorem State.canonical_hopShown (hc : s.canonical = true) (l : Launch) : (s.hopShown l).canonical = true := by
  have hu : ({ s with sfm := { s.sfm with launches := s.sfm.launches.erase l } } : State).canonical = true := hc
  unfold State.hopShown
  split
  · exact State.canonical_put hu _ _
  · exact hu

theorem State.hopShown_reg_other (s : State) (l : Launch) (h : k ≠ Reg.TXP_STAT) : (s.hopShown l).reg k = s.reg k := by
  unfold State.hopShown
  split
  · exact State.reg_setReg_other _ _ h
  · rfl

theorem State.hopShown_phase (hc : s.canonical = true) (l : Launch) :
    (s.hopShown l).get F.TXP_STAT_PHASE = if s.tx.cur = none then 1 else s.get F.TXP_STAT_PHASE := by
  have hu : ({ s with sfm := { s.sfm with launches := s.sfm.launches.erase l } } : State).canonical = true := hc
  unfold State.hopShown
  split
  · exact State.get_put_same hu F.TXP_STAT_PHASE 1 (by decide)
  · rfl

/-- The hop to `l` has begun, and the lock is lost (log entry 54). -/
def State.hopBegun (s : State) (l : Launch) : State := (s.hopShown l).put F.SYN_STAT_LOCKED 0

theorem State.hopBegun_eq (s : State) (l : Launch) :
    s.hopBegun l = { s with sfm := { s.sfm with launches := s.sfm.launches.erase l }, regs := (s.hopBegun l).regs } := by
  unfold State.hopBegun State.hopShown
  dsimp only
  split <;> rfl

theorem State.hopBegun_reg_other (s : State) (l : Launch) (hp : k ≠ Reg.TXP_STAT) (hl : k ≠ Reg.SYN_STAT) :
    (s.hopBegun l).reg k = s.reg k := (State.reg_setReg_other _ _ hl).trans (s.hopShown_reg_other l hp)

theorem State.canonical_hopBegun (hc : s.canonical = true) (l : Launch) : (s.hopBegun l).canonical = true :=
  State.canonical_put (State.canonical_hopShown hc l) _ _

theorem State.hopBegun_phase (hc : s.canonical = true) (l : Launch) :
    (s.hopBegun l).get F.TXP_STAT_PHASE = if s.tx.cur = none then 1 else s.get F.TXP_STAT_PHASE :=
  (State.get_put_key _ 0 (by decide)).trans (State.hopShown_phase hc l)

theorem State.hopBegun_locked (hc : s.canonical = true) (l : Launch) : (s.hopBegun l).flag F.SYN_STAT_LOCKED = false :=
  congrArg (· == 1) (State.get_put_same (State.canonical_hopShown hc l) F.SYN_STAT_LOCKED 0 (by decide))

theorem State.hopBegun_synHit (s : State) (l : Launch) (khz : Nat) : (s.hopBegun l).synHit khz = s.synHit khz := by
  refine State.synHit_congr (fun k => ?_) ?_ ?_ khz
  · exact s.hopBegun_reg_other l (by simp only [Reg.SYN_ENT, Reg.TXP_STAT]; omega) (synEnt_ne_stat k)
  · exact s.hopBegun_reg_other l (by decide) (by decide)
  · exact s.hopBegun_reg_other l (by decide) (by decide)

theorem exec_hopStart_none (h : earliestLaunch (s.sfm.launches.filter (fun x => x.loaded)) = none) (head : Headroom) :
    exec (.hopStart head) s = .next s := by
  change execHopStart head s = _
  simp only [execHopStart, h]

theorem exec_hopStart_waits (h : s.tx.hop ≠ none ∨ s.syn.running ≠ none ∨ s.ownsCistern = false) (head : Headroom) :
    exec (.hopStart head) s = .next s := by
  have hbusy : (s.tx.hop.isNone && s.syn.running.isNone && s.ownsCistern) = false := by
    simp only [Bool.and_eq_false_iff, Option.isNone_eq_false_iff, Option.isSome_iff_ne_none]
    tauto
  change execHopStart head s = _
  unfold execHopStart
  split
  · simp only [hbusy]
    rfl
  · rfl

/-- `s` with `l` hopping, its channel calibrated afresh at die temperature `cal` or served from the cache. -/
def State.hopTo (s : State) (l : Launch) (cal : Option Nat) : State :=
  { s.hopBegun l with tx := { s.tx with hop := some l, hopSwitched := false, hopCal := cal } }

theorem State.canonical_hopTo (hc : s.canonical = true) (l : Launch) (cal : Option Nat) : (s.hopTo l cal).canonical = true :=
  State.canonical_hopBegun hc l

/-- The earliest launch that has its frame hops, its channel served from the cache or calibrated. -/
theorem exec_hopStart_goes (hl : earliestLaunch (s.sfm.launches.filter (fun x => x.loaded)) = some l) (hhop : s.tx.hop = none)
    (hrun : s.syn.running = none) (howns : s.ownsCistern = true) (head : Headroom) :
    exec (.hopStart head) s = .next (match s.synHit l.khz with
      | some k => ((s.hopTo l none).bump F.SYN_HITS_COUNT).useEntry k
      | none => (((s.hopTo l (some (s.get F.TMP_DIE_TEMP))).bump F.SYN_MISSES_COUNT).put F.SYN_STAT_CALBUSY 1).noteHeadroom head) := by
  have hgo : (s.tx.hop.isNone && s.syn.running.isNone && s.ownsCistern) = true := by simp [hhop, hrun, howns]
  have hbegun : (if s.tx.cur.isNone then
      ({ s with sfm := { s.sfm with launches := s.sfm.launches.erase l } } : State).put F.TXP_STAT_PHASE 1
      else { s with sfm := { s.sfm with launches := s.sfm.launches.erase l } }).lower F.SYN_STAT_LOCKED = s.hopBegun l := by
    simp only [State.hopBegun, State.hopShown, Option.isNone_iff_eq_none]
    rfl
  have htx : (s.hopBegun l).tx = s.tx := by rw [State.hopBegun_eq]
  have htemp : (s.hopBegun l).get F.TMP_DIE_TEMP = s.get F.TMP_DIE_TEMP :=
    State.get_congr (s.hopBegun_reg_other l (by decide) (by decide))
  change execHopStart head s = _
  simp only [execHopStart, hl, hgo, if_true, hbegun, State.hopBegun_synHit, htx, htemp]
  cases s.synHit l.khz <;> rfl

theorem satCount_sixteen (n : Nat) : satCount 16 n 1 % 2 ^ 16 = min (n + 1) 65535 := by
  rw [satCount]
  omega

theorem State.hopTo_parts (s : State) (l : Launch) (cal : Option Nat) :
    (s.hopTo l cal).tx = { s.tx with hop := some l, hopSwitched := false, hopCal := cal } ∧
      (s.hopTo l cal).sfm = { s.sfm with launches := s.sfm.launches.erase l } ∧ (s.hopTo l cal).syn = s.syn ∧
      (s.hopTo l cal).mem = s.mem := by
  rw [State.hopTo, State.hopBegun_eq]
  exact ⟨rfl, rfl, rfl, rfl⟩

/-- A counter of 16 bits that the start of a hop moves. -/
theorem State.get_bump_hopTo (hc : s.canonical = true) (l : Launch) (cal : Option Nat) {f : Fld} (hw : f.width = 16) (h0 : f.lo = 0)
    (hp : f.key ≠ Reg.TXP_STAT) (hs : f.key ≠ Reg.SYN_STAT) : ((s.hopTo l cal).bump f).get f = min (s.get f + 1) 65535 := by
  have hget : (s.hopTo l cal).get f = s.get f := State.get_congr (s.hopBegun_reg_other l hp hs)
  rw [State.get_bump_same (State.canonical_hopTo hc l cal) f (by omega), hw, satCount_sixteen, hget]

/-- What a hop served from entry `k` leaves behind. -/
theorem State.hopServed_effects (hc : s.canonical = true) (l : Launch) (k : Nat) :
    let t := ((s.hopTo l none).bump F.SYN_HITS_COUNT).useEntry k
    t.tx = { s.tx with hop := some l, hopSwitched := false, hopCal := none } ∧
      t.sfm = { s.sfm with launches := s.sfm.launches.erase l } ∧ t.get F.SYN_HITS_COUNT = min (s.get F.SYN_HITS_COUNT + 1) 65535 ∧
      t.syn = { s.syn with lru := k :: s.syn.lru.filter (fun j => j != k) } ∧
      t.get F.TXP_STAT_PHASE = (if s.tx.cur = none then 1 else s.get F.TXP_STAT_PHASE) ∧ t.flag F.SYN_STAT_LOCKED = false ∧
      t.mem = s.mem := by
  intro t
  obtain ⟨htx, hsfm, hsyn, hmem⟩ := s.hopTo_parts l none
  have hreg {f : Fld} (h : f.key ≠ Reg.SYN_HITS) : t.get f = (s.hopBegun l).get f :=
    State.get_congr (State.bump_reg_other (s.hopTo l none) h)
  refine ⟨htx, hsfm, State.get_bump_hopTo hc l none rfl rfl (by decide) (by decide), ?_, (hreg (by decide)).trans (s.hopBegun_phase hc l),
    (congrArg (· == 1) (hreg (by decide))).trans (s.hopBegun_locked hc l), hmem⟩
  exact congrArg (fun y : Syn => { y with lru := k :: y.lru.filter (fun j => j != k) }) hsyn

/-- What a hop that calibrates its channel afresh leaves behind. -/
theorem State.hopCalibrates_effects (hc : s.canonical = true) (l : Launch) (head : Headroom) :
    let t := (((s.hopTo l (some (s.get F.TMP_DIE_TEMP))).bump F.SYN_MISSES_COUNT).put F.SYN_STAT_CALBUSY 1).noteHeadroom head
    t.tx = { s.tx with hop := some l, hopSwitched := false, hopCal := some (s.get F.TMP_DIE_TEMP) } ∧
      t.sfm = { s.sfm with launches := s.sfm.launches.erase l } ∧ t.syn = s.syn ∧
      t.get F.SYN_MISSES_COUNT = min (s.get F.SYN_MISSES_COUNT + 1) 65535 ∧ t.flag F.SYN_STAT_CALBUSY = true ∧
      t.get F.TXP_STAT_PHASE = (if s.tx.cur = none then 1 else s.get F.TXP_STAT_PHASE) ∧ t.flag F.SYN_STAT_LOCKED = false ∧
      t.mem = s.mem := by
  intro t
  obtain ⟨htx, hsfm, hsyn, hmem⟩ := s.hopTo_parts l (some (s.get F.TMP_DIE_TEMP))
  have hcount : ((s.hopTo l (some (s.get F.TMP_DIE_TEMP))).bump F.SYN_MISSES_COUNT).canonical = true :=
    State.canonical_put (State.canonical_hopTo hc l _) _ _
  have hput {f : Fld} (h : f.key ≠ Reg.AGE_VCO) :
      t.get f = (((s.hopTo l (some (s.get F.TMP_DIE_TEMP))).bump F.SYN_MISSES_COUNT).put F.SYN_STAT_CALBUSY 1).get f :=
    State.get_congr (State.noteHeadroom_reg_other _ head h)
  have hmisses : t.get F.SYN_MISSES_COUNT = min (s.get F.SYN_MISSES_COUNT + 1) 65535 :=
    (hput (by decide)).trans ((State.get_put_key _ 1 (by decide)).trans
      (State.get_bump_hopTo hc l _ rfl rfl (by decide) (by decide)))
  have hbusy : t.get F.SYN_STAT_CALBUSY = 1 := (hput (by decide)).trans (State.get_put_same hcount F.SYN_STAT_CALBUSY 1 (by decide))
  have hphase : t.get F.TXP_STAT_PHASE = (s.hopBegun l).get F.TXP_STAT_PHASE :=
    (hput (by decide)).trans ((State.get_put_key _ 1 (by decide)).trans (State.get_put_key _ _ (by decide)))
  have hlocked : t.get F.SYN_STAT_LOCKED = (s.hopBegun l).get F.SYN_STAT_LOCKED :=
    (hput (by decide)).trans ((State.get_put_apart hcount (f := F.SYN_STAT_CALBUSY) (g := F.SYN_STAT_LOCKED) 1 rfl (by decide)
      (by decide)).trans (State.get_put_key _ _ (by decide)))
  exact ⟨htx, hsfm, hsyn, hmisses, congrArg (· == 1) hbusy, hphase.trans (s.hopBegun_phase hc l),
    (congrArg (· == 1) hlocked).trans (s.hopBegun_locked hc l), hmem⟩

end Sys2Proof.Machine
end

section
/-! PROOFS. A launch from its FEM switch to its ramp-down (06_transmit_synth.md R204 to R206, R210, 04_superframe.md R127), and the
settling of the transmitter's events. -/

namespace Sys2Proof.Machine

variable {s : State} {l : Launch}

/-! ## The FEM balls and the ramp-up (R205, R206, R210) -/

theorem exec_femSwitch_none (h : s.tx.hop = none) : exec .femSwitch s = .next s := by
  change execFemSwitch s = _
  simp only [execFemSwitch, h]

theorem exec_femSwitch_some (h : s.tx.hop = some l) :
    exec .femSwitch s = .next { s with tx := { s.tx with hopSwitched := true, femUse := some (s.femField l) } } := by
  change execFemSwitch s = _
  simp only [execFemSwitch, h]

theorem exec_rampUp_none (h : s.tx.hop = none ∨ s.tx.cur ≠ none) (locked : Bool) : exec (.rampUp locked) s = .next s := by
  change execRampUp locked s = _
  unfold execRampUp
  split
  · next hhop hcur => exact absurd hcur (h.resolve_left (by simp [hhop]))
  · rfl

/-- The hop has ended and nothing radiates. -/
def State.hopGivenUp (s : State) : State :=
  { s.put F.SYN_STAT_CALBUSY 0 with tx := { s.tx with hop := none, hopSwitched := false, hopCal := none, femUse := none } }

/-- The hop to `l` has ended in its launch: a calibration made for it is stored at the temperature of the hop. -/
def State.hopArrived (s : State) (l : Launch) : State :=
  let u : State := match s.tx.hopCal with
    | some temp => (s.put F.SYN_STAT_CALBUSY 0).storeCal l.khz temp
    | none => s.put F.SYN_STAT_CALBUSY 0
  { u with tx := { u.tx with cur := some l, hop := none, hopSwitched := false, hopCal := none, femUse := some (s.femField l) } }

section Ramp

variable (hl : s.tx.hop = some l) (hcur : s.tx.cur = none)

include hl hcur

theorem exec_rampUp_radiates (h : s.transmits = true) :
    exec (.rampUp true) s = .next (((((s.hopArrived l).put F.SYN_STAT_LOCKED 1).put F.TXP_STAT_PHASE 2).bump
      F.TXP_LAUNCHES_COUNT).blankChain (portChain l.d0)) := by
  change execRampUp true s = _
  simp only [execRampUp, hl, hcur, h]
  rfl

theorem exec_rampUp_unlocked (h : s.transmits = true) :
    exec (.rampUp false) s = .next (((((s.hopGivenUp.dropCal l.khz).put F.SYN_ERR_LOCKFAIL 1).put F.SYN_ERRKHZ_KHZ l.khz).put
      F.TXP_STAT_PHASE 0).cancelLaunch l) := by
  change execRampUp false s = _
  simp only [execRampUp, hl, hcur, h]
  rfl

theorem exec_rampUp_silent (h : s.transmits = false) (locked : Bool) :
    exec (.rampUp locked) s = .next ((s.hopGivenUp.put F.TXP_STAT_PHASE 0).cancelLaunch l) := by
  change execRampUp locked s = _
  simp only [execRampUp, hl, hcur, h]
  rfl

end Ramp

/-! ## The symbols and the ramp-down (R204, R205, 04 R127) -/

theorem exec_firstPreambleSymbol (s : State) :
    exec .firstPreambleSymbol s = .next (if s.get F.TXP_STAT_PHASE = 2 then s.put F.TXP_STAT_PHASE 3 else s) := rfl

/-- A launch that the planner notes changes the planner, its register and the free values (14 R455). -/
theorem State.noteLaunch_eq (s : State) (k : Nat) (power : Int) :
    s.noteLaunch k power = { s with
      regs := (s.noteLaunch k power).regs, age := (s.noteLaunch k power).age, free := (s.noteLaunch k power).free } := by
  unfold State.noteLaunch State.mean
  dsimp only
  split_ifs <;> rfl

theorem State.noteLaunch_reg_other (s : State) {a : Nat} (entry : Nat) (power : Int) (h : a ≠ Reg.AGE_PADET) :
    (s.noteLaunch entry power).reg a = s.reg a := by
  have hmean (u : State) (sum : Int) (n : Nat) : (u.mean sum n).2.reg a = u.reg a := by
    unfold State.mean
    split_ifs <;> rfl
  unfold State.noteLaunch
  split
  · exact (State.reg_setReg_other _ _ h).trans ((hmean _ _ _).trans (State.bump_reg_other s h))
  · rfl

/-- The last symbol has gone: the ramp-down begins and the detector's reading is shown and noted. -/
def State.detected (s : State) (l : Launch) (power : Byte) : State :=
  (((s.put F.TXP_STAT_PHASE 4).put F.TXP_DET_INDEX l.entry).put F.TXP_DET_POWER power.toNat).noteLaunch l.entry power.toInt

theorem State.detected_eq (s : State) (l : Launch) (power : Byte) :
    s.detected l power = { s with
      regs := (s.detected l power).regs, age := (s.detected l power).age, free := (s.detected l power).free } := by
  unfold State.detected
  rw [State.noteLaunch_eq]
  rfl

theorem State.detected_sph (s : State) (l : Launch) (power : Byte) : (s.detected l power).sph = s.sph := by rw [State.detected_eq]

theorem State.detected_sfm (s : State) (l : Launch) (power : Byte) : (s.detected l power).sfm = s.sfm := by rw [State.detected_eq]

theorem State.detected_pairState (s : State) (l : Launch) (power : Byte) : (s.detected l power).pairState = s.pairState := by
  refine State.get_congr ((State.noteLaunch_reg_other _ _ _ (by decide)).trans ?_)
  exact (State.reg_put_put _ _ _ (by decide) (by decide)).trans (State.reg_setReg_other _ _ (by decide))

theorem exec_lastSymbol_none (h : s.tx.cur = none ∨ s.get F.TXP_STAT_PHASE ≠ 3) (power : Byte) :
    exec (.lastSymbol power) s = .next s := by
  change execLastSymbol power s = _
  unfold execLastSymbol
  split
  · next l hcur => rw [if_neg (h.resolve_left (by simp [hcur]))]
  · rfl

section Symbols

variable (hcur : s.tx.cur = some l) (hphase : s.get F.TXP_STAT_PHASE = 3) (power : Byte)

include hcur hphase

theorem exec_lastSymbol_beacon (h : l.req = none) : exec (.lastSymbol power) s = .next (s.detected l power) := by
  change execLastSymbol power s = _
  simp only [execLastSymbol, hcur, hphase, h]
  rfl

theorem exec_lastSymbol_request (h : l.req ≠ none) :
    exec (.lastSymbol power) s = .next (((s.detected l power).post 1 l.slot l.desc).mirrorDone l.desc 1) := by
  obtain ⟨q, hq⟩ := Option.ne_none_iff_exists'.mp h
  change execLastSymbol power s = _
  simp only [execLastSymbol, hcur, hphase, hq]
  rfl

end Symbols

/-- A result goes to no peer where none follows. -/
theorem State.mirrorDone_detected (hp : s.peerFollows = false) (hh : s.sph.handover = none) (l : Launch) (power : Byte)
    (outcome slot desc : Nat) :
    ((s.detected l power).post outcome slot desc).mirrorDone desc outcome = (s.detected l power).post outcome slot desc := by
  have hsph : ((s.detected l power).post outcome slot desc).sph = s.sph := (State.post_sph ..).trans (s.detected_sph l power)
  have hpair : ((s.detected l power).post outcome slot desc).pairState = s.pairState :=
    (State.get_congr (State.post_reg_other _ _ _ _ (by decide))).trans (s.detected_pairState l power)
  exact State.share_alone ((State.peerFollows_congr hpair hsph).trans hp) (by rw [hsph, hh]) _

/-- A result that finds room stands last. -/
theorem State.post_results (h : s.sfm.results.length < 256) (outcome slot desc : Nat) :
    (s.post outcome slot desc).sfm.results = s.sfm.results ++ [⟨outcome, slot % 4096, desc⟩] := by
  unfold State.post
  rw [if_neg (by omega)]
  dsimp only
  split <;> rfl

theorem exec_rampDownEnd_none (h : s.tx.cur = none ∨ (s.get F.TXP_STAT_PHASE ≠ 4 ∧ s.tx.femHeld = none)) (off : Nat) :
    exec (.rampDownEnd off) s = .next s := by
  change execRampDownEnd off s = _
  unfold execRampDownEnd
  split
  · next l hcur =>
    obtain ⟨hphase, hheld⟩ := h.resolve_left (by simp [hcur])
    rw [if_neg (by simp [hphase, hheld])]
  · rfl

theorem exec_rampDownEnd_frees (hcur : s.tx.cur = some l) (h : s.get F.TXP_STAT_PHASE = 4 ∨ s.tx.femHeld ≠ none) (off : Nat) :
    exec (.rampDownEnd off) s = .next ((({ s with tx := { s.tx with cur := none, femHeld := none } } : State).put F.TXP_STAT_PHASE
      (if s.tx.hop = none then 0 else 1)).unblankChain (portChain l.d0) (s.clockAt off)) := by
  have hend : s.get F.TXP_STAT_PHASE = 4 ∨ s.tx.femHeld.isSome = true := by rwa [Option.isSome_iff_ne_none]
  change execRampDownEnd off s = _
  simp only [execRampDownEnd, hcur, if_pos hend]
  cases s.tx.hop <;> rfl

theorem exec_femReturn_idle (hcur : s.tx.cur = none) (h : s.tx.hopSwitched = false) :
    exec .femReturn s = .next { s with tx := { s.tx with femUse := none } } := by
  change execFemReturn s = _
  simp only [execFemReturn, hcur, h]
  rfl

theorem exec_femReturn_kept (h : s.tx.cur ≠ none ∨ s.tx.hopSwitched = true) : exec .femReturn s = .next s := by
  have hkept : (s.tx.cur.isNone && !s.tx.hopSwitched) = false := by
    simp only [Bool.and_eq_false_iff, Option.isNone_eq_false_iff, Option.isSome_iff_ne_none, Bool.not_eq_false']
    exact h
  change execFemReturn s = _
  simp only [execFemReturn, hkept]
  rfl

/-! ## O47 -/

/-- Settles O47: each event of the transmitter is its lemma above, by the case of its premises. -/
theorem transmitterPhases : Obligations.TransmitterPhases := by
  unfold Obligations.TransmitterPhases
  refine ⟨fun l frame => ?_, fun s l => ?_, fun s slot => ?_, fun s l head hc => ⟨exec_payloadReadComplete_none,
    exec_payloadReadComplete_waits, fun h hw => ⟨fun u bs hread => exec_payloadReadComplete_reads h hw hread,
      fun u e hread => exec_payloadReadComplete_fails h hw hread⟩, fun h => exec_hopStart_waits h head,
    fun h => exec_hopStart_none h head, fun ls => earliestLaunch_some, fun hl hhop hrun howns => ?_, exec_femSwitch_none,
    fun locked h => exec_rampUp_none h locked, fun hl => ⟨exec_femSwitch_some hl, fun hcur => ?_⟩, fun c => ?_,
    exec_firstPreambleSymbol s, fun power h => exec_lastSymbol_none h power, fun power hcur hphase => ?_,
    fun off h => exec_rampDownEnd_none h off, fun off hcur h => exec_rampDownEnd_frees hcur h off, exec_femReturn_idle,
    exec_femReturn_kept⟩⟩
  · refine List.map_congr_left (fun level _ => ?_)
    simp only [deviation, deviationOf_eq, Bool.and_eq_true, Bool.not_eq_true']
  · cases h : l.req with
    | none => exact State.cancelLaunch_beacon h
    | some q => exact State.cancelLaunch_request h
  · intro ahead
    refine ⟨State.skipBeacon_ahead, fun hnow hquiet => ?_, fun hnow hquiet => ?_⟩
    · rw [State.skipBeacon_now hnow, if_pos hquiet]
    · rw [State.skipBeacon_now hnow, hquiet]
      rfl
  · intro phase hit
    have hhit : s.synHit l.khz = hit := rfl
    rw [exec_hopStart_goes hl hhop hrun howns, hhit]
    refine ⟨fun k hk => ?_, fun hmiss => ?_⟩
    · rw [hk]
      exact ⟨_, rfl, State.hopServed_effects hc l k⟩
    · rw [hmiss]
      exact ⟨_, rfl, State.hopCalibrates_effects hc l head⟩
  · intro transmits fails u v
    exact ⟨exec_rampUp_radiates hl hcur, exec_rampUp_unlocked hl hcur, exec_rampUp_silent hl hcur⟩
  · exact ⟨State.blank_blankChain hc c, s.state_blankChain c, fun m hm h => State.desense_blankChain hm h, fun clock =>
      ⟨State.blank_unblankChain hc c clock, s.unblankAt_unblankChain c clock, s.state_unblankChain c clock⟩⟩
  · intro u
    refine ⟨exec_lastSymbol_beacon hcur hphase power, exec_lastSymbol_request hcur hphase power,
      fun hp hh => State.mirrorDone_detected hp hh l power 1 l.slot l.desc, fun hroom => ?_⟩
    rw [← s.detected_sfm l power] at hroom ⊢
    exact State.post_results hroom 1 l.slot l.desc

end Sys2Proof.Machine
end

section
/-! PROOFS. How an instruction with one move issues (07 R214 to R221). -/

namespace Sys2Proof.Machine

variable {s : State} {e : EngIx}

theorem State.startIssue_eq (s : State) (e : EngIx) : s.startIssue e = s.setEng e (s.issuing e) := by
  simp [State.issuing, State.startIssue]

@[simp] theorem State.engAt_startIssue (s : State) (e : EngIx) : (s.startIssue e).engAt e = s.issuing e := rfl

/-- A trigger port holds no value: a move into it writes no register and no operand port. -/
theorem Eng.writePort_of_unit {p : Nat} (h : unitOf p ≠ none) (g : Eng) (t : Word24) : g.writePort p t = g := by
  have hp : ¬p < 32 := fun hlt => h ((by decide : ∀ n < 32, unitOf n = none) p hlt)
  unfold Eng.writePort
  rw [dif_neg hp]
  split <;> first | rfl | exact absurd rfl h

/-- How a move of a value into trigger port `p` issues: it raises its exception, stalls on its access, or retires. -/
theorem State.issueMove_eq {p : Nat} {t : Word24} (h : s.issues e = true) (hp : p < 1024) (hl : destListed p = true)
    (hu : unitOf p ≠ none) (hv : p ≠ 0xE5 ∨ (s.issuing e).tbValid = true) :
    s.issueMove e p t =
      match (s.startIssue e).trigExc e (s.reg (Reg.ENG_CFG e.val)) p t with
      | (u, some x) => ((s.startIssue e).onlyViolation u).raiseExc e (s.reg (Reg.ENG_CFG e.val)) x false (immWord p t)
      | (_, none) =>
        match (s.issuing e).accessOf p t with
        | some x => s.stalledOn e p t x
        | none => (s.startIssue e).retire e [⟨false, p, t⟩] := by
  have hm := movesOf_immWord t hp
  have hh : (s.startIssue e).heldMoves e (immWord p t) = [⟨false, 0, some t, 0, p⟩] := by
    simp [State.heldMoves, hm, guardHolds]
  have hi : ([⟨false, 0, some t, 0, p⟩] : List Mv).find? ((s.startIssue e).illegalAt e) = none := by
    rcases hv with hv | hv <;> simp [State.illegalAt, Mv.illegal, hl, hv]
  rw [State.issueMove, State.issue_moves h hm hi (by rw [hh]; rfl), hh]
  have hr : (s.startIssue e).readMoves e [⟨false, 0, some t, 0, p⟩] = (s.startIssue e, [⟨false, p, t⟩], none) := by
    simp [State.readMoves, State.readMove]
  simp only [State.perform, hr, takenMoves, List.foldl, Eng.writePort_of_unit hu, State.setEng_engAt, State.firstExc]
  rcases (s.startIssue e).trigExc e (s.reg (Reg.ENG_CFG e.val)) p t with ⟨u, _ | x⟩
  · cases ha : (s.issuing e).accessOf p t with
    | none => simp [ha]
    | some x => simp [ha]; rfl
  · simp

/-- A move that raises nothing and starts no access retires its instruction. -/
theorem State.issueMove_retires {p : Nat} {t : Word24} (h : s.issues e = true) (hp : p < 1024) (hl : destListed p = true)
    (hu : unitOf p ≠ none) (hv : p ≠ 0xE5 ∨ (s.issuing e).tbValid = true)
    (hx : ((s.startIssue e).trigExc e (s.reg (Reg.ENG_CFG e.val)) p t).2 = none) (ha : (s.issuing e).accessOf p t = none) :
    s.issueMove e p t = (s.startIssue e).retire e [⟨false, p, t⟩] := by
  rw [State.issueMove_eq h hp hl hu hv]
  split
  · next heq => simp [heq] at hx
  · simp [ha]

/-- A move that raises nothing and starts an access stalls its engine on it. -/
theorem State.issueMove_stalls {p : Nat} {t : Word24} {x : Access} (h : s.issues e = true) (hp : p < 1024) (hl : destListed p = true)
    (hu : unitOf p ≠ none) (hv : p ≠ 0xE5) (hx : ((s.startIssue e).trigExc e (s.reg (Reg.ENG_CFG e.val)) p t).2 = none)
    (ha : (s.issuing e).accessOf p t = some x) : s.issueMove e p t = s.stalledOn e p t x := by
  rw [State.issueMove_eq h hp hl hu (.inl hv)]
  split
  · next heq => simp [heq] at hx
  · simp [ha]

/-- A move that raises an exception ends in it, whatever violation it recorded kept. -/
theorem State.issueMove_raises {p : Nat} {t : Word24} {u : State} {x : Exc} (h : s.issues e = true) (hp : p < 1024)
    (hl : destListed p = true) (hu : unitOf p ≠ none) (hv : p ≠ 0xE5)
    (hx : (s.startIssue e).trigExc e (s.reg (Reg.ENG_CFG e.val)) p t = (u, some x)) :
    s.issueMove e p t = ((s.startIssue e).onlyViolation u).raiseExc e (s.reg (Reg.ENG_CFG e.val)) x false (immWord p t) := by
  rw [State.issueMove_eq h hp hl hu (.inl hv), hx]

/-- One trigger retires: it takes effect, and the engine comes to the next position. -/
theorem State.retire_trigger {p : Nat} (hu : unitOf p ≠ none) (s : State) (e : EngIx) (b : Bool) (t : Word24) :
    s.retire e [⟨b, p, t⟩] = (s.trigger e p t).setEng e ((s.trigger e p t).engAt e).retired := by
  simp [State.retire, Eng.writePort_of_unit hu, State.each, Eng.retired]

/-- The ports whose trigger raises nothing at issue and starts no access, whatever the state. -/
def plainPort (p : Nat) : Bool :=
  (unitOf p).isSome && destListed p && decide (p < 0xE0) || p == 0xE1 || p == 0x152 || p == 0x180 || p == 0x190

theorem plainPort_cases {p : Nat} (hp : plainPort p = true) :
    ((unitOf p).isSome = true ∧ destListed p = true ∧ p < 0xE0) ∨ p = 0xE1 ∨ p = 0x152 ∨ p = 0x180 ∨ p = 0x190 := by
  simp only [plainPort, Bool.or_eq_true, Bool.and_eq_true, decide_eq_true_eq, beq_iff_eq] at hp
  tauto

theorem unitOf_plain {p : Nat} (hp : plainPort p = true) : unitOf p ≠ none := by
  rcases plainPort_cases hp with ⟨h, -, -⟩ | rfl | rfl | rfl | rfl
  · exact Option.isSome_iff_ne_none.mp h
  all_goals decide

theorem destListed_plain {p : Nat} (hp : plainPort p = true) : destListed p = true := by
  rcases plainPort_cases hp with ⟨-, h, -⟩ | rfl | rfl | rfl | rfl
  · exact h
  all_goals decide

theorem Eng.accessOf_plain {p : Nat} (hp : plainPort p = true) (g : Eng) (t : Word24) : g.accessOf p t = none := by
  fun_cases Eng.accessOf g p t <;> first | rfl | exact absurd hp Bool.false_ne_true

theorem State.trigExc_plain {p : Nat} (hp : plainPort p = true) (s : State) (e : EngIx) (cfg : Word) (t : Word24) :
    s.trigExc e cfg p t = (s, none) := by
  have hp : p < 0xE0 ∨ p = 0xE1 ∨ p = 0x152 ∨ p = 0x180 ∨ p = 0x190 := by
    have := plainPort_cases hp
    tauto
  have hal : alignOf p = 1 := by
    simp only [alignOf]
    rw [if_neg (by omega), if_neg (by omega)]
  simp only [State.trigExc, hal, Nat.mod_one]
  rw [if_neg (by omega), if_neg (by omega), if_neg (by omega), if_neg (by omega), if_neg (by omega), if_neg (by omega),
    if_neg (by omega), if_neg (by omega), if_neg (by omega)]

theorem State.issueMove_plain {p : Nat} {t : Word24} {f : Eng → Eng} (h : s.issues e = true) (hp : plainPort p = true)
    (hf : (s.issuing e).trigger p t = f (s.issuing e)) : s.issueMove e p t = s.afterIssue e f := by
  have hc : p < 0xE0 ∨ p = 0xE1 ∨ p = 0x152 ∨ p = 0x180 ∨ p = 0x190 := by
    have := plainPort_cases hp
    tauto
  exact State.issueMove_does h (by omega) (destListed_plain hp) (.inl (by omega)) (fun g => g.writePort_of_unit (unitOf_plain hp) t)
    (State.trigExc_plain hp _ _ _ _) (fun g => g.accessOf_plain hp t) (by omega) hf

/-! ## The ALUs (R229) -/

theorem plainPort_alu (u : Fin 2) {k : Nat} (hk : k < 16) : plainPort (aluPort u k) = true := by
  obtain ⟨k, rfl⟩ : ∃ j : Fin 16, j.val = k := ⟨⟨k, hk⟩, rfl⟩
  revert u k
  decide

theorem State.issueMove_alu (h : s.issues e = true) (u : Fin 2) {k : Nat} (hk : k < 16) (t : Word24) {v : Word24}
    (hv : aluOp k ((s.issuing e).aluO u) t = v) :
    s.issueMove e (aluPort u k) t = s.afterIssue e (fun g => g.launch (aluUnit u) 1 v 0) :=
  State.issueMove_plain h (plainPort_alu u hk) (by rw [Eng.trigger_aluPort _ u k hk, hv])

/-- The clamp of ABS meets its upper bound alone. -/
theorem clamp24_abs (i : Int) : clamp24 |i| = BitVec.ofInt 24 (min 0x7FFFFF |i|) := by
  have h := abs_nonneg i
  simp only [clamp24, clampInt]
  congr 1
  omega

/-- Settles O6: each operation is the trigger of its port, and its result is the ALU's operation of that number. -/
theorem aluOperations : Obligations.AluOperations := by
  intro s e u t h
  have alu : ∀ {k : Nat} {v : Word24}, k < 16 → aluOp k ((s.issuing e).aluO u) t = v →
      (.next (s.issueMove e (aluPort u k) t) : Out) = .next (s.afterIssue e (fun g => g.launch (aluUnit u) 1 v 0)) :=
    fun hk hv => congrArg _ (State.issueMove_alu h u hk t hv)
  refine ⟨alu (k := 0) (by decide) rfl, alu (k := 1) (by decide) rfl, alu (k := 2) (by decide) rfl, alu (k := 3) (by decide) rfl,
    alu (k := 4) (by decide) rfl, alu (k := 5) (by decide) rfl, alu (k := 6) (by decide) rfl, alu (k := 7) (by decide) rfl,
    alu (k := 8) (by decide) rfl, alu (k := 9) (by decide) rfl, alu (k := 10) (by decide) rfl, alu (k := 11) (by decide) rfl,
    alu (k := 12) (by decide) rfl, alu (k := 13) (by decide) rfl, alu (k := 14) (by decide) (clamp24_abs _),
    alu (k := 15) (by decide) rfl⟩

/-! ## The shifter (R230) -/

theorem State.issueMove_shu (h : s.issues e = true) {k : Nat} (hk : k < 7) (t : Word24) {v : Word24}
    (hv : shuOp k (s.issuing e).op.shuO (s.issuing e).op.shuF t = v) :
    s.issueMove e (0x88 + k) t = s.afterIssue e (fun g => g.launch .shu 2 v 0) := by
  have hp : ∀ j < 7, plainPort (0x88 + j) = true := by decide
  refine State.issueMove_plain h (hp k hk) ?_
  have h1 : 0x88 ≤ 0x88 + k ∧ 0x88 + k ≤ 0x8E := by omega
  have h2 : ¬(0x50 ≤ 0x88 + k ∧ 0x88 + k ≤ 0x5F) := by omega
  have h3 : ¬(0x70 ≤ 0x88 + k ∧ 0x88 + k ≤ 0x7F) := by omega
  unfold Eng.trigger
  rw [if_neg h2, if_neg h3, if_pos h1, Nat.add_sub_cancel_left, hv]

/-- An arithmetic shift by 24 or more leaves the sign bit in every place. -/
theorem sshiftRight_sign (o : Word24) {n : Nat} (h : 24 ≤ n) : o.sshiftRight n = if o.getLsbD 23 then 0xFFFFFF else 0 := by
  have hones : (if o.getLsbD 23 then 0xFFFFFF else 0 : Word24) = if o.getLsbD 23 then BitVec.allOnes 24 else 0 := rfl
  rw [hones]
  apply BitVec.eq_of_getLsbD_eq
  intro i hi
  have hn : ¬n + i < 24 := by omega
  have hmsb : o.msb = o.getLsbD 23 := rfl
  rw [BitVec.getLsbD_sshiftRight, hmsb]
  cases o.getLsbD 23
  · simp [hn, hi]
  · simp only [if_true, BitVec.getLsbD_allOnes]
    simp [hn, hi]

theorem leadingZeros_spec (t : Word24) :
    leadingZeros t ≤ 24 ∧ (∀ j < leadingZeros t, t.getLsbD (23 - j) = false) ∧
      (leadingZeros t < 24 → t.getLsbD (23 - leadingZeros t) = true) := by
  unfold leadingZeros
  cases hf : (List.range 24).find? (fun i => t.getLsbD (23 - i)) with
  | none =>
    refine ⟨le_refl _, fun j hj => ?_, fun h => absurd h (lt_irrefl _)⟩
    simpa using List.find?_eq_none.mp hf j (List.mem_range.mpr hj)
  | some i =>
    obtain ⟨hi, hlt, hbefore⟩ := List.find?_range_eq_some.mp hf
    refine ⟨(List.mem_range.mp hlt).le, fun j hj => by simpa using hbefore j hj, fun _ => hi⟩

/-- Settles O7: each operation is the trigger of its port; the spelled results of SAR and CLZ are the two lemmas above. -/
theorem shifterOperations : Obligations.ShifterOperations := by
  intro s e t h
  have shu : ∀ {k : Nat} {v : Word24}, k < 7 → shuOp k (s.issuing e).op.shuO (s.issuing e).op.shuF t = v →
      (.next (s.issueMove e (0x88 + k) t) : Out) = .next (s.afterIssue e (fun g => g.launch .shu 2 v 0)) :=
    fun hk hv => congrArg _ (State.issueMove_shu h hk t hv)
  have hsar : shuOp 2 (s.issuing e).op.shuO (s.issuing e).op.shuF t = if 24 ≤ t.toNat % 32
      then (if (s.issuing e).op.shuO.getLsbD 23 then 0xFFFFFF else 0) else (s.issuing e).op.shuO.sshiftRight (t.toNat % 32) := by
    split
    · exact sshiftRight_sign _ ‹_›
    · rfl
  exact ⟨shu (k := 0) (by decide) rfl, shu (k := 1) (by decide) rfl, shu (k := 2) (by decide) hsar, shu (k := 3) (by decide) rfl,
    shu (k := 4) (by decide) rfl, shu (k := 5) (by decide) rfl, leadingZeros t, shu (k := 6) (by decide) rfl, leadingZeros_spec t⟩

/-! ## The multiplier (R231) -/

theorem State.issueMove_mul (h : s.issues e = true) {k : Nat} (hk : k < 5) (t : Word24) {v : BitVec 48}
    (hv : mulOp k (s.issuing e).acc (s.issuing e).op.mulO t = v) :
    s.issueMove e (0x98 + k) t =
      s.afterIssue e (fun g => { g.launch .mul 3 (v.extractLsb' 0 24) (v.extractLsb' 24 24) with acc := v }) := by
  have hp : ∀ j < 5, plainPort (0x98 + j) = true := by decide
  refine State.issueMove_plain h (hp k hk) ?_
  have h1 : 0x98 ≤ 0x98 + k ∧ 0x98 + k ≤ 0x9C := by omega
  have h2 : ¬(0x50 ≤ 0x98 + k ∧ 0x98 + k ≤ 0x5F) := by omega
  have h3 : ¬(0x70 ≤ 0x98 + k ∧ 0x98 + k ≤ 0x7F) := by omega
  have h4 : ¬(0x88 ≤ 0x98 + k ∧ 0x98 + k ≤ 0x8E) := by omega
  unfold Eng.trigger
  rw [if_neg h2, if_neg h3, if_neg h4, if_pos h1, Nat.add_sub_cancel_left, hv]

/-- Settles O8: each operation is the trigger of its port. -/
theorem multiplierOperations : Obligations.MultiplierOperations := by
  intro s e t h
  have mul : ∀ {k : Nat} {v : BitVec 48}, k < 5 → mulOp k (s.issuing e).acc (s.issuing e).op.mulO t = v →
      (.next (s.issueMove e (0x98 + k) t) : Out) = .next (s.afterIssue e (fun g =>
        { g.launch .mul 3 (v.extractLsb' 0 24) (v.extractLsb' 24 24) with acc := v })) :=
    fun hk hv => congrArg _ (State.issueMove_mul h hk t hv)
  exact ⟨mul (k := 0) (by decide) rfl, mul (k := 1) (by decide) rfl, mul (k := 2) (by decide) rfl, mul (k := 3) (by decide) rfl,
    mul (k := 4) (by decide) rfl⟩

/-! ## The comparator (R233) -/

theorem setGuard_eq : ∀ (g : BitVec 3) (k : Fin 3) (b : Bool),
    setGuard g k.val b = (g &&& ~~~(1#3 <<< k.val)) ||| (if b then 1#3 <<< k.val else 0) := by decide

theorem State.issueMove_cmp (h : s.issues e = true) {c : Nat} (hc : c < 8) (k : Fin 3) (t : Word24) {b : Bool}
    (hb : cmpOp c (s.issuing e).op.cmpO t = b) :
    s.issueMove e (cmpPort c k) t = s.afterIssue e (fun g => { g with
      grd := (g.grd &&& ~~~(1#3 <<< k.val)) ||| (if b then 1#3 <<< k.val else 0) }) := by
  have hp : ∀ j < 8, ∀ k : Fin 3, plainPort (cmpPort j k) = true := by decide
  refine State.issueMove_plain h (hp c hc k) ?_
  have hk := k.isLt
  have h1 : 0xB0 ≤ cmpPort c k ∧ cmpPort c k ≤ 0xCE := by simp only [cmpPort]; omega
  have h2 : ¬(0x50 ≤ cmpPort c k ∧ cmpPort c k ≤ 0x5F) := by omega
  have h3 : ¬(0x70 ≤ cmpPort c k ∧ cmpPort c k ≤ 0x7F) := by omega
  have h4 : ¬(0x88 ≤ cmpPort c k ∧ cmpPort c k ≤ 0x8E) := by omega
  have h5 : ¬(0x98 ≤ cmpPort c k ∧ cmpPort c k ≤ 0x9C) := by omega
  have hg : (cmpPort c k - 0xB0) % 4 = k.val := by simp only [cmpPort]; omega
  have hd : (cmpPort c k - 0xB0) / 4 = c := by simp only [cmpPort]; omega
  unfold Eng.trigger
  rw [if_neg h2, if_neg h3, if_neg h4, if_neg h5, if_pos h1, hg, hd, hb, setGuard_eq]

/-- Settles O9: each condition is the trigger of its port, which sets that guard alone. -/
theorem comparatorOperations : Obligations.ComparatorOperations := by
  intro s e k t h
  have cmp : ∀ {c : Nat} {b : Bool}, c < 8 → cmpOp c (s.issuing e).op.cmpO t = b →
      (.next (s.issueMove e (cmpPort c k) t) : Out) = .next (s.afterIssue e (fun g => { g with
        grd := (g.grd &&& ~~~(1#3 <<< k.val)) ||| (if b then 1#3 <<< k.val else 0) })) :=
    fun hc hb => congrArg _ (State.issueMove_cmp h hc k t hb)
  exact ⟨cmp (c := 0) (by decide) (by rw [Bool.eq_iff_iff]; simp [cmpOp]), cmp (c := 1) (by decide) (by rw [Bool.eq_iff_iff]; simp [cmpOp]),
    cmp (c := 2) (by decide) rfl, cmp (c := 3) (by decide) rfl, cmp (c := 4) (by decide) rfl, cmp (c := 5) (by decide) rfl,
    cmp (c := 6) (by decide) (by rw [Bool.eq_iff_iff]; simp [cmpOp]), cmp (c := 7) (by decide) (by rw [Bool.eq_iff_iff]; simp [cmpOp])⟩

end Sys2Proof.Machine
end

section
/-! PROOFS. The branches, the return stack, TRET, local memory, and the ports that act in the engine alone (07 R235 to R240, R245, R249,
R252, R260). -/

namespace Sys2Proof.Machine

variable {s : State} {e : EngIx} {p : Nat} {t : Word24} {f : Eng → Eng}

/-- A move into a port that acts in the engine alone and raises nothing. -/
theorem State.issueMove_own (h : s.issues e = true) (hp : p < 1024) (hl : destListed p = true) (hu : unitOf p ≠ none)
    (hv : p ≠ 0xE5 ∨ (s.issuing e).tbValid = true)
    (hx : ((s.startIssue e).trigExc e (s.reg (Reg.ENG_CFG e.val)) p t).2 = none) (ha : (s.issuing e).accessOf p t = none)
    (hn : p ≠ 0x101 ∧ p ≠ 0x102 ∧ p ≠ 0x151 ∧ p ≠ 0x160) (hf : (s.issuing e).trigger p t = f (s.issuing e)) :
    s.issueMove e p t = s.afterIssue e f := by
  rw [State.issueMove_retires h hp hl hu hv hx ha, State.retire_trigger hu, State.trigger_own _ _ _ hn]
  simp [State.afterIssue, hf]

/-! ## Branches -/

theorem branchPort_facts (hp : 0xE0 ≤ p ∧ p ≤ 0xE5) : destListed p = true ∧ unitOf p ≠ none ∧ alignOf p = 1 := by
  obtain ⟨k, rfl⟩ : ∃ k : Fin 6, p = 0xE0 + k.val := ⟨⟨p - 0xE0, by omega⟩, by simp; omega⟩
  clear hp
  revert k
  decide

theorem Eng.accessOf_branch (hp : 0xE0 ≤ p ∧ p ≤ 0xE5) (g : Eng) (t : Word24) : g.accessOf p t = none := by
  fun_cases Eng.accessOf g p t <;> first | rfl | omega

/-- A branch that raises nothing takes effect on the sequence and the return stack. -/
theorem State.issueMove_branch (h : s.issues e = true) (hp : 0xE0 ≤ p ∧ p ≤ 0xE5) (hv : p ≠ 0xE5 ∨ (s.issuing e).tbValid = true)
    (hx : ((s.startIssue e).trigExc e (s.reg (Reg.ENG_CFG e.val)) p t).2 = none)
    (hf : (s.issuing e).branch p (seqIdx (s.issuing e).seq 0) t = f (s.issuing e)) : s.issueMove e p t = s.afterIssue e f := by
  obtain ⟨hl, hu, -⟩ := branchPort_facts hp
  refine State.issueMove_own h (by omega) hl hu hv hx (Eng.accessOf_branch hp _ _) (by omega) ?_
  unfold Eng.trigger
  rw [if_neg (by omega), if_neg (by omega), if_neg (by omega), if_neg (by omega), if_neg (by omega), if_pos hp, hf]

/-- The return stack lets a push or pop through: it does not trap, or has room. -/
theorem State.trigExc_branch (hp : 0xE0 ≤ p ∧ p ≤ 0xE5) (ht : p = 0xE0 ∨ p = 0xE2 → t.toNat < 2048)
    (hfull : p = 0xE2 ∨ p = 0xE3 → s.flag (F.ENG_CFG_RSTK_TRAP e.val) = false ∨ (s.issuing e).rdepth ≠ 8)
    (hempty : p = 0xE4 → s.flag (F.ENG_CFG_RSTK_TRAP e.val) = false ∨ (s.issuing e).rdepth ≠ 0) :
    ((s.startIssue e).trigExc e (s.reg (Reg.ENG_CFG e.val)) p t).2 = none := by
  obtain ⟨-, -, hal⟩ := branchPort_facts hp
  have hfl : bitAt (s.reg (Reg.ENG_CFG e.val)).toNat (F.ENG_CFG_RSTK_TRAP e.val).lo = s.flag (F.ENG_CFG_RSTK_TRAP e.val) := rfl
  simp only [State.trigExc, hal, Nat.mod_one, hfl, State.engAt_startIssue]
  rw [if_neg (by omega), if_neg (by omega), if_neg, if_neg, if_neg (by omega), if_neg (by omega), if_neg (by omega),
    if_neg (by omega), if_neg (by omega)]
  · rintro ⟨h4, htrap⟩
    rcases hempty h4 with h | h <;> simp [h] at htrap
  · rintro ⟨h23, htrap⟩
    rcases hfull h23 with h | h <;> simp [h] at htrap

/-- Settles O10: each branch is the trigger of its port, which raises nothing under the statement's premises. -/
theorem branchesTakeEffectAfterTwoSlots : Obligations.BranchesTakeEffectAfterTwoSlots := by
  intro s e t h
  dsimp only
  have go : ∀ {p : Nat} {t : Word24} {f : Eng → Eng}, 0xE0 ≤ p ∧ p ≤ 0xE5 → (p ≠ 0xE5 ∨ (s.issuing e).tbValid = true) →
      (p = 0xE0 ∨ p = 0xE2 → t.toNat < 2048) →
      (p = 0xE2 ∨ p = 0xE3 → s.flag (F.ENG_CFG_RSTK_TRAP e.val) = false ∨ (s.issuing e).rdepth ≠ 8) →
      (p = 0xE4 → s.flag (F.ENG_CFG_RSTK_TRAP e.val) = false ∨ (s.issuing e).rdepth ≠ 0) →
      (s.issuing e).branch p (seqIdx (s.issuing e).seq 0) t = f (s.issuing e) →
      (.next (s.issueMove e p t) : Out) = .next (s.afterIssue e f) :=
    fun hp hv ht hfull hempty hf => congrArg _ (State.issueMove_branch h hp hv (State.trigExc_branch hp ht hfull hempty) hf)
  refine ⟨fun ht => ?_, ?_, fun hroom => ⟨fun ht => ?_, ?_⟩, fun hroom => ?_, fun hvalid => ?_⟩
  · refine go (p := 0xE0) (by decide) (by simp) (fun _ => ht) (by simp) (by simp) ?_
    simp [Eng.branch, Eng.branchTarget, branchSeq, Nat.mod_eq_of_lt ht]
  · exact go (p := 0xE1) (by decide) (by simp) (by simp) (by simp) (by simp) rfl
  · refine go (p := 0xE2) (by decide) (by simp) (fun _ => ht) (fun _ => hroom) (by simp) ?_
    simp [Eng.branch, Eng.branchTarget, branchSeq, Eng.push, Nat.mod_eq_of_lt ht]
  · exact go (p := 0xE3) (by decide) (by simp) (by simp) (fun _ => hroom) (by simp) rfl
  · exact go (p := 0xE4) (by decide) (by simp) (by simp) (by simp) (fun _ => hroom) rfl
  · exact go (p := 0xE5) (by decide) (.inr hvalid) (by simp) (by simp) (by simp) rfl

/-! ## Local memory (R239, R240) -/

/-- The three bytes of a local word lie in one group of twelve. -/
theorem localAddr_group (e : EngIx) {n i : Nat} (hi : i < 3) :
    (localAddr e n + i - 0x10600000) / 12 = (localAddr e n - 0x10600000) / 12 := by
  simp only [localAddr]
  omega

theorem localAddr_bounds (e : EngIx) {n : Nat} (hn : n < 4096) : 0x10600000 ≤ localAddr e n ∧ localAddr e n + 3 ≤ 0x10780000 := by
  simp only [localAddr]
  omega

/-- A byte stored in the engine memories outside a load: its group counts it, if it is incomplete. -/
theorem State.storeByte_engMem (s : State) {a : Nat} (ha : 0x10600000 ≤ a ∧ a < 0x10780000) (b : Byte) :
    ∃ q, s.storeByte false a b = { s.putByte a b with part := q } ∧ (s.halfLoaded a = false → q = s.part) := by
  have h1 : ¬(0x10000000 ≤ a ∧ a < 0x10400000) := by omega
  rw [State.storeByte, if_neg h1, if_pos (by simpa [inEngMem] using ha), State.markGroup]
  have hh : (s.putByte a b).halfLoaded a = s.halfLoaded a := rfl
  rw [hh]
  cases s.halfLoaded a with
  | false => exact ⟨s.part, rfl, fun _ => rfl⟩
  | true => exact ⟨_, rfl, fun h => nomatch h⟩

theorem State.halfLoaded_congr {s u : State} {a b : Nat} (hp : u.part = s.part) (hg : (a - 0x10600000) / 12 = (b - 0x10600000) / 12) :
    u.halfLoaded a = s.halfLoaded b := by
  simp only [State.halfLoaded, State.groupMask, hp, hg]

/-- A local word stored: its bytes change, and its group counts them, if it is incomplete. -/
theorem State.writeLocal_eq (s : State) (e : EngIx) {n : Nat} (hn : n < 4096) (v : Word24) :
    ∃ q, s.writeLocal e n v = { s.putBytes (localAddr e n) (bytesLe 3 v.toNat) with part := q } ∧
      (s.halfLoaded (localAddr e n) = false → q = s.part) := by
  obtain ⟨hlo, hhi⟩ := localAddr_bounds e hn
  have hg := fun i (hi : i < 3) => localAddr_group e (n := n) hi
  obtain ⟨q0, h0, k0⟩ := s.storeByte_engMem (a := localAddr e n) (by omega) (BitVec.ofNat 8 v.toNat)
  obtain ⟨q1, h1, k1⟩ := (s.storeByte false (localAddr e n) (BitVec.ofNat 8 v.toNat)).storeByte_engMem (a := localAddr e n + 1) (by omega)
    (BitVec.ofNat 8 (v.toNat / 256))
  obtain ⟨q2, h2, k2⟩ := ((s.storeByte false (localAddr e n) (BitVec.ofNat 8 v.toNat)).storeByte false (localAddr e n + 1)
    (BitVec.ofNat 8 (v.toNat / 256))).storeByte_engMem (a := localAddr e n + 1 + 1) (by omega) (BitVec.ofNat 8 (v.toNat / 256 / 256))
  refine ⟨q2, ?_, fun hh => ?_⟩
  · simp only [State.writeLocal, bytesLe, State.storeBytes, State.putBytes]
    rw [h2, h1, h0]
    rfl
  · have e0 := k0 hh
    have e1 := k1 (by rw [h0, ← hh]; exact State.halfLoaded_congr e0 (hg 1 (by decide)))
    have p1 : (s.storeByte false (localAddr e n) (BitVec.ofNat 8 v.toNat)).part = s.part := by rw [h0]; exact e0
    rw [p1] at e1
    have e2 := k2 (by rw [h1, ← hh]; exact State.halfLoaded_congr e1 (hg 2 (by decide)))
    rw [e2, h1]
    exact e1

theorem State.readLocal_whole {n : Nat} (h : s.halfLoaded (localAddr e n) = false) :
    s.readLocal e n = (s, BitVec.ofNat 24 (ofBytesLe (s.bytes (localAddr e n) 3))) := by
  simp [State.readLocal, h]

theorem State.readLocal_incomplete {n : Nat} (h : s.halfLoaded (localAddr e n) = true) :
    ∃ v : Word24, s.readLocal e n = ({ s with free := s.free + 1 }, v) := by
  exact ⟨_, by rw [State.readLocal, if_pos h]; rfl⟩

@[simp] theorem State.engAt_putBytes (s : State) (a : Nat) (bs : List Byte) (k : EngIx) : (s.putBytes a bs).engAt k = s.engAt k := by
  rw [State.putBytes_eq]
  rfl

theorem State.setEng_putBytes (s : State) (a : Nat) (bs : List Byte) (k : EngIx) (g : Eng) :
    (s.putBytes a bs).setEng k g = (s.setEng k g).putBytes a bs := by
  induction bs generalizing s a with
  | nil => rfl
  | cons b bs ih => exact ih (s.putByte a b) (a + 1)

theorem State.bytes_startIssue (s : State) (e : EngIx) (a n : Nat) : (s.startIssue e).bytes a n = s.bytes a n := rfl

/-- A local load or store of a word below 4,096 retires at once. -/
theorem State.issueMove_local (h : s.issues e = true) (hp : p = 0x101 ∨ p = 0x102) (ht : t.toNat < 4096) :
    s.issueMove e p t =
      ((s.startIssue e).trigger e p t).setEng e (((s.startIssue e).trigger e p t).engAt e).retired := by
  have ht' : ¬4096 ≤ t.toNat := by omega
  have hu : unitOf p ≠ none := by rcases hp with rfl | rfl <;> decide
  rw [State.issueMove_retires h (by omega) (by rcases hp with rfl | rfl <;> decide) hu (.inl (by omega)), State.retire_trigger hu]
  · rcases hp with rfl | rfl <;> simp [State.trigExc, alignOf, ht', Nat.mod_one]
  · rcases hp with rfl | rfl <;> rfl

theorem State.issueMove_ldl_whole (h : s.issues e = true) (ht : t.toNat < 4096) (hg : s.halfLoaded (localAddr e t.toNat) = false) :
    s.issueMove e 0x101 t = s.afterIssue e (fun g =>
      g.launch .lsu 2 (BitVec.ofNat 24 (ofBytesLe (s.bytes (localAddr e t.toNat) 3))) 0) := by
  rw [State.issueMove_local h (.inl rfl) ht]
  simp [State.trigger, State.readLocal_whole (s := s.startIssue e) hg, State.afterIssue, State.bytes_startIssue]

theorem State.issueMove_ldl_incomplete (h : s.issues e = true) (ht : t.toNat < 4096)
    (hg : s.halfLoaded (localAddr e t.toNat) = true) :
    ∃ v : Word24, s.issueMove e 0x101 t = { s.afterIssue e (fun g => g.launch .lsu 2 v 0) with free := s.free + 1 } := by
  obtain ⟨v, hv⟩ := State.readLocal_incomplete (s := s.startIssue e) hg
  refine ⟨v, ?_⟩
  rw [State.issueMove_local h (.inl rfl) ht]
  simp only [State.trigger, hv, State.engAt_setEng_same, State.setEng_setEng]
  rfl

theorem State.issueMove_stl (h : s.issues e = true) (ht : t.toNat < 4096) :
    ∃ q, s.issueMove e 0x102 t =
        { (s.afterIssue e id).putBytes (localAddr e t.toNat) (bytesLe 3 (s.issuing e).op.lv.toNat) with part := q } ∧
      (s.halfLoaded (localAddr e t.toNat) = false → q = s.part) := by
  obtain ⟨q, hq, hpart⟩ := (s.startIssue e).writeLocal_eq e ht (s.issuing e).op.lv
  refine ⟨q, ?_, hpart⟩
  rw [State.issueMove_local h (.inr rfl) ht]
  simp only [State.trigger, State.engAt_startIssue, hq]
  rw [State.putBytes_eq, State.putBytes_eq (s.afterIssue e id)]
  rfl

theorem bitAt_bitVec {w : Nat} (v : BitVec w) (i : Nat) : bitAt v.toNat i = v.getLsbD i := by
  rw [Bool.eq_iff_iff, bitAt, beq_iff_eq, bitsOf, Nat.shiftRight_eq_div_pow, pow_one, BitVec.getLsbD, Nat.testBit_eq_decide_div_mod_eq,
    decide_eq_true_iff]

theorem State.issueMove_lioSel (h : s.issues e = true) (hlane : bitsOf t.toNat 16 7 ≤ 95)
    (hw : t.getLsbD 23 = true → s.reqNS e.val = true → s.blockNS 9 = true) :
    s.issueMove e 0x140 t = s.afterIssue e (fun g => { g with
      lio := { sample := t.getLsbD 23, lane := bitsOf t.toNat 16 7, off := bitsOf t.toNat 0 11, fifo := [], lastQ := none, ovf := false } }) := by
  have hb : bitAt t.toNat 23 = t.getLsbD 23 := bitAt_bitVec t 23
  refine State.issueMove_own h (by decide) (by decide) (by decide) (.inl (by decide)) ?_ rfl (by decide) ?_
  · have h1 : ¬95 < bitsOf t.toNat 16 7 := by omega
    have h2 : ¬(t.getLsbD 23 = true ∧ s.reqNS e.val = true ∧ s.blockNS 9 = false) := by
      rintro ⟨ha, hb, hc⟩
      simp [hw ha hb] at hc
    have hal : alignOf 0x140 = 1 := rfl
    simp only [State.trigExc, hal, Nat.mod_one, hb]
    rw [if_neg (by decide), if_neg (by omega), if_neg (by omega), if_neg (by omega), if_neg (by omega), if_neg (by omega),
      if_neg (by omega), if_neg (by omega), if_neg (fun hc => h2 hc.2)]
  · simp [Eng.trigger, hb]

/-- Settles O11: each port by its lemma above. -/
theorem localMemoryAndPorts : Obligations.LocalMemoryAndPorts := by
  intro s e t h
  refine ⟨fun ht hg => congrArg _ (State.issueMove_ldl_whole h ht hg), fun ht hg => ?_, fun ht => ?_,
    fun hlane hw => congrArg _ (State.issueMove_lioSel h hlane hw), congrArg _ (State.issueMove_plain h rfl rfl),
    congrArg _ (State.issueMove_plain h rfl rfl), congrArg _ (State.issueMove_plain h rfl rfl)⟩
  · obtain ⟨v, hv⟩ := State.issueMove_ldl_incomplete h ht hg
    exact ⟨v, congrArg _ hv⟩
  · obtain ⟨q, hq, hpart⟩ := State.issueMove_stl (t := t) h ht
    exact ⟨q, hpart, congrArg _ hq⟩

end Sys2Proof.Machine
end

section
/-! PROOFS. The shared accesses: how a trigger stalls its engine, and what the granted access does as its instruction retires (07 R241 to
R244, R251). -/

namespace Sys2Proof.Machine

variable {s : State} {e : EngIx} {p n : Nat} {t : Word24} {x : Access}

/-! ## The stall (R242) -/

/-- The ports of the shared loads and stores, and of the lock accesses. -/
def sharedPort (p : Nat) : Bool :=
  decide ((0x110 ≤ p ∧ p ≤ 0x115) ∨ (0x118 ≤ p ∧ p ≤ 0x11B) ∨ p = 0x170 ∨ p = 0x171)

theorem sharedPort_cases (hp : sharedPort p = true) :
    (0x110 ≤ p ∧ p ≤ 0x115) ∨ (0x118 ≤ p ∧ p ≤ 0x11B) ∨ p = 0x170 ∨ p = 0x171 := of_decide_eq_true hp

theorem sharedPort_facts (hp : sharedPort p = true) : destListed p = true ∧ unitOf p ≠ none := by
  have hc := sharedPort_cases hp
  obtain ⟨k, rfl⟩ : ∃ k : Fin 98, p = 0x110 + k.val := ⟨⟨p - 0x110, by omega⟩, by simp; omega⟩
  clear hc
  revert k
  decide

/-- An aligned shared access stalls its engine. -/
theorem State.issueMove_shared (h : s.issues e = true) (hp : sharedPort p = true)
    (hal : (s.issuing e).sharedAddr t % alignOf p = 0) (ha : (s.issuing e).accessOf p t = some x) :
    s.issueMove e p t = s.stalledOn e p t x := by
  have hc := sharedPort_cases hp
  obtain ⟨hl, hu⟩ := sharedPort_facts hp
  refine State.issueMove_stalls h (by omega) hl hu (by omega) ?_ ha
  simp only [State.trigExc, State.engAt_startIssue]
  rw [if_neg (by omega), if_neg (by omega), if_neg (by omega), if_neg (by omega), if_neg (by omega), if_neg (not_not_intro hal),
    if_neg (by omega), if_neg (by omega), if_neg (by omega)]

/-- A block trigger without one of its faults stalls its engine. -/
theorem State.issueMove_block (h : s.issues e = true) (hp : p = 0x11C ∨ p = 0x11D) (hx : (s.issuing e).blockExc = none)
    (ha : (s.issuing e).accessOf p t = some x) : s.issueMove e p t = s.stalledOn e p t x := by
  have hal : alignOf p = 1 := by rcases hp with rfl | rfl <;> rfl
  refine State.issueMove_stalls h (by omega) (by rcases hp with rfl | rfl <;> rfl) (by rcases hp with rfl | rfl <;> decide) (by omega) ?_ ha
  simp only [State.trigExc, State.engAt_startIssue, hal, Nat.mod_one]
  rw [if_neg (by omega), if_neg (by omega), if_neg (by omega), if_neg (by omega), if_neg (by omega), if_neg (by omega), if_pos hp]
  exact hx

theorem Eng.blockExc_none {g : Eng} (hb : g.op.bsa.toNat % 4 = 0) (hl : g.op.la.toNat < 4096) (hw : g.blockBase < 0x20000000) :
    g.blockExc = none := by
  have h1 : ¬4096 ≤ g.op.la.toNat := by omega
  have h2 : ¬0x20000000 ≤ g.blockBase := by omega
  simp [Eng.blockExc, hb, h1, h2]

/-- Settles O12: each trigger names its access, and raises nothing where that is aligned. -/
theorem sharedTriggersStallTheEngine : Obligations.SharedTriggersStallTheEngine := by
  intro s e t h
  dsimp only
  have stall : ∀ {p : Nat} {x : Access}, sharedPort p = true → (s.issuing e).sharedAddr t % alignOf p = 0 →
      (s.issuing e).accessOf p t = some x → (.next (s.issueMove e p t) : Out) = .next (s.stalledOn e p t x) :=
    fun hp hal ha => congrArg _ (State.issueMove_shared h hp hal ha)
  have block : ∀ {p : Nat} {x : Access}, p = 0x11C ∨ p = 0x11D → (s.issuing e).blockExc = none →
      (s.issuing e).accessOf p t = some x → (.next (s.issueMove e p t) : Out) = .next (s.stalledOn e p t x) :=
    fun hp hx ha => congrArg _ (State.issueMove_block h hp hx ha)
  refine ⟨stall rfl (Nat.mod_one _) rfl, stall rfl (Nat.mod_one _) rfl, stall rfl (Nat.mod_one _) rfl, fun h2 => ?_, fun h4 => ?_,
    fun hb hl hw => ?_, stall rfl (Nat.mod_one _) rfl, stall rfl (Nat.mod_one _) rfl⟩
  · exact ⟨stall rfl h2 rfl, stall rfl h2 rfl, stall rfl h2 rfl⟩
  · exact ⟨stall rfl h4 rfl, stall rfl h4 rfl, stall rfl h4 rfl, stall rfl h4 rfl⟩
  · exact ⟨block (.inl rfl) (Eng.blockExc_none hb hl hw) rfl, block (.inr rfl) (Eng.blockExc_none hb hl hw) rfl⟩

/-! ## The scratch memory (R13, R241) -/

theorem placeOf_scratch {a : Nat} (hlo : 0x10780000 ≤ a) (hhi : a < 0x107FC000) : placeOf a = .scratch := by
  unfold placeOf
  rw [if_neg (by omega), if_neg (by omega), if_neg (by omega), if_neg (by omega), if_neg (by omega), if_neg (by omega), if_pos hhi]

/-- An engine's own accesses wait at its well's port, not in a target's round. -/
theorem State.takeTurn_engine (s : State) (e : EngIx) (k : Nat) : s.takeTurn e.val k = s := by
  have h : turnOf e.val = none := if_pos e.isLt
  simp only [State.takeTurn, h]

/-- A load of scratch memory that the engine's world may read. -/
theorem State.load_scratch {a : Nat} (hlo : 0x10780000 ≤ a) (hhi : a < 0x107FC000)
    (hw : s.reqNS e.val = false ∨ s.memNS a = true) (m : Nat) : s.load e.val a m = (s, .ok (ofBytesLe (s.bytes a m))) := by
  have hb : (s.reqNS e.val && !s.memNS a) = false := by rcases hw with h | h <;> simp [h]
  simp only [State.load, placeOf_scratch hlo hhi, hb, State.placeReady, State.takeTurn_engine, State.loadPlace]
  rfl

/-- Bytes stored at and above the scratch memory change those bytes alone. -/
theorem State.storeBytes_plain (s : State) (load : Bool) {a : Nat} (ha : 0x10780000 ≤ a) (bs : List Byte) :
    s.storeBytes load a bs = s.putBytes a bs := by
  induction bs generalizing s a with
  | nil => rfl
  | cons b bs ih =>
    have h1 : ¬(0x10000000 ≤ a ∧ a < 0x10400000) := by omega
    have h2 : inEngMem a = false := by simp [inEngMem]; omega
    rw [State.storeBytes, State.storeByte, if_neg h1, h2, ih _ (by omega)]
    rfl

/-- A store to scratch memory that the engine's world may write. -/
theorem State.store_scratch {a : Nat} (hlo : 0x10780000 ≤ a) (hhi : a < 0x107FC000)
    (hw : s.reqNS e.val = false ∨ s.memNS a = true) (m v : Nat) :
    s.store e.val a m v = (s.putBytes a (bytesLe m v), none) := by
  have hb : (s.reqNS e.val && !s.memNS a) = false := by rcases hw with h | h <;> simp [h]
  have hp := placeOf_scratch hlo hhi
  simp only [State.store, hp, hb, State.placeReady, State.takeTurn_engine, State.storePlace, State.writeMet, storeOwner,
    State.storeBytes_plain _ _ hlo]
  rfl

theorem State.arb_putBytes (s : State) (a k : Nat) (bs : List Byte) :
    ({ s.putBytes a bs with arb := k } : State) = ({ s with arb := k } : State).putBytes a bs := by
  induction bs generalizing s a with
  | nil => rfl
  | cons b bs ih => exact ih (s.putByte a b) (a + 1)

/-! ## Completion (R242) -/

/-- An access made under the worlds as they are. -/
theorem State.underWorlds_same {α : Type} (f : State → State × α) : s.underWorlds s.worldMap f = f s := if_pos rfl

/-- Moves that fire no channel fail in none. -/
theorem State.fireFails_none {m : List (Nat × Word)} {l : List Moved} (h : ∀ y ∈ l, y.dst ≠ 0x160) : s.fireFails e m l = (s, none) := by
  induction l with
  | nil => rfl
  | cons y l ih =>
    rw [State.fireFails, if_neg (h y List.mem_cons_self)]
    exact ih (fun z hz => h z (List.mem_cons_of_mem y hz))

/-- The engine `e` counts `n` cycles of its stall (R252). -/
def State.counted (s : State) (e : EngIx) (n : Nat) : State := s.setEng e { s.engAt e with cyc := (s.engAt e).cyc + BitVec.ofNat 48 n }

/-- The last access of an instruction, the only one it makes, succeeds: its instruction retires. -/
theorem State.lastAccess_retires {st : Stall} {b : Bool} {u : State} (hp : st.passed = []) (hw : st.worlds = s.worldMap)
    (hm : ∀ m ∈ st.moves, m.dst ≠ 0x160) (hx : s.performAccess e x = (u, none)) (hu : u.worldMap = s.worldMap) :
    s.lastAccess e st b x = (u.setEng e { u.engAt e with stall := none }).retire e st.moves := by
  have hall : s.performAll e (st.passed ++ [⟨b, x, st.worlds⟩]) = (u, none) := by
    simp only [hp, List.nil_append, State.performAll, State.performUnder, hw, State.underWorlds_same, hx]
  have hset : (u.setEng e { u.engAt e with stall := none }).worldMap = s.worldMap := hu
  rw [State.lastAccess, hall]
  simp only [State.fireFails_none hm]
  rw [hw, ← hset, State.underWorlds_same]

/-- SHARED_ACCESS_COMPLETE of a granted access that need not wait: the access of `s` completes with the cycles counted. -/
theorem exec_sharedAccessComplete {st : Stall} {b : Bool} (hs : (s.engAt e).stall = some st) (hg : st.stage = .granted)
    (ha : st.accs = [(b, x)]) (hwait : s.accessWaits x = false) (n : Nat) :
    exec (.sharedAccessComplete e n) s = .next ((s.counted e n).completeAccess e st b x []) := by
  have h : exec (.sharedAccessComplete e n) s = execSharedAccessComplete e n s := rfl
  have hno : ¬(st.stage ≠ .granted ∨ s.accessWaits x = true) := by simp [hg, hwait]
  rw [h, execSharedAccessComplete, hs]
  simp only [ha, if_neg hno, State.counted]

/-- The same for an access that is no block's word with more to come: it is the instruction's last. -/
theorem exec_sharedAccessComplete_last {st : Stall} {b : Bool} (hs : (s.engAt e).stall = some st) (hg : st.stage = .granted)
    (ha : st.accs = [(b, x)]) (hwait : s.accessWaits x = false) (hlane : x ≠ .lane) (hadv : x.advance = none) (n : Nat) :
    exec (.sharedAccessComplete e n) s = .next ((s.counted e n).lastAccess e st b x) := by
  rw [exec_sharedAccessComplete hs hg ha hwait, State.completeAccess, if_neg hlane, if_pos ⟨rfl, hadv⟩]

/-! ## The engine as its instruction issues -/

/-- Delivered results change the result ports alone. -/
theorem Eng.foldl_deliver (l : List Flight) (g : Eng) : l.foldl Eng.deliver g = { g with res := (l.foldl Eng.deliver g).res } := by
  induction l generalizing g with
  | nil => rfl
  | cons f l ih => exact ih (g.deliver f)

/-- Issuing changes the result ports and results in flight, the count of cycles, and on a resumed instruction the guards, the trap bank
and its mark. -/
theorem State.issuing_eq (s : State) (e : EngIx) : s.issuing e = { s.engAt e with
    res := (s.issuing e).res, flight := (s.issuing e).flight, cyc := (s.issuing e).cyc, grd := (s.issuing e).grd
    tb := (s.issuing e).tb, seq := (s.issuing e).seq } := by
  simp only [State.issuing, State.startIssue, State.engAt_setEng_same, Eng.deliverDue]
  rw [Eng.foldl_deliver]
  split <;> rfl

theorem State.canIssue_of_issues (h : s.issues e = true) : s.canIssue e = true := by
  simp only [State.issues, Bool.and_eq_true] at h
  exact h.1

theorem State.engAt_of_canIssue (h : s.canIssue e = true) : (s.engAt e).state = .running ∧ (s.engAt e).stall = none := by
  simp only [State.canIssue, Bool.and_eq_true, beq_iff_eq, Option.isNone_iff_eq_none] at h
  obtain ⟨⟨⟨⟨hr, hs⟩, -⟩, -⟩, -⟩ := h
  exact ⟨hr, hs⟩

theorem State.issuing_stall (h : s.issues e = true) : (s.issuing e).stall = none := by
  rw [State.issuing_eq]
  exact (State.engAt_of_canIssue (State.canIssue_of_issues h)).2

theorem State.issuing_unstalled (h : s.issues e = true) : { s.issuing e with stall := none } = s.issuing e := by
  rw [← State.issuing_stall h]

theorem State.issuing_state (h : s.issues e = true) : (s.issuing e).state = .running := by
  rw [State.issuing_eq]
  exact (State.engAt_of_canIssue (State.canIssue_of_issues h)).1

/-! ## Loads and stores of scratch memory -/

/-- A shared access has no effect of its own as its instruction retires: its target has performed it. -/
theorem State.trigger_shared (hp : sharedPort p = true) (s : State) (e : EngIx) (t : Word24) : s.trigger e p t = s := by
  have hc := sharedPort_cases hp
  have hg : (s.engAt e).trigger p t = s.engAt e := by
    unfold Eng.trigger
    rw [if_neg (by omega), if_neg (by omega), if_neg (by omega), if_neg (by omega), if_neg (by omega), if_neg (by omega)]
    split <;> first | rfl | omega
  rw [State.trigger_own _ _ _ (by omega), hg, State.setEng_engAt]

/-- The stall of the instruction `#t -> p` on its one access `x`, once that is granted. -/
def State.grantedStall (s : State) (e : EngIx) (p : Nat) (t : Word24) (x : Access) : Stall :=
  { word := immWord p t, moves := [⟨false, p, t⟩], accs := [(false, x)], stage := .granted, since := s.arb + 1,
    undo := undoOf (s.issuing e) (s.issuing e), cfg := s.reg (Reg.ENG_CFG e.val), worlds := s.worldMap }

theorem State.granted_eq (s : State) (e : EngIx) (p : Nat) (t : Word24) (x : Access) :
    (s.stalledOn e p t x).setStage e .granted =
      ({ s with arb := s.arb + 2 } : State).setEng e { s.issuing e with stall := some (s.grantedStall e p t x) } := by
  simp only [State.stalledOn, State.setStage, State.engAt_setEng_same, State.startIssue_eq]
  simp only [State.setEng, Vector.set_set]
  rfl

/-- The state in which the one access `x` of `#t -> p` is performed, `n` cycles after its stall began. -/
def State.performing (s : State) (e : EngIx) (p : Nat) (t : Word24) (x : Access) (n : Nat) : State :=
  ({ s with arb := s.arb + 2 } : State).setEng e { s.issuing e with
    cyc := (s.issuing e).cyc + BitVec.ofNat 48 n, stall := some (s.grantedStall e p t x) }

/-- A granted access that succeeds: the instruction retires with what it did. -/
theorem State.exec_granted {u : State} (hp : sharedPort p = true) (hwait : s.accessWaits x = false) (hlane : x ≠ .lane)
    (hadv : x.advance = none) (hx : (s.performing e p t x n).performAccess e x = (u, none)) (hu : u.worldMap = s.worldMap) :
    exec (.sharedAccessComplete e n) ((s.stalledOn e p t x).setStage e .granted) =
      .next (u.setEng e { (u.engAt e).retired with stall := none }) := by
  have hc := sharedPort_cases hp
  obtain ⟨-, hun⟩ := sharedPort_facts hp
  have hst : (((s.stalledOn e p t x).setStage e .granted).engAt e).stall = some (s.grantedStall e p t x) := by
    rw [State.granted_eq, State.engAt_setEng_same]
  have hwait' : ((s.stalledOn e p t x).setStage e .granted).accessWaits x = false := by
    rw [State.granted_eq]
    exact hwait
  have hcount : ((s.stalledOn e p t x).setStage e .granted).counted e n = s.performing e p t x n := by
    simp [State.granted_eq, State.counted, State.performing]
  have hmoves : ∀ m ∈ (s.grantedStall e p t x).moves, m.dst ≠ 0x160 := fun m hm => by
    rw [List.mem_singleton.mp hm]
    exact show p ≠ 0x160 by omega
  rw [exec_sharedAccessComplete_last hst rfl rfl hwait' hlane hadv, hcount,
    State.lastAccess_retires rfl rfl hmoves hx hu]
  refine congrArg _ ?_
  refine (State.retire_trigger hun _ e false t).trans ?_
  rw [State.trigger_shared hp]
  simp [Eng.retired]

/-- A load's value, and on LDW its high byte too, reach their ports (R241). -/
theorem State.exec_load_granted (h : s.issues e = true) (hp : sharedPort p = true) {k : LoadKind} {a : Nat} (hlo : 0x10780000 ≤ a)
    (hhi : a < 0x107FC000) (hw : s.reqNS e.val = false ∨ s.memNS a = true) {f : ResPorts → ResPorts}
    (hf : ∀ g : Eng, (g.loaded32 k (ofBytesLe (s.bytes a k.size))).res = f g.res) :
    exec (.sharedAccessComplete e n) ((s.stalledOn e p t (.load k a)).setStage e .granted) =
      .next { s.afterIssue e (fun g => { g with cyc := g.cyc + BitVec.ofNat 48 n, res := f g.res }) with arb := s.arb + 2 } := by
  have hwait : s.accessWaits (.load k a) = false := by
    simp [State.accessWaits, State.flashWaits, State.flashHolds]
    omega
  have hx : (s.performing e p t (.load k a) n).performAccess e (.load k a) = ((s.performing e p t (.load k a) n).setEng e
      (((s.performing e p t (.load k a) n).engAt e).loaded32 k (ofBytesLe (s.bytes a k.size))), none) := by
    have hload := State.load_scratch (s := s.performing e p t (.load k a) n) hlo hhi hw k.size
    simp only [State.performAccess, hload]
    rfl
  rw [State.exec_granted hp hwait (by simp) rfl hx rfl]
  calc _ = Host.Outcome.next (({ s with arb := s.arb + 2 } : State).setEng e (({ ({ s.issuing e with stall := none } : Eng) with
        cyc := (s.issuing e).cyc + BitVec.ofNat 48 n
        res := ((s.issuing e).loaded32 k (ofBytesLe (s.bytes a k.size))).res } : Eng).retired)) := by
        simp only [State.performing, State.engAt_setEng_same, State.setEng_setEng]
        rfl
    _ = _ := by
        rw [State.issuing_unstalled h, hf, State.afterIssue, State.startIssue_eq, State.setEng_setEng]
        rfl

/-- The high byte of a container. -/
theorem State.bitsOf_container (s : State) (a : Nat) : bitsOf (ofBytesLe (s.bytes a 4)) 24 8 = ofBytesLe (s.bytes a 4) / 2 ^ 24 := by
  have hlt := ofBytesLe_lt (s.bytes a 4)
  rw [State.length_bytes] at hlt
  rw [bitsOf, Nat.shiftRight_eq_div_pow]
  exact Nat.mod_eq_of_lt (by omega)

/-- Settles O13: the trigger stalls (O12), and the granted load delivers as its instruction retires. -/
theorem sharedLoadsDeliver : Obligations.SharedLoadsDeliver := by
  intro s e t n h a v hlo hhi hw ends
  have completes : ∀ {c : Instr} {p : Nat} {k : LoadKind} {f : ResPorts → ResPorts}, exec c s = .next (s.issueMove e p t) →
      sharedPort p = true → a % alignOf p = 0 → (s.issuing e).accessOf p t = some (.load k a) →
      (∀ g : Eng, (g.loaded32 k (v k.size)).res = f g.res) → ends c f :=
    fun hc hp hal ha hf => ⟨_, hc.trans (congrArg _ (State.issueMove_shared h hp hal ha)), State.exec_load_granted h hp hlo hhi hw hf⟩
  clear_value ends
  refine ⟨completes (p := 0x110) rfl rfl (Nat.mod_one _) rfl (fun _ => rfl), completes (p := 0x111) rfl rfl (Nat.mod_one _) rfl (fun _ => rfl),
    fun h2 => ⟨completes (p := 0x112) rfl rfl h2 rfl (fun _ => rfl), completes (p := 0x113) rfl rfl h2 rfl (fun _ => rfl)⟩,
    fun h4 => ⟨completes (p := 0x114) rfl rfl h4 rfl (fun _ => rfl), completes (p := 0x115) rfl rfl h4 rfl (fun g => ?_)⟩⟩
  simp only [Eng.loaded32, LoadKind.value, if_true, v, LoadKind.size, s.bitsOf_container]

/-- A store's bytes stand in memory as its instruction retires (R242). -/
theorem State.exec_store_granted (h : s.issues e = true) (hp : sharedPort p = true) {k : StoreKind} {a : Nat} {v : Word}
    (hlo : 0x10780000 ≤ a) (hhi : a < 0x107FC000) (hw : s.reqNS e.val = false ∨ s.memNS a = true) {bs : List Byte}
    (hbs : bytesLe k.size v.toNat = bs) :
    exec (.sharedAccessComplete e n) ((s.stalledOn e p t (.store k a v)).setStage e .granted) =
      .next { (s.afterIssue e (fun g => { g with cyc := g.cyc + BitVec.ofNat 48 n })).putBytes a bs with arb := s.arb + 2 } := by
  have hx : (s.performing e p t (.store k a v) n).performAccess e (.store k a v) =
      ((s.performing e p t (.store k a v) n).putBytes a bs, none) := by
    have hstore := State.store_scratch (s := s.performing e p t (.store k a v) n) hlo hhi hw k.size v.toNat
    simp only [State.performAccess, hstore, hbs]
  rw [State.exec_granted hp rfl (by simp) rfl hx (by rw [State.putBytes_eq]; rfl)]
  calc _ = Host.Outcome.next ((({ s with arb := s.arb + 2 } : State).setEng e (({ ({ s.issuing e with stall := none } : Eng) with
        cyc := (s.issuing e).cyc + BitVec.ofNat 48 n } : Eng).retired)).putBytes a bs) := by
        simp only [State.performing, State.engAt_putBytes, State.engAt_setEng_same, State.setEng_putBytes, State.setEng_setEng]
        rfl
    _ = _ := by
        rw [State.issuing_unstalled h, State.afterIssue, State.startIssue_eq, State.setEng_setEng, State.arb_putBytes]
        rfl

/-- The bytes of a number depend on no higher ones. -/
theorem bytesLe_add_mul (m v w : Nat) : bytesLe m (v + 256 ^ m * w) = bytesLe m v := by
  induction m generalizing v with
  | zero => rfl
  | succ m ih =>
    have hq : (v + 256 ^ (m + 1) * w) / 256 = v / 256 + 256 ^ m * w := by
      rw [pow_succ', Nat.mul_assoc, Nat.add_mul_div_left _ _ (by decide)]
    have hb : BitVec.ofNat 8 (v + 256 ^ (m + 1) * w) = BitVec.ofNat 8 v := by
      apply BitVec.eq_of_toNat_eq
      rw [BitVec.toNat_ofNat, BitVec.toNat_ofNat, pow_succ', Nat.mul_assoc]
      exact Nat.add_mul_mod_self_left v 256 _
    rw [bytesLe, bytesLe, hq, ih, hb]

theorem toNat_storeWord (sv svh : Word24) :
    (svh.setWidth 8 ++ sv : Word).toNat = sv.toNat + 2 ^ 24 * (svh.setWidth 8).toNat := by
  rw [BitVec.toNat_append, Nat.shiftLeft_eq, Nat.mul_comm, ← Nat.two_pow_add_eq_or_of_lt sv.isLt, Nat.add_comm]

/-- A store of up to three bytes takes them from LSU.SV. -/
theorem bytesLe_storeWord (sv svh : Word24) {m : Nat} (hm : m ≤ 3) :
    bytesLe m (svh.setWidth 8 ++ sv : Word).toNat = bytesLe m sv.toNat := by
  have hsplit : 2 ^ 24 * (svh.setWidth 8).toNat = 256 ^ m * (256 ^ (3 - m) * (svh.setWidth 8).toNat) := by
    rw [← Nat.mul_assoc, ← pow_add, Nat.add_sub_cancel' hm]
    rfl
  rw [toNat_storeWord, hsplit, bytesLe_add_mul]

/-- STW takes the fourth from LSU.SVH. -/
theorem bytesLe_storeWord_whole (sv svh : Word24) :
    bytesLe 4 (svh.setWidth 8 ++ sv : Word).toNat = bytesLe 3 sv.toNat ++ [svh.setWidth 8] := by
  have hb : (svh.setWidth 8 ++ sv : Word).toNat / 256 / 256 / 256 = (svh.setWidth 8).toNat := by
    have := sv.isLt
    rw [toNat_storeWord]
    omega
  have h3 := bytesLe_storeWord sv svh (m := 3) (le_refl 3)
  have h4 : bytesLe 4 (svh.setWidth 8 ++ sv : Word).toNat = bytesLe 3 (svh.setWidth 8 ++ sv : Word).toNat ++
      [BitVec.ofNat 8 ((svh.setWidth 8 ++ sv : Word).toNat / 256 / 256 / 256)] := rfl
  rw [h4, h3, hb, BitVec.ofNat_toNat, BitVec.setWidth_eq]

/-- Settles O14: the trigger stalls (O12), and the granted store writes as its instruction retires. -/
theorem sharedStoresWrite : Obligations.SharedStoresWrite := by
  intro s e t n h g a hlo hhi hw ends
  have completes : ∀ {c : Instr} {p : Nat} {k : StoreKind} {bs : List Byte}, exec c s = .next (s.issueMove e p t) →
      sharedPort p = true → a % alignOf p = 0 → g.accessOf p t = some (.store k a (g.op.svh.setWidth 8 ++ g.op.sv)) →
      bytesLe k.size (g.op.svh.setWidth 8 ++ g.op.sv : Word).toNat = bs → ends c bs :=
    fun hc hp hal ha hbs => ⟨_, hc.trans (congrArg _ (State.issueMove_shared h hp hal ha)), State.exec_store_granted h hp hlo hhi hw hbs⟩
  clear_value ends
  exact ⟨completes (p := 0x118) rfl rfl (Nat.mod_one _) rfl (bytesLe_storeWord _ _ (by decide)),
    fun h2 => completes (p := 0x119) rfl rfl h2 rfl (bytesLe_storeWord _ _ (by decide)),
    fun h4 => ⟨completes (p := 0x11A) rfl rfl h4 rfl (bytesLe_storeWord _ _ (by decide)),
      completes (p := 0x11B) rfl rfl h4 rfl (bytesLe_storeWord_whole _ _)⟩⟩

end Sys2Proof.Machine
end

section
/-! PROOFS. Writes of an engine into the register window, and the words of a block and the lock accesses as they complete (07 R243, R244,
R250, R251; 08 R279, R280). -/

namespace Sys2Proof.Machine

variable {s : State} {e : EngIx} {x : Access}

/-! ## An engine's write of a register -/

/-- A whole-word write that its world may make to a ready block is the write of its row. -/
theorem State.busWrite_direct {r a : Nat} {y : RegRow} (hy : y.DirectAt a) (hb : s.windowBarred r a true = false)
    (hr : s.ready (keyBlock a) = true) (v : Word) : s.busWrite r a v =
      (s.served r a).wrote ((s.served r a).setReg a (y.written (s.locked a) (s.reg a) v)) r a a v := by
  obtain ⟨hrow, hbank, hst, hpost, hblock, halign, hwin⟩ := hy
  rw [State.busWrite, if_pos halign]
  simp only [State.store, placeOf_window hwin, halign, and_self, if_true, State.writeWindow, hb, hr, hrow, BitVec.ofNat_toNat,
    BitVec.setWidth_eq, Bool.not_true, Bool.false_eq_true, if_false]
  rw [State.writeRow_direct (badTuning_of_block hblock v) hst hpost, State.keyOf_single hbank]

theorem State.served_engine (s : State) (e : EngIx) (k : Nat) : s.served e.val k = s.dropSnap e.val k := by
  rw [State.served, State.takeTurn_engine]

theorem directAt_EVC_FIRE : (RegRow.mk Reg.EVC_FIRE 4 1 4 1 .single 0 0 0 0 0 0xFF 0 0 0).DirectAt Reg.EVC_FIRE := by decide +kernel
theorem directAt_LCK_ACQ : (RegRow.mk Reg.LCK_ACQ 4 1 4 1 .single 0 0 0 0 0 0x3F 0 0 0).DirectAt Reg.LCK_ACQ := by decide +kernel
theorem directAt_LCK_REL : (RegRow.mk Reg.LCK_REL 4 1 4 1 .single 0 0 0 0 0 0x3F 0 0 0).DirectAt Reg.LCK_REL := by decide +kernel

theorem State.busWrite_EVC_FIRE (hb : s.windowBarred e.val Reg.EVC_FIRE true = false) (hr : s.ready 7 = true) (v : Word) :
    s.busWrite e.val Reg.EVC_FIRE v = (s.dropSnap e.val Reg.EVC_FIRE).fireChannel e.val (bitsOf v.toNat 0 8) := by
  rw [State.busWrite_direct directAt_EVC_FIRE hb hr, State.served_engine]
  rfl

theorem bitsOf_lockNumber (k : Fin 64) : bitsOf (BitVec.ofNat 32 k.val).toNat 0 6 = k.val := by
  revert k
  decide

theorem State.wrote_LCK_ACQ (s t : State) (r k : Nat) (v : Word) :
    s.wrote t r Reg.LCK_ACQ k v = s.acquire r (bitsOf v.toNat 0 6) := rfl

theorem State.wrote_LCK_REL (s t : State) (r k : Nat) (v : Word) :
    s.wrote t r Reg.LCK_REL k v = s.releaseLock r (bitsOf v.toNat 0 6) := rfl

theorem State.busWrite_LCK_ACQ (hb : s.windowBarred e.val Reg.LCK_ACQ true = false) (hr : s.ready 7 = true) (k : Fin 64) :
    s.busWrite e.val Reg.LCK_ACQ (BitVec.ofNat 32 k.val) = (s.dropSnap e.val Reg.LCK_ACQ).acquire e.val k.val := by
  rw [State.busWrite_direct directAt_LCK_ACQ hb hr, State.served_engine, State.wrote_LCK_ACQ, bitsOf_lockNumber]

/-- A write of a lock register is secure with its block alone. -/
theorem State.windowSecure_lock {a : Nat} (ha : a = Reg.LCK_ACQ ∨ a = Reg.LCK_REL) : s.windowSecure a true = !s.blockNS 7 := by
  have hk : keyBlock a = 7 := by rcases ha with rfl | rfl <;> rfl
  have hf : (familyIx (Reg.EVC_HPEND 0) 4 8 a).isSome = false := by rcases ha with rfl | rfl <;> decide
  cases hns : s.blockNS 7 <;> simp [State.windowSecure, hk, hf, hns]

theorem State.busWrite_LCK_REL (hb : s.windowBarred e.val Reg.LCK_ACQ true = false) (hr : s.ready 7 = true) (k : Fin 64) :
    s.busWrite e.val Reg.LCK_REL (BitVec.ofNat 32 k.val) = (s.dropSnap e.val Reg.LCK_REL).releaseLock e.val k.val := by
  have hb' : s.windowBarred e.val Reg.LCK_REL true = false := by
    rwa [State.windowBarred, State.windowSecure_lock (.inr rfl), ← State.windowSecure_lock (.inl rfl)]
  rw [State.busWrite_direct directAt_LCK_REL hb' hr, State.served_engine, State.wrote_LCK_REL, bitsOf_lockNumber]

/-! ## Lock accesses (08 R279, R280) -/

/-- An engine acquires a free lock that it may touch. -/
theorem State.acquire_free {k : Nat} (hb : s.lockBarred e.val k = false) (hh : s.flag (F.LCK_S_HELD k) = false) :
    s.acquire e.val k = (((s.raise (F.LCK_S_HELD k)).put (F.LCK_S_HOLDER k) e.val).setReg (Reg.LCK_RES e.val)
      (BitVec.ofNat 32 (pack [(0, 1), (1, s.get (F.LCK_S_ORPHAN k)), (8, k)])), none) := by
  have he : e.val ≤ 66 := by omega
  simp [State.acquire, hb, hh, he, bit01]

/-- The holder releases its lock, whose HOLDER is then a free value (log entry 45). -/
theorem State.releaseLock_held {k : Nat} (hb : s.lockBarred e.val k = false) (hh : s.flag (F.LCK_S_HELD k) = true)
    (ho : s.get (F.LCK_S_HOLDER k) = e.val) :
    ∃ v < 128, s.releaseLock e.val k =
      ((({ s with free := s.free + 1 } : State).lower (F.LCK_S_HELD k)).put (F.LCK_S_HOLDER k) v, none) := by
  refine ⟨Config.freeNat s.free % 2 ^ 7, Nat.mod_lt _ (by decide), ?_⟩
  simp [State.releaseLock, hb, State.holds, hh, ho, State.freeLock, State.draw]

/-! ## Block words (R243, R244) -/

theorem bytesLe_ofBytesLe : ∀ bs : List Byte, bytesLe bs.length (ofBytesLe bs) = bs
  | [] => rfl
  | b :: bs => by
    have hb : b.toNat < 256 := b.isLt
    have hq : (b.toNat + 256 * ofBytesLe bs) / 256 = ofBytesLe bs := by omega
    have hm : BitVec.ofNat 8 (b.toNat + 256 * ofBytesLe bs) = b := by
      apply BitVec.eq_of_toNat_eq
      rw [BitVec.toNat_ofNat, Nat.add_mul_mod_self_left, Nat.mod_eq_of_lt hb]
    rw [List.length_cons, ofBytesLe, bytesLe, hq, hm, bytesLe_ofBytesLe bs]

/-- A local word spells the bytes it was made of. -/
theorem State.bytesLe_local (s : State) (a : Nat) : bytesLe 3 (BitVec.ofNat 24 (ofBytesLe (s.bytes a 3))).toNat = s.bytes a 3 := by
  have hlt := ofBytesLe_lt (s.bytes a 3)
  have hb := bytesLe_ofBytesLe (s.bytes a 3)
  rw [State.length_bytes] at hlt hb
  rw [BitVec.toNat_ofNat, Nat.mod_eq_of_lt (by omega), hb]

theorem State.writeLocal_whole {k : Nat} (hk : k < 4096) (hg : s.halfLoaded (localAddr e k) = false) (v : Word24) :
    s.writeLocal e k v = s.putBytes (localAddr e k) (bytesLe 3 v.toNat) := by
  obtain ⟨q, hq, hpart⟩ := s.writeLocal_eq e hk v
  rw [hq, hpart hg, State.putBytes_eq]

/-- Word `i` of a block load moves the low three bytes of its container into the local word. -/
theorem State.performAccess_blockLoad {m i la base : Nat} (hlo : 0x10780000 ≤ base + 4 * i) (hhi : base + 4 * i < 0x107FC000)
    (hw : s.reqNS e.val = false ∨ s.memNS (base + 4 * i) = true) (hg : s.halfLoaded (localAddr e ((la + i) % 4096)) = false) :
    s.performAccess e (.block true m i la base) =
      ((s.putBytes (localAddr e ((la + i) % 4096)) (s.bytes (base + 4 * i) 3)).blockMoved e m i, none) := by
  have hlt : (la + i) % 4096 < 4096 := Nat.mod_lt _ (by decide)
  simp only [State.performAccess, State.load_scratch hlo hhi hw, State.writeLocal_whole hlt hg, State.bytesLe_local]

/-- Word `i` of a block store moves the local word into the low three bytes of its container. -/
theorem State.performAccess_blockStore {m i la base : Nat} (hlo : 0x10780000 ≤ base + 4 * i) (hhi : base + 4 * i < 0x107FC000)
    (hw : s.reqNS e.val = false ∨ s.memNS (base + 4 * i) = true) (hg : s.halfLoaded (localAddr e ((la + i) % 4096)) = false) :
    s.performAccess e (.block false m i la base) =
      ((s.putBytes (base + 4 * i) (s.bytes (localAddr e ((la + i) % 4096)) 3)).blockMoved e m i, none) := by
  simp only [State.performAccess, State.readLocal_whole hg, State.store_scratch hlo hhi hw, State.bytesLe_local]

/-- A block's word that is not its last moves, and the block waits for the next one. -/
theorem State.completeAccess_block {st : Stall} {b toLocal : Bool} {m i la base : Nat} {u : State} (hp : st.passed = [])
    (hw : st.worlds = s.worldMap) (hm : ∀ y ∈ st.moves, y.dst ≠ 0x160) (hr : (s.engAt e).state = .running) (hi : i + 1 < m)
    (hx : s.performAccess e (.block toLocal m i la base) = (u, none)) (hu : u.worldMap = s.worldMap) :
    s.completeAccess e st b (.block toLocal m i la base) [] =
      ({ u with arb := u.arb + 1 } : State).setEng e { u.engAt e with
        stall := some { st with
          accs := [(b, .block toLocal m (i + 1) la base)], stage := .waiting, since := u.arb, revoked := false, beyond := false } } := by
  have hadv : Access.advance (.block toLocal m i la base) = some (.block toLocal m (i + 1) la base) := if_pos hi
  have hsingle : st.single [] = true := by
    simp only [Stall.single, hp, List.isEmpty_nil, Bool.true_and, List.all_eq_true, bne_iff_ne]
    exact hm
  have hbefore : s.wordsBefore e st (.block toLocal m i la base) = s := by
    simp [State.wordsBefore, hp, Access.isBlock, State.movedWords, State.each]
  have hst : { st with passed := [], worlds := u.worldMap } = st := by rw [hu, ← hw, ← hp]
  have hunder : s.performUnder e st.worlds (.block toLocal m i la base) = (u, none) := by
    rw [State.performUnder, hw, State.underWorlds_same, hx]
  rw [State.completeAccess, if_neg (by simp), if_neg (by simp [hadv])]
  simp only [hbefore, hunder, hadv, hsingle, if_true, hr]
  simp only [reduceCtorEq, if_false, State.await]
  rw [← hst]

theorem State.blockMoved_more {m i : Nat} (h : i + 1 < m) (s : State) (e : EngIx) : s.blockMoved e m i = s := if_pos h

theorem State.blockMoved_last {m i : Nat} (h : ¬i + 1 < m) (s : State) (e : EngIx) : s.blockMoved e m i = s.setRemaining e 0 := if_neg h

theorem State.worldMap_putBytes (s : State) (a : Nat) (bs : List Byte) : (s.putBytes a bs).worldMap = s.worldMap := by
  rw [State.putBytes_eq]
  rfl

theorem State.putBytes_arb (s : State) (a : Nat) (bs : List Byte) : (s.putBytes a bs).arb = s.arb := by rw [State.putBytes_eq]

/-- Nothing in the register map or in SRAM waits for the flash. -/
theorem State.accessWaits_block {toLocal : Bool} {m i la base : Nat} (h : 0x10780000 ≤ base + 4 * i) :
    s.accessWaits (.block toLocal m i la base) = false := by
  cases toLocal with
  | true =>
    simp only [State.accessWaits, State.flashWaits, State.flashHolds, Bool.and_eq_false_iff, decide_eq_false_iff_not]
    exact .inr (by omega)
  | false => rfl

section Completing

variable {st : Stall} {b : Bool} {n : Nat} (hs : (s.engAt e).stall = some st) (hg : st.stage = .granted) (hp : st.passed = [])
  (hw : st.worlds = s.worldMap) (hm : ∀ y ∈ st.moves, y.dst ≠ 0x160)

include hs hg hp hw hm

/-- A granted block word that its engine may move and that is not the last: it moves, and the block goes on. -/
theorem State.exec_block_more {toLocal : Bool} {m i la base a : Nat} {bs : List Byte} (ha : st.accs = [(b, .block toLocal m i la base)])
    (hlo : 0x10780000 ≤ base + 4 * i) (hr : (s.engAt e).state = .running) (hi : i + 1 < m)
    (hx : (s.counted e n).performAccess e (.block toLocal m i la base) = (((s.counted e n).putBytes a bs).blockMoved e m i, none)) :
    exec (.sharedAccessComplete e n) s = .next (({ (s.counted e n).putBytes a bs with arb := s.arb + 1 } : State).setEng e
      { ((s.counted e n).putBytes a bs).engAt e with stall := some { st with
        accs := [(b, .block toLocal m (i + 1) la base)], stage := .waiting, since := s.arb, revoked := false, beyond := false } }) := by
  have hr' : ((s.counted e n).engAt e).state = .running := by rw [State.counted, State.engAt_setEng_same]; exact hr
  have harb : ((s.counted e n).putBytes a bs).arb = s.arb := State.putBytes_arb _ _ _
  rw [exec_sharedAccessComplete hs hg ha (State.accessWaits_block hlo),
    State.completeAccess_block (s := s.counted e n) hp hw hm hr' hi (hx.trans (by rw [State.blockMoved_more hi]))
      (State.worldMap_putBytes _ _ _), harb]

/-- The last word of a block: it moves, LSU.BREM becomes 0 and the instruction retires. -/
theorem State.exec_block_last {toLocal : Bool} {m i la base a : Nat} {bs : List Byte} (ha : st.accs = [(b, .block toLocal m i la base)])
    (hlo : 0x10780000 ≤ base + 4 * i) (hi : ¬i + 1 < m)
    (hx : (s.counted e n).performAccess e (.block toLocal m i la base) = (((s.counted e n).putBytes a bs).blockMoved e m i, none)) :
    exec (.sharedAccessComplete e n) s = .next (((((s.counted e n).putBytes a bs).setRemaining e 0).setEng e
      { (((s.counted e n).putBytes a bs).setRemaining e 0).engAt e with stall := none }).retire e st.moves) := by
  rw [exec_sharedAccessComplete_last hs hg ha (State.accessWaits_block hlo) (by simp) (if_neg hi),
    State.lastAccess_retires (s := s.counted e n) (u := ((s.counted e n).putBytes a bs).setRemaining e 0) hp hw hm
      (hx.trans (by rw [State.blockMoved_last hi])) (State.worldMap_putBytes _ _ _)]

end Completing

/-- The lock's word, in LCK_RES and in LK.R. -/
theorem setWidth_lockWord (w : Nat) : (BitVec.ofNat 32 w).setWidth 24 = BitVec.ofNat 24 w := by
  apply BitVec.eq_of_toNat_eq
  simp only [BitVec.toNat_setWidth, BitVec.toNat_ofNat]
  omega

theorem AMap.filter_put {α : Type} [DecidableEq α] {d : Nat → α} (m : List (Nat × α)) {k : Nat} (v : α) {q : Nat → Bool}
    (hq : q k = false) : (AMap.put d m k v).filter (fun y => q y.1) = m.filter (fun y => q y.1) := by
  induction m with
  | nil => by_cases hv : v = d k <;> simp [AMap.put, hv, hq]
  | cons y t ih =>
    obtain ⟨j, u⟩ := y
    rcases lt_trichotomy k j with hlt | rfl | hgt
    · by_cases hv : v = d k <;> simp [AMap.put, hlt, hv, hq]
    · by_cases hv : v = d k <;> simp [AMap.put, hv, hq]
    · have h1 : ¬k < j := by omega
      have h2 : k ≠ j := by omega
      simp only [AMap.put, h1, h2, if_false, List.filter_cons, ih]

/-- A register that assigns no worlds leaves them as they are. -/
theorem State.worldMap_setReg (s : State) {k : Nat} (v : Word) (hk : worldReg k = false) : (s.setReg k v).worldMap = s.worldMap :=
  AMap.filter_put s.regs v hk

theorem State.worldMap_put (s : State) (f : Fld) (v : Nat) (hk : worldReg f.key = false) : (s.put f v).worldMap = s.worldMap :=
  State.worldMap_setReg s _ hk

@[simp] theorem State.worldMap_setEng (s : State) (e : EngIx) (g : Eng) : (s.setEng e g).worldMap = s.worldMap := rfl

theorem worldReg_lock : ∀ k : Fin 64, worldReg (Reg.LCK_S k.val) = false ∧ worldReg (Reg.LCK_RES k.val) = false := by decide

theorem State.windowBarred_setEng (s : State) (e : EngIx) (g : Eng) (r a : Nat) (wr : Bool) :
    (s.setEng e g).windowBarred r a wr = s.windowBarred r a wr := by
  have hblock (i : Nat) : (s.setEng e g).blockNS i = s.blockNS i := rfl
  have heng (k : Nat) : (s.setEng e g).engNS k = s.engNS k := rfl
  have hreq : (s.setEng e g).reqNS r = s.reqNS r := rfl
  simp only [State.windowBarred, State.windowSecure, hblock, heng, hreq, State.flag_setEng]

/-- What LK.R and LCK_RES answer to an engine that acquires lock `k` (08 R279). -/
def State.lockWord (s : State) (k : Nat) : Nat := pack [(0, 1), (1, s.get (F.LCK_S_ORPHAN k)), (8, k)]

/-- Lock `k` taken by engine `e`, which gets the answer `w`. -/
def State.lockTaken (s : State) (e : EngIx) (k w : Nat) : State :=
  (((s.dropSnap e.val Reg.LCK_ACQ).raise (F.LCK_S_HELD k)).put (F.LCK_S_HOLDER k) e.val).setReg (Reg.LCK_RES e.val) (BitVec.ofNat 32 w)

/-- Lock `k` freed by engine `e`, its HOLDER the free value `v`. -/
def State.lockFreed (s : State) (e : EngIx) (k v : Nat) : State :=
  (({ s.dropSnap e.val Reg.LCK_REL with free := s.free + 1 } : State).lower (F.LCK_S_HELD k)).put (F.LCK_S_HOLDER k) v

theorem State.worldMap_lockTaken (s : State) (e : EngIx) (k : Fin 64) (w : Nat) : (s.lockTaken e k.val w).worldMap = s.worldMap := by
  obtain ⟨hk, -⟩ := worldReg_lock k
  obtain ⟨-, he⟩ := worldReg_lock e
  rw [State.lockTaken, State.worldMap_setReg _ _ he, State.worldMap_put _ _ _ hk, State.raise_eq, State.worldMap_put _ _ _ hk]
  rfl

theorem State.worldMap_lockFreed (s : State) (e : EngIx) (k : Fin 64) (v : Nat) : (s.lockFreed e k.val v).worldMap = s.worldMap := by
  obtain ⟨hk, -⟩ := worldReg_lock k
  rw [State.lockFreed, State.worldMap_put _ _ _ hk, State.lower_eq, State.worldMap_put _ _ _ hk]
  rfl

theorem State.reg_lockTaken (hc : s.canonical = true) (e : EngIx) (k w : Nat) :
    (s.lockTaken e k w).reg (Reg.LCK_RES e.val) = BitVec.ofNat 32 w :=
  State.reg_setReg_same (State.canonical_put (State.canonical_put (State.canonical_congr hc rfl rfl rfl rfl rfl) _ _) _ _) _ _

theorem State.performAccess_lockAcq (hb : s.windowBarred e.val Reg.LCK_ACQ true = false) (hr : s.ready 7 = true) {k : Fin 64} {w : Nat}
    (hl : s.lockBarred e.val k.val = false) (hh : s.flag (F.LCK_S_HELD k.val) = false) (hc : s.canonical = true)
    (hw : s.lockWord k.val = w) :
    s.performAccess e (.lockAcq k.val) = ((s.lockTaken e k.val w).setEng e { (s.lockTaken e k.val w).engAt e with
      res := { ((s.lockTaken e k.val w).engAt e).res with lk := BitVec.ofNat 24 w } }, none) := by
  have hl' : (s.dropSnap e.val Reg.LCK_ACQ).lockBarred e.val k.val = false := hl
  have hacq : s.busWrite e.val Reg.LCK_ACQ (BitVec.ofNat 32 k.val) = (s.lockTaken e k.val w, none) := by
    rw [State.busWrite_LCK_ACQ hb hr, State.acquire_free hl' (by rwa [State.dropSnap_flag]), State.dropSnap_get, State.lockTaken, ← hw,
      State.lockWord]
  simp only [State.performAccess, hacq, State.reg_lockTaken hc, setWidth_lockWord]

theorem State.performAccess_lockRel (hb : s.windowBarred e.val Reg.LCK_ACQ true = false) (hr : s.ready 7 = true) {k : Fin 64}
    (hl : s.lockBarred e.val k.val = false) (hh : s.flag (F.LCK_S_HELD k.val) = true) (ho : s.get (F.LCK_S_HOLDER k.val) = e.val) :
    ∃ v < 128, s.performAccess e (.lockRel k.val) = (s.lockFreed e k.val v, none) := by
  have hl' : (s.dropSnap e.val Reg.LCK_REL).lockBarred e.val k.val = false := hl
  obtain ⟨v, hv, hrel⟩ := State.releaseLock_held hl' (by rwa [State.dropSnap_flag]) (by rwa [State.dropSnap_get])
  refine ⟨v, hv, ?_⟩
  simp only [State.performAccess, State.busWrite_LCK_REL hb hr k, hrel]
  rfl

/-- A granted lock access that succeeds is its instruction's last. -/
theorem State.exec_lock_last {st : Stall} {b : Bool} {n : Nat} {u : State} (hs : (s.engAt e).stall = some st) (hg : st.stage = .granted)
    (hp : st.passed = []) (hw : st.worlds = s.worldMap) (hm : ∀ y ∈ st.moves, y.dst ≠ 0x160) (ha : st.accs = [(b, x)])
    (hk : ∃ k, x = .lockAcq k ∨ x = .lockRel k) (hx : (s.counted e n).performAccess e x = (u, none)) (hu : u.worldMap = s.worldMap) :
    exec (.sharedAccessComplete e n) s = .next ((u.setEng e { u.engAt e with stall := none }).retire e st.moves) := by
  have hx' : s.accessWaits x = false ∧ x ≠ .lane ∧ x.advance = none := by
    obtain ⟨k, rfl | rfl⟩ := hk <;> simp [State.accessWaits, Access.advance]
  obtain ⟨hwait, hlane, hadv⟩ := hx'
  rw [exec_sharedAccessComplete_last hs hg ha hwait hlane hadv, State.lastAccess_retires (s := s.counted e n) hp hw hm hx hu]

/-- Settles O15: block words by what one word does and whether more follow, lock accesses by the writes that they are. -/
theorem blocksAndLocksComplete : Obligations.BlocksAndLocksComplete := by
  intro s e st b n hs hg hp hw hm s0 free again
  refine ⟨?_, fun k hbar hready hlock => ?_⟩
  · intro m i la base hlo hhi hworld hr l ld stt hwhole
    have hload := State.performAccess_blockLoad (s := s.counted e n) (m := m) hlo hhi hworld hwhole
    have hstore := State.performAccess_blockStore (s := s.counted e n) (m := m) hlo hhi hworld hwhole
    exact ⟨fun ha hi => State.exec_block_more hs hg hp hw hm ha hlo hr hi hload,
      fun ha hi => State.exec_block_last hs hg hp hw hm ha hlo hi hload,
      fun ha hi => State.exec_block_more hs hg hp hw hm ha hlo hr hi hstore,
      fun ha hi => State.exec_block_last hs hg hp hw hm ha hlo hi hstore⟩
  · have hbar0 : (s.counted e n).windowBarred e.val Reg.LCK_ACQ true = false := by rwa [State.counted, State.windowBarred_setEng]
    refine ⟨fun ha hheld => ?_, fun ha hheld hholder => ?_⟩
    · intro word u hc
      have hword : (s.counted e n).lockWord k.val = word := by rw [State.lockWord, State.counted, State.get_setEng]
      have hmap : ((s.counted e n).lockTaken e k.val word).worldMap = s.worldMap := by
        rw [State.worldMap_lockTaken, State.counted, State.worldMap_setEng]
      exact State.exec_lock_last hs hg hp hw hm ha ⟨_, .inl rfl⟩ (State.performAccess_lockAcq (s := s.counted e n) hbar0 hready hlock
        hheld (State.canonical_congr hc rfl rfl rfl rfl rfl) hword)
        (by rw [State.worldMap_setEng]; exact hmap)
    · obtain ⟨v, hv, hrel⟩ := State.performAccess_lockRel (s := s.counted e n) hbar0 hready hlock hheld hholder
      have hmap : ((s.counted e n).lockFreed e k.val v).worldMap = s.worldMap := by
        rw [State.worldMap_lockFreed, State.counted, State.worldMap_setEng]
      exact ⟨v, hv, State.exec_lock_last hs hg hp hw hm ha ⟨_, .inr rfl⟩ hrel hmap⟩

end Sys2Proof.Machine
end

section
/-! PROOFS. CJ.W and EV.FIRE (07 R248, R250; 08 R272). -/

namespace Sys2Proof.Machine

variable {s : State} {e : EngIx}

theorem next_congr {t u : State} (h : t = u) : (.next t : Out) = .next u := congrArg _ h

/-- An engine's window accesses stay as free as they were when an instruction of it issues. -/
theorem State.windowBarred_startIssue (s : State) (e : EngIx) (r a : Nat) (w : Bool) :
    (s.startIssue e).windowBarred r a w = s.windowBarred r a w := by
  rw [State.startIssue_eq, State.windowBarred_setEng]

theorem toNat_setWidth_channel (t : Word24) : bitsOf ((t.setWidth 8).setWidth 32 : Word).toNat 0 8 = t.toNat % 256 := by
  simp only [bitsOf, BitVec.toNat_setWidth, Nat.shiftRight_zero]
  omega

theorem State.trigExc_jobWord (s : State) (e : EngIx) (cfg : Word) (t : Word24) : s.trigExc e cfg 0x151 t = (s, none) := by
  simp [State.trigExc, alignOf, Nat.mod_one]

/-- With fewer than five words written, CJ.W retires with the next word. -/
theorem State.issueMove_jobWord (h : s.issues e = true) (t : Word24) (hc : (s.issuing e).cjCount < 5) :
    s.issueMove e 0x151 t =
      (((s.startIssue e).nextJobWord e ((s.issuing e).op.cjHi.setWidth 8 ++ t)).setEng e
        { s.issuing e with cjCount := (s.issuing e).cjCount + 1 }.retired) := by
  have ha : (s.issuing e).accessOf 0x151 t = none := by simp [Eng.accessOf, hc]
  rw [State.issueMove_retires h (by decide) (by decide) (by decide) (.inl (by decide))
    (congrArg Prod.snd (State.trigExc_jobWord _ e _ t)) ha, State.retire_trigger (by decide)]
  have ht : (s.startIssue e).trigger e 0x151 t = (s.startIssue e).nextJobWord e ((s.issuing e).op.cjHi.setWidth 8 ++ t) :=
    if_pos hc
  rw [ht, State.nextJobWord]
  split <;> simp

theorem State.issueMove_evFire (h : s.issues e = true) (t : Word24) (hr : s.ready 7 = true)
    (hb : s.windowBarred e.val Reg.EVC_FIRE true = false) {u : State}
    (hf : ((s.startIssue e).dropSnap e.val Reg.EVC_FIRE).fireChannel e.val (t.toNat % 256) = (u, none)) :
    s.issueMove e 0x160 t = u.setEng e (u.engAt e).retired := by
  have hb' : (s.startIssue e).windowBarred e.val Reg.EVC_FIRE true = false := by rwa [State.windowBarred_startIssue]
  have hp : (s.startIssue e).firePort e t = (u, none) := by
    rw [State.firePort, State.busWrite_EVC_FIRE hb' hr, toNat_setWidth_channel, hf]
  have hx : ∀ cfg, (s.startIssue e).trigExc e cfg 0x160 t = (u, none) := fun cfg => by
    simp [State.trigExc, hp]
  rw [State.issueMove_retires h (by decide) (by decide) (by decide) (.inl (by decide)) (congrArg Prod.snd (hx _)) rfl,
    State.retire_trigger (by decide)]
  have ht : (s.startIssue e).trigger e 0x160 t = u := congrArg Prod.fst hp
  rw [ht]

/-- Settles O17: CJ.W retires or stalls by its count, and EV.FIRE is the write of EVC_FIRE. -/
theorem jobAndEventPorts : Obligations.JobAndEventPorts := by
  intro s e t h
  refine ⟨fun hc hr => ?_, fun hc hr => ?_, fun hc => ?_, fun hr hb hw => ?_⟩
  · have hr' : (s.startIssue e).ready 14 = false := hr
    refine next_congr ((State.issueMove_jobWord h t hc).trans ?_)
    simp [State.nextJobWord, hr', State.afterIssue]
  · have hr' : (s.startIssue e).ready 14 = true := hr
    refine next_congr ((State.issueMove_jobWord h t hc).trans ?_)
    simp only [State.nextJobWord, hr', if_true, State.served_engine, State.setEng_setEng, State.afterIssue]
    rfl
  · refine next_congr (State.issueMove_stalls h (by decide) (by decide) (by decide) (by decide)
      (congrArg Prod.snd (State.trigExc_jobWord _ e _ t)) ?_)
    simp [Eng.accessOf, Nat.not_lt.mpr hc]
  · have hns : (s.reqNS e.val && !s.flag (F.EVC_CH_NS (t.toNat % 256))) = false := by rcases hw with hw | hw <;> simp [hw]
    have hfire : ((s.startIssue e).dropSnap e.val Reg.EVC_FIRE).fireChannel e.val (t.toNat % 256) =
        if !s.channelOpen (t.toNat % 256) then ((s.startIssue e).dropSnap e.val Reg.EVC_FIRE, none)
        else if s.flag (F.EVC_CH_SWF (t.toNat % 256)) then
          ({ (s.startIssue e).dropSnap e.val Reg.EVC_FIRE with events := s.events ++ [.sw (t.toNat % 256)] }, none)
        else (((s.startIssue e).dropSnap e.val Reg.EVC_FIRE).strayEvent (0x200 + e.val) (t.toNat % 256), none) :=
      if_neg (Bool.eq_false_iff.mp hns)
    refine ⟨fun ho hswf => ?_, fun ho => ?_⟩
    · rw [ho, hswf] at hfire
      exact next_congr (State.issueMove_evFire h t hr hb hfire)
    · rw [ho] at hfire
      exact next_congr (State.issueMove_evFire h t hr hb hfire)

end Sys2Proof.Machine
end

section
/-! PROOFS. Moves into registers, and the instruction that MOVE fetches (07 R214 to R227). -/

namespace Sys2Proof.Machine

variable {s : State} {e : EngIx} {p : Nat}

/-! ## A move into a register raises nothing, starts nothing and triggers nothing -/

theorem register_not_port (hp : p < 32) : unitOf p = none ∧ alignOf p = 1 ∧ destListed p = true :=
  (by decide : ∀ n < 32, unitOf n = none ∧ alignOf n = 1 ∧ destListed n = true) p hp

theorem Eng.writePort_register (hp : p < 32) (g : Eng) (v : Word24) : g.writePort p v = { g with w := g.w.set p v } := dif_pos hp

theorem State.trigExc_register (hp : p < 32) (s : State) (e : EngIx) (cfg : Word) (v : Word24) : s.trigExc e cfg p v = (s, none) := by
  simp only [State.trigExc, (register_not_port hp).2.1, Nat.mod_one]
  rw [if_neg (by omega), if_neg (by omega), if_neg (by omega), if_neg (by omega), if_neg (by omega), if_neg (by omega),
    if_neg (by omega), if_neg (by omega), if_neg (by omega)]

theorem Eng.accessOf_register (hp : p < 32) (g : Eng) (v : Word24) : g.accessOf p v = none := by
  fun_cases Eng.accessOf g p v <;> first | rfl | omega

theorem State.trigger_register (hp : p < 32) (s : State) (e : EngIx) (v : Word24) : s.trigger e p v = s := by
  have hg : (s.engAt e).trigger p v = s.engAt e := by
    unfold Eng.trigger
    rw [if_neg (by omega), if_neg (by omega), if_neg (by omega), if_neg (by omega), if_neg (by omega), if_neg (by omega)]
    split <;> first | rfl | omega
  rw [State.trigger_own s e v (by omega), hg, State.setEng_engAt]

/-- The engine once the moves `ms` into registers have been written. -/
def Eng.written (g : Eng) (ms : List Moved) : Eng := ms.foldl (fun g m => g.writePort m.dst m.val) g

theorem State.each_registers {ms : List Moved} (hm : ∀ m ∈ ms, m.dst < 32) (s : State) (e : EngIx) :
    s.each ms (fun s m => s.trigger e m.dst m.val) = s := by
  induction ms generalizing s with
  | nil => rfl
  | cons m ms ih =>
    have hd := hm m List.mem_cons_self
    rw [State.each, List.foldl_cons, State.trigger_register hd, ← State.each]
    exact ih (fun m h => hm m (List.mem_cons_of_mem _ h)) s

theorem State.retire_registers {ms : List Moved} (hm : ∀ m ∈ ms, m.dst < 32) (s : State) (e : EngIx) :
    s.retire e ms = s.setEng e ((s.engAt e).written ms).retired := by
  simp only [State.retire, State.each_registers hm]
  simp [Eng.written, Eng.retired]

theorem State.firstExc_registers {ms : List Moved} (hm : ∀ m ∈ ms, m.dst < 32) (s : State) (e : EngIx) (cfg : Word) :
    s.firstExc e cfg none ms = (s, none) := by
  induction ms with
  | nil => rfl
  | cons m ms ih =>
    simp only [State.firstExc, State.trigExc_register (hm m List.mem_cons_self), Option.map_none, reduceCtorEq, if_false]
    exact ih fun m h => hm m (List.mem_cons_of_mem _ h)

/-- Moves into registers whose reads all succeed retire. -/
theorem State.perform_registers {cfg : Word} {w : BitVec 48} {ms : List Mv} {t : State} {read : List Moved}
    (hr : s.readMoves e ms = (t, read, none)) (hm : ∀ m ∈ takenMoves read, m.dst < 32) :
    s.perform e cfg w ms = t.setEng e ((t.engAt e).written (takenMoves read)).retired := by
  have ha : ∀ g : Eng, (takenMoves read).filterMap (fun m => (g.accessOf m.dst m.val).map (fun a => (m.slotB, a))) = [] := fun g =>
    List.filterMap_eq_nil_iff.mpr fun m h => by rw [Eng.accessOf_register (hm m h)]; rfl
  simp only [State.perform, hr, State.firstExc_registers hm, Option.map_none, reduceCtorEq, if_false, ha, State.retire_registers hm]

/-! ## MOVE (R214, R225) -/

theorem State.exec_move (hc : s.canIssue e = true) (hw : s.halfLoaded (0x10600000 + 0x6000 * e.val + 6 * seqIdx (s.engAt e).seq 0) = false) :
    exec (.move e) s = .next (s.issue e (BitVec.ofNat 48 (ofBytesLe
      (s.bytes (0x10600000 + 0x6000 * e.val + 6 * seqIdx (s.engAt e).seq 0) 6)))) := by
  have he : exec (.move e) s = .next (if s.canIssue e then (s.fetch e).1.issue e (s.fetch e).2 else s) := rfl
  rw [he, if_pos hc, State.fetch, hw]
  rfl

/-- The word of two moves between registers, both always executed. -/
theorem movesOf_registers (i j k l : Fin 32) :
    movesOf (BitVec.ofNat 48 ((i.val * 2 ^ 10 + j.val) * 2 ^ 23 + (k.val * 2 ^ 10 + l.val))) =
      [⟨false, 0, none, i.val, j.val⟩, ⟨true, 0, none, k.val, l.val⟩] := by
  have hn : (BitVec.ofNat 48 ((i.val * 2 ^ 10 + j.val) * 2 ^ 23 + (k.val * 2 ^ 10 + l.val))).toNat =
      (i.val * 2 ^ 10 + j.val) * 2 ^ 23 + (k.val * 2 ^ 10 + l.val) := by
    rw [BitVec.toNat_ofNat]
    exact Nat.mod_eq_of_lt (by omega)
  have slot : ∀ (b : Bool) (i j : Fin 32), slotMove b (i.val * 2 ^ 10 + j.val) = ⟨b, 0, none, i.val, j.val⟩ := by
    intro b i j
    have h1 : bitsOf (i.val * 2 ^ 10 + j.val) 20 3 = 0 := by
      simp only [bitsOf, Nat.shiftRight_eq_div_pow]
      omega
    have h2 : bitAt (i.val * 2 ^ 10 + j.val) 19 = false := by
      simp only [bitAt, bitsOf, Nat.shiftRight_eq_div_pow, beq_eq_false_iff_ne]
      omega
    have h3 : bitsOf (i.val * 2 ^ 10 + j.val) 10 9 = i.val := by
      simp only [bitsOf, Nat.shiftRight_eq_div_pow]
      omega
    have h4 : bitsOf (i.val * 2 ^ 10 + j.val) 0 10 = j.val := by
      simp only [bitsOf, Nat.shiftRight_eq_div_pow]
      omega
    simp only [slotMove, h1, h2, h3, h4]
    rfl
  have h47 : bitAt ((i.val * 2 ^ 10 + j.val) * 2 ^ 23 + (k.val * 2 ^ 10 + l.val)) 47 = false := by
    simp only [bitAt, bitsOf, Nat.shiftRight_eq_div_pow, beq_eq_false_iff_ne]
    omega
  have hA : bitsOf ((i.val * 2 ^ 10 + j.val) * 2 ^ 23 + (k.val * 2 ^ 10 + l.val)) 23 23 = i.val * 2 ^ 10 + j.val := by
    simp only [bitsOf, Nat.shiftRight_eq_div_pow]
    omega
  have hB : bitsOf ((i.val * 2 ^ 10 + j.val) * 2 ^ 23 + (k.val * 2 ^ 10 + l.val)) 0 23 = k.val * 2 ^ 10 + l.val := by
    simp only [bitsOf, Nat.shiftRight_eq_div_pow]
    omega
  simp only [movesOf, hn, h47, hA, hB, slot]
  rfl

theorem sourceListed_register (i : Fin 32) : sourceListed i.val = true := by
  revert i
  decide

theorem readsNoLane_register (i : Fin 32) : i.val ≠ 0x50 ∧ i.val ≠ 0x51 := by omega

theorem takenMoves_subset (ms : List Moved) : takenMoves ms ⊆ ms := by
  fun_cases takenMoves ms with
  | case1 a b => exact List.subset_cons_self a [b]
  | case2 | case3 => exact List.Subset.refl _

/-- Both sources are read before a destination is written, also when one register is read twice. -/
theorem State.readMoves_registers (s : State) (e : EngIx) (i j k l : Fin 32) :
    s.readMoves e [⟨false, 0, none, i.val, j.val⟩, ⟨true, 0, none, k.val, l.val⟩] =
      (s, [⟨false, j.val, (s.engAt e).w[i.val]⟩, ⟨true, l.val, (s.engAt e).w[k.val]⟩], none) := by
  have hread : ∀ i : Fin 32, s.readPort e i.val = (s, .ok (s.engAt e).w[i.val]) := fun i => dif_pos i.isLt
  simp only [State.readMoves, State.readMove, hread, true_and]
  by_cases hik : i.val = k.val
  · simp [hik]
  · simp [hik]

theorem Eng.written_registers (g : Eng) (j l : Fin 32) (x y : Word24) :
    g.written (takenMoves [⟨false, j.val, x⟩, ⟨true, l.val, y⟩]) = { g with w := (g.w.set j.val x).set l.val y } := by
  have hu : unitOf j.val = none := (register_not_port j.isLt).1
  by_cases hjl : j.val = l.val
  · simp [takenMoves, Eng.written, Eng.writePort_register, hjl]
  · simp [takenMoves, Eng.written, Eng.writePort_register, hjl, hu]

/-- Settles O18: the word spells the two moves, whose sources are read before either register is written. -/
theorem movesReadBeforeAnyWrites : Obligations.MovesReadBeforeAnyWrites := by
  intro s e i j k l h a hw hb
  rw [State.exec_move (State.canIssue_of_issues h) hw, hb]
  have hm := movesOf_registers i j k l
  have hh : ∀ w, movesOf w = [⟨false, 0, none, i.val, j.val⟩, ⟨true, 0, none, k.val, l.val⟩] →
      (s.startIssue e).heldMoves e w = [⟨false, 0, none, i.val, j.val⟩, ⟨true, 0, none, k.val, l.val⟩] :=
    fun w hw => by simp [State.heldMoves, hw, guardHolds]
  have hl : [(⟨false, 0, none, i.val, j.val⟩ : Mv), ⟨true, 0, none, k.val, l.val⟩].find? ((s.startIssue e).illegalAt e) = none := by
    have hj : j.val ≠ 0xE5 ∧ l.val ≠ 0xE5 := by omega
    simp [State.illegalAt, Mv.illegal, sourceListed_register, (register_not_port j.isLt).2.2, (register_not_port l.isLt).2.2, hj]
  have hn : laneNeed [⟨false, 0, none, i.val, j.val⟩, ⟨true, 0, none, k.val, l.val⟩] = 0 := by
    simp [laneNeed, readsNoLane_register]
  have hd : ∀ m ∈ takenMoves [⟨false, j.val, (s.issuing e).w[i.val]⟩, ⟨true, l.val, (s.issuing e).w[k.val]⟩], m.dst < 32 := by
    intro m hmem
    rcases List.mem_pair.mp (takenMoves_subset _ hmem) with rfl | rfl
    · exact j.isLt
    · exact l.isLt
  rw [State.issue_moves h hm hl (by rw [hh _ hm]; exact hn), hh _ hm,
    State.perform_registers (State.readMoves_registers _ e i j k l) hd, Eng.written_registers]
  rfl

/-! ## The word in the store (R224) -/

/-- Settles O19: MOVE issues the word in the store, and each command issues the word of its move. -/
theorem fetchedInstructionIsIssued : Obligations.FetchedInstructionIsIssued := by
  intro s e t hc a held hw
  have hmove : exec (.move e) s = .next (s.issue e (BitVec.ofNat 48 held)) := State.exec_move hc hw
  refine ⟨hmove, fun h => ?_, fun h => ?_, fun h => ?_⟩ <;> rw [hmove, h] <;> rfl

end Sys2Proof.Machine
end

section
/-! PROOFS. Reads of source ports into a register (07 R219, R246, R247, R250, R252). -/

namespace Sys2Proof.Machine

variable {s : State} {e : EngIx} {p : Nat} {d : Fin 32}

/-- The one move of a read of port `p` into register `d`. -/
abbrev readMv (p : Nat) (d : Fin 32) : Mv := ⟨false, 0, none, p, d.val⟩

/-- An instruction that reads a listed port comes to its move. -/
theorem State.issueRead_attempts (h : s.issues e = true) (hp : p < 512) (hl : sourceListed p = true) (d : Fin 32) :
    s.issueRead e p d = (s.startIssue e).attempt e (readWord p d.val) [readMv p d] := by
  have hm := movesOf_readWord d hp
  have hh : (s.startIssue e).heldMoves e (readWord p d.val) = [readMv p d] := by
    simp [State.heldMoves, hm, guardHolds]
  have hd : d.val ≠ 0xE5 := by omega
  have hi : [readMv p d].find? ((s.startIssue e).illegalAt e) = none := by
    simp [State.illegalAt, Mv.illegal, hl, (register_not_port d.isLt).2.2, hd]
  simp only [State.issues, Bool.and_eq_true, Bool.not_eq_true'] at h
  simp only [State.issueRead, State.issue, h.1, h.2, hm, hi, hh]
  rfl

/-- A read that gives a value brings it to its register as the instruction retires. -/
theorem State.perform_read {cfg : Word} {w : BitVec 48} {t : State} {v : Word24} (hr : s.readPort e p = (t, .ok v)) :
    s.perform e cfg w [readMv p d] = t.setEng e { t.engAt e with w := (t.engAt e).w.set d.val v }.retired := by
  have hm : s.readMoves e [readMv p d] = (t, [⟨false, d.val, v⟩], none) := by
    simp only [State.readMoves, State.readMove, hr]
  rw [State.perform_registers hm (by simp [takenMoves])]
  simp [takenMoves, Eng.written, Eng.writePort_register]

/-- A read of a port other than the lane buffers', and what it does to the engine beside the register. -/
theorem State.issueRead_reads (h : s.issues e = true) (hp : p < 512) (hl : sourceListed p = true) (hn : p ≠ 0x50 ∧ p ≠ 0x51)
    {t : State} {v : Word24} (hr : (s.startIssue e).readPort e p = (t, .ok v)) (d : Fin 32) :
    s.issueRead e p d = t.setEng e { t.engAt e with w := (t.engAt e).w.set d.val v }.retired := by
  rw [State.issueRead_attempts h hp hl d, State.attempt_perform _ _ _ (by simp [laneNeed, hn]), State.perform_read hr]

/-! ## The lane buffers (R246, R247) -/

/-- The port of LIO.A, or of LIO.B, and the bytes a read of it takes. -/
def lanePortOf (a : Bool) : Nat := if a then 0x50 else 0x51
def laneBytes (a : Bool) : Nat := if a then 3 else 1

theorem lanePortOf_facts (a : Bool) : lanePortOf a < 512 ∧ sourceListed (lanePortOf a) = true := by
  revert a
  decide

theorem State.readPort_lane (s : State) (e : EngIx) (a : Bool) : s.readPort e (lanePortOf a) = s.readLio e a := by
  cases a <;> rfl

theorem laneNeed_lane (a : Bool) (d : Fin 32) : laneNeed [readMv (lanePortOf a) d] = laneBytes a := by
  cases a <;> rfl

/-- The value of a read of LIO.A or LIO.B in buffer mode. -/
def State.laneValue (s : State) (l : Lio) (a : Bool) : Word24 :=
  BitVec.ofNat 24 (ofBytesLe ((List.range (laneBytes a)).map (fun i => s.byte (lanePort l.lane (l.off + i)))))

/-- What such a read leaves of the lane port. -/
def Lio.readOn (l : Lio) (a : Bool) : Lio := { l with off := (l.off + laneBytes a) % 2048, held := l.held - laneBytes a }

theorem State.readLio_buffer (hs : (s.engAt e).lio.sample = false) (hb : s.laneBarred e = false) (hr : s.ready 9 = true) (a : Bool) :
    s.readLio e a = (s.setEng e { s.engAt e with lio := (s.engAt e).lio.readOn a }, .ok (s.laneValue (s.engAt e).lio a)) := by
  simp only [State.readLio, Lio.readOn, hs, hb, hr]
  rfl

/-- The state once a free number of bytes has been fetched, `h` of them held. -/
def State.fetched (s : State) (e : EngIx) (h : Nat) : State :=
  ({ s with free := s.free + 1 } : State).setEng e { s.engAt e with lio := { (s.engAt e).lio with held := h } }

@[simp] theorem State.engAt_fetched (s : State) (e : EngIx) (h : Nat) :
    (s.fetched e h).engAt e = { s.engAt e with lio := { (s.engAt e).lio with held := h } } := State.engAt_setEng_same _ _ _

theorem State.laneBarred_fetched (s : State) (e : EngIx) (h : Nat) : (s.fetched e h).laneBarred e = s.laneBarred e := by
  rw [State.laneBarred, State.engAt_fetched]
  rfl

/-- A buffer that is too short for a read is refilled by a free number of bytes. -/
theorem State.prefetch_short (hs : (s.engAt e).lio.sample = false) (hb : s.laneBarred e = false) (hr : s.ready 9 = true) {a : Bool}
    (hheld : (s.engAt e).lio.held < laneBytes a) : ∃ h, (s.engAt e).lio.held ≤ h ∧ h ≤ 32 ∧
      s.prefetch e [readMv (lanePortOf a) d] = (s.fetched e h, decide (laneBytes a ≤ h)) := by
  have hle : laneBytes a ≤ 3 := by cases a <;> decide
  refine ⟨max (s.engAt e).lio.held ((s.draw 6).1 % 33), le_max_left _ _, by omega, ?_⟩
  unfold State.prefetch
  rw [laneNeed_lane, if_neg (by simp [hs, hb, hr, hheld])]
  rfl

/-- A read in buffer mode takes the bytes at hand. -/
theorem State.attempt_buffer_held {w : BitVec 48} (hs : (s.engAt e).lio.sample = false) (hb : s.laneBarred e = false)
    (hr : s.ready 9 = true) {a : Bool} (hheld : laneBytes a ≤ (s.engAt e).lio.held) :
    s.attempt e w [readMv (lanePortOf a) d] = s.setEng e { s.engAt e with
      lio := (s.engAt e).lio.readOn a, w := (s.engAt e).w.set d.val (s.laneValue (s.engAt e).lio a) }.retired := by
  have hp : s.prefetch e [readMv (lanePortOf a) d] = (s, true) := by
    simp [State.prefetch, hs, hb, hr, laneNeed_lane, hheld]
  rw [State.attempt, hp, if_pos rfl, State.perform_read (by rw [State.readPort_lane, State.readLio_buffer hs hb hr a])]
  simp

/-- A read in buffer mode with too few bytes takes them after a refill that suffices, or else waits with its engine. -/
theorem State.attempt_buffer_short {w : BitVec 48} (hs : (s.engAt e).lio.sample = false) (hb : s.laneBarred e = false)
    (hr : s.ready 9 = true) {a : Bool} (hheld : (s.engAt e).lio.held < laneBytes a) :
    ∃ h : Nat, (s.engAt e).lio.held ≤ h ∧ h ≤ 32 ∧
      (laneBytes a ≤ h → s.attempt e w [readMv (lanePortOf a) d] = { s with free := s.free + 1 }.setEng e { s.engAt e with
        lio := { (s.engAt e).lio with held := h }.readOn a, w := (s.engAt e).w.set d.val (s.laneValue (s.engAt e).lio a) }.retired) ∧
      (h < laneBytes a → ∃ st : Stall, s.attempt e w [readMv (lanePortOf a) d] = (s.fetched e h).await e st) := by
  obtain ⟨h, hmin, hmax, hp⟩ := State.prefetch_short (d := d) hs hb hr hheld
  refine ⟨h, hmin, hmax, fun hh => ?_, fun hh => ?_⟩
  · have hs' : ((s.fetched e h).engAt e).lio.sample = false := by rwa [State.engAt_fetched]
    have hb' : (s.fetched e h).laneBarred e = false := by rwa [State.laneBarred_fetched]
    rw [State.attempt, hp, if_pos (decide_eq_true hh),
      State.perform_read (by rw [State.readPort_lane, State.readLio_buffer hs' hb' hr a]), State.engAt_fetched, State.setEng_setEng,
      State.engAt_setEng_same, State.fetched, State.setEng_setEng]
    rfl
  · have hearly : ∀ t : State, t.earlyExc e (s.reg (Reg.ENG_CFG e.val)) [readMv (lanePortOf a) d] = none := fun t => by
      cases a <;> rfl
    rw [State.attempt, hp, if_neg (by simpa using hh)]
    simp only [hearly]
    exact ⟨_, rfl⟩

theorem State.await_fetched (s : State) (e : EngIx) (h : Nat) (st : Stall) :
    (((s.fetched e h).await e st).engAt e).stall.isSome = true ∧ (((s.fetched e h).await e st).engAt e).w = (s.engAt e).w := by
  rw [State.await, State.engAt_setEng_same]
  have hw : ((s.fetched e h).engAt e).w = (s.engAt e).w := by rw [State.engAt_fetched]
  exact ⟨rfl, hw⟩

/-- In sample mode nothing is waited for. -/
theorem State.attempt_sample {w : BitVec 48} (hs : (s.engAt e).lio.sample = true) {a : Bool} {t : State} {v : Word24}
    (hr : s.readLio e a = (t, .ok v)) :
    s.attempt e w [readMv (lanePortOf a) d] = t.setEng e { t.engAt e with w := (t.engAt e).w.set d.val v }.retired := by
  have hp : s.prefetch e [readMv (lanePortOf a) d] = (s, true) := by simp [State.prefetch, hs]
  rw [State.attempt, hp, if_pos rfl, State.perform_read (by rw [State.readPort_lane, hr])]

theorem State.readLio_sampleA_some (hs : (s.engAt e).lio.sample = true) {i q : BitVec 16} {rest : List (BitVec 16 × BitVec 16)}
    (hf : (s.engAt e).lio.fifo = (i, q) :: rest) : s.readLio e true =
      (s.setEng e { s.engAt e with lio := { (s.engAt e).lio with fifo := rest, lastQ := some q } }, .ok (i.signExtend 24)) := by
  unfold State.readLio
  rw [if_pos hs, if_pos rfl, hf]

theorem State.readLio_sampleA_none (hs : (s.engAt e).lio.sample = true) (hf : (s.engAt e).lio.fifo = []) :
    s.readLio e true = (s, .ok 0x800000) := by
  unfold State.readLio
  rw [if_pos hs, if_pos rfl, hf]

theorem State.readLio_sampleB_some (hs : (s.engAt e).lio.sample = true) {q : BitVec 16} (hq : (s.engAt e).lio.lastQ = some q) :
    s.readLio e false = (s, .ok (q.signExtend 24)) := by
  unfold State.readLio
  rw [if_pos hs, if_neg Bool.false_ne_true, hq]

theorem State.readLio_sampleB_none (hs : (s.engAt e).lio.sample = true) (hq : (s.engAt e).lio.lastQ = none) :
    s.readLio e false = (s, .ok 0x800000) := by
  unfold State.readLio
  rw [if_pos hs, if_neg Bool.false_ne_true, hq]

/-! ## EV.POP and TM.OFF (R250, R252) -/

theorem State.readPort_evPop_some {c : Nat} (hc : c < 256) (hp : (s.engAt e).evPend.getLsbD c = true)
    (hf : ∀ j < c, (s.engAt e).evPend.getLsbD j = false) :
    s.readPort e 0x60 = (s.setEng e { s.engAt e with evPend := (s.engAt e).evPend &&& ~~~(1#256 <<< c) },
      .ok (BitVec.ofNat 24 (0x800000 + c))) := by
  have hi : firstIdx 256 (fun c => (s.engAt e).evPend.getLsbD c) = some c :=
    List.find?_range_eq_some.mpr ⟨hp, List.mem_range.mpr hc, fun j hj => by simp [hf j hj]⟩
  simp only [State.readPort, State.popEvent, hi]
  rfl

theorem State.readPort_evPop_none (hp : (s.engAt e).evPend = 0) : s.readPort e 0x60 = (s, .ok 0) := by
  have hi : firstIdx 256 (fun c => (s.engAt e).evPend.getLsbD c) = none := by
    simp [firstIdx, hp]
  simp only [State.readPort, State.popEvent, hi]
  rfl

/-- The slot number has been captured in TM.ASN. -/
def State.asnCaptured (s : State) (e : EngIx) : State :=
  s.setEng e { s.engAt e with res := { (s.engAt e).res with asn := s.sfm.asn.setWidth 24 } }

theorem State.readPort_tmOff_stopped (hr : s.running = false) : s.readPort e 0x72 = (s.asnCaptured e, .ok 0) := by
  simp only [State.readPort, State.readSlotOffset, hr]
  rfl

theorem State.readPort_tmOff_running (hr : s.running = true) (hlt : s.sfm.offSeen < s.sfm.slotLen) :
    ∃ v, s.sfm.offSeen ≤ v ∧ v < s.sfm.slotLen ∧ s.readPort e 0x72 =
      (({ s with free := s.free + 1, sfm := { s.sfm with offSeen := v } } : State).asnCaptured e, .ok (BitVec.ofNat 24 v)) := by
  have hmod := Nat.mod_lt ((s.asnCaptured e).draw 24).1 (y := max 1 (s.sfm.slotLen - s.sfm.offSeen)) (by omega)
  refine ⟨s.sfm.offSeen + ((s.asnCaptured e).draw 24).1 % max 1 (s.sfm.slotLen - s.sfm.offSeen), Nat.le_add_right _ _, by omega, ?_⟩
  simp only [State.readPort, State.readSlotOffset, hr]
  rfl

/-- Settles O16: each read is that of its port, with what the port gives and does. -/
theorem sourceReadsIntoRegisters : Obligations.SourceReadsIntoRegisters := by
  intro s e d h g l at0 done three
  have read : ∀ {p : Nat} {t : State} {v : Word24}, p < 512 → sourceListed p = true → p ≠ 0x50 ∧ p ≠ 0x51 →
      (s.startIssue e).readPort e p = (t, .ok v) →
      (.next (s.issueRead e p d) : Out) = .next (t.setEng e { t.engAt e with w := (t.engAt e).w.set d.val v }.retired) :=
    fun hp hl hn hr => congrArg _ (State.issueRead_reads h hp hl hn hr d)
  have lane : ∀ a : Bool, s.issueRead e (lanePortOf a) d =
      (s.startIssue e).attempt e (readWord (lanePortOf a) d.val) [readMv (lanePortOf a) d] := fun a =>
    State.issueRead_attempts h (lanePortOf_facts a).1 (lanePortOf_facts a).2 d
  have stalled : ∀ (n : Nat) (st : Stall), (((((s.startIssue e).fetched e n).await e st).engAt e).stall.isSome = true) ∧
      ((((s.startIssue e).fetched e n).await e st).engAt e).w = g.w ∧ (((s.startIssue e).fetched e n).await e st).mem = s.mem ∧
      (((s.startIssue e).fetched e n).await e st).regs = s.regs := fun n st => by
    have hm := State.await_fetched (s.startIssue e) e n st
    exact ⟨hm.1, hm.2, rfl, rfl⟩
  refine ⟨fun hs hw hr => ?_, fun hs => ?_, fun c hc hfirst => ?_, fun hz => ?_, ?_, fun hrun => ?_, fun hrun hlt => ?_⟩
  · have hb : (s.startIssue e).laneBarred e = false := by
      have h1 : (s.reqNS e.val && !s.memNS at0) = false := by rcases hw with hw | hw <;> simp [hw]
      exact h1
    have hr' : (s.startIssue e).ready 9 = true := hr
    refine ⟨fun hh => ?_, fun hh => ?_, fun hh => ?_, fun hh => ?_⟩
    · exact next_congr ((lane true).trans (State.attempt_buffer_held hs hb hr' hh))
    · exact next_congr ((lane false).trans (State.attempt_buffer_held hs hb hr' hh))
    · obtain ⟨n, hmin, hmax, htake, hwait⟩ := State.attempt_buffer_short (w := readWord 0x50 d.val) (d := d) (a := true) hs hb hr' hh
      refine ⟨n, hmin, hmax, fun hn => next_congr ((lane true).trans (htake hn)), fun hn => ?_⟩
      obtain ⟨st, hst⟩ := hwait hn
      exact ⟨_, next_congr ((lane true).trans hst), stalled n st⟩
    · obtain ⟨n, -, hmax, htake, hwait⟩ := State.attempt_buffer_short (w := readWord 0x51 d.val) (d := d) (a := false) hs hb hr'
        (Nat.lt_of_le_of_lt hh.le Nat.one_pos)
      refine ⟨n, hmax, fun hn => next_congr ((lane false).trans (htake hn)), fun hn => ?_⟩
      obtain ⟨st, hst⟩ := hwait (hn.trans_lt Nat.one_pos)
      exact ⟨_, next_congr ((lane false).trans hst), stalled n st⟩
  · have sample : ∀ {a : Bool} {t : State} {v : Word24}, (s.startIssue e).readLio e a = (t, .ok v) →
        (.next (s.issueRead e (lanePortOf a) d) : Out) = .next (t.setEng e { t.engAt e with w := (t.engAt e).w.set d.val v }.retired) :=
      fun hr => congrArg _ ((lane _).trans (State.attempt_sample hs hr))
    have hs' : ((s.startIssue e).engAt e).lio.sample = true := hs
    refine ⟨fun i q rest hf => ?_, fun hf => ?_, fun q hq => ?_, fun hq => ?_⟩
    · exact (sample (State.readLio_sampleA_some hs' hf)).trans (by rw [State.setEng_setEng, State.engAt_setEng_same]; rfl)
    · exact sample (a := true) (t := s.startIssue e) (State.readLio_sampleA_none hs' hf)
    · exact sample (a := false) (t := s.startIssue e) (State.readLio_sampleB_some hs' hq)
    · exact sample (a := false) (t := s.startIssue e) (State.readLio_sampleB_none hs' hq)
  · have hpop := State.readPort_evPop_some (s := s.startIssue e) (e := e) c.isLt hc hfirst
    exact (read (by decide) (by decide) (by decide) hpop).trans
      (by rw [State.setEng_setEng, State.engAt_setEng_same]; rfl)
  · exact read (by decide) (by decide) (by decide) (State.readPort_evPop_none (s := s.startIssue e) hz)
  · exact (read (p := 0x70) (by decide) (by decide) (by decide) rfl).trans (by rw [State.setEng_setEng, State.engAt_setEng_same]; rfl)
  · exact (read (by decide) (by decide) (by decide) (State.readPort_tmOff_stopped (s := s.startIssue e) hrun)).trans
      (by rw [State.asnCaptured, State.setEng_setEng, State.engAt_setEng_same]; rfl)
  · obtain ⟨v, hmin, hmax, hread⟩ := State.readPort_tmOff_running (s := s.startIssue e) (e := e) hrun hlt
    exact ⟨v, hmin, hmax, (read (by decide) (by decide) (by decide) hread).trans
      (by rw [State.asnCaptured, State.setEng_setEng, State.engAt_setEng_same]; rfl)⟩

end Sys2Proof.Machine
end

section
/-! PROOFS. A result arrives after its unit's latency (07 R216 to R218). -/

namespace Sys2Proof.Machine

variable {s : State} {e : EngIx} {fl : Flight} {r : ResPorts} {k : Nat} {f : Eng → Eng}

theorem State.issuing_res (s : State) (e : EngIx) : (s.issuing e).res = (s.engAt e).deliverDue.res := by
  simp only [State.issuing, State.startIssue, State.engAt_setEng_same]
  split <;> rfl

theorem State.issuing_flight (s : State) (e : EngIx) : (s.issuing e).flight = (s.engAt e).deliverDue.flight := by
  simp only [State.issuing, State.startIssue, State.engAt_setEng_same]
  split <;> rfl

/-- An engine that issues, whose one result in flight is `fl`, due `k` positions on; its result ports are `r` until then. -/
structure State.Flies (s : State) (e : EngIx) (fl : Flight) (r : ResPorts) (k : Nat) : Prop where
  canIssue : s.canIssue e = true
  calm : (s.engAt e).wdPending = false
  flight : (s.engAt e).flight = [fl]
  res : (s.engAt e).res = r
  due : fl.due = (s.engAt e).pos + k

theorem State.Flies.issues (h : s.Flies e fl r k) : s.issues e = true := by simp [State.issues, h.canIssue, h.calm]

/-- Before its latency has elapsed the result stays in flight. -/
theorem State.Flies.issuing_early (h : s.Flies e fl r (k + 1)) : (s.issuing e).res = r ∧ (s.issuing e).flight = [fl] := by
  have hd : ¬fl.due ≤ (s.engAt e).pos := by rw [h.due]; omega
  simp [State.issuing_res, State.issuing_flight, Eng.deliverDue, h.flight, hd, h.res]

/-- Once it has, the next instruction finds it delivered. -/
theorem State.Flies.issuing_due (h : s.Flies e fl r 0) : (s.issuing e).res = ((s.engAt e).deliver fl).res := by
  have hd : fl.due ≤ (s.engAt e).pos := by rw [h.due]; omega
  simp [State.issuing_res, Eng.deliverDue, h.flight, hd]

/-- An instruction that leaves its engine running, one result in flight, is followed by the next. -/
theorem State.flies_afterIssue (hi : s.canIssue e = true) (hs : (f (s.issuing e)).state = .running) (hn : (f (s.issuing e)).stall = none)
    (hw : (f (s.issuing e)).wdPending = false) (hf : (f (s.issuing e)).flight = [fl]) (hr : (f (s.issuing e)).res = r)
    (hd : fl.due = (f (s.issuing e)).pos + (k + 1)) : (s.afterIssue e f).Flies e fl r k := by
  have he : (s.afterIssue e f).engAt e = (f (s.issuing e)).retired := State.engAt_setEng_same _ _ _
  refine ⟨?_, he ▸ hw, he ▸ hf, he ▸ hr, ?_⟩
  · simp only [State.canIssue, Bool.and_eq_true] at hi ⊢
    obtain ⟨⟨⟨⟨-, -⟩, h6⟩, hp⟩, ht⟩ := hi
    refine ⟨⟨⟨⟨?_, ?_⟩, h6⟩, hp⟩, ht⟩
    · simp [he, Eng.retired, hs]
    · simp [he, Eng.retired, hn]
  · rw [he, hd, Nat.add_comm k, ← Nat.add_assoc]
    rfl

theorem State.issuing_calm (hw : (s.engAt e).wdPending = false) : (s.issuing e).wdPending = false := by
  rw [State.issuing_eq]
  exact hw

theorem State.issuing_pos (s : State) (e : EngIx) : (s.issuing e).pos = (s.engAt e).pos := by
  rw [State.issuing_eq]

/-- The engine once a result port's value has come to register `d`. -/
def readResult (v : ResPorts → Word24) (d : Fin 32) (g : Eng) : Eng := { g with w := g.w.set d.val (v g.res) }

/-- The source port `p` reads the result `v`. -/
def ReadsResult (e : EngIx) (p : Nat) (v : ResPorts → Word24) : Prop :=
  (p < 512 ∧ sourceListed p = true ∧ p ≠ 0x50 ∧ p ≠ 0x51) ∧ ∀ t : State, t.readPort e p = (t, .ok (v (t.engAt e).res))

theorem State.issueRead_result {p : Nat} {v : ResPorts → Word24} (h : s.issues e = true) (hv : ReadsResult e p v) (d : Fin 32) :
    s.issueRead e p d = s.afterIssue e (readResult v d) := by
  obtain ⟨⟨hp, hl, hn⟩, hread⟩ := hv
  exact State.issueRead_reads h hp hl hn (hread _) d

/-- The register that took a result holds the port's value as the read issued. -/
theorem State.Flies.reads {p : Nat} {v : ResPorts → Word24} (h : s.Flies e fl r k) (hv : ReadsResult e p v) (d : Fin 32) :
    ((s.issueRead e p d).engAt e).w[d.val] = v (s.issuing e).res := by
  rw [State.issueRead_result h.issues hv, State.afterIssue, State.engAt_setEng_same]
  simp [readResult, Eng.retired]

/-- A read before the result is due finds the port as it stood, and brings the result one position nearer. -/
theorem State.Flies.read_early {p : Nat} {v : ResPorts → Word24} (h : s.Flies e fl r (k + 1)) (hv : ReadsResult e p v) (d : Fin 32) :
    ((s.issueRead e p d).engAt e).w[d.val] = v r ∧ (s.issueRead e p d).Flies e fl r k := by
  obtain ⟨hr, hf⟩ := h.issuing_early
  refine ⟨(h.reads hv d).trans (congrArg v hr), ?_⟩
  rw [State.issueRead_result h.issues hv]
  exact State.flies_afterIssue h.canIssue (State.issuing_state h.issues) (State.issuing_stall h.issues) (State.issuing_calm h.calm) hf hr
    (h.due.trans (by rw [← State.issuing_pos]; rfl))

/-- A read once the result is due finds it. -/
theorem State.Flies.read_due {p : Nat} {v : ResPorts → Word24} (h : s.Flies e fl r 0) (hv : ReadsResult e p v) (d : Fin 32) :
    ((s.issueRead e p d).engAt e).w[d.val] = v ((s.engAt e).deliver fl).res :=
  (h.reads hv d).trans (congrArg v h.issuing_due)

theorem readsResult_alu0 (e : EngIx) : ReadsResult e 0x40 ResPorts.alu0 := ⟨by decide, fun _ => rfl⟩
theorem readsResult_shu (e : EngIx) : ReadsResult e 0x42 ResPorts.shu := ⟨by decide, fun _ => rfl⟩
theorem readsResult_mulLo (e : EngIx) : ReadsResult e 0x43 ResPorts.mulLo := ⟨by decide, fun _ => rfl⟩

/-- The result that an operation of unit `u` and latency `k + 1` sends out from an engine with nothing in flight. -/
theorem State.flies_launch (h : s.issues e = true) (hf : (s.issuing e).flight = []) (hw : (s.engAt e).wdPending = false) {u : EUnit}
    {lo hi : Word24} {acc : BitVec 48} (hl : f (s.issuing e) = { (s.issuing e).launch u (k + 1) lo hi with acc := acc }) :
    (s.afterIssue e f).Flies e ⟨u, (s.issuing e).pos + (k + 1), lo, hi⟩ (s.issuing e).res k := by
  refine State.flies_afterIssue (State.canIssue_of_issues h) ?_ ?_ ?_ ?_ ?_ ?_ <;> rw [hl]
  · exact State.issuing_state h
  · exact State.issuing_stall h
  · exact State.issuing_calm hw
  · simp [Eng.launch, hf]
  · rfl
  · rfl

theorem extract_product_low (o t : Word24) :
    (BitVec.ofNat 48 (o.toNat * t.toNat)).extractLsb' 0 24 = BitVec.ofNat 24 (o.toNat * t.toNat) := by
  apply BitVec.eq_of_toNat_eq
  simp only [BitVec.extractLsb'_toNat, BitVec.toNat_ofNat, Nat.shiftRight_zero]
  omega

/-- Settles O28: the result flies its latency, and a read before that finds the port as it stood. -/
theorem resultsArriveAfterTheirLatency : Obligations.ResultsArriveAfterTheirLatency := by
  intro s e t d h hf hw g n
  have hadd := State.flies_launch (f := fun x => x.launch .alu0 1 (g.op.alu0O + t) 0) (k := 0) (u := .alu0) (lo := g.op.alu0O + t)
    (hi := 0) (acc := g.acc) h hf hw rfl
  have hshl := State.flies_launch (f := fun x => x.launch .shu 2 (shuOp 0 g.op.shuO g.op.shuF t) 0) (k := 1) (u := .shu)
    (lo := shuOp 0 g.op.shuO g.op.shuF t) (hi := 0) (acc := g.acc) h hf hw rfl
  have hmul := State.flies_launch
    (f := fun x => { x.launch .mul 3 ((mulOp 1 g.acc g.op.mulO t).extractLsb' 0 24) ((mulOp 1 g.acc g.op.mulO t).extractLsb' 24 24) with
      acc := mulOp 1 g.acc g.op.mulO t }) (k := 2) (u := .mul) (lo := (mulOp 1 g.acc g.op.mulO t).extractLsb' 0 24)
    (hi := (mulOp 1 g.acc g.op.mulO t).extractLsb' 24 24) (acc := mulOp 1 g.acc g.op.mulO t) h hf hw rfl
  obtain ⟨hshl1, hshl2⟩ := hshl.read_early (readsResult_shu e) d
  obtain ⟨-, hmul1⟩ := hmul.read_early (readsResult_mulLo e) d
  obtain ⟨hmul2, hmul3⟩ := hmul1.read_early (readsResult_mulLo e) d
  exact ⟨⟨_, _, _, _, next_congr (State.issueMove_alu h 0 (k := 0) (by decide) t rfl), rfl, hadd.read_due (readsResult_alu0 e) d,
    next_congr (State.issueMove_shu h (k := 0) (by decide) t rfl), rfl, hshl1, hshl2.read_due (readsResult_shu e) d⟩,
    _, next_congr (State.issueMove_mul h (k := 1) (by decide) t rfl), hmul2,
    (hmul3.read_due (readsResult_mulLo e) d).trans (extract_product_low _ t)⟩

end Sys2Proof.Machine
end

section
/-! PROOFS. Exceptions: where the engine goes on at a vectored trap, and what a refused load leaves in LSU.SDH (07 R241, R242, R253 to
R258). -/

namespace Sys2Proof.Machine

variable {s : State} {e : EngIx} {cfg : Word} {x : Exc} {b : Bool} {w : BitVec 48}

theorem Eng.foldl_deliver_res (l : List Flight) {g h : Eng} (hr : g.res = h.res) :
    (l.foldl Eng.deliver g).res = (l.foldl Eng.deliver h).res := by
  induction l generalizing g h with
  | nil => exact hr
  | cons f l ih => exact ih (by simp only [Eng.deliver, hr])

theorem Eng.drain_eq (g : Eng) : g.drain = { g with res := (g.flight.foldl Eng.deliver g).res, flight := [] } := by
  rw [Eng.drain, Eng.foldl_deliver]

/-- The engine goes on at `v` with the bank `tb` filled, everything in flight delivered and `n` cycles counted. -/
def Eng.vectored (g : Eng) (tb : TrapBank) (v n : Nat) : Eng :=
  { ({ g with seq := settled g.seq, tb := tb } : Eng).drain with seq := seqFrom v, cyc := g.cyc + BitVec.ofNat 48 n }

theorem Eng.vectored_eq (g : Eng) (tb : TrapBank) (v n : Nat) : g.vectored tb v n = { g with
    seq := seqFrom v, tb := tb, cyc := g.cyc + BitVec.ofNat 48 n, res := (g.flight.foldl Eng.deliver g).res, flight := [] } := by
  have hr := Eng.foldl_deliver_res g.flight (g := { g with seq := settled g.seq, tb := tb }) (h := g) rfl
  rw [Eng.vectored, Eng.drain_eq, ← hr]

/-- An exception with VALID clear and traps vectored, after a free number of cycles. -/
theorem State.raiseExc_vectored (hv : (s.engAt e).tbValid = false) (hc : bitAt cfg.toNat 16 = false) :
    ∃ n ≤ 4, s.raiseExc e cfg x b w = ({ s with free := s.free + 1 } : State).setEng e
      ((s.engAt e).vectored (trapBank x b w (s.engAt e).grd (settled (s.engAt e).seq)) (bitsOf cfg.toNat 0 11) n) := by
  refine ⟨((s.setEng e { s.engAt e with seq := settled (s.engAt e).seq }).draw 3).1 % 5,
    Nat.le_of_lt_succ (Nat.mod_lt _ (by decide)), ?_⟩
  have hv' : ({ s.engAt e with seq := settled (s.engAt e).seq } : Eng).tbValid = false := hv
  simp only [State.raiseExc, hv', hc]
  simp [State.draw, State.setEng, Eng.vectored]

theorem immWord_long {p : Nat} (hp : p < 1024) (t : Word24) : (immWord p t).getLsbD 47 = true := by
  have ht : t.toNat < 2 ^ 24 := t.isLt
  have hn : (immWord p t).toNat = 2 ^ 47 + p * 2 ^ 34 + t.toNat := by
    simp only [immWord, BitVec.toNat_ofNat]
    exact Nat.mod_eq_of_lt (by omega)
  rw [BitVec.getLsbD, hn, Nat.testBit_eq_decide_div_mod_eq, decide_eq_true_eq]
  omega

/-- A JUMP out of the instruction store raises the branch fault. -/
theorem State.issueMove_jumpOut (h : s.issues e = true) {t : Word24} (ht : 2048 ≤ t.toNat) :
    s.issueMove e 0xE0 t = ((s.startIssue e).onlyViolation (s.startIssue e)).raiseExc e (s.reg (Reg.ENG_CFG e.val)) (Exc.branchTo t) false
      (immWord 0xE0 t) :=
  State.issueMove_raises h (by decide) (by decide) (by decide) (by decide) (by simp [State.trigExc, ht])

/-- Settles O27: the branch fault of a JUMP, taken as a vectored trap. -/
theorem vectoredTrapEntersTheHandler : Obligations.VectoredTrapEntersTheHandler := by
  intro s e t h ht g v hv hc
  have hcfg : bitAt (s.reg (Reg.ENG_CFG e.val)).toNat 16 = false := hc
  obtain ⟨n, hn, hexc⟩ := State.raiseExc_vectored (s := (s.startIssue e).onlyViolation (s.startIssue e)) (e := e)
    (x := Exc.branchTo t) (b := false) (w := immWord 0xE0 t) hv hcfg
  refine ⟨_, n, next_congr ((State.issueMove_jumpOut h ht).trans hexc), hn, ?_⟩
  have hpack : pack [(0, 3), (4, bit01 false), (5, 1), (23, 1)] = 0x800023 := by decide
  have hlong : bit01 ((immWord 0xE0 t).getLsbD 47) = 1 := by rw [immWord_long (by decide)]; rfl
  have hcause : ∀ grd q, (trapBank (Exc.branchTo t) false (immWord 0xE0 t) grd q).cause = 0x800023 := fun grd q => by
    simp only [trapBank, Exc.branchTo, hlong, hpack]
    rfl
  have hseq : seqFrom v = [⟨v, false⟩, ⟨(v + 1) % 2048, false⟩, ⟨(v + 2) % 2048, false⟩] := by
    have hlt : v < 2048 := bitsOf_lt _ _ _
    have hnext : nextIdx (nextIdx v) = (v + 2) % 2048 := by simp only [nextIdx]; omega
    simp only [seqFrom, Nat.mod_eq_of_lt hlt, hnext]
    rfl
  rw [State.engAt_setEng_same, Eng.vectored_eq]
  exact ⟨hseq, rfl, State.issuing_state h, rfl, hcause _ _, rfl, rfl, rfl, rfl, rfl, rfl⟩

/-! ## A refused load other than LDW leaves LSU.SDH as it stood (R241) -/

/-- The stall of LDB at 0x20180000, where no target stands, of an engine whose LSU.SDH holds 5 from a load before; granted. -/
def missingByte (m : List (Nat × Word)) : Stall where
  word := immWord 0x110 0x180000
  moves := [⟨false, 0x110, 0x180000⟩]
  accs := [(false, .load .b 0x20180000)]
  stage := .granted
  undo := { res := { sdh := 5 } }
  cfg := 0x10000
  worlds := m

/-- Engine 0 after reset, RUNNING, with that load granted. -/
def missingByteGranted : State :=
  State.reset.setEng 0 { State.reset.engAt 0 with
    state := .running, res := { sdh := 5 }, stall := some (missingByte State.reset.worldMap) }

/-- LSU.SDH of engine 0 in the state that `o` goes on with. -/
def sdhOf (o : Out) : Option Word24 :=
  match o with
  | .next u => some (u.engAt 0).res.sdh
  | _ => none

theorem sdhOf_missingByte : sdhOf (exec (.sharedAccessComplete 0 0) missingByteGranted) = some 5 := by decide +kernel

/-- Refutes O26: its third part lets every failed load leave 0 in LSU.SDH, but an LDB that finds no target leaves it as it stood, here
5: LSU.SDH changes only on LDW. -/
theorem not_exceptionsFillTheTrapBank : ¬ Obligations.ExceptionsFillTheTrapBank := by
  intro h
  obtain ⟨-, -, h, -⟩ := h
  obtain ⟨hload, -⟩ := h missingByteGranted 0 (missingByte State.reset.worldMap) false 0 (.load .b 0x20180000)
    (by decide +kernel) rfl rfl (by rw [missingByteGranted, State.worldMap_setEng]; rfl) (by decide) rfl (by decide +kernel)
    (by decide +kernel) (by decide) (by decide +kernel) (by decide +kernel)
  obtain ⟨u, ⟨hu, -⟩, -, hsdh⟩ := hload .b 0x20180000 .other rfl (by decide +kernel)
  have h5 := sdhOf_missingByte
  rw [hu, sdhOf, hsdh] at h5
  exact absurd h5 (by decide)

end Sys2Proof.Machine
end

section
/-! PROOFS. Arbitration (08_engine_fabric.md R269, R270): whom a well's port and a target serve next, the turns of the requesters 64 to 70,
and the revocation of a grant. -/

namespace Sys2Proof.Machine

variable {s : State} {e : EngIx} {w j : Fin 8} {st : GrantStage} {t : Option Nat}

/-! ## The order of a round (R269) -/

/-- The first to qualify in the order of a well that follows `k`. -/
theorem find?_after8 {p : Fin 8 → Bool} {k j : Fin 8} (hj : p j = true)
    (h : ∀ d < (j.val + 7 - k.val) % 8, ∀ i : Fin 8, i.val = (k.val + 1 + d) % 8 → p i = false) : (after8 k).find? p = some j := by
  have hplace : (⟨(k.val + 1 + (j.val + 7 - k.val) % 8) % 8, Nat.mod_lt _ (by decide)⟩ : Fin 8) = j := Fin.ext (by simp only []; omega)
  rw [after8, List.find?_map, Option.map_eq_some_iff]
  refine ⟨(j.val + 7 - k.val) % 8, List.find?_range_eq_some.mpr ⟨?_, List.mem_range.mpr (by omega), fun d hd => ?_⟩, hplace⟩
  · rw [Function.comp_apply, hplace, hj]
  · rw [Function.comp_apply, h d hd _ rfl]
    rfl

/-- The first well port to qualify in the order of a target's round that follows place `k`. -/
theorem find?_portsAfter {p : Fin 8 → Bool} {k : Fin 15} {w : Fin 8} (hw : p w = true)
    (h : ∀ d < (w.val + 14 - k.val) % 15, ∀ v : Fin 8, v.val = (k.val + 1 + d) % 15 → p v = false) :
    (portsAfter k).find? p = some w := by
  have hplace : (k.val + 1 + (w.val + 14 - k.val) % 15) % 15 = w.val := by omega
  have hfound : (List.range 15).find? (fun i => ((if h : (k.val + 1 + i) % 15 < 8 then some (⟨(k.val + 1 + i) % 15, h⟩ : Fin 8)
      else none).any p)) = some ((w.val + 14 - k.val) % 15) := by
    refine List.find?_range_eq_some.mpr ⟨?_, List.mem_range.mpr (by omega), fun d hd => ?_⟩
    · simpa only [hplace, w.isLt, dif_pos, Option.any_some] using hw
    · by_cases hv : (k.val + 1 + d) % 15 < 8
      · rw [dif_pos hv, Option.any_some, h d hd ⟨_, hv⟩ rfl]
        rfl
      · rw [dif_neg hv]
        rfl
  rw [portsAfter, List.find?_filterMap, hfound]
  simp only [Option.bind_some, hplace, w.isLt, dif_pos]

/-! ## Who may be served (R269, R270) -/

theorem State.placeAt_eq_none (h : s.waitsAt e st = none ∨ (t ≠ none ∧ s.waitsAt e st ≠ t)) : s.placeAt e st t = none := by
  unfold State.placeAt
  split
  · exact if_pos h
  · rfl

theorem State.waitsAt_eq_some {n : Nat} (h : s.waitsAt e st = some n) : ∃ x : Stall, (s.engAt e).stall = some x ∧ x.stage = st := by
  unfold State.waitsAt at h
  split at h
  · next x hx =>
    by_cases hst : x.stage = st
    · exact ⟨x, hx, hst⟩
    · simp [hst] at h
  · cases h

/-- The access of an engine that stands at stage `st` has the place in which it came there. -/
theorem State.placeAt_eq_some {x : Stall} (hx : (s.engAt e).stall = some x) (hw : s.waitsAt e st ≠ none)
    (ht : t = none ∨ s.waitsAt e st = t) : s.placeAt e st t = some x.since := by
  simp only [State.placeAt, hx]
  refine if_neg ?_
  rintro (h | ⟨hne, h⟩)
  · exact hw h
  · exact ht.elim hne h

/-- The first of a well is one that no other engine of the well has come before. -/
theorem State.firstOf_iff {n : Nat} (hj : s.placeAt (wellEngine w j) st t = some n) : s.firstOf w j st t = true ↔
    ∀ i : Fin 8, i ≠ j → ∀ m, s.placeAt (wellEngine w i) st t = some m → n ≤ m := by
  simp only [State.firstOf, hj, List.all_eq_true, List.mem_finRange, true_implies, Bool.or_eq_true, beq_iff_eq, or_iff_not_imp_left]
  refine forall_congr' fun i => imp_congr_right fun _ => ?_
  cases s.placeAt (wellEngine w i) st t <;> simp

theorem State.firstOf_of_not_waiting (h : s.placeAt (wellEngine w j) st t = none) : s.firstOf w j st t = false := by
  rw [State.firstOf, h]

/-- A port may pass the access of an engine that waits, unless its grant was revoked and others have waited for longer. -/
theorem State.mayPass_of_waits (h : (s.waitsAt (wellEngine w j) .waiting).isSome = true)
    (hr : ∀ x : Stall, (s.engAt (wellEngine w j)).stall = some x → x.revoked = false ∨
      ∀ (i : Fin 8) (y : Stall), (s.engAt (wellEngine w i)).stall = some y → y.stage = .waiting → x.since ≤ y.since) :
    s.mayPass w j = true := by
  obtain ⟨n, hn⟩ := Option.isSome_iff_exists.mp h
  obtain ⟨x, hx, -⟩ := State.waitsAt_eq_some hn
  have hrev : s.revokedAt (wellEngine w j) = x.revoked := by rw [State.revokedAt, hx]
  rw [State.mayPass, h, hrev, Bool.true_and, Bool.or_eq_true, Bool.not_eq_true']
  refine (hr x hx).imp_right fun hfirst => (State.firstOf_iff (State.placeAt_eq_some hx (by simp [hn]) (.inl rfl))).mpr ?_
  intro i _ m hm
  cases hwait : s.waitsAt (wellEngine w i) .waiting with
  | none => rw [State.placeAt_eq_none (.inl hwait)] at hm; cases hm
  | some q =>
    obtain ⟨y, hy, hstage⟩ := State.waitsAt_eq_some hwait
    rw [State.placeAt_eq_some hy (by simp [hwait]) (.inl rfl), Option.some_inj] at hm
    exact hm ▸ hfirst i y hy hstage

theorem State.mayPass_of_not_waiting (h : s.waitsAt (wellEngine w j) .waiting = none) : s.mayPass w j = false := by
  rw [State.mayPass, h]
  rfl

/-- The only engine of a well whose access stands at a target is the well's first there. -/
theorem State.firstOf_alone {n : Nat} (h : s.waitsAt (wellEngine w j) st = some n)
    (halone : ∀ i : Fin 8, i ≠ j → s.waitsAt (wellEngine w i) st ≠ some n) : s.firstOf w j st (some n) = true := by
  obtain ⟨x, hx, -⟩ := State.waitsAt_eq_some h
  refine (State.firstOf_iff (State.placeAt_eq_some hx (by simp [h]) (.inr h))).mpr fun i hi m hm => ?_
  rw [State.placeAt_eq_none (.inr ⟨Option.some_ne_none n, halone i hi⟩)] at hm
  cases hm

theorem State.firstOf_elsewhere {n : Nat} (h : s.waitsAt (wellEngine w j) st ≠ some n) : s.firstOf w j st (some n) = false :=
  State.firstOf_of_not_waiting (State.placeAt_eq_none (.inr ⟨Option.some_ne_none n, h⟩))

/-! ## GRANT (R269) -/

theorem exec_grant (x : Arbiter) (s : State) : exec (.grant x) s = execGrant x s := rfl

/-- The port of a well passes the next engine that waits. -/
theorem exec_grant_port (hpass : s.mayPass w j = true) (h : ∀ d < (j.val + 7 - (s.wellLast[w.val]).val) % 8,
    ∀ i : Fin 8, i.val = ((s.wellLast[w.val]).val + 1 + d) % 8 → s.waitsAt (wellEngine w i) .waiting = none) :
    exec (.grant (.port w)) s = .next { s.setStage (wellEngine w j) .atTarget with wellLast := s.wellLast.set w.val j } := by
  have hfind := find?_after8 hpass (fun d hd i hi => State.mayPass_of_not_waiting (h d hd i hi))
  rw [exec_grant]
  simp only [execGrant, hfind]

/-- A target serves the next well port whose access stands there. -/
theorem exec_grant_target {n : Fin 32} (hat : s.waitsAt (wellEngine w j) .atTarget = some n.val)
    (halone : ∀ i : Fin 8, i ≠ j → s.waitsAt (wellEngine w i) .atTarget ≠ some n.val)
    (h : ∀ d < (w.val + 14 - (s.targetLast[n.val]).val) % 15,
      ∀ v i : Fin 8, v.val = ((s.targetLast[n.val]).val + 1 + d) % 15 → s.waitsAt (wellEngine v i) .atTarget ≠ some n.val) :
    exec (.grant (.target n)) s = .next { s.setStage (wellEngine w j) .granted with
      targetLast := s.targetLast.set n.val ⟨w.val, by omega⟩ } := by
  have hfirst : s.firstOf w j .atTarget (some n.val) = true := State.firstOf_alone hat halone
  have hport := find?_portsAfter (p := fun w => (List.finRange 8).any (fun j => s.firstOf w j .atTarget (some n.val))) (w := w)
    (k := s.targetLast[n.val]) (List.any_eq_true.mpr ⟨j, List.mem_finRange j, hfirst⟩)
    (fun d hd v hv => List.any_eq_false.mpr fun i _ => by rw [State.firstOf_elsewhere (h d hd v i hv)]; decide)
  have hengine : (List.finRange 8).find? (fun j => s.firstOf w j .atTarget (some n.val)) = some j := by
    obtain ⟨i, hi⟩ := Option.isSome_iff_exists.mp (List.find?_isSome (p := fun j => s.firstOf w j .atTarget (some n.val)).mpr ⟨j, List.mem_finRange j, hfirst⟩)
    have hserved := List.find?_some hi
    by_cases hij : i = j
    · exact hij ▸ hi
    · simp [State.firstOf_elsewhere (halone i hij)] at hserved
  rw [exec_grant]
  simp only [execGrant, hport, hengine]
  rfl

/-! ## GRANT_REVOKE (R270) -/

theorem exec_grantRevoke {x : Stall} (hx : (s.engAt e).stall = some x) : exec (.grantRevoke e) s =
    .next (if x.stage ≠ .waiting ∧ x.accs ≠ [] then
      (({ s with arb := s.arb + 1 } : State).setEng e { s.engAt e with
        stall := some { x with stage := .waiting, since := s.arb, revoked := true } }).bump (F.ENG_REVOKE_COUNT e.val)
    else s) := by
  have hdef : exec (.grantRevoke e) s = execGrantRevoke e s := rfl
  rw [hdef]
  simp only [execGrantRevoke, hx]

/-! ## Turns of the requesters 64 to 70 (R269; log entry 122) -/

theorem turnOf_requester : ∀ p : Fin 7, turnOf (64 + p.val) = some ⟨8 + p.val, by omega⟩ := by decide

theorem State.portWaits_iff {n : Nat} : s.portWaits n w = true ↔ ∃ i : Fin 8, s.waitsAt (wellEngine w i) .atTarget = some n := by
  simp [State.portWaits]

/-- A requester's access takes its turn, unless a well port that stands before it has an access there. -/
theorem State.takeTurn_requester (s : State) (n : Fin 32) (p : Fin 7) : s.takeTurn (64 + p.val) n.val =
    if (List.finRange 8).any (fun v => decide ((v.val + 14 - (s.targetLast[n.val]).val) % 15 <
      (8 + p.val + 14 - (s.targetLast[n.val]).val) % 15) && s.portWaits n.val v) = true then s
    else { s with targetLast := s.targetLast.set n.val ⟨8 + p.val, by omega⟩ } := by
  simp only [State.takeTurn, turnOf_requester, dif_pos n.isLt]

/-- Settles O25: a grant by the order of the round that it goes by, a turn by who stands before the requester in it. -/
theorem grantsGoRoundRobin : Obligations.GrantsGoRoundRobin := by
  refine ⟨fun s w j => ⟨fun hwait hnext hrev => exec_grant_port (State.mayPass_of_waits hwait hrev) hnext, fun x hx hst hacc => ?_,
    fun x hx hst => ?_⟩, fun s n w j => exec_grant_target, fun s n p => ?_, State.takeTurn_engine⟩
  · rw [exec_grantRevoke hx, if_pos ⟨hst, hacc⟩]
    rfl
  · rw [exec_grantRevoke hx, if_neg (fun h => h.1 hst)]
  · dsimp only
    rw [State.takeTurn_requester]
    simp only [List.any_eq_true, List.mem_finRange, true_and, Bool.and_eq_true, decide_eq_true_eq, State.portWaits_iff, exists_and_left]
    exact ⟨fun h => if_neg h, fun h => if_pos h⟩

end Sys2Proof.Machine
end

section
/-! PROOFS. Event channels (08_engine_fabric.md R272 to R274): what an event does as it arrives. -/

namespace Sys2Proof.Machine

variable {s : State} {e : EngIx} {ch p : Nat} {rest : List EvFlight}

theorem engNo_val : ∀ e : EngIx, engNo e.val = some e := by decide +kernel

/-! ## The consumer of an accepted event (R273) -/

/-- The host's pending bit sets, or DROP counts. -/
theorem State.deliverEvent_host (h : s.get (F.EVC_CH_CONS ch) = 64) : s.deliverEvent ch =
    if s.bit (Reg.EVC_HPEND (ch / 32)) (ch % 32) then s.bump (F.EVC_DROP_COUNT ch)
    else s.setBit (Reg.EVC_HPEND (ch / 32)) (ch % 32) true := by
  simp only [State.deliverEvent, h, if_true]

/-- The engine's pending bit sets, or DROP counts. -/
theorem State.deliverEvent_engine (h : s.get (F.EVC_CH_CONS ch) = e.val) : s.deliverEvent ch =
    if (s.engAt e).evPend.getLsbD ch then s.bump (F.EVC_DROP_COUNT ch)
    else s.setEng e { s.engAt e with evPend := (s.engAt e).evPend ||| (1#256 <<< ch) } := by
  have hno : (List.finRange 64).find? (fun x => x.val == e.val) = some e := engNo_val e
  simp only [State.deliverEvent, h, hno, if_neg (show e.val ≠ 64 by omega)]

/-! ## Which events are accepted (R272, R274) -/

theorem exec_eventArrival (s : State) : exec .eventArrival s = execEventArrival s := rfl

theorem State.channelOpen_iff : s.channelOpen ch = true ↔ s.get (F.EVC_CH_EN ch) = 1 ∧ s.get (F.EVC_CH_CONS ch) ≤ 64 := by
  simp [State.channelOpen, State.flag_eq]

/-- One from software, and one of the producer that an open channel names. -/
theorem exec_eventArrival_accepted (h : s.events = .sw ch :: rest ∨ (∃ p : Nat, s.events = .hw p ch :: rest ∧
      s.get (F.EVC_CH_EN ch) = 1 ∧ s.get (F.EVC_CH_CONS ch) ≤ 64 ∧ s.get (F.EVC_CH_PROD ch) = p)) :
    exec .eventArrival s = .next (({ s with events := rest } : State).deliverEvent ch) := by
  rw [exec_eventArrival]
  rcases h with h | ⟨p, h, hen, hcons, hprod⟩
  · simp only [execEventArrival, h]
  · have hopen : ({ s with events := rest } : State).channelOpen ch = true := State.channelOpen_iff.mpr ⟨hen, hcons⟩
    have hnamed : ({ s with events := rest } : State).get (F.EVC_CH_PROD ch) = p := hprod
    simp only [execEventArrival, h, hopen, hnamed, Bool.not_true, Bool.false_eq_true, if_false, if_true]

/-- An event of another hardware producer at an open channel is stray. -/
theorem exec_eventArrival_stray (h : s.events = .hw p ch :: rest) (hen : s.get (F.EVC_CH_EN ch) = 1)
    (hcons : s.get (F.EVC_CH_CONS ch) ≤ 64) (hprod : s.get (F.EVC_CH_PROD ch) ≠ p) :
    exec .eventArrival s = .next (({ s with events := rest } : State).strayEvent p ch) := by
  have hopen : ({ s with events := rest } : State).channelOpen ch = true := State.channelOpen_iff.mpr ⟨hen, hcons⟩
  have hother : ¬({ s with events := rest } : State).get (F.EVC_CH_PROD ch) = p := hprod
  rw [exec_eventArrival]
  simp only [execEventArrival, h, hopen, hother, Bool.not_true, Bool.false_eq_true, if_false]

/-- A hardware event at a channel that takes none is gone. -/
theorem exec_eventArrival_closed (h : s.events = .hw p ch :: rest)
    (hclosed : s.get (F.EVC_CH_EN ch) ≠ 1 ∨ 64 < s.get (F.EVC_CH_CONS ch)) :
    exec .eventArrival s = .next { s with events := rest } := by
  have hopen : ({ s with events := rest } : State).channelOpen ch = false := by
    rw [Bool.eq_false_iff, ne_eq, State.channelOpen_iff]
    exact fun ⟨hen, hcons⟩ => hclosed.elim (fun hne => hne hen) (fun hlt => absurd hcons (not_le.mpr hlt))
  rw [exec_eventArrival]
  simp only [execEventArrival, h, hopen, Bool.not_false, if_true]

/-- A stray event fills EVC_STRAY while that is not VALID, and sets its OVF otherwise. -/
theorem State.strayEvent_eq (s : State) (p ch : Nat) : s.strayEvent p ch =
    if s.flag F.EVC_STRAY_VALID then s.put F.EVC_STRAY_OVF 1
    else ((s.put F.EVC_STRAY_SOURCE p).put F.EVC_STRAY_CH ch).put F.EVC_STRAY_VALID 1 := rfl

/-- Settles O37: an accepted event by its channel's consumer, any other by what the channel takes. -/
theorem eventsArrive : Obligations.EventsArrive := by
  refine ⟨fun s h => by rw [exec_eventArrival, execEventArrival, h], fun s rest ch => ⟨fun haccepted => ⟨fun hcons => ?_, fun e hcons => ?_⟩,
    fun p h => ⟨exec_eventArrival_closed h, fun hen hcons hprod => ?_⟩⟩⟩
  · have hhost : ({ s with events := rest } : State).get (F.EVC_CH_CONS ch.val) = 64 := hcons
    rw [exec_eventArrival_accepted haccepted, State.deliverEvent_host hhost]
    exact ⟨fun hfree => congrArg _ (if_neg (Bool.eq_false_iff.mp hfree)), fun hbusy => congrArg _ (if_pos hbusy)⟩
  · have hengine : ({ s with events := rest } : State).get (F.EVC_CH_CONS ch.val) = e.val := hcons
    rw [exec_eventArrival_accepted haccepted, State.deliverEvent_engine hengine]
    exact ⟨fun hfree => congrArg _ (if_neg (Bool.eq_false_iff.mp hfree)), fun hbusy => congrArg _ (if_pos hbusy)⟩
  · rw [exec_eventArrival_stray h hen hcons hprod, State.strayEvent_eq]
    exact ⟨fun hfree => congrArg _ (if_neg (Bool.eq_false_iff.mp hfree)), fun hheld => congrArg _ (if_pos hheld)⟩

end Sys2Proof.Machine
end

section
/-! PROOFS. Commands to the engines (08_engine_fabric.md R261 to R267, R271): LOAD, START, HALT, FORCE, ENG_PC, ENG_WDT, and words written
to an instruction store. -/

namespace Sys2Proof.Machine

variable {s : State} {e : EngIx} {r a n m : Nat} {v : Word}

/-! ## Registers of block 6 that a write commands -/

def engCtlRow : RegRow := ⟨Reg.ENG_CTL 0, 0x400, 64, 4, 1, .single, 0, 0, 0, 0, 0, 0xF, 0, 0, 0⟩
def engPcRow : RegRow := ⟨Reg.ENG_PC 0, 0x400, 64, 4, 1, .single, 0, 0, 0, 0, 0, 0, 0, 0, 0⟩
def engWdtRow : RegRow := ⟨Reg.ENG_WDT 0, 0x400, 64, 4, 1, .single, 0xFFFF, 0, 0, 0, 0, 0, 0, 0, 0⟩

theorem directAt_engCtl : ∀ e : EngIx, engCtlRow.DirectAt (Reg.ENG_CTL e.val) := by decide +kernel
theorem directAt_engPc : ∀ e : EngIx, engPcRow.DirectAt (Reg.ENG_PC e.val) := by decide +kernel
theorem directAt_engWdt : ∀ e : EngIx, engWdtRow.DirectAt (Reg.ENG_WDT e.val) := by decide +kernel

/-- A write to the register at offset `n` of engine `e` that goes through. -/
theorem State.command32_engine {x : RegRow} (hx : x.DirectAt a) (ha : a = 0x20060000 + 0x400 * e.val + n) (hn : n < 0x400)
    (h : s.admits r a true = true) (v : Word) :
    s.command32 r a v = (let c := s.served r a
      if n = 0x00 then c.engineCtl e v
      else if n = 0x08 then c.engineStat e v
      else if n = 0x0C then c.enginePc e v
      else if n = 0x14 then c.engineWdt e v
      else c.setReg a (x.written (s.locked a) (s.reg a) v)).answered 0 := by
  have hlt := e.isLt
  have hblock : keyBlock a = 6 := by
    rw [keyBlock]
    omega
  have hengine : a % 0x10000 / 0x400 = e.val := by omega
  have hoffset : a % 0x400 = n := by omega
  rw [State.command32_direct hx h]
  simp only [State.wrote, hblock, State.wroteEng, hengine, engNo_val, hoffset, State.answerWrite_none]

theorem State.command32_engCtl (h : s.admits r (Reg.ENG_CTL e.val) true = true) (v : Word) :
    s.command32 r (Reg.ENG_CTL e.val) v = ((s.served r (Reg.ENG_CTL e.val)).engineCtl e v).answered 0 :=
  State.command32_engine (n := 0x00) (directAt_engCtl e) rfl (by decide) h v

theorem State.command32_engPc (h : s.admits r (Reg.ENG_PC e.val) true = true) (v : Word) :
    s.command32 r (Reg.ENG_PC e.val) v = ((s.served r (Reg.ENG_PC e.val)).enginePc e v).answered 0 :=
  State.command32_engine (n := 0x0C) (directAt_engPc e) (by simp only [Reg.ENG_PC]; omega) (by decide) h v

theorem State.command32_engWdt (h : s.admits r (Reg.ENG_WDT e.val) true = true) (v : Word) :
    s.command32 r (Reg.ENG_WDT e.val) v = ((s.served r (Reg.ENG_WDT e.val)).engineWdt e v).answered 0 :=
  State.command32_engine (n := 0x14) (directAt_engWdt e) (by simp only [Reg.ENG_WDT]; omega) (by decide) h v

theorem exec_load {r : Req} (h : s.admits r.val (Reg.ENG_CTL e.val) true = true) :
    exec (.load r e) s = .next (((s.served r.val (Reg.ENG_CTL e.val)).loadEngine e).answered 0) :=
  congrArg Host.Outcome.next (State.command32_engCtl h 8)

theorem exec_start {r : Req} (h : s.admits r.val (Reg.ENG_CTL e.val) true = true) :
    exec (.start r e) s = .next (((s.served r.val (Reg.ENG_CTL e.val)).startEngine e).answered 0) :=
  congrArg Host.Outcome.next (State.command32_engCtl h 1)

theorem exec_halt {r : Req} (h : s.admits r.val (Reg.ENG_CTL e.val) true = true) :
    exec (.halt r e) s = .next (((s.served r.val (Reg.ENG_CTL e.val)).haltEngine e).answered 0) :=
  congrArg Host.Outcome.next (State.command32_engCtl h 2)

theorem exec_force {r : Req} (h : s.admits r.val (Reg.ENG_CTL e.val) true = true) :
    exec (.force r e) s = .next (((s.served r.val (Reg.ENG_CTL e.val)).forceEngine e).answered 0) :=
  congrArg Host.Outcome.next (State.command32_engCtl h 4)

theorem exec_engPcWrite {r : Req} (h : s.admits r.val (Reg.ENG_PC e.val) true = true) (x : BitVec 11) :
    exec (.engPcWrite r e x) s = .next (((s.served r.val (Reg.ENG_PC e.val)).enginePc e (x.setWidth 32)).answered 0) :=
  congrArg Host.Outcome.next (State.command32_engPc h _)

theorem exec_engWdtWrite {r : Req} (h : s.admits r.val (Reg.ENG_WDT e.val) true = true) (v : BitVec 16) :
    exec (.engWdtWrite r e v) s = .next (((s.served r.val (Reg.ENG_WDT e.val)).engineWdt e (v.setWidth 32)).answered 0) :=
  congrArg Host.Outcome.next (State.command32_engWdt h _)

/-! ## LOAD and START (R261) -/

theorem State.loadEngine_refused (h : (s.engAt e).state ≠ .halted) :
    s.loadEngine e = s.setEng e { s.engAt e with refused := true } := if_pos (bne_iff_ne.mpr h)

theorem State.loadEngine_halted (h : (s.engAt e).state = .halted) : s.loadEngine e =
    ((s.setEng e { why := (s.engAt e).why, wdx := (s.engAt e).wdx, refused := (s.engAt e).refused,
                   haltForced := (s.engAt e).haltForced, rstack := (s.engAt e).rstack, rtop := (s.engAt e).rtop,
                   loaded := true }).orphanLocks (fun h => h == e.val)).showSeq e :=
  if_neg (by simp [h])

theorem State.startEngine_loaded (hs : (s.engAt e).state = .halted) (hl : (s.engAt e).loaded = true) :
    s.startEngine e = { s.setEng e { s.engAt e with
      state := .running, wdx := false, cyc := BitVec.ofNat 48 (Config.freeNat s.free % 2 ^ 48) } with free := s.free + 1 } := by
  simp only [State.startEngine, hs, hl, if_true]
  rfl

theorem State.startEngine_refused (h : (s.engAt e).state = .halting ∨ ((s.engAt e).state = .halted ∧ (s.engAt e).loaded = false)) :
    s.startEngine e = s.setEng e { s.engAt e with refused := true } := by
  rcases h with h | ⟨h, hl⟩
  · simp only [State.startEngine, h]
  · simp only [State.startEngine, h, hl, Bool.false_eq_true, if_false]

/-! ## Orders to halt (R263, R266, R267) -/

/-- A halt ordered while no stall has lasted beyond its limit. -/
theorem State.orderHalt_within (h : ∀ x ∈ (s.engAt e).stall, x.beyond = false) (why : Nat) (forced : Bool) :
    s.orderHalt e why forced = s.setEng e { s.engAt e with
      state := .halting, why := why, forced := (s.engAt e).forced || forced, wdPending := (s.engAt e).wdPending && !forced } := by
  unfold State.orderHalt
  dsimp only
  split
  · next x hx => rw [h x hx, if_neg Bool.false_ne_true]
  · rfl

theorem State.haltEngine_running (h : (s.engAt e).state = .running) : s.haltEngine e = s.orderHalt e 1 false := if_pos (by simp [h])

theorem State.forceEngine_active (h : (s.engAt e).state ≠ .halted) : s.forceEngine e = s.orderHalt e 5 true := if_neg (by simpa using h)

/-! ## ENG_PC and ENG_WDT (R264, R271) -/

theorem seqFrom_index (x : BitVec 11) : seqFrom x.toNat =
    [⟨x.toNat, false⟩, ⟨(x.toNat + 1) % 2048, false⟩, ⟨(x.toNat + 2) % 2048, false⟩] := by
  have hx : x.toNat % 2048 = x.toNat := Nat.mod_eq_of_lt x.isLt
  have hnext : ((x.toNat + 1) % 2048 + 1) % 2048 = (x.toNat + 2) % 2048 := by omega
  simp only [seqFrom, nextIdx, hx, hnext]

theorem State.enginePc_halted (h : (s.engAt e).state = .halted) (x : BitVec 11) : s.enginePc e (x.setWidth 32) =
    (s.setEng e { s.engAt e with
      seq := [⟨x.toNat, false⟩, ⟨(x.toNat + 1) % 2048, false⟩, ⟨(x.toNat + 2) % 2048, false⟩] }).showSeq e := by
  have hindex : bitsOf (x.setWidth 32 : Word).toNat 0 11 = x.toNat := by rw [toNat_setWidth_word x (by decide), bitsOf_whole]
  simp only [State.enginePc, h, hindex, seqFrom_index, beq_self_eq_true, if_true]

theorem State.engineWdt_eq (s : State) (e : EngIx) (v : BitVec 16) : s.engineWdt e (v.setWidth 32) =
    (s.put (F.ENG_WDT_LIMIT e.val) v.toNat).setEng e { s.engAt e with wdx := false } := by
  rw [State.engineWdt, toNat_setWidth_word v (by decide)]
  rfl

/-- Settles O20: each command is the write of its register, and what that does by the engine's state is its lemma above. -/
theorem engineControlCommands : Obligations.EngineControlCommands := by
  intro s r e g c
  have hg : c.engAt e = g := State.served_engAt ..
  refine ⟨fun h => ⟨fun hst => ?_, fun hst hl => ?_, fun hst hstall => ?_, fun hst hstall => ?_⟩, fun x h hst => ?_, fun v h => ?_⟩
  · rw [exec_load h, State.loadEngine_halted (hg ▸ hst), hg]
  · refine ⟨BitVec.ofNat 48 (Config.freeNat c.free % 2 ^ 48), ?_⟩
    rw [exec_start h, State.startEngine_loaded (hg ▸ hst) (hg ▸ hl), hg, State.served_free]
  · rw [exec_halt h, State.haltEngine_running (hg ▸ hst), State.orderHalt_within (hg ▸ hstall), hg, Bool.or_false, Bool.not_false,
      Bool.and_true]
  · rw [exec_force h, State.forceEngine_active (hg ▸ hst), State.orderHalt_within (hg ▸ hstall), hg, Bool.or_true, Bool.not_true,
      Bool.and_false]
  · rw [exec_engPcWrite h, State.enginePc_halted (by rwa [State.served_engAt]), State.served_engAt]
  · rw [exec_engWdtWrite h, State.engineWdt_eq, State.served_engAt]

/-! ## Words written to an instruction store (R262) -/

/-- An address in the instruction store of engine `e` (01 R13, R15). -/
abbrev inStoreOf (e : EngIx) (a : Nat) : Prop := 0x10600000 + 0x6000 * e.val ≤ a ∧ a < 0x10600000 + 0x6000 * e.val + 0x3000

theorem placeOf_store (h : inStoreOf e a) : placeOf a = .engMem e.val := by
  have hlt := e.isLt
  have hindex : (a - 0x10600000) / 0x6000 = e.val := by omega
  rw [placeOf, if_neg (by omega), if_neg (by omega), if_neg (by omega), if_neg (by omega), if_neg (by omega), if_pos (by omega), hindex]

theorem storeOwner_store (h : inStoreOf e a) : storeOwner a = some e := by
  simp only [storeOwner, placeOf_store h, engNo_val, if_pos (show (a - 0x10600000) % 0x6000 < 0x3000 by omega)]

theorem State.memNS_store (h : inStoreOf e a) : s.memNS a = s.engNS e.val := by rw [State.memNS, placeOf_store h]

/-- A store that its world may make: only the store of a HALTED engine takes it. -/
theorem State.store_instructions (h : inStoreOf e a) (hready : s.ready 6 = true) (hopen : s.reqNS r = false ∨ s.engNS e.val = true) :
    s.store r a n m = if (s.engAt e).state = .halted then
        (((s.takeTurn r (targetOf a)).setEng e { s.engAt e with loaded := false }).storeBytes (isHost r) a (bytesLe n m), none)
      else ((s.takeTurn r (targetOf a)).setEng e { s.engAt e with refused := true }, some .other) := by
  have hbar : (s.reqNS r && !s.engNS e.val) = false := by rcases hopen with hns | hns <;> simp [hns]
  have hturn : (s.takeTurn r (targetOf a)).engAt e = s.engAt e := by rw [State.takeTurn_eq]; rfl
  simp only [State.store, State.storePlace, State.writeMet, State.storeAllowed, State.placeReady, placeOf_store h, storeOwner_store h,
    State.memNS_store h, hbar, hready, hturn, beq_iff_eq, Bool.not_true, Bool.false_eq_true, if_false]
  by_cases hst : (s.engAt e).state = .halted <;> simp [hst]

/-- INSTRUCTION_STORE_WRITE of a word of the store. -/
theorem exec_instructionStoreWrite {r : Req} (h : inStoreOf e a) (ha : a % 4 = 0) (hr : s.canReach r.val = true) (v : Word) :
    exec (.instructionStoreWrite r (BitVec.ofNat 32 a) v) s = .next (State.answerWrite (s.store r.val a 4 v.toNat) r.val a) := by
  have haddr : (BitVec.ofNat 32 a).toNat = a := toNat_address (by omega)
  have hin : inStore a = true := by simp only [inStore, placeOf_store h, decide_eq_true_eq]; omega
  have hdef : exec (.instructionStoreWrite r (BitVec.ofNat 32 a) v) s = execInstructionStoreWrite r (BitVec.ofNat 32 a) v s := rfl
  rw [hdef, execInstructionStoreWrite, haddr, if_pos hin, State.command32_word ha hr]

/-- The error status of a port leaves memory and engines alone. -/
theorem State.portError_mem (s : State) (r a : Nat) : (s.portError r a).mem = s.mem := by
  unfold State.portError
  dsimp only
  split_ifs <;> rfl

theorem State.portError_engAt (s : State) (r a : Nat) (e : EngIx) : (s.portError r a).engAt e = s.engAt e := by
  unfold State.portError
  dsimp only
  split_ifs <;> rfl

/-- Settles O21: a refusal sets REFUSED alone, and a refused store fails besides. -/
theorem engineControlRefusals : Obligations.EngineControlRefusals := by
  intro s r e g c refused
  have hg : c.engAt e = g := State.served_engAt ..
  refine ⟨fun h => ⟨fun hst => ?_, fun hst => ?_⟩, fun n v hn hr hready hopen hst => ?_⟩
  · rw [exec_load h, State.loadEngine_refused (hg ▸ hst), hg]
  · rw [exec_start h, State.startEngine_refused (hg ▸ hst), hg]
  · have hin : inStoreOf e (0x10600000 + 0x6000 * e.val + 4 * n) := ⟨by omega, by omega⟩
    refine ⟨_, exec_instructionStoreWrite hin (by omega) hr v, ?_⟩
    rw [State.store_instructions hin hready hopen, if_neg hst, State.answerWrite_error]
    refine ⟨rfl, (State.portError_mem ..).trans (State.takeTurn_mem ..), (State.portError_engAt ..).trans ?_⟩
    rw [State.engAt_setEng_same]

/-! ## The bytes of a word in an instruction store (01 R15, R16) -/

theorem State.storeByte_instructions (h : inStoreOf e a) (load : Bool) (b : Byte) :
    s.storeByte load a b = (s.putByte a b).markGroup load a := by
  have hlt := e.isLt
  have hin : inEngMem a = true := decide_eq_true (by omega)
  rw [State.storeByte, if_neg (by omega), hin, if_pos rfl]

/-- Settles O22: the word's four bytes, one after the other. -/
theorem instructionStoreIsWritten : Obligations.InstructionStoreIsWritten := by
  intro s r e n v hn hr hready hopen hst a b put
  have hin (i : Nat) (hi : i < 4) : inStoreOf e (a + i) := ⟨by omega, by omega⟩
  have hbyte (u : State) (i : Nat) (hi : i < 4) : u.storeByte (isHost r.val) (a + i) (b i) = put u i :=
    State.storeByte_instructions (hin i hi) ..
  have hbytes : bytesLe 4 v.toNat = [b 0, b 1, b 2, b 3] := by
    simp only [bytesLe, b, Nat.div_div_eq_div_mul, pow_zero, Nat.div_one, pow_one, Nat.reducePow, Nat.reduceMul]
  have hhere : inStoreOf e a := hin 0 (by decide)
  rw [exec_instructionStoreWrite hhere (by omega) hr v, State.store_instructions hhere hready hopen, if_pos hst,
    State.answerWrite_none, hbytes, ← hbyte _ 0 (by decide), ← hbyte _ 1 (by decide), ← hbyte _ 2 (by decide), ← hbyte _ 3 (by decide)]
  rfl

end Sys2Proof.Machine
end

section
/-! PROOFS. Event channels and locks as a requester writes them (08_engine_fabric.md R272, R273, R276 to R281). -/

namespace Sys2Proof.Machine

variable {s t : State} {r a k : Nat} {v : Word}

/-! ## Registers of block 7 that a write commands -/

def evcChRow : RegRow := ⟨Reg.EVC_CH 0, 4, 256, 4, 1, .single, 0x70FFC07F, 0, 0, 0x80000000, 0, 0, 0, 0, 0x20FFC07F⟩
def evcHpendRow : RegRow := ⟨Reg.EVC_HPEND 0, 4, 8, 4, 1, .single, 0, 0, 0xFFFFFFFF, 0, 0, 0, 0, 0, 0⟩

theorem directAt_evcCh : ∀ c : Fin 256, evcChRow.DirectAt (Reg.EVC_CH c.val) := by decide +kernel
theorem directAt_evcHpend : ∀ n : Fin 8, evcHpendRow.DirectAt (Reg.EVC_HPEND n.val) := by decide +kernel
theorem directAt_LCK_CLR : (RegRow.mk Reg.LCK_CLR 4 1 4 1 .single 0 0 0 0 0 0x3F 0 0 0).DirectAt Reg.LCK_CLR := by decide +kernel

theorem State.wrote_EVC_FIRE (s t : State) (r k : Nat) (v : Word) :
    s.wrote t r Reg.EVC_FIRE k v = s.fireChannel r (bitsOf v.toNat 0 8) := rfl

theorem State.wrote_LCK_CLR (s t : State) (r k : Nat) (v : Word) :
    s.wrote t r Reg.LCK_CLR k v = s.clearOrphan r (bitsOf v.toNat 0 6) := rfl

theorem State.wrote_evcCh (s t : State) (r k : Nat) {c : Nat} (hc : c < 256) (v : Word) :
    s.wrote t r (Reg.EVC_CH c) k v = s.channelWrite r c v := by
  have hblock : keyBlock (Reg.EVC_CH c) = 7 := by simp only [keyBlock, Reg.EVC_CH]; omega
  have hfamily : familyIx (Reg.EVC_CH 0) 4 256 (Reg.EVC_CH c) = some c := familyIx_member (by decide) hc
  have hfire : Reg.EVC_CH c ≠ Reg.EVC_FIRE := by simp only [Reg.EVC_CH, Reg.EVC_FIRE]; omega
  have hacq : Reg.EVC_CH c ≠ Reg.LCK_ACQ := by simp only [Reg.EVC_CH, Reg.LCK_ACQ]; omega
  have hrel : Reg.EVC_CH c ≠ Reg.LCK_REL := by simp only [Reg.EVC_CH, Reg.LCK_REL]; omega
  have hclr : Reg.EVC_CH c ≠ Reg.LCK_CLR := by simp only [Reg.EVC_CH, Reg.LCK_CLR]; omega
  simp only [State.wrote, hblock, State.wroteEvc, if_neg hfire, if_neg hacq, if_neg hrel, if_neg hclr, hfamily]

theorem evcHpend_apart : ∀ n : Fin 8, (Reg.EVC_HPEND n.val ≠ Reg.EVC_FIRE ∧ Reg.EVC_HPEND n.val ≠ Reg.LCK_ACQ ∧
    Reg.EVC_HPEND n.val ≠ Reg.LCK_REL ∧ Reg.EVC_HPEND n.val ≠ Reg.LCK_CLR) ∧ keyBlock (Reg.EVC_HPEND n.val) = 7 ∧
    familyIx (Reg.EVC_CH 0) 4 256 (Reg.EVC_HPEND n.val) = none := by decide +kernel

theorem State.wrote_evcHpend (s t : State) (r k : Nat) (n : Fin 8) (v : Word) :
    s.wrote t r (Reg.EVC_HPEND n.val) k v = (s.hpendClear (s.reqNS r) n.val v, none) := by
  obtain ⟨⟨hfire, hacq, hrel, hclr⟩, hblock, hch⟩ := evcHpend_apart n
  have hfamily : familyIx (Reg.EVC_HPEND 0) 4 8 (Reg.EVC_HPEND n.val) = some n.val := familyIx_member (by decide) n.isLt
  simp only [State.wrote, hblock, State.wroteEvc, if_neg hfire, if_neg hacq, if_neg hrel, if_neg hclr, hch, hfamily]

theorem bitsOf_setWidth {n : Nat} (x : BitVec n) (hn : n ≤ 32) : bitsOf (x.setWidth 32 : Word).toNat 0 n = x.toNat := by
  rw [toNat_setWidth_word x hn, bitsOf_whole]

section Commands

variable {r : Req}

theorem exec_evcFire (h : s.admits r.val Reg.EVC_FIRE true = true) (ch : Byte) : exec (.evcFire r ch) s =
    .next (State.answerWrite ((s.served r.val Reg.EVC_FIRE).fireChannel r.val ch.toNat) r.val Reg.EVC_FIRE) := by
  have hdef : exec (.evcFire r ch) s = .next (s.command32 r.val Reg.EVC_FIRE (ch.setWidth 32)) := rfl
  rw [hdef, State.command32_direct directAt_EVC_FIRE h, State.wrote_EVC_FIRE, bitsOf_setWidth ch (by decide)]

theorem exec_channelLock {ch : Byte} (h : s.admits r.val (Reg.EVC_CH ch.toNat) true = true) (v : Word) : exec (.channelLock r ch v) s =
    .next (State.answerWrite ((s.served r.val (Reg.EVC_CH ch.toNat)).channelWrite r.val ch.toNat (v ||| 0x80000000)) r.val
      (Reg.EVC_CH ch.toNat)) := by
  have hdef : exec (.channelLock r ch v) s = .next (s.command32 r.val (Reg.EVC_CH ch.toNat) (v ||| 0x80000000)) := rfl
  rw [hdef, State.command32_direct (directAt_evcCh ⟨ch.toNat, ch.isLt⟩) h, State.wrote_evcCh _ _ _ _ ch.isLt]

theorem exec_evcHpendClear {n : Fin 8} (h : s.admits r.val (Reg.EVC_HPEND n.val) true = true) (v : Word) :
    exec (.evcHpendClear r n v) s = .next (((s.served r.val (Reg.EVC_HPEND n.val)).hpendClear (s.reqNS r.val) n.val v).answered 0) := by
  have hdef : exec (.evcHpendClear r n v) s = .next (s.command32 r.val (Reg.EVC_HPEND n.val) v) := rfl
  rw [hdef, State.command32_direct (directAt_evcHpend n) h, State.wrote_evcHpend, State.answerWrite_none, State.served_reqNS]

theorem exec_lckAcq (h : s.admits r.val Reg.LCK_ACQ true = true) (k : BitVec 6) : exec (.lckAcq r k) s =
    .next (State.answerWrite ((s.served r.val Reg.LCK_ACQ).acquire r.val k.toNat) r.val Reg.LCK_ACQ) := by
  have hdef : exec (.lckAcq r k) s = .next (s.command32 r.val Reg.LCK_ACQ (k.setWidth 32)) := rfl
  rw [hdef, State.command32_direct directAt_LCK_ACQ h, State.wrote_LCK_ACQ, bitsOf_setWidth k (by decide)]

theorem exec_lckRel (h : s.admits r.val Reg.LCK_REL true = true) (k : BitVec 6) : exec (.lckRel r k) s =
    .next (State.answerWrite ((s.served r.val Reg.LCK_REL).releaseLock r.val k.toNat) r.val Reg.LCK_REL) := by
  have hdef : exec (.lckRel r k) s = .next (s.command32 r.val Reg.LCK_REL (k.setWidth 32)) := rfl
  rw [hdef, State.command32_direct directAt_LCK_REL h, State.wrote_LCK_REL, bitsOf_setWidth k (by decide)]

theorem exec_lckClr (h : s.admits r.val Reg.LCK_CLR true = true) (k : BitVec 6) : exec (.lckClr r k) s =
    .next (State.answerWrite ((s.served r.val Reg.LCK_CLR).clearOrphan r.val k.toNat) r.val Reg.LCK_CLR) := by
  have hdef : exec (.lckClr r k) s = .next (s.command32 r.val Reg.LCK_CLR (k.setWidth 32)) := rfl
  rw [hdef, State.command32_direct directAt_LCK_CLR h, State.wrote_LCK_CLR, bitsOf_setWidth k (by decide)]

end Commands

/-! ## Channels (R272, R276, R278) -/

/-- A channel that its requester may touch fires by what it takes. -/
theorem State.fireChannel_open {c : Nat} (h : s.reqNS r = false ∨ s.flag (F.EVC_CH_NS c) = true) : s.fireChannel r c =
    if s.channelOpen c = false then (s, none)
    else if s.flag (F.EVC_CH_SWF c) = true then ({ s with events := s.events ++ [.sw c] }, none)
    else (s.strayEvent (0x200 + r) c, none) := by
  have hbar : (s.reqNS r && !s.flag (F.EVC_CH_NS c)) = false := by rcases h with h | h <;> simp [h]
  simp only [State.fireChannel, hbar, Bool.not_eq_true', Bool.false_eq_true, if_false]

/-- Below bit 31 a word is as it was before LOCK was set in it. -/
theorem bitsOf_or_lock (v : Word) {lo w : Nat} (h : lo + w ≤ 31) : bitsOf (v ||| 0x80000000).toNat lo w = bitsOf v.toNat lo w := by
  apply Nat.eq_of_testBit_eq
  intro i
  have hlow : (0x80000000 : Nat).testBit (lo + i) = decide (31 = lo + i) := Nat.testBit_two_pow (n := 31)
  rw [testBit_bitsOf, testBit_bitsOf, BitVec.toNat_or, Nat.testBit_or]
  change (decide (i < w) && (v.toNat.testBit (lo + i) || (0x80000000 : Nat).testBit (lo + i))) = _
  rw [hlow]
  by_cases hi : i < w
  · rw [decide_eq_false (show 31 ≠ lo + i by omega), Bool.or_false]
  · simp [hi]

theorem bitsOf_lock_set (v : Word) : bitsOf (v ||| 0x80000000).toNat 31 1 = 1 := by
  have h : (v ||| 0x80000000).getLsbD 31 = true := by simp
  rw [BitVec.getLsbD, Nat.testBit_eq_decide_div_mod_eq, decide_eq_true_iff] at h
  rw [bitsOf, Nat.shiftRight_eq_div_pow, pow_one, h]

/-- A channel written with LOCK: its fields, and LOCK; NS by a secure requester alone. A locked one stays. -/
theorem State.channelWrite_lock {c : Nat} (h : s.reqNS r = false ∨ s.flag (F.EVC_CH_NS c) = true) (v : Word) :
    s.channelWrite r c (v ||| 0x80000000) = if s.flag (F.EVC_CH_LOCK c) = true then (s, none)
      else (s.setReg (Reg.EVC_CH c) (BitVec.ofNat 32 (bitsOf v.toNat 0 7 + bitsOf v.toNat 14 10 * 2 ^ 14 + bitsOf v.toNat 28 1 * 2 ^ 28 +
        bitsOf v.toNat 29 1 * 2 ^ 29 + (if s.reqNS r then 1 else bitsOf v.toNat 30 1) * 2 ^ 30 + 2 ^ 31)), none) := by
  have hbar : (s.reqNS r && !s.flag (F.EVC_CH_NS c)) = false := by rcases h with h | h <;> simp [h]
  have hns : (if s.reqNS r then s.get (F.EVC_CH_NS c) else bitsOf v.toNat 30 1) = if s.reqNS r then 1 else bitsOf v.toNat 30 1 := by
    rcases h with h | h
    · simp only [h, Bool.false_eq_true, if_false]
    · rw [eq_of_beq (a := s.get (F.EVC_CH_NS c)) h]
  simp only [State.channelWrite, hbar, Bool.false_eq_true, if_false, bitsOf_lock_set, bitsOf_or_lock v (show 0 + 7 ≤ 31 by decide),
    bitsOf_or_lock v (show 14 + 10 ≤ 31 by decide), bitsOf_or_lock v (show 28 + 1 ≤ 31 by decide),
    bitsOf_or_lock v (show 29 + 1 ≤ 31 by decide), bitsOf_or_lock v (show 30 + 1 ≤ 31 by decide), hns, pack, List.foldl_cons, List.foldl_nil,
    Nat.shiftLeft_eq, Nat.zero_add, pow_zero, Nat.mul_one, Nat.one_mul]

/-! ## Locks (R278 to R281) -/

theorem State.lockBarred_of_open (h : s.reqNS r = false ∨ s.flag (F.LCK_S_NS k) = true) : s.lockBarred r k = false := by
  rcases h with h | h <;> simp [State.lockBarred, h]

theorem State.acquire_open (h : s.reqNS r = false ∨ s.flag (F.LCK_S_NS k) = true) : s.acquire r k =
    (let got : Bool := decide (r ≤ 66) && (!s.flag (F.LCK_S_HELD k) || s.holds r k)
     ((if got then (s.put (F.LCK_S_HELD k) 1).put (F.LCK_S_HOLDER k) r else s).setReg (Reg.LCK_RES r)
       (BitVec.ofNat 32 (bit01 got + s.get (F.LCK_S_ORPHAN k) * 2 + k * 2 ^ 8)), none)) := by
  simp only [State.acquire, State.lockBarred_of_open h, Bool.false_eq_true, if_false, State.raise_eq, pack, List.foldl_cons, List.foldl_nil,
    Nat.shiftLeft_eq, Nat.zero_add, pow_zero, pow_one, Nat.mul_one]

theorem State.releaseLock_open (h : s.reqNS r = false ∨ s.flag (F.LCK_S_NS k) = true) : s.releaseLock r k =
    (if s.holds r k then { (s.put (F.LCK_S_HELD k) 0).put (F.LCK_S_HOLDER k) (Config.freeNat s.free % 2 ^ 7) with free := s.free + 1 }
      else s, none) := by
  simp only [State.releaseLock, State.lockBarred_of_open h, Bool.false_eq_true, if_false]
  split <;> rfl

theorem State.clearOrphan_open (h : s.reqNS r = false ∨ s.flag (F.LCK_S_NS k) = true) : s.clearOrphan r k =
    (if s.holds r k then s.put (F.LCK_S_ORPHAN k) 0 else s, none) := by
  simp only [State.clearOrphan, State.lockBarred_of_open h, Bool.false_eq_true, if_false]
  split <;> rfl

theorem State.served_holds (s : State) (r a k : Nat) (q : Nat) : (s.served r a).holds q k = s.holds q k := by
  rw [State.served_eq]
  rfl

theorem State.served_channelOpen (s : State) (r a c : Nat) : (s.served r a).channelOpen c = s.channelOpen c := by
  rw [State.served_eq]
  rfl

/-- Settles O36: each command is the write of its register, and what that does is its lemma above. -/
theorem channelAndLockCommands : Obligations.ChannelAndLockCommands := by
  intro s r
  refine ⟨fun ch h hw => ?_, fun ch v h hw => ?_, fun n v h => ?_, fun k hw => ⟨fun h => ?_, fun h => ?_, fun h => ?_⟩⟩
  · intro c
    have hfire : c.fireChannel r.val ch.toNat = _ := State.fireChannel_open (by simpa only [c, State.served_reqNS, State.served_flag] using hw)
    have hevents : c.events = s.events := by simp only [c]; rw [State.served_eq]; rfl
    simp only [c, State.served_channelOpen, State.served_flag] at hfire
    rw [exec_evcFire h, hfire]
    refine ⟨fun ho hswf => ?_, fun ho => ?_, fun ho hswf => ⟨fun hstray => ?_, fun hstray => ?_⟩⟩
    · rw [if_neg (by simp [ho]), if_pos hswf, State.answerWrite_none, ← hevents]
    · rw [if_pos ho, State.answerWrite_none]
    · rw [if_neg (by simp [ho]), if_neg (by simp [hswf]), State.answerWrite_none, State.strayEvent_eq, State.served_flag,
        if_neg (by simp [hstray])]
    · rw [if_neg (by simp [ho]), if_neg (by simp [hswf]), State.answerWrite_none, State.strayEvent_eq, State.served_flag, if_pos hstray]
  · intro c ns
    have hwrite : c.channelWrite r.val ch.toNat (v ||| 0x80000000) = _ :=
      State.channelWrite_lock (by simpa only [c, State.served_reqNS, State.served_flag] using hw) v
    simp only [c, State.served_reqNS, State.served_flag] at hwrite
    rw [exec_channelLock h, hwrite]
    refine ⟨fun hl => ?_, fun hl => ?_⟩
    · rw [if_neg (by simp [hl]), State.answerWrite_none]
    · rw [if_pos hl, State.answerWrite_none]
  · rw [exec_evcHpendClear h, State.hpendClear]
    have hmask (b : Bool) : (s.served r.val (Reg.EVC_HPEND n.val)).hpendMask b n.val = s.hpendMask b n.val := by
      simp only [State.hpendMask, State.served_flag]
    rw [hmask, State.served_reg]
  · rw [exec_lckAcq h, State.acquire_open (by simpa only [State.served_reqNS, State.served_flag] using hw)]
    simp only [State.served_flag, State.served_holds, State.served_get, State.answerWrite_none]
    rfl
  · rw [exec_lckRel h, State.releaseLock_open (by simpa only [State.served_reqNS, State.served_flag] using hw), State.served_holds,
      State.served_free, State.answerWrite_none]
    exact ⟨fun hm => congrArg (fun u => Host.Outcome.next (State.answered u 0)) (if_pos hm),
      fun hm => congrArg (fun u => Host.Outcome.next (State.answered u 0)) (if_neg (Bool.eq_false_iff.mp hm))⟩
  · rw [exec_lckClr h, State.clearOrphan_open (by simpa only [State.served_reqNS, State.served_flag] using hw), State.served_holds,
      State.answerWrite_none]
    rfl

end Sys2Proof.Machine
end

section
/-! PROOFS. What a write to memory leaves as it was (01_system_map.md R14, 08_engine_fabric.md R262): engines but for LOADED and REFUSED,
cipher jobs, and locks. -/

namespace Sys2Proof.Machine

variable {s t u : State} {k a : Nat}

/-! ## The frame of a write to memory -/

/-- `t` agrees with `s` in each engine but for LOADED and REFUSED, in the cipher jobs, and in every lock. -/
structure StoreFrame (s t : State) : Prop where
  engine : ∀ k : EngIx, t.engAt k = { s.engAt k with loaded := (t.engAt k).loaded, refused := (t.engAt k).refused }
  jobs : t.cip.queue = s.cip.queue
  cores : t.cip.core = s.cip.core
  locks : ∀ k < 64, t.reg (Reg.LCK_S k) = s.reg (Reg.LCK_S k)

/-- The registers of the locks are not among them. -/
abbrev notLock (k : Nat) : Prop := ¬(0x20078100 ≤ k ∧ k < 0x20078200)

theorem StoreFrame.refl (s : State) : StoreFrame s s := ⟨fun _ => rfl, rfl, rfl, fun _ _ => rfl⟩

theorem StoreFrame.trans (h : StoreFrame s t) (g : StoreFrame t u) : StoreFrame s u :=
  ⟨fun k => by rw [g.engine k, h.engine k], g.jobs.trans h.jobs, g.cores.trans h.cores,
    fun k hk => (g.locks k hk).trans (h.locks k hk)⟩

theorem StoreFrame.of_parts (he : t.eng = s.eng) (hq : t.cip.queue = s.cip.queue) (hc : t.cip.core = s.cip.core)
    (hr : t.regs = s.regs) : StoreFrame s t :=
  ⟨fun k => by rw [State.engAt, State.engAt, he], hq, hc, fun k _ => by rw [State.reg, State.reg, hr]⟩

theorem StoreFrame.setReg (s : State) (v : Word) (h : notLock k) : StoreFrame s (s.setReg k v) :=
  ⟨fun _ => rfl, rfl, rfl, fun j hj => State.reg_setReg_other s v (fun e => h (by simp only [Reg.LCK_S] at e; omega))⟩

theorem StoreFrame.put (s : State) {f : Fld} (n : Nat) (h : notLock f.key) : StoreFrame s (s.put f n) := .setReg s _ h

theorem StoreFrame.of_fst {α : Type} {p : State × α} {x : α} (h : StoreFrame s p.1) (e : p = (t, x)) : StoreFrame s t := by
  rwa [e] at h

theorem StoreFrame.each {α : Type} {f : State → α → State} {l : List α} (hf : ∀ u, ∀ x ∈ l, StoreFrame u (f u x)) (s : State) :
    StoreFrame s (s.each l f) := by
  induction l generalizing s with
  | nil => exact .refl s
  | cons x l ih =>
    exact (hf s x (List.mem_cons_self ..)).trans (ih (fun u y hy => hf u y (List.mem_cons_of_mem x hy)) (f s x))

/-! ## Bytes (01 R14, R16, 05 R161, R163) -/

theorem StoreFrame.putBytes (s : State) (a : Nat) (bs : List Byte) : StoreFrame s (s.putBytes a bs) := by
  rw [State.putBytes_eq]
  exact .of_parts rfl rfl rfl rfl

theorem StoreFrame.pokeEntry (s : State) (i a : Nat) (bs : List Byte) : StoreFrame s (s.pokeEntry i a bs) :=
  (StoreFrame.putBytes s a bs).trans (.setReg _ _ (by decide))

theorem StoreFrame.markDirty (s : State) (i : Nat) : StoreFrame s (s.markDirty i) := by
  unfold State.markDirty
  split
  · exact .of_parts rfl rfl rfl rfl
  · exact .refl s

theorem StoreFrame.markGroup (s : State) (load : Bool) (a : Nat) : StoreFrame s (s.markGroup load a) := by
  unfold State.markGroup
  dsimp only
  split
  · exact .of_parts rfl rfl rfl rfl
  · exact .refl s

theorem StoreFrame.storeByte (s : State) (load : Bool) (a : Nat) (b : Byte) : StoreFrame s (s.storeByte load a b) := by
  have hput : StoreFrame s (s.putByte a b) := .of_parts rfl rfl rfl rfl
  unfold State.storeByte
  split
  · exact (StoreFrame.pokeEntry s _ a [b]).trans (.markDirty _ _)
  · split
    · exact hput.trans (.markGroup _ load a)
    · exact hput

theorem StoreFrame.storeBytes (s : State) (load : Bool) (a : Nat) (bs : List Byte) : StoreFrame s (s.storeBytes load a bs) := by
  induction bs generalizing s a with
  | nil => exact .refl s
  | cons b bs ih => exact (StoreFrame.storeByte s load a b).trans (ih _ (a + 1))

/-- The key store's valid bits lie above the locks. -/
theorem StoreFrame.setKeyValid (s : State) (n i : Nat) (b : Bool) : StoreFrame s (s.setBit (Reg.CIP_KSV n) i b) :=
  .setReg s _ (by simp only [notLock, Reg.CIP_KSV]; omega)

theorem StoreFrame.writeKeyWord (s : State) (a : Nat) (v : Word) : StoreFrame s (s.writeKeyWord a v) := by
  have hword := (StoreFrame.putBytes s a (bytesLe 4 v.toNat)).trans
    (.setKeyValid _ ((a - 0x107FC000) / 16 / 32) ((a - 0x107FC000) / 16 % 32) (a % 16 == 12))
  unfold State.writeKeyWord
  dsimp only
  split
  · exact hword.trans (.of_parts rfl rfl rfl rfl)
  · exact hword

/-! ## Checks (01 R22, R29, 08 R262) -/

theorem StoreFrame.violation (s : State) (a : Nat) (wr : Bool) (r : Nat) : StoreFrame s (s.violation a wr r) := by
  unfold State.violation State.record
  split
  · exact .put s _ (by decide)
  · exact (((StoreFrame.put s a (by decide)).trans (.put _ (bit01 wr) (by decide))).trans (.put _ r (by decide))).trans
      (.put _ 1 (by decide))

theorem StoreFrame.setEng (s : State) (e : EngIx) (l r : Bool) :
    StoreFrame s (s.setEng e { s.engAt e with loaded := l, refused := r }) := by
  refine ⟨fun k => ?_, rfl, rfl, fun _ _ => rfl⟩
  by_cases h : k = e
  · rw [h, State.engAt_setEng_same]
  · rw [State.engAt_setEng_other s _ h]

theorem StoreFrame.storeAllowed (s : State) (e : EngIx) : StoreFrame s (s.storeAllowed e).1 := by
  unfold State.storeAllowed
  dsimp only
  split
  · exact .setEng s e false _
  · exact .setEng s e _ true

/-- Beyond its world a write meets at most the store of an engine. -/
theorem State.writeMet_cases (s : State) (r a : Nat) : (s.writeMet r a).1 = s ∨ ∃ e, (s.writeMet r a).1 = (s.storeAllowed e).1 := by
  unfold State.writeMet
  split
  · exact .inl rfl
  · split <;> exact .inl rfl
  · exact .inl rfl
  · exact .inl rfl
  · split
    · next e _ => split <;> exact .inr ⟨e, rfl⟩
    · exact .inl rfl

theorem StoreFrame.writeMet (s : State) (r a : Nat) : StoreFrame s (s.writeMet r a).1 := by
  rcases s.writeMet_cases r a with h | ⟨e, h⟩
  · rw [h]
    exact .refl s
  · rw [h]
    exact .storeAllowed s e

/-- The check of a movement passes or fails, records a violation, or meets what a write meets. -/
theorem State.moveCheck_cases (s : State) (ns : Bool) (r a : Nat) (wr : Bool) : (s.moveCheck ns r a wr).1 = s ∨
    (s.moveCheck ns r a wr).1 = s.violation a wr r ∨ (s.moveCheck ns r a wr).1 = (s.writeMet r a).1 := by
  unfold State.moveCheck
  split
  · exact .inl rfl
  · split_ifs
    · exact .inr (.inl rfl)
    · exact .inl rfl
    · exact .inl rfl
    · exact .inl rfl
  · split_ifs
    · exact .inr (.inl rfl)
    · exact .inl rfl
    · exact .inr (.inr rfl)
    · split <;> exact .inl rfl

theorem StoreFrame.moveCheck (s : State) (ns : Bool) (r a : Nat) (wr : Bool) : StoreFrame s (s.moveCheck ns r a wr).1 := by
  rcases s.moveCheck_cases ns r a wr with h | h | h
  · rw [h]
    exact .refl s
  · rw [h]
    exact .violation s a wr r
  · rw [h]
    exact .writeMet s r a

/-! ## Movements of the part itself (01 R13, 08 R269) -/

theorem StoreFrame.takeTurn (s : State) (r t : Nat) : StoreFrame s (s.takeTurn r t) := by
  rw [State.takeTurn_eq]
  exact .of_parts rfl rfl rfl rfl

theorem StoreFrame.moveByte (s : State) (ns : Bool) (r a : Nat) (b : Byte) : StoreFrame s (s.moveByte ns r a b).1 := by
  have hcheck := StoreFrame.moveCheck s ns r a true
  unfold State.moveByte
  split
  · next heq => exact hcheck.of_fst heq
  · next heq =>
    have hpassed := hcheck.of_fst heq
    dsimp only
    split
    · exact hpassed.trans (.setKeyValid _ _ _ _)
    · exact hpassed.trans (.storeByte _ false a b)

theorem StoreFrame.moveKeyWord (s : State) (ns : Bool) (r a : Nat) (bs : List Byte) : StoreFrame s (s.moveKeyWord ns r a bs).1 := by
  have hcheck := StoreFrame.moveCheck s ns r a true
  unfold State.moveKeyWord
  split
  · next heq => exact hcheck.of_fst heq
  · next heq => exact (hcheck.of_fst heq).trans (.writeKeyWord _ a _)

theorem StoreFrame.moveBytes (s : State) (ns : Bool) (r a : Nat) (bs : List Byte) : StoreFrame s (s.moveBytes ns r a bs).1 := by
  fun_induction State.moveBytes s ns r a bs with
  | case1 s a b0 b1 b2 b3 bs _ s1 e heq => exact (StoreFrame.moveKeyWord s ns r a _).of_fst heq
  | case2 s a b0 b1 b2 b3 bs _ s1 heq ih => exact ((StoreFrame.moveKeyWord s ns r a _).of_fst heq).trans ih
  | case3 s a b0 b1 b2 b3 bs _ s1 e heq => exact (StoreFrame.moveByte s ns r a b0).of_fst heq
  | case4 s a b0 b1 b2 b3 bs _ s1 heq ih => exact ((StoreFrame.moveByte s ns r a b0).of_fst heq).trans ih
  | case5 s a b bs _ s1 e heq => exact (StoreFrame.moveByte s ns r a b).of_fst heq
  | case6 s a b bs _ s1 heq ih => exact ((StoreFrame.moveByte s ns r a b).of_fst heq).trans ih
  | case7 s a => exact .refl s

theorem StoreFrame.moveWrite (s : State) (ns : Bool) (r a : Nat) (bs : List Byte) : StoreFrame s (s.moveWrite ns r a bs).1 := by
  have hbytes := StoreFrame.moveBytes s ns r a bs
  unfold State.moveWrite
  split
  · next heq => exact hbytes.of_fst heq
  · next heq =>
    have hmoved := hbytes.of_fst heq
    dsimp only
    split
    · exact hmoved
    · exact hmoved.trans (.takeTurn _ r _)

/-! ## Accesses of an engine (01 R14, 14 R438) -/

theorem StoreFrame.storePlace (s : State) (r a n v : Nat) : StoreFrame s (s.storePlace r a n v).1 := by
  have hmet := StoreFrame.writeMet s r a
  unfold State.storePlace
  split
  · split
    · exact .writeKeyWord s a _
    · exact .setKeyValid s _ _ _
  · split
    · next heq => exact hmet.of_fst heq
    · next heq => exact (hmet.of_fst heq).trans (.storeBytes _ _ a _)

theorem StoreFrame.log (s : State) (code detail : Nat) : StoreFrame s (s.log code detail) := by
  unfold State.log
  split_ifs
  · exact .of_parts rfl rfl rfl rfl
  · exact .put s _ (by decide)
  · exact .refl s

theorem StoreFrame.eccRead (s : State) (a : Nat) : StoreFrame s (s.eccRead a).1 := by
  unfold State.eccRead
  split
  · exact .refl s
  · exact (StoreFrame.put s _ (by decide)).trans (.put _ a (by decide))
  · exact (StoreFrame.put s a (by decide)).trans (.log _ _ _)

theorem StoreFrame.loadPlace (s : State) (a n : Nat) : StoreFrame s (s.loadPlace a n).1 := by
  unfold State.loadPlace
  split
  · dsimp only
    split <;> exact .eccRead s a
  · rw [State.seenBytes]
    dsimp only
    split
    · exact .of_parts rfl rfl rfl rfl
    · exact .refl s
  · exact .refl s

theorem StoreFrame.readLocal (s : State) (e : EngIx) (n : Nat) : StoreFrame s (s.readLocal e n).1 := by
  unfold State.readLocal
  split
  · exact .of_parts rfl rfl rfl rfl
  · exact .refl s

theorem StoreFrame.movedWord (s : State) (e : EngIx) (x : Access) : StoreFrame s (s.movedWord e x) := by
  unfold State.movedWord
  split
  · next n i la base =>
    have hload := StoreFrame.loadPlace s (base + 4 * i) 3
    split
    · next heq => exact (hload.of_fst heq).trans (.storeBytes _ false _ _)
    · next heq => exact hload.of_fst heq
  · next n i la base => exact (StoreFrame.readLocal s e ((la + i) % 4096)).trans (.storePlace _ _ _ _ _)
  · exact .refl s

theorem StoreFrame.movedWords (s : State) (e : EngIx) (l : List Accepted) : StoreFrame s (s.movedWords e l) :=
  .each (fun u x _ => .movedWord u e x.acc) s

end Sys2Proof.Machine
end

section
/-! PROOFS. A stalled access forced off (08_engine_fabric.md R265, R266): the instruction ends without retiring, what its reads changed is
put back, and only the words of a block that its targets had accepted move. -/

namespace Sys2Proof.Machine

variable {s m : State} {e : EngIx} {x : Stall}

/-! ## What the end of a stall leaves (R265) -/

/-- Accepted accesses that are no words of a block move nothing. -/
theorem State.movedWords_of_no_block {l : List Accepted} (h : ∀ p ∈ l, p.acc.isBlock = false) (s : State) (e : EngIx) :
    s.movedWords e l = s := by
  refine State.each_apart (g := id) (fun u p hp => ?_) s
  have hblock := h p hp
  cases hacc : p.acc with
  | block => rw [hacc] at hblock; cases hblock
  | _ => rfl

/-- The result ports that a stalled instruction leaves as it ends without retiring: those before its reads, and in LSU.BREM the words of
its block that have not moved. -/
def Stall.ports (x : Stall) : ResPorts :=
  match (x.accs.head?.map Prod.snd).bind Access.remaining with
  | some n => { x.undo.res with brem := BitVec.ofNat 24 n }
  | none => x.undo.res

theorem Stall.ports_block {b l : Bool} {n i la base : Nat} (h : x.accs.head? = some (b, .block l n i la base)) :
    x.ports = { x.undo.res with brem := BitVec.ofNat 24 (n - i) } := by
  simp only [Stall.ports, h, Option.map_some, Option.bind_some, Access.remaining]

theorem Stall.ports_other (h : ∀ (b l : Bool) (n i la base : Nat), x.accs.head? ≠ some (b, .block l n i la base)) :
    x.ports = x.undo.res := by
  have hnone : (x.accs.head?.map Prod.snd).bind Access.remaining = none := by
    rcases hhead : x.accs.head? with _ | ⟨b, acc⟩
    · rfl
    · cases acc with
      | block l n i la base => exact absurd hhead (h b l n i la base)
      | _ => rfl
  simp only [Stall.ports, hnone]

/-- An instruction whose block left its count ends with these result ports. -/
theorem State.leaveRemaining_undoStall (s : State) (e : EngIx) (x : Stall) :
    (s.undoStall e x.undo).leaveRemaining e (x.accs.head?.map Prod.snd) =
      s.setEng e { (s.undoStall e x.undo).engAt e with res := x.ports } := by
  rcases hleft : (x.accs.head?.map Prod.snd).bind Access.remaining with _ | n
  · simp only [State.leaveRemaining, Stall.ports, hleft, State.undoStall, State.engAt_setEng_same]
  · simp only [State.leaveRemaining, Stall.ports, hleft, State.undoStall, State.setRemaining, State.engAt_setEng_same,
      State.setEng_setEng]

/-- An engine as its stalled access is forced off: no stall, and what the instruction's reads changed put back. -/
def Eng.letGo (g : Eng) (x : Stall) : Eng :=
  { g with
    stall := none
    haltForced := true
    res := x.ports
    evPend := match x.undo.popped with
      | some c => g.evPend ||| (1#256 <<< c)
      | none => g.evPend
    lio := { g.lio with
      off := x.undo.lioOff, held := x.undo.lioHeld, lastQ := x.undo.lioLastQ, fifo := lastN 64 (x.undo.lioFifo ++ g.lio.fifo)
      ovf := g.lio.ovf || decide (64 < (x.undo.lioFifo ++ g.lio.fifo).length) } }

/-- The stalled access is forced off: the words that have moved, and the engine without its stall. -/
theorem State.forceOff_eq (hx : (m.engAt e).stall = some x) : m.forceOff e =
    (m.movedWords e x.passed).setEng e (((m.movedWords e x.passed).engAt e).letGo x) := by
  simp only [State.forceOff, State.dropStall, hx, State.leaveRemaining_undoStall]
  simp only [State.undoStall, State.setEng_setEng, State.engAt_setEng_same, Eng.letGo] <;> rfl

/-- Engine `e` of `t` has let go of the stall `x` that it had in `m`; beside it only the words that had been accepted have moved. -/
structure ForcedOff (m t : State) (e : EngIx) (x : Stall) : Prop where
  stall : (t.engAt e).stall = none
  haltForced : (t.engAt e).haltForced = true
  res : (t.engAt e).res = x.ports
  w : (t.engAt e).w = (m.engAt e).w
  seq : (t.engAt e).seq = (m.engAt e).seq
  state : (t.engAt e).state = (m.engAt e).state
  why : (t.engAt e).why = (m.engAt e).why
  forced : (t.engAt e).forced = (m.engAt e).forced
  mem : t.mem = (m.movedWords e x.passed).mem
  regs : t.regs = (m.movedWords e x.passed).regs
  others : ∀ k : EngIx, k ≠ e → t.engAt k = (m.movedWords e x.passed).engAt k

theorem State.forceOff_forcedOff (hx : (m.engAt e).stall = some x) : ForcedOff m (m.forceOff e) e x := by
  have hmoved := (StoreFrame.movedWords m e x.passed).engine e
  have hengine : (m.forceOff e).engAt e = ((m.movedWords e x.passed).engAt e).letGo x := by
    rw [State.forceOff_eq hx, State.engAt_setEng_same]
  have hkept {α : Type} (f : Eng → α) (hf : ∀ g, f (Eng.letGo g x) = f g)
      (hs : ∀ (g : Eng) l r, f { g with loaded := l, refused := r } = f g) : f ((m.forceOff e).engAt e) = f (m.engAt e) := by
    rw [hengine, hf, hmoved, hs]
  exact {
    stall := congrArg Eng.stall hengine
    haltForced := congrArg Eng.haltForced hengine
    res := congrArg Eng.res hengine
    w := hkept Eng.w (fun _ => rfl) (fun _ _ _ => rfl)
    seq := hkept Eng.seq (fun _ => rfl) (fun _ _ _ => rfl)
    state := hkept Eng.state (fun _ => rfl) (fun _ _ _ => rfl)
    why := hkept Eng.why (fun _ => rfl) (fun _ _ _ => rfl)
    forced := hkept Eng.forced (fun _ => rfl) (fun _ _ _ => rfl)
    mem := by rw [State.forceOff_eq hx]; rfl
    regs := by rw [State.forceOff_eq hx]; rfl
    others := fun k hk => by rw [State.forceOff_eq hx, State.engAt_setEng_other _ _ hk] }

/-- An engine that let go of its stall is otherwise as it was put. -/
theorem ForcedOff.engine {u t : State} {g : Eng} (h : ForcedOff (u.setEng e g) t e x) : (t.engAt e).w = g.w ∧ (t.engAt e).seq = g.seq ∧
    (t.engAt e).state = g.state ∧ (t.engAt e).why = g.why ∧ (t.engAt e).forced = g.forced := by
  rw [h.w, h.seq, h.state, h.why, h.forced, State.engAt_setEng_same]
  exact ⟨rfl, rfl, rfl, rfl, rfl⟩

theorem ForcedOff.answered {t : State} (h : ForcedOff m t e x) (v : Word) : ForcedOff m (t.answered v) e x :=
  ⟨h.stall, h.haltForced, h.res, h.w, h.seq, h.state, h.why, h.forced, h.mem, h.regs, h.others⟩

/-! ## STALL_LIMIT, and a halt ordered beyond the limit (R266) -/

theorem exec_stallLimit (hx : (s.engAt e).stall = some x) : exec (.stallLimit e) s =
    .next (if (s.engAt e).state = .halting then (s.setEng e { s.engAt e with stall := some { x with beyond := true } }).forceOff e
      else s.setEng e { s.engAt e with stall := some { x with beyond := true } }) := by
  have hdef : exec (.stallLimit e) s = execStallLimit e s := rfl
  rw [hdef]
  simp only [execStallLimit, hx, beq_iff_eq]

/-- An engine that is ordered to halt (R263, R267). -/
def Eng.ordered (g : Eng) (why : Nat) (forced : Bool) : Eng :=
  { g with state := .halting, why := why, forced := g.forced || forced, wdPending := g.wdPending && !forced }

theorem Eng.ordered_forced (g : Eng) (why : Nat) :
    g.ordered why true = { g with state := .halting, why := why, forced := true, wdPending := false } := by
  simp only [Eng.ordered, Bool.or_true, Bool.not_true, Bool.and_false]

theorem Eng.ordered_plain (g : Eng) (why : Nat) : g.ordered why false = { g with state := .halting, why := why } := by
  simp only [Eng.ordered, Bool.or_false, Bool.not_false, Bool.and_true]

/-- A halt ordered while the stall has lasted beyond its limit forces the access off at once. -/
theorem State.orderHalt_beyond (hx : (s.engAt e).stall = some x) (hb : x.beyond = true) (why : Nat) (forced : Bool) :
    ForcedOff (s.setEng e ((s.engAt e).ordered why forced)) (s.orderHalt e why forced) e x := by
  have heq : s.orderHalt e why forced = (s.setEng e ((s.engAt e).ordered why forced)).forceOff e := by
    simp only [State.orderHalt, hx, hb, if_true, Eng.ordered]
  rw [heq]
  exact State.forceOff_forcedOff (by rw [State.engAt_setEng_same]; exact hx)

/-- Settles O24: each of the three commands forces the access off, by `forceOff_forcedOff`. -/
theorem forcedStallsEndTheirAccess : Obligations.ForcedStallsEndTheirAccess := by
  intro s e x hx back off
  have hoff {u t : State} {g : Eng} {y : Stall} (hp : y.ports = x.ports) (hy : y.passed = x.passed) (hw : g.w = (s.engAt e).w)
      (hseq : g.seq = (s.engAt e).seq) (h : ForcedOff (u.setEng e g) t e y) : off (u.setEng e g) t := by
    obtain ⟨hgw, hgseq, -, -, -⟩ := h.engine
    have hres := h.res.trans hp
    exact ⟨h.stall, h.haltForced, ⟨fun b l n i la base hb => hres.trans (Stall.ports_block hb), fun hn => hres.trans (Stall.ports_other hn)⟩,
      hgw.trans hw, hgseq.trans hseq, hy ▸ h.mem, hy ▸ h.regs, hy ▸ h.others⟩
  refine ⟨fun h m => State.movedWords_of_no_block h m e, fun hst => ?_, fun r h hb => ?_⟩
  · exact ⟨_, (exec_stallLimit hx).trans (congrArg _ (if_pos hst)), hoff (y := { x with beyond := true }) rfl rfl rfl rfl
      (State.forceOff_forcedOff (by rw [State.engAt_setEng_same]))⟩
  · intro c
    have hg : c.engAt e = s.engAt e := State.served_engAt ..
    have hordered (why : Nat) (forced : Bool) := State.orderHalt_beyond (s := c) (by rwa [hg]) hb why forced
    rw [hg] at hordered
    refine ⟨fun hst => ⟨_, exec_force h, ?_⟩, fun hst => ⟨_, exec_halt h, ?_⟩⟩
    · have hforce := (hordered 5 true).answered 0
      rw [Eng.ordered_forced] at hforce
      obtain ⟨-, -, hstate, -, hforced⟩ := hforce.engine
      rw [State.forceEngine_active (hg ▸ hst)]
      exact ⟨hoff rfl rfl rfl rfl hforce, hstate, hforced⟩
    · have hhalt := (hordered 1 false).answered 0
      rw [Eng.ordered_plain] at hhalt
      obtain ⟨-, -, hstate, hwhy, hforced⟩ := hhalt.engine
      rw [State.haltEngine_running (hg ▸ hst)]
      exact ⟨hoff rfl rfl rfl rfl hhalt, hstate, hwhy, hforced⟩

end Sys2Proof.Machine
end

section
/-! PROOFS. Results in flight and the jobs that an engine's forced halt ends (08_engine_fabric.md R267, 05_cistern_security.md R188): what
the jobs write does not depend on whether the engine's results have been delivered. -/

namespace Sys2Proof.Machine

variable {s t u : State} {e : EngIx}

/-! ## An engine whose results in flight have been delivered -/

/-- The state with every result in flight of engine `e` delivered (R263). -/
def State.delivered (s : State) (e : EngIx) : State := s.setEng e (s.engAt e).drain

theorem State.engAt_delivered_other (s : State) {k : EngIx} (h : k ≠ e) : (s.delivered e).engAt k = s.engAt k :=
  State.engAt_setEng_other s _ h

theorem State.engAt_delivered_same (s : State) (e : EngIx) : (s.delivered e).engAt e = (s.engAt e).drain := State.engAt_setEng_same ..

theorem Eng.drain_state (g : Eng) : g.drain.state = g.state := by rw [Eng.drain_eq]

theorem Eng.drain_stall (g : Eng) : g.drain.stall = g.stall := by rw [Eng.drain_eq]

/-- LOADED and REFUSED take no part in the delivery. -/
theorem Eng.drain_marked (g : Eng) (l r : Bool) :
    ({ g with loaded := l, refused := r } : Eng).drain = { g.drain with loaded := l, refused := r } := by
  have hres := Eng.foldl_deliver_res g.flight (g := { g with loaded := l, refused := r }) (h := g) rfl
  rw [Eng.drain_eq, Eng.drain_eq g, hres]

theorem State.engAt_delivered_state (s : State) (e k : EngIx) : ((s.delivered e).engAt k).state = (s.engAt k).state := by
  by_cases h : k = e
  · rw [h, State.engAt_delivered_same, Eng.drain_state]
  · rw [State.engAt_delivered_other s h]

theorem State.waitsAt_delivered (s : State) (e k : EngIx) (st : GrantStage) : (s.delivered e).waitsAt k st = s.waitsAt k st := by
  have hstall : ((s.delivered e).engAt k).stall = (s.engAt k).stall := by
    by_cases h : k = e
    · rw [h, State.engAt_delivered_same, Eng.drain_stall]
    · rw [State.engAt_delivered_other s h]
  rw [State.waitsAt, State.waitsAt, hstall]

theorem State.setEng_comm (s : State) {j k : EngIx} (g h : Eng) (hne : j ≠ k) :
    (s.setEng j g).setEng k h = (s.setEng k h).setEng j g := by
  have hval : j.val ≠ k.val := fun x => hne (Fin.ext x)
  simp only [State.setEng, Vector.set_comm g h hval]

/-- Marking an engine LOADED or REFUSED goes with the delivery in any order. -/
theorem State.mark_delivered (s : State) (e k : EngIx) (l r : Eng → Bool) (hl : ∀ g : Eng, l g.drain = l g) (hr : ∀ g : Eng, r g.drain = r g) :
    (s.delivered e).setEng k { (s.delivered e).engAt k with loaded := l ((s.delivered e).engAt k), refused := r ((s.delivered e).engAt k) } =
      (s.setEng k { s.engAt k with loaded := l (s.engAt k), refused := r (s.engAt k) }).delivered e := by
  by_cases h : k = e
  · subst h
    simp only [State.delivered, State.engAt_setEng_same, State.setEng_setEng, Eng.drain_marked, hl, hr]
  · simp only [State.engAt_delivered_other s h]
    rw [State.delivered, State.delivered, State.engAt_setEng_other _ _ (Ne.symm h), State.setEng_comm _ _ _ (Ne.symm h)]

/-- A movement of the part goes with the delivery in any order. -/
def DeliveryFree {α : Type} (e : EngIx) (f : State → State × α) : Prop := ∀ s, f (s.delivered e) = ((f s).1.delivered e, (f s).2)

theorem State.storeAllowed_halted {k : EngIx} (h : (s.engAt k).state = .halted) :
    s.storeAllowed k = (s.setEng k { s.engAt k with loaded := false }, true) := if_pos (beq_iff_eq.mpr h)

theorem State.storeAllowed_active {k : EngIx} (h : (s.engAt k).state ≠ .halted) :
    s.storeAllowed k = (s.setEng k { s.engAt k with refused := true }, false) := if_neg (fun hb => h (beq_iff_eq.mp hb))

theorem State.storeAllowed_delivered (k : EngIx) : DeliveryFree e (fun s => s.storeAllowed k) := by
  intro s
  have hstate := s.engAt_delivered_state e k
  dsimp only
  by_cases h : (s.engAt k).state = .halted
  · rw [State.storeAllowed_halted h, State.storeAllowed_halted (hstate.trans h)]
    exact congrArg (·, true) (s.mark_delivered e k (fun _ => false) Eng.refused (fun _ => rfl) (fun g => by rw [Eng.drain_eq]))
  · rw [State.storeAllowed_active h, State.storeAllowed_active (hstate ▸ h)]
    exact congrArg (·, false) (s.mark_delivered e k Eng.loaded (fun _ => true) (fun g => by rw [Eng.drain_eq]) (fun _ => rfl))

theorem State.writeMet_delivered (r a : Nat) : DeliveryFree e (fun s => s.writeMet r a) := by
  intro s
  have howns : (s.delivered e).ownsCistern = s.ownsCistern := rfl
  have hstore (k : EngIx) := State.storeAllowed_delivered (e := e) k s
  dsimp only at hstore
  simp only [State.writeMet, howns, hstore]
  split
  · rfl
  · split <;> rfl
  · rfl
  · rfl
  · split
    · split <;> rfl
    · rfl

theorem State.delivered_put (s : State) (e : EngIx) (f : Fld) (n : Nat) : (s.delivered e).put f n = (s.put f n).delivered e := rfl

theorem State.delivered_record (s : State) (e : EngIx) (valid ovf : Fld) {fill : State → State}
    (hfill : ∀ u : State, fill (u.delivered e) = (fill u).delivered e) :
    (s.delivered e).record valid ovf fill = (s.record valid ovf fill).delivered e := by
  have hflag : (s.delivered e).flag valid = s.flag valid := rfl
  simp only [State.record, hflag, hfill]
  split <;> rfl

theorem State.violation_delivered (s : State) (e : EngIx) (a : Nat) (wr : Bool) (r : Nat) :
    (s.delivered e).violation a wr r = (s.violation a wr r).delivered e :=
  State.delivered_record s e _ _ (fun u => by simp only [State.putB_eq, State.delivered_put])

theorem State.moveCheck_delivered (ns : Bool) (r a : Nat) (wr : Bool) : DeliveryFree e (fun s => s.moveCheck ns r a wr) := by
  intro s
  have hworld : (s.delivered e).memNS a = s.memNS a := rfl
  have hready (p : Place) : (s.delivered e).placeReady p = s.placeReady p := rfl
  have hkey : (s.delivered e).ready 14 = s.ready 14 := rfl
  have hmet := State.writeMet_delivered (e := e) r a s
  dsimp only at hmet
  simp only [State.moveCheck, hworld, hready, hkey, hmet, State.violation_delivered]
  split
  · rfl
  · split_ifs <;> rfl
  · split_ifs
    · rfl
    · rfl
    · rfl
    · split <;> rfl

/-! ## Bytes (01 R14, R16, 05 R161, R163) -/

theorem State.delivered_putBytes (s : State) (e : EngIx) (a : Nat) (bs : List Byte) :
    (s.delivered e).putBytes a bs = (s.putBytes a bs).delivered e := by
  rw [State.delivered, State.delivered, State.setEng_putBytes, State.engAt_putBytes]

theorem State.delivered_markDirty (s : State) (e : EngIx) (i : Nat) :
    (s.delivered e).markDirty i = (s.markDirty i).delivered e := by
  have hpair : (s.delivered e).pairState = s.pairState := rfl
  simp only [State.markDirty, hpair]
  split <;> rfl

theorem State.delivered_markGroup (s : State) (e : EngIx) (load : Bool) (a : Nat) :
    (s.delivered e).markGroup load a = (s.markGroup load a).delivered e := by
  have hhalf : (s.delivered e).halfLoaded a = s.halfLoaded a := rfl
  simp only [State.markGroup, hhalf]
  split <;> rfl

theorem State.delivered_storeByte (s : State) (e : EngIx) (load : Bool) (a : Nat) (b : Byte) :
    (s.delivered e).storeByte load a b = (s.storeByte load a b).delivered e := by
  have hpoke (i : Nat) : (s.delivered e).pokeEntry i a [b] = (s.pokeEntry i a [b]).delivered e := rfl
  have hput : (s.delivered e).putByte a b = (s.putByte a b).delivered e := rfl
  simp only [State.storeByte, hpoke, hput, State.delivered_markDirty, State.delivered_markGroup]
  split_ifs <;> rfl

theorem State.delivered_writeKeyWord (s : State) (e : EngIx) (a : Nat) (v : Word) :
    (s.delivered e).writeKeyWord a v = (s.writeKeyWord a v).delivered e := by
  simp only [State.writeKeyWord, State.delivered_putBytes]
  split <;> rfl

theorem State.delivered_takeTurn (s : State) (e : EngIx) (r n : Nat) :
    (s.delivered e).takeTurn r n = (s.takeTurn r n).delivered e := by
  have hwaits (w : Fin 8) : (s.delivered e).portWaits n w = s.portWaits n w := by
    simp only [State.portWaits, State.waitsAt_delivered]
  have hlast : (s.delivered e).targetLast = s.targetLast := rfl
  simp only [State.takeTurn, hwaits, hlast]
  split
  · rfl
  · split_ifs <;> rfl

/-! ## Movements of the part itself -/

theorem State.moveByte_delivered (ns : Bool) (r a : Nat) (b : Byte) : DeliveryFree e (fun s => s.moveByte ns r a b) := by
  intro s
  have hcheck := State.moveCheck_delivered (e := e) ns r a true s
  dsimp only at hcheck
  simp only [State.moveByte, hcheck]
  rcases s.moveCheck ns r a true with ⟨s1, _ | err⟩
  · have hspoil : (s1.delivered e).spoilSlot a = (s1.spoilSlot a).delivered e := rfl
    simp only [State.delivered_storeByte, hspoil]
    split <;> rfl
  · rfl

theorem State.moveKeyWord_delivered (ns : Bool) (r a : Nat) (bs : List Byte) : DeliveryFree e (fun s => s.moveKeyWord ns r a bs) := by
  intro s
  have hcheck := State.moveCheck_delivered (e := e) ns r a true s
  dsimp only at hcheck
  simp only [State.moveKeyWord, hcheck]
  rcases s.moveCheck ns r a true with ⟨s1, _ | err⟩
  · simp only [State.delivered_writeKeyWord]
  · rfl

theorem State.moveBytes_delivered (ns : Bool) (r a : Nat) (bs : List Byte) : DeliveryFree e (fun s => s.moveBytes ns r a bs) := by
  intro s
  have hword (s : State) (a : Nat) (bs : List Byte) := State.moveKeyWord_delivered (e := e) ns r a bs s
  have hbyte (s : State) (a : Nat) (b : Byte) := State.moveByte_delivered (e := e) ns r a b s
  dsimp only at hword hbyte ⊢
  fun_induction State.moveBytes s ns r a bs with
  | case1 s a b0 b1 b2 b3 bs hkey s1 err heq => rw [State.moveBytes, if_pos hkey, hword, heq]
  | case2 s a b0 b1 b2 b3 bs hkey s1 heq ih => rw [State.moveBytes, if_pos hkey, hword, heq]; exact ih
  | case3 s a b0 b1 b2 b3 bs hkey s1 err heq => rw [State.moveBytes, if_neg hkey, hbyte, heq]
  | case4 s a b0 b1 b2 b3 bs hkey s1 heq ih => rw [State.moveBytes, if_neg hkey, hbyte, heq]; exact ih
  | case5 s a b bs hshort s1 err heq => rw [State.moveBytes, hbyte, heq]; exact hshort
  | case6 s a b bs hshort s1 heq ih => rw [State.moveBytes, hbyte, heq]; exacts [ih, hshort]
  | case7 s a => rfl

theorem State.moveWrite_delivered (ns : Bool) (r a : Nat) (bs : List Byte) : DeliveryFree e (fun s => s.moveWrite ns r a bs) := by
  intro s
  have hbytes := State.moveBytes_delivered (e := e) ns r a bs s
  dsimp only at hbytes
  simp only [State.moveWrite, hbytes]
  rcases s.moveBytes ns r a bs with ⟨s1, _ | err⟩
  · simp only [State.delivered_takeTurn]
    split <;> rfl
  · rfl

/-! ## Jobs that end (05 R186 to R190) -/

theorem State.writeRecord_delivered (d : JobDesc) (x : JobEnd) : DeliveryFree e (fun s => s.writeRecord d x) := by
  intro s
  have hworld : (s.delivered e).blockNS 14 = s.blockNS 14 := rfl
  have hmove (s : State) (ns : Bool) (a : Nat) (bs : List Byte) := State.moveWrite_delivered (e := e) ns 70 a bs s
  dsimp only at hmove
  simp only [State.writeRecord, hworld, hmove]
  rcases s.moveWrite (s.blockNS 14) 70 (jobRes d + 4) ((recordBytes d x).drop 4) with ⟨s1, _ | err⟩
  · simp only [hmove]
    rcases s1.moveWrite (s.blockNS 14) 70 (jobRes d) ((recordBytes d x).take 4) with ⟨s2, _ | err⟩
    · dsimp only
      split <;> rfl
    · rfl
  · rfl

theorem State.delivered_unstartedRecord (s : State) (e : EngIx) (d : JobDesc) (status : Nat) :
    (s.delivered e).unstartedRecord d status = (s.unstartedRecord d status).delivered e :=
  congrArg Prod.fst (State.writeRecord_delivered d _ s)

theorem State.delivered_zeroOut (s : State) (e : EngIx) (d : JobDesc) (n : Nat) :
    (s.delivered e).zeroOut d n = (s.zeroOut d n).delivered e := by
  have hmove := State.moveWrite_delivered (e := e) (s.blockNS 14) 70 (jobDst d) (List.replicate n 0) s
  have hworld : (s.delivered e).blockNS 14 = s.blockNS 14 := rfl
  dsimp only at hmove
  simp only [State.zeroOut, hworld, hmove]
  split <;> rfl

/-- A record of `run` has to wait for the peer (09 R296). -/
def State.coreWaits (s : State) (run : CoreRun) : Bool :=
  match run.waitSeq with
  | some q => s.unacked q
  | none => false

/-- What the record of `run` tells, ended by core `c` with `status` and `n` output bytes (05 R186). -/
def CoreRun.jobEnd (run : CoreRun) (c : Fin 8) (status n : Nat) : JobEnd :=
  ⟨status, c.val, true, if jobOp run.job.d ≥ 4 then 0 else run.counter, if jobOp run.job.d ≥ 4 then [] else run.nonce, run.index, n⟩

/-- Core `c` is free, with the record of its job written, or the output zeroed where that fails (05 R187, R190). -/
def State.closeCore (s : State) (c : Fin 8) (run : CoreRun) (status n : Nat) : State :=
  let y := (s.setCore c none).writeRecord run.job.d (run.jobEnd c status n)
  if y.2 then y.1 else y.1.zeroOut run.job.d n

theorem State.finishCore_eq (s : State) (c : Fin 8) (run : CoreRun) (status n : Nat) : s.finishCore c run status n =
    if (s.setCore c (some { run with result := some (status, n) })).coreWaits run then
      s.setCore c (some { run with result := some (status, n) })
    else (s.setCore c (some { run with result := some (status, n) })).closeCore c run status n := by
  have hcore : (s.setCore c (some { run with result := some (status, n) })).cip.core[c.val] =
      some { run with result := some (status, n) } := Vector.getElem_set_self ..
  simp only [State.finishCore, State.releaseCore, hcore] <;> rfl

theorem State.delivered_closeCore (s : State) (e : EngIx) (c : Fin 8) (run : CoreRun) (status n : Nat) :
    (s.delivered e).closeCore c run status n = (s.closeCore c run status n).delivered e := by
  have hfree : (s.delivered e).setCore c none = (s.setCore c none).delivered e := rfl
  have hrecord (u : State) (d : JobDesc) (x : JobEnd) := State.writeRecord_delivered (e := e) d x u
  dsimp only at hrecord
  simp only [State.closeCore, hfree, hrecord, State.delivered_zeroOut]
  split <;> rfl

theorem State.delivered_finishCore (s : State) (e : EngIx) (c : Fin 8) (run : CoreRun) (status n : Nat) :
    (s.delivered e).finishCore c run status n = (s.finishCore c run status n).delivered e := by
  have hset (x : Option CoreRun) : (s.delivered e).setCore c x = (s.setCore c x).delivered e := rfl
  have hwaits (u : State) : (u.delivered e).coreWaits run = u.coreWaits run := rfl
  simp only [State.finishCore_eq, hset, hwaits, State.delivered_closeCore]
  split <;> rfl

/-- The output bytes of a job that has ended OK and waits for the peer. -/
def CoreRun.written (run : CoreRun) : Nat :=
  match run.result with
  | some (0, n) => n
  | _ => 0

/-- The job that core `c` has taken ends ABORTED, if it is of requester `r` (R188). -/
def State.abortCore (s : State) (r : Nat) (c : Fin 8) : State :=
  match s.cip.core[c.val] with
  | some run => if run.job.req = r then (s.zeroOut run.job.d run.written).finishCore c run 8 0 else s
  | none => s

theorem State.abortCore_mine {c : Fin 8} {run : CoreRun} {r : Nat} (h : s.cip.core[c.val] = some run) (hr : run.job.req = r) :
    s.abortCore r c = (s.zeroOut run.job.d run.written).finishCore c run 8 0 := by
  simp only [State.abortCore, h, hr, if_true]

/-- A core that has no job of the requester stays as it is. -/
theorem State.abortCore_other {c : Fin 8} {r : Nat} (h : ∀ run, s.cip.core[c.val] = some run → run.job.req ≠ r) :
    s.abortCore r c = s := by
  rcases hcore : s.cip.core[c.val] with _ | run
  · simp only [State.abortCore, hcore]
  · simp only [State.abortCore, hcore, if_neg (h run hcore)]

theorem State.abortJobs_eq (s : State) (r : Nat) : s.abortJobs r =
    (({ s with cip := { s.cip with queue := s.cip.queue.filter (fun j => j.req != r) } } : State).each
      (s.cip.queue.filter (fun j => j.req == r)) (fun u j => u.unstartedRecord j.d 8)).each (List.finRange 8)
        (fun u c => u.abortCore r c) := rfl

theorem State.delivered_abortCore (s : State) (e : EngIx) (r : Nat) (c : Fin 8) :
    (s.delivered e).abortCore r c = (s.abortCore r c).delivered e := by
  by_cases h : ∃ run, s.cip.core[c.val] = some run ∧ run.job.req = r
  · obtain ⟨run, hcore, hr⟩ := h
    rw [State.abortCore_mine hcore hr, State.abortCore_mine (s := s.delivered e) hcore hr, State.delivered_zeroOut,
      State.delivered_finishCore]
  · have hother (run : CoreRun) (hcore : s.cip.core[c.val] = some run) : run.job.req ≠ r := fun hr => h ⟨run, hcore, hr⟩
    rw [State.abortCore_other hother, State.abortCore_other (s := s.delivered e) hother]

theorem State.delivered_each {α : Type} {f : State → α → State} (hf : ∀ u x, f (u.delivered e) x = (f u x).delivered e) (l : List α)
    (s : State) : (s.delivered e).each l f = (s.each l f).delivered e := by
  induction l generalizing s with
  | nil => rfl
  | cons x l ih => rw [State.each_cons, State.each_cons, hf, ih]

/-- The jobs that end leave the same whether the results in flight of an engine have been delivered before or after. -/
theorem State.delivered_abortJobs (s : State) (e : EngIx) (r : Nat) :
    (s.delivered e).abortJobs r = (s.abortJobs r).delivered e := by
  have hqueue : ({ s.delivered e with cip := { (s.delivered e).cip with
      queue := (s.delivered e).cip.queue.filter (fun j => j.req != r) } } : State) =
    ({ s with cip := { s.cip with queue := s.cip.queue.filter (fun j => j.req != r) } } : State).delivered e := rfl
  rw [State.abortJobs_eq, State.abortJobs_eq, hqueue, State.delivered_each (fun u j => State.delivered_unstartedRecord u e j.d 8),
    State.delivered_each (fun u c => State.delivered_abortCore u e r c)]
  rfl

end Sys2Proof.Machine
end

section
/-! PROOFS. An engine enters HALTED (08_engine_fabric.md R263, R264, R267, R281, 05_cistern_security.md R188): the jobs that a forced halt
ends, the locks it releases, and the other events of the fabric (R217, R247, R266, R271). -/

namespace Sys2Proof.Machine

variable {s t u : State} {e : EngIx} {r k : Nat} {c : Fin 8}

/-! ## Changes of one part on the way through a list -/

/-- What the change at `m` alone touches stands, as that change comes, as it stood before the first; `I` holds of the states on the way. -/
theorem State.each_visits {α γ : Type} {f : State → α → State} {g : State → γ} {I : State → Prop} {m : α} (hI : ∀ u n, I u → I (f u n))
    (hother : ∀ u n, n ≠ m → g (f u n) = g u) {l : List α} (hl : l.Nodup) (hm : m ∈ l) (hs : I s) :
    ∃ u, I u ∧ g u = g s ∧ g (s.each l f) = g (f u m) := by
  induction l generalizing s with
  | nil => exact absurd hm (List.not_mem_nil)
  | cons n l ih =>
    obtain ⟨hnl, hl⟩ := List.nodup_cons.mp hl
    by_cases h : n = m
    · subst h
      exact ⟨s, hs, rfl, State.each_apart (fun u j hj => hother u j (fun e => hnl (e ▸ hj))) (f s n)⟩
    · obtain ⟨u, hu, hgu, hlast⟩ := ih hl ((List.mem_cons.mp hm).resolve_left (Ne.symm h)) (hI s n hs)
      exact ⟨u, hu, hgu.trans (hother s n h), hlast⟩

/-! ## The jobs of an engine end ABORTED (05 R188) -/

theorem StoreFrame.setCore (h : StoreFrame s t) (c : Fin 8) (x : Option CoreRun) : StoreFrame (s.setCore c x) (t.setCore c x) :=
  ⟨h.engine, h.jobs, congrArg (fun v : Vector (Option CoreRun) 8 => v.set c.val x) h.cores, h.locks⟩

theorem State.setCore_setCore (s : State) (c : Fin 8) (x y : Option CoreRun) : (s.setCore c x).setCore c y = s.setCore c y := by
  simp only [State.setCore, Vector.set_set]

theorem StoreFrame.writeRecord (s : State) (d : JobDesc) (x : JobEnd) : StoreFrame s (s.writeRecord d x).1 := by
  have hlost (u : State) : StoreFrame u (u.raise F.CIP_STAT_LOSTREC) := .put u 1 (by decide)
  have hrest := StoreFrame.moveWrite s (s.blockNS 14) 70 (jobRes d + 4) ((recordBytes d x).drop 4)
  unfold State.writeRecord
  dsimp only
  split
  · next heq => exact (hrest.of_fst heq).trans (hlost _)
  · next s1 heq =>
    have hword := StoreFrame.moveWrite s1 (s.blockNS 14) 70 (jobRes d) ((recordBytes d x).take 4)
    split
    · next heq' => exact ((hrest.of_fst heq).trans (hword.of_fst heq')).trans (hlost _)
    · next heq' =>
      have hwritten := (hrest.of_fst heq).trans (hword.of_fst heq')
      dsimp only
      split
      · exact hwritten.trans (.of_parts rfl rfl rfl rfl)
      · exact hwritten

theorem StoreFrame.zeroOut (s : State) (d : JobDesc) (n : Nat) : StoreFrame s (s.zeroOut d n) := by
  unfold State.zeroOut
  split
  · exact .moveWrite s _ _ _ _
  · exact .refl s

/-- A core whose record is tried is free. -/
theorem StoreFrame.closeCore (s : State) (c : Fin 8) (run : CoreRun) (status n : Nat) :
    StoreFrame (s.setCore c none) (s.closeCore c run status n) := by
  have hrecord := StoreFrame.writeRecord (s.setCore c none) run.job.d (run.jobEnd c status n)
  unfold State.closeCore
  dsimp only
  split
  · exact hrecord
  · exact hrecord.trans (.zeroOut _ _ _)

/-- A core that has ended is free, or keeps its result until the peer has acknowledged its counter (09 R296). -/
theorem State.finishCore_frame (s : State) (c : Fin 8) (run : CoreRun) (status n : Nat) :
    ∃ x, (x = none ∨ x = some { run with result := some (status, n) }) ∧ StoreFrame (s.setCore c x) (s.finishCore c run status n) := by
  rw [State.finishCore_eq]
  split
  · exact ⟨_, .inr rfl, .refl _⟩
  · have hclosed := StoreFrame.closeCore (s.setCore c (some { run with result := some (status, n) })) c run status n
    rw [State.setCore_setCore] at hclosed
    exact ⟨none, .inl rfl, hclosed⟩

/-- What core `c` holds once the jobs of requester `r` have ended. -/
def Aborted (r : Nat) (before after : Option CoreRun) : Prop :=
  ∀ run, before = some run →
    if run.job.req = r then after = none ∨ after = some { run with result := some (8, 0) } else after = some run

/-- The end of one core's job leaves all but that core as a write to memory does. -/
theorem State.abortCore_frame (s : State) (r : Nat) (c : Fin 8) :
    ∃ x, Aborted r s.cip.core[c.val] x ∧ StoreFrame (s.setCore c x) (s.abortCore r c) := by
  by_cases h : ∃ run, s.cip.core[c.val] = some run ∧ run.job.req = r
  · obtain ⟨run, hcore, hr⟩ := h
    obtain ⟨x, hx, hframe⟩ := State.finishCore_frame (s.zeroOut run.job.d run.written) c run 8 0
    rw [State.abortCore_mine hcore hr]
    refine ⟨x, fun run' hrun => ?_, ((StoreFrame.zeroOut s run.job.d run.written).setCore c x).trans hframe⟩
    obtain rfl : run = run' := Option.some_inj.mp (hcore.symm.trans hrun)
    rw [if_pos hr]
    exact hx
  · have hother (run : CoreRun) (hcore : s.cip.core[c.val] = some run) : run.job.req ≠ r := fun hr => h ⟨run, hcore, hr⟩
    have hself : s.setCore c s.cip.core[c.val] = s := by simp only [State.setCore, Vector.set_getElem_self]
    rw [State.abortCore_other hother]
    refine ⟨_, fun run hrun => ?_, by rw [hself]; exact .refl s⟩
    rw [if_neg (hother run hrun)]
    exact hrun

/-- The waiting jobs of requester `r` leave the queue. -/
def State.dropJobs (s : State) (r : Nat) : State := { s with cip := { s.cip with queue := s.cip.queue.filter (fun j => j.req != r) } }

/-- The waiting jobs of requester `r` leave the queue, each with its record. -/
def State.endWaiting (s : State) (r : Nat) : State :=
  (s.dropJobs r).each (s.cip.queue.filter (fun j => j.req == r)) (fun u j => u.unstartedRecord j.d 8)

theorem State.abortJobs_eq_cores (s : State) (r : Nat) :
    s.abortJobs r = (s.endWaiting r).each (List.finRange 8) (fun u c => u.abortCore r c) := State.abortJobs_eq s r

theorem StoreFrame.endWaiting (s : State) (r : Nat) : StoreFrame (s.dropJobs r) (s.endWaiting r) :=
  .each (fun u j _ => .writeRecord u j.d _) _

theorem State.abortJobs_queue (s : State) (r : Nat) : (s.abortJobs r).cip.queue = s.cip.queue.filter (fun j => j.req != r) := by
  rw [State.abortJobs_eq_cores, State.each_unchanged (fun u => u.cip.queue) (fun u c => ?_), (StoreFrame.endWaiting s r).jobs]
  · rfl
  · obtain ⟨x, -, hframe⟩ := u.abortCore_frame r c
    exact hframe.jobs

theorem State.abortJobs_lock (s : State) (r : Nat) (hk : k < 64) : (s.abortJobs r).reg (Reg.LCK_S k) = s.reg (Reg.LCK_S k) := by
  rw [State.abortJobs_eq_cores, State.each_unchanged (fun u => u.reg (Reg.LCK_S k)) (fun u c => ?_),
    (StoreFrame.endWaiting s r).locks k hk]
  · rfl
  · obtain ⟨x, -, hframe⟩ := u.abortCore_frame r c
    exact hframe.locks k hk

/-- Each core's job ends if it is of the requester, and goes on if it is not. -/
theorem State.abortJobs_core (s : State) (r : Nat) (c : Fin 8) : Aborted r s.cip.core[c.val] (s.abortJobs r).cip.core[c.val] := by
  have hother (u : State) (d : Fin 8) (hd : d ≠ c) : (u.abortCore r d).cip.core[c.val] = u.cip.core[c.val] := by
    obtain ⟨x, -, hframe⟩ := u.abortCore_frame r d
    rw [congrArg (fun v : Vector (Option CoreRun) 8 => v[c.val]) hframe.cores]
    exact Vector.getElem_set_ne d.isLt c.isLt (fun h => hd (Fin.ext h))
  obtain ⟨u, -, hcore, hlast⟩ := State.each_visits (s := s.endWaiting r) (f := fun u c => u.abortCore r c)
    (g := fun u => u.cip.core[c.val]) (I := fun _ => True) (m := c) (fun _ _ _ => trivial) hother (List.nodup_finRange 8)
    (List.mem_finRange c) trivial
  obtain ⟨x, hx, hframe⟩ := u.abortCore_frame r c
  have hkept : u.cip.core[c.val] = s.cip.core[c.val] := by
    rw [hcore]
    exact congrArg (fun v : Vector (Option CoreRun) 8 => v[c.val]) (StoreFrame.endWaiting s r).cores
  have hset : (s.abortJobs r).cip.core[c.val] = x := by
    rw [State.abortJobs_eq_cores, hlast, congrArg (fun v : Vector (Option CoreRun) 8 => v[c.val]) hframe.cores]
    exact Vector.getElem_set_self ..
  rw [hset, ← hkept]
  exact hx

/-! ## Locks orphaned (R281) -/

/-- Lock `k` is released with its orphan flag set, if a requester of `rs` holds it. -/
def State.orphanLock (s : State) (rs : Nat → Bool) (k : Nat) : State :=
  if s.flag (F.LCK_S_HELD k) && rs (s.get (F.LCK_S_HOLDER k)) then (s.freeLock k).raise (F.LCK_S_ORPHAN k) else s

theorem State.orphanLocks_eq (s : State) (rs : Nat → Bool) : s.orphanLocks rs = s.each (List.range 64) (fun u k => u.orphanLock rs k) :=
  rfl

/-- One lock's release leaves the engines, the cipher engine and memory. -/
theorem State.orphanLock_parts (s : State) (rs : Nat → Bool) (k : Nat) :
    (s.orphanLock rs k).eng = s.eng ∧ (s.orphanLock rs k).cip = s.cip ∧ (s.orphanLock rs k).mem = s.mem := by
  unfold State.orphanLock
  split
  · simp only [State.freeLock, State.raise_eq, State.lower_eq, State.put_eng, State.put_cip, State.put_mem]
    exact ⟨rfl, rfl, rfl⟩
  · exact ⟨rfl, rfl, rfl⟩

theorem State.orphanLocks_parts (s : State) (rs : Nat → Bool) :
    (s.orphanLocks rs).eng = s.eng ∧ (s.orphanLocks rs).cip = s.cip ∧ (s.orphanLocks rs).mem = s.mem := by
  rw [State.orphanLocks_eq]
  exact ⟨State.each_unchanged State.eng (fun u k => (u.orphanLock_parts rs k).1) _ s,
    State.each_unchanged State.cip (fun u k => (u.orphanLock_parts rs k).2.1) _ s,
    State.each_unchanged State.mem (fun u k => (u.orphanLock_parts rs k).2.2) _ s⟩

theorem State.orphanLock_other (s : State) (rs : Nat → Bool) {j k : Nat} (h : j ≠ k) :
    (s.orphanLock rs j).reg (Reg.LCK_S k) = s.reg (Reg.LCK_S k) := by
  have hne : Reg.LCK_S k ≠ Reg.LCK_S j := fun e => h (by simp only [Reg.LCK_S] at e; omega)
  have hput (u : State) (f : Fld) (n : Nat) (hf : f.key = Reg.LCK_S j) : (u.put f n).reg (Reg.LCK_S k) = u.reg (Reg.LCK_S k) :=
    State.reg_setReg_other u _ (hf ▸ hne)
  unfold State.orphanLock
  split
  · rw [State.raise_eq, State.freeLock, hput _ _ _ rfl, hput _ _ _ rfl, State.lower_eq, hput _ _ _ rfl]
    rfl
  · rfl

/-- What lock `k` shows follows from its register. -/
theorem State.lock_congr (h : t.reg (Reg.LCK_S k) = s.reg (Reg.LCK_S k)) : t.flag (F.LCK_S_HELD k) = s.flag (F.LCK_S_HELD k) ∧
    t.get (F.LCK_S_HOLDER k) = s.get (F.LCK_S_HOLDER k) ∧ t.flag (F.LCK_S_ORPHAN k) = s.flag (F.LCK_S_ORPHAN k) := by
  have hget (f : Fld) (hf : f.key = Reg.LCK_S k) : t.get f = s.get f := State.get_congr (hf ▸ h)
  exact ⟨congrArg (· == 1) (hget _ rfl), hget _ rfl, congrArg (· == 1) (hget _ rfl)⟩

theorem State.canonical_orphanLock (h : s.canonical = true) (rs : Nat → Bool) (k : Nat) : (s.orphanLock rs k).canonical = true := by
  unfold State.orphanLock
  split
  · exact State.canonical_put (State.canonical_put (State.canonical_put (State.canonical_congr h rfl rfl rfl rfl rfl) _ _) _ _) _ _
  · exact h

/-- A lock that is freed and orphaned is not held, and its orphan flag is set. -/
theorem State.flags_freed (h : s.canonical = true) (k : Nat) : ((s.freeLock k).raise (F.LCK_S_ORPHAN k)).flag (F.LCK_S_HELD k) = false ∧
    ((s.freeLock k).raise (F.LCK_S_ORPHAN k)).flag (F.LCK_S_ORPHAN k) = true := by
  have hdrawn : (s.draw 7).2.canonical = true := State.canonical_congr h rfl rfl rfl rfl rfl
  have hlowered := State.canonical_put hdrawn (F.LCK_S_HELD k) 0
  have hfreed : (s.freeLock k).canonical = true := State.canonical_put hlowered _ _
  have hheld : ((s.freeLock k).raise (F.LCK_S_ORPHAN k)).get (F.LCK_S_HELD k) = 0 := by
    rw [State.raise_eq, State.get_put_apart hfreed (f := F.LCK_S_ORPHAN k) (g := F.LCK_S_HELD k) 1 rfl (show 30 + 1 ≤ 32 by decide)
      (.inr (show 30 + 1 ≤ 31 by decide))]
    rw [State.freeLock, State.lower_eq, State.get_put_apart hlowered (f := F.LCK_S_HOLDER k) (g := F.LCK_S_HELD k) _ rfl (show 0 + 7 ≤ 32 by decide)
      (.inr (show 0 + 7 ≤ 31 by decide)), State.get_put_same hdrawn _ _ (show 31 + 1 ≤ 32 by decide)]
    rfl
  have horphan : ((s.freeLock k).raise (F.LCK_S_ORPHAN k)).get (F.LCK_S_ORPHAN k) = 1 := by
    rw [State.raise_eq, State.get_put_same hfreed _ _ (show 30 + 1 ≤ 32 by decide)]
    rfl
  rw [State.flag_eq, State.flag_eq, hheld, horphan]
  exact ⟨rfl, rfl⟩

/-- The locks that a requester of `rs` holds are released with their orphan flags set, and no other is touched. -/
theorem State.orphanLocks_lock (h : s.canonical = true) (rs : Nat → Bool) (k : Fin 64) :
    if s.flag (F.LCK_S_HELD k.val) = true ∧ rs (s.get (F.LCK_S_HOLDER k.val)) = true then
      (s.orphanLocks rs).flag (F.LCK_S_HELD k.val) = false ∧ (s.orphanLocks rs).flag (F.LCK_S_ORPHAN k.val) = true
    else (s.orphanLocks rs).reg (Reg.LCK_S k.val) = s.reg (Reg.LCK_S k.val) := by
  obtain ⟨u, hu, hreg, hlast⟩ := State.each_visits (f := fun u k => u.orphanLock rs k) (g := fun u => u.reg (Reg.LCK_S k.val))
    (I := fun u => u.canonical = true) (m := k.val) (fun u n hu => State.canonical_orphanLock hu rs n)
    (fun u n hn => State.orphanLock_other u rs hn) List.nodup_range (List.mem_range.mpr k.isLt) h
  rw [← State.orphanLocks_eq] at hlast
  obtain ⟨hheld, hholder, -⟩ := State.lock_congr hreg
  obtain ⟨hheld', -, horphan'⟩ := State.lock_congr hlast
  split
  · next hmine =>
    have hfreed : u.orphanLock rs k.val = (u.freeLock k.val).raise (F.LCK_S_ORPHAN k.val) := by
      refine if_pos ?_
      rw [hheld, hholder, hmine.1, hmine.2]
      rfl
    rw [hheld', horphan', hfreed]
    exact State.flags_freed hu k.val
  · next hnot =>
    have hstays : u.orphanLock rs k.val = u := by
      refine if_neg ?_
      rwa [hheld, hholder, Bool.and_eq_true]
    exact hlast.trans ((congrArg (fun v : State => v.reg (Reg.LCK_S k.val)) hstays).trans hreg)

/-! ## HALT_COMPLETE (R263, R264, R267) -/

/-- An engine as it enters HALTED, after a forced halt or an ordinary one. -/
def Eng.halted (g : Eng) (forced : Bool) : Eng := { g with state := .halted, forced := false, loaded := g.loaded && !forced }

/-- Engine `e` enters HALTED with its sequence shown, the halt logged and told as its reason asks (14 R452, 12 R376). -/
def State.enterHalted (s : State) (e : EngIx) (why : Nat) (forced : Bool) : State :=
  let s3 := (s.setEng e ((s.engAt e).halted forced)).showSeq e
  let s4 := if 3 ≤ why then s3.log 3 (pack [(0, e.val), (8, why)]) else s3
  if why = 1 then s4 else s4.pulse (128 + e.val)

theorem exec_haltComplete (hst : (s.engAt e).state = .halting) (hstall : (s.engAt e).stall = none) : exec (.haltComplete e) s =
    .next ((if (s.engAt e).forced then ((s.delivered e).abortJobs e.val).orphanLocks (fun h => h == e.val)
      else s.delivered e).enterHalted e (s.engAt e).why (s.engAt e).forced) := by
  have hdef : exec (.haltComplete e) s = execHaltComplete e s := rfl
  have hgo : ((s.engAt e).state != .halting || (s.engAt e).stall.isSome) = false := by rw [hst, hstall]; rfl
  rw [hdef, execHaltComplete]
  dsimp only
  rw [hgo, if_neg Bool.false_ne_true]
  rfl

theorem State.log_eq (s : State) (code detail : Nat) :
    s.log code detail = { s with flc := (s.log code detail).flc, regs := (s.log code detail).regs } := by
  unfold State.log
  split_ifs <;> rfl

/-- Entering HALTED changes the engine, registers, the logbook's queue and pulses alone. -/
theorem State.enterHalted_eq (s : State) (e : EngIx) (why : Nat) (forced : Bool) : s.enterHalted e why forced =
    { s.setEng e ((s.engAt e).halted forced) with
      regs := (s.enterHalted e why forced).regs, flc := (s.enterHalted e why forced).flc,
      pulses := (s.enterHalted e why forced).pulses } := by
  unfold State.enterHalted
  dsimp only
  split_ifs
  · rw [State.log_eq]; rfl
  · rfl
  · rw [State.log_eq]; rfl
  · rfl

theorem State.engAt_enterHalted_same (s : State) (e : EngIx) (why : Nat) (forced : Bool) :
    (s.enterHalted e why forced).engAt e = (s.engAt e).halted forced := by
  rw [State.enterHalted_eq]
  exact State.engAt_setEng_same s e _

theorem State.engAt_enterHalted_other (s : State) {e j : EngIx} (h : j ≠ e) (why : Nat) (forced : Bool) :
    (s.enterHalted e why forced).engAt j = s.engAt j := by
  rw [State.enterHalted_eq]
  exact State.engAt_setEng_other s _ h

theorem State.enterHalted_cip (s : State) (e : EngIx) (why : Nat) (forced : Bool) : (s.enterHalted e why forced).cip = s.cip := by
  rw [State.enterHalted_eq]
  rfl

theorem State.enterHalted_mem (s : State) (e : EngIx) (why : Nat) (forced : Bool) : (s.enterHalted e why forced).mem = s.mem := by
  rw [State.enterHalted_eq]
  rfl

theorem State.enterHalted_lock (s : State) (e : EngIx) (why : Nat) (forced : Bool) (hk : k < 64) :
    (s.enterHalted e why forced).reg (Reg.LCK_S k) = s.reg (Reg.LCK_S k) := by
  have hlt := e.isLt
  have hshown (u : State) : (u.showSeq e).reg (Reg.LCK_S k) = u.reg (Reg.LCK_S k) := by
    rw [State.showSeq, State.reg_setReg_other _ _ (by simp only [Reg.LCK_S, Reg.ENG_NX]; omega),
      State.reg_setReg_other _ _ (by simp only [Reg.LCK_S, Reg.ENG_PC]; omega)]
  have hlog (u : State) (code detail : Nat) := (StoreFrame.log u code detail).locks k hk
  have hpulse (u : State) (n : Nat) : (u.pulse n).reg (Reg.LCK_S k) = u.reg (Reg.LCK_S k) := rfl
  unfold State.enterHalted
  dsimp only
  split_ifs <;> simp only [hpulse, hlog, hshown, State.reg_setEng]

/-- An ordinary halt ends with everything in flight delivered. -/
theorem State.enterHalted_ordinary (hf : (s.engAt e).forced = false) (hw : (s.engAt e).why < 3) :
    (s.delivered e).enterHalted e (s.engAt e).why (s.engAt e).forced =
      (let t := (s.setEng e { (s.engAt e).drain with state := .halted, forced := false }).showSeq e
       if (s.engAt e).why = 1 then t else t.pulse (128 + e.val)) := by
  have hengine : (s.delivered e).setEng e (((s.delivered e).engAt e).halted false) =
      s.setEng e { (s.engAt e).drain with state := .halted, forced := false } := by
    rw [State.engAt_delivered_same, State.delivered, State.setEng_setEng, Eng.halted, Bool.not_false, Bool.and_true]
  simp only [State.enterHalted, hf, hengine, if_neg (Nat.not_le.mpr hw)]

/-- The state in which an engine enters HALTED after a forced halt: its jobs have ended and its locks are released. -/
def State.forceCleared (s : State) (e : EngIx) : State := ((s.delivered e).abortJobs e.val).orphanLocks (fun h => h == e.val)

theorem State.forceCleared_cip (s : State) (e : EngIx) : (s.forceCleared e).cip = (s.abortJobs e.val).cip := by
  obtain ⟨-, hcip, -⟩ := ((s.delivered e).abortJobs e.val).orphanLocks_parts (fun h => h == e.val)
  rw [State.forceCleared, hcip, State.delivered_abortJobs, State.delivered, State.setEng_cip]

theorem State.forceCleared_mem (s : State) (e : EngIx) : (s.forceCleared e).mem = (s.abortJobs e.val).mem := by
  obtain ⟨-, -, hmem⟩ := ((s.delivered e).abortJobs e.val).orphanLocks_parts (fun h => h == e.val)
  rw [State.forceCleared, hmem, State.delivered_abortJobs, State.delivered, State.setEng_mem]

theorem State.engAt_forceCleared (s : State) (e j : EngIx) : (s.forceCleared e).engAt j = ((s.abortJobs e.val).delivered e).engAt j := by
  obtain ⟨heng, -, -⟩ := ((s.delivered e).abortJobs e.val).orphanLocks_parts (fun h => h == e.val)
  rw [State.forceCleared, State.engAt, heng, State.delivered_abortJobs, State.engAt]

/-- A forced halt releases every lock the engine holds, with its orphan flag set, and no other (R267, R281). -/
theorem State.forceCleared_lock (h : s.canonical = true) (e : EngIx) (k : Fin 64) :
    if s.flag (F.LCK_S_HELD k.val) = true ∧ s.get (F.LCK_S_HOLDER k.val) = e.val then
      (s.forceCleared e).flag (F.LCK_S_HELD k.val) = false ∧ (s.forceCleared e).flag (F.LCK_S_ORPHAN k.val) = true
    else (s.forceCleared e).reg (Reg.LCK_S k.val) = s.reg (Reg.LCK_S k.val) := by
  have hcanon : ((s.delivered e).abortJobs e.val).canonical = true :=
    (State.keeps_abortJobs (.refl (s.delivered e)) e.val).canon (State.canonical_congr h rfl rfl rfl rfl rfl)
  have hreg : ((s.delivered e).abortJobs e.val).reg (Reg.LCK_S k.val) = s.reg (Reg.LCK_S k.val) :=
    (State.abortJobs_lock _ _ k.isLt).trans (State.reg_setEng ..)
  obtain ⟨hheld, hholder, -⟩ := State.lock_congr hreg
  have horphaned := State.orphanLocks_lock hcanon (fun h => h == e.val) k
  rw [hheld, hholder, hreg] at horphaned
  simp only [beq_iff_eq] at horphaned
  exact horphaned

/-! ## RESULT_DELIVERY, WATCHDOG_EXPIRY and SAMPLE_ARRIVAL (07 R217, R247, 08 R271) -/

/-- The oldest result of its unit is delivered, once its latency has elapsed or while the engine halts. -/
theorem exec_resultDelivery {f : Flight} {before after : List Flight} (hfl : (s.engAt e).flight = before ++ f :: after)
    (hb : ∀ x ∈ before, x.unit ≠ f.unit) (hstall : (s.engAt e).stall = none)
    (hdue : f.due ≤ (s.engAt e).pos ∨ (s.engAt e).state = .halting) :
    exec (.resultDelivery e f.unit) s = .next (s.setEng e { (s.engAt e).deliver f with flight := before ++ after }) := by
  have hdef : exec (.resultDelivery e f.unit) s = execResultDelivery e f.unit s := rfl
  have hfind : (s.engAt e).flight.find? (fun x => x.unit == f.unit) = some f :=
    List.find?_eq_some_iff_append.mpr ⟨beq_self_eq_true _, before, after, hfl, fun x hx => by simpa using hb x hx⟩
  have herase : (s.engAt e).flight.erase f = before ++ after := by
    rw [hfl, List.erase_append_right _ (fun hmem => hb f hmem rfl), List.erase_cons_head]
  have hgo : ((s.engAt e).stall.isNone && (decide (f.due ≤ (s.engAt e).pos) || (s.engAt e).state == .halting)) = true := by
    rw [hstall, Option.isNone_none, Bool.true_and, Bool.or_eq_true, decide_eq_true_iff, beq_iff_eq]
    exact hdue
  rw [hdef]
  simp only [execResultDelivery, hfind, hgo, if_true, herase]

/-- A watchdog that counts expires: first an exception, then a forced halt. -/
theorem exec_watchdogExpiry (hst : (s.engAt e).state ≠ .halted) (hl : s.get (F.ENG_WDT_LIMIT e.val) ≠ 0) (hp : s.pwrState = 0) :
    exec (.watchdogExpiry e) s = .next (if (s.engAt e).wdx then s.orderHalt e 4 true
      else s.setEng e { s.engAt e with wdx := true, wdPending := true }) := by
  have hdef : exec (.watchdogExpiry e) s = execWatchdogExpiry e s := rfl
  have hgo : ((s.engAt e).state == .halted || s.get (F.ENG_WDT_LIMIT e.val) == 0 || s.pwrState != 0) = false := by
    simp [hst, hl, hp]
  rw [hdef, execWatchdogExpiry]
  dsimp only
  rw [hgo, if_neg Bool.false_ne_true]

/-- A sample of the tapped lane joins the FIFO, whose oldest of 64 goes when it is full. -/
theorem exec_sampleArrival {n : LaneIx} (hn : (s.engAt e).lio.lane = n.val) (hs : (s.engAt e).lio.sample = true)
    (hen : s.chainEnabled (laneChain n) = true) (hd : s.chainDark (laneChain n) = false) (i q : BitVec 16) :
    exec (.sampleArrival e i q) s = .next (s.setEng e { s.engAt e with lio := { (s.engAt e).lio with
      fifo := ((s.engAt e).lio.fifo ++ [(i, q)]).drop ((s.engAt e).lio.fifo.length + 1 - 64)
      ovf := (s.engAt e).lio.ovf || decide (64 ≤ (s.engAt e).lio.fifo.length) } }) := by
  have hdef : exec (.sampleArrival e i q) s = execSampleArrival e i q s := rfl
  have hgo : ((s.engAt e).lio.sample && s.chainEnabled (laneChain n) && !s.chainDark (laneChain n)) = true := by rw [hs, hen, hd]; rfl
  have hfull : decide (64 < (s.engAt e).lio.fifo.length + 1) = decide (64 ≤ (s.engAt e).lio.fifo.length) :=
    decide_eq_decide.mpr Nat.lt_succ_iff
  rw [hdef]
  simp only [execSampleArrival, hn, laneNo_val, hgo, if_true, lastN, List.length_append, List.length_singleton, hfull]

/-- What a forced halt leaves: the engine HALTED and not LOADED, its jobs ended and its locks released (R267). -/
theorem State.forceHalted_leaves (s : State) (e : EngIx) (why : Nat) :
    let t := (s.forceCleared e).enterHalted e why true
    (t.engAt e).state = .halted ∧ (t.engAt e).loaded = false ∧ (t.engAt e).forced = false ∧ (t.engAt e).flight = [] ∧
      (∀ k : EngIx, k ≠ e → t.engAt k = (s.abortJobs e.val).engAt k) ∧
      t.cip.queue = s.cip.queue.filter (fun j => j.req != e.val) ∧
      (∀ c : Fin 8, Aborted e.val s.cip.core[c.val] t.cip.core[c.val]) ∧
      t.mem = (s.abortJobs e.val).mem ∧
      (s.canonical = true → ∀ k : Fin 64,
        if s.flag (F.LCK_S_HELD k.val) = true ∧ s.get (F.LCK_S_HOLDER k.val) = e.val then
          t.flag (F.LCK_S_HELD k.val) = false ∧ t.flag (F.LCK_S_ORPHAN k.val) = true
        else t.reg (Reg.LCK_S k.val) = s.reg (Reg.LCK_S k.val)) := by
  have hsame := (s.forceCleared e).engAt_enterHalted_same e why true
  have hflight : ((s.forceCleared e).engAt e).flight = [] := by
    rw [State.engAt_forceCleared, State.engAt_delivered_same, Eng.drain_eq]
  have hcip : ((s.forceCleared e).enterHalted e why true).cip = (s.abortJobs e.val).cip :=
    (State.enterHalted_cip ..).trans (s.forceCleared_cip e)
  intro t
  refine ⟨by rw [hsame]; rfl, by rw [hsame]; exact Bool.and_false _, by rw [hsame]; rfl, by rw [hsame]; exact hflight,
    fun k hk => ?_, ?_, fun c => ?_, ?_, fun hc k => ?_⟩
  · rw [State.engAt_enterHalted_other _ hk, State.engAt_forceCleared, State.engAt_delivered_other _ hk]
  · rw [hcip, State.abortJobs_queue]
  · simp only [t, hcip]
    exact s.abortJobs_core e.val c
  · rw [State.enterHalted_mem, State.forceCleared_mem]
  · have hreg := (s.forceCleared e).enterHalted_lock e why true k.isLt
    obtain ⟨hheld, -, horphan⟩ := State.lock_congr hreg
    rw [hheld, horphan, hreg]
    exact State.forceCleared_lock hc e k

/-- Settles O23: each event by its lemma above; a forced halt by what the end of the jobs and the release of the locks leave. -/
theorem engineEventsOfTheFabric : Obligations.EngineEventsOfTheFabric := by
  intro s e g
  refine ⟨?_, fun hst hstall hf hw => ?_, fun hst hstall hf => ?_, fun x hx hst => ?_, fun hst hl hp => ⟨fun hw => ?_, fun hw hstall => ?_⟩,
    fun n i q hn hs hen hd => exec_sampleArrival hn hs hen hd i q⟩
  · rintro u f before after hfl rfl hb hstall hdue
    exact exec_resultDelivery hfl hb hstall hdue
  · have hhalt := exec_haltComplete hst hstall
    rw [hf, if_neg Bool.false_ne_true, ← hf, State.enterHalted_ordinary hf hw] at hhalt
    exact ⟨fun h1 => hhalt.trans (congrArg _ (if_pos h1)), fun h1 => hhalt.trans (congrArg _ (if_neg h1))⟩
  · have hhalt := exec_haltComplete hst hstall
    rw [hf, if_pos rfl] at hhalt
    exact ⟨_, hhalt, State.forceHalted_leaves s e _⟩
  · rw [exec_stallLimit hx, if_neg hst]
  · rw [exec_watchdogExpiry hst hl hp, if_neg (Bool.eq_false_iff.mp hw)]
  · rw [exec_watchdogExpiry hst hl hp, if_pos hw, State.orderHalt_within hstall, Bool.or_true, Bool.not_true, Bool.and_false]

end Sys2Proof.Machine
end
section
/-! PROOFS. The Siphon's lanes and frames (09_pair_siphon.md R287, R288, R291, R292): characters, frames as they go out, the frames that
wait, what a received header's ACK and NAK do, and records that wait for none. -/

namespace Sys2Proof.Machine

variable {s t : State} {c : Fin 8}

/-! ## Characters (R287, R288) -/

/-- Two bytes go in each character time. -/
theorem two_mul_length_onLanes (bs : List Byte) (h : bs.length % 2 = 0) : 2 * (onLanes bs).length = bs.length := by
  induction bs using onLanes.induct with
  | case1 a b l ih =>
    simp only [List.length_cons] at h
    simp only [onLanes, List.length_cons, Nat.mul_add, ih (by omega)]
  | case2 bs hshort =>
    rcases bs with _ | ⟨a, _ | ⟨b, l⟩⟩
    · rfl
    · simp at h
    · exact absurd rfl (hshort a b l)

theorem getElem?_onLanes (bs : List Byte) {j : Nat} (hj : j < bs.length / 2) :
    (onLanes bs)[j]? = some (.data (bs.getD (2 * j) 0), .data (bs.getD (2 * j + 1) 0)) := by
  induction bs using onLanes.induct generalizing j with
  | case1 a b l ih =>
    cases j with
    | zero => rfl
    | succ j =>
      simp only [List.length_cons] at hj
      exact ih (by omega)
  | case2 bs hshort =>
    rcases bs with _ | ⟨a, _ | ⟨b, l⟩⟩
    · simp at hj
    · simp at hj
    · exact absurd rfl (hshort a b l)

/-- Characters go out unless the balls are held. -/
theorem State.putLanes_eq (s : State) (chars : List (SphChar × SphChar)) : s.putLanes chars =
    { s with sph := { s.sph with sent := s.sph.sent ++ if s.pwr.latch.isSome then [] else chars } } := by
  unfold State.putLanes
  split
  · rw [List.append_nil]
  · rfl

theorem State.draw_lt (s : State) (w : Nat) : (s.draw w).1 < 2 ^ w := Nat.mod_lt _ (Nat.two_pow_pos w)

theorem State.sendIdles_eq (s : State) (n : Nat) : s.sendIdles n = { s with free := s.free + 1, sph := { s.sph with
    sent := s.sph.sent ++ if s.pwr.latch.isSome then [] else (List.range n).map (fun i => idleAt ((s.draw 4).1 + i)) } } := by
  rw [State.sendIdles, State.putLanes_eq]
  rfl

/-! ## Frames sent (R291) -/

theorem State.transmit_eq (s : State) (type seq : Nat) (sync : Bool) (payload : List Byte) :
    s.transmit type seq sync payload = { s with free := s.free + 1, sph := { s.sph with
      nakOwed := false
      sent := s.sph.sent ++ if s.pwr.latch.isSome then [] else
        frameChars (s.header type (payload.length / 4) seq sync ++ payload) ++
          [idleAt (s.draw 4).1, idleAt ((s.draw 4).1 + 1)] } } := by
  have hrange : List.range 2 = [0, 1] := rfl
  rw [State.transmit, State.putLanes_eq, State.sendIdles_eq, hrange]
  dsimp only
  split
  · simp only [List.append_nil]
  · simp only [List.append_assoc]
    rfl

theorem State.sendWaiting_nil (s : State) : s.sendWaiting [] = { s with sph := { s.sph with waiting := [] } } := rfl

theorem hasRoom_iff (out : List OutFrame) (f : OutFrame) : hasRoom out f = true ↔
    out.length < 256 ∧ (out.map (fun x => x.payload.length + 12)).sum + f.payload.length + 12 ≤ 32768 := by
  rw [hasRoom, decide_eq_true_iff, Nat.add_assoc]
  rfl

/-- The oldest frame that waits goes out where there is room. -/
theorem State.sendWaiting_cons (s : State) (f : OutFrame) (l : List OutFrame) : s.sendWaiting (f :: l) =
    if s.sph.out.length < 256 ∧ (s.sph.out.map (fun x => x.payload.length + 12)).sum + f.payload.length + 12 ≤ 32768 then
      (({ s with sph := { s.sph with out := s.sph.out ++ [f] } } : State).emit f).sendWaiting l
    else { s with sph := { s.sph with waiting := f :: l } } := by
  rw [State.sendWaiting]
  simp only [hasRoom_iff]

theorem State.sendWaiting_none (h : s.sph.waiting = []) : s.sendWaiting s.sph.waiting = s := by
  rw [h, State.sendWaiting_nil, ← h]

/-! ## Records that wait for the peer (R296) -/

/-- No core keeps a finished result whose record is still to be written. -/
def State.noResult (s : State) : Prop := ∀ c : Fin 8, (s.cip.core[c.val]).bind (fun x => x.result) = none

theorem State.releaseCore_none (h : (s.cip.core[c.val]).bind (fun x => x.result) = none) : s.releaseCore c = s := by
  unfold State.releaseCore
  cases hcore : s.cip.core[c.val] with
  | none => rfl
  | some run =>
    rw [hcore] at h
    have hres : run.result = none := h
    simp only [hres]

/-- A state that every step leaves as it is stays through a list of them. -/
theorem State.each_self {α : Type} {f : State → α → State} (hf : ∀ x, f s x = s) (l : List α) : s.each l f = s := by
  induction l with
  | nil => rfl
  | cons x l ih => rw [State.each_cons, hf, ih]

/-- With no result kept no record is written. -/
theorem State.releaseRecords_none (h : s.noResult) : s.releaseRecords = s := by
  have heach {u : State} (hu : u.cip = s.cip) : u.each (List.finRange 8) State.releaseCore = u :=
    State.each_self (fun c => State.releaseCore_none (by rw [hu]; exact h c)) _
  unfold State.releaseRecords State.ownAccess
  split
  · exact heach rfl
  · next m hm =>
    dsimp only
    rw [heach (u := { s with inForce := none }) rfl, ← hm]

theorem State.noResult.congr (hs : s.noResult) (h : t.cip = s.cip) : t.noResult := by
  unfold State.noResult
  rw [h]
  exact hs

/-- A change of the cores that leaves their results. -/
theorem State.noResult.map (hs : s.noResult) {f : CoreRun → CoreRun} (hf : ∀ run, (f run).result = run.result)
    (h : t.cip.core = s.cip.core.map (fun x => x.map f)) : t.noResult := by
  intro c
  have hc := hs c
  rw [h, Vector.getElem_map]
  cases hcore : s.cip.core[c.val] with
  | none => rfl
  | some run =>
    rw [hcore] at hc
    exact (hf run).trans hc

/-- What goes to the peer leaves the cores. -/
theorem State.sendWaiting_cip (s : State) (l : List OutFrame) : (s.sendWaiting l).cip = s.cip :=
  (congrArg State.cip (State.outsidePeer_sendWaiting l s) :)

/-! ## ACK and NAK (R292) -/

/-- Without frames outstanding the part numbers on from the last one its peer has accepted. -/
theorem State.numberFrom_eq (s : State) (ack : Nat) : s.numberFrom ack = if s.sph.out = [] ∧ s.sph.waiting = [] then { s with
    sph := { s.sph with txSeq := ack % 65536 }
    cip := { s.cip with core := s.cip.core.map (fun x => x.map (fun run => { run with waitSeq := none })) } } else s := by
  unfold State.numberFrom
  simp only [Bool.and_eq_true, List.isEmpty_iff]
  refine if_ctx_congr Iff.rfl (fun h => ?_) (fun _ => rfl)
  obtain ⟨hout, hwait⟩ := h
  have hnone (q : Option Nat) : (q.bind fun _ => (none : Option Nat)) = none := by cases q <;> rfl
  simp [State.renumber, State.unacked, hout, hwait, hnone]

theorem afterAck_split {before after : List OutFrame} {f : OutFrame} {ack : Nat} (hb : ∀ x ∈ before, x.seq ≠ ack) (hf : f.seq = ack) :
    afterAck (before ++ f :: after) ack = after := by
  have hany : (before ++ f :: after).any (fun x => x.seq == ack) = true := by simp [hf]
  have hdrop : (before ++ f :: after).dropWhile (fun x => x.seq != ack) = f :: after := by
    rw [List.dropWhile_append_of_pos (fun x hx => bne_iff_ne.mpr (hb x hx)), List.dropWhile_cons_of_neg (by simp [hf])]
  rw [afterAck, if_pos hany, hdrop, List.drop_one, List.tail_cons]

theorem State.takeHeader_ack {h : SphHdr} (ha : h.ackv = true) (hn : h.nak = false) : s.takeHeader h =
    (({ s with sph := { s.sph with out := afterAck s.sph.out h.ack.toNat } } : State).sendWaiting
      s.sph.waiting).releaseRecords.numberFrom h.ack.toNat := by
  simp only [State.takeHeader, ha, hn, if_true, Bool.false_eq_true, if_false]

theorem State.takeHeader_none {h : SphHdr} (ha : h.ackv = false) (hn : h.nak = false) : s.takeHeader h = s := by
  simp only [State.takeHeader, ha, hn, Bool.false_eq_true, if_false]

theorem State.resendOut_eq (h : s.sph.out ≠ []) : s.resendOut = (s.each s.sph.out State.emit).bump F.SPH_RETRY_COUNT := by
  rw [State.resendOut, if_neg (by rwa [List.isEmpty_iff])]

theorem State.takeHeader_nak {h : SphHdr} (ha : h.ackv = false) (hn : h.nak = true) : s.takeHeader h = s.resendOut := by
  simp only [State.takeHeader, ha, hn, Bool.false_eq_true, if_false, if_true]

end Sys2Proof.Machine
end

section
/-! PROOFS. Pairing on and off (09_pair_siphon.md R283, R315): the write of SPH_CTL, the launches given up, and the peer that goes. -/

namespace Sys2Proof.Machine

variable {s t u : State} {r k : Nat} {v : Word}

/-! ## Launches given up (log entry 124) -/

/-- All that giving up launches leaves as it is, registers aside. -/
def State.outsideCancel (s : State) : State := { s with regs := [], sfm := { launches := s.sfm.launches } }

/-- A launch that is not made is a skipped beacon or returns its request. -/
theorem ChangeFrame.cancelLaunch (s : State) (l : Launch) :
    ChangeFrame State.outsideCancel (fun k => k = Reg.SFM_BCNSKIP) s (s.cancelLaunch l) := by
  have hsfm (m : Sfm) (h : m.launches = s.sfm.launches) :
      ChangeFrame State.outsideCancel (fun k => k = Reg.SFM_BCNSKIP) s { s with sfm := m } :=
    .of_regs (Keeps.upd.mpr (.refl s)) (by rw [State.outsideCancel, State.outsideCancel, h]) rfl
  cases hreq : l.req with
  | some q =>
    rw [State.cancelLaunch_request hreq]
    exact hsfm _ rfl
  | none =>
    rw [State.cancelLaunch_beacon hreq]
    by_cases h : s.running = true ∧ l.slot / 128 ≠ s.sfm.asn.toNat / 128
    · rw [State.skipBeacon_ahead h]
      exact hsfm _ rfl
    · rw [State.skipBeacon_now h]
      exact .branch (.refl _ _ s) (.put s _ _ rfl rfl)

/-- Dropping every launch is giving each up with none left. -/
theorem ChangeFrame.dropLaunches (s : State) : ChangeFrame State.outsideCancel (fun k => k = Reg.SFM_BCNSKIP)
    { s with sfm := { s.sfm with launches := [] } } s.dropLaunches :=
  .each (fun u l _ => .cancelLaunch u l) _

theorem State.dropLaunches_parts (s : State) : s.dropLaunches.sfm.launches = [] ∧ s.dropLaunches.tx = s.tx ∧ s.dropLaunches.sph = s.sph ∧
    s.dropLaunches.mem = s.mem :=
  have h := ChangeFrame.dropLaunches s
  ⟨h.proj (g := fun u => u.sfm.launches) (fun _ => rfl), h.proj (g := State.tx) (fun _ => rfl), h.proj (g := State.sph) (fun _ => rfl),
    h.proj (g := State.mem) (fun _ => rfl)⟩

theorem State.canonical_dropLaunches (hc : s.canonical = true) : s.dropLaunches.canonical = true :=
  (State.keeps_dropLaunches (.refl s)).canon hc

theorem State.dropLaunches_none (h : s.sfm.launches = []) : s.dropLaunches = s := by
  rw [State.dropLaunches, h]
  change ({ s with sfm := { s.sfm with launches := [] } } : State) = s
  rw [← h]

/-- The hop that is given up leaves the transmitter without one. -/
theorem State.dropHop_parts (s : State) : s.dropHop.tx.hop = none ∧ s.dropHop.tx.cur = s.tx.cur ∧ s.dropHop.sph = s.sph ∧
    s.dropHop.mem = s.mem := by
  unfold State.dropHop
  split
  · next l _ =>
    have h (u : State) := ChangeFrame.cancelLaunch u l
    exact ⟨(h _).proj (g := fun u => u.tx.hop) (fun _ => rfl), (h _).proj (g := fun u => u.tx.cur) (fun _ => rfl),
      (h _).proj (g := State.sph) (fun _ => rfl), (h _).proj (g := State.mem) (fun _ => rfl)⟩
  · next hnone => exact ⟨hnone, rfl, rfl, rfl⟩

theorem State.dropHop_none (h : s.tx.hop = none) : s.dropHop = s := by
  simp only [State.dropHop, h]

theorem State.canonical_dropHop (hc : s.canonical = true) : s.dropHop.canonical = true := (State.keeps_dropHop (.refl s)).canon hc

/-! ## The peer goes (R296, R312) -/

/-- With no result kept the peer's loss writes no record. -/
theorem State.dropPeer_eq (h : s.noResult) : s.dropPeer = { s with
    sph := { s.sph with later := [], peer := 0, aligning := false, handover := none, heir := false, mirror := [] }
    flc := { s.flc with waits := s.flc.waits.filter (fun w => w != .request) }
    cip := { s.cip with core := s.cip.core.map (fun x => x.map (fun run => { run with waitSeq := none })) } } := by
  unfold State.dropPeer
  exact State.releaseRecords_none (h.map (f := fun run => { run with waitSeq := none }) (fun _ => rfl) rfl)

/-! ## The write of SPH_CTL -/

/-- The row of SPH_CTL. -/
def sphCtlRow : RegRow := ⟨Reg.SPH_CTL, 4, 1, 4, 1, .single, 0xFFFF000B, 0, 0, 0, 0, 0, 0, 0, 8⟩

theorem directAt_SPH_CTL : sphCtlRow.DirectAt Reg.SPH_CTL := by decide +kernel

/-- EN is bit 0 of SPH_CTL. -/
theorem State.pairing_eq (s : State) : s.pairing = (s.reg Reg.SPH_CTL).getLsbD 0 := bitAt_toNat _ 0

theorem sphCtlRow_writable (locked : Bool) : (sphCtlRow.writable locked).testBit 0 = true := by cases locked <;> decide

/-- EN takes the bit that is written. -/
theorem getLsbD_written_EN (locked : Bool) (old v : Word) : (sphCtlRow.written locked old v).getLsbD 0 = v.getLsbD 0 := by
  rw [RegRow.getLsbD_written _ _ _ _ (by decide), sphCtlRow_writable, if_pos rfl]
  simp [sphCtlRow]

/-- A write of EN that carries the other fields' values writes that word. -/
theorem written_EN (locked : Bool) (old : Word) (b : Bool) : sphCtlRow.written locked old (runWord old b) = runWord old b := by
  refine BitVec.eq_of_getLsbD_eq (fun i hi => ?_)
  rw [RegRow.getLsbD_written _ _ _ _ hi, getLsbD_runWord _ _ hi]
  by_cases h0 : i = 0
  · rw [h0, sphCtlRow_writable]
    simp [sphCtlRow]
  · simp [h0, sphCtlRow]

/-- A write of SPH_CTL that goes through. -/
theorem State.command32_sphCtl (h : s.admits r Reg.SPH_CTL true = true) (v : Word) : s.command32 r Reg.SPH_CTL v =
    ((((s.served r Reg.SPH_CTL).setReg Reg.SPH_CTL
      (sphCtlRow.written (s.locked Reg.SPH_CTL) (s.reg Reg.SPH_CTL) v))).pairCtlWritten (s.reg Reg.SPH_CTL)).answered 0 := by
  have hwrote (p q : State) (w : Word) :
      p.wrote q r Reg.SPH_CTL Reg.SPH_CTL w = (q.pairCtlWritten (p.reg Reg.SPH_CTL), none) := rfl
  rw [State.command32_direct directAt_SPH_CTL h, hwrote, State.served_reg, State.answerWrite_none]

/-- What a write of EN does, by what EN was and is. -/
theorem State.pairCtlWritten_eq (t : State) (old : Word) : t.pairCtlWritten old =
    if t.pairing = true ∧ old.getLsbD 0 = false then t.pairOn
    else if t.pairing = false ∧ old.getLsbD 0 = true then t.pairOff else t := by
  unfold State.pairCtlWritten
  dsimp only
  rw [bitAt_toNat]
  cases t.pairing <;> cases old.getLsbD 0 <;> rfl

theorem State.canonical_served (hc : s.canonical = true) (r k : Nat) : (s.served r k).canonical = true :=
  (State.keeps_served (.refl s) r k).canon hc

/-- Pairing comes on where it was off. -/
theorem State.command32_pairOn (hc : s.canonical = true) (h : s.admits r Reg.SPH_CTL true = true) (hoff : s.pairing = false) (v : Word) :
    s.command32 r Reg.SPH_CTL (runWord v true) = ((s.served r Reg.SPH_CTL).setReg Reg.SPH_CTL
      (sphCtlRow.written (s.locked Reg.SPH_CTL) (s.reg Reg.SPH_CTL) (runWord v true))).pairOn.answered 0 := by
  rw [State.pairing_eq] at hoff
  have hon : ((s.served r Reg.SPH_CTL).setReg Reg.SPH_CTL
      (sphCtlRow.written (s.locked Reg.SPH_CTL) (s.reg Reg.SPH_CTL) (runWord v true))).pairing = true := by
    rw [State.pairing_eq, State.reg_setReg_same (State.canonical_served hc ..), getLsbD_written_EN, getLsbD_runWord _ _ (by decide)]
    rfl
  rw [State.command32_sphCtl h, State.pairCtlWritten_eq, if_pos ⟨hon, hoff⟩]

/-- Pairing goes off where it was on. -/
theorem State.command32_pairOff (hc : s.canonical = true) (h : s.admits r Reg.SPH_CTL true = true) (hon : s.pairing = true) :
    s.command32 r Reg.SPH_CTL (runWord (s.reg Reg.SPH_CTL) false) =
      ((s.served r Reg.SPH_CTL).setReg Reg.SPH_CTL (runWord (s.reg Reg.SPH_CTL) false)).pairOff.answered 0 := by
  rw [State.pairing_eq] at hon
  have hoff : ((s.served r Reg.SPH_CTL).setReg Reg.SPH_CTL (runWord (s.reg Reg.SPH_CTL) false)).pairing = false := by
    rw [State.pairing_eq, State.reg_setReg_same (State.canonical_served hc ..), getLsbD_runWord _ _ (by decide), if_pos rfl]
  rw [State.command32_sphCtl h, written_EN, State.pairCtlWritten_eq, hoff, hon, if_neg (by simp), if_pos ⟨rfl, rfl⟩]

/-- Turning pairing off where it is off changes nothing of the pair. -/
theorem State.command32_pairOff_again (hc : s.canonical = true) (h : s.admits r Reg.SPH_CTL true = true) (hoff : s.pairing = false) :
    s.command32 r Reg.SPH_CTL (runWord (s.reg Reg.SPH_CTL) false) = (s.served r Reg.SPH_CTL).answered 0 := by
  have hbit := hoff
  rw [State.pairing_eq] at hbit
  have hsame : runWord (s.reg Reg.SPH_CTL) false = s.reg Reg.SPH_CTL := by rw [← hbit, runWord_same]
  have hstays : (s.served r Reg.SPH_CTL).setReg Reg.SPH_CTL (s.reg Reg.SPH_CTL) = s.served r Reg.SPH_CTL := by
    rw [← State.served_reg (s := s) r Reg.SPH_CTL, State.setReg_reg (State.canonical_served hc ..)]
  rw [State.command32_sphCtl h, written_EN, hsame, hstays, State.pairCtlWritten_eq, hbit, if_neg, if_neg (by simp)]
  rw [State.pairing_eq, State.served_reg, hbit]
  simp

/-- SPH_CTL.EN goes to 0 with no result kept: of the pair only the values of the last boundary stay. -/
theorem State.pairOff_eq (h : s.noResult) (hsph : t.sph = s.sph) (hflc : t.flc = s.flc) (hcip : t.cip = s.cip) : t.pairOff =
    { (((t.put F.SPH_STAT_STATE 0).put F.SPH_STAT_LINK 0).put F.SPH_STAT_PEER_LOST 0).put F.SPH_STAT_PEER_ESTR 0 with
      sph := { bndEpoch := s.sph.bndEpoch, bndSfn := s.sph.bndSfn, bndImg := s.sph.bndImg }
      flc := { s.flc with waits := s.flc.waits.filter (fun w => w != .request) }
      cip := { s.cip with core := s.cip.core.map (fun x => x.map (fun run => { run with waitSeq := none })) } } := by
  have hpeer := State.dropPeer_eq
    (s := (((t.setPair 0).lower F.SPH_STAT_LINK).lower F.SPH_STAT_PEER_LOST).lower F.SPH_STAT_PEER_ESTR) (h.congr hcip)
  rw [← hsph, ← hflc, ← hcip, State.pairOff]
  dsimp only
  rw [hpeer]
  rfl

theorem State.served_flc (s : State) (r k : Nat) : (s.served r k).flc = s.flc := by rw [State.served_eq]; rfl
theorem State.served_cip (s : State) (r k : Nat) : (s.served r k).cip = s.cip := by rw [State.served_eq]; rfl
theorem State.served_tx (s : State) (r k : Nat) : (s.served r k).tx = s.tx := by rw [State.served_eq]; rfl

/-- The part as pairing comes on: fresh sequence numbers, and of the old pair the values of the last boundary alone. -/
def State.paired (t : State) (old : Sph) : State :=
  { t with sph := { bndEpoch := old.bndEpoch, bndSfn := old.bndSfn, bndImg := old.bndImg
                    pairid := t.get F.SPH_CTL_PAIRID, role := t.get F.SPH_CTL_ROLE } }

/-- SPH_CTL.EN goes to 1, by the role. -/
theorem State.pairOn_eq (hsph : t.sph = s.sph) : t.pairOn =
    if t.get F.SPH_CTL_ROLE = 1 then (((t.paired s.sph).sendIdles 16).put F.SPH_STAT_STATE 3).put F.SPH_STAT_PEER_LOST 1
    else (((t.paired s.sph).sendIdles 16).dropHop.dropLaunches).setPair 1 := by
  rw [← hsph]
  rfl

/-- A part that is to be the standby makes no launch that does not radiate yet. -/
theorem State.giveUp_effects (hc : u.canonical = true) : let w := (u.dropHop.dropLaunches).setPair 1
    w.pairState = 1 ∧ w.sph = u.sph ∧ w.sfm.launches = [] ∧ w.tx.hop = none ∧ w.tx.cur = u.tx.cur ∧ w.mem = u.mem ∧
      (u.sfm.launches = [] → u.tx.hop = none → w = u.put F.SPH_STAT_STATE 1) := by
  obtain ⟨hlaunches, htx, hsph, hmem⟩ := u.dropHop.dropLaunches_parts
  obtain ⟨hhop, hcur, hsph', hmem'⟩ := u.dropHop_parts
  refine ⟨State.get_put_same (State.canonical_dropLaunches (State.canonical_dropHop hc)) F.SPH_STAT_STATE 1 (by decide), hsph.trans hsph',
    hlaunches, ?_, ?_, hmem.trans hmem', fun hl hh => ?_⟩
  · exact (congrArg Tx.hop htx).trans hhop
  · exact (congrArg Tx.cur htx).trans hcur
  · rw [State.dropHop_none hh, State.dropLaunches_none hl]
    rfl

/-- Pairing comes on: a part that is to be the primary is one without its peer, another one looks for its peer (R283). -/
theorem State.pairingEnable_effects {r : Req} (hc : s.canonical = true) (h : s.admits r.val Reg.SPH_CTL true = true)
    (hoff : s.pairing = false) (v : Word) :
    let t := (s.served r.val Reg.SPH_CTL).setReg Reg.SPH_CTL
      (sphCtlRow.written (s.locked Reg.SPH_CTL) (s.reg Reg.SPH_CTL) (runWord v true))
    let u := t.paired s.sph
    (t.get F.SPH_CTL_ROLE = 1 → exec (.pairingEnable r v) s =
      .next ((((u.sendIdles 16).put F.SPH_STAT_STATE 3).put F.SPH_STAT_PEER_LOST 1).answered 0)) ∧
    (t.get F.SPH_CTL_ROLE = 0 → ∃ w : State, exec (.pairingEnable r v) s = .next (w.answered 0) ∧ w.pairState = 1 ∧
      w.sph = (u.sendIdles 16).sph ∧ w.sfm.launches = [] ∧ w.tx.hop = none ∧ w.tx.cur = s.tx.cur ∧ w.mem = s.mem ∧
      (s.sfm.launches = [] → s.tx.hop = none → w = (u.sendIdles 16).put F.SPH_STAT_STATE 1)) := by
  intro t u
  have hcan : (u.sendIdles 16).canonical = true := (State.keeps_sendIdles (Keeps.upd.mpr (.refl t)) 16).canon
    (State.canonical_setReg (State.canonical_served hc ..) _ _)
  have hon : exec (.pairingEnable r v) s = .next (t.pairOn.answered 0) := next_congr (State.command32_pairOn hc h hoff v)
  rw [State.pairOn_eq (s := s) (t := t) (s.served_sph ..)] at hon
  have hidles : (u.sendIdles 16).sfm = s.sfm ∧ (u.sendIdles 16).tx = s.tx ∧ (u.sendIdles 16).mem = s.mem := by
    rw [State.sendIdles_eq]
    exact ⟨s.served_sfm .., s.served_tx .., s.served_mem ..⟩
  obtain ⟨hsfm, htx, hmem⟩ := hidles
  refine ⟨fun hrole => by rw [hon, if_pos hrole], fun hrole => ?_⟩
  rw [if_neg (by rw [hrole]; decide)] at hon
  obtain ⟨hpair, hsph, hl, hhop, hcur, hm, hidle⟩ := State.giveUp_effects hcan
  rw [hsfm, htx] at hidle
  exact ⟨_, hon, hpair, hsph, hl, hhop, hcur.trans (congrArg Tx.cur htx), hm.trans hmem, hidle⟩

end Sys2Proof.Machine
end

section
/-! PROOFS. Training, heartbeats sent, acknowledgements, retries and bad frames (09_pair_siphon.md R285, R289 to R293). -/

namespace Sys2Proof.Machine

variable {s t u : State} {h : SphHdr}

/-! ## Without pairing, link or power -/

/-- With pairing off no command of the link does anything (R283). -/
theorem exec_unpaired (hp : s.pairing = false) (h : SphHdr) : (∀ b : HelloBody, exec (.hello h b) s = .next s) ∧
    exec .helloSend s = .next s ∧ exec .beatSend s = .next s ∧ exec .linkDown s = .next s ∧ exec .heartbeatMissed s = .next s ∧
    exec (.ackf h) s = .next s ∧ exec .resend s = .next s ∧ ∀ seqd : Bool, exec (.badFrame seqd) s = .next s := by
  have hoff : ¬s.pairing = true := by simp [hp]
  have hlink : ¬(s.pairing && s.linked) = true := by simp [hp]
  have hcond (b : Bool) : ¬(s.pairing && s.linked && b) = true := by simp [hp]
  exact ⟨fun b => next_congr (if_neg hoff), next_congr (if_neg hoff), next_congr (if_neg (hcond _)), next_congr (if_neg hlink),
    next_congr (if_neg hoff), next_congr (if_neg hlink), next_congr (if_neg (hcond _)), fun seqd => next_congr (if_neg hoff)⟩

/-- With the link down what a linked part does is not done (R289). -/
theorem exec_unlinked (hl : s.linked = false) (h : SphHdr) : exec .beatSend s = .next s ∧ exec .linkDown s = .next s ∧
    exec (.ackf h) s = .next s ∧ exec .resend s = .next s := by
  have hlink : ¬(s.pairing && s.linked) = true := by simp [hl]
  have hcond (b : Bool) : ¬(s.pairing && s.linked && b) = true := by simp [hl]
  exact ⟨next_congr (if_neg (hcond _)), next_congr (if_neg hlink), next_congr (if_neg hlink), next_congr (if_neg (hcond _))⟩

/-- Heartbeats are sent in RUN alone (R285). -/
theorem exec_beatSend_asleep (hp : s.pwrState ≠ 0) : exec .beatSend s = .next s := by
  have hcond : ¬(s.pairing && s.linked && s.pwrState == 0) = true := by simp [hp]
  exact next_congr (if_neg hcond)

/-! ## HELLO frames (R289, R290) -/

theorem State.canonical_takeHeader (hc : s.canonical = true) (h : SphHdr) : (s.takeHeader h).canonical = true :=
  (State.keeps_takeHeader (.refl s) h).canon hc

/-- A HELLO of another pair. -/
theorem exec_hello_other (hp : s.pairing = true) {b : HelloBody} (hid : b.pairid.toNat ≠ (s.takeHeader h).sph.pairid) :
    exec (.hello h b) s = .next ((({ s.takeHeader h with sph := { (s.takeHeader h).sph with helloRun := 0 } } : State)).put
      F.SPH_STAT_IDMISMATCH 1) :=
  next_congr ((if_pos hp).trans (if_pos hid))

/-- What a HELLO of this pair records: the peer, the latency, and one HELLO more in a row. -/
def State.greeted (u : State) (b : HelloBody) : State :=
  { (((u.put F.SPH_STAT_IDMISMATCH 0).put F.SPH_PEERUID_LO_UID b.uid.toNat).put F.SPH_PEERUID_HI_UID
      (b.uid.toNat / 2 ^ 32)).put F.SPH_LATENCY_NS (min (4 * (b.now - b.echo - b.hold).toNat) 0xFFFF) with
    sph := { u.sph with helloRun := u.sph.helloRun + 1, lastStamp := b.stamp.toNat } }

theorem exec_hello_own (hp : s.pairing = true) {b : HelloBody} (hid : b.pairid.toNat = (s.takeHeader h).sph.pairid) :
    exec (.hello h b) s = .next (
      let w := (s.takeHeader h).greeted b
      if (!w.linked && decide (16 ≤ w.sph.helloRun)) = true then
        (({ w with sph := { w.sph with fresh := true } } : State).put F.SPH_STAT_LINK 1).put F.SPH_IRQ_LINKUP 1 else w) :=
  next_congr ((if_pos hp).trans (if_neg (not_not.mpr hid)))

/-- LINK lies beside IDMISMATCH. -/
theorem State.linked_greeted (hc : u.canonical = true) (b : HelloBody) : (u.greeted b).linked = u.linked := by
  have hlink : (u.put F.SPH_STAT_IDMISMATCH 0).get F.SPH_STAT_LINK = u.get F.SPH_STAT_LINK :=
    State.get_put_apart hc (f := F.SPH_STAT_IDMISMATCH) (g := F.SPH_STAT_LINK) 0 rfl (by decide) (by decide)
  have hlo (x : State) (n : Nat) : (x.put F.SPH_PEERUID_LO_UID n).get F.SPH_STAT_LINK = x.get F.SPH_STAT_LINK :=
    State.get_put_key x n (by decide)
  have hhi (x : State) (n : Nat) : (x.put F.SPH_PEERUID_HI_UID n).get F.SPH_STAT_LINK = x.get F.SPH_STAT_LINK :=
    State.get_put_key x n (by decide)
  have hns (x : State) (n : Nat) : (x.put F.SPH_LATENCY_NS n).get F.SPH_STAT_LINK = x.get F.SPH_STAT_LINK :=
    State.get_put_key x n (by decide)
  exact congrArg (· == 1) ((hns _ _).trans ((hhi _ _).trans ((hlo _ _).trans hlink)))

/-- A HELLO before the sixteenth in a row, or with the link up. -/
theorem exec_hello_counts (hc : s.canonical = true) (hp : s.pairing = true) {b : HelloBody}
    (hid : b.pairid.toNat = (s.takeHeader h).sph.pairid) (hrun : (s.takeHeader h).linked = true ∨ (s.takeHeader h).sph.helloRun < 15) :
    exec (.hello h b) s = .next ((s.takeHeader h).greeted b) := by
  refine (exec_hello_own hp hid).trans (next_congr (if_neg ?_))
  have hcount : ((s.takeHeader h).greeted b).sph.helloRun = (s.takeHeader h).sph.helloRun + 1 := rfl
  rw [State.linked_greeted (State.canonical_takeHeader hc h), hcount, Bool.and_eq_true, Bool.not_eq_true', decide_eq_true_iff]
  rintro ⟨hdown, hlast⟩
  rcases hrun with hup | hfew
  · rw [hup] at hdown
    exact absurd hdown (by decide)
  · omega

/-- The sixteenth HELLO in a row brings the link up. -/
theorem exec_hello_links (hc : s.canonical = true) (hp : s.pairing = true) {b : HelloBody}
    (hid : b.pairid.toNat = (s.takeHeader h).sph.pairid) (hdown : (s.takeHeader h).linked = false)
    (hrun : 15 ≤ (s.takeHeader h).sph.helloRun) :
    exec (.hello h b) s = .next (
      let w := (s.takeHeader h).greeted b
      (({ w with sph := { w.sph with fresh := true } } : State).put F.SPH_STAT_LINK 1).put F.SPH_IRQ_LINKUP 1) := by
  refine (exec_hello_own hp hid).trans (next_congr (if_pos ?_))
  have hcount : ((s.takeHeader h).greeted b).sph.helloRun = (s.takeHeader h).sph.helloRun + 1 := rfl
  rw [State.linked_greeted (State.canonical_takeHeader hc h), hcount, hdown, Bool.not_false, Bool.true_and, decide_eq_true_iff]
  omega

/-! ## Frames that carry the part's values (R285, R289, R291, R293) -/

theorem exec_helloSend (hp : s.pairing = true) : ∃ stamp hold : Nat, exec .helloSend s = .next (({ s with free := s.free + 2 } : State).transmit
    3 0 false (bytesLe 2 s.sph.pairid ++ [BitVec.ofNat 8 s.sph.role, 0] ++ bytesLe 8 s.uid ++ bytesLe 2 (s.get F.SPH_STAT_TERM) ++
      bytesLe 2 stamp ++ bytesLe 2 s.sph.lastStamp ++ bytesLe 2 hold)) :=
  ⟨(s.draw 16).1, ((s.draw 16).2.draw 16).1, next_congr (if_pos hp)⟩

theorem exec_beatSend (hp : s.pairing = true) (hl : s.linked = true) (hw : s.pwrState = 0) (hlen : 0 < s.sfm.slotLen) :
    ∃ off : Nat, off < s.sfm.slotLen ∧ (s.running = false → off = 0) ∧
      exec .beatSend s = .next (({ s with free := s.free + 1 } : State).transmit 1 0 false
        ([BitVec.ofNat 8 s.pairState, BitVec.ofNat 8 (bit01 s.sumValid + 2 * s.get F.SPH_CTL_AUTO)] ++
          bytesLe 2 (s.get F.SPH_STAT_TERM) ++ bytesLe 5 s.sfm.asn.toNat ++ bytesLe 3 off ++ bytesLe 4 s.sph.bndEpoch ++
          bytesLe 4 s.sph.bndSfn ++ bytesLe 4 s.sph.bndImg ++ bytesLe 4 (s.reg Reg.CST_SUM).toNat ++ bytesLe 2 s.sph.txSeq ++ [0, 0])) := by
  have hcond : (s.pairing && s.linked && s.pwrState == 0) = true := by simp [hp, hl, hw]
  refine ⟨if s.running then (s.draw 17).1 % s.sfm.slotLen else 0, ?_, fun hstop => by simp [hstop], next_congr (if_pos hcond)⟩
  split
  · exact Nat.mod_lt _ hlen
  · exact hlen

/-! ## Acknowledgements (R292) -/

theorem exec_ackf (hp : s.pairing = true) (hl : s.linked = true) (h : SphHdr) : exec (.ackf h) s = .next (s.takeHeader h) :=
  next_congr (if_pos (by rw [hp, hl]; rfl))

/-- An acknowledgement drops the frames up to the one it names; with none that waits nothing else goes. -/
theorem State.takeHeader_acknowledges (hres : s.noResult) (ha : h.ackv = true) (hn : h.nak = false) {before after : List OutFrame}
    {f : OutFrame} (hout : s.sph.out = before ++ f :: after) (hb : ∀ x ∈ before, x.seq ≠ h.ack.toNat) (hf : f.seq = h.ack.toNat) :
    s.takeHeader h = (({ s with sph := { s.sph with out := after } } : State).sendWaiting
      s.sph.waiting).releaseRecords.numberFrom h.ack.toNat ∧
    (s.sph.waiting = [] → s.takeHeader h = ({ s with sph := { s.sph with out := after } } : State).numberFrom h.ack.toNat) := by
  have hack : s.takeHeader h = (({ s with sph := { s.sph with out := after } } : State).sendWaiting
      s.sph.waiting).releaseRecords.numberFrom h.ack.toNat := by
    rw [State.takeHeader_ack ha hn, hout, afterAck_split hb hf]
  refine ⟨hack, fun hwait => ?_⟩
  have hnone := State.sendWaiting_none (s := { s with sph := { s.sph with out := after } }) hwait
  rw [hack, hnone, State.releaseRecords_none (s := { s with sph := { s.sph with out := after } }) hres]

theorem State.takeHeader_idle (hres : s.noResult) (ha : h.ackv = true) (hn : h.nak = false) (hout : s.sph.out = [])
    (hwait : s.sph.waiting = []) : s.takeHeader h = s.numberFrom h.ack.toNat := by
  have hsame : ({ s with sph := { s.sph with out := afterAck s.sph.out h.ack.toNat } } : State) = s := by
    rw [hout, show afterAck [] h.ack.toNat = s.sph.out from hout.symm]
  rw [State.takeHeader_ack ha hn, hsame, State.sendWaiting_none hwait, State.releaseRecords_none hres]

/-! ## Retries and the loss of the link (R290, R292) -/

theorem exec_linkDown (hp : s.pairing = true) (hl : s.linked = true) : exec .linkDown s =
    .next (((({ s with sph := { s.sph with helloRun := 0, fresh := false } } : State).put F.SPH_STAT_LINK 0).put
      F.SPH_IRQ_LINKDOWN 1).sendIdles 16) :=
  next_congr (if_pos (by rw [hp, hl]; rfl))

theorem State.alone_iff (s : State) : s.alone = true ↔ s.pairState = 3 ∧ s.sph.peer = 0 := by
  rw [State.alone, Bool.and_eq_true, beq_iff_eq, beq_iff_eq]

/-- 20 µs have passed with frames outstanding: they go again. -/
theorem exec_resend (hp : s.pairing = true) (hl : s.linked = true) (hout : s.sph.out ≠ []) (hpeer : s.pairState ≠ 3 ∨ s.sph.peer ≠ 0) :
    exec .resend s = .next ((s.each s.sph.out State.emit).bump F.SPH_RETRY_COUNT) := by
  have halone : s.alone = false := by
    rw [Bool.eq_false_iff, ne_eq, State.alone_iff]
    tauto
  have hcond : (s.pairing && s.linked && !s.alone) = true := by simp [hp, hl, halone]
  exact next_congr ((if_pos hcond).trans (State.resendOut_eq hout))

/-- Nothing is outstanding, or nobody is there to take it. -/
theorem exec_resend_idle (h : s.sph.out = [] ∨ (s.pairState = 3 ∧ s.sph.peer = 0)) : exec .resend s = .next s := by
  refine next_congr ?_
  rcases h with hout | halone
  · rw [State.resendOut, hout, List.isEmpty_nil, if_pos rfl, ite_self]
  · rw [State.alone_iff s |>.mpr halone, Bool.not_true, Bool.and_false, if_neg Bool.false_ne_true]

/-- Settles O49: the lanes by their characters, the write of SPH_CTL by what EN was and is, each command of the link by its lemma above. -/
theorem siphonLink : Obligations.SiphonLink := by
  unfold Obligations.SiphonLink
  refine ⟨fun _ => rfl, fun bs hb => ⟨two_mul_length_onLanes bs hb, fun j hj => getElem?_onLanes bs hj⟩,
    fun s n => ⟨_, s.draw_lt 4, s.sendIdles_eq n⟩, fun s type seq sync payload => ⟨_, s.draw_lt 4, ?_⟩,
    fun s f l => ⟨rfl, rfl, s.sendWaiting_nil, s.sendWaiting_cons f l⟩, State.numberFrom_eq, fun s r h hc hres => ?_⟩
  · exact s.transmit_eq type seq sync payload
  refine ⟨fun hadm => ⟨fun v x hoff hx => ?_, fun hon => ?_, fun hoff => ?_⟩, fun hp => exec_unpaired hp h, fun hl => exec_unlinked hl h,
    exec_beatSend_asleep, fun hp => ⟨fun b => exec_hello_other hp, fun b hid => ⟨exec_hello_counts hc hp hid, exec_hello_links hc hp hid⟩,
      next_congr (if_pos hp), next_congr (if_pos hp), next_congr (if_pos hp), exec_helloSend hp,
      fun hl hw hlen => ?_⟩, fun hp hl => ⟨exec_linkDown hp hl, ?_, ?_, ?_, ?_, exec_resend hp hl, exec_resend_idle⟩⟩
  · obtain rfl : x = sphCtlRow := Option.some.inj (hx.symm.trans directAt_SPH_CTL.1)
    exact State.pairingEnable_effects hc hadm hoff v
  · exact next_congr ((State.command32_pairOff hc hadm hon).trans (congrArg (State.answered · 0)
      (State.pairOff_eq hres (s.served_sph ..) (s.served_flc ..) (s.served_cip ..))))
  · exact next_congr (State.command32_pairOff_again hc hadm hoff)
  · obtain ⟨off, hlt, hzero, hsend⟩ := exec_beatSend hp hl hw hlen
    exact ⟨off, hlt, hzero, hsend, rfl⟩
  · intro before after f ha hn hout hb hf
    obtain ⟨hall, hnone⟩ := State.takeHeader_acknowledges hres ha hn hout hb hf
    rw [exec_ackf hp hl]
    exact ⟨next_congr hall, fun hwait => next_congr (hnone hwait)⟩
  · exact fun ha hn hout hwait => (exec_ackf hp hl h).trans (next_congr (State.takeHeader_idle hres ha hn hout hwait))
  · exact fun ha hn => (exec_ackf hp hl h).trans (next_congr (State.takeHeader_none ha hn))
  · exact fun ha hn hout => (exec_ackf hp hl h).trans (next_congr ((State.takeHeader_nak ha hn).trans (State.resendOut_eq hout)))

end Sys2Proof.Machine
end
section
/-! PROOFS. The Siphon's own writes to the queues, and a sequenced frame at the part that receives it (09_pair_siphon.md R292, R297, R299,
R301, R303, R304, R313): its order, what its records do, and the ACKF that answers it. -/

namespace Sys2Proof.Machine

variable {s t : State} {h : SphHdr} {a r : Nat} {b : Byte} {bs : List Byte} {load : Bool}

/-! ## Bytes that the part writes to the queues (R299) -/

/-- An address in the queues (01 R13). -/
abbrev inQueues (a : Nat) : Prop := 0x10430000 ≤ a ∧ a < 0x10600000

theorem placeOf_queues (h : inQueues a) : placeOf a = .queues := by
  rw [placeOf, if_neg (by omega), if_neg (by omega), if_neg (by omega), if_neg (by omega), if_pos h.2]

theorem State.storeByte_queues (h : inQueues a) : s.storeByte load a b = s.putByte a b := by
  have hstore : inEngMem a = false := decide_eq_false (by omega)
  rw [State.storeByte, if_neg (by omega), hstore, if_neg Bool.false_ne_true]

/-- The queues belong to no block, and a part writes to them in the secure world as it likes. -/
theorem State.moveByte_queues (h : inQueues a) : s.moveByte false r a b = (s.putByte a b, none) := by
  have hcheck : s.moveCheck false r a true = (s, none) := by
    simp only [State.moveCheck, placeOf_queues h, State.placeReady, State.writeMet, storeOwner] <;> rfl
  simp [State.moveByte, hcheck, placeOf_queues h, State.storeByte_queues h]

theorem State.moveBytes_queues (hlo : 0x10430000 ≤ a) (hhi : a + bs.length ≤ 0x10600000) :
    s.moveBytes false r a bs = (s.putBytes a bs, none) := by
  induction bs generalizing s a with
  | nil => rfl
  | cons b bs ih =>
    rw [List.length_cons] at hhi
    have hhere : inQueues a := ⟨hlo, by omega⟩
    rw [State.moveBytes_cons (by rw [placeOf_queues hhere]; decide), State.moveByte_queues hhere, if_pos rfl,
      ih (by omega) (by omega), State.putBytes]

theorem State.moveWrite_queues (hlo : 0x10430000 ≤ a) (hhi : a + bs.length ≤ 0x10600000) :
    s.moveWrite false r a bs = (if bs = [] then s.putBytes a bs else (s.putBytes a bs).takeTurn r (targetOf a), none) := by
  simp only [State.moveWrite, State.moveBytes_queues hlo hhi, List.isEmpty_iff]

/-! ## The order of sequenced frames (R292) -/

theorem State.takeSeq_down (f : State → State) (hd : s.pairing = false ∨ s.linked = false) : s.takeSeq h f = s :=
  if_neg (by rcases hd with hd | hd <;> simp [hd])

theorem State.takeSeq_discards (f : State → State) (hp : s.pairing = true) (hl : s.linked = true)
    (hseq : h.seq.toNat ≠ ((s.takeHeader h).sph.rxSeq + 1) % 65536) : s.takeSeq h f =
      ({ s.takeHeader h with sph := { (s.takeHeader h).sph with nakOwed := true } } : State).sendAck :=
  (if_pos (by rw [hp, hl]; rfl)).trans (if_neg hseq)

/-- The state in which the next frame in order acts: its number is the last one accepted. -/
def State.accepted (s : State) (h : SphHdr) : State :=
  { s.takeHeader h with sph := { (s.takeHeader h).sph with rxSeq := h.seq.toNat } }

theorem State.takeSeq_accepts (f : State → State) (hp : s.pairing = true) (hl : s.linked = true)
    (hseq : h.seq.toNat = ((s.takeHeader h).sph.rxSeq + 1) % 65536) : s.takeSeq h f = (f (s.accepted h)).sendAck :=
  (if_pos (by rw [hp, hl]; rfl)).trans (if_pos hseq)

/-! ## What the records do -/

/-- Two steps that agree while a property holds, which they keep, agree on a whole list. -/
theorem State.each_eq_foldl {α : Type} {f g : State → α → State} (P : State → Prop) (hfg : ∀ t x, P t → f t x = g t x)
    (hP : ∀ t x, P t → P (f t x)) (l : List α) (hs : P s) : s.each l f = l.foldl g s := by
  induction l generalizing s with
  | nil => rfl
  | cons x l ih =>
    rw [State.each_cons, List.foldl_cons, ← hfg s x hs]
    exact ih (hP s x hs)

/-- What a part that takes entries does with one record (R297, R303, R313). -/
def State.takeRecord (sync : Bool) (s : State) (x : EntryRec) : State :=
  let e := x.w0.toNat + x.w1.toNat <<< 32 + x.w2.toNat <<< 64 + x.w3.toNat <<< 96
  if s.pairState = 3 then (if s.ready 13 then s.handedEntry x.index.toNat e else s)
  else
    let s1 := if s.ready 13 then s.setEntry x.index.toNat e else s
    if sync then s1 else (s1.countApplied x.index.toNat).notePass x.index.toNat

theorem State.setEntry_pairState (s : State) (i e : Nat) : (s.setEntry i e).pairState = s.pairState :=
  State.get_congr (s.setEntry_reg_other i e (by decide))

theorem State.setEntry_heir (s : State) (i e : Nat) : (s.setEntry i e).sph.heir = s.sph.heir := by
  by_cases h : s.entry i = e % 2 ^ 128
  · rw [State.setEntry_same h]
  · rw [State.setEntry_sph s h]
    split <;> rfl

theorem State.put_pairState {f : Fld} (hf : f.key ≠ Reg.SPH_STAT) (n : Nat) : (s.put f n).pairState = s.pairState :=
  State.get_put_key s n hf.symm

/-- The state of the pair and this part's place in a handover stay. -/
def State.sameRole (s t : State) : Prop := t.pairState = s.pairState ∧ t.sph.heir = s.sph.heir

theorem State.sameRole_setEntry (s : State) (i e : Nat) : s.sameRole (s.setEntry i e) :=
  ⟨s.setEntry_pairState i e, s.setEntry_heir i e⟩

theorem State.sameRole_copyEntry (s : State) (i e : Nat) : s.sameRole (s.copyEntry i e) := by
  have h := s.sameRole_setEntry i e
  unfold State.copyEntry
  generalize s.setEntry i e = t at h ⊢
  exact h

theorem State.sameRole_handedEntry (s : State) (i e : Nat) : s.sameRole (s.handedEntry i e) := by
  rcases hh : s.sph.heir with _ | _
  · rcases hd : s.dirtyAt i with _ | _ <;> simp only [State.handedEntry, hh, hd, if_true, Bool.false_eq_true, if_false]
    · exact s.sameRole_copyEntry i e
    · exact ⟨rfl, rfl⟩
  · simp only [State.handedEntry, hh, if_true]
    exact s.sameRole_setEntry i _

theorem State.countApplied_pairState (s : State) (i : Nat) : (s.countApplied i).pairState = s.pairState := by
  by_cases hi : i < s.sph.passAt <;> simp only [State.countApplied, hi, if_true, if_false]
  · exact (State.put_pairState (by decide) _).trans (State.put_pairState (by decide) _)
  · exact State.put_pairState (by decide) _

theorem State.takeRecord_follower (hs : s.pairState ≠ 3) (sync : Bool) (x : EntryRec) : s.takeRecord sync x =
    let e := if s.ready 13 then
      s.setEntry x.index.toNat (x.w0.toNat + x.w1.toNat <<< 32 + x.w2.toNat <<< 64 + x.w3.toNat <<< 96) else s
    if sync then e else (e.countApplied x.index.toNat).notePass x.index.toNat := if_neg hs

theorem State.takeRecord_handover (hs : s.pairState = 3) (sync : Bool) (x : EntryRec) : s.takeRecord sync x =
    if s.ready 13 then s.handedEntry x.index.toNat (x.w0.toNat + x.w1.toNat <<< 32 + x.w2.toNat <<< 64 + x.w3.toNat <<< 96) else s :=
  if_pos hs

theorem State.takeRecord_pairState (hs : s.pairState ≠ 3) (sync : Bool) (x : EntryRec) :
    (s.takeRecord sync x).pairState = s.pairState := by
  have hentry (e : Nat) : (if s.ready 13 then s.setEntry x.index.toNat e else s).pairState = s.pairState := by
    split
    · exact s.setEntry_pairState _ e
    · rfl
  rw [State.takeRecord_follower hs]
  dsimp only
  split
  · exact hentry _
  · exact (State.countApplied_pairState ..).trans (hentry _)

theorem State.sameRole_takeRecord (hs : s.pairState = 3) (sync : Bool) (x : EntryRec) : s.sameRole (s.takeRecord sync x) := by
  rw [State.takeRecord_handover hs]
  split
  · exact State.sameRole_handedEntry ..
  · exact ⟨rfl, rfl⟩

/-- What a part that takes results does with one record (R301). -/
def State.takeDone (s : State) (x : DoneRec) : State :=
  let slot := match s.sph.mirror.find? (fun y => !bitAt y.body.w3.toNat 9 && recDesc y.body == x.desc.toNat) with
    | some y => if x.outcome.toNat = 1 then recSlot y.body else 0
    | none => 0
  let s0 := s.forget x.desc.toNat
  let s1 := { s0 with
    sph := { s0.sph with mirror := s0.sph.mirror.filter (fun y => bitAt y.body.w3.toNat 9 || recDesc y.body != x.desc.toNat) } }
  s1.post x.outcome.toNat slot x.desc.toNat

theorem find_finRange_ofNat {i : Nat} (hi : i < 16) : (List.finRange 16).find? (fun n => n.val == i) = some (Fin.ofNat 16 i) := by
  have hval : (Fin.ofNat 16 i).val = i := Nat.mod_eq_of_lt hi
  rw [← Fin.find?_eq_find?_finRange, Fin.find?_eq_some_iff]
  refine ⟨beq_iff_eq.mpr hval, fun j hj => ?_⟩
  have hlt : j.val < i := hval ▸ hj
  simpa using hlt.ne

/-- An ACCT record overwrites the credit or the granule that it names (R304). -/
theorem State.applyAcct_eq (s : State) (x : AcctRec) : s.applyAcct x =
    let cur := s.sfm.asn.toNat / 100
    let ago := (cur + 4096 - bitsOf x.w0.toNat 0 12) % 4096
    let n : Fin 16 := Fin.ofNat 16 (bitsOf x.w0.toNat 16 4)
    let l := addGranule (s.granules[n.val].filter (fun e => e.1 != cur - ago)) (cur - ago) x.w1.toNat
    if bitAt x.w0.toNat 31 then s.put (F.SFM_QCR_CREDIT (bitsOf x.w0.toNat 0 10)) (bitsOf x.w1.toNat 0 12)
    else if 3600 ≤ ago ∨ cur < ago then s
    else ({ s with granules := s.granules.set n.val l } : State).put (F.BKT_USED_USED n.val)
      ((l.filter (fun e => decide (cur ≤ e.1 + 3599 ∧ e.1 ≤ cur))).foldl (fun m e => m + e.2) 0) := by
  simp only [State.applyAcct, find_finRange_ofNat (bitsOf_lt x.w0.toNat 16 4), State.sumBucket, Vector.getElem_set_self]
  rfl

/-- The charge of a LAUNCH record goes to the bucket that it names. -/
def State.chargeRecord (s : State) (b : LaunchBody) : State :=
  s.charge (Fin.ofNat 16 (bitsOf b.w0.toNat 16 4)) (((recSlot b + 2 ^ 40 - 2) % 2 ^ 40) / 100) b.w1.toNat

section
variable (hp : s.pairing = true) (hl : s.linked = true) (hseq : h.seq.toNat = ((s.takeHeader h).sph.rxSeq + 1) % 65536)
include hp hl hseq

theorem exec_entry (rs : List EntryRec) : exec (.entry h rs) s =
    .next (if (s.accepted h).takesMirror || ((s.accepted h).pairState == 3 && (s.accepted h).sph.heir) then
      (s.accepted h).each rs (State.takeRecord h.sync) else s.accepted h).sendAck :=
  next_congr (State.takeSeq_accepts _ hp hl hseq)

theorem exec_done (rs : List DoneRec) : exec (.done h rs) s =
    .next (if (s.accepted h).takesMirror || ((s.accepted h).pairState == 3 && (s.accepted h).sph.heir) then
      (s.accepted h).each rs State.takeDone else s.accepted h).sendAck :=
  next_congr (State.takeSeq_accepts _ hp hl hseq)

theorem exec_req (b : ReqBody) : exec (.req h b) s =
    let v := s.accepted h
    let d := bytesLe 4 b.d0.toNat ++ bytesLe 4 b.d1.toNat ++ bytesLe 4 b.d2.toNat ++ bytesLe 4 b.d3.toNat
    let t := (v.moveWrite false 69 (descAddr b.desc.toNat) d).1
    let u := (t.moveWrite false 69 (b.d1.toNat + 488 * b.frag.val) (b.payload.take (txLen b.d0 - 488 * b.frag.val))).1
    .next (if v.takesMirror || (v.pairState == 3 && v.sph.heir) then
      (if b.last then (u.forget b.desc.toNat).addPending b.desc.toNat b.index.toNat b.mode.toNat else u) else v).sendAck :=
  next_congr (State.takeSeq_accepts _ hp hl hseq)

theorem exec_acct (rs : List AcctRec) : exec (.acct h rs) s =
    let v := s.accepted h
    let seen : State := { v with sfm := { v.sfm with pend := [] }, sph := { v.sph with acctSeen := true, mirror := [] } }
    .next (if v.follows then
      (if v.running && v.sph.timed then seen.each rs State.applyAcct else { seen with sph := { seen.sph with acct := v.sph.acct ++ rs } })
      else v).sendAck :=
  next_congr (State.takeSeq_accepts _ hp hl hseq)

theorem exec_handoff (asn : BitVec 40) : exec (.handoff h asn) s =
    let v := s.accepted h
    .next (if v.pairState = 4 then { v with sph := { v.sph with due := true, handoff := some asn.toNat } } else v).sendAck :=
  next_congr (State.takeSeq_accepts _ hp hl hseq)

/-- The record of a launch is kept, and its charge and credit are taken. -/
theorem exec_launch (b : LaunchBody) : exec (.launch h b) s =
    let v := s.accepted h
    let tenant := bitsOf b.w0.toNat 22 10
    let charged := v.chargeRecord b
    let t := if bitAt b.w3.toNat 8 then charged.put (F.SFM_QCR_CREDIT tenant) (charged.get (F.SFM_QCR_CREDIT tenant) - 16) else charged
    let kept := if bitAt b.w3.toNat 9 then v.sph.mirror
      else v.sph.mirror.filter (fun x => bitAt x.body.w3.toNat 9 || recDesc x.body != recDesc b)
    .next (if v.takesMirror then { t with sph := { v.sph with mirror := kept ++ [⟨b, v.recordTarget b⟩] } } else v).sendAck := by
  refine next_congr ((State.takeSeq_accepts _ hp hl hseq).trans ?_)
  simp only [find_finRange_ofNat (bitsOf_lt b.w0.toNat 16 4)]
  cases bitAt b.w3.toNat 8 <;> rfl

end

end Sys2Proof.Machine
end
section
/-! PROOFS. What goes to the peer, and the sweep of the dirty entries at the primary (09_pair_siphon.md R292, R295, R303): frames sent or
kept for later, the marks it takes in order, and the marks it clears. -/

namespace Sys2Proof.Machine

variable {s t : State} {f : OutFrame} {type : Nat} {sync : Bool} {p : List Byte}

/-! ## Frames that go or wait (R292) -/

/-- What the Siphon keeps that no frame to the peer changes. -/
def Sph.outsideSends (x : Sph) : Sph := { x with out := [], waiting := [], txSeq := 0, sent := [], nakOwed := false }

theorem State.transmit_sph (s : State) (type seq : Nat) (sync : Bool) (p : List Byte) : ∃ sent,
    (s.transmit type seq sync p).sph = { s.sph with nakOwed := false, sent := sent } :=
  ⟨_, congrArg State.sph (s.transmit_eq type seq sync p)⟩

/-- A frame that goes out changes nothing that is kept for the peer. -/
theorem State.emit_sph (s : State) (f : OutFrame) : (s.emit f).sph.outsideSends = s.sph.outsideSends ∧
    (s.emit f).sph.out = s.sph.out ∧ (s.emit f).sph.txSeq = s.sph.txSeq := by
  unfold State.emit
  split
  · obtain ⟨sent, h⟩ := s.transmit_sph f.type f.seq f.sync f.payload
    rw [h]
    exact ⟨rfl, rfl, rfl⟩
  · exact ⟨rfl, rfl, rfl⟩

/-- The frames that wait join those sent as far as there is room, and none is lost. -/
theorem State.sendWaiting_sph (l : List OutFrame) (s : State) : (s.sendWaiting l).sph.outsideSends = s.sph.outsideSends ∧
    (s.sendWaiting l).sph.out ++ (s.sendWaiting l).sph.waiting = s.sph.out ++ l ∧ (s.sendWaiting l).sph.txSeq = s.sph.txSeq := by
  induction l generalizing s with
  | nil => exact ⟨rfl, rfl, rfl⟩
  | cons f l ih =>
    unfold State.sendWaiting
    split
    · obtain ⟨hrest, hframes, hseq⟩ := ih (({ s with sph := { s.sph with out := s.sph.out ++ [f] } } : State).emit f)
      obtain ⟨hrest', hout, hseq'⟩ := ({ s with sph := { s.sph with out := s.sph.out ++ [f] } } : State).emit_sph f
      refine ⟨hrest.trans hrest', ?_, hseq.trans hseq'⟩
      rw [hframes, hout, List.append_assoc]
      rfl
    · exact ⟨rfl, rfl, rfl⟩

/-- A sequenced frame takes the next number and goes, or waits, behind those before it. -/
theorem State.sendSeq_sph (s : State) (type : Nat) (sync : Bool) (p : List Byte) :
    (s.sendSeq type sync p).sph.outsideSends = s.sph.outsideSends ∧
    (s.sendSeq type sync p).sph.out ++ (s.sendSeq type sync p).sph.waiting =
      s.sph.out ++ (s.sph.waiting ++ [⟨(s.sph.txSeq + 1) % 65536, type, sync, p⟩]) ∧
    (s.sendSeq type sync p).sph.txSeq = (s.sph.txSeq + 1) % 65536 := by
  unfold State.sendSeq
  exact State.sendWaiting_sph _ _

theorem State.outsidePeer_sendSeq (s : State) (type : Nat) (sync : Bool) (p : List Byte) :
    (s.sendSeq type sync p).outsidePeer = s.outsidePeer := State.outsidePeer_sendWaiting _ _

/-! ## Dirty marks in order (R295, R303) -/

/-- The entries of dirty ranges, in order. -/
def marksOf (l : List (Nat × Nat)) : List Nat := l.flatMap (fun x => (List.range (x.2 + 1 - x.1)).map (fun i => x.1 + i))

theorem filter_range' (lo a k : Nat) :
    (List.range' a k).filter (fun i => decide (lo ≤ i)) = List.range' (max a lo) (a + k - max a lo) := by
  induction k generalizing a with
  | zero => simp [show a - max a lo = 0 by omega]
  | succ k ih =>
    rw [List.range'_succ, List.filter_cons, ih]
    by_cases h : lo ≤ a
    · rw [if_pos (decide_eq_true h), Nat.max_eq_left h, Nat.max_eq_left (by omega), show a + (k + 1) - a = k + 1 by omega,
        List.range'_succ, show a + 1 + k - (a + 1) = k by omega]
    · rw [if_neg (by simpa using h), Nat.max_eq_right (by omega), Nat.max_eq_right (by omega), show a + 1 + k = a + (k + 1) by omega]

/-- The sweep takes the first entries at or above where it stands. -/
theorem takeMarks_eq (l : List (Nat × Nat)) (lo n : Nat) : takeMarks l lo n = ((marksOf l).filter (fun i => decide (lo ≤ i))).take n := by
  induction l generalizing n with
  | nil => simp [takeMarks, marksOf]
  | cons x l ih =>
    obtain ⟨a, b⟩ := x
    have hhead : ((List.range (b + 1 - a)).map (fun i => a + i)).filter (fun i => decide (lo ≤ i)) =
        List.range' (max a lo) (b + 1 - max a lo) := by
      rw [← List.range'_eq_map_range, filter_range']
      congr 1
      omega
    have hmarks : (marksOf ((a, b) :: l)).filter (fun i => decide (lo ≤ i)) =
        List.range' (max a lo) (b + 1 - max a lo) ++ (marksOf l).filter (fun i => decide (lo ≤ i)) := by
      rw [marksOf, List.flatMap_cons, List.filter_append, hhead, marksOf]
    rw [hmarks, List.take_append, List.length_range', takeMarks]
    dsimp only
    split
    · next hb =>
      rw [ih, show b + 1 - max a lo = 0 by omega]
      simp
    · rw [ih, List.range'_eq_map_range, ← List.map_take, List.take_range, show n - min n (b + 1 - max a lo) = n - (b + 1 - max a lo) by omega]

/-- An entry lies in one of the ranges. -/
def inMarks (l : List (Nat × Nat)) (i : Nat) : Prop := ∃ x ∈ l, x.1 ≤ i ∧ i ≤ x.2

theorem inMarks_cons (x : Nat × Nat) (l : List (Nat × Nat)) (i : Nat) : inMarks (x :: l) i ↔ (x.1 ≤ i ∧ i ≤ x.2) ∨ inMarks l i := by
  simp [inMarks]

theorem inMarks_append (l m : List (Nat × Nat)) (i : Nat) : inMarks (l ++ m) i ↔ inMarks l i ∨ inMarks m i := by
  simp [inMarks, or_and_right, exists_or]

theorem inMarks_clearMark (l : List (Nat × Nat)) (k i : Nat) : inMarks (clearMark l k) i ↔ inMarks l i ∧ i ≠ k := by
  induction l with
  | nil => simp [clearMark, inMarks]
  | cons x l ih =>
    rw [clearMark, List.flatMap_cons, inMarks_append, ← clearMark, ih, inMarks_cons]
    have hhead : inMarks (if k < x.1 ∨ x.2 < k then [x]
        else (if x.1 < k then [(x.1, k - 1)] else []) ++ (if k < x.2 then [(k + 1, x.2)] else [])) i ↔
        (x.1 ≤ i ∧ i ≤ x.2) ∧ i ≠ k := by
      split
      · simp [inMarks]
        omega
      · rw [inMarks_append]
        split <;> split <;> simp [inMarks] <;> omega
    rw [hhead, or_and_right]

theorem inMarks_clearMarks (es : List Nat) (l : List (Nat × Nat)) (i : Nat) :
    inMarks (es.foldl clearMark l) i ↔ inMarks l i ∧ i ∉ es := by
  induction es generalizing l with
  | nil => simp
  | cons e es ih =>
    rw [List.foldl_cons, ih, inMarks_clearMark, List.mem_cons, not_or, and_assoc]

/-! ## The sweep (R295, R303) -/

/-- The entries that the next sweep sends: those ahead of where it stands, or else the first ones. -/
def State.swept (s : State) : List Nat :=
  let ahead := ((marksOf s.sph.dirty).filter (fun i => decide (s.sph.sweep ≤ i))).take 24
  if ahead = [] then (marksOf s.sph.dirty).take 24 else ahead

/-- The primary as it sweeps, its marks taken and its count gone on. -/
def State.sweeping (s : State) : State :=
  let s1 := if ((marksOf s.sph.dirty).filter (fun i => decide (s.sph.sweep ≤ i))).take 24 = [] then s.put F.SPH_ALIGN_COUNT 0 else s
  ({ s1 with sph := { s.sph with dirty := s.swept.foldl clearMark s.sph.dirty, sweep := s.swept.getLast?.getD 0 + 1 } } : State).bumpBy
    F.SPH_ALIGN_COUNT s.swept.length

theorem exec_sweep_idle (h : s.shares = false ∨ s.linked = false ∨ s.sph.dirty = [] ∨ s.sph.waiting ≠ []) :
    exec .dirtyEntrySweep s = .next s := by
  refine next_congr (if_neg ?_)
  rcases h with h | h | h | h <;> simp [h]

theorem exec_sweep (hs : s.shares = true) (hl : s.linked = true) (hw : s.sph.waiting = []) (hd : marksOf s.sph.dirty ≠ []) :
    exec .dirtyEntrySweep s = .next (s.sweeping.sendSeq 0x10 false (s.swept.flatMap (fun i => bytesLe 4 i ++ s.bytes (entryAddr i) 16))) := by
  have hdirty : s.sph.dirty ≠ [] := fun h => hd (by rw [h]; rfl)
  have hcond : (s.shares && s.linked && !s.sph.dirty.isEmpty && s.sph.waiting.isEmpty) = true := by simp [hs, hl, hw, hdirty]
  refine next_congr ((if_pos hcond).trans ?_)
  simp only [takeMarks_eq, List.isEmpty_iff, State.sweeping, State.swept, Nat.zero_le, decide_true, List.filter_true]
  by_cases ha : ((marksOf s.sph.dirty).filter (fun i => decide (s.sph.sweep ≤ i))).take 24 = []
  · simp only [if_pos ha]
    rfl
  · simp only [if_neg ha]
    rfl

end Sys2Proof.Machine
end
section
/-! PROOFS. Sequenced frames and the sweep, statement by statement (09_pair_siphon.md R291, R292, R295, R297, R299, R301, R303, R304, R313). -/

namespace Sys2Proof.Machine

variable {s t : State} {h : SphHdr}

/-- A part that follows a primary does so while its pair state stays. -/
theorem State.follows_ne (hf : s.follows = true) : s.pairState ≠ 3 := by
  intro h3
  simp [State.follows, h3] at hf

/-- The record of a sweep counts, from 0 where the indices no longer rise, and opens or ends a pass (R303). -/
theorem State.countApplied_notePass (s : State) (i : BitVec 18) : (s.countApplied i.toNat).notePass i.toNat =
    let c := if i.toNat < s.sph.passAt then s.put F.SPH_ALIGN_COUNT 0 else s
    let opened := s.sph.passOpen || (s.sph.acctSeen && i == 0)
    { c.bump F.SPH_ALIGN_COUNT with sph := { s.sph with
      passAt := i.toNat + 1, passOpen := opened, passDone := s.sph.passDone || (opened && i.toNat == 262143) } } := by
  have hzero : (i == 0) = (i.toNat == 0) := by
    rw [Bool.eq_iff_iff, beq_iff_eq, beq_iff_eq, BitVec.toNat_eq]
    rfl
  rw [hzero, State.countApplied, State.notePass]
  by_cases hi : i.toNat < s.sph.passAt
  · simp only [if_pos hi]
    rfl
  · simp only [if_neg hi]
    rfl

theorem answer_congr (hst : s = t) : (.next s.sendAck : Out) = .next t.sendAck := by rw [hst]

/-- The sweep's outcome: the marks it sent are gone, and one frame more goes or waits. -/
theorem exec_sweep_outcome (hs : s.shares = true) (hl : s.linked = true) (hw : s.sph.waiting = []) (hd : marksOf s.sph.dirty ≠ []) :
    ∃ t : State, exec .dirtyEntrySweep s = .next t ∧ (∀ i, inMarks t.sph.dirty i ↔ inMarks s.sph.dirty i ∧ i ∉ s.swept) ∧
      t.sph.sweep = s.swept.getLast?.getD 0 + 1 ∧ t.sph.txSeq = (s.sph.txSeq + 1) % 65536 ∧
      t.get F.SPH_ALIGN_COUNT = s.sweeping.get F.SPH_ALIGN_COUNT ∧
      t.sph.out ++ t.sph.waiting = s.sph.out ++ [⟨(s.sph.txSeq + 1) % 65536, 0x10, false,
        s.swept.flatMap (fun i => bytesLe 4 i ++ s.bytes (entryAddr i) 16)⟩] ∧
      t.mem = s.mem ∧ t.sfm = s.sfm ∧ t.cip = s.cip := by
  obtain ⟨hrest, hframes, hseq⟩ := s.sweeping.sendSeq_sph 0x10 false (s.swept.flatMap (fun i => bytesLe 4 i ++ s.bytes (entryAddr i) 16))
  have hpeer := s.sweeping.outsidePeer_sendSeq 0x10 false (s.swept.flatMap (fun i => bytesLe 4 i ++ s.bytes (entryAddr i) 16))
  have hparts : s.sweeping.sph = { s.sph with dirty := s.swept.foldl clearMark s.sph.dirty, sweep := s.swept.getLast?.getD 0 + 1 } ∧
      s.sweeping.mem = s.mem ∧ s.sweeping.sfm = s.sfm ∧ s.sweeping.cip = s.cip := by
    unfold State.sweeping
    split <;> exact ⟨rfl, rfl, rfl, rfl⟩
  obtain ⟨hsph, hmem, hsfm, hcip⟩ := hparts
  rw [hsph] at hrest hframes hseq
  rw [hw] at hframes
  refine ⟨_, exec_sweep hs hl hw hd, fun i => ?_, congrArg Sph.sweep hrest, hseq, (congrArg (State.get · F.SPH_ALIGN_COUNT) hpeer :), hframes,
    (congrArg State.mem hpeer :).trans hmem, (congrArg State.sfm hpeer :).trans hsfm, (congrArg State.cip hpeer :).trans hcip⟩
  · rw [show (s.sweeping.sendSeq 0x10 false _).sph.dirty = s.swept.foldl clearMark s.sph.dirty from congrArg Sph.dirty hrest]
    exact inMarks_clearMarks ..

/-- Settles O50: the order of sequenced frames once for all six, each frame's records by its step, and the sweep by the marks it takes. -/
theorem siphonMirroring : Obligations.SiphonMirroring := by
  unfold Obligations.SiphonMirroring
  refine ⟨fun s a bs hlo hhi => by rw [State.moveWrite_queues hlo hhi]; exact ⟨rfl, rfl⟩, fun s h hc => ⟨fun hdown => ?_,
    fun hp hl hseq => ?_,
    fun hp hl hseq => ?_, exec_sweep_idle, ?_, fun hs hl hw hd => exec_sweep_outcome hs hl hw hd⟩⟩
  · have hsame (f : State → State) : s.takeSeq h f = s := State.takeSeq_down f hdown
    exact ⟨fun _ => next_congr (hsame _), fun _ => next_congr (hsame _), fun _ => next_congr (hsame _), fun _ => next_congr (hsame _),
      fun _ => next_congr (hsame _), fun _ => next_congr (hsame _)⟩
  · have howed (f : State → State) := State.takeSeq_discards f hp hl hseq
    exact ⟨fun _ => next_congr (howed _), fun _ => next_congr (howed _), fun _ => next_congr (howed _), fun _ => next_congr (howed _),
      fun _ => next_congr (howed _), fun _ => next_congr (howed _)⟩
  · intro v beacon desc slotOf updated completed accounted takes heir
    have hno (ht : takes = false) (hh : heir = false) : ¬((takes || heir) = true) := by rw [ht, hh]; exact Bool.false_ne_true
    have hyes (ht : takes = true ∨ heir = true) : (takes || heir) = true := (Bool.or_eq_true ..).mpr ht
    refine ⟨fun ht b => ?_, fun ht hh => ⟨fun rs => ?_, fun b => ?_, fun rs => ?_⟩, fun hf rs => ?_, fun ht b => ?_, fun hf rs => ?_,
      fun h3 ht rs => ?_, fun ht b => ?_, fun hf rs => ?_, fun ht rs => ?_, exec_handoff hp hl hseq⟩
    · exact (exec_launch hp hl hseq b).trans (answer_congr (if_neg (Bool.eq_false_iff.mp ht)))
    · exact (exec_entry hp hl hseq rs).trans (answer_congr (if_neg (hno ht hh)))
    · exact (exec_req hp hl hseq b).trans (answer_congr (if_neg (hno ht hh)))
    · exact (exec_done hp hl hseq rs).trans (answer_congr (if_neg (hno ht hh)))
    · exact (exec_acct hp hl hseq rs).trans (answer_congr (if_neg (Bool.eq_false_iff.mp hf)))
    · exact (exec_req hp hl hseq b).trans (answer_congr (if_pos (hyes ht)))
    · have ht : takes = true := (Bool.or_eq_true ..).mpr (.inl hf)
      refine (exec_entry hp hl hseq rs).trans (answer_congr ((if_pos (hyes (.inl ht))).trans
        (State.each_eq_foldl (fun t => t.pairState ≠ 3) (fun t x h3 => ?_) (fun t x h3 => ?_) rs (State.follows_ne hf))))
      · rw [State.takeRecord_follower h3]
        exact if_congr Iff.rfl rfl (State.countApplied_notePass _ x.index)
      · rwa [State.takeRecord_pairState h3]
    · refine (exec_entry hp hl hseq rs).trans (answer_congr ((if_pos (hyes ht)).trans
        (State.each_eq_foldl (v.sameRole ·) (fun t x hr => ?_) (fun t x hr => ?_) rs ⟨rfl, rfl⟩)))
      · obtain ⟨hpair, hheir⟩ := hr
        rw [State.takeRecord_handover (hpair.trans h3)]
        change _ = if t.ready 13 = false then t else if v.sph.heir then _ else _
        rw [← hheir]
        rcases t.ready 13 with _ | _
        · rfl
        · rfl
      · obtain ⟨hpair, hheir⟩ := State.sameRole_takeRecord (hr.1.trans h3) h.sync x
        exact ⟨hpair.trans hr.1, hheir.trans hr.2⟩
    · exact (exec_launch hp hl hseq b).trans (answer_congr (if_pos ht))
    · refine (exec_acct hp hl hseq rs).trans (answer_congr ((if_pos hf).trans (if_congr ?_ ?_ rfl)))
      · exact iff_of_eq (Bool.and_eq_true ..)
      · exact State.each_eq_foldl (fun _ => True) (g := accounted) (fun t x _ => State.applyAcct_eq t x) (fun _ _ _ => trivial) rs trivial
    · refine (exec_done hp hl hseq rs).trans (answer_congr ((if_pos (hyes ht)).trans
        (State.each_eq_foldl (fun _ => True) (fun t x _ => ?_) (fun _ _ _ => trivial) rs trivial)))
      have hsent : x.outcome.toNat = 1 ↔ x.outcome = 1 := (BitVec.toNat_eq (y := (1 : BitVec 4))).symm
      simp only [State.takeDone, hsent]
      rfl
  · have hbits : s.peerFollows = decide (s.pairState = 3 ∧ (s.sph.peer = 2 ∨ s.sph.peer = 4 ∨ s.sph.peer = 5 ∨
        (s.sph.peer = 3 ∧ s.sph.heir = true))) := by
      rw [Bool.eq_iff_iff, decide_eq_true_iff]
      simp [State.peerFollows, or_assoc]
    rw [State.shares, hbits]

end Sys2Proof.Machine
end
section
/-! PROOFS. Fields of registers that a change leaves as they are, and an estrangement (09_pair_siphon.md R284, R305, R306): its causes, its
interrupt, and the state that it enters. -/

namespace Sys2Proof.Machine

variable {s t u : State} {rest : State → State} {W V : List Fld} {f g : Fld}

/-! ## Fields that stay -/

/-- A write of `f` leaves `g` alone: another register, or other bits of its own. -/
abbrev Fld.clear (g f : Fld) : Prop :=
  g.key ≠ f.key ∨ (g.key = f.key ∧ f.lo + f.width ≤ 32 ∧ (g.lo + g.width ≤ f.lo ∨ f.lo + f.width ≤ g.lo))

theorem State.get_put_clear (hc : s.canonical = true) (h : g.clear f) (n : Nat) : (s.put f n).get g = s.get g := by
  rcases h with hk | ⟨hk, hf, ha⟩
  · exact State.get_put_key s n hk
  · exact State.get_put_apart hc n hk hf ha

theorem State.flag_congr (h : t.get f = s.get f) : t.flag f = s.flag f := congrArg (· == 1) h

theorem State.flag_put (hc : s.canonical = true) (hf : f.lo + f.width ≤ 32) (n : Nat) : (s.put f n).flag f = (n % 2 ^ f.width == 1) :=
  congrArg (· == 1) (State.get_put_same hc f n hf)

/-- `t` agrees with `s` in what `rest` shows, and in every field clear of those of `W`. -/
structure FieldFrame (rest : State → State) (W : List Fld) (s t : State) : Prop where
  keeps : Keeps s t
  parts : rest t = rest s
  field : s.canonical = true → ∀ g : Fld, (∀ f ∈ W, g.clear f) → t.get g = s.get g

theorem FieldFrame.refl (rest : State → State) (W : List Fld) (s : State) : FieldFrame rest W s s := ⟨.refl s, rfl, fun _ _ _ => rfl⟩

theorem FieldFrame.trans (h : FieldFrame rest W s t) (k : FieldFrame rest W t u) : FieldFrame rest W s u :=
  ⟨h.keeps.trans k.keeps, k.parts.trans h.parts, fun hc g hg => (k.field (h.keeps.canon hc) g hg).trans (h.field hc g hg)⟩

theorem FieldFrame.mono (hWV : W ⊆ V) (h : FieldFrame rest W s t) : FieldFrame rest V s t :=
  ⟨h.keeps, h.parts, fun hc g hg => h.field hc g (fun f hf => hg f (hWV hf))⟩

theorem FieldFrame.put (hf : f ∈ W) (n : Nat) (hp : rest (s.put f n) = rest s) : FieldFrame rest W s (s.put f n) :=
  ⟨State.keeps_put (.refl s) f n, hp, fun hc _ hg => State.get_put_clear hc (hg f hf) n⟩

/-- A change of no register. -/
theorem FieldFrame.of_regs (hk : Keeps s t) (hp : rest t = rest s) (hr : t.regs = s.regs) : FieldFrame rest W s t :=
  ⟨hk, hp, fun _ g _ => State.get_congr (by rw [State.reg, State.reg, hr])⟩

theorem FieldFrame.branch {c : Prop} [Decidable c] (h : FieldFrame rest W s t) (k : FieldFrame rest W s u) :
    FieldFrame rest W s (if c then t else u) := iteInduction (fun _ => h) (fun _ => k)

/-- A register none of whose fields is named. -/
theorem FieldFrame.reg (h : FieldFrame rest W s t) (hc : s.canonical = true) {k : Nat} (hk : ∀ f ∈ W, k ≠ f.key) : t.reg k = s.reg k := by
  have hword := h.field hc ⟨k, 0, 32⟩ (fun f hf => .inl (hk f hf))
  refine BitVec.eq_of_toNat_eq ?_
  simpa [State.get, bitsOf, Nat.mod_eq_of_lt (BitVec.isLt _)] using hword

/-! ## The causes of an estrangement (R305, R306) -/

/-- All that a change of the pair's state leaves as it is, registers aside: the logbook alone takes a record. -/
def State.outsideLog (s : State) : State := { s with regs := [], flc := {} }

/-- The fields that an estrangement may change. -/
def estrangeFields : List Fld := [F.SPH_ESTR_CAUSE, F.SPH_STAT_STATE, F.SPH_IRQ_ESTRANGED, F.FLC_LOGSTAT_DROP]

theorem FieldFrame.log (hW : F.FLC_LOGSTAT_DROP ∈ W) (s : State) (code detail : Nat) :
    FieldFrame State.outsideLog W s (s.log code detail) := by
  unfold State.log
  exact .branch (.branch (.of_regs (Keeps.upd.mpr (.refl s)) rfl rfl) (.put hW _ rfl)) (.refl _ _ s)

theorem FieldFrame.logPair (hW : F.FLC_LOGSTAT_DROP ∈ W) (s : State) : FieldFrame State.outsideLog W s s.logPair := .log hW ..

/-- A cause of SPH_ESTR is set. -/
theorem FieldFrame.raiseCause (s : State) {k : Nat} (hk : k < 5) : FieldFrame State.outsideLog estrangeFields s (s.raise (estrBit k)) := by
  refine ⟨State.keeps_put (.refl s) _ 1, rfl, fun hc g hg => State.get_put_clear hc ?_ 1⟩
  rcases hg F.SPH_ESTR_CAUSE (by simp [estrangeFields]) with h | ⟨h, _, ha⟩
  · exact .inl h
  · simp only [F.SPH_ESTR_CAUSE, Nat.zero_add, Nat.le_zero] at ha
    exact .inr ⟨h, by simp only [estrBit]; omega, by simp only [estrBit]; omega⟩

theorem State.flag_raiseCause (hc : s.canonical = true) {j k : Nat} (hj : j < 32) (hk : k < 32) :
    (s.raise (estrBit k)).flag (estrBit j) = (decide (j = k) || s.flag (estrBit j)) := by
  by_cases h : j = k
  · subst h
    rw [State.raise, State.flag_put hc (by simp only [estrBit]; omega), decide_eq_true rfl]
    rfl
  · rw [decide_eq_false h, Bool.false_or]
    have hclear : (estrBit j).clear (estrBit k) := .inr ⟨rfl, by simp only [estrBit]; omega, by simp only [estrBit]; omega⟩
    exact State.flag_congr (State.get_put_clear hc hclear 1)

/-- The causes of a list are set. -/
def State.raiseCauses (s : State) (ks : List Nat) : State := ks.foldl (fun t j => t.raise (estrBit j)) s

theorem FieldFrame.raiseCauses (ks : List Nat) (hks : ∀ k ∈ ks, k < 5) (s : State) :
    FieldFrame State.outsideLog estrangeFields s (s.raiseCauses ks) := by
  induction ks generalizing s with
  | nil => exact .refl _ _ s
  | cons k ks ih =>
    exact (FieldFrame.raiseCause s (hks k (List.mem_cons_self ..))).trans (ih (fun j hj => hks j (List.mem_cons_of_mem k hj)) _)

theorem State.flag_raiseCauses (hc : s.canonical = true) (ks : List Nat) (hks : ∀ k ∈ ks, k < 5) {j : Nat} (hj : j < 5) :
    (s.raiseCauses ks).flag (estrBit j) = (decide (j ∈ ks) || s.flag (estrBit j)) := by
  induction ks generalizing s with
  | nil => rfl
  | cons k ks ih =>
    have hk : k < 5 := hks k (List.mem_cons_self ..)
    have hrest := ih (s := s.raise (estrBit k)) (State.canonical_put hc ..) (fun i hi => hks i (List.mem_cons_of_mem k hi))
    refine hrest.trans ?_
    rw [State.flag_raiseCause hc (by omega) (by omega), ← Bool.or_assoc]
    congr 1
    rw [Bool.eq_iff_iff]
    simp [or_comm]

/-- Estrangement by a cause sets that cause, its interrupt and the state, and the logbook takes a record. -/
theorem FieldFrame.estrange (s : State) {k : Nat} (hk : k < 5) : FieldFrame State.outsideLog estrangeFields s (s.estrange (estrBit k)) :=
  (((FieldFrame.put (by simp [estrangeFields]) 5 rfl).trans (.raiseCause _ hk)).trans (.put (by simp [estrangeFields]) 1 rfl)).trans
    (.logPair (by simp [estrangeFields]) _)

theorem State.estrange_outcome (hc : s.canonical = true) {k : Nat} (hk : k < 5) : (s.estrange (estrBit k)).pairState = 5 ∧
    (s.estrange (estrBit k)).flag F.SPH_IRQ_ESTRANGED = true ∧
    ∀ j < 5, (s.estrange (estrBit k)).flag (estrBit j) = (decide (j = k) || s.flag (estrBit j)) := by
  have hc1 : (s.setPair 5).canonical = true := State.canonical_put hc ..
  have hc2 : ((s.setPair 5).raise (estrBit k)).canonical = true := State.canonical_put hc1 ..
  have hc3 : (((s.setPair 5).raise (estrBit k)).raise F.SPH_IRQ_ESTRANGED).canonical = true := State.canonical_put hc2 ..
  have hlog := (FieldFrame.logPair (W := [F.FLC_LOGSTAT_DROP]) (List.mem_cons_self ..)
    (((s.setPair 5).raise (estrBit k)).raise F.SPH_IRQ_ESTRANGED)).field hc3
  refine ⟨(hlog F.SPH_STAT_STATE (by decide)).trans ?_, (State.flag_congr (hlog F.SPH_IRQ_ESTRANGED (by decide))).trans ?_, fun j hj => ?_⟩
  · rw [State.raise, State.get_put_clear hc2 (by decide), State.raise, State.get_put_key _ _ (by decide : F.SPH_STAT_STATE.key ≠ Reg.SPH_ESTR)]
    exact State.get_put_same hc _ 5 (by decide)
  · exact State.flag_put hc2 (by decide) 1
  · have hestr : ∀ f ∈ [F.FLC_LOGSTAT_DROP], (estrBit j).clear f := by
      intro f hf
      rw [List.mem_singleton.mp hf]
      exact .inl (show Reg.SPH_ESTR ≠ F.FLC_LOGSTAT_DROP.key by decide)
    have hirq := State.flag_congr (State.get_put_key ((s.setPair 5).raise (estrBit k)) (f := F.SPH_IRQ_ESTRANGED) (g := estrBit j) 1
      (show Reg.SPH_ESTR ≠ Reg.SPH_IRQ by decide))
    refine ((State.flag_congr (hlog (estrBit j) hestr)).trans hirq).trans ?_
    rw [State.flag_raiseCause hc1 (by omega) (by omega)]
    exact congrArg (_ || ·) (State.flag_congr (State.get_put_key s 5 (show Reg.SPH_ESTR ≠ Reg.SPH_STAT by decide)))

end Sys2Proof.Machine
end
section
/-! PROOFS. The verdict on a heartbeat at the part that follows a primary (09_pair_siphon.md R303, R305, R307): the checks it fails, the
count of heartbeats without a checksum, and the state of the pair after it. -/

namespace Sys2Proof.Machine

variable {s t u : State} {b : BeatBody} {off : Int}

/-- All that a heartbeat's checks leave as it is, registers aside. -/
def State.outsideVerdict (s : State) : State :=
  { s with regs := [], flc := {}, sph := { s.sph with badEpoch := none, badImg := none, firstBeat := false, sumRun := 0 } }

/-! ## The count of heartbeats without a checksum (R307) -/

/-- The fields that the checksum count may change. -/
def countFields : List Fld := [F.SPH_STAT_SUMSTALE, F.SPH_IRQ_SUMSTALE]

theorem FieldFrame.countSum (s : State) (made : Bool) : FieldFrame State.outsideVerdict countFields s (s.countSum made) := by
  have hstale : F.SPH_STAT_SUMSTALE ∈ countFields := by simp [countFields]
  have hirq : F.SPH_IRQ_SUMSTALE ∈ countFields := by simp [countFields]
  have hcount (n : Nat) : FieldFrame State.outsideVerdict countFields s { s with sph := { s.sph with sumRun := n } } :=
    .of_regs (Keeps.upd.mpr (.refl s)) rfl rfl
  exact .branch ((hcount 0).trans (.put hstale 0 rfl))
    (.branch (.branch (((hcount (min (s.sph.sumRun + 1) 4096)).trans (.put hstale 1 rfl)).trans (.put hirq 1 rfl)) (hcount _)) (.refl _ _ s))

/-- A comparison starts the count again. -/
theorem State.countSum_made (hc : s.canonical = true) : (s.countSum true).sph.sumRun = 0 ∧
    (s.countSum true).flag F.SPH_STAT_SUMSTALE = false := by
  have hc1 : ({ s with sph := { s.sph with sumRun := 0 } } : State).canonical = true := State.canonical_congr hc rfl rfl rfl rfl rfl
  exact ⟨rfl, State.flag_put hc1 (by decide) 0⟩

/-- A STANDBY counts on to 4,096, where SUMSTALE sets. -/
theorem State.countSum_standby (hc : s.canonical = true) (h4 : s.pairState = 4) :
    (s.countSum false).sph.sumRun = min (s.sph.sumRun + 1) 4096 ∧ (s.sph.sumRun = 4095 →
      (s.countSum false).flag F.SPH_STAT_SUMSTALE = true ∧ (s.countSum false).flag F.SPH_IRQ_SUMSTALE = true) := by
  have hcount : s.countSum false = let n := min (s.sph.sumRun + 1) 4096
      let s1 : State := { s with sph := { s.sph with sumRun := n } }
      if n = 4096 ∧ s.sph.sumRun < 4096 then (s1.raise F.SPH_STAT_SUMSTALE).raise F.SPH_IRQ_SUMSTALE else s1 := if_pos h4
  dsimp only at hcount
  rw [hcount]
  refine ⟨by split <;> rfl, fun hrun => ?_⟩
  rw [if_pos (by omega)]
  generalize hs1 : ({ s with sph := { s.sph with sumRun := min (s.sph.sumRun + 1) 4096 } } : State) = s1
  have hc1 : s1.canonical = true := hs1 ▸ State.canonical_congr hc rfl rfl rfl rfl rfl
  have hc2 : (s1.raise F.SPH_STAT_SUMSTALE).canonical = true := State.canonical_put hc1 ..
  refine ⟨(State.flag_congr (State.get_put_clear hc2 (by decide) 1)).trans ?_, State.flag_put hc2 (by decide) 1⟩
  exact State.flag_put hc1 (by decide) 1

/-! ## The checks (R305) -/

/-- The state after the checks, before what they find acts. -/
def State.beatJudged (s : State) (b : BeatBody) (off : Int) : State :=
  let s4 := (s.checkBeat b off).1.countSum (s.checkBeat b off).2.2
  { s4 with sph := { s4.sph with firstBeat := s4.pairState == 4 } }

/-- What follows the time of a heartbeat. -/
def State.beatVerdict (s : State) (b : BeatBody) (off : Int) : State :=
  if s.pairState = 5 then s
  else
    let s5 := s.beatJudged b off
    match (s.checkBeat b off).2.1 with
    | [] =>
      if s5.pairState = 2 ∧ s5.sph.passDone then
        (({ s5 with sph := { s5.sph with sumRun := 0 } }).setPair 4).raise F.SPH_IRQ_ALIGNED
      else s5
    | k :: ks => (s5.raiseCauses ks).estrange (estrBit k)

theorem State.beatAtStandby_eq (s : State) (b : BeatBody) : s.beatAtStandby b =
    ((s.put F.SPH_STAT_TERM b.term.toNat).beatTime b).beatVerdict b (if (s.put F.SPH_STAT_TERM b.term.toNat).measures b then
      (s.put F.SPH_STAT_TERM b.term.toNat).beatOffset b else 0) := rfl

/-- An alignment ends in STANDBY (R303). -/
def State.endAlignment (s : State) : State :=
  (({ s with sph := { s.sph with sumRun := 0 } } : State).setPair 4).raise F.SPH_IRQ_ALIGNED

/-- What the checks remember. -/
theorem State.checkBeat_fst (s : State) (b : BeatBody) (off : Int) : ∃ x y,
    (s.checkBeat b off).1 = { s with sph := { s.sph with badEpoch := x, badImg := y } } := by
  simp only [State.checkBeat]
  split
  · exact ⟨_, _, rfl⟩
  · exact ⟨_, _, rfl⟩

theorem FieldFrame.beatJudged (s : State) (b : BeatBody) (off : Int) : FieldFrame State.outsideVerdict countFields s (s.beatJudged b off) := by
  obtain ⟨x, y, hnoted⟩ := s.checkBeat_fst b off
  have hcheck : FieldFrame State.outsideVerdict countFields s (s.checkBeat b off).1 := by
    rw [hnoted]
    exact .of_regs (Keeps.upd.mpr (.refl s)) rfl rfl
  exact (hcheck.trans (.countSum _ _)).trans (.of_regs (Keeps.upd.mpr (.refl _)) rfl rfl)

theorem State.beatJudged_pairState (hc : s.canonical = true) (b : BeatBody) (off : Int) : (s.beatJudged b off).pairState = s.pairState :=
  (FieldFrame.beatJudged s b off).field hc F.SPH_STAT_STATE (by decide)

theorem State.beatJudged_passDone (s : State) (b : BeatBody) (off : Int) : (s.beatJudged b off).sph.passDone = s.sph.passDone :=
  (congrArg (fun t => t.sph.passDone) (FieldFrame.beatJudged s b off).parts :)

theorem State.beatJudged_made (hc : s.canonical = true) (hmade : (s.checkBeat b off).2.2 = true) :
    (s.beatJudged b off).sph.sumRun = 0 ∧ (s.beatJudged b off).flag F.SPH_STAT_SUMSTALE = false := by
  have hc1 : (s.checkBeat b off).1.canonical = true := (State.keeps_checkBeat (.refl s) b off).canon hc
  unfold State.beatJudged
  rw [hmade]
  exact State.countSum_made hc1

theorem State.beatJudged_standby (hc : s.canonical = true) (hmade : (s.checkBeat b off).2.2 = false) (h4 : s.pairState = 4) :
    (s.beatJudged b off).sph.sumRun = min (s.sph.sumRun + 1) 4096 ∧ (s.sph.sumRun = 4095 →
      (s.beatJudged b off).flag F.SPH_STAT_SUMSTALE = true ∧ (s.beatJudged b off).flag F.SPH_IRQ_SUMSTALE = true) := by
  have hc1 : (s.checkBeat b off).1.canonical = true := (State.keeps_checkBeat (.refl s) b off).canon hc
  obtain ⟨x, y, hnoted⟩ := s.checkBeat_fst b off
  have hrun : (s.checkBeat b off).1.sph.sumRun = s.sph.sumRun ∧ (s.checkBeat b off).1.pairState = 4 := by
    rw [hnoted]
    exact ⟨rfl, h4⟩
  obtain ⟨hsum, h4'⟩ := hrun
  have hcount := State.countSum_standby hc1 h4'
  rw [hsum] at hcount
  unfold State.beatJudged
  rw [hmade]
  exact hcount

/-! ## What the checks find -/

/-- The fields that a heartbeat's checks may change. -/
def verdictFields : List Fld := countFields ++ F.SPH_IRQ_ALIGNED :: estrangeFields

theorem State.beatVerdict_estranged (h5 : s.pairState = 5) : s.beatVerdict b off = s := if_pos h5

theorem State.beatVerdict_failed (h5 : s.pairState ≠ 5) {k : Nat} {ks : List Nat} (h : (s.checkBeat b off).2.1 = k :: ks) :
    s.beatVerdict b off = ((s.beatJudged b off).raiseCauses ks).estrange (estrBit k) := by
  rw [State.beatVerdict, if_neg h5]
  dsimp only
  rw [h]

theorem State.beatVerdict_passed (h5 : s.pairState ≠ 5) (h : (s.checkBeat b off).2.1 = []) :
    s.beatVerdict b off = if (s.beatJudged b off).pairState = 2 ∧ (s.beatJudged b off).sph.passDone = true then
      (s.beatJudged b off).endAlignment else s.beatJudged b off := by
  rw [State.beatVerdict, if_neg h5]
  dsimp only
  rw [h]
  rfl

/-- The causes are among the first four. -/
theorem State.failures_lt (s : State) (b : BeatBody) (off : Int) : ∀ k ∈ (s.checkBeat b off).2.1, k < 5 := by
  intro k hk
  simp only [State.checkBeat, List.mem_append] at hk
  rcases hk with ((hk | hk) | hk) | hk <;> split at hk <;> simp at hk <;> omega

theorem FieldFrame.failed (s : State) {k : Nat} {ks : List Nat} (h : ∀ j ∈ k :: ks, j < 5) :
    FieldFrame State.outsideLog estrangeFields s ((s.raiseCauses ks).estrange (estrBit k)) :=
  (FieldFrame.raiseCauses ks (fun j hj => h j (List.mem_cons_of_mem k hj)) s).trans (.estrange _ (h k (List.mem_cons_self ..)))

theorem FieldFrame.coarsen {rest rest' : State → State} {W : List Fld} (hr : ∀ x y : State, rest x = rest y → rest' x = rest' y)
    (h : FieldFrame rest W s t) : FieldFrame rest' W s t := ⟨h.keeps, hr _ _ h.parts, h.field⟩

theorem State.outsideVerdict_of_log (s t : State) (h : s.outsideLog = t.outsideLog) : s.outsideVerdict = t.outsideVerdict :=
  (congrArg State.outsideVerdict h :)

theorem FieldFrame.endAlignment (s : State) : FieldFrame State.outsideVerdict verdictFields s s.endAlignment :=
  ((FieldFrame.of_regs (t := { s with sph := { s.sph with sumRun := 0 } }) (Keeps.upd.mpr (.refl s)) rfl rfl).trans
    (.put (by simp [verdictFields, estrangeFields]) 4 rfl)).trans (.put (by simp [verdictFields]) 1 rfl)

theorem State.endAlignment_outcome (hc : s.canonical = true) : s.endAlignment.pairState = 4 ∧ s.endAlignment.flag F.SPH_IRQ_ALIGNED = true ∧
    s.endAlignment.reg Reg.SPH_ESTR = s.reg Reg.SPH_ESTR ∧ s.endAlignment.flag F.SPH_STAT_SUMSTALE = s.flag F.SPH_STAT_SUMSTALE ∧
    s.endAlignment.flag F.SPH_IRQ_SUMSTALE = s.flag F.SPH_IRQ_SUMSTALE := by
  generalize hj : ({ s with sph := { s.sph with sumRun := 0 } } : State) = j
  have hcj : j.canonical = true := hj ▸ State.canonical_congr hc rfl rfl rfl rfl rfl
  have hend : s.endAlignment = (j.setPair 4).raise F.SPH_IRQ_ALIGNED := by rw [← hj, State.endAlignment]
  have hreg (k : Nat) : j.reg k = s.reg k := by rw [← hj]; rfl
  have hcp : (j.setPair 4).canonical = true := State.canonical_put hcj ..
  rw [hend]
  refine ⟨(State.get_put_key _ 1 (by decide)).trans (State.get_put_same hcj _ 4 (by decide)), State.flag_put hcp (by decide) 1,
    ((State.reg_setReg_other _ _ (by decide)).trans (State.reg_setReg_other _ _ (by decide))).trans (hreg _),
    State.flag_congr ?_, State.flag_congr ?_⟩
  · exact ((State.get_put_key _ 1 (by decide)).trans (State.get_put_clear hcj (by decide) 4)).trans (State.get_congr (hreg _))
  · exact ((State.get_put_clear hcp (by decide) 1).trans (State.get_put_key _ 4 (by decide))).trans (State.get_congr (hreg _))

/-- What a heartbeat's checks may change. -/
theorem FieldFrame.beatVerdict (s : State) (b : BeatBody) (off : Int) : FieldFrame State.outsideVerdict verdictFields s (s.beatVerdict b off) := by
  have hjudged : FieldFrame State.outsideVerdict verdictFields s (s.beatJudged b off) :=
    (FieldFrame.beatJudged s b off).mono (List.subset_append_left ..)
  by_cases h5 : s.pairState = 5
  · rw [State.beatVerdict_estranged h5]
    exact .refl _ _ s
  · rcases h : (s.checkBeat b off).2.1 with _ | ⟨k, ks⟩
    · rw [State.beatVerdict_passed h5 h]
      exact hjudged.trans (.branch (.endAlignment _) (.refl _ _ _))
    · rw [State.beatVerdict_failed h5 h]
      have hfail := FieldFrame.failed (s.beatJudged b off) (h ▸ s.failures_lt b off)
      exact hjudged.trans ((hfail.coarsen State.outsideVerdict_of_log).mono (by simp [verdictFields]))

/-- A check that fails makes the part ESTRANGED, with every cause that failed. -/
theorem State.beatVerdict_fails (hc : s.canonical = true) (h5 : s.pairState ≠ 5) (h : (s.checkBeat b off).2.1 ≠ []) :
    (s.beatVerdict b off).pairState = 5 ∧ (s.beatVerdict b off).flag F.SPH_IRQ_ESTRANGED = true ∧
    ∀ j < 5, (s.beatVerdict b off).flag (estrBit j) = (decide (j ∈ (s.checkBeat b off).2.1) || s.flag (estrBit j)) := by
  obtain ⟨k, ks, hks⟩ := List.exists_cons_of_ne_nil h
  have hlt := s.failures_lt b off
  rw [hks] at hlt ⊢
  have hcj : (s.beatJudged b off).canonical = true := (FieldFrame.beatJudged s b off).keeps.canon hc
  have hcr : ((s.beatJudged b off).raiseCauses ks).canonical = true :=
    (FieldFrame.raiseCauses ks (fun j hj => hlt j (List.mem_cons_of_mem k hj)) _).keeps.canon hcj
  obtain ⟨hpair, hirq, hbits⟩ := State.estrange_outcome hcr (hlt k (List.mem_cons_self ..))
  rw [State.beatVerdict_failed h5 hks]
  refine ⟨hpair, hirq, fun j hj => ?_⟩
  have hold : (s.beatJudged b off).flag (estrBit j) = s.flag (estrBit j) :=
    State.flag_congr (State.get_congr ((FieldFrame.beatJudged s b off).reg hc (show ∀ f ∈ countFields, Reg.SPH_ESTR ≠ f.key by decide)))
  rw [hbits j hj, State.flag_raiseCauses hcj ks (fun j hj => hlt j (List.mem_cons_of_mem k hj)) hj, hold, ← Bool.or_assoc]
  congr 1
  rw [Bool.eq_iff_iff]
  simp

/-- Without one the causes stay; an alignment whose pass is done ends in STANDBY. -/
theorem State.beatVerdict_passes (hc : s.canonical = true) (h5 : s.pairState ≠ 5) (h : (s.checkBeat b off).2.1 = []) :
    (s.beatVerdict b off).reg Reg.SPH_ESTR = s.reg Reg.SPH_ESTR ∧
    (s.pairState = 2 ∧ s.sph.passDone = true → (s.beatVerdict b off).pairState = 4 ∧ (s.beatVerdict b off).flag F.SPH_IRQ_ALIGNED = true) ∧
    (s.pairState ≠ 2 ∨ s.sph.passDone = false → (s.beatVerdict b off).pairState = s.pairState) := by
  have hcj : (s.beatJudged b off).canonical = true := (FieldFrame.beatJudged s b off).keeps.canon hc
  have hestr : (s.beatJudged b off).reg Reg.SPH_ESTR = s.reg Reg.SPH_ESTR := (FieldFrame.beatJudged s b off).reg hc (by decide)
  have hpair := State.beatJudged_pairState hc b off
  have hpass := s.beatJudged_passDone b off
  rw [State.beatVerdict_passed h5 h, hpair, hpass]
  by_cases hdone : s.pairState = 2 ∧ s.sph.passDone = true
  · rw [if_pos hdone]
    obtain ⟨hstandby, hirq, hreg, -, -⟩ := State.endAlignment_outcome hcj
    refine ⟨hreg.trans hestr, fun _ => ⟨hstandby, hirq⟩, fun hnot => ?_⟩
    · rcases hnot with hnot | hnot
      · exact absurd hdone.1 hnot
      · rw [hdone.2] at hnot
        exact absurd hnot (by decide)
  · rw [if_neg hdone]
    exact ⟨hestr, fun hd => absurd hd hdone, fun _ => hpair⟩

/-- The checksum count after the verdict. -/
theorem State.beatVerdict_count (hc : s.canonical = true) (h5 : s.pairState ≠ 5) :
    (s.beatVerdict b off).flag F.SPH_STAT_SUMSTALE = (s.beatJudged b off).flag F.SPH_STAT_SUMSTALE ∧
    (s.beatVerdict b off).flag F.SPH_IRQ_SUMSTALE = (s.beatJudged b off).flag F.SPH_IRQ_SUMSTALE ∧
    ((s.beatJudged b off).sph.sumRun = 0 ∨ s.pairState = 4 → (s.beatVerdict b off).sph.sumRun = (s.beatJudged b off).sph.sumRun) := by
  have hcj : (s.beatJudged b off).canonical = true := (FieldFrame.beatJudged s b off).keeps.canon hc
  rcases h : (s.checkBeat b off).2.1 with _ | ⟨k, ks⟩
  · rw [State.beatVerdict_passed h5 h, State.beatJudged_pairState hc]
    split
    · next hdone =>
      obtain ⟨-, -, -, hstale, hirq⟩ := State.endAlignment_outcome hcj
      refine ⟨hstale, hirq, fun hrun => ?_⟩
      · rcases hrun with hrun | h4
        · exact hrun.symm
        · omega
    · exact ⟨rfl, rfl, fun _ => rfl⟩
  · have hfail := FieldFrame.failed (s.beatJudged b off) (h ▸ s.failures_lt b off)
    rw [State.beatVerdict_failed h5 h]
    exact ⟨State.flag_congr (hfail.field hcj _ (by decide)), State.flag_congr (hfail.field hcj _ (by decide)),
      fun _ => (congrArg (fun t => t.sph.sumRun) hfail.parts :)⟩

end Sys2Proof.Machine
end
section
/-! PROOFS. The time of a heartbeat at the part that follows a primary (09_pair_siphon.md R302, R304): the primary's time taken over, the
offset slewed away, and slots that stand still with the primary's; and the accounts that were held. -/

namespace Sys2Proof.Machine

variable {s t u : State} {b : BeatBody} {k : Nat}

/-! ## Accounts (R304) -/

/-- The registers that an account may change: the buckets' sums and the credits. -/
def acctKey (k : Nat) : Prop := sumKey k ∨ ∃ n < 1024, k = Reg.SFM_QCR n

theorem not_acctKey (h : k < 0x200C5000 ∨ 0x200C81EC < k) : ¬acctKey k := by
  rintro (hsum | ⟨n, hn, rfl⟩)
  · exact not_sumKey (by omega) hsum
  · simp only [Reg.SFM_QCR] at h
    omega

theorem ChangeFrame.applyAcct (s : State) (x : AcctRec) : ChangeFrame State.outsideSums acctKey s (s.applyAcct x) := by
  rw [State.applyAcct_eq]
  have hgran (n : Fin 16) (l : List (Nat × Nat)) :
      ChangeFrame State.outsideSums acctKey s ({ s with granules := s.granules.set n.val l } : State) :=
    .of_regs (Keeps.upd.mpr (.refl s)) rfl rfl
  exact .branch (.put s _ _ rfl (.inr ⟨_, bitsOf_lt .., rfl⟩))
    (.branch (.refl _ _ s) ((hgran _ _).trans (.put _ _ _ rfl (.inl ⟨_, rfl⟩))))

theorem ChangeFrame.applyHeld (s : State) :
    ChangeFrame State.outsideSums acctKey { s with sph := { s.sph with acct := [] } } s.applyHeld :=
  .each (fun u x _ => .applyAcct u x) _

/-- The accounts held reach the granules, the sums and the credits alone. -/
theorem State.applyHeld_eq (s : State) : s.applyHeld =
    { s with sph := { s.sph with acct := [] }, regs := s.applyHeld.regs, granules := s.applyHeld.granules } :=
  eq_of_outsideSums (ChangeFrame.applyHeld s).parts

theorem State.applyHeld_reg (s : State) (hk : ¬acctKey k) : s.applyHeld.reg k = s.reg k := (ChangeFrame.applyHeld s).reg k hk

/-! ## What the time of a heartbeat changes (R302) -/

/-- All that the time of a heartbeat leaves as it is, registers aside. -/
def State.outsideTime (s : State) : State :=
  { s with regs := [], granules := Vector.replicate 16 [], sfm := {}, fdr := { s.fdr with realign := false }
           tx := { s.tx with cur := none, hop := none }
           sph := { s.sph with beatAt := none, timed := false, stood := false, acct := [] } }

/-- The registers that the time of a heartbeat may change. -/
def timeKey (k : Nat) : Prop := k = Reg.SFM_CTL ∨ k = Reg.SPH_OFFSET ∨ acctKey k

theorem State.setRun_reg (s : State) (v : Bool) (hk : k ≠ Reg.SFM_CTL) : (s.setRun v).reg k = s.reg k :=
  State.reg_setReg_other s _ hk

theorem State.flag_setRun (hc : s.canonical = true) (v : Bool) : (s.setRun v).flag F.SFM_CTL_RUN = v :=
  (State.flag_put hc (by decide) (bit01 v)).trans (by cases v <;> rfl)

theorem ChangeFrame.setRun (s : State) (v : Bool) : ChangeFrame State.outsideTime timeKey s (s.setRun v) :=
  ⟨State.keeps_setRun (.refl s) v, rfl, fun _ hk => s.setRun_reg v (fun e => hk (.inl e))⟩

theorem ChangeFrame.runBit (s : State) (v : Bool) : ChangeFrame State.outsideTime timeKey s (s.runBit v) := by
  have hsfm (m : Sfm) : ChangeFrame State.outsideTime timeKey s { s.setRun v with sfm := m } :=
    (ChangeFrame.setRun s v).trans (.of_regs (Keeps.upd.mpr (.refl _)) rfl rfl)
  unfold State.runBit
  exact .branch (.branch (hsfm _) (hsfm _)) (.branch (hsfm _) (hsfm _))

theorem ChangeFrame.stopWith (s : State) : ChangeFrame State.outsideTime timeKey s s.stopWith :=
  .branch (.refl _ _ s) ((ChangeFrame.runBit s false).trans (.of_regs (Keeps.upd.mpr (.refl _)) (by rw [State.runBit_false]; rfl) rfl))

theorem ChangeFrame.measure (s : State) (n : Nat) (d : Int) :
    ChangeFrame State.outsideTime timeKey s { s.put F.SPH_OFFSET_OFF n with sfm := { s.sfm with slew := d } } :=
  (ChangeFrame.put s F.SPH_OFFSET_OFF n rfl (.inr (.inl rfl))).trans (.of_regs (Keeps.upd.mpr (.refl _)) rfl rfl)

theorem ChangeFrame.followTime (s : State) (b : BeatBody) : ChangeFrame State.outsideTime timeKey s (s.followTime b) := .measure ..

/-! ## The primary's time taken over -/

/-- The part's offset in the slot, less the primary's. -/
def State.lateness (s : State) (b : BeatBody) : Int := b.here.toNat - (b.off.toNat + s.latencyUnits : Nat)

/-- The superframe machine in the slot that the primary is in, times not yet moved. -/
def Sfm.inSlotOf (m : Sfm) (asn : BitVec 40) (late : Int) : Sfm :=
  { m with asn := asn, stopPend := false, slew := 0, slotLen := 80000, offSeen := 0, occ := [], clock := (m.clock + late).toNat
           prevAsn := (asn.toNat + 2 ^ 40 - 1) % 2 ^ 40, prevLen := 80000, pause := 0 }

/-- A part whose slots run, in the primary's slot before its launches, buckets and accounts follow. -/
def State.inSlotOf (s : State) (b : BeatBody) : State :=
  { s.setRun true with
    sph := { s.sph with timed := true, stood := false }, sfm := s.sfm.inSlotOf b.asn (s.lateness b) }

theorem State.adoptTime_running (hr : s.running = true) (b : BeatBody) :
    s.adoptTime b = (((s.inSlotOf b).shiftTimes (s.lateness b)).moveWindows).applyHeld := if_pos hr

theorem State.adoptTime_starts (hr : s.running = false) (b : BeatBody) : s.adoptTime b =
    { s.setRun true with sph := { s.sph with timed := true, stood := false }
                         sfm := { s.sfm with startPend := true, slew := 0, adopt := some ((b.asn.toNat + 1) % 2 ^ 40) } } :=
  if_neg (by rw [hr]; exact Bool.false_ne_true)

/-- A running part's state after it has taken the primary's time. -/
theorem State.adoptTime_moved (hr : s.running = true) (b : BeatBody) :
    let m := ((s.inSlotOf b).shiftTimes (s.lateness b)).moveWindows
    s.adoptTime b = { (s.inSlotOf b).shiftTimes (s.lateness b) with
      regs := m.applyHeld.regs, granules := m.applyHeld.granules
      sph := { s.sph with timed := true, stood := false, acct := [] } } := by
  intro m
  have hmoved := ((s.inSlotOf b).shiftTimes (s.lateness b)).moveWindows_eq
  have hheld := m.applyHeld_eq
  rw [State.adoptTime_running hr, hheld]
  simp only [m]
  rw [hmoved]
  rfl

theorem State.adoptTime_reg (hr : s.running = true) (b : BeatBody) (hk : k ≠ Reg.SFM_CTL) (ha : ¬acctKey k) :
    (s.adoptTime b).reg k = s.reg k := by
  rw [State.adoptTime_running hr, State.applyHeld_reg _ ha, State.moveWindows_reg _ (fun e => ha (.inl e)), State.shiftTimes_reg]
  exact s.setRun_reg true hk

theorem ChangeFrame.adoptTime (s : State) (b : BeatBody) : ChangeFrame State.outsideTime timeKey s (s.adoptTime b) := by
  rcases hr : s.running with _ | _
  · rw [State.adoptTime_starts hr]
    exact (ChangeFrame.setRun s true).trans (.of_regs (Keeps.upd.mpr (.refl _)) rfl rfl)
  · refine ⟨State.keeps_adoptTime (.refl s) b, ?_, fun k hk => State.adoptTime_reg hr b (fun e => hk (.inl e)) (fun e => hk (.inr (.inr e)))⟩
    rw [State.adoptTime_moved hr]
    rfl

/-- The part with the slot and offset of the heartbeat noted. -/
def State.seenBeat (s : State) (b : BeatBody) : State := { s with sph := { s.sph with beatAt := some (b.asn.toNat, b.off.toNat) } }

theorem ChangeFrame.seenBeat (s : State) (b : BeatBody) : ChangeFrame State.outsideTime timeKey s (s.seenBeat b) :=
  .of_regs (Keeps.upd.mpr (.refl s)) rfl rfl

theorem State.canonical_seenBeat (hc : s.canonical = true) (b : BeatBody) : (s.seenBeat b).canonical = true :=
  (ChangeFrame.seenBeat s b).keeps.canon hc

/-- What the time of a heartbeat may change. -/
theorem ChangeFrame.beatTime (s : State) (b : BeatBody) : ChangeFrame State.outsideTime timeKey s (s.beatTime b) :=
  .branch ((ChangeFrame.seenBeat s b).trans (.stopWith _)) (.branch ((ChangeFrame.seenBeat s b).trans (.adoptTime _ b))
    (.branch ((ChangeFrame.seenBeat s b).trans (.followTime _ b)) (.seenBeat s b)))

/-! ## What a heartbeat's time does, case by case -/

/-- The heartbeat gives the part the primary's time. -/
def State.adopts (s : State) (b : BeatBody) : Bool := !s.beatStands b && (!s.sph.timed || s.sph.stood)

theorem State.beatTime_stands (h : s.beatStands b = true) : s.beatTime b = (s.seenBeat b).stopWith := if_pos h

theorem State.beatTime_adopts (h : s.adopts b = true) : s.beatTime b = (s.seenBeat b).adoptTime b := by
  rw [State.adopts, Bool.and_eq_true, Bool.not_eq_true'] at h
  exact (if_neg (by rw [h.1]; exact Bool.false_ne_true)).trans (if_pos h.2)

theorem State.beatTime_measures (h : s.measures b = true) : s.beatTime b = (s.seenBeat b).followTime b := by
  simp only [State.measures, Bool.and_eq_true, Bool.not_eq_true'] at h
  obtain ⟨⟨⟨htimed, hstood⟩, hrun⟩, hstands⟩ := h
  exact (if_neg (by simp [hstands])).trans ((if_neg (by simp [htimed, hstood])).trans (if_pos hrun))

theorem State.beatTime_waits (hs : s.beatStands b = false) (ha : s.adopts b = false) (hr : s.running = false) :
    s.beatTime b = s.seenBeat b := by
  rw [State.adopts, hs, Bool.not_false, Bool.true_and] at ha
  exact (if_neg (by rw [hs]; exact Bool.false_ne_true)).trans
    ((if_neg (by rw [ha]; exact Bool.false_ne_true)).trans (if_neg (by rw [hr]; exact Bool.false_ne_true)))

/-- A part measures where it neither stands, nor takes the time, nor waits for its slots. -/
theorem State.measures_eq (s : State) (b : BeatBody) : s.measures b = (!s.beatStands b && !s.adopts b && s.running) := by
  rw [State.measures, State.adopts]
  cases s.beatStands b <;> cases s.sph.timed <;> cases s.sph.stood <;> cases s.running <;> rfl

/-- Slots that stand stop this part's, once. -/
theorem State.beatTime_stopped (h : s.beatStands b = true) (hd : s.sph.stood = false) : s.beatTime b =
    { s.runBit false with sph := { (s.seenBeat b).sph with stood := true } } := by
  refine (State.beatTime_stands h).trans ((if_neg (by rw [show (s.seenBeat b).sph.stood = false from hd]; exact Bool.false_ne_true)).trans ?_)
  rw [State.runBit_false, State.runBit_false]
  rfl

theorem State.beatTime_stays (h : s.beatStands b = true) (hd : s.sph.stood = true) : s.beatTime b = s.seenBeat b :=
  (State.beatTime_stands h).trans (if_pos hd)

/-- What the part remembers of the primary's time. -/
theorem State.beatTime_marks (s : State) (b : BeatBody) : (s.beatTime b).sph.timed = (s.sph.timed || s.adopts b) ∧
    (s.beatTime b).sph.stood = (s.beatStands b || (s.sph.stood && !s.adopts b)) ∧
    (s.beatTime b).sph.beatAt = some (b.asn.toNat, b.off.toNat) := by
  rcases hs : s.beatStands b with _ | _
  · rcases ha : s.adopts b with _ | _
    · have hsame : (s.beatTime b).sph = (s.seenBeat b).sph := by
        rcases hr : s.running with _ | _
        · rw [State.beatTime_waits hs ha hr]
        · rw [State.beatTime_measures (by rw [State.measures_eq, hs, ha, hr]; rfl)]
          rfl
      rw [hsame, Bool.or_false, Bool.not_false, Bool.and_true]
      exact ⟨rfl, rfl, rfl⟩
    · have htaken : (s.beatTime b).sph.timed = true ∧ (s.beatTime b).sph.stood = false ∧
          (s.beatTime b).sph.beatAt = some (b.asn.toNat, b.off.toNat) := by
        rw [State.beatTime_adopts ha]
        rcases hr : (s.seenBeat b).running with _ | _
        · rw [State.adoptTime_starts hr]
          exact ⟨rfl, rfl, rfl⟩
        · rw [State.adoptTime_moved hr]
          exact ⟨rfl, rfl, rfl⟩
      rw [Bool.or_true, Bool.not_true, Bool.and_false]
      exact htaken
  · have ha : s.adopts b = false := by rw [State.adopts, hs]; rfl
    rw [ha, Bool.or_false, Bool.true_or]
    rcases hd : s.sph.stood with _ | _
    · rw [State.beatTime_stopped hs hd]
      exact ⟨rfl, rfl, rfl⟩
    · rw [State.beatTime_stays hs hd]
      exact ⟨rfl, hd, rfl⟩

/-- The slots stop with the primary's. -/
theorem State.beatTime_stop (hc : s.canonical = true) (h : s.beatStands b = true) (hd : s.sph.stood = false) :
    (s.beatTime b).flag F.SFM_CTL_RUN = false ∧ (s.beatTime b).sfm =
      if s.running then { s.sfm with stopPend := true } else { s.sfm with startPend := false, adopt := none } := by
  rw [State.beatTime_stopped h hd]
  refine ⟨?_, by rw [State.runBit_false]⟩
  have hreg : (s.runBit false).reg Reg.SFM_CTL = (s.setRun false).reg Reg.SFM_CTL := by
    unfold State.runBit
    rcases s.running with _ | _ <;> rfl
  exact (State.flag_congr (State.get_congr hreg)).trans (State.flag_setRun hc false)

/-- Slots that do not run start at the primary's next. -/
theorem State.beatTime_start (hc : s.canonical = true) (h : s.adopts b = true) (hr : s.running = false) :
    (s.beatTime b).flag F.SFM_CTL_RUN = true ∧
    (s.beatTime b).sfm = { s.sfm with startPend := true, slew := 0, adopt := some ((b.asn.toNat + 1) % 2 ^ 40) } := by
  rw [State.beatTime_adopts h, State.adoptTime_starts (s := s.seenBeat b) hr]
  exact ⟨State.flag_setRun (State.canonical_seenBeat hc b) true, rfl⟩

/-- Slots that run take the primary's place at once. -/
theorem State.beatTime_take (hc : s.canonical = true) (h : s.adopts b = true) (hr : s.running = true) :
    (s.beatTime b).flag F.SFM_CTL_RUN = true ∧ (s.beatTime b).sfm = (s.sfm.inSlotOf b.asn (s.lateness b)).back (s.lateness b) ∧
    (s.beatTime b).sph.acct = [] := by
  have hnot : ¬acctKey Reg.SFM_CTL := not_acctKey (by decide)
  have hrun : ((s.seenBeat b).inSlotOf b).flag F.SFM_CTL_RUN = true := State.flag_setRun (State.canonical_seenBeat hc b) true
  have hreg : ((s.seenBeat b).adoptTime b).reg Reg.SFM_CTL = ((s.seenBeat b).inSlotOf b).reg Reg.SFM_CTL := by
    rw [State.adoptTime_running (s := s.seenBeat b) hr, State.applyHeld_reg _ hnot, State.moveWindows_reg _ (fun e => hnot (.inl e)),
      State.shiftTimes_reg]
  rw [State.beatTime_adopts h]
  refine ⟨(State.flag_congr (State.get_congr hreg)).trans hrun, ?_⟩
  rw [State.adoptTime_moved (s := s.seenBeat b) hr]
  exact ⟨rfl, rfl⟩

theorem ofSigned_lt (off : Int) : ofSigned 24 off < 2 ^ 24 := by
  rw [ofSigned]
  omega

theorem State.get_put_offset (hc : s.canonical = true) (off : Int) (m : Sfm) :
    ({ s.put F.SPH_OFFSET_OFF (ofSigned 24 off) with sfm := m } : State).get F.SPH_OFFSET_OFF = ofSigned 24 off := by
  have hlt := ofSigned_lt off
  generalize ofSigned 24 off = n at hlt ⊢
  exact (State.get_put_same hc F.SPH_OFFSET_OFF n (by decide)).trans (Nat.mod_eq_of_lt hlt)

theorem State.followTime_eq (s : State) (b : BeatBody) : s.followTime b = { s.put F.SPH_OFFSET_OFF (ofSigned 24 (s.beatOffset b)) with
    sfm := { s.sfm with slew := s.beatOffset b - ((s.sfm.slotLen : Int) - 80000) } } := rfl

/-- Slots that run with the primary's are slewed. -/
theorem State.beatTime_slew (h : s.measures b = true) :
    (s.beatTime b).sfm = { s.sfm with slew := s.beatOffset b - ((s.sfm.slotLen : Int) - 80000) } := by
  rw [State.beatTime_measures h, State.followTime_eq]
  rfl

/-- The offset is reported. -/
theorem State.beatTime_offset (hc : s.canonical = true) (h : s.measures b = true) :
    (s.beatTime b).get F.SPH_OFFSET_OFF = ofSigned 24 (s.beatOffset b) := by
  have hoff : (s.seenBeat b).beatOffset b = s.beatOffset b := rfl
  rw [State.beatTime_measures h, State.followTime_eq, State.get_put_offset (State.canonical_seenBeat hc b), hoff]

end Sys2Proof.Machine
end
section
/-! PROOFS. A heartbeat arrives (09_pair_siphon.md R284, R292, R302, R303, R305, R307): the part it meets, and what it makes of one that
follows the primary it comes from. -/

namespace Sys2Proof.Machine

variable {s t u : State} {h : SphHdr} {b : BeatBody} {off : Int}

/-! ## The part that a heartbeat meets -/

/-- The frames outstanding are not what an ALIGNING peer accepts next (log entry 63). -/
theorem State.inStep_eq (s : State) (h : SphHdr) (b : BeatBody) : s.inStep h b =
    if h.ackv && b.state == 2 && (match (s.sph.out ++ s.sph.waiting).head? with
      | some f => f.seq != (h.ack.toNat + 1) % 65536
      | none => false)
    then { s.renumber h.ack.toNat with sph := { (s.renumber h.ack.toNat).sph with aligning := false } } else s := by
  have hstate : decide (b.state.val = 2) = (b.state == 2) := by rw [Bool.eq_iff_iff, decide_eq_true_iff, beq_iff_eq, Fin.ext_iff]; rfl
  rw [State.inStep, State.outOfStep, hstate, ← Bool.and_assoc, Bool.and_comm h.ackv] <;> rfl

/-- The peer's state is noted. -/
def State.fromPeer (u : State) (b : BeatBody) : State := { u with sph := { u.sph with peer := b.state.val } }

/-- What a heartbeat does, its header done with. -/
def State.beaten (u : State) (b : BeatBody) : State :=
  if (u.fromPeer b).pairState = 3 then (u.fromPeer b).beatAtPrimary b
  else if b.state.val = 3 ∧ !(u.fromPeer b).sph.due then
    (if (u.fromPeer b).pairState = 1 then (u.fromPeer b).enterAligning
    else if (u.fromPeer b).follows then (u.fromPeer b).beatAtStandby b else u.fromPeer b)
  else u.fromPeer b

/-- The link is no longer fresh. -/
def State.settled (s : State) : State := { s with sph := { s.sph with fresh := false } }

theorem exec_beat (hp : s.pairing = true) (hl : s.linked = true) :
    exec (.beat h b) s = .next (((s.takeHeader h).inStep h b).beaten b).settled :=
  next_congr (if_pos (by rw [hp, hl]; rfl))

theorem exec_beat_down (hd : s.pairing = false ∨ s.linked = false) : exec (.beat h b) s = .next s :=
  next_congr (if_neg (by rcases hd with hd | hd <;> simp [hd]))

/-- A heartbeat that is no primary's, or one at a part that is due to take over. -/
theorem State.beaten_other (h3 : u.pairState ≠ 3) (hb : b.state ≠ 3 ∨ u.sph.due = true) : u.beaten b = u.fromPeer b := by
  refine (if_neg h3).trans (if_neg ?_)
  rintro ⟨hstate, hdue⟩
  rcases hb with hb | hb
  · exact hb (Fin.ext hstate)
  · rw [State.fromPeer, hb] at hdue
    exact absurd hdue (by decide)

theorem State.beaten_primary (h3 : u.pairState = 3) : u.beaten b = (u.fromPeer b).beatAtPrimary b := if_pos h3

/-- A primary's heartbeat brings a LINKING part to ALIGNING. -/
theorem State.beaten_linking (hb : b.state = 3) (hd : u.sph.due = false) (h1 : u.pairState = 1) :
    u.beaten b = (u.fromPeer b).enterAligning := by
  have hcond : b.state.val = 3 ∧ (!(u.fromPeer b).sph.due) = true := ⟨congrArg Fin.val hb, congrArg not hd⟩
  have h3 : (u.fromPeer b).pairState ≠ 3 := by rw [show (u.fromPeer b).pairState = 1 from h1]; decide
  exact (if_neg h3).trans ((if_pos hcond).trans (if_pos h1))

theorem State.beaten_solo (h0 : u.pairState = 0) : u.beaten b = u.fromPeer b := by
  have hpair : (u.fromPeer b).pairState = 0 := h0
  have hfollows : (u.fromPeer b).follows = false := by rw [State.follows, hpair]; rfl
  unfold State.beaten
  rw [hpair, if_neg (by decide), if_neg (by decide : ¬(0 = 1)), hfollows, if_neg Bool.false_ne_true, ite_self]

theorem State.beaten_follower (hb : b.state = 3) (hd : u.sph.due = false) (hf : u.follows = true) :
    u.beaten b = (u.fromPeer b).beatAtStandby b := by
  have hcond : b.state.val = 3 ∧ (!(u.fromPeer b).sph.due) = true := ⟨congrArg Fin.val hb, congrArg not hd⟩
  have h1 : (u.fromPeer b).pairState ≠ 1 := by
    intro h1
    rw [State.follows, show u.pairState = 1 from h1] at hf
    exact absurd hf (by decide)
  exact (if_neg (State.follows_ne hf)).trans ((if_pos hcond).trans ((if_neg h1).trans (if_pos hf)))

/-! ## The checks of a heartbeat (R305, R307) -/

/-- The heartbeat before disagreed at the superframe before. -/
def disagreedBefore (bad : Option Nat) (sfn : Nat) : Bool :=
  match bad with
  | some x => (x + 1) % 2 ^ 32 == sfn
  | none => false

theorem disagrees_fst (d : Bool) (bad : Option Nat) (sfn : Nat) : (disagrees d bad sfn).1 = (d && disagreedBefore bad sfn) := by
  cases d <;> rfl

/-- The staging epoch disagrees for the second superframe running. -/
def State.epochFails (s : State) (b : BeatBody) : Bool :=
  b.sfn.toNat == s.sph.bndSfn && b.epoch.toNat != s.sph.bndEpoch && disagreedBefore s.sph.badEpoch b.sfn.toNat

/-- The loaded programs disagree for the second superframe running. -/
def State.imageFails (s : State) (b : BeatBody) : Bool :=
  b.sfn.toNat == s.sph.bndSfn && b.img.toNat != s.sph.bndImg && disagreedBefore s.sph.badImg b.sfn.toNat

/-- A STANDBY's offset is above 50 µs, after its first heartbeat. -/
def State.timeFails (s : State) (off : Int) : Bool := s.pairState == 4 && s.sph.firstBeat && decide (400 < off.natAbs)

/-- The heartbeat allows a comparison of checksums. -/
def State.sumCompared (s : State) (b : BeatBody) : Bool := b.sumv && decide ((s.sph.rxSeq + 65536 - b.sumseq.toNat) % 65536 < 32768)

/-- The checksums differ. -/
def State.sumFails (s : State) (b : BeatBody) : Bool := s.sumCompared b && s.reg Reg.CST_SUM != b.sum

/-- The causes that fail, in order. -/
def causesOf (epoch image time sum : Bool) : List Nat :=
  (if epoch then [0] else []) ++ (if image then [1] else []) ++ (if time then [2] else []) ++ (if sum then [3] else [])

theorem causesOf_spec : ∀ epoch image time sum : Bool, (causesOf epoch image time sum = [] ↔ (epoch || image || time || sum) = false) ∧
    decide (0 ∈ causesOf epoch image time sum) = epoch ∧ decide (1 ∈ causesOf epoch image time sum) = image ∧
    decide (2 ∈ causesOf epoch image time sum) = time ∧ decide (3 ∈ causesOf epoch image time sum) = sum := by
  decide

theorem State.checkBeat_causes (s : State) (b : BeatBody) (off : Int) :
    (s.checkBeat b off).2.1 = causesOf (s.epochFails b) (s.imageFails b) (s.timeFails off) (s.sumFails b) := by
  simp only [State.checkBeat, causesOf, State.epochFails, State.imageFails, State.timeFails, State.sumFails, State.sumCompared,
    disagrees_fst, Bool.and_assoc]

theorem State.checkBeat_compared (s : State) (b : BeatBody) (off : Int) : (s.checkBeat b off).2.2 = s.sumCompared b := rfl

end Sys2Proof.Machine
end
section
/-! PROOFS. A primary's heartbeat at the part that follows it, from its arrival to its verdict (09_pair_siphon.md R284, R302, R303, R305,
R307). -/

namespace Sys2Proof.Machine

variable {u : State} {b : BeatBody}

/-! ## The stages of a heartbeat -/

/-- The follower with the primary's state and term. -/
def State.termed (u : State) (b : BeatBody) : State := (u.fromPeer b).put F.SPH_STAT_TERM b.term.toNat

/-- The offset that the checks are given. -/
def State.checkedOffset (u : State) (b : BeatBody) : Int := if (u.termed b).measures b then (u.termed b).beatOffset b else 0

/-- What the heartbeat makes of the follower. -/
def State.followed (u : State) (b : BeatBody) : State :=
  (((u.termed b).beatTime b).beatVerdict b (u.checkedOffset b)).settled

theorem State.beaten_followed (hb : b.state = 3) (hd : u.sph.due = false) (hf : u.follows = true) :
    (u.beaten b).settled = u.followed b := by
  rw [State.beaten_follower hb hd hf, State.beatAtStandby_eq]
  rfl

theorem State.canonical_fromPeer (hc : u.canonical = true) (b : BeatBody) : (u.fromPeer b).canonical = true :=
  State.canonical_congr hc rfl rfl rfl rfl rfl

theorem State.canonical_termed (hc : u.canonical = true) (b : BeatBody) : (u.termed b).canonical = true :=
  State.canonical_put (State.canonical_fromPeer hc b) ..

theorem State.termed_get (hc : u.canonical = true) (b : BeatBody) {f : Fld} (hf : f.clear F.SPH_STAT_TERM) :
    (u.termed b).get f = u.get f := State.get_put_clear (State.canonical_fromPeer hc b) hf _

theorem State.termed_running (hc : u.canonical = true) (b : BeatBody) : (u.termed b).running = u.running :=
  State.flag_congr (State.termed_get hc b (by decide))

theorem State.canonical_beatTime (hc : u.canonical = true) (b : BeatBody) : ((u.termed b).beatTime b).canonical = true :=
  (ChangeFrame.beatTime (u.termed b) b).keeps.canon (State.canonical_termed hc b)

/-- A field that neither the time nor the term changes. -/
theorem State.beatTime_get (hc : u.canonical = true) (b : BeatBody) {f : Fld} (hf : f.clear F.SPH_STAT_TERM) (ht : ¬timeKey f.key) :
    ((u.termed b).beatTime b).get f = u.get f :=
  ((ChangeFrame.beatTime (u.termed b) b).get ht).trans (State.termed_get hc b hf)

theorem not_timeKey {k : Nat} (h : 0x200C81EC < k) (ho : k ≠ Reg.SPH_OFFSET) : ¬timeKey k := by
  rintro (rfl | ho' | ha)
  · exact absurd h (by decide)
  · exact ho ho'
  · exact not_acctKey (.inr h) ha

/-- A field of the Siphon's status, but for the term, is after the time as it was. -/
theorem State.beatTime_pairState (hc : u.canonical = true) (b : BeatBody) : ((u.termed b).beatTime b).pairState = u.pairState :=
  State.beatTime_get hc b (by decide) (not_timeKey (by decide) (by decide))

/-! ## What stays from there on -/

theorem State.followed_get (hc : u.canonical = true) (b : BeatBody) {f : Fld} (hf : ∀ g ∈ verdictFields, f.clear g) :
    (u.followed b).get f = ((u.termed b).beatTime b).get f :=
  (FieldFrame.beatVerdict _ b _).field (State.canonical_beatTime hc b) f hf

theorem State.followed_term (hc : u.canonical = true) (b : BeatBody) : (u.followed b).get F.SPH_STAT_TERM = b.term.toNat := by
  rw [State.followed_get hc b (by decide), (ChangeFrame.beatTime (u.termed b) b).get (not_timeKey (by decide) (by decide))]
  exact (State.get_put_same (State.canonical_fromPeer hc b) F.SPH_STAT_TERM b.term.toNat (by decide)).trans (Nat.mod_eq_of_lt b.term.isLt)

theorem State.followed_parts (u : State) (b : BeatBody) :
    (u.followed b).outsideVerdict = ((u.termed b).beatTime b).settled.outsideVerdict :=
  (congrArg (fun t => t.settled.outsideVerdict) (FieldFrame.beatVerdict ((u.termed b).beatTime b) b (u.checkedOffset b)).parts :)

theorem State.followed_sfm (u : State) (b : BeatBody) : (u.followed b).sfm = ((u.termed b).beatTime b).sfm :=
  (congrArg State.sfm (u.followed_parts b) :)

theorem State.followed_mem (u : State) (b : BeatBody) : (u.followed b).mem = u.mem :=
  (congrArg State.mem (u.followed_parts b) :).trans (congrArg State.mem (ChangeFrame.beatTime (u.termed b) b).parts :)

theorem State.followed_peer (u : State) (b : BeatBody) : (u.followed b).sph.peer = b.state.val :=
  (congrArg (fun t => t.sph.peer) (u.followed_parts b) :).trans
    (congrArg (fun t => t.sph.peer) (ChangeFrame.beatTime (u.termed b) b).parts :)

theorem State.followed_marks (u : State) (b : BeatBody) : (u.followed b).sph.timed = (u.sph.timed || u.adopts b) ∧
    (u.followed b).sph.stood = (u.beatStands b || (u.sph.stood && !u.adopts b)) ∧
    (u.followed b).sph.beatAt = some (b.asn.toNat, b.off.toNat) ∧
    (u.followed b).sph.acct = ((u.termed b).beatTime b).sph.acct := by
  obtain ⟨htimed, hstood, hat⟩ := (u.termed b).beatTime_marks b
  have hparts := u.followed_parts b
  exact ⟨(congrArg (fun t => t.sph.timed) hparts :).trans htimed, (congrArg (fun t => t.sph.stood) hparts :).trans hstood,
    (congrArg (fun t => t.sph.beatAt) hparts :).trans hat, (congrArg (fun t => t.sph.acct) hparts :)⟩

theorem State.followed_run (hc : u.canonical = true) (b : BeatBody) :
    (u.followed b).flag F.SFM_CTL_RUN = ((u.termed b).beatTime b).flag F.SFM_CTL_RUN :=
  State.flag_congr (State.followed_get hc b (by decide))

/-! ## The slots (R302) -/

theorem State.termed_measures (hc : u.canonical = true) (b : BeatBody) : (u.termed b).measures b = u.measures b := by
  rw [State.measures, State.measures, State.termed_running hc]
  rfl

theorem State.termed_lateness (hc : u.canonical = true) (b : BeatBody) : (u.termed b).lateness b = u.lateness b := by
  have hunits : (u.termed b).latencyUnits = u.latencyUnits := by
    rw [State.latencyUnits, State.latencyUnits, State.termed_get hc b (by decide)]
  rw [State.lateness, State.lateness, hunits]

theorem State.beatOffset_eq (s : State) (b : BeatBody) : s.beatOffset b = -80000 * s.slotsTo b.asn.toNat + s.lateness b := by
  rw [State.beatOffset, State.lateness, add_sub_assoc]

theorem State.termed_beatOffset (hc : u.canonical = true) (b : BeatBody) : (u.termed b).beatOffset b = u.beatOffset b := by
  have hslots : (u.termed b).slotsTo b.asn.toNat = u.slotsTo b.asn.toNat := rfl
  rw [State.beatOffset_eq, State.beatOffset_eq, State.termed_lateness hc, hslots]

/-- Slots that stand already stay as they are, those that run stop, and those that do not run are not started. -/
theorem State.followed_stands (hc : u.canonical = true) (h : u.beatStands b = true) :
    (u.sph.stood = true → (u.followed b).sfm = u.sfm) ∧
    (u.sph.stood = false → (u.followed b).flag F.SFM_CTL_RUN = false ∧ (u.followed b).sfm =
      if u.running then { u.sfm with stopPend := true } else { u.sfm with startPend := false, adopt := none }) := by
  refine ⟨fun hd => ?_, fun hd => ?_⟩
  · rw [State.followed_sfm, State.beatTime_stays (s := u.termed b) h hd]
    rfl
  · obtain ⟨hrun, hsfm⟩ := State.beatTime_stop (s := u.termed b) (State.canonical_termed hc b) h hd
    rw [State.followed_run hc, State.followed_sfm, hrun, hsfm, State.termed_running hc]
    exact ⟨rfl, rfl⟩

/-- The primary's time is taken at its next slot, or at once. -/
theorem State.followed_adopts (hc : u.canonical = true) (h : u.adopts b = true) :
    (u.running = false → (u.followed b).flag F.SFM_CTL_RUN = true ∧
      (u.followed b).sfm = { u.sfm with startPend := true, slew := 0, adopt := some ((b.asn.toNat + 1) % 2 ^ 40) }) ∧
    (u.running = true → (u.followed b).flag F.SFM_CTL_RUN = true ∧
      (u.followed b).sfm = (u.sfm.inSlotOf b.asn (u.lateness b)).back (u.lateness b) ∧ (u.followed b).sph.acct = []) := by
  obtain ⟨-, -, -, hacct⟩ := u.followed_marks b
  refine ⟨fun hr => ?_, fun hr => ?_⟩
  · rw [State.followed_run hc, State.followed_sfm]
    exact State.beatTime_start (s := u.termed b) (State.canonical_termed hc b) h ((State.termed_running hc b).trans hr)
  · obtain ⟨hrun, hsfm, hnone⟩ := State.beatTime_take (s := u.termed b) (State.canonical_termed hc b) h ((State.termed_running hc b).trans hr)
    rw [State.termed_lateness hc] at hsfm
    exact ⟨(State.followed_run hc b).trans hrun, (u.followed_sfm b).trans hsfm, hacct.trans hnone⟩

/-- A part that is in time measures its offset and slews it away. -/
theorem State.followed_measures (hc : u.canonical = true) (h : u.measures b = true) :
    (u.followed b).sfm = { u.sfm with slew := u.beatOffset b - ((u.sfm.slotLen : Int) - 80000) } ∧
    (u.followed b).get F.SPH_OFFSET_OFF = ofSigned 24 (u.beatOffset b) := by
  have hm : (u.termed b).measures b = true := (State.termed_measures hc b).trans h
  have hsfm := State.beatTime_slew hm
  have hoff := State.beatTime_offset (State.canonical_termed hc b) hm
  have hmachine : (u.termed b).sfm = u.sfm := rfl
  rw [State.termed_beatOffset hc, hmachine] at hsfm
  rw [State.termed_beatOffset hc] at hoff
  exact ⟨(u.followed_sfm b).trans hsfm, (State.followed_get hc b (by decide)).trans hoff⟩

theorem State.followed_waits (hc : u.canonical = true) (hs : u.beatStands b = false) (ha : u.adopts b = false) (hr : u.running = false) :
    (u.followed b).sfm = u.sfm := by
  rw [State.followed_sfm, State.beatTime_waits (s := u.termed b) hs ha ((State.termed_running hc b).trans hr)]
  rfl

/-! ## The verdict (R303, R305, R307) -/

/-- The checks find what they would have found before the heartbeat's time acted. -/
theorem State.followed_causes (hc : u.canonical = true) (b : BeatBody) :
    (((u.termed b).beatTime b).checkBeat b (u.checkedOffset b)).2.1 = causesOf (u.epochFails b) (u.imageFails b)
      (u.measures b && u.timeFails (u.beatOffset b)) (u.sumFails b) ∧
    (((u.termed b).beatTime b).checkBeat b (u.checkedOffset b)).2.2 = u.sumCompared b := by
  have hparts := (ChangeFrame.beatTime (u.termed b) b).parts
  have hepoch : ((u.termed b).beatTime b).epochFails b = u.epochFails b := (congrArg (State.epochFails · b) hparts :)
  have himage : ((u.termed b).beatTime b).imageFails b = u.imageFails b := (congrArg (State.imageFails · b) hparts :)
  have hcompared : ((u.termed b).beatTime b).sumCompared b = u.sumCompared b := (congrArg (State.sumCompared · b) hparts :)
  have hfirst : ((u.termed b).beatTime b).sph.firstBeat = u.sph.firstBeat := (congrArg (fun t => t.sph.firstBeat) hparts :)
  have hword : ((u.termed b).beatTime b).reg Reg.CST_SUM = u.reg Reg.CST_SUM :=
    ((ChangeFrame.beatTime (u.termed b) b).reg _ (not_timeKey (by decide) (by decide))).trans (State.reg_setReg_other _ _ (by decide))
  have hsum : ((u.termed b).beatTime b).sumFails b = u.sumFails b := by rw [State.sumFails, hcompared, hword, State.sumFails]
  have htime : ((u.termed b).beatTime b).timeFails (u.checkedOffset b) = (u.measures b && u.timeFails (u.beatOffset b)) := by
    rw [State.timeFails, State.beatTime_pairState hc, hfirst, State.checkedOffset, State.termed_measures hc, State.termed_beatOffset hc]
    rcases u.measures b with _ | _
    · simp
    · rw [if_pos rfl, Bool.true_and, State.timeFails]
  rw [State.checkBeat_causes, State.checkBeat_compared, hepoch, himage, htime, hsum, hcompared]
  exact ⟨rfl, rfl⟩

theorem State.followed_estranged (hc : u.canonical = true) (h5 : u.pairState = 5) : (u.followed b).pairState = 5 := by
  have h5' := (State.beatTime_pairState hc b).trans h5
  have hsame : ((u.termed b).beatTime b).beatVerdict b (u.checkedOffset b) = (u.termed b).beatTime b := State.beatVerdict_estranged h5'
  refine Eq.trans (congrArg (fun t => t.settled.pairState) hsame :) h5'

/-- A check that fails estranges the part. -/
theorem State.followed_fails (hc : u.canonical = true) (h5 : u.pairState ≠ 5)
    (h : (u.epochFails b || u.imageFails b || (u.measures b && u.timeFails (u.beatOffset b)) || u.sumFails b) = true) :
    (u.followed b).pairState = 5 ∧ (u.followed b).flag F.SPH_IRQ_ESTRANGED = true ∧
    (u.followed b).bit Reg.SPH_ESTR 0 = (u.epochFails b || u.bit Reg.SPH_ESTR 0) ∧
    (u.followed b).bit Reg.SPH_ESTR 1 = (u.imageFails b || u.bit Reg.SPH_ESTR 1) ∧
    (u.followed b).bit Reg.SPH_ESTR 2 = ((u.measures b && u.timeFails (u.beatOffset b)) || u.bit Reg.SPH_ESTR 2) ∧
    (u.followed b).bit Reg.SPH_ESTR 3 = (u.sumFails b || u.bit Reg.SPH_ESTR 3) := by
  obtain ⟨hcauses, -⟩ := State.followed_causes hc b
  obtain ⟨hempty, h0, h1, h2, h3⟩ := causesOf_spec (u.epochFails b) (u.imageFails b) (u.measures b && u.timeFails (u.beatOffset b)) (u.sumFails b)
  rw [← hcauses] at hempty h0 h1 h2 h3
  have hne : (((u.termed b).beatTime b).checkBeat b (u.checkedOffset b)).2.1 ≠ [] := fun he => by
    rw [hempty.mp he] at h
    exact Bool.false_ne_true h
  have h5' : ((u.termed b).beatTime b).pairState ≠ 5 := by rwa [State.beatTime_pairState hc]
  obtain ⟨hpair, hirq, hbits⟩ := State.beatVerdict_fails (State.canonical_beatTime hc b) h5' hne
  have hold (j : Nat) : ((u.termed b).beatTime b).flag (estrBit j) = u.bit Reg.SPH_ESTR j :=
    State.flag_congr (State.beatTime_get hc b (f := estrBit j) (.inl (by decide : Reg.SPH_ESTR ≠ Reg.SPH_STAT))
      (not_timeKey (by decide : 0x200C81EC < Reg.SPH_ESTR) (by decide : Reg.SPH_ESTR ≠ Reg.SPH_OFFSET)))
  exact ⟨hpair, hirq, (hbits 0 (by decide)).trans (by rw [h0, hold]), (hbits 1 (by decide)).trans (by rw [h1, hold]),
    (hbits 2 (by decide)).trans (by rw [h2, hold]), (hbits 3 (by decide)).trans (by rw [h3, hold])⟩

/-- Without one the causes stay, and an alignment whose pass is done ends. -/
theorem State.followed_passes (hc : u.canonical = true) (h5 : u.pairState ≠ 5)
    (h : (u.epochFails b || u.imageFails b || (u.measures b && u.timeFails (u.beatOffset b)) || u.sumFails b) = false) :
    (u.followed b).reg Reg.SPH_ESTR = u.reg Reg.SPH_ESTR ∧
    (u.pairState = 2 ∧ u.sph.passDone = true → (u.followed b).pairState = 4 ∧ (u.followed b).flag F.SPH_IRQ_ALIGNED = true) ∧
    (u.pairState ≠ 2 ∨ u.sph.passDone = false → (u.followed b).pairState = u.pairState) := by
  obtain ⟨hcauses, -⟩ := State.followed_causes hc b
  have hnone := hcauses.trans ((causesOf_spec ..).1.mpr h)
  have h5' : ((u.termed b).beatTime b).pairState ≠ 5 := by rwa [State.beatTime_pairState hc]
  have hdone : ((u.termed b).beatTime b).sph.passDone = u.sph.passDone :=
    (congrArg (fun t => t.sph.passDone) (ChangeFrame.beatTime (u.termed b) b).parts :)
  have hestr : ((u.termed b).beatTime b).reg Reg.SPH_ESTR = u.reg Reg.SPH_ESTR :=
    ((ChangeFrame.beatTime (u.termed b) b).reg _ (not_timeKey (by decide) (by decide))).trans (State.reg_setReg_other _ _ (by decide))
  have hpasses := State.beatVerdict_passes (State.canonical_beatTime hc b) h5' hnone
  rw [State.beatTime_pairState hc, hdone, hestr] at hpasses
  exact hpasses

/-- The heartbeats without a comparison are counted. -/
theorem State.followed_count (hc : u.canonical = true) (h5 : u.pairState ≠ 5) :
    (u.sumCompared b = true → (u.followed b).sph.sumRun = 0 ∧ (u.followed b).flag F.SPH_STAT_SUMSTALE = false) ∧
    (u.pairState = 4 → u.sumCompared b = false → (u.followed b).sph.sumRun = min (u.sph.sumRun + 1) 4096 ∧
      (u.sph.sumRun = 4095 → (u.followed b).flag F.SPH_STAT_SUMSTALE = true ∧ (u.followed b).flag F.SPH_IRQ_SUMSTALE = true)) := by
  have hct := State.canonical_beatTime hc b
  have hpair := State.beatTime_pairState hc b
  obtain ⟨-, hmade⟩ := State.followed_causes hc b
  obtain ⟨hstale, hirq, hrun⟩ := State.beatVerdict_count (b := b) (off := u.checkedOffset b) hct (by rwa [hpair])
  have hsum : ((u.termed b).beatTime b).sph.sumRun = u.sph.sumRun :=
    (congrArg (fun t => t.sph.sumRun) (ChangeFrame.beatTime (u.termed b) b).parts :)
  refine ⟨fun hyes => ?_, fun h4 hno => ?_⟩
  · obtain ⟨hzero, hfresh⟩ := State.beatJudged_made hct (hmade.trans hyes)
    exact ⟨(hrun (.inl hzero)).trans hzero, hstale.trans hfresh⟩
  · obtain ⟨hcount, hlast⟩ := State.beatJudged_standby hct (hmade.trans hno) (hpair.trans h4)
    rw [hsum] at hcount hlast
    exact ⟨(hrun (.inr (hpair.trans h4))).trans hcount, fun h => ⟨hstale.trans (hlast h).1, hirq.trans (hlast h).2⟩⟩

end Sys2Proof.Machine
end
section
/-! PROOFS. The primary's side of an alignment (09_pair_siphon.md R299, R303): what it sends, which reads requests as the Siphon reads
memory, and what it leaves. -/

namespace Sys2Proof.Machine

variable {s t u : State} {b : BeatBody}

/-! ## What sharing with the peer changes -/

/-- All that frames and requests for the peer leave as it is, registers aside. -/
def State.outsideShare (s : State) : State :=
  { s with regs := [], flc := {}, free := 0, targetLast := Vector.replicate 32 14, sph := { s.sph.outsideSends with later := [] } }

/-- The registers that a read of a request may change: those of the flash's ECC and of the logbook. -/
def eccKey (k : Nat) : Prop := k = Reg.FLC_ECCCOR ∨ k = Reg.FLC_ECCADDR ∨ k = Reg.FLC_LOGSTAT

abbrev ShareFrame : State → State → Prop := ChangeFrame State.outsideShare eccKey

theorem ShareFrame.log (s : State) (code detail : Nat) : ShareFrame s (s.log code detail) := by
  unfold State.log
  exact .branch (.branch (.of_regs (Keeps.upd.mpr (.refl s)) rfl rfl) (.put s _ _ rfl (.inr (.inr rfl)))) (.refl _ _ s)

theorem ShareFrame.eccRead (s : State) (a : Nat) : ShareFrame s (s.eccRead a).1 := by
  unfold State.eccRead
  split
  · exact .refl _ _ s
  · exact (ChangeFrame.put s _ _ rfl (.inl rfl)).trans (.put _ _ _ rfl (.inr (.inl rfl)))
  · exact (ChangeFrame.put s _ _ rfl (.inr (.inl rfl))).trans (ShareFrame.log _ _ _)

/-- A step on a state and what goes with it keeps within named parts; so do its repetitions. -/
theorem ChangeFrame.foldl {α β : Type} {rest : State → State} {K : Nat → Prop} {f : State × β → α → State × β}
    (hf : ∀ acc x, ChangeFrame rest K acc.1 (f acc x).1) (l : List α) (acc : State × β) :
    ChangeFrame rest K acc.1 (l.foldl f acc).1 := by
  induction l generalizing acc with
  | nil => exact .refl _ _ _
  | cons x l ih => exact (hf acc x).trans (ih (f acc x))

theorem ShareFrame.eccReads (s : State) (a n : Nat) : ShareFrame s (s.eccReads a n).1 := by
  refine ChangeFrame.foldl (fun acc x => ?_) _ (s, true)
  split
  · exact ShareFrame.eccRead acc.1 x
  · exact .refl _ _ _

theorem ShareFrame.takeTurn (s : State) (r n : Nat) : ShareFrame s (s.takeTurn r n) := by
  rw [State.takeTurn_eq]
  exact .of_regs (Keeps.upd.mpr (.refl s)) rfl rfl

/-- The Siphon's own read of a byte is barred by no world. -/
theorem State.moveCheck_read (s : State) (r a : Nat) : (s.moveCheck false r a false).1 = s := by
  unfold State.moveCheck
  cases placeOf a <;> simp <;> split <;> rfl

theorem State.moveChecks_read (s : State) (r a : Nat) (l : List Nat) (x : Option AccErr) : (l.foldl
    (fun (acc : State × Option AccErr) i => match acc.2 with
      | some _ => acc
      | none => acc.1.moveCheck false r (a + i) false) (s, x)).1 = s := by
  induction l generalizing x with
  | nil => rfl
  | cons i l ih =>
    rw [List.foldl_cons]
    cases x with
    | some e => exact ih _
    | none =>
      rw [show s.moveCheck false r (a + i) false = (s, (s.moveCheck false r (a + i) false).2) from
        Prod.ext (s.moveCheck_read r (a + i)) rfl]
      exact ih _

theorem ShareFrame.seenBytes (s : State) (a n : Nat) : ShareFrame s (s.seenBytes a n).1 := by
  unfold State.seenBytes
  exact .branch (.of_regs (Keeps.upd.mpr (.refl s)) rfl rfl) (.refl _ _ s)

theorem ShareFrame.moveRead (s : State) (r a n : Nat) : ShareFrame s (s.moveRead false r a n).1 := by
  have hchecks (x : State × Option AccErr) : _ = x → x.1 = s := fun heq => heq ▸ s.moveChecks_read r a (List.range n) none
  unfold State.moveRead
  dsimp only
  split
  · next s1 _ heq =>
    rw [show s1 = s from hchecks _ heq]
    exact .refl _ _ s
  · next s1 heq =>
    rw [show s1 = s from hchecks _ heq]
    have hturn : ShareFrame s (if n = 0 then s else s.takeTurn r (targetOf a)) := .branch (.refl _ _ s) (ShareFrame.takeTurn s r _)
    have hread := hturn.trans (ShareFrame.eccReads _ a n)
    split
    · next heq =>
      rw [heq] at hread
      exact hread
    · next heq =>
      rw [heq] at hread
      exact hread.trans (ShareFrame.seenBytes _ a n)

theorem ShareFrame.moveReadOr0 (s : State) (r a n : Nat) : ShareFrame s (s.moveReadOr0 false r a n).1 := by
  have hread := ShareFrame.moveRead s r a n
  unfold State.moveReadOr0
  split <;> (next heq => rw [heq] at hread; exact hread)

theorem ShareFrame.sendSeq (s : State) (type : Nat) (sync : Bool) (p : List Byte) : ShareFrame s (s.sendSeq type sync p) := by
  have hpeer := s.outsidePeer_sendSeq type sync p
  obtain ⟨hsph, -, -⟩ := s.sendSeq_sph type sync p
  refine .of_regs (State.keeps_sendSeq (.refl s) type sync p) ?_ (congrArg State.regs hpeer :)
  have hparts (x : State) : x.outsideShare = { x.outsidePeer.outsideShare with sph := { x.sph.outsideSends with later := [] } } := rfl
  rw [hparts, hpeer, hsph]
  rfl

theorem ShareFrame.sendFragments (words : List Byte) (desc index mode : Nat) (ks : List Nat) (s : State) :
    ShareFrame s (State.sendFragments words desc index mode ks s).1 := by
  induction ks generalizing s with
  | nil => exact .refl _ _ s
  | cons k ks ih =>
    unfold State.sendFragments
    dsimp only
    split
    · exact .refl _ _ s
    · exact ((ShareFrame.moveReadOr0 s ..).trans (ShareFrame.sendSeq ..)).trans (ih _)

theorem ShareFrame.sendLater (l : List SphLater) (s : State) : ShareFrame s (State.sendLater l s) := by
  induction l generalizing s with
  | nil => exact .of_regs (Keeps.upd.mpr (.refl s)) rfl rfl
  | cons x l ih =>
    cases x with
    | frame type p => exact (ShareFrame.sendSeq s type false p).trans (ih _)
    | request words desc index mode ks =>
      have hsent := ShareFrame.sendFragments words desc index mode ks s
      unfold State.sendLater
      split
      · next heq =>
        rw [heq] at hsent
        exact hsent.trans (ih _)
      · next heq =>
        rw [heq] at hsent
        exact hsent.trans (.of_regs (Keeps.upd.mpr (.refl _)) rfl rfl)

theorem ShareFrame.share (s : State) (x : SphLater) : ShareFrame s (s.share x) :=
  .branch (.refl _ _ s) (.branch (ShareFrame.sendLater _ s) (.of_regs (Keeps.upd.mpr (.refl s)) rfl rfl))

/-! ## An alignment begins (R303) -/

/-- The primary with every entry dirty and the sweep at its start. -/
def State.alignStart (s : State) : State :=
  ({ s with sph := { s.sph with aligning := true, dirty := [(0, 262143)], sweep := 0 } } : State).put F.SPH_ALIGN_COUNT 0

theorem ShareFrame.serveAlignment (s : State) : ShareFrame s.alignStart s.serveAlignment := by
  unfold State.serveAlignment
  exact ((ChangeFrame.each (fun u _ _ => ShareFrame.share u _) _).trans (.each (fun u _ _ => ShareFrame.share u _) _)).trans
    (.each (fun u _ _ => ShareFrame.share u _) _)

theorem State.alignStart_count (hc : s.canonical = true) : s.alignStart.get F.SPH_ALIGN_COUNT = 0 := by
  have hc1 : ({ s with sph := { s.sph with aligning := true, dirty := [(0, 262143)], sweep := 0 } } : State).canonical = true :=
    State.canonical_congr hc rfl rfl rfl rfl rfl
  unfold State.alignStart
  rw [State.get_put_same hc1 F.SPH_ALIGN_COUNT 0 (by decide), Nat.zero_mod]

/-- Every entry is dirty, the sweep stands at the start, and the peer's alignment is being served. -/
theorem ShareFrame.alignStart_sph (h : ShareFrame s.alignStart t) : t.sph.aligning = true ∧ t.sph.mirror = s.sph.mirror ∧
    t.sph.heir = s.sph.heir ∧ t.sph.dirty = [(0, 262143)] ∧ t.sph.sweep = 0 := by
  have hsph := (congrArg State.sph h.parts :)
  exact ⟨(congrArg Sph.aligning hsph :), (congrArg Sph.mirror hsph :), (congrArg Sph.heir hsph :), (congrArg Sph.dirty hsph :),
    (congrArg Sph.sweep hsph :)⟩

theorem ShareFrame.alignStart_count (hc : s.canonical = true) (h : ShareFrame s.alignStart t) : t.get F.SPH_ALIGN_COUNT = 0 :=
  (h.get (by simp [eccKey]; decide)).trans (State.alignStart_count hc)

end Sys2Proof.Machine
end
section
/-! PROOFS. What the peer's state makes of a primary (09_pair_siphon.md R284, R303, R306): its own state, what it keeps for the peer,
and the role it loses to another primary. -/

namespace Sys2Proof.Machine

variable {s t u : State} {h : SphHdr} {b : BeatBody}

/-! ## Cores without a finished result stay so -/

theorem State.noResult.renumber (hs : s.noResult) (ack : Nat) : (s.renumber ack).noResult := by
  unfold State.renumber
  exact hs.map (f := fun run => { run with waitSeq := run.waitSeq.bind (fun q => if s.unacked q then
    some ((ack + 1 + (s.sph.out ++ s.sph.waiting).findIdx (fun f => f.seq == q)) % 65536) else none) }) (fun _ => rfl) rfl

theorem State.noResult.resendOut (hs : s.noResult) : s.resendOut.noResult := by
  have hcip : (s.each s.sph.out State.emit).cip = s.cip :=
    State.each_unchanged (f := State.emit) State.cip (fun u f => (congrArg State.cip (u.outsidePeer_emit f) :)) _ s
  unfold State.resendOut
  split
  · exact hs
  · exact hs.congr hcip

theorem State.noResult.takeHeader (hs : s.noResult) (h : SphHdr) : (s.takeHeader h).noResult := by
  have hsent : (({ s with sph := { s.sph with out := afterAck s.sph.out h.ack.toNat } } : State).sendWaiting s.sph.waiting).noResult :=
    hs.congr (State.sendWaiting_cip _ _)
  have hacked : (if h.ackv then (({ s with sph := { s.sph with out := afterAck s.sph.out h.ack.toNat } } : State).sendWaiting
      s.sph.waiting).releaseRecords.numberFrom h.ack.toNat else s).noResult := by
    split
    · rw [State.releaseRecords_none hsent, State.numberFrom]
      split
      · exact hsent.renumber _
      · exact hsent
    · exact hs
  unfold State.takeHeader
  dsimp only
  split
  · exact hacked.resendOut
  · exact hacked

theorem State.noResult.inStep (hs : s.noResult) (h : SphHdr) (b : BeatBody) : (s.inStep h b).noResult := by
  unfold State.inStep
  split
  · exact hs.renumber _
  · exact hs

/-! ## The peer is no primary (R303, R306) -/

/-- The primary with what it kept of its peer's launches gone. -/
def State.peerEased (s : State) (b : BeatBody) : State :=
  let s1 := s.putB F.SPH_STAT_PEER_ESTR (b.state.val == 5)
  { s1 with sph := { s1.sph with mirror := [], heir := false } }

theorem State.beatAtPrimary_standby (hb : b.state = 4) : s.beatAtPrimary b =
    ({ s.put F.SPH_STAT_PEER_ESTR 0 with sph := { s.sph with aligning := false, mirror := [], heir := false } } : State).put
      F.SPH_STAT_PEER_LOST 0 := by
  unfold State.beatAtPrimary
  rw [hb]
  rfl

theorem State.beatAtPrimary_away (hb : b.state = 0 ∨ b.state = 1 ∨ b.state = 5) : s.beatAtPrimary b =
    { s.put F.SPH_STAT_PEER_ESTR (if b.state = 5 then 1 else 0) with
      sph := { s.sph with aligning := false, mirror := [], heir := false } } := by
  unfold State.beatAtPrimary
  rcases hb with hb | hb | hb <;> rw [hb] <;> rfl

theorem State.beatAtPrimary_aligning (hb : b.state = 2) : s.beatAtPrimary b =
    if s.sph.aligning then s.peerEased b else (s.peerEased b).serveAlignment := by
  have h3 : b.state.val ≠ 3 := by rw [hb]; decide
  have h2 : b.state.val = 2 := by rw [hb]; rfl
  exact (if_neg h3).trans (if_pos h2)

/-! ## Two primaries (R284) -/

/-- The part loses its role to the peer at the first heartbeat since the link came up. -/
def State.yields (s : State) (b : BeatBody) : Bool :=
  s.sph.fresh && s.sph.handover.isNone && decide (s.get F.SPH_STAT_TERM < b.term.toNat ∨
    (s.get F.SPH_STAT_TERM = b.term.toNat ∧ s.peerUid < s.uid))

theorem State.beatAtPrimary_primary (hc : s.canonical = true) (hb : b.state = 3) : s.beatAtPrimary b =
    if s.yields b then
      ({ (s.put F.SPH_STAT_PEER_ESTR 0).dropPeer.dropLaunches with sph :=
        { (s.put F.SPH_STAT_PEER_ESTR 0).dropPeer.dropLaunches.sph with peer := 3, handoff := none } } : State).estrange (estrBit 4)
    else s.put F.SPH_STAT_PEER_ESTR 0 := by
  have hterm : (s.put F.SPH_STAT_PEER_ESTR 0).get F.SPH_STAT_TERM = s.get F.SPH_STAT_TERM := State.get_put_clear hc (by decide) 0
  have hreg {k : Nat} (hk : k ≠ Reg.SPH_STAT) : (s.put F.SPH_STAT_PEER_ESTR 0).reg k = s.reg k := State.reg_setReg_other s _ hk
  have huid : (s.put F.SPH_STAT_PEER_ESTR 0).uid = s.uid := by
    rw [State.uid, State.uid, hreg (by decide), hreg (by decide)]
  have hpeer : (s.put F.SPH_STAT_PEER_ESTR 0).peerUid = s.peerUid := by
    rw [State.peerUid, State.peerUid, hreg (by decide), hreg (by decide)]
  have hloses : (s.put F.SPH_STAT_PEER_ESTR 0).losesRole b = decide (s.get F.SPH_STAT_TERM < b.term.toNat ∨
      (s.get F.SPH_STAT_TERM = b.term.toNat ∧ s.peerUid < s.uid)) := by
    rw [State.losesRole, hterm, huid, hpeer]
  rw [State.yields, ← hloses]
  unfold State.beatAtPrimary
  rw [hb]
  rfl

/-- The primary that loses its role keeps the frames it has sent, and its launches are given up. -/
theorem State.yield_outcome (hc : s.canonical = true) (hs : s.noResult) :
    let t := ({ s.dropPeer.dropLaunches with sph := { s.dropPeer.dropLaunches.sph with peer := 3, handoff := none } } : State).estrange (estrBit 4)
    t.pairState = 5 ∧ t.flag (estrBit 4) = true ∧ t.flag F.SPH_IRQ_ESTRANGED = true ∧ t.sph.out = s.sph.out ∧
    t.sph.waiting = s.sph.waiting ∧ t.sph.later = [] ∧ t.sfm.launches = [] ∧ t.tx = s.tx ∧ t.mem = s.mem := by
  intro t
  have hpeer := State.dropPeer_eq hs
  have hcanon : s.dropPeer.dropLaunches.canonical = true := State.canonical_dropLaunches ((State.keeps_dropPeer (.refl s)).canon hc)
  obtain ⟨hlaunches, htx, hsph, hmem⟩ := s.dropPeer.dropLaunches_parts
  have hsph := hsph.trans (congrArg State.sph hpeer)
  have hgone : ({ s.dropPeer.dropLaunches with sph := { s.dropPeer.dropLaunches.sph with peer := 3, handoff := none } } : State).canonical = true :=
    State.canonical_congr hcanon rfl rfl rfl rfl rfl
  obtain ⟨hpair, hirq, hbits⟩ := State.estrange_outcome hgone (k := 4) (by decide)
  have hframe := (FieldFrame.estrange ({ s.dropPeer.dropLaunches with sph :=
    { s.dropPeer.dropLaunches.sph with peer := 3, handoff := none } } : State) (k := 4) (by decide)).parts
  have hsph' : t.sph = { s.dropPeer.dropLaunches.sph with peer := 3, handoff := none } := (congrArg State.sph hframe :)
  refine ⟨hpair, hbits 4 (by decide), hirq, ?_, ?_, ?_, (congrArg (fun x => x.sfm.launches) hframe :).trans hlaunches,
    (congrArg State.tx hframe :).trans (htx.trans (by rw [hpeer])), (congrArg State.mem hframe :).trans (hmem.trans (by rw [hpeer]))⟩
  · rw [hsph', hsph]
  · rw [hsph', hsph]
  · rw [hsph', hsph]

end Sys2Proof.Machine
end
section
/-! PROOFS. A takeover (09_pair_siphon.md R309, R310, R313): the accounts held, the recorded launches made, and the state entered. -/

namespace Sys2Proof.Machine

variable {s t u : State} {k : Nat}

/-! ## The same accounts held (R304) -/

/-- What an account reads is the same in both. -/
structure SameAccounts (s t : State) : Prop where
  left : s.canonical = true
  right : t.canonical = true
  asn : t.sfm.asn = s.sfm.asn
  granules : t.granules = s.granules
  credits : ∀ n < 1024, t.reg (Reg.SFM_QCR n) = s.reg (Reg.SFM_QCR n)

/-- A write of a credit is the same in both. -/
theorem SameAccounts.putCredit (h : SameAccounts s t) (c v : Nat) (hc : c < 1024) :
    SameAccounts (s.put (F.SFM_QCR_CREDIT c) v) (t.put (F.SFM_QCR_CREDIT c) v) := by
  refine ⟨State.canonical_put h.left .., State.canonical_put h.right .., h.asn, h.granules, fun n hn => ?_⟩
  by_cases hnc : n = c
  · subst hnc
    exact (State.reg_setReg_same h.right _ _).trans ((congrArg (fun w : Word => BitVec.ofNat 32 (setBits w.toNat 0 12 v)) (h.credits n hn)).trans
      (State.reg_setReg_same h.left _ _).symm)
  · have hkey : Reg.SFM_QCR n ≠ (F.SFM_QCR_CREDIT c).key := by simp only [F.SFM_QCR_CREDIT, Reg.SFM_QCR]; omega
    exact (State.reg_setReg_other t _ hkey).trans ((h.credits n hn).trans (State.reg_setReg_other s _ hkey).symm)

/-- A bucket's granules and sum are the same in both. -/
theorem SameAccounts.putBucket (h : SameAccounts s t) (g : Vector (List (Nat × Nat)) 16) (n : Fin 16) (v : Nat) :
    SameAccounts (({ s with granules := g } : State).put (F.BKT_USED_USED n.val) v)
      (({ t with granules := g } : State).put (F.BKT_USED_USED n.val) v) := by
  refine ⟨State.canonical_put (State.canonical_congr h.left rfl rfl rfl rfl rfl) ..,
    State.canonical_put (State.canonical_congr h.right rfl rfl rfl rfl rfl) .., h.asn, rfl, fun m hm => ?_⟩
  have hn := n.isLt
  have hkey : Reg.SFM_QCR m ≠ (F.BKT_USED_USED n.val).key := by simp only [F.BKT_USED_USED, Reg.BKT_USED, Reg.SFM_QCR]; omega
  exact (State.reg_setReg_other _ _ hkey).trans ((h.credits m hm).trans (State.reg_setReg_other _ _ hkey).symm)

theorem SameAccounts.applyAcct (h : SameAccounts s t) (x : AcctRec) : SameAccounts (s.applyAcct x) (t.applyAcct x) := by
  rw [State.applyAcct_eq, State.applyAcct_eq, h.asn, h.granules]
  dsimp only
  split
  · exact h.putCredit _ _ (bitsOf_lt ..)
  · split
    · exact h
    · exact h.putBucket _ _ _

theorem SameAccounts.each (h : SameAccounts s t) (l : List AcctRec) :
    SameAccounts (s.each l State.applyAcct) (t.each l State.applyAcct) := by
  induction l generalizing s t with
  | nil => exact h
  | cons x l ih => exact ih (h.applyAcct x)

theorem SameAccounts.applyHeld (h : SameAccounts s t) (ha : t.sph.acct = s.sph.acct) : SameAccounts s.applyHeld t.applyHeld := by
  unfold State.applyHeld
  rw [ha]
  have hnone : SameAccounts { s with sph := { s.sph with acct := [] } } { t with sph := { t.sph with acct := [] } } :=
    ⟨State.canonical_congr h.left rfl rfl rfl rfl rfl, State.canonical_congr h.right rfl rfl rfl rfl rfl, h.asn, h.granules, h.credits⟩
  exact hnone.each _

/-! ## Recorded launches (R310) -/

/-- The new primary makes this recorded launch. -/
def State.makesLaunch (s : State) (off : Nat) (x : MirrorRec) (q : Option TxReq) : Bool :=
  !s.leftToPeer x && decide (0 ≤ s.slotsTo (recSlot x.body)) && decide ((off : Int) < (s.recordLaunch x q).occStart) &&
    (bitAt x.body.w3.toNat 9 || q.isSome)

theorem State.adoptLaunch_eq (s : State) (off : Nat) (x : MirrorRec) : s.adoptLaunch off x =
    let q := if bitAt x.body.w3.toNat 9 then none else s.sfm.pend.find? (fun y => y.desc == recDesc x.body)
    let l := s.recordLaunch x q
    if s.makesLaunch off x q then
      { s with sfm := { s.sfm with
          launches := s.sfm.launches ++ [l], occ := s.sfm.occ ++ [(l.occStart, l.occEnd)]
          pend := s.sfm.pend.filter (fun y => bitAt x.body.w3.toNat 9 || y.desc != recDesc x.body) } }
    else s := by
  unfold State.adoptLaunch
  refine if_congr ?_ rfl rfl
  rw [State.makesLaunch, Bool.and_eq_true, Bool.and_eq_true, Bool.and_eq_true, Bool.not_eq_true', decide_eq_true_iff, decide_eq_true_iff,
    and_assoc, and_assoc]

/-- A launch adopted changes the superframe machine alone. -/
theorem State.adoptLaunch_outside (s : State) (off : Nat) (x : MirrorRec) : ∃ m : Sfm, s.adoptLaunch off x = { s with sfm := m } ∧
    m.asn = s.sfm.asn := by
  have heq := s.adoptLaunch_eq off x
  dsimp only at heq
  generalize (if bitAt x.body.w3.toNat 9 = true then none else s.sfm.pend.find? (fun y => y.desc == recDesc x.body)) = q at heq
  rw [heq]
  split
  · exact ⟨_, rfl, rfl⟩
  · exact ⟨s.sfm, rfl, rfl⟩

theorem State.adoptLaunches_outside (s : State) (off : Nat) (l : List MirrorRec) :
    ∃ m : Sfm, s.each l (fun t r => t.adoptLaunch off r) = { s with sfm := m } ∧ m.asn = s.sfm.asn := by
  induction l generalizing s with
  | nil => exact ⟨s.sfm, rfl, rfl⟩
  | cons x l ih =>
    obtain ⟨m, hm, hasn⟩ := s.adoptLaunch_outside off x
    obtain ⟨m', hm', hasn'⟩ := ih (s.adoptLaunch off x)
    refine ⟨m', ?_, hasn'.trans ?_⟩
    · exact hm'.trans (by rw [hm])
    · rw [hm]
      exact hasn

/-! ## The state entered (R309) -/

/-- The part as it enters PRIMARY. -/
def State.entering (s : State) : State :=
  ((s.put F.SPH_STAT_TERM (min (s.get F.SPH_STAT_TERM + 1) 0xFFFF)).setPair 3).raise F.SPH_STAT_PEER_LOST

theorem FieldFrame.entering (s : State) : FieldFrame (fun t => { t with regs := [] })
    [F.SPH_STAT_TERM, F.SPH_STAT_STATE, F.SPH_STAT_PEER_LOST] s s.entering :=
  ((FieldFrame.put (by simp) _ rfl).trans (.put (by simp) _ rfl)).trans (.put (by simp) _ rfl)

theorem State.entering_reg (s : State) (hk : k ≠ Reg.SPH_STAT) : s.entering.reg k = s.reg k :=
  ((State.reg_setReg_other _ _ hk).trans (State.reg_setReg_other _ _ hk)).trans (State.reg_setReg_other s _ hk)

theorem State.entering_stat (hc : s.canonical = true) : s.entering.pairState = 3 ∧
    s.entering.get F.SPH_STAT_TERM = min (s.get F.SPH_STAT_TERM + 1) 0xFFFF ∧ s.entering.flag F.SPH_STAT_PEER_LOST = true := by
  have hc1 : (s.put F.SPH_STAT_TERM (min (s.get F.SPH_STAT_TERM + 1) 0xFFFF)).canonical = true := State.canonical_put hc ..
  have hc2 : ((s.put F.SPH_STAT_TERM (min (s.get F.SPH_STAT_TERM + 1) 0xFFFF)).setPair 3).canonical = true := State.canonical_put hc1 ..
  refine ⟨?_, ?_, State.flag_put hc2 (by decide) 1⟩
  · exact (State.get_put_clear hc2 (by decide) 1).trans (State.get_put_same hc1 F.SPH_STAT_STATE 3 (by decide))
  · refine ((State.get_put_clear hc2 (by decide) 1).trans (State.get_put_clear hc1 (by decide) 3)).trans ?_
    exact (State.get_put_same hc F.SPH_STAT_TERM _ (by decide)).trans (Nat.mod_eq_of_lt (Nat.lt_of_le_of_lt (Nat.min_le_right ..) (by decide)))

/-- A recorded launch is given as before the part entered PRIMARY. -/
theorem State.recordLaunch_entering (s : State) (x : MirrorRec) (q : Option TxReq) : s.entering.recordLaunch x q = s.recordLaunch x q := by
  have hpower (d0 : Word) : s.entering.powerEntry d0 = s.powerEntry d0 := by
    have hport : (F.TXP_PWRLIM_LIMIT (txPort d0)).key ≠ Reg.SPH_STAT := by
      have hlt : txPort d0 < 2 := bitsOf_lt ..
      simp only [F.TXP_PWRLIM_LIMIT, Reg.TXP_PWRLIM, Reg.SPH_STAT]
      omega
    rw [State.powerEntry, State.powerEntry, State.get_congr (s.entering_reg hport), State.get_congr (s.entering_reg (by decide))]
  have hsync (d2 : Word) : s.entering.reg (Reg.TXP_SYNC (txSyncNo d2)) = s.reg (Reg.TXP_SYNC (txSyncNo d2)) := by
    have hlt : txSyncNo d2 < 4 := bitsOf_lt ..
    exact s.entering_reg (by simp only [Reg.TXP_SYNC, Reg.SPH_STAT]; omega)
  have hword (a : Nat) : s.entering.word a = s.word a := rfl
  have hslots (slot : Nat) : s.entering.slotsTo slot = s.slotsTo slot := rfl
  have hlead : s.entering.lead = s.lead := rfl
  have hack (d0 : Word) : s.entering.ackTime d0 = s.ackTime d0 := rfl
  have hhop (slot : Nat) : s.entering.hopChannel slot = s.hopChannel slot := rfl
  have hoff : s.entering.getA F.SFM_BCN_ASNOFF = s.getA F.SFM_BCN_ASNOFF := rfl
  simp only [State.recordLaunch, hword, hpower, hsync, hslots, hlead, hack, hhop, hoff]

/-- The new primary with the launches it makes, before the accounts held. -/
def State.promoted (s : State) (off : Nat) : State :=
  let s2 := s.entering.each s.entering.sph.mirror (fun t r => t.adoptLaunch off r)
  { s2 with sph := { s2.sph with
    due := false, mirror := s.sph.mirror.filter s.leftToPeer, aligning := false, dirty := []
    heir := s.sph.handoff.isSome && s.sph.peer == 3, peer := if s.sph.handoff.isSome then s.sph.peer else 0
    lift := if s.get F.SPH_LIFT_LIFT = 0 then none else some 0, lifted := [] } }

theorem exec_takeover (hd : s.sph.due = true) (off : BitVec 17) : exec (.takeover off) s =
    .next ((if s.running then (s.promoted off.toNat).applyHeld else s.promoted off.toNat).raise F.SPH_IRQ_TAKEOVER).logPair :=
  next_congr (if_pos hd)

theorem exec_takeover_idle (hd : s.sph.due = false) (off : BitVec 17) : exec (.takeover off) s = .next s :=
  next_congr (if_neg (by rw [hd]; exact Bool.false_ne_true))

/-- Entering PRIMARY with its launches changes the Siphon's keeping, SPH_STAT and the superframe machine alone. -/
theorem State.promoted_eq (s : State) (off : Nat) : ∃ m : Sfm, m.asn = s.sfm.asn ∧
    m = (s.entering.each s.sph.mirror (fun t r => t.adoptLaunch off r)).sfm ∧
    s.promoted off = { s.entering with
      sfm := m
      sph := { s.sph with
        due := false, mirror := s.sph.mirror.filter s.leftToPeer, aligning := false, dirty := []
        heir := s.sph.handoff.isSome && s.sph.peer == 3, peer := if s.sph.handoff.isSome then s.sph.peer else 0
        lift := if s.get F.SPH_LIFT_LIFT = 0 then none else some 0, lifted := [] } } := by
  obtain ⟨m, hm, hasn⟩ := s.entering.adoptLaunches_outside off s.sph.mirror
  refine ⟨m, hasn, by rw [hm], ?_⟩
  have hmirror : s.entering.sph.mirror = s.sph.mirror := rfl
  unfold State.promoted
  rw [hmirror, hm]
  rfl

end Sys2Proof.Machine
end
section
/-! PROOFS. What a takeover leaves (09_pair_siphon.md R309, R310, R313), and the counter lift that follows it (R311). -/

namespace Sys2Proof.Machine

variable {s t u : State} {r k : Nat}

/-! ## The part that has taken over (R309, R310) -/

/-- The part after its takeover, `off` into the current slot. -/
def State.tookOver (s : State) (off : Nat) : State :=
  ((if s.running then (s.promoted off).applyHeld else s.promoted off).raise F.SPH_IRQ_TAKEOVER).logPair

/-- The fields that a takeover changes last. -/
def takeoverFields : List Fld := [F.SPH_IRQ_TAKEOVER, F.FLC_LOGSTAT_DROP]

theorem FieldFrame.tookOver (s : State) (off : Nat) : FieldFrame State.outsideLog takeoverFields
    (if s.running then (s.promoted off).applyHeld else s.promoted off) (s.tookOver off) :=
  (FieldFrame.put (by simp [takeoverFields]) 1 rfl).trans (.logPair (by simp [takeoverFields]) _)

theorem State.canonical_entering (hc : s.canonical = true) : s.entering.canonical = true := (FieldFrame.entering s).keeps.canon hc

theorem State.canonical_promoted (hc : s.canonical = true) (off : Nat) : (s.promoted off).canonical = true := by
  obtain ⟨m, -, -, hp⟩ := s.promoted_eq off
  rw [hp]
  exact State.canonical_congr (State.canonical_entering hc) rfl rfl rfl rfl rfl

theorem State.canonical_accounted (hc : s.canonical = true) (off : Nat) (c : Bool) :
    (if c then (s.promoted off).applyHeld else s.promoted off).canonical = true := by
  cases c
  · exact State.canonical_promoted hc off
  · exact (State.keeps_applyHeld (.refl _)).canon (State.canonical_promoted hc off)

theorem State.promoted_reg (s : State) (off : Nat) : (s.promoted off).reg k = s.entering.reg k := by
  obtain ⟨m, -, -, hp⟩ := s.promoted_eq off
  rw [hp]
  rfl

theorem State.accounted_reg (s : State) (off : Nat) (c : Bool) (hk : ¬acctKey k) :
    (if c then (s.promoted off).applyHeld else s.promoted off).reg k = s.entering.reg k := by
  cases c
  · exact s.promoted_reg off
  · exact (State.applyHeld_reg _ hk).trans (s.promoted_reg off)

/-- The state, the term and the flags of a takeover. -/
theorem State.tookOver_stat (hc : s.canonical = true) (off : Nat) : (s.tookOver off).pairState = 3 ∧
    (s.tookOver off).get F.SPH_STAT_TERM = min (s.get F.SPH_STAT_TERM + 1) 0xFFFF ∧
    (s.tookOver off).flag F.SPH_STAT_PEER_LOST = true ∧ (s.tookOver off).flag F.SPH_IRQ_TAKEOVER = true := by
  have hcq := State.canonical_accounted hc off s.running
  have hfield := (FieldFrame.tookOver s off).field hcq
  have hstat {f : Fld} (hf : f.key = Reg.SPH_STAT) :
      (if s.running then (s.promoted off).applyHeld else s.promoted off).get f = s.entering.get f :=
    State.get_congr (hf ▸ s.accounted_reg off s.running (not_acctKey (by decide)))
  obtain ⟨hpair, hterm, hlost⟩ := State.entering_stat hc
  refine ⟨((hfield _ (by decide)).trans (hstat rfl)).trans hpair, ((hfield _ (by decide)).trans (hstat rfl)).trans hterm,
    (State.flag_congr ((hfield _ (by decide)).trans (hstat rfl))).trans hlost, ?_⟩
  have hlog := (FieldFrame.logPair (W := [F.FLC_LOGSTAT_DROP]) (List.mem_cons_self ..)
    ((if s.running then (s.promoted off).applyHeld else s.promoted off).raise F.SPH_IRQ_TAKEOVER)).field (State.canonical_put hcq ..)
  exact (State.flag_congr (hlog F.SPH_IRQ_TAKEOVER (by decide))).trans (State.flag_put hcq (by decide) 1)

/-- What the part keeps for its peer, its slots and its memory. -/
theorem State.tookOver_parts (s : State) (off : Nat) :
    (s.tookOver off).sph = { s.sph with
      due := false, mirror := s.sph.mirror.filter s.leftToPeer, aligning := false, dirty := []
      heir := s.sph.handoff.isSome && s.sph.peer == 3, peer := if s.sph.handoff.isSome then s.sph.peer else 0
      lift := if s.get F.SPH_LIFT_LIFT = 0 then none else some 0, lifted := [], acct := if s.running then [] else s.sph.acct } ∧
    (s.tookOver off).sfm = (s.entering.each s.sph.mirror (fun t r => t.adoptLaunch off r)).sfm ∧ (s.tookOver off).mem = s.mem := by
  have hlast := (FieldFrame.tookOver s off).parts
  obtain ⟨m, -, hm, hp⟩ := s.promoted_eq off
  rw [← hm]
  have hsph : (s.tookOver off).sph = (if s.running then (s.promoted off).applyHeld else s.promoted off).sph := (congrArg State.sph hlast :)
  have hsfm : (s.tookOver off).sfm = (if s.running then (s.promoted off).applyHeld else s.promoted off).sfm := (congrArg State.sfm hlast :)
  have hmem : (s.tookOver off).mem = (if s.running then (s.promoted off).applyHeld else s.promoted off).mem := (congrArg State.mem hlast :)
  rw [hsph, hsfm, hmem]
  rcases s.running with _ | _
  · rw [if_neg Bool.false_ne_true, hp, if_neg Bool.false_ne_true]
    exact ⟨rfl, rfl, rfl⟩
  · rw [if_pos rfl, if_pos rfl, State.applyHeld_eq, hp]
    exact ⟨rfl, rfl, rfl⟩

theorem State.sameAccounts_promoted (hc : s.canonical = true) (off : Nat) : SameAccounts s (s.promoted off) := by
  obtain ⟨m, hasn, -, hp⟩ := s.promoted_eq off
  refine ⟨hc, State.canonical_promoted hc off, by rw [hp]; exact hasn, by rw [hp]; rfl, fun n hn => ?_⟩
  rw [State.promoted_reg]
  exact s.entering_reg (by simp only [Reg.SFM_QCR, Reg.SPH_STAT]; omega)

/-- The accounts held are applied where slots run. -/
theorem State.tookOver_accounts (hc : s.canonical = true) (off : Nat) :
    (s.running = true → (s.tookOver off).granules = s.applyHeld.granules ∧
      ∀ n < 1024, (s.tookOver off).get (F.SFM_QCR_CREDIT n) = s.applyHeld.get (F.SFM_QCR_CREDIT n)) ∧
    (s.running = false → (s.tookOver off).granules = s.granules) := by
  have hsame := State.sameAccounts_promoted hc off
  have hframe := FieldFrame.tookOver s off
  have hgran : (s.tookOver off).granules = (if s.running then (s.promoted off).applyHeld else s.promoted off).granules :=
    (congrArg State.granules hframe.parts :)
  refine ⟨fun hr => ?_, fun hr => ?_⟩
  · have hacct : (s.promoted off).sph.acct = s.sph.acct := by
      obtain ⟨m, -, -, hp⟩ := s.promoted_eq off
      rw [hp]
    have hheld := hsame.applyHeld hacct
    have hcq := State.canonical_accounted hc off s.running
    rw [hr, if_pos rfl] at hgran hframe hcq
    refine ⟨hgran.trans hheld.granules, fun n hn => (hframe.field hcq _ (fun f hf => .inl ?_)).trans (State.get_congr (hheld.credits n hn))⟩
    simp only [takeoverFields, List.mem_cons, List.not_mem_nil, or_false] at hf
    rcases hf with rfl | rfl
    · simp only [F.SFM_QCR_CREDIT, F.SPH_IRQ_TAKEOVER, Reg.SFM_QCR, Reg.SPH_IRQ]
      omega
    · simp only [F.SFM_QCR_CREDIT, F.FLC_LOGSTAT_DROP, Reg.SFM_QCR, Reg.FLC_LOGSTAT]
      omega
  · rw [hr, if_neg Bool.false_ne_true] at hgran
    exact hgran.trans hsame.granules

theorem State.leftToPeer_entering (s : State) (x : MirrorRec) : s.entering.leftToPeer x = s.leftToPeer x := rfl

/-- A single recorded launch is made, or stays pending. -/
theorem State.tookOver_launch {x : MirrorRec} (off : Nat) (hx : s.sph.mirror = [x]) :
    let q := if bitAt x.body.w3.toNat 9 then none else s.sfm.pend.find? (fun y => y.desc == recDesc x.body)
    (s.tookOver off).sfm.launches = s.sfm.launches ++ (if s.makesLaunch off x q then [s.recordLaunch x q] else []) ∧
    (s.tookOver off).sfm.pend = if s.makesLaunch off x q then
      s.sfm.pend.filter (fun y => bitAt x.body.w3.toNat 9 || y.desc != recDesc x.body) else s.sfm.pend := by
  intro q
  obtain ⟨-, hsfm, -⟩ := s.tookOver_parts off
  have hmakes : s.entering.makesLaunch off x q = s.makesLaunch off x q := by
    have hslots : s.entering.slotsTo (recSlot x.body) = s.slotsTo (recSlot x.body) := rfl
    rw [State.makesLaunch, State.makesLaunch, State.recordLaunch_entering, State.leftToPeer_entering, hslots]
  have hadopt := s.entering.adoptLaunch_eq off x
  dsimp only at hadopt
  rw [State.recordLaunch_entering, show (if bitAt x.body.w3.toNat 9 = true then none else
    s.entering.sfm.pend.find? (fun y => y.desc == recDesc x.body)) = q from rfl, hmakes] at hadopt
  rw [hsfm, hx, show s.entering.each [x] (fun t r => t.adoptLaunch off r) = s.entering.adoptLaunch off x from rfl, hadopt]
  rcases s.makesLaunch off x q with _ | _
  · exact ⟨(List.append_nil _).symm, rfl⟩
  · exact ⟨rfl, rfl⟩

/-! ## The counter lift (R311) -/

/-- An entry with its transmit counter lifted. -/
def liftedEntry (d e : Nat) : Nat := setBits e 44 24 (min (entTc e + d) 0xFFFFFF)

theorem liftedEntry_lt (d : Nat) {e : Nat} (he : e < 2 ^ 128) : liftedEntry d e < 2 ^ 128 := setBits_lt he (by decide)

/-- The entries that the walk lifts. -/
def State.liftList (s : State) (p : Nat) : List Nat := (List.range 262144).filter (fun i => decide (p ≤ i) && !s.sph.lifted.contains i)

/-- The part with these entries lifted. -/
def State.liftAll (s : State) (d : Nat) (l : List Nat) : State := s.each l (fun t i => t.setEntry i (liftedEntry d (t.entry i)))

theorem exec_counterLift {p : Nat} (hp : s.sph.lift = some p) : exec .counterLift s =
    .next (let s1 := if !s.ready 13 then s else s.liftAll (s.get F.SPH_LIFT_LIFT) (s.liftList p)
      { s1 with sph := { s1.sph with lift := none, lifted := [] } }) := by
  change execCounterLift s = _
  rw [execCounterLift, hp]
  rfl

theorem exec_counterLift_idle (hp : s.sph.lift = none) : exec .counterLift s = .next s := by
  change execCounterLift s = _
  rw [execCounterLift, hp]

theorem State.liftAll_entry (hc : s.canonical = true) (d : Nat) {l : List Nat} (hl : l.Nodup) (i : Nat) :
    (s.liftAll d l).entry i = if i ∈ l then liftedEntry d (s.entry i) else s.entry i := by
  by_cases hi : i ∈ l
  · have honce := State.each_once (s := s) (f := fun u j => u.setEntry j (liftedEntry d (u.entry j))) (g := fun u => u.entry i)
      (G := fun e => liftedEntry d e % 2 ^ 128) (m := i) (I := fun u => u.canonical = true)
      (fun u j hu => State.canonical_setEntry hu j _) (fun u j hj => u.setEntry_entry_other _ hj.symm)
      (fun u hu => State.setEntry_entry_same hu i _) hl hi hc
    rw [if_pos hi]
    exact honce.trans (Nat.mod_eq_of_lt (liftedEntry_lt d (s.entry_lt i)))
  · rw [if_neg hi]
    exact State.each_apart (g := fun u => u.entry i) (fun u j hj => u.setEntry_entry_other _ (fun e => hi (e ▸ hj))) s

theorem State.liftAll_byte (d : Nat) {l : List Nat} (hl : ∀ i ∈ l, i < 262144) {a : Nat} (ha : a < 0x10000000 ∨ 0x10400000 ≤ a) :
    (s.liftAll d l).byte a = s.byte a := by
  refine State.each_apart (g := fun u => u.byte a) (fun u j hj => u.setEntry_byte_other _ ?_) s
  have hlt := hl j hj
  unfold entryAddr
  omega

theorem State.liftAll_reg (d : Nat) (l : List Nat) (hk : k ≠ Reg.CST_SUM) : (s.liftAll d l).reg k = s.reg k :=
  State.each_apart (g := fun u => u.reg k) (fun u j _ => u.setEntry_reg_other j _ hk) s

theorem State.mem_liftList {p i : Nat} : i ∈ s.liftList p ↔ i < 262144 ∧ p ≤ i ∧ s.sph.lifted.contains i = false := by
  rw [State.liftList, List.mem_filter, List.mem_range, Bool.and_eq_true, decide_eq_true_iff, Bool.not_eq_true']

/-- The walk lifts every entry not lifted before it, and changes nothing but the Cistern. -/
theorem exec_counterLift_outcome (hc : s.canonical = true) {p : Nat} (hp : s.sph.lift = some p) :
    ∃ t : State, exec .counterLift s = .next t ∧ t.sph.lift = none ∧
      (∀ i < 262144, t.entry i = if s.ready 13 = true ∧ p ≤ i ∧ s.sph.lifted.contains i = false then
        liftedEntry (s.get F.SPH_LIFT_LIFT) (s.entry i) else s.entry i) ∧
      (∀ a, a < 0x10000000 ∨ 0x10400000 ≤ a → t.byte a = s.byte a) ∧ (∀ k, k ≠ Reg.CST_SUM → t.reg k = s.reg k) := by
  have hnodup : (s.liftList p).Nodup := List.nodup_range.filter _
  refine ⟨_, exec_counterLift hp, rfl, ?_⟩
  dsimp only
  rcases hr : s.ready 13 with _ | _
  · rw [Bool.not_false, if_pos rfl]
    exact ⟨fun i _ => by rw [if_neg (fun h => Bool.false_ne_true h.1)]; rfl, fun _ _ => rfl, fun _ _ => rfl⟩
  · rw [Bool.not_true, if_neg Bool.false_ne_true]
    have hentry := State.liftAll_entry hc (s.get F.SPH_LIFT_LIFT) hnodup
    have hbyte {a : Nat} (ha : a < 0x10000000 ∨ 0x10400000 ≤ a) : (s.liftAll (s.get F.SPH_LIFT_LIFT) (s.liftList p)).byte a = s.byte a :=
      State.liftAll_byte _ (fun i hi => (State.mem_liftList.mp hi).1) ha
    have hreg {k : Nat} (hk : k ≠ Reg.CST_SUM) : (s.liftAll (s.get F.SPH_LIFT_LIFT) (s.liftList p)).reg k = s.reg k :=
      State.liftAll_reg _ _ hk
    generalize s.liftAll (s.get F.SPH_LIFT_LIFT) (s.liftList p) = u at hentry hbyte hreg ⊢
    refine ⟨fun i hi => (hentry i).trans (if_congr ?_ rfl rfl), fun a ha => hbyte ha, fun k hk => hreg hk⟩
    rw [State.mem_liftList]
    simp [hi]

end Sys2Proof.Machine
end
section
/-! PROOFS. The loss of the primary or of the peer (09_pair_siphon.md R309, R312), the commands of SPH_CMD (R308, R313, R314), and a planned
handover's end (R313). -/

namespace Sys2Proof.Machine

variable {s t : State} {r : Nat}

/-! ## Losses (R309, R312) -/

theorem exec_primaryLost_standby (h4 : s.pairState = 4) : exec .primaryLost s =
    .next (if s.flag F.SPH_CTL_AUTO then { s with sph := { s.sph with due := true } } else s.put F.SPH_IRQ_PRIMARY_LOST 1) :=
  next_congr (if_pos h4)

theorem exec_primaryLost_aligning (h2 : s.pairState = 2) : exec .primaryLost s =
    .next ((s.put F.SPH_STAT_STATE 1).put F.SPH_IRQ_PRIMARY_LOST 1) :=
  next_congr ((if_neg (by rw [h2]; decide)).trans (if_pos h2))

theorem exec_primaryLost_other (h2 : s.pairState ≠ 2) (h4 : s.pairState ≠ 4) : exec .primaryLost s = .next s :=
  next_congr ((if_neg h4).trans (if_neg h2))

/-- A primary without its peer keeps the frames outstanding and nothing else of it. -/
theorem exec_peerLost (hs : s.noResult) (h3 : s.pairState = 3) (h : s.sph.peer ≠ 0 ∨ s.sph.mirror ≠ []) : exec .peerLost s =
    .next { ((s.put F.SPH_STAT_PEER_LOST 1).put F.SPH_STAT_PEER_ESTR 0).put F.SPH_IRQ_PEER_LOST 1 with
      sph := { s.sph with later := [], peer := 0, aligning := false, handover := none, heir := false, mirror := [] }
      flc := { s.flc with waits := s.flc.waits.filter (fun w => w != .request) }
      cip := { s.cip with core := s.cip.core.map (fun x => x.map (fun run => { run with waitSeq := none })) } } :=
  next_congr ((if_pos ⟨h3, h⟩).trans (State.dropPeer_eq
    (s := ((s.put F.SPH_STAT_PEER_LOST 1).put F.SPH_STAT_PEER_ESTR 0).put F.SPH_IRQ_PEER_LOST 1) (hs.congr rfl)))

theorem exec_peerLost_idle (h : s.pairState ≠ 3 ∨ (s.sph.peer = 0 ∧ s.sph.mirror = [])) : exec .peerLost s = .next s :=
  next_congr (if_neg (by tauto))

/-! ## The commands of SPH_CMD -/

/-- The row of SPH_CMD. -/
def sphCmdRow : RegRow := ⟨Reg.SPH_CMD, 4, 1, 4, 1, .single, 0, 0, 0, 0, 0, 0xE, 0, 0, 0⟩

theorem directAt_SPH_CMD : sphCmdRow.DirectAt Reg.SPH_CMD := by decide +kernel

/-- A write of SPH_CMD that goes through acts and is not kept. -/
theorem State.command32_sphCmd (h : s.admits r Reg.SPH_CMD true = true) (v : Word) : s.command32 r Reg.SPH_CMD v =
    (let c := s.served r Reg.SPH_CMD
    let s1 := if bitAt v.toNat 1 then c.promote else c
    let s2 := if bitAt v.toNat 2 then s1.rejoin else s1
    if bitAt v.toNat 3 then s2.startHandover else s2).answered 0 := by
  have hwrote (p q : State) : p.wrote q r Reg.SPH_CMD Reg.SPH_CMD v = (p.wroteSph q Reg.SPH_CMD v, none) := rfl
  rw [State.command32_direct directAt_SPH_CMD h, hwrote, State.answerWrite_none]
  rfl

theorem exec_rejoin {r : Req} (h : s.admits r.val Reg.SPH_CMD true = true) :
    exec (.rejoin r) s = .next ((s.served r.val Reg.SPH_CMD).rejoin.answered 0) := next_congr (State.command32_sphCmd h 4)

theorem exec_promote {r : Req} (h : s.admits r.val Reg.SPH_CMD true = true) :
    exec (.promote r) s = .next ((s.served r.val Reg.SPH_CMD).promote.answered 0) := next_congr (State.command32_sphCmd h 2)

theorem exec_handover {r : Req} (h : s.admits r.val Reg.SPH_CMD true = true) :
    exec (.handover r) s = .next ((s.served r.val Reg.SPH_CMD).startHandover.answered 0) := next_congr (State.command32_sphCmd h 8)

/-- An ESTRANGED part that rejoins has no cause left, and takes ROLE and PAIRID as they are now. -/
def State.rejoined (s : State) : State :=
  { s.put F.SPH_ESTR_CAUSE 0 with sph := { s.sph with pairid := s.get F.SPH_CTL_PAIRID, role := s.get F.SPH_CTL_ROLE } }

theorem State.rejoin_eq (h5 : s.pairState = 5) : s.rejoin =
    if s.linked && s.sph.peer == 3 then s.rejoined.enterAligning else s.rejoined.setPair 1 := by
  have hlinked : s.rejoined.linked = s.linked := State.flag_congr (State.get_put_key s 0 (by decide))
  rw [State.rejoin, if_pos h5, ← hlinked]
  rfl

theorem State.rejoin_other (h5 : s.pairState ≠ 5) : s.rejoin = s := if_neg h5

theorem State.promote_eq (h : s.pairState = 1 ∨ s.follows = true) : s.promote = { s with sph := { s.sph with due := true } } := if_pos h

theorem State.promote_other (h1 : s.pairState ≠ 1) (hf : s.follows = false) : s.promote = s :=
  if_neg (by rw [hf]; simp [h1])

/-! ## A planned handover (R313) -/

theorem State.startHandover_idle (h : s.pairState ≠ 3 ∨ s.sph.peer ≠ 4 ∨ s.sph.handover ≠ none) : s.startHandover = s :=
  if_neg (by rw [Option.isNone_iff_eq_none]; tauto)

/-- The frames sent leave those still to come. -/
theorem State.sendWaiting_later (s : State) (l : List OutFrame) : (s.sendWaiting l).sph.later = s.sph.later :=
  (congrArg Sph.later (State.sendWaiting_sph l s).1 :)

/-- The standby learns the slot from which it decides. -/
theorem State.startHandover_eq (h3 : s.pairState = 3) (h4 : s.sph.peer = 4) (hn : s.sph.handover = none) {slot : Nat}
    (hslot : s.slotAt 3 = slot) :
    let f : OutFrame := ⟨(s.sph.txSeq + 1) % 65536, 0x15, false, bytesLe 8 slot⟩
    let sent := ({ s with sph := { s.sph with txSeq := f.seq } } : State).sendWaiting (s.sph.waiting ++ [f])
    (s.sph.later = [] → s.startHandover = { sent with sph := { sent.sph with handover := some slot } }) ∧
    (s.sph.later ≠ [] → s.startHandover =
      { s with sph := { s.sph with handover := some slot, later := s.sph.later ++ [.frame 0x15 (bytesLe 8 slot)] } }) := by
  intro f sent
  have hshares : s.shares = true := by simp [State.shares, State.peerFollows, h3, h4]
  subst hslot
  have hstart : s.startHandover = { s.mirror 0x15 (bytesLe 8 (s.slotAt 3)) with
      sph := { (s.mirror 0x15 (bytesLe 8 (s.slotAt 3))).sph with handover := some (s.slotAt 3) } } :=
    if_pos ⟨h3, h4, Option.isNone_iff_eq_none.mpr hn⟩
  refine ⟨fun hl => ?_, fun hl => ?_⟩
  · have hlater : sent.sph.later = [] := (State.sendWaiting_later _ _).trans hl
    have hmirror : s.mirror 0x15 (bytesLe 8 (s.slotAt 3)) = { sent with sph := { sent.sph with later := [] } } := by
      simp only [State.mirror, State.share, hshares, hl]
      rfl
    rw [hstart, hmirror, ← hlater]
  · have hmirror : s.mirror 0x15 (bytesLe 8 (s.slotAt 3)) = { s with sph :=
        { s.sph with later := s.sph.later ++ [.frame 0x15 (bytesLe 8 (s.slotAt 3))] } } := by
      simp only [State.mirror, State.share, hshares, List.isEmpty_iff, hl]
      rfl
    rw [hstart, hmirror]

/-! ## The commands at a part that a requester reaches -/

theorem State.served_follows (s : State) (r k : Nat) : (s.served r k).follows = s.follows := by
  rw [State.follows, State.follows, State.served_pairState]

theorem State.served_linked (s : State) (r k : Nat) : (s.served r k).linked = s.linked := State.served_flag ..

/-- The part that rejoins, its command served. -/
theorem State.served_rejoin (h5 : s.pairState = 5) (r k : Nat) : (s.served r k).rejoin =
    let rejoined : State := { (s.served r k).put F.SPH_ESTR_CAUSE 0 with sph :=
      { s.sph with pairid := s.get F.SPH_CTL_PAIRID, role := s.get F.SPH_CTL_ROLE } }
    if s.linked && s.sph.peer == 3 then rejoined.enterAligning else rejoined.setPair 1 := by
  rw [State.rejoin_eq ((s.served_pairState ..).trans h5), State.rejoined, State.served_linked, State.served_sph, State.served_get,
    State.served_get]

section
variable {q : Req} (hadm : s.admits q.val Reg.SPH_CMD true = true)
include hadm

theorem exec_rejoin_alone (h5 : s.pairState = 5) (hno : s.linked = false ∨ s.sph.peer ≠ 3) : exec (.rejoin q) s =
    .next ((({ (s.served q.val Reg.SPH_CMD).put F.SPH_ESTR_CAUSE 0 with sph :=
      { s.sph with pairid := s.get F.SPH_CTL_PAIRID, role := s.get F.SPH_CTL_ROLE } } : State).put F.SPH_STAT_STATE 1).answered 0) := by
  have haway : ¬(s.linked && s.sph.peer == 3) = true := by rcases hno with hno | hno <;> simp [hno]
  rw [exec_rejoin hadm, State.served_rejoin h5]
  exact congrArg (fun t => Host.Outcome.next (State.answered t 0)) (if_neg haway)

/-- A part whose primary is there begins an alignment at once. -/
theorem exec_rejoin_back (h5 : s.pairState = 5) (hl : s.linked = true) (hp : s.sph.peer = 3) : exec (.rejoin q) s =
    .next (((({ (s.served q.val Reg.SPH_CMD).put F.SPH_ESTR_CAUSE 0 with
      sfm := { s.sfm with pend := [] }
      sph := { s.sph with pairid := s.get F.SPH_CTL_PAIRID, role := s.get F.SPH_CTL_ROLE, timed := false, acctSeen := false
                          passOpen := false, passDone := false, mirror := [], acct := [], badEpoch := none, badImg := none
                          firstBeat := false, sumRun := 0, passAt := 0, beatAt := none, stood := false, handoff := none } } : State).put
        F.SPH_ALIGN_COUNT 0).put F.SPH_STAT_STATE 2).answered 0) := by
  have hthere : (s.linked && s.sph.peer == 3) = true := by simp [hl, hp]
  rw [exec_rejoin hadm, State.served_rejoin h5, ← s.served_sfm q.val Reg.SPH_CMD]
  exact congrArg (fun t => Host.Outcome.next (State.answered t 0)) (if_pos hthere)

theorem exec_rejoin_other (h5 : s.pairState ≠ 5) : exec (.rejoin q) s = .next ((s.served q.val Reg.SPH_CMD).answered 0) := by
  rw [exec_rejoin hadm, State.rejoin_other (by rwa [State.served_pairState])]

theorem exec_promote_due (h : s.pairState = 1 ∨ s.follows = true) : exec (.promote q) s =
    .next (({ s.served q.val Reg.SPH_CMD with sph := { s.sph with due := true } } : State).answered 0) := by
  rw [exec_promote hadm, State.promote_eq (by rwa [State.served_pairState, State.served_follows]), State.served_sph]

theorem exec_promote_other (h1 : s.pairState ≠ 1) (hf : s.follows = false) :
    exec (.promote q) s = .next ((s.served q.val Reg.SPH_CMD).answered 0) := by
  rw [exec_promote hadm, State.promote_other (by rwa [State.served_pairState]) ((s.served_follows ..).trans hf)]

theorem exec_handover_idle (h : s.pairState ≠ 3 ∨ s.sph.peer ≠ 4 ∨ s.sph.handover ≠ none) :
    exec (.handover q) s = .next ((s.served q.val Reg.SPH_CMD).answered 0) := by
  rw [exec_handover hadm, State.startHandover_idle (by rwa [State.served_pairState, State.served_sph])]

/-- The frame that names the slot goes, or stands behind what is still to come. -/
theorem exec_handover_starts (h3 : s.pairState = 3) (h4 : s.sph.peer = 4) (hn : s.sph.handover = none) :
    let c := s.served q.val Reg.SPH_CMD
    let slot := (s.sfm.asn.toNat + 3) % 2 ^ 40
    let f : OutFrame := ⟨(s.sph.txSeq + 1) % 65536, 0x15, false, bytesLe 8 slot⟩
    let sent := ({ c with sph := { s.sph with txSeq := f.seq } } : State).sendWaiting (s.sph.waiting ++ [f])
    (s.sph.later = [] →
      exec (.handover q) s = .next (({ sent with sph := { sent.sph with handover := some slot } } : State).answered 0)) ∧
    (s.sph.later ≠ [] → exec (.handover q) s = .next (({ c with sph := { s.sph with
      handover := some slot, later := s.sph.later ++ [.frame 0x15 (bytesLe 8 slot)] } } : State).answered 0)) := by
  intro c slot f sent
  have hsph : c.sph = s.sph := s.served_sph ..
  have hslot : c.slotAt 3 = slot := by rw [State.slotAt, show c.sfm = s.sfm from s.served_sfm ..]
  have hstart := State.startHandover_eq ((s.served_pairState ..).trans h3) (hsph ▸ h4) (hsph ▸ hn) hslot
  rw [hsph] at hstart
  obtain ⟨hnow, hlater⟩ := hstart
  rw [exec_handover hadm]
  exact ⟨fun hl => congrArg (fun t => Host.Outcome.next (State.answered t 0)) (hnow hl),
    fun hl => congrArg (fun t => Host.Outcome.next (State.answered t 0)) (hlater hl)⟩

end

/-! ## A planned handover's end (R313) -/

theorem exec_plannedHandoverComplete_idle (h : s.sph.handover = none ∨ s.pairState ≠ 3 ∨ s.sfm.launches ≠ [] ∨ s.tx.hop ≠ none ∨
    s.tx.cur ≠ none ∨ s.sph.out ≠ [] ∨ s.sph.waiting ≠ [] ∨ s.sph.later ≠ [] ∨ s.sph.dirty ≠ []) :
    exec .plannedHandoverComplete s = .next s := by
  refine next_congr (if_neg ?_)
  rw [Option.isSome_iff_ne_none]
  simp only [List.isEmpty_iff, Option.isNone_iff_eq_none]
  tauto

/-- Its launches done and all it sent acknowledged, the old primary follows the new one. -/
theorem exec_plannedHandoverComplete {slot : Nat} (h : s.sph.handover = some slot) (h3 : s.pairState = 3) (hl : s.sfm.launches = [])
    (hh : s.tx.hop = none) (hc : s.tx.cur = none) (ho : s.sph.out = []) (hw : s.sph.waiting = []) (hn : s.sph.later = [])
    (hd : s.sph.dirty = []) : exec .plannedHandoverComplete s = .next ((({ s with sph :=
        { s.sph with handover := none, handoff := none, timed := true, firstBeat := false, sumRun := 0, badEpoch := none, badImg := none
                     dirty := [], aligning := false, passAt := 0, beatAt := none, stood := false } } : State).put F.SPH_STAT_STATE 4).put
          F.SPH_IRQ_ALIGNED 1) :=
  next_congr (if_pos (by simp [h, h3, hl, hh, hc, ho, hw, hn, hd]))

end Sys2Proof.Machine
end
section
/-! PROOFS. The states of a pair, statement by statement (09_pair_siphon.md R284, R302, R303, R305 to R311, R313, R314). -/

namespace Sys2Proof.Machine

variable {s t u : State} {h : SphHdr} {b : BeatBody}

/-! ## A heartbeat at a primary -/

theorem State.canonical_peerEased (hc : u.canonical = true) (b : BeatBody) : (u.peerEased b).canonical = true :=
  State.canonical_congr (State.canonical_put hc ..) rfl rfl rfl rfl rfl

/-- The peer's alignment is served once. -/
theorem State.beaten_serves (h3 : u.pairState = 3) (hb : b.state = 2) (ha : u.sph.aligning = false) :
    ShareFrame ((u.fromPeer b).peerEased b).alignStart (u.beaten b) := by
  have ha' : ¬(u.fromPeer b).sph.aligning = true := by
    rw [show (u.fromPeer b).sph.aligning = u.sph.aligning from rfl, ha]
    exact Bool.false_ne_true
  rw [State.beaten_primary h3, State.beatAtPrimary_aligning hb, if_neg ha']
  exact ShareFrame.serveAlignment _

theorem State.beaten_serving (h3 : u.pairState = 3) (hb : b.state = 2) (ha : u.sph.aligning = true) :
    u.beaten b = (u.fromPeer b).peerEased b := by
  rw [State.beaten_primary h3, State.beatAtPrimary_aligning hb]
  exact if_pos ha

/-- Settles O51: the heartbeat by the part that it meets, then each command by its lemma. -/
theorem pairRoles : Obligations.PairRoles := by
  unfold Obligations.PairRoles
  intro s r h b hc hres
  refine ⟨exec_beat_down, fun hp hl => ?_, fun h4 ha => ?_, fun h4 ha => ?_, exec_primaryLost_aligning, exec_primaryLost_other,
    exec_peerLost hres, exec_peerLost_idle, fun off hd => exec_takeover_idle hd off, fun off hd => ?_, exec_counterLift_idle,
    fun p hp => exec_counterLift_outcome hc hp, fun hadm => ?_, exec_plannedHandoverComplete_idle,
    fun slot hh h3 hl hhop hcur ho hw hn hd => exec_plannedHandoverComplete hh h3 hl hhop hcur ho hw hn hd⟩
  · intro met astray ahead u v
    have hu : (s.takeHeader h).inStep h b = u := (s.takeHeader h).inStep_eq h b
    have hbeat : exec (.beat h b) s = .next (u.beaten b).settled := hu ▸ exec_beat hp hl
    have hcu : u.canonical = true := hu ▸ (State.keeps_inStep (State.keeps_takeHeader (.refl s) h) h b).canon hc
    have hru : u.noResult := hu ▸ (State.noResult.takeHeader hres h).inStep h b
    clear_value u
    refine ⟨fun h3 hb => ?_, fun hb hd => ?_, fun h3 => ?_⟩
    · rw [hbeat, State.beaten_other h3 hb]
      rfl
    · intro away late offset again same epoch image stands adopts measured time compared sum
      refine ⟨fun h1 => ?_, fun h0 => ?_, fun hf => ?_⟩
      · rw [hbeat, State.beaten_linking hb hd h1]
        rfl
      · rw [hbeat, State.beaten_solo h0]
        rfl
      · obtain ⟨htimed, hstood, hat, -⟩ := u.followed_marks b
        have hoff : u.beatOffset b = offset := u.beatOffset_eq b
        have htime : (u.measures b && u.timeFails (u.beatOffset b)) = time := by
          rw [hoff, State.timeFails, ← Bool.and_assoc, ← Bool.and_assoc]
          rfl
        have hfails : (u.epochFails b || u.imageFails b || (u.measures b && u.timeFails (u.beatOffset b)) || u.sumFails b) =
            (epoch || image || time || sum) := by rw [htime]; rfl
        refine ⟨u.followed b, by rw [hbeat, State.beaten_followed hb hd hf], State.followed_term hcu b, htimed, hstood, hat, rfl,
          (u.followed_peer b).trans (congrArg Fin.val hb), u.followed_mem b, fun hs => (State.followed_stands hcu hs).1,
          fun hs => (State.followed_stands hcu hs).2, fun had => (State.followed_adopts hcu had).1, fun had hr => ?_, fun hm => ?_,
          State.followed_waits hcu, State.followed_estranged hcu, fun h5 => ⟨fun hbad => ?_, fun hgood => ?_, ?_, ?_⟩⟩
        · obtain ⟨hrun, hsfm, hacct⟩ := (State.followed_adopts hcu had).2 hr
          rw [hsfm]
          refine ⟨hrun, rfl, rfl, rfl, rfl, rfl, rfl, rfl, ?_, hacct⟩
          exact (Int.ofNat_toNat _).trans (max_comm _ _)
        · rw [← hoff]
          exact State.followed_measures hcu hm
        · rw [← htime]
          exact State.followed_fails hcu h5 (hfails.trans hbad)
        · exact State.followed_passes hcu h5 (hfails.trans hgood)
        · exact (State.followed_count hcu h5).1
        · exact (State.followed_count hcu h5).2
    · refine ⟨fun hb => ?_, fun hb => ?_, fun hb => ?_, fun hb => ?_⟩
      · rw [hbeat, State.beaten_primary h3, State.beatAtPrimary_standby hb]
        rfl
      · rw [hbeat, State.beaten_primary h3, State.beatAtPrimary_away hb]
        rfl
      · refine ⟨_, hbeat, ?_⟩
        rcases ha : u.sph.aligning with _ | _
        · have hframe := State.beaten_serves h3 hb ha
          generalize u.beaten b = t at hframe ⊢
          obtain ⟨haligning, hmirror, hheir, hdirty, hsweep⟩ := hframe.alignStart_sph
          have hcount := hframe.alignStart_count (State.canonical_peerEased (State.canonical_fromPeer hcu b) b)
          exact ⟨haligning, hmirror, hheir, (congrArg State.mem hframe.parts :), (congrArg State.sfm hframe.parts :),
            fun _ => ⟨hdirty, hsweep, hcount⟩,
            fun h => absurd h Bool.false_ne_true⟩
        · rw [State.beaten_serving h3 hb ha]
          exact ⟨ha, rfl, rfl, rfl, rfl, fun h => absurd h.symm Bool.false_ne_true, fun _ => ⟨rfl, rfl⟩⟩
      · intro mine loses
        have hprimary := State.beatAtPrimary_primary (State.canonical_fromPeer hcu b) hb
        have hyields : (u.fromPeer b).yields b = loses := rfl
        rw [hyields] at hprimary
        refine ⟨fun hno => ?_, fun hyes => ?_⟩
        · rw [hbeat, State.beaten_primary h3, hprimary, if_neg (by rw [hno]; exact Bool.false_ne_true)]
          rfl
        · rw [if_pos hyes] at hprimary
          have hout := State.yield_outcome (State.canonical_put (State.canonical_fromPeer hcu b) F.SPH_STAT_PEER_ESTR 0) (hru.congr rfl)
          rw [← hprimary, ← State.beaten_primary h3] at hout
          exact ⟨_, hbeat, hout⟩
  · rw [exec_primaryLost_standby h4, if_pos ha]
  · rw [exec_primaryLost_standby h4, if_neg (by rw [ha]; exact Bool.false_ne_true)]
  · obtain ⟨hpair, hterm, hlost, hirq⟩ := State.tookOver_stat hc off.toNat
    obtain ⟨hsph, hsfm, hmem⟩ := s.tookOver_parts off.toNat
    obtain ⟨hruns, hrests⟩ := State.tookOver_accounts hc off.toNat
    refine ⟨s.tookOver off.toNat, exec_takeover hd off, hpair, hterm, hlost, hirq, ?_⟩
    rw [hsph]
    refine ⟨rfl, rfl, rfl, rfl, rfl, rfl, ?_, rfl, rfl, rfl, hmem, fun hnone => ?_, fun hr => ?_, fun hr => ?_, fun x hx => ?_⟩
    · cases s.sph.handoff <;> rfl
    · rw [hsfm, hnone]
      rfl
    · exact ⟨if_pos hr, hruns hr⟩
    · exact ⟨if_neg (by rw [hr]; exact Bool.false_ne_true), hrests hr⟩
    · intro beacon slot desc q l left makes
      obtain ⟨hlaunches, hpend⟩ := State.tookOver_launch off.toNat hx
      refine ⟨rfl, hlaunches, hpend, ?_⟩
      rw [hx]
      exact List.filter_cons
  · exact ⟨exec_rejoin_alone hadm, exec_rejoin_back hadm, exec_rejoin_other hadm, exec_promote_due hadm, exec_promote_other hadm,
      exec_handover_idle hadm, exec_handover_starts hadm⟩

end Sys2Proof.Machine
end
